-- ==== Sys2Proof/Word.lean ====
section
/-!
DEFINITION. Word.lean: the words that the spec treats as bits.
-/
namespace Sys2Proof

/-- One byte of a packet, a frame or host memory. -/
abbrev Byte := BitVec 8

/-- One 64-byte flit; byte k is bits 8k+7:8k (02 R35). -/
abbrev Flit := BitVec 512

/-- A register's 64 bits (00 R3). -/
abbrev Word := BitVec 64

/-- A 64-byte descriptor; word n is bits 64n+63:64n (09 R335). -/
abbrev Desc := BitVec 512

end Sys2Proof
end

