-- ==== Sys2Proof/Syntax.lean ====
section
/-!
DEFINITION. Syntax.lean: the commands of the block, one constructor a row of spec/opcode_table.json, and the types of
their operands. A command is what reaches the block from outside (a host, a peer, a pin, a regulator) or an event the
spec gives a time or an occasion to; its operands carry what the outside supplies.
-/
namespace Sys2Proof

abbrev PortNo := Fin 64
abbrev HostLink := Fin 8
abbrev AcctNo := Fin 16384
abbrev TreeNo := Fin 4096
abbrev MovNo := Fin 64
abbrev EndPoint := BitVec 23
abbrev FnNo := BitVec 9
abbrev Bytes := List Byte

/-- How an access came through a BAR (00 R550): BAR (0 BAR0, 1 BAR2, 2 BAR4), function as HBI_OWIN.function, host link. -/
structure BarVia where
  bar : Fin 3
  fn  : FnNo
  hl  : HostLink
  deriving DecidableEq, Repr

/-- A register access: its address (a local-bus address, or with `via` an offset in the BAR), its size in bytes, and
whether a write's data is poisoned (08 R305). -/
structure Access where
  addr   : BitVec 48
  size   : BitVec 8
  via    : Option BarVia
  poison : Bool
  deriving DecidableEq, Repr

/-- A master other than Izger that writes registers: the Steward function of a host link, through PF0 BAR0 (08 R298, R299), or a Mover
channel (10 R372). -/
inductive Master where
  | pf0 (n : HostLink)
  | mover (c : MovNo)
  deriving DecidableEq, Repr

/-- Who writes a register whose write is a command of its own; `none` is Izger. A poisoned write of such a register is a REGISTER_WRITE
(08 R305). -/
abbrev Writer := Option Master

/-- The part of a register that a write covers (00 R4); a 32-bit write carries its data in the low half of its operand. -/
inductive Part where
  | whole | low | high
  deriving DecidableEq, Repr

/-- Where a descriptor comes from: a ring, or a fired standing order (05 R208). -/
inductive Source where
  | ring (r : Fin 64)
  | fired
  deriving DecidableEq, Repr

/-- What a descriptor read returned (09 R332, R337). -/
inductive FetchResult where
  | ok (ds : List Desc)
  | failed
  deriving DecidableEq, Repr

/-- One run of host memory that the host answers reads of. -/
structure HostChunk where
  addr   : Nat
  data   : Bytes
  poison : Bool
  late   : Bool := false  -- no completion comes within the timeout of 08 R312
  deriving DecidableEq, Repr

/-- What the host's memory answers to the reads a command makes: an address in no chunk completes with an error (08 R305), one in a
chunk that is late with none before the timeout. -/
abbrev HostView := List HostChunk

/-- A link frame as received or sent (02 R35). `tags` and `flits` have 15 entries. -/
structure LinkFrame where
  ftype    : BitVec 4
  version  : BitVec 4
  nak      : Bool
  qs0v     : Bool
  qs1v     : Bool
  replayed : Bool
  seq      : BitVec 24
  ackSeq   : BitVec 24
  cr0Class : BitVec 5
  cr0Count : BitVec 11
  cr1Class : BitVec 5
  cr1Count : BitVec 11
  tags     : List (BitVec 8)
  qs0      : BitVec 128
  qs1      : BitVec 128
  flits    : List Flit
  fcrc     : BitVec 32
  res1     : BitVec 4 := 0   -- reserved bits 7:4 of byte 1, as received (02 R33)
  res27    : BitVec 8 := 0   -- reserved byte 27, as received (02 R33)
  deriving DecidableEq, Repr

/-- What the lanes did to one codeword (03 R67, R70): what was added to its symbols, by position, position 0 being sent first. -/
abbrev CwErrs := List (Fin 544 × BitVec 10)

/-- What the lanes did to the codewords that bring a frame (03 R68, R69): the errors in each codeword that must be decoded for
this frame and not for one before it, in order (none where one is left out), and those in the codewords of marker groups
that came since the frame before. -/
structure RxErrors where
  words : List CwErrs
  marks : List CwErrs
  deriving DecidableEq, Repr

/-- The status of a host's completion: a success, poisoned or not, Unsupported Request or Completer Abort (08 R305, R314). -/
inductive CplStatus where
  | ok | ur | ca | poisoned
  deriving DecidableEq, Repr

/-- A Translation Completion (08 R307): the translated page, its size in 4 KiB pages and its permissions; or denied. -/
inductive TransResult where
  | ok (trans pages : Nat) (rd wr untransOnly : Bool)
  | denied
  deriving DecidableEq, Repr

/-- What a PMBus device answered (12 R455). -/
inductive PmbAnswer where
  | ok (data : Nat)
  | nak | badPec | timeout
  deriving DecidableEq, Repr

/-- How a PMBus transaction went: the first answer, and the one to its retry where the first failed (12 R455). -/
structure PmbTry where
  first : PmbAnswer
  again : PmbAnswer
  deriving DecidableEq, Repr

/-- The fuses' contents (14 R493, R495, R501): serial, lifecycle state, owner slots enrolled and revoked, svn floor, the
unique device secret and whether its reading is blocked, and the hashes of the vendor root key and of each slot's owner key. -/
structure Fuses where
  serial    : BitVec 64
  lifecycle : BitVec 2
  enrolled  : BitVec 4
  revoked   : BitVec 4
  svnFloor  : BitVec 6
  uds       : BitVec 256
  udsBlock  : Bool
  rootHash  : BitVec 512
  owner     : List (BitVec 512)
  deriving DecidableEq, Repr

/-- What a read of the flash, or the delivery of an image, gave: its bytes, or none where nothing could be read (14 R499, R505). -/
abbrev FlashRead := Option Bytes

/-- What the flash gives at stage 0x7 (13 R470): the provisioning store with its envelope (14 R499); the registers that its body sets, as
(local-bus address, value), and the PRT_TARGET of each port, the layout of that body not being given (log entry 65); the cabling plan,
with its envelope, `none` where the flash holds none; and the DevID certificate with its CA chain (14 Table 14.7). -/
structure ProvRead where
  store   : FlashRead
  writes  : List (BitVec 48 × Word)
  targets : List (PortNo × BitVec 4)
  plan    : FlashRead
  chain   : Bytes
  deriving DecidableEq, Repr

/-- What SEC_CMD.go meets beside the blob in SEC_CMD_BUF (14 R497): whether the fuses program and read back, and how the command came:
written to the registers by a function or by Izger (for MCTP), or through MG (`none`). -/
structure SecCmd where
  fuseOk : Bool
  via    : Option Writer
  deriving DecidableEq, Repr

/-- Where an MCTP message came from (08 R323; 13 R471): a PCIe vendor-defined message to a function, with its Vendor ID and its sender's
requester ID, or the management bus. -/
inductive MctpFrom where
  | vdm (n : HostLink) (fn : FnNo) (vendor req : BitVec 16)
  | bus
  deriving DecidableEq, Repr

/-- Where an SPDM message came from (14 R503): a DOE mailbox or MCTP. -/
inductive SpdmChan where
  | doe (n : HostLink)
  | mctp
  deriving DecidableEq, Repr

/-- The commands: the rows of spec/opcode_table.json. -/
inductive Instr where
  /-- REGISTER_WRITE (R8): A write to a register field that has no row of its own sets, clears or ignores the field by its access type. -/
  | registerWrite (a : Access) (v : BitVec 64)
  /-- RC_READ (R8): A read that covers an RC field returns its value and then clears the field. -/
  | rcRead (a : Access)
  /-- UNMAPPED_ACCESS (R6): An access to an unmapped offset, or of the wrong size or alignment, reads zero, ignores a write and raises UNMAPPED. -/
  | unmappedAccess (a : Access) (write : Bool)
  /-- DOMAIN_OFF_ACCESS (R13): A register access to a block whose power domain is off reads zero, ignores a write and raises DOMAIN_OFF. -/
  | domainOffAccess (a : Access) (write : Bool)
  /-- IZG_LOCK_SET (R9): A write of 1 to IZG_LOCK locks every RWL field until POR. -/
  | izgLockSet (w : Writer)
  /-- DOORBELL_WRITE (R331): A doorbell write sets a ring's producer index when it lies in range, and is otherwise ignored and counted. -/
  | doorbellWrite (a : AcctNo) (r : Fin 64) (v : BitVec 64)
  /-- INLINE_PUSH (R333): A 64-byte push to the doorbell page carries one descriptor and advances P when accepted. -/
  | inlinePush (a : AcctNo) (d : BitVec 512)
  /-- EQ_CONSUMER_DOORBELL (R345): A write to an event queue's consumer doorbell sets its consumer index and may arm the queue. -/
  | eqConsumerDoorbell (a : AcctNo) (q : Fin 64) (v : BitVec 64)
  /-- RING_ENABLE (R329): Setting a ring's enable takes a ring from the pool, or sets ring_pool when the pool is empty. -/
  | ringEnable (a : AcctNo) (r : Fin 64)
  /-- RING_DISABLE (R330): Clearing a ring's enable stops it and keeps both indices. -/
  | ringDisable (a : AcctNo) (r : Fin 64)
  /-- EQ_ENABLE (R339): Setting an event queue's enable takes a queue from the pool, or sets eq_pool when empty. -/
  | eqEnable (a : AcctNo) (q : Fin 64)
  /-- EQ_DISABLE (R347): Clearing an event queue's enable is ignored while events are owed or notices wait. -/
  | eqDisable (a : AcctNo) (q : Fin 64)
  /-- DESCRIPTOR_FETCH_COMPLETE (R332): A read of up to 64 descriptors from a ring returns and the descriptors are checked and consumed in index order. -/
  | descriptorFetchComplete (a : AcctNo) (r : Fin 64) (res : FetchResult)
  /-- NOP (R338): A NOP descriptor does nothing and completes with NOP_DONE. -/
  | nop (a : AcctNo) (from_ : Source)
  /-- FENCE (R338): A FENCE holds later descriptors of its ring or account until earlier ones complete, then writes FENCE_DONE. -/
  | fence (a : AcctNo) (from_ : Source)
  /-- PUT (R187): A PUT descriptor is checked, takes a msg_id and a source entry, and its packets are sent. -/
  | put (a : AcctNo) (from_ : Source) (hv : HostView)
  /-- GET (R189): A GET descriptor takes a tracking entry and sends GET_REQ runs. -/
  | get (a : AcctNo) (from_ : Source) (hv : HostView)
  /-- ATOMIC (R187): An ATOMIC descriptor is checked and sends one ATOMIC_REQ with a fresh nonce. -/
  | atomic (a : AcctNo) (from_ : Source) (hv : HostView)
  /-- ORDER (R207): An ORDER descriptor parks its triggered descriptor against a counter threshold, firing at once if already met. -/
  | order (a : AcctNo) (from_ : Source) (hv : HostView)
  /-- SEND (R224): A SEND descriptor takes a Ledger sequence and is sent eagerly or as a rendezvous RTS. -/
  | send (a : AcctNo) (from_ : Source) (hv : HostView)
  /-- RECV (R220): A RECV descriptor matches the unexpected list or becomes a POSTED entry. -/
  | recv (a : AcctNo) (from_ : Source) (hv : HostView)
  /-- RECV_PROBE (R236): A RECV with probe = 1 searches the unexpected list and writes one PROBE event. -/
  | recvProbe (a : AcctNo) (from_ : Source)
  /-- RECV_CANCEL (R237): A RECV with cancel = 1 removes the earliest live POSTED entry with its cookie. -/
  | recvCancel (a : AcctNo) (from_ : Source)
  /-- RECV_OVF (R238): A RECV with ovf = 1 adds an overflow buffer to its context's queue. -/
  | recvOvf (a : AcctNo) (from_ : Source)
  /-- COLL (R259): A COLL descriptor is checked and its leaf joins the tree's operation. -/
  | coll (a : AcctNo) (from_ : Source) (hv : HostView)
  /-- MOVE (R379): A MOVE descriptor is checked and waits for a free descriptor channel. -/
  | move (a : AcctNo) (from_ : Source) (hv : HostView)
  /-- ALLOWANCE_TURN (R351): A host link's deficit round robin visits an account, adds its quantum and serves descriptors and packets. -/
  | allowanceTurn (n : HostLink) (a : AcctNo)
  /-- NOTICE_WRITE (R344): A waiting notice is written when its notify queue has room. -/
  | noticeWrite (a : AcctNo)
  /-- BIND (R349): ACC_CMD BIND moves a REMOVED account to ACTIVE and raises its generation. -/
  | bind (w : Writer) (v : Word)
  /-- ACCOUNT_RESET (R357): ACC_CMD RESET resets an account by generation or by drain and returns it to ACTIVE. -/
  | accountReset (w : Writer) (v : Word)
  /-- REMOVE (R349): ACC_CMD REMOVE resets an account and leaves it REMOVED. -/
  | remove (w : Writer) (v : Word)
  /-- FREEZE (R360): ACC_CMD FREEZE stops consumption and lets in-flight work end. -/
  | freeze (w : Writer) (v : Word)
  /-- THAW (R360): ACC_CMD THAW returns a FROZEN account to ACTIVE and fires satisfied orders. -/
  | thaw (w : Writer) (v : Word)
  /-- SAVE (R362): ACC_CMD SAVE starts writing a migration image of a quiesced account. -/
  | save (w : Writer) (v : Word)
  /-- RESTORE (R363): ACC_CMD RESTORE checks and starts loading a migration image into a REMOVED account. -/
  | restore (w : Writer) (v : Word) (hv : HostView)
  /-- STUB (R364): ACC_CMD STUB turns a saved account into REMOVED with a forwarding stub entry. -/
  | stub (w : Writer) (v : Word)
  /-- ACC_BAD_CMD (R349): An ACC_CMD with an undefined code ends with result BAD_CMD. -/
  | accBadCmd (w : Writer) (v : Word)
  /-- SLICE_BIND (R327): ACC_SLICE_CMD BIND binds a provisioned slice of the host link. -/
  | sliceBind (n : HostLink) (v : Word)
  /-- SLICE_RESET (R327): ACC_SLICE_CMD RESET resets a slice of the host link. -/
  | sliceReset (n : HostLink) (v : Word)
  /-- SLICE_REMOVE (R327): ACC_SLICE_CMD REMOVE removes a slice of the host link. -/
  | sliceRemove (n : HostLink) (v : Word)
  /-- SLICE_FREEZE (R327): ACC_SLICE_CMD FREEZE freezes a slice. -/
  | sliceFreeze (n : HostLink) (v : Word)
  /-- SLICE_THAW (R327): ACC_SLICE_CMD THAW thaws a slice. -/
  | sliceThaw (n : HostLink) (v : Word)
  /-- SLICE_SAVE (R362): ACC_SLICE_CMD SAVE writes a slice image to an IOVA in PF1's space. -/
  | sliceSave (n : HostLink) (v : Word)
  /-- SLICE_RESTORE (R363): ACC_SLICE_CMD RESTORE loads a slice image from PF1's space. -/
  | sliceRestore (n : HostLink) (v : Word) (hv : HostView)
  /-- FREEZE_QUIESCED (R360): When in-flight work of a freezing account has ended, quiesced is set and an ACCOUNT_NOTICE is written. -/
  | freezeQuiesced (a : AcctNo)
  /-- FREEZE_BOUND_EXPIRY (R360): At freeze_ms after FREEZE, running transfers fail with FREEZE_BOUND and COLLs abort. -/
  | freezeBoundExpiry (a : AcctNo)
  /-- SAVE_IMAGE_WRITTEN (R362): The migration image has been written and the account returns to FROZEN. -/
  | saveImageWritten (hv : HostView)
  /-- RESTORE_IMAGE_LOADED (R363): The image has been loaded and the account enters FROZEN with a restored notice. -/
  | restoreImageLoaded (hv : HostView) (areas : HostView)
  /-- ACCOUNT_DRAIN_END (R358): A privileged account's drain ends, its generation rises and the reset or removal completes. -/
  | accountDrainEnd (a : AcctNo)
  /-- VF_ENABLE_SET (R328): Setting VF Enable binds every auto_bind account of the host link's VFs. -/
  | vfEnableSet (n : HostLink) (numVfs : Nat)
  /-- VF_ENABLE_CLEAR (R328): Clearing VF Enable removes every VF account of the host link. -/
  | vfEnableClear (n : HostLink)
  /-- STUB_EXPIRY (R364): A stub entry reaches its expiry and stops forwarding. -/
  | stubExpiry (k : Nat)
  /-- STUB_CANCEL (R364): A write of 1 to ACC_STUB.valid ends a stub early. -/
  | stubCancel (w : Writer) (k : Nat)
  /-- FRAME_RECEIVE (R84): A link frame is received and its acknowledgement, NAK, credits, QS slots and flits are processed. -/
  | frameReceive (p : PortNo) (f : LinkFrame) (rx : RxErrors)
  /-- FRAME_SEND (R74): At each frame slot the sender builds a replay, CTRL, DATA or IDLE frame, fills flit and QS slots and credit returns. -/
  | frameSend (p : PortNo)
  /-- ACK_TIMER_EXPIRY (R87): The ack timer expires with frames held and a replay from the oldest frame starts. -/
  | ackTimerExpiry (p : PortNo)
  /-- ERROR_WINDOW_END (R88): An error window of 2^24 frame periods ends and its counts restart. -/
  | errorWindowEnd (p : PortNo)
  /-- SIGNAL_LOSS (R89): Loss of signal on an active lane for more than 1 µs brings the link down. -/
  | signalLoss (p : PortNo) (l : Fin 8)
  /-- LINK_RESET_WRITE (R89): A write of 1 to LNK_CTL.reset brings the link down or leaves HELD or DISABLED. -/
  | linkResetWrite (w : Writer) (p : PortNo)
  /-- RESET_ENTRY_DONE (R92): After 6 µs in RESET_ENTRY the port moves to DETECT. -/
  | resetEntryDone (p : PortNo)
  /-- DETECT_STABLE (R92): The set of lanes with signal has been stable for 100 µs and the port moves to LANE_TRAIN. -/
  | detectStable (p : PortNo) (signal : BitVec 8) (txShort : BitVec 8)
  /-- TRAINING_SET_RECEIVE (R93): A training set is received, locking polarity and lane mapping and counting reset sets. -/
  | trainingSetReceive (p : PortNo) (l : Fin 8) (ts : BitVec 256)
  /-- TRAIN_TIMEOUT (R92): A training state's timeout expires and the port returns to RESET_ENTRY. -/
  | trainTimeout (p : PortNo)
  /-- IDENT (R96): An IDENT CTRL message is received and stored for the identity checks. -/
  | ident (p : PortNo)
  /-- IDENT_SIG (R96): An IDENT_SIG is received and the identity checks decide SPEED_EQ, PARAM or HELD. -/
  | identSig (p : PortNo)
  /-- EQUALIZATION_DONE (R98): Equalisation at the agreed rate ends, agreeing width and rate or trying a lower rate. -/
  | equalizationDone (p : PortNo) (passed : BitVec 8)
  /-- PARAM (R554): A PARAM CTRL message is received, reconciling credits, resuming replay and measuring the round trip. -/
  | param (p : PortNo)
  /-- CREDIT_SYNC (R81): A CREDIT_SYNC CTRL message restores credits lost in corrupt frames. -/
  | creditSync (p : PortNo)
  /-- CREDIT_SYNC_REQ (R81): A CREDIT_SYNC_REQ makes the Vault owner send a CREDIT_SYNC within 64 frame periods. -/
  | creditSyncReq (p : PortNo)
  /-- CREDIT_SYNC_PERIOD (R81): Every 65,536 frame periods the Vault owner sends a CREDIT_SYNC. -/
  | creditSyncPeriod (p : PortNo)
  /-- HELD_PROBE (R92): Every 100 ms a HELD port runs a 1 ms DETECT probe and leaves HELD if the signal pattern changed. -/
  | heldProbe (p : PortNo) (pattern : BitVec 8)
  /-- RESET_LIMIT_EXPIRY (R108): LNK_RESET_LIMIT expires without ACTIVE; the port is out of service, raises RESET_LIMIT and hands back Escrow. -/
  | resetLimitExpiry (p : PortNo)
  /-- REACH_WRITE (R106): A write to LNK_REACH.km is accepted or refused with REACH_REFUSED. -/
  | reachWrite (w : Writer) (p : PortNo) (v : Word)
  /-- CELL_RECEIVE (R113): A Fifel cell is received, acknowledged, credited and reassembled into FIFEL packets. -/
  | cellReceive (p : PortNo) (c : Flit) (errs : CwErrs)
  /-- CELL_ACK_TIMEOUT (R113): No cack advance for 4 µs with cells outstanding brings a CELL link down. -/
  | cellAckTimeout (p : PortNo)
  /-- QUIET (R444): A QUIET CTRL message is accepted or refused by QUIET_ACK. -/
  | quiet (p : PortNo)
  /-- QUIET_ACK (R444): A QUIET_ACK puts the requesting port in QUIET or returns it to service. -/
  | quietAck (p : PortNo)
  /-- QUIET_TIMEOUT (R444): No answer to QUIET within 10 µs returns the port to service. -/
  | quietTimeout (p : PortNo)
  /-- QUIET_RETRY (R444): After 100 µs a refused or unanswered QUIET is retried while its cause remains. -/
  | quietRetry (p : PortNo)
  /-- QUIET_SIGNAL_DETECT (R445): A port in QUIET sees a signal, sets its tile's activity vote and relocks. -/
  | quietSignalDetect (p : PortNo)
  /-- WAKE_NOANS_TIMEOUT (R445): A waking port not ACTIVE after 10 µs stays QUIET and counts the attempt. -/
  | wakeNoansTimeout (p : PortNo)
  /-- WAKE_EXCHANGE_RETRY (R445): Every 1 ms a QUIET port of a voted tile retries the wake exchange. -/
  | wakeExchangeRetry (p : PortNo)
  /-- FORWARDING_DECISION (R552): A packet header enters the switch core and the router checks age, chooses a move and forwards, relays or delivers it. -/
  | forwardingDecision (p : PortNo) (c : Fin 18)
  /-- SAMPLE_FLUSH_TIMER (R159): flush_us after a batch's first record the partial batch is sent. -/
  | sampleFlushTimer
  /-- HALL_RELAY_REINJECT (R124): A packet whose tail has arrived on a HALL port is age-checked, restamped and re-injected. -/
  | hallRelayReinject
  /-- MG_RELAY (R127): An MG packet entering a new group or hall is stored and re-injected, or discarded when the relay is full. -/
  | mgRelay
  /-- MULTICAST_CONSUME (R148): A multicast packet is consumed and copied on its mask's ports and to the local consumer. -/
  | multicastConsume
  /-- FIFEL_PACKET (R128): A FIFEL packet is routed within its group to its CELL port or discarded with FIFEL_SCOPE. -/
  | fifelPacket
  /-- EPOCH_FLIP (R145): An EPOCH_FLIP message schedules, cancels or immediately makes a flip and is flooded. -/
  | epochFlip
  /-- EPOCH_FLIP_TIME (R145): Hallmark reaches a scheduled flip time and the injection epoch changes. -/
  | epochFlipTime
  /-- DRAINING_END (R140): 1 ms after a flip the old version becomes idle. -/
  | drainingEnd (v : Bool)
  /-- ADVERT (R142): An ADVERT MG packet is received, forwarded once and used for the default tables. -/
  | advert
  /-- QS_MESSAGE_RECEIVE (R155): A QS message arrives and is delivered here, dropped, or queued for placement. -/
  | qsMessageReceive
  /-- PACKET_SEND (R183): A congestion context paces out the next packet of a message and hands it to Routing under the injection policy. -/
  | packetSend (k : Nat) (hv : HostView)
  /-- PUT_PACKET_RECEIVE (R188): A PUT packet passes destination, duplicate and key checks and is written to host memory. -/
  | putPacketReceive (hv : HostView)
  /-- GET_REQ_SERVE (R190): A GET_REQ is key-checked and the target reads host memory to send GET_RESP packets. -/
  | getReqServe (hv : HostView)
  /-- GET_RESP_RECEIVE (R191): A GET_RESP is accepted and written, or discarded, and may complete the GET or send the next run. -/
  | getRespReceive (hv : HostView)
  /-- ATOMIC_REQ_RECEIVE (R193): An ATOMIC_REQ is executed once at the target or answered from the receipt book. -/
  | atomicReqReceive (hv : HostView)
  /-- ATOMIC_RESP_RECEIVE (R196): An ATOMIC_RESP matching the outstanding atomic writes the prior value and completes it. -/
  | atomicRespReceive
  /-- SEND_EAGER_RECEIVE (R225): A SEND_EAGER packet is sequence-checked, admitted, matched or stored, and written. -/
  | sendEagerReceive (hv : HostView)
  /-- SEND_RTS_RECEIVE (R233): A SEND_RTS is admitted and on a match Ledger issues the pull GET. -/
  | sendRtsReceive (hv : HostView)
  /-- MG_RECEIVE (R59): An MG packet at its destination passes to Izger after check 3. -/
  | mgReceive
  /-- RECEIPT (R171): A RECEIPT completes an outstanding message or is counted late. -/
  | receipt
  /-- E2E_NAK (R175): An E2E_NAK schedules a resend of the named packet or fails the message with RESOURCE. -/
  | e2eNak
  /-- NAK_DELAY_EXPIRY (R175): nak_delay_ns after an E2E_NAK the named packet is re-read and resent. -/
  | nakDelayExpiry (k : Nat) (n : Nat) (hv : HostView)
  /-- CECHO (R185): A CECHO halves the congestion window of the message's context. -/
  | cecho
  /-- UNREACH (R176): An UNREACH fails or expires the named message, or is counted late. -/
  | unreach (hv : HostView)
  /-- RETRANSMIT_TIMEOUT (R173): A message's retransmission timer expires, sending a probe or failing it with TIMEOUT. -/
  | retransmitTimeout (k : Nat) (hv : HostView)
  /-- HOLE_TIMER_EXPIRY (R174): The destination's hole timer expires and E2E_NAKs name the missing packets. -/
  | holeTimerExpiry (src : EndPoint) (msg : BitVec 32)
  /-- OPEN_ENTRY_ABANDON (R167): An open entry idle for time_us is closed without a receipt. -/
  | openEntryAbandon (src : EndPoint) (msg : BitVec 32)
  /-- FILTER_EXPIRY (R180): A completed-message filter entry reaches its expiry and is freed. -/
  | filterExpiry (src : EndPoint) (msg : BitVec 32)
  /-- CWND_GROW (R185): An srtt passes with packets sent and no halving and cwnd rises by 1. -/
  | cwndGrow (i : Fin 65536)
  /-- CONTEXT_IDLE_RESET (R183): A congestion context idle for 1 ms returns to its initial window and srtt. -/
  | contextIdleReset (i : Fin 65536)
  /-- REQUEST_HOLD_END (R163): 65,536 µs after a device reset Transport may inject request packets. -/
  | requestHoldEnd
  /-- FLUSH_READ_RETURN (R315): A flush read returns, allowing a VISIBLE receipt, Mover completion or key invalidation to finish. -/
  | flushReadReturn (n : HostLink) (ok : Bool)
  /-- KEY_INVAL (R201): TLR_KEY_INVAL.go invalidates keys and issues a flush read. -/
  | keyInval (w : Writer) (v : Word)
  /-- RANK_INVAL (R202): TLR_RANK_INVAL.go invalidates rank-cache entries of an account. -/
  | rankInval (w : Writer) (v : Word)
  /-- COUNTER_WRITE (R208): A write to TLR_CTR sets the counter and fires every order its value satisfies. -/
  | counterWrite (w : Writer) (i : Fin 65536) (part : Part) (v : Word)
  /-- APERTURE_LOAD (R204): A BAR4 read becomes a GET and is answered with a completion. -/
  | apertureLoad (n : HostLink) (fn : FnNo) (off : BitVec 64) (len : BitVec 13) (tag : Nat) (hv : HostView)
  /-- APERTURE_STORE (R205): A BAR4 write becomes a one-packet PUT. -/
  | apertureStore (n : HostLink) (fn : FnNo) (off : BitVec 64) (data : Bytes) (hv : HostView)
  /-- APERTURE_TIMEOUT (R204): An Aperture load with no data by timeout_us completes with Completer Abort and APT_FAULT. -/
  | apertureTimeout (n : HostLink) (tag : Nat)
  /-- CTX_RANGE_WRITE (R212): A write to LDG_ACC_CTX is applied or refused with LDG_CTX_OVERLAP. -/
  | ctxRangeWrite (w : Writer) (a : AcctNo) (v : Word)
  /-- CTX_ENABLE (R213): Setting a context's enable starts matching on it. -/
  | ctxEnable (w : Writer) (k : Fin 65536)
  /-- CTX_DISABLE (R214): Clearing a context's enable discards its entries and stops its pulls. -/
  | ctxDisable (w : Writer) (k : Fin 65536)
  /-- ORDER_FILL_COMPLETE (R223): An order-cache fill read returns and the waiting header or SEND proceeds or fails. -/
  | orderFillComplete (k : Fin 65536) (rank : Nat) (hv : HostView)
  /-- EAGER_COPY_DONE (R230): The spill engine finishes copying an unexpected eager payload to a RECV buffer. -/
  | eagerCopyDone (m : Nat) (hv : HostView)
  /-- SPILL_DONE (R240): The last entry of a spilling context is written and CTX_SPILLED is written. -/
  | spillDone (k : Fin 65536)
  /-- RETURN_START (R240): A spilled context below low_water with room begins reading its entries back. -/
  | returnStart (k : Fin 65536)
  /-- RETURN_DONE (R240): The last entry of a returning context is read and CTX_RETURNED is written. -/
  | returnDone (k : Fin 65536) (ok : Bool)
  /-- TREE_ACTIVATE (R250): ALY_TREE_CTL activate runs the activation checks and makes the tree ACTIVE. -/
  | treeActivate (w : Writer) (v : Word)
  /-- TREE_DEACTIVATE (R250): ALY_TREE_CTL deactivate aborts operations, frees slots and makes the tree IDLE. -/
  | treeDeactivate (w : Writer) (v : Word)
  /-- COLL_SCHEDULED_START (R266): Hallmark reaches a COLL's start time and the leaf begins reading its contribution. -/
  | collScheduledStart (t : TreeNo) (n : HostLink) (hv : HostView)
  /-- COLL_UP_RECEIVE (R262): An up segment is combined once into its slot, sent up when complete, and receipted. -/
  | collUpReceive
  /-- COLL_DN_RECEIVE (R264): A down segment is written to the leaves, copied to children and receipted. -/
  | collDnReceive
  /-- ALY_RECEIPT (R263): An ALY_RECEIPT releases the held segment and may free a slot. -/
  | alyReceipt
  /-- SEGMENT_RETX_TIMER (R263): A held segment is resent every retx_us, aborting after the retry limit. -/
  | segmentRetxTimer (t : TreeNo) (edge : Nat) (down : Bool) (idx : Nat) (opseq : Nat)
  /-- ALY_TOKEN (R267): An arrival, release or abort token is received and handled for the tree. -/
  | alyToken
  /-- TOKEN_RESEND_TIMER (R267): Every token_gap_us an unreleased arrival or unanswered abort token is resent. -/
  | tokenResendTimer (t : TreeNo)
  /-- OP_TIMEOUT (R278): An operation in progress longer than op_timeout_ms aborts the tree. -/
  | opTimeout (t : TreeNo)
  /-- PERST_ASSERT (R465): PERST_N_n falls and the host links of HB_n are held in fundamental reset. -/
  | perstAssert (n : Fin 4)
  /-- PERST_DEASSERT (R473): PERST_N_n rises and the host links of HB_n start training. -/
  | perstDeassert (n : Fin 4)
  /-- DL_DOWN (R319): A host link's data link goes down and every function is reset. -/
  | dlDown (n : HostLink)
  /-- HOT_RESET (R319): A hot reset resets every function of the host link. -/
  | hotReset (n : HostLink)
  /-- HOST_LINK_UP (R287): A host link's data link layer comes up. -/
  | hostLinkUp (n : HostLink) (rate : BitVec 3) (lanes : BitVec 5) (flit : Bool)
  /-- FUNCTION_LEVEL_RESET (R317): A function-level reset resets or drains the function's accounts or channels. -/
  | functionLevelReset (n : HostLink) (fn : FnNo)
  /-- FLR_DRAIN_END (R318): A draining reset ends when all transfers have completed and sends Function Readiness Status. -/
  | flrDrainEnd (n : HostLink) (fn : FnNo)
  /-- DRAIN_SQUASH_TIMER (R318): 90 ms into a drain remaining transfers are squashed. -/
  | drainSquashTimer (n : HostLink) (fn : FnNo)
  /-- BME_CLEAR (R316): Clearing Bus Master Enable holds the function's work in BME_HOLD. -/
  | bmeClear (n : HostLink) (fn : FnNo)
  /-- BME_SET (R316): Setting Bus Master Enable resumes held work. -/
  | bmeSet (n : HostLink) (fn : FnNo)
  /-- D3HOT_ENTER (R320): A function enters D3hot and issues no request; both PFs in D3hot withdraw the power vote. -/
  | d3hotEnter (n : HostLink) (fn : FnNo)
  /-- D0_RETURN (R320): A function returns to D0 keeping all state. -/
  | d0Return (n : HostLink) (fn : FnNo)
  /-- CONFIG_REQUEST (R295): A configuration request is served, or completes with RRS until ready. -/
  | configRequest (n : HostLink) (fn : FnNo) (dw : BitVec 10) (be : BitVec 4) (wr : Option (BitVec 32))
  /-- UNSUPPORTED_REQUEST (R298): An MRdLk or AtomicOp request to any BAR completes with Unsupported Request. -/
  | unsupportedRequest (n : HostLink) (fn : FnNo) (bar : Fin 3)
  /-- HOST_COMPLETION_RECEIVE (R314): A completion for a device read arrives and is delivered to its engine or discarded. -/
  | hostCompletionReceive (n : HostLink) (fn : FnNo) (tag : Nat) (cpl : CplStatus) (data : Bytes)
  /-- COMPLETION_TIMEOUT (R312): A non-posted request times out, fails with HOST_ERROR and its tag is quarantined. -/
  | completionTimeout (n : HostLink) (fn : FnNo) (tag : Nat)
  /-- QUARANTINE_EXPIRY (R313): Twice the timeout after a timed-out request its tag is freed. -/
  | quarantineExpiry (n : HostLink) (fn : FnNo) (tag : Nat)
  /-- TRANSLATION_COMPLETION (R307): A Translation Completion returns and the held request proceeds or fails with ATS_DENIED. -/
  | translationCompletion (n : HostLink) (fn : FnNo) (page : Nat) (res : TransResult)
  /-- INVALIDATE_REQUEST (R309): An ATS Invalidate Request removes matching translation entries. -/
  | invalidateRequest (n : HostLink) (fn : FnNo) (itag : BitVec 5) (pasid : Option (BitVec 20)) (all : Bool) (page : Nat) (pages : Nat)
  /-- INVALIDATE_COMPLETION (R309): After requests using removed translations finish the Invalidate Completion is sent. -/
  | invalidateCompletion (n : HostLink) (itag : BitVec 5)
  /-- OUTBOUND_ACCESS (R300): A local-bus access in an outbound window is issued to host memory or faults with OWIN_FAULT. -/
  | outboundAccess (m : Fin 128) (addr : BitVec 48) (write : Bool) (data : Bytes) (poison : Bool) (len : BitVec 13)
  /-- DOE_REQUEST (R322): A DOE data object is received by PF0 and answered by Izger. -/
  | doeRequest (n : HostLink) (vendor : BitVec 16) (typ : BitVec 8) (body : Bytes)
  /-- DOE_ABORT (R322): A DOE Abort ends the exchange within 10 ms. -/
  | doeAbort (n : HostLink)
  /-- MCTP_MESSAGE (R323): An MCTP vendor-defined message is received by PF0 and handled by Izger. -/
  | mctpMessage (src : MctpFrom) (typ : BitVec 7) (body : Bytes)
  /-- MOVER_GO (R373): MOV_CTL.go starts an IDLE register channel. -/
  | moverGo (ch : MovNo) (starter : Writer) (hv : HostView)
  /-- MOVER_ABORT (R376): MOV_CTL.abort stops a running channel with status ABORTED. -/
  | moverAbort (w : Writer) (ch : MovNo)
  /-- CHANNEL_GRANT (R379): A descriptor channel frees and is granted to the oldest waiting MOVE. -/
  | channelGrant (ch : MovNo) (hv : HostView)
  /-- MOVER_COMPLETE (R375): A transfer's writes and flush read finish and done or MOVE_DONE is made. -/
  | moverComplete (ch : MovNo)
  /-- LOCKBOX_COMMIT (R388): LBX_COMMIT.go checks the staged regions and puts them in force or refuses. -/
  | lockboxCommit (w : Writer) (m : Fin 128)
  /-- LOCKBOX_DRAIN_DONE (R388): Every access checked under the old rules completes and done rises to 1. -/
  | lockboxDrainDone (m : Fin 128)
  /-- HMK_SYNC_PERIOD (R394): Every 1 ms each participating port sends a form 0 and a form 1 HMK_SYNC. -/
  | hmkSyncPeriod (edges : Nat)
  /-- HMK_SYNC_FORM0 (R396): A form 0 HMK_SYNC gives an offset sample that steps or slews the count. -/
  | hmkSyncForm0
  /-- HMK_SYNC_FORM1 (R400): A form 1 HMK_SYNC updates the election and may change parent or grandmaster. -/
  | hmkSyncForm1
  /-- PARENT_TIMEOUT (R402): A parent that delivers no form 0 for 3 ms is lost and the rate is held. -/
  | parentTimeout
  /-- FORM1_AGE_OUT (R400): A candidate port's last form 1 becomes older than 3 ms and the election is evaluated again. -/
  | form1AgeOut (p : PortNo)
  /-- PPS_IN_EDGE (R404): A rising edge of HMK_PPS_IN gives the external offset e. -/
  | ppsInEdge
  /-- HMK_EXT_LOST (R405): No PPS edge within 1.1 s clears ext_ok and raises HMK_EXT_LOST. -/
  | hmkExtLost
  /-- HMK_SET (R406): HMK_CTL.set loads HMK_SET into the count at once or refuses it. -/
  | hmkSet (w : Writer)
  /-- HMK_SET_AT_PPS (R406): HMK_CTL.set_at_pps arms a load of HMK_SET at the next PPS edge. -/
  | hmkSetAtPps (w : Writer)
  /-- PPS_OUT_PULSE (R407): The count passes a period multiple and HMK_PPS_OUT rises for width_ns. -/
  | ppsOutPulse
  /-- HMK_TIMER_FIRE (R408): An enabled Hallmark timer reaches its time, fires and casts its timer votes. -/
  | hmkTimerFire (i : Fin 8)
  /-- CLEARING_HOUSE_RECORD (R414): A record reaches the Clearing house, is stored or lost, and its reactions and FAULT_N act. -/
  | clearingHouseRecord
  /-- CLH_ACK_WRITE (R414): A write to CLH_ACK clears records below the new index. -/
  | clhAckWrite (w : Writer) (v : Word)
  /-- FLASH_BATCH (R419): Izger appends the queued flash-reaction records to the flash summary. -/
  | flashBatch (ok : Bool)
  /-- ASSAY_ARM (R422): ASY_CTL.arm arms Assay and discards the snapshot. -/
  | assayArm (w : Writer)
  /-- ASSAY_TRIGGER (R422): ASY_CTL.trigger makes a capture when armed. -/
  | assayTrigger (w : Writer)
  /-- ASSAY_TRIG_IN_EDGE (R422): A rising edge of ASSAY_TRIG_IN triggers a capture. -/
  | assayTrigInEdge
  /-- ASSAY_AT_TIME (R422): The count reaches ASY_AT and a timed capture is taken. -/
  | assayAtTime
  /-- ASSAY_AT (R425): An ASSAY_AT message sets or cancels ASY_AT and is flooded. -/
  | assayAt
  /-- TALLY_WRITE (R429): A write to TLY_CNT sets a counter. -/
  | tallyWrite (w : Writer) (i : Fin 1024) (part : Part) (v : Word)
  /-- TALLY_LATCH_PERIOD (R432): At each latch period all counters are copied to TLY_LATCHED. -/
  | tallyLatchPeriod
  /-- TALLY_LATCH_NOW (R432): TLY_LATCH_CTL.now copies all counters at once. -/
  | tallyLatchNow (w : Writer)
  /-- FM_VOTE (R434): An authenticated MG packet of subtype 0x40 clears and sets fabric-manager votes. -/
  | fmVote
  /-- WAKE (R434): A QS WAKE message casts wake votes on the named domains. -/
  | wake
  /-- VOTE_LEASE_EXPIRY (R434): A timer or wake vote expires lease_ms after its last casting. -/
  | voteLeaseExpiry (d : Fin 64) (wake : Bool)
  /-- DROP_DELAY_EXPIRY (R438): drop_delay_us after a domain's last vote went, the domain drops. -/
  | dropDelayExpiry (d : Fin 64)
  /-- WAKE_STEP_READY (R447): A wake step's ready signal rises and the next step begins. -/
  | wakeStepReady (d : Fin 64)
  /-- WAKE_FAIL (R448): A wake step not ready after ten times its maximum stops the wake and raises WAKE_FAIL. -/
  | wakeFail (d : Fin 64)
  /-- WAKE_RETRY (R448): 1 ms after a failed wake, the wake is retried while a vote remains. -/
  | wakeRetry (d : Fin 64)
  /-- PWR_REQ_FULL (R440): PWR_STATE_REQ FULL enters power state FULL. -/
  | pwrReqFull (w : Writer)
  /-- PWR_REQ_TRIM (R440): PWR_STATE_REQ TRIM enters power state TRIM. -/
  | pwrReqTrim (w : Writer)
  /-- PWR_REQ_VIGIL (R440): PWR_STATE_REQ VIGIL enters VIGIL or ends BUSY. -/
  | pwrReqVigil (w : Writer)
  /-- PWR_REQ_BAD (R440): PWR_STATE_REQ with req 11b ends with result BAD. -/
  | pwrReqBad (w : Writer)
  /-- PAD_RELEASE (R451): A write to PWR_PAD_RELEASE releases a held domain's pads and starts its link training. -/
  | padRelease (w : Writer) (v : Word)
  /-- AVS_REQUEST (R452): An AVSBus level request is written to a rail regulator. -/
  | avsRequest (w : Writer) (v : Word) (ack : Bool)
  /-- AVS_POLL (R452): Every 10 µs a Voltage read checks whether the rail reached its target. -/
  | avsPoll (r : Fin 2) (mv : BitVec 10)
  /-- AVS_TIMEOUT (R454): A level request not reached within 200 µs fails with AVS_RAISE_FAIL or AVS_LOWER_FAIL. -/
  | avsTimeout (r : Fin 2)
  /-- AVS_AUTO_PERIOD (R453): Every period_ms the device chooses new AVS levels. -/
  | avsAutoPeriod (mv0 : BitVec 10) (mv1 : BitVec 10) (ack0 : Bool) (ack1 : Bool)
  /-- PMB_TELEMETRY_POLL (R455): Every 10 ms the PMBus master reads regulator telemetry. -/
  | pmbTelemetryPoll (k : Fin 8) (vout : PmbTry) (iout : PmbTry) (temp : PmbTry)
  /-- PMB_ALERT (R455): PMB_ALERT_N low makes the master read STATUS_WORD and raise PMB_ALERT. -/
  | pmbAlert (k : Fin 8) (status : BitVec 16)
  /-- PMB_COMMAND (R455): PWR_PMB_CMD.go sends one PMBus command. -/
  | pmbCommand (w : Writer) (ans : PmbTry)
  /-- PMB_FAIL (R455): A PMBus transaction failing twice ends NACK, PEC or TIMEOUT with PMB_FAIL. -/
  | pmbFail (k : Fin 8) (cmd : BitVec 8) (why : Fin 3)
  /-- PG_LOST (R456): A PG input falls while its EN is high and the power-failure response starts. -/
  | pgLost (r : Fin 4)
  /-- THROTTLE (R457): The throttle engages on temperature or cause and raises THROTTLE. -/
  | throttle (sensor : Fin 32) (temp : BitVec 9)
  /-- THROTTLE_RELEASE (R457): The throttle's last cause ends and the throttle releases. -/
  | throttleRelease (sensor : Fin 32) (temp : BitVec 9)
  /-- THERMAL_TRIP (R458): A sensor at 130 °C for 1 µs trips the device, drops the rails and holds it COLD. -/
  | thermalTrip (sensor : Fin 32) (temp : BitVec 9)
  /-- PWRFAIL (R459): PWRFAIL_N falls; doorbells are discarded and records are written to the power-loss area. -/
  | pwrfail
  /-- PWRFAIL_CLEAR (R460): PWRFAIL_N high for 1 ms resumes doorbells and flash operations. -/
  | pwrfailClear
  /-- SDS_REFCLK_LOST (R463): A tile reference clock stops and its ACTIVE ports go down. -/
  | sdsRefclkLost (t : Fin 8)
  /-- PLL_UNLOCK (R463): A running core, engine or Izger PLL loses lock and raises PLL_UNLOCK. -/
  | pllUnlock (pll : Fin 3)
  /-- POR_ASSERT (R464): POR_N falls or VDD_AON drops (`aonLost`) and the device is COLD. -/
  | porAssert (aonLost : Bool)
  /-- POR_RELEASE (R469): POR_N rises, straps are sampled and the rail sequence starts. -/
  | porRelease (straps : BitVec 6)
  /-- RAIL_POWER_GOOD (R469): A PG input rises and the next rail is enabled. -/
  | railPowerGood
  /-- RAIL_TIMEOUT (R469): A PG input not high within 10 ms drops all EN outputs with error RAIL. -/
  | railTimeout
  /-- RESET_CTL_WRITE (R467): TOP_RESET_CTL with confirm 0xC0DE starts an internal device reset. -/
  | resetCtlWrite (w : Writer) (v : Word)
  /-- INTERNAL_DEVICE_RESET (R467): The device stops service, resets every block outside AON and re-enters BOOT. -/
  | internalDeviceReset
  /-- BOOT_PLL_LOCK (R470): Core, engine and Izger PLLs lock during boot. -/
  | bootPllLock (locked : Bool)
  /-- FUSE_READ (R470): Fuses are read and the lifecycle state is known. -/
  | fuseRead (fuses : Fuses)
  /-- FIRST_STAGE_VERIFY (R471): The ROM reads and verifies the first-stage image of the chosen bank or falls back. -/
  | firstStageVerify (img : FlashRead)
  /-- MAIN_FIRMWARE_VERIFY (R470): The first stage reads and verifies the main firmware. -/
  | mainFirmwareVerify (img : FlashRead)
  /-- PROVISIONING_APPLY (R470): The provisioning store and repair map are applied in stage 0x7. -/
  | provisioningApply (prov : ProvRead)
  /-- BOOT_PORTS_RESET (R470): LNK_CTL.reset is written on every provisioned port and the device enters REDUCED. -/
  | bootPortsReset
  /-- RECOVERY_IMAGE_LOAD (R471): A signed image delivered in recovery boot is verified and run. -/
  | recoveryImageLoad (img : FlashRead)
  /-- COORD (R478): A COORD packet updates head serial, coordinates, peer endpoint and join state. -/
  | coord
  /-- COORD_PERIOD (R476): Every 1 ms or 10 ms a device sends COORD on its fabric ports. -/
  | coordPeriod
  /-- HEAD_ASSIGN (R478): A head whose serial has been stable 10 ms assigns coordinates to its peers. -/
  | headAssign
  /-- GROUPKEYS (R479): A GROUPKEYS packet adds group keys and may fix the device's group. -/
  | groupkeys
  /-- GROUPKEYS_PERIOD (R479): Every 10 ms an incomplete key set is sent in GROUPKEYS. -/
  | groupkeysPeriod
  /-- COORD_TIMEOUT (R480): Coordinates not fixed within learn_ms set error COORD_TIMEOUT. -/
  | coordTimeout
  /-- TABLES_DONE_TIMER (R481): 50 ms without an ADVERT change after a rewrite sets tables_done. -/
  | tablesDoneTimer
  /-- UPGRADE_START (R482): The upgrade conditions hold and Izger writes provisioned targets and sets up_ready. -/
  | upgradeStart
  /-- BRINGUP_START (R482): TOP_BRINGUP_CTL.start starts the upgrade when auto_upgrade is 0. -/
  | bringupStart (w : Writer)
  /-- TILE_PASS_START (R483): A tile begins its upgrade pass tile_gap_ms × i after the start. -/
  | tilePassStart (i : Fin 8)
  /-- PORT_WAIT_TIMEOUT (R483): port_wait_ms after resetting a port the pass moves on. -/
  | portWaitTimeout (i : Fin 8)
  /-- UPGRADE_LIMIT_EXPIRY (R484): upgrade_limit_ms after the start the upgrade ends. -/
  | upgradeLimitExpiry
  /-- PAIR_CHECKPOINT (R490): Every 1 ms the standby pair receives a checkpoint of the active pair. -/
  | pairCheckpoint
  /-- IZG_LOCKSTEP (R491): An Izger pair's cores disagree; the pair fails and the standby takes over. -/
  | izgLockstep (pr : Fin 2)
  /-- WATCHDOG_EXPIRY (R491): A pair's watchdog expires 100 ms after its last kick and the pair fails. -/
  | watchdogExpiry (pr : Fin 2)
  /-- WATCHDOG_KICK (R491): IZG_PAIR_CTL.kick restarts the writing pair's watchdog. -/
  | watchdogKick (pr : Fin 2)
  /-- PAIR_TAKEOVER (R491): IZG_PAIR_CTL.takeover hands service to a healthy standby pair. -/
  | pairTakeover (w : Writer)
  /-- PAIR_SELF_TEST_DONE (R491): A failed pair's self-test ends and it rejoins as standby or stays failed. -/
  | pairSelfTestDone (pr : Fin 2) (pass : Bool)
  /-- MBOX_TO_IZG (R491): Setting IZG_MBOX_CTL.to_izg delivers a mailbox message to Izger. -/
  | mboxToIzg (w : Writer)
  /-- ENROLL (R497): Security command ENROLL programs an owner-key hash slot. -/
  | enroll (cmd : SecCmd)
  /-- REVOKE (R497): Security command REVOKE programs an owner slot's revocation fuse. -/
  | revoke (cmd : SecCmd)
  /-- RAISE_FLOOR (R497): Security command RAISE_FLOOR raises the svn floor. -/
  | raiseFloor (cmd : SecCmd)
  /-- UNLOCK (R495): Security command UNLOCK opens debug access and destroys the identity keys. -/
  | unlock (cmd : SecCmd)
  /-- RMA (R497): Security command RMA moves the lifecycle to RMA. -/
  | rma (cmd : SecCmd)
  /-- CERT_REQ (R502): A CERT_REQ MG packet is answered with the device's certificate chain. -/
  | certReq
  /-- CERT (R502): A CERT packet is checked and the port is admitted or sent to HELD. -/
  | cert
  /-- CERT_TIMEOUT (R502): No valid CERT within 20 ms of ACTIVE sends the port to HELD. -/
  | certTimeout (p : PortNo)
  /-- GET_VERSION (R503): SPDM GET_VERSION is answered. -/
  | getVersion (ch : SpdmChan)
  /-- GET_CAPABILITIES (R503): SPDM GET_CAPABILITIES is answered. -/
  | getCapabilities (ch : SpdmChan)
  /-- NEGOTIATE_ALGORITHMS (R503): SPDM NEGOTIATE_ALGORITHMS is answered. -/
  | negotiateAlgorithms (ch : SpdmChan)
  /-- GET_DIGESTS (R503): SPDM GET_DIGESTS is answered. -/
  | getDigests (ch : SpdmChan)
  /-- GET_CERTIFICATE (R503): SPDM GET_CERTIFICATE returns the slot 0 chain. -/
  | getCertificate (ch : SpdmChan) (slot : BitVec 4) (off len : BitVec 16)
  /-- CHALLENGE (R503): SPDM CHALLENGE is answered with an alias-key signature. -/
  | challenge (ch : SpdmChan) (slot : BitVec 4)
  /-- GET_MEASUREMENTS (R503): SPDM GET_MEASUREMENTS returns the signed measurements. -/
  | getMeasurements (ch : SpdmChan) (slot : BitVec 4) (idx : BitVec 8)
  /-- KEY_EXCHANGE (R503): SPDM KEY_EXCHANGE starts a secure session. -/
  | keyExchange (ch : SpdmChan) (slot : BitVec 4) (req : BitVec 16)
  /-- FINISH (R503): SPDM FINISH completes a session handshake. -/
  | finish (ch : SpdmChan) (sess : BitVec 32) (ok : Bool)
  /-- KEY_UPDATE (R503): SPDM KEY_UPDATE updates session keys. -/
  | keyUpdate (ch : SpdmChan) (sess : BitVec 32) (op : BitVec 8)
  /-- HEARTBEAT (R503): SPDM HEARTBEAT keeps a session alive. -/
  | heartbeat (ch : SpdmChan) (sess : BitVec 32)
  /-- END_SESSION (R503): SPDM END_SESSION ends a session. -/
  | endSession (ch : SpdmChan) (sess : BitVec 32)
  /-- FW_LOAD (R508): IZG_FW_CTL LOAD writes and verifies an image into a flash bank. -/
  | fwLoad (w : Writer) (bank : Fin 2)
  /-- FW_LOAD_DONE (R508): The loaded image has been programmed and verified and the bank becomes READY. -/
  | fwLoadDone (img : FlashRead) (flashOk : Bool)
  /-- FW_ACTIVATE (R509): IZG_FW_CTL ACTIVATE has the standby pair load and verify the new resident section. -/
  | fwActivate (w : Writer) (bank : Fin 2) (img : FlashRead)
  /-- FW_HANDOVER (R509): The standby pair takes over on new firmware and the bank becomes PENDING. -/
  | fwHandover
  /-- FW_COMMIT (R510): IZG_FW_CTL COMMIT makes the PENDING bank ACTIVE and may raise the floor. -/
  | fwCommit (w : Writer) (bank : Fin 2) (fuseOk : Bool)
  /-- FW_BAD_CMD (R508): An IZG_FW_CTL with an undefined command ends with STATE. -/
  | fwBadCmd (w : Writer) (v : Word)
  /-- AUTO_COMMIT (R510): commit_s after activation Izger commits unless a pair has failed. -/
  | autoCommit (fuseOk : Bool)
  /-- SLICE_FAULT (R512): A switch slice becomes faulty and the spare is swapped in or the slice is lost. -/
  | sliceFault (i : Fin 9)
  /-- SLICE_SELF_TEST (R512): Every 10 s the spare slice is self-tested. -/
  | sliceSelfTest (pass : Bool)
  /-- SLICE_SWAP_CMD (R512): IZG_SLICE_CTL.swap swaps out the named slice. -/
  | sliceSwapCmd (w : Writer) (v : Word)
  /-- SRAM_ERROR (R514): An access or the scrubber finds an SRAM error, raising SRAM_CE or SRAM_UE and maybe sparing the row. -/
  | sramError (b : Fin 24) (row : Fin 8192) (word : Fin 128) (uncorrectable : Bool)
  /-- SRAM_SCRUB (R514): Every scrub_s the scrubber reads and corrects each bank. -/
  | sramScrub (b : Fin 24) (found : List (Fin 8192 × Fin 128 × Bool))
  /-- REPAIR_MAP_WRITE (R515): Izger appends new sparings to the flash repair map at most every 10 ms. -/
  | repairMapWrite (ok : Bool)
  /-- THERM_ALERT_N (R458): A sensor reaching alert_c drives THERM_ALERT_N low, and its falling back below alert_c releases it. -/
  | thermAlertN (sensor : Fin 32) (temp : BitVec 9)
  /-- MGMT_BUS_TIMEOUT (R532): When MGMT_SDA or MGMT_SCL is held low for 35 ms, the SMBus target releases the bus and resets its interface. -/
  | mgmtBusTimeout
  /-- SECURITY_COMMAND_UNKNOWN (R497): SEC_CMD.go with a blob whose magic or command code is unknown ends with result SERIAL. -/
  | securityCommandUnknown (cmd : SecCmd)
  /-- SLICE_BAD_CMD (R327): ACC_SLICE_CMD.go with STUB or an undefined code ends with result BAD_CMD. -/
  | sliceBadCmd (n : HostLink) (v : Word)
  deriving DecidableEq, Repr

end Sys2Proof
end

