-- ==== Sys2Proof/Config.lean ====
section
/-!
DEFINITION. Config.lean: what the spec leaves open, as constants without a body: no proof can see a value of them.
-/
namespace Sys2Proof

/-- The n-th free value (log entry 2): a random number, or a result the spec does not state. -/
opaque Config.freeValue : Nat → BitVec 512

/-- SHA-512 of a byte string; the spec names the algorithm and gives no definition of it (log entry 5). -/
opaque Config.sha512 : List Byte → BitVec 512

/-- The fixed bijection of the completed-message filter (05 R181) that the spec leaves to the implementation. -/
opaque Config.filterF : Nat → Nat

/-- The Ed25519 public key of a seed (14 R494); the spec names the algorithm only (log entry 5). -/
opaque Config.edPublic : List Byte → BitVec 256

/-- The Ed25519 signature of a message that the holder of a public key makes (03 R94; 14 R493); the spec names the algorithm only (log
entry 5). -/
opaque Config.edSigOf : BitVec 256 → List Byte → BitVec 512

/-- Which further signatures of a message verify under a public key (14 R493; log entry 5). -/
opaque Config.edAlso : BitVec 256 → List Byte → BitVec 512 → Bool

/-- The Kofort manufacturing key that a main image's resident section holds; where, the spec does not say (14 R493; log entry 5). -/
opaque Config.kofortKey : List Byte → BitVec 256

/-- The DevID certificate with its chain, as a CERT carries it, that the holder of a manufacturing key has issued for a serial and a public
key; the spec gives no contents (14 R494, R502; log entry 5). -/
opaque Config.devidCert : BitVec 256 → BitVec 64 → BitVec 256 → List Byte

/-- Which further certificates chain to a manufacturing key and name a serial and a public key (14 R502; log entry 5). -/
opaque Config.certAlso : BitVec 256 → BitVec 64 → BitVec 256 → List Byte → Bool

/-- Whether a main image supports a hand-over format other than its own (14 R509; log entry 103). -/
opaque Config.fmtAlso : List Byte → Nat → Bool

/-- The identifier of the Physical Layer 128.0 GT/s capability, which the spec leaves to the PCIe Base Specification (log entry 12). -/
opaque Config.phy128Cap : BitVec 16

/-- Measurements 5 and 6 (14 Table 14.6), of what they cover; the spec gives no layout of it (log entry 63). -/
opaque Config.measure : Nat → List Nat → BitVec 512

/-- The alias certificate that Izger issues (14 R494), signed by a DevID seed for the key of an alias seed; the spec gives no contents
(log entry 5). -/
opaque Config.aliasCert : List Byte → List Byte → List Byte

/-- The Tally event of a QS message discarded as illegal (02 R57): the spec has it counted and names no code (log entry 56). -/
opaque Config.illegalQsEvent : BitVec 16

/-- The Tally event of a packet that check 1 of 02 Table 2.10 discards: the spec has it counted and names no code (log entry 56). -/
opaque Config.damagedEvent : BitVec 16

/-- The size of a reserved element type (07 Table 7.4), as a power of two, in a BROADCAST or ALLGATHER, which ignores the type and
whose element then has no size that the spec states (log entry 46). -/
opaque Config.reservedElem : Nat → BitVec 2

end Sys2Proof
end

