-- ==== Sys2Proof/Machine/Bits.lean ====
section
/-!
DEFINITION. Machine/Bits.lean: bit fields, little-endian byte strings, CRC-32C, and the places of registers and fields.
-/
namespace Sys2Proof.Machine

/-- `len` bits of `n` from bit `lo`. -/
def bf (n lo len : Nat) : Nat := (n >>> lo) % 2 ^ len

/-- Bit `i` of `n`. -/
def bit (n i : Nat) : Bool := n.testBit i

/-- A Bool as a bit. -/
def b2n (b : Bool) : Nat := if b then 1 else 0

/-- `n` with bit `i` set. -/
def orBit (n i : Nat) : Nat := n ||| 2 ^ i

/-- `n` with bit `i` clear. -/
def clrBit (n i : Nat) : Nat := if n.testBit i then n - 2 ^ i else n

/-- The indices below `k` whose bits are set in `n`. -/
def bitsOf (k n : Nat) : List Nat := (List.range k).filter n.testBit

/-- The mask of a list of bit indices. -/
def maskOf (l : List Nat) : Nat := l.foldl (fun a i => a ||| 2 ^ i) 0

/-- Number of set bits among the low `k`. -/
def popc (k n : Nat) : Nat := (bitsOf k n).length

/-- The `k` bytes of `n`, lowest first (00 R2). -/
def bytesOf : Nat → Nat → List Byte
  | 0, _ => []
  | k + 1, n => BitVec.ofNat 8 n :: bytesOf k (n / 256)

/-- The number that bytes spell, lowest first (00 R2). -/
def natOf : List Byte → Nat
  | [] => 0
  | b :: bs => b.toNat + 256 * natOf bs

/-- `n` bytes from `l` starting at `i`, zero beyond its end. -/
def slice (l : List Byte) (i n : Nat) : List Byte :=
  let t := (l.drop i).take n
  t ++ List.replicate (n - t.length) 0

/-- Little-endian value of `n` bytes of `l` at offset `i`. -/
def leAt (l : List Byte) (i n : Nat) : Nat := natOf ((l.drop i).take n)

/-- The 64-bit words of a list joined, word 0 lowest. -/
def joinWords (ws : List Nat) : Nat := ws.foldr (fun w a => w % 2 ^ 64 + 2 ^ 64 * a) 0

/-- Two's complement value of the low `w` bits. -/
def sext (w n : Nat) : Int := (BitVec.ofNat w n).toInt

/-- The low `w` bits of an integer. -/
def trunc (w : Nat) (i : Int) : Nat := (i % 2 ^ w).toNat

/-- One byte into the reflected CRC-32C register (02 R34). -/
def crcStep (c b : Nat) : Nat :=
  (List.range 8).foldl (fun c _ => if c % 2 = 1 then (c / 2) ^^^ 0x82F63B78 else c / 2) (c ^^^ b)

/-- CRC-32C of a byte string (02 R34). -/
def crc32c (bs : List Byte) : Nat :=
  (bs.foldl (fun c b => crcStep c b.toNat) 0xFFFFFFFF) ^^^ 0xFFFFFFFF

/-- Modular difference `(a - b) mod m`. -/
def subMod (m a b : Nat) : Nat := (a + (m - b % m)) % m

/-- How a register's reset value is given: a number, or by a table of the spec. -/
inductive Rst where
  | const (n : Nat)   -- the value of the register's table
  | sramPart          -- 01 Table 1.3
  | avsStat           -- 12 Table 12.13
  | pwrDom            -- 12 Table 12.1
  | lbx               -- 10 Table 10.11
  | clhReact          -- 11 Table 11.4
  deriving DecidableEq, Repr

/-- A field of a register: the register's address and reset value, and the field's lowest bit and length. -/
structure RF where
  addr : Nat
  rst  : Nat
  lo   : Nat
  len  : Nat
  deriving DecidableEq, Repr

/-- A counter register: its field, its Tally event code (11 R428) and its instance. -/
structure Cnt where
  rf   : RF
  code : Nat
  inst : Nat
  deriving DecidableEq, Repr

/-- A whole register. -/
def RF.whole (addr rst : Nat) : RF := ⟨addr, rst, 0, 64⟩

/-- A field of it. -/
def RF.sub (r : RF) (lo len : Nat) : RF := ⟨r.addr, r.rst, lo, len⟩

/-! ### Ed25519 (14 R493) -/

/-- The signature of a message under a seed (14 R494). -/
def edSign (seed msg : List Byte) : BitVec 512 := Config.edSigOf (Config.edPublic seed) msg

/-- Whether a signature of a message verifies under a public key: that of the key's holder does (14 R493; log entry 5). -/
def edVerify (key : Nat) (msg : List Byte) (sig : Nat) : Bool :=
  BitVec.ofNat 512 sig == Config.edSigOf (BitVec.ofNat 256 key) msg || Config.edAlso (BitVec.ofNat 256 key) msg (BitVec.ofNat 512 sig)

/-- The bytes of an ASCII string. -/
def asciiBytes (t : String) : List Byte := t.toList.map fun c => BitVec.ofNat 8 c.toNat

end Sys2Proof.Machine
end

