-- ==== Sys2Proof/Machine/Fp.lean ====
section
/-!
DEFINITION. Machine/Fp.lean: the floating-point formats of 07 Tables 7.4 and 7.8: reading, rounding to nearest-even, and
the exact arithmetic of R193, R257, R273, R275 and R276.
-/
namespace Sys2Proof.Machine

/-- A format: size and precision (hidden bit included) in bits, bias, whether it has infinities, its canonical NaN. -/
structure FpFmt where
  size : Nat
  p    : Nat
  bias : Nat
  inf  : Bool
  nan  : Nat
  deriving DecidableEq, Repr

/-- The format of an element type (07 Tables 7.4, 7.8). -/
def fmtOf (et : Nat) : Option FpFmt :=
  match et with
  | 0x8 => some ⟨8, 4, 7, false, 0x7F⟩
  | 0x9 => some ⟨8, 3, 15, true, 0x7E⟩
  | 0xA => some ⟨16, 11, 15, true, 0x7E00⟩
  | 0xB => some ⟨16, 8, 127, true, 0x7FC0⟩
  | 0xC => some ⟨32, 24, 127, true, 0x7FC00000⟩
  | 0xD => some ⟨64, 53, 1023, true, 0x7FF8000000000000⟩
  | _ => none

/-- Width of the exponent field. -/
def FpFmt.eb (f : FpFmt) : Nat := f.size - f.p
/-- The largest exponent field of a finite element. -/
def FpFmt.fmax (f : FpFmt) : Nat := if f.inf then 2 ^ f.eb - 2 else 2 ^ f.eb - 1
/-- Exponent field and fraction of an element. -/
def FpFmt.expo (f : FpFmt) (n : Nat) : Nat := bf n (f.p - 1) f.eb
def FpFmt.frac (f : FpFmt) (n : Nat) : Nat := bf n 0 (f.p - 1)
def FpFmt.neg (f : FpFmt) (n : Nat) : Bool := bit n (f.size - 1)
/-- The unit of exponent field 1 (and of subnormals) is 2^qmin. -/
def FpFmt.qmin (f : FpFmt) : Int := 1 - (f.bias : Int) - (f.p - 1 : Nat)

/-- What an element is: NaN, an infinity, or (-1)^neg × m × 2^e. -/
inductive FpVal where
  | nan
  | inf (neg : Bool)
  | fin (neg : Bool) (m : Nat) (e : Int)
  deriving DecidableEq, Repr

def FpFmt.read (f : FpFmt) (n : Nat) : FpVal :=
  let x := f.expo n; let fr := f.frac n; let top := 2 ^ f.eb - 1
  if f.inf ∧ x = top then (if fr = 0 then .inf (f.neg n) else .nan)
  else if !f.inf ∧ x = top ∧ fr = 2 ^ (f.p - 1) - 1 then .nan
  else .fin (f.neg n) (if x = 0 then fr else 2 ^ (f.p - 1) + fr) (f.qmin + (max x 1 - 1 : Nat))

/-- An infinity; in a format without one, the canonical NaN (07 R273). -/
def FpFmt.infBits (f : FpFmt) (neg : Bool) : Nat :=
  if f.inf then b2n neg * 2 ^ (f.size - 1) + (2 ^ f.eb - 1) * 2 ^ (f.p - 1) else f.nan

/-- M / 2^k rounded to nearest, ties to even. -/
def rneShift (m k : Nat) : Nat :=
  let q := m / 2 ^ k; let r := m % 2 ^ k
  if 2 * r > 2 ^ k ∨ (2 * r = 2 ^ k ∧ q % 2 = 1) then q + 1 else q

/-- (-1)^neg × m × 2^e rounded once to nearest-even, subnormals included; beyond the largest finite value an infinity
(07 R273). -/
def FpFmt.round (f : FpFmt) (neg : Bool) (m : Nat) (e : Int) : Nat :=
  let sign := b2n neg * 2 ^ (f.size - 1)
  if m = 0 then sign
  else
    let len : Int := (Nat.log2 m + 1 : Nat)
    let q := max (e + len - f.p) f.qmin
    let r := if q ≤ e then m * 2 ^ (e - q).toNat else rneShift m (q - e).toNat
    let (r, q) := if r = 2 ^ f.p then (2 ^ (f.p - 1), q + 1) else (r, q)
    if r < 2 ^ (f.p - 1) then sign + r
    else
      let x := (q - f.qmin).toNat + 1
      let fr := r - 2 ^ (f.p - 1)
      if x > f.fmax ∨ (!f.inf ∧ x = f.fmax ∧ fr = 2 ^ (f.p - 1) - 1) then f.infBits neg
      else sign + x * 2 ^ (f.p - 1) + fr

/-- Sum of two elements, rounded (IEEE 754); none for a NaN result. -/
def FpFmt.addQ (f : FpFmt) (a b : Nat) : Option Nat :=
  match f.read a, f.read b with
  | .nan, _ => none
  | _, .nan => none
  | .inf x, .inf y => if x = y then some (f.infBits x) else none
  | .inf x, _ => some (f.infBits x)
  | _, .inf y => some (f.infBits y)
  | .fin x m e, .fin y n g =>
    let q := min e g
    let i : Int := (if x then -1 else 1) * (m * 2 ^ (e - q).toNat : Nat) + (if y then -1 else 1) * (n * 2 ^ (g - q).toNat : Nat)
    some (if i = 0 then f.round (x && y) 0 q else f.round (decide (i < 0)) i.natAbs q)

/-- Product of two elements, rounded; none for a NaN result. -/
def FpFmt.mulQ (f : FpFmt) (a b : Nat) : Option Nat :=
  match f.read a, f.read b with
  | .nan, _ => none
  | _, .nan => none
  | .inf x, .inf y => some (f.infBits (x != y))
  | .inf x, .fin y n _ => if n = 0 then none else some (f.infBits (x != y))
  | .fin x m _, .inf y => if m = 0 then none else some (f.infBits (x != y))
  | .fin x m e, .fin y n g => some (f.round (x != y) (m * n) (e + g))

/-- Order of elements other than NaN: -0 below +0 (07 R276). -/
def FpFmt.key (f : FpFmt) (n : Nat) : Int :=
  let m := n % 2 ^ (f.size - 1)
  if f.neg n then -(m : Int) - 1 else m

def FpFmt.isNan (f : FpFmt) (n : Nat) : Bool := f.read n == .nan

/-- The lower and the higher of two elements; NaN gives the canonical NaN (07 R276). -/
def FpFmt.minE (f : FpFmt) (a b : Nat) : Nat :=
  if f.isNan a || f.isNan b then f.nan else if f.key b < f.key a then b else a
def FpFmt.maxE (f : FpFmt) (a b : Nat) : Nat :=
  if f.isNan a || f.isNan b then f.nan else if f.key b > f.key a then b else a

end Sys2Proof.Machine
end

