-- ==== Sys2Proof/Machine/Kinds.lean ====
section
/-!
DEFINITION. Machine/Kinds.lean: the kinds of Clearing-house records, their codes and severities (11 Table 11.3,
12 Table 12.6, 14 Table 14.10), and the reset values that the spec gives by a table.
-/
namespace Sys2Proof.Machine

def kUNMAPPED : Nat := 0x0001
def kLOCKED_WRITE : Nat := 0x0002
def kDOMAIN_OFF : Nat := 0x0003
def kSTATE_CHANGE : Nat := 0x0004
def kWAKE_FAIL : Nat := 0x0101
def kAVS_RAISE_FAIL : Nat := 0x0102
def kAVS_LOWER_FAIL : Nat := 0x0103
def kPMB_FAIL : Nat := 0x0104
def kPMB_ALERT : Nat := 0x0105
def kTHROTTLE : Nat := 0x0106
def kTHERM_TRIP : Nat := 0x0107
def kPWRFAIL : Nat := 0x0108
def kPG_LOST : Nat := 0x0109
def kPLL_LOCK_FAIL : Nat := 0x0201
def kPLL_UNLOCK : Nat := 0x0202
def kSDS_REFCLK_LOST : Nat := 0x0203
def kIZG_LOCKSTEP : Nat := 0x0301
def kFW_ACTIVATED : Nat := 0x0302
def kMG_AUTH_FAIL : Nat := 0x0303
def kSLICE_SWAP : Nat := 0x0304
def kSLICE_LOST : Nat := 0x0305
def kIMAGE_BAD : Nat := 0x0401
def kPROV_BAD : Nat := 0x0402
def kPLAN_BAD : Nat := 0x0403
def kUNLOCKED : Nat := 0x0404
def kFUSE_FAIL : Nat := 0x0405
def kLINK_PROTO : Nat := 0x1001
def kCREDIT_VIOLATION : Nat := 0x1002
def kLINK_DOWN : Nat := 0x1003
def kMISCABLE : Nat := 0x1004
def kLINK_NARROW : Nat := 0x1005
def kRESUME_MISMATCH : Nat := 0x1006
def kNO_TRAIN : Nat := 0x1007
def kREACH_REFUSED : Nat := 0x1008
def kREACH_SHORT : Nat := 0x1009
def kRESET_LIMIT : Nat := 0x100A
def kVAULT_CONFIG : Nat := 0x100B
def kLANE_DEGRADED : Nat := 0x1101
def kTX_FAULT : Nat := 0x1102
def kSTOMP : Nat := 0x2001
def kROUTE_DISCARD : Nat := 0x2002
def kNO_PATH : Nat := 0x2003
def kLIFETIME : Nat := 0x2004
def kFLIP_LATE : Nat := 0x2005
def kTABLE_BUSY : Nat := 0x2006
def kFIFEL_SCOPE : Nat := 0x2007
def kMISDELIVERED : Nat := 0x2201
def kBAD_HEADER : Nat := 0x2202
def kNO_ACCOUNT : Nat := 0x2203
def kCHARTER_MISMATCH : Nat := 0x2204
def kNONCE_MISMATCH : Nat := 0x2301
def kBOOK_MISS : Nat := 0x2302
def kINVAL_BUSY : Nat := 0x2303
def kAPT_FAULT : Nat := 0x2304
def kLDG_CTX_OVERLAP : Nat := 0x2401
def kLDG_CTX_BUSY : Nat := 0x2402
def kLDG_HOST_ERROR : Nat := 0x2403
def kLDG_RANK_RANGE : Nat := 0x2404
def kLDG_EAGER_LONG : Nat := 0x2405
def kLDG_NO_CTX : Nat := 0x2406
def kLDG_SPILL_FULL : Nat := 0x2407
def kTREE_BUSY : Nat := 0x2501
def kDOORBELL_SIZE : Nat := 0x2601
def kSTEWARD_DENIED : Nat := 0x2602
def kOWIN_FAULT : Nat := 0x2603
def kHOST_POISON : Nat := 0x2604
def kATS_DENIED : Nat := 0x2605
def kRING_STOPPED : Nat := 0x2701
def kEQ_FULL : Nat := 0x2702
def kNOTIFY_OVERRUN : Nat := 0x2703
def kMOV_BUSY : Nat := 0x2801
def kLBX_DENY : Nat := 0x2901
def kLBX_COMMIT_REFUSED : Nat := 0x2902
def kLBX_BUSY : Nat := 0x2903
def kHMK_STEP : Nat := 0x2A01
def kHMK_LOCK_LOST : Nat := 0x2A02
def kHMK_GM_CHANGE : Nat := 0x2A03
def kHMK_EXT_LOST : Nat := 0x2A04
def kHMK_SET_DENIED : Nat := 0x2A05
def kCLH_FLASH_FAIL : Nat := 0x2B01
def kASY_LATE : Nat := 0x2C01
def kSRAM_CE : Nat := 0x3001
def kSRAM_UE : Nat := 0x3002
def kSRAM_ROW_SPARED : Nat := 0x3003
def kSRAM_SPARES_OUT : Nat := 0x3004

/-- Every kind that is raised, with its severity (11 R412). -/
def kindTable : List (Nat × Nat) := [
  (kUNMAPPED, 0),
  (kLOCKED_WRITE, 0),
  (kDOMAIN_OFF, 0),
  (kSTATE_CHANGE, 0),
  (kWAKE_FAIL, 4),
  (kAVS_RAISE_FAIL, 4),
  (kAVS_LOWER_FAIL, 0),
  (kPMB_FAIL, 0),
  (kPMB_ALERT, 4),
  (kTHROTTLE, 0),
  (kTHERM_TRIP, 4),
  (kPWRFAIL, 4),
  (kPG_LOST, 5),
  (kPLL_LOCK_FAIL, 4),
  (kPLL_UNLOCK, 5),
  (kSDS_REFCLK_LOST, 3),
  (kIZG_LOCKSTEP, 4),
  (kFW_ACTIVATED, 0),
  (kMG_AUTH_FAIL, 0),
  (kSLICE_SWAP, 0),
  (kSLICE_LOST, 4),
  (kIMAGE_BAD, 4),
  (kPROV_BAD, 4),
  (kPLAN_BAD, 0),
  (kUNLOCKED, 0),
  (kFUSE_FAIL, 4),
  (kLINK_PROTO, 3),
  (kCREDIT_VIOLATION, 3),
  (kLINK_DOWN, 3),
  (kMISCABLE, 3),
  (kLINK_NARROW, 0),
  (kRESUME_MISMATCH, 3),
  (kNO_TRAIN, 3),
  (kREACH_REFUSED, 0),
  (kREACH_SHORT, 0),
  (kRESET_LIMIT, 3),
  (kVAULT_CONFIG, 0),
  (kLANE_DEGRADED, 0),
  (kTX_FAULT, 0),
  (kSTOMP, 0),
  (kROUTE_DISCARD, 0),
  (kNO_PATH, 0),
  (kLIFETIME, 0),
  (kFLIP_LATE, 0),
  (kTABLE_BUSY, 0),
  (kFIFEL_SCOPE, 0),
  (kMISDELIVERED, 0),
  (kBAD_HEADER, 0),
  (kNO_ACCOUNT, 0),
  (kCHARTER_MISMATCH, 0),
  (kNONCE_MISMATCH, 0),
  (kBOOK_MISS, 0),
  (kINVAL_BUSY, 0),
  (kAPT_FAULT, 0),
  (kLDG_CTX_OVERLAP, 0),
  (kLDG_CTX_BUSY, 0),
  (kLDG_HOST_ERROR, 0),
  (kLDG_RANK_RANGE, 0),
  (kLDG_EAGER_LONG, 0),
  (kLDG_NO_CTX, 0),
  (kLDG_SPILL_FULL, 0),
  (kTREE_BUSY, 0),
  (kDOORBELL_SIZE, 0),
  (kSTEWARD_DENIED, 0),
  (kOWIN_FAULT, 0),
  (kHOST_POISON, 0),
  (kATS_DENIED, 0),
  (kRING_STOPPED, 0),
  (kEQ_FULL, 0),
  (kNOTIFY_OVERRUN, 2),
  (kMOV_BUSY, 0),
  (kLBX_DENY, 0),
  (kLBX_COMMIT_REFUSED, 0),
  (kLBX_BUSY, 0),
  (kHMK_STEP, 0),
  (kHMK_LOCK_LOST, 0),
  (kHMK_GM_CHANGE, 0),
  (kHMK_EXT_LOST, 0),
  (kHMK_SET_DENIED, 0),
  (kCLH_FLASH_FAIL, 4),
  (kASY_LATE, 0),
  (kSRAM_CE, 0),
  (kSRAM_UE, 1),
  (kSRAM_ROW_SPARED, 0),
  (kSRAM_SPARES_OUT, 4)]

/-- The fixed severity of a kind (11 R412); codes not listed are never raised. -/
def kindSev (k : Nat) : Option Nat := (kindTable.find? (·.1 = k)).map (·.2)

/-- Reset value of CLH_REACT by kind (11 Table 11.4): interrupt for S2 to S5, mirror, flash for S4 and S5; 0 for kinds
not raised. -/
def reactReset (k : Nat) : Nat :=
  match kindSev k with
  | none => 0
  | some s => 0x20 + (if 2 ≤ s then 1 else 0) + (if 4 ≤ s then 0x40 else 0)

/-- (first bank, banks, MiB) of each SRAM partition (01 Table 1.3). -/
def sramParts : List (Nat × Nat × Nat) :=
  [(0, 4, 32), (4, 2, 16), (6, 4, 32), (10, 8, 64), (18, 2, 16), (20, 2, 16), (22, 2, 16)]

/-- Reset value of a register at given indices. PWR_DOM at power-on: log entry 4. -/
def Rst.value : Rst → List Nat → Nat
  | .const n, _ => n
  | .sramPart, ix =>
    match sramParts[ix.headD 0]? with
    | some (b, n, z) => b + n * 0x100 + z * 0x10000
    | none => 0
  | .avsStat, ix => if ix.headD 0 = 0 then 780 else 750
  | .pwrDom, ix =>
    let d := ix.headD 0
    if d = 0 ∨ d = 1 ∨ d = 6 ∨ (8 ≤ d ∧ d ≤ 19) ∨ (32 ≤ d ∧ d ≤ 55) then 2 else 0
  | .lbx, ix => if ix.headD 0 < 2 ∧ ix.getD 1 0 = 0 then 48 + 0x40 + 0x80 + 0xFF * 2 ^ 48 else 0
  | .clhReact, ix => reactReset (ix.headD 0)

end Sys2Proof.Machine
end

