-- ==== Sys2Proof/Machine/RegMap.lean ====
section
/-!
DEFINITION. Machine/RegMap.lean: every register of the spec's register tables as a place (its local-bus address and its
reset value) and every field of it as the bits it occupies there. One definition a register, `NAME.reg`, and one a
field, `NAME.field`, in the spec's own names; a register of several words is named with the word's number, and the
indices of an array are the arguments. The account control pages of 09 R348 have no local-bus address and take pseudo
addresses of their own (`ctlPage`), as do the ACC_SLICE_CMD registers of 09 R327.
-/
namespace Sys2Proof.Machine

/-- TOP_ID, 01 Table 1.7. -/
def TOP_ID.reg : RF := RF.whole (0x0) ((Rst.const 0x1b09600).value [])
def TOP_ID.part : RF := (TOP_ID.reg).sub 0 16
def TOP_ID.stepping : RF := (TOP_ID.reg).sub 16 8
def TOP_ID.cuhan_version : RF := (TOP_ID.reg).sub 24 4
/-- TOP_STATE, 01 Table 1.8. -/
def TOP_STATE.reg : RF := RF.whole (0x8) ((Rst.const 1).value [])
def TOP_STATE.svc_state : RF := (TOP_STATE.reg).sub 0 3
def TOP_STATE.pwr_state : RF := (TOP_STATE.reg).sub 4 2
def TOP_STATE.upgrade_active : RF := (TOP_STATE.reg).sub 8 1
def TOP_STATE.port_out : RF := (TOP_STATE.reg).sub 16 1
def TOP_STATE.port_narrow : RF := (TOP_STATE.reg).sub 17 1
def TOP_STATE.slice_short : RF := (TOP_STATE.reg).sub 18 1
/-- TOP_STATE_TIME, 01 Table 1.9. -/
def TOP_STATE_TIME.reg : RF := RF.whole (0x10) ((Rst.const 0).value [])
def TOP_STATE_TIME.last_change : RF := (TOP_STATE_TIME.reg).sub 0 64
/-- TOP_STATE_EVT, 01 Table 1.10. -/
def TOP_STATE_EVT.reg : RF := RF.whole (0x18) ((Rst.const 0).value [])
def TOP_STATE_EVT.to_boot : RF := (TOP_STATE_EVT.reg).sub 0 1
def TOP_STATE_EVT.to_reduced : RF := (TOP_STATE_EVT.reg).sub 1 1
def TOP_STATE_EVT.to_full : RF := (TOP_STATE_EVT.reg).sub 2 1
def TOP_STATE_EVT.to_degraded : RF := (TOP_STATE_EVT.reg).sub 3 1
def TOP_STATE_EVT.pwr_change : RF := (TOP_STATE_EVT.reg).sub 4 1
/-- TOP_SRAM_PART, 01 Table 1.11. -/
def TOP_SRAM_PART.reg (k : Nat) : RF := RF.whole (0x40 + 0x8 * k) ((Rst.sramPart).value [k])
def TOP_SRAM_PART.first_bank (k : Nat) : RF := (TOP_SRAM_PART.reg k).sub 0 5
def TOP_SRAM_PART.bank_count (k : Nat) : RF := (TOP_SRAM_PART.reg k).sub 8 5
def TOP_SRAM_PART.size_mib (k : Nat) : RF := (TOP_SRAM_PART.reg k).sub 16 8
/-- TOP_RESET_CAUSE, 13 Table 13.9. -/
def TOP_RESET_CAUSE.reg : RF := RF.whole (0x100) ((Rst.const 1).value [])
def TOP_RESET_CAUSE.cause : RF := (TOP_RESET_CAUSE.reg).sub 0 3
def TOP_RESET_CAUSE.internal_count : RF := (TOP_RESET_CAUSE.reg).sub 16 16
/-- TOP_RESET_CTL, 13 Table 13.10. -/
def TOP_RESET_CTL.reg : RF := RF.whole (0x108) ((Rst.const 0).value [])
def TOP_RESET_CTL.confirm : RF := (TOP_RESET_CTL.reg).sub 0 16
/-- TOP_STRAP, 13 Table 13.11. -/
def TOP_STRAP.reg : RF := RF.whole (0x110) ((Rst.const 0).value [])
def TOP_STRAP.boot : RF := (TOP_STRAP.reg).sub 0 1
def TOP_STRAP.hlsplit : RF := (TOP_STRAP.reg).sub 1 4
def TOP_STRAP.safe : RF := (TOP_STRAP.reg).sub 5 1
/-- TOP_BOOT_STAT, 13 Table 13.12. -/
def TOP_BOOT_STAT.reg : RF := RF.whole (0x118) ((Rst.const 1).value [])
def TOP_BOOT_STAT.stage : RF := (TOP_BOOT_STAT.reg).sub 0 4
def TOP_BOOT_STAT.error : RF := (TOP_BOOT_STAT.reg).sub 4 4
def TOP_BOOT_STAT.fail_step : RF := (TOP_BOOT_STAT.reg).sub 8 3
def TOP_BOOT_STAT.bank : RF := (TOP_BOOT_STAT.reg).sub 11 1
def TOP_BOOT_STAT.recovery : RF := (TOP_BOOT_STAT.reg).sub 12 1
def TOP_BOOT_STAT.coord_src : RF := (TOP_BOOT_STAT.reg).sub 13 1
def TOP_BOOT_STAT.coords_fixed : RF := (TOP_BOOT_STAT.reg).sub 14 1
def TOP_BOOT_STAT.tables_done : RF := (TOP_BOOT_STAT.reg).sub 15 1
def TOP_BOOT_STAT.up_ready : RF := (TOP_BOOT_STAT.reg).sub 16 1
/-- TOP_BRINGUP_CFG, 13 Table 13.13. -/
def TOP_BRINGUP_CFG.reg : RF := RF.whole (0x120) ((Rst.const 0x7d001770012c2801).value [])
def TOP_BRINGUP_CFG.auto_upgrade : RF := (TOP_BRINGUP_CFG.reg).sub 0 1
def TOP_BRINGUP_CFG.tile_gap_ms : RF := (TOP_BRINGUP_CFG.reg).sub 8 8
def TOP_BRINGUP_CFG.port_wait_ms : RF := (TOP_BRINGUP_CFG.reg).sub 16 16
def TOP_BRINGUP_CFG.upgrade_limit_ms : RF := (TOP_BRINGUP_CFG.reg).sub 32 16
def TOP_BRINGUP_CFG.groups_m1 : RF := (TOP_BRINGUP_CFG.reg).sub 48 8
def TOP_BRINGUP_CFG.learn_ms_div8 : RF := (TOP_BRINGUP_CFG.reg).sub 56 8
/-- TOP_BRINGUP_CTL, 13 Table 13.14. -/
def TOP_BRINGUP_CTL.reg : RF := RF.whole (0x128) ((Rst.const 0).value [])
def TOP_BRINGUP_CTL.start : RF := (TOP_BRINGUP_CTL.reg).sub 0 1
/-- TOP_BRINGUP_STAT, 13 Table 13.15. -/
def TOP_BRINGUP_STAT.reg : RF := RF.whole (0x130) ((Rst.const 0).value [])
def TOP_BRINGUP_STAT.tiles_done : RF := (TOP_BRINGUP_STAT.reg).sub 0 8
def TOP_BRINGUP_STAT.ports_deferred : RF := (TOP_BRINGUP_STAT.reg).sub 8 7
def TOP_BRINGUP_STAT.hall_joined_a : RF := (TOP_BRINGUP_STAT.reg).sub 16 1
def TOP_BRINGUP_STAT.hall_joined_b : RF := (TOP_BRINGUP_STAT.reg).sub 17 1
/-- TOP_UPGRADE_TIME. -/
def TOP_UPGRADE_TIME.reg : RF := RF.whole (0x138) ((Rst.const 0).value [])
def TOP_UPGRADE_TIME.t : RF := (TOP_UPGRADE_TIME.reg).sub 0 64
/-- PWR_STATE_REQ, 12 Table 12.7. -/
def PWR_STATE_REQ.reg : RF := RF.whole (0x100000) ((Rst.const 0x8000000000000000).value [])
def PWR_STATE_REQ.req : RF := (PWR_STATE_REQ.reg).sub 0 2
def PWR_STATE_REQ.result : RF := (PWR_STATE_REQ.reg).sub 8 8
def PWR_STATE_REQ.go : RF := (PWR_STATE_REQ.reg).sub 62 1
def PWR_STATE_REQ.done : RF := (PWR_STATE_REQ.reg).sub 63 1
/-- PWR_CFG, 12 Table 12.8. -/
def PWR_CFG.reg : RF := RF.whole (0x100008) ((Rst.const 0x100640064).value [])
def PWR_CFG.drop_delay_us : RF := (PWR_CFG.reg).sub 0 16
def PWR_CFG.lease_ms : RF := (PWR_CFG.reg).sub 16 16
def PWR_CFG.wake_state : RF := (PWR_CFG.reg).sub 32 2
/-- PWR_EVT, 12 Table 12.9. -/
def PWR_EVT.reg : RF := RF.whole (0x100010) ((Rst.const 0).value [])
def PWR_EVT.wake_fail : RF := (PWR_EVT.reg).sub 0 1
def PWR_EVT.avs_fail : RF := (PWR_EVT.reg).sub 1 1
def PWR_EVT.pmb_fail : RF := (PWR_EVT.reg).sub 2 1
def PWR_EVT.pmb_alert : RF := (PWR_EVT.reg).sub 3 1
def PWR_EVT.throttle_on : RF := (PWR_EVT.reg).sub 4 1
def PWR_EVT.throttle_off : RF := (PWR_EVT.reg).sub 5 1
def PWR_EVT.pwrfail : RF := (PWR_EVT.reg).sub 6 1
def PWR_EVT.pwrfail_clear : RF := (PWR_EVT.reg).sub 7 1
def PWR_EVT.pad_held : RF := (PWR_EVT.reg).sub 8 1
/-- PWR_THERM, 12 Table 12.10. -/
def PWR_THERM.reg : RF := RF.whole (0x100018) ((Rst.const 0x46e0376).value [])
def PWR_THERM.throttle_c : RF := (PWR_THERM.reg).sub 0 8
def PWR_THERM.hyst : RF := (PWR_THERM.reg).sub 8 4
def PWR_THERM.alert_c : RF := (PWR_THERM.reg).sub 16 8
def PWR_THERM.duty_n : RF := (PWR_THERM.reg).sub 24 3
def PWR_THERM.force : RF := (PWR_THERM.reg).sub 27 1
/-- PWR_TEMP, 12 Table 12.11. -/
def PWR_TEMP.reg : RF := RF.whole (0x100020) ((Rst.const 0).value [])
def PWR_TEMP.temp_c : RF := (PWR_TEMP.reg).sub 0 16
def PWR_TEMP.sensor : RF := (PWR_TEMP.reg).sub 16 5
def PWR_TEMP.throttled : RF := (PWR_TEMP.reg).sub 24 1
def PWR_TEMP.alert : RF := (PWR_TEMP.reg).sub 25 1
/-- PWR_TRIP, 12 Table 12.12. -/
def PWR_TRIP.reg : RF := RF.whole (0x100028) ((Rst.const 0).value [])
def PWR_TRIP.valid : RF := (PWR_TRIP.reg).sub 0 1
def PWR_TRIP.sensor : RF := (PWR_TRIP.reg).sub 8 5
def PWR_TRIP.temp_c : RF := (PWR_TRIP.reg).sub 16 16
/-- PWR_TRIP_TIME, 12 Table 12.12. -/
def PWR_TRIP_TIME.reg : RF := RF.whole (0x100030) ((Rst.const 0).value [])
def PWR_TRIP_TIME.t : RF := (PWR_TRIP_TIME.reg).sub 0 64
/-- PWR_AVS_CFG, 12 Table 12.13. -/
def PWR_AVS_CFG.reg : RF := RF.whole (0x100040) ((Rst.const 0xa01).value [])
def PWR_AVS_CFG.auto : RF := (PWR_AVS_CFG.reg).sub 0 1
def PWR_AVS_CFG.period_ms : RF := (PWR_AVS_CFG.reg).sub 8 8
/-- PWR_AVS_CTL, 12 Table 12.13. -/
def PWR_AVS_CTL.reg : RF := RF.whole (0x100048) ((Rst.const 0x80000000030c0000).value [])
def PWR_AVS_CTL.rail : RF := (PWR_AVS_CTL.reg).sub 0 1
def PWR_AVS_CTL.target_mv : RF := (PWR_AVS_CTL.reg).sub 16 10
def PWR_AVS_CTL.result : RF := (PWR_AVS_CTL.reg).sub 40 8
def PWR_AVS_CTL.go : RF := (PWR_AVS_CTL.reg).sub 62 1
def PWR_AVS_CTL.done : RF := (PWR_AVS_CTL.reg).sub 63 1
/-- PWR_AVS_STAT, 12 Table 12.13. -/
def PWR_AVS_STAT.reg (r : Nat) : RF := RF.whole (0x100050 + 0x8 * r) ((Rst.avsStat).value [r])
def PWR_AVS_STAT.level_mv (r : Nat) : RF := (PWR_AVS_STAT.reg r).sub 0 10
def PWR_AVS_STAT.read_mv (r : Nat) : RF := (PWR_AVS_STAT.reg r).sub 16 10
/-- PWR_PMB_DEV, 12 Table 12.14. -/
def PWR_PMB_DEV.reg (k : Nat) : RF := RF.whole (0x100080 + 0x8 * k) ((Rst.const 0).value [k])
def PWR_PMB_DEV.addr (k : Nat) : RF := (PWR_PMB_DEV.reg k).sub 0 7
def PWR_PMB_DEV.valid (k : Nat) : RF := (PWR_PMB_DEV.reg k).sub 7 1
/-- PWR_PMB_CMD0, 12 Table 12.14. -/
def PWR_PMB_CMD0.reg : RF := RF.whole (0x1000c0) ((Rst.const 0x8000000000000000).value [])
def PWR_PMB_CMD0.dev : RF := (PWR_PMB_CMD0.reg).sub 0 3
def PWR_PMB_CMD0.code : RF := (PWR_PMB_CMD0.reg).sub 8 8
def PWR_PMB_CMD0.len : RF := (PWR_PMB_CMD0.reg).sub 16 2
def PWR_PMB_CMD0.write : RF := (PWR_PMB_CMD0.reg).sub 18 1
def PWR_PMB_CMD0.result : RF := (PWR_PMB_CMD0.reg).sub 24 8
def PWR_PMB_CMD0.go : RF := (PWR_PMB_CMD0.reg).sub 62 1
def PWR_PMB_CMD0.done : RF := (PWR_PMB_CMD0.reg).sub 63 1
/-- PWR_PMB_CMD1, 12 Table 12.14. -/
def PWR_PMB_CMD1.reg : RF := RF.whole (0x1000c8) ((Rst.const 0).value [])
def PWR_PMB_CMD1.data : RF := (PWR_PMB_CMD1.reg).sub 0 16
/-- PWR_PMB_TEL, 12 Table 12.14. -/
def PWR_PMB_TEL.reg (k : Nat) : RF := RF.whole (0x100100 + 0x8 * k) ((Rst.const 0).value [k])
def PWR_PMB_TEL.vout_mv (k : Nat) : RF := (PWR_PMB_TEL.reg k).sub 0 16
def PWR_PMB_TEL.iout_da (k : Nat) : RF := (PWR_PMB_TEL.reg k).sub 16 16
def PWR_PMB_TEL.temp_c (k : Nat) : RF := (PWR_PMB_TEL.reg k).sub 32 16
/-- PWR_PAD, 12 Table 12.15. -/
def PWR_PAD.reg : RF := RF.whole (0x100140) ((Rst.const 0).value [])
def PWR_PAD.held_tile : RF := (PWR_PAD.reg).sub 0 8
def PWR_PAD.held_hb : RF := (PWR_PAD.reg).sub 8 4
/-- PWR_PAD_RELEASE, 12 Table 12.15. -/
def PWR_PAD_RELEASE.reg : RF := RF.whole (0x100148) ((Rst.const 0).value [])
def PWR_PAD_RELEASE.tile : RF := (PWR_PAD_RELEASE.reg).sub 0 8
def PWR_PAD_RELEASE.hb : RF := (PWR_PAD_RELEASE.reg).sub 8 4
/-- PWR_VIGIL_PORT, 12 Table 12.16. -/
def PWR_VIGIL_PORT.reg : RF := RF.whole (0x100150) ((Rst.const 0x88888888).value [])
def PWR_VIGIL_PORT.port_0 : RF := (PWR_VIGIL_PORT.reg).sub 0 3
def PWR_VIGIL_PORT.valid_0 : RF := (PWR_VIGIL_PORT.reg).sub 3 1
def PWR_VIGIL_PORT.port_1 : RF := (PWR_VIGIL_PORT.reg).sub 4 3
def PWR_VIGIL_PORT.valid_1 : RF := (PWR_VIGIL_PORT.reg).sub 7 1
def PWR_VIGIL_PORT.port_2 : RF := (PWR_VIGIL_PORT.reg).sub 8 3
def PWR_VIGIL_PORT.valid_2 : RF := (PWR_VIGIL_PORT.reg).sub 11 1
def PWR_VIGIL_PORT.port_3 : RF := (PWR_VIGIL_PORT.reg).sub 12 3
def PWR_VIGIL_PORT.valid_3 : RF := (PWR_VIGIL_PORT.reg).sub 15 1
def PWR_VIGIL_PORT.port_4 : RF := (PWR_VIGIL_PORT.reg).sub 16 3
def PWR_VIGIL_PORT.valid_4 : RF := (PWR_VIGIL_PORT.reg).sub 19 1
def PWR_VIGIL_PORT.port_5 : RF := (PWR_VIGIL_PORT.reg).sub 20 3
def PWR_VIGIL_PORT.valid_5 : RF := (PWR_VIGIL_PORT.reg).sub 23 1
def PWR_VIGIL_PORT.port_6 : RF := (PWR_VIGIL_PORT.reg).sub 24 3
def PWR_VIGIL_PORT.valid_6 : RF := (PWR_VIGIL_PORT.reg).sub 27 1
def PWR_VIGIL_PORT.port_7 : RF := (PWR_VIGIL_PORT.reg).sub 28 3
def PWR_VIGIL_PORT.valid_7 : RF := (PWR_VIGIL_PORT.reg).sub 31 1
/-- PWR_CNT_VIGIL_DROP, 12 Table 12.17. -/
def PWR_CNT_VIGIL_DROP.reg : RF := RF.whole (0x100200) ((Rst.const 0).value [])
def PWR_CNT_VIGIL_DROP.count : RF := (PWR_CNT_VIGIL_DROP.reg).sub 0 48
def PWR_CNT_VIGIL_DROP.ev : Cnt := ⟨PWR_CNT_VIGIL_DROP.count, 0x0100, 0⟩
/-- PWR_CNT_WAKE, 12 Table 12.17. -/
def PWR_CNT_WAKE.reg : RF := RF.whole (0x100208) ((Rst.const 0).value [])
def PWR_CNT_WAKE.count : RF := (PWR_CNT_WAKE.reg).sub 0 48
def PWR_CNT_WAKE.ev : Cnt := ⟨PWR_CNT_WAKE.count, 0x0101, 0⟩
/-- PWR_CNT_WAKE_NOANS, 12 Table 12.17. -/
def PWR_CNT_WAKE_NOANS.reg : RF := RF.whole (0x100210) ((Rst.const 0).value [])
def PWR_CNT_WAKE_NOANS.count : RF := (PWR_CNT_WAKE_NOANS.reg).sub 0 48
def PWR_CNT_WAKE_NOANS.ev : Cnt := ⟨PWR_CNT_WAKE_NOANS.count, 0x0102, 0⟩
/-- PWR_CNT_THROTTLE_CYC, 12 Table 12.17. -/
def PWR_CNT_THROTTLE_CYC.reg : RF := RF.whole (0x100218) ((Rst.const 0).value [])
def PWR_CNT_THROTTLE_CYC.count : RF := (PWR_CNT_THROTTLE_CYC.reg).sub 0 48
def PWR_CNT_THROTTLE_CYC.ev : Cnt := ⟨PWR_CNT_THROTTLE_CYC.count, 0x0103, 0⟩
/-- PWR_CNT_DB_PWRFAIL, 12 Table 12.17. -/
def PWR_CNT_DB_PWRFAIL.reg : RF := RF.whole (0x100220) ((Rst.const 0).value [])
def PWR_CNT_DB_PWRFAIL.count : RF := (PWR_CNT_DB_PWRFAIL.reg).sub 0 48
def PWR_CNT_DB_PWRFAIL.ev : Cnt := ⟨PWR_CNT_DB_PWRFAIL.count, 0x0104, 0⟩
/-- PWR_VOTE, 12 Table 12.18. -/
def PWR_VOTE.reg (d : Nat) : RF := RF.whole (0x101000 + 0x8 * d) ((Rst.const 0).value [d])
def PWR_VOTE.host (d : Nat) : RF := (PWR_VOTE.reg d).sub 0 8
def PWR_VOTE.izg (d : Nat) : RF := (PWR_VOTE.reg d).sub 8 1
def PWR_VOTE.fm (d : Nat) : RF := (PWR_VOTE.reg d).sub 9 1
def PWR_VOTE.timer (d : Nat) : RF := (PWR_VOTE.reg d).sub 10 1
def PWR_VOTE.wake (d : Nat) : RF := (PWR_VOTE.reg d).sub 11 1
def PWR_VOTE.activity (d : Nat) : RF := (PWR_VOTE.reg d).sub 12 1
def PWR_VOTE.implied (d : Nat) : RF := (PWR_VOTE.reg d).sub 13 1
/-- PWR_DOM, 12 Table 12.18. -/
def PWR_DOM.reg (d : Nat) : RF := RF.whole (0x101400 + 0x8 * d) ((Rst.pwrDom).value [d])
def PWR_DOM.state (d : Nat) : RF := (PWR_DOM.reg d).sub 0 3
def PWR_DOM.step (d : Nat) : RF := (PWR_DOM.reg d).sub 3 3
def PWR_DOM.failed (d : Nat) : RF := (PWR_DOM.reg d).sub 6 1
def PWR_DOM.drop_to (d : Nat) : RF := (PWR_DOM.reg d).sub 7 1
def PWR_DOM.attempts (d : Nat) : RF := (PWR_DOM.reg d).sub 8 4
/-- PWR_CLIENT_MASK, 12 Table 12.19. -/
def PWR_CLIENT_MASK.reg (n : Nat) : RF := RF.whole (0x101800 + 0x8 * n) ((Rst.const 0xfff00).value [n])
def PWR_CLIENT_MASK.mask (n : Nat) : RF := (PWR_CLIENT_MASK.reg n).sub 0 64
/-- PWR_TIMER_MASK, 12 Table 12.19. -/
def PWR_TIMER_MASK.reg (i : Nat) : RF := RF.whole (0x101840 + 0x8 * i) ((Rst.const 0).value [i])
def PWR_TIMER_MASK.mask (i : Nat) : RF := (PWR_TIMER_MASK.reg i).sub 0 64
/-- IZG_LOCK, 14 Table 14.11. -/
def IZG_LOCK.reg : RF := RF.whole (0x300000) ((Rst.const 0).value [])
def IZG_LOCK.lock : RF := (IZG_LOCK.reg).sub 0 1
/-- IZG_PAIR_STAT, 14 Table 14.12. -/
def IZG_PAIR_STAT.reg : RF := RF.whole (0x300008) ((Rst.const 2).value [])
def IZG_PAIR_STAT.active : RF := (IZG_PAIR_STAT.reg).sub 0 1
def IZG_PAIR_STAT.standby_ok : RF := (IZG_PAIR_STAT.reg).sub 1 1
def IZG_PAIR_STAT.failed : RF := (IZG_PAIR_STAT.reg).sub 2 2
def IZG_PAIR_STAT.takeovers : RF := (IZG_PAIR_STAT.reg).sub 8 8
/-- IZG_PAIR_CTL, 14 Table 14.12. -/
def IZG_PAIR_CTL.reg : RF := RF.whole (0x300010) ((Rst.const 0).value [])
def IZG_PAIR_CTL.kick : RF := (IZG_PAIR_CTL.reg).sub 0 1
def IZG_PAIR_CTL.takeover : RF := (IZG_PAIR_CTL.reg).sub 1 1
/-- IZG_FW_STAT, 14 Table 14.13. -/
def IZG_FW_STAT.reg : RF := RF.whole (0x300018) ((Rst.const 0).value [])
def IZG_FW_STAT.bank : RF := (IZG_FW_STAT.reg).sub 0 1
def IZG_FW_STAT.pending : RF := (IZG_FW_STAT.reg).sub 1 1
def IZG_FW_STAT.commit_blocked : RF := (IZG_FW_STAT.reg).sub 2 1
def IZG_FW_STAT.svn : RF := (IZG_FW_STAT.reg).sub 8 8
def IZG_FW_STAT.generation : RF := (IZG_FW_STAT.reg).sub 32 32
/-- IZG_FW_CFG, 14 Table 14.13. -/
def IZG_FW_CFG.reg : RF := RF.whole (0x300020) ((Rst.const 0x100000e10).value [])
def IZG_FW_CFG.commit_s : RF := (IZG_FW_CFG.reg).sub 0 32
def IZG_FW_CFG.auto_floor : RF := (IZG_FW_CFG.reg).sub 32 1
/-- IZG_FW_CTL, 14 Table 14.13. -/
def IZG_FW_CTL.reg : RF := RF.whole (0x300028) ((Rst.const 0x8000000000000000).value [])
def IZG_FW_CTL.bank : RF := (IZG_FW_CTL.reg).sub 0 1
def IZG_FW_CTL.cmd : RF := (IZG_FW_CTL.reg).sub 1 3
def IZG_FW_CTL.result : RF := (IZG_FW_CTL.reg).sub 8 8
def IZG_FW_CTL.go : RF := (IZG_FW_CTL.reg).sub 62 1
def IZG_FW_CTL.done : RF := (IZG_FW_CTL.reg).sub 63 1
/-- IZG_FW_LOAD0, 14 Table 14.13. -/
def IZG_FW_LOAD0.reg : RF := RF.whole (0x300030) ((Rst.const 0).value [])
def IZG_FW_LOAD0.addr : RF := (IZG_FW_LOAD0.reg).sub 0 48
/-- IZG_FW_LOAD1, 14 Table 14.13. -/
def IZG_FW_LOAD1.reg : RF := RF.whole (0x300038) ((Rst.const 0).value [])
def IZG_FW_LOAD1.len : RF := (IZG_FW_LOAD1.reg).sub 0 32
/-- IZG_MBOX_IN. -/
def IZG_MBOX_IN.reg (k : Nat) : RF := RF.whole (0x300100 + 0x8 * k) ((Rst.const 0).value [k])
def IZG_MBOX_IN.data (k : Nat) : RF := (IZG_MBOX_IN.reg k).sub 0 64
/-- IZG_MBOX_OUT. -/
def IZG_MBOX_OUT.reg (k : Nat) : RF := RF.whole (0x300140 + 0x8 * k) ((Rst.const 0).value [k])
def IZG_MBOX_OUT.data (k : Nat) : RF := (IZG_MBOX_OUT.reg k).sub 0 64
/-- IZG_MBOX_CTL. -/
def IZG_MBOX_CTL.reg : RF := RF.whole (0x300180) ((Rst.const 0).value [])
def IZG_MBOX_CTL.to_izg : RF := (IZG_MBOX_CTL.reg).sub 0 1
def IZG_MBOX_CTL.to_host : RF := (IZG_MBOX_CTL.reg).sub 1 1
/-- IZG_SLICE_STAT, 14 Table 14.14. -/
def IZG_SLICE_STAT.reg : RF := RF.whole (0x300200) ((Rst.const 0x10ff).value [])
def IZG_SLICE_STAT.in_use : RF := (IZG_SLICE_STAT.reg).sub 0 9
def IZG_SLICE_STAT.spare : RF := (IZG_SLICE_STAT.reg).sub 9 4
def IZG_SLICE_STAT.failed : RF := (IZG_SLICE_STAT.reg).sub 16 9
def IZG_SLICE_STAT.swaps : RF := (IZG_SLICE_STAT.reg).sub 32 16
/-- IZG_SLICE_CTL, 14 Table 14.14. -/
def IZG_SLICE_CTL.reg : RF := RF.whole (0x300208) ((Rst.const 0x8000000000000000).value [])
def IZG_SLICE_CTL.slice : RF := (IZG_SLICE_CTL.reg).sub 0 4
def IZG_SLICE_CTL.result : RF := (IZG_SLICE_CTL.reg).sub 8 8
def IZG_SLICE_CTL.swap : RF := (IZG_SLICE_CTL.reg).sub 62 1
def IZG_SLICE_CTL.done : RF := (IZG_SLICE_CTL.reg).sub 63 1
/-- IZG_SRAM_SPARE, 14 Table 14.14. -/
def IZG_SRAM_SPARE.reg (b : Nat) : RF := RF.whole (0x300300 + 0x8 * b) ((Rst.const 0).value [b])
def IZG_SRAM_SPARE.used (b : Nat) : RF := (IZG_SRAM_SPARE.reg b).sub 0 7
def IZG_SRAM_SPARE.corrected (b : Nat) : RF := (IZG_SRAM_SPARE.reg b).sub 16 16
def IZG_SRAM_SPARE.uncorrectable (b : Nat) : RF := (IZG_SRAM_SPARE.reg b).sub 32 16
/-- IZG_SRAM_CFG, 14 Table 14.14. -/
def IZG_SRAM_CFG.reg : RF := RF.whole (0x300400) ((Rst.const 0x40008).value [])
def IZG_SRAM_CFG.scrub_s : RF := (IZG_SRAM_CFG.reg).sub 0 16
def IZG_SRAM_CFG.ce_limit : RF := (IZG_SRAM_CFG.reg).sub 16 8
/-- SEC_SERIAL, 14 Table 14.15. -/
def SEC_SERIAL.reg : RF := RF.whole (0x400000) ((Rst.const 0).value [])
def SEC_SERIAL.serial : RF := (SEC_SERIAL.reg).sub 0 64
/-- SEC_LIFECYCLE, 14 Table 14.15. -/
def SEC_LIFECYCLE.reg : RF := RF.whole (0x400008) ((Rst.const 0).value [])
def SEC_LIFECYCLE.state : RF := (SEC_LIFECYCLE.reg).sub 0 2
def SEC_LIFECYCLE.debug_unlocked : RF := (SEC_LIFECYCLE.reg).sub 2 1
def SEC_LIFECYCLE.owner_valid : RF := (SEC_LIFECYCLE.reg).sub 4 4
def SEC_LIFECYCLE.owner_revoked : RF := (SEC_LIFECYCLE.reg).sub 8 4
def SEC_LIFECYCLE.svn_floor : RF := (SEC_LIFECYCLE.reg).sub 16 6
/-- SEC_NONCE, 14 Table 14.15. -/
def SEC_NONCE.reg : RF := RF.whole (0x400010) ((Rst.const 0).value [])
def SEC_NONCE.nonce : RF := (SEC_NONCE.reg).sub 0 64
/-- SEC_CMD, 14 Table 14.15. -/
def SEC_CMD.reg : RF := RF.whole (0x400018) ((Rst.const 0x8000000000000000).value [])
def SEC_CMD.result : RF := (SEC_CMD.reg).sub 0 8
def SEC_CMD.go : RF := (SEC_CMD.reg).sub 62 1
def SEC_CMD.done : RF := (SEC_CMD.reg).sub 63 1
/-- SEC_MG_CTR, 14 Table 14.15. -/
def SEC_MG_CTR.reg : RF := RF.whole (0x400020) ((Rst.const 0).value [])
def SEC_MG_CTR.counter : RF := (SEC_MG_CTR.reg).sub 0 64
/-- SEC_CNT_MG_AUTH_FAIL, 14 Table 14.15. -/
def SEC_CNT_MG_AUTH_FAIL.reg : RF := RF.whole (0x400030) ((Rst.const 0).value [])
def SEC_CNT_MG_AUTH_FAIL.count : RF := (SEC_CNT_MG_AUTH_FAIL.reg).sub 0 48
def SEC_CNT_MG_AUTH_FAIL.ev : Cnt := ⟨SEC_CNT_MG_AUTH_FAIL.count, 0x0400, 0⟩
/-- SEC_CNT_CMD_FAIL, 14 Table 14.15. -/
def SEC_CNT_CMD_FAIL.reg : RF := RF.whole (0x400038) ((Rst.const 0).value [])
def SEC_CNT_CMD_FAIL.count : RF := (SEC_CNT_CMD_FAIL.reg).sub 0 48
def SEC_CNT_CMD_FAIL.ev : Cnt := ⟨SEC_CNT_CMD_FAIL.count, 0x0401, 0⟩
/-- SEC_CMD_BUF, 14 Table 14.15. -/
def SEC_CMD_BUF.reg (w : Nat) : RF := RF.whole (0x400100 + 0x8 * w) ((Rst.const 0).value [w])
def SEC_CMD_BUF.data (w : Nat) : RF := (SEC_CMD_BUF.reg w).sub 0 64
/-- SEC_OWNER_HASH, 14 Table 14.15. -/
def SEC_OWNER_HASH.reg (k : Nat) (w : Nat) : RF := RF.whole (0x400200 + 0x40 * k + 0x8 * w) ((Rst.const 0).value [k, w])
def SEC_OWNER_HASH.hash (k : Nat) (w : Nat) : RF := (SEC_OWNER_HASH.reg k w).sub 0 64
/-- SEC_MEAS, 14 Table 14.15. -/
def SEC_MEAS.reg (i1 : Nat) (w : Nat) : RF := RF.whole (0x400440 + 0x40 * i1 + 0x8 * w) ((Rst.const 0).value [i1, w])
def SEC_MEAS.digest (i1 : Nat) (w : Nat) : RF := (SEC_MEAS.reg i1 w).sub 0 64
/-- LNK_CTL, 03 Table 3.7. -/
def LNK_CTL.reg (p : Nat) : RF := RF.whole (0x1000000 + 0x10000 * p) ((Rst.const 0).value [p])
def LNK_CTL.reset (p : Nat) : RF := (LNK_CTL.reg p).sub 0 1
/-- LNK_STAT, 03 Table 3.8. -/
def LNK_STAT.reg (p : Nat) : RF := RF.whole (0x1000008 + 0x10000 * p) ((Rst.const 0).value [p])
def LNK_STAT.state (p : Nat) : RF := (LNK_STAT.reg p).sub 0 4
def LNK_STAT.rate (p : Nat) : RF := (LNK_STAT.reg p).sub 4 2
def LNK_STAT.width (p : Nat) : RF := (LNK_STAT.reg p).sub 6 2
def LNK_STAT.down_cause (p : Nat) : RF := (LNK_STAT.reg p).sub 8 4
def LNK_STAT.reach_short (p : Nat) : RF := (LNK_STAT.reg p).sub 12 1
def LNK_STAT.handed_back (p : Nat) : RF := (LNK_STAT.reg p).sub 13 1
/-- LNK_CFG, 03 Table 3.9. -/
def LNK_CFG.reg (p : Nat) : RF := RF.whole (0x1000010 + 0x10000 * p) ((Rst.const 1).value [p])
def LNK_CFG.auto_narrow (p : Nat) : RF := (LNK_CFG.reg p).sub 0 1
/-- LNK_RESET_LIMIT, 03 Table 3.10. -/
def LNK_RESET_LIMIT.reg (p : Nat) : RF := RF.whole (0x1000018 + 0x10000 * p) ((Rst.const 0x1e8480).value [p])
def LNK_RESET_LIMIT.limit_us (p : Nat) : RF := (LNK_RESET_LIMIT.reg p).sub 0 32
/-- LNK_REACH, 03 Table 3.11. -/
def LNK_REACH.reg (p : Nat) : RF := RF.whole (0x1000020 + 0x10000 * p) ((Rst.const 0).value [p])
def LNK_REACH.km (p : Nat) : RF := (LNK_REACH.reg p).sub 0 3
def LNK_REACH.granted (p : Nat) : RF := (LNK_REACH.reg p).sub 4 3
def LNK_REACH.refused (p : Nat) : RF := (LNK_REACH.reg p).sub 8 1
/-- LNK_ESCROW, 03 Table 3.12. -/
def LNK_ESCROW.reg (p : Nat) : RF := RF.whole (0x1000028 + 0x10000 * p) ((Rst.const 0x100000000000000).value [p])
def LNK_ESCROW.oldest (p : Nat) : RF := (LNK_ESCROW.reg p).sub 0 24
def LNK_ESCROW.next (p : Nat) : RF := (LNK_ESCROW.reg p).sub 24 24
def LNK_ESCROW.depth (p : Nat) : RF := (LNK_ESCROW.reg p).sub 48 14
/-- LNK_ACK_TIMER, 03 Table 3.13. -/
def LNK_ACK_TIMER.reg (p : Nat) : RF := RF.whole (0x1000030 + 0x10000 * p) ((Rst.const 0x7d0).value [p])
def LNK_ACK_TIMER.period_ns (p : Nat) : RF := (LNK_ACK_TIMER.reg p).sub 0 32
/-- LNK_ERR_WIN, 03 Table 3.14. -/
def LNK_ERR_WIN.reg (p : Nat) : RF := RF.whole (0x1000038 + 0x10000 * p) ((Rst.const 0).value [p])
def LNK_ERR_WIN.naks (p : Nat) : RF := (LNK_ERR_WIN.reg p).sub 0 11
def LNK_ERR_WIN.fec_uncorr (p : Nat) : RF := (LNK_ERR_WIN.reg p).sub 11 5
def LNK_ERR_WIN.failed_replays (p : Nat) : RF := (LNK_ERR_WIN.reg p).sub 16 4
def LNK_ERR_WIN.frames (p : Nat) : RF := (LNK_ERR_WIN.reg p).sub 24 24
/-- LNK_CNT_NAK, 03 Table 3.15. -/
def LNK_CNT_NAK.reg (p : Nat) : RF := RF.whole (0x1000040 + 0x10000 * p) ((Rst.const 0).value [p])
def LNK_CNT_NAK.count (p : Nat) : RF := (LNK_CNT_NAK.reg p).sub 0 48
def LNK_CNT_NAK.ev (p : Nat) : Cnt := ⟨LNK_CNT_NAK.count p, 0x1000, p⟩
/-- LNK_CNT_REPLAY, 03 Table 3.15. -/
def LNK_CNT_REPLAY.reg (p : Nat) : RF := RF.whole (0x1000048 + 0x10000 * p) ((Rst.const 0).value [p])
def LNK_CNT_REPLAY.count (p : Nat) : RF := (LNK_CNT_REPLAY.reg p).sub 0 48
def LNK_CNT_REPLAY.ev (p : Nat) : Cnt := ⟨LNK_CNT_REPLAY.count p, 0x1001, p⟩
/-- LNK_CNT_CORRUPT, 03 Table 3.15. -/
def LNK_CNT_CORRUPT.reg (p : Nat) : RF := RF.whole (0x1000050 + 0x10000 * p) ((Rst.const 0).value [p])
def LNK_CNT_CORRUPT.count (p : Nat) : RF := (LNK_CNT_CORRUPT.reg p).sub 0 48
def LNK_CNT_CORRUPT.ev (p : Nat) : Cnt := ⟨LNK_CNT_CORRUPT.count p, 0x1002, p⟩
/-- LNK_CNT_CREDIT, 03 Table 3.15. -/
def LNK_CNT_CREDIT.reg (p : Nat) : RF := RF.whole (0x1000058 + 0x10000 * p) ((Rst.const 0).value [p])
def LNK_CNT_CREDIT.count (p : Nat) : RF := (LNK_CNT_CREDIT.reg p).sub 0 48
def LNK_CNT_CREDIT.ev (p : Nat) : Cnt := ⟨LNK_CNT_CREDIT.count p, 0x1003, p⟩
/-- LNK_CNT_STALE, 03 Table 3.15. -/
def LNK_CNT_STALE.reg (p : Nat) : RF := RF.whole (0x1000060 + 0x10000 * p) ((Rst.const 0).value [p])
def LNK_CNT_STALE.count (p : Nat) : RF := (LNK_CNT_STALE.reg p).sub 0 48
def LNK_CNT_STALE.ev (p : Nat) : Cnt := ⟨LNK_CNT_STALE.count p, 0x1004, p⟩
/-- LNK_CNT_RESET, 03 Table 3.15. -/
def LNK_CNT_RESET.reg (p : Nat) : RF := RF.whole (0x1000068 + 0x10000 * p) ((Rst.const 0).value [p])
def LNK_CNT_RESET.count (p : Nat) : RF := (LNK_CNT_RESET.reg p).sub 0 48
def LNK_CNT_RESET.ev (p : Nat) : Cnt := ⟨LNK_CNT_RESET.count p, 0x1005, p⟩
/-- LNK_CNT_HANDBACK, 03 Table 3.15. -/
def LNK_CNT_HANDBACK.reg (p : Nat) : RF := RF.whole (0x1000070 + 0x10000 * p) ((Rst.const 0).value [p])
def LNK_CNT_HANDBACK.count (p : Nat) : RF := (LNK_CNT_HANDBACK.reg p).sub 0 48
def LNK_CNT_HANDBACK.ev (p : Nat) : Cnt := ⟨LNK_CNT_HANDBACK.count p, 0x1006, p⟩
/-- LNK_PEER, 03 Table 3.16. -/
def LNK_PEER.reg (p : Nat) : RF := RF.whole (0x1000078 + 0x10000 * p) ((Rst.const 0).value [p])
def LNK_PEER.serial (p : Nat) : RF := (LNK_PEER.reg p).sub 0 64
/-- LNK_PEER_INFO, 03 Table 3.17. -/
def LNK_PEER_INFO.reg (p : Nat) : RF := RF.whole (0x1000080 + 0x10000 * p) ((Rst.const 0x7fffff).value [p])
def LNK_PEER_INFO.endpoint (p : Nat) : RF := (LNK_PEER_INFO.reg p).sub 0 23
def LNK_PEER_INFO.port (p : Nat) : RF := (LNK_PEER_INFO.reg p).sub 24 6
def LNK_PEER_INFO.role (p : Nat) : RF := (LNK_PEER_INFO.reg p).sub 32 3
/-- LNK_EVT, 03 Table 3.18. -/
def LNK_EVT.reg (p : Nat) : RF := RF.whole (0x1000088 + 0x10000 * p) ((Rst.const 0).value [p])
def LNK_EVT.down (p : Nat) : RF := (LNK_EVT.reg p).sub 0 1
def LNK_EVT.up (p : Nat) : RF := (LNK_EVT.reg p).sub 1 1
def LNK_EVT.held (p : Nat) : RF := (LNK_EVT.reg p).sub 2 1
def LNK_EVT.reset_limit (p : Nat) : RF := (LNK_EVT.reg p).sub 3 1
def LNK_EVT.lane_degraded (p : Nat) : RF := (LNK_EVT.reg p).sub 4 1
def LNK_EVT.credit_restored (p : Nat) : RF := (LNK_EVT.reg p).sub 5 1
/-- LNK_CELL, 03 Table 3.19. -/
def LNK_CELL.reg (p : Nat) : RF := RF.whole (0x1000090 + 0x10000 * p) ((Rst.const 0x400).value [p])
def LNK_CELL.credit (p : Nat) : RF := (LNK_CELL.reg p).sub 0 13
/-- LNK_VAULT_CLASS, 03 Table 3.20. -/
def LNK_VAULT_CLASS.reg (p : Nat) (c : Nat) : RF := RF.whole (0x1000100 + 0x10000 * p + 0x8 * c) ((Rst.const 0x42).value [p, c])
def LNK_VAULT_CLASS.floor (p : Nat) (c : Nat) : RF := (LNK_VAULT_CLASS.reg p c).sub 0 18
def LNK_VAULT_CLASS.cap (p : Nat) (c : Nat) : RF := (LNK_VAULT_CLASS.reg p c).sub 20 18
def LNK_VAULT_CLASS.occupancy (p : Nat) (c : Nat) : RF := (LNK_VAULT_CLASS.reg p c).sub 40 18
/-- LNK_VAULT_USED, 03 Table 3.21. -/
def LNK_VAULT_USED.reg (p : Nat) (c : Nat) : RF := RF.whole (0x1000200 + 0x10000 * p + 0x8 * c) ((Rst.const 0).value [p, c])
def LNK_VAULT_USED.used (p : Nat) (c : Nat) : RF := (LNK_VAULT_USED.reg p c).sub 0 18
def LNK_VAULT_USED.peer_floor (p : Nat) (c : Nat) : RF := (LNK_VAULT_USED.reg p c).sub 20 18
def LNK_VAULT_USED.peer_cap (p : Nat) (c : Nat) : RF := (LNK_VAULT_USED.reg p c).sub 40 18
/-- PRT_ROLE, 03 Table 3.22. -/
def PRT_ROLE.reg (p : Nat) : RF := RF.whole (0x1008000 + 0x10000 * p) ((Rst.const 0).value [p])
def PRT_ROLE.role (p : Nat) : RF := (PRT_ROLE.reg p).sub 0 3
def PRT_ROLE.effective (p : Nat) : RF := (PRT_ROLE.reg p).sub 4 3
/-- PRT_TARGET, 03 Table 3.23. -/
def PRT_TARGET.reg (p : Nat) : RF := RF.whole (0x1008008 + 0x10000 * p) ((Rst.const 0).value [p])
def PRT_TARGET.rate (p : Nat) : RF := (PRT_TARGET.reg p).sub 0 2
def PRT_TARGET.width (p : Nat) : RF := (PRT_TARGET.reg p).sub 2 2
/-- PRT_LANE_EXCL, 03 Table 3.24. -/
def PRT_LANE_EXCL.reg (p : Nat) : RF := RF.whole (0x1008010 + 0x10000 * p) ((Rst.const 0).value [p])
def PRT_LANE_EXCL.sw (p : Nat) : RF := (PRT_LANE_EXCL.reg p).sub 0 8
def PRT_LANE_EXCL.auto (p : Nat) : RF := (PRT_LANE_EXCL.reg p).sub 8 8
/-- PRT_DEGRADE, 03 Table 3.25. -/
def PRT_DEGRADE.reg (p : Nat) : RF := RF.whole (0x1008018 + 0x10000 * p) ((Rst.const 0x400000).value [p])
def PRT_DEGRADE.thresh (p : Nat) : RF := (PRT_DEGRADE.reg p).sub 0 32
/-- PRT_LANE_STAT, 03 Table 3.26. -/
def PRT_LANE_STAT.reg (p : Nat) (l : Nat) : RF := RF.whole (0x1008100 + 0x10000 * p + 0x8 * l) ((Rst.const 0).value [p, l])
def PRT_LANE_STAT.signal (p : Nat) (l : Nat) : RF := (PRT_LANE_STAT.reg p l).sub 0 1
def PRT_LANE_STAT.locked (p : Nat) (l : Nat) : RF := (PRT_LANE_STAT.reg p l).sub 1 1
def PRT_LANE_STAT.pol_inv (p : Nat) (l : Nat) : RF := (PRT_LANE_STAT.reg p l).sub 2 1
def PRT_LANE_STAT.peer_lane (p : Nat) (l : Nat) : RF := (PRT_LANE_STAT.reg p l).sub 3 3
def PRT_LANE_STAT.active (p : Nat) (l : Nat) : RF := (PRT_LANE_STAT.reg p l).sub 6 1
def PRT_LANE_STAT.logical (p : Nat) (l : Nat) : RF := (PRT_LANE_STAT.reg p l).sub 7 3
def PRT_LANE_STAT.tx_fault (p : Nat) (l : Nat) : RF := (PRT_LANE_STAT.reg p l).sub 10 1
def PRT_LANE_STAT.degraded (p : Nat) (l : Nat) : RF := (PRT_LANE_STAT.reg p l).sub 11 1
/-- PRT_FEC_LANE, 03 Table 3.27. -/
def PRT_FEC_LANE.reg (p : Nat) (l : Nat) : RF := RF.whole (0x1008200 + 0x10000 * p + 0x8 * l) ((Rst.const 0).value [p, l])
def PRT_FEC_LANE.corrected (p : Nat) (l : Nat) : RF := (PRT_FEC_LANE.reg p l).sub 0 48
/-- RTE_CFG, 04 Table 4.8. -/
def RTE_CFG.reg : RF := RF.whole (0x2000000) ((Rst.const 0x30ff00000).value [])
def RTE_CFG.d0 : RF := (RTE_CFG.reg).sub 0 4
def RTE_CFG.d1 : RF := (RTE_CFG.reg).sub 4 4
def RTE_CFG.group : RF := (RTE_CFG.reg).sub 8 8
def RTE_CFG.hall : RF := (RTE_CFG.reg).sub 16 4
def RTE_CFG.n0_m1 : RF := (RTE_CFG.reg).sub 20 4
def RTE_CFG.n1_m1 : RF := (RTE_CFG.reg).sub 24 4
def RTE_CFG.halls_m1 : RF := (RTE_CFG.reg).sub 28 4
def RTE_CFG.hall_ring : RF := (RTE_CFG.reg).sub 32 1
def RTE_CFG.tables_open : RF := (RTE_CFG.reg).sub 33 1
/-- RTE_EPOCH, 04 Table 4.9. -/
def RTE_EPOCH.reg : RF := RF.whole (0x2000008) ((Rst.const 0).value [])
def RTE_EPOCH.current : RF := (RTE_EPOCH.reg).sub 0 1
def RTE_EPOCH.pending_valid : RF := (RTE_EPOCH.reg).sub 1 1
def RTE_EPOCH.pending_epoch : RF := (RTE_EPOCH.reg).sub 2 1
def RTE_EPOCH.draining : RF := (RTE_EPOCH.reg).sub 3 1
/-- RTE_FLIP_TIME, 04 Table 4.10. -/
def RTE_FLIP_TIME.reg : RF := RF.whole (0x2000010) ((Rst.const 0).value [])
def RTE_FLIP_TIME.t : RF := (RTE_FLIP_TIME.reg).sub 0 64
/-- RTE_FLIP_LAST, 04 Table 4.11. -/
def RTE_FLIP_LAST.reg : RF := RF.whole (0x2000018) ((Rst.const 0).value [])
def RTE_FLIP_LAST.t : RF := (RTE_FLIP_LAST.reg).sub 0 64
/-- RTE_POLICY, 04 Table 4.12. -/
def RTE_POLICY.reg : RF := RF.whole (0x2000020) ((Rst.const 0).value [])
def RTE_POLICY.rq : RF := (RTE_POLICY.reg).sub 0 2
def RTE_POLICY.rp : RF := (RTE_POLICY.reg).sub 2 2
/-- RTE_UGAL_BIAS, 04 Table 4.13. -/
def RTE_UGAL_BIAS.reg : RF := RF.whole (0x2000028) ((Rst.const 0x84).value [])
def RTE_UGAL_BIAS.bias : RF := (RTE_UGAL_BIAS.reg).sub 0 16
/-- RTE_MARK_THRESH, 04 Table 4.14. -/
def RTE_MARK_THRESH.reg : RF := RF.whole (0x2000030) ((Rst.const 0x3e80400).value [])
def RTE_MARK_THRESH.thresh : RF := (RTE_MARK_THRESH.reg).sub 0 16
def RTE_MARK_THRESH.echo_gap_ns : RF := (RTE_MARK_THRESH.reg).sub 16 16
/-- RTE_APEX, 04 Table 4.15. -/
def RTE_APEX.reg : RF := RF.whole (0x2000038) ((Rst.const 0xff).value [])
def RTE_APEX.d0 : RF := (RTE_APEX.reg).sub 0 4
def RTE_APEX.d1 : RF := (RTE_APEX.reg).sub 4 4
/-- RTE_HALL_CFG, 04 Table 4.16. -/
def RTE_HALL_CFG.reg : RF := RF.whole (0x2000040) ((Rst.const 0).value [])
def RTE_HALL_CFG.a_port : RF := (RTE_HALL_CFG.reg).sub 0 6
def RTE_HALL_CFG.a_valid : RF := (RTE_HALL_CFG.reg).sub 6 1
def RTE_HALL_CFG.a_dir : RF := (RTE_HALL_CFG.reg).sub 7 1
def RTE_HALL_CFG.a_dateline : RF := (RTE_HALL_CFG.reg).sub 8 1
def RTE_HALL_CFG.a_peer_hall : RF := (RTE_HALL_CFG.reg).sub 12 4
def RTE_HALL_CFG.b_port : RF := (RTE_HALL_CFG.reg).sub 16 6
def RTE_HALL_CFG.b_valid : RF := (RTE_HALL_CFG.reg).sub 22 1
def RTE_HALL_CFG.b_dir : RF := (RTE_HALL_CFG.reg).sub 23 1
def RTE_HALL_CFG.b_dateline : RF := (RTE_HALL_CFG.reg).sub 24 1
def RTE_HALL_CFG.b_peer_hall : RF := (RTE_HALL_CFG.reg).sub 28 4
/-- RTE_LIFETIME, 04 Table 4.17. -/
def RTE_LIFETIME.reg : RF := RF.whole (0x2000048) ((Rst.const 0x1e8480).value [])
def RTE_LIFETIME.quarter_ns : RF := (RTE_LIFETIME.reg).sub 0 32
/-- RTE_SAMPLE, 04 Table 4.18. -/
def RTE_SAMPLE.reg : RF := RF.whole (0x2000050) ((Rst.const 0x640000000010).value [])
def RTE_SAMPLE.k : RF := (RTE_SAMPLE.reg).sub 0 5
def RTE_SAMPLE.enable : RF := (RTE_SAMPLE.reg).sub 8 1
def RTE_SAMPLE.collector : RF := (RTE_SAMPLE.reg).sub 16 23
def RTE_SAMPLE.flush_us : RF := (RTE_SAMPLE.reg).sub 40 16
/-- RTE_TBL_STAT, 04 Table 4.19. -/
def RTE_TBL_STAT.reg : RF := RF.whole (0x2000058) ((Rst.const 1).value [])
def RTE_TBL_STAT.obverse : RF := (RTE_TBL_STAT.reg).sub 0 2
def RTE_TBL_STAT.reverse : RF := (RTE_TBL_STAT.reg).sub 2 2
def RTE_TBL_STAT.refused : RF := (RTE_TBL_STAT.reg).sub 8 1
/-- RTE_ADVERT_EVT, 04 Table 4.20. -/
def RTE_ADVERT_EVT.reg : RF := RF.whole (0x2000060) ((Rst.const 0).value [])
def RTE_ADVERT_EVT.changed : RF := (RTE_ADVERT_EVT.reg).sub 0 1
/-- RTE_CELL_MAP, 04 Table 4.21. -/
def RTE_CELL_MAP.reg : RF := RF.whole (0x2000068) ((Rst.const 0).value [])
def RTE_CELL_MAP.port_0 : RF := (RTE_CELL_MAP.reg).sub 0 6
def RTE_CELL_MAP.valid_0 : RF := (RTE_CELL_MAP.reg).sub 7 1
def RTE_CELL_MAP.port_1 : RF := (RTE_CELL_MAP.reg).sub 8 6
def RTE_CELL_MAP.valid_1 : RF := (RTE_CELL_MAP.reg).sub 15 1
def RTE_CELL_MAP.port_2 : RF := (RTE_CELL_MAP.reg).sub 16 6
def RTE_CELL_MAP.valid_2 : RF := (RTE_CELL_MAP.reg).sub 23 1
def RTE_CELL_MAP.port_3 : RF := (RTE_CELL_MAP.reg).sub 24 6
def RTE_CELL_MAP.valid_3 : RF := (RTE_CELL_MAP.reg).sub 31 1
def RTE_CELL_MAP.port_4 : RF := (RTE_CELL_MAP.reg).sub 32 6
def RTE_CELL_MAP.valid_4 : RF := (RTE_CELL_MAP.reg).sub 39 1
def RTE_CELL_MAP.port_5 : RF := (RTE_CELL_MAP.reg).sub 40 6
def RTE_CELL_MAP.valid_5 : RF := (RTE_CELL_MAP.reg).sub 47 1
def RTE_CELL_MAP.port_6 : RF := (RTE_CELL_MAP.reg).sub 48 6
def RTE_CELL_MAP.valid_6 : RF := (RTE_CELL_MAP.reg).sub 55 1
def RTE_CELL_MAP.port_7 : RF := (RTE_CELL_MAP.reg).sub 56 6
def RTE_CELL_MAP.valid_7 : RF := (RTE_CELL_MAP.reg).sub 63 1
/-- RTE_CNT_LIFETIME, 04 Table 4.22. -/
def RTE_CNT_LIFETIME.reg : RF := RF.whole (0x2000080) ((Rst.const 0).value [])
def RTE_CNT_LIFETIME.count : RF := (RTE_CNT_LIFETIME.reg).sub 0 48
def RTE_CNT_LIFETIME.ev : Cnt := ⟨RTE_CNT_LIFETIME.count, 0x2000, 0⟩
/-- RTE_CNT_NOPATH, 04 Table 4.22. -/
def RTE_CNT_NOPATH.reg : RF := RF.whole (0x2000088) ((Rst.const 0).value [])
def RTE_CNT_NOPATH.count : RF := (RTE_CNT_NOPATH.reg).sub 0 48
def RTE_CNT_NOPATH.ev : Cnt := ⟨RTE_CNT_NOPATH.count, 0x2001, 0⟩
/-- RTE_CNT_ESCALATE, 04 Table 4.22. -/
def RTE_CNT_ESCALATE.reg : RF := RF.whole (0x2000090) ((Rst.const 0).value [])
def RTE_CNT_ESCALATE.count : RF := (RTE_CNT_ESCALATE.reg).sub 0 48
def RTE_CNT_ESCALATE.ev : Cnt := ⟨RTE_CNT_ESCALATE.count, 0x2002, 0⟩
/-- RTE_CNT_UNREACH_SUPP, 04 Table 4.22. -/
def RTE_CNT_UNREACH_SUPP.reg : RF := RF.whole (0x2000098) ((Rst.const 0).value [])
def RTE_CNT_UNREACH_SUPP.count : RF := (RTE_CNT_UNREACH_SUPP.reg).sub 0 48
def RTE_CNT_UNREACH_SUPP.ev : Cnt := ⟨RTE_CNT_UNREACH_SUPP.count, 0x2003, 0⟩
/-- RTE_CNT_MC_ZERO, 04 Table 4.22. -/
def RTE_CNT_MC_ZERO.reg : RF := RF.whole (0x20000a0) ((Rst.const 0).value [])
def RTE_CNT_MC_ZERO.count : RF := (RTE_CNT_MC_ZERO.reg).sub 0 48
def RTE_CNT_MC_ZERO.ev : Cnt := ⟨RTE_CNT_MC_ZERO.count, 0x2004, 0⟩
/-- RTE_CNT_MC_DOWN, 04 Table 4.22. -/
def RTE_CNT_MC_DOWN.reg : RF := RF.whole (0x20000a8) ((Rst.const 0).value [])
def RTE_CNT_MC_DOWN.count : RF := (RTE_CNT_MC_DOWN.reg).sub 0 48
def RTE_CNT_MC_DOWN.ev : Cnt := ⟨RTE_CNT_MC_DOWN.count, 0x2005, 0⟩
/-- RTE_CNT_MG_FULL, 04 Table 4.22. -/
def RTE_CNT_MG_FULL.reg : RF := RF.whole (0x20000b0) ((Rst.const 0).value [])
def RTE_CNT_MG_FULL.count : RF := (RTE_CNT_MG_FULL.reg).sub 0 48
def RTE_CNT_MG_FULL.ev : Cnt := ⟨RTE_CNT_MG_FULL.count, 0x2006, 0⟩
/-- RTE_CNT_SAMPLE_LOST, 04 Table 4.22. -/
def RTE_CNT_SAMPLE_LOST.reg : RF := RF.whole (0x20000b8) ((Rst.const 0).value [])
def RTE_CNT_SAMPLE_LOST.count : RF := (RTE_CNT_SAMPLE_LOST.reg).sub 0 48
def RTE_CNT_SAMPLE_LOST.ev : Cnt := ⟨RTE_CNT_SAMPLE_LOST.count, 0x2007, 0⟩
/-- RTE_CNT_FLIP_IGN, 04 Table 4.22. -/
def RTE_CNT_FLIP_IGN.reg : RF := RF.whole (0x20000c0) ((Rst.const 0).value [])
def RTE_CNT_FLIP_IGN.count : RF := (RTE_CNT_FLIP_IGN.reg).sub 0 48
def RTE_CNT_FLIP_IGN.ev : Cnt := ⟨RTE_CNT_FLIP_IGN.count, 0x2008, 0⟩
/-- RTE_GROUPS_PRESENT, 04 Table 4.23. -/
def RTE_GROUPS_PRESENT.reg (i : Nat) : RF := RF.whole (0x2000100 + 0x8 * i) ((Rst.const 0).value [i])
def RTE_GROUPS_PRESENT.present (i : Nat) : RF := (RTE_GROUPS_PRESENT.reg i).sub 0 64
/-- RTE_PORT_STAT0, 04 Table 4.24. -/
def RTE_PORT_STAT0.reg (p : Nat) : RF := RF.whole (0x2008000 + 0x20 * p) ((Rst.const 0).value [p])
def RTE_PORT_STAT0.tx_packets (p : Nat) : RF := (RTE_PORT_STAT0.reg p).sub 0 48
/-- RTE_PORT_STAT1, 04 Table 4.24. -/
def RTE_PORT_STAT1.reg (p : Nat) : RF := RF.whole (0x2008008 + 0x20 * p) ((Rst.const 0).value [p])
def RTE_PORT_STAT1.tx_flits (p : Nat) : RF := (RTE_PORT_STAT1.reg p).sub 0 48
/-- RTE_PORT_STAT2, 04 Table 4.24. -/
def RTE_PORT_STAT2.reg (p : Nat) : RF := RF.whole (0x2008010 + 0x20 * p) ((Rst.const 0).value [p])
def RTE_PORT_STAT2.stall_cycles (p : Nat) : RF := (RTE_PORT_STAT2.reg p).sub 0 48
/-- RTE_PORT_STAT3, 04 Table 4.24. -/
def RTE_PORT_STAT3.reg (p : Nat) : RF := RF.whole (0x2008018 + 0x20 * p) ((Rst.const 0).value [p])
def RTE_PORT_STAT3.qdepth_rq (p : Nat) : RF := (RTE_PORT_STAT3.reg p).sub 0 16
def RTE_PORT_STAT3.qdepth_rp (p : Nat) : RF := (RTE_PORT_STAT3.reg p).sub 16 16
def RTE_PORT_STAT3.qdepth_max (p : Nat) : RF := (RTE_PORT_STAT3.reg p).sub 32 16
/-- RTE_HALL_CTL, 04 Table 4.25. -/
def RTE_HALL_CTL.reg (v : Nat) (h : Nat) : RF := RF.whole (0x2100000 + 0x100000 * v + 0x100 * h) ((Rst.const 3).value [v, h])
def RTE_HALL_CTL.dir (v : Nat) (h : Nat) : RF := (RTE_HALL_CTL.reg v h).sub 0 2
/-- RTE_HALL_GW, 04 Table 4.26. -/
def RTE_HALL_GW.reg (v : Nat) (h : Nat) (i : Nat) : RF := RF.whole (0x2100008 + 0x100000 * v + 0x100 * h + 0x8 * i) ((Rst.const 0).value [v, h, i])
def RTE_HALL_GW.group_0 (v : Nat) (h : Nat) (i : Nat) : RF := (RTE_HALL_GW.reg v h i).sub 0 8
def RTE_HALL_GW.d0_0 (v : Nat) (h : Nat) (i : Nat) : RF := (RTE_HALL_GW.reg v h i).sub 8 4
def RTE_HALL_GW.d1_0 (v : Nat) (h : Nat) (i : Nat) : RF := (RTE_HALL_GW.reg v h i).sub 12 4
def RTE_HALL_GW.valid_0 (v : Nat) (h : Nat) (i : Nat) : RF := (RTE_HALL_GW.reg v h i).sub 16 1
def RTE_HALL_GW.group_1 (v : Nat) (h : Nat) (i : Nat) : RF := (RTE_HALL_GW.reg v h i).sub 32 8
def RTE_HALL_GW.d0_1 (v : Nat) (h : Nat) (i : Nat) : RF := (RTE_HALL_GW.reg v h i).sub 40 4
def RTE_HALL_GW.d1_1 (v : Nat) (h : Nat) (i : Nat) : RF := (RTE_HALL_GW.reg v h i).sub 44 4
def RTE_HALL_GW.valid_1 (v : Nat) (h : Nat) (i : Nat) : RF := (RTE_HALL_GW.reg v h i).sub 48 1
/-- RTE_GROUP_CAND, 04 Table 4.27. -/
def RTE_GROUP_CAND.reg (v : Nat) (g : Nat) (i : Nat) : RF := RF.whole (0x2101000 + 0x100000 * v + 0x40 * g + 0x8 * i) ((Rst.const 0).value [v, g, i])
def RTE_GROUP_CAND.d0_0 (v : Nat) (g : Nat) (i : Nat) : RF := (RTE_GROUP_CAND.reg v g i).sub 0 4
def RTE_GROUP_CAND.d1_0 (v : Nat) (g : Nat) (i : Nat) : RF := (RTE_GROUP_CAND.reg v g i).sub 4 4
def RTE_GROUP_CAND.port_0 (v : Nat) (g : Nat) (i : Nat) : RF := (RTE_GROUP_CAND.reg v g i).sub 8 6
def RTE_GROUP_CAND.valid_0 (v : Nat) (g : Nat) (i : Nat) : RF := (RTE_GROUP_CAND.reg v g i).sub 14 1
def RTE_GROUP_CAND.d0_1 (v : Nat) (g : Nat) (i : Nat) : RF := (RTE_GROUP_CAND.reg v g i).sub 16 4
def RTE_GROUP_CAND.d1_1 (v : Nat) (g : Nat) (i : Nat) : RF := (RTE_GROUP_CAND.reg v g i).sub 20 4
def RTE_GROUP_CAND.port_1 (v : Nat) (g : Nat) (i : Nat) : RF := (RTE_GROUP_CAND.reg v g i).sub 24 6
def RTE_GROUP_CAND.valid_1 (v : Nat) (g : Nat) (i : Nat) : RF := (RTE_GROUP_CAND.reg v g i).sub 30 1
def RTE_GROUP_CAND.d0_2 (v : Nat) (g : Nat) (i : Nat) : RF := (RTE_GROUP_CAND.reg v g i).sub 32 4
def RTE_GROUP_CAND.d1_2 (v : Nat) (g : Nat) (i : Nat) : RF := (RTE_GROUP_CAND.reg v g i).sub 36 4
def RTE_GROUP_CAND.port_2 (v : Nat) (g : Nat) (i : Nat) : RF := (RTE_GROUP_CAND.reg v g i).sub 40 6
def RTE_GROUP_CAND.valid_2 (v : Nat) (g : Nat) (i : Nat) : RF := (RTE_GROUP_CAND.reg v g i).sub 46 1
def RTE_GROUP_CAND.d0_3 (v : Nat) (g : Nat) (i : Nat) : RF := (RTE_GROUP_CAND.reg v g i).sub 48 4
def RTE_GROUP_CAND.d1_3 (v : Nat) (g : Nat) (i : Nat) : RF := (RTE_GROUP_CAND.reg v g i).sub 52 4
def RTE_GROUP_CAND.port_3 (v : Nat) (g : Nat) (i : Nat) : RF := (RTE_GROUP_CAND.reg v g i).sub 56 6
def RTE_GROUP_CAND.valid_3 (v : Nat) (g : Nat) (i : Nat) : RF := (RTE_GROUP_CAND.reg v g i).sub 62 1
/-- RTE_DEV_ENT, 04 Table 4.28. -/
def RTE_DEV_ENT.reg (v : Nat) (j : Nat) : RF := RF.whole (0x2108000 + 0x100000 * v + 0x8 * j) ((Rst.const 0).value [v, j])
def RTE_DEV_ENT.present (v : Nat) (j : Nat) : RF := (RTE_DEV_ENT.reg v j).sub 0 1
/-- RTE_MC_PORTS, 04 Table 4.29. -/
def RTE_MC_PORTS.reg (m : Nat) : RF := RF.whole (0x2400000 + 0x10 * m) ((Rst.const 0).value [m])
def RTE_MC_PORTS.ports (m : Nat) : RF := (RTE_MC_PORTS.reg m).sub 0 64
/-- RTE_MC_LOCAL, 04 Table 4.29. -/
def RTE_MC_LOCAL.reg (m : Nat) : RF := RF.whole (0x2400008 + 0x10 * m) ((Rst.const 0).value [m])
def RTE_MC_LOCAL.host_links (m : Nat) : RF := (RTE_MC_LOCAL.reg m).sub 0 8
def RTE_MC_LOCAL.local (m : Nat) : RF := (RTE_MC_LOCAL.reg m).sub 8 1
/-- QSL_CNT_DELIVERED, 04 Table 4.30. -/
def QSL_CNT_DELIVERED.reg : RF := RF.whole (0x3000000) ((Rst.const 0).value [])
def QSL_CNT_DELIVERED.count : RF := (QSL_CNT_DELIVERED.reg).sub 0 48
def QSL_CNT_DELIVERED.ev : Cnt := ⟨QSL_CNT_DELIVERED.count, 0x2100, 0⟩
/-- QSL_CNT_HOP_LIMIT, 04 Table 4.30. -/
def QSL_CNT_HOP_LIMIT.reg : RF := RF.whole (0x3000008) ((Rst.const 0).value [])
def QSL_CNT_HOP_LIMIT.count : RF := (QSL_CNT_HOP_LIMIT.reg).sub 0 48
def QSL_CNT_HOP_LIMIT.ev : Cnt := ⟨QSL_CNT_HOP_LIMIT.count, 0x2101, 0⟩
/-- QSL_CNT_NO_ROUTE, 04 Table 4.30. -/
def QSL_CNT_NO_ROUTE.reg : RF := RF.whole (0x3000010) ((Rst.const 0).value [])
def QSL_CNT_NO_ROUTE.count : RF := (QSL_CNT_NO_ROUTE.reg).sub 0 48
def QSL_CNT_NO_ROUTE.ev : Cnt := ⟨QSL_CNT_NO_ROUTE.count, 0x2102, 0⟩
/-- QSL_CNT_STALE, 04 Table 4.30. -/
def QSL_CNT_STALE.reg : RF := RF.whole (0x3000018) ((Rst.const 0).value [])
def QSL_CNT_STALE.count : RF := (QSL_CNT_STALE.reg).sub 0 48
def QSL_CNT_STALE.ev : Cnt := ⟨QSL_CNT_STALE.count, 0x2103, 0⟩
/-- QSL_CNT_INJ_FULL, 04 Table 4.30. -/
def QSL_CNT_INJ_FULL.reg : RF := RF.whole (0x3000020) ((Rst.const 0).value [])
def QSL_CNT_INJ_FULL.count : RF := (QSL_CNT_INJ_FULL.reg).sub 0 48
def QSL_CNT_INJ_FULL.ev : Cnt := ⟨QSL_CNT_INJ_FULL.count, 0x2104, 0⟩
/-- QSL_CNT_DEFLECTED, 04 Table 4.30. -/
def QSL_CNT_DEFLECTED.reg : RF := RF.whole (0x3000028) ((Rst.const 0).value [])
def QSL_CNT_DEFLECTED.count : RF := (QSL_CNT_DEFLECTED.reg).sub 0 48
def QSL_CNT_DEFLECTED.ev : Cnt := ⟨QSL_CNT_DEFLECTED.count, 0x2105, 0⟩
/-- QSL_INJ_STAT, 04 Table 4.31. -/
def QSL_INJ_STAT.reg : RF := RF.whole (0x3000040) ((Rst.const 0).value [])
def QSL_INJ_STAT.depth : RF := (QSL_INJ_STAT.reg).sub 0 13
def QSL_INJ_STAT.depth_max : RF := (QSL_INJ_STAT.reg).sub 16 13
/-- QSL_PORT_STAT0, 04 Table 4.32. -/
def QSL_PORT_STAT0.reg (p : Nat) : RF := RF.whole (0x3001000 + 0x10 * p) ((Rst.const 0).value [p])
def QSL_PORT_STAT0.sent (p : Nat) : RF := (QSL_PORT_STAT0.reg p).sub 0 48
/-- QSL_PORT_STAT1, 04 Table 4.32. -/
def QSL_PORT_STAT1.reg (p : Nat) : RF := RF.whole (0x3001008 + 0x10 * p) ((Rst.const 0).value [p])
def QSL_PORT_STAT1.deflected_out (p : Nat) : RF := (QSL_PORT_STAT1.reg p).sub 0 48
/-- TPT_RETRY, 05 Table 5.9. -/
def TPT_RETRY.reg : RF := RF.whole (0x4000000) ((Rst.const 0x100080000fa00).value [])
def TPT_RETRY.rto_ns : RF := (TPT_RETRY.reg).sub 0 32
def TPT_RETRY.retries : RF := (TPT_RETRY.reg).sub 32 8
def TPT_RETRY.nak_max : RF := (TPT_RETRY.reg).sub 40 16
/-- TPT_TIMERS, 05 Table 5.10. -/
def TPT_TIMERS.reg : RF := RF.whole (0x4000008) ((Rst.const 0xfa03e80).value [])
def TPT_TIMERS.hole_ns : RF := (TPT_TIMERS.reg).sub 0 16
def TPT_TIMERS.nak_delay_ns : RF := (TPT_TIMERS.reg).sub 16 16
/-- TPT_FILTER, 05 Table 5.11. -/
def TPT_FILTER.reg : RF := RF.whole (0x4000010) ((Rst.const 0xfa0).value [])
def TPT_FILTER.time_us : RF := (TPT_FILTER.reg).sub 0 16
def TPT_FILTER.occupancy : RF := (TPT_FILTER.reg).sub 24 22
/-- TPT_CWND, 05 Table 5.12. -/
def TPT_CWND.reg : RF := RF.whole (0x4000018) ((Rst.const 0xfa000400040).value [])
def TPT_CWND.init : RF := (TPT_CWND.reg).sub 0 12
def TPT_CWND.max : RF := (TPT_CWND.reg).sub 12 12
def TPT_CWND.rtt_init_ns : RF := (TPT_CWND.reg).sub 32 16
/-- TPT_STAT, 05 Table 5.13. -/
def TPT_STAT.reg : RF := RF.whole (0x4000020) ((Rst.const 0).value [])
def TPT_STAT.open_msgs : RF := (TPT_STAT.reg).sub 0 11
def TPT_STAT.src_msgs : RF := (TPT_STAT.reg).sub 16 15
def TPT_STAT.gets : RF := (TPT_STAT.reg).sub 32 12
/-- TPT_MSGID, 05 Table 5.14. -/
def TPT_MSGID.reg (n : Nat) : RF := RF.whole (0x4000100 + 0x8 * n) ((Rst.const 0).value [n])
def TPT_MSGID.next (n : Nat) : RF := (TPT_MSGID.reg n).sub 0 32
/-- TPT_CNT_DUP_OPEN, 05 Table 5.15. -/
def TPT_CNT_DUP_OPEN.reg : RF := RF.whole (0x4000200) ((Rst.const 0).value [])
def TPT_CNT_DUP_OPEN.count : RF := (TPT_CNT_DUP_OPEN.reg).sub 0 48
def TPT_CNT_DUP_OPEN.ev : Cnt := ⟨TPT_CNT_DUP_OPEN.count, 0x2200, 0⟩
/-- TPT_CNT_DUP_DONE, 05 Table 5.15. -/
def TPT_CNT_DUP_DONE.reg : RF := RF.whole (0x4000208) ((Rst.const 0).value [])
def TPT_CNT_DUP_DONE.count : RF := (TPT_CNT_DUP_DONE.reg).sub 0 48
def TPT_CNT_DUP_DONE.ev : Cnt := ⟨TPT_CNT_DUP_DONE.count, 0x2201, 0⟩
/-- TPT_CNT_LATE, 05 Table 5.15. -/
def TPT_CNT_LATE.reg : RF := RF.whole (0x4000210) ((Rst.const 0).value [])
def TPT_CNT_LATE.count : RF := (TPT_CNT_LATE.reg).sub 0 48
def TPT_CNT_LATE.ev : Cnt := ⟨TPT_CNT_LATE.count, 0x2202, 0⟩
/-- TPT_CNT_TIMEOUT, 05 Table 5.15. -/
def TPT_CNT_TIMEOUT.reg : RF := RF.whole (0x4000218) ((Rst.const 0).value [])
def TPT_CNT_TIMEOUT.count : RF := (TPT_CNT_TIMEOUT.reg).sub 0 48
def TPT_CNT_TIMEOUT.ev : Cnt := ⟨TPT_CNT_TIMEOUT.count, 0x2203, 0⟩
/-- TPT_CNT_REFUSED, 05 Table 5.15. -/
def TPT_CNT_REFUSED.reg : RF := RF.whole (0x4000220) ((Rst.const 0).value [])
def TPT_CNT_REFUSED.count : RF := (TPT_CNT_REFUSED.reg).sub 0 48
def TPT_CNT_REFUSED.ev : Cnt := ⟨TPT_CNT_REFUSED.count, 0x2204, 0⟩
/-- TPT_CNT_ABANDONED, 05 Table 5.15. -/
def TPT_CNT_ABANDONED.reg : RF := RF.whole (0x4000228) ((Rst.const 0).value [])
def TPT_CNT_ABANDONED.count : RF := (TPT_CNT_ABANDONED.reg).sub 0 48
def TPT_CNT_ABANDONED.ev : Cnt := ⟨TPT_CNT_ABANDONED.count, 0x2205, 0⟩
/-- TPT_CNT_RETX, 05 Table 5.15. -/
def TPT_CNT_RETX.reg : RF := RF.whole (0x4000230) ((Rst.const 0).value [])
def TPT_CNT_RETX.count : RF := (TPT_CNT_RETX.reg).sub 0 48
def TPT_CNT_RETX.ev : Cnt := ⟨TPT_CNT_RETX.count, 0x2206, 0⟩
/-- TPT_CNT_NAK_TX, 05 Table 5.15. -/
def TPT_CNT_NAK_TX.reg : RF := RF.whole (0x4000238) ((Rst.const 0).value [])
def TPT_CNT_NAK_TX.count : RF := (TPT_CNT_NAK_TX.reg).sub 0 48
def TPT_CNT_NAK_TX.ev : Cnt := ⟨TPT_CNT_NAK_TX.count, 0x2207, 0⟩
/-- TPT_CNT_NAK_RX, 05 Table 5.15. -/
def TPT_CNT_NAK_RX.reg : RF := RF.whole (0x4000240) ((Rst.const 0).value [])
def TPT_CNT_NAK_RX.count : RF := (TPT_CNT_NAK_RX.reg).sub 0 48
def TPT_CNT_NAK_RX.ev : Cnt := ⟨TPT_CNT_NAK_RX.count, 0x2208, 0⟩
/-- TPT_CNT_CECHO_RX, 05 Table 5.15. -/
def TPT_CNT_CECHO_RX.reg : RF := RF.whole (0x4000248) ((Rst.const 0).value [])
def TPT_CNT_CECHO_RX.count : RF := (TPT_CNT_CECHO_RX.reg).sub 0 48
def TPT_CNT_CECHO_RX.ev : Cnt := ⟨TPT_CNT_CECHO_RX.count, 0x2209, 0⟩
/-- TPT_CTX, 05 Table 5.16. -/
def TPT_CTX.reg (i : Nat) : RF := RF.whole (0x4100000 + 0x8 * i) ((Rst.const 0xfa00040).value [i])
def TPT_CTX.cwnd (i : Nat) : RF := (TPT_CTX.reg i).sub 0 12
def TPT_CTX.srtt_ns (i : Nat) : RF := (TPT_CTX.reg i).sub 16 16
def TPT_CTX.halvings (i : Nat) : RF := (TPT_CTX.reg i).sub 32 32
/-- TLR_KEY_BASE, 05 Table 5.17. -/
def TLR_KEY_BASE.reg (n : Nat) : RF := RF.whole (0x5000000 + 0x10 * n) ((Rst.const 0).value [n])
def TLR_KEY_BASE.base (n : Nat) : RF := (TLR_KEY_BASE.reg n).sub 0 64
/-- TLR_KEY_COUNT, 05 Table 5.17. -/
def TLR_KEY_COUNT.reg (n : Nat) : RF := RF.whole (0x5000008 + 0x10 * n) ((Rst.const 0).value [n])
def TLR_KEY_COUNT.count (n : Nat) : RF := (TLR_KEY_COUNT.reg n).sub 0 20
/-- TLR_KEY_INVAL, 05 Table 5.18. -/
def TLR_KEY_INVAL.reg : RF := RF.whole (0x5000100) ((Rst.const 0x8000000000000000).value [])
def TLR_KEY_INVAL.key : RF := (TLR_KEY_INVAL.reg).sub 0 32
def TLR_KEY_INVAL.scope : RF := (TLR_KEY_INVAL.reg).sub 32 2
def TLR_KEY_INVAL.go : RF := (TLR_KEY_INVAL.reg).sub 62 1
def TLR_KEY_INVAL.done : RF := (TLR_KEY_INVAL.reg).sub 63 1
/-- TLR_RANK_INVAL, 05 Table 5.19. -/
def TLR_RANK_INVAL.reg : RF := RF.whole (0x5000108) ((Rst.const 0x8000000000000000).value [])
def TLR_RANK_INVAL.rank : RF := (TLR_RANK_INVAL.reg).sub 0 24
def TLR_RANK_INVAL.account : RF := (TLR_RANK_INVAL.reg).sub 24 14
def TLR_RANK_INVAL.all : RF := (TLR_RANK_INVAL.reg).sub 40 1
def TLR_RANK_INVAL.go : RF := (TLR_RANK_INVAL.reg).sub 62 1
def TLR_RANK_INVAL.done : RF := (TLR_RANK_INVAL.reg).sub 63 1
/-- TLR_RBOOK_BASE, 05 Table 5.20. -/
def TLR_RBOOK_BASE.reg (n : Nat) : RF := RF.whole (0x5000200 + 0x10 * n) ((Rst.const 0).value [n])
def TLR_RBOOK_BASE.base (n : Nat) : RF := (TLR_RBOOK_BASE.reg n).sub 0 64
/-- TLR_RBOOK_SIZE, 05 Table 5.20. -/
def TLR_RBOOK_SIZE.reg (n : Nat) : RF := RF.whole (0x5000208 + 0x10 * n) ((Rst.const 0).value [n])
def TLR_RBOOK_SIZE.log2_buckets (n : Nat) : RF := (TLR_RBOOK_SIZE.reg n).sub 0 5
def TLR_RBOOK_SIZE.enable (n : Nat) : RF := (TLR_RBOOK_SIZE.reg n).sub 5 1
/-- TLR_ATOMIC_CFG, 05 Table 5.21. -/
def TLR_ATOMIC_CFG.reg : RF := RF.whole (0x5000300) ((Rst.const 0).value [])
def TLR_ATOMIC_CFG.use_pcie : RF := (TLR_ATOMIC_CFG.reg).sub 0 1
/-- TLR_APT_CFG, 05 Table 5.22. -/
def TLR_APT_CFG.reg : RF := RF.whole (0x5000308) ((Rst.const 0x1f40).value [])
def TLR_APT_CFG.timeout_us : RF := (TLR_APT_CFG.reg).sub 0 16
/-- TLR_ORDER_STAT, 05 Table 5.23. -/
def TLR_ORDER_STAT.reg : RF := RF.whole (0x5000310) ((Rst.const 0).value [])
def TLR_ORDER_STAT.parked : RF := (TLR_ORDER_STAT.reg).sub 0 17
/-- TLR_CNT_ATOMIC, 05 Table 5.24. -/
def TLR_CNT_ATOMIC.reg : RF := RF.whole (0x5000400) ((Rst.const 0).value [])
def TLR_CNT_ATOMIC.count : RF := (TLR_CNT_ATOMIC.reg).sub 0 48
def TLR_CNT_ATOMIC.ev : Cnt := ⟨TLR_CNT_ATOMIC.count, 0x2300, 0⟩
/-- TLR_CNT_BOOK_HIT, 05 Table 5.24. -/
def TLR_CNT_BOOK_HIT.reg : RF := RF.whole (0x5000408) ((Rst.const 0).value [])
def TLR_CNT_BOOK_HIT.count : RF := (TLR_CNT_BOOK_HIT.reg).sub 0 48
def TLR_CNT_BOOK_HIT.ev : Cnt := ⟨TLR_CNT_BOOK_HIT.count, 0x2301, 0⟩
/-- TLR_CNT_BOOK_MISS, 05 Table 5.24. -/
def TLR_CNT_BOOK_MISS.reg : RF := RF.whole (0x5000410) ((Rst.const 0).value [])
def TLR_CNT_BOOK_MISS.count : RF := (TLR_CNT_BOOK_MISS.reg).sub 0 48
def TLR_CNT_BOOK_MISS.ev : Cnt := ⟨TLR_CNT_BOOK_MISS.count, 0x2302, 0⟩
/-- TLR_CNT_BOOK_OVER, 05 Table 5.24. -/
def TLR_CNT_BOOK_OVER.reg : RF := RF.whole (0x5000418) ((Rst.const 0).value [])
def TLR_CNT_BOOK_OVER.count : RF := (TLR_CNT_BOOK_OVER.reg).sub 0 48
def TLR_CNT_BOOK_OVER.ev : Cnt := ⟨TLR_CNT_BOOK_OVER.count, 0x2303, 0⟩
/-- TLR_CNT_KEY_MISS, 05 Table 5.24. -/
def TLR_CNT_KEY_MISS.reg : RF := RF.whole (0x5000420) ((Rst.const 0).value [])
def TLR_CNT_KEY_MISS.count : RF := (TLR_CNT_KEY_MISS.reg).sub 0 48
def TLR_CNT_KEY_MISS.ev : Cnt := ⟨TLR_CNT_KEY_MISS.count, 0x2304, 0⟩
/-- TLR_CNT_KEY_FAULT, 05 Table 5.24. -/
def TLR_CNT_KEY_FAULT.reg : RF := RF.whole (0x5000428) ((Rst.const 0).value [])
def TLR_CNT_KEY_FAULT.count : RF := (TLR_CNT_KEY_FAULT.reg).sub 0 48
def TLR_CNT_KEY_FAULT.ev : Cnt := ⟨TLR_CNT_KEY_FAULT.count, 0x2305, 0⟩
/-- TLR_CNT_APT_FAULT, 05 Table 5.24. -/
def TLR_CNT_APT_FAULT.reg : RF := RF.whole (0x5000430) ((Rst.const 0).value [])
def TLR_CNT_APT_FAULT.count : RF := (TLR_CNT_APT_FAULT.reg).sub 0 48
def TLR_CNT_APT_FAULT.ev : Cnt := ⟨TLR_CNT_APT_FAULT.count, 0x2306, 0⟩
/-- TLR_CNT_ORDER_FIRE, 05 Table 5.24. -/
def TLR_CNT_ORDER_FIRE.reg : RF := RF.whole (0x5000438) ((Rst.const 0).value [])
def TLR_CNT_ORDER_FIRE.count : RF := (TLR_CNT_ORDER_FIRE.reg).sub 0 48
def TLR_CNT_ORDER_FIRE.ev : Cnt := ⟨TLR_CNT_ORDER_FIRE.count, 0x2307, 0⟩
/-- TLR_CNT_ORDER_DROP, 05 Table 5.24. -/
def TLR_CNT_ORDER_DROP.reg : RF := RF.whole (0x5000440) ((Rst.const 0).value [])
def TLR_CNT_ORDER_DROP.count : RF := (TLR_CNT_ORDER_DROP.reg).sub 0 48
def TLR_CNT_ORDER_DROP.ev : Cnt := ⟨TLR_CNT_ORDER_DROP.count, 0x2308, 0⟩
/-- TLR_APT_WIN0, 05 Table 5.25. -/
def TLR_APT_WIN0.reg (n : Nat) (w : Nat) : RF := RF.whole (0x5100000 + 0x8000 * n + 0x20 * w) ((Rst.const 0).value [n, w])
def TLR_APT_WIN0.valid (n : Nat) (w : Nat) : RF := (TLR_APT_WIN0.reg n w).sub 0 1
def TLR_APT_WIN0.visible (n : Nat) (w : Nat) : RF := (TLR_APT_WIN0.reg n w).sub 1 1
def TLR_APT_WIN0.account (n : Nat) (w : Nat) : RF := (TLR_APT_WIN0.reg n w).sub 16 14
def TLR_APT_WIN0.rank (n : Nat) (w : Nat) : RF := (TLR_APT_WIN0.reg n w).sub 32 24
/-- TLR_APT_WIN1, 05 Table 5.25. -/
def TLR_APT_WIN1.reg (n : Nat) (w : Nat) : RF := RF.whole (0x5100008 + 0x8000 * n + 0x20 * w) ((Rst.const 0).value [n, w])
def TLR_APT_WIN1.key (n : Nat) (w : Nat) : RF := (TLR_APT_WIN1.reg n w).sub 0 32
/-- TLR_APT_WIN2, 05 Table 5.25. -/
def TLR_APT_WIN2.reg (n : Nat) (w : Nat) : RF := RF.whole (0x5100010 + 0x8000 * n + 0x20 * w) ((Rst.const 0).value [n, w])
def TLR_APT_WIN2.offset (n : Nat) (w : Nat) : RF := (TLR_APT_WIN2.reg n w).sub 0 64
/-- TLR_APT_WIN3, 05 Table 5.25. -/
def TLR_APT_WIN3.reg (n : Nat) (w : Nat) : RF := RF.whole (0x5100018 + 0x8000 * n + 0x20 * w) ((Rst.const 0).value [n, w])
def TLR_APT_WIN3.err (n : Nat) (w : Nat) : RF := (TLR_APT_WIN3.reg n w).sub 0 1
def TLR_APT_WIN3.faults (n : Nat) (w : Nat) : RF := (TLR_APT_WIN3.reg n w).sub 32 32
/-- TLR_CTR, 05 Table 5.26. -/
def TLR_CTR.reg (i : Nat) : RF := RF.whole (0x5200000 + 0x8 * i) ((Rst.const 0).value [i])
def TLR_CTR.value (i : Nat) : RF := (TLR_CTR.reg i).sub 0 48
/-- TLR_CTR_OWN, 05 Table 5.26. -/
def TLR_CTR_OWN.reg (i : Nat) : RF := RF.whole (0x5280000 + 0x8 * i) ((Rst.const 0).value [i])
def TLR_CTR_OWN.account (i : Nat) : RF := (TLR_CTR_OWN.reg i).sub 0 14
def TLR_CTR_OWN.valid (i : Nat) : RF := (TLR_CTR_OWN.reg i).sub 16 1
/-- LDG_CFG, 06 Table 6.9. -/
def LDG_CFG.reg : RF := RF.whole (0x6000000) ((Rst.const 0x100004000000400).value [])
def LDG_CFG.reserve : RF := (LDG_CFG.reg).sub 0 21
def LDG_CFG.min_spill : RF := (LDG_CFG.reg).sub 32 16
def LDG_CFG.low_water : RF := (LDG_CFG.reg).sub 48 16
/-- LDG_STAT, 06 Table 6.10. -/
def LDG_STAT.reg : RF := RF.whole (0x6000008) ((Rst.const 0x100000).value [])
def LDG_STAT.free : RF := (LDG_STAT.reg).sub 0 21
def LDG_STAT.spilled : RF := (LDG_STAT.reg).sub 32 17
/-- LDG_CNT_MATCH, 06 Table 6.11. -/
def LDG_CNT_MATCH.reg : RF := RF.whole (0x6000100) ((Rst.const 0).value [])
def LDG_CNT_MATCH.count : RF := (LDG_CNT_MATCH.reg).sub 0 48
def LDG_CNT_MATCH.ev : Cnt := ⟨LDG_CNT_MATCH.count, 0x2400, 0⟩
/-- LDG_CNT_UNEXP, 06 Table 6.11. -/
def LDG_CNT_UNEXP.reg : RF := RF.whole (0x6000108) ((Rst.const 0).value [])
def LDG_CNT_UNEXP.count : RF := (LDG_CNT_UNEXP.reg).sub 0 48
def LDG_CNT_UNEXP.ev : Cnt := ⟨LDG_CNT_UNEXP.count, 0x2401, 0⟩
/-- LDG_CNT_EARLY, 06 Table 6.11. -/
def LDG_CNT_EARLY.reg : RF := RF.whole (0x6000110) ((Rst.const 0).value [])
def LDG_CNT_EARLY.count : RF := (LDG_CNT_EARLY.reg).sub 0 48
def LDG_CNT_EARLY.ev : Cnt := ⟨LDG_CNT_EARLY.count, 0x2402, 0⟩
/-- LDG_CNT_ORDER, 06 Table 6.11. -/
def LDG_CNT_ORDER.reg : RF := RF.whole (0x6000118) ((Rst.const 0).value [])
def LDG_CNT_ORDER.count : RF := (LDG_CNT_ORDER.reg).sub 0 48
def LDG_CNT_ORDER.ev : Cnt := ⟨LDG_CNT_ORDER.count, 0x2403, 0⟩
/-- LDG_CNT_DUP_SEQ, 06 Table 6.11. -/
def LDG_CNT_DUP_SEQ.reg : RF := RF.whole (0x6000120) ((Rst.const 0).value [])
def LDG_CNT_DUP_SEQ.count : RF := (LDG_CNT_DUP_SEQ.reg).sub 0 48
def LDG_CNT_DUP_SEQ.ev : Cnt := ⟨LDG_CNT_DUP_SEQ.count, 0x2404, 0⟩
/-- LDG_CNT_OVF_NAK, 06 Table 6.11. -/
def LDG_CNT_OVF_NAK.reg : RF := RF.whole (0x6000128) ((Rst.const 0).value [])
def LDG_CNT_OVF_NAK.count : RF := (LDG_CNT_OVF_NAK.reg).sub 0 48
def LDG_CNT_OVF_NAK.ev : Cnt := ⟨LDG_CNT_OVF_NAK.count, 0x2405, 0⟩
/-- LDG_CNT_SPILL, 06 Table 6.11. -/
def LDG_CNT_SPILL.reg : RF := RF.whole (0x6000130) ((Rst.const 0).value [])
def LDG_CNT_SPILL.count : RF := (LDG_CNT_SPILL.reg).sub 0 48
def LDG_CNT_SPILL.ev : Cnt := ⟨LDG_CNT_SPILL.count, 0x2406, 0⟩
/-- LDG_CNT_RETURN, 06 Table 6.11. -/
def LDG_CNT_RETURN.reg : RF := RF.whole (0x6000138) ((Rst.const 0).value [])
def LDG_CNT_RETURN.count : RF := (LDG_CNT_RETURN.reg).sub 0 48
def LDG_CNT_RETURN.ev : Cnt := ⟨LDG_CNT_RETURN.count, 0x2407, 0⟩
/-- LDG_CNT_SPILL_OPS, 06 Table 6.11. -/
def LDG_CNT_SPILL_OPS.reg : RF := RF.whole (0x6000140) ((Rst.const 0).value [])
def LDG_CNT_SPILL_OPS.count : RF := (LDG_CNT_SPILL_OPS.reg).sub 0 48
def LDG_CNT_SPILL_OPS.ev : Cnt := ⟨LDG_CNT_SPILL_OPS.count, 0x2408, 0⟩
/-- LDG_CNT_RNDV, 06 Table 6.11. -/
def LDG_CNT_RNDV.reg : RF := RF.whole (0x6000148) ((Rst.const 0).value [])
def LDG_CNT_RNDV.count : RF := (LDG_CNT_RNDV.reg).sub 0 48
def LDG_CNT_RNDV.ev : Cnt := ⟨LDG_CNT_RNDV.count, 0x2409, 0⟩
/-- LDG_CNT_FIN, 06 Table 6.11. -/
def LDG_CNT_FIN.reg : RF := RF.whole (0x6000150) ((Rst.const 0).value [])
def LDG_CNT_FIN.count : RF := (LDG_CNT_FIN.reg).sub 0 48
def LDG_CNT_FIN.ev : Cnt := ⟨LDG_CNT_FIN.count, 0x240A, 0⟩
/-- LDG_CNT_DISCARD, 06 Table 6.11. -/
def LDG_CNT_DISCARD.reg : RF := RF.whole (0x6000158) ((Rst.const 0).value [])
def LDG_CNT_DISCARD.count : RF := (LDG_CNT_DISCARD.reg).sub 0 48
def LDG_CNT_DISCARD.ev : Cnt := ⟨LDG_CNT_DISCARD.count, 0x240B, 0⟩
/-- LDG_ACC_CTX, 06 Table 6.12. -/
def LDG_ACC_CTX.reg (a : Nat) : RF := RF.whole (0x6010000 + 0x8 * a) ((Rst.const 0).value [a])
def LDG_ACC_CTX.base (a : Nat) : RF := (LDG_ACC_CTX.reg a).sub 0 16
def LDG_ACC_CTX.count (a : Nat) : RF := (LDG_ACC_CTX.reg a).sub 16 7
/-- LDG_CTX0, 06 Table 6.13. -/
def LDG_CTX0.reg (k : Nat) : RF := RF.whole (0x6400000 + 0x40 * k) ((Rst.const 0).value [k])
def LDG_CTX0.own_rank (k : Nat) : RF := (LDG_CTX0.reg k).sub 0 24
def LDG_CTX0.enable (k : Nat) : RF := (LDG_CTX0.reg k).sub 24 1
def LDG_CTX0.eager_limit (k : Nat) : RF := (LDG_CTX0.reg k).sub 32 16
/-- LDG_CTX1, 06 Table 6.13. -/
def LDG_CTX1.reg (k : Nat) : RF := RF.whole (0x6400008 + 0x40 * k) ((Rst.const 0).value [k])
def LDG_CTX1.order_base (k : Nat) : RF := (LDG_CTX1.reg k).sub 0 64
/-- LDG_CTX2, 06 Table 6.13. -/
def LDG_CTX2.reg (k : Nat) : RF := RF.whole (0x6400010 + 0x40 * k) ((Rst.const 0).value [k])
def LDG_CTX2.rank_count (k : Nat) : RF := (LDG_CTX2.reg k).sub 0 25
/-- LDG_CTX3, 06 Table 6.13. -/
def LDG_CTX3.reg (k : Nat) : RF := RF.whole (0x6400018 + 0x40 * k) ((Rst.const 0).value [k])
def LDG_CTX3.spill_base (k : Nat) : RF := (LDG_CTX3.reg k).sub 0 64
/-- LDG_CTX4, 06 Table 6.13. -/
def LDG_CTX4.reg (k : Nat) : RF := RF.whole (0x6400020 + 0x40 * k) ((Rst.const 0).value [k])
def LDG_CTX4.spill_entries (k : Nat) : RF := (LDG_CTX4.reg k).sub 0 21
/-- LDG_CTX5, 06 Table 6.13. -/
def LDG_CTX5.reg (k : Nat) : RF := RF.whole (0x6400028 + 0x40 * k) ((Rst.const 0).value [k])
def LDG_CTX5.on_chip (k : Nat) : RF := (LDG_CTX5.reg k).sub 0 21
def LDG_CTX5.in_host (k : Nat) : RF := (LDG_CTX5.reg k).sub 21 21
def LDG_CTX5.state (k : Nat) : RF := (LDG_CTX5.reg k).sub 42 2
/-- LDG_CTX6, 06 Table 6.13. -/
def LDG_CTX6.reg (k : Nat) : RF := RF.whole (0x6400030 + 0x40 * k) ((Rst.const 0).value [k])
def LDG_CTX6.next_post (k : Nat) : RF := (LDG_CTX6.reg k).sub 0 32
def LDG_CTX6.oldest_post (k : Nat) : RF := (LDG_CTX6.reg k).sub 32 32
/-- LDG_CTX7, 06 Table 6.13. -/
def LDG_CTX7.reg (k : Nat) : RF := RF.whole (0x6400038 + 0x40 * k) ((Rst.const 0).value [k])
def LDG_CTX7.ovf_queued (k : Nat) : RF := (LDG_CTX7.reg k).sub 0 16
def LDG_CTX7.ovf_free (k : Nat) : RF := (LDG_CTX7.reg k).sub 16 32
/-- ALY_CFG, 07 Table 7.14. -/
def ALY_CFG.reg : RF := RF.whole (0x7000000) ((Rst.const 0x3e8000002080010).value [])
def ALY_CFG.retx_us : RF := (ALY_CFG.reg).sub 0 16
def ALY_CFG.retries : RF := (ALY_CFG.reg).sub 16 4
def ALY_CFG.token_gap_us : RF := (ALY_CFG.reg).sub 24 8
def ALY_CFG.op_timeout_ms : RF := (ALY_CFG.reg).sub 32 16
def ALY_CFG.sched_max_ms : RF := (ALY_CFG.reg).sub 48 16
/-- ALY_STAT, 07 Table 7.15. -/
def ALY_STAT.reg : RF := RF.whole (0x7000008) ((Rst.const 0xe000000).value [])
def ALY_STAT.active : RF := (ALY_STAT.reg).sub 0 9
def ALY_STAT.slots_free : RF := (ALY_STAT.reg).sub 16 12
/-- ALY_TREE_CTL, 07 Table 7.16. -/
def ALY_TREE_CTL.reg : RF := RF.whole (0x7000010) ((Rst.const 0x8000000000000000).value [])
def ALY_TREE_CTL.tree : RF := (ALY_TREE_CTL.reg).sub 0 12
def ALY_TREE_CTL.cmd : RF := (ALY_TREE_CTL.reg).sub 12 2
def ALY_TREE_CTL.result : RF := (ALY_TREE_CTL.reg).sub 16 8
def ALY_TREE_CTL.go : RF := (ALY_TREE_CTL.reg).sub 62 1
def ALY_TREE_CTL.done : RF := (ALY_TREE_CTL.reg).sub 63 1
/-- ALY_CNT_SEG_UP, 07 Table 7.17. -/
def ALY_CNT_SEG_UP.reg : RF := RF.whole (0x7000100) ((Rst.const 0).value [])
def ALY_CNT_SEG_UP.count : RF := (ALY_CNT_SEG_UP.reg).sub 0 48
def ALY_CNT_SEG_UP.ev : Cnt := ⟨ALY_CNT_SEG_UP.count, 0x2500, 0⟩
/-- ALY_CNT_SEG_DN, 07 Table 7.17. -/
def ALY_CNT_SEG_DN.reg : RF := RF.whole (0x7000108) ((Rst.const 0).value [])
def ALY_CNT_SEG_DN.count : RF := (ALY_CNT_SEG_DN.reg).sub 0 48
def ALY_CNT_SEG_DN.ev : Cnt := ⟨ALY_CNT_SEG_DN.count, 0x2501, 0⟩
/-- ALY_CNT_DUP, 07 Table 7.17. -/
def ALY_CNT_DUP.reg : RF := RF.whole (0x7000110) ((Rst.const 0).value [])
def ALY_CNT_DUP.count : RF := (ALY_CNT_DUP.reg).sub 0 48
def ALY_CNT_DUP.ev : Cnt := ⟨ALY_CNT_DUP.count, 0x2502, 0⟩
/-- ALY_CNT_RETX, 07 Table 7.17. -/
def ALY_CNT_RETX.reg : RF := RF.whole (0x7000118) ((Rst.const 0).value [])
def ALY_CNT_RETX.count : RF := (ALY_CNT_RETX.reg).sub 0 48
def ALY_CNT_RETX.ev : Cnt := ⟨ALY_CNT_RETX.count, 0x2503, 0⟩
/-- ALY_CNT_ABORT, 07 Table 7.17. -/
def ALY_CNT_ABORT.reg : RF := RF.whole (0x7000120) ((Rst.const 0).value [])
def ALY_CNT_ABORT.count : RF := (ALY_CNT_ABORT.reg).sub 0 48
def ALY_CNT_ABORT.ev : Cnt := ⟨ALY_CNT_ABORT.count, 0x2504, 0⟩
/-- ALY_CNT_STALE, 07 Table 7.17. -/
def ALY_CNT_STALE.reg : RF := RF.whole (0x7000128) ((Rst.const 0).value [])
def ALY_CNT_STALE.count : RF := (ALY_CNT_STALE.reg).sub 0 48
def ALY_CNT_STALE.ev : Cnt := ⟨ALY_CNT_STALE.count, 0x2505, 0⟩
/-- ALY_CNT_SCHED_LATE, 07 Table 7.17. -/
def ALY_CNT_SCHED_LATE.reg : RF := RF.whole (0x7000130) ((Rst.const 0).value [])
def ALY_CNT_SCHED_LATE.count : RF := (ALY_CNT_SCHED_LATE.reg).sub 0 48
def ALY_CNT_SCHED_LATE.ev : Cnt := ⟨ALY_CNT_SCHED_LATE.count, 0x2506, 0⟩
/-- ALY_CNT_STERLING_RANGE, 07 Table 7.17. -/
def ALY_CNT_STERLING_RANGE.reg : RF := RF.whole (0x7000138) ((Rst.const 0).value [])
def ALY_CNT_STERLING_RANGE.count : RF := (ALY_CNT_STERLING_RANGE.reg).sub 0 48
def ALY_CNT_STERLING_RANGE.ev : Cnt := ⟨ALY_CNT_STERLING_RANGE.count, 0x2507, 0⟩
/-- ALY_CNT_TOKEN_RETX, 07 Table 7.17. -/
def ALY_CNT_TOKEN_RETX.reg : RF := RF.whole (0x7000140) ((Rst.const 0).value [])
def ALY_CNT_TOKEN_RETX.count : RF := (ALY_CNT_TOKEN_RETX.reg).sub 0 48
def ALY_CNT_TOKEN_RETX.ev : Cnt := ⟨ALY_CNT_TOKEN_RETX.count, 0x2508, 0⟩
/-- ALY_TREE0, 07 Table 7.18. -/
def ALY_TREE0.reg (t : Nat) : RF := RF.whole (0x7100000 + 0x20 * t) ((Rst.const 0x3000000000000).value [t])
def ALY_TREE0.account (t : Nat) : RF := (ALY_TREE0.reg t).sub 0 14
def ALY_TREE0.mc_group (t : Nat) : RF := (ALY_TREE0.reg t).sub 16 14
def ALY_TREE0.charter (t : Nat) : RF := (ALY_TREE0.reg t).sub 32 16
def ALY_TREE0.window (t : Nat) : RF := (ALY_TREE0.reg t).sub 48 5
/-- ALY_TREE1, 07 Table 7.18. -/
def ALY_TREE1.reg (t : Nat) : RF := RF.whole (0x7100008 + 0x20 * t) ((Rst.const 0).value [t])
def ALY_TREE1.parent_port (t : Nat) : RF := (ALY_TREE1.reg t).sub 0 6
def ALY_TREE1.root (t : Nat) : RF := (ALY_TREE1.reg t).sub 6 1
def ALY_TREE1.parent_endpoint (t : Nat) : RF := (ALY_TREE1.reg t).sub 8 23
/-- ALY_TREE2, 07 Table 7.18. -/
def ALY_TREE2.reg (t : Nat) : RF := RF.whole (0x7100010 + 0x20 * t) ((Rst.const 0).value [t])
def ALY_TREE2.child_ports (t : Nat) : RF := (ALY_TREE2.reg t).sub 0 64
/-- ALY_TREE3, 07 Table 7.18. -/
def ALY_TREE3.reg (t : Nat) : RF := RF.whole (0x7100018 + 0x20 * t) ((Rst.const 0).value [t])
def ALY_TREE3.leaf_links (t : Nat) : RF := (ALY_TREE3.reg t).sub 0 8
def ALY_TREE3.leaf_base (t : Nat) : RF := (ALY_TREE3.reg t).sub 8 24
def ALY_TREE3.leaf_total (t : Nat) : RF := (ALY_TREE3.reg t).sub 32 24
def ALY_TREE3.sterling_ok (t : Nat) : RF := (ALY_TREE3.reg t).sub 56 1
/-- ALY_TREE_STAT, 07 Table 7.19. -/
def ALY_TREE_STAT.reg (t : Nat) : RF := RF.whole (0x7200000 + 0x8 * t) ((Rst.const 0).value [t])
def ALY_TREE_STAT.state (t : Nat) : RF := (ALY_TREE_STAT.reg t).sub 0 2
def ALY_TREE_STAT.stalled (t : Nat) : RF := (ALY_TREE_STAT.reg t).sub 2 1
def ALY_TREE_STAT.abort_cause (t : Nat) : RF := (ALY_TREE_STAT.reg t).sub 8 4
def ALY_TREE_STAT.opseq (t : Nat) : RF := (ALY_TREE_STAT.reg t).sub 32 32
/-- HBI_LINK_CFG, 08 Table 8.15. -/
def HBI_LINK_CFG.reg (n : Nat) : RF := RF.whole (0x8000000 + 0x100000 * n) ((Rst.const 0).value [n])
def HBI_LINK_CFG.style (n : Nat) : RF := (HBI_LINK_CFG.reg n).sub 0 1
def HBI_LINK_CFG.sris (n : Nat) : RF := (HBI_LINK_CFG.reg n).sub 1 1
def HBI_LINK_CFG.steward_scope (n : Nat) : RF := (HBI_LINK_CFG.reg n).sub 2 1
/-- HBI_LINK_STAT, 08 Table 8.16. -/
def HBI_LINK_STAT.reg (n : Nat) : RF := RF.whole (0x8000008 + 0x100000 * n) ((Rst.const 0).value [n])
def HBI_LINK_STAT.present (n : Nat) : RF := (HBI_LINK_STAT.reg n).sub 0 1
def HBI_LINK_STAT.dl_up (n : Nat) : RF := (HBI_LINK_STAT.reg n).sub 1 1
def HBI_LINK_STAT.flit (n : Nat) : RF := (HBI_LINK_STAT.reg n).sub 2 1
def HBI_LINK_STAT.speed (n : Nat) : RF := (HBI_LINK_STAT.reg n).sub 3 3
def HBI_LINK_STAT.width (n : Nat) : RF := (HBI_LINK_STAT.reg n).sub 6 5
def HBI_LINK_STAT.perst (n : Nat) : RF := (HBI_LINK_STAT.reg n).sub 11 1
/-- HBI_FLUSH_MODE, 08 Table 8.17. -/
def HBI_FLUSH_MODE.reg (n : Nat) : RF := RF.whole (0x8000010 + 0x100000 * n) ((Rst.const 0).value [n])
def HBI_FLUSH_MODE.four_byte (n : Nat) : RF := (HBI_FLUSH_MODE.reg n).sub 0 1
/-- HBI_CPL_TO, 08 Table 8.18. -/
def HBI_CPL_TO.reg (n : Nat) : RF := RF.whole (0x8000018 + 0x100000 * n) ((Rst.const 0x7d0000007d00).value [n])
def HBI_CPL_TO.pf0_us (n : Nat) : RF := (HBI_CPL_TO.reg n).sub 0 32
def HBI_CPL_TO.pf1_us (n : Nat) : RF := (HBI_CPL_TO.reg n).sub 32 32
/-- HBI_TAG_STAT, 08 Table 8.19. -/
def HBI_TAG_STAT.reg (n : Nat) : RF := RF.whole (0x8000020 + 0x100000 * n) ((Rst.const 0).value [n])
def HBI_TAG_STAT.in_use (n : Nat) : RF := (HBI_TAG_STAT.reg n).sub 0 11
def HBI_TAG_STAT.quarantined (n : Nat) : RF := (HBI_TAG_STAT.reg n).sub 16 11
def HBI_TAG_STAT.in_use_max (n : Nat) : RF := (HBI_TAG_STAT.reg n).sub 32 11
/-- HBI_ATS_STAT, 08 Table 8.20. -/
def HBI_ATS_STAT.reg (n : Nat) : RF := RF.whole (0x8000028 + 0x100000 * n) ((Rst.const 0).value [n])
def HBI_ATS_STAT.entries (n : Nat) : RF := (HBI_ATS_STAT.reg n).sub 0 17
def HBI_ATS_STAT.inval_pending (n : Nat) : RF := (HBI_ATS_STAT.reg n).sub 32 6
/-- HBI_PF0_SRC, 08 Table 8.21. -/
def HBI_PF0_SRC.reg (n : Nat) : RF := RF.whole (0x8000030 + 0x100000 * n) ((Rst.const 0x21).value [n])
def HBI_PF0_SRC.enable (n : Nat) : RF := (HBI_PF0_SRC.reg n).sub 0 6
/-- HBI_AER_MAP, 08 Table 8.22. -/
def HBI_AER_MAP.reg (n : Nat) : RF := RF.whole (0x8000038 + 0x100000 * n) ((Rst.const 2).value [n])
def HBI_AER_MAP.s0 (n : Nat) : RF := (HBI_AER_MAP.reg n).sub 0 1
def HBI_AER_MAP.s3 (n : Nat) : RF := (HBI_AER_MAP.reg n).sub 1 1
/-- HBI_LTR, 08 Table 8.23. -/
def HBI_LTR.reg (n : Nat) : RF := RF.whole (0x8000040 + 0x100000 * n) ((Rst.const 0x8020802).value [n])
def HBI_LTR.snoop_value (n : Nat) : RF := (HBI_LTR.reg n).sub 0 10
def HBI_LTR.snoop_scale (n : Nat) : RF := (HBI_LTR.reg n).sub 10 3
def HBI_LTR.nosnoop_value (n : Nat) : RF := (HBI_LTR.reg n).sub 16 10
def HBI_LTR.nosnoop_scale (n : Nat) : RF := (HBI_LTR.reg n).sub 26 3
/-- HBI_SUBSYS, 08 Table 8.24. -/
def HBI_SUBSYS.reg (n : Nat) : RF := RF.whole (0x8000048 + 0x100000 * n) ((Rst.const 0x1e6b).value [n])
def HBI_SUBSYS.vendor (n : Nat) : RF := (HBI_SUBSYS.reg n).sub 0 16
def HBI_SUBSYS.device (n : Nat) : RF := (HBI_SUBSYS.reg n).sub 16 16
/-- HBI_EVT, 08 Table 8.25. -/
def HBI_EVT.reg (n : Nat) : RF := RF.whole (0x8000050 + 0x100000 * n) ((Rst.const 0).value [n])
def HBI_EVT.dl_down (n : Nat) : RF := (HBI_EVT.reg n).sub 0 1
def HBI_EVT.dl_up (n : Nat) : RF := (HBI_EVT.reg n).sub 1 1
def HBI_EVT.flr_pf0 (n : Nat) : RF := (HBI_EVT.reg n).sub 2 1
def HBI_EVT.flr_pf1 (n : Nat) : RF := (HBI_EVT.reg n).sub 3 1
def HBI_EVT.flr_vf (n : Nat) : RF := (HBI_EVT.reg n).sub 4 1
def HBI_EVT.bme_clear (n : Nat) : RF := (HBI_EVT.reg n).sub 5 1
def HBI_EVT.perst (n : Nat) : RF := (HBI_EVT.reg n).sub 6 1
def HBI_EVT.hot_reset (n : Nat) : RF := (HBI_EVT.reg n).sub 7 1
/-- HBI_BME_HOLD, 08 Table 8.26. -/
def HBI_BME_HOLD.reg (n : Nat) : RF := RF.whole (0x8000058 + 0x100000 * n) ((Rst.const 0).value [n])
def HBI_BME_HOLD.pf0 (n : Nat) : RF := (HBI_BME_HOLD.reg n).sub 0 1
def HBI_BME_HOLD.pf1 (n : Nat) : RF := (HBI_BME_HOLD.reg n).sub 1 1
def HBI_BME_HOLD.vf (n : Nat) : RF := (HBI_BME_HOLD.reg n).sub 2 1
/-- HBI_CNT_CTO, 08 Table 8.27. -/
def HBI_CNT_CTO.reg (n : Nat) : RF := RF.whole (0x8000100 + 0x100000 * n) ((Rst.const 0).value [n])
def HBI_CNT_CTO.count (n : Nat) : RF := (HBI_CNT_CTO.reg n).sub 0 48
def HBI_CNT_CTO.ev (n : Nat) : Cnt := ⟨HBI_CNT_CTO.count n, 0x2600, n⟩
/-- HBI_CNT_LATE_CPL, 08 Table 8.27. -/
def HBI_CNT_LATE_CPL.reg (n : Nat) : RF := RF.whole (0x8000108 + 0x100000 * n) ((Rst.const 0).value [n])
def HBI_CNT_LATE_CPL.count (n : Nat) : RF := (HBI_CNT_LATE_CPL.reg n).sub 0 48
def HBI_CNT_LATE_CPL.ev (n : Nat) : Cnt := ⟨HBI_CNT_LATE_CPL.count n, 0x2601, n⟩
/-- HBI_CNT_GEN_DISCARD, 08 Table 8.27. -/
def HBI_CNT_GEN_DISCARD.reg (n : Nat) : RF := RF.whole (0x8000110 + 0x100000 * n) ((Rst.const 0).value [n])
def HBI_CNT_GEN_DISCARD.count (n : Nat) : RF := (HBI_CNT_GEN_DISCARD.reg n).sub 0 48
def HBI_CNT_GEN_DISCARD.ev (n : Nat) : Cnt := ⟨HBI_CNT_GEN_DISCARD.count n, 0x2602, n⟩
/-- HBI_CNT_UNEXP_CPL, 08 Table 8.27. -/
def HBI_CNT_UNEXP_CPL.reg (n : Nat) : RF := RF.whole (0x8000118 + 0x100000 * n) ((Rst.const 0).value [n])
def HBI_CNT_UNEXP_CPL.count (n : Nat) : RF := (HBI_CNT_UNEXP_CPL.reg n).sub 0 48
def HBI_CNT_UNEXP_CPL.ev (n : Nat) : Cnt := ⟨HBI_CNT_UNEXP_CPL.count n, 0x2603, n⟩
/-- HBI_CNT_POISON_RX, 08 Table 8.27. -/
def HBI_CNT_POISON_RX.reg (n : Nat) : RF := RF.whole (0x8000120 + 0x100000 * n) ((Rst.const 0).value [n])
def HBI_CNT_POISON_RX.count (n : Nat) : RF := (HBI_CNT_POISON_RX.reg n).sub 0 48
def HBI_CNT_POISON_RX.ev (n : Nat) : Cnt := ⟨HBI_CNT_POISON_RX.count n, 0x2604, n⟩
/-- HBI_CNT_ATS_MISS, 08 Table 8.27. -/
def HBI_CNT_ATS_MISS.reg (n : Nat) : RF := RF.whole (0x8000128 + 0x100000 * n) ((Rst.const 0).value [n])
def HBI_CNT_ATS_MISS.count (n : Nat) : RF := (HBI_CNT_ATS_MISS.reg n).sub 0 48
def HBI_CNT_ATS_MISS.ev (n : Nat) : Cnt := ⟨HBI_CNT_ATS_MISS.count n, 0x2605, n⟩
/-- HBI_CNT_ATS_INVAL, 08 Table 8.27. -/
def HBI_CNT_ATS_INVAL.reg (n : Nat) : RF := RF.whole (0x8000130 + 0x100000 * n) ((Rst.const 0).value [n])
def HBI_CNT_ATS_INVAL.count (n : Nat) : RF := (HBI_CNT_ATS_INVAL.reg n).sub 0 48
def HBI_CNT_ATS_INVAL.ev (n : Nat) : Cnt := ⟨HBI_CNT_ATS_INVAL.count n, 0x2606, n⟩
/-- HBI_CNT_TAG_WAIT, 08 Table 8.27. -/
def HBI_CNT_TAG_WAIT.reg (n : Nat) : RF := RF.whole (0x8000138 + 0x100000 * n) ((Rst.const 0).value [n])
def HBI_CNT_TAG_WAIT.count (n : Nat) : RF := (HBI_CNT_TAG_WAIT.reg n).sub 0 48
def HBI_CNT_TAG_WAIT.ev (n : Nat) : Cnt := ⟨HBI_CNT_TAG_WAIT.count n, 0x2607, n⟩
/-- HBI_CNT_OWIN_FAULT, 08 Table 8.27. -/
def HBI_CNT_OWIN_FAULT.reg (n : Nat) : RF := RF.whole (0x8000140 + 0x100000 * n) ((Rst.const 0).value [n])
def HBI_CNT_OWIN_FAULT.count (n : Nat) : RF := (HBI_CNT_OWIN_FAULT.reg n).sub 0 48
def HBI_CNT_OWIN_FAULT.ev (n : Nat) : Cnt := ⟨HBI_CNT_OWIN_FAULT.count n, 0x2608, n⟩
/-- HBI_OWIN0, 08 Table 8.28. -/
def HBI_OWIN0.reg (n : Nat) (w : Nat) : RF := RF.whole (0x8001000 + 0x100000 * n + 0x20 * w) ((Rst.const 0).value [n, w])
def HBI_OWIN0.valid (n : Nat) (w : Nat) : RF := (HBI_OWIN0.reg n w).sub 0 1
def HBI_OWIN0.pasid_valid (n : Nat) (w : Nat) : RF := (HBI_OWIN0.reg n w).sub 1 1
def HBI_OWIN0.no_snoop (n : Nat) (w : Nat) : RF := (HBI_OWIN0.reg n w).sub 2 1
def HBI_OWIN0.function (n : Nat) (w : Nat) : RF := (HBI_OWIN0.reg n w).sub 4 9
def HBI_OWIN0.pasid (n : Nat) (w : Nat) : RF := (HBI_OWIN0.reg n w).sub 16 20
def HBI_OWIN0.st (n : Nat) (w : Nat) : RF := (HBI_OWIN0.reg n w).sub 40 8
/-- HBI_OWIN1, 08 Table 8.28. -/
def HBI_OWIN1.reg (n : Nat) (w : Nat) : RF := RF.whole (0x8001008 + 0x100000 * n + 0x20 * w) ((Rst.const 0).value [n, w])
def HBI_OWIN1.base (n : Nat) (w : Nat) : RF := (HBI_OWIN1.reg n w).sub 0 64
/-- HBI_OWIN2, 08 Table 8.28. -/
def HBI_OWIN2.reg (n : Nat) (w : Nat) : RF := RF.whole (0x8001010 + 0x100000 * n + 0x20 * w) ((Rst.const 0).value [n, w])
def HBI_OWIN2.err (n : Nat) (w : Nat) : RF := (HBI_OWIN2.reg n w).sub 0 1
def HBI_OWIN2.faults (n : Nat) (w : Nat) : RF := (HBI_OWIN2.reg n w).sub 32 32
/-- ACC_CMD0, 09 Table 9.12. -/
def ACC_CMD0.reg : RF := RF.whole (0x9000000) ((Rst.const 0x8000000000000000).value [])
def ACC_CMD0.account : RF := (ACC_CMD0.reg).sub 0 14
def ACC_CMD0.cmd : RF := (ACC_CMD0.reg).sub 16 4
def ACC_CMD0.result : RF := (ACC_CMD0.reg).sub 24 8
def ACC_CMD0.go : RF := (ACC_CMD0.reg).sub 62 1
def ACC_CMD0.done : RF := (ACC_CMD0.reg).sub 63 1
/-- ACC_CMD1, 09 Table 9.12. -/
def ACC_CMD1.reg : RF := RF.whole (0x9000008) ((Rst.const 0).value [])
def ACC_CMD1.image_addr : RF := (ACC_CMD1.reg).sub 0 48
/-- ACC_CMD2, 09 Table 9.12. -/
def ACC_CMD2.reg : RF := RF.whole (0x9000010) ((Rst.const 0).value [])
def ACC_CMD2.image_len : RF := (ACC_CMD2.reg).sub 0 40
/-- ACC_CMD3, 09 Table 9.12. -/
def ACC_CMD3.reg : RF := RF.whole (0x9000018) ((Rst.const 0).value [])
def ACC_CMD3.new_endpoint : RF := (ACC_CMD3.reg).sub 0 23
def ACC_CMD3.new_account : RF := (ACC_CMD3.reg).sub 24 14
/-- ACC_MIG, 09 Table 9.13. -/
def ACC_MIG.reg : RF := RF.whole (0x9000040) ((Rst.const 0x640014).value [])
def ACC_MIG.freeze_ms : RF := (ACC_MIG.reg).sub 0 16
def ACC_MIG.stub_ms : RF := (ACC_MIG.reg).sub 16 16
/-- ACC_STAT, 09 Table 9.14. -/
def ACC_STAT.reg : RF := RF.whole (0x9000048) ((Rst.const 0x1000000010000).value [])
def ACC_STAT.rings_free : RF := (ACC_STAT.reg).sub 0 17
def ACC_STAT.eqs_free : RF := (ACC_STAT.reg).sub 32 17
/-- ACC_CHARTER_RANGE, 09 Table 9.15. -/
def ACC_CHARTER_RANGE.reg (n : Nat) : RF := RF.whole (0x9000080 + 0x8 * n) ((Rst.const 0).value [n])
def ACC_CHARTER_RANGE.low (n : Nat) : RF := (ACC_CHARTER_RANGE.reg n).sub 0 16
def ACC_CHARTER_RANGE.high (n : Nat) : RF := (ACC_CHARTER_RANGE.reg n).sub 16 16
/-- ACC_CNT_DB_IGN, 09 Table 9.16. -/
def ACC_CNT_DB_IGN.reg : RF := RF.whole (0x9000100) ((Rst.const 0).value [])
def ACC_CNT_DB_IGN.count : RF := (ACC_CNT_DB_IGN.reg).sub 0 48
def ACC_CNT_DB_IGN.ev : Cnt := ⟨ACC_CNT_DB_IGN.count, 0x2700, 0⟩
/-- ACC_CNT_INLINE_DISCARD, 09 Table 9.16. -/
def ACC_CNT_INLINE_DISCARD.reg : RF := RF.whole (0x9000108) ((Rst.const 0).value [])
def ACC_CNT_INLINE_DISCARD.count : RF := (ACC_CNT_INLINE_DISCARD.reg).sub 0 48
def ACC_CNT_INLINE_DISCARD.ev : Cnt := ⟨ACC_CNT_INLINE_DISCARD.count, 0x2701, 0⟩
/-- ACC_CNT_EQ_WAIT, 09 Table 9.16. -/
def ACC_CNT_EQ_WAIT.reg : RF := RF.whole (0x9000110) ((Rst.const 0).value [])
def ACC_CNT_EQ_WAIT.count : RF := (ACC_CNT_EQ_WAIT.reg).sub 0 48
def ACC_CNT_EQ_WAIT.ev : Cnt := ⟨ACC_CNT_EQ_WAIT.count, 0x2702, 0⟩
/-- ACC_CNT_NOTIFY_WAIT, 09 Table 9.16. -/
def ACC_CNT_NOTIFY_WAIT.reg : RF := RF.whole (0x9000118) ((Rst.const 0).value [])
def ACC_CNT_NOTIFY_WAIT.count : RF := (ACC_CNT_NOTIFY_WAIT.reg).sub 0 48
def ACC_CNT_NOTIFY_WAIT.ev : Cnt := ⟨ACC_CNT_NOTIFY_WAIT.count, 0x2703, 0⟩
/-- ACC_CNT_GEN_DISCARD, 09 Table 9.16. -/
def ACC_CNT_GEN_DISCARD.reg : RF := RF.whole (0x9000120) ((Rst.const 0).value [])
def ACC_CNT_GEN_DISCARD.count : RF := (ACC_CNT_GEN_DISCARD.reg).sub 0 48
def ACC_CNT_GEN_DISCARD.ev : Cnt := ⟨ACC_CNT_GEN_DISCARD.count, 0x2704, 0⟩
/-- ACC_CNT_STUB_FWD, 09 Table 9.16. -/
def ACC_CNT_STUB_FWD.reg : RF := RF.whole (0x9000128) ((Rst.const 0).value [])
def ACC_CNT_STUB_FWD.count : RF := (ACC_CNT_STUB_FWD.reg).sub 0 48
def ACC_CNT_STUB_FWD.ev : Cnt := ⟨ACC_CNT_STUB_FWD.count, 0x2705, 0⟩
/-- ACC_STUB0, 09 Table 9.17. -/
def ACC_STUB0.reg (i : Nat) : RF := RF.whole (0x9001000 + 0x10 * i) ((Rst.const 0).value [i])
def ACC_STUB0.account (i : Nat) : RF := (ACC_STUB0.reg i).sub 0 14
def ACC_STUB0.valid (i : Nat) : RF := (ACC_STUB0.reg i).sub 15 1
def ACC_STUB0.new_account (i : Nat) : RF := (ACC_STUB0.reg i).sub 16 14
def ACC_STUB0.new_endpoint (i : Nat) : RF := (ACC_STUB0.reg i).sub 32 23
/-- ACC_STUB1, 09 Table 9.17. -/
def ACC_STUB1.reg (i : Nat) : RF := RF.whole (0x9001008 + 0x10 * i) ((Rst.const 0).value [i])
def ACC_STUB1.expiry (i : Nat) : RF := (ACC_STUB1.reg i).sub 0 64
/-- ACC_BIND0, 09 Table 9.18. -/
def ACC_BIND0.reg (a : Nat) : RF := RF.whole (0x9100000 + 0x20 * a) ((Rst.const 0x10).value [a])
def ACC_BIND0.host_link (a : Nat) : RF := (ACC_BIND0.reg a).sub 0 3
def ACC_BIND0.slice (a : Nat) : RF := (ACC_BIND0.reg a).sub 3 1
def ACC_BIND0.function (a : Nat) : RF := (ACC_BIND0.reg a).sub 4 9
def ACC_BIND0.page (a : Nat) : RF := (ACC_BIND0.reg a).sub 16 11
def ACC_BIND0.pasid (a : Nat) : RF := (ACC_BIND0.reg a).sub 28 20
def ACC_BIND0.pasid_valid (a : Nat) : RF := (ACC_BIND0.reg a).sub 48 1
def ACC_BIND0.auto_bind (a : Nat) : RF := (ACC_BIND0.reg a).sub 49 1
/-- ACC_BIND1, 09 Table 9.18. -/
def ACC_BIND1.reg (a : Nat) : RF := RF.whole (0x9100008 + 0x20 * a) ((Rst.const 0).value [a])
def ACC_BIND1.charter (a : Nat) : RF := (ACC_BIND1.reg a).sub 0 16
def ACC_BIND1.generation (a : Nat) : RF := (ACC_BIND1.reg a).sub 16 16
def ACC_BIND1.state (a : Nat) : RF := (ACC_BIND1.reg a).sub 32 3
def ACC_BIND1.quiesced (a : Nat) : RF := (ACC_BIND1.reg a).sub 35 1
/-- ACC_BIND2, 09 Table 9.18. -/
def ACC_BIND2.reg (a : Nat) : RF := RF.whole (0x9100010 + 0x20 * a) ((Rst.const 0x10).value [a])
def ACC_BIND2.weight (a : Nat) : RF := (ACC_BIND2.reg a).sub 0 16
def ACC_BIND2.min_rate (a : Nat) : RF := (ACC_BIND2.reg a).sub 16 16
def ACC_BIND2.max_rate (a : Nat) : RF := (ACC_BIND2.reg a).sub 32 16
/-- ACC_BIND3, 09 Table 9.18. -/
def ACC_BIND3.reg (a : Nat) : RF := RF.whole (0x9100018 + 0x20 * a) ((Rst.const 0).value [a])
def ACC_BIND3.charged (a : Nat) : RF := (ACC_BIND3.reg a).sub 0 48
/-- ACC_TLY_USER, 09 Table 9.19. -/
def ACC_TLY_USER.reg (a : Nat) : RF := RF.whole (0x9200000 + 0x8 * a) ((Rst.const 0).value [a])
def ACC_TLY_USER.base (a : Nat) : RF := (ACC_TLY_USER.reg a).sub 0 10
def ACC_TLY_USER.count (a : Nat) : RF := (ACC_TLY_USER.reg a).sub 16 11
/-- ACC_PAGE_ID, 09 Table 9.20. -/
def ACC_PAGE_ID.reg (a : Nat) : RF := RF.whole (0x100000000000000 + 0x10000 * a) ((Rst.const 0).value [a])
def ACC_PAGE_ID.account (a : Nat) : RF := (ACC_PAGE_ID.reg a).sub 0 14
def ACC_PAGE_ID.generation (a : Nat) : RF := (ACC_PAGE_ID.reg a).sub 16 16
def ACC_PAGE_ID.state (a : Nat) : RF := (ACC_PAGE_ID.reg a).sub 32 3
def ACC_PAGE_ID.host_link (a : Nat) : RF := (ACC_PAGE_ID.reg a).sub 36 3
/-- ACC_RANK_BASE, 09 Table 9.21. -/
def ACC_RANK_BASE.reg (a : Nat) : RF := RF.whole (0x100000000000008 + 0x10000 * a) ((Rst.const 0).value [a])
def ACC_RANK_BASE.base (a : Nat) : RF := (ACC_RANK_BASE.reg a).sub 0 64
/-- ACC_RANK_COUNT, 09 Table 9.21. -/
def ACC_RANK_COUNT.reg (a : Nat) : RF := RF.whole (0x100000000000010 + 0x10000 * a) ((Rst.const 0).value [a])
def ACC_RANK_COUNT.count (a : Nat) : RF := (ACC_RANK_COUNT.reg a).sub 0 25
/-- ACC_NOTIFY, 09 Table 9.22. -/
def ACC_NOTIFY.reg (a : Nat) : RF := RF.whole (0x100000000000018 + 0x10000 * a) ((Rst.const 0).value [a])
def ACC_NOTIFY.eq (a : Nat) : RF := (ACC_NOTIFY.reg a).sub 0 6
def ACC_NOTIFY.enable (a : Nat) : RF := (ACC_NOTIFY.reg a).sub 8 1
/-- ACC_PAGE_ERR, 09 Table 9.23. -/
def ACC_PAGE_ERR.reg (a : Nat) : RF := RF.whole (0x100000000000020 + 0x10000 * a) ((Rst.const 0).value [a])
def ACC_PAGE_ERR.ring_pool (a : Nat) : RF := (ACC_PAGE_ERR.reg a).sub 0 1
def ACC_PAGE_ERR.eq_pool (a : Nat) : RF := (ACC_PAGE_ERR.reg a).sub 1 1
def ACC_PAGE_ERR.eq_busy (a : Nat) : RF := (ACC_PAGE_ERR.reg a).sub 2 1
def ACC_PAGE_ERR.bad_size (a : Nat) : RF := (ACC_PAGE_ERR.reg a).sub 3 1
def ACC_PAGE_ERR.db_range (a : Nat) : RF := (ACC_PAGE_ERR.reg a).sub 4 1
def ACC_PAGE_ERR.inline_discard (a : Nat) : RF := (ACC_PAGE_ERR.reg a).sub 5 1
/-- ACC_RING0, 09 Table 9.24. -/
def ACC_RING0.reg (a : Nat) (r : Nat) : RF := RF.whole (0x100000000000100 + 0x10000 * a + 0x20 * r) ((Rst.const 0).value [a, r])
def ACC_RING0.base (a : Nat) (r : Nat) : RF := (ACC_RING0.reg a r).sub 0 64
/-- ACC_RING1, 09 Table 9.24. -/
def ACC_RING1.reg (a : Nat) (r : Nat) : RF := RF.whole (0x100000000000108 + 0x10000 * a + 0x20 * r) ((Rst.const 6).value [a, r])
def ACC_RING1.log2_size (a : Nat) (r : Nat) : RF := (ACC_RING1.reg a r).sub 0 5
def ACC_RING1.err_eq (a : Nat) (r : Nat) : RF := (ACC_RING1.reg a r).sub 8 6
def ACC_RING1.enable (a : Nat) (r : Nat) : RF := (ACC_RING1.reg a r).sub 16 1
/-- ACC_RING2, 09 Table 9.24. -/
def ACC_RING2.reg (a : Nat) (r : Nat) : RF := RF.whole (0x100000000000110 + 0x10000 * a + 0x20 * r) ((Rst.const 0).value [a, r])
def ACC_RING2.producer (a : Nat) (r : Nat) : RF := (ACC_RING2.reg a r).sub 0 32
def ACC_RING2.consumer (a : Nat) (r : Nat) : RF := (ACC_RING2.reg a r).sub 32 32
/-- ACC_RING3, 09 Table 9.24. -/
def ACC_RING3.reg (a : Nat) (r : Nat) : RF := RF.whole (0x100000000000118 + 0x10000 * a + 0x20 * r) ((Rst.const 0).value [a, r])
def ACC_RING3.state (a : Nat) (r : Nat) : RF := (ACC_RING3.reg a r).sub 0 2
def ACC_RING3.stop_cause (a : Nat) (r : Nat) : RF := (ACC_RING3.reg a r).sub 4 4
/-- ACC_EQ0, 09 Table 9.25. -/
def ACC_EQ0.reg (a : Nat) (q : Nat) : RF := RF.whole (0x100000000001000 + 0x10000 * a + 0x20 * q) ((Rst.const 0).value [a, q])
def ACC_EQ0.base (a : Nat) (q : Nat) : RF := (ACC_EQ0.reg a q).sub 0 64
/-- ACC_EQ1, 09 Table 9.25. -/
def ACC_EQ1.reg (a : Nat) (q : Nat) : RF := RF.whole (0x100000000001008 + 0x10000 * a + 0x20 * q) ((Rst.const 6).value [a, q])
def ACC_EQ1.log2_size (a : Nat) (q : Nat) : RF := (ACC_EQ1.reg a q).sub 0 5
def ACC_EQ1.vector (a : Nat) (q : Nat) : RF := (ACC_EQ1.reg a q).sub 8 11
def ACC_EQ1.irq_en (a : Nat) (q : Nat) : RF := (ACC_EQ1.reg a q).sub 20 1
def ACC_EQ1.enable (a : Nat) (q : Nat) : RF := (ACC_EQ1.reg a q).sub 21 1
/-- ACC_EQ2, 09 Table 9.25. -/
def ACC_EQ2.reg (a : Nat) (q : Nat) : RF := RF.whole (0x100000000001010 + 0x10000 * a + 0x20 * q) ((Rst.const 0).value [a, q])
def ACC_EQ2.producer (a : Nat) (q : Nat) : RF := (ACC_EQ2.reg a q).sub 0 32
def ACC_EQ2.consumer (a : Nat) (q : Nat) : RF := (ACC_EQ2.reg a q).sub 32 32
/-- ACC_EQ3, 09 Table 9.25. -/
def ACC_EQ3.reg (a : Nat) (q : Nat) : RF := RF.whole (0x100000000001018 + 0x10000 * a + 0x20 * q) ((Rst.const 0).value [a, q])
def ACC_EQ3.reserved_events (a : Nat) (q : Nat) : RF := (ACC_EQ3.reg a q).sub 0 21
def ACC_EQ3.full (a : Nat) (q : Nat) : RF := (ACC_EQ3.reg a q).sub 24 1
def ACC_EQ3.armed (a : Nat) (q : Nat) : RF := (ACC_EQ3.reg a q).sub 25 1
/-- ACC_SLICE_CMD0, 09 Table 9.26. -/
def ACC_SLICE_CMD0.reg (n : Nat) : RF := RF.whole (0x100010000000000 + 0x100 * n) ((Rst.const 0x8000000000000000).value [n])
def ACC_SLICE_CMD0.page (n : Nat) : RF := (ACC_SLICE_CMD0.reg n).sub 0 11
def ACC_SLICE_CMD0.cmd (n : Nat) : RF := (ACC_SLICE_CMD0.reg n).sub 16 4
def ACC_SLICE_CMD0.result (n : Nat) : RF := (ACC_SLICE_CMD0.reg n).sub 24 8
def ACC_SLICE_CMD0.go (n : Nat) : RF := (ACC_SLICE_CMD0.reg n).sub 62 1
def ACC_SLICE_CMD0.done (n : Nat) : RF := (ACC_SLICE_CMD0.reg n).sub 63 1
/-- ACC_SLICE_CMD1, 09 Table 9.26. -/
def ACC_SLICE_CMD1.reg (n : Nat) : RF := RF.whole (0x100010000000008 + 0x100 * n) ((Rst.const 0).value [n])
def ACC_SLICE_CMD1.pasid (n : Nat) : RF := (ACC_SLICE_CMD1.reg n).sub 0 20
def ACC_SLICE_CMD1.charter (n : Nat) : RF := (ACC_SLICE_CMD1.reg n).sub 32 16
/-- ACC_SLICE_CMD2, 09 Table 9.26. -/
def ACC_SLICE_CMD2.reg (n : Nat) : RF := RF.whole (0x100010000000010 + 0x100 * n) ((Rst.const 0).value [n])
def ACC_SLICE_CMD2.image_iova (n : Nat) : RF := (ACC_SLICE_CMD2.reg n).sub 0 64
/-- ACC_SLICE_CMD3, 09 Table 9.26. -/
def ACC_SLICE_CMD3.reg (n : Nat) : RF := RF.whole (0x100010000000018 + 0x100 * n) ((Rst.const 0).value [n])
def ACC_SLICE_CMD3.image_len (n : Nat) : RF := (ACC_SLICE_CMD3.reg n).sub 0 40
/-- MOV_CFG, 10 Table 10.8. -/
def MOV_CFG.reg : RF := RF.whole (0xa000000) ((Rst.const 4).value [])
def MOV_CFG.reg_channels : RF := (MOV_CFG.reg).sub 0 6
/-- MOV_CNT_BYTES, 10 Table 10.9. -/
def MOV_CNT_BYTES.reg : RF := RF.whole (0xa000100) ((Rst.const 0).value [])
def MOV_CNT_BYTES.count : RF := (MOV_CNT_BYTES.reg).sub 0 48
def MOV_CNT_BYTES.ev : Cnt := ⟨MOV_CNT_BYTES.count, 0x2800, 0⟩
/-- MOV_CNT_EMPTY, 10 Table 10.9. -/
def MOV_CNT_EMPTY.reg : RF := RF.whole (0xa000108) ((Rst.const 0).value [])
def MOV_CNT_EMPTY.count : RF := (MOV_CNT_EMPTY.reg).sub 0 48
def MOV_CNT_EMPTY.ev : Cnt := ⟨MOV_CNT_EMPTY.count, 0x2801, 0⟩
/-- MOV_CNT_STOP, 10 Table 10.9. -/
def MOV_CNT_STOP.reg : RF := RF.whole (0xa000110) ((Rst.const 0).value [])
def MOV_CNT_STOP.count : RF := (MOV_CNT_STOP.reg).sub 0 48
def MOV_CNT_STOP.ev : Cnt := ⟨MOV_CNT_STOP.count, 0x2802, 0⟩
/-- MOV_CNT_CH_WAIT, 10 Table 10.9. -/
def MOV_CNT_CH_WAIT.reg : RF := RF.whole (0xa000118) ((Rst.const 0).value [])
def MOV_CNT_CH_WAIT.count : RF := (MOV_CNT_CH_WAIT.reg).sub 0 48
def MOV_CNT_CH_WAIT.ev : Cnt := ⟨MOV_CNT_CH_WAIT.count, 0x2803, 0⟩
/-- MOV_CTL, 10 Table 10.10. -/
def MOV_CTL.reg (c : Nat) : RF := RF.whole (0xa010000 + 0x100 * c) ((Rst.const 0).value [c])
def MOV_CTL.go (c : Nat) : RF := (MOV_CTL.reg c).sub 0 1
def MOV_CTL.abort (c : Nat) : RF := (MOV_CTL.reg c).sub 1 1
/-- MOV_SRC, 10 Table 10.10. -/
def MOV_SRC.reg (c : Nat) : RF := RF.whole (0xa010008 + 0x100 * c) ((Rst.const 0).value [c])
def MOV_SRC.addr (c : Nat) : RF := (MOV_SRC.reg c).sub 0 48
/-- MOV_DST, 10 Table 10.10. -/
def MOV_DST.reg (c : Nat) : RF := RF.whole (0xa010010 + 0x100 * c) ((Rst.const 0).value [c])
def MOV_DST.addr (c : Nat) : RF := (MOV_DST.reg c).sub 0 48
/-- MOV_COUNT, 10 Table 10.10. -/
def MOV_COUNT.reg (c : Nat) : RF := RF.whole (0xa010018 + 0x100 * c) ((Rst.const 0).value [c])
def MOV_COUNT.run (c : Nat) : RF := (MOV_COUNT.reg c).sub 0 32
/-- MOV_LOOP0, 10 Table 10.10. -/
def MOV_LOOP0.reg (c : Nat) (i : Nat) : RF := RF.whole (0xa010020 + 0x100 * c + 0x18 * i) ((Rst.const 1).value [c, i])
def MOV_LOOP0.count (c : Nat) (i : Nat) : RF := (MOV_LOOP0.reg c i).sub 0 32
/-- MOV_LOOP1, 10 Table 10.10. -/
def MOV_LOOP1.reg (c : Nat) (i : Nat) : RF := RF.whole (0xa010028 + 0x100 * c + 0x18 * i) ((Rst.const 0).value [c, i])
def MOV_LOOP1.src_step (c : Nat) (i : Nat) : RF := (MOV_LOOP1.reg c i).sub 0 48
/-- MOV_LOOP2, 10 Table 10.10. -/
def MOV_LOOP2.reg (c : Nat) (i : Nat) : RF := RF.whole (0xa010030 + 0x100 * c + 0x18 * i) ((Rst.const 0).value [c, i])
def MOV_LOOP2.dst_step (c : Nat) (i : Nat) : RF := (MOV_LOOP2.reg c i).sub 0 48
/-- MOV_STAT, 10 Table 10.10. -/
def MOV_STAT.reg (c : Nat) : RF := RF.whole (0xa010068 + 0x100 * c) ((Rst.const 0).value [c])
def MOV_STAT.state (c : Nat) : RF := (MOV_STAT.reg c).sub 0 2
def MOV_STAT.mode (c : Nat) : RF := (MOV_STAT.reg c).sub 2 1
def MOV_STAT.status (c : Nat) : RF := (MOV_STAT.reg c).sub 8 8
def MOV_STAT.starter (c : Nat) : RF := (MOV_STAT.reg c).sub 16 1
def MOV_STAT.starter_link (c : Nat) : RF := (MOV_STAT.reg c).sub 17 3
def MOV_STAT.account (c : Nat) : RF := (MOV_STAT.reg c).sub 32 14
/-- MOV_MOVED, 10 Table 10.10. -/
def MOV_MOVED.reg (c : Nat) : RF := RF.whole (0xa010070 + 0x100 * c) ((Rst.const 0).value [c])
def MOV_MOVED.bytes (c : Nat) : RF := (MOV_MOVED.reg c).sub 0 48
/-- MOV_EVT, 10 Table 10.10. -/
def MOV_EVT.reg (c : Nat) : RF := RF.whole (0xa010078 + 0x100 * c) ((Rst.const 0).value [c])
def MOV_EVT.done (c : Nat) : RF := (MOV_EVT.reg c).sub 0 1
/-- LBX_STAGE, 10 Table 10.11. -/
def LBX_STAGE.reg (m : Nat) (i : Nat) : RF := RF.whole (0xb000000 + 0x1000 * m + 0x8 * i) ((Rst.lbx).value [m, i])
def LBX_STAGE.log2_size (m : Nat) (i : Nat) : RF := (LBX_STAGE.reg m i).sub 0 6
def LBX_STAGE.read (m : Nat) (i : Nat) : RF := (LBX_STAGE.reg m i).sub 6 1
def LBX_STAGE.write (m : Nat) (i : Nat) : RF := (LBX_STAGE.reg m i).sub 7 1
def LBX_STAGE.base (m : Nat) (i : Nat) : RF := (LBX_STAGE.reg m i).sub 15 33
def LBX_STAGE.sub_en (m : Nat) (i : Nat) : RF := (LBX_STAGE.reg m i).sub 48 8
/-- LBX_ACTIVE, 10 Table 10.11. -/
def LBX_ACTIVE.reg (m : Nat) (i : Nat) : RF := RF.whole (0xb000080 + 0x1000 * m + 0x8 * i) ((Rst.lbx).value [m, i])
def LBX_ACTIVE.log2_size (m : Nat) (i : Nat) : RF := (LBX_ACTIVE.reg m i).sub 0 6
def LBX_ACTIVE.read (m : Nat) (i : Nat) : RF := (LBX_ACTIVE.reg m i).sub 6 1
def LBX_ACTIVE.write (m : Nat) (i : Nat) : RF := (LBX_ACTIVE.reg m i).sub 7 1
def LBX_ACTIVE.base (m : Nat) (i : Nat) : RF := (LBX_ACTIVE.reg m i).sub 15 33
def LBX_ACTIVE.sub_en (m : Nat) (i : Nat) : RF := (LBX_ACTIVE.reg m i).sub 48 8
/-- LBX_COMMIT, 10 Table 10.12. -/
def LBX_COMMIT.reg (m : Nat) : RF := RF.whole (0xb000100 + 0x1000 * m) ((Rst.const 0x8000000000000000).value [m])
def LBX_COMMIT.result (m : Nat) : RF := (LBX_COMMIT.reg m).sub 0 8
def LBX_COMMIT.region (m : Nat) : RF := (LBX_COMMIT.reg m).sub 8 4
def LBX_COMMIT.go (m : Nat) : RF := (LBX_COMMIT.reg m).sub 62 1
def LBX_COMMIT.done (m : Nat) : RF := (LBX_COMMIT.reg m).sub 63 1
/-- LBX_DENY, 10 Table 10.13. -/
def LBX_DENY.reg (m : Nat) : RF := RF.whole (0xb000108 + 0x1000 * m) ((Rst.const 0).value [m])
def LBX_DENY.address (m : Nat) : RF := (LBX_DENY.reg m).sub 0 48
def LBX_DENY.write (m : Nat) : RF := (LBX_DENY.reg m).sub 48 1
def LBX_DENY.diag (m : Nat) : RF := (LBX_DENY.reg m).sub 49 1
/-- LBX_CNT_DENY, 10 Table 10.14. -/
def LBX_CNT_DENY.reg (m : Nat) : RF := RF.whole (0xb000110 + 0x1000 * m) ((Rst.const 0).value [m])
def LBX_CNT_DENY.count (m : Nat) : RF := (LBX_CNT_DENY.reg m).sub 0 48
def LBX_CNT_DENY.ev (m : Nat) : Cnt := ⟨LBX_CNT_DENY.count m, 0x2900, m⟩
/-- HMK_NOW, 11 Table 11.7. -/
def HMK_NOW.reg : RF := RF.whole (0xc000000) ((Rst.const 0).value [])
def HMK_NOW.t : RF := (HMK_NOW.reg).sub 0 64
/-- HMK_CFG, 11 Table 11.8. -/
def HMK_CFG.reg : RF := RF.whole (0xc000008) ((Rst.const 0x1f403e80000fe80).value [])
def HMK_CFG.prio : RF := (HMK_CFG.reg).sub 0 8
def HMK_CFG.holdover_prio : RF := (HMK_CFG.reg).sub 8 8
def HMK_CFG.ext_en : RF := (HMK_CFG.reg).sub 16 1
def HMK_CFG.ext_10m_en : RF := (HMK_CFG.reg).sub 17 1
def HMK_CFG.step_ns : RF := (HMK_CFG.reg).sub 32 16
def HMK_CFG.slew_ppm : RF := (HMK_CFG.reg).sub 48 16
/-- HMK_STAT, 11 Table 11.9. -/
def HMK_STAT.reg : RF := RF.whole (0xc000010) ((Rst.const 0x7fffffff3f0000).value [])
def HMK_STAT.valid : RF := (HMK_STAT.reg).sub 0 1
def HMK_STAT.locked : RF := (HMK_STAT.reg).sub 1 1
def HMK_STAT.grandmaster : RF := (HMK_STAT.reg).sub 2 1
def HMK_STAT.parent_valid : RF := (HMK_STAT.reg).sub 3 1
def HMK_STAT.ext_ok : RF := (HMK_STAT.reg).sub 4 1
def HMK_STAT.parent_port : RF := (HMK_STAT.reg).sub 8 6
def HMK_STAT.depth : RF := (HMK_STAT.reg).sub 16 6
def HMK_STAT.gm_prio : RF := (HMK_STAT.reg).sub 24 8
def HMK_STAT.gm_endpoint : RF := (HMK_STAT.reg).sub 32 23
/-- HMK_OFFSET, 11 Table 11.10. -/
def HMK_OFFSET.reg : RF := RF.whole (0xc000018) ((Rst.const 0).value [])
def HMK_OFFSET.theta : RF := (HMK_OFFSET.reg).sub 0 32
def HMK_OFFSET.rtt : RF := (HMK_OFFSET.reg).sub 32 32
/-- HMK_RATE, 11 Table 11.11. -/
def HMK_RATE.reg : RF := RF.whole (0xc000020) ((Rst.const 0).value [])
def HMK_RATE.r : RF := (HMK_RATE.reg).sub 0 32
/-- HMK_SET, 11 Table 11.12. -/
def HMK_SET.reg : RF := RF.whole (0xc000028) ((Rst.const 0).value [])
def HMK_SET.t : RF := (HMK_SET.reg).sub 0 64
/-- HMK_CTL, 11 Table 11.13. -/
def HMK_CTL.reg : RF := RF.whole (0xc000030) ((Rst.const 0).value [])
def HMK_CTL.set : RF := (HMK_CTL.reg).sub 0 1
def HMK_CTL.set_at_pps : RF := (HMK_CTL.reg).sub 1 1
def HMK_CTL.pending : RF := (HMK_CTL.reg).sub 2 1
/-- HMK_EVT, 11 Table 11.14. -/
def HMK_EVT.reg : RF := RF.whole (0xc000038) ((Rst.const 0).value [])
def HMK_EVT.step : RF := (HMK_EVT.reg).sub 0 1
def HMK_EVT.locked : RF := (HMK_EVT.reg).sub 1 1
def HMK_EVT.lock_lost : RF := (HMK_EVT.reg).sub 2 1
def HMK_EVT.gm_change : RF := (HMK_EVT.reg).sub 3 1
def HMK_EVT.ext_lost : RF := (HMK_EVT.reg).sub 4 1
def HMK_EVT.set_denied : RF := (HMK_EVT.reg).sub 5 1
/-- HMK_PPS_OUT, 11 Table 11.15. -/
def HMK_PPS_OUT.reg : RF := RF.whole (0xc000040) ((Rst.const 0x2710000f4240).value [])
def HMK_PPS_OUT.period_us : RF := (HMK_PPS_OUT.reg).sub 0 32
def HMK_PPS_OUT.width_ns : RF := (HMK_PPS_OUT.reg).sub 32 16
def HMK_PPS_OUT.enable : RF := (HMK_PPS_OUT.reg).sub 48 1
/-- HMK_EXT_OFFSET, 11 Table 11.16. -/
def HMK_EXT_OFFSET.reg : RF := RF.whole (0xc000048) ((Rst.const 0).value [])
def HMK_EXT_OFFSET.e : RF := (HMK_EXT_OFFSET.reg).sub 0 32
/-- HMK_CNT_SYNC_RX, 11 Table 11.17. -/
def HMK_CNT_SYNC_RX.reg : RF := RF.whole (0xc000080) ((Rst.const 0).value [])
def HMK_CNT_SYNC_RX.count : RF := (HMK_CNT_SYNC_RX.reg).sub 0 48
def HMK_CNT_SYNC_RX.ev : Cnt := ⟨HMK_CNT_SYNC_RX.count, 0x2A00, 0⟩
/-- HMK_CNT_SYNC_BAD, 11 Table 11.17. -/
def HMK_CNT_SYNC_BAD.reg : RF := RF.whole (0xc000088) ((Rst.const 0).value [])
def HMK_CNT_SYNC_BAD.count : RF := (HMK_CNT_SYNC_BAD.reg).sub 0 48
def HMK_CNT_SYNC_BAD.ev : Cnt := ⟨HMK_CNT_SYNC_BAD.count, 0x2A01, 0⟩
/-- HMK_CNT_STEP, 11 Table 11.17. -/
def HMK_CNT_STEP.reg : RF := RF.whole (0xc000090) ((Rst.const 0).value [])
def HMK_CNT_STEP.count : RF := (HMK_CNT_STEP.reg).sub 0 48
def HMK_CNT_STEP.ev : Cnt := ⟨HMK_CNT_STEP.count, 0x2A02, 0⟩
/-- HMK_CNT_GM_CHANGE, 11 Table 11.17. -/
def HMK_CNT_GM_CHANGE.reg : RF := RF.whole (0xc000098) ((Rst.const 0).value [])
def HMK_CNT_GM_CHANGE.count : RF := (HMK_CNT_GM_CHANGE.reg).sub 0 48
def HMK_CNT_GM_CHANGE.ev : Cnt := ⟨HMK_CNT_GM_CHANGE.count, 0x2A03, 0⟩
/-- HMK_TIMER0, 11 Table 11.18. -/
def HMK_TIMER0.reg (i : Nat) : RF := RF.whole (0xc000100 + 0x10 * i) ((Rst.const 0).value [i])
def HMK_TIMER0.t (i : Nat) : RF := (HMK_TIMER0.reg i).sub 0 64
/-- HMK_TIMER1, 11 Table 11.18. -/
def HMK_TIMER1.reg (i : Nat) : RF := RF.whole (0xc000108 + 0x10 * i) ((Rst.const 0).value [i])
def HMK_TIMER1.enable (i : Nat) : RF := (HMK_TIMER1.reg i).sub 0 1
def HMK_TIMER1.fired (i : Nat) : RF := (HMK_TIMER1.reg i).sub 1 1
/-- HMK_PORT, 11 Table 11.19. -/
def HMK_PORT.reg (p : Nat) : RF := RF.whole (0xc001000 + 0x8 * p) ((Rst.const 1).value [p])
def HMK_PORT.time_en (p : Nat) : RF := (HMK_PORT.reg p).sub 0 1
def HMK_PORT.hall_en (p : Nat) : RF := (HMK_PORT.reg p).sub 1 1
def HMK_PORT.asym (p : Nat) : RF := (HMK_PORT.reg p).sub 16 16
/-- CLH_PROD, 11 Table 11.20. -/
def CLH_PROD.reg : RF := RF.whole (0xd000000) ((Rst.const 0).value [])
def CLH_PROD.prod : RF := (CLH_PROD.reg).sub 0 32
/-- CLH_ACK, 11 Table 11.20. -/
def CLH_ACK.reg : RF := RF.whole (0xd000008) ((Rst.const 0).value [])
def CLH_ACK.ack : RF := (CLH_ACK.reg).sub 0 32
/-- CLH_CFG, 11 Table 11.21. -/
def CLH_CFG.reg : RF := RF.whole (0xd000010) ((Rst.const 0x13).value [])
def CLH_CFG.pin_thresh : RF := (CLH_CFG.reg).sub 0 4
def CLH_CFG.auto_clear : RF := (CLH_CFG.reg).sub 4 4
/-- CLH_STAT, 11 Table 11.22. -/
def CLH_STAT.reg : RF := RF.whole (0xd000018) ((Rst.const 0xff).value [])
def CLH_STAT.max_sev : RF := (CLH_STAT.reg).sub 0 4
def CLH_STAT.lost_sev : RF := (CLH_STAT.reg).sub 4 4
def CLH_STAT.fault_pin : RF := (CLH_STAT.reg).sub 8 1
def CLH_STAT.uncleared : RF := (CLH_STAT.reg).sub 16 13
/-- CLH_MIRROR0, 11 Table 11.23. -/
def CLH_MIRROR0.reg : RF := RF.whole (0xd000020) ((Rst.const 0).value [])
def CLH_MIRROR0.base : RF := (CLH_MIRROR0.reg).sub 0 64
/-- CLH_MIRROR1, 11 Table 11.23. -/
def CLH_MIRROR1.reg : RF := RF.whole (0xd000028) ((Rst.const 0x60000).value [])
def CLH_MIRROR1.host_link : RF := (CLH_MIRROR1.reg).sub 0 3
def CLH_MIRROR1.enable : RF := (CLH_MIRROR1.reg).sub 8 1
def CLH_MIRROR1.log2_entries : RF := (CLH_MIRROR1.reg).sub 16 5
/-- CLH_MIRROR2, 11 Table 11.23. -/
def CLH_MIRROR2.reg : RF := RF.whole (0xd000030) ((Rst.const 0).value [])
def CLH_MIRROR2.prod : RF := (CLH_MIRROR2.reg).sub 0 32
/-- CLH_MIRROR3, 11 Table 11.23. -/
def CLH_MIRROR3.reg : RF := RF.whole (0xd000038) ((Rst.const 0).value [])
def CLH_MIRROR3.cons : RF := (CLH_MIRROR3.reg).sub 0 32
/-- CLH_CNT_RAISED, 11 Table 11.24. -/
def CLH_CNT_RAISED.reg : RF := RF.whole (0xd000100) ((Rst.const 0).value [])
def CLH_CNT_RAISED.count : RF := (CLH_CNT_RAISED.reg).sub 0 48
def CLH_CNT_RAISED.ev : Cnt := ⟨CLH_CNT_RAISED.count, 0x2B00, 0⟩
/-- CLH_CNT_LOST, 11 Table 11.24. -/
def CLH_CNT_LOST.reg : RF := RF.whole (0xd000108) ((Rst.const 0).value [])
def CLH_CNT_LOST.count : RF := (CLH_CNT_LOST.reg).sub 0 48
def CLH_CNT_LOST.ev : Cnt := ⟨CLH_CNT_LOST.count, 0x2B01, 0⟩
/-- CLH_CNT_MIRROR_LOST, 11 Table 11.24. -/
def CLH_CNT_MIRROR_LOST.reg : RF := RF.whole (0xd000110) ((Rst.const 0).value [])
def CLH_CNT_MIRROR_LOST.count : RF := (CLH_CNT_MIRROR_LOST.reg).sub 0 48
def CLH_CNT_MIRROR_LOST.ev : Cnt := ⟨CLH_CNT_MIRROR_LOST.count, 0x2B02, 0⟩
/-- CLH_CNT_FLASH, 11 Table 11.24. -/
def CLH_CNT_FLASH.reg : RF := RF.whole (0xd000118) ((Rst.const 0).value [])
def CLH_CNT_FLASH.count : RF := (CLH_CNT_FLASH.reg).sub 0 48
def CLH_CNT_FLASH.ev : Cnt := ⟨CLH_CNT_FLASH.count, 0x2B03, 0⟩
/-- CLH_CNT_FLASH_LOST, 11 Table 11.24. -/
def CLH_CNT_FLASH_LOST.reg : RF := RF.whole (0xd000120) ((Rst.const 0).value [])
def CLH_CNT_FLASH_LOST.count : RF := (CLH_CNT_FLASH_LOST.reg).sub 0 48
def CLH_CNT_FLASH_LOST.ev : Cnt := ⟨CLH_CNT_FLASH_LOST.count, 0x2B04, 0⟩
/-- CLH_LAST_FATAL. -/
def CLH_LAST_FATAL.reg (k : Nat) : RF := RF.whole (0xd000200 + 0x8 * k) ((Rst.const 0).value [k])
def CLH_LAST_FATAL.word (k : Nat) : RF := (CLH_LAST_FATAL.reg k).sub 0 64
/-- CLH_RING. -/
def CLH_RING.reg (i : Nat) (k : Nat) : RF := RF.whole (0xd100000 + 0x20 * i + 0x8 * k) ((Rst.const 0).value [i, k])
def CLH_RING.word (i : Nat) (k : Nat) : RF := (CLH_RING.reg i k).sub 0 64
/-- CLH_REACT, 11 Table 11.25. -/
def CLH_REACT.reg (c : Nat) : RF := RF.whole (0xd800000 + 0x8 * c) ((Rst.clhReact).value [c])
def CLH_REACT.react (c : Nat) : RF := (CLH_REACT.reg c).sub 0 7
/-- ASY_CTL, 11 Table 11.26. -/
def ASY_CTL.reg : RF := RF.whole (0xe000000) ((Rst.const 0).value [])
def ASY_CTL.arm : RF := (ASY_CTL.reg).sub 0 1
def ASY_CTL.trigger : RF := (ASY_CTL.reg).sub 1 1
/-- ASY_CFG, 11 Table 11.27. -/
def ASY_CFG.reg : RF := RF.whole (0xe000008) ((Rst.const 0x640004).value [])
def ASY_CFG.pin_in_en : RF := (ASY_CFG.reg).sub 0 1
def ASY_CFG.pin_out_en : RF := (ASY_CFG.reg).sub 1 1
def ASY_CFG.qs_en : RF := (ASY_CFG.reg).sub 2 1
def ASY_CFG.hall_flood : RF := (ASY_CFG.reg).sub 3 1
def ASY_CFG.kind_broadcast : RF := (ASY_CFG.reg).sub 4 1
def ASY_CFG.lead_us : RF := (ASY_CFG.reg).sub 16 16
/-- ASY_KIND, 11 Table 11.28. -/
def ASY_KIND.reg (k : Nat) : RF := RF.whole (0xe000010 + 0x8 * k) ((Rst.const 0).value [k])
def ASY_KIND.kind (k : Nat) : RF := (ASY_KIND.reg k).sub 0 16
def ASY_KIND.valid (k : Nat) : RF := (ASY_KIND.reg k).sub 16 1
/-- ASY_AT, 11 Table 11.29. -/
def ASY_AT.reg : RF := RF.whole (0xe000030) ((Rst.const 0).value [])
def ASY_AT.valid : RF := (ASY_AT.reg).sub 0 1
def ASY_AT.t : RF := (ASY_AT.reg).sub 1 63
/-- ASY_STAT, 11 Table 11.30. -/
def ASY_STAT.reg : RF := RF.whole (0xe000038) ((Rst.const 0).value [])
def ASY_STAT.armed : RF := (ASY_STAT.reg).sub 0 1
def ASY_STAT.captured : RF := (ASY_STAT.reg).sub 1 1
def ASY_STAT.source : RF := (ASY_STAT.reg).sub 2 2
def ASY_STAT.late : RF := (ASY_STAT.reg).sub 4 1
/-- ASY_TIME. -/
def ASY_TIME.reg : RF := RF.whole (0xe000040) ((Rst.const 0).value [])
def ASY_TIME.t : RF := (ASY_TIME.reg).sub 0 64
/-- ASY_CNT_MISSED. -/
def ASY_CNT_MISSED.reg : RF := RF.whole (0xe000048) ((Rst.const 0).value [])
def ASY_CNT_MISSED.count : RF := (ASY_CNT_MISSED.reg).sub 0 48
def ASY_CNT_MISSED.ev : Cnt := ⟨ASY_CNT_MISSED.count, 0x2C00, 0⟩
/-- ASY_LIST, 11 Table 11.31. -/
def ASY_LIST.reg (i : Nat) : RF := RF.whole (0xe010000 + 0x8 * i) ((Rst.const 0).value [i])
def ASY_LIST.addr (i : Nat) : RF := (ASY_LIST.reg i).sub 0 48
def ASY_LIST.valid (i : Nat) : RF := (ASY_LIST.reg i).sub 63 1
/-- ASY_SNAP, 11 Table 11.31. -/
def ASY_SNAP.reg (i : Nat) : RF := RF.whole (0xe020000 + 0x8 * i) ((Rst.const 0).value [i])
def ASY_SNAP.value (i : Nat) : RF := (ASY_SNAP.reg i).sub 0 64
/-- TLY_CNT, 11 Table 11.32. -/
def TLY_CNT.reg (i : Nat) : RF := RF.whole (0xf000000 + 0x8 * i) ((Rst.const 0).value [i])
def TLY_CNT.count (i : Nat) : RF := (TLY_CNT.reg i).sub 0 48
/-- TLY_SEL, 11 Table 11.32. -/
def TLY_SEL.reg (i : Nat) : RF := RF.whole (0xf002000 + 0x8 * i) ((Rst.const 0xff0000).value [i])
def TLY_SEL.event (i : Nat) : RF := (TLY_SEL.reg i).sub 0 16
def TLY_SEL.inst (i : Nat) : RF := (TLY_SEL.reg i).sub 16 8
def TLY_SEL.mode (i : Nat) : RF := (TLY_SEL.reg i).sub 24 3
def TLY_SEL.ovf_irq (i : Nat) : RF := (TLY_SEL.reg i).sub 27 1
/-- TLY_THRESH, 11 Table 11.32. -/
def TLY_THRESH.reg (i : Nat) : RF := RF.whole (0xf004000 + 0x8 * i) ((Rst.const 0).value [i])
def TLY_THRESH.thresh (i : Nat) : RF := (TLY_THRESH.reg i).sub 0 32
/-- TLY_OVF. -/
def TLY_OVF.reg (j : Nat) : RF := RF.whole (0xf006000 + 0x8 * j) ((Rst.const 0).value [j])
def TLY_OVF.wrapped (j : Nat) : RF := (TLY_OVF.reg j).sub 0 64
/-- TLY_LATCH_CTL, 11 Table 11.33. -/
def TLY_LATCH_CTL.reg : RF := RF.whole (0xf006100) ((Rst.const 0).value [])
def TLY_LATCH_CTL.period_us : RF := (TLY_LATCH_CTL.reg).sub 0 32
def TLY_LATCH_CTL.now : RF := (TLY_LATCH_CTL.reg).sub 32 1
/-- TLY_LATCH_TIME. -/
def TLY_LATCH_TIME.reg : RF := RF.whole (0xf006108) ((Rst.const 0).value [])
def TLY_LATCH_TIME.t : RF := (TLY_LATCH_TIME.reg).sub 0 64
/-- TLY_LATCHED. -/
def TLY_LATCHED.reg (i : Nat) : RF := RF.whole (0xf008000 + 0x8 * i) ((Rst.const 0).value [i])
def TLY_LATCHED.count (i : Nat) : RF := (TLY_LATCHED.reg i).sub 0 48

end Sys2Proof.Machine
end

