-- ==== Sys2Proof/Machine/RegTable.lean ====
section
/-!
DEFINITION. Machine/RegTable.lean: the register tables of the spec as data, one row a register: where it lies, how its
indices stride, its fields with their access types (00 Table 0.4), and its reset value. What a master reaches by an
address is looked up here.
-/
namespace Sys2Proof.Machine

/-- The access types of 00 Table 0.4 that the register tables use. -/
inductive Acc where
  | rw | ro | wo | w1c | w1s | rc | rwl
  deriving DecidableEq, Repr

/-- One register (or register array) of the spec. -/
structure RegRow where
  name   : String
  base   : Nat
  dims   : List (Nat × Nat)          -- (stride, count), widest stride first
  fields : List (Nat × Nat × Acc)    -- (lowest bit, length, access); bits not listed are reserved (R7)
  rst    : Rst
  deriving DecidableEq, Repr

def regRows0 : List RegRow := [
  ⟨"TOP_ID", 0x0, [],
    [(0, 16, .ro), (16, 8, .ro), (24, 4, .ro)], .const 0x1b09600⟩,
  ⟨"TOP_STATE", 0x8, [],
    [(0, 3, .ro), (4, 2, .ro), (8, 1, .ro), (16, 1, .ro), (17, 1, .ro), (18, 1, .ro)], .const 1⟩,
  ⟨"TOP_STATE_TIME", 0x10, [],
    [(0, 64, .ro)], .const 0⟩,
  ⟨"TOP_STATE_EVT", 0x18, [],
    [(0, 1, .w1c), (1, 1, .w1c), (2, 1, .w1c), (3, 1, .w1c), (4, 1, .w1c)], .const 0⟩,
  ⟨"TOP_SRAM_PART", 0x40, [(0x8, 7)],
    [(0, 5, .ro), (8, 5, .ro), (16, 8, .ro)], .sramPart⟩,
  ⟨"TOP_RESET_CAUSE", 0x100, [],
    [(0, 3, .ro), (16, 16, .ro)], .const 1⟩,
  ⟨"TOP_RESET_CTL", 0x108, [],
    [(0, 16, .wo)], .const 0⟩,
  ⟨"TOP_STRAP", 0x110, [],
    [(0, 1, .ro), (1, 4, .ro), (5, 1, .ro)], .const 0⟩,
  ⟨"TOP_BOOT_STAT", 0x118, [],
    [(0, 4, .ro), (4, 4, .ro), (8, 3, .ro), (11, 1, .ro), (12, 1, .ro), (13, 1, .ro), (14, 1, .ro), (15, 1, .ro), (16, 1, .ro)], .const 1⟩,
  ⟨"TOP_BRINGUP_CFG", 0x120, [],
    [(0, 1, .rw), (8, 8, .rw), (16, 16, .rw), (32, 16, .rw), (48, 8, .rw), (56, 8, .rw)], .const 0x7d001770012c2801⟩,
  ⟨"TOP_BRINGUP_CTL", 0x128, [],
    [(0, 1, .wo)], .const 0⟩,
  ⟨"TOP_BRINGUP_STAT", 0x130, [],
    [(0, 8, .ro), (8, 7, .ro), (16, 1, .ro), (17, 1, .ro)], .const 0⟩,
  ⟨"TOP_UPGRADE_TIME", 0x138, [],
    [(0, 64, .ro)], .const 0⟩,
  ⟨"PWR_STATE_REQ", 0x100000, [],
    [(0, 2, .rw), (8, 8, .ro), (62, 1, .wo), (63, 1, .ro)], .const 0x8000000000000000⟩,
  ⟨"PWR_CFG", 0x100008, [],
    [(0, 16, .rw), (16, 16, .rw), (32, 2, .rw)], .const 0x100640064⟩,
  ⟨"PWR_EVT", 0x100010, [],
    [(0, 1, .w1c), (1, 1, .w1c), (2, 1, .w1c), (3, 1, .w1c), (4, 1, .w1c), (5, 1, .w1c), (6, 1, .w1c), (7, 1, .w1c), (8, 1, .w1c)], .const 0⟩,
  ⟨"PWR_THERM", 0x100018, [],
    [(0, 8, .rwl), (8, 4, .rw), (16, 8, .rw), (24, 3, .rw), (27, 1, .rw)], .const 0x46e0376⟩,
  ⟨"PWR_TEMP", 0x100020, [],
    [(0, 16, .ro), (16, 5, .ro), (24, 1, .ro), (25, 1, .ro)], .const 0⟩,
  ⟨"PWR_TRIP", 0x100028, [],
    [(0, 1, .w1c), (8, 5, .ro), (16, 16, .ro)], .const 0⟩,
  ⟨"PWR_TRIP_TIME", 0x100030, [],
    [(0, 64, .ro)], .const 0⟩,
  ⟨"PWR_AVS_CFG", 0x100040, [],
    [(0, 1, .rw), (8, 8, .rw)], .const 0xa01⟩,
  ⟨"PWR_AVS_CTL", 0x100048, [],
    [(0, 1, .rw), (16, 10, .rw), (40, 8, .ro), (62, 1, .wo), (63, 1, .ro)], .const 0x80000000030c0000⟩,
  ⟨"PWR_AVS_STAT", 0x100050, [(0x8, 2)],
    [(0, 10, .ro), (16, 10, .ro)], .avsStat⟩,
  ⟨"PWR_PMB_DEV", 0x100080, [(0x8, 8)],
    [(0, 7, .rw), (7, 1, .rw)], .const 0⟩]

def regRows1 : List RegRow := [
  ⟨"PWR_PMB_CMD0", 0x1000c0, [],
    [(0, 3, .rw), (8, 8, .rw), (16, 2, .rw), (18, 1, .rw), (24, 8, .ro), (62, 1, .wo), (63, 1, .ro)], .const 0x8000000000000000⟩,
  ⟨"PWR_PMB_CMD1", 0x1000c8, [],
    [(0, 16, .rw)], .const 0⟩,
  ⟨"PWR_PMB_TEL", 0x100100, [(0x8, 8)],
    [(0, 16, .ro), (16, 16, .ro), (32, 16, .ro)], .const 0⟩,
  ⟨"PWR_PAD", 0x100140, [],
    [(0, 8, .ro), (8, 4, .ro)], .const 0⟩,
  ⟨"PWR_PAD_RELEASE", 0x100148, [],
    [(0, 8, .wo), (8, 4, .wo)], .const 0⟩,
  ⟨"PWR_VIGIL_PORT", 0x100150, [],
    [(0, 3, .rw), (3, 1, .rw), (4, 3, .rw), (7, 1, .rw), (8, 3, .rw), (11, 1, .rw), (12, 3, .rw), (15, 1, .rw), (16, 3, .rw), (19, 1, .rw), (20, 3, .rw), (23, 1, .rw), (24, 3, .rw), (27, 1, .rw), (28, 3, .rw), (31, 1, .rw)], .const 0x88888888⟩,
  ⟨"PWR_CNT_VIGIL_DROP", 0x100200, [],
    [(0, 48, .rc)], .const 0⟩,
  ⟨"PWR_CNT_WAKE", 0x100208, [],
    [(0, 48, .rc)], .const 0⟩,
  ⟨"PWR_CNT_WAKE_NOANS", 0x100210, [],
    [(0, 48, .rc)], .const 0⟩,
  ⟨"PWR_CNT_THROTTLE_CYC", 0x100218, [],
    [(0, 48, .rc)], .const 0⟩,
  ⟨"PWR_CNT_DB_PWRFAIL", 0x100220, [],
    [(0, 48, .rc)], .const 0⟩,
  ⟨"PWR_VOTE", 0x101000, [(0x8, 64)],
    [(0, 8, .ro), (8, 1, .rw), (9, 1, .rw), (10, 1, .ro), (11, 1, .ro), (12, 1, .ro), (13, 1, .ro)], .const 0⟩,
  ⟨"PWR_DOM", 0x101400, [(0x8, 64)],
    [(0, 3, .ro), (3, 3, .ro), (6, 1, .w1c), (7, 1, .rw), (8, 4, .ro)], .pwrDom⟩,
  ⟨"PWR_CLIENT_MASK", 0x101800, [(0x8, 8)],
    [(0, 64, .rw)], .const 0xfff00⟩,
  ⟨"PWR_TIMER_MASK", 0x101840, [(0x8, 8)],
    [(0, 64, .rw)], .const 0⟩,
  ⟨"IZG_LOCK", 0x300000, [],
    [(0, 1, .w1s)], .const 0⟩,
  ⟨"IZG_PAIR_STAT", 0x300008, [],
    [(0, 1, .ro), (1, 1, .ro), (2, 2, .ro), (8, 8, .ro)], .const 2⟩,
  ⟨"IZG_PAIR_CTL", 0x300010, [],
    [(0, 1, .wo), (1, 1, .wo)], .const 0⟩,
  ⟨"IZG_FW_STAT", 0x300018, [],
    [(0, 1, .ro), (1, 1, .ro), (2, 1, .ro), (8, 8, .ro), (32, 32, .ro)], .const 0⟩,
  ⟨"IZG_FW_CFG", 0x300020, [],
    [(0, 32, .rw), (32, 1, .rw)], .const 0x100000e10⟩,
  ⟨"IZG_FW_CTL", 0x300028, [],
    [(0, 1, .rw), (1, 3, .rw), (8, 8, .ro), (62, 1, .wo), (63, 1, .ro)], .const 0x8000000000000000⟩,
  ⟨"IZG_FW_LOAD0", 0x300030, [],
    [(0, 48, .rw)], .const 0⟩,
  ⟨"IZG_FW_LOAD1", 0x300038, [],
    [(0, 32, .rw)], .const 0⟩,
  ⟨"IZG_MBOX_IN", 0x300100, [(0x8, 8)],
    [(0, 64, .rw)], .const 0⟩]

def regRows2 : List RegRow := [
  ⟨"IZG_MBOX_OUT", 0x300140, [(0x8, 8)],
    [(0, 64, .ro)], .const 0⟩,
  ⟨"IZG_MBOX_CTL", 0x300180, [],
    [(0, 1, .w1s), (1, 1, .w1c)], .const 0⟩,
  ⟨"IZG_SLICE_STAT", 0x300200, [],
    [(0, 9, .ro), (9, 4, .ro), (16, 9, .ro), (32, 16, .ro)], .const 0x10ff⟩,
  ⟨"IZG_SLICE_CTL", 0x300208, [],
    [(0, 4, .rw), (8, 8, .ro), (62, 1, .wo), (63, 1, .ro)], .const 0x8000000000000000⟩,
  ⟨"IZG_SRAM_SPARE", 0x300300, [(0x8, 24)],
    [(0, 7, .ro), (16, 16, .ro), (32, 16, .ro)], .const 0⟩,
  ⟨"IZG_SRAM_CFG", 0x300400, [],
    [(0, 16, .rw), (16, 8, .rw)], .const 0x40008⟩,
  ⟨"SEC_SERIAL", 0x400000, [],
    [(0, 64, .ro)], .const 0⟩,
  ⟨"SEC_LIFECYCLE", 0x400008, [],
    [(0, 2, .ro), (2, 1, .ro), (4, 4, .ro), (8, 4, .ro), (16, 6, .ro)], .const 0⟩,
  ⟨"SEC_NONCE", 0x400010, [],
    [(0, 64, .ro)], .const 0⟩,
  ⟨"SEC_CMD", 0x400018, [],
    [(0, 8, .ro), (62, 1, .wo), (63, 1, .ro)], .const 0x8000000000000000⟩,
  ⟨"SEC_MG_CTR", 0x400020, [],
    [(0, 64, .ro)], .const 0⟩,
  ⟨"SEC_CNT_MG_AUTH_FAIL", 0x400030, [],
    [(0, 48, .rc)], .const 0⟩,
  ⟨"SEC_CNT_CMD_FAIL", 0x400038, [],
    [(0, 48, .rc)], .const 0⟩,
  ⟨"SEC_CMD_BUF", 0x400100, [(0x8, 24)],
    [(0, 64, .rw)], .const 0⟩,
  ⟨"SEC_OWNER_HASH", 0x400200, [(0x40, 4), (0x8, 8)],
    [(0, 64, .ro)], .const 0⟩,
  ⟨"SEC_MEAS", 0x400440, [(0x40, 6), (0x8, 8)],
    [(0, 64, .ro)], .const 0⟩,
  ⟨"LNK_CTL", 0x1000000, [(0x10000, 64)],
    [(0, 1, .wo)], .const 0⟩,
  ⟨"LNK_STAT", 0x1000008, [(0x10000, 64)],
    [(0, 4, .ro), (4, 2, .ro), (6, 2, .ro), (8, 4, .ro), (12, 1, .ro), (13, 1, .ro)], .const 0⟩,
  ⟨"LNK_CFG", 0x1000010, [(0x10000, 64)],
    [(0, 1, .rw)], .const 1⟩,
  ⟨"LNK_RESET_LIMIT", 0x1000018, [(0x10000, 64)],
    [(0, 32, .rw)], .const 0x1e8480⟩,
  ⟨"LNK_REACH", 0x1000020, [(0x10000, 64)],
    [(0, 3, .rw), (4, 3, .ro), (8, 1, .w1c)], .const 0⟩,
  ⟨"LNK_ESCROW", 0x1000028, [(0x10000, 64)],
    [(0, 24, .ro), (24, 24, .ro), (48, 14, .ro)], .const 0x100000000000000⟩,
  ⟨"LNK_ACK_TIMER", 0x1000030, [(0x10000, 64)],
    [(0, 32, .ro)], .const 0x7d0⟩,
  ⟨"LNK_ERR_WIN", 0x1000038, [(0x10000, 64)],
    [(0, 11, .ro), (11, 5, .ro), (16, 4, .ro), (24, 24, .ro)], .const 0⟩]

def regRows3 : List RegRow := [
  ⟨"LNK_CNT_NAK", 0x1000040, [(0x10000, 64)],
    [(0, 48, .rc)], .const 0⟩,
  ⟨"LNK_CNT_REPLAY", 0x1000048, [(0x10000, 64)],
    [(0, 48, .rc)], .const 0⟩,
  ⟨"LNK_CNT_CORRUPT", 0x1000050, [(0x10000, 64)],
    [(0, 48, .rc)], .const 0⟩,
  ⟨"LNK_CNT_CREDIT", 0x1000058, [(0x10000, 64)],
    [(0, 48, .rc)], .const 0⟩,
  ⟨"LNK_CNT_STALE", 0x1000060, [(0x10000, 64)],
    [(0, 48, .rc)], .const 0⟩,
  ⟨"LNK_CNT_RESET", 0x1000068, [(0x10000, 64)],
    [(0, 48, .rc)], .const 0⟩,
  ⟨"LNK_CNT_HANDBACK", 0x1000070, [(0x10000, 64)],
    [(0, 48, .rc)], .const 0⟩,
  ⟨"LNK_PEER", 0x1000078, [(0x10000, 64)],
    [(0, 64, .ro)], .const 0⟩,
  ⟨"LNK_PEER_INFO", 0x1000080, [(0x10000, 64)],
    [(0, 23, .ro), (24, 6, .ro), (32, 3, .ro)], .const 0x7fffff⟩,
  ⟨"LNK_EVT", 0x1000088, [(0x10000, 64)],
    [(0, 1, .w1c), (1, 1, .w1c), (2, 1, .w1c), (3, 1, .w1c), (4, 1, .w1c), (5, 1, .w1c)], .const 0⟩,
  ⟨"LNK_CELL", 0x1000090, [(0x10000, 64)],
    [(0, 13, .rw)], .const 0x400⟩,
  ⟨"LNK_VAULT_CLASS", 0x1000100, [(0x10000, 64), (0x8, 18)],
    [(0, 18, .rw), (20, 18, .rw), (40, 18, .ro)], .const 0x42⟩,
  ⟨"LNK_VAULT_USED", 0x1000200, [(0x10000, 64), (0x8, 18)],
    [(0, 18, .ro), (20, 18, .ro), (40, 18, .ro)], .const 0⟩,
  ⟨"PRT_ROLE", 0x1008000, [(0x10000, 64)],
    [(0, 3, .rw), (4, 3, .ro)], .const 0⟩,
  ⟨"PRT_TARGET", 0x1008008, [(0x10000, 64)],
    [(0, 2, .rw), (2, 2, .rw)], .const 0⟩,
  ⟨"PRT_LANE_EXCL", 0x1008010, [(0x10000, 64)],
    [(0, 8, .rw), (8, 8, .w1c)], .const 0⟩,
  ⟨"PRT_DEGRADE", 0x1008018, [(0x10000, 64)],
    [(0, 32, .rw)], .const 0x400000⟩,
  ⟨"PRT_LANE_STAT", 0x1008100, [(0x10000, 64), (0x8, 8)],
    [(0, 1, .ro), (1, 1, .ro), (2, 1, .ro), (3, 3, .ro), (6, 1, .ro), (7, 3, .ro), (10, 1, .ro), (11, 1, .ro)], .const 0⟩,
  ⟨"PRT_FEC_LANE", 0x1008200, [(0x10000, 64), (0x8, 8)],
    [(0, 48, .rc)], .const 0⟩,
  ⟨"RTE_CFG", 0x2000000, [],
    [(0, 4, .rw), (4, 4, .rw), (8, 8, .rw), (16, 4, .rw), (20, 4, .rw), (24, 4, .rw), (28, 4, .rw), (32, 1, .rw), (33, 1, .rw)], .const 0x30ff00000⟩,
  ⟨"RTE_EPOCH", 0x2000008, [],
    [(0, 1, .ro), (1, 1, .ro), (2, 1, .ro), (3, 1, .ro)], .const 0⟩,
  ⟨"RTE_FLIP_TIME", 0x2000010, [],
    [(0, 64, .ro)], .const 0⟩,
  ⟨"RTE_FLIP_LAST", 0x2000018, [],
    [(0, 64, .ro)], .const 0⟩,
  ⟨"RTE_POLICY", 0x2000020, [],
    [(0, 2, .rw), (2, 2, .rw)], .const 0⟩]

def regRows4 : List RegRow := [
  ⟨"RTE_UGAL_BIAS", 0x2000028, [],
    [(0, 16, .rw)], .const 0x84⟩,
  ⟨"RTE_MARK_THRESH", 0x2000030, [],
    [(0, 16, .rw), (16, 16, .rw)], .const 0x3e80400⟩,
  ⟨"RTE_APEX", 0x2000038, [],
    [(0, 4, .rw), (4, 4, .rw)], .const 0xff⟩,
  ⟨"RTE_HALL_CFG", 0x2000040, [],
    [(0, 6, .rw), (6, 1, .rw), (7, 1, .rw), (8, 1, .rw), (12, 4, .rw), (16, 6, .rw), (22, 1, .rw), (23, 1, .rw), (24, 1, .rw), (28, 4, .rw)], .const 0⟩,
  ⟨"RTE_LIFETIME", 0x2000048, [],
    [(0, 32, .ro)], .const 0x1e8480⟩,
  ⟨"RTE_SAMPLE", 0x2000050, [],
    [(0, 5, .rw), (8, 1, .rw), (16, 23, .rw), (40, 16, .rw)], .const 0x640000000010⟩,
  ⟨"RTE_TBL_STAT", 0x2000058, [],
    [(0, 2, .ro), (2, 2, .ro), (8, 1, .w1c)], .const 1⟩,
  ⟨"RTE_ADVERT_EVT", 0x2000060, [],
    [(0, 1, .w1c)], .const 0⟩,
  ⟨"RTE_CELL_MAP", 0x2000068, [],
    [(0, 6, .rw), (7, 1, .rw), (8, 6, .rw), (15, 1, .rw), (16, 6, .rw), (23, 1, .rw), (24, 6, .rw), (31, 1, .rw), (32, 6, .rw), (39, 1, .rw), (40, 6, .rw), (47, 1, .rw), (48, 6, .rw), (55, 1, .rw), (56, 6, .rw), (63, 1, .rw)], .const 0⟩,
  ⟨"RTE_CNT_LIFETIME", 0x2000080, [],
    [(0, 48, .rc)], .const 0⟩,
  ⟨"RTE_CNT_NOPATH", 0x2000088, [],
    [(0, 48, .rc)], .const 0⟩,
  ⟨"RTE_CNT_ESCALATE", 0x2000090, [],
    [(0, 48, .rc)], .const 0⟩,
  ⟨"RTE_CNT_UNREACH_SUPP", 0x2000098, [],
    [(0, 48, .rc)], .const 0⟩,
  ⟨"RTE_CNT_MC_ZERO", 0x20000a0, [],
    [(0, 48, .rc)], .const 0⟩,
  ⟨"RTE_CNT_MC_DOWN", 0x20000a8, [],
    [(0, 48, .rc)], .const 0⟩,
  ⟨"RTE_CNT_MG_FULL", 0x20000b0, [],
    [(0, 48, .rc)], .const 0⟩,
  ⟨"RTE_CNT_SAMPLE_LOST", 0x20000b8, [],
    [(0, 48, .rc)], .const 0⟩,
  ⟨"RTE_CNT_FLIP_IGN", 0x20000c0, [],
    [(0, 48, .rc)], .const 0⟩,
  ⟨"RTE_GROUPS_PRESENT", 0x2000100, [(0x8, 4)],
    [(0, 64, .rw)], .const 0⟩,
  ⟨"RTE_PORT_STAT0", 0x2008000, [(0x20, 64)],
    [(0, 48, .ro)], .const 0⟩,
  ⟨"RTE_PORT_STAT1", 0x2008008, [(0x20, 64)],
    [(0, 48, .ro)], .const 0⟩,
  ⟨"RTE_PORT_STAT2", 0x2008010, [(0x20, 64)],
    [(0, 48, .ro)], .const 0⟩,
  ⟨"RTE_PORT_STAT3", 0x2008018, [(0x20, 64)],
    [(0, 16, .ro), (16, 16, .ro), (32, 16, .rc)], .const 0⟩,
  ⟨"RTE_HALL_CTL", 0x2100000, [(0x100000, 2), (0x100, 16)],
    [(0, 2, .rw)], .const 3⟩]

def regRows5 : List RegRow := [
  ⟨"RTE_HALL_GW", 0x2100008, [(0x100000, 2), (0x100, 16), (0x8, 16)],
    [(0, 8, .rw), (8, 4, .rw), (12, 4, .rw), (16, 1, .rw), (32, 8, .rw), (40, 4, .rw), (44, 4, .rw), (48, 1, .rw)], .const 0⟩,
  ⟨"RTE_GROUP_CAND", 0x2101000, [(0x100000, 2), (0x40, 256), (0x8, 8)],
    [(0, 4, .rw), (4, 4, .rw), (8, 6, .rw), (14, 1, .rw), (16, 4, .rw), (20, 4, .rw), (24, 6, .rw), (30, 1, .rw), (32, 4, .rw), (36, 4, .rw), (40, 6, .rw), (46, 1, .rw), (48, 4, .rw), (52, 4, .rw), (56, 6, .rw), (62, 1, .rw)], .const 0⟩,
  ⟨"RTE_DEV_ENT", 0x2108000, [(0x100000, 2), (0x8, 256)],
    [(0, 1, .rw)], .const 0⟩,
  ⟨"RTE_MC_PORTS", 0x2400000, [(0x10, 16384)],
    [(0, 64, .rw)], .const 0⟩,
  ⟨"RTE_MC_LOCAL", 0x2400008, [(0x10, 16384)],
    [(0, 8, .rw), (8, 1, .rw)], .const 0⟩,
  ⟨"QSL_CNT_DELIVERED", 0x3000000, [],
    [(0, 48, .rc)], .const 0⟩,
  ⟨"QSL_CNT_HOP_LIMIT", 0x3000008, [],
    [(0, 48, .rc)], .const 0⟩,
  ⟨"QSL_CNT_NO_ROUTE", 0x3000010, [],
    [(0, 48, .rc)], .const 0⟩,
  ⟨"QSL_CNT_STALE", 0x3000018, [],
    [(0, 48, .rc)], .const 0⟩,
  ⟨"QSL_CNT_INJ_FULL", 0x3000020, [],
    [(0, 48, .rc)], .const 0⟩,
  ⟨"QSL_CNT_DEFLECTED", 0x3000028, [],
    [(0, 48, .rc)], .const 0⟩,
  ⟨"QSL_INJ_STAT", 0x3000040, [],
    [(0, 13, .ro), (16, 13, .rc)], .const 0⟩,
  ⟨"QSL_PORT_STAT0", 0x3001000, [(0x10, 64)],
    [(0, 48, .ro)], .const 0⟩,
  ⟨"QSL_PORT_STAT1", 0x3001008, [(0x10, 64)],
    [(0, 48, .ro)], .const 0⟩,
  ⟨"TPT_RETRY", 0x4000000, [],
    [(0, 32, .rw), (32, 8, .rw), (40, 16, .rw)], .const 0x100080000fa00⟩,
  ⟨"TPT_TIMERS", 0x4000008, [],
    [(0, 16, .rw), (16, 16, .rw)], .const 0xfa03e80⟩,
  ⟨"TPT_FILTER", 0x4000010, [],
    [(0, 16, .rw), (24, 22, .ro)], .const 0xfa0⟩,
  ⟨"TPT_CWND", 0x4000018, [],
    [(0, 12, .rw), (12, 12, .rw), (32, 16, .rw)], .const 0xfa000400040⟩,
  ⟨"TPT_STAT", 0x4000020, [],
    [(0, 11, .ro), (16, 15, .ro), (32, 12, .ro)], .const 0⟩,
  ⟨"TPT_MSGID", 0x4000100, [(0x8, 8)],
    [(0, 32, .ro)], .const 0⟩,
  ⟨"TPT_CNT_DUP_OPEN", 0x4000200, [],
    [(0, 48, .rc)], .const 0⟩,
  ⟨"TPT_CNT_DUP_DONE", 0x4000208, [],
    [(0, 48, .rc)], .const 0⟩,
  ⟨"TPT_CNT_LATE", 0x4000210, [],
    [(0, 48, .rc)], .const 0⟩,
  ⟨"TPT_CNT_TIMEOUT", 0x4000218, [],
    [(0, 48, .rc)], .const 0⟩]

def regRows6 : List RegRow := [
  ⟨"TPT_CNT_REFUSED", 0x4000220, [],
    [(0, 48, .rc)], .const 0⟩,
  ⟨"TPT_CNT_ABANDONED", 0x4000228, [],
    [(0, 48, .rc)], .const 0⟩,
  ⟨"TPT_CNT_RETX", 0x4000230, [],
    [(0, 48, .rc)], .const 0⟩,
  ⟨"TPT_CNT_NAK_TX", 0x4000238, [],
    [(0, 48, .rc)], .const 0⟩,
  ⟨"TPT_CNT_NAK_RX", 0x4000240, [],
    [(0, 48, .rc)], .const 0⟩,
  ⟨"TPT_CNT_CECHO_RX", 0x4000248, [],
    [(0, 48, .rc)], .const 0⟩,
  ⟨"TPT_CTX", 0x4100000, [(0x8, 65536)],
    [(0, 12, .ro), (16, 16, .ro), (32, 32, .ro)], .const 0xfa00040⟩,
  ⟨"TLR_KEY_BASE", 0x5000000, [(0x10, 8)],
    [(0, 64, .rw)], .const 0⟩,
  ⟨"TLR_KEY_COUNT", 0x5000008, [(0x10, 8)],
    [(0, 20, .rw)], .const 0⟩,
  ⟨"TLR_KEY_INVAL", 0x5000100, [],
    [(0, 32, .rw), (32, 2, .rw), (62, 1, .wo), (63, 1, .ro)], .const 0x8000000000000000⟩,
  ⟨"TLR_RANK_INVAL", 0x5000108, [],
    [(0, 24, .rw), (24, 14, .rw), (40, 1, .rw), (62, 1, .wo), (63, 1, .ro)], .const 0x8000000000000000⟩,
  ⟨"TLR_RBOOK_BASE", 0x5000200, [(0x10, 8)],
    [(0, 64, .rw)], .const 0⟩,
  ⟨"TLR_RBOOK_SIZE", 0x5000208, [(0x10, 8)],
    [(0, 5, .rw), (5, 1, .rw)], .const 0⟩,
  ⟨"TLR_ATOMIC_CFG", 0x5000300, [],
    [(0, 1, .rw)], .const 0⟩,
  ⟨"TLR_APT_CFG", 0x5000308, [],
    [(0, 16, .rw)], .const 0x1f40⟩,
  ⟨"TLR_ORDER_STAT", 0x5000310, [],
    [(0, 17, .ro)], .const 0⟩,
  ⟨"TLR_CNT_ATOMIC", 0x5000400, [],
    [(0, 48, .rc)], .const 0⟩,
  ⟨"TLR_CNT_BOOK_HIT", 0x5000408, [],
    [(0, 48, .rc)], .const 0⟩,
  ⟨"TLR_CNT_BOOK_MISS", 0x5000410, [],
    [(0, 48, .rc)], .const 0⟩,
  ⟨"TLR_CNT_BOOK_OVER", 0x5000418, [],
    [(0, 48, .rc)], .const 0⟩,
  ⟨"TLR_CNT_KEY_MISS", 0x5000420, [],
    [(0, 48, .rc)], .const 0⟩,
  ⟨"TLR_CNT_KEY_FAULT", 0x5000428, [],
    [(0, 48, .rc)], .const 0⟩,
  ⟨"TLR_CNT_APT_FAULT", 0x5000430, [],
    [(0, 48, .rc)], .const 0⟩,
  ⟨"TLR_CNT_ORDER_FIRE", 0x5000438, [],
    [(0, 48, .rc)], .const 0⟩]

def regRows7 : List RegRow := [
  ⟨"TLR_CNT_ORDER_DROP", 0x5000440, [],
    [(0, 48, .rc)], .const 0⟩,
  ⟨"TLR_APT_WIN0", 0x5100000, [(0x8000, 8), (0x20, 1024)],
    [(0, 1, .rw), (1, 1, .rw), (16, 14, .rw), (32, 24, .rw)], .const 0⟩,
  ⟨"TLR_APT_WIN1", 0x5100008, [(0x8000, 8), (0x20, 1024)],
    [(0, 32, .rw)], .const 0⟩,
  ⟨"TLR_APT_WIN2", 0x5100010, [(0x8000, 8), (0x20, 1024)],
    [(0, 64, .rw)], .const 0⟩,
  ⟨"TLR_APT_WIN3", 0x5100018, [(0x8000, 8), (0x20, 1024)],
    [(0, 1, .w1c), (32, 32, .rc)], .const 0⟩,
  ⟨"TLR_CTR", 0x5200000, [(0x8, 65536)],
    [(0, 48, .rw)], .const 0⟩,
  ⟨"TLR_CTR_OWN", 0x5280000, [(0x8, 65536)],
    [(0, 14, .rw), (16, 1, .rw)], .const 0⟩,
  ⟨"LDG_CFG", 0x6000000, [],
    [(0, 21, .rw), (32, 16, .rw), (48, 16, .rw)], .const 0x100004000000400⟩,
  ⟨"LDG_STAT", 0x6000008, [],
    [(0, 21, .ro), (32, 17, .ro)], .const 0x100000⟩,
  ⟨"LDG_CNT_MATCH", 0x6000100, [],
    [(0, 48, .rc)], .const 0⟩,
  ⟨"LDG_CNT_UNEXP", 0x6000108, [],
    [(0, 48, .rc)], .const 0⟩,
  ⟨"LDG_CNT_EARLY", 0x6000110, [],
    [(0, 48, .rc)], .const 0⟩,
  ⟨"LDG_CNT_ORDER", 0x6000118, [],
    [(0, 48, .rc)], .const 0⟩,
  ⟨"LDG_CNT_DUP_SEQ", 0x6000120, [],
    [(0, 48, .rc)], .const 0⟩,
  ⟨"LDG_CNT_OVF_NAK", 0x6000128, [],
    [(0, 48, .rc)], .const 0⟩,
  ⟨"LDG_CNT_SPILL", 0x6000130, [],
    [(0, 48, .rc)], .const 0⟩,
  ⟨"LDG_CNT_RETURN", 0x6000138, [],
    [(0, 48, .rc)], .const 0⟩,
  ⟨"LDG_CNT_SPILL_OPS", 0x6000140, [],
    [(0, 48, .rc)], .const 0⟩,
  ⟨"LDG_CNT_RNDV", 0x6000148, [],
    [(0, 48, .rc)], .const 0⟩,
  ⟨"LDG_CNT_FIN", 0x6000150, [],
    [(0, 48, .rc)], .const 0⟩,
  ⟨"LDG_CNT_DISCARD", 0x6000158, [],
    [(0, 48, .rc)], .const 0⟩,
  ⟨"LDG_ACC_CTX", 0x6010000, [(0x8, 16384)],
    [(0, 16, .rw), (16, 7, .rw)], .const 0⟩,
  ⟨"LDG_CTX0", 0x6400000, [(0x40, 65536)],
    [(0, 24, .rw), (24, 1, .rw), (32, 16, .rw)], .const 0⟩,
  ⟨"LDG_CTX1", 0x6400008, [(0x40, 65536)],
    [(0, 64, .rw)], .const 0⟩]

def regRows8 : List RegRow := [
  ⟨"LDG_CTX2", 0x6400010, [(0x40, 65536)],
    [(0, 25, .rw)], .const 0⟩,
  ⟨"LDG_CTX3", 0x6400018, [(0x40, 65536)],
    [(0, 64, .rw)], .const 0⟩,
  ⟨"LDG_CTX4", 0x6400020, [(0x40, 65536)],
    [(0, 21, .rw)], .const 0⟩,
  ⟨"LDG_CTX5", 0x6400028, [(0x40, 65536)],
    [(0, 21, .ro), (21, 21, .ro), (42, 2, .ro)], .const 0⟩,
  ⟨"LDG_CTX6", 0x6400030, [(0x40, 65536)],
    [(0, 32, .ro), (32, 32, .ro)], .const 0⟩,
  ⟨"LDG_CTX7", 0x6400038, [(0x40, 65536)],
    [(0, 16, .ro), (16, 32, .ro)], .const 0⟩,
  ⟨"ALY_CFG", 0x7000000, [],
    [(0, 16, .rw), (16, 4, .rw), (24, 8, .rw), (32, 16, .rw), (48, 16, .rw)], .const 0x3e8000002080010⟩,
  ⟨"ALY_STAT", 0x7000008, [],
    [(0, 9, .ro), (16, 12, .ro)], .const 0xe000000⟩,
  ⟨"ALY_TREE_CTL", 0x7000010, [],
    [(0, 12, .rw), (12, 2, .rw), (16, 8, .ro), (62, 1, .wo), (63, 1, .ro)], .const 0x8000000000000000⟩,
  ⟨"ALY_CNT_SEG_UP", 0x7000100, [],
    [(0, 48, .rc)], .const 0⟩,
  ⟨"ALY_CNT_SEG_DN", 0x7000108, [],
    [(0, 48, .rc)], .const 0⟩,
  ⟨"ALY_CNT_DUP", 0x7000110, [],
    [(0, 48, .rc)], .const 0⟩,
  ⟨"ALY_CNT_RETX", 0x7000118, [],
    [(0, 48, .rc)], .const 0⟩,
  ⟨"ALY_CNT_ABORT", 0x7000120, [],
    [(0, 48, .rc)], .const 0⟩,
  ⟨"ALY_CNT_STALE", 0x7000128, [],
    [(0, 48, .rc)], .const 0⟩,
  ⟨"ALY_CNT_SCHED_LATE", 0x7000130, [],
    [(0, 48, .rc)], .const 0⟩,
  ⟨"ALY_CNT_STERLING_RANGE", 0x7000138, [],
    [(0, 48, .rc)], .const 0⟩,
  ⟨"ALY_CNT_TOKEN_RETX", 0x7000140, [],
    [(0, 48, .rc)], .const 0⟩,
  ⟨"ALY_TREE0", 0x7100000, [(0x20, 4096)],
    [(0, 14, .rw), (16, 14, .rw), (32, 16, .rw), (48, 5, .rw)], .const 0x3000000000000⟩,
  ⟨"ALY_TREE1", 0x7100008, [(0x20, 4096)],
    [(0, 6, .rw), (6, 1, .rw), (8, 23, .rw)], .const 0⟩,
  ⟨"ALY_TREE2", 0x7100010, [(0x20, 4096)],
    [(0, 64, .rw)], .const 0⟩,
  ⟨"ALY_TREE3", 0x7100018, [(0x20, 4096)],
    [(0, 8, .rw), (8, 24, .rw), (32, 24, .rw), (56, 1, .rw)], .const 0⟩,
  ⟨"ALY_TREE_STAT", 0x7200000, [(0x8, 4096)],
    [(0, 2, .ro), (2, 1, .ro), (8, 4, .ro), (32, 32, .ro)], .const 0⟩,
  ⟨"HBI_LINK_CFG", 0x8000000, [(0x100000, 8)],
    [(0, 1, .rwl), (1, 1, .rwl), (2, 1, .rwl)], .const 0⟩]

def regRows9 : List RegRow := [
  ⟨"HBI_LINK_STAT", 0x8000008, [(0x100000, 8)],
    [(0, 1, .ro), (1, 1, .ro), (2, 1, .ro), (3, 3, .ro), (6, 5, .ro), (11, 1, .ro)], .const 0⟩,
  ⟨"HBI_FLUSH_MODE", 0x8000010, [(0x100000, 8)],
    [(0, 1, .rw)], .const 0⟩,
  ⟨"HBI_CPL_TO", 0x8000018, [(0x100000, 8)],
    [(0, 32, .ro), (32, 32, .ro)], .const 0x7d0000007d00⟩,
  ⟨"HBI_TAG_STAT", 0x8000020, [(0x100000, 8)],
    [(0, 11, .ro), (16, 11, .ro), (32, 11, .rc)], .const 0⟩,
  ⟨"HBI_ATS_STAT", 0x8000028, [(0x100000, 8)],
    [(0, 17, .ro), (32, 6, .ro)], .const 0⟩,
  ⟨"HBI_PF0_SRC", 0x8000030, [(0x100000, 8)],
    [(0, 6, .rw)], .const 0x21⟩,
  ⟨"HBI_AER_MAP", 0x8000038, [(0x100000, 8)],
    [(0, 1, .rw), (1, 1, .rw)], .const 2⟩,
  ⟨"HBI_LTR", 0x8000040, [(0x100000, 8)],
    [(0, 10, .rw), (10, 3, .rw), (16, 10, .rw), (26, 3, .rw)], .const 0x8020802⟩,
  ⟨"HBI_SUBSYS", 0x8000048, [(0x100000, 8)],
    [(0, 16, .rwl), (16, 16, .rwl)], .const 0x1e6b⟩,
  ⟨"HBI_EVT", 0x8000050, [(0x100000, 8)],
    [(0, 1, .w1c), (1, 1, .w1c), (2, 1, .w1c), (3, 1, .w1c), (4, 1, .w1c), (5, 1, .w1c), (6, 1, .w1c), (7, 1, .w1c)], .const 0⟩,
  ⟨"HBI_BME_HOLD", 0x8000058, [(0x100000, 8)],
    [(0, 1, .ro), (1, 1, .ro), (2, 1, .ro)], .const 0⟩,
  ⟨"HBI_CNT_CTO", 0x8000100, [(0x100000, 8)],
    [(0, 48, .rc)], .const 0⟩,
  ⟨"HBI_CNT_LATE_CPL", 0x8000108, [(0x100000, 8)],
    [(0, 48, .rc)], .const 0⟩,
  ⟨"HBI_CNT_GEN_DISCARD", 0x8000110, [(0x100000, 8)],
    [(0, 48, .rc)], .const 0⟩,
  ⟨"HBI_CNT_UNEXP_CPL", 0x8000118, [(0x100000, 8)],
    [(0, 48, .rc)], .const 0⟩,
  ⟨"HBI_CNT_POISON_RX", 0x8000120, [(0x100000, 8)],
    [(0, 48, .rc)], .const 0⟩,
  ⟨"HBI_CNT_ATS_MISS", 0x8000128, [(0x100000, 8)],
    [(0, 48, .rc)], .const 0⟩,
  ⟨"HBI_CNT_ATS_INVAL", 0x8000130, [(0x100000, 8)],
    [(0, 48, .rc)], .const 0⟩,
  ⟨"HBI_CNT_TAG_WAIT", 0x8000138, [(0x100000, 8)],
    [(0, 48, .rc)], .const 0⟩,
  ⟨"HBI_CNT_OWIN_FAULT", 0x8000140, [(0x100000, 8)],
    [(0, 48, .rc)], .const 0⟩,
  ⟨"HBI_OWIN0", 0x8001000, [(0x100000, 8), (0x20, 64)],
    [(0, 1, .rw), (1, 1, .rw), (2, 1, .rw), (4, 9, .rw), (16, 20, .rw), (40, 8, .rw)], .const 0⟩,
  ⟨"HBI_OWIN1", 0x8001008, [(0x100000, 8), (0x20, 64)],
    [(0, 64, .rw)], .const 0⟩,
  ⟨"HBI_OWIN2", 0x8001010, [(0x100000, 8), (0x20, 64)],
    [(0, 1, .w1c), (32, 32, .rc)], .const 0⟩,
  ⟨"ACC_CMD0", 0x9000000, [],
    [(0, 14, .rw), (16, 4, .rw), (24, 8, .ro), (62, 1, .wo), (63, 1, .ro)], .const 0x8000000000000000⟩]

def regRows10 : List RegRow := [
  ⟨"ACC_CMD1", 0x9000008, [],
    [(0, 48, .rw)], .const 0⟩,
  ⟨"ACC_CMD2", 0x9000010, [],
    [(0, 40, .rw)], .const 0⟩,
  ⟨"ACC_CMD3", 0x9000018, [],
    [(0, 23, .rw), (24, 14, .rw)], .const 0⟩,
  ⟨"ACC_MIG", 0x9000040, [],
    [(0, 16, .rw), (16, 16, .rw)], .const 0x640014⟩,
  ⟨"ACC_STAT", 0x9000048, [],
    [(0, 17, .ro), (32, 17, .ro)], .const 0x1000000010000⟩,
  ⟨"ACC_CHARTER_RANGE", 0x9000080, [(0x8, 8)],
    [(0, 16, .rwl), (16, 16, .rwl)], .const 0⟩,
  ⟨"ACC_CNT_DB_IGN", 0x9000100, [],
    [(0, 48, .rc)], .const 0⟩,
  ⟨"ACC_CNT_INLINE_DISCARD", 0x9000108, [],
    [(0, 48, .rc)], .const 0⟩,
  ⟨"ACC_CNT_EQ_WAIT", 0x9000110, [],
    [(0, 48, .rc)], .const 0⟩,
  ⟨"ACC_CNT_NOTIFY_WAIT", 0x9000118, [],
    [(0, 48, .rc)], .const 0⟩,
  ⟨"ACC_CNT_GEN_DISCARD", 0x9000120, [],
    [(0, 48, .rc)], .const 0⟩,
  ⟨"ACC_CNT_STUB_FWD", 0x9000128, [],
    [(0, 48, .rc)], .const 0⟩,
  ⟨"ACC_STUB0", 0x9001000, [(0x10, 64)],
    [(0, 14, .ro), (15, 1, .w1c), (16, 14, .ro), (32, 23, .ro)], .const 0⟩,
  ⟨"ACC_STUB1", 0x9001008, [(0x10, 64)],
    [(0, 64, .ro)], .const 0⟩,
  ⟨"ACC_BIND0", 0x9100000, [(0x20, 16384)],
    [(0, 3, .rw), (3, 1, .rw), (4, 9, .rw), (16, 11, .rw), (28, 20, .rw), (48, 1, .rw), (49, 1, .rw)], .const 0x10⟩,
  ⟨"ACC_BIND1", 0x9100008, [(0x20, 16384)],
    [(0, 16, .rw), (16, 16, .ro), (32, 3, .ro), (35, 1, .ro)], .const 0⟩,
  ⟨"ACC_BIND2", 0x9100010, [(0x20, 16384)],
    [(0, 16, .rw), (16, 16, .rw), (32, 16, .rw)], .const 0x10⟩,
  ⟨"ACC_BIND3", 0x9100018, [(0x20, 16384)],
    [(0, 48, .rc)], .const 0⟩,
  ⟨"ACC_TLY_USER", 0x9200000, [(0x8, 16384)],
    [(0, 10, .rw), (16, 11, .rw)], .const 0⟩,
  ⟨"ACC_PAGE_ID", 0x100000000000000, [(0x10000, 16384)],
    [(0, 14, .ro), (16, 16, .ro), (32, 3, .ro), (36, 3, .ro)], .const 0⟩,
  ⟨"ACC_RANK_BASE", 0x100000000000008, [(0x10000, 16384)],
    [(0, 64, .rw)], .const 0⟩,
  ⟨"ACC_RANK_COUNT", 0x100000000000010, [(0x10000, 16384)],
    [(0, 25, .rw)], .const 0⟩,
  ⟨"ACC_NOTIFY", 0x100000000000018, [(0x10000, 16384)],
    [(0, 6, .rw), (8, 1, .rw)], .const 0⟩,
  ⟨"ACC_PAGE_ERR", 0x100000000000020, [(0x10000, 16384)],
    [(0, 1, .w1c), (1, 1, .w1c), (2, 1, .w1c), (3, 1, .w1c), (4, 1, .w1c), (5, 1, .w1c)], .const 0⟩]

def regRows11 : List RegRow := [
  ⟨"ACC_RING0", 0x100000000000100, [(0x10000, 16384), (0x20, 64)],
    [(0, 64, .rw)], .const 0⟩,
  ⟨"ACC_RING1", 0x100000000000108, [(0x10000, 16384), (0x20, 64)],
    [(0, 5, .rw), (8, 6, .rw), (16, 1, .rw)], .const 6⟩,
  ⟨"ACC_RING2", 0x100000000000110, [(0x10000, 16384), (0x20, 64)],
    [(0, 32, .ro), (32, 32, .ro)], .const 0⟩,
  ⟨"ACC_RING3", 0x100000000000118, [(0x10000, 16384), (0x20, 64)],
    [(0, 2, .ro), (4, 4, .ro)], .const 0⟩,
  ⟨"ACC_EQ0", 0x100000000001000, [(0x10000, 16384), (0x20, 64)],
    [(0, 64, .rw)], .const 0⟩,
  ⟨"ACC_EQ1", 0x100000000001008, [(0x10000, 16384), (0x20, 64)],
    [(0, 5, .rw), (8, 11, .rw), (20, 1, .rw), (21, 1, .rw)], .const 6⟩,
  ⟨"ACC_EQ2", 0x100000000001010, [(0x10000, 16384), (0x20, 64)],
    [(0, 32, .ro), (32, 32, .ro)], .const 0⟩,
  ⟨"ACC_EQ3", 0x100000000001018, [(0x10000, 16384), (0x20, 64)],
    [(0, 21, .ro), (24, 1, .ro), (25, 1, .ro)], .const 0⟩,
  ⟨"ACC_SLICE_CMD0", 0x100010000000000, [(0x100, 8)],
    [(0, 11, .rw), (16, 4, .rw), (24, 8, .ro), (62, 1, .wo), (63, 1, .ro)], .const 0x8000000000000000⟩,
  ⟨"ACC_SLICE_CMD1", 0x100010000000008, [(0x100, 8)],
    [(0, 20, .rw), (32, 16, .rw)], .const 0⟩,
  ⟨"ACC_SLICE_CMD2", 0x100010000000010, [(0x100, 8)],
    [(0, 64, .rw)], .const 0⟩,
  ⟨"ACC_SLICE_CMD3", 0x100010000000018, [(0x100, 8)],
    [(0, 40, .rw)], .const 0⟩,
  ⟨"MOV_CFG", 0xa000000, [],
    [(0, 6, .rw)], .const 4⟩,
  ⟨"MOV_CNT_BYTES", 0xa000100, [],
    [(0, 48, .rc)], .const 0⟩,
  ⟨"MOV_CNT_EMPTY", 0xa000108, [],
    [(0, 48, .rc)], .const 0⟩,
  ⟨"MOV_CNT_STOP", 0xa000110, [],
    [(0, 48, .rc)], .const 0⟩,
  ⟨"MOV_CNT_CH_WAIT", 0xa000118, [],
    [(0, 48, .rc)], .const 0⟩,
  ⟨"MOV_CTL", 0xa010000, [(0x100, 64)],
    [(0, 1, .wo), (1, 1, .wo)], .const 0⟩,
  ⟨"MOV_SRC", 0xa010008, [(0x100, 64)],
    [(0, 48, .rw)], .const 0⟩,
  ⟨"MOV_DST", 0xa010010, [(0x100, 64)],
    [(0, 48, .rw)], .const 0⟩,
  ⟨"MOV_COUNT", 0xa010018, [(0x100, 64)],
    [(0, 32, .rw)], .const 0⟩,
  ⟨"MOV_LOOP0", 0xa010020, [(0x100, 64), (0x18, 3)],
    [(0, 32, .rw)], .const 1⟩,
  ⟨"MOV_LOOP1", 0xa010028, [(0x100, 64), (0x18, 3)],
    [(0, 48, .rw)], .const 0⟩,
  ⟨"MOV_LOOP2", 0xa010030, [(0x100, 64), (0x18, 3)],
    [(0, 48, .rw)], .const 0⟩]

def regRows12 : List RegRow := [
  ⟨"MOV_STAT", 0xa010068, [(0x100, 64)],
    [(0, 2, .ro), (2, 1, .ro), (8, 8, .ro), (16, 1, .ro), (17, 3, .ro), (32, 14, .ro)], .const 0⟩,
  ⟨"MOV_MOVED", 0xa010070, [(0x100, 64)],
    [(0, 48, .ro)], .const 0⟩,
  ⟨"MOV_EVT", 0xa010078, [(0x100, 64)],
    [(0, 1, .w1c)], .const 0⟩,
  ⟨"LBX_STAGE", 0xb000000, [(0x1000, 128), (0x8, 16)],
    [(0, 6, .rw), (6, 1, .rw), (7, 1, .rw), (15, 33, .rw), (48, 8, .rw)], .lbx⟩,
  ⟨"LBX_ACTIVE", 0xb000080, [(0x1000, 128), (0x8, 16)],
    [(0, 6, .ro), (6, 1, .ro), (7, 1, .ro), (15, 33, .ro), (48, 8, .ro)], .lbx⟩,
  ⟨"LBX_COMMIT", 0xb000100, [(0x1000, 128)],
    [(0, 8, .ro), (8, 4, .ro), (62, 1, .wo), (63, 1, .ro)], .const 0x8000000000000000⟩,
  ⟨"LBX_DENY", 0xb000108, [(0x1000, 128)],
    [(0, 48, .ro), (48, 1, .ro), (49, 1, .ro)], .const 0⟩,
  ⟨"LBX_CNT_DENY", 0xb000110, [(0x1000, 128)],
    [(0, 48, .rc)], .const 0⟩,
  ⟨"HMK_NOW", 0xc000000, [],
    [(0, 64, .ro)], .const 0⟩,
  ⟨"HMK_CFG", 0xc000008, [],
    [(0, 8, .rw), (8, 8, .rw), (16, 1, .rw), (17, 1, .rw), (32, 16, .rw), (48, 16, .rw)], .const 0x1f403e80000fe80⟩,
  ⟨"HMK_STAT", 0xc000010, [],
    [(0, 1, .ro), (1, 1, .ro), (2, 1, .ro), (3, 1, .ro), (4, 1, .ro), (8, 6, .ro), (16, 6, .ro), (24, 8, .ro), (32, 23, .ro)], .const 0x7fffffff3f0000⟩,
  ⟨"HMK_OFFSET", 0xc000018, [],
    [(0, 32, .ro), (32, 32, .ro)], .const 0⟩,
  ⟨"HMK_RATE", 0xc000020, [],
    [(0, 32, .ro)], .const 0⟩,
  ⟨"HMK_SET", 0xc000028, [],
    [(0, 64, .rw)], .const 0⟩,
  ⟨"HMK_CTL", 0xc000030, [],
    [(0, 1, .wo), (1, 1, .wo), (2, 1, .ro)], .const 0⟩,
  ⟨"HMK_EVT", 0xc000038, [],
    [(0, 1, .w1c), (1, 1, .w1c), (2, 1, .w1c), (3, 1, .w1c), (4, 1, .w1c), (5, 1, .w1c)], .const 0⟩,
  ⟨"HMK_PPS_OUT", 0xc000040, [],
    [(0, 32, .rw), (32, 16, .rw), (48, 1, .rw)], .const 0x2710000f4240⟩,
  ⟨"HMK_EXT_OFFSET", 0xc000048, [],
    [(0, 32, .ro)], .const 0⟩,
  ⟨"HMK_CNT_SYNC_RX", 0xc000080, [],
    [(0, 48, .rc)], .const 0⟩,
  ⟨"HMK_CNT_SYNC_BAD", 0xc000088, [],
    [(0, 48, .rc)], .const 0⟩,
  ⟨"HMK_CNT_STEP", 0xc000090, [],
    [(0, 48, .rc)], .const 0⟩,
  ⟨"HMK_CNT_GM_CHANGE", 0xc000098, [],
    [(0, 48, .rc)], .const 0⟩,
  ⟨"HMK_TIMER0", 0xc000100, [(0x10, 8)],
    [(0, 64, .rw)], .const 0⟩,
  ⟨"HMK_TIMER1", 0xc000108, [(0x10, 8)],
    [(0, 1, .rw), (1, 1, .w1c)], .const 0⟩]

def regRows13 : List RegRow := [
  ⟨"HMK_PORT", 0xc001000, [(0x8, 64)],
    [(0, 1, .rw), (1, 1, .rw), (16, 16, .rw)], .const 1⟩,
  ⟨"CLH_PROD", 0xd000000, [],
    [(0, 32, .ro)], .const 0⟩,
  ⟨"CLH_ACK", 0xd000008, [],
    [(0, 32, .rw)], .const 0⟩,
  ⟨"CLH_CFG", 0xd000010, [],
    [(0, 4, .rw), (4, 4, .rw)], .const 0x13⟩,
  ⟨"CLH_STAT", 0xd000018, [],
    [(0, 4, .ro), (4, 4, .ro), (8, 1, .ro), (16, 13, .ro)], .const 0xff⟩,
  ⟨"CLH_MIRROR0", 0xd000020, [],
    [(0, 64, .rw)], .const 0⟩,
  ⟨"CLH_MIRROR1", 0xd000028, [],
    [(0, 3, .rw), (8, 1, .rw), (16, 5, .rw)], .const 0x60000⟩,
  ⟨"CLH_MIRROR2", 0xd000030, [],
    [(0, 32, .ro)], .const 0⟩,
  ⟨"CLH_MIRROR3", 0xd000038, [],
    [(0, 32, .rw)], .const 0⟩,
  ⟨"CLH_CNT_RAISED", 0xd000100, [],
    [(0, 48, .rc)], .const 0⟩,
  ⟨"CLH_CNT_LOST", 0xd000108, [],
    [(0, 48, .rc)], .const 0⟩,
  ⟨"CLH_CNT_MIRROR_LOST", 0xd000110, [],
    [(0, 48, .rc)], .const 0⟩,
  ⟨"CLH_CNT_FLASH", 0xd000118, [],
    [(0, 48, .rc)], .const 0⟩,
  ⟨"CLH_CNT_FLASH_LOST", 0xd000120, [],
    [(0, 48, .rc)], .const 0⟩,
  ⟨"CLH_LAST_FATAL", 0xd000200, [(0x8, 4)],
    [(0, 64, .ro)], .const 0⟩,
  ⟨"CLH_RING", 0xd100000, [(0x20, 4096), (0x8, 4)],
    [(0, 64, .ro)], .const 0⟩,
  ⟨"CLH_REACT", 0xd800000, [(0x8, 65536)],
    [(0, 7, .rwl)], .clhReact⟩,
  ⟨"ASY_CTL", 0xe000000, [],
    [(0, 1, .w1s), (1, 1, .wo)], .const 0⟩,
  ⟨"ASY_CFG", 0xe000008, [],
    [(0, 1, .rw), (1, 1, .rw), (2, 1, .rw), (3, 1, .rw), (4, 1, .rw), (16, 16, .rw)], .const 0x640004⟩,
  ⟨"ASY_KIND", 0xe000010, [(0x8, 4)],
    [(0, 16, .rw), (16, 1, .rw)], .const 0⟩,
  ⟨"ASY_AT", 0xe000030, [],
    [(0, 1, .rw), (1, 63, .rw)], .const 0⟩,
  ⟨"ASY_STAT", 0xe000038, [],
    [(0, 1, .ro), (1, 1, .ro), (2, 2, .ro), (4, 1, .ro)], .const 0⟩,
  ⟨"ASY_TIME", 0xe000040, [],
    [(0, 64, .ro)], .const 0⟩,
  ⟨"ASY_CNT_MISSED", 0xe000048, [],
    [(0, 48, .rc)], .const 0⟩]

def regRows14 : List RegRow := [
  ⟨"ASY_LIST", 0xe010000, [(0x8, 4096)],
    [(0, 48, .rw), (63, 1, .rw)], .const 0⟩,
  ⟨"ASY_SNAP", 0xe020000, [(0x8, 4096)],
    [(0, 64, .ro)], .const 0⟩,
  ⟨"TLY_CNT", 0xf000000, [(0x8, 1024)],
    [(0, 48, .rw)], .const 0⟩,
  ⟨"TLY_SEL", 0xf002000, [(0x8, 1024)],
    [(0, 16, .rw), (16, 8, .rw), (24, 3, .rw), (27, 1, .rw)], .const 0xff0000⟩,
  ⟨"TLY_THRESH", 0xf004000, [(0x8, 1024)],
    [(0, 32, .rw)], .const 0⟩,
  ⟨"TLY_OVF", 0xf006000, [(0x8, 16)],
    [(0, 64, .w1c)], .const 0⟩,
  ⟨"TLY_LATCH_CTL", 0xf006100, [],
    [(0, 32, .rw), (32, 1, .wo)], .const 0⟩,
  ⟨"TLY_LATCH_TIME", 0xf006108, [],
    [(0, 64, .ro)], .const 0⟩,
  ⟨"TLY_LATCHED", 0xf008000, [(0x8, 1024)],
    [(0, 48, .ro)], .const 0⟩]

/-- Every register the spec gives the device. -/
def regRows : List RegRow :=
  regRows0 ++ regRows1 ++ regRows2 ++ regRows3 ++ regRows4 ++ regRows5 ++ regRows6 ++ regRows7 ++ regRows8 ++ regRows9 ++ regRows10 ++ regRows11 ++ regRows12 ++ regRows13 ++ regRows14

/-- The indices that an offset names in a register array, if it names any. -/
def regIndex : List (Nat × Nat) → Nat → Option (List Nat)
  | [], off => if off = 0 then some [] else none
  | (stride, count) :: ds, off =>
    if off / stride < count then (regIndex ds (off % stride)).map (off / stride :: ·) else none

/-- The register that holds an address, with the indices (00 R18, R19). -/
def findReg (addr : Nat) : Option (RegRow × List Nat) :=
  regRows.findSome? fun r =>
    if r.base ≤ addr then (regIndex r.dims (addr - r.base)).map fun ix => (r, ix) else none

end Sys2Proof.Machine
end

