-- ==== Sys2Proof/Machine/State.lean ====
section
/-!
DEFINITION. Machine/State.lean: all the state the spec gives the block, as plain data; the faults and refusals; and the
block right after reset. A table of numbered things (ports, accounts, ...) lists those that differ from their state at
reset, in ascending order of number; INVENTORY.md lists every field with its rule and reset value.
-/
namespace Sys2Proof.Machine

/-- Why a command stops. Raised by FRAME_RECEIVE (Machine/Link.lean) alone. -/
inductive Fault where
  | illFormed   -- a frame without 15 tags and 15 flits (WellFormed.lean). Safe: no agent can send such a command
  deriving DecidableEq, Repr

/-- Why a command has no meaning. -/
inductive Refusal where
  | notModelled (mnemonic : String)   -- raised by an arm of `exec` for a command not modelled. Safe: nothing is claimed
  deriving DecidableEq, Repr

/-- A decoded header flit (02 R43, Table 2.3). -/
structure Header where
  phase : Nat := 0  -- routing phase (02 R43)
  epoch : Nat := 0  -- route-table version (02 R43)
  mark : Bool := false  -- congestion mark (02 R43)
  valiant : Bool := false  -- passes an intermediate group (02 R43)
  dateline : Bool := false  -- crossed the dateline (02 R43)
  viaGroup : Nat := 0  -- intermediate group (02 R43)
  hops : Nat := 0  -- links crossed (02 R553)
  injectTime : Nat := 0  -- Hallmark bits 31:0 at injection (02 R43)
  opcode : Nat := 0  -- opcode (02 R45)
  last : Bool := false  -- highest index of its message (02 R43)
  mcast : Bool := false  -- replicate by mc_group (02 R43)
  visible : Bool := false  -- VISIBLE receipt asked (02 R43)
  poison : Bool := false  -- payload read as poisoned (02 R43)
  length : Nat := 0  -- payload bytes L (02 R42)
  charter : Nat := 0  -- charter (02 R60)
  dstAcct : Nat := 0  -- destination account (02 R43)
  dstEp : Nat := 0  -- destination endpoint (02 R61)
  srcEp : Nat := 0  -- source endpoint (02 R61)
  srcAcct : Nat := 0  -- source account (02 R43)
  msgId : Nat := 0  -- message ID (02 R43)
  pktIndex : Nat := 0  -- packet index (02 R43)
  srcGen : Nat := 0  -- source generation (02 R43)
  mcGroup : Nat := 0  -- multicast group (02 R43)
  key : Nat := 0  -- key (02 R46)
  w5 : Nat := 0  -- operand word 5 (02 R46)
  w6 : Nat := 0  -- operand word 6 (02 R46)
  w7 : Nat := 0  -- operand word 7 (02 R46)
  rsv : Nat := 0  -- reserved bits of words 1 to 4 as received, in their places; senders write 0 (02 R33)
  deriving DecidableEq, Repr

/-- A whole packet (02 R42). -/
structure Packet where
  hdr : Header := {}  -- header (02 R43)
  data : List Byte := []  -- the first L payload bytes (02 R42)
  ecrc : Nat := 0  -- end-to-end CRC of its trailer (02 R49)
  stomped : Bool := false  -- stomped bit of its trailer (02 R49)
  cls : Nat := 0  -- class it arrived in (03 R72)
  port : Nat := 64  -- port it arrived on; 64 when injected here (02 R148)
  rest : List Flit := []  -- the flits after the header as they arrived; none for a packet made here (02 R50)
  links : Nat := 0  -- delivery set of a multicast packet consumed here (04 R148)
  copies : Nat := 0  -- ports that its copies are to go to (04 R148)
  came : Nat := 0  -- device time (ns) at which it was delivered here (05 R184)
  deriving DecidableEq, Repr

/-- A Quicksilver message (02 R52). -/
structure QsMsg where
  type : Nat := 0  -- type (02 R53)
  dst : Nat := 0  -- destination endpoint (02 R52)
  src : Nat := 0  -- source endpoint (02 R52)
  hops : Nat := 0  -- links crossed (02 R553)
  epoch : Nat := 0  -- route-table version (02 R52)
  payload : Nat := 0  -- 64-bit payload (02 R53)
  deriving DecidableEq, Repr

/-- One valid flit slot of a DATA frame (02 R36). -/
structure Slot where
  cls : Nat := 0  -- class (02 R36)
  head : Bool := false  -- header flit (02 R36)
  tail : Bool := false  -- trailer flit (02 R36)
  flit : Flit := 0  -- the 64 bytes (02 R35)
  deriving DecidableEq, Repr

/-- A Fifel cell (02 R55). -/
structure Cell where
  kind : Nat := 0  -- kind (02 R55)
  fvc : Nat := 0  -- Fifel virtual channel (02 R55)
  cseq : Nat := 0  -- sequence (02 R55)
  cack : Nat := 0  -- next expected (02 R55)
  valid : Nat := 0  -- payload bytes (02 R55)
  dest : Nat := 0  -- destination endpoint (02 R55)
  crFvc : Nat := 0  -- credit-return channel (02 R55)
  crCount : Nat := 0  -- cells returned (02 R55)
  data : List Byte := []  -- 52 payload bytes (02 R55)
  deriving DecidableEq, Repr

/-- An IDENT message (03 Table 3.5). -/
structure IdentInfo where
  serial : Nat := 0  -- serial (03 R94)
  endpoint : Nat := 0x7FFFFF  -- device endpoint, all ones while unknown (03 R94)
  port : Nat := 0  -- port number (03 R94)
  role : Nat := 0  -- role (03 R94)
  version : Nat := 0  -- Cuhan version (03 R94)
  maxRate : Nat := 0  -- maximum rate (03 R94)
  maxWidth : Nat := 0  -- maximum width (03 R94)
  reachKm : Nat := 0  -- reach (03 R94)
  challenge : Nat := 0  -- 32-byte challenge (03 R94)
  deriving DecidableEq, Repr

/-- A PARAM message (03 Table 3.5). -/
structure ParamMsg where
  v : Nat := 0  -- V (03 R94)
  floors : List Nat := []  -- floor[0..17] (03 R94)
  caps : List Nat := []  -- cap[0..17] (03 R94)
  e : Nat := 0  -- E (03 R94)
  fresh : Bool := false  -- fresh (03 R101)
  echo : Bool := false  -- echo (03 R554)
  x : Nat := 0  -- expected receive sequence (03 R100)
  occ : List Nat := []  -- occupancy[0..17] (03 R101)
  returned : List Nat := []  -- returned_total[0..17] (03 R81)
  sendTime : Nat := 0  -- Hallmark send time (03 R94)
  turnaround : Nat := 0  -- turnaround, ns (03 R554)
  deriving DecidableEq, Repr

/-- A link-management message (03 Table 3.5, 12 R444). -/
inductive CtrlMsg where
  | ident (m : IdentInfo)  -- IDENT (03 R94)
  | identSig (key sig : Nat)  -- IDENT_SIG: public key and signature (03 R94)
  | param (m : ParamMsg)  -- PARAM (03 R94)
  | creditSync (returned : List Nat)  -- CREDIT_SYNC (03 R94)
  | creditSyncReq  -- CREDIT_SYNC_REQ (03 R94)
  | quiet (body : Nat)  -- QUIET (12 R444)
  | quietAck (body : Nat)  -- QUIET_ACK (12 R444)
  deriving DecidableEq, Repr

/-- A CTRL message waiting to be sent (03 R74). -/
structure CtrlWait where
  msg : CtrlMsg := .creditSyncReq  -- the message (03 R74)
  waited : Nat := 0  -- frame periods waited (03 R74)
  answer : Bool := false  -- it answers a CREDIT_SYNC_REQ (03 R81)
  deriving DecidableEq, Repr

/-- A CTRL message received and not yet acted on (03 R94). -/
structure CtrlArr where
  msg : CtrlMsg := .creditSyncReq  -- the message (03 R94)
  since : List (Nat × Nat) := []  -- credits returned by class since it came (03 R81)
  now : Nat := 0  -- Hallmark as it came (03 R107)
  clk : Nat := 0  -- device time (ns) as it came (03 R554)
  deriving DecidableEq, Repr

/-- The PCS of a port (03 R68, R69). -/
structure Pcs where
  units : List (List Byte) := []  -- frames (or cells) of the group under way, as bytes, oldest first (03 R68)
  scr : Option Nat := none  -- the scrambler's last 58 bits as the group began; none before the stream's first group (03 R68)
  groups : Nat := 0  -- frame groups sent since the last marker group (03 R69)
  mark : Nat := 0  -- frame slots of a marker group still to pass (03 R69)
  rxPos : Nat := 0  -- place in its group of the next frame (or cell) received (03 R68)
  rxBad : Bool := false  -- the codeword that reaches into it was uncorrectable (03 R70)
  cells : Nat := 0  -- cells received since the last whole frame period, on a CELL port (03 R88)
  deriving DecidableEq, Repr

/-- The receiver's packet state of one class inside a packet (02 R56). -/
structure RxPkt where
  id : Nat := 0  -- the model's number of the packet (03 R109)
  total : Nat := 2  -- flits the packet has by R42, at most 66 (02 R42)
  got : Nat := 1  -- flits accepted (02 R42)
  deriving DecidableEq, Repr

/-- One flit kept in Escrow, with what Routing recorded of its packet (03 R109, 04 R134). -/
structure HeldSlot where
  id : Nat := 0  -- the model's number of its packet (03 R109)
  injected : Bool := false  -- the packet was injected here (04 R134)
  arrRole : Nat := 0  -- arrival role (04 R134)
  arrPhase : Nat := 0  -- arrival phase (04 R134)
  src : Nat := 64  -- input port of the packet; 64 when injected here (03 R109)
  slot : Slot := {}  -- tag and flit (03 R76)
  deriving DecidableEq, Repr

/-- Where a packet in the switch core goes (04 R552). -/
inductive RouteTo where
  | undecided  -- no decision yet (04 R552)
  | out (port cls : Nat)  -- queued at an output port in a class (04 R131)
  | here  -- delivered here once whole (04 R122)
  | relay  -- stored by the hall relay once whole (04 R124)
  | mg  -- stored by the MG relay once whole (04 R127)
  | mcast  -- consumed here for multicast once whole (04 R148)
  | drop  -- discarded from header to tail (04 R133)
  deriving DecidableEq, Repr

/-- One packet (or the part of it present) in the switch core, held in the Vault of its input port (03 R77). -/
structure VaultPkt where
  id : Nat := 0  -- the model's number (03 R109)
  cls : Nat := 0  -- class (03 R77)
  hdr : Header := {}  -- header as it leaves (route word restamped) (02 R43)
  flits : List Flit := []  -- flits present, not yet gone, in order (03 R77)
  whole : Bool := false  -- its trailer has arrived or has been forced (03 R110)
  gone : Nat := 0  -- flits that have left (03 R109)
  bad : Bool := false  -- an R51 condition has been found (02 R51)
  forced : Bool := false  -- its trailer was made here, and no credit of the peer's covers it (03 R110)
  dest : RouteTo := .undecided  -- decision (04 R552)
  deriving DecidableEq, Repr

/-- One packet queued at an output port (03 R73). -/
structure TxPkt where
  id : Nat := 0  -- the model's number (03 R109)
  src : Nat := 64  -- input port whose Vault holds its flits; 64 for one injected here (03 R109)
  cls : Nat := 0  -- class it is sent in (03 R72)
  flits : List Flit := []  -- flits not yet sent, when injected here (03 R73)
  started : Bool := false  -- its header flit has been sent (03 R109)
  injected : Bool := false  -- it was injected here (recorded for hand-back) (04 R134)
  arrRole : Nat := 0  -- recorded arrival role (PRT_ROLE encoding) (04 R134)
  arrPhase : Nat := 0  -- recorded arrival phase (04 R134)
  deriving DecidableEq, Repr

/-- Kinds of Ledger entries (06 R216). -/
inductive LKind where
  | posted  -- POSTED (06 R216)
  | unexp  -- UNEXP (06 R216)
  | early  -- EARLY (06 R216)
  | rndv  -- RNDV_SEND (06 R216)
  deriving DecidableEq, Repr

/-- What a source-table entry is for (05 R161). -/
inductive SrcKind where
  | put  -- a PUT (05 R161)
  | get  -- a GET (05 R161)
  | atomic  -- an ATOMIC (05 R161)
  | eager  -- an eager SEND (06 R224)
  | rts  -- a rendezvous header (06 R224)
  | pull  -- a rendezvous get (06 R233)
  | fin  -- the zero-length get that ends a rendezvous (06 R235)
  | aptLoad  -- an Aperture load (05 R204)
  | aptStore  -- an Aperture store (05 R205)
  deriving DecidableEq, Repr

/-- What a flush read is for (08 R315). -/
inductive FlushFor where
  | receipt (src msgId : Nat)  -- a VISIBLE receipt (05 R168)
  | mover (ch : Nat)  -- a Mover completion (10 R375)
  | keyInval  -- a key invalidation (05 R201)
  deriving DecidableEq, Repr

/-- What a non-posted request is for (08 R311). -/
inductive TagFor where
  | desc (a r : Nat)  -- a descriptor read (09 R332)
  | flush (k : FlushFor)  -- a flush read (08 R315)
  | orderFill (k rank : Nat)  -- an order-cache fill (06 R223)
  | outbound (m w : Nat)  -- an outbound-window read of a master, by its Lockbox (08 R300, 10 R388)
  | trans (fn : Nat) (pasid : Option Nat) (page : Nat)  -- a Translation Request (08 R307)
  | aptRank (num : Nat)  -- the rank-table read of an Aperture access (05 R203)
  | host (addr : Nat)  -- a read that a command makes within its step, by its address (08 R311)
  | other  -- any other read (08 R311)
  deriving DecidableEq, Repr

/-- A Clearing-house record (11 R413). -/
structure Record where
  kind : Nat := 0  -- kind (11 R413)
  sev : Nat := 0  -- severity (11 R413)
  src : Nat := 0  -- source (11 R413)
  addr : Nat := 0  -- address (11 R413)
  detail : Nat := 0  -- detail, 48 bits (11 R413)
  time : Nat := 0  -- Hallmark time (11 R413)
  tv : Bool := false  -- HMK_STAT.valid at detection (11 R410)
  lost : Bool := false  -- records were lost immediately before it (11 R414)
  ep : Nat := 0x7FFFFF  -- device endpoint at detection (11 R410)
  deriving DecidableEq, Repr

/-- A Mover pattern (10 R365). -/
structure Pattern where
  base : Nat := 0  -- base address (10 R365)
  elem : Nat := 1  -- element size (10 R365)
  loops : List (Nat × Int) := []  -- (count, stride) from the innermost loop (10 R365)
  deriving DecidableEq, Repr

/-- The provisioning store (13 R470). -/
structure Prov where
  ok : Bool := false  -- it verified and has been applied (14 R500)
  targets : List (Nat × Nat) := []  -- provisioned PRT_TARGET by port (13 R482)
  deriving DecidableEq, Repr

/-- How a consumed descriptor's completion is written (09 R340, R341). -/
structure EvtInfo where
  acct : Nat := 0  -- account (09 R340)
  gen : Nat := 0  -- generation when consumed (09 R342)
  eq : Nat := 0  -- event queue (09 R335)
  ring : Nat := 0  -- ring, or ring of the ORDER that parked it (09 R340)
  idx : Nat := 0  -- descriptor index, or that of the ORDER (05 R210)
  fired : Bool := false  -- ran as a standing order (09 R340)
  cookie : Nat := 0  -- cookie (09 R341)
  ctr : Option Nat := none  -- completion counter when ctr_en = 1 (05 R206)
  num : Nat := 0  -- the model's number of the consumed descriptor (09 R338)
  deriving DecidableEq, Repr

/-- A rank-table entry (02 Table 2.12). -/
structure RankEntry where
  endpoint : Nat := 0  -- endpoint address (02 R62)
  valid : Bool := false  -- in use (02 R62)
  account : Nat := 0  -- destination account (02 R62)
  charter : Nat := 0  -- destination charter (02 R62)
  deriving DecidableEq, Repr

/-- One outstanding operation of the source message table (05 R161). -/
structure SrcMsg where
  id : Nat := 0  -- the model's number of the entry (05 R161)
  hl : Nat := 0  -- host link (05 R162)
  msgId : Nat := 0  -- msg_id (of the current run for a GET) (05 R162)
  firstId : Nat := 0  -- msg_id of the first run (05 R162)
  kind : SrcKind := .put  -- what the entry is for (05 R161)
  ev : EvtInfo := {}  -- its completion (05 R210)
  desc : Desc := 0  -- the staged descriptor (05 R161)
  dst : RankEntry := {}  -- the translation made at consumption (02 R64)
  total : Nat := 0  -- message length N (05 R164)
  nPkts : Nat := 1  -- packets n (05 R164)
  next : Nat := 0  -- next first transmission (05 R164)
  allSent : Bool := false  -- the last first transmission has been sent (05 R173)
  expiries : Nat := 0  -- expiry count (05 R173)
  naks : Nat := 0  -- NAKs counted (05 R175)
  nakWait : List Nat := []  -- packets whose nak_delay_ns runs, once for each E2E_NAK (05 R175)
  resend : List Nat := []  -- packets to resend (05 R175)
  sentAt : Nat := 0  -- device time (ns) of the last packet sent (05 R184)
  echoed : Nat := 0  -- marks echoed by CECHO (05 R185)
  nonce : Nat := 0  -- nonce of an ATOMIC (05 R196)
  runF : Nat := 0  -- first packet index of the current run (05 R189)
  runEnd : Nat := 0  -- index past the current run's end (05 R189)
  runs : List (Nat × Nat × Nat) := []  -- (msg_id, first index, index past the end) of every run sent (05 R191)
  gBase : Nat := 0  -- get window base: every index below it is written (05 R189)
  gBits : List Nat := []  -- indices at or above the base already written (05 R189)
  status : Nat := 0  -- status so far (05 R192)
  seqNo : Nat := 0  -- Ledger sequence of a SEND (06 R224)
  ctx : Nat := 0  -- device context of a SEND or a pull (06 R224)
  rank : Nat := 0  -- destination rank (06 R222)
  pull : Nat := 0  -- the RECV a pull or FIN serves (its match number) (06 R233)
  key : Nat := 0  -- key its packets carry (02 R46)
  roff : Nat := 0  -- remote offset of its first byte (02 R46)
  pat : Pattern := {}  -- local side, as a pattern (05 R198)
  data : List Byte := []  -- the bytes of an Aperture store (05 R205)
  visible : Bool := false  -- VISIBLE asked (05 R168)
  apt : Nat := 0  -- window of an Aperture access (05 R204)
  aptTag : Nat := 0  -- request tag of an Aperture load (05 R204)
  ownRank : Nat := 0  -- source rank that its packets carry (05 R172)
  charter : Nat := 0  -- charter of its account that its requests carry (05 R172)
  spans : List (Nat × Nat) := []  -- GET_REQs sent: first index, and index past the end as sent last (05 R175)
  acked : Bool := false  -- its RECEIPT has come and it is held until its FIN (a rendezvous SEND) (05 R161)
  deriving DecidableEq, Repr

/-- What a form 1 HMK_SYNC carried (02 Table 2.8). -/
structure Form1 where
  hi : Nat := 0  -- Hallmark bits 63:40 (11 R396)
  prio : Nat := 0  -- grandmaster priority (11 R398)
  gm : Nat := 0  -- grandmaster endpoint (11 R398)
  depth : Nat := 0  -- depth in the time tree (11 R399)
  deriving DecidableEq, Repr

/-- One DATA frame kept in Escrow until it is acknowledged (03 R37, R82). -/
structure HeldFrame where
  seq : Nat := 0  -- its sequence, modulo 2^24 (03 R82)
  slots : List HeldSlot := []  -- the flit tags and flits it carried, each with the model's number of its packet (03 R76)
  deriving DecidableEq, Repr

/-- The peer's latest COORD on a port (13 Table 13.5). -/
structure CoordInfo where
  valid : Bool := false  -- a COORD has arrived (13 R476)
  serial : Nat := 0  -- sender serial (13 R476)
  head : Nat := 0  -- head serial (13 R476)
  endpoint : Nat := 0x7FFFFF  -- sender device endpoint (13 R476)
  d0 : Option Nat := none  -- its d0 when valid (13 R476)
  d1 : Option Nat := none  -- its d1 when valid (13 R476)
  upReady : Bool := false  -- up_ready (13 R476)
  service : Bool := false  -- service (13 R476)
  fixed : Bool := false  -- fixed (13 R476)
  deriving DecidableEq, Repr

/-- State of one link-layer port beyond its registers. -/
structure Port where
  escrow : List HeldFrame := []  -- Escrow, oldest first (03 R82)
  rxNext : Nat := 0  -- expected sequence X (03 R84)
  replayQ : List Nat := []  -- sequences still to be resent (03 R86)
  lastReplay : Option Nat := none  -- start of the previous replay, with no release since (03 R86)
  replayFrom : Option Nat := none  -- where the last replay started (03 R86)
  replayAt : Nat := 0  -- device time (ns) at which the last replay started (03 R86)
  ackRunning : Bool := false  -- frames are held and the ack timer runs (03 R87)
  nakPending : Bool := false  -- the next outgoing frame carries nak = 1 (03 R85)
  nakHold : Bool := false  -- NAK state (03 R85)
  nakAt : Nat := 0  -- device time (ns) of the last NAK (03 R85)
  ctrlQ : List CtrlWait := []  -- CTRL messages waiting, oldest first, with frame periods waited (03 R74)
  rrNext : Nat := 0  -- class served last, for the round robin; at first class 0 (DESIGN CHOICE: log entry 105) (03 R75)
  retPend : List (Nat × Nat × Nat) := []  -- credits pending return: class, count, frame period (periods) in which the oldest arose (03 R79)
  returnedTotal : List (Nat × Nat) := []  -- returned_total[c], modulo 2^32 (03 R81)
  receivedTotal : List (Nat × Nat) := []  -- received_total[c], modulo 2^32 (03 R81)
  syncReqGap : Nat := 64  -- frame periods since the last CREDIT_SYNC_REQ, up to 64 (03 R81)
  framesSent : Nat := 0  -- frames sent, for the eighth-frame rule (04 R154)
  periods : Nat := 0  -- frame periods passed, those of marker groups among them (03 R79)
  replayedIn : Nat := 0  -- replayed frames received (02 R41)
  vault : List VaultPkt := []  -- packets in the Vault (03 R77)
  rx : List (Nat × RxPkt) := []  -- packet state by class (02 R56)
  ctrlIn : List CtrlArr := []  -- CTRL messages received and not yet acted on (03 R94)
  pcs : Pcs := {}  -- PCS (03 R68)
  txq : List TxPkt := []  -- packets queued for this output, oldest first (03 R73)
  peerV : Nat := 0  -- peer's V, from PARAM (03 R78)
  peerE : Nat := 0  -- peer's E, from PARAM (03 R94)
  floors : List (Nat × Nat) := []  -- own floors in force, where not 66 (03 R77)
  caps : List (Nat × Nat) := []  -- own caps in force, where not 0 (03 R77)
  outOfService : Bool := false  -- the reset limit has expired (03 R108)
  roleHeld : Bool := false  -- held in DISABLED for exceeding its role's limit (04 R118)
  fresh : Bool := true  -- the next training is fresh (03 R101)
  limitRunning : Bool := false  -- LNK_RESET_LIMIT is running (03 R108)
  everActive : Bool := false  -- has a last ACTIVE period (01 R25)
  lastRate : Nat := 0  -- rate of the last ACTIVE period (01 R25)
  lastWidth : Nat := 0  -- width of the last ACTIVE period (01 R25)
  challenge : Nat := 0  -- own challenge of this stay in IDENT (03 R96)
  drawn : List Nat := []  -- own challenges of every stay in IDENT, latest first (03 R96)
  ident : Option IdentInfo := none  -- peer's latest IDENT of this stay (03 R96)
  peerKey : Nat := 0  -- identity public key from IDENT_SIG (03 R94)
  identSent : Bool := false  -- IDENT and IDENT_SIG sent in this stay (03 R96)
  openSent : Option Nat := none  -- Hallmark at which the opening PARAM was sent (03 R554)
  peerOpen : Option ParamMsg := none  -- peer's opening PARAM (03 R554)
  peerOpenAt : Nat := 0  -- device time (ns) at which it came (03 R554)
  opening : ParamMsg := {}  -- own opening PARAM (03 R554)
  echoed : Option ParamMsg := none  -- the PARAM with echo = 1 received (03 R554)
  resetSets : List (Nat × Nat) := []  -- consecutive valid reset training sets by lane (03 R89)
  pairSets : Nat := 0  -- consecutive training sets with the usable pairs unchanged (03 R92)
  pairsSeen : Nat := 0  -- usable pairs (by local lane) last seen (03 R92)
  peerLocked : Nat := 0  -- peer's rx_locked (03 R93)
  peerTxOk : Nat := 0  -- peer's tx_ok (03 R93)
  laneTimeouts : Nat := 0  -- consecutive LANE_TRAIN timeouts (03 R103)
  noTrainRaised : Bool := false  -- NO_TRAIN raised since the last success (03 R103)
  cellFails : Nat := 0  -- consecutive CELL_LOCK failures (03 R114)
  goodFrames : Nat := 0  -- consecutive good frames or cells in FRAME_LOCK, CELL_LOCK or a wake (03 R92)
  eqRate : Nat := 0  -- rate tried in SPEED_EQ (03 R98)
  probe : Option Nat := none  -- signal pattern of the first probe after entering HELD (03 R92)
  winCorr : List (Nat × Nat) := []  -- corrected symbols by logical lane in this window (03 R90)
  beaconReset : Bool := false  -- the reset in progress is a beacon reset of VIGIL (12 R441)
  quietSent : Bool := false  -- QUIET sent and unanswered (12 R444)
  quietCause : Bool := false  -- a cause to go QUIET remains (12 R444)
  quietRetry : Bool := false  -- the 100 µs retry delay runs (12 R444)
  waking : Bool := false  -- the wake exchange runs (12 R445)
  certWait : Bool := false  -- the DevID check of this ACTIVE period is pending (14 R502)
  coord : CoordInfo := {}  -- peer's latest COORD (13 R476)
  coordSent : Option (List Byte) := none  -- what COORD says on this port, while it is ACTIVE (13 R476)
  joined : Bool := false  -- the HALL link has joined (13 R488)
  deferred : Bool := false  -- the tile pass has deferred the port (13 R483)
  hmkF : Int := 0  -- filtered round trip (11 R397)
  hmkFSet : Bool := false  -- f has been set since the port entered ACTIVE (11 R397)
  hmkDiscards : Nat := 0  -- consecutive discards (11 R397)
  hmkTx : List Nat := []  -- transmit timestamps of own form 0 messages, newest first (11 R396)
  hmkRx : Option Nat := none  -- receive timestamp of the latest form 0 (11 R395)
  hmkForm1 : Option Form1 := none  -- latest form 1, while at most 3 ms old (11 R400)
  cellEscrow : List Cell := []  -- cells kept until cack passes them (03 R113)
  cellNext : Nat := 0  -- next cell sequence (03 R113)
  cellExp : Nat := 0  -- expected cell sequence (03 R113)
  cellReplay : Nat := 0  -- cells of Escrow still to be replayed (03 R113)
  cellCredit : List (Nat × Nat) := []  -- credits held per fvc (03 R113)
  cellOwed : List (Nat × Nat) := []  -- credits to return per fvc (03 R113)
  cellHeld : List (Nat × Nat) := []  -- received cells of each fvc still held (03 R113)
  cellRx : List (Nat × List Cell) := []  -- cells of the packet in reassembly per fvc (02 R55)
  cellTx : List Cell := []  -- cells cut and waiting to be sent (02 R55)
  deriving DecidableEq, Repr

/-- A QS message waiting for an output slot (04 R153, R154). -/
structure QsWait where
  msg : QsMsg := {}  -- the message (04 R153)
  arr : Nat := 0  -- arrival port (04 R153)
  pref : Nat := 0  -- preferred port (04 R153)
  misses : Nat := 0  -- misses counted (04 R153)
  deriving DecidableEq, Repr

/-- A translation-cache entry (08 R308). -/
structure AtcEnt where
  fn : Nat := 0  -- function (08 R307)
  pasid : Option Nat := none  -- PASID (08 R307)
  page : Nat := 0  -- first 4 KiB page (08 R307)
  pages : Nat := 1  -- size in 4 KiB pages (08 R308)
  trans : Nat := 0  -- translated page (08 R307)
  rd : Bool := false  -- read permitted (08 R307)
  wr : Bool := false  -- write permitted (08 R307)
  untransOnly : Bool := false  -- untranslated-only (08 R307)
  deriving DecidableEq, Repr

/-- A host address as a write TLP carried it (08 R315). -/
structure HostAddr where
  hl : Nat := 0  -- host link (08 R315)
  fn : Nat := 0  -- function (08 R315)
  pasid : Option Nat := none  -- PASID (08 R315)
  addr : Nat := 0  -- address of its first DWORD, before translation (08 R315)
  host : Nat := 0  -- that address as it was sent (08 R315)
  xl : Option AtcEnt := none  -- its translation (08 R315)
  deriving DecidableEq, Repr

/-- A posted write that waits for Bus Master Enable, the link or a translation (08 R307, R316). -/
structure HeldWrite where
  fn : Nat := 0  -- function (08 R316)
  pasid : Option Nat := none  -- PASID (08 R307)
  addr : Nat := 0  -- address (08 R307)
  data : List Byte := []  -- bytes (08 R307)
  poison : Bool := false  -- poisoned (05 R169)
  vec : Option Nat := none  -- MSI-X vector to signal once it is written (08 R302)
  deriving DecidableEq, Repr

/-- An entry of the open-message table (05 R165). -/
structure OpenMsg where
  src : Nat := 0  -- src_endpoint (05 R165)
  srcAcct : Nat := 0  -- src_account (05 R171)
  srcGen : Nat := 0  -- src_gen echoed in the RECEIPT (05 R171)
  msgId : Nat := 0  -- msg_id (05 R165)
  dst : Nat := 0  -- dst_endpoint (05 R165)
  acct : Nat := 0  -- destination account (05 R165)
  n : Nat := 1  -- packets (05 R165)
  total : Nat := 0  -- total length (05 R165)
  base : Nat := 0  -- window base b (05 R165)
  bits : List Nat := []  -- indices at or above b received (05 R165)
  status : Nat := 0  -- status of the failed packet with the lowest index (05 R169)
  failIdx : Nat := 0  -- that packet's index (05 R169)
  visible : Bool := false  -- VISIBLE requested (05 R168)
  marks : Nat := 0  -- marked packets (04 R151)
  marksEchoed : Nat := 0  -- marks already echoed (04 R151)
  hole : Bool := false  -- hole timer runs (05 R174)
  echoAt : Option Nat := none  -- device time (ns) of the last CECHO (04 R151)
  wrote : Option HostAddr := none  -- last write of the message (05 R168)
  flush : Bool := false  -- its flush read is outstanding (05 R168)
  single : Bool := false  -- a single-packet message, which takes no table entry (05 R165)
  eager : Option Nat := none  -- number of the Ledger match or entry its payload goes to (06 R228)
  ctr : Option Nat := none  -- completion counter of that key, when it counts (05 R206)
  wait : Option Packet := none  -- its only packet, admitted, whose write waits for the host bus (06 R228)
  deriving DecidableEq, Repr

/-- A completed-message filter slot (05 R180). -/
structure FilterEnt where
  src : Nat := 0  -- src_endpoint (05 R180)
  msgId : Nat := 0  -- msg_id (05 R180)
  live : Bool := false  -- false while reserved, true when completed (05 R180)
  status : Nat := 0  -- recorded status (05 R180)
  atomic : Bool := false  -- made by an atomic (05 R179)
  acct : Nat := 0  -- account it was made for (09 R362)
  deriving DecidableEq, Repr

/-- A receipt-book entry (05 R195). -/
structure BookEnt where
  src : Nat := 0  -- src_endpoint (05 R195)
  msgId : Nat := 0  -- msg_id (05 R195)
  nonce : Nat := 0  -- nonce (05 R195)
  status : Nat := 0  -- status (05 R195)
  prior : Nat := 0  -- prior value (05 R195)
  hl : Nat := 0  -- target's host link (05 R197)
  acct : Nat := 0  -- account it was made for (09 R362)
  atT : Nat := 0  -- Hallmark at execution (05 R197)
  deriving DecidableEq, Repr

/-- A key-table entry (05 Table 5.7). -/
structure KeyEntry where
  base : Nat := 0  -- IOVA of the range (05 R200)
  length : Nat := 0  -- range length (05 R200)
  read : Bool := false  -- get permitted (05 R200)
  write : Bool := false  -- put permitted (05 R200)
  atomic : Bool := false  -- atomic permitted (05 R200)
  valid : Bool := false  -- in use (05 R200)
  ctrEn : Bool := false  -- count completed messages (05 R200)
  tag : Nat := 0  -- tag (05 R200)
  account : Nat := 0  -- owning account (05 R200)
  pasid : Option Nat := none  -- pasid when pasid_valid (05 R200)
  counter : Nat := 0  -- completion counter (05 R200)
  deriving DecidableEq, Repr

/-- A parked standing order (05 R207). -/
structure Order where
  ctr : Nat := 0  -- counter (05 R207)
  threshold : Nat := 0  -- threshold (05 R207)
  desc : Desc := 0  -- the triggered descriptor (05 R207)
  ev : EvtInfo := {}  -- how the fired descriptor completes (05 R208)
  deriving DecidableEq, Repr

/-- A waiting Aperture access (05 R204). -/
structure AptWait where
  hl : Nat := 0  -- host link (05 R204)
  win : Nat := 0  -- window (05 R204)
  tag : Nat := 0  -- the host's request tag (05 R204)
  off : Nat := 0  -- remote offset (05 R203)
  len : Nat := 0  -- length (05 R204)
  store : Option (List Byte) := none  -- data of a store (05 R205)
  num : Nat := 0  -- order in which waits arose (05 R161)
  dst : Option RankEntry := none  -- translation of its window's rank, once it is made (05 R203)
  fn : Nat := 0  -- function it came through (05 R203)
  acct : Nat := 0  -- its window's account (05 R203)
  gen : Nat := 0  -- generation of that account at the access (05 R203)
  rank : Nat := 0  -- its window's rank at the access (05 R203)
  key : Nat := 0  -- its window's key at the access (05 R203)
  visible : Bool := false  -- its window's visible bit at the store (05 R204)
  reading : Bool := false  -- its rank-table read is outstanding (05 R203)
  stale : Bool := false  -- that read's entry has been invalidated since (02 R66)
  deriving DecidableEq, Repr

/-- The running srtt of a congestion context (05 R183, R185). -/
structure CtxWin where
  sent : Nat := 0  -- packets sent in it (05 R183)
  halved : Bool := false  -- the window was halved in it (05 R185)
  nextAt : Nat := 0  -- device time (ns) from which the next packet may be sent (05 R183)
  deriving DecidableEq, Repr

/-- An outstanding flush read (08 R315). -/
structure Flush where
  target : HostAddr := {}  -- the write it follows (08 R315)
  why : FlushFor := .keyInval  -- what waits for it (08 R315)
  tag : Option Nat := none  -- its tag, once it has been issued (08 R311)
  acct : Option Nat := none  -- account it is issued for (08 R314)
  invals : List Nat := []  -- tags of the Invalidate Requests whose completion waits for it (08 R309)
  endsAs : Option Bool := none  -- it ends without a read: true returned, no write having been sent since the link came up; false failed, its PASID being off (08 R290, R315)
  deriving DecidableEq, Repr

/-- A command ring beyond its registers (09 R329). -/
structure Ring where
  staged : List Desc := []  -- descriptors fetched or pushed, from index C on (09 R332)
  fetching : Nat := 0  -- descriptors that the outstanding read asks for; 0 when none is outstanding (09 R332)
  live : List Nat := []  -- numbers of the descriptors consumed and not completed (09 R338)
  fence : Option (EvtInfo × List Nat) := none  -- the FENCE that holds the ring, and what it still waits for (09 R338)
  fenceAll : Bool := false  -- that FENCE has scope 1 (09 R338)
  pushed : List (Nat × Desc) := []  -- descriptors pushed inline beyond those staged, by index (09 R333)
  stopNotice : Bool := false  -- its RING_STOPPED notice is still unwritten (09 R337)
  deriving DecidableEq, Repr

/-- A waiting notice (09 R344). -/
structure Notice where
  acct : Nat := 0  -- account (09 R344)
  kind : Nat := 0  -- event kind (09 R344)
  id : Nat := 0  -- id (09 R341)
  w2 : Nat := 0  -- word 2 (09 R341)
  w3 : Nat := 0  -- word 3 (09 R341)
  ring : Nat := 0  -- ring (09 R340)
  deriving DecidableEq, Repr

/-- An account beyond its registers (09). -/
structure Acct where
  rings : List (Nat × Ring) := []  -- its rings (09 R329)
  fired : List (Desc × EvtInfo) := []  -- fired descriptors not yet run, ahead of ring descriptors (05 R208)
  firedLive : List Nat := []  -- numbers of the fired descriptors run and not completed (09 R338)
  deficit : Int := 0  -- deficit in bytes (09 R351)
  minBucket : Int := 524288  -- min bucket, in bits (09 R354)
  maxBucket : Int := 524288  -- max bucket, in bits (09 R354)
  weight : Nat := 16  -- weight in force for the running round (09 R355)
  minRate : Nat := 0  -- min_rate in force for the running round (09 R355)
  maxRate : Nat := 0  -- max_rate in force for the running round (09 R355)
  saved : Bool := false  -- a SAVE has completed since FREEZE (09 R349)
  drain : Nat := 0  -- 0 none, 1 a privileged account draining, 2 waiting for R545, 3 generation raised by a 65th notice and the rest still to be done (09 R358)
  removing : Bool := false  -- RESETTING ends in REMOVED (09 R349)
  held : Bool := false  -- work waits in BME_HOLD (08 R316)
  blocked : Bool := false  -- its next item, tried in this cycle, waits for something other than its allowance (09 R354)
  freezing : Bool := false  -- FREEZE running, quiesced not yet 1 (09 R360)
  turn : Nat := 63  -- ring served last, for the round robin; at first ring 63 (DESIGN CHOICE: log entry 105) (09 R351)
  deriving DecidableEq, Repr

/-- A running ACC_CMD or ACC_SLICE_CMD (09 R349). -/
structure AcctCmd where
  cmd : Nat := 0  -- command code (09 R349)
  acct : Nat := 0  -- account (09 R349)
  slice : Option Nat := none  -- host link when it came by ACC_SLICE_CMD (09 R327)
  addr : Nat := 0  -- image buffer (09 R362)
  len : Nat := 0  -- buffer length (09 R362)
  deriving DecidableEq, Repr

/-- A Ledger list entry (06 Table 6.2). -/
structure LEntry where
  num : Nat := 0  -- the model's number of the entry (admission order) (06 R216)
  kind : LKind := .posted  -- POSTED, UNEXP, EARLY or RNDV_SEND (06 R216)
  ctx : Nat := 0  -- device context (06 R216)
  mbits : Nat := 0  -- match bits (06 R216)
  ignore : Nat := 0  -- ignore mask (06 R216)
  rank : Nat := 0  -- source (or destination) rank (06 R216)
  anySource : Bool := false  -- any_source (06 R216)
  seqNo : Nat := 0  -- post sequence, or the 16-bit sequence of UNEXP and EARLY (06 R219)
  rts : Bool := false  -- header of a rendezvous (06 R216)
  complete : Bool := false  -- eager payload complete (06 R229)
  buf : Nat := 0  -- buffer, overflow or source-offset address (06 R216)
  len : Nat := 0  -- buffer or message length (06 R216)
  pattern : Bool := false  -- buf is a pattern record (06 R216)
  pat : Pattern := {}  -- that record, as read at consumption (10 R369)
  key : Nat := 0  -- source key (06 R216)
  msgId : Nat := 0  -- msg_id (06 R216)
  src : Nat := 0  -- source (or destination) endpoint (06 R216)
  srcAcct : Nat := 0  -- source account (06 R234)
  charter : Nat := 0  -- source charter (06 R233)
  acct : Nat := 0  -- owning account (06 R216)
  ovf : Option Nat := none  -- overflow buffer number of its reservation (06 R229)
  adm : Nat := 0  -- admission sequence (06 R216)
  slot : Nat := 0  -- its index in the spill area (06 R216)
  ev : EvtInfo := {}  -- completion of the RECV or SEND (06 R245)
  deriving DecidableEq, Repr

/-- A match made and not yet completed (06 R228, R230, R233). -/
structure LMatch where
  num : Nat := 0  -- number (06 R228)
  recv : LEntry := {}  -- the RECV (06 R228)
  hdr : LEntry := {}  -- the header (06 R228)
  mode : Nat := 0  -- 0 eager into the posted buffer, 1 copy from overflow, 2 pull, 3 FIN waiting for an entry, 4 pull waiting for an entry (06 R228)
  status : Nat := 0  -- status so far: HOST_ERROR, ADDRESS (06 R228)
  dst : RankEntry := {}  -- where its pull goes (06 R233)
  deriving DecidableEq, Repr

/-- An overflow buffer (06 R238). -/
structure OvfBuf where
  num : Nat := 0  -- number (06 R238)
  ctx : Nat := 0  -- device context (06 R238)
  base : Nat := 0  -- IOVA (06 R238)
  len : Nat := 0  -- length (06 R238)
  fill : Nat := 0  -- fill point (06 R229)
  live : Nat := 0  -- reservations not released (06 R230)
  retired : Bool := false  -- retired (06 R229)
  ev : EvtInfo := {}  -- where OVF_RETIRED goes (06 R245)
  deriving DecidableEq, Repr

/-- An order-table entry (06 Table 6.3), as the order cache holds it. -/
structure OrderEnt where
  nextSend : Nat := 0  -- next_send (06 R222)
  expected : Nat := 0  -- expected (06 R222)
  outstanding : Nat := 0  -- outstanding (06 R222)
  early : Nat := 0  -- early bitmap (06 R222)
  deriving DecidableEq, Repr

/-- A match context beyond its registers (06). -/
structure CtxRt where
  order : List (Nat × OrderEnt) := []  -- cached order entries by rank (06 R223)
  filling : List Nat := []  -- ranks whose fill read is outstanding (06 R223)
  stuck : Bool := false  -- the header at its head waits for an order entry or the host bus (06 R221)
  fell : List Nat := []  -- ranks whose outstanding fell while their fill read was in flight (06 R224)
  nextAdm : Nat := 0  -- next admission sequence, modulo 2^32 (06 R216)
  ovfEmptySent : Bool := false  -- OVF_EMPTY written since the last overflow buffer (06 R229)
  deriving DecidableEq, Repr

/-- An up slot (07 R253, R262, R268). -/
structure UpSlot where
  opseq : Nat := 0  -- operation sequence (07 R262)
  idx : Nat := 0  -- segment index (07 R253)
  inputs : List Nat := []  -- inputs whose bit is set: child port p, or 64 + leaf host link (07 R262)
  expInputs : List Nat := []  -- the same for the exponent segment (07 R262)
  acc : List (Nat × Int) := []  -- combined elements, pairs or lanes: a kind (0 a number, 1 to 4 the sentinels of R271) and a value (07 R262)
  exps : List Nat := []  -- combined exponent codes (07 R268)
  oper : Nat := 0  -- operator of its data segment (07 R261)
  et : Nat := 0  -- element type (07 R261)
  mode : Nat := 0  -- mode (07 R261)
  poison : Bool := false  -- some input came poisoned (02 R43)
  sent : Bool := false  -- sent on, or taken over by the down-phase (07 R263)
  expSent : Bool := false  -- exponent segment sent on (07 R268)
  rel : Bool := false  -- released, the indices below it not all (07 R253)
  owed : List (Nat × Nat) := []  -- receipts held back: edge and segment index as the segment carried it (07 R254)
  deriving DecidableEq, Repr

/-- A down slot (07 R253, R264). -/
structure DnSlot where
  opseq : Nat := 0  -- operation sequence (07 R262)
  idx : Nat := 0  -- segment index (07 R253)
  exps : Option (List Nat) := none  -- block exponents, once they have come (07 R268)
  seg : Option (List Nat) := none  -- elements or pairs, once they have come (07 R264)
  oper : Nat := 0  -- operator (07 R261)
  et : Nat := 0  -- element type (07 R261)
  mode : Nat := 0  -- mode (07 R261)
  poison : Bool := false  -- it came poisoned (02 R43)
  ports : Nat := 0  -- ports of its group's mask as the segment was consumed (04 R148)
  links : Nat := 0  -- host links of its group as the segment was consumed: its delivery set (04 R148)
  expSent : Bool := false  -- the copies of the exponent segment have been sent (07 R264)
  sent : Bool := false  -- the copies of the segment have been sent (07 R264)
  segTo : List Nat := []  -- children to which the segment has been sent (07 R264)
  leaves : List Nat := []  -- leaf host links that have written or discarded it (07 R265)
  rel : Bool := false  -- released, the indices below it not all (07 R253)
  owed : List Nat := []  -- receipts to the parent held back: segment index as the segment carried it (07 R254)
  deriving DecidableEq, Repr

/-- A segment kept until its receipt (07 R263). -/
structure HeldSeg where
  down : Bool := false  -- down-phase (07 R263)
  edge : Nat := 0  -- 64 for the parent, else the child port (07 R252)
  idx : Nat := 0  -- segment index (with 2^23 for an exponent segment) (07 R263)
  opseq : Nat := 0  -- operation sequence (07 R263)
  resends : Nat := 0  -- resends made (07 R263)
  waiting : Bool := false  -- not sent yet, because its edge is stalled (07 R252)
  pkt : Packet := {}  -- the packet (07 R263)
  deriving DecidableEq, Repr

/-- A COLL in progress at a leaf (07 R265). -/
structure LeafOp where
  hl : Nat := 0  -- host link (07 R265)
  ev : EvtInfo := {}  -- its completion (07 R283)
  op : Nat := 0  -- operation (07 R255)
  oper : Nat := 0  -- operator (07 R256)
  et : Nat := 0  -- element type (07 R256)
  mode : Nat := 0  -- mode (07 R256)
  opseq : Nat := 0  -- operation sequence (07 R259)
  count : Nat := 0  -- count (07 R258)
  root : Nat := 0  -- root leaf endpoint (07 R258)
  src : Pattern := {}  -- source, as a pattern (07 R258)
  dst : Pattern := {}  -- destination, as a pattern (07 R258)
  startAt : Option Nat := none  -- start time not yet reached (07 R266)
  written : List Nat := []  -- down segments written or discarded (07 R265)
  fed : List Nat := []  -- own up segments combined here (with 2^23 for exponent segments) (07 R265)
  poison : Bool := false  -- its source was read as poisoned (02 R43)
  status : Nat := 0  -- status so far (07 R284)
  vals : List Nat := []  -- elements or pairs read at the start (07 R270)
  starved : Bool := false  -- a segment of it waits for its account's allowance (09 R352)
  deriving DecidableEq, Repr

/-- A tree beyond its registers (07). -/
structure TreeRt where
  leafNext : List (Nat × Nat) := []  -- next sequence of each leaf (07 R259)
  ops : List LeafOp := []  -- COLLs in progress (07 R265)
  up : List UpSlot := []  -- up slots (07 R253)
  dn : List DnSlot := []  -- down slots (07 R253)
  upLo : List (Nat × Nat) := []  -- lo of the up-phase, by operation sequence (07 R253)
  dnLo : List (Nat × Nat) := []  -- lo of the down-phase, by operation sequence (07 R253)
  cur : Nat := 0  -- current operation sequence (07 R266)
  doneOps : List Nat := []  -- operations completed here by a leaf or released by tokens, not yet left behind (07 R265 to R267)
  skipped : List Nat := []  -- operations left behind with no leaf's COLL complete and no release (07 R259, R267)
  held : List HeldSeg := []  -- segments unreceipted (07 R263)
  arrived : List Nat := []  -- arrivals that have come: operation sequence × 128 + child port (07 R267)
  arrSent : List Nat := []  -- operations whose arrival has been sent and not released (07 R267)
  abortWait : List (Nat × Nat) := []  -- edges whose abort answer is awaited: own port, peer device (07 R279)
  abortSeq : Nat := 0  -- operation sequence of those abort tokens (07 R279)
  deriving DecidableEq, Repr

/-- A non-posted request tag (08 R311). -/
structure Tag where
  hl : Nat := 0  -- host link (08 R311)
  tag : Nat := 0  -- tag (08 R311)
  fn : Nat := 0  -- function (08 R311)
  acct : Option Nat := none  -- account it was issued for (08 R314)
  gen : Nat := 0  -- generation it was issued for (08 R314)
  quarantined : Bool := false  -- in quarantine (08 R313)
  why : TagFor := .other  -- what the read is for (08 R311)
  xl : Option AtcEnt := none  -- the translation it uses (08 R309)
  invals : List Nat := []  -- tags of the Invalidate Requests whose completion waits for it (08 R309)
  deriving DecidableEq, Repr

/-- A Translation Request outstanding, or answered and not yet used (08 R307, R310). -/
structure AtsReq where
  fn : Nat := 0  -- function (08 R307)
  pasid : Option Nat := none  -- PASID (08 R307)
  page : Nat := 0  -- page (08 R307)
  stale : Bool := false  -- an Invalidate Request covered it since (08 R310)
  answer : Option AtcEnt := none  -- an answer that only the waiting request may use (08 R310)
  denied : Bool := false  -- the answer denied the access (08 R307)
  deriving DecidableEq, Repr

/-- An Invalidate Request not yet completed (08 R309). -/
structure InvalReq where
  itag : Nat := 0  -- its tag (08 R309)
  fn : Nat := 0  -- function (08 R309)
  deriving DecidableEq, Repr

/-- An Invalidate Request that waits in the posted receive queue of its host link (16 R547). -/
structure HeldInval where
  fn : Nat := 0  -- function (08 R309)
  itag : Nat := 0  -- its tag (08 R309)
  pasid : Option Nat := none  -- its PASID (08 R309)
  all : Bool := false  -- Global Invalidate (08 R309)
  page : Nat := 0  -- first page of its range (08 R309)
  pages : Nat := 0  -- pages of its range (08 R309)
  deriving DecidableEq, Repr

/-- A PCIe function's state (08). -/
structure Fn where
  cfg : List (Nat × Nat) := []  -- configuration bytes written, by offset (dwords) (08 R293)
  msixPend : List Nat := []  -- pending vectors (08 R302)
  msixMask : List Nat := []  -- vectors unmasked (every vector is masked at reset, as the PCIe Base Specification) (08 R302)
  bme : Bool := false  -- Bus Master Enable (08 R316)
  msixEn : Bool := false  -- MSI-X Enable (08 R302)
  fnMask : Bool := false  -- MSI-X Function Mask (08 R302)
  intxDis : Bool := false  -- Interrupt Disable (08 R304)
  d3 : Bool := false  -- in D3hot (08 R320)
  ats : Bool := false  -- ATS Enable (08 R307)
  pasidEn : Bool := false  -- PASID Enable (08 R290)
  cto : Nat := 0  -- Completion Timeout Value (08 R312)
  tag10 : Bool := false  -- 10-Bit Tag Requester Enable (08 R311)
  extTag : Bool := true  -- Extended Tag Field Enable (08 R311)
  mrrs : Nat := 512  -- Max_Read_Request_Size (08 R290)
  mps : Nat := 128  -- Max_Payload_Size (08 R290)
  pmeEn : Bool := false  -- PME_En (15 R533)
  pme : Bool := false  -- a PME is pending (15 R533)
  resetting : Bool := false  -- in function-level reset (08 R317)
  aerUnc : Nat := 0  -- AER uncorrectable errors logged (bit positions: PCIe Base Specification, log entry 12) (08 R305)
  aerCor : Nat := 0  -- AER correctable errors logged (log entry 12) (08 R305)
  aerFirst : Nat := 0  -- AER First Error Pointer (log entry 12) (08 R305)
  aerHdr : Nat := 0  -- AER Header Log, 128 bits (log entry 12) (08 R305)
  devSta : Nat := 0  -- error bits 3:0 of Device Status (log entry 12) (08 R305)
  pciSta : Nat := 0  -- error bits of Status: 8 and 11 to 15 (log entry 12) (08 R305)
  drainBme : Bool := false  -- in reset, its drain may use the bus (08 R318)
  deriving DecidableEq, Repr

/-- A host link beyond its registers (08). -/
structure Hl where
  ready : Bool := false  -- configuration space ready (08 R295)
  lastWrite : Option HostAddr := none  -- the last write TLP since the data link came up (08 R315)
  heldWrites : List HeldWrite := []  -- posted writes that wait, oldest first (08 R316)
  vfEnable : Bool := false  -- VF Enable (08 R292)
  numVfs : Nat := 0  -- NumVFs (09 R328)
  ltrEn : Bool := false  -- PF0 LTR Mechanism Enable (08 R289)
  intx : Bool := false  -- PF0's INTx level (08 R304)
  doeInt : Bool := false  -- DOE Interrupt Status (08 R303)
  trained : Bool := false  -- the link has trained since PERST_N rose (08 R291)
  style : Bool := false  -- account style that it trained with: true slices (08 R291)
  atc : List AtcEnt := []  -- translation cache, most recently used first (08 R308)
  ats : List AtsReq := []  -- Translation Requests outstanding, or answered for the request that waits (08 R307)
  once : List AtcEnt := []  -- translations that the requests that waited for them use, never cached (08 R310)
  tagWaits : List (Nat × TagFor) := []  -- requests whose wait for a tag has been counted: function, and what each is for (08 R311)
  invals : List InvalReq := []  -- Invalidate Requests outstanding (08 R309)
  heldInvals : List HeldInval := []  -- Invalidate Requests that wait while 32 are outstanding, oldest first (16 R547)
  draining : List Nat := []  -- functions draining (08 R318)
  doe : Option Nat := none  -- DOE object type in progress (08 R322)
  drrRound : Option Nat := none  -- account visited last in the running round (09 R351)
  deriving DecidableEq, Repr

/-- A Mover channel beyond its registers (10). -/
structure MovCh where
  ev : EvtInfo := {}  -- completion of the running MOVE (10 R378)
  gen : Nat := 0  -- generation it runs under (10 R380)
  flush : Bool := false  -- flush read outstanding (10 R375)
  stop : Option Nat := none  -- status that stopped it (10 R376)
  desc : Desc := 0  -- the running MOVE (10 R378)
  src : Pattern := {}  -- source side (10 R378)
  dst : Pattern := {}  -- destination side (10 R378)
  silent : Bool := false  -- freed without an event (10 R380)
  todo : Bool := false  -- the walk of its runs is not over (10 R375)
  lastWrite : Option HostAddr := none  -- last write of the transfer (10 R375)
  deriving DecidableEq, Repr

/-- A register channel's write of a register whose write is a command of its own, out on the local bus and not yet acted on (10 R372). -/
structure MovWrite where
  ch : Nat := 0  -- channel (10 R372)
  addr : Nat := 0  -- address of the register (10 R372)
  v : Nat := 0  -- the register's value as the write leaves it (00 R4)
  deriving DecidableEq, Repr

/-- A MOVE that waits for a descriptor channel (10 R379). -/
structure MoveWait where
  desc : Desc := 0  -- the MOVE (10 R379)
  ev : EvtInfo := {}  -- its completion (10 R379)
  src : Pattern := {}  -- source side (10 R378)
  dst : Pattern := {}  -- destination side (10 R378)
  deriving DecidableEq, Repr

/-- Hallmark beyond its registers (11). -/
structure Hmk where
  frac : Int := 0  -- fraction of the count, in units of 2^-32 quarter-nanoseconds (11 R392)
  good : Nat := 0  -- consecutive samples with (11 R402)
  bad : Nat := 0  -- consecutive samples with (11 R402)
  extEdges : Nat := 0  -- consecutive good PPS edges (11 R405)
  lastEdge : Option Nat := none  -- device time (ns) of the previous edge (11 R405)
  extLost : Bool := false  -- external reference lost (11 R405)
  gmRecAt : Option Nat := none  -- device time (ns) of the last HMK_GM_CHANGE (11 R400)
  ppsFall : Option Nat := none  -- HMK_PPS_OUT is high, until this device time (ns) (11 R407)
  sub : Nat := 0  -- quarter-nanoseconds of the running REFCLK_AON cycle that have been seen to pass, 0 to 159 (11 R392)
  prev : Nat := 0  -- the count before the last REFCLK_AON cycle (11 R407, R432)
  ppsMark : Option Nat := none  -- multiple of the period for which HMK_PPS_OUT last rose (11 R407)
  tlyMark : Option Nat := none  -- multiple of the period for which Tally was last copied (11 R432)
  periodAt : Nat := 0  -- device time (ns) of the last HMK_SYNC_PERIOD (11 R404)
  capturedAt : Option Nat := none  -- device time (ns) of Assay's last capture (11 R422)
  deriving DecidableEq, Repr

/-- Clearing house beyond its registers (11). -/
structure Clh where
  live : List (Nat × Nat) := []  -- ring slots holding an uncleared record: slot to kind (11 R414)
  lostNext : Bool := false  -- the next record stored has lost = 1 (11 R414)
  flashQ : List Record := []  -- flash queue (11 R419)
  latch : Bool := false  -- FAULT_N latch in AON (true = low) (11 R417)
  latchHeld : Bool := false  -- a low level from before the internal reset is still held (11 R417)
  lastAt : List (Nat × Nat) := []  -- device time (ns) of the last record of each rate-limited kind (04 R133)
  deriving DecidableEq, Repr

/-- Power block beyond its registers (12). -/
structure Pwr where
  leases : List (Nat × Nat) := []  -- running leases: domain × 2 + (0 timer, 1 wake) to device time of casting (12 R434)
  dropping : List Nat := []  -- domains whose drop delay runs (12 R438)
  retrying : List Nat := []  -- domains waiting 1 ms to retry a wake (12 R448)
  wakeFrom : List (Nat × Nat) := []  -- domains waking, and the state (PWR_DOM code) each wakes from (12 R447)
  relPend : List Nat := []  -- pad releases written before logic ready (12 R451)
  avsBusy : List (Nat × Nat) := []  -- rail to target of the running request (12 R452)
  avsManual : List Nat := []  -- rails whose running request PWR_AVS_CTL made (12 R453)
  avsHold : List (Nat × Nat) := []  -- rail to the device time (ns) at which its 1 ms hold after a failure ends (12 R452)
  tripNew : Bool := false  -- a trip whose THERM_TRIP record has not been queued (12 R458)
  avsFailRaise : List Nat := []  -- rails whose last raise failed (12 R454)
  hot : Bool := false  -- throttled by temperature (12 R457)
  alertHot : Bool := false  -- a sensor is at or above alert_c (12 R458)
  pwrfail : Bool := false  -- the response of R459 is in force (12 R459)
  pwrfailPin : Bool := false  -- PWRFAIL_N is low (12 R459)
  lossArea : List Record := []  -- the power-loss area, at most 64 records (12 R459)
  tripped : Bool := false  -- tripped since POR_N last rose (12 R458)
  deriving DecidableEq, Repr

/-- Reset and bring-up beyond its registers (13). -/
structure Boot where
  por : Bool := false  -- POR_N low or VDD_AON below level (COLD) (13 R464)
  railStep : Nat := 1  -- rail step in progress, 1 to 5; 0 none (13 R469)
  railsUp : Bool := false  -- every rail is up (13 R469)
  en : List Nat := []  -- EN_ outputs driven high: 0 EN_CORE, 1 EN_SDS, 2 EN_SRAM, 3 EN_HB (13 R469)
  resetDue : Option Nat := none  -- an internal device reset has been called for, with its TOP_RESET_CAUSE code (13 R467)
  bootFault : Nat := 0  -- banks (as bits) that the ROM rejected in this boot (14 R517)
  fuses : Option Fuses := none  -- the fuses' contents, once read (14 R495)
  udsHidden : Bool := false  -- the ROM has made the unique device secret unreadable (14 R494)
  prov : Prov := {}  -- the provisioning store's contents as read at stage 0x7 (13 R470)
  head : Nat := 0  -- head serial (13 R478)
  d0 : Option Nat := none  -- inferred d0 (13 R478)
  d1 : Option Nat := none  -- inferred d1 (13 R478)
  assigned : Option (List (Nat × Nat × Nat)) := none  -- what the head has assigned, once it has: peer serial, dimension, value (13 R478)
  keys : List Nat := []  -- known group keys, ascending (13 R479)
  clash : List Nat := []  -- coordinates (0 d0, 1 d1) for which two different values have come (13 R478)
  plan : Option (List (Nat × Nat)) := none  -- cabling plan in force: serial to endpoint (13 R475)
  adverts : List (Nat × List Nat) := []  -- latest ADVERT items by sender endpoint (04 R142)
  upgrading : Bool := false  -- upgrade has started (13 R482)
  tileOn : List Nat := []  -- tiles whose pass has begun (13 R483)
  passing : List (Nat × Nat) := []  -- tile to the port its pass is resetting (13 R483)
  tilePend : List (Nat × List Nat) := []  -- upgrade ports still to be taken, per tile (13 R483)
  requestHold : Bool := true  -- the 65,536 µs hold runs (05 R163)
  floods : List (Nat × Nat) := []  -- (epoch, T) pairs flooded (04 R146)
  asyFloods : List (Nat × Nat) := []  -- ASSAY_AT payloads flooded (11 R425)
  deriving DecidableEq, Repr

/-- A main image that is being activated (14 R509). -/
structure FwImg where
  bank : Nat := 0  -- flash bank (14 R509)
  gen : Nat := 0  -- generation (14 R499)
  svn : Nat := 0  -- security version (14 R499)
  meas : Nat := 0  -- SHA-512 of its body (14 R503)
  fmt : Nat := 0  -- hand-over format (14 R499)
  res : List Byte := []  -- resident section (14 R499)
  deriving DecidableEq, Repr

/-- An SPDM session (14 R503). -/
structure SpdmSess where
  id : Nat := 0  -- session identifier (14 R503)
  est : Bool := false  -- FINISH has completed (14 R503)
  reqKey : Nat := 0  -- AES-256-GCM key of the requester's direction (14 R503)
  rspKey : Nat := 0  -- AES-256-GCM key of the responder's direction (14 R503)
  deriving DecidableEq, Repr

/-- Where an answer of Izger goes (08 R322, R323; 14 R503). -/
inductive MgmtTo where
  | doe (n : Nat)  -- PF0's DOE mailbox of a host link (08 R322)
  | vdm (n req : Nat)  -- a Vendor-Defined Type 1 message of PF0 of a host link, routed to a requester ID (08 R323)
  | bus  -- the management bus (13 R471)
  | mailbox  -- IZG_MBOX_OUT (14 Table 14.13)
  deriving DecidableEq, Repr

/-- An MCTP message that carries SPDM (14 R503). -/
structure MctpMsg where
  typ : Nat := 5  -- message type: 5 SPDM, 6 secured (14 R503)
  from_ : MgmtTo := .bus  -- where it came from, and its answer goes (08 R323)
  deriving DecidableEq, Repr

/-- An SPDM connection (14 R503). -/
structure SpdmConn where
  chan : Nat := 0  -- host link of a DOE, 8 for MCTP (14 R503)
  negotiated : Nat := 0  -- 1 after GET_VERSION, 2 after GET_CAPABILITIES, 3 after NEGOTIATE_ALGORITHMS (14 R503)
  sessions : List SpdmSess := []  -- its sessions (14 R503)
  deriving DecidableEq, Repr

/-- Izger beyond its registers (14). -/
structure Izg where
  fwRegion : Nat := 0  -- firmware region of the active pair (14 R492)
  region : List (List Byte) := [[], []]  -- contents of the firmware regions, at most 2 MiB each (14 R492, R499)
  fmt : Nat := 0  -- hand-over format of the running firmware (14 R509)
  loading : Option Nat := none  -- bank being loaded (14 R508)
  activating : Option FwImg := none  -- image the standby pair has verified for an ACTIVATE (14 R509)
  pairFailed : Bool := false  -- a pair has failed since activation (14 R510)
  watch : List Nat := [0, 1]  -- pairs whose watchdog runs (14 R491)
  testing : Option Nat := none  -- pair in the self-test that follows its failure (14 R491)
  selfTest : List Nat := [0, 1]  -- pairs in the self-test that follows a reset of the device (14 R491)
  ckSpdm : List SpdmConn := []  -- SPDM connections in the last checkpoint (14 R490)
  ckCerts : List (Nat × Nat) := []  -- certificate cache in the last checkpoint (14 R490)
  sliceTest : Option Nat := none  -- slice swapped out and being self-tested (14 R512)
  chain : List Byte := []  -- DevID certificate and CA chain, as the flash holds them (14 R505)
  mctpIn : List MctpMsg := []  -- MCTP messages carrying SPDM that wait, oldest first (14 R503)
  svn1 : Nat := 0  -- security version of the running first stage (14 R503)
  bankValid : Bool := false  -- a bank-control record is valid (14 R507)
  bankState : List Nat := [0, 0]  -- bank states of the current bank-control record (14 R506)
  bankGen : List Nat := [0, 0]  -- generations (14 R506)
  bankSvn : List Nat := [0, 0]  -- security versions (14 R506)
  bankTries : Nat := 0  -- tries of a PENDING bank (14 R506)
  bankSeq : Nat := 0  -- sequence of the current record (14 R506)
  bankSec : Nat := 1  -- sector that holds the current record (14 R506)
  certs : List (Nat × Nat) := []  -- certificate cache, most recently used first: (serial, key) (14 R502)
  devSeed : Option (List Byte) := none  -- DevID private key, while it is held (14 R494, R495)
  aliasSeed : Option (List Byte) := none  -- alias private key, while it is held (14 R494, R495)
  mg : List Packet := []  -- Izger's MG receive store, at most 64 (04 R127)
  spdm : List SpdmConn := []  -- SPDM connections and sessions (14 R503)
  summary : List Record := []  -- flash summary, newest last, at most 16,384 (11 R419)
  repairQ : List (Nat × Nat) := []  -- sparings not yet in the flash repair map (14 R515)
  repairMap : List (Nat × Nat) := []  -- flash repair map: (bank, row) (14 R515)
  rows : List ((Nat × Nat) × Nat) := []  -- corrected errors by (bank, row) since POR (14 R514)
  spared : List (Nat × Nat) := []  -- rows redirected to spares (14 R514)
  deriving DecidableEq, Repr

/-- A QS message with the port it arrived on; 64 for one sent from here (04 R155). -/
structure QsArr where
  msg : QsMsg := {}  -- the message (04 R155)
  port : Nat := 64  -- arrival port (04 R155)
  rx : Nat := 0  -- Hallmark as its frame came (11 R395)
  came : Nat := 0  -- device time (ns) at which it came (05 R184)
  deriving DecidableEq, Repr

/-- An output pin (15 R524). -/
inductive OutPin where
  | faultN  -- FAULT_N (11 R417)
  | thermAlertN  -- THERM_ALERT_N (12 R458)
  | trigOut  -- ASSAY_TRIG_OUT (11 R424)
  | ppsOut  -- HMK_PPS_OUT (11 R407)
  | wakeN (n : Nat)  -- WAKE_N_n (15 R533)
  | en (rail : Nat)  -- EN_CORE, EN_SDS, EN_SRAM, EN_HB as 0 to 3 (13 R469)
  deriving DecidableEq, Repr

/-- What the block gives to the outside. -/
inductive Emit where
  | frame (p : Nat) (f : LinkFrame)  -- a link frame (03 R74)
  | cell (p : Nat) (c : Cell)  -- a Fifel cell (03 R113)
  | codeword (p : Nat) (lanes : List (List Nat))  -- one codeword: the symbols of each logical lane, in order (03 R68)
  | trainSet (p l : Nat) (bits : BitVec 256)  -- a training set on one lane (03 R93)
  | hostWrite (hl fn : Nat) (pasid : Option Nat) (addr : Nat) (data : List Byte) (poison : Bool) (attr : Nat)  -- a memory write to a host; attr holds No Snoop in bit 0 and the steering tag above it (08 R290)
  | hostRead (hl fn : Nat) (pasid : Option Nat) (tag addr len attr : Nat)  -- a non-posted read issued (08 R311)
  | msix (hl fn vec : Nat)  -- an MSI-X message (08 R302)
  | intx (hl : Nat) (level : Bool)  -- Assert_INTx or Deassert_INTx (08 R304)
  | hostAtomic (hl fn : Nat) (pasid : Option Nat) (tag addr aop size a b : Nat)  -- a PCIe AtomicOp request (05 R193)
  | hostMsg (hl fn kind : Nat) (data : Nat)  -- another TLP: a message or an ATS completion (08 R289)
  | hostCpl (hl fn status : Nat) (data : List Byte)  -- a completion to the host (08 R298)
  | readData (v : Nat)  -- the value a register read returned (00 R8)
  | readPoison (v : Nat)  -- the value that a read in an outbound window returned, poisoned (08 R305)
  | vdm (hl req : Nat) (data : List Nat)  -- a Vendor-Defined Type 1 message of PF0, Vendor ID 0x1AB4, routed by ID to a requester (08 R323)
  | mailbox (kind : Nat) (data : List Nat)  -- a management message answered by Izger (14 R503)
  | pin (name : OutPin) (high : Bool)  -- a change of an output pin (15 R530)
  | avs (rail cmd val : Nat)  -- an AVSBus frame (12 R452)
  | pmb (addr cmd : Nat) (data : Nat)  -- a PMBus transaction (12 R455)
  | flash (area : Nat) (data : List Nat)  -- a flash write (14 R506)
  | fuse (field val : Nat)  -- a fuse programmed (14 R496)
  deriving DecidableEq, Repr

/-- The machine. -/
structure State where
  regs : List (Nat × BitVec 64) := []  -- every register of the register tables, by local-bus address; one not listed holds its reset value (00 R3)
  ports : List (Nat × Port) := []  -- link-layer ports; one not listed is as after reset (03 R72)
  hls : List (Nat × Hl) := []  -- host links (08 R286)
  fns : List (Nat × Fn) := []  -- functions, by host link × 512 + function number (08 R290)
  accts : List (Nat × Acct) := []  -- accounts (09 R324)
  ctxs : List (Nat × CtxRt) := []  -- match contexts (06 R212)
  trees : List (Nat × TreeRt) := []  -- trees (07 R250)
  movs : List (Nat × MovCh) := []  -- Mover channels (10 R371)
  srcMsgs : List SrcMsg := []  -- source message table (05 R161)
  openMsgs : List OpenMsg := []  -- open-message table (05 R165)
  filter : List FilterEnt := []  -- completed-message filter (05 R180)
  book : List BookEnt := []  -- receipt book, newest first (05 R195)
  keyCache : List (Nat × Nat × KeyEntry) := []  -- key cache: (host link, key, entry) (05 R199)
  rankCache : List (Nat × Nat × RankEntry) := []  -- rank cache: (account, rank, entry) (02 R65)
  orders : List Order := []  -- parked standing orders, oldest first (05 R207)
  aptWaits : List AptWait := []  -- Aperture accesses waiting (05 R204)
  flushes : List Flush := []  -- flush reads outstanding (08 R315)
  notices : List Notice := []  -- waiting notices, oldest first (09 R344)
  acctCmds : List AcctCmd := []  -- account commands running (09 R349)
  entries : List LEntry := []  -- Ledger list entries, oldest first (06 R216)
  lmatches : List LMatch := []  -- matches in progress (06 R228)
  ovfBufs : List OvfBuf := []  -- overflow buffers, oldest first (06 R238)
  tags : List Tag := []  -- non-posted request tags in use (08 R311)
  moveWait : List MoveWait := []  -- MOVEs waiting for a descriptor channel (10 R379)
  movOwn : List MovWrite := []  -- register channels' writes of registers whose writes are commands of their own, oldest first (10 R372)
  ctxSent : List (Nat × CtxWin) := []  -- the running srtt of each congestion context (05 R183)
  clhIn : List Record := []  -- records raised and not yet taken by the Clearing house (11 R414)
  tptIn : List Packet := []  -- packets delivered here and not yet taken by their engine (04 R122)
  relayIn : List (Nat × Nat) := []  -- packets in the hall relay, oldest first: HALL port, and number in its Vault (04 R124)
  mgIn : List Packet := []  -- MG packets to be relayed (04 R127)
  mcIn : List Packet := []  -- multicast packets to be consumed (04 R148)
  fifelIn : List Packet := []  -- FIFEL packets to be routed (04 R128)
  qsRx : List QsArr := []  -- QS messages received (04 R155)
  qsHere : List QsArr := []  -- QS messages delivered here and not yet acted on (04 R155)
  qsWait : List QsWait := []  -- QS messages in transit waiting for a slot (04 R153)
  qsInj : List QsWait := []  -- QS messages injected and waiting, at most 4,096 (04 R154)
  samples : List Nat := []  -- telemetry records of the batch being made (04 R159)
  sampleLost : Nat := 0  -- samples lost since the previous batch (04 R159)
  hmk : Hmk := {}  -- Hallmark (11 R392)
  clh : Clh := {}  -- Clearing house (11 R414)
  pwr : Pwr := {}  -- Power (12 R434)
  boot : Boot := {}  -- reset and bring-up (13 R464)
  izg : Izg := {}  -- Izger (14 R491)
  wakeLow : List Nat := []  -- host ports whose WAKE_N is driven low (15 R533)
  trigFall : Option Nat := none  -- ASSAY_TRIG_OUT is high, until this device time (ns) (11 R424)
  clk : Nat := 0  -- THE MODEL'S OWN: device time in ns since reset (log entry 1) (00 R549)
  rotate : List (Nat × Nat) := []  -- tie-break pointer of each output; one not listed points to its output (04 R131)
  freeCtr : Nat := 0  -- THE MODEL'S OWN: free values taken so far (log entry 2)
  nextId : Nat := 1  -- THE MODEL'S OWN: the next number it gives an item
  out : List Emit := []  -- THE MODEL'S OWN: what the block has given to the outside, newest first
  pending : List Instr := []  -- commands waiting, first in, first out
  deriving DecidableEq, Repr

/-- The block right after reset: POR_N has just risen, no command has been taken, and nothing is pending. Every register
holds its reset value, but for the to_boot and pwr_change bits of TOP_STATE_EVT (bits 0 and 4 at 0x18), every port, account and engine
is as its structure's defaults say, and the records of entering BOOT from COLD and then FULL from OFF are on their way (01 R32, Table
1.10; STATE_CHANGE is kind 0x0004 of 11 Table 11.3; log entry 79). -/
def State.reset : State :=
  { regs := [(0x18, 0x11)],
    clhIn := [{ kind := 4, detail := 0 + 1 * 2 ^ 3 + 3 * 2 ^ 6 + 3 * 2 ^ 8 }, { kind := 4, detail := 1 + 1 * 2 ^ 3 + 3 * 2 ^ 6 + 0 * 2 ^ 8 }] }

end Sys2Proof.Machine
end

