-- ==== Sys2Proof/Machine/Ops.lean ====
section
/-!
DEFINITION. Machine/Ops.lean: the named operations over State: tables, registers, counters, records, interrupts and what
the host's memory answers.
-/
namespace Sys2Proof.Machine

/-! ### Tables: lists of (number, entry) with strictly rising numbers -/

/-- The entry of a number, if listed. -/
def tget {α : Type} : List (Nat × α) → Nat → Option α
  | [], _ => none
  | (k, v) :: r, i => if k = i then some v else tget r i

/-- The table with the entry of `i` set. -/
def tput {α : Type} : List (Nat × α) → Nat → α → List (Nat × α)
  | [], i, x => [(i, x)]
  | (k, v) :: r, i, x =>
    if i < k then (i, x) :: (k, v) :: r else if k = i then (i, x) :: r else (k, v) :: tput r i x

/-- The table without `i`. -/
def tdel {α : Type} : List (Nat × α) → Nat → List (Nat × α)
  | [], _ => []
  | (k, v) :: r, i => if k = i then tdel r i else (k, v) :: tdel r i

/-- The numbers of a table rise strictly. -/
def tasc {α : Type} : List (Nat × α) → Bool
  | [] => true
  | [_] => true
  | (a, _) :: (b, y) :: r => decide (a < b) && tasc ((b, y) :: r)

/-- A count in a table, 0 when not listed. -/
def tcnt (l : List (Nat × Nat)) (i : Nat) : Nat := (tget l i).getD 0

/-- Takes the first item that satisfies `f` out of a list. -/
def takeFirst {α : Type} (f : α → Bool) : List α → Option (α × List α)
  | [] => none
  | x :: r => if f x then some (x, r) else (takeFirst f r).map fun (y, t) => (y, x :: t)

/-- Changes the first item that satisfies `f`. -/
def modFirst {α : Type} (f : α → Bool) (g : α → α) : List α → List α
  | [] => []
  | x :: r => if f x then g x :: r else x :: modFirst f g r

/-- A natural-number set as a list without repeats. -/
def addMem (l : List Nat) (i : Nat) : List Nat := if l.contains i then l else l ++ [i]

/-! ### Registers (00 R3, R8) -/

/-- A register's 64 bits: as written, or its reset value. -/
def State.word (s : State) (r : RF) : Word := (tget s.regs r.addr).getD (BitVec.ofNat 64 r.rst)

/-- The state with a register's 64 bits set. One that holds its reset value is not listed. -/
def State.setWord (s : State) (r : RF) (v : Word) : State :=
  { s with regs := if v = BitVec.ofNat 64 r.rst then tdel s.regs r.addr else tput s.regs r.addr v }

/-- The bits a field occupies. -/
def fldMask (lo len : Nat) : Word := BitVec.ofNat 64 ((2 ^ len - 1) <<< lo)

/-- A word with a field replaced. -/
def fldPut (w : Word) (lo len v : Nat) : Word :=
  (w &&& ~~~ fldMask lo len) ||| (BitVec.ofNat 64 (v <<< lo) &&& fldMask lo len)

/-- A field's value. -/
def State.get (s : State) (r : RF) : Nat := bf (s.word r).toNat r.lo r.len

/-- Whether a field is not 0. -/
def State.on (s : State) (r : RF) : Bool := s.get r != 0

/-- The state with a field set. -/
def State.set (s : State) (r : RF) (v : Nat) : State := s.setWord r (fldPut (s.word r) r.lo r.len v)

/-- The state with a one-bit field set from a Bool. -/
def State.setB (s : State) (r : RF) (b : Bool) : State := s.set r (b2n b)

/-! ### Items of the tables -/

def State.port (s : State) (p : Nat) : Port := (tget s.ports p).getD {}
def State.modPort (s : State) (p : Nat) (f : Port → Port) : State :=
  { s with ports := tput s.ports p (f (s.port p)) }
def State.hl (s : State) (n : Nat) : Hl := (tget s.hls n).getD {}
def State.modHl (s : State) (n : Nat) (f : Hl → Hl) : State := { s with hls := tput s.hls n (f (s.hl n)) }
/-- Function `fn` (HBI_OWIN.function encoding) of host link `n`. -/
def State.fnc (s : State) (n fn : Nat) : Fn := (tget s.fns (n * 512 + fn)).getD {}
def State.modFn (s : State) (n fn : Nat) (f : Fn → Fn) : State :=
  { s with fns := tput s.fns (n * 512 + fn) (f (s.fnc n fn)) }
def State.acct (s : State) (a : Nat) : Acct := (tget s.accts a).getD {}
def State.modAcct (s : State) (a : Nat) (f : Acct → Acct) : State :=
  { s with accts := tput s.accts a (f (s.acct a)) }
def State.ctx (s : State) (k : Nat) : CtxRt := (tget s.ctxs k).getD {}
def State.modCtx (s : State) (k : Nat) (f : CtxRt → CtxRt) : State := { s with ctxs := tput s.ctxs k (f (s.ctx k)) }
def State.tree (s : State) (t : Nat) : TreeRt := (tget s.trees t).getD {}
def State.modTree (s : State) (t : Nat) (f : TreeRt → TreeRt) : State :=
  { s with trees := tput s.trees t (f (s.tree t)) }
def State.mov (s : State) (c : Nat) : MovCh := (tget s.movs c).getD {}
def State.modMov (s : State) (c : Nat) (f : MovCh → MovCh) : State := { s with movs := tput s.movs c (f (s.mov c)) }

/-! ### Time, identity, free values, outputs -/

/-- The Hallmark count, in quarter-nanoseconds (11 R392). -/
def State.now (s : State) : Nat := s.get HMK_NOW.reg

/-- The count as reads and internal stamps see it: in core cycles of 2.5 quarter-nanoseconds while CORE is on, else in REFCLK_AON cycles of
160 (11 R392). How much of the running cycle has passed is what timestamps have shown of it (DESIGN CHOICE: log entry 124). -/
def State.stamp (s : State) : Nat :=
  if s.get (PWR_DOM.state 6) = 2 then (s.now + s.hmk.sub * 2 / 5 * 5 / 2) % 2 ^ 64 else s.now

/-- A free value of `w` bits, and the state with it taken (log entry 2). -/
def State.free (s : State) (w : Nat) : Nat × State :=
  ((Config.freeValue s.freeCtr).toNat % 2 ^ w, { s with freeCtr := s.freeCtr + 1 })

/-- A timestamp taken at a port's PCS, to 1 quarter-nanosecond (11 R392): when in the running REFCLK_AON cycle it falls is a free value, no
earlier than what has been seen of it (log entry 124). -/
def State.pcsNow (s : State) : Nat × State :=
  let (v, s) := s.free 8
  let k := s.hmk.sub + v % (160 - s.hmk.sub)
  ((s.now + k) % 2 ^ 64, { s with hmk := { s.hmk with sub := k } })

/-- A number for an item, and the state with it taken. -/
def State.newId (s : State) : Nat × State := (s.nextId, { s with nextId := s.nextId + 1 })

def State.emit (s : State) (e : Emit) : State := { s with out := e :: s.out }

/-- Endpoint address from its parts (02 R61). -/
def mkEp (hall group d1 d0 hl : Nat) : Nat := hl % 8 + (d0 % 16) * 8 + (d1 % 16) * 128 + (group % 256) * 2048 + (hall % 16) * 2 ^ 19
def epHl (e : Nat) : Nat := bf e 0 3
def epD0 (e : Nat) : Nat := bf e 3 4
def epD1 (e : Nat) : Nat := bf e 7 4
def epGroup (e : Nat) : Nat := bf e 11 8
def epHall (e : Nat) : Nat := bf e 19 4
/-- The device endpoint of an endpoint (02 R61). -/
def epDev (e : Nat) : Nat := e - epHl e

/-- This device's endpoint (02 R61, 04 Table 4.8). -/
def State.ep (s : State) : Nat :=
  mkEp (s.get RTE_CFG.hall) (s.get RTE_CFG.group) (s.get RTE_CFG.d1) (s.get RTE_CFG.d0) 0

/-- The endpoint field of a device whose coordinates are unknown (03 R94). -/
def epUnknown : Nat := 0x7FFFFF

/-- This device's endpoint as it shows it outside: all ones while its coordinates are not fixed (03 R94, 11 R410). -/
def State.epShown (s : State) : Nat := if s.on TOP_BOOT_STAT.coords_fixed then s.ep else epUnknown

/-- Whether an endpoint names this device (02 R61): none does while its coordinates are not fixed (13 Table 13.6). -/
def State.isHere (s : State) (e : Nat) : Bool := s.on TOP_BOOT_STAT.coords_fixed && epDev e == s.ep

/-- Whether a host link is present (08 R286). -/
def State.hlPresent (s : State) (n : Nat) : Bool := n < 8 && (n % 2 = 0 || bit (s.get TOP_STRAP.hlsplit) (n / 2))

def State.presentHls (s : State) : List Nat := (List.range 8).filter s.hlPresent

/-- The account style of a host link: what its last training took from HBI_LINK_CFG (08 R291; log entry 99). -/
def State.slices (s : State) (n : Nat) : Bool := if (s.hl n).trained then (s.hl n).style else s.on (HBI_LINK_CFG.style n)

/-! ### MSI-X and INTx (08 R302 to R304) -/

/-- Whether function `fn` of host link `n` may send vector `v` now (08 R302); while writes of its that the vector may announce wait, it
stays pending. -/
def State.msixOk (s : State) (n fn v : Nat) : Bool :=
  let f := s.fnc n fn
  f.msixEn && !f.fnMask && f.msixMask.contains v && f.bme && !f.d3 && !((s.hl n).heldWrites.any (·.fn == fn))

/-- Signals MSI-X vector `v`: sends it, or sets its pending bit (08 R302); a function in reset discards it (08 Table 8.13). -/
def State.msix (s : State) (n fn v : Nat) : State :=
  if (s.fnc n fn).resetting then s
  else if s.msixOk n fn v then s.emit (.msix n fn v)
  else s.modFn n fn fun f => { f with msixPend := addMem f.msixPend v }

/-- Sends the pending vectors of a function that may be sent (08 R302). -/
def State.msixFlush (s : State) (n fn : Nat) : State :=
  let go := (s.fnc n fn).msixPend.filter (s.msixOk n fn)
  let s := s.modFn n fn fun f => { f with msixPend := f.msixPend.filter fun v => !go.contains v }
  go.foldl (fun s v => s.emit (.msix n fn v)) s

/-- The Tally counters whose selection has been written, with the selection. -/
def State.tallySel (s : State) : List (Nat × Nat) :=
  (s.regs.filter fun (a, _) => decide (0xF002000 ≤ a ∧ a < 0xF004000)).map fun (a, w) => ((a - 0xF002000) / 8, w.toNat)

/-- Which sources of 08 Table 8.7 are pending for a host link's PF0, as a mask: each until what raised it is cleared (08 R304): the
Clearing-house record, the event bit, the mailbox, the TLY_OVF bit, the DOE Interrupt Status. -/
def State.pf0Pending (s : State) (n : Nat) : Nat :=
  b2n (s.clh.live.any fun (_, k) => bit (s.get (CLH_REACT.react k)) 0)
  + 2 * b2n (s.on TOP_STATE_EVT.reg)
  + 4 * b2n (s.on IZG_MBOX_CTL.to_host)
  + 8 * b2n ((List.range 64).any fun p => s.on (LNK_EVT.reg p))
  + 16 * b2n (s.tallySel.any fun (i, w) => bit w 27 && bit (s.get (TLY_OVF.reg (i / 64))) (i % 64))
  + 32 * b2n (s.hl n).doeInt

/-- Brings PF0's INTx level of one host link to what 08 R304 gives; on a link that is down no message can go. -/
def State.intxOne (s : State) (n : Nat) : State :=
  let f := s.fnc n 0
  let lvl := (s.pf0Pending n &&& s.get (HBI_PF0_SRC.enable n)) != 0 && !f.msixEn && !f.intxDis
  if lvl = (s.hl n).intx ∨ !s.on (HBI_LINK_STAT.dl_up n) then s else (s.modHl n fun h => { h with intx := lvl }).emit (.intx n lvl)

/-- Brings every present host link's INTx level to what 08 R304 gives. -/
def State.intxAll (s : State) : State := s.presentHls.foldl State.intxOne s

/-- Signals source `v` of 08 Table 8.7 on every host link's PF0 that enables it (08 R303). -/
def State.pf0Signal (s : State) (v : Nat) : State :=
  (s.presentHls.foldl (fun s n => if bit (s.get (HBI_PF0_SRC.enable n)) v then s.msix n 0 v else s) s).intxAll

/-- Sets an event bit of TOP_STATE_EVT or LNK_EVT and signals its source (08 Table 8.7). -/
def State.event (s : State) (r : RF) (v : Nat) : State := (s.set r 1).pf0Signal v

/-! ### Counters and Tally (11 R427 to R430) -/

/-- Adds `n` to Tally counter `i`; at 2^48 it wraps, sets TLY_OVF and may signal PF0 vector 4 (11 R430). -/
def State.tallyAdd (s : State) (i n : Nat) : State :=
  let t := s.get (TLY_CNT.count i) + n
  let s := s.set (TLY_CNT.count i) t
  if t < 2 ^ 48 then s
  else
    let r := TLY_OVF.reg (i / 64)
    let s := s.set r (orBit (s.get r) (i % 64))
    if s.on (TLY_SEL.ovf_irq i) then s.pf0Signal 4 else s

/-- `n` occurrences of counter event `code` at instance `inst` (11 Table 11.5, mode 001b; R428). -/
def State.tallyHit (s : State) (code inst n : Nat) : State :=
  s.tallySel.foldl (fun s (i, w) =>
    if bf w 24 3 = 1 ∧ bf w 0 16 = code ∧ (bf w 16 8 = inst ∨ bf w 16 8 = 0xFF) then s.tallyAdd i n else s) s

/-- Adds `n` to a counter register, which saturates (03, 16 R543), and counts the occurrences in Tally. -/
def State.bumpN (s : State) (c : Cnt) (n : Nat) : State :=
  if n = 0 then s
  else (s.set c.rf (min (s.get c.rf + n) (2 ^ c.rf.len - 1))).tallyHit c.code c.inst n

def State.bump (s : State) (c : Cnt) : State := s.bumpN c 1

/-! ### Clearing-house records (11 R410 to R413) -/

/-- A source code: block code and instance (11 R411). -/
def srcOf (block inst : Nat) : Nat := block * 256 + inst % 256

/-- A record joins those on their way to the Clearing house: in the order of raising, and of those of one cycle, which have one time, in
ascending source code (11 R415). -/
def recInsert (r : Record) : List Record → List Record
  | [] => [r]
  | x :: l => if x.time = r.time ∧ r.src < x.src then r :: x :: l else x :: recInsert r l

/-- A record as a block raises it now (11 R409). -/
def State.recordOf (s : State) (kind src addr detail : Nat) : Record :=
  { kind, sev := (kindSev kind).getD 0, src, addr, detail := detail % 2 ^ 48, time := s.stamp, tv := s.on HMK_STAT.valid, ep := s.epShown }

/-- A block raises a record; it is on its way to the Clearing house until CLEARING_HOUSE_RECORD takes it. -/
def State.raise (s : State) (kind src addr detail : Nat) : State :=
  { s with clhIn := recInsert (s.recordOf kind src addr detail) s.clhIn }

/-- Whether an internal device reset is due, or a record of severity S5 has been raised that calls for one: the device then takes
no doorbell and forwards nothing (01 R28). -/
def State.stopping (s : State) : Bool := s.boot.resetDue.isSome || s.clhIn.any fun r => r.sev == 5

/-- The address form that names an account (11 R413). -/
def acctAddr (a : Nat) : Nat := 2 ^ 63 + a % 2 ^ 14

/-! ### Host memory -/

/-- What one byte of host memory answers: its value and whether it came poisoned; `none` is an error completion, or none in time. -/
def hostByte : HostView → Nat → Option (Byte × Bool)
  | [], _ => none
  | c :: r, a =>
    if c.addr ≤ a ∧ a < c.addr + c.data.length then (if c.late then none else some (c.data.getD (a - c.addr) 0, c.poison)) else hostByte r a

/-- `n` bytes of host memory from `a`, and whether any came poisoned; `none` where an error completion came. -/
def hostRead (h : HostView) (a : Nat) : Nat → Option (List Byte × Bool)
  | 0 => some ([], false)
  | n + 1 =>
    match hostByte h a, hostRead h (a + 1) n with
    | some (b, p), some (bs, q) => some (b :: bs, p || q)
    | _, _ => none

/-- The little-endian value of `n` bytes of host memory; `none` on an error completion or poison (08 R305). -/
def hostNat (h : HostView) (a n : Nat) : Option Nat :=
  match hostRead h a n with
  | some (bs, false) => some (natOf bs)
  | _ => none

end Sys2Proof.Machine
end

