-- ==== Sys2Proof/Machine/Wire.lean ====
section
/-!
DEFINITION. Machine/Wire.lean: the layouts of 02 bit by bit: header and trailer flits, Quicksilver messages, link frames,
CTRL messages and Fifel cells, with their CRCs.
-/
namespace Sys2Proof.Machine

/-! ### Packets (02 R42 to R50) -/

/-- The reserved bits of header words 1 to 4 (02 Table 2.3). -/
def rsvMask : Nat :=
  (0xF000 + 0x7 <<< 29 + 0x3 <<< 62) <<< 64 + (1 <<< 23 + 1 <<< 47 + 0x3 <<< 62) <<< 128 + (0xF <<< 60) <<< 192 + (0x3 <<< 30) <<< 256

/-- A header flit read by 02 Table 2.3. -/
def hdrOf (f : Flit) : Header :=
  let n := f.toNat
  { phase := bf n 0 3, epoch := bf n 3 1, mark := bit n 4, valiant := bit n 5, dateline := bit n 6,
    viaGroup := bf n 8 8, hops := bf n 16 6, injectTime := bf n 32 32,
    opcode := bf n 64 8, last := bit n 72, mcast := bit n 73, visible := bit n 74, poison := bit n 75,
    length := bf n 80 13, charter := bf n 96 16, dstAcct := bf n 112 14,
    dstEp := bf n 128 23, srcEp := bf n 152 23, srcAcct := bf n 176 14,
    msgId := bf n 192 32, pktIndex := bf n 224 28,
    srcGen := bf n 256 16, mcGroup := bf n 272 14, key := bf n 288 32,
    w5 := bf n 320 64, w6 := bf n 384 64, w7 := bf n 448 64, rsv := n &&& rsvMask }

/-- The route word, word 0 (02 Table 2.3). -/
def routeWord (h : Header) : Nat :=
  h.phase + h.epoch <<< 3 + b2n h.mark <<< 4 + b2n h.valiant <<< 5 + b2n h.dateline <<< 6 + h.viaGroup <<< 8
  + h.hops <<< 16 + h.injectTime <<< 32

/-- Words 1 to 7 of a header (02 Table 2.3). -/
def hdrWords (h : Header) : List Nat :=
  [ h.opcode + b2n h.last <<< 8 + b2n h.mcast <<< 9 + b2n h.visible <<< 10 + b2n h.poison <<< 11 + h.length <<< 16
      + h.charter <<< 32 + h.dstAcct <<< 48,
    h.dstEp + h.srcEp <<< 24 + h.srcAcct <<< 48,
    h.msgId + h.pktIndex <<< 32,
    h.srcGen + h.mcGroup <<< 16 + h.key <<< 32,
    h.w5, h.w6, h.w7 ]

/-- The header flit of a header, with route word `w` (02 R43; reserved bits stay as they came, R33, R50). -/
def hdrNum (w : Nat) (h : Header) : Nat := joinWords (w :: hdrWords h) ||| h.rsv

/-- The header flit of a header. -/
def hdrFlit (h : Header) : Flit := BitVec.ofNat 512 (hdrNum (routeWord h) h)

/-- The flit with its route word replaced: all that a router changes (02 R50). -/
def restamp (h : Header) (f : Flit) : Flit := BitVec.ofNat 512 (f.toNat / 2 ^ 64 * 2 ^ 64 + routeWord h % 2 ^ 64)

/-- The end-to-end CRC: over the header with a zero route word, then the payload (02 R50). -/
def ecrcOf (h : Header) (data : List Byte) : Nat :=
  crc32c (bytesOf 64 (hdrNum 0 h) ++ data)

/-- A packet made here, its CRC correct. -/
def mkPkt (h : Header) (data : List Byte) : Packet := { hdr := h, data, ecrc := ecrcOf h data }

/-- Flits of a packet of payload length `len` (02 R42). -/
def flitCount (len : Nat) : Nat := (len + 63) / 64 + 2

/-- Payload flits: 64 bytes each, the last padded with zeros (02 R42). -/
def bodyFlits (data : List Byte) : List Flit :=
  (List.range ((data.length + 63) / 64)).map fun i => BitVec.ofNat 512 (natOf (slice data (64 * i) 64))

/-- A trailer flit (02 Table 2.6). -/
def tailFlit (ecrc : Nat) (stomped : Bool) : Flit := BitVec.ofNat 512 (ecrc % 2 ^ 32 + b2n stomped <<< 32)

/-- The flits of a packet, in order (02 R42); of one that arrived, all but the header go on as they came (R50). -/
def pktFlits (p : Packet) : List Flit :=
  hdrFlit p.hdr :: (if p.rest = [] then bodyFlits p.data ++ [tailFlit p.ecrc p.stomped] else p.rest)

/-- The trailer with which a packet is stomped: stomped set and the CRC inverted (02 R51). -/
def stompTail (p : Header) (body : List Flit) : Flit :=
  let data := (body.map fun f => bytesOf 64 f.toNat).flatten.take p.length
  tailFlit ((ecrcOf p data) ^^^ 0xFFFFFFFF) true

/-- A whole packet from its flits: header, payload flits, trailer. -/
def pktOf (fs : List Flit) (cls port : Nat) : Packet :=
  let h := hdrOf (fs.headD 0)
  let t := (fs.getLastD 0).toNat
  let body := (fs.drop 1).dropLast
  { hdr := h, data := (body.map fun f => bytesOf 64 f.toNat).flatten.take h.length,
    ecrc := bf t 0 32, stomped := bit t 32, cls, port, rest := fs.drop 1 }

/-- Check 1 of 02 Table 2.10. -/
def pktIntact (p : Packet) : Bool :=
  !p.stomped && p.data.length == p.hdr.length && p.ecrc == ecrcOf p.hdr p.data

/-- The length rule of 02 Table 2.4. -/
def lengthOk (h : Header) : Bool :=
  match h.opcode with
  | 0x02 => h.length == 0
  | 0x04 => h.length == 16
  | 0x05 => h.length == 8
  | 0x07 => h.length == 16
  | 0x0B => decide (1 ≤ h.length ∧ h.length ≤ 4096)
  | _ => decide (h.length ≤ 4096)

/-! ### Quicksilver messages (02 R52) -/

def qsOf (n : Nat) : QsMsg :=
  { type := bf n 0 5, dst := bf n 5 23, src := bf n 28 23, hops := bf n 51 6, epoch := bf n 57 1, payload := bf n 64 64 }

def qsBits (m : QsMsg) : BitVec 128 :=
  BitVec.ofNat 128 (m.type + m.dst <<< 5 + m.src <<< 28 + m.hops <<< 51 + m.epoch <<< 57 + (m.payload % 2 ^ 64) <<< 64)

/-! ### Link frames (02 R35) -/

/-- Bytes 0 to 1,019 of a frame. -/
def frameBytes (f : LinkFrame) : List Byte :=
  bytesOf 1 (f.ftype.toNat + f.version.toNat <<< 4)
  ++ bytesOf 1 (b2n f.nak + b2n f.qs0v <<< 1 + b2n f.qs1v <<< 2 + b2n f.replayed <<< 3 + f.res1.toNat <<< 4)
  ++ bytesOf 3 f.seq.toNat ++ bytesOf 3 f.ackSeq.toNat
  ++ bytesOf 2 (f.cr0Class.toNat + f.cr0Count.toNat <<< 5) ++ bytesOf 2 (f.cr1Class.toNat + f.cr1Count.toNat <<< 5)
  ++ f.tags ++ bytesOf 1 f.res27.toNat
  ++ bytesOf 16 f.qs0.toNat ++ bytesOf 16 f.qs1.toNat
  ++ (f.flits.map fun x => bytesOf 64 x.toNat).flatten

/-- A frame with its CRC filled in (02 R34, R35). -/
def sealFrame (f : LinkFrame) : LinkFrame := { f with fcrc := BitVec.ofNat 32 (crc32c (frameBytes f)) }

/-- Whether the frame's CRC matches. -/
def frameCrcOk (f : LinkFrame) : Bool := f.fcrc.toNat == crc32c (frameBytes f)

/-- A flit tag (02 R36). -/
def tagOf (s : Slot) : BitVec 8 := BitVec.ofNat 8 (s.cls % 32 + b2n s.head <<< 5 + b2n s.tail <<< 6 + 128)

/-- The tag and flit of every valid slot of a frame (02 R36). -/
def slotsOf (f : LinkFrame) : List Slot :=
  ((f.tags.zip f.flits).filter fun (t, _) => bit t.toNat 7).map fun (t, x) =>
    { cls := bf t.toNat 0 5, head := bit t.toNat 5, tail := bit t.toNat 6, flit := x }

/-! ### CTRL messages (03 R94) -/

/-- The 960 message bytes of a CTRL frame, as a number. -/
def ctrlBody (f : LinkFrame) : Nat := f.flits.foldr (fun x a => x.toNat + 2 ^ 512 * a) 0

/-- `k` numbers of `w` bits from bit `lo`. -/
def fieldList (n lo w k : Nat) : List Nat := (List.range k).map fun i => bf n (lo + w * i) w

/-- A CTRL message read by 03 Table 3.5; `none` for a reserved code. -/
def ctrlOf (n : Nat) : Option CtrlMsg :=
  let fld (byte bits : Nat) : Nat := bf n (8 * byte) bits
  match fld 0 8 with
  | 1 => some (.ident { serial := fld 8 64, endpoint := fld 16 23, port := fld 19 6, role := fld 20 3, version := fld 21 4,
                        maxRate := fld 22 2, maxWidth := fld 23 2, reachKm := fld 24 3, challenge := fld 32 256 })
  | 2 => some (.identSig (fld 8 256) (fld 40 512))
  | 3 => some (.param { v := fld 8 32, floors := fieldList n 96 32 18, caps := fieldList n 672 32 18, e := fld 156 16,
                        fresh := bit n (8 * 158), echo := bit n (8 * 159), x := fld 160 24,
                        occ := fieldList n 1312 32 18, returned := fieldList n 1888 32 18,
                        sendTime := fld 308 64, turnaround := fld 316 32 })
  | 4 => some (.creditSync (fieldList n 64 32 18))
  | 5 => some .creditSyncReq
  | 6 => some (.quiet (n / 256))
  | 7 => some (.quietAck (n / 256))
  | _ => none

/-- `w`-bit numbers laid out from bit `lo`. -/
def putList (l : List Nat) (lo w : Nat) : Nat := (l.foldr (fun x a => x % 2 ^ w + 2 ^ w * a) 0) <<< lo

/-- The message bytes of a CTRL message, as a number (03 Table 3.5). -/
def ctrlBits : CtrlMsg → Nat
  | .ident m => 1 + m.serial <<< 64 + m.endpoint <<< 128 + m.port <<< 152 + m.role <<< 160 + m.version <<< 168
      + m.maxRate <<< 176 + m.maxWidth <<< 184 + m.reachKm <<< 192 + m.challenge <<< 256
  | .identSig k g => 2 + k <<< 64 + g <<< 320
  | .param m => 3 + m.v <<< 64 + putList m.floors 96 32 + putList m.caps 672 32 + m.e <<< 1248 + b2n m.fresh <<< 1264
      + b2n m.echo <<< 1272 + m.x <<< 1280 + putList m.occ 1312 32 + putList m.returned 1888 32
      + m.sendTime <<< 2464 + m.turnaround <<< 2528
  | .creditSync l => 4 + putList l 64 32
  | .creditSyncReq => 5
  | .quiet b => 6 + b <<< 8
  | .quietAck b => 7 + b <<< 8

/-- The 15 flit slots that a CTRL message fills (02 R39). -/
def ctrlFlits (m : CtrlMsg) : List Flit := (List.range 15).map fun i => BitVec.ofNat 512 (ctrlBits m >>> (512 * i))

/-! ### Fifel cells (02 R55) -/

def cellOf (f : Flit) : Cell :=
  let n := f.toNat
  { kind := bf n 0 4, fvc := bf n 4 2, cseq := bf n 8 8, cack := bf n 16 8, valid := bf n 24 6, dest := bf n 32 23,
    crFvc := bf n 56 2, crCount := bf n 58 6, data := bytesOf 52 (bf n 64 416) }

/-- Bytes 0 to 59 of a cell. -/
def cellBytes (c : Cell) : List Byte :=
  bytesOf 8 (c.kind + c.fvc <<< 4 + c.cseq <<< 8 + c.cack <<< 16 + c.valid <<< 24 + c.dest <<< 32 + c.crFvc <<< 56
    + c.crCount <<< 58) ++ slice c.data 0 52

/-- Whether a received cell's CRC over bytes 0 to 59 matches (02 Table 2.9). -/
def cellCrcOk (f : Flit) : Bool := bf f.toNat 480 32 == crc32c (bytesOf 60 f.toNat)

end Sys2Proof.Machine
end

