-- ==== Sys2Proof/Machine/Pcs.lean ====
section
/-!
DEFINITION. Machine/Pcs.lean: the PCS and FEC below the frame: RS(544,514) over 10-bit symbols, blocks, scrambler, codewords,
lanes and marker groups (03 R67 to R70, R112). What IEEE 802.3 fixes and the spec only names (the field, the generator, the
order of symbols) is log entry 89.
-/
namespace Sys2Proof.Machine

/-! ### RS(544,514) (03 R67) -/

/-- The product of two symbols in GF(2^10) with x^10 + x^3 + 1. -/
def gfMul (a b : Nat) : Nat :=
  (List.range 10).foldl (fun r k =>
    let d := 2 * r
    (if d ≥ 1024 then d ^^^ 0x409 else d) ^^^ (if b.testBit (9 - k) then a else 0)) 0

/-- A power of a symbol, by the bits of the exponent below 2^10. -/
def gfPow (a n : Nat) : Nat :=
  (List.range 10).foldl (fun r k => let q := gfMul r r; if n.testBit (9 - k) then gfMul q a else q) 1

/-- The inverse of a symbol that is not 0. -/
def gfInv (a : Nat) : Nat := gfPow a 1022

/-- The n-th power of the primitive element. -/
def gfExp (n : Nat) : Nat := gfPow 2 (n % 1023)

/-- The generator, (x + 1)(x + α)…(x + α^29), its coefficients from the highest down without the leading 1. -/
def rsGen : List Nat :=
  ((List.range 30).foldl (fun g j =>
    List.zipWith (· ^^^ ·) (g ++ [0]) (0 :: g.map (gfMul (gfExp j)))) [1]).tail

/-- The 30 parity symbols of a message of 514: the remainder of its division by the generator. -/
def rsParity (msg : List Nat) : List Nat :=
  msg.foldl (fun r m =>
    let fb := m ^^^ r.headD 0
    List.zipWith (fun a g => a ^^^ gfMul fb g) (r.drop 1 ++ [0]) rsGen) (List.replicate 30 0)

/-- A codeword: the message, then its parity. -/
def rsEncode (msg : List Nat) : List Nat := msg ++ rsParity msg

/-- The 30 syndromes of what was added to a codeword; the symbol in position i is the coefficient of x^(543 - i). -/
def rsSyndromes (e : CwErrs) : List Nat :=
  (List.range 30).map fun j => e.foldl (fun a (i, x) => a ^^^ gfMul x.toNat (gfExp (j * (543 - i.val)))) 0

/-- The error locator's registers (Berlekamp and Massey): the locator, the one before the last change of length, the length,
the steps since, and the discrepancy then. -/
structure RsReg where
  c : List Nat := [1]
  b : List Nat := [1]
  l : Nat := 0
  m : Nat := 1
  d : Nat := 1
  deriving DecidableEq, Repr

/-- The sum of two polynomials, lowest coefficient first. -/
def polyAdd : List Nat → List Nat → List Nat
  | [], q => q
  | p, [] => p
  | a :: p, b :: q => (a ^^^ b) :: polyAdd p q

/-- One step, at syndrome `n`. -/
def RsReg.next (syn : List Nat) (r : RsReg) (n : Nat) : RsReg :=
  let d := (List.range (r.l + 1)).foldl (fun a k => a ^^^ gfMul (r.c.getD k 0) (syn.getD (n - k) 0)) 0
  if d = 0 then { r with m := r.m + 1 }
  else
    let k := gfMul d (gfInv r.d)
    let c := polyAdd r.c (List.replicate r.m 0 ++ r.b.map (gfMul k))
    if 2 * r.l ≤ n then { c, b := r.c, l := n + 1 - r.l, m := 1, d } else { r with c, m := r.m + 1 }

/-- A polynomial's value. -/
def polyAt (p : List Nat) (x : Nat) : Nat := p.foldr (fun c a => c ^^^ gfMul a x) 0

/-- The decoder (03 R70): the positions of the symbols it corrects, at most 15; none where the codeword is uncorrectable. -/
def rsDecode (e : CwErrs) : Option (List Nat) :=
  let syn := rsSyndromes e
  if syn.all (· == 0) then some []
  else
    let r := (List.range 30).foldl (RsReg.next syn) {}
    let at0 := (List.range 544).filter fun i => polyAt r.c (gfExp (1023 - (543 - i))) == 0
    if r.l ≤ 15 ∧ at0.length = r.l then some at0 else none

/-! ### Blocks, codewords and lanes (03 R68) -/

/-- `n` bits of `d`, lowest first, through the scrambler 1 + x^39 + x^58; bit k of `st` is the scrambled bit sent k + 1 bits
before. -/
def scramble : Nat → Nat → Nat → Nat × Nat
  | 0, _, st => (0, st)
  | n + 1, d, st =>
    let o := (d + bf st 38 1 + bf st 57 1) % 2
    let (r, st) := scramble n (d / 2) ((2 * st + o) % 2 ^ 58)
    (o + 2 * r, st)

/-- The 257-bit blocks of a frame or cell, 32 bytes each, the flag set in the first; and the scrambler after them. -/
def pcsUnit (st : Nat) (u : List Byte) : List Nat × Nat :=
  (List.range (u.length / 32)).foldl (fun (bs, st) i =>
    let (x, st) := scramble 256 (natOf (slice u (32 * i) 32)) st
    (bs ++ [b2n (i == 0) + 2 * x], st)) ([], st)

/-- The blocks of several frames or cells, in order. -/
def pcsBlocks (st : Nat) (us : List (List Byte)) : List Nat × Nat :=
  us.foldl (fun (bs, st) u => let (b, st) := pcsUnit st u; (bs ++ b, st)) ([], st)

/-- Codeword `k` of a group: blocks 20 k to 20 k + 19. -/
def pcsWord (bs : List Nat) (k : Nat) : List Nat :=
  rsEncode (fieldList (((bs.drop (20 * k)).take 20).foldr (fun b a => b + 2 ^ 257 * a) 0) 0 10 514)

/-- The symbols of a codeword by logical lane: symbol i on lane i mod W. -/
def byLane (w : Nat) (cw : List Nat) : List (List Nat) :=
  (List.range w).map fun l => (List.range (544 / w)).map fun j => cw.getD (j * w + l) 0

/-- A codeword of a marker group (03 R69). -/
def markWord (w : Nat) : List Nat := rsEncode ((List.range 514).map fun i => 0x2A0 + i % w)

/-- A frame's 1,024 bytes (02 R35). -/
def frameAll (f : LinkFrame) : List Byte := frameBytes f ++ bytesOf 4 f.fcrc.toNat

/-- The lanes that carry a port's frames or cells now: one in IDENT (03 Table 3.3), else the agreed width. -/
def State.lanesNow (s : State) (p : Nat) : Nat := if s.get (LNK_STAT.state p) = 4 then 1 else 2 ^ s.get (LNK_STAT.width p)

/-- Frame groups between marker groups (03 R69). -/
def markEvery : Nat := 16384

/-- A frame or cell goes into the PCS; `per` of them fill a group. Each codeword whose blocks are complete is sent. The
scrambler's state before a stream's first block is a free value (log entry 89). -/
def State.pcsSend (s : State) (p per : Nat) (u : List Byte) : State :=
  let q := (s.port p).pcs
  let (st0, s) := match q.scr with | some x => (x, s) | none => s.free 58
  let w := s.lanesNow p
  let us := q.units ++ [u]
  let b := u.length / 32
  let (bs, st) := pcsBlocks st0 us
  let before := b * q.units.length / 20
  let s := (List.range (b * us.length / 20 - before)).foldl (fun s k => s.emit (.codeword p (byLane w (pcsWord bs (before + k))))) s
  if us.length < per then s.modPort p fun t => { t with pcs := { t.pcs with units := us, scr := some st0 } }
  else
    let full := decide (per = 5 ∧ q.groups + 1 = markEvery)
    s.modPort p fun t =>
      { t with pcs := { t.pcs with units := [], scr := some st, groups := if full then 0 else q.groups + 1,
                                   mark := if full then 5 else 0 } }

/-- One of the five frame slots in which a marker group is sent (03 R69): its eight codewords at the first. -/
def State.markSlot (s : State) (p : Nat) : State :=
  let n := (s.port p).pcs.mark
  let w := s.lanesNow p
  let s := if n = 5 then (List.range 8).foldl (fun s _ => s.emit (.codeword p (byLane w (markWord w)))) s else s
  s.modPort p fun q =>
    { q with pcs := { q.pcs with mark := n - 1 }, periods := q.periods + 1, syncReqGap := min 64 (q.syncReqGap + 1),
             ctrlQ := q.ctrlQ.map fun w => { w with waited := w.waited + 1 } }

/-- Codewords that must be decoded for the frame in place `i` of its group and not for one before it (03 R68). -/
def newWords (i : Nat) : Nat := if i = 2 ∨ i = 4 then 1 else 2

/-- Whether the frame that comes is lost to an uncorrectable codeword (03 R70), what the codewords decoded now gave, and the
port with the next place noted. -/
def State.pcsTake (s : State) (p : Nat) (rx : RxErrors) : Bool × List (Option (List Nat)) × State :=
  let q := (s.port p).pcs
  let n := newWords q.rxPos
  let ds := ((List.range n).map fun k => rsDecode (rx.words.getD k []))
  let bad := q.rxBad || ds.any Option.isNone
  (bad, rx.marks.map rsDecode ++ ds,
    s.modPort p fun t =>
      { t with pcs := { t.pcs with rxPos := (q.rxPos + 1) % 5, rxBad := decide (q.rxPos ≠ 4) && (ds.getLastD none).isNone } })

/-- The same for a cell (03 R112): ten to a codeword, decoded for the first of them. -/
def State.pcsTakeCell (s : State) (p : Nat) (e : CwErrs) : Bool × List (Option (List Nat)) × State :=
  let q := (s.port p).pcs
  let ds := if q.rxPos = 0 then [rsDecode e] else []
  let bad := if q.rxPos = 0 then ds.any Option.isNone else q.rxBad
  (bad, ds, s.modPort p fun t => { t with pcs := { t.pcs with rxPos := (q.rxPos + 1) % 10, rxBad := bad } })

end Sys2Proof.Machine
end

