-- ==== Sys2Proof/Machine/Route.lean ====
section
/-!
DEFINITION. Machine/Route.lean: reading the route tables: ports and peers, candidates, the local moves of 04 Table 4.4,
the phases of Table 4.3, the choice of an output, and the productive ports of a Quicksilver message.
-/
namespace Sys2Proof.Machine

/-- Link states (03 Table 3.3) and roles (03 Table 3.22) by their codes. -/
def stActive : Nat := 8
def roleD0 : Nat := 1
def roleD1 : Nat := 2
def roleGlobal : Nat := 3
def roleHall : Nat := 4
def roleCell : Nat := 5

def State.linkState (s : State) (p : Nat) : Nat := s.get (LNK_STAT.state p)
def State.active (s : State) (p : Nat) : Bool := s.linkState p = stActive
/-- Whether Routing, QS forwarding and Alloy treat a port as in ACTIVE: not before its DevID check has passed (14 R502),
nor, on a HALL port, before its link has joined (13 R488). -/
def State.usable (s : State) (p : Nat) : Bool :=
  s.active p && !(s.port p).certWait && (s.get (PRT_ROLE.effective p) != roleHall || (s.port p).joined)
def State.role (s : State) (p : Nat) : Nat := s.get (PRT_ROLE.effective p)
def State.peer (s : State) (p : Nat) : Nat := s.get (LNK_PEER_INFO.endpoint p)
def ports64 : List Nat := List.range 64

/-- The ports in ACTIVE with a role. -/
def State.activeRole (s : State) (r : Nat) : List Nat := ports64.filter fun p => s.usable p && s.role p == r

/-- The peer devices of a list of ports, each once (04 R146). -/
def State.peerDevs (s : State) (ps : List Nat) : List Nat :=
  ((ps.filter fun p => s.peer p != epUnknown).map fun p => epDev (s.peer p)).dedup

/-- The ACTIVE local port to the device (d1, d0) of this group (04 R115). -/
def State.localPort (s : State) (r d1 d0 : Nat) : Option Nat :=
  (s.activeRole r).find? fun p => s.peer p != epUnknown && epDev (s.peer p) == mkEp (s.get RTE_CFG.hall) (s.get RTE_CFG.group) d1 d0 0

/-- Candidates of a group-table entry: (d1, d0, port) (04 Table 4.27). -/
def State.groupCands (s : State) (v g : Nat) : List (Nat × Nat × Nat) :=
  ((List.range 32).map fun k => bf (s.get (RTE_GROUP_CAND.reg v g (k / 4))) (16 * (k % 4)) 16).filterMap fun c =>
    if bit c 14 then some (bf c 4 4, bf c 0 4, bf c 8 6) else none

/-- Candidates of a hall-table entry: (group, d1, d0) (04 Table 4.26). -/
def State.hallCands (s : State) (v h : Nat) : List (Nat × Nat × Nat) :=
  ((List.range 32).map fun k => bf (s.get (RTE_HALL_GW.reg v h (k / 2))) (32 * (k % 2)) 32).filterMap fun c =>
    if bit c 16 then some (bf c 0 8, bf c 12 4, bf c 8 4) else none

/-- This gateway's HALL ports: port, direction (0 up, 1 down), dateline flag (04 Table 4.16). -/
def State.hallPorts (s : State) : List (Nat × Nat × Bool) :=
  (if s.on RTE_HALL_CFG.a_valid then
    [(s.get RTE_HALL_CFG.a_port, s.get RTE_HALL_CFG.a_dir, s.on RTE_HALL_CFG.a_dateline)] else [])
  ++ (if s.on RTE_HALL_CFG.b_valid then
    [(s.get RTE_HALL_CFG.b_port, s.get RTE_HALL_CFG.b_dir, s.on RTE_HALL_CFG.b_dateline)] else [])

/-- The ACTIVE, joined HALL ports of a direction (04 R117, 13 R488). -/
def State.hallOut (s : State) (dir : Nat) : List Nat :=
  (s.hallPorts.filter fun (p, d, _) => d == dir && s.usable p && s.role p == roleHall).map (·.1)

/-- How a packet came to this router (04 R134): injected here, or by role and phase on a port (64: none). For a packet
handed back, `port` is the port that failed. -/
structure Arrival where
  injected : Bool := false
  role     : Nat := 0
  phase    : Nat := 0
  port     : Nat := 64
  back     : Bool := false  -- handed back by `port` (04 R134)
  deriving DecidableEq, Repr

/-- The local moves toward (t1, t0) that 04 Table 4.4 allows; `arr` is the arrival role, or 0 for a fresh packet. -/
def State.localMoves (s : State) (arr t1 t0 : Nat) : List Nat :=
  let x0 := s.get RTE_CFG.d0; let x1 := s.get RTE_CFG.d1
  let a0 := s.get RTE_APEX.d0; let a1 := s.get RTE_APEX.d1
  let d0 (c : Nat) := s.localPort roleD0 x1 c
  let d1 (c : Nat) := s.localPort roleD1 c x0
  let viaD1 : Option Nat :=
    match d1 t1 with
    | some p => some p
    | none => if x1 ≠ a1 then d1 a1 else none
  let m : Option Nat :=
    if arr = roleD0 then
      if x0 = a0 ∧ t0 ≠ x0 then d0 t0
      else if x0 = t0 ∧ x1 ≠ t1 then viaD1 else none
    else if arr = roleD1 then
      if x1 = a1 ∧ t1 ≠ x1 then d1 t1 else none
    else if x0 ≠ t0 then
      match d0 t0 with
      | some p => some p
      | none => if x0 ≠ a0 then d0 a0 else none
    else if x1 ≠ t1 then viaD1 else none
  m.toList

/-- Whether the device (d1, d0) of this group exists in a version (04 Table 4.28). -/
def State.devPresent (s : State) (v d1 d0 : Nat) : Bool := s.on (RTE_DEV_ENT.present v (d1 * 16 + d0))

/-- The moves toward a GLOBAL port to group `g`: one per candidate (04 R131). -/
def State.groupMoves (s : State) (v g arr : Nat) : List Nat :=
  let x0 := s.get RTE_CFG.d0; let x1 := s.get RTE_CFG.d1
  ((s.groupCands v g).map fun (c1, c0, p) =>
    if c1 = x1 ∧ c0 = x0 then (if s.usable p && s.role p == roleGlobal then [p] else [])
    else if s.devPresent v c1 c0 then s.localMoves arr c1 c0 else []).flatten.dedup

/-- The moves toward a gateway in this group for hall `h` (04 R125, Table 4.4 last row). -/
def State.gatewayMoves (s : State) (v h arr : Nat) : List Nat :=
  let x0 := s.get RTE_CFG.d0; let x1 := s.get RTE_CFG.d1
  let dir := s.get (RTE_HALL_CTL.dir v h)
  (((s.hallCands v h).filter fun (g, _, _) => g == s.get RTE_CFG.group).map fun (_, c1, c0) =>
    if c1 = x1 ∧ c0 = x0 then (if dir = 1 ∨ dir = 2 then s.hallOut (dir - 1) else [])
    else if s.devPresent v c1 c0 then s.localMoves arr c1 c0 else []).flatten.dedup

/-- The gateway group for hall `h` (04 R125). -/
def State.gatewayGroup (s : State) (v h : Nat) : Option Nat :=
  let cs := s.hallCands v h
  if cs.any fun (g, _, _) => g == s.get RTE_CFG.group then some (s.get RTE_CFG.group) else (cs.map (·.1)).head?

/-- The network of an opcode (02 Table 2.4): 0 request, 1 reply, 2 AL_UP, 3 AL_DN, 4 MG, 5 LC; none when reserved. -/
def netOf (op : Nat) : Option Nat :=
  if op = 1 ∨ op = 2 ∨ op = 4 ∨ op = 6 ∨ op = 7 then some 0
  else if op = 3 ∨ op = 5 then some 1
  else if op = 8 then some 2
  else if op = 9 then some 3
  else if op = 10 then some 4
  else if op = 11 then some 5
  else none

/-- The network of a class (03 Table 3.2), numbered as `netOf`. -/
def clsNet (c : Nat) : Nat :=
  if c < 7 then 0 else if c < 14 then 1 else c - 12

/-- The class of a network's phase on a LOCAL or GLOBAL link (04 R122). -/
def clsOf (net phase : Nat) : Nat :=
  if net = 0 then phase else if net = 1 then 7 + phase else net + 12

/-- Kinds of next link (04 Table 4.3). -/
inductive LinkKind where
  | loc | glob | hall
  deriving DecidableEq, Repr

def State.linkKind (s : State) (p : Nat) : LinkKind :=
  if s.role p = roleHall then .hall else if s.role p = roleGlobal then .glob else .loc

/-- The phase a router writes (04 Table 4.3); none where no row matches (R123). -/
def State.phaseFor (s : State) (h : Header) (a : Arrival) (k : LinkKind) : Option Nat :=
  let g := s.get RTE_CFG.group; let hall := s.get RTE_CFG.hall
  let pick (l q : Nat) : Option Nat := match k with | .loc => some l | .glob => some q | .hall => none
  if epHall h.dstEp ≠ hall then
    if !a.injected && a.role = roleHall then (if k = .hall then some h.phase else none)
    else if a.injected || a.phase = 0 then (match k with | .loc => some 0 | .glob => some 1 | .hall => some h.phase)
    else if a.phase = 1 then (match k with | .loc => some 1 | .glob => none | .hall => some h.phase)
    else none
  else
    let inDst := epGroup h.dstEp == g
    if a.injected then
      if inDst && !h.valiant then pick4 k else pick 0 1
    else if a.role = roleHall then (if inDst then pick4 k else pick 2 3)
    else if a.phase = 0 then pick 0 1
    else if a.phase = 1 then
      if a.role ≠ roleGlobal then none
      else if inDst then pick4 k
      else if h.valiant ∧ h.viaGroup = g then pick 2 3 else none
    else if a.phase = 2 then pick 2 3
    else if a.phase = 3 ∨ a.phase = 4 then (if inDst then pick4 k else none)
    else none
where
  /-- Phase 4 is local only. -/
  pick4 (k : LinkKind) : Option Nat := match k with | .loc => some 4 | _ => none

/-- Whether some row of 04 Table 4.3 fits the packet as it arrived (R123). -/
def State.phaseLegal (s : State) (h : Header) (a : Arrival) : Bool :=
  (s.phaseFor h a .loc).isSome || (s.phaseFor h a .glob).isSome || (s.phaseFor h a .hall).isSome

/-- The role that counts in Table 4.4: fresh (0) for an injected packet, one from GLOBAL or HALL, or one whose phase
changes here (04 R130). -/
def State.moveRole (s : State) (h : Header) (a : Arrival) : Nat :=
  if a.injected ∨ a.role = roleGlobal ∨ a.role = roleHall then 0
  else if s.phaseFor h a .loc = some a.phase then a.role else 0

/-- The output ports a request, reply, MG or FIFEL packet may take (04 R125, R130, R131), the table version being the
packet's epoch. -/
def State.moves (s : State) (h : Header) (a : Arrival) : List Nat :=
  let v := h.epoch; let g := s.get RTE_CFG.group
  let dh := epHall h.dstEp; let dg := epGroup h.dstEp
  let arr := s.moveRole h a
  let ms : List Nat :=
    if netOf h.opcode = some 2 ∨ netOf h.opcode = some 3 then []  -- AL packets travel one link (R126)
    else if dh ≠ s.get RTE_CFG.hall then
      if !a.injected && a.role = roleHall then
        -- transit: the HALL port of the other direction (R124)
        let inDir := ((s.hallPorts.find? fun (p, _, _) => p == a.port).map fun (_, d, _) => d).getD 0
        s.hallOut (if a.back then inDir else 1 - inDir)
      else
        let gw := if !a.injected && a.phase = 1 then some g else s.gatewayGroup v dh
        match gw with
        | none => []
        | some gg => if gg = g then s.gatewayMoves v dh arr else s.groupMoves v gg arr
    else
      let toVia := h.valiant && (a.injected || a.phase = 0)
      if toVia then s.groupMoves v h.viaGroup arr
      else if dg = g then
        if s.devPresent v (epD1 h.dstEp) (epD0 h.dstEp) then s.localMoves arr (epD1 h.dstEp) (epD0 h.dstEp) else []
      else s.groupMoves v dg arr
  ms.filter fun p => !(a.back && p == a.port) && (s.phaseFor h a (s.linkKind p)).isSome

/-- Flits queued for a port in a network (04 R131). -/
def State.qdepth (s : State) (net p : Nat) : Nat :=
  if net = 1 then s.get (RTE_PORT_STAT3.qdepth_rp p) else s.get (RTE_PORT_STAT3.qdepth_rq p)

/-- The ports with the fewest flits queued in the network (04 R131). -/
def State.tied (s : State) (net : Nat) (ms : List Nat) : List Nat :=
  ms.filter fun p => ms.all fun q => decide (s.qdepth net p ≤ s.qdepth net q)

/-- The pointer that breaks a tie: each output has one, and a tie is broken by that of the lowest-numbered output in it (04 R131; the
rule says no more of the pointers: DESIGN CHOICE, log entry 96). -/
def State.pointer (s : State) (b : Nat) : Nat := (tget s.rotate b).getD b

/-- The port with the fewest flits queued in the network; of a tie, the first at or after the pointer (04 R131). -/
def State.minQueue (s : State) (net : Nat) (ms : List Nat) : Option Nat :=
  match s.tied net ms with
  | [] => none
  | p :: ps =>
    let at_ (q : Nat) : Nat := (q + 64 - s.pointer (ps.foldl min p)) % 64
    some (ps.foldl (fun b q => if at_ q < at_ b then q else b) p)

/-- The pointer of a tie moves past the port chosen (04 R131). -/
def State.rotated (s : State) (net : Nat) (ms : List Nat) (chosen : Nat) : State :=
  match s.tied net ms with
  | p :: q :: ps => { s with rotate := tput s.rotate ((q :: ps).foldl min p) ((chosen + 1) % 64) }
  | _ => s

/-- Class and header with which a packet leaves by a port (04 R121, R122). -/
def State.stampFor (s : State) (h : Header) (a : Arrival) (net p : Nat) : Nat × Header :=
  let ph := (s.phaseFor h a (s.linkKind p)).getD h.phase
  if net ≥ 2 then (clsOf net 0, { h with phase := ph })
  else if s.role p = roleHall then
    let dl := (s.hallPorts.find? fun (q, _, _) => q == p).map (fun (_, _, d) => d) |>.getD false
    let b := h.dateline || dl
    ((if net = 0 then 5 else 12) + b2n b, { h with dateline := b })
  else (clsOf net ph, { h with phase := ph })

/-- The groups marked present (04 Table 4.23). -/
def State.groupsPresent (s : State) : List Nat :=
  (List.range 256).filter fun g => bit (s.get (RTE_GROUPS_PRESENT.present (g / 64))) (g % 64)

/-- The productive ports of a QS message (04 R152). -/
def State.productive (s : State) (m : QsMsg) : List Nat :=
  let v := m.epoch
  let x0 := s.get RTE_CFG.d0; let x1 := s.get RTE_CFG.d1; let g := s.get RTE_CFG.group
  let toward (t1 t0 : Nat) : List Nat :=
    (if x0 ≠ t0 then (s.localPort roleD0 x1 t0).toList else []) ++ (if x1 ≠ t1 then (s.localPort roleD1 t1 x0).toList else [])
  let toGroup (tg : Nat) : List Nat :=
    let cs := s.groupCands v tg
    let own := (cs.filter fun (c1, c0, _) => c1 == x1 && c0 == x0).map (fun (_, _, p) => p)
    let own := own.filter fun p => s.usable p && s.role p == roleGlobal
    if own ≠ [] then own else (cs.map fun (c1, c0, _) => toward c1 c0).flatten
  let ps : List Nat :=
    if epHall m.dst ≠ s.get RTE_CFG.hall then
      let dir := s.get (RTE_HALL_CTL.dir v (epHall m.dst))
      let own := if dir = 1 ∨ dir = 2 then s.hallOut (dir - 1) else []
      if own ≠ [] then own
      else ((s.hallCands v (epHall m.dst)).map fun (cg, c1, c0) => if cg = g then toward c1 c0 else toGroup cg).flatten
    else if epGroup m.dst = g then toward (epD1 m.dst) (epD0 m.dst)
    else toGroup (epGroup m.dst)
  (ports64.filter ps.contains)

end Sys2Proof.Machine
end

