-- ==== Sys2Proof/Machine/Switch.lean ====
section
/-!
DEFINITION. Machine/Switch.lean: the switch core: Vaults and credit returns, output queues, the choice of an output,
injection, delivery, generated Quicksilver messages, and re-injection of packets handed back.
-/
namespace Sys2Proof.Machine

/-- Whether a thing limited to one per `gap` ns, filed under `key`, may happen now; and the state with it filed. -/
def State.limited (s : State) (key gap : Nat) : Bool × State :=
  match tget s.clh.lastAt key with
  | some t => if s.clk < t + gap then (false, s) else (true, { s with clh := { s.clh with lastAt := tput s.clh.lastAt key s.clk } })
  | none => (true, { s with clh := { s.clh with lastAt := tput s.clh.lastAt key s.clk } })

/-- A record raised at most once per `gap` ns. -/
def State.raiseLimited (s : State) (kind gap src addr detail : Nat) : State :=
  match s.limited kind gap with
  | (true, s) => s.raise kind src addr detail
  | (false, s) => s

/-! ### Vault and credit returns (03 R77 to R79) -/

/-- Adds `n` credits of class `c` to the returns pending; a class first pending notes the frame period. -/
def retAdd (l : List (Nat × Nat × Nat)) (c n stamp : Nat) : List (Nat × Nat × Nat) :=
  if n = 0 then l
  else if l.any (·.1 == c) then modFirst (fun x => x.1 == c) (fun (c, k, t) => (c, k + n, t)) l
  else l ++ [(c, n, stamp)]

/-- `n` flits of class `c` leave the Vault of port `i`: their credits become pending (03 R79), but for those of a packet closed
here (`forced`, R110): the fresh start that goes with it counts whole packets alone (R101), so no credit of the peer's covers
them. -/
def State.leaveVault (s : State) (i c n : Nat) (forced : Bool) : State :=
  let r := LNK_VAULT_CLASS.occupancy i c
  (s.set r (s.get r - n)).modPort i fun q => { q with retPend := retAdd q.retPend c (if forced then 0 else n) q.periods }

/-- Flits of class `c` in the Vault of a port of whole packets that its peer's credits cover (03 R101). -/
def State.wholeOcc (s : State) (p c : Nat) : Nat :=
  (((s.port p).vault.filter fun v => v.cls == c && v.whole && !v.forced).map (·.flits.length)).sum

/-- Flits of class `c` in the Vault of a port that its peer's credits cover: what R78 and R80 count (log entry 90). -/
def State.creditOcc (s : State) (p c : Nat) : Nat :=
  s.get (LNK_VAULT_CLASS.occupancy p c) - (((s.port p).vault.filter fun v => v.cls == c && v.forced).map (·.flits.length)).sum

def State.vaultPkt (s : State) (i id : Nat) : Option VaultPkt := (s.port i).vault.find? (·.id == id)

def State.modVault (s : State) (i id : Nat) (f : VaultPkt → VaultPkt) : State :=
  s.modPort i fun q => { q with vault := modFirst (fun v => v.id == id) f q.vault }

def State.delVault (s : State) (i id : Nat) : State :=
  s.modPort i fun q => { q with vault := q.vault.filter (·.id != id) }

/-! ### Output queues (03 R73, 04 R158) -/

/-- Flits of a queued packet that are present. -/
def State.txReady (s : State) (t : TxPkt) : Nat :=
  t.flits.length + (if t.src < 64 then ((s.vaultPkt t.src t.id).map (·.flits.length)).getD 0 else 0)

/-- Flits queued for port `p` in a network. -/
def State.queued (s : State) (net p : Nat) : Nat :=
  (((s.port p).txq.filter fun t => clsNet t.cls == net).map s.txReady).sum

/-- Brings RTE_PORT_STAT[p][3] to the queues as they stand (04 Table 4.24). -/
def State.qUpd (s : State) (p : Nat) : State :=
  let a := s.queued 0 p; let b := s.queued 1 p
  let s := (s.set (RTE_PORT_STAT3.qdepth_rq p) (min a 0xFFFF)).set (RTE_PORT_STAT3.qdepth_rp p) (min b 0xFFFF)
  s.set (RTE_PORT_STAT3.qdepth_max p) (max (s.get (RTE_PORT_STAT3.qdepth_max p)) (min (a + b) 0xFFFF))

def State.enqueue (s : State) (p : Nat) (t : TxPkt) : State :=
  (s.modPort p fun q => { q with txq := q.txq ++ [t] }).qUpd p

/-! ### Quicksilver messages generated here (04 R154, R155) -/

/-- Preferred port: the productive port with the most free slots in its next frame (04 R153): two, less one for each transit message
that prefers it already; of equals the lowest-numbered (DESIGN CHOICE, log entry 111). -/
def State.qsPrefer (s : State) (ps : List Nat) : Option Nat :=
  let waiting (p : Nat) := min 2 ((s.qsWait.filter (·.pref == p)).length)
  match ps with
  | [] => none
  | p :: r => some (r.foldl (fun b q => if waiting q < waiting b then q else b) p)

/-- A QS message delivered here (04 R155). -/
def State.qsDeliver (s : State) (m : QsMsg) (port : Nat) : State :=
  let s := s.bump QSL_CNT_DELIVERED.ev
  { s with qsHere := s.qsHere ++ [{ msg := m, port, came := s.clk }] }

/-- Depth of the injection queue as QSL_INJ_STAT shows it (04 Table 4.31). -/
def State.injUpd (s : State) : State :=
  let d := s.qsInj.length
  (s.set QSL_INJ_STAT.depth d).set QSL_INJ_STAT.depth_max (max d (s.get QSL_INJ_STAT.depth_max))

/-- A QS message generated here: stamped with the injection epoch (R144), delivered when addressed here, else queued for
injection (R154). -/
def State.qsSend (s : State) (type dst src payload : Nat) : State :=
  let m : QsMsg := { type, dst, src, hops := 0, epoch := s.get RTE_EPOCH.current, payload }
  if s.isHere dst then s.qsDeliver m 64
  else if s.qsInj.length ≥ 4096 then s.bump QSL_CNT_INJ_FULL.ev
  else
    match s.qsPrefer (s.productive m) with
    | none => s.bump QSL_CNT_NO_ROUTE.ev
    | some p => State.injUpd { s with qsInj := s.qsInj ++ [{ msg := m, arr := 64, pref := p, misses := 0 }] }

/-! ### The choice of an output (04 R131 to R133) -/

/-- What the router decides for a header. -/
inductive Decide where
  | port (p cls : Nat) (h : Header)   -- leaves by port p in class cls with this header
  | noPath                            -- R133
  | noRoute                           -- R138
  deriving DecidableEq, Repr

/-- The escalation ports of 04 R132. -/
def State.escapePorts (s : State) (h : Header) (a : Arrival) : List Nat :=
  let g := s.get RTE_CFG.group
  (s.activeRole roleGlobal).filter fun p =>
    let pg := epGroup (s.peer p)
    s.peer p != epUnknown && pg != g && pg != epGroup h.dstEp && !(a.back && p == a.port)

/-- Chooses the output of a header (04 R130 to R133); a choice moves the tie-break pointer. What arrived on a HALL port is in phase 2
or 4 here, or unchanged at transit (Table 4.3), and does not escalate. -/
def State.chooseOut (s : State) (h : Header) (a : Arrival) (net : Nat) : Decide × State :=
  match s.minQueue net (s.moves h a) with
  | some p => (.port p (s.stampFor h a net p).1 (s.stampFor h a net p).2, s.rotated net (s.moves h a) p)
  | none =>
    let hallBound := epHall h.dstEp ≠ s.get RTE_CFG.hall
    let phase0 := if a.injected then !(epGroup h.dstEp == s.get RTE_CFG.group && !h.valiant)
      else a.phase == 0 && a.role != roleHall
    if net ≤ 1 ∧ phase0 ∧ ¬ hallBound then
      match s.minQueue net (s.escapePorts h a) with
      | some p =>
        (.port p (clsOf net 1) { h with valiant := true, viaGroup := epGroup (s.peer p), phase := 1 },
          (s.bump RTE_CNT_ESCALATE.ev).rotated net (s.escapePorts h a) p)
      | none => (.noPath, s)
    else (.noPath, s)

/-- Discard for want of a path (04 R133). -/
def State.noPath (s : State) (src : Nat) : State :=
  (s.bump RTE_CNT_NOPATH.ev).raiseLimited kNO_PATH 1000000 (srcOf 0x20 src) 0 0

/-! ### Telemetry (04 R159) -/

/-- One telemetry record (04 Table 4.7), as a number of 64 bytes: the header as it is forwarded, with its hops risen (02 R553). The
flits queued for the output are those after the packet has been queued, its own that are present among them (DESIGN CHOICE, log
entry 110). -/
def State.teleRecord (s : State) (inPort : Nat) (inj : Bool) (out cls : Nat) (h : Header) : Nat :=
  s.stamp % 2 ^ 64 + (inPort % 64 + b2n inj <<< 6) <<< 64 + out <<< 72 + cls <<< 80
    + (min (s.queued (clsNet cls) out) 0xFFFF) <<< 96
    + (hdrNum (routeWord { h with hops := min 63 (h.hops + 1) }) h % 2 ^ 384) <<< 128

/-! ### Injection (04 R135 to R138) -/

/-- Draws a via group: up to three draws among the groups present other than source and destination (04 R137). -/
def State.drawVia (s : State) (v dg : Nat) : Nat → Option Nat × State
  | 0 => (none, s)
  | n + 1 =>
    let gs := s.groupsPresent.filter fun g => g ≠ s.get RTE_CFG.group ∧ g ≠ dg
    if gs = [] then (none, s)
    else
      let (r, s) := s.free 32
      let g := gs.getD (r % gs.length) 0
      if s.groupCands v g ≠ [] then (some g, s) else s.drawVia v dg n

/-- Least queue of a set of moves; none when there is no move. -/
def State.bestQueue (s : State) (net : Nat) (ms : List Nat) : Option Nat := (s.minQueue net ms).map (s.qdepth net)

/-- The route of an injected packet (04 R135 to R138). -/
def State.injectRoute (s : State) (h : Header) (net : Nat) : Decide × State :=
  let a : Arrival := { injected := true }
  let dh := epHall h.dstEp; let dg := epGroup h.dstEp
  let bound := dh ≠ s.get RTE_CFG.hall
  if bound ∧ s.get (RTE_HALL_CTL.dir h.epoch dh) = 3 then (.noRoute, s)
  else if ¬ bound ∧ dg ≠ s.get RTE_CFG.group ∧ s.groupCands h.epoch dg = [] then (.noRoute, s)
  else
    let pol := if net = 1 then s.get RTE_POLICY.rp else s.get RTE_POLICY.rq
    let minimal := s.get TOP_STATE.svc_state = 2 ∨ bound ∨ net ≥ 2 ∨ s.groupsPresent.length < 3 ∨ pol = 2
    if minimal then s.chooseOut h a net
    else
      match s.drawVia h.epoch dg 3 with
      | (none, s) => s.chooseOut h a net
      | (some g, s) =>
        let hv := { h with valiant := true, viaGroup := g }
        if pol = 1 then s.chooseOut hv a net
        else
          match s.bestQueue net (s.moves h a), s.bestQueue net (s.moves hv a) with
          | some qm, some qv => if qm ≤ 2 * qv + s.get RTE_UGAL_BIAS.bias then s.chooseOut h a net else s.chooseOut hv a net
          | none, some _ => s.chooseOut hv a net
          | _, none => s.chooseOut h a net

/-- A packet delivered here, whole, waits for its engine; a FIFEL packet for its CELL port (04 R121). -/
def State.deliver (s : State) (p : Packet) : State :=
  if p.hdr.opcode = 0x0B then { s with fifelIn := s.fifelIn ++ [p] } else { s with tptIn := s.tptIn ++ [{ p with came := s.clk }] }

/-- Puts a packet on a port's queue: its flits from here. -/
def State.queuePacket (s : State) (p cls : Nat) (h : Header) (pk : Packet) (inj : Bool) (role phase : Nat) : State :=
  let (id, s) := s.newId
  s.enqueue p { id, src := 64, cls, flits := pktFlits { pk with hdr := h }, injected := inj, arrRole := role, arrPhase := phase }

/-- What became of an injected packet. -/
inductive Injected where
  | sent | noPath | noRoute
  deriving DecidableEq, Repr

/-- A header that leaves on port `p`, marked when its queue is deeper than the threshold (04 R150). -/
def State.markFor (s : State) (h : Header) (net p : Nat) : Header :=
  if net ≤ 1 ∧ s.get RTE_MARK_THRESH.thresh < s.queued net p then { h with mark := true } else h

/-- Routing takes a packet for injection, without sampling it: stamps epoch, Hallmark and route, and queues or delivers
it; a multicast packet goes by its group's own mask here (04 R148). A packet forwarded by a stub keeps its mark (R150). The last
item says the port, class and header it left with. -/
def State.injectCore (s : State) (pk : Packet) : Injected × State × Option (Nat × Nat × Header) :=
  let h := { pk.hdr with phase := 0, epoch := s.get RTE_EPOCH.current, valiant := false, dateline := false,
                         viaGroup := 0, hops := 0, injectTime := s.stamp % 2 ^ 32 }
  if !s.on TOP_BOOT_STAT.coords_fixed then (.noRoute, s, none)
  else if h.mcast then (.sent, { s with mcIn := s.mcIn ++ [{ pk with hdr := h, port := 64 }] }, none)
  else if s.isHere h.dstEp then (.sent, s.deliver { pk with hdr := h, port := 64 }, none)
  else
    let net := (netOf h.opcode).getD 0
    match s.injectRoute h net with
    | (.port p c h, s) =>
      let h := s.markFor h net p
      (.sent, s.queuePacket p c h pk true 0 0, some (p, c, h))
    | (.noPath, s) => (.noPath, s.noPath 0xFF, none)
    | (.noRoute, s) => (.noRoute, s, none)

/-- An MG packet of a subtype, from this device (02 Table 2.5). -/
def State.mgPkt (s : State) (sub dst : Nat) (data : List Byte) : Packet :=
  mkPkt { opcode := 0x0A, last := true, length := data.length, dstEp := dst, srcEp := s.ep, w5 := sub } data

/-- Sends the telemetry batch made so far, if any, to the collector (04 Table 4.6). One with no move is discarded and counted (R133);
one whose destination the tables do not reach is not sent (R138), and waits. -/
def State.flushBatch (s : State) : State × Option (Nat × Nat × Header) :=
  if s.samples = [] then (s, none)
  else
    let data := bytesOf 3 s.ep ++ bytesOf 1 s.samples.length ++ bytesOf 4 (min s.sampleLost 0xFFFFFFFF)
      ++ (s.samples.map (bytesOf 64)).flatten
    match State.injectCore { s with samples := [], sampleLost := 0 } (s.mgPkt 0x31 (s.get RTE_SAMPLE.collector) data) with
    | (.noRoute, _, _) => (s, none)
    | (_, t, w) => (t, w)

/-- Takes a sample of a forwarded header with probability 2^-k. With a full batch waiting the path is full, and the sample is lost
(04 R159; how many batches the path holds is a DESIGN CHOICE: log entry 97). -/
def State.sampleTake (s : State) (inPort : Nat) (inj : Bool) (out cls : Nat) (h : Header) : State :=
  if s.on RTE_SAMPLE.enable then
    let (r, s) := s.free 31
    if r % 2 ^ s.get RTE_SAMPLE.k = 0 then
      if s.samples.length ≥ 63 then State.bump { s with sampleLost := s.sampleLost + 1 } RTE_CNT_SAMPLE_LOST.ev
      else { s with samples := s.samples ++ [s.teleRecord inPort inj out cls h] }
    else s
  else s

/-- Sends the batch; its own header is forwarded too, and may be sampled (04 R159). -/
def State.flushSamples (s : State) : State :=
  match s.flushBatch with
  | (s, some (p, c, h)) => s.sampleTake 0 true p c h
  | (s, none) => s

/-- A forwarded header may be sampled; a full batch of 63 is sent (04 R159). -/
def State.sampleHeader (s : State) (inPort : Nat) (inj : Bool) (out cls : Nat) (h : Header) : State :=
  let s := s.sampleTake inPort inj out cls h
  if s.samples.length ≥ 63 then s.flushSamples else s

/-- Routing takes a packet for injection (04 R135 to R138, R159). -/
def State.inject (s : State) (pk : Packet) : Injected × State :=
  match s.injectCore pk with
  | (o, s, some (p, c, h)) => (o, s.sampleHeader 0 true p c h)
  | (o, s, none) => (o, s)

/-- Injection whose outcome nobody awaits. -/
def State.injectDrop (s : State) (pk : Packet) : State := (s.inject pk).2

/-- Sends a packet over one link, whatever the tables say: AL packets (04 R126) and link-local MG packets (13 R476). -/
def State.sendOn (s : State) (p : Nat) (pk : Packet) : State :=
  let net := (netOf pk.hdr.opcode).getD 4
  let h := { pk.hdr with epoch := s.get RTE_EPOCH.current, injectTime := s.stamp % 2 ^ 32, hops := 0 }
  (s.queuePacket p (clsOf net 0) h pk true 0 0).sampleHeader pk.port (pk.port == 64) p (clsOf net 0) h

/-! ### Packets in the Vault (04 R552, R124, R127, R148; 02 R51) -/

/-- The engine of an opcode (02 Table 2.4) as its power domain (12 Table 12.1), 0 for none. -/
def engineOfOp (op : Nat) : Nat :=
  if 1 ≤ op ∧ op ≤ 5 then 17 else if op = 6 ∨ op = 7 then 16 else if op = 8 ∨ op = 9 then 18 else 0

/-- Whether a packet's engine may be given it: a packet for an engine that is off waits in its Vault class (12 R450). -/
def State.engineTakes (s : State) (op : Nat) : Bool := engineOfOp op == 0 || s.get (PWR_DOM.state (engineOfOp op)) == 2

/-- MG packets that the MG relay holds (04 R127, R148). -/
def State.mgRelayed (s : State) : Nat := s.mgIn.length + (s.mcIn.filter fun p => p.hdr.opcode == 0x0A).length

/-- Passes on, keeps or discards what the Vault of port `i` holds of packet `id`, by the decision taken for it. A packet for the hall
relay stays in the Vault, which is the relay's buffer (04 R124). -/
def State.vaultStep (s : State) (i id : Nat) : State :=
  match s.vaultPkt i id with
  | none => s
  | some v =>
    let take (s : State) : State := (s.leaveVault i v.cls v.flits.length v.forced).delVault i id
    let pk := pktOf v.flits v.cls i
    match v.dest with
    | .undecided => s
    | .out p _ => s.qUpd p
    | .drop =>
      let s := s.leaveVault i v.cls v.flits.length v.forced
      if v.whole then s.delVault i id else s.modVault i id fun v => { v with flits := [] }
    | .here => if v.whole ∧ s.engineTakes v.hdr.opcode then (take s).deliver { pk with hdr := v.hdr } else s
    | .relay => if v.whole ∧ !s.relayIn.contains (i, id) then { s with relayIn := s.relayIn ++ [(i, id)] } else s
    | .mg =>
      if v.whole then
        if s.mgRelayed ≥ 64 then (take s).bump RTE_CNT_MG_FULL.ev
        else { take s with mgIn := s.mgIn ++ [{ pk with hdr := v.hdr }] }
      else s
    | .mcast =>
      if v.whole ∧ s.engineTakes v.hdr.opcode then
        if v.hdr.opcode = 0x0A ∧ s.mgRelayed ≥ 64 then (take s).bump RTE_CNT_MG_FULL.ev
        else { take s with mcIn := s.mcIn ++ [{ pk with hdr := v.hdr }] }
      else s

/-- Sets the decision for a packet in the Vault and acts on what is present. -/
def State.routeTo (s : State) (i id : Nat) (d : RouteTo) : State :=
  (s.modVault i id fun v => { v with dest := d }).vaultStep i id

/-- Sends packet `id` of the Vault of port `i` on, with header `h`, as it arrived by `a`; or discards it for want of a path. -/
def State.sendVault (s : State) (i id : Nat) (h : Header) (a : Arrival) (net : Nat) : State :=
  match s.chooseOut h a net with
  | (.port q c h, s) =>
    let h := s.markFor h net q
    let s := (s.modVault i id fun v => { v with hdr := h }).enqueue q
      { id, src := i, cls := c, injected := a.injected, arrRole := a.role, arrPhase := a.phase }
    (s.sampleHeader i false q c h).routeTo i id (.out q c)
  | (_, s) => (s.noPath i).routeTo i id .drop

/-! ### Hand-back (03 R109, 04 R134) -/

/-- A link-local MG packet, which Izger consumes on the port where it arrives (13 R476, 14 R502). -/
def Header.linkLocal (h : Header) : Bool := h.opcode == 0x0A && decide (0x32 ≤ h.w5 % 256 ∧ h.w5 % 256 ≤ 0x35)

/-- A header taken back from Escrow: the hop of the sending that failed is not counted (02 R553; DEDUCED, log entry 36). -/
def unsent (f : Flit) : Flit := let h := hdrOf f; restamp { h with hops := h.hops - 1 } f

/-- Puts a handed-back packet that came by port `inp` (64: injected here), whose first flits are `flits` and whose later ones follow
from `src`, on another port. -/
def State.reinject (s : State) (id src inp : Nat) (a : Arrival) (flits : List Flit) : State :=
  let h := hdrOf (flits.headD 0)
  let net := (netOf h.opcode).getD 4
  let lost (s : State) : State := if src < 64 then s.routeTo src id .drop else s
  -- an AL packet goes to Alloy, which discards it (07 R277)
  if net = 2 ∨ net = 3 then lost s
  else if h.linkLocal then lost (s.noPath 0xFF)
  else
    match s.chooseOut h a net with
    | (.port p c h', s) =>
      let h' := s.markFor h' net p
      let s := (s.enqueue p { id, src, cls := c, flits := restamp h' (flits.headD 0) :: flits.drop 1,
                              injected := a.injected, arrRole := a.role, arrPhase := a.phase }).sampleHeader inp a.injected p c h'
      if src < 64 then s.routeTo src id (.out p c) else s
    | (_, s) => lost (s.noPath 0xFF)

/-- Hands back what port `p` holds: every packet whose header flit is in Escrow or still queued is routed again, the
rest of the others is discarded and counted (03 R109). Escrow and the queue are then empty, and the sequence state is
discarded. -/
def State.handBack (s : State) (p : Nat) : State :=
  let q := s.port p
  let held : List HeldSlot := (q.escrow.map (·.slots)).flatten
  let ids := (held.map (·.id) ++ q.txq.map (·.id)).dedup
  let s := (s.set (LNK_ESCROW.oldest p) 0).set (LNK_ESCROW.next p) 0
  let s := s.modPort p fun q =>
    { q with escrow := [], txq := [], replayQ := [], ackRunning := false, lastReplay := none, replayFrom := none, rxNext := 0,
             nakHold := false, nakPending := false }
  let s := ids.foldl (fun s id =>
    let hs := held.filter (·.id == id)
    let t := q.txq.find? (·.id == id)
    let rest := (t.map (·.flits)).getD []
    let src := match t with | some t => t.src | none => 64
    match hs with
    | x :: _ =>
      let a : Arrival := { injected := x.injected, role := x.arrRole, phase := x.arrPhase, port := p, back := true }
      if x.slot.head then s.reinject id src x.src a (unsent x.slot.flit :: (hs.drop 1).map (·.slot.flit) ++ rest)
      else
        let s := s.bump (LNK_CNT_HANDBACK.ev p)
        if src < 64 then s.routeTo src id .drop else s
    | [] =>
      match t with
      | none => s
      | some t =>
        let a : Arrival := { injected := t.injected, role := t.arrRole, phase := t.arrPhase, port := p, back := true }
        if t.started then
          let s := s.bump (LNK_CNT_HANDBACK.ev p)
          if src < 64 then s.routeTo src id .drop else s
        else if t.flits ≠ [] then s.reinject id src src a rest
        else
          match s.vaultPkt src id with
          | some v =>
            -- the header is still in the input port's Vault: it is routed again from there
            s.sendVault src id v.hdr a (clsNet t.cls)
          | none => s) s
  s.qUpd p

/-- Closes every packet whose head the port has accepted and whose tail it has not, with a stomped trailer (03 R110). -/
def State.closeRx (s : State) (p : Nat) : State :=
  let rx := (s.port p).rx
  let s := s.modPort p fun q => { q with rx := [] }
  rx.foldl (fun s (c, r) =>
    let (e, s) := s.free 32
    let s := s.modVault p r.id fun v => { v with flits := v.flits ++ [tailFlit e true], whole := true, bad := true, forced := true }
    let o := LNK_VAULT_CLASS.occupancy p c
    ((s.set o (s.get o + 1)).raise kSTOMP (srcOf 0x20 p) 0 0).vaultStep p r.id) s

end Sys2Proof.Machine
end

