-- ==== Sys2Proof/Machine/PortOps.lean ====
section
/-!
DEFINITION. Machine/PortOps.lean: what happens to a port as a whole: the device state that follows its ports, link down,
link reset, HELD, entering ACTIVE, NAK, replay, CTRL messages to send.
-/
namespace Sys2Proof.Machine

/-! ### Device state (01 R23 to R26, R32) -/

/-- A STATE_CHANGE record; its detail holds old and new svc_state and pwr_state (01 R32; layout: log entry 6). -/
def State.stateChange (s : State) (os ns op np : Nat) : State :=
  s.raise kSTATE_CHANGE (srcOf 0 0) 0 (os + ns <<< 3 + op <<< 6 + np <<< 8)

/-- Enters a device state (01 R32): 1 BOOT, 2 REDUCED, 3 FULL, 4 DEGRADED. -/
def State.enterSvc (s : State) (n : Nat) : State :=
  let o := s.get TOP_STATE.svc_state; let pw := s.get TOP_STATE.pwr_state
  if o = n then s
  else
    let s := (s.set TOP_STATE.svc_state n).set TOP_STATE_TIME.last_change s.stamp
    let s := if n = 1 then s.event TOP_STATE_EVT.to_boot 1 else if n = 2 then s.event TOP_STATE_EVT.to_reduced 1
      else if n = 3 then s.event TOP_STATE_EVT.to_full 1 else if n = 4 then s.event TOP_STATE_EVT.to_degraded 1 else s
    s.stateChange o n pw pw

/-- Enters a power state (12 R439, 01 R32): 0 FULL, 1 TRIM, 2 VIGIL. -/
def State.enterPwr (s : State) (n : Nat) : State :=
  let o := s.get TOP_STATE.pwr_state; let sv := s.get TOP_STATE.svc_state
  if o = n then s
  else ((((s.set TOP_STATE.pwr_state n).set TOP_STATE_TIME.last_change s.stamp).event TOP_STATE_EVT.pwr_change 1)).stateChange sv sv o n

/-- SRAM banks of the reach pool, SB_6 on, that hold a claimed byte: claims fill them from the lowest, 4 MiB a kilometre of banks of
8 MiB (01 R16; 03 R104; the order is a DESIGN CHOICE, log entry 107). -/
def State.reachBanks (s : State) : Nat :=
  ((ports64.map fun p => max (s.get (LNK_REACH.km p)) (s.get (LNK_REACH.granted p))).sum + 1) / 2

/-- The claimed banks are ON (12 R437). -/
def State.reachOn (s : State) : State := (List.range s.reachBanks).foldl (fun s i => s.set (PWR_DOM.state (38 + i)) 2) s

/-- A provisioned port (01 R23). -/
def State.provisioned (s : State) (p : Nat) : Bool := s.on (PRT_ROLE.role p) && !(s.port p).roleHeld

/-- Whether a provisioned port is out of service (01 R25; HELD and DISABLED: log entry 7). -/
def State.portOut (s : State) (p : Nat) : Bool :=
  s.provisioned p && ((s.port p).outOfService || s.linkState p == 0 || s.linkState p == 10)

/-- Whether a provisioned port ran below its target in its last ACTIVE period (01 R25). The target is PRT_TARGET as it stands:
before the upgrade writes the provisioned one, the beacon's (DESIGN CHOICE, log entry 91). -/
def State.portNarrow (s : State) (p : Nat) : Bool :=
  let q := s.port p
  s.provisioned p && !s.portOut p && q.everActive && s.role p != roleCell
    && (q.lastRate < s.get (PRT_TARGET.rate p) || q.lastWidth < s.get (PRT_TARGET.width p))

/-- Fewer than eight switch slices work (14 R513). -/
def State.sliceShort (s : State) : Bool := decide (popc 9 (s.get IZG_SLICE_STAT.in_use) < 8)

/-- The FULL condition of 01 Table 1.5. -/
def State.fullCond (s : State) : Bool := !(ports64.any fun p => s.portOut p || s.portNarrow p) && !s.sliceShort

/-- TOP_STATE's port and slice bits, and the move between FULL and DEGRADED (01 R24). -/
def State.svcUpdate (s : State) : State :=
  let s := ((s.setB TOP_STATE.port_out (ports64.any s.portOut)).setB TOP_STATE.port_narrow (ports64.any s.portNarrow)).setB
    TOP_STATE.slice_short s.sliceShort
  let sv := s.get TOP_STATE.svc_state
  if sv = 3 ∨ sv = 4 then s.enterSvc (if s.fullCond then 3 else 4) else s

/-! ### Joining of a HALL link (13 R488) -/

def State.hallLetter (s : State) (p : Nat) : Option RF :=
  if s.on RTE_HALL_CFG.a_valid ∧ s.get RTE_HALL_CFG.a_port = p then some TOP_BRINGUP_STAT.hall_joined_a
  else if s.on RTE_HALL_CFG.b_valid ∧ s.get RTE_HALL_CFG.b_port = p then some TOP_BRINGUP_STAT.hall_joined_b
  else none

/-- Brings a HALL port's joined state to what 13 R488 gives. -/
def State.joinUpdate (s : State) (p : Nat) : State :=
  let q := s.port p
  if s.role p ≠ roleHall ∧ !q.joined then s
  else
    let sv := s.get TOP_STATE.svc_state
    let may := s.active p && decide (s.get (LNK_STAT.rate p) ≥ s.get (PRT_TARGET.rate p))
      && decide (s.get (LNK_STAT.width p) ≥ s.get (PRT_TARGET.width p)) && sv == 3 && q.coord.service
    let stay := !s.portOut p && (sv == 3 || sv == 4) && q.coord.service
    let j := if q.joined then stay else may
    if j = q.joined then s
    else
      let s := s.modPort p fun q => { q with joined := j }
      let s := match s.hallLetter p with | some r => s.setB r j | none => s
      s.stateChange sv sv (s.get TOP_STATE.pwr_state) (s.get TOP_STATE.pwr_state)

def State.joinAll (s : State) : State := ports64.foldl State.joinUpdate s

/-! ### Edges of a tree (07 R252) -/

def State.trRoot (s : State) (t : Nat) : Bool := s.on (ALY_TREE1.root t)
def State.trKids (s : State) (t : Nat) : List Nat := bitsOf 64 (s.get (ALY_TREE2.child_ports t))
/-- The edges of a node: 64 for its parent, then its child ports. -/
def State.trEdges (s : State) (t : Nat) : List Nat := (if s.trRoot t then [] else [64]) ++ s.trKids t
/-- An edge's own port. -/
def State.edgeOwn (s : State) (t e : Nat) : Nat := if e = 64 then s.get (ALY_TREE1.parent_port t) else e
/-- The peer device of an edge. -/
def State.edgeDev (s : State) (t e : Nat) : Nat := if e = 64 then epDev (s.get (ALY_TREE1.parent_endpoint t)) else epDev (s.peer e)
/-- The port by which a node sends on an edge now; none while it is stalled. -/
def State.edgePort (s : State) (t e : Nat) : Option Nat :=
  let own := s.edgeOwn t e
  if s.usable own then some own
  else ports64.find? fun p => p != own && s.usable p && epDev (s.peer p) == s.edgeDev t e

/-- ALY_TREE_STAT.stalled of every tree that is ACTIVE or ABORTED. -/
def State.treesStalled (s : State) : State :=
  s.trees.foldl (fun s (t, _) =>
    s.setB (ALY_TREE_STAT.stalled t) (s.on (ALY_TREE_STAT.state t) && (s.trEdges t).any fun e => (s.edgePort t e).isNone)) s

/-! ### COORD as sent (13 R476, R478) -/

def State.serial (s : State) : Nat := s.get SEC_SERIAL.serial

/-- What the head has assigned to its peer on a port: (dimension, value) (13 R478 step 2). -/
def State.assignment (s : State) (p : Nat) : Option (Nat × Nat) :=
  if s.boot.head ≠ s.serial then none
  else
    (s.boot.assigned.getD []).findSome? fun (n, dim, v) =>
      if n = s.get (LNK_PEER.serial p) ∧ s.role p = (if dim = 0 then roleD0 else roleD1) then some (dim, v) else none

/-- The COORD payload for a port (13 Table 13.5). -/
def State.coordData (s : State) (p : Nat) : List Byte :=
  let b := s.boot
  let coord (o : Option Nat) : Nat := match o with | some d => d % 16 + 16 | none => 0
  let sv := s.get TOP_STATE.svc_state
  let asg := match s.assignment p with | some (dim, v) => v % 16 + 16 + 32 * dim | none => 0
  bytesOf 8 s.serial ++ bytesOf 8 b.head ++ bytesOf 3 s.epShown ++ bytesOf 1 (coord b.d0) ++ bytesOf 1 (coord b.d1)
    ++ bytesOf 1 (b2n (s.on TOP_BOOT_STAT.up_ready) + 2 * b2n (sv == 3 || sv == 4) + 4 * b2n (s.on TOP_BOOT_STAT.coords_fixed))
    ++ bytesOf 1 asg ++ bytesOf 1 0

/-- The ports that carry COORD: ACTIVE, of role LOCAL_D0, LOCAL_D1, GLOBAL or HALL (13 R476). -/
def State.coordPorts (s : State) : List Nat := ports64.filter fun p => s.active p && decide (1 ≤ s.role p ∧ s.role p ≤ 4)

/-- What COORD says on a port is noted. -/
def State.coordNote (s : State) (p : Nat) : State := s.modPort p fun q => { q with coordSent := some (s.coordData p) }

/-- Sends a COORD on a port (13 R476). -/
def State.sendCoord (s : State) (p : Nat) : State := (s.coordNote p).sendOn p (s.mgPkt 0x32 (s.peer p) (s.coordData p))

/-- COORD goes out at once on each port where its content has changed since the port was last looked at in ACTIVE (13 R476). -/
def State.coordSync (s : State) : State :=
  s.coordPorts.foldl (fun s p =>
    match (s.port p).coordSent with
    | none => s.coordNote p
    | some c => if c = s.coordData p then s else s.sendCoord p) s

/-- Everything that follows from a change of the ports. -/
def State.settle (s : State) : State := s.svcUpdate.joinAll.treesStalled.coordSync

/-! ### CTRL messages (03 R74, R94) -/

def State.ctrlSend (s : State) (p : Nat) (m : CtrlMsg) : State :=
  s.modPort p fun q => { q with ctrlQ := q.ctrlQ ++ [{ msg := m, waited := 0 }] }

/-- 18 values of a table by class. -/
def list18 (l : List (Nat × Nat)) : List Nat := (List.range 18).map (tcnt l)

/-- A CREDIT_SYNC that waits. -/
def CtrlWait.isSync (w : CtrlWait) : Bool := match w.msg with | .creditSync _ => true | _ => false

/-- Sends a CREDIT_SYNC (03 R81), or makes the one that already waits the answer; its totals are those of its sending. -/
def State.sendCreditSync (s : State) (p : Nat) (answer : Bool) : State :=
  s.modPort p fun q =>
    if q.ctrlQ.any (·.isSync) then
      { q with ctrlQ := modFirst (·.isSync) (fun w => { w with answer := w.answer || answer }) q.ctrlQ }
    else { q with ctrlQ := q.ctrlQ ++ [{ msg := .creditSync [], answer }] }

/-- Asks for a CREDIT_SYNC, at most once per 64 frame periods (03 R81). -/
def State.askCreditSync (s : State) (p : Nat) : State :=
  if (s.port p).syncReqGap ≥ 64 then (s.ctrlSend p .creditSyncReq).modPort p fun q => { q with syncReqGap := 0 } else s

/-- The target in force for a reset: PRT_TARGET, or x1 at 26.5625 GBd for a beacon reset (03 R97): rate and width codes. -/
def State.targetOf (s : State) (p : Nat) : Nat × Nat :=
  if (s.port p).beaconReset then (0, 0) else (s.get (PRT_TARGET.rate p), s.get (PRT_TARGET.width p))

/-- The IDENT this port sends (03 Table 3.5). -/
def State.ownIdent (s : State) (p : Nat) : IdentInfo :=
  let (r, w) := s.targetOf p
  { serial := s.get SEC_SERIAL.serial, endpoint := s.epShown, port := p, role := s.role p,
    version := s.get TOP_ID.cuhan_version, maxRate := r, maxWidth := w, reachKm := s.get (LNK_REACH.km p),
    challenge := (s.port p).challenge }

/-- The IDENT_SIG this port sends once it has the peer's IDENT: over its own IDENT bytes 8 to 63 and the peer's
challenge (03 Table 3.5). A device without its DevID key cannot sign: key and signature are free values (14 R495; log entry 62). -/
def State.ownIdentSig (s : State) (p : Nat) (peer : IdentInfo) : CtrlMsg × State :=
  let body := (bytesOf 64 (ctrlBits (.ident (s.ownIdent p)))).drop 8
  match s.izg.devSeed with
  | some k => (.identSig (Config.edPublic k).toNat (edSign k (body ++ bytesOf 32 peer.challenge)).toNat, s)
  | none =>
    let (k, t) := s.free 256
    let (x, t) := t.free 512
    (.identSig k x, t)

/-! ### Going down and resetting (03 R89 to R92, R118) -/

/-- Most ports of a role (04 Table 4.1). -/
def roleLimit (r : Nat) : Nat := if r = 1 ∨ r = 2 then 15 else if r = 3 then 32 else if r = 4 then 2 else if r = 5 then 8 else 64

/-- Whether R118 holds port `p` in DISABLED: as many lower-numbered ports have its role as the role's limit. -/
def State.overLimit (s : State) (p : Nat) : Bool :=
  let r := s.get (PRT_ROLE.role p)
  decide (((List.range p).filter fun q => s.get (PRT_ROLE.role q) == r).length ≥ roleLimit r)

/-- The items of an ADVERT: GLOBAL and HALL ports in ACTIVE (04 R142). -/
def State.advertItems (s : State) : List Nat :=
  (ports64.filter fun p => s.active p && (s.role p == roleGlobal || s.role p == roleHall)).map fun p =>
    p + epGroup (s.peer p) <<< 8 + epHall (s.peer p) <<< 16

/-- Sends an ADVERT to each LOCAL neighbour (04 R142), once this device's coordinates are known. -/
def State.advertise (s : State) : State :=
  if s.on TOP_BOOT_STAT.coords_fixed then
    let items := s.advertItems
    let data := bytesOf 3 s.ep ++ bytesOf 1 items.length ++ (items.map (bytesOf 4)).flatten
    (s.activeRole roleD0 ++ s.activeRole roleD1).foldl (fun s p => s.sendOn p (s.mgPkt 0x30 (epDev (s.peer p)) data)) s
  else s

/-- What a port forgets as it leaves service or starts a training anew; Escrow, Vault, sequences and credit totals stay
(03 R92), and what came before a certificate check passed waits for one that does (14 R502; DESIGN CHOICE, log entry 116). -/
def Port.clearTraining (q : Port) : Port :=
  { q with ctrlQ := [], ctrlIn := [], nakPending := false, nakHold := false, ident := none, identSent := false,
           openSent := none, peerOpen := none, echoed := none, resetSets := [], pairSets := 0, pairsSeen := 0,
           peerLocked := 0, peerTxOk := 0, goodFrames := 0, probe := none, quietSent := false, waking := false,
           coordSent := none, replayQ := [], syncReqGap := 64, pcs := {} }

/-- The reset limit of a port has expired: it is out of service, its Escrow is handed back, and it closes what it was
receiving (03 R108 to R110). -/
def State.limitExpire (s : State) (p : Nat) : State :=
  let s := s.modPort p fun q => { q with outOfService := true, limitRunning := false, fresh := true }
  let s := (s.event (LNK_EVT.reset_limit p) 3).raise kRESET_LIMIT (srcOf 0x10 p) 0 0
  ((s.handBack p).closeRx p).set (LNK_STAT.handed_back p) 1

/-- Lanes marked degraded that are no longer excluded as such are readmitted at a reset (03 R90, Table 3.24). -/
def State.readmit (s : State) (p : Nat) : State :=
  (List.range 8).foldl (fun s l =>
    if bit (s.get (PRT_LANE_EXCL.auto p)) l then s else s.set (PRT_LANE_STAT.degraded p l) 0) s

/-- What is sent when a GLOBAL or HALL port enters or leaves ACTIVE (04 R142). -/
def State.adverted (s : State) (wasRole : Nat) : State := if wasRole = roleGlobal ∨ wasRole = roleHall then s.advertise else s

/-- Sends a port to HELD with a MISCABLE record (03 R96, Table 3.28). A reset limit that runs goes on, and one that has expired stays
so (R108); a port held in ACTIVE has gone down, and its limit runs from here (DEDUCED, log entry 7). -/
def State.holdPort (s : State) (p code : Nat) : State :=
  let up := s.active p
  let was := if up then s.role p else 0
  let s := (s.modPort p Port.clearTraining).modPort p fun q => { q with everActive := false, limitRunning := q.limitRunning || up }
  let s := (s.set (LNK_STAT.state p) 10).set (PRT_ROLE.effective p) 0
  let s := if up ∧ s.get (LNK_RESET_LIMIT.limit_us p) = 0 then s.limitExpire p else s
  (((s.event (LNK_EVT.held p) 3).raise kMISCABLE (srcOf 0x10 p) 0 code).adverted was).settle

/-- The pads of a port's tile are held: its transmitters are at electrical idle (12 R451). -/
def State.padHeld (s : State) (p : Nat) : Bool := bit (s.get PWR_PAD.held_tile) (p / 8)

/-- Whether the device is in recovery boot, in which only PF0 of HL_0 enumerates (13 R471). -/
def State.recovering (s : State) : Bool := s.on TOP_BOOT_STAT.recovery && decide (s.get TOP_BOOT_STAT.stage < 8)

/-- The cabling plan in force lacks this device (13 R475). -/
def State.ownAbsent (s : State) : Bool := match s.boot.plan with | some l => (tget l s.serial).isNone | none => false

/-- Enters RESET_ENTRY; or DISABLED when the port's role is UNUSED or over its limit, or in recovery boot (03 Table 3.3, 04 R118; 13
R471); or HELD while the cabling plan lacks this device (13 R475). From service, HELD
or DISABLED the reset limit runs anew, and the port counts as in service until it ends; a limit of 0 ends at once (R108; 01
R25). -/
def State.startReset (s : State) (p : Nat) : State :=
  let st := s.linkState p
  let anew : Bool := st == 0 || st == 8 || st == 9 || st == 10
  let s := (s.modPort p Port.clearTraining).readmit p
  let r := s.get (PRT_ROLE.role p)
  let held := r ≠ 0 ∧ s.overLimit p
  if r = 0 ∨ held ∨ s.recovering then
    let s := (s.set (LNK_STAT.state p) 0).set (PRT_ROLE.effective p) 0
    s.modPort p fun q => { q with roleHeld := held, everActive := false, limitRunning := false, outOfService := false }
  else if s.ownAbsent then (s.modPort p fun q => { q with roleHeld := false }).holdPort p 0x14
  else
    let s := (s.set (LNK_STAT.state p) 1).set (PRT_ROLE.effective p) r
    let s := s.modPort p fun q =>
      { q with roleHeld := false, limitRunning := q.limitRunning || anew, outOfService := q.outOfService && !anew }
    if anew ∧ s.get (LNK_RESET_LIMIT.limit_us p) = 0 then s.limitExpire p else s

/-- A reset attempt that failed or was cut short: back to RESET_ENTRY, counted (03 R91, R92). -/
def State.retryReset (s : State) (p : Nat) : State := (s.bump (LNK_CNT_RESET.ev p)).startReset p

/-- A cause of R88 to R90 arises on a port (03 R91): from ACTIVE the link goes down; in training the training starts
again; elsewhere nothing. -/
def State.linkDown (s : State) (p cause : Nat) : State :=
  let st := s.linkState p
  if st = stActive then
    let s := s.set (LNK_STAT.down_cause p) cause
    let s := (s.event (LNK_EVT.down p) 3).raise kLINK_DOWN (srcOf 0x10 p) 0 cause
    let was := s.role p
    ((s.startReset p).adverted was).settle
  else if (2 ≤ st ∧ st ≤ 7) ∨ st = 11 then s.retryReset p
  else s

/-! ### Sequences, NAK, replay (03 R83 to R87) -/

def seqMod : Nat := 2 ^ 24

/-- `s` is behind `x` (03 R83). -/
def behind (q x : Nat) : Bool := let d := subMod seqMod x q; decide (1 ≤ d ∧ d ≤ 2 ^ 23)

/-- Whether `a` lies from `oldest` to `next`, inclusive (03 R83). -/
def inSpan (oldest next a : Nat) : Bool := decide (subMod seqMod a oldest ≤ subMod seqMod next oldest)

/-- A cause for a NAK (03 R85): sent unless the NAK state holds; more than 1,024 in a window bring the link down (R88). -/
def State.nakCause (s : State) (p : Nat) : State :=
  let q := s.port p
  if q.nakHold ∧ s.clk < q.nakAt + s.get (LNK_ACK_TIMER.period_ns p) then s
  else
    let s := s.modPort p fun q => { q with nakPending := true, nakHold := true, nakAt := s.clk }
    let n := s.get (LNK_ERR_WIN.naks p) + 1
    let s := (s.set (LNK_ERR_WIN.naks p) (min n 2047)).bump (LNK_CNT_NAK.ev p)
    if n > 1024 then s.linkDown p 1 else s

/-- Starts a replay from sequence `q` (03 R86); the eighth failed replay in a row brings the link down (R88). -/
def State.startReplay (s : State) (p q : Nat) : State :=
  let failed := s.get (LNK_ERR_WIN.failed_replays p) + b2n ((s.port p).lastReplay == some q)
  let s := (s.set (LNK_ERR_WIN.failed_replays p) (min failed 15)).bump (LNK_CNT_REPLAY.ev p)
  if failed ≥ 8 then s.linkDown p 3
  else s.modPort p fun t =>
    { t with lastReplay := some q, replayFrom := some q, replayAt := s.clk, ackRunning := true,
             replayQ := (t.escrow.map (·.seq)).dropWhile fun x => behind x q }

/-- Releases the Escrow frames behind `a` (03 R83, R86, R87). -/
def State.release (s : State) (p a : Nat) : State :=
  if a = s.get (LNK_ESCROW.oldest p) then s
  else
    let s := (s.set (LNK_ESCROW.oldest p) a).set (LNK_ERR_WIN.failed_replays p) 0
    s.modPort p fun q =>
      let e := q.escrow.dropWhile fun f => behind f.seq a
      { q with escrow := e, lastReplay := none, replayQ := q.replayQ.filter fun x => !behind x a, ackRunning := e != [] }

/-- A received acknowledgement, with its NAK bit (03 R83, R86). -/
def State.takeAck (s : State) (p a : Nat) (nak : Bool) : State :=
  let next := s.get (LNK_ESCROW.next p)
  if inSpan (s.get (LNK_ESCROW.oldest p)) next a then
    let s := s.release p a
    let q := s.port p
    if nak ∧ a ≠ next ∧ ¬ (q.replayFrom = some a ∧ s.clk < q.replayAt + s.get (LNK_ACK_TIMER.period_ns p)) then s.startReplay p a
    else s
  else s.bump (LNK_CNT_STALE.ev p)

/-- A credit return of `n` flits of class `c` (03 R78, R81); CTRL messages that wait note that it came after them. -/
def State.takeCredit (s : State) (p c n : Nat) : State :=
  let r := LNK_VAULT_USED.used p c
  (s.set r (s.get r - n)).modPort p fun q =>
    { q with receivedTotal := tput q.receivedTotal c ((tcnt q.receivedTotal c + n) % 2 ^ 32),
             ctrlIn := q.ctrlIn.map fun m => { m with since := tput m.since c (tcnt m.since c + n) } }

/-- Credits restored by a total of the peer's (03 R81), which counts all that had been returned when its message came: not
what came `since`. -/
def State.syncCredits (s : State) (p : Nat) (returned : List Nat) (since : List (Nat × Nat)) : State :=
  (List.range 18).foldl (fun s c =>
    let d := subMod (2 ^ 32) (returned.getD c 0 + tcnt since c) (tcnt (s.port p).receivedTotal c)
    if d = 0 then s
    else
      let r := LNK_VAULT_USED.used p c
      let s := (s.set r (s.get r - d)).modPort p fun q =>
        { q with receivedTotal := tput q.receivedTotal c ((tcnt q.receivedTotal c + d) % 2 ^ 32) }
      (s.bumpN (LNK_CNT_CREDIT.ev p) d).event (LNK_EVT.credit_restored p) 3) s

/-! ### Entering ACTIVE -/

/-- A port enters ACTIVE (03 Table 3.3, R88, R108; 04 R142; 11 R397; 14 R502). -/
def State.enterActive (s : State) (p : Nat) : State :=
  let s := s.set (LNK_STAT.state p) stActive
  let s := (s.set (LNK_STAT.handed_back p) 0).set (LNK_ERR_WIN.naks p) 0
  let s := ((s.set (LNK_ERR_WIN.fec_uncorr p) 0).set (LNK_ERR_WIN.frames p) 0).event (LNK_EVT.up p) 3
  let ro := s.role p
  let pair := (s.get (LNK_PEER.serial p), (s.port p).peerKey)
  let cached := s.izg.certs.contains pair
  let needCert : Bool := ro != roleCell && !cached
  let s := if cached then { s with izg := { s.izg with certs := pair :: s.izg.certs.filter (· != pair) } } else s
  let s := s.modPort p fun q =>
    { q with everActive := true, lastRate := s.get (LNK_STAT.rate p), lastWidth := s.get (LNK_STAT.width p),
             outOfService := false, limitRunning := false, fresh := false, laneTimeouts := 0, noTrainRaised := false,
             cellFails := 0, winCorr := [], goodFrames := 0, nakHold := false, nakPending := false, waking := false,
             ackRunning := q.escrow != [], hmkFSet := false, hmkDiscards := 0, hmkTx := [], hmkRx := none,
             hmkForm1 := none, certWait := needCert, quietSent := false, beaconReset := false }
  -- the certificate request is link-local (14 R502)
  let s := if needCert then s.sendOn p (s.mgPkt 0x34 (s.peer p) []) else s
  (s.adverted ro).settle

end Sys2Proof.Machine
end

