-- ==== Sys2Proof/WellFormed.lean ====
section
/-!
DEFINITION. WellFormed.lean: which commands an agent can send at all: the lengths and ranges that the operand types of
Syntax.lean do not already carry. FRAME_RECEIVE alone stops on an ill-formed operand; every other command is total.
-/
namespace Sys2Proof

/-- A link frame has 15 flit tags and 15 flit slots (02 R36). -/
def LinkFrame.wf (f : LinkFrame) : Bool := f.tags.length == 15 && f.flits.length == 15

/-- A read answers 1 to 64 descriptors (09 R332). -/
def FetchResult.wf : FetchResult → Bool
  | .ok ds => decide (1 ≤ ds.length ∧ ds.length ≤ 64)
  | .failed => true

/-- A translated page range is a power of two pages, aligned, within 64-bit addresses (08 R307). -/
def TransResult.wf : TransResult → Bool
  | .ok first pages _ _ _ => decide (first < 2 ^ 52 ∧ pages = 2 ^ pages.log2 ∧ first % pages = 0)
  | .denied => true

/-- A PMBus word, byte or block answer has at most 64 bits (12 R455). -/
def PmbAnswer.wf : PmbAnswer → Bool
  | .ok data => decide (data < 2 ^ 64)
  | _ => true

def PmbTry.wf (t : PmbTry) : Bool := t.first.wf && t.again.wf

/-- The fuses hold four owner slots (14 R495). -/
def Fuses.wf (f : Fuses) : Bool := f.owner.length == 4

/-- A run of host memory lies within 64-bit addresses (08 R290). -/
def HostChunk.wf (c : HostChunk) : Bool := decide (c.addr + c.data.length ≤ 2 ^ 64)

/-- An access crosses no 4 KiB boundary (01 R31). -/
def Access.wf (a : Access) : Bool := decide (a.addr.toNat % 4096 + a.size.toNat ≤ 4096)

/-- Whether a command's operands are what an agent can send. -/
def wellFormed : Instr → Bool
  | .registerWrite a _ | .rcRead a | .unmappedAccess a _ | .domainOffAccess a _ => a.wf
  | .frameReceive _ f _ => f.wf
  | .descriptorFetchComplete _ _ res => res.wf
  | .vfEnableSet _ numVfs => decide (numVfs ≤ 255)
  | .apertureLoad _ _ _ len _ hv => decide (1 ≤ len.toNat ∧ len.toNat ≤ 4096) && hv.all HostChunk.wf
  | .apertureStore _ _ _ data hv => decide (1 ≤ data.length ∧ data.length ≤ 4096) && hv.all HostChunk.wf
  | .outboundAccess _ _ write data _ len => decide (1 ≤ len.toNat ∧ len.toNat ≤ 4096) && (!write || data.length == len.toNat)
  | .hostCompletionReceive _ _ _ _ data => decide (data.length ≤ 4096)
  | .translationCompletion _ _ page res => decide (page < 2 ^ 52) && res.wf
  | .invalidateRequest _ _ _ _ _ page pages => decide (page + pages ≤ 2 ^ 52)
  | .fuseRead f => f.wf
  | .pmbCommand _ ans => ans.wf
  | .pmbTelemetryPoll _ vout iout temp => vout.wf && iout.wf && temp.wf
  | .put _ _ hv | .get _ _ hv | .atomic _ _ hv | .order _ _ hv | .send _ _ hv | .recv _ _ hv | .coll _ _ hv | .move _ _ hv => hv.all HostChunk.wf
  | _ => true

end Sys2Proof
end

