-- ==== Sys2Proof/Machine/Link.lean ====
section
/-!
DEFINITION. Machine/Link.lean: the Cuhan link in service: receiving and sending frames, acknowledgement, replay, credits,
error windows, link down (03 R67 to R91, 04 R152 to R155).
-/
namespace Sys2Proof.Machine

/-! ### Entering the PARAM state (03 R77, R104, R554) -/

/-- This port's opening PARAM but for its send time (03 Table 3.5). -/
def State.ownParam (s : State) (p : Nat) (echo : Bool) (turn : Nat) : ParamMsg :=
  let q := s.port p
  { v := 8192 + 32768 * s.get (LNK_REACH.granted p), floors := (List.range 18).map fun c => (tget q.floors c).getD 66,
    caps := list18 q.caps, e := s.get (LNK_ESCROW.depth p), fresh := q.fresh, echo,
    x := q.rxNext, occ := (List.range 18).map (s.wholeOcc p),
    returned := list18 q.returnedTotal, turnaround := turn }

/-- Enters PARAM: the reach claim and the floors and caps written take effect, and the opening PARAM waits to be sent: its
contents are those of its sending. -/
def State.enterParam (s : State) (p : Nat) : State :=
  let km := s.get (LNK_REACH.km p)
  let v := 8192 + 32768 * km
  let fl := (List.range 18).map fun c => s.get (LNK_VAULT_CLASS.floor p c)
  let cp := (List.range 18).map fun c => s.get (LNK_VAULT_CLASS.cap p c)
  let bad := fl.sum > v
  let s := if bad then s.raise kVAULT_CONFIG (srcOf 0x10 p) 0 0 else s
  let s := (s.set (LNK_REACH.granted p) km).set (LNK_ESCROW.depth p) (256 + 2048 * km)
  let s := (s.set (LNK_ACK_TIMER.period_ns p) (2000 + 10000 * km)).set (LNK_STAT.state p) 7
  let s := s.modPort p fun q =>
    { q with floors := if bad then [] else (List.range 18).zip fl, caps := (List.range 18).zip cp, goodFrames := 0,
             openSent := none, peerOpen := none, echoed := none,
             ctrlIn := q.ctrlIn.filter fun m => match m.msg with | .param _ => false | _ => true }
  (s.reachOn.ctrlSend p (.param {})).sendCreditSync p false

/-! ### Receiving a frame -/

/-- A logical lane whose count in this window exceeds PRT_DEGRADE.thresh is marked degraded (03 R90). -/
def State.degradeCheck (s : State) (p l : Nat) : State :=
  let t := tcnt (s.port p).winCorr l
  let phys := (List.range 8).find? fun i => s.on (PRT_LANE_STAT.active p i) && s.get (PRT_LANE_STAT.logical p i) == l
  match phys with
  | none => s
  | some i =>
    if t > s.get (PRT_DEGRADE.thresh p) ∧ !s.on (PRT_LANE_STAT.degraded p i) then
      let s := (s.set (PRT_LANE_STAT.degraded p i) 1).set (PRT_LANE_EXCL.auto p) (orBit (s.get (PRT_LANE_EXCL.auto p)) i)
      let s := (s.raise kLANE_DEGRADED (srcOf 0x11 p) 0 0).event (LNK_EVT.lane_degraded p) 3
      if s.on (LNK_CFG.auto_narrow p) then s.linkDown p 9 else s
    else s

/-- PRT_DEGRADE.thresh has been written: the counts of this window are held against it (03 R90). -/
def State.degradeWrite (s : State) (p : Nat) : State := (s.port p).winCorr.foldl (fun s (l, _) => s.degradeCheck p l) s

/-- Corrected symbols on a logical lane (03 R90). -/
def State.corrected (s : State) (p l n : Nat) : State :=
  let r := PRT_FEC_LANE.corrected p l
  let s := s.set r (min (s.get r + n) (2 ^ 48 - 1))
  (s.modPort p fun q => { q with winCorr := tput q.winCorr l (tcnt q.winCorr l + n) }).degradeCheck p l

/-- What a link protocol error or a credit violation does to its port: the link goes down, or the training starts again; a port in the
wake exchange enters link reset (02 R56, 03 R80; 12 R445). -/
def State.protoDown (s : State) (p cause : Nat) : State :=
  if s.linkState p = 9 then (s.startReset p).settle else s.linkDown p cause

/-- A link protocol error at a byte of the frame or cell (02 R56). -/
def State.linkProto (s : State) (p offset : Nat) : State :=
  (s.raise kLINK_PROTO (srcOf 0x10 p) 0 offset).protoDown p 5

/-- The byte offset of the first illegal value that does not depend on packet state (02 R56). No version is agreed before
IDENT ends, so none is judged there: the identity checks answer for it (03 R96). -/
def State.frameIllegal (s : State) (p : Nat) (f : LinkFrame) : Option Nat :=
  let t := f.ftype.toNat
  let badTag (b : BitVec 8) : Bool :=
    bit b.toNat 7 && (decide (bf b.toNat 0 5 ≥ 18) || (bit b.toNat 5 && bit b.toNat 6) || t != 1)
  let badCr (c n : Nat) : Bool := decide (18 ≤ c ∧ c ≤ 30) || (c == 31 && n != 0)
  if t = 0 ∨ t > 3 ∨ (s.linkState p ≠ 4 ∧ f.version.toNat ≠ s.get TOP_ID.cuhan_version) then some 0
  else if badCr f.cr0Class.toNat f.cr0Count.toNat then some 8
  else if badCr f.cr1Class.toNat f.cr1Count.toNat then some 10
  else (f.tags.findIdx? badTag).map (12 + ·)

/-- The receiver's packet state after one flit; none where the flit is illegal in it (02 R56, R51). -/
def rxStep (rx : List (Nat × RxPkt)) (x : Slot) : Option (List (Nat × RxPkt)) :=
  match tget rx x.cls with
  | none => if x.head then some (tput rx x.cls { total := min 66 (flitCount (hdrOf x.flit).length), got := 1 }) else none
  | some r =>
    if x.head then none
    else if x.tail ∨ r.got + 1 ≥ r.total then some (tdel rx x.cls)
    else some (tput rx x.cls { r with got := r.got + 1 })

/-- Index of the first slot that is illegal in the packet state, in slots numbered from `k`. -/
def rxIllegal : List (Nat × RxPkt) → List (Nat × Slot) → Option Nat
  | _, [] => none
  | rx, (k, x) :: r => match rxStep rx x with
    | none => some k
    | some rx => rxIllegal rx r

/-- Whether the Vault has room for one more flit of class `c`, given what the peer's credits cover (03 R78, R80). -/
def State.roomFor (s : State) (p : Nat) (occ : List Nat) (c : Nat) : Bool :=
  let q := s.port p
  let fl (k : Nat) := (tget q.floors k).getD 66
  let cap := tcnt q.caps c
  let o := occ.getD c 0
  let v := 8192 + 32768 * s.get (LNK_REACH.granted p)
  let excess := ((List.range 18).map fun k => occ.getD k 0 - fl k).sum
  let pool := v - ((List.range 18).map fl).sum
  decide (o < fl c) || ((cap == 0 || decide (o < cap)) && decide (excess < pool))

/-- The first slot of a frame, of slots numbered as listed, whose flit finds no room. -/
def State.noRoom (s : State) (p : Nat) : List Nat → List (Nat × Slot) → Option Nat
  | _, [] => none
  | occ, (k, x) :: r => if s.roomFor p occ x.cls then s.noRoom p (occ.set x.cls (occ.getD x.cls 0 + 1)) r else some k

/-- The valid slots of a frame with their slot numbers. -/
def slotIdx (f : LinkFrame) : List (Nat × Slot) :=
  ((List.range 15).filter fun k => bit ((f.tags.getD k 0).toNat) 7).zip (slotsOf f)

/-- One accepted flit enters the Vault (03 R84; 02 R51: a trailer missing at its place or early closes the packet
stomped). -/
def State.acceptFlit (s : State) (p : Nat) (x : Slot) : State :=
  let o := LNK_VAULT_CLASS.occupancy p x.cls
  let s := s.set o (s.get o + 1)
  match tget (s.port p).rx x.cls with
  | none =>
    let h := hdrOf x.flit
    let (id, s) := s.newId
    s.modPort p fun q =>
      { q with rx := tput q.rx x.cls { id, total := min 66 (flitCount h.length), got := 1 },
               vault := q.vault ++ [{ id, cls := x.cls, hdr := h, flits := [x.flit], bad := decide (h.length > 4096) }] }
  | some r =>
    let here := r.got + 1
    let ends := x.tail || decide (here ≥ r.total)
    let wasBad := ((s.vaultPkt p r.id).map (·.bad)).getD false
    let bad := wasBad || x.tail != decide (here = r.total)
    let (e, s) := s.free 32
    -- a stomped trailer: the CRC that came, inverted; where none came it is a free value (log entry 2)
    let last : Flit :=
      if x.tail then tailFlit ((bf x.flit.toNat 0 32) ^^^ 0xFFFFFFFF) true else tailFlit e true
    let fl := if ends ∧ bad then last else x.flit
    let s := if ends ∧ bad then s.raise kSTOMP (srcOf 0x20 p) 0 0 else s
    let s := s.modPort p fun q =>
      { q with rx := if ends then tdel q.rx x.cls else tput q.rx x.cls { r with got := here } }
    (s.modVault p r.id fun v => { v with flits := v.flits ++ [fl], whole := ends, bad }).vaultStep p r.id

/-- Whether a port takes DATA frames: in ACTIVE, and in the wake exchange, whose peer may be in ACTIVE before it (03 R84;
12 R445). -/
def State.takesData (s : State) (p : Nat) : Bool := s.active p || s.linkState p == 9

/-- What a DATA frame that would be accepted is to be discarded for: an illegal flit (false) or one without room (true), and
its slot (02 R56; 03 R80). -/
def State.dataFault (s : State) (p : Nat) (f : LinkFrame) : Option (Bool × Nat) :=
  if f.ftype.toNat = 1 ∧ f.seq.toNat = (s.port p).rxNext ∧ s.takesData p then
    match rxIllegal (s.port p).rx (slotIdx f) with
    | some k => some (false, k)
    | none => (s.noRoom p ((List.range 18).map (s.creditOcc p)) (slotIdx f)).map (true, ·)
  else none

/-- A credit violation, handled as a link protocol error (03 R80). -/
def State.creditFault (s : State) (p offset : Nat) : State :=
  (s.raise kCREDIT_VIOLATION (srcOf 0x10 p) 0 offset).protoDown p 6

/-- A DATA frame with seq = X is accepted (03 R84). -/
def State.acceptData (s : State) (p : Nat) (f : LinkFrame) : State :=
  let s := s.modPort p fun q => { q with rxNext := (q.rxNext + 1) % seqMod, nakHold := false }
  (slotsOf f).foldl (fun s x => s.acceptFlit p x) s

/-- A CTRL message that arrives waits for its own command; a reserved code is counted (03 R94). -/
def State.takeCtrl (s : State) (p : Nat) (f : LinkFrame) : State :=
  match ctrlOf (ctrlBody f) with
  | some m =>
    let (t, s) := s.pcsNow
    s.modPort p fun q => { q with ctrlIn := q.ctrlIn ++ [{ msg := m, now := t, clk := s.clk }] }
  | none => s.bump (LNK_CNT_STALE.ev p)

/-- A frame that is neither corrupt nor an error: it is counted where it says that it is replayed (02 R41), what every frame carries is
used, then its body (03 R76, R84). Missing frames are a cause for a NAK in ACTIVE alone (log entry 92). -/
def State.serveFrame (s : State) (p : Nat) (f : LinkFrame) : State :=
  let st := s.linkState p
  let s := if f.replayed then s.modPort p fun q => { q with replayedIn := q.replayedIn + 1 } else s
  let s := s.takeAck p f.ackSeq.toNat f.nak
  let s := if f.cr0Class.toNat < 18 then s.takeCredit p f.cr0Class.toNat f.cr0Count.toNat else s
  let s := if f.cr1Class.toNat < 18 then s.takeCredit p f.cr1Class.toNat f.cr1Count.toNat else s
  let qs := (if f.qs0v then [qsOf f.qs0.toNat] else []) ++ (if f.qs1v then [qsOf f.qs1.toNat] else [])
  let sync := qs.any fun m => m.type == 4 && !bit m.payload 63
  let (t, s) := if sync then s.pcsNow else (s.stamp, s)
  let s := { s with qsRx := s.qsRx ++ qs.map fun m => { msg := m, port := p, rx := t } }
  let s := if sync then s.modPort p fun q => { q with hmkRx := some t } else s
  if s.linkState p ≠ st then s
  else
    let x := (s.port p).rxNext
    let q := f.seq.toNat
    let ahead := q ≠ x ∧ !behind q x
    if f.ftype.toNat = 1 then
      if q = x then (if s.takesData p then s.acceptData p f else s) else if ahead ∧ s.active p then s.nakCause p else s
    else if f.ftype.toNat = 2 then (if ahead ∧ s.active p then s.nakCause p else s)
    else s.takeCtrl p f

/-- A frame counted good on a port that relocks or locks (03 Table 3.3; 12 R445). -/
def State.goodFrame (s : State) (p : Nat) : State :=
  let n := (s.port p).goodFrames + 1
  let s := s.modPort p fun q => { q with goodFrames := n }
  let st := s.linkState p
  if st = 6 ∧ n ≥ 64 then s.enterParam p
  else if st = 9 ∧ (s.port p).waking ∧ !s.padHeld p ∧ n ≥ 16 then
    let s := (List.range 8).foldl (fun s l =>
      if s.on (PRT_LANE_STAT.active p l) then s.set (PRT_LANE_STAT.signal p l) 1 else s) s
    let s := (s.set (LNK_STAT.state p) stActive).modPort p fun q =>
      { q with waking := false, goodFrames := 0, hmkFSet := false, hmkDiscards := 0, quietSent := false, quietCause := false }
    (s.adverted (s.role p)).settle
  else s

/-- What the decoder found in codewords (03 R88, R90): corrected symbols by logical lane of `w`, and uncorrectable codewords, of
which the seventeenth in a window is a cause of link down. -/
def State.decoded (s : State) (p w : Nat) (ds : List (Option (List Nat))) : State :=
  let fixed := (ds.filterMap id).flatten
  let s := (List.range w).foldl (fun s l =>
    let n := (fixed.filter fun i => i % w == l).length
    if n = 0 then s else s.corrected p l n) s
  let old := s.get (LNK_ERR_WIN.fec_uncorr p)
  let u := old + (ds.filter Option.isNone).length
  let s := s.set (LNK_ERR_WIN.fec_uncorr p) (min u 31)
  if old ≤ 16 ∧ u > 16 then s.linkDown p 2 else s

/-- FRAME_RECEIVE (03 R70, R76, R84): nothing of a corrupt frame, or of one that is an error, is used. -/
def State.frameReceive (s : State) (p : Nat) (f : LinkFrame) (rx : RxErrors) : State :=
  let st := s.linkState p
  if ¬ (st = 4 ∨ st = 6 ∨ st = 7 ∨ st = 8 ∨ st = 9) ∨ s.role p = roleCell then s
  else
    let w := s.lanesNow p
    let (lost, ds, s) := s.pcsTake p rx
    let bad := lost ∨ !frameCrcOk f
    let s := s.set (LNK_ERR_WIN.frames p) (min (s.get (LNK_ERR_WIN.frames p) + 1) (2 ^ 24 - 1))
    let s := s.decoded p w ds
    if bad then
      let s := (s.bump (LNK_CNT_CORRUPT.ev p)).modPort p fun q => { q with goodFrames := 0 }
      if s.active p then (s.nakCause p).askCreditSync p else s
    else if s.linkState p ≠ st then s
    else
      match s.frameIllegal p f with
      | some off => s.linkProto p off
      | none =>
        match s.dataFault p f with
        | some (false, k) => s.linkProto p (12 + k)
        | some (true, k) => s.creditFault p (12 + k)
        | none =>
          let s := s.serveFrame p f
          if s.linkState p = st ∧ st ≠ stActive then s.goodFrame p else s

/-! ### Sending a frame -/

/-- Ports a message generated here may use: an HMK_SYNC, its own (02 R54; 14 R502); any other, its productive ones. -/
def State.qsPorts (s : State) (w : QsWait) : List Nat :=
  if w.msg.type = 4 then (if s.active w.pref then [w.pref] else []) else s.productive w.msg

/-- An HMK_SYNC as its frame is sent: hops 0, and form 0 takes its send time and turnaround (11 R395; 02 R553). -/
def State.hmkStamp (s : State) (o : Nat) (m : QsMsg) : QsMsg × State :=
  if bit m.payload 63 then (m, s)
  else
    let (t, s) := s.pcsNow
    let turn := match (s.port o).hmkRx with | some r => if t - r ≤ 8000000 then t - r else 0x7FFFFF | none => 0x7FFFFF
    ({ m with payload := t % 2 ^ 40 + turn * 2 ^ 40 }, s.modPort o fun q => { q with hmkTx := (t :: q.hmkTx).take 8 })

/-- Takes a QS message for a slot of port `o`: counted as sent, and as a deflection where the port is not its preferred
one (04 R153, R553). -/
def State.qsPlace (s : State) (o : Nat) (w : QsWait) (defl : Bool) : QsMsg × State :=
  let r := QSL_PORT_STAT0.sent o
  let s := s.set r (min (s.get r + 1) (2 ^ 48 - 1))
  let s := if defl then
      let d := QSL_PORT_STAT1.deflected_out o
      (s.bump QSL_CNT_DEFLECTED.ev).set d (min (s.get d + 1) (2 ^ 48 - 1))
    else s
  if w.msg.type = 4 then s.hmkStamp o w.msg else ({ w.msg with hops := w.msg.hops + 1 }, s)

/-- Transit messages whose preferred port is no longer productive choose again, or are dropped (04 R153). -/
def State.qsRefresh (s : State) : State :=
  let ws := s.qsWait
  ws.foldl (fun s w =>
    let ps := s.productive w.msg
    if ps.contains w.pref then { s with qsWait := s.qsWait ++ [w] }
    else
      match s.qsPrefer ps with
      | some p => { s with qsWait := s.qsWait ++ [{ w with pref := p }] }
      | none => s.bump QSL_CNT_NO_ROUTE.ev) { s with qsWait := [] }

/-- Local messages with no productive port left are dropped (04 R154). -/
def State.injRefresh (s : State) : State :=
  let ws := s.qsInj
  State.injUpd <| ws.foldl (fun s w =>
    let ps := s.qsPorts w
    if ps.contains w.pref then { s with qsInj := s.qsInj ++ [w] }
    else
      match s.qsPrefer ps with
      | some p => { s with qsInj := s.qsInj ++ [{ w with pref := p }] }
      | none => s.bump QSL_CNT_NO_ROUTE.ev) { s with qsInj := [] }

/-- Whether a transit message may use a frame of port `o` (04 R153). -/
def State.qsMay (s : State) (o : Nat) (w : QsWait) : Bool :=
  let ps := s.productive w.msg
  w.pref == o || (decide (w.misses ≥ 1) && ps.contains o)
    || ((decide (w.misses ≥ 2) || (decide (w.misses ≥ 1) && (ps.filter (· != w.pref)).isEmpty))
        && s.usable o && s.role o != roleCell)

/-- The oldest of a list of waiting messages: higher hops first, then the lower arrival port (04 R153). -/
def qsOldest : List QsWait → Option QsWait
  | [] => none
  | w :: r => some (r.foldl (fun a b =>
      if b.msg.hops > a.msg.hops ∨ (b.msg.hops = a.msg.hops ∧ b.arr < a.arr) then b else a) w)

/-- The transit message that takes the next free slot of port `o` (04 R153). -/
def State.qsTransit (s : State) (o : Nat) : Option QsWait :=
  match qsOldest (s.qsWait.filter (·.pref == o)) with
  | some w => some w
  | none => qsOldest (s.qsWait.filter (s.qsMay o))

/-- The oldest local message that may use port `o` (04 R154). -/
def State.qsLocal (s : State) (o : Nat) : Option QsWait := s.qsInj.find? fun w => (s.qsPorts w).contains o

/-- Fills one QS slot of a frame of port `o`; `eighth` gives it to a local message first (04 R153, R154). A local message that leaves
by a productive port other than its preferred one counts as no deflection (DESIGN CHOICE, log entry 112). -/
def State.qsSlot (s : State) (o : Nat) (eighth : Bool) : Option QsMsg × State :=
  let loc (s : State) : Option QsMsg × State :=
    match s.qsLocal o with
    | some w =>
      let (m, s) := State.qsPlace (State.injUpd { s with qsInj := s.qsInj.erase w }) o w false
      (some m, s)
    | none => (none, s)
  let tra (s : State) : Option QsMsg × State :=
    match s.qsTransit o with
    | some w =>
      let (m, s) := State.qsPlace { s with qsWait := s.qsWait.erase w } o w (w.pref != o)
      (some m, s)
    | none => (none, s)
  if eighth ∧ (s.qsLocal o).isSome then loc s
  else
    match tra s with
    | (some m, s) => (some m, s)
    | (none, s) => loc s

/-- After a frame of port `o`: messages that prefer it and were not placed miss; at four misses they are dropped
(04 R153). -/
def State.qsMiss (s : State) (o : Nat) : State :=
  let ws := s.qsWait.map fun w => if w.pref = o then { w with misses := w.misses + 1 } else w
  let gone := (ws.filter fun w => decide (w.misses ≥ 4)).length
  State.bumpN { s with qsWait := ws.filter fun w => decide (w.misses < 4) } QSL_CNT_STALE.ev gone

/-- The two classes whose oldest pending returns are oldest; ties go to the larger count, then the lower class
(03 R79). -/
def retOldest : List (Nat × Nat × Nat) → Option (Nat × Nat × Nat)
  | [] => none
  | x :: r => some (r.foldl (fun a b =>
      if b.2.2 < a.2.2 ∨ (b.2.2 = a.2.2 ∧ (b.2.1 > a.2.1 ∨ (b.2.1 = a.2.1 ∧ b.1 < a.1))) then b else a) x)

/-- Takes one credit return of at most 2,047 (03 R79, R81), of a class other than `but`: its class and count, or class 31. -/
def State.takeReturn (s : State) (p but : Nat) : (Nat × Nat) × State :=
  match retOldest ((s.port p).retPend.filter (·.1 != but)) with
  | none => ((31, 0), s)
  | some (c, n, t) =>
    let k := min n 2047
    ((c, k), s.modPort p fun q =>
      { q with retPend := if k < n then modFirst (fun x => x.1 == c) (fun _ => (c, n - k, t)) q.retPend
                          else q.retPend.filter (·.1 != c),
               returnedTotal := tput q.returnedTotal c ((tcnt q.returnedTotal c + k) % 2 ^ 32) })

/-- Whether the sender holds a credit for one more flit of class `c` (03 R78). -/
def State.hasCredit (s : State) (p c : Nat) : Bool :=
  let used (k : Nat) := s.get (LNK_VAULT_USED.used p k)
  let fl (k : Nat) := s.get (LNK_VAULT_USED.peer_floor p k)
  let cap := s.get (LNK_VAULT_USED.peer_cap p c)
  let excess := ((List.range 18).map fun k => used k - fl k).sum
  let pool := (s.port p).peerV - ((List.range 18).map fl).sum
  decide (used c < fl c) || ((cap == 0 || decide (used c < cap)) && decide (excess < pool))

/-- The packet of class `c` whose flit goes next on a port (03 R73). -/
def State.txNext (s : State) (p c : Nat) : Option TxPkt :=
  let ts := (s.port p).txq.filter (·.cls == c)
  match ts.find? (·.started) with
  | some t => some t
  | none => ts.head?

/-- Whether class `c` may fill a slot now (03 R75). -/
def State.eligible (s : State) (p c : Nat) : Bool :=
  match s.txNext p c with
  | some t => decide (s.txReady t > 0) && s.hasCredit p c
  | none => false

/-- Sends the next flit of a queued packet (03 R73 to R79; 04 R553: hops rises as the header is sent). -/
def State.sendFlit (s : State) (p : Nat) (t : TxPkt) : HeldSlot × State :=
  let r := LNK_VAULT_USED.used p t.cls
  let s := s.set r (s.get r + 1)
  let fl := RTE_PORT_STAT1.tx_flits p
  let s := s.set fl (min (s.get fl + 1) (2 ^ 48 - 1))
  let head := !t.started
  let stampUp (h : Header) (f : Flit) : Flit := restamp { h with hops := min 63 (h.hops + 1) } f
  let mk (f : Flit) (last : Bool) : HeldSlot :=
    { id := t.id, injected := t.injected, arrRole := t.arrRole, arrPhase := t.arrPhase, src := t.src,
      slot := { cls := t.cls, head, tail := last, flit := f } }
  let fin (s : State) (last : Bool) : State :=
    if last then
      let n := RTE_PORT_STAT0.tx_packets p
      (s.set n (min (s.get n + 1) (2 ^ 48 - 1))).modPort p fun q => { q with txq := q.txq.filter (·.id != t.id) }
    else s.modPort p fun q => { q with txq := modFirst (fun x => x.id == t.id) (fun x => { x with started := true }) q.txq }
  match t.flits with
  | f :: rest =>
    let last := rest.isEmpty && decide (t.src ≥ 64 ∨ (s.vaultPkt t.src t.id).isNone)
    let f := if head then stampUp (hdrOf f) f else f
    let s := s.modPort p fun q => { q with txq := modFirst (fun x => x.id == t.id) (fun x => { x with flits := rest }) q.txq }
    (mk f last, (fin s last).qUpd p)
  | [] =>
    match s.vaultPkt t.src t.id with
    | some v =>
      let f := v.flits.headD 0
      let last := v.whole && v.flits.length == 1
      let f := if head then stampUp v.hdr f else f
      let s := (s.modVault t.src t.id fun v => { v with flits := v.flits.drop 1, gone := v.gone + 1 }).leaveVault t.src v.cls 1 v.forced
      let s := if last then s.delVault t.src t.id else s
      (mk f last, (fin s last).qUpd p)
    | none => (mk 0 true, fin s true)

/-- Fills up to `n` slots of a DATA frame, round robin over the classes (03 R75). -/
def State.fillSlots (s : State) (p : Nat) : Nat → List HeldSlot × State
  | 0 => ([], s)
  | n + 1 =>
    let start := (s.port p).rrNext
    match (List.range 18).findSome? fun k =>
        let c := (start + 1 + k) % 18
        if s.eligible p c then some c else none with
    | none => ([], s)
    | some c =>
      match s.txNext p c with
      | none => ([], s)
      | some t =>
        let (x, s) := s.sendFlit p t
        let s := s.modPort p fun q => { q with rrNext := c }
        let (r, s) := s.fillSlots p n
        (x :: r, s)

/-- What a frame is to carry besides what every frame does. -/
inductive Payload where
  | data (seq : Nat) (replay : Bool) (slots : List HeldSlot)
  | ctrl (m : CtrlMsg)
  | idle
  deriving DecidableEq, Repr

/-- A CTRL message as its frame is sent. A CREDIT_SYNC tells what has been returned, this frame's returns among it (03 R81). The
first PARAM of a stay is the opening, told as things stand, and is kept; another repeats it, with echo set and how long the
peer's opening has waited (R554). -/
def State.ctrlStamp (s : State) (p : Nat) (m : CtrlMsg) : CtrlMsg × State :=
  let q := s.port p
  match m with
  | .creditSync _ => (.creditSync (list18 q.returnedTotal), s)
  | .param m =>
    let turn := if q.peerOpen.isSome then s.clk - q.peerOpenAt else 0
    if q.openSent.isNone then
      let (t, s) := s.pcsNow
      let o := { s.ownParam p m.echo turn with sendTime := t }
      (.param o, s.modPort p fun q => { q with opening := o, openSent := some t })
    else (.param { q.opening with echo := true, turnaround := turn }, s)
  | m => (m, s)

/-- The fields that every frame carries: acknowledgement, NAK, credit returns and QS slots (03 R76); then the frame, which goes
into the PCS. -/
def State.buildFrame (s : State) (p : Nat) (y : Payload) : State :=
  let q := s.port p
  let eighth := q.framesSent % 8 = 7
  let s := s.qsRefresh.injRefresh
  let ((c0, n0), s) := s.takeReturn p 31
  let ((c1, n1), s) := s.takeReturn p c0
  let (m0, s) := if s.active p && !s.stopping then s.qsSlot p false else (none, s)
  let (m1, s) := if s.active p && !s.stopping then s.qsSlot p eighth else (none, s)
  let s := if s.usable p then s.qsMiss p else s
  let next := s.get (LNK_ESCROW.next p)
  let (y, s) : Payload × State := match y with
    | .ctrl m => let (m, s) := s.ctrlStamp p m; (.ctrl m, s)
    | y => (y, s)
  let (ty, seq, rep, tags, flits) : Nat × Nat × Bool × List (BitVec 8) × List Flit :=
    match y with
    | .data q r xs =>
      (1, q, r, xs.map (fun x => tagOf x.slot) ++ List.replicate (15 - xs.length) 0,
        xs.map (·.slot.flit) ++ List.replicate (15 - xs.length) 0)
    | .ctrl m => (3, 0, false, List.replicate 15 0, ctrlFlits m)
    | .idle => (2, next, false, List.replicate 15 0, List.replicate 15 0)
  let f : LinkFrame :=
    { ftype := BitVec.ofNat 4 ty, version := BitVec.ofNat 4 (s.get TOP_ID.cuhan_version), nak := q.nakPending,
      qs0v := m0.isSome, qs1v := m1.isSome, replayed := rep, seq := BitVec.ofNat 24 seq,
      ackSeq := BitVec.ofNat 24 q.rxNext, cr0Class := BitVec.ofNat 5 c0, cr0Count := BitVec.ofNat 11 n0,
      cr1Class := BitVec.ofNat 5 c1, cr1Count := BitVec.ofNat 11 n1, tags,
      qs0 := (m0.map qsBits).getD 0, qs1 := (m1.map qsBits).getD 0, flits, fcrc := 0 }
  let s := s.modPort p fun q =>
    { q with nakPending := false, framesSent := q.framesSent + 1, periods := q.periods + 1, syncReqGap := min 64 (q.syncReqGap + 1),
             ctrlQ := q.ctrlQ.map fun w => { w with waited := w.waited + 1 } }
  (s.emit (.frame p (sealFrame f))).pcsSend p 5 (frameAll (sealFrame f))

/-- Sends the CTRL message that waits first among those that satisfy `f`. -/
def State.sendCtrl (s : State) (p : Nat) (f : CtrlWait → Bool) : Option State :=
  (takeFirst f (s.port p).ctrlQ).map fun (w, r) => (s.modPort p fun q => { q with ctrlQ := r }).buildFrame p (.ctrl w.msg)

/-- A QUIET that still waits goes no further once flits have been queued or frames are held: it is to be sent only with nothing queued
and Escrow empty (12 R444). -/
def State.quietRecheck (s : State) (p : Nat) : State :=
  let q := s.port p
  let isQuiet (w : CtrlWait) : Bool := match w.msg with | .quiet _ => true | _ => false
  if q.quietSent ∧ q.ctrlQ.any isQuiet ∧ (q.txq ≠ [] ∨ q.escrow ≠ []) then
    s.modPort p fun q => { q with quietSent := false, ctrlQ := q.ctrlQ.filter (!isQuiet ·) }
  else s

/-- The frame slot of a port in ACTIVE (03 R74, R81, R82; 12 R444). -/
def State.sendActive (s : State) (p : Nat) : State :=
  let s := s.quietRecheck p
  let q := s.port p
  match s.sendCtrl p fun w => w.isSync && w.answer && decide (w.waited ≥ 63) with
  | some s => s
  | none =>
    match q.replayQ with
    | x :: r =>
      let s := s.modPort p fun q => { q with replayQ := r }
      match q.escrow.find? (·.seq == x) with
      | some h => s.buildFrame p (.data x true h.slots)
      | none => s.buildFrame p .idle
    | [] =>
      match s.sendCtrl p fun w => decide (w.waited ≥ 64) with
      | some s => s
      | none =>
        let room := decide (q.escrow.length < s.get (LNK_ESCROW.depth p)) && !q.quietSent && !s.stopping
        let (xs, t) := if room then s.fillSlots p 15 else ([], s)
        if xs ≠ [] then
          let x := t.get (LNK_ESCROW.next p)
          let t := (t.set (LNK_ESCROW.next p) ((x + 1) % seqMod)).modPort p fun q =>
            { q with escrow := q.escrow ++ [{ seq := x, slots := xs }], ackRunning := true }
          t.buildFrame p (.data x false xs)
        else
          match s.sendCtrl p fun _ => true with
          | some s => s
          | none => s.buildFrame p .idle

/-- The training set of a lane (03 Table 3.4). -/
def State.trainSet (s : State) (p l : Nat) : BitVec 256 :=
  let lk := maskOf ((List.range 8).filter fun i => s.on (PRT_LANE_STAT.locked p i))
  let ex := s.get (PRT_LANE_EXCL.sw p) ||| s.get (PRT_LANE_EXCL.auto p)
  let ok := maskOf ((List.range 8).filter fun i => !bit ex i && !s.on (PRT_LANE_STAT.tx_fault p i))
  let n := 0x3CA55AC3 + (l + b2n (s.linkState p == 1) <<< 3) <<< 32 + lk <<< 40 + ok <<< 48
    + s.get SEC_SERIAL.serial <<< 64
  BitVec.ofNat 256 (n + crc32c (bytesOf 28 n) <<< 224)

/-- The lanes a port sends training sets on (03 Table 3.3). -/
def State.trainLanes (s : State) (p : Nat) : List Nat :=
  let ex := s.get (PRT_LANE_EXCL.sw p) ||| s.get (PRT_LANE_EXCL.auto p)
  (List.range 8).filter fun i => s.linkState p == 1 || (!bit ex i && !s.on (PRT_LANE_STAT.tx_fault p i))

/-- FRAME_SEND outside ACTIVE: training sets, the IDENT exchange, IDLE frames while locking (03 Table 3.3, 12 R445). -/
def State.sendTraining (s : State) (p : Nat) : State :=
  let st := s.linkState p
  let q := s.port p
  if st = 1 ∨ st = 2 ∨ st = 3 then (s.trainLanes p).foldl (fun s l => s.emit (.trainSet p l (s.trainSet p l))) s
  else if st = 4 then
    let s := match q.ident with
      | some m => if q.framesSent % 2 = 1 then
          let (sig, s) := s.ownIdentSig p m
          (s.ctrlSend p sig).modPort p fun q => { q with identSent := true }
                  else s.ctrlSend p (.ident (s.ownIdent p))
      | none => s.ctrlSend p (.ident (s.ownIdent p))
    (s.sendCtrl p fun _ => true).getD s
  else if st = 6 ∨ (st = 9 ∧ q.waking ∧ !s.padHeld p) then s.buildFrame p .idle
  else if st = 7 then (s.sendCtrl p fun _ => true).getD (s.buildFrame p .idle)
  else s

/-! ### Fifel cells out (02 R55, 03 R113) -/

/-- A cell goes out, with the acknowledgement that every cell carries. -/
def State.cellOut (s : State) (p : Nat) (c : Cell) : State :=
  let c := { c with cack := (s.port p).cellExp }
  (s.emit (.cell p c)).pcsSend p 10 (cellBytes c ++ bytesOf 4 (crc32c (cellBytes c)))

/-- Sends a cell (03 R113): replayed first, then a new one where a credit and the window allow, else IDLE; each returns credits of
one channel. In CELL_LOCK IDLE cells alone go, without credits; no new cell goes while the device stops for an internal reset (01
R28). With the last new cell of a packet the packet is sent (04 R158). -/
def State.sendCell (s : State) (p : Nat) : State :=
  if s.linkState p = 11 then s.cellOut p {}
  else if s.linkState p ≠ stActive then s
  else
    let q := s.port p
    let (cf, cn) := match q.cellOwed.find? fun (_, n) => n > 0 with | some (f, n) => (f, min n 63) | none => (0, 0)
    let s := s.modPort p fun q => { q with cellOwed := tput q.cellOwed cf (tcnt q.cellOwed cf - cn) }
    let out (s : State) (c : Cell) : State := s.cellOut p { c with crFvc := cf, crCount := cn }
    if q.cellReplay > 0 then
      let c := q.cellEscrow.getD (q.cellEscrow.length - q.cellReplay) {}
      if tcnt q.cellCredit c.fvc > 0 then
        out (s.modPort p fun q => { q with cellReplay := q.cellReplay - 1, cellCredit := tput q.cellCredit c.fvc (tcnt q.cellCredit c.fvc - 1) }) c
      else out s {}
    else
      match q.cellTx.find? fun c => decide (tcnt q.cellCredit c.fvc > 0) && !s.stopping with
      | some c =>
        if q.cellEscrow.length < 255 then
          let c' := { c with cseq := q.cellNext }
          let n := RTE_PORT_STAT0.tx_packets p
          let s := if c.kind = 3 ∨ c.kind = 4 then s.set n (min (s.get n + 1) (2 ^ 48 - 1)) else s
          out (s.modPort p fun q =>
            { q with cellTx := q.cellTx.erase c, cellEscrow := q.cellEscrow ++ [c'], cellNext := (q.cellNext + 1) % 256,
                     cellCredit := tput q.cellCredit c.fvc (tcnt q.cellCredit c.fvc - 1) }) c'
        else out s {}
      | none => out s {}

/-! ### Timers and writes -/

/-- ACK_TIMER_EXPIRY: frames are held, and a replay from the oldest starts (03 R86, R87); nothing while QUIET (R111). -/
def execAckTimerExpiry (p : PortNo) (s : State) : Host.Outcome State Fault Refusal :=
  .next (if s.active p.val ∧ (s.port p.val).ackRunning then s.startReplay p.val (s.get (LNK_ESCROW.oldest p.val)) else s)

/-- ERROR_WINDOW_END: the counts of the window restart (03 R88); failed replays are not tied to it. -/
def execErrorWindowEnd (p : PortNo) (s : State) : Host.Outcome State Fault Refusal :=
  let i := p.val
  .next ((((s.set (LNK_ERR_WIN.naks i) 0).set (LNK_ERR_WIN.fec_uncorr i) 0).set (LNK_ERR_WIN.frames i) 0).modPort i fun q =>
    { q with winCorr := [] })

/-- A link reset: brings an ACTIVE link down with cause SOFTWARE, starts a training anew, or leaves HELD or DISABLED
(03 R89, R91, Table 3.7). A port that comes from HELD or DISABLED runs LNK_RESET_LIMIT from here (R108). In QUIET nothing
brings a link down (R91). -/
def State.linkReset (s : State) (p : Nat) : State :=
  let st := s.linkState p
  if st = 0 ∨ st = 10 then (s.startReset p).settle else s.linkDown p 8

/-- CREDIT_SYNC: the oldest CREDIT_SYNC that has come restores credits (03 R81). -/
def execCreditSync (p : PortNo) (s : State) : Host.Outcome State Fault Refusal :=
  .next (match takeFirst (fun m => match m.msg with | .creditSync _ => true | _ => false) (s.port p.val).ctrlIn with
    | some ({ msg := .creditSync l, since, .. }, r) => (s.modPort p.val fun q => { q with ctrlIn := r }).syncCredits p.val l since
    | _ => s)

/-- CREDIT_SYNC_REQ: the Vault owner answers with a CREDIT_SYNC (03 R81). -/
def execCreditSyncReq (p : PortNo) (s : State) : Host.Outcome State Fault Refusal :=
  .next (match takeFirst (fun m => m.msg == .creditSyncReq) (s.port p.val).ctrlIn with
    | some (_, r) => (s.modPort p.val fun q => { q with ctrlIn := r }).sendCreditSync p.val true
    | none => s)

/-- CREDIT_SYNC_PERIOD: every 65,536 frame periods a CREDIT_SYNC is sent (03 R81). -/
def execCreditSyncPeriod (p : PortNo) (s : State) : Host.Outcome State Fault Refusal :=
  .next (if s.active p.val then s.sendCreditSync p.val false else s)

end Sys2Proof.Machine
end

