-- ==== Sys2Proof/Machine/Upgrade.lean ====
section
/-!
DEFINITION. Machine/Upgrade.lean: the staggered upgrade and its tile passes (13 R482 to R485), COORD as sent (13 R476),
and the default tables (04 R141, 13 R481).
-/
namespace Sys2Proof.Machine

/-! ### COORD as sent (13 R476) -/

/-- Sends COORD on every port that carries it: at its period (13 R476). -/
def State.sendCoords (s : State) : State := s.coordPorts.foldl State.sendCoord s

/-- Does `f`, and sends COORD at once where that changes what it says (13 R476). -/
def State.withCoord (s : State) (f : State → State) : State := (f s).coordSync

/-! ### Tile passes (13 R483, R484) -/

/-- Whether a port is in ACTIVE at its PRT_TARGET rate and width. -/
def State.atTarget (s : State) (p : Nat) : Bool :=
  s.active p && s.get (LNK_STAT.rate p) == s.get (PRT_TARGET.rate p) && s.get (LNK_STAT.width p) == s.get (PRT_TARGET.width p)

def State.pendOf (s : State) (i : Nat) : List Nat := (tget s.boot.tilePend i).getD []

/-- TOP_BRINGUP_STAT's tile and deferral fields. -/
def State.passStat (s : State) : State :=
  let b := s.boot
  let done := maskOf ((List.range 8).filter fun i => b.tileOn.contains i && (s.pendOf i).isEmpty && (tget b.passing i).isNone)
  let defd := ((List.range 8).map fun i => ((s.pendOf i).filter fun p => (s.port p).deferred).length).sum
  (s.set TOP_BRINGUP_STAT.tiles_done done).set TOP_BRINGUP_STAT.ports_deferred defd

/-- Ends the upgrade: upgrade_active clears, tiles_done keeps the tiles whose pass has finished, and a REDUCED device becomes FULL or
DEGRADED (13 R484, 01 R24). -/
def State.endUpgrade (s : State) : State :=
  let s := ((s.passStat.set TOP_BRINGUP_STAT.ports_deferred 0).set TOP_STATE.upgrade_active 0)
  let s := { s with boot := { s.boot with tilePend := [], passing := [], tileOn := [] } }
  if s.get TOP_STATE.svc_state = 2 ∧ s.get TOP_STATE.pwr_state ≠ 2 then
    (s.withCoord fun s => s.enterSvc (if s.fullCond then 3 else 4)).settle
  else s

/-- Ends the upgrade once every upgrade port of every tile is done (13 R484). -/
def State.upgradeCheck (s : State) : State :=
  let s := s.passStat
  if s.on TOP_STATE.upgrade_active ∧ (s.boot.tilePend.all fun (_, l) => l.isEmpty) ∧ s.boot.passing = [] then s.endUpgrade else s

def State.setPend (s : State) (i : Nat) (l : List Nat) : State :=
  { s with boot := { s.boot with tilePend := tput s.boot.tilePend i l } }

/-- Takes tile `i`'s upgrade ports one after another until one is reset or all that are left are deferred (13 R483). -/
def State.passGo (s : State) (i : Nat) : Nat → State
  | 0 => s
  | n + 1 =>
    match s.pendOf i with
    | [] => s
    | p :: r =>
      if s.atTarget p then (s.setPend i r).passGo i n
      else if (s.port p).coord.upReady then
        let s := s.setPend i r
        let s : State := { s with boot := { s.boot with passing := tput s.boot.passing i p } }
        (s.modPort p fun q => { q with deferred := false }).linkReset p
      else ((s.setPend i (r ++ [p])).modPort p fun q => { q with deferred := true }).passGo i n

/-- Advances the pass of tile `i` when it has begun and resets no port now (13 R483). -/
def State.passAdvance (s : State) (i : Nat) : State :=
  let b := s.boot
  if s.on TOP_STATE.upgrade_active ∧ b.tileOn.contains i ∧ (tget b.passing i).isNone then
    (s.passGo i (s.pendOf i).length).upgradeCheck
  else s

/-- The pass of tile `i` moves on from the port it is resetting (13 R483; that port then counts as done: log entry 17). -/
def State.passNext (s : State) (i : Nat) : State :=
  State.passAdvance { s with boot := { s.boot with passing := tdel s.boot.passing i } } i

/-- A port has reached ACTIVE: what the passes make of it (13 R483). -/
def State.passActive (s : State) (p : Nat) : State :=
  if tget s.boot.passing (p / 8) = some p then s.passNext (p / 8) else s.passAdvance (p / 8)

/-- Starts passes over the ports `ps`: those of the device's own upgrade (13 R482), or the ones that follow VIGIL (R485). -/
def State.startPasses (s : State) (own : Bool) (ps : List Nat) : State :=
  let pend := (List.range 8).map fun i => (i, ps.filter fun p => p / 8 == i)
  let s := ps.foldl (fun s p => s.modPort p fun q => { q with deferred := false }) s
  let s : State := { s with boot := { s.boot with upgrading := s.boot.upgrading || own, tilePend := pend, passing := [], tileOn := [] } }
  ((s.set TOP_UPGRADE_TIME.t s.stamp).set TOP_STATE.upgrade_active 1).upgradeCheck

/-- The upgrade ports: provisioned, other than CELL (13 R482). -/
def State.upgradePorts (s : State) : List Nat := ports64.filter fun p => s.provisioned p && s.get (PRT_ROLE.role p) != roleCell

/-- Starts the device's upgrade: the provisioned targets are written, COORD shows up_ready (13 R482). -/
def State.startUpgrade (s : State) : State :=
  s.withCoord fun s =>
    let s := s.upgradePorts.foldl (fun s p =>
      match tget s.boot.prov.targets p with
      | some v => (s.set (PRT_TARGET.rate p) (min (v % 4) 2)).set (PRT_TARGET.width p) (v / 4)
      | none => s) s
    let s := s.settle
    (s.set TOP_BOOT_STAT.up_ready 1).startPasses true s.upgradePorts

/-- Stops the passes that run as VIGIL begins (01 R29: VIGIL goes with REDUCED alone). An upgrade stopped so has not taken place, and
starts anew under R482 once the device has left VIGIL (DESIGN CHOICE, log entry 94). -/
def State.stopUpgrade (s : State) : State :=
  if s.on TOP_STATE.upgrade_active then
    let s : State := { s with boot := { s.boot with upgrading := false, tilePend := [], passing := [], tileOn := [] } }
    (s.set TOP_STATE.upgrade_active 0).passStat
  else s

/-- The conditions of 13 R482 but for auto_upgrade; that the upgrade has not been run, and that the device has left BOOT and is not in
VIGIL (01 R29). -/
def State.upgradeReady (s : State) : Bool :=
  decide (2 ≤ s.get TOP_STATE.svc_state) && s.get TOP_STATE.pwr_state != 2 && !s.boot.upgrading && s.on TOP_BOOT_STAT.coords_fixed && s.on TOP_BOOT_STAT.tables_done
    && (s.on HMK_STAT.grandmaster || s.on HMK_STAT.parent_valid)

end Sys2Proof.Machine
end

