-- ==== Sys2Proof/Machine/Train.lean ====
section
/-!
DEFINITION. Machine/Train.lean: link reset and training up to the PARAM state (03 R92 to R99, R103), HELD and the reach
claim (R104 to R106), and the checks of a peer (04 R119, 13 R475).
-/
namespace Sys2Proof.Machine

/-! ### Lanes (03 R93, R95, R97) -/

def lanes8 : List Nat := List.range 8

/-- Lanes of a port excluded by software or as degraded. -/
def State.excluded (s : State) (p : Nat) : Nat := s.get (PRT_LANE_EXCL.sw p) ||| s.get (PRT_LANE_EXCL.auto p)

/-- The lanes are no longer in an agreed width, nor locked. -/
def State.clearLanes (s : State) (p : Nat) : State :=
  lanes8.foldl (fun s l => (((s.set (PRT_LANE_STAT.active p l) 0).set (PRT_LANE_STAT.logical p l) 0).set
    (PRT_LANE_STAT.locked p l) 0).set (PRT_LANE_STAT.pol_inv p l) 0) s

/-- Whether the pair of local lane `i` is usable (03 R95; the peer's tx_ok holds its exclusions, Table 3.4). -/
def State.usableLane (s : State) (p i : Nat) : Bool :=
  let m := s.get (PRT_LANE_STAT.peer_lane p i)
  s.on (PRT_LANE_STAT.locked p i) && !s.on (PRT_LANE_STAT.tx_fault p i) && !bit (s.excluded p) i
    && bit (s.port p).peerLocked m && bit (s.port p).peerTxOk m

/-- Lanes of a width code. -/
def widthOf (code : Nat) : Nat := 2 ^ code

/-- The greatest width code whose lanes number at most `n` (03 R97). -/
def widthCode (n : Nat) : Nat := if n ≥ 8 then 3 else if n ≥ 4 then 2 else if n ≥ 2 then 1 else 0

/-- Agrees the width from the usable pairs `pairs` (a mask of local lanes) and numbers the logical lanes in the lane
master's order (03 R97). -/
def State.agreeWidth (s : State) (p pairs maxW : Nat) : State :=
  let ls := bitsOf 8 pairs
  let w := min maxW (widthCode ls.length)
  let master := s.get SEC_SERIAL.serial < s.get (LNK_PEER.serial p)
  let key (i : Nat) := if master then i else s.get (PRT_LANE_STAT.peer_lane p i)
  let rank (i : Nat) := (ls.filter fun j => key j < key i).length
  let s := lanes8.foldl (fun s i =>
    let on := ls.contains i && decide (rank i < widthOf w)
    (s.setB (PRT_LANE_STAT.active p i) on).set (PRT_LANE_STAT.logical p i) (if on then rank i else 0)) s
  s.set (LNK_STAT.width p) w

/-- LINK_NARROW when what was agreed lies below PRT_TARGET (03 R98). -/
def State.narrowCheck (s : State) (p : Nat) : State :=
  if s.get (LNK_STAT.rate p) < s.get (PRT_TARGET.rate p) ∨ s.get (LNK_STAT.width p) < s.get (PRT_TARGET.width p) then
    s.raise kLINK_NARROW (srcOf 0x10 p) 0 0
  else s

/-! ### Checks of a peer (04 R119, 13 R475) -/

/-- The hall that RTE_HALL_CFG names for a port, if any. -/
def State.hallNamed (s : State) (p : Nat) : Option Nat :=
  if s.on RTE_HALL_CFG.a_valid ∧ s.get RTE_HALL_CFG.a_port = p then some (s.get RTE_HALL_CFG.a_peer_hall)
  else if s.on RTE_HALL_CFG.b_valid ∧ s.get RTE_HALL_CFG.b_port = p then some (s.get RTE_HALL_CFG.b_peer_hall)
  else none

/-- The code with which a port's peer fails R119, if it does (04 Table 4.1). -/
def State.peerFault (s : State) (p : Nat) : Option Nat :=
  let e := s.peer p
  let r := s.role p
  if !s.on TOP_BOOT_STAT.coords_fixed ∨ e = epUnknown then none
  else
    let o := s.ep
    let hall := epHall e = epHall o; let grp := epGroup e = epGroup o
    let fits : Bool :=
      if r = roleD0 then hall && grp && epD1 e == epD1 o && epD0 e != epD0 o
      else if r = roleD1 then hall && grp && epD0 e == epD0 o && epD1 e != epD1 o
      else if r = roleGlobal then hall && !grp
      else if r = roleHall then s.hallNamed p == some (epHall e)
      else true
    let isLoc (q : Nat) : Bool := s.role q == roleD0 || s.role q == roleD1
    if !fits then some 0x10
    else if (r = roleD0 ∨ r = roleD1) ∧ ports64.any fun q =>
        q != p && isLoc q && decide (4 ≤ s.linkState q ∧ s.linkState q ≤ 9) && s.peer q != epUnknown && epDev (s.peer q) == epDev e then some 0x11
    else none

/-- Runs the checks of R119 on a port (04 R119). -/
def State.peerCheck (s : State) (p : Nat) : State :=
  match s.peerFault p with
  | some c => s.holdPort p c
  | none => s

/-- The entry of a serial in the cabling plan in force. -/
def State.planOf (s : State) (serial : Nat) : Option (Option Nat) := s.boot.plan.map fun l => tget l serial

/-! ### States of training (03 Table 3.3) -/

/-- RESET_ENTRY_DONE: after 6 µs the port goes to DETECT (03 R92). -/
def execResetEntryDone (p : PortNo) (s : State) : Host.Outcome State Fault Refusal :=
  let i := p.val
  .next (if s.linkState i = 1 then
      ((s.clearLanes i).set (LNK_STAT.state i) 2).modPort i fun q => { q with resetSets := [] }
    else s)

/-- Enters SPEED_EQ at a rate. -/
def State.enterSpeedEq (s : State) (p rate : Nat) : State :=
  (s.set (LNK_STAT.state p) 5).modPort p fun q => { q with eqRate := rate }

/-- The lanes on which a CELL port runs its x4: the four lowest of those with signal, none excluded or faulted (03 R112, R90; DESIGN
CHOICE, log entry 38). -/
def State.cellLanes (s : State) (p : Nat) : List Nat :=
  (lanes8.filter fun l => s.on (PRT_LANE_STAT.signal p l) && !s.on (PRT_LANE_STAT.tx_fault p l) && !bit (s.excluded p) l).take 4

/-- DETECT_STABLE: the lanes with signal have not changed for 100 µs; the TX checks of R103 are made (03 R92, R103, R112). A CELL
port without four lanes stays in DETECT (DESIGN CHOICE, log entry 38). -/
def execDetectStable (p : PortNo) (signal txShort : BitVec 8) (s : State) : Host.Outcome State Fault Refusal :=
  let i := p.val
  .next (if s.linkState i ≠ 2 then s
    else
      let s := lanes8.foldl (fun s l =>
        let bad := bit txShort.toNat l
        let s := if bad ∧ !s.on (PRT_LANE_STAT.tx_fault i l) then s.raise kTX_FAULT (srcOf 0x11 i) 0 0 else s
        (s.setB (PRT_LANE_STAT.tx_fault i l) bad).setB (PRT_LANE_STAT.signal i l) (bit signal.toNat l)) s
      if signal = 0 then s
      else if s.role i = roleCell then
        let ls := s.cellLanes i
        if ls.length < 4 then s
        else
          let s := (s.set (LNK_STAT.rate i) 1).set (LNK_STAT.width i) 2
          let s := lanes8.foldl (fun s l => (s.setB (PRT_LANE_STAT.active i l) (ls.contains l)).set (PRT_LANE_STAT.logical i l)
            (if ls.contains l then (ls.filter (· < l)).length else 0)) s
          s.enterSpeedEq i 1
      else (s.set (LNK_STAT.state i) 3).modPort i fun q => { q with pairSets := 0, pairsSeen := 0, peerLocked := 0, peerTxOk := 0 })

/-- Enters IDENT with a fresh challenge (03 R96). -/
def State.enterIdent (s : State) (p : Nat) : State :=
  let (c, s) := s.free 256
  (s.set (LNK_STAT.state p) 4).modPort p fun q =>
    { q with challenge := c, drawn := c :: q.drawn, ident := none, identSent := false, ctrlQ := [], ctrlIn := [], laneTimeouts := 0 }

/-- A training set as read, its polarity corrected: (inverted, fields), or none where the marker or the CRC is wrong. -/
def trainRead (ts : BitVec 256) : Option (Bool × Nat) :=
  let n := ts.toNat
  let inv := bf n 0 32 == 0xFFFFFFFF - 0x3CA55AC3
  let m := if inv then 2 ^ 256 - 1 - n else n
  if bf m 0 32 = 0x3CA55AC3 ∧ bf m 224 32 = crc32c (bytesOf 28 m) then some (inv, m) else none

/-- A valid reset training set on a lane: the fourth in a row brings the link down or starts the training anew (03 R89,
R91, R99); a QUIET port starts a link reset without a record (log entry 18). -/
def State.resetSet (s : State) (p l : Nat) : State :=
  let n := tcnt (s.port p).resetSets l + 1
  let s := s.modPort p fun q => { q with resetSets := tput q.resetSets l n }
  let st := s.linkState p
  if n < 4 then s
  else if st = stActive ∨ (3 ≤ st ∧ st ≤ 7) ∨ st = 11 then s.linkDown p 7
  else if st = 9 then s.startReset p
  else s

/-- A valid training set in LANE_TRAIN (03 R93, R95). The 16 consecutive sets of Table 3.3 are counted over all lanes together
(DESIGN CHOICE, log entry 93). -/
def State.laneSet (s : State) (p l : Nat) (inv : Bool) (m : Nat) : State :=
  let s := ((s.set (PRT_LANE_STAT.locked p l) 1).setB (PRT_LANE_STAT.pol_inv p l) inv).set (PRT_LANE_STAT.peer_lane p l) (bf m 32 3)
  let s := s.modPort p fun q => { q with peerLocked := bf m 40 8, peerTxOk := bf m 48 8 }
  let u := maskOf (lanes8.filter (s.usableLane p))
  let q := s.port p
  let n := if u ≠ 0 ∧ u = q.pairsSeen then q.pairSets + 1 else if u ≠ 0 then 1 else 0
  let s := s.modPort p fun q => { q with pairSets := n, pairsSeen := u }
  if n ≥ 16 then s.enterIdent p else s

/-- TRAINING_SET_RECEIVE (03 R93, R95, R99; R114 on a CELL port in DETECT). -/
def execTrainingSetReceive (p : PortNo) (l : Fin 8) (ts : BitVec 256) (s : State) : Host.Outcome State Fault Refusal :=
  let i := p.val
  .next (match trainRead ts with
    | none => s.modPort i fun q => { q with resetSets := tput q.resetSets l.val 0 }
    | some (inv, m) =>
      let st := s.linkState i
      if s.role i = roleCell ∧ st = 2 then s.holdPort i 5
      else if bit m 35 then s.resetSet i l.val
      else
        let s := s.modPort i fun q => { q with resetSets := tput q.resetSets l.val 0 }
        if st = 3 then s.laneSet i l.val inv m else s)

/-- TRAIN_TIMEOUT: a state's time is up: back to RESET_ENTRY, counted; the third LANE_TRAIN timeout in a row raises
NO_TRAIN, the third CELL_LOCK failure holds the port (03 R92, R103, R114); the timeout alone counts as such a failure (DESIGN
CHOICE, log entry 38). -/
def execTrainTimeout (p : PortNo) (s : State) : Host.Outcome State Fault Refusal :=
  let i := p.val
  let st := s.linkState i
  .next (if st = 3 then
      let n := (s.port i).laneTimeouts + 1
      let tell := decide (n ≥ 3) && !(s.port i).noTrainRaised
      let s := s.modPort i fun q => { q with laneTimeouts := n, noTrainRaised := q.noTrainRaised || tell }
      (if tell then s.raise kNO_TRAIN (srcOf 0x10 i) 0 0 else s).retryReset i
    else if st = 11 then
      let n := (s.port i).cellFails + 1
      let s := s.modPort i fun q => { q with cellFails := n }
      if n ≥ 3 then ((s.bump (LNK_CNT_RESET.ev i)).modPort i fun q => { q with cellFails := 0 }).holdPort i 6 else s.retryReset i
    else if st = 2 ∨ (4 ≤ st ∧ st ≤ 7) then s.retryReset i
    else s)

/-- IDENT: the first three checks of R96 and the checks that the peer's serial and endpoint allow (03 R96; 13 R475; 04 R119). The first
endpoint known on a GLOBAL or HALL port is advertised (13 R477). -/
def State.identIn (s : State) (p : Nat) (m : IdentInfo) : State :=
  let plan := s.planOf m.serial
  let ep := if m.endpoint ≠ 0x7FFFFF then m.endpoint else
    match plan with | some (some e) => e | _ => m.endpoint
  let first := s.peer p = epUnknown ∧ ep ≠ epUnknown
  let s := s.set (LNK_PEER.serial p) m.serial
  let s := ((s.set (LNK_PEER_INFO.endpoint p) ep).set (LNK_PEER_INFO.port p) m.port).set (LNK_PEER_INFO.role p) m.role
  let s := s.modPort p fun q => { q with ident := some m }
  let planBad := match plan with
    | some none => true
    | some (some e) => m.endpoint != 0x7FFFFF && m.endpoint != e
    | none => false
  if m.serial = s.serial then s.holdPort p 1
  else if m.role ≠ s.role p then s.holdPort p 2
  else if m.version ≠ s.get TOP_ID.cuhan_version then s.holdPort p 3
  else if planBad then s.holdPort p 0x12
  else
    match s.peerFault p with
    | some c => s.holdPort p c
    | none => if first then s.adverted (s.role p) else s

/-- IDENT: the oldest IDENT that has come is checked. One that comes outside the IDENT state has no effect. -/
def execIdent (p : PortNo) (s : State) : Host.Outcome State Fault Refusal :=
  .next (match takeFirst (fun m => match m.msg with | .ident _ => true | _ => false) (s.port p.val).ctrlIn with
    | some ({ msg := .ident m, .. }, r) =>
      let s := s.modPort p.val fun q => { q with ctrlIn := r }
      if s.linkState p.val = 4 then s.identIn p.val m else s
    | _ => s)

/-- Both checks have passed: width and rate are agreed, and the port goes to SPEED_EQ, or to PARAM for x1 at 26.5625 GBd
(03 Table 3.3, R97, R98). -/
def State.identDone (s : State) (p : Nat) (m : IdentInfo) : State :=
  let (r, w) := s.targetOf p
  let rate := min r m.maxRate; let maxW := min w m.maxWidth
  let s := (s.agreeWidth p (s.port p).pairsSeen maxW).set (LNK_STAT.rate p) rate
  if rate = 0 ∧ maxW = 0 then (s.narrowCheck p).enterParam p else s.enterSpeedEq p rate

/-- What the peer's IDENT_SIG signs: bytes 8 to 63 of its IDENT, and a challenge of this side (03 Table 3.5). -/
def identMsg (m : IdentInfo) (chal : Nat) : List Byte := (bytesOf 64 (ctrlBits (.ident m))).drop 8 ++ bytesOf 32 chal

/-- IDENT_SIG: the signature of the peer's latest IDENT is checked (03 R96). One over an earlier challenge is ignored. A side
goes on once it has sent its own IDENT_SIG; one without its identity keys fails the check (14 R495). -/
def execIdentSig (p : PortNo) (s : State) : Host.Outcome State Fault Refusal :=
  .next (match takeFirst (fun m => match m.msg with | .identSig _ _ => true | _ => false) (s.port p.val).ctrlIn, (s.port p.val).ident with
    | some ({ msg := .identSig k g, .. }, r), some m =>
      let q := s.port p.val
      let used (s : State) : State := s.modPort p.val fun q => { q with ctrlIn := r }
      if s.linkState p.val ≠ 4 then used s
      else if edVerify k (identMsg m q.challenge) g then
        if s.izg.devSeed.isNone then (used s).holdPort p.val 4
        else if q.identSent then ((used s).modPort p.val fun q => { q with peerKey := k }).identDone p.val m
        else s
      else if (q.drawn.drop 1).any fun c => edVerify k (identMsg m c) g then used s
      else (used s).holdPort p.val 4
    | _, _ => s)

/-- EQUALIZATION_DONE: lanes that failed are removed and the width is agreed again; with none left the next lower rate is
tried, and at 26.5625 GBd the port waits for its timeout (03 R98); a CELL port needs its four lanes (R112), and starts its
reset again at once where one fails (DESIGN CHOICE, log entry 38). The lanes that
remain are the agreed lanes that passed, and no usable pair outside the agreed width (DEDUCED, log entry 109). In CELL_LOCK
neither side holds a credit (R113). -/
def execEqualizationDone (p : PortNo) (passed : BitVec 8) (s : State) : Host.Outcome State Fault Refusal :=
  let i := p.val
  let act := maskOf (lanes8.filter fun l => s.on (PRT_LANE_STAT.active i l))
  let good := act &&& passed.toNat
  let q := s.port i
  .next (if s.linkState i ≠ 5 then s
    else if s.role i = roleCell then
      if good = act then
        (s.set (LNK_STAT.state i) 11).modPort i fun q => { q with goodFrames := 0, cellCredit := [], cellOwed := [], pcs := {} }
      else s.retryReset i
    else if good = 0 then (if q.eqRate > 0 then s.enterSpeedEq i (q.eqRate - 1) else s)
    else
      let maxW := min (s.targetOf i).2 ((q.ident.map (·.maxWidth)).getD 0)
      let s := (s.modPort i fun q => { q with pairsSeen := good, goodFrames := 0, pcs := {} }).agreeWidth i good maxW
      ((s.set (LNK_STAT.rate i) q.eqRate).narrowCheck i).set (LNK_STAT.state i) 6)

/-! ### HELD, and the reach claim -/

/-- HELD_PROBE: the first probe's signal pattern is kept; a different one leaves HELD (03 Table 3.3). -/
def execHeldProbe (p : PortNo) (pattern : BitVec 8) (s : State) : Host.Outcome State Fault Refusal :=
  let i := p.val
  .next (if s.linkState i ≠ 10 then s
    else
      match (s.port i).probe with
      | none => s.modPort i fun q => { q with probe := some pattern.toNat }
      | some x => if x = pattern.toNat then s else (s.startReset i).settle)

/-- A write of LNK_REACH (03 R104, R106, Table 3.11). Bit 8 is W1C; a refusal sets it. -/
def State.reachWrite (s : State) (i v : Nat) : State :=
  let km := bf v 0 3
  let s := if bit v 8 then s.set (LNK_REACH.refused i) 0 else s
  let claim (q : Nat) := max (if q = i then km else s.get (LNK_REACH.km q)) (s.get (LNK_REACH.granted q))
  if km > 4 ∨ s.get (PRT_ROLE.role i) = roleCell ∨ (ports64.map claim).sum > 8 then
    (s.set (LNK_REACH.refused i) 1).raise kREACH_REFUSED (srcOf 0x10 i) 0 0
  else s.set (LNK_REACH.km i) km

end Sys2Proof.Machine
end

