-- ==== Sys2Proof/Machine/Cell.lean ====
section
/-!
DEFINITION. Machine/Cell.lean: CELL ports: Fifel cells in, their acknowledgement and credits, reassembly into FIFEL packets,
and FIFEL packets cut into cells (02 R55, R56; 03 R112 to R114; 04 R128).
-/
namespace Sys2Proof.Machine

/-- A CELL port leaves CELL_LOCK for ACTIVE: it grants credits anew, and cells kept are replayed (03 R113). A LNK_CELL.credit of 0 acts
as 1 (16 R543), and one above 2,048, which Table 3.19 leaves out, as 2,048 (DESIGN CHOICE, log entry 38). -/
def State.cellActive (s : State) (p : Nat) : State :=
  let n := min 2048 (max 1 (s.get (LNK_CELL.credit p)))
  let s := s.modPort p fun q =>
    { q with cellReplay := q.cellEscrow.length, cellOwed := (List.range 4).map fun f => (f, n - tcnt q.cellHeld f) }
  s.enterActive p

/-- The port that RTE_CELL_MAP gives for a host-link field, if valid and a CELL port (04 R128, Table 4.21). -/
def State.cellMap (s : State) (k : Nat) : Option Nat :=
  let w := (s.word RTE_CELL_MAP.reg).toNat
  if bit w (8 * k + 7) ∧ s.role (bf w (8 * k) 6) = roleCell then some (bf w (8 * k) 6) else none

/-- Cells kept are released up to the peer's cack (03 R113). -/
def State.cellAck (s : State) (p cack : Nat) : State :=
  s.modPort p fun q =>
    match q.cellEscrow with
    | [] => q
    | c :: _ =>
      let n := subMod 256 cack c.cseq
      if n ≤ q.cellEscrow.length then
        { q with cellEscrow := q.cellEscrow.drop n, cellReplay := min q.cellReplay (q.cellEscrow.length - n) }
      else q

/-- Discard of a FIFEL packet that may not travel (04 R128). -/
def State.fifelScope (s : State) (p : Nat) : State := s.raise kFIFEL_SCOPE (srcOf 0x20 p) 0 0

/-- A FIFEL packet is formed from the cells of one channel and routed (02 R55, 04 R128); the cells' credits return. Cells of more
than 4,096 bytes in all, which no packet can carry (02 R42), are dropped (DESIGN CHOICE, log entry 93). -/
def State.cellForm (s : State) (p fvc : Nat) (cs : List Cell) : State :=
  let n := cs.length
  let s := s.modPort p fun q =>
    { q with cellRx := tdel q.cellRx fvc, cellHeld := tput q.cellHeld fvc (tcnt q.cellHeld fvc - n),
             cellOwed := tput q.cellOwed fvc (tcnt q.cellOwed fvc + n) }
  let data := (cs.map fun c => c.data.take c.valid).flatten
  let dst := (cs.head?.map (·.dest)).getD 0
  let inScope := epHall dst == s.get RTE_CFG.hall && epGroup dst == s.get RTE_CFG.group && (s.cellMap (epHl dst)).isSome
  if data.length > 4096 then s
  else if !inScope then s.fifelScope p
  else s.injectDrop (mkPkt { opcode := 0x0B, last := true, length := data.length, dstEp := dst, srcEp := s.ep, w5 := fvc } data)

/-- A sequenced cell in order is kept for its packet; the last one forms it (02 R55, 03 R113). A FIRST or ONLY cell starts its
packet anew and drops the cells of one begun before, whose credits return; a MIDDLE or LAST cell with none before it starts one
(DESIGN CHOICE, log entry 93). -/
def State.cellTake (s : State) (p : Nat) (c : Cell) : State :=
  let old := (tget (s.port p).cellRx c.fvc).getD []
  let anew := c.kind = 1 ∨ c.kind = 4
  let cs := (if anew then [] else old) ++ [c]
  let gone := if anew then old.length else 0
  let s := s.modPort p fun q =>
    { q with cellExp := (q.cellExp + 1) % 256, cellRx := tput q.cellRx c.fvc cs,
             cellHeld := tput q.cellHeld c.fvc (tcnt q.cellHeld c.fvc + 1 - gone),
             cellOwed := if gone = 0 then q.cellOwed else tput q.cellOwed c.fvc (tcnt q.cellOwed c.fvc + gone) }
  if c.kind = 3 ∨ c.kind = 4 then s.cellForm p c.fvc cs else s

/-- Whether a cell that is not corrupt holds an illegal value, and at which byte (02 R56, Table 2.9). -/
def cellIllegal (c : Cell) : Option Nat :=
  if c.kind > 4 then some 0
  else if c.kind = 0 then (if c.valid ≠ 0 then some 3 else none)
  else if c.kind = 1 ∨ c.kind = 2 then (if c.valid ≠ 52 then some 3 else none)
  else if c.valid = 0 ∨ c.valid > 52 then some 3
  else none

/-- A CELL link goes down on an event of 03 R113; the spec gives its cause no code: a free value (log entry 19). -/
def State.cellDown (s : State) (p : Nat) : State :=
  let (c, s) := s.free 4
  s.linkDown p c

/-- What every good cell carries: the peer's next expected cell and credits (03 R113). They are used of a sequenced cell too that is
discarded for its cseq (DESIGN CHOICE, log entry 38). -/
def State.cellCarried (s : State) (p : Nat) (x : Cell) : State :=
  (s.cellAck p x.cack).modPort p fun q =>
    { q with cellCredit := tput q.cellCredit x.crFvc (tcnt q.cellCredit x.crFvc + x.crCount) }

/-- A frame period of a CELL port is sixteen cells (03 R71, R88, R112). -/
def State.cellCount (s : State) (p : Nat) : State :=
  let n := (s.port p).pcs.cells + 1
  let s := s.modPort p fun q => { q with pcs := { q.pcs with cells := n % 16 } }
  if n < 16 then s else s.set (LNK_ERR_WIN.frames p) (min (s.get (LNK_ERR_WIN.frames p) + 1) (2 ^ 24 - 1))

/-- CELL_RECEIVE (02 R55, R56; 03 R70, R88, R92, R112, R113). -/
def execCellReceive (p : PortNo) (c : Flit) (errs : CwErrs) (s : State) : Host.Outcome State Fault Refusal :=
  let i := p.val
  let st := s.linkState i
  .next (if s.role i ≠ roleCell ∨ ¬ (st = stActive ∨ st = 11) then s
    else
      let (lost, ds, s) := s.pcsTakeCell i errs
      let s := (s.cellCount i).decoded i 4 ds
      if s.linkState i ≠ st then s
      else if lost ∨ !cellCrcOk c then
        if st = stActive then s.cellDown i else s.modPort i fun q => { q with goodFrames := 0 }
      else
        let x := cellOf c
        match cellIllegal x with
        | some off => s.linkProto i off
        | none =>
          let s := s.cellCarried i x
          if st = 11 then
            let n := (s.port i).goodFrames + 1
            let s := s.modPort i fun q => { q with goodFrames := n }
            if n ≥ 64 then s.cellActive i else s
          else if x.kind ≠ 0 ∧ x.cseq = (s.port i).cellExp then s.cellTake i x
          else s)

/-- CELL_ACK_TIMEOUT: no cack has advanced for 4 µs with cells outstanding (03 R113). -/
def execCellAckTimeout (p : PortNo) (s : State) : Host.Outcome State Fault Refusal :=
  .next (if s.role p.val = roleCell ∧ s.active p.val ∧ (s.port p.val).cellEscrow ≠ [] then s.cellDown p.val else s)

/-- Cuts a payload into cells of one channel (02 R55). -/
def cutCells (dst fvc : Nat) (data : List Byte) : List Cell :=
  let n := (data.length + 51) / 52
  (List.range n).map fun k =>
    let d := (data.drop (52 * k)).take 52
    { kind := if n = 1 then 4 else if k = 0 then 1 else if k + 1 = n then 3 else 2,
      fvc, dest := dst, valid := d.length, data := d }

/-- FIFEL_PACKET: the oldest FIFEL packet delivered here goes out of its CELL port as cells, once it has passed checks 1 to 3 of
02 Table 2.10 (04 R128); none while the device stops for an internal reset (01 R28). -/
def execFifelPacket (s : State) : Host.Outcome State Fault Refusal :=
  .next (match s.fifelIn with
    | [] => s
    | k :: r =>
      if s.stopping then s else
      let s : State := { s with fifelIn := r }
      if !pktIntact k then s.tallyHit Config.damagedEvent.toNat 0 1
      else if !s.isHere k.hdr.dstEp then s.raise kMISDELIVERED (srcOf 0x22 0xFF) 0 0
      else if !lengthOk k.hdr then s.raise kBAD_HEADER (srcOf 0x22 (epHl k.hdr.dstEp)) 0 0
      else
        match s.cellMap (epHl k.hdr.dstEp) with
        | none => s.fifelScope k.port
        | some p => s.modPort p fun q => { q with cellTx := q.cellTx ++ cutCells k.hdr.dstEp (k.hdr.w5 % 4) k.data })

end Sys2Proof.Machine
end

