-- ==== Sys2Proof/Machine/Power.lean ====
section
/-!
DEFINITION. Machine/Power.lean: power domains, votes, waking and dropping, the Quiet exchange, power states and pad hold
(12 R433 to R451).
-/
namespace Sys2Proof.Machine

/-! ### Domains (12 Table 12.1) -/

def dOff : Nat := 0
def dWaking : Nat := 1
def dOn : Nat := 2
def dQuiet : Nat := 3
def dRet : Nat := 4
def dDropping : Nat := 5
def isTile (d : Nat) : Bool := decide (8 ≤ d ∧ d ≤ 15)
def isEngine (d : Nat) : Bool := decide (16 ≤ d ∧ d ≤ 19)
def isHb (d : Nat) : Bool := decide (2 ≤ d ∧ d ≤ 5)
def isBank (d : Nat) : Bool := decide (32 ≤ d ∧ d ≤ 55)
/-- A code that 12 Table 12.1 lists. -/
def isDomain (d : Nat) : Bool := decide (d < 7) || isTile d || isEngine d || isBank d
def engLDG : Nat := 16
def engTLR : Nat := 17
def engALY : Nat := 18
def engMOV : Nat := 19

def State.dom (s : State) (d : Nat) : Nat := s.get (PWR_DOM.state d)
def State.engineOn (s : State) (d : Nat) : Bool := s.dom d == dOn
/-- Any vote on a domain. -/
def State.voted (s : State) (d : Nat) : Bool := s.on (PWR_VOTE.reg d)
/-- Power states (TOP_STATE.pwr_state): 0 FULL, 1 TRIM, 2 VIGIL. -/
def State.pwrState (s : State) : Nat := s.get TOP_STATE.pwr_state

def tilePorts (d : Nat) : List Nat := (List.range 8).map fun k => (d - 8) * 8 + k
def tileOf (p : Nat) : Nat := 8 + p / 8

/-- A CELL port in service holds its tile on: it has no Quiet exchange (16 N16). -/
def State.cellHolds (s : State) (d : Nat) : Bool :=
  (tilePorts d).any fun p => s.role p == roleCell && s.linkState p != 0 && s.linkState p != 10

/-- Whether a domain is to be on now (12 R438, Tables 12.1 and 12.2; 16 N16). -/
def State.wanted (s : State) (d : Nat) : Bool :=
  if isTile d then s.pwrState != 1 || s.voted d || s.cellHolds d
  else if isEngine d then s.pwrState == 0 || (s.pwrState == 1 && s.voted d)
  else if isHb d then !s.on (HBI_LINK_STAT.perst (2 * (d - 2))) || s.on (PWR_VOTE.izg d)
  else true

/-- The SRAM banks that follow an engine (12 R437), as domains. -/
def banksOf (d : Nat) : List Nat := if d = engLDG then (List.range 8).map (· + 42) else if d = engALY then [50, 51] else []

/-- The wake steps of a domain that have something to do (12 R447, Table 12.3). -/
def wakeSteps (d src : Nat) : List Nat := if isEngine d then [1, 3, 4] else if src = dQuiet then [2, 4] else [1, 2, 4]

/-! ### Ports of a tile: the Quiet exchange (12 R444, R445) -/

/-- Sends QUIET once the port may: in ACTIVE, nothing queued, Escrow empty, a cause present (12 R444); a CELL port never (16 N16). -/
def State.tryQuiet (s : State) (p : Nat) : State :=
  let q := s.port p
  if s.active p ∧ s.role p ≠ roleCell ∧ q.quietCause ∧ !q.quietSent ∧ !q.quietRetry ∧ q.txq = [] ∧ q.escrow = [] then
    (s.ctrlSend p (.quiet (2 ^ 56))).modPort p fun q => { q with quietSent := true }
  else s

/-- Starts a wake exchange on a QUIET port (12 R445), whose pads are not held (R451). -/
def State.wakePort (s : State) (p : Nat) : State :=
  let s := s.modPort p fun q => { q with quietCause := false, quietRetry := false, quietSent := q.quietSent && s.active p }
  if s.linkState p = 9 ∧ !s.padHeld p then s.modPort p fun q => { q with waking := true, goodFrames := 0 } else s

/-- The vote that hardware sets on a tile while a port of it sees a signal in QUIET (12 R435). -/
def State.tileActivity (s : State) (d : Nat) : Bool :=
  (tilePorts d).any fun p => s.linkState p == 9 && (List.range 8).any fun l => s.on (PRT_LANE_STAT.signal p l)

/-! ### Work of the engines (12 R435) -/

/-- The engine of a descriptor type (09 Table 9.3), 0 for none. -/
def engineOf (ty : Nat) : Nat :=
  if ty = 1 ∨ ty = 2 ∨ ty = 3 ∨ ty = 8 then engTLR else if ty = 4 ∨ ty = 5 then engLDG
  else if ty = 6 then engALY else if ty = 7 then engMOV else 0

def descType (d : Desc) : Nat := bf d.toNat 0 4

/-- Whether a packet for an engine has arrived whole and not been handed to it: at its input, or in a Vault (12 R435, R450). -/
def State.pktWaits (s : State) (d : Nat) : Bool :=
  (s.tptIn ++ s.mcIn).any (fun p => engineOfOp p.hdr.opcode == d)
    || s.ports.any fun (_, q) => q.vault.any fun v => v.whole && (v.dest == .here || v.dest == .mcast) && engineOfOp v.hdr.opcode == d

/-- Whether an engine has work waiting or in progress (12 R435): the Ledger's is that of eager and rendezvous messages,
and of contexts that are SPILLING or RETURNING. -/
def State.engineBusy (s : State) (d : Nat) : Bool :=
  let waits := s.accts.any fun (_, a) =>
    (a.rings.any fun (_, r) => r.staged.any fun x => engineOf (descType x) == d) || a.fired.any fun (x, _) => engineOf (descType x) == d
  let ofLedger (k : SrcKind) : Bool := k == .eager || k == .rts || k == .pull || k == .fin
  let own :=
    if d = engLDG then
      !s.lmatches.isEmpty || s.srcMsgs.any (fun m => ofLedger m.kind) || s.openMsgs.any (·.eager.isSome)
        || s.ctxs.any fun (k, _) => s.get (LDG_CTX5.state k) == 1 || s.get (LDG_CTX5.state k) == 3
    else if d = engTLR then
      s.openMsgs.any (·.eager.isNone) || !s.aptWaits.isEmpty || s.srcMsgs.any fun m => !ofLedger m.kind
    else if d = engALY then s.trees.any fun (_, t) => !t.ops.isEmpty || !t.held.isEmpty || t.up.any (!·.rel) || t.dn.any (!·.rel)
    else !s.moveWait.isEmpty || (List.range 64).any fun c => s.on (MOV_STAT.state c)
  waits || s.pktWaits d || own

/-! ### Waking and dropping (12 R447 to R449) -/

def State.setDom (s : State) (d v : Nat) : State := s.set (PWR_DOM.state d) v

/-- What step 1 of a tile's wake from OFF asks of VDD_SDS_A: whether a raise is needed and to what level the spec leaves open, two
free values (12 R447, R453; DESIGN CHOICE, log entry 118). Nothing is asked before Izger runs (13 R469), nor of a rail that has a request
running or holds (R452). -/
def State.railForWake (s : State) : State :=
  let (n, s) := s.free 7
  let t := 720 + bf n 1 6
  if bit n 0 ∧ t ≤ 780 ∧ s.get (PWR_AVS_STAT.level_mv 1) < t ∧ 7 ≤ s.get TOP_BOOT_STAT.stage ∧ (tget s.pwr.avsBusy 1).isNone
      ∧ tcnt s.pwr.avsHold 1 ≤ s.clk then
    State.emit { s with pwr := { s.pwr with avsBusy := tput s.pwr.avsBusy 1 t } } (.avs 1 0 t)
  else s

/-- Starts a wake; not while the response of R459 is in force, nor after three failures (12 R447, R448, R462). -/
def State.startWake (s : State) (d : Nat) : State :=
  if s.on (PWR_DOM.failed d) ∨ s.pwr.pwrfail ∨ s.pwr.retrying.contains d then s
  else
    let src := s.dom d
    let s := (s.setDom d dWaking).set (PWR_DOM.step d) ((wakeSteps d src).headD 4)
    let s : State := { s with pwr := { s.pwr with wakeFrom := tput s.pwr.wakeFrom d src } }
    if isTile d ∧ src = dOff then s.railForWake else s

/-- A domain is off: its banks in RETENTION, its pads latched, a release still pending discarded (12 R437, R449, R451). An
HB_n that drops loses its sticky configuration fields (13 R466). -/
def State.domOff (s : State) (d : Nat) : State :=
  let s := (s.setDom d dOff).set (PWR_DOM.step d) 0
  let s := (banksOf d).foldl (fun s b => s.setDom b dRet) s
  let s := { s with pwr := { s.pwr with relPend := s.pwr.relPend.filter (· != d) } }
  if isHb d then { s with fns := s.fns.filter fun (k, _) => k / 512 / 2 != d - 2 } else s

/-- A tile whose ports are all QUIET, DISABLED or HELD becomes QUIET, and then OFF when drop_to is 1 (12 R446); where a vote has come
during the drop, its wake starts at once (R449). -/
def State.tileCheck (s : State) (d : Nat) : State :=
  if s.dom d = dDropping ∧ (tilePorts d).all fun p => s.linkState p == 9 || s.linkState p == 0 || s.linkState p == 10 then
    let s := if s.on (PWR_DOM.drop_to d) then s.domOff d else s.setDom d dQuiet
    if s.wanted d then s.startWake d else s
  else s

/-- Drops a domain whose drop delay has ended (12 R438, R446, R449). -/
def State.drop (s : State) (d : Nat) : State :=
  let s := { s with pwr := { s.pwr with dropping := s.pwr.dropping.filter (· != d) } }
  if isTile d then
    let s := s.setDom d dDropping
    let s := (tilePorts d).foldl (fun s p => (s.modPort p fun q => { q with quietCause := true }).tryQuiet p) s
    s.tileCheck d
  else s.domOff d

/-- What a domain's votes now call for: a wake, the drop delay (none when 0, 16 Table 16.1), or nothing (12 R438, R439, R445). A drop
under way completes first (R449). In power state OFF nothing wakes (R436, R439). -/
def State.evalDom (s : State) (d : Nat) : State :=
  let st := s.dom d
  if s.pwrState = 3 then s
  else if s.wanted d then
    let s := { s with pwr := { s.pwr with dropping := s.pwr.dropping.filter (· != d) } }
    if st = dOff ∨ st = dQuiet then s.startWake d
    else if isTile d ∧ st = dOn ∧ s.pwrState ≠ 2 then (tilePorts d).foldl State.wakePort s
    else s
  else if st = dOn ∨ (isTile d ∧ st = dQuiet ∧ s.on (PWR_DOM.drop_to d)) then
    if isHb d ∨ s.pwrState = 2 ∨ s.get PWR_CFG.drop_delay_us = 0 then s.drop d
    else { s with pwr := { s.pwr with dropping := addMem s.pwr.dropping d } }
  else s

def voteDomains : List Nat := [2, 3, 4, 5, 8, 9, 10, 11, 12, 13, 14, 15, 16, 17, 18, 19]

def State.evalAll (s : State) : State := voteDomains.foldl State.evalDom s

/-- The implied votes (12 R436, R437). -/
def State.impliedUpd (s : State) : State :=
  let any := ((List.range 12).map (· + 8)).any s.voted
  let s := (s.setB (PWR_VOTE.implied 1) any).setB (PWR_VOTE.implied 6) any
  [engLDG, engALY].foldl (fun s e => (banksOf e).foldl (fun s b => s.setB (PWR_VOTE.implied b) (s.voted e)) s) s

/-! ### Power states (12 R439 to R441) -/

/-- The beacon ports of VIGIL: of each tile the port that PWR_VIGIL_PORT names, unless UNUSED or CELL (12 R441). -/
def State.beaconPorts (s : State) : List Nat :=
  let w := s.get PWR_VIGIL_PORT.reg
  ((List.range 8).filter fun i => bit w (4 * i + 3)).map (fun i => 8 * i + bf w (4 * i) 3)
    |>.filter fun p => s.provisioned p && s.get (PRT_ROLE.role p) != roleCell

/-- Enters FULL or TRIM; out of VIGIL the beacon ports return to their targets through the passes, at whose end the device leaves
REDUCED (12 R440, R441; 13 R484, R485). -/
def State.enterAwake (s : State) (n : Nat) : State :=
  let was := s.pwrState
  let s := (s.enterPwr n).evalAll
  if was = 2 then
    let s := ports64.foldl (fun s p => s.modPort p fun q => { q with quietCause := false, quietRetry := false, beaconReset := false }) s
    s.startPasses false (s.upgradePorts.filter s.beaconPorts.contains)
  else s

/-- A beacon port's reset to x1 as VIGIL begins: from QUIET too, once its tile is ON and its pads are not held (12 R441). -/
def State.beaconReset (s : State) (p : Nat) : State :=
  if s.linkState p = 9 then (if s.dom (tileOf p) = dOn ∧ !s.padHeld p then s.startReset p else s) else s.linkReset p

/-- Enters VIGIL: REDUCED first, with which alone it goes (12 R439, R441; 01 R23, R29). -/
def State.enterVigil (s : State) : State :=
  let s := if s.get TOP_STATE.svc_state = 3 ∨ s.get TOP_STATE.svc_state = 4 then s.withCoord fun s => s.enterSvc 2 else s
  let s := s.stopUpgrade.enterPwr 2
  let bs := s.beaconPorts
  let s := bs.foldl (fun s p => (s.modPort p fun q => { q with beaconReset := true }).beaconReset p) s
  let s := (ports64.filter fun p => s.active p && !bs.contains p).foldl (fun s p =>
    (s.modPort p fun q => { q with quietCause := true }).tryQuiet p) s
  s.evalAll.settle

/-- Whether VIGIL must be refused: an engine works, a host votes, or a tree is ACTIVE or ABORTED (12 R440). -/
def State.vigilBusy (s : State) : Bool :=
  [engLDG, engTLR, engALY, engMOV].any (fun d => s.engineBusy d || s.on (PWR_VOTE.activity d))
    || (List.range 64).any (fun d => s.on (PWR_VOTE.host d))
    || s.regs.any fun (a, w) => decide (0x7200000 ≤ a ∧ a < 0x7208000) && (w.toNat % 4 == 1 || w.toNat % 4 == 2)

/-! ### Casting votes (12 R434, R435, R440) -/

/-- Sets or clears bit `b` of PWR_VOTE[d]; a new vote of a host, Izger, the fabric manager, a timer or a WAKE ends VIGIL. -/
def State.vote (s : State) (d b : Nat) (on : Bool) : State :=
  if !isDomain d then s
  else
    let r := PWR_VOTE.reg d
    let old := bit (s.get r) b
    if old = on then s
    else
      let s := s.set r (if on then orBit (s.get r) b else clrBit (s.get r) b)
      let s := s.impliedUpd
      let s := if on ∧ b ≤ 11 ∧ s.pwrState = 2 then s.enterAwake (if s.get PWR_CFG.wake_state = 0 then 0 else 1) else s
      s.evalDom d

/-- Brings the activity votes to what the engines and tiles do now (12 R435). -/
def State.activityUpd (s : State) : State :=
  let s := [engLDG, engTLR, engALY, engMOV].foldl (fun s d => s.vote d 12 (s.engineBusy d)) s
  ((List.range 8).map (· + 8)).foldl (fun s d => s.vote d 12 (s.tileActivity d)) s

/-- Host link `n`'s votes: by its mask while its link is up and PF0 and PF1 are not both in D3hot (12 R434). -/
def State.hostVotes (s : State) (n : Nat) : State :=
  let on := s.hlPresent n && s.on (HBI_LINK_STAT.dl_up n) && !((s.fnc n 0).d3 && (s.fnc n 1).d3)
  let m := s.get (PWR_CLIENT_MASK.mask n)
  ((List.range 64).filter isDomain).foldl (fun s d => s.vote d n (on && bit m d)) s

/-- Casts a vote with a lease: by a timer (bit 10) or a WAKE (bit 11) (12 R434). -/
def State.castLease (s : State) (d b : Nat) : State :=
  if isDomain d then
    let s := { s with pwr := { s.pwr with leases := tput s.pwr.leases (d * 2 + (b - 10)) s.clk } }
    s.vote d b true
  else s

/-! ### Commands: votes -/

/-- Izger holds new management requests while it hands over to new firmware (14 R509). -/
def State.izgHolds (s : State) : Bool := s.izg.activating.isSome

/-- FM_VOTE: the oldest MG packet of subtype 0x40 that Izger holds clears and sets fabric-manager votes (12 R434). -/
def execFmVote (s : State) : Host.Outcome State Fault Refusal :=
  .next (match if s.izgHolds then none else takeFirst (fun p => p.hdr.w5 % 256 == 0x40) s.izg.mg with
    | none => s
    | some (p, r) =>
      let s := { s with izg := { s.izg with mg := r } }
      let clr := leAt p.data 0 8; let set := leAt p.data 8 8
      let s := (bitsOf 64 clr).foldl (fun s d => s.vote d 9 false) s
      (bitsOf 64 set).foldl (fun s d => s.vote d 9 true) s)

/-- WAKE: the oldest QS WAKE delivered here casts wake votes (12 R434; 02 Table 2.8). -/
def execWake (s : State) : Host.Outcome State Fault Refusal :=
  .next (match takeFirst (fun a => a.msg.type == 9) s.qsHere with
    | none => s
    | some (a, r) =>
      let s := { s with qsHere := r }
      let w := a.msg.payload
      let ds := (bitsOf 8 w).map (· + 8) ++ (bitsOf 4 (bf w 8 4)).map (· + 16) ++ (bitsOf 4 (bf w 12 4)).map (· + 2)
      ds.foldl (fun s d => s.castLease d 11) s)

/-- VOTE_LEASE_EXPIRY: a timer or wake lease that runs ends (12 R434); one renewed in this very cycle goes on (R462). -/
def execVoteLeaseExpiry (d : Fin 64) (wake : Bool) (s : State) : Host.Outcome State Fault Refusal :=
  let k := d.val * 2 + b2n wake
  .next (match tget s.pwr.leases k with
    | none => s
    | some t => if t = s.clk then s else State.vote { s with pwr := { s.pwr with leases := tdel s.pwr.leases k } } d.val (10 + b2n wake) false)

/-- DROP_DELAY_EXPIRY: a domain still without a vote drops (12 R438). -/
def execDropDelayExpiry (d : Fin 64) (s : State) : Host.Outcome State Fault Refusal :=
  let s := s.activityUpd
  .next (if s.pwr.dropping.contains d.val ∧ !s.wanted d.val then s.drop d.val else s)

/-! ### Commands: waking -/

def State.padBit (d : Nat) : RF × Nat := if isTile d then (PWR_PAD.held_tile, d - 8) else (PWR_PAD.held_hb, d - 2)

/-- The pads of a domain are released: the ports of a tile that are QUIET start their link reset (12 R446, R451). -/
def State.padsFree (s : State) (d : Nat) : State :=
  let (r, i) := State.padBit d
  let s := s.set r (clrBit (s.get r) i)
  if isTile d then (((tilePorts d).filter fun p => s.linkState p == 9).foldl State.startReset s).settle else s

/-- PWR_PAD_RELEASE's bit of a domain: releases its pads, now or at the logic ready of the wake to come (12 R451). -/
def State.padRelease (s : State) (d : Nat) : State :=
  let (r, i) := State.padBit d
  let held := bit (s.get r) i
  if held ∧ (s.dom d = dOn ∨ s.dom d = dDropping) then s.padsFree d
  else if held ∨ (s.dom d = dWaking ∧ tcnt s.pwr.wakeFrom d = dOff) then
    { s with pwr := { s.pwr with relPend := addMem s.pwr.relPend d } }
  else s

/-- What waits for a domain that is ON now: packets in a Vault for an engine (12 R450); beacon ports still QUIET for a tile (R441). -/
def State.domServe (s : State) (d : Nat) : State :=
  if isEngine d then
    let ws := s.ports.flatMap fun (p, q) => (q.vault.filter fun v => engineOfOp v.hdr.opcode == d).map fun v => (p, v.id)
    (ws.foldl (fun s (p, id) => s.vaultStep p id) s).activityUpd
  else if isTile d ∧ s.pwrState = 2 then
    (((tilePorts d).filter fun p => s.beaconPorts.contains p && s.linkState p == 9).foldl State.beaconReset s).settle
  else s

/-- A wake has ended: the domain is ON (12 R445, R447, R451). -/
def State.wakeDone (s : State) (d : Nat) : State :=
  let src := tcnt s.pwr.wakeFrom d
  let s := ((s.setDom d dOn).set (PWR_DOM.step d) 0).set (PWR_DOM.attempts d) 0
  let s := State.bump { s with pwr := { s.pwr with wakeFrom := tdel s.pwr.wakeFrom d } } PWR_CNT_WAKE.ev
  let s :=
    if isEngine d then s
    else if s.pwr.relPend.contains d then State.padsFree { s with pwr := { s.pwr with relPend := s.pwr.relPend.filter (· != d) } } d
    else if src = dQuiet then s
    else
      let (r, i) := State.padBit d
      (s.set r (orBit (s.get r) i)).set PWR_EVT.pad_held 1
  (s.domServe d).evalDom d

/-- WAKE_STEP_READY: the step in progress has ended; the next begins (12 R447). -/
def execWakeStepReady (d : Fin 64) (s : State) : Host.Outcome State Fault Refusal :=
  let i := d.val
  .next (if s.dom i ≠ dWaking then s
    else
      let st := s.get (PWR_DOM.step i)
      let s := if st = 3 then (banksOf i).foldl (fun s b => s.setDom b dOn) s else s
      match (wakeSteps i (tcnt s.pwr.wakeFrom i)).filter (fun k => st < k) with
      | k :: _ => s.set (PWR_DOM.step i) k
      | [] => s.wakeDone i)

/-- WAKE_FAIL: the step in progress has not ended in time: the domain is OFF again; the third failure in a row is final
(12 R448). The PLL number of a domain's PLL is not given: a free value (log entry 20). -/
def execWakeFail (d : Fin 64) (s : State) : Host.Outcome State Fault Refusal :=
  let i := d.val
  .next (if s.dom i ≠ dWaking then s
    else
      let st := s.get (PWR_DOM.step i)
      let (pll, s) := s.free 8
      let s := if st = 2 then s.raise kPLL_LOCK_FAIL (srcOf 0x02 pll) 0 st else s.raise kWAKE_FAIL (srcOf 0x01 i) 0 st
      let s := ((s.set PWR_EVT.wake_fail 1).setDom i dOff).set (PWR_DOM.step i) 0
      let n := s.get (PWR_DOM.attempts i) + 1
      let s := s.set (PWR_DOM.attempts i) (min n 15)
      let s := (banksOf i).foldl (fun s b => s.setDom b dRet) s
      let s := { s with pwr := { s.pwr with wakeFrom := tdel s.pwr.wakeFrom i } }
      if n ≥ 3 then s.set (PWR_DOM.failed i) 1
      else { s with pwr := { s.pwr with retrying := addMem s.pwr.retrying i } })

/-- WAKE_RETRY: 1 ms after a failure the wake is tried again while a vote remains (12 R448). -/
def execWakeRetry (d : Fin 64) (s : State) : Host.Outcome State Fault Refusal :=
  let i := d.val
  .next (if s.pwr.retrying.contains i then
      State.evalDom { s with pwr := { s.pwr with retrying := s.pwr.retrying.filter (· != i) } } i
    else s)

/-! ### Commands: power states (12 R440) -/

/-- Ends a request of PWR_STATE_REQ with a result. -/
def State.pwrResult (s : State) (req result : Nat) : State := (s.set PWR_STATE_REQ.req req).set PWR_STATE_REQ.result result

/-! ### Commands: the Quiet exchange (12 R444, R445, R462) -/

/-- A port enters QUIET (03 R111, 12 R444). -/
def State.enterQuiet (s : State) (p : Nat) : State :=
  let s := (List.range 8).foldl (fun s l => s.set (PRT_LANE_STAT.signal p l) 0) s
  let s := (s.set (LNK_STAT.state p) 9).modPort p fun q =>
    { q with quietSent := false, quietRetry := false, waking := false, goodFrames := 0, pcs := {} }
  ((s.adverted (s.role p)).settle).tileCheck (tileOf p)

/-- QUIET: the oldest QUIET that has come is accepted or refused; one that meets this port's own is an accept (12 R444,
R462). -/
def execQuiet (p : PortNo) (s : State) : Host.Outcome State Fault Refusal :=
  let i := p.val
  .next (match takeFirst (fun m => match m.msg with | .quiet _ => true | _ => false) (s.port i).ctrlIn with
    | some ({ msg := .quiet b, .. }, r) =>
      let s := s.modPort i fun q => { q with ctrlIn := r }
      let q := s.port i
      if !s.active i ∨ !bit b 56 then s
      else if q.quietSent then s.enterQuiet i
      else if q.txq = [] ∧ q.escrow = [] then (s.buildFrame i (.ctrl (.quietAck (2 ^ 56)))).enterQuiet i
      else s.ctrlSend i (.quietAck 0)
    | _ => s)

/-- A QUIET was refused or not answered: the port serves again and retries after 100 µs (12 R444). -/
def State.quietBack (s : State) (p : Nat) : State := s.modPort p fun q => { q with quietSent := false, quietRetry := true }

/-- QUIET_ACK: the answer to this port's QUIET (12 R444). -/
def execQuietAck (p : PortNo) (s : State) : Host.Outcome State Fault Refusal :=
  let i := p.val
  .next (match takeFirst (fun m => match m.msg with | .quietAck _ => true | _ => false) (s.port i).ctrlIn with
    | some ({ msg := .quietAck b, .. }, r) =>
      let s := s.modPort i fun q => { q with ctrlIn := r }
      if s.active i ∧ (s.port i).quietSent then (if bit b 56 then s.enterQuiet i else s.quietBack i) else s
    | _ => s)

/-- QUIET_TIMEOUT: 10 µs without an answer (12 R444). -/
def execQuietTimeout (p : PortNo) (s : State) : Host.Outcome State Fault Refusal :=
  .next (if s.active p.val ∧ (s.port p.val).quietSent then s.quietBack p.val else s)

/-- QUIET_RETRY: 100 µs after a refusal (12 R444). -/
def execQuietRetry (p : PortNo) (s : State) : Host.Outcome State Fault Refusal :=
  .next (if (s.port p.val).quietRetry then (s.modPort p.val fun q => { q with quietRetry := false }).tryQuiet p.val else s)

/-- QUIET_SIGNAL_DETECT: a QUIET port sees a signal: its tile's activity vote is set and it relocks (12 R445). A port of an
OFF tile sees none (R446). -/
def execQuietSignalDetect (p : PortNo) (s : State) : Host.Outcome State Fault Refusal :=
  let i := p.val
  .next (if s.linkState i = 9 ∧ s.dom (tileOf i) ≠ dOff then
      let s := (List.range 8).foldl (fun s l =>
        if s.on (PRT_LANE_STAT.active i l) then s.set (PRT_LANE_STAT.signal i l) 1 else s) s
      (s.wakePort i).vote (tileOf i) 12 true
    else s)

/-- WAKE_NOANS_TIMEOUT: 10 µs of a wake exchange without an answer (12 R445). -/
def execWakeNoansTimeout (p : PortNo) (s : State) : Host.Outcome State Fault Refusal :=
  .next (if s.linkState p.val = 9 ∧ (s.port p.val).waking then
      (s.bump PWR_CNT_WAKE_NOANS.ev).modPort p.val fun q => { q with waking := false, goodFrames := 0 }
    else s)

/-- WAKE_EXCHANGE_RETRY: every 1 ms while the tile holds a vote (12 R445). -/
def execWakeExchangeRetry (p : PortNo) (s : State) : Host.Outcome State Fault Refusal :=
  let i := p.val
  .next (if s.linkState i = 9 ∧ !(s.port i).waking ∧ s.dom (tileOf i) = dOn ∧ (s.voted (tileOf i) ∨ s.pwrState = 0) then s.wakePort i
    else s)

/-! ### Commands of the ports that bear on activity votes (12 R435) -/

/-- FRAME_RECEIVE. -/
def execFrameReceive (p : PortNo) (f : LinkFrame) (rx : RxErrors) (s : State) : Host.Outcome State Fault Refusal :=
  if f.wf then .next (s.frameReceive p.val f rx).activityUpd else .fault .illFormed

/-- SIGNAL_LOSS on a lane: link down when the lane is active (03 R89); no fault in QUIET (R111). -/
def execSignalLoss (p : PortNo) (l : Fin 8) (s : State) : Host.Outcome State Fault Refusal :=
  let s := s.set (PRT_LANE_STAT.signal p.val l.val) 0
  .next (if s.on (PRT_LANE_STAT.active p.val l.val) then s.linkDown p.val 4 else s).activityUpd

end Sys2Proof.Machine
end

