-- ==== Sys2Proof/Machine/HostOps.lean ====
section
/-!
DEFINITION. Machine/HostOps.lean: how the engines reach host memory: the account's function and PASID, address
translation, Bus Master Enable hold, posted writes, tags, flush reads, AER (08 R290, R305 to R316; 09 R326).
-/
namespace Sys2Proof.Machine

/-! ### Who issues (09 R326) -/

def State.aSt (s : State) (a : Nat) : Nat := s.get (ACC_BIND1.state a)
def State.aHl (s : State) (a : Nat) : Nat := s.get (ACC_BIND0.host_link a)
def State.aFn (s : State) (a : Nat) : Nat := s.get (ACC_BIND0.function a)
def State.aGen (s : State) (a : Nat) : Nat := s.get (ACC_BIND1.generation a)
def State.aCharter (s : State) (a : Nat) : Nat := s.get (ACC_BIND1.charter a)
def State.aPasid (s : State) (a : Nat) : Option Nat :=
  if s.on (ACC_BIND0.pasid_valid a) then some (s.get (ACC_BIND0.pasid a)) else none

/-- Account states (09 Table 9.18). -/
def aREMOVED : Nat := 0
def aACTIVE : Nat := 1
def aFROZEN : Nat := 2
def aRESETTING : Nat := 3
def aMIGRATING : Nat := 4

/-! ### Messages a function sends (08): the `kind` of `Emit.hostMsg`, with what `data` holds -/

def msgTransReq : Nat := 1    -- Translation Request: page
def msgInvalCpl : Nat := 2    -- Invalidate Completion: tag
def msgLtr : Nat := 3         -- LTR: HBI_LTR
def msgDrs : Nat := 4         -- Device Readiness Status
def msgFrs : Nat := 5         -- Function Readiness Status
def msgPme : Nat := 6         -- PM_PME
def msgErrCor : Nat := 7      -- ERR_COR: bit of the AER correctable status
def msgErrNonfatal : Nat := 8 -- ERR_NONFATAL: bit of the AER uncorrectable status
def msgErrFatal : Nat := 9    -- ERR_FATAL: the same
def msgVdm : Nat := 10        -- MCTP over a vendor-defined message

/-- PCIe completion statuses (PCIe Base Specification, log entry 12). -/
def cplOK : Nat := 0
def cplUR : Nat := 1
def cplCA : Nat := 4

/-! ### AER (08 R305, R306): bit positions of the PCIe Base Specification, log entry 12 -/

def aerPoison : Nat := 12
def aerCto : Nat := 14
def aerAbort : Nat := 15
def aerUnexp : Nat := 16
def aerUnsup : Nat := 20
def aerInternal : Nat := 22
def aerAdvisory : Nat := 13
def aerCorInternal : Nat := 14

/-- The Device Control registers that govern a function: a VF's are its PF's (PCIe Base Specification, log entry 12). -/
def State.ctlFn (s : State) (n fn : Nat) : Fn := s.fnc n (min fn 1)

/-- AER mask and severity registers that govern a function, at the reset values of the PCIe Base Specification until they are
written (08 R293; log entry 12). -/
def State.aerMask (s : State) (n fn : Nat) : Nat := (tget (s.ctlFn n fn).cfg 0x42).getD 0x400000
def State.aerSev (s : State) (n fn : Nat) : Nat := (tget (s.ctlFn n fn).cfg 0x43).getD 0x462030
def State.aerCorMask (s : State) (n fn : Nat) : Nat := (tget (s.ctlFn n fn).cfg 0x45).getD 0xE000

/-- Whether a function may send an error message: 0 ERR_COR, 1 ERR_NONFATAL, 2 ERR_FATAL, by the reporting enables of Device Control
and SERR# Enable (log entry 12). -/
def State.errMay (s : State) (n fn k : Nat) : Bool :=
  s.on (HBI_LINK_STAT.dl_up n) && (bit (tcnt (s.ctlFn n fn).cfg 0x16) k || (k != 0 && bit (tcnt (s.ctlFn n fn).cfg 1) 8))

/-- Sets an error bit of a function's Status register: 8 Master Data Parity Error, 11 Signaled Target Abort, 12 Received Target Abort,
13 Received Master Abort, 14 Signaled System Error, 15 Detected Parity Error (08 R305; log entry 12). -/
def State.pciErr (s : State) (n fn b : Nat) : State := s.modFn n fn fun f => { f with pciSta := orBit f.pciSta b }

/-- Poisoned data has come to a function: of a completion, Master Data Parity Error where Parity Error Response, bit 6 of Command,
allows it (08 R305; log entry 12). -/
def State.poisonSta (s : State) (n fn : Nat) (cpl : Bool) : State :=
  let s := s.pciErr n fn 15
  if cpl ∧ bit (tcnt (s.ctlFn n fn).cfg 1) 6 then s.pciErr n fn 8 else s

/-- Sends an error message that may be sent; of an Unsupported Request its own reporting enable must allow it, too. One other than
ERR_COR sets Signaled System Error while SERR# Enable is 1 (log entry 12). -/
def State.errMsg (s : State) (n fn k b : Nat) : State :=
  let s := if s.errMay n fn k ∧ k ≠ 0 ∧ bit (tcnt (s.ctlFn n fn).cfg 1) 8 then s.pciErr n fn 14 else s
  if s.errMay n fn k ∧ (b ≠ aerUnsup ∨ bit (tcnt (s.ctlFn n fn).cfg 0x16) 3 ∨ (k ≠ 0 ∧ bit (tcnt (s.ctlFn n fn).cfg 1) 8)) then s.emit (.hostMsg n fn (if k = 0 then msgErrCor else if k = 1 then msgErrNonfatal else msgErrFatal) b) else s

/-- Logs an uncorrectable error: its status bit and Device Status; of the first that is not masked its pointer too, and its header, but
for an internal error. What the header log holds is a free value: the spec gives no TLP header (08 R305; log entry 12). -/
def State.aerLog (s : State) (n fn b dev : Nat) : State :=
  let f := s.fnc n fn
  let first := !bit (s.aerMask n fn) b && !bit f.aerUnc f.aerFirst
  let s := s.modFn n fn fun f =>
    { f with aerUnc := orBit f.aerUnc b, devSta := f.devSta ||| dev, aerFirst := if first then b else f.aerFirst }
  if first && b != aerInternal then
    let (v, s) := s.free 128
    s.modFn n fn fun f => { f with aerHdr := v }
  else s

/-- An uncorrectable error reported as such (08 Table 8.9). -/
def State.aerReport (s : State) (n fn b : Nat) (fatal : Bool) : State :=
  let s := s.aerLog n fn b ((if fatal then 4 else 2) + (if b = aerUnsup then 8 else 0))
  if bit (s.aerMask n fn) b then s else s.errMsg n fn (if fatal then 2 else 1) b

/-- An uncorrectable error of a posted request, reported by the severity that AER gives it (08 R305). -/
def State.aerBySev (s : State) (n fn b : Nat) : State :=
  let s := if b = aerPoison then s.poisonSta n fn false else s
  s.aerReport n fn b (bit (s.aerSev n fn) b)

/-- An uncorrectable error reported as advisory non-fatal (08 Table 8.8); host software that gives it fatal severity has it reported
as fatal (log entry 12). -/
def State.aerAdvise (s : State) (n fn b : Nat) : State :=
  if bit (s.aerSev n fn) b then s.aerReport n fn b true
  else
    let s := (s.aerLog n fn b (if b = aerUnsup then 9 else 1)).modFn n fn fun f => { f with aerCor := orBit f.aerCor aerAdvisory }
    if bit (s.aerMask n fn) b ∨ bit (s.aerCorMask n fn) aerAdvisory then s else s.errMsg n fn 0 aerAdvisory

/-- A Corrected Internal Error (08 Table 8.9). -/
def State.aerCorrected (s : State) (n fn : Nat) : State :=
  let s := s.modFn n fn fun f => { f with aerCor := orBit f.aerCor aerCorInternal, devSta := f.devSta ||| 1 }
  if bit (s.aerCorMask n fn) aerCorInternal then s else s.errMsg n fn 0 aerCorInternal

/-- Whether a function takes memory requests: its link is up and its Memory Space Enable is 1, for a VF the SR-IOV capability's VF MSE
(08 R289; log entry 12). -/
def State.memOn (s : State) (n fn : Nat) : Bool :=
  s.on (HBI_LINK_STAT.dl_up n) && if fn < 2 then bit (tcnt (s.fnc n fn).cfg 1) 1 else bit (tcnt (s.fnc n 1).cfg 0x5A) 3

/-- A completion to the host with an error status, logged as AER gives it: Unsupported Request, or Completer Abort with Signaled Target
Abort (08 R305; log entry 12). -/
def State.cplErr (s : State) (n fn st : Nat) : State :=
  let s := if st = cplCA then (s.pciErr n fn 11).aerAdvise n fn aerAbort else s.aerAdvise n fn aerUnsup
  s.emit (.hostCpl n fn st [])

/-- A memory request that a function takes no memory requests for: Unsupported Request (PCIe Base Specification, log entry 12). -/
def State.memUr (s : State) (n fn : Nat) (write : Bool) : State :=
  if !s.on (HBI_LINK_STAT.dl_up n) then s
  else if write then s.aerBySev n fn aerUnsup
  else s.cplErr n fn cplUR

/-! ### Tags (08 R311) -/

/-- The tag values a function may use and how many (08 Table 8.10). -/
def State.tagRange (s : State) (n fn : Nat) : Nat × Nat × Nat :=
  let f := s.ctlFn n fn
  if f.tag10 then (if s.on (HBI_LINK_STAT.flit n) then (1, 1023, 1023) else (256, 1023, 768))
  else if f.extTag then (1, 255, 255) else (1, 31, 31)

/-- HBI_TAG_STAT follows the tags. -/
def State.tagStat (s : State) (n : Nat) : State :=
  let mine := s.tags.filter (·.hl == n)
  let k := (mine.filter (!·.quarantined)).length
  let s := (s.set (HBI_TAG_STAT.in_use n) k).set (HBI_TAG_STAT.quarantined n) (mine.length - k)
  s.set (HBI_TAG_STAT.in_use_max n) (max k (s.get (HBI_TAG_STAT.in_use_max n)))

/-- The tag a function's next request takes, when one is usable: of the 1,024 that its host link has, and of its own number. Tags of
two functions are told apart by the requester (PCIe Base Specification, log entry 12). -/
def State.nextTag (s : State) (n fn : Nat) : Option Nat :=
  let (lo, hi, k) := s.tagRange n fn
  let here := s.tags.filter (·.hl == n)
  let mine := here.filter (·.fn == fn)
  if 1024 ≤ here.length ∨ k ≤ mine.length then none
  else ((List.range (hi + 1 - lo)).map (· + lo)).find? fun t => !(mine.any (·.tag == t))

/-- A request finds no usable tag: its wait is counted once (08 R311). -/
def State.tagWait (s : State) (n fn : Nat) (why : TagFor) : State :=
  if (s.hl n).tagWaits.contains (fn, why) then s
  else (s.modHl n fun h => { h with tagWaits := h.tagWaits ++ [(fn, why)] }).bump (HBI_CNT_TAG_WAIT.ev n)

/-- A request waits for a tag no longer. -/
def State.tagGot (s : State) (n fn : Nat) (why : TagFor) : State :=
  if (s.hl n).tagWaits.contains (fn, why) then s.modHl n fun h => { h with tagWaits := h.tagWaits.filter (· != (fn, why)) } else s

/-- Takes a usable tag for a non-posted request; `none` is a wait (08 R311). It records the account and its generation
(08 R314). -/
def State.takeTag (s : State) (n fn : Nat) (acct : Option Nat) (why : TagFor) : Option Nat × State :=
  match s.nextTag n fn with
  | some t =>
    let gen := match acct with | some a => s.aGen a | none => 0
    let s := s.tagGot n fn why
    (some t, State.tagStat { s with tags := s.tags ++ [{ hl := n, tag := t, fn, acct, gen, why }] } n)
  | none => (none, s.tagWait n fn why)

/-- Frees the tag that a request for `why` holds. -/
def State.freeTag (s : State) (n : Nat) (why : TagFor) : State :=
  State.tagStat { s with tags := s.tags.filter fun t => !(t.hl == n && t.why == why && !t.quarantined) } n

/-! ### Address translation (08 R307 to R310) -/

/-- What the host bridge does with a request now. -/
inductive Xl where
  | go (addr : Nat)   -- sent, at this address
  | wait              -- held
  | deny              -- failed
  deriving DecidableEq, Repr

def AtcEnt.covers (e : AtcEnt) (fn : Nat) (pasid : Option Nat) (page : Nat) : Bool :=
  e.fn == fn && e.pasid == pasid && decide (e.page ≤ page ∧ page < e.page + e.pages)

def AtcEnt.place (e : AtcEnt) (addr : Nat) : Nat :=
  if e.untransOnly then addr else (e.trans + (addr / 4096 - e.page)) * 4096 + addr % 4096

/-- HBI_ATS_STAT follows the cache and the Invalidate Requests. -/
def State.atsStat (s : State) (n : Nat) : State :=
  (s.set (HBI_ATS_STAT.entries n) (s.hl n).atc.length).set (HBI_ATS_STAT.inval_pending n) (s.hl n).invals.length

def State.atsDenied (s : State) (n fn page : Nat) : State := s.raise kATS_DENIED (srcOf 0x26 n) (page * 4096) fn

/-- Looks a page up for a request; a miss sends a Translation Request, once and under a tag of its own, and holds the request (08 R307,
R308, R311). An answer that only the waiting request may use stays with the Translation Request until that request goes. -/
def State.xlate (s : State) (n fn : Nat) (pasid : Option Nat) (addr : Nat) (write : Bool) : Xl × State :=
  let page := addr / 4096
  let use (e : AtcEnt) (s : State) : Xl × State :=
    if (write && e.wr) || (!write && e.rd) then (.go (e.place addr), s) else (.deny, s.atsDenied n fn page)
  if !(s.fnc n fn).ats then (.go addr, s)
  else
    match takeFirst (fun e : AtcEnt => e.covers fn pasid page) (s.hl n).atc with
    | some (e, r) => use e (s.modHl n fun h => { h with atc := e :: r })
    | none =>
      let mine (q : AtsReq) : Bool := q.fn == fn && q.pasid == pasid && q.page == page
      match (s.hl n).ats.find? mine with
      | some q =>
        if q.denied then (.deny, s)
        else match q.answer with
          | some e => use e s
          | none => (.wait, s)
      | none =>
        match s.takeTag n fn none (.trans fn pasid page) with
        | (none, s) => (.wait, s)
        | (some _, s) =>
          (.wait, ((s.modHl n fun h => { h with ats := h.ats ++ [{ fn, pasid, page }] }).bump (HBI_CNT_ATS_MISS.ev n)).emit
            (.hostMsg n fn msgTransReq page))

/-- A request goes, or fails: the answers to the Translation Requests of its pages have been used, and those of a request that goes are
at hand for each of its TLPs (08 R310). -/
def State.xlUsed (s : State) (n fn : Nat) (pasid : Option Nat) (pages : List Nat) (goes : Bool) : State :=
  let mine (q : AtsReq) : Bool := q.fn == fn && q.pasid == pasid && pages.contains q.page && (q.denied || q.answer.isSome)
  if (s.hl n).ats.any mine then
    let got := if goes then (s.hl n).ats.filterMap fun q => if mine q then q.answer else none else []
    s.modHl n fun h =>
      { h with ats := h.ats.filter fun q => !mine q,
               once := got ++ h.once.filter fun e => !got.any fun g => g.covers e.fn e.pasid e.page }
  else s

/-- The address a request that its gate has passed carries, and the translation it uses (08 R307, R310). -/
def State.tlpAddr (s : State) (n fn : Nat) (pasid : Option Nat) (addr : Nat) : Nat × Option AtcEnt × State :=
  let hit (e : AtcEnt) : Bool := e.covers fn pasid (addr / 4096)
  if !(s.fnc n fn).ats then (addr, none, s)
  else
    match takeFirst hit (s.hl n).atc with
    | some (e, r) => (e.place addr, some e, s.modHl n fun h => { h with atc := e :: r })
    | none =>
      match (s.hl n).once.find? hit with
      | some e => (e.place addr, some e, s)
      | none => (addr, none, s)

/-- Notes the translation that a tagged request uses (08 R309). -/
def State.tagUses (s : State) (n fn tag : Nat) (xl : Option AtcEnt) : State :=
  { s with tags := modFirst (fun t : Tag => t.hl == n && t.fn == fn && t.tag == tag) (fun t => { t with xl }) s.tags }

/-- Puts a read request on the link. `attr` is No Snoop in bit 0 and the steering tag above it. -/
def State.readTlp (s : State) (n fn : Nat) (pasid : Option Nat) (tag addr len attr : Nat) : State :=
  let (host, xl, s) := s.tlpAddr n fn pasid addr
  (s.tagUses n fn tag xl).emit (.hostRead n fn pasid tag host len attr)

/-! ### Whether a function may issue (08 R290, R301, R316, R320) -/

/-- The bits of HBI_BME_HOLD: work of a function waits. -/
def State.bmeHold (s : State) (n fn : Nat) : State :=
  s.set (if fn = 0 then HBI_BME_HOLD.pf0 n else if fn = 1 then HBI_BME_HOLD.pf1 n else HBI_BME_HOLD.vf n) 1

/-- Whether a function may issue requests now; one in reset may while its accounts or channels drain, when it might before (08 R316,
R318, R320). -/
def State.mayIssue (s : State) (n fn : Nat) : Bool :=
  let f := s.fnc n fn
  s.on (HBI_LINK_STAT.dl_up n) && ((f.bme && !f.d3 && !f.resetting) || f.drainBme)

/-- The 4 KiB pages of a range. -/
def pagesOf (addr len : Nat) : List Nat :=
  if len = 0 then [] else (List.range ((addr + len - 1) / 4096 - addr / 4096 + 1)).map (· + addr / 4096)

/-- What becomes of a set of accesses. -/
inductive Gate where
  | go | wait | fail
  deriving DecidableEq, Repr

def Gate.join : Gate → Gate → Gate
  | .fail, _ => .fail
  | _, .fail => .fail
  | .wait, _ => .wait
  | _, .wait => .wait
  | .go, .go => .go

/-- What the answers to reads that a command makes show of the host bus: poisoned data is counted and reported, and a read that no
completion answers in time is, too, and leaves its tag quarantined (08 Table 8.8, R313). -/
def State.hostSeen (s : State) (n fn : Nat) (accs : List (Nat × Nat × Bool)) (hv : HostView) : State :=
  accs.foldl (fun s (addr, len, wr) =>
    if wr then s
    else (hv.filter fun c => decide (c.addr < addr + len ∧ addr < c.addr + c.data.length)).foldl (fun s c =>
      if c.late then
        match s.takeTag n fn none .other with
        | (some t, s) =>
          let q (x : Tag) : Bool := x.hl == n && x.fn == fn && x.tag == t
          let s := State.tagStat { s with tags := modFirst q (fun x => { x with quarantined := true }) s.tags } n
          (s.bump (HBI_CNT_CTO.ev n)).aerAdvise n fn aerCto
        | (none, s) => s
      else if c.poison then ((s.bump (HBI_CNT_POISON_RX.ev n)).poisonSta n fn true).aerAdvise n fn aerPoison
      else s) s) s

/-- A read that a command makes and that ends within its step holds a tag for the while (log entry 13). -/
def State.tagPeak (s : State) (n : Nat) : State :=
  s.set (HBI_TAG_STAT.in_use_max n) (max (s.get (HBI_TAG_STAT.in_use n) + 1) (s.get (HBI_TAG_STAT.in_use_max n)))

/-- Whether a function's accesses (address, length, write) can be made now, must wait, or fail with HOST_ERROR. A read needs a
usable tag (08 R311); `hv` is what the host answers to the reads that the command makes now. -/
def State.gate (s : State) (n fn : Nat) (pasid : Option Nat) (accs : List (Nat × Nat × Bool)) (hv : HostView := []) : Gate × State :=
  if accs = [] then (.go, s)
  else if !s.hlPresent n ∨ (pasid.isSome ∧ !(s.fnc n fn).pasidEn) then (.fail, s)
  else if !s.mayIssue n fn then (.wait, if (s.fnc n fn).bme && !(s.fnc n fn).d3 then s else s.bmeHold n fn)
  else
    let reads := accs.filter fun (_, _, wr) => !wr
    let why : TagFor := .host ((reads.head?.map (·.1)).getD 0)
    if reads ≠ [] ∧ (s.nextTag n fn).isNone then (.wait, s.tagWait n fn why)
    else
      let (g, s) := accs.foldl (fun acc (addr, len, wr) =>
        (pagesOf addr len).foldl (fun (g, s) pg =>
          if g = .fail then (g, s)
          else
            match State.xlate s n fn pasid (pg * 4096) wr with
            | (.go _, s) => (g, s)
            | (.wait, s) => (g.join .wait, s)
            | (.deny, s) => (.fail, s)) acc) (Gate.go, s)
      if g = .wait then (g, s)
      else
        let s := s.xlUsed n fn pasid (accs.flatMap fun (addr, len, _) => pagesOf addr len) (g == .go)
        if g = .fail ∨ reads = [] then (g, s) else (g, ((s.tagGot n fn why).tagPeak n).hostSeen n fn accs hv)

/-! ### Posted writes (08 R290, R315; 00 R31) -/

/-- A write cut so that no part exceeds Max_Payload_Size or crosses a 4 KiB boundary. -/
def tlpSplit (mps : Nat) : Nat → Nat → List Byte → List (Nat × List Byte)
  | 0, _, _ => []
  | k + 1, addr, data =>
    if data = [] then []
    else
      let n := min (max mps 1) (4096 - addr % 4096)
      (addr, data.take n) :: tlpSplit mps k (addr + n) (data.drop n)

/-- A posted write that an engine's step makes after its gate has said go: write TLPs on the link. -/
def State.post (s : State) (n fn : Nat) (pasid : Option Nat) (addr : Nat) (data : List Byte) (poison : Bool) (attr : Nat := 0) : State :=
  (tlpSplit (s.ctlFn n fn).mps data.length addr data).foldl (fun s (a, d) =>
    let (host, xl, s) := s.tlpAddr n fn pasid a
    (s.modHl n fun h => { h with lastWrite := some { hl := n, fn, pasid, addr := a / 4 * 4, host := host / 4 * 4, xl } }).emit
      (.hostWrite n fn pasid host d poison attr)) s

/-- A posted write that may have to wait, with the vector it announces (08 R302). -/
def State.postHeld (s : State) (n : Nat) (w : HeldWrite) : State :=
  let hold (s : State) : State := s.modHl n fun h => { h with heldWrites := h.heldWrites ++ [w] }
  if (s.hl n).heldWrites.any (·.fn == w.fn) then hold s
  else
    match s.gate n w.fn w.pasid [(w.addr, w.data.length, true)] with
    | (.wait, s) => hold s
    | (.fail, s) => s
    | (.go, s) =>
      let s := s.post n w.fn w.pasid w.addr w.data w.poison
      match w.vec with | some v => s.msix n w.fn v | none => s

/-- Sends the held writes that need wait no longer, and then the vectors that waited for them (08 R302). -/
def State.postFlush (s : State) (n : Nat) : State :=
  let ws := (s.hl n).heldWrites
  let s := ws.foldl (fun s w => s.postHeld n w) (s.modHl n fun h => { h with heldWrites := [] })
  ((ws.map (·.fn)).dedup).foldl (fun s fn => s.msixFlush n fn) s

/-! ### Flush reads (08 R315) -/

/-- Issues the flush reads of a host link that wait and may go, each with its write's function, PASID and translation; one whose PASID
may no longer be sent fails (08 R290). -/
def State.flushIssue (s : State) (n : Nat) : State :=
  (s.flushes.filter fun f => f.target.hl == n && f.tag.isNone && f.endsAs.isNone).foldl (fun s f =>
    let w := f.target
    let upd (s : State) (g : Flush → Flush) : State := { s with flushes := modFirst (fun x => x == f) g s.flushes }
    if w.pasid.isSome ∧ !(s.fnc n w.fn).pasidEn then upd s fun x => { x with endsAs := some false }
    else if !s.mayIssue n w.fn then (if (s.fnc n w.fn).bme && !(s.fnc n w.fn).d3 then s else s.bmeHold n w.fn)
    else
      match s.takeTag n w.fn f.acct (.flush f.why) with
      | (some t, s) =>
        let s := upd s fun x => { x with tag := some t }
        let mine (x : Tag) : Bool := x.hl == n && x.fn == w.fn && x.tag == t
        (State.tagUses { s with tags := modFirst mine (fun x => { x with invals := f.invals }) s.tags } n w.fn t w.xl).emit
          (.hostRead n w.fn w.pasid t w.host (if s.on (HBI_FLUSH_MODE.four_byte n) then 4 else 0) 0)
      | (none, s) => s) s

/-- Asks for a flush read behind a write, for an account's operation or none; on a link that has sent no write since it came up it counts
as returned. -/
def State.flushAsk (s : State) (target : HostAddr) (acct : Option Nat) (why : FlushFor) : State :=
  let endsAs := if (s.hl target.hl).lastWrite.isNone then some true else none
  State.flushIssue { s with flushes := s.flushes ++ [{ target, acct, why, endsAs }] } target.hl

end Sys2Proof.Machine
end

