-- ==== Sys2Proof/Machine/Events.lean ====
section
/-!
DEFINITION. Machine/Events.lean: event queues, notices, completions, counters and standing orders, allowances, and how a
descriptor is staged, checked and consumed (09 R329 to R355; 05 R206 to R210).
-/
namespace Sys2Proof.Machine

/-! ### Event kinds (09 Table 9.5) and status codes (05 Table 5.8) -/

def evNOP_DONE : Nat := 0x01
def evFENCE_DONE : Nat := 0x02
def evDESC_ERROR : Nat := 0x03
def evRING_STOPPED : Nat := 0x04
def evACCOUNT_NOTICE : Nat := 0x05
def evPUT_DONE : Nat := 0x10
def evGET_DONE : Nat := 0x11
def evATOMIC_DONE : Nat := 0x12
def evORDER_FAILED : Nat := 0x13
def evSEND_DONE : Nat := 0x20
def evRECV_DONE : Nat := 0x21
def evPROBE : Nat := 0x22
def evOVF_RETIRED : Nat := 0x23
def evOVF_EMPTY : Nat := 0x24
def evCTX_SPILLED : Nat := 0x25
def evCTX_RETURNED : Nat := 0x26
def evCOLL_DONE : Nat := 0x30
def evTREE_ABORTED : Nat := 0x31
def evMOVE_DONE : Nat := 0x40
def stKEY_INVALID : Nat := 0x01
def stRANGE : Nat := 0x02
def stACCESS : Nat := 0x03
def stALIGN : Nat := 0x04
def stHOST_ERROR : Nat := 0x05
def stBAD_ATOMIC : Nat := 0x06
def stRANK_RANGE : Nat := 0x10
def stRANK_INVALID : Nat := 0x11
def stNO_ROUTE : Nat := 0x12
def stNO_ACCOUNT : Nat := 0x13
def stTIMEOUT : Nat := 0x14
def stRESOURCE : Nat := 0x15
def stLENGTH : Nat := 0x16
def stBAD_DESC : Nat := 0x17
def stCOUNTER : Nat := 0x18
def stFREEZE_BOUND : Nat := 0x40
def stADDRESS : Nat := 0x51

/-! ### Event queues (09 R339 to R346) -/

def m32 : Nat := 2 ^ 32

def State.eqOn (s : State) (a q : Nat) : Bool := s.on (ACC_EQ1.enable a q)

/-- Events in the queue and owed to it (09 R343). -/
def State.eqUsed (s : State) (a q : Nat) : Nat :=
  subMod m32 (s.get (ACC_EQ2.producer a q)) (s.get (ACC_EQ2.consumer a q)) + s.get (ACC_EQ3.reserved_events a q)

def State.eqRoom (s : State) (a q : Nat) : Bool := decide (s.eqUsed a q < 2 ^ s.get (ACC_EQ1.log2_size a q))

/-- Writes one event; `w0` lacks the phase bit. The armed queue disarms and announces it (09 R339, R340, R346). -/
def State.eqWrite (s : State) (a q w0 w1 w2 w3 : Nat) : State :=
  let k := s.get (ACC_EQ1.log2_size a q)
  let i := s.get (ACC_EQ2.producer a q)
  let w0 := w0 + (if (i / 2 ^ k) % 2 = 0 then 2 ^ 16 else 0)
  let base := s.get (ACC_EQ0.base a q) / 4096 * 4096
  let fire := s.on (ACC_EQ3.armed a q) && s.on (ACC_EQ1.irq_en a q)
  let s := s.set (ACC_EQ2.producer a q) ((i + 1) % m32)
  let s := if fire then s.set (ACC_EQ3.armed a q) 0 else s
  s.postHeld (s.aHl a) { fn := s.aFn a, pasid := s.aPasid a, addr := base + 32 * (i % 2 ^ k),
                         data := bytesOf 32 (joinWords [w0, w1, w2, w3]), vec := if fire then some (s.get (ACC_EQ1.vector a q)) else none }

/-- Event word 0 without its phase (09 Table 9.4). -/
def evWord0 (kind status ring : Nat) (fired byIdx : Bool) (id : Nat) : Nat :=
  kind + status % 256 * 2 ^ 8 + ring % 64 * 2 ^ 17 + b2n fired * 2 ^ 23 + b2n byIdx * 2 ^ 24 + id % m32 * m32

/-- One event less is owed to a queue (09 R343). -/
def State.eqUnowe (s : State) (a q : Nat) : State :=
  s.set (ACC_EQ3.reserved_events a q) (s.get (ACC_EQ3.reserved_events a q) - 1)

/-! ### Notices (09 R344) -/

/-- Whether a notice of an account can be written now. -/
def State.noticeRoom (s : State) (a : Nat) : Bool :=
  let q := s.get (ACC_NOTIFY.eq a)
  s.on (ACC_NOTIFY.enable a) && s.eqOn a q && s.eqRoom a q

/-- Writes a notice to the queue that ACC_NOTIFY names. -/
def State.noticeWrite (s : State) (n : Notice) : State :=
  let s := s.eqWrite n.acct (s.get (ACC_NOTIFY.eq n.acct)) (evWord0 n.kind 0 n.ring false false n.id) 0 n.w2 n.w3
  if n.kind = evRING_STOPPED then
    s.modAcct n.acct fun a => { a with rings := (a.rings.map fun (r, x) => if r = n.ring then (r, { x with stopNotice := false }) else (r, x)) }
  else s

/-- The trees that are ACTIVE or ABORTED on this device (07 Table 7.17). -/
def State.liveTrees (s : State) : List Nat :=
  s.regs.filterMap fun (k, w) =>
    if 0x7200000 ≤ k ∧ k < 0x7208000 ∧ (w.toNat % 4 = 1 ∨ w.toNat % 4 = 2) then some ((k - 0x7200000) / 8) else none

/-- The privileged few (09 R356): PF1's own account, and an owner of a tree with root = 1 that is ACTIVE or ABORTED. -/
def State.privileged (s : State) (a : Nat) : Bool :=
  (s.aFn a == 1 && !s.on (ACC_BIND0.slice a))
    || s.liveTrees.any fun t => s.on (ALY_TREE1.root t) && s.get (ALY_TREE0.account t) == a

/-- Whether the generation of an account may advance (16 R545): nothing outstanding has seen 32,767 advances. -/
def State.genMay (s : State) (a : Nat) : Bool :=
  s.tags.all (fun t => t.acct != some a || decide (subMod 65536 (s.aGen a) t.gen < 32767))
    && s.movs.all fun (_, m) => m.ev.acct != a || decide (subMod 65536 (s.aGen a) m.gen < 32767)

def State.genUp (s : State) (a : Nat) : State := s.set (ACC_BIND1.generation a) ((s.aGen a + 1) % 65536)

/-! ### Results of account commands (09 Table 9.12) -/

def rcOK : Nat := 0x00
def rcSTATE : Nat := 0x01
def rcLIMIT : Nat := 0x02
def rcCHARTER : Nat := 0x03
def rcDIGEST : Nat := 0x04
def rcVERSION : Nat := 0x05
def rcHOST_ERROR : Nat := 0x06
def rcABANDONED : Nat := 0x07
def rcSTUB_FULL : Nat := 0x08
def rcRESOURCE : Nat := 0x09
def rcBAD_CMD : Nat := 0x0A
def rcSPACE : Nat := 0x0B
def rcABSENT : Nat := 0x0C

/-- An account command ends: result is set and done reads 1 (09 R349). -/
def State.cmdEnd (s : State) (c : AcctCmd) (res : Nat) : State :=
  let s := { s with acctCmds := s.acctCmds.filter (· != c) }
  match c.slice with
  | none => (s.set ACC_CMD0.result res).set ACC_CMD0.done 1
  | some n => (s.set (ACC_SLICE_CMD0.result n) res).set (ACC_SLICE_CMD0.done n) 1

/-- The commands of migration that run on an account end ABANDONED (09 Table 9.8). -/
def State.cmdsAbandon (s : State) (a : Nat) : State :=
  (s.acctCmds.filter fun c => c.acct == a && c.cmd != 2 && c.cmd != 3).foldl (fun s c => s.cmdEnd c rcABANDONED) s

/-- An account enters RESETTING: commands of migration that run on it end, and a generation-number account's generation rises at once
(09 R350, R357, R358; 16 R545). -/
def State.resetting (s : State) (a : Nat) (removing : Bool) : State :=
  let p := s.privileged a
  let up := !p && s.genMay a
  let s := ((s.cmdsAbandon a).set (ACC_BIND1.state a) aRESETTING).modAcct a fun x =>
    { x with removing, freezing := false, drain := if p then 1 else if up then 3 else 2 }
  if up then s.genUp a else s

/-- Writes a notice, or has it wait; an account that would hold a 65th enters RESETTING, and ACCOUNT_DRAIN_END resets it
(09 R344). -/
def State.notice (s : State) (n : Notice) : State :=
  let mine := s.notices.filter (·.acct == n.acct)
  if mine = [] ∧ s.noticeRoom n.acct then s.noticeWrite n
  else if mine.length ≥ 64 then
    if s.aSt n.acct = aRESETTING then s
    else (s.raise kNOTIFY_OVERRUN (srcOf 0x27 (s.aHl n.acct)) (acctAddr n.acct) 0).resetting n.acct false
  else
    let q := s.get (ACC_NOTIFY.eq n.acct)
    let s := State.bump { s with notices := s.notices ++ [n] } ACC_CNT_NOTIFY_WAIT.ev
    if s.eqOn n.acct q then s.set (ACC_EQ3.full n.acct q) 1 else s

/-- An ACCOUNT_NOTICE: 1 frozen, 2 thawed, 3 restored (09 Table 9.5). -/
def State.acctNotice (s : State) (a id : Nat) : State := s.notice { acct := a, kind := evACCOUNT_NOTICE, id, w2 := s.aGen a }

/-! ### Completions (09 R338, R340 to R343) -/

/-- A consumed descriptor has completed: nothing waits for it any longer (09 R338). -/
def Acct.ended (a : Acct) (num : Nat) : Acct :=
  { a with firedLive := a.firedLive.filter (· != num),
           rings := a.rings.map fun (i, r) => (i, { r with live := r.live.filter (· != num),
                                                           fence := r.fence.map fun (e, l) => (e, l.filter (· != num)) }) }

/-- Writes the event a descriptor owes. -/
def State.evtOut (s : State) (ev : EvtInfo) (kind status id w2 w3 : Nat) (byIdx : Bool) : State :=
  (s.eqWrite ev.acct ev.eq (evWord0 kind status ev.ring ev.fired byIdx id) ev.cookie w2 w3).eqUnowe ev.acct ev.eq

/-- FENCEs that wait for nothing any longer complete (09 R338). -/
def State.fenceSweep (s : State) (a : Nat) : Nat → State
  | 0 => s
  | k + 1 =>
    match (s.acct a).rings.find? fun (_, r) => match r.fence with | some (_, []) => true | _ => false with
    | some (i, r) =>
      match r.fence with
      | some (ev, _) =>
        let s := s.modAcct a fun x => ({ x with rings := tput x.rings i { r with fence := none, fenceAll := false } }).ended ev.num
        (s.evtOut ev evFENCE_DONE 0 ev.idx 0 0 false).fenceSweep a k
      | none => s
    | none => s

/-! ### Counters and standing orders (05 R206 to R209) -/

def ctrMax : Nat := 2 ^ 48 - 1

/-- A parked order whose account may run it now (09 R348, R353, R360). -/
def State.orderMay (s : State) (o : Order) : Bool := s.aSt o.ev.acct = aACTIVE && decide (0 < (s.acct o.ev.acct).weight)

def insertOrder (o : Order) : List Order → List Order
  | [] => [o]
  | x :: r => if o.threshold < x.threshold then o :: x :: r else x :: insertOrder o r

/-- Parked orders in ascending threshold order, and parking order within a threshold (05 R208). -/
def byThreshold (l : List Order) : List Order := l.foldl (fun acc o => insertOrder o acc) []

def State.orderStat (s : State) : State := s.set TLR_ORDER_STAT.parked s.orders.length

/-- Fires the orders that `f` selects and whose counters have reached their thresholds (05 R208). -/
def State.fireWhere (s : State) (f : Order → Bool) : State :=
  let go (o : Order) : Bool := f o && s.orderMay o && decide (o.threshold ≤ s.get (TLR_CTR.value o.ctr))
  let hit := byThreshold (s.orders.filter go)
  let s := State.orderStat { s with orders := s.orders.filter fun o => !go o }
  (hit.foldl (fun s o => s.modAcct o.ev.acct fun a => { a with fired := a.fired ++ [(o.desc, o.ev)] }) s).bumpN
    TLR_CNT_ORDER_FIRE.ev hit.length

/-- Raises a counter by 1 (05 R206). -/
def State.ctrRaise (s : State) (i : Nat) : State :=
  (s.set (TLR_CTR.value i) (min (s.get (TLR_CTR.value i) + 1) ctrMax)).fireWhere fun o => o.ctr == i

/-- Whether a counter is owned by an account (05 R206). -/
def State.ctrOwned (s : State) (i a : Nat) : Bool := s.on (TLR_CTR_OWN.valid i) && s.get (TLR_CTR_OWN.account i) == a

/-- A consumed descriptor completes with its event, or silently when its account's generation has changed (09 R342). -/
def State.complete (s : State) (ev : EvtInfo) (kind status id w2 w3 : Nat) (byIdx : Bool) : State :=
  if s.aGen ev.acct ≠ ev.gen then s.bump ACC_CNT_GEN_DISCARD.ev
  else
    let s := (s.evtOut ev kind status id w2 w3 byIdx).modAcct ev.acct fun a => a.ended ev.num
    let s := match ev.ctr with | some c => if status = 0 then s.ctrRaise c else s | none => s
    s.fenceSweep ev.acct 64

/-- A consumed descriptor completes without an event (09 R343): a parked ORDER. -/
def State.completeQuiet (s : State) (ev : EvtInfo) : State :=
  ((s.eqUnowe ev.acct ev.eq).modAcct ev.acct fun a => a.ended ev.num).fenceSweep ev.acct 64

/-! ### Allowances (09 R351 to R355) -/

/-- Charges `cost` bytes: to the min bucket when it holds them, else to the deficit; to the max bucket always. -/
def State.charge (s : State) (a cost : Nat) : State :=
  let s := s.modAcct a fun x =>
    let x := if x.maxRate = 0 then x else { x with maxBucket := x.maxBucket - (cost * 8 : Nat) }
    if x.minRate ≠ 0 ∧ ((cost * 8 : Nat) : Int) ≤ x.minBucket then { x with minBucket := x.minBucket - (cost * 8 : Nat) }
    else { x with deficit := x.deficit - cost }
  s.set (ACC_BIND3.charged a) (min (s.get (ACC_BIND3.charged a) + cost) (2 ^ 48 - 1))

/-- A resend, probe or NAK resend: charged to the deficit and the max bucket, and never waits (09 R352). -/
def State.chargeFree (s : State) (a cost : Nat) : State :=
  let s := s.modAcct a fun x =>
    { x with deficit := x.deficit - cost, maxBucket := if x.maxRate = 0 then x.maxBucket else x.maxBucket - (cost * 8 : Nat) }
  s.set (ACC_BIND3.charged a) (min (s.get (ACC_BIND3.charged a) + cost) (2 ^ 48 - 1))

/-! ### Rings (09 R329 to R333, R337) -/

def rDISABLED : Nat := 0
def rRUNNING : Nat := 1
def rSTOPPED : Nat := 2
def rWAITING : Nat := 3
def State.ring (s : State) (a r : Nat) : Ring := (tget (s.acct a).rings r).getD {}
def State.modRing (s : State) (a r : Nat) (f : Ring → Ring) : State :=
  s.modAcct a fun x => { x with rings := tput x.rings r (f ((tget x.rings r).getD {})) }
def State.ringSt (s : State) (a r : Nat) : Nat := s.get (ACC_RING3.state a r)
def State.prodOf (s : State) (a r : Nat) : Nat := s.get (ACC_RING2.producer a r)
def State.consOf (s : State) (a r : Nat) : Nat := s.get (ACC_RING2.consumer a r)
/-- Whether a ring serves (RUNNING or WAITING). -/
def State.ringServes (s : State) (a r : Nat) : Bool := s.ringSt a r = rRUNNING || s.ringSt a r = rWAITING

/-- Stops a ring (09 R337). -/
def State.ringStop (s : State) (a r cause : Nat) : State :=
  let s := (s.set (ACC_RING3.state a r) rSTOPPED).set (ACC_RING3.stop_cause a r) cause
  let s := s.modRing a r fun x => { x with staged := [], pushed := [], fetching := 0, stopNotice := true }
  let s := s.raise kRING_STOPPED (srcOf 0x27 (s.aHl a)) (acctAddr a) 0
  s.notice { acct := a, kind := evRING_STOPPED, id := r, w2 := s.consOf a r, w3 := cause, ring := r }

/-- Moves inline descriptors that are next in index order to the staged ones (09 R333). -/
def State.stagePushed (s : State) (a r : Nat) : Nat → State
  | 0 => s
  | k + 1 =>
    let x := s.ring a r
    let i := (s.consOf a r + x.staged.length) % m32
    match tget x.pushed i with
    | some d => (s.modRing a r fun x => { x with staged := x.staged ++ [d], pushed := tdel x.pushed i }).stagePushed a r k
    | none => s

/-- How many descriptors the next read of a ring asks for (09 R332): at most 64, no more than Max_Read_Request_Size holds (08 R290), within
a 4 KiB page, none pushed inline. -/
def State.fetchCount (s : State) (a r : Nat) : Nat :=
  let x := s.ring a r
  let i := (s.consOf a r + x.staged.length) % m32
  let slot := i % 2 ^ s.get (ACC_RING1.log2_size a r)
  let n := min (min 64 (max 1 ((s.ctlFn (s.aHl a) (s.aFn a)).mrrs / 64))) (min (subMod m32 (s.prodOf a r) i) (64 - slot % 64))
  ((List.range n).find? fun k => (tget x.pushed ((i + k) % m32)).isSome).getD n

/-- Issues the next descriptor read of a ring, when it has none staged and may (09 R332). -/
def State.ringFetch (s : State) (a r : Nat) : State :=
  if s.aSt a ≠ aACTIVE ∨ !s.ringServes a r then s
  else
    let s := s.stagePushed a r 64
    let x := s.ring a r
    let n := s.fetchCount a r
    if x.staged ≠ [] ∨ x.fetching ≠ 0 ∨ n = 0 then s
    else
      let hl := s.aHl a; let fn := s.aFn a
      let slot := s.consOf a r % 2 ^ s.get (ACC_RING1.log2_size a r)
      let addr := s.get (ACC_RING0.base a r) / 4096 * 4096 + 64 * slot
      match s.gate hl fn (s.aPasid a) [(addr, 64 * n, false)] with
      | (.go, s) =>
        match s.takeTag hl fn (some a) (.desc a r) with
        | (some t, s) => (s.modRing a r fun x => { x with fetching := n }).readTlp hl fn (s.aPasid a) t addr (64 * n) 0
        | (none, s) => s
      | (.wait, s) => s.modAcct a fun x => { x with held := true }
      | (.fail, s) => s.ringStop a r 1

/-- Issues the reads that every ring of an account may make. -/
def State.acctFetch (s : State) (a : Nat) : State := (s.acct a).rings.foldl (fun s (r, _) => s.ringFetch a r) s

/-- Whether FENCEs let a ring's next descriptor be consumed (09 R338). -/
def State.fenceFree (s : State) (a r : Nat) : Bool :=
  !((s.acct a).rings.any fun (i, x) => x.fence.isSome && (i == r || x.fenceAll))

/-! ### Consumption (09 R332, R336, R343, R348, R351) -/

/-- The next descriptor of a source: with its ring and index. -/
def State.head (s : State) (a : Nat) : Source → Option (Desc × Nat × Nat)
  | .ring r => match (s.ring a r).staged with | d :: _ => some (d, r.val, s.consOf a r) | [] => none
  | .fired => match (s.acct a).fired with | (d, e) :: _ => some (d, e.ring, e.idx) | [] => none

/-- A ring that could be served as far as the ring itself goes. -/
def State.ringReady (s : State) (a r : Nat) : Bool :=
  !(s.ring a r).staged.isEmpty && s.ringServes a r && s.fenceFree a r
    && !(s.moveWait.any fun w => w.ev.acct == a && w.ev.ring == r && !w.ev.fired)

/-- Whether it is a ring's turn: of the account's rings that could be served it comes first after the one served last (09 R351). -/
def State.ringTurn (s : State) (a r : Nat) : Bool :=
  let dist (i : Nat) : Nat := (i + 127 - (s.acct a).turn) % 64
  (s.acct a).rings.all fun (i, _) => !s.ringReady a i || decide (dist r ≤ dist i)

/-- A source whose head must wait has had its turn. -/
def State.passTurn (s : State) (a : Nat) : Source → State
  | .ring r => s.modAcct a fun x => { x with turn := r.val }
  | .fired => s

/-- An account's next item waits for something other than its allowance, as far as this cycle has shown: it holds back no other account of
its host link (09 R354). -/
def State.block (s : State) (a : Nat) : State := s.modAcct a fun x => { x with blocked := true }
def State.unblock (s : State) (a : Nat) : State := s.modAcct a fun x => { x with blocked := false }
/-- An account's work waits for the host bus (08 R316). -/
def State.hold (s : State) (a : Nat) : State := s.modAcct a fun x => { x with held := true, blocked := true }

/-! ### What an account may spend (09 R351 to R354) -/

def SrcMsg.isGet (m : SrcMsg) : Bool := m.kind == .get || m.kind == .aptLoad || m.kind == .pull || m.kind == .fin

/-- Whether the next first transmission of a message is due: a get's next run once the window base has passed the current
run's end (05 R189). -/
def SrcMsg.due (m : SrcMsg) : Bool := decide (m.next < m.nPkts) && (!m.isGet || m.next == 0 || decide (m.runEnd ≤ m.gBase))

/-- Length of packet `i` of a message of N bytes (05 R164). -/
def pktLen (n i : Nat) : Nat := min 4096 (n - 4096 * i)

/-- Payload bytes of a message's packet `i`. -/
def SrcMsg.pktBytes (m : SrcMsg) (i : Nat) : Nat :=
  if m.isGet then 0 else if m.kind == .atomic || m.kind == .rts then 16 else pktLen m.total i

/-- Cost of a packet (09 R352). -/
def pktCost (len : Nat) : Nat := 64 * flitCount len

/-! Congestion contexts (05 R182 to R185). -/

def ctxOf (e : Nat) : Nat := (((e >>> 3) % 65536) ^^^ ((e >>> 19) <<< 12)) % 65536

/-- TPT_CWND as it acts (16 R543). -/
def State.cwndMax (s : State) : Nat := max 1 (s.get TPT_CWND.max)
def State.cwndInit (s : State) : Nat := min (max 1 (s.get TPT_CWND.init)) s.cwndMax

/-- The window of a context as it acts: from 1 to TPT_CWND.max (05 R183). -/
def State.ctxWnd (s : State) (c : Nat) : Nat := min (max 1 (s.get (TPT_CTX.cwnd c))) s.cwndMax

def State.ctxWin (s : State) (c : Nat) : CtxWin := (tget s.ctxSent c).getD {}

/-- Whether a context may send a packet now: fewer than its window in the running srtt, and srtt / cwnd ns after the last (05 R183). -/
def State.ctxMay (s : State) (c : Nat) : Bool := decide ((s.ctxWin c).sent < s.ctxWnd c) && decide ((s.ctxWin c).nextAt ≤ s.clk)

/-- Whether an account's min bucket holds a cost (09 R354). -/
def State.minHolds (s : State) (a cost : Nat) : Bool :=
  let x := s.acct a
  x.minRate != 0 && decide (((cost * 8 : Nat) : Int) ≤ x.minBucket)

/-- Whether an account has an item that goes now and whose cost its min bucket holds: a descriptor or a packet (09 R354). -/
def State.minDue (s : State) (a : Nat) : Bool :=
  let x := s.acct a
  decide (0 < x.weight) && !x.blocked &&
    ((s.aSt a == aACTIVE && s.minHolds a 64 && (x.fired != [] || x.rings.any fun (r, _) => s.ringReady a r))
      || (!s.boot.requestHold && s.srcMsgs.any fun m =>
        m.ev.acct == a && m.due && s.minHolds a (pktCost (m.pktBytes m.next)) && s.ctxMay (ctxOf m.dst.endpoint)))

/-- Whether another account of its host link is served before the round (09 R354). -/
def State.minFirst (s : State) (a : Nat) : Bool := s.accts.any fun (b, _) => b != a && s.aHl b == s.aHl a && s.minDue b

/-- Whether an account may spend `cost` bytes now: what its min bucket holds at any time, and else, while the round visits it, what its
deficit holds, after the accounts that are served before the round (09 R351, R354). -/
def State.mayServe (s : State) (a cost : Nat) : Bool :=
  let x := s.acct a
  decide (0 < x.weight) &&
    (s.minHolds a cost
      || ((x.maxRate == 0 || decide (0 < x.maxBucket)) && (s.hl (s.aHl a)).drrRound == some a && decide ((cost : Int) ≤ x.deficit)
        && !s.minFirst a))

/-- Whether the account serves its sources at all now: ACTIVE, allowed, and this source not held by a FENCE or by a MOVE that
waits for its channel (10 R379), and of its rings the one whose turn it is. Standing orders run ahead of ring descriptors (05 R208). -/
def State.sourceOpen (s : State) (a : Nat) (src : Source) : Bool :=
  s.aSt a = aACTIVE && s.mayServe a 64 &&
    match src with
    | .ring r => s.ringReady a r && s.ringTurn a r && (s.acct a).fired == []
    | .fired => true

/-- A ring's next descriptor finds no room in its queue: the ring waits, and the wait is counted when it begins (09 R343). -/
def State.eqWait (s : State) (a q : Nat) (src : Source) : State :=
  let waits := match src with | .ring r => s.ringSt a r == rWAITING | .fired => s.on (ACC_EQ3.full a q)
  let s := ((s.passTurn a src).block a).set (ACC_EQ3.full a q) 1
  let s := if waits then s else s.bump ACC_CNT_EQ_WAIT.ev
  let s := match src with | .ring r => s.set (ACC_RING3.state a r) rWAITING | .fired => s
  match s.limited (2 ^ 40 + a * 64 + q) 1000000 with
  | (true, s) => s.raise kEQ_FULL (srcOf 0x27 (s.aHl a)) (acctAddr a) 0
  | (false, s) => s

/-- Takes the descriptor at the head of a source: C advances, its event is owed to queue `q`, its cost is charged. -/
def State.consume (s : State) (a : Nat) (src : Source) (q : Nat) : State :=
  let (num, s) := (s.nextId, { s with nextId := s.nextId + 1 })
  let s := ((s.set (ACC_EQ3.reserved_events a q) (s.get (ACC_EQ3.reserved_events a q) + 1)).charge a 64).unblock a
  match src with
  | .ring r =>
    let s := s.set (ACC_RING2.consumer a r) ((s.consOf a r + 1) % m32)
    let s := s.set (ACC_RING3.state a r) rRUNNING
    (s.passTurn a src).modRing a r fun x => { x with staged := x.staged.drop 1, live := x.live ++ [num] }
  | .fired => s.modAcct a fun x => { x with fired := x.fired.drop 1, firedLive := x.firedLive ++ [num] }

/-- How the head descriptor completes, once consumed (its number is the next one given). -/
def State.evOf (s : State) (a : Nat) (src : Source) (d : Desc) (ring idx q : Nat) : EvtInfo :=
  { acct := a, gen := s.aGen a, eq := q, ring, idx, fired := src == .fired, cookie := bf d.toNat 384 64, num := s.nextId }

/-- Whether an account has no work that an allowance serves: descriptors while it is ACTIVE, packets, segments of a COLL (09 R351). -/
def State.acctIdle (s : State) (a : Nat) : Bool :=
  let x := s.acct a
  (s.aSt a != aACTIVE
    || (!(x.rings.any fun (r, y) => s.ringServes a r && (!y.staged.isEmpty || s.prodOf a r != s.consOf a r)) && x.fired == []))
    && !(s.srcMsgs.any fun m => m.ev.acct == a && (!m.allSent || !m.resend.isEmpty))
    && !(s.trees.any fun (_, r) => r.ops.any fun o => o.ev.acct == a && o.starved)

/-- An account that has run out of work has its deficit set to 0 (09 R351). -/
def State.idleZero (s : State) (a : Nat) : State :=
  if s.acctIdle a ∧ (s.acct a).deficit > 0 then s.modAcct a fun x => { x with deficit := 0 } else s

/-- The checks of word 0 (09 R336) on the head of a source, as long as they fail: the descriptor completes BAD_DESC, or
the ring stops. A COLL in REDUCED is no exception: 01 R27 has it wait, and one whose event queue is not enabled still completes BAD_DESC
(DESIGN CHOICE: the two rules give no order; log entry 102). -/
def State.badHeads (s : State) (a : Nat) (src : Source) : Nat → State
  | 0 => s
  | k + 1 =>
    match s.head a src with
    | none => s
    | some (d, ring, idx) =>
      let eq := bf d.toNat 8 6; let ty := descType d
      let bad := ty ≥ 10
      if !(bad || !s.eqOn a eq) ∨ !s.sourceOpen a src then s
      else
        let err := s.get (ACC_RING1.err_eq a ring)
        let q := if s.eqOn a eq then eq else err
        if !s.eqOn a q then
          match src with
          | .ring r => s.ringStop a r 2
          | .fired => (s.modAcct a fun x => { x with fired := x.fired.drop 1 }).ringStop a ring 2
        else if !s.eqRoom a q then s.eqWait a q src
        else
          let ev := s.evOf a src d ring idx q
          ((s.consume a src q).complete ev evDESC_ERROR stBAD_DESC idx ty 0 false).badHeads a src k

/-- After a descriptor has left: bad ones behind it are dealt with, the ring reads on, activity votes follow. -/
def State.after (s : State) (a : Nat) (src : Source) : State :=
  let s := s.badHeads a src 64
  let s := match src with | .ring r => s.ringFetch a r | .fired => s
  (s.idleZero a).activityUpd

/-- Consumes the head of a source, when it is of type `ty` and may be consumed now, and has its engine act on it. `holds`
says what else makes the ring wait. -/
def State.withDesc (s : State) (a : Nat) (src : Source) (ty : Nat) (holds : State → Desc → Bool)
    (act : State → Desc → EvtInfo → State) : State :=
  let s := s.badHeads a src 64
  match s.head a src with
  | none => s
  | some (d, ring, idx) =>
    let q := bf d.toNat 8 6; let e := engineOf ty
    if descType d ≠ ty ∨ !s.eqOn a q ∨ !s.sourceOpen a src then s
    else if (e ≠ 0 && !s.engineOn e) || holds s d then ((s.passTurn a src).block a).activityUpd
    else if !s.eqRoom a q then s.eqWait a q src
    else
      let ev := s.evOf a src d ring idx q
      (act (s.consume a src q) d ev).after a src

/-- The same for an engine that reads host memory: the accesses that `accs` names must go, or the work waits; `fail` says
that they cannot be made. -/
def State.withDescHost (s : State) (a : Nat) (src : Source) (ty : Nat) (holds : State → Desc → Bool)
    (accs : State → Desc → List (Nat × Nat × Bool)) (hv : HostView) (act : State → Desc → EvtInfo → Bool → State) : State :=
  let s := s.badHeads a src 64
  match s.head a src with
  | none => s
  | some (d, _, _) =>
    if descType d ≠ ty ∨ !s.sourceOpen a src then s
    else
      match s.gate (s.aHl a) (s.aFn a) (s.aPasid a) (accs s d) hv with
      | (.wait, s) => (s.passTurn a src).hold a
      | (g, s) => s.withDesc a src ty holds fun s d ev => act s d ev (g == .fail)

end Sys2Proof.Machine
end

