-- ==== Sys2Proof/Machine/Pattern.lean ====
section
/-!
DEFINITION. Machine/Pattern.lean: the three-loop pattern of 10 R365 to R370: its record, its total, the addresses of a
part of its byte sequence, and gathering from and scattering to host memory.
-/
namespace Sys2Proof.Machine

/-- A contiguous side of `n` bytes (10 R378). -/
def Pattern.flat (base n : Nat) : Pattern := { base, elem := n, loops := [(1, 0), (1, 0), (1, 0)] }

/-- Its total in bytes (10 R366). -/
def Pattern.total (p : Pattern) : Nat := p.loops.foldl (fun a (c, _) => a * c) p.elem

/-- A pattern record (10 Table 10.1). -/
def patOf (n : Nat) : Pattern :=
  { base := bf n 0 64, elem := bf n 64 32,
    loops := [(bf n 128 32, sext 48 (bf n 256 48)), (bf n 160 32, sext 48 (bf n 320 48)), (bf n 192 32, sext 48 (bf n 384 48))] }

/-- Start address of run `j`, counted with loop 0 fastest (10 R365). -/
def runAddr : List (Nat × Int) → Nat → Int → Int
  | [], _, a => a
  | (c, st) :: r, j, a => runAddr r (j / max c 1) (a + (j % max c 1 : Nat) * st)

/-- The contiguous parts of bytes `off` to `off + n - 1` of a pattern, up to the first run out of range of `top`; and
whether none was (10 R367). -/
def Pattern.parts (p : Pattern) (top : Nat) : Nat → Nat → Nat → List (Nat × Nat) × Bool
  | 0, _, _ => ([], true)
  | k + 1, off, n =>
    if n = 0 ∨ p.elem = 0 then ([], true)
    else
      let w := off % p.elem
      let len := min n (p.elem - w)
      let a := runAddr p.loops (off / p.elem) p.base
      if a < 0 ∨ a + p.elem > top then ([], false)
      else
        let (r, ok) := p.parts top k (off + len) (n - len)
        ((a.toNat + w, len) :: r, ok)

/-- The least and the greatest start address, relative to the base, of the first `j` runs; none of none. The runs are those of the
whole rounds of loop 0, and those of its last, partial round. -/
def runSpan : List (Nat × Int) → Nat → Option (Int × Int)
  | [], j => if j = 0 then none else some (0, 0)
  | (c, st) :: r, j =>
    let q := j / max c 1; let m := j % max c 1
    let wide (n : Nat) (x : Int × Int) : Int × Int := (x.1 + min 0 (((n - 1 : Nat) : Int) * st), x.2 + max 0 (((n - 1 : Nat) : Int) * st))
    let full := (runSpan r q).map (wide (max c 1))
    let last := if m = 0 then none else some (wide m (runAddr r q 0, runAddr r q 0))
    match full, last with
    | some a, some b => some (min a.1 b.1, max a.2 b.2)
    | some a, none => some a
    | none, b => b

/-- Whether every run before byte `off` is in range of `top` (10 R367). -/
def Pattern.okBefore (p : Pattern) (top off : Nat) : Bool :=
  match runSpan p.loops (off / max p.elem 1) with
  | none => true
  | some (lo, hi) => decide (0 ≤ p.base + lo ∧ p.base + hi + p.elem ≤ top)

/-- The parts of `n` bytes of an IOVA pattern from `off`, and whether no run up to their end is out of range: nothing is read or
written from the first such run onward (05 R198; 10 R367). -/
def Pattern.iova (p : Pattern) (off n : Nat) : List (Nat × Nat) × Bool :=
  if p.okBefore (2 ^ 64) off then p.parts (2 ^ 64) n off n else ([], false)

/-- What the host's memory answers to reads of several parts, in order. -/
def gather (h : HostView) : List (Nat × Nat) → Option (List Byte × Bool)
  | [] => some ([], false)
  | (a, n) :: r =>
    match hostRead h a n, gather h r with
    | some (x, p), some (y, q) => some (x ++ y, p || q)
    | _, _ => none

/-- The writes that place bytes in the parts, in order. -/
def scatterW : List (Nat × Nat) → List Byte → List (Nat × List Byte)
  | [], _ => []
  | (a, n) :: r, d => (a, d.take n) :: scatterW r (d.drop n)

/-- Accesses of a set of parts. -/
def accsOf (ps : List (Nat × Nat)) (wr : Bool) : List (Nat × Nat × Bool) := ps.map fun (a, n) => (a, n, wr)

/-- Writes bytes to the parts; answers the last write, too. -/
def State.scatter (s : State) (n fn : Nat) (pasid : Option Nat) (ps : List (Nat × Nat)) (d : List Byte) (poison : Bool) : State :=
  (scatterW ps d).foldl (fun s (a, x) => s.post n fn pasid a x poison) s

/-- A pattern record as an engine reads it: it must total `len`, at most 2^40 - 1 (10 R369). The status is 0, HOST_ERROR
or LENGTH. -/
def readPat (hv : HostView) (iova len : Nat) : Nat × Pattern :=
  match hostNat hv iova 64 with
  | none => (stHOST_ERROR, {})
  | some n =>
    let p := patOf n
    if p.total = len ∧ p.total < 2 ^ 40 then (0, p) else (stLENGTH, p)

/-! ### Ranks (02 R62 to R66) -/

/-- The host accesses that translating a rank makes now: none when it is cached or beyond the table. -/
def State.rankAccs (s : State) (a rank : Nat) : List (Nat × Nat × Bool) :=
  if rank ≥ s.get (ACC_RANK_COUNT.count a) ∨ (s.rankCache.any fun (x, r, _) => x == a && r == rank) then []
  else [(s.get (ACC_RANK_BASE.base a) / 4096 * 4096 + 8 * rank, 8, false)]

/-- A rank-table entry (02 Table 2.12). -/
def rankOf (n : Nat) : RankEntry := { endpoint := bf n 0 23, valid := bit n 23, account := bf n 24 14, charter := bf n 40 16 }

/-- Translates a rank (02 R63, R65): status 0, RANK_RANGE, RANK_INVALID or HOST_ERROR, and the entry. Every entry that is read is
kept in the cache, one with valid = 0 too, and a full cache drops the one filled first (DESIGN CHOICE: the spec says neither which entry is
evicted nor whether an invalid one is kept; log entry 100). -/
def State.rankXlate (s : State) (a rank : Nat) (hv : HostView) : Nat × RankEntry × State :=
  if rank ≥ s.get (ACC_RANK_COUNT.count a) then (stRANK_RANGE, {}, s)
  else
    match s.rankCache.find? fun (x, r, _) => x == a && r == rank with
    | some (_, _, e) => (if e.valid then 0 else stRANK_INVALID, e, s)
    | none =>
      match hostNat hv (s.get (ACC_RANK_BASE.base a) / 4096 * 4096 + 8 * rank) 8 with
      | none => (stHOST_ERROR, {}, s)
      | some n =>
        let e := rankOf n
        let s := { s with rankCache := ((a, rank, e) :: s.rankCache).take 65536 }
        (if e.valid then 0 else stRANK_INVALID, e, s)

end Sys2Proof.Machine
end

