-- ==== Sys2Proof/Machine/Msg.lean ====
section
/-!
DEFINITION. Machine/Msg.lean: the source side of Transport: message IDs, the source message table, congestion contexts,
and how each kind of message makes its packets (05 R161 to R164, R172, R182 to R191; 02 R42 to R50).
-/
namespace Sys2Proof.Machine

/-! ### Tables (05 R161, R162, R189) -/

/-- TPT_STAT follows the tables. -/
def State.tptStat (s : State) : State :=
  ((s.set TPT_STAT.open_msgs (s.openMsgs.filter (!·.single)).length).set TPT_STAT.src_msgs s.srcMsgs.length).set TPT_STAT.gets
    (s.srcMsgs.filter (·.isGet)).length

def State.srcFull (s : State) : Bool := decide (s.srcMsgs.length ≥ 16384)
def State.getsFull (s : State) : Bool := decide ((s.srcMsgs.filter (·.isGet)).length ≥ 2048)

/-- The next msg_id of a host link (05 R162). -/
def State.newMsgId (s : State) (n : Nat) : Nat × State :=
  let i := s.get (TPT_MSGID.next n)
  (i, s.set (TPT_MSGID.next n) ((i + 1) % m32))

/-- Packets of a message of N bytes (05 R164). -/
def nPktsOf (n : Nat) : Nat := max 1 ((n + 4095) / 4096)

/-- Opens a source entry: it takes its msg_id and its number. -/
def State.openSrc (s : State) (m : SrcMsg) : SrcMsg × State :=
  let (i, s) := s.newMsgId m.hl
  let (id, s) := s.newId
  let m := { m with id, msgId := i, firstId := i, charter := s.aCharter m.ev.acct, nPkts := if m.kind == .rts then 1 else nPktsOf m.total }
  (m, State.tptStat { s with srcMsgs := s.srcMsgs ++ [m] })

def State.srcMsg (s : State) (id : Nat) : Option SrcMsg := s.srcMsgs.find? (·.id == id)
def State.modSrc (s : State) (id : Nat) (f : SrcMsg → SrcMsg) : State :=
  { s with srcMsgs := modFirst (fun m : SrcMsg => m.id == id) f s.srcMsgs }
def State.delSrc (s : State) (id : Nat) : State := State.tptStat { s with srcMsgs := s.srcMsgs.filter (·.id != id) }

/-- The outstanding message of a host link that a msg_id names: any run of a get names it (05 R191). -/
def State.srcById (s : State) (n i : Nat) : Option SrcMsg :=
  s.srcMsgs.find? fun m => m.hl == n && !m.acked && (m.msgId == i || m.runs.any fun (j, _, _) => j == i)

/-! ### Congestion contexts (05 R182 to R185) -/

/-- A packet sent in a context: counted in its running srtt; the next is paced. The quotient is rounded down (DESIGN CHOICE: log
entry 101). -/
def State.ctxCount (s : State) (c : Nat) : State :=
  let w := s.ctxWin c
  { s with ctxSent := tput s.ctxSent c { w with sent := w.sent + 1, nextAt := s.clk + s.get (TPT_CTX.srtt_ns c) / s.ctxWnd c } }

/-- Halves a context's window (05 R185). -/
def State.ctxHalve (s : State) (c : Nat) : State :=
  let s := s.set (TPT_CTX.cwnd c) (max 1 (s.get (TPT_CTX.cwnd c) / 2))
  let s := s.set (TPT_CTX.halvings c) (min (s.get (TPT_CTX.halvings c) + 1) (2 ^ 32 - 1))
  { s with ctxSent := tput s.ctxSent c { s.ctxWin c with halved := true } }

/-- A round-trip sample (05 R184). -/
def State.ctxSample (s : State) (c : Nat) (sample : Int) : State :=
  let old : Int := s.get (TPT_CTX.srtt_ns c)
  s.set (TPT_CTX.srtt_ns c) (min (old + (sample - old).tdiv 8).toNat 65535)

/-! ### Packets of a message -/

/-- The header that every packet of a message shares. -/
def State.msgHdr (s : State) (m : SrcMsg) : Header :=
  { charter := m.dst.charter, dstAcct := m.dst.account, dstEp := m.dst.endpoint, srcEp := s.ep + m.hl, srcAcct := m.ev.acct,
    msgId := m.msgId, srcGen := m.ev.gen, visible := m.visible }

/-- The header of packet `i`; for a get, of the GET_REQ of the run from packet `i` to before `e` under `msgId`. -/
def State.pktHdr (s : State) (m : SrcMsg) (i e msgId : Nat) (poison : Bool) : Header :=
  let h := s.msgHdr m
  let data := { h with pktIndex := i, last := i + 1 = m.nPkts, length := pktLen m.total i, poison }
  let d := m.desc.toNat
  match m.kind with
  | .put | .aptStore => { data with opcode := 0x01, key := m.key, w5 := (m.roff + 4096 * i) % 2 ^ 64, w6 := m.total }
  | .eager => { data with opcode := 0x06, w5 := bf d 128 64, w6 := m.ownRank + bf d 296 6 * 2 ^ 24 + m.seqNo * 2 ^ 32, w7 := m.total }
  | .rts => { h with opcode := 0x07, last := true, length := 16, key := m.key, w5 := bf d 128 64,
                     w6 := m.ownRank + bf d 296 6 * 2 ^ 24 + m.seqNo * 2 ^ 32, w7 := m.total }
  | .atomic =>
    { h with opcode := 0x04, last := true, length := 16, key := m.key, w5 := m.roff,
             w6 := bf d 336 7 + m.charter * 2 ^ 8 + m.nonce * 2 ^ 32 }
  | .get | .aptLoad | .pull | .fin =>
    { h with opcode := 0x02, last := true, visible := false, msgId, pktIndex := i, key := m.key, w5 := (m.roff + 4096 * i) % 2 ^ 64,
             w6 := (min m.total (4096 * e) - 4096 * i) + m.charter * 2 ^ 40 }

/-- Where a message's packet `i` lies in local memory: nothing for kinds that read none. -/
def SrcMsg.localParts (m : SrcMsg) (i : Nat) : List (Nat × Nat) × Bool :=
  match m.kind with
  | .put | .eager => m.pat.iova (4096 * i) (pktLen m.total i)
  | _ => ([], true)

/-- What came of sending a packet. -/
inductive Sent where
  | ok                 -- sent, or lost on the way as R133 gives
  | wait               -- the hold after reset, the context's window or the host bus must be waited for
  | fail (st : Nat)    -- the message fails with this status
  deriving DecidableEq, Repr

/-- Sends packet `i` of a message (for a get, the run from `i` to before `e`), reading its payload afresh: a request packet, first or
retransmitted, which the hold of R163 and its context's window let go (05 R163, R172, R183). -/
def State.sendPkt (s : State) (m : SrcMsg) (i e msgId : Nat) (hv : HostView) (retx : Bool) : Sent × State :=
  let (parts, inRange) := m.localParts i
  if s.boot.requestHold ∨ !s.ctxMay (ctxOf m.dst.endpoint) then (.wait, s)
  else
    match s.gate m.hl (s.aFn m.ev.acct) (s.aPasid m.ev.acct) (accsOf parts false) hv with
    | (.wait, s) => (.wait, s.hold m.ev.acct)
    | (.fail, s) => (.fail stHOST_ERROR, s)
    | (.go, s) =>
      match gather hv parts with
      | none => (.fail stHOST_ERROR, s)
      | some (bytes, poison) =>
        if !inRange then (.fail stADDRESS, s) else
        let body := match m.kind with
          | .aptStore => m.data
          | .rts => bytesOf 8 (m.roff) ++ List.replicate 8 0
          | .atomic => bytesOf 8 (bf m.desc.toNat 256 64) ++ bytesOf 8 (if bf m.desc.toNat 336 4 = 3 then bf m.desc.toNat 448 64 else 0)
          | _ => bytes
        let h := s.pktHdr m i e msgId poison
        match s.inject (mkPkt h body) with
        | (.noRoute, s) => (.fail stNO_ROUTE, s)
        | (_, s) =>
          let cost := pktCost h.length
          let s := if retx then (s.chargeFree m.ev.acct cost).bump TPT_CNT_RETX.ev else s.charge m.ev.acct cost
          (.ok, (s.ctxCount (ctxOf m.dst.endpoint)).modSrc m.id fun m => { m with sentAt := s.clk })

/-- The spans of packets of the current run not yet received, as (first, past the end) (05 R191). -/
def SrcMsg.missing (m : SrcMsg) : List (Nat × Nat) :=
  let lo := max m.runF m.gBase
  let miss := ((List.range (m.runEnd - lo)).map (· + lo)).filter fun i => !m.gBits.contains i
  (miss.foldl (fun acc i => match acc with
    | (a, b) :: r => if b = i then (a, i + 1) :: r else (i, i + 1) :: acc
    | [] => [(i, i + 1)]) []).reverse

end Sys2Proof.Machine
end

