-- ==== Sys2Proof/Machine/Target.lean ====
section
/-!
DEFINITION. Machine/Target.lean: the destination side of Transport: the checks of 02 Table 2.10, stubs, the open-message
table, the completed-message filter, receipts, CECHO, and the memory keys (02 R57 to R59; 05 R165 to R170, R174, R179, R180,
R194, R199 to R201; 04 R151; 09 R361, R364).
-/
namespace Sys2Proof.Machine

/-! ### QS replies -/

/-- An E2E_NAK for a packet: reason 1 RESOURCE, 2 ORDER (02 Table 2.8). -/
def State.sendNak (s : State) (src dst msgId idx reason : Nat) : State :=
  (s.qsSend 2 src dst (msgId + idx % 2 ^ 28 * m32 + reason * 2 ^ 60)).bump TPT_CNT_NAK_TX.ev

/-- Refuses a packet with E2E_NAK RESOURCE (05 R167, R180). -/
def State.refuse (s : State) (h : Header) : State := (s.sendNak h.srcEp h.dstEp h.msgId h.pktIndex 1).bump TPT_CNT_REFUSED.ev

/-- An UNREACH: reason 1 NO_ROUTE, 2 NO_ACCOUNT, 3 LIFETIME (02 Table 2.8). -/
def State.sendUnreach (s : State) (h : Header) (reason : Nat) : State :=
  s.qsSend 0x0A h.srcEp s.ep (h.dstEp % 2 ^ 23 + reason * 2 ^ 24 + h.msgId * m32)

/-! ### Destination checks (02 Table 2.10) -/

/-- aop, atype and signed legal (02 R47), from the 7 bits that carry them. -/
def atomicLegal (n : Nat) : Bool :=
  let aop := n % 16; let aty := bf n 4 2; let sg := bit n 6
  decide (aop ≤ 8) && (!sg || ((aop == 4 || aop == 5) && decide (aty < 2))) && (decide (aty < 2) || decide (aop ≤ 1))

/-- Operand size in bytes of an atype (02 R47). -/
def atomicSize (aty : Nat) : Nat := if aty % 2 = 0 then 4 else 8

/-- Whether an operand holds a reserved encoding of an enumerated field (02 R46, R48; 07 Tables 7.2 to 7.4). -/
def operandsBad (h : Header) : Bool :=
  match h.opcode with
  | 0x03 => decide (h.w6 % 256 > 6)
  | 0x05 => decide (h.w6 % 256 > 6)
  | 0x08 | 0x09 =>
    let oper := bf h.w6 32 8; let et := bf h.w6 40 4
    decide (oper > 8 ∧ oper ≠ 0x10 ∧ oper ≠ 0x11) || decide (et > 0xD ∧ oper ≠ 0x11)
  | _ => false

/-- Whether an account exists on a host link (02 check 4; 09 R348). -/
def State.acctHere (s : State) (a n : Nat) : Bool := s.aSt a != aREMOVED && s.aHl a == n && s.hlPresent n

/-- The stub in force for an account (09 R364). -/
def State.stubOf (s : State) (a : Nat) : Option Nat :=
  (List.range 64).find? fun i => s.on (ACC_STUB0.valid i) && s.get (ACC_STUB0.account i) == a && decide (s.now < s.get (ACC_STUB1.expiry i))

/-- Forwards a packet by a stub (09 R364). -/
def State.stubForward (s : State) (p : Packet) (i : Nat) : State :=
  let e := s.get (ACC_STUB0.new_endpoint i)
  let h := p.hdr
  let keyed := h.opcode = 1 ∨ h.opcode = 2 ∨ h.opcode = 4
  let h := { h with dstEp := e, dstAcct := s.get (ACC_STUB0.new_account i),
                    key := if keyed then h.key - bf h.key 19 3 * 2 ^ 19 + epHl e * 2 ^ 19 else h.key }
  (s.injectDrop (mkPkt h p.data)).bump ACC_CNT_STUB_FWD.ev

/-- An ATOMIC_RESP to a request (02 R44). -/
def State.atomicResp (s : State) (h : Header) (status prior : Nat) : State :=
  s.injectDrop (mkPkt { opcode := 0x05, last := true, length := 8, charter := bf h.w6 8 16, dstAcct := h.srcAcct, dstEp := h.srcEp,
                        srcEp := h.dstEp, srcAcct := h.dstAcct, msgId := h.msgId, pktIndex := h.pktIndex, srcGen := h.srcGen,
                        w6 := status + bf h.w6 32 32 * m32 } (bytesOf 8 prior))

/-- An ATOMIC_RESP that says that nothing was executed: the prior value it carries is a free value (02 R48). -/
def State.atomicRefuse (s : State) (h : Header) (status : Nat) : State :=
  let (v, s) := s.free 64
  s.atomicResp h status v

/-- Checks 1 to 5 of 02 Table 2.10: whether the packet goes on to its engine. A segment for a tree that is IDLE here goes on
to Alloy, which answers it (07 R261). A packet for a stubbed account goes by its
stub after check 3. -/
def State.destCheck (s : State) (p : Packet) : Bool × State :=
  let h := p.hdr; let n := epHl h.dstEp
  let src := srcOf 0x22 (if h.mcast then 0xFF else n)
  if !pktIntact p then (false, s.tallyHit Config.damagedEvent.toNat 0 1)
  else if !(h.mcast || h.linkLocal || s.isHere h.dstEp) then (false, s.raise kMISDELIVERED (srcOf 0x22 0xFF) 0 0)
  else if !lengthOk h ∨ operandsBad h then (false, s.raise kBAD_HEADER src 0 0)
  else if h.opcode = 4 ∧ !atomicLegal (h.w6 % 128) then (false, s.atomicRefuse h stBAD_ATOMIC)
  else if h.opcode = 0x0A then (true, s)
  else if h.opcode = 8 ∨ h.opcode = 9 then
    let t := h.w5 % 4096
    if s.get (ALY_TREE_STAT.state t) = 0 ∨ s.get (ALY_TREE0.charter t) = h.charter then (true, s)
    else (false, s.raise kCHARTER_MISMATCH src (acctAddr h.dstAcct) (h.srcEp + h.dstAcct * 2 ^ 23))
  else
    match s.stubOf h.dstAcct with
    | some i =>
      if s.aSt h.dstAcct = aREMOVED ∧ s.aCharter h.dstAcct = h.charter then (false, s.stubForward p i)
      else if s.acctHere h.dstAcct n then
        if s.aCharter h.dstAcct = h.charter then (true, s)
        else (false, s.raise kCHARTER_MISMATCH src (acctAddr h.dstAcct) (h.srcEp + h.dstAcct * 2 ^ 23))
      else (false, (s.sendUnreach h 2).raise kNO_ACCOUNT src (acctAddr h.dstAcct) 0)
    | none =>
      if !s.acctHere h.dstAcct n then (false, (s.sendUnreach h 2).raise kNO_ACCOUNT src (acctAddr h.dstAcct) 0)
      else if s.aCharter h.dstAcct = h.charter then (true, s)
      else (false, s.raise kCHARTER_MISMATCH src (acctAddr h.dstAcct) (h.srcEp + h.dstAcct * 2 ^ 23))

/-- Whether an account refuses packets because it is FROZEN or MIGRATING (09 R361). -/
def State.refusing (s : State) (a : Nat) : Bool := s.aSt a == aFROZEN || s.aSt a == aMIGRATING

/-! ### The completed-message filter (05 R180) -/

def State.filterStat (s : State) : State := s.set TPT_FILTER.occupancy (s.filter.filter (·.live)).length
def filterBucket (src msgId : Nat) : Nat := Config.filterF (src * m32 + msgId) % 2 ^ 17
def State.filterFind (s : State) (src msgId : Nat) : Option FilterEnt := s.filter.find? fun f => f.src == src && f.msgId == msgId

/-- Whether a new message finds a slot (05 R180). -/
def State.filterRoom (s : State) (src msgId : Nat) : Bool :=
  s.filter == [] || (decide (s.filter.length < 1048576)
    && decide ((s.filter.filter fun f => filterBucket f.src f.msgId == filterBucket src msgId).length < 8))

def State.filterReserve (s : State) (src msgId acct : Nat) (atomic : Bool) : State :=
  { s with filter := s.filter ++ [{ src, msgId, acct, atomic }] }
def State.filterFill (s : State) (src msgId status : Nat) : State :=
  State.filterStat { s with filter := modFirst (fun f => f.src == src && f.msgId == msgId) (fun f => { f with live := true, status }) s.filter }
def State.filterFree (s : State) (src msgId : Nat) : State :=
  State.filterStat { s with filter := s.filter.filter fun f => !(f.src == src && f.msgId == msgId) }

/-! ### Open messages (05 R165 to R167) -/

def State.openFind (s : State) (src msgId : Nat) : Option OpenMsg := s.openMsgs.find? fun o => o.src == src && o.msgId == msgId
def State.modOpen (s : State) (src msgId : Nat) (f : OpenMsg → OpenMsg) : State :=
  { s with openMsgs := modFirst (fun o => o.src == src && o.msgId == msgId) f s.openMsgs }
def State.delOpen (s : State) (src msgId : Nat) : State :=
  State.tptStat { s with openMsgs := s.openMsgs.filter fun o => !(o.src == src && o.msgId == msgId) }

/-- The total-length field of a PUT or SEND packet (02 Table 2.5). -/
def totalOf (h : Header) : Nat := if h.opcode = 1 then h.w6 % 2 ^ 40 else if h.opcode = 6 ∨ h.opcode = 7 then h.w7 % 2 ^ 40 else 0

/-- Packets of the message a packet belongs to (05 R164). -/
def nOf (h : Header) : Nat := if h.opcode = 1 ∨ h.opcode = 6 then nPktsOf (totalOf h) else 1

/-- How Transport's duplicate check sorts a packet (05 R165, R179). -/
inductive Dup where
  | badHeader             -- pkt_index or total length impossible
  | dupOpen               -- already received by its open entry
  | beyond                -- past the open entry's window
  | next                  -- accepted by its open entry
  | hold                  -- its message is in progress without an open entry
  | done (f : FilterEnt)  -- its message has completed
  | full                  -- a new message that finds no room
  | fresh                 -- a new message
  deriving DecidableEq, Repr

def State.dupSort (s : State) (h : Header) : Dup :=
  if nOf h ≤ h.pktIndex then .badHeader
  else
    match s.openFind h.srcEp h.msgId with
    | some o =>
      if o.single then .hold
      else if o.total ≠ totalOf h then .badHeader
      else if h.pktIndex < o.base ∨ o.bits.contains h.pktIndex then .dupOpen
      else if h.pktIndex ≥ o.base + 1024 then .beyond
      else .next
    | none =>
      match s.filterFind h.srcEp h.msgId with
      | some f => if f.live then .done f else .hold
      | none =>
        if !s.filterRoom h.srcEp h.msgId ∨ (nOf h ≥ 2 ∧ (s.openMsgs.filter (!·.single)).length ≥ 1024) ∨ (nOf h ≥ 2 ∧ h.pktIndex ≥ 1024)
        then .full else .fresh

/-- Opens a message's entry and reserves its filter slot (05 R165, R180). -/
def State.openMsg (s : State) (h : Header) : State :=
  let s := s.filterReserve h.srcEp h.msgId h.dstAcct false
  let o : OpenMsg :=
    { src := h.srcEp, srcAcct := h.srcAcct, srcGen := h.srcGen, msgId := h.msgId, dst := h.dstEp, acct := h.dstAcct, n := nOf h,
      total := totalOf h, visible := h.visible, single := nOf h == 1 }
  State.tptStat { s with openMsgs := s.openMsgs ++ [o] }

/-- Advances a base over received indices. -/
def advance (bits : List Nat) : Nat → Nat → Nat
  | 0, b => b
  | k + 1, b => if bits.contains b then advance bits k (b + 1) else b

/-- The missing indices an open message names, lowest first (05 R174). -/
def OpenMsg.holes (o : OpenMsg) : List Nat :=
  let hi := o.bits.foldl max 0
  (((List.range (hi - o.base)).map (· + o.base)).filter fun i => !o.bits.contains i).take 16

/-- A CECHO for a marked packet of an open message, at most once per echo gap (04 R151). -/
def State.cechoMaybe (s : State) (src msgId : Nat) : State :=
  match s.openFind src msgId with
  | some o =>
    let due := match o.echoAt with | some t => decide (t + s.get RTE_MARK_THRESH.echo_gap_ns ≤ s.clk) | none => true
    if due && decide (o.marks > o.marksEchoed) then
      (s.qsSend 3 o.src o.dst (o.msgId + min (o.marks - o.marksEchoed) 65535 * m32)).modOpen src msgId
        fun o => { o with echoAt := some s.clk, marksEchoed := o.marks }
    else s
  | none => s

/-- An accepted packet is entered: its bit, the base, its status, its mark, the hole timer (05 R165, R169, R174). Of a single-packet message,
which is open for this one packet, a mark is counted and echoed as well; a duplicate is not entered, and its mark is not counted (04 R151;
DESIGN CHOICE, log entry 119). -/
def State.enterPkt (s : State) (h : Header) (status : Nat) (wrote : Option HostAddr) : State :=
  let s := s.modOpen h.srcEp h.msgId fun o =>
    let bits := addMem o.bits h.pktIndex
    let b := advance bits bits.length o.base
    let bits := bits.filter fun i => decide (b ≤ i)
    let o := if status ≠ 0 ∧ (o.status = 0 ∨ h.pktIndex < o.failIdx) then { o with status, failIdx := h.pktIndex } else o
    { o with bits, base := b, hole := !bits.isEmpty, marks := o.marks + b2n h.mark,
             wrote := match wrote with | some w => some w | none => o.wrote }
  if h.mark then s.cechoMaybe h.srcEp h.msgId else s

/-! ### Receipts (05 R168 to R170) -/

/-- The QS RECEIPT (02 Table 2.8). -/
def State.receiptQs (s : State) (src dst msgId gen : Nat) (visible : Bool) (status marks : Nat) : State :=
  s.qsSend 1 src dst (msgId + (if visible then 2 else 1) * 2 ^ 32 + status * 2 ^ 34 + gen * 2 ^ 40 + min marks 255 * 2 ^ 56)

/-- Closes an open message with its RECEIPT and filter entry; one that completes OK into a key that counts raises the
key's counter (05 R168, R170, R206). -/
def State.closeOpen (s : State) (o : OpenMsg) (status : Nat) : State :=
  let s := ((s.receiptQs o.src o.dst o.msgId o.srcGen o.visible status o.marks).filterFill o.src o.msgId status).delOpen o.src o.msgId
  match o.ctr with
  | some c => if status = 0 then s.ctrRaise c else s
  | none => s

/-- A fresh RECEIPT for a duplicate of a completed message (05 R179). -/
def State.receiptAgain (s : State) (h : Header) (f : FilterEnt) : State :=
  (s.receiptQs h.srcEp h.dstEp h.msgId h.srcGen h.visible f.status 0).bump TPT_CNT_DUP_DONE.ev

/-- The last write made for a host link. -/
def State.lastWrite (s : State) (n : Nat) : Option HostAddr := (s.hl n).lastWrite

/-! ### Keys (05 R194, R199, R200) -/

def keyEntOf (n : Nat) : KeyEntry :=
  { base := bf n 0 64, length := bf n 64 40, read := bit n 104, write := bit n 105, atomic := bit n 106, valid := bit n 112,
    ctrEn := bit n 113, tag := bf n 128 10, account := bf n 144 14, pasid := if bit n 180 then some (bf n 160 20) else none,
    counter := bf n 192 16 }

/-- Outcome of resolving a key. -/
inductive KeyRes where
  | wait | bad
  | ok (e : KeyEntry)
  deriving DecidableEq, Repr

/-- Whether an invalidation that covers a key is in progress: what is filled meanwhile is not kept (05 R201). -/
def State.keyGoing (s : State) (n idx : Nat) : Bool :=
  let k := s.get TLR_KEY_INVAL.key; let sc := s.get TLR_KEY_INVAL.scope
  s.get TLR_KEY_INVAL.done == 0 && (sc == 2 || (bf k 19 3 == n && (sc == 1 || bf k 0 19 == idx)))

/-- Resolves a packet's key (05 R199): from the cache, or by reading the key table as the destination account. A full cache drops the entry
filled first, and an entry read with valid = 0 is not kept (R160; DESIGN CHOICE, log entry 100). -/
def State.keyFind (s : State) (h : Header) (hv : HostView) : KeyRes × State :=
  let n := epHl h.dstEp; let idx := h.key % 2 ^ 19
  let judge (e : KeyEntry) (s : State) : KeyRes × State :=
    if e.valid ∧ e.length ≠ 0 ∧ e.tag = bf h.key 22 10 ∧ e.account = h.dstAcct then (.ok e, s) else (.bad, s)
  if idx ≥ s.get (TLR_KEY_COUNT.count n) ∨ bf h.key 19 3 ≠ n then (.bad, s)
  else
    match s.keyCache.find? fun (m, i, _) => m == n && i == idx with
    | some (_, _, e) => judge e s
    | none =>
      let addr := s.get (TLR_KEY_BASE.base n) / 32 * 32 + 32 * idx
      match s.gate n (s.aFn h.dstAcct) (s.aPasid h.dstAcct) [(addr, 32, false)] hv with
      | (.wait, s) => (.wait, s)
      | (.fail, s) => (.bad, s.bump TLR_CNT_KEY_MISS.ev)
      | (.go, s) =>
        let s := s.bump TLR_CNT_KEY_MISS.ev
        match hostNat hv addr 32 with
        | none => (.bad, s)
        | some w =>
          let e := keyEntOf w
          judge e (if e.valid ∧ !s.keyGoing n idx then { s with keyCache := ((n, idx, e) :: s.keyCache).take 262144 } else s)

/-- The key checks of 05 R194 for `len` bytes at an offset: op 0 read, 1 write, 2 atomic. Status 0 when all pass. -/
def keyCheck (e : KeyEntry) (off len op : Nat) : Nat :=
  if !(if op = 0 then e.read else if op = 1 then e.write else e.atomic) then stACCESS
  else if off + len > e.length then stRANGE
  else if op = 2 ∧ off % len ≠ 0 then stALIGN
  else 0

/-- PASID of an access under a key (05 R200). -/
def State.keyPasid (s : State) (e : KeyEntry) : Option Nat := match e.pasid with | some p => some p | none => s.aPasid e.account

/-! ### Taking packets -/

/-- E2E_NAKs name the missing indices of an open message (05 R174). -/
def State.nakHoles (s : State) (o : OpenMsg) : State :=
  o.holes.foldl (fun s i => s.sendNak o.src o.dst o.msgId i 1) s

/-- A message whose every packet has been received: `hook` learns of it; then its RECEIPT goes out, behind a flush read when
VISIBLE was asked and something was written (05 R166, R168). -/
def State.msgCheck (s : State) (src msgId : Nat) (hook : State → OpenMsg → State) : State :=
  match s.openFind src msgId with
  | some o =>
    if o.base < o.n ∨ o.flush then s
    else
      let s := hook s o
      match o.visible, o.wrote with
      | true, some w => (s.modOpen src msgId fun o => { o with flush := true }).flushAsk w (some o.acct) (.receipt src msgId)
      | _, _ => s.closeOpen o o.status
  | none => s

/-- What Transport's duplicate check does with a packet (05 R165, R167, R174, R179); `next` takes one that its open message
accepts, `fresh` one that begins a message. An atomic's duplicate is `done`'s. -/
def State.dupHandle (s : State) (h : Header) (next fresh : State → State) (done : State → FilterEnt → State) : State :=
  match s.dupSort h with
  | .badHeader => s.raise kBAD_HEADER (srcOf 0x22 (epHl h.dstEp)) 0 0
  | .dupOpen =>
    let s := s.bump TPT_CNT_DUP_OPEN.ev
    match s.openFind h.srcEp h.msgId with
    | some o => if h.pktIndex + 1 = o.n ∧ o.base < o.n then s.nakHoles o else s
    | none => s
  | .beyond => s.refuse h
  | .hold => s
  | .done f => done s f
  | .full => s.refuse h
  | .next => next s
  | .fresh => fresh s

/-- The device context that an account's context number names, when below its count and enabled (06 R212). -/
def State.devCtx (s : State) (a c : Nat) : Option Nat :=
  let k := s.get (LDG_ACC_CTX.base a) + c
  if c < s.get (LDG_ACC_CTX.count a) ∧ s.on (LDG_CTX0.enable k) then some k else none

/-- The context that a packet is a header for: the first packet of a SEND (06 R221, R225). -/
def State.hdrCtx (s : State) (h : Header) : Option Nat :=
  if (h.opcode = 6 ∨ h.opcode = 7) ∧ s.dupSort h = .fresh then s.devCtx h.dstAcct (bf h.w6 24 6) else none

/-- Whether a header comes after another of its context that has not been processed (06 R221). -/
def State.hdrLate (s : State) (p : Packet) : Bool :=
  match s.hdrCtx p.hdr with
  | none => false
  | some k => s.tptIn.find? (fun q => s.hdrCtx q.hdr == some k) != some p

/-- Takes the oldest packet delivered here that an engine may act on: of opcode `op`, not held by Transport, and no header that comes
after another of its context. -/
def State.takePkt (s : State) (op : Nat) : Option (Packet × State) :=
  let held (h : Header) : Bool := (h.opcode == 1 || h.opcode == 4 || h.opcode == 6 || h.opcode == 7) && s.dupSort h == .hold
  (takeFirst (fun p : Packet => p.hdr.opcode == op && !held p.hdr && !s.hdrLate p) s.tptIn).map fun (p, r) => (p, { s with tptIn := r })

end Sys2Proof.Machine
end

