-- ==== Sys2Proof/Machine/LedgerOps.lean ====
section
/-!
DEFINITION. Machine/LedgerOps.lean: Ledger's parts: contexts and their owners, list entries and spilling, the order cache,
matching, overflow buffers, pulls, and how a RECV or SEND ends (06 R212 to R241).
-/
namespace Sys2Proof.Machine

/-! ### Status codes (06 Table 6.7) and spill states (06 Table 6.13) -/

def stTRUNCATED : Nat := 0x20
def stCONTEXT : Nat := 0x21
def stPULL_FAILED : Nat := 0x22
def stCANCELLED : Nat := 0x23
def stNOT_FOUND : Nat := 0x24
def cxON_CHIP : Nat := 0
def cxSPILLING : Nat := 1
def cxSPILLED : Nat := 2
def cxRETURNING : Nat := 3
def srcLDG : Nat := srcOf 0x24 0

/-! ### Contexts (06 R212, R213) -/

def State.ctxSt (s : State) (k : Nat) : Nat := s.get (LDG_CTX5.state k)
def State.ctxMoving (s : State) (k : Nat) : Bool := s.ctxSt k == cxSPILLING || s.ctxSt k == cxRETURNING

/-- The account whose range holds a device context. -/
def State.ctxOwner (s : State) (k : Nat) : Option Nat :=
  ((s.regs.filter fun (x, _) => decide (0x6010000 ≤ x ∧ x < 0x6030000)).map fun (x, _) => (x - 0x6010000) / 8).find? fun a =>
    decide (s.get (LDG_ACC_CTX.base a) ≤ k ∧ k < s.get (LDG_ACC_CTX.base a) + s.get (LDG_ACC_CTX.count a))

/-- A context's number within its owner's range. -/
def State.ctxNum (s : State) (k : Nat) : Nat :=
  match s.ctxOwner k with | some a => k - s.get (LDG_ACC_CTX.base a) | none => 0

def State.eagerLimit (s : State) (k : Nat) : Nat := min 16384 (s.get (LDG_CTX0.eager_limit k))

/-! ### Entries (06 R216, R239 to R241) -/

def State.inHost (s : State) (k : Nat) : Bool := s.ctxSt k == cxSPILLED || s.ctxSt k == cxRETURNING
/-- The entries of a context that spilling moves. -/
def State.spillable (s : State) (k : Nat) : List LEntry := s.entries.filter fun e => e.ctx == k && e.kind != .rndv
def State.ldgFree (s : State) : Nat :=
  1048576 - (s.entries.filter fun e => e.kind == .rndv || !s.inHost e.ctx).length

/-- LDG_STAT and LDG_CTX follow a context's lists and buffers. -/
def State.ldgStat (s : State) (k : Nat) : State :=
  let all := (s.entries.filter (·.ctx == k)).length
  let sp := (s.spillable k).length
  let s := if s.inHost k then (s.set (LDG_CTX5.on_chip k) (all - sp)).set (LDG_CTX5.in_host k) sp
    else (s.set (LDG_CTX5.on_chip k) all).set (LDG_CTX5.in_host k) 0
  let oldest := match s.entries.find? fun e => e.ctx == k && e.kind == .posted with
    | some e => e.seqNo | none => s.get (LDG_CTX6.next_post k)
  let live := s.ovfBufs.filter fun b => b.ctx == k && !b.retired
  let room := match live with | b :: _ => b.len - b.fill | [] => 0
  (((s.set (LDG_CTX6.oldest_post k) oldest).set (LDG_CTX7.ovf_queued k) (min live.length 65535)).set (LDG_CTX7.ovf_free k)
    (min room (m32 - 1))).set LDG_STAT.free s.ldgFree

/-- Moves a context between spill states. -/
def State.setCtxSt (s : State) (k n : Nat) : State :=
  let o := s.ctxSt k
  let c := s.get LDG_STAT.spilled
  ((s.set (LDG_CTX5.state k) n).set LDG_STAT.spilled (c + b2n (o == 0 && n != 0) - b2n (o != 0 && n == 0))).ldgStat k

def State.spillFull (s : State) (k : Nat) : State :=
  match s.limited (2 ^ 41 + k) 1000000 with
  | (true, s) => s.raise kLDG_SPILL_FULL srcLDG 0 k
  | (false, s) => s

/-- Contexts in descending order of occupancy. -/
def insertOcc (x : Nat × Nat) : List (Nat × Nat) → List (Nat × Nat)
  | [] => [x]
  | y :: r => if x.2 > y.2 then x :: y :: r else y :: insertOcc x r

/-- Starts to spill the first context of a list whose spill area can hold it (06 R239, R241). -/
def State.spillFirst (s : State) : List Nat → State
  | [] => s
  | k :: r =>
    if s.get (LDG_CTX4.spill_entries k) < (s.spillable k).length then (s.spillFull k).spillFirst r
    else (s.bump LDG_CNT_SPILL.ev).setCtxSt k cxSPILLING

/-- The spill engine chooses a context to spill, an entry of context `k` being needed (06 R239). -/
def State.spillPick (s : State) (k : Nat) : State :=
  let ks := ((s.entries.filter fun e => e.kind != .rndv && s.ctxSt e.ctx == cxON_CHIP).map (·.ctx)).dedup
  let ord := (ks.foldl (fun acc c => insertOcc (c, (s.spillable c).length) acc) []).map (·.1)
  let own := s.ctxSt k == cxON_CHIP && decide (s.get LDG_CFG.min_spill ≤ (s.spillable k).length)
  s.spillFirst (if own then k :: ord.filter (· != k) else ord)

/-- Whether a new entry of a context finds room: 0 yes, 1 no entry is free, 2 its spill area is full. -/
def State.entryRoom (s : State) (k : Nat) (rndv : Bool) : Nat :=
  if !rndv && s.ctxSt k == cxSPILLED then (if s.get (LDG_CTX4.spill_entries k) ≤ (s.spillable k).length then 2 else 0)
  else if s.ldgFree = 0 then 1 else 0

/-- An operation needs a new entry for context `k`: with few free, the spill engine spills a context (06 R239). -/
def State.entryNeed (s : State) (k : Nat) (rndv : Bool) : State :=
  if (rndv || !s.inHost k) && decide (s.ldgFree ≤ s.get LDG_CFG.reserve) then s.spillPick k else s

/-- An operation on a context's lists: counted when they are in host memory (06 R240). -/
def State.ldgOp (s : State) (k : Nat) : State := if s.ctxSt k = cxSPILLED then s.bump LDG_CNT_SPILL_OPS.ev else s

/-! ### The layout of entries in a spill area (06 Table 6.2) -/

def LEntry.isExact (e : LEntry) : Bool := !e.anySource && e.ignore == 0

/-- The bin of an entry or header (06 R218). -/
def LEntry.bin (e : LEntry) : Nat := crc32c (bytesOf 2 e.ctx ++ bytesOf 3 e.rank ++ bytesOf 8 e.mbits) % 2 ^ 17

/-- Whether `f` lies on the list or chain that follows `e`: the wildcard or unexpected list, or a bin chain. -/
def LEntry.sameList (e f : LEntry) : Bool :=
  match e.kind, f.kind with
  | .posted, .posted => !e.isExact && !f.isExact
  | .unexp, .unexp => true
  | _, _ => false
def LEntry.sameBin (e f : LEntry) : Bool :=
  (e.kind == .unexp || (e.kind == .posted && e.isExact)) && (f.kind == .unexp || (f.kind == .posted && f.isExact)) && e.bin == f.bin

/-- The 64 bytes of an entry, its next fields given as entry indices (06 Table 6.2). -/
def LEntry.words (e : LEntry) (nextBin nextList : Option Nat) : List Nat :=
  let hdr := e.kind != .posted
  let kind := match e.kind with | .posted => 1 | .unexp => 2 | .early => 3 | .rndv => 4
  let ctr := match e.ev.ctr with | some c => c | none => 0
  let rndv := e.kind == .rndv
  [ if rndv then e.ev.cookie else e.mbits,
    if rndv then e.src + e.key * m32 else if hdr then 0 else e.ignore,
    e.rank + b2n (!hdr && e.anySource) * 2 ^ 24 + kind * 2 ^ 25 + b2n (if rndv then false else if hdr then e.rts else e.pattern) * 2 ^ 28
      + b2n (if rndv || !hdr then e.ev.ctr.isSome else e.complete) * 2 ^ 29 + e.ctx * m32
      + (if rndv || !hdr then ctr else e.seqNo % 65536) * 2 ^ 48,
    if rndv then 0 else (if hdr then e.adm else e.seqNo) + (match nextBin with | some i => i * m32 + 2 ^ 52 | none => 0),
    e.buf, e.len,
    if hdr then e.msgId + (if rndv then 0 else e.src * m32) else e.ev.cookie,
    if rndv then 0 else (match nextList with | some i => i + 2 ^ 20 | none => 0) + (if hdr && e.rts then e.key * m32 else 0) ]

/-- A list of entries as a spill area holds it: each entry's index and words. -/
def spillImage : List LEntry → List (Nat × List Nat)
  | [] => []
  | e :: r => (e.slot, e.words ((r.find? e.sameBin).map (·.slot)) ((r.find? e.sameList).map (·.slot))) :: spillImage r

/-- The pool as the SRAM holds it: the bytes of each entry on chip, its next fields given as indices of the pool (06 R216, R218). -/
def poolImage : List LEntry → List Nat
  | [] => []
  | e :: r =>
    joinWords (e.words ((r.find? e.sameBin).map (·.slot)) ((r.find? fun f => f.ctx == e.ctx && e.sameList f).map (·.slot))) :: poolImage r

/-- `size` bytes at offset `o` of the Ledger partition, SB_10 to SB_17 (01 Table 1.3; 06 Table 6.2). Which index an entry has is a DESIGN
CHOICE, its place among the entries on chip; a free entry has kind 000b and is a free value elsewhere (log entry 25). -/
def State.poolRead (s : State) (o size : Nat) : Nat × State :=
  let es := s.entries.filter fun e => e.kind == .rndv || !s.inHost e.ctx
  let im := poolImage (es.zipIdx.map fun (e, i) => { e with slot := i })
  let (n, s) := (List.range ((o % 64 + size + 63) / 64)).foldl (fun (n, s) j =>
    match im[o / 64 + j]? with
    | some w => (n + w * 2 ^ (512 * j), s)
    | none =>
      let (w, s) := State.free s 512
      (n + (w - bf w 153 3 * 2 ^ 153) * 2 ^ (512 * j), s)) (0, s)
  (bf n (8 * (o % 64)) (8 * size), s)

/-- A context's spill area as its lists make it. -/
def State.spillArea (s : State) (k : Nat) : List (Nat × List Nat) := spillImage (s.spillable k)

/-- The accesses that an operation on a SPILLED context's host lists makes (06 R240). -/
def State.spillAccs (s : State) (k : Nat) : List (Nat × Nat × Bool) :=
  if s.ctxSt k = cxSPILLED ∧ s.spillable k ≠ [] then
    [(s.get (LDG_CTX3.spill_base k) / 64 * 64, 64 * (((s.spillable k).map (·.slot)).foldl max 0 + 1), false)]
  else []

/-- Writes what has changed in a context's spill area: entries as they are now; one that is gone is free, kind 000b (06 Table 6.2). -/
def State.spillSync (s : State) (k : Nat) (old : List (Nat × List Nat)) : State :=
  let a := (s.ctxOwner k).getD 0
  let base := s.get (LDG_CTX3.spill_base k) / 64 * 64
  let new := s.spillArea k
  let gone := (old.filter fun (i, _) => (tget new i).isNone).map fun (i, _) => (i, [])
  ((new.filter fun (i, w) => tget old i != some w) ++ gone).foldl (fun s (i, w) =>
    s.postHeld (s.aHl a) { fn := s.aFn a, pasid := s.aPasid a, addr := base + 64 * i, data := bytesOf 64 (joinWords w) }) s

/-- Changes a context's lists: those of a SPILLED context are host lists, and so are those of a RETURNING one until the last entry is
back (06 R240, R247). -/
def State.relist (s : State) (k : Nat) (es : List LEntry) : State :=
  let t := { s with entries := es }
  State.ldgStat (if s.inHost k then t.spillSync k (s.spillArea k) else t) k

/-- Adds an entry that has room (06 R216, R239), at the lowest index of its spill area that is free. -/
def State.addEntry (s : State) (e : LEntry) : State :=
  let used := (s.spillable e.ctx).map (·.slot)
  let slot := ((List.range (used.length + 1)).find? fun i => !used.contains i).getD 0
  s.relist e.ctx (s.entries ++ [{ e with slot }])

def State.delEntry (s : State) (num : Nat) : State :=
  match s.entries.find? (·.num == num) with
  | some e => s.relist e.ctx (s.entries.filter (·.num != num))
  | none => s

/-- The next admission sequence of a context (06 R216). -/
def State.newAdm (s : State) (k : Nat) : Nat × State := ((s.ctx k).nextAdm, s.modCtx k fun c => { c with nextAdm := (c.nextAdm + 1) % m32 })

/-! ### The order cache (06 R222, R223) -/

def State.ordFind (s : State) (k r : Nat) : Option OrderEnt := tget (s.ctx k).order r
def State.ordAddr (s : State) (k r : Nat) : Nat := s.get (LDG_CTX1.order_base k) / 16 * 16 + 16 * r
def State.ordSet (s : State) (k r : Nat) (e : OrderEnt) : State := s.modCtx k fun c => { c with order := tput c.order r e }

def OrderEnt.bytes (e : OrderEnt) : List Byte :=
  bytesOf 2 e.nextSend ++ bytesOf 2 e.expected ++ bytesOf 1 (e.outstanding % 128) ++ bytesOf 3 0 ++ bytesOf 8 e.early

/-- Writes an order entry back and drops it. -/
def State.ordBack (s : State) (a k r : Nat) : State :=
  match s.ordFind k r with
  | some e =>
    (s.postHeld (s.aHl a) { fn := s.aFn a, pasid := s.aPasid a, addr := s.ordAddr k r, data := e.bytes }).modCtx k fun c =>
      { c with order := tdel c.order r }
  | none => s

/-- Makes room for one more order entry of the 65,536 that the cache holds: one is written back, of those without outstanding SENDs and
early messages while there are any (06 R223). -/
def State.ordEvict (s : State) : State :=
  let all := (s.ctxs.map fun (k, c) => c.order.map fun (r, e) => (k, r, e)).flatten
  if all.length < 65536 then s
  else
    let idle := all.filter fun (_, _, e) => e.outstanding == 0 && e.early == 0
    let may := if idle = [] then all else idle
    let (i, s) := s.free 16
    match may[i % may.length]? with
    | some (k, r, _) => match s.ctxOwner k with
      | some a => s.ordBack a k r
      | none => s.modCtx k fun c => { c with order := tdel c.order r }
    | none => s

/-- Asks for an order entry that misses the cache (06 R223); false when its read cannot be made. -/
def State.ordAsk (s : State) (a k r : Nat) : Bool × State :=
  if (s.ctx k).filling.contains r then (true, s)
  else
    match s.gate (s.aHl a) (s.aFn a) (s.aPasid a) [(s.ordAddr k r, 16, false)] with
    | (.go, s) =>
      match s.takeTag (s.aHl a) (s.aFn a) (some a) (.orderFill k r) with
      | (some t, s) => (true, (s.modCtx k fun c => { c with filling := addMem c.filling r }).readTlp
          (s.aHl a) (s.aFn a) (s.aPasid a) t (s.ordAddr k r) 16 0)
      | (none, s) => (true, s)
    | (.wait, s) => (true, s)
    | (.fail, s) => (false, s.raise kLDG_HOST_ERROR srcLDG 0 k)

/-- SENDs to (context, rank) whose RECEIPT has not yet come (06 R222). -/
def State.ordOut (s : State) (k r : Nat) : Nat :=
  (s.srcMsgs.filter fun m => (m.kind == .eager || m.kind == .rts) && !m.acked && m.ctx == k && m.rank == r).length

/-- A SEND to (context, rank) no longer counts as outstanding (06 R224): in the cache, or, when its entry has been evicted, in the order
table. -/
def State.ordDone (s : State) (k r : Nat) : State :=
  match s.ordFind k r with
  | some e => s.ordSet k r { e with outstanding := e.outstanding - 1 }
  | none =>
    match s.ctxOwner k with
    | some a =>
      let s := if (s.ctx k).filling.contains r then s.modCtx k fun c => { c with fell := addMem c.fell r } else s
      s.postHeld (s.aHl a) { fn := s.aFn a, pasid := s.aPasid a, addr := s.ordAddr k r + 4, data := bytesOf 1 (s.ordOut k r - 1) }
    | none => s

/-! ### Overflow buffers (06 R229, R230, R238) -/

/-- A retired buffer whose every reservation is released is given back (06 R230). -/
def State.ovfGiveBack (s : State) (num : Nat) : State :=
  match s.ovfBufs.find? (·.num == num) with
  | some b =>
    if b.retired ∧ b.live = 0 then
      let s := { s with ovfBufs := s.ovfBufs.filter (·.num != num) }
      (s.complete b.ev evOVF_RETIRED 0 (s.ctxNum b.ctx) b.base b.fill false).ldgStat b.ctx
    else s
  | none => s

/-- Releases a reservation. -/
def State.ovfRelease (s : State) (num : Nat) : State :=
  State.ovfGiveBack { s with ovfBufs := modFirst (fun b : OvfBuf => b.num == num) (fun b => { b with live := b.live - 1 }) s.ovfBufs } num

/-- Reserves `need` bytes in a context's current buffer, retiring those with too little room (06 R229): the buffer's
number and the IOVA. -/
def State.ovfReserve (s : State) (k need : Nat) : Nat → Option (Nat × Nat) × State
  | 0 => (none, s)
  | n + 1 =>
    match s.ovfBufs.find? fun b => b.ctx == k && !b.retired with
    | none => (none, s)
    | some b =>
      let upd (f : OvfBuf → OvfBuf) : State := { s with ovfBufs := modFirst (fun x : OvfBuf => x.num == b.num) f s.ovfBufs }
      if b.fill + need ≤ b.len then
        (some (b.num, b.base + b.fill), upd fun x => { x with fill := x.fill + need, live := x.live + 1 })
      else ((upd fun x => { x with retired := true }).ovfGiveBack b.num).ovfReserve k need n

/-! ### Matching (06 R217 to R220) -/

/-- Whether match bits, ignore mask, rank and any_source of `e` admit the header `h` (06 R217). -/
def LEntry.admits (e h : LEntry) : Bool :=
  ((e.mbits ^^^ h.mbits) ||| e.ignore) == e.ignore && (e.anySource || e.rank == h.rank)

/-- The chain of a bin of the bin table: exact POSTED entries and UNEXP entries, of any context (06 R218). -/
def State.binChain (s : State) (b : Nat) : List LEntry :=
  s.entries.filter fun e => (e.kind == .unexp || (e.kind == .posted && e.isExact)) && e.bin == b

/-- A context's wildcard list, in post order, and its unexpected list, in admission order (06 R218). -/
def State.wildList (s : State) (k : Nat) : List LEntry := s.entries.filter fun e => e.ctx == k && e.kind == .posted && !e.isExact
def State.unexpList (s : State) (k : Nat) : List LEntry := s.entries.filter fun e => e.ctx == k && e.kind == .unexp

/-- The POSTED entry that a header matches: the first exact one of its bin or the first of the wildcard list, whichever has the lower
post sequence, counted from the context's oldest live POSTED entry (06 R219). -/
def State.postedFor (s : State) (h : LEntry) : Option LEntry :=
  let age (e : LEntry) : Nat := subMod m32 e.seqNo (s.get (LDG_CTX6.oldest_post h.ctx))
  match (s.binChain h.bin).find? fun e => e.ctx == h.ctx && e.kind == .posted && e.admits h, (s.wildList h.ctx).find? fun e => e.admits h with
  | some e, some w => some (if age e < age w then e else w)
  | some e, none => some e
  | none, w => w

/-- The UNEXP entry that a RECV matches: the first of its bin for an exact RECV, of the unexpected list for another (06 R220). -/
def State.unexpFor (s : State) (r : LEntry) : Option LEntry :=
  if r.isExact then (s.binChain r.bin).find? fun e => e.ctx == r.ctx && e.kind == .unexp && r.admits e
  else (s.unexpList r.ctx).find? fun e => r.admits e

/-! ### The end of a RECV (06 R228, R230, R233, R237) -/

def State.recvDone (s : State) (r : LEntry) (status rank mbits total : Nat) : State :=
  s.complete r.ev evRECV_DONE status rank mbits total false

/-- A RECV that no message ended: what its event carries of a message is a free value (06 R245). -/
def State.recvNone (s : State) (ev : EvtInfo) (kind status : Nat) : State :=
  let (r, s) := s.free 24
  let (m, s) := s.free 64
  let (n, s) := s.free 40
  s.complete ev kind status r m n false

/-- The status with which a match ends: an earlier failure, else whether the message was cut. -/
def LMatch.finalStatus (m : LMatch) : Nat := if m.status ≠ 0 then m.status else if m.hdr.len > m.recv.len then stTRUNCATED else 0

def State.delMatch (s : State) (num : Nat) : State := { s with lmatches := s.lmatches.filter (·.num != num) }
def State.modMatch (s : State) (num : Nat) (f : LMatch → LMatch) : State :=
  { s with lmatches := modFirst (fun m : LMatch => m.num == num) f s.lmatches }

/-- A match's RECV completes. -/
def State.matchDone (s : State) (m : LMatch) (status : Nat) : State :=
  s.recvDone m.recv status m.hdr.rank m.hdr.mbits m.hdr.len

/-! ### Pulls (06 R233, R234) -/

/-- Starts pulls that wait for entries, those whose waits arose first (05 R161; 06 R233). -/
def State.pullStart (s : State) (m : LMatch) : State :=
  let e : SrcMsg := { hl := s.aHl m.recv.ev.acct, kind := .pull, ev := m.recv.ev, dst := m.dst, total := min m.hdr.len m.recv.len,
                      ctx := m.recv.ctx, rank := m.hdr.rank, pull := m.num, key := m.hdr.key, roff := m.hdr.buf, pat := m.recv.pat }
  ((s.openSrc e).2.bump LDG_CNT_RNDV.ev).modMatch m.num fun m => { m with mode := 2 }

/-- A RECV and an RTS have matched: Ledger pulls the data, or waits for an entry; a source rank that does not translate ends
the RECV with that status, and no FIN can be addressed. -/
def State.pullFor (s : State) (r h : LEntry) (hv : HostView) : State :=
  match s.rankXlate r.ev.acct h.rank hv with
  | (0, dst, s) =>
    let (num, s) := s.newId
    let m : LMatch := { num, recv := r, hdr := h, mode := 4, dst }
    let s := { s with lmatches := s.lmatches ++ [m] }
    if s.srcFull ∨ s.getsFull then s else s.pullStart m
  | (st, _, s) => s.recvDone r st h.rank h.mbits h.len

/-! ### Admission (06 R225, R226, R229) -/

/-- A header meets the lists of its context: it matches the RECV posted first, or is kept UNEXP. An eager header whose
payload lies in overflow is copied; one that has just arrived without a reservation goes straight to the buffer. The
second item is what the payload's packets go to. -/
def State.admitHdr (s : State) (h : LEntry) (hv : HostView) : Option Nat × State :=
  let s := s.ldgOp h.ctx
  match s.postedFor h with
  | some r =>
    let s := (s.delEntry r.num).bump LDG_CNT_MATCH.ev
    if h.rts then (none, s.pullFor r h hv)
    else if h.ovf.isSome ∨ h.complete then
      (some h.num, { s with lmatches := s.lmatches ++ [{ num := h.num, recv := r, hdr := h, mode := 1 }] })
    else (some h.num, { s with lmatches := s.lmatches ++ [{ num := h.num, recv := r, hdr := h, mode := 0 }] })
  | none =>
    let (adm, s) := s.newAdm h.ctx
    (some h.num, (s.addEntry { h with kind := .unexp, adm }).bump LDG_CNT_UNEXP.ev)

/-- Releases held early messages in turn while bit 0 of the bitmap is 1 (06 R222, R225, R226). -/
def State.releaseEarly (s : State) (k r : Nat) (hv : HostView) : Nat → State
  | 0 => s
  | n + 1 =>
    match s.ordFind k r with
    | none => s
    | some o =>
      if o.early % 2 = 0 then s
      else
        let s0 := s.ordSet k r { o with expected := (o.expected + 1) % 65536, early := o.early / 2 }
        match s.entries.find? fun e => e.ctx == k && e.kind == .early && e.rank == r && e.seqNo == o.expected with
        | some e =>
          let s1 := s0.delEntry e.num
          (s1.admitHdr e hv).2.releaseEarly k r hv n
        | none => s0.releaseEarly k r hv n

end Sys2Proof.Machine
end

