-- ==== Sys2Proof/Machine/Finish.lean ====
section
/-!
DEFINITION. Machine/Finish.lean: how each kind of outstanding message ends, and the waits for a source entry that its end
lets go on (05 R161, R204, R205, R210, R211; 06 R224, R232 to R234).
-/
namespace Sys2Proof.Machine

/-! ### The Aperture (05 R203 to R205) -/

/-- An Aperture access that fails: recorded and counted on its window. -/
def State.aptFault (s : State) (n w a : Nat) (store : Bool) : State :=
  let s := (s.bump TLR_CNT_APT_FAULT.ev).raise kAPT_FAULT (srcOf 0x23 n) (acctAddr a) w
  let s := s.set (TLR_APT_WIN3.faults n w) (min (s.get (TLR_APT_WIN3.faults n w) + 1) (m32 - 1))
  if store then s.set (TLR_APT_WIN3.err n w) 1 else s

/-- Sends a waiting Aperture access, whose rank is translated, as a GET or a one-packet PUT, as its window was at the access. -/
def State.aptStart (s : State) (w : AptWait) : State :=
  let m : SrcMsg := { hl := w.hl, ev := { acct := w.acct, gen := w.gen, num := w.num }, dst := w.dst.getD {}, total := w.len, apt := w.win,
                      aptTag := w.tag, key := w.key, roff := w.off }
  let s := { s with aptWaits := s.aptWaits.filter (·.num != w.num) }
  match w.store with
  | some d => (s.openSrc { m with kind := .aptStore, data := d, visible := w.visible }).2
  | none => (s.openSrc { m with kind := .aptLoad }).2

/-- Whether an access may be sent as far as its rank and its window's earlier stores go (05 R203, R204). -/
def State.aptFree (s : State) (w : AptWait) : Bool :=
  w.dst.isSome && (w.store.isSome ||
    !((s.srcMsgs.any fun m => m.kind == .aptStore && m.hl == w.hl && m.apt == w.win && decide (m.ev.num < w.num))
      || (s.aptWaits.any fun x => x.store.isSome && x.hl == w.hl && x.win == w.win && decide (x.num < w.num))))

/-! ### Waits for an entry (05 R161) -/

/-- Opens the entry of the FIN of a match that has ended and found none free (06 R234). -/
def State.finOpen (s : State) (m : LMatch) : State :=
  let ok := m.status = 0 ∨ m.status = stTRUNCATED
  let e : SrcMsg := { hl := s.aHl m.recv.ev.acct, kind := .fin, ev := m.recv.ev, dst := m.dst, ctx := m.recv.ctx, rank := m.hdr.rank,
                      pull := m.num, key := m.hdr.key, roff := if ok then m.hdr.buf else (m.hdr.buf + 1) % 2 ^ 64 }
  ((s.openSrc e).2).delMatch m.num

/-- Gives free entries to the pulls, FINs and Aperture accesses that wait, in the order in which the waits arose. -/
def State.serveWaits (s : State) : Nat → State
  | 0 => s
  | k + 1 =>
    if s.srcFull then s
    else
      let gets := !s.getsFull
      let pull := s.lmatches.find? fun m => (m.mode == 3 || m.mode == 4) && gets
      let apt := s.aptWaits.find? fun w => s.aptFree w && (w.store.isSome || gets)
      let begin_ (m : LMatch) : State := if m.mode = 3 then s.finOpen m else s.pullStart m
      match pull, apt with
      | none, none => s
      | some m, none => (begin_ m).serveWaits k
      | none, some w => (s.aptStart w).serveWaits k
      | some m, some w => (if m.num < w.num then begin_ m else s.aptStart w).serveWaits k

/-- The same for every wait that may go. -/
def State.serveAll (s : State) : State := s.serveWaits (s.lmatches.length + s.aptWaits.length)

/-! ### What has come for a message (05 R171, R177, R191, R196) -/

/-- Whether a message asks for a RECEIPT. -/
def SrcMsg.receipted (m : SrcMsg) : Bool := m.kind == .put || m.kind == .eager || m.kind == .rts || m.kind == .aptStore

/-- Whether a RECEIPT completes a message: the generation that it echoes and its level are the message's (05 R171). -/
def State.receiptFits (s : State) (m : SrcMsg) (w : Nat) : Bool :=
  m.receipted && !m.acked && bf w 40 16 == s.aGen m.ev.acct && m.ev.gen == s.aGen m.ev.acct && bf w 32 2 == (if m.visible then 2 else 1)

/-- Whether a message accepts a response: the rules of 05 R191 for a get, of R196 for an atomic. -/
def State.respFits (s : State) (m : SrcMsg) (h : Header) : Bool :=
  h.srcGen == s.aGen m.ev.acct && m.ev.gen == s.aGen m.ev.acct &&
    if h.opcode = 5 then m.kind == .atomic && m.msgId == h.msgId && bf h.w6 32 32 == m.nonce
    else m.isGet && h.opcode == 3 && match m.runs.find? fun (j, _, _) => j == h.msgId with
      | none => false
      | some (_, f, e) => h.w6 % 256 != 0
          || (decide (f ≤ h.pktIndex ∧ h.pktIndex < e) && decide (m.gBase ≤ h.pktIndex) && !m.gBits.contains h.pktIndex)

/-- Whether a RECEIPT or a response that a message accepts has arrived and not yet been processed: it comes before a timer's expiry or a
failure decision, which is void (05 R177). -/
def State.answered (s : State) (m : SrcMsg) : Bool :=
  (s.qsHere.any fun a => a.msg.type == 1 && epHl a.msg.dst == m.hl && bf a.msg.payload 0 32 == m.msgId && s.receiptFits m a.msg.payload)
    || s.tptIn.any fun p => epHl p.hdr.dstEp == m.hl && s.respFits m p.hdr

/-! ### Ends -/

/-- Turns a pull's entry into its FIN: a get of length 0 with a msg_id of its own (05 R161; 06 R234). -/
def State.finStart (s : State) (m : SrcMsg) (status : Nat) : State :=
  let (i, s) := s.newMsgId m.hl
  let ok := status = 0 ∨ status = stTRUNCATED
  s.modSrc m.id fun m =>
    { m with kind := .fin, msgId := i, firstId := i, total := 0, nPkts := 1, next := 0, allSent := false, expiries := 0, naks := 0,
             nakWait := [], resend := [], runF := 0, runEnd := 0, runs := [], spans := [], gBase := 0, gBits := [], status := 0, echoed := 0,
             roff := if ok then m.roff else (m.roff + 1) % 2 ^ 64 }

/-- The RNDV_SEND entry of a rendezvous SEND ends: its event is written and its source entry is free; a SEND whose RTS has had no
RECEIPT yet counts as outstanding no longer (06 R224, R232, R235). -/
def State.rndvEnd (s : State) (e : LEntry) (status : Nat) : State :=
  let s := if s.srcMsgs.any fun m => m.kind == SrcKind.rts && m.ev.num == e.ev.num && !m.acked then s.ordDone e.ctx e.rank else s
  let s := { s with srcMsgs := s.srcMsgs.filter fun m => !(m.kind == SrcKind.rts && m.ev.num == e.ev.num) }
  (((s.tptStat.delEntry e.num).complete e.ev evSEND_DONE status e.msgId 0 0 false)).serveAll

/-- An outstanding message ends with a status; `prior` is what an atomic returned. -/
def State.msgEnd (s : State) (m : SrcMsg) (status : Nat) (prior : Option Nat) : State :=
  let gone (s : State) : State := (s.delSrc m.id).serveAll
  match m.kind with
  | .put => gone (s.complete m.ev evPUT_DONE status m.msgId 0 0 false)
  | .get => gone (s.complete m.ev evGET_DONE status m.firstId 0 0 false)
  | .atomic =>
    let (v, s) := match prior with | some v => (v, s) | none => s.free 64
    gone (s.complete m.ev evATOMIC_DONE status m.msgId v 0 false)
  | .eager => gone ((s.ordDone m.ctx m.rank).complete m.ev evSEND_DONE status m.msgId 0 0 false)
  | .rts =>
    if status = 0 then (s.ordDone m.ctx m.rank).modSrc m.id fun m => { m with acked := true }
    else
      match s.entries.find? fun e => e.kind == .rndv && e.ev.num == m.ev.num with
      | some e => s.rndvEnd e status
      | none => gone (s.ordDone m.ctx m.rank)
  | .pull =>
    match s.lmatches.find? (·.num == m.pull) with
    | some x =>
      let st := if status ≠ 0 then status else x.finalStatus
      ((s.matchDone x st).delMatch x.num).finStart m st
    | none => gone s
  | .fin => gone s
  | .aptLoad =>
    let s := if status = 0 then s.emit (.hostCpl m.hl (s.aFn m.ev.acct) cplOK m.data)
      else (s.aptFault m.hl m.apt m.ev.acct false).cplErr m.hl (s.aFn m.ev.acct) cplCA
    gone s
  | .aptStore => gone (if status = 0 then s else s.aptFault m.hl m.apt m.ev.acct true)

/-- The message has failed, or an event ends it, with nothing of an atomic returned. -/
def State.msgFail (s : State) (m : SrcMsg) (status : Nat) : State := s.msgEnd m status none

/-- A failure is decided for a message: void when what it waits for has come (05 R177). -/
def State.failDecided (s : State) (m : SrcMsg) (status : Nat) : State := if s.answered m then s else s.msgFail m status

/-! ### Sending (05 R173, R183, R189) -/


/-- The end of the run that starts at packet `f` of a get: at most 512 packets (05 R189). -/
def SrcMsg.runTo (m : SrcMsg) (f : Nat) : Nat := min m.nPkts (f + 512)

/-- Sends the next first transmission of a message: its next packet, or a get's next run under a msg_id of its own. -/
def State.sendNext (s : State) (m : SrcMsg) (hv : HostView) : State :=
  if m.isGet then
    let f := m.next; let e := m.runTo f
    let i := if f = 0 then m.msgId else s.get (TPT_MSGID.next m.hl)
    match s.sendPkt m f e i hv false with
    | (.ok, s) => (if f = 0 then s else (s.newMsgId m.hl).2).modSrc m.id fun m =>
        { m with msgId := i, runF := f, runEnd := e, runs := m.runs ++ [(i, f, e)], next := e, allSent := true }
    | (.wait, s) => s
    | (.fail st, s) => s.failDecided m st
  else
    match s.sendPkt m m.next (m.next + 1) m.msgId hv false with
    | (.ok, s) => s.modSrc m.id fun m => { m with next := m.next + 1, allSent := decide (m.next + 1 = m.nPkts) }
    | (.wait, s) => s
    | (.fail st, s) => s.failDecided m st

/-- The GET_REQ of a get that begins at packet `i`: its msg_id and the end of its span, as sent last (05 R175, R191). -/
def SrcMsg.reqAt (m : SrcMsg) (i : Nat) : Option (Nat × Nat) :=
  (m.runs.find? fun (_, f, e) => decide (f ≤ i ∧ i < e)).map fun (j, _, e) => (j, (tget m.spans i).getD e)

/-- Sends packet `i` of a message once more; while it may not go it waits in `resend`, where it is already when this is a new try. -/
def State.sendAgain (s : State) (id i e msgId : Nat) (hv : HostView) (again : Bool := false) : State :=
  let note (m : SrcMsg) : SrcMsg := if m.isGet then { m with spans := tput m.spans i e } else m
  match s.srcMsg id with
  | none => s
  | some m =>
    match s.sendPkt m i e msgId hv true with
    | (.ok, s) => s.modSrc id fun m => { note m with resend := if again then m.resend.erase i else m.resend }
    | (.wait, s) => s.modSrc id fun m => { note m with resend := if again then m.resend else m.resend ++ [i] }
    | (.fail st, s) =>
      if s.answered m then s.modSrc id fun m => { note m with resend := if again then m.resend else m.resend ++ [i] } else s.msgFail m st

/-- Sends packet `i` of a message again, or the GET_REQ that begins there. -/
def State.sendNamed (s : State) (m : SrcMsg) (i : Nat) (hv : HostView) (again : Bool) : State :=
  if m.isGet then
    match m.reqAt i with
    | some (j, e) => s.sendAgain m.id i e j hv again
    | none => s
  else if i < m.nPkts then s.sendAgain m.id i (i + 1) m.msgId hv again else s

/-- The probe of a message (05 R173, R191). -/
def State.sendProbe (s : State) (m : SrcMsg) (hv : HostView) : State :=
  if m.isGet then m.missing.foldl (fun s (f, e) => s.sendAgain m.id f e m.msgId hv) s
  else s.sendAgain m.id (m.nPkts - 1) m.nPkts m.msgId hv


end Sys2Proof.Machine
end

