-- ==== Sys2Proof/Machine/Transport.lean ====
section
/-!
DEFINITION. Machine/Transport.lean: Transport's commands: sending, receipts, refusals, timeouts, the congestion windows, and
the MG packets that pass to Izger (05 R160 to R185; 02 R59; 14 R504).
-/
namespace Sys2Proof.Machine

/-- Takes the oldest QS message of a type delivered here. -/
def State.takeQs (s : State) (ty : Nat) : Option (QsArr × State) :=
  (takeFirst (fun a : QsArr => a.msg.type == ty) s.qsHere).map fun (a, r) => (a, { s with qsHere := r })

/-- PACKET_SEND: message `k` sends what has had to wait, else its next first transmission, when its account's allowance permits, as far
as the hold of R163 and its context's window let it (05 R163, R164, R183, R189; 09 R351). -/
def execPacketSend (k : Nat) (hv : HostView) (s : State) : Host.Outcome State Fault Refusal :=
  .next (match s.srcMsg k with
    | none => s
    | some m =>
      match m.resend with
      | i :: _ => (s.sendNamed m i hv true).activityUpd
      | [] =>
        if m.due && s.mayServe m.ev.acct (pktCost (m.pktBytes m.next)) then
          ((s.sendNext m hv).idleZero m.ev.acct).activityUpd
        else s)

/-- A RECEIPT completes a message, gives its context a sample and may halve its window (05 R171, R184, R185). -/
def execReceipt (s : State) : Host.Outcome State Fault Refusal :=
  .next (match s.takeQs 1 with
    | none => s
    | some (a, s) =>
      let w := a.msg.payload
      match s.srcById (epHl a.msg.dst) (bf w 0 32) with
      | none => s.bump TPT_CNT_LATE.ev
      | some m =>
        if s.receiptFits m w then
          let c := ctxOf m.dst.endpoint
          let s := s.ctxSample c ((a.came : Int) - m.sentAt)
          let s := if bf w 56 8 > m.echoed then s.ctxHalve c else s
          (s.msgEnd m (bf w 34 6) none).activityUpd
        else s.bump TPT_CNT_LATE.ev)

/-- An E2E_NAK: the named packet is to be resent, or the message fails with RESOURCE (05 R175). -/
def execE2eNak (s : State) : Host.Outcome State Fault Refusal :=
  .next (match s.takeQs 2 with
    | none => s
    | some (a, s) =>
      let s := s.bump TPT_CNT_NAK_RX.ev
      let w := a.msg.payload
      match s.srcById (epHl a.msg.dst) (bf w 0 32) with
      | none => s.bump TPT_CNT_LATE.ev
      | some m =>
        if m.naks + 1 > s.get TPT_RETRY.nak_max ∧ !s.answered m then (s.msgFail m stRESOURCE).activityUpd
        else s.modSrc m.id fun m => { m with naks := m.naks + 1, nakWait := m.nakWait ++ [bf w 32 28] })

/-- NAK_DELAY_EXPIRY: packet `i` of message `k`, or the GET_REQ that begins there, named by an E2E_NAK, is read afresh and resent: once
for each E2E_NAK (05 R172, R175). -/
def execNakDelayExpiry (k i : Nat) (hv : HostView) (s : State) : Host.Outcome State Fault Refusal :=
  .next (match s.srcMsg k with
    | none => s
    | some m =>
      if !m.nakWait.contains i then s
      else ((s.modSrc k fun m => { m with nakWait := m.nakWait.erase i }).sendNamed m i hv false).activityUpd)

/-- A CECHO halves its context's window (05 R185). -/
def execCecho (s : State) : Host.Outcome State Fault Refusal :=
  .next (match s.takeQs 3 with
    | none => s
    | some (a, s) =>
      let s := s.bump TPT_CNT_CECHO_RX.ev
      let w := a.msg.payload
      match s.srcById (epHl a.msg.dst) (bf w 0 32) with
      | none => s
      | some m => (s.modSrc m.id fun m => { m with echoed := m.echoed + bf w 32 16 }).ctxHalve (ctxOf m.dst.endpoint))

/-- A timer expiry of a message (05 R173), void when what it waits for has come (R177). -/
def State.expire (s : State) (m : SrcMsg) (hv : HostView) : State :=
  let n := m.expiries + 1
  if s.answered m then s
  else if n > s.get TPT_RETRY.retries then (s.msgFail m stTIMEOUT).bump TPT_CNT_TIMEOUT.ev
  else (s.modSrc m.id fun m => { m with expiries := n }).sendProbe { m with expiries := n } hv

/-- An UNREACH (05 Table 5.2). -/
def execUnreach (hv : HostView) (s : State) : Host.Outcome State Fault Refusal :=
  .next (match s.takeQs 0x0A with
    | none => s
    | some (a, s) =>
      let w := a.msg.payload
      match s.srcById (epHl a.msg.dst) (bf w 32 32) with
      | none => s.bump TPT_CNT_LATE.ev
      | some m =>
        let r := bf w 24 8
        (if s.answered m then s
        else if r = 1 then s.msgFail m stNO_ROUTE
        else if r = 2 then s.msgFail m stNO_ACCOUNT
        else if r = 3 then s.expire m hv
        else s).activityUpd)

/-- RETRANSMIT_TIMEOUT: the retransmission timer of message `k` expires (05 R173). It runs once the message's last first
transmission has been sent. -/
def execRetransmitTimeout (k : Nat) (hv : HostView) (s : State) : Host.Outcome State Fault Refusal :=
  .next (match s.srcMsg k with
    | none => s
    | some m => if m.allSent && !m.acked then (s.expire m hv).activityUpd else s)

/-- HOLE_TIMER_EXPIRY: the missing packets of an open message are named (05 R174). -/
def execHoleTimerExpiry (src : EndPoint) (msg : BitVec 32) (s : State) : Host.Outcome State Fault Refusal :=
  .next (match s.openFind src.toNat msg.toNat with
    | some o => if o.hole then s.nakHoles o else s
    | none => s)

/-- OPEN_ENTRY_ABANDON: an open entry has accepted no packet for time_us: it is closed without a receipt, and its reserved filter slot is
free (05 R167, R180). -/
def execOpenEntryAbandon (src : EndPoint) (msg : BitVec 32) (s : State) : Host.Outcome State Fault Refusal :=
  .next (match s.openFind src.toNat msg.toNat with
    | some o =>
      if o.single then s
      else (((s.delOpen o.src o.msgId).filterFree o.src o.msgId).bump TPT_CNT_ABANDONED.ev).activityUpd
    | none => s)

/-- FILTER_EXPIRY: a live filter entry reaches its expiry (05 R180). -/
def execFilterExpiry (src : EndPoint) (msg : BitVec 32) (s : State) : Host.Outcome State Fault Refusal :=
  .next (match s.filterFind src.toNat msg.toNat with
    | some f => if f.live then s.filterFree f.src f.msgId else s
    | none => s)

/-- CWND_GROW: a context's srtt has passed; with packets sent and no halving its window rises by 1, up to TPT_CWND.max (05 R185). -/
def execCwndGrow (i : Fin 65536) (s : State) : Host.Outcome State Fault Refusal :=
  let w := s.ctxWin i.val
  let s := { s with ctxSent := tput s.ctxSent i.val { w with sent := 0, halved := false } }
  .next (if 0 < w.sent ∧ !w.halved then s.set (TPT_CTX.cwnd i.val) (min (s.get (TPT_CTX.cwnd i.val) + 1) s.cwndMax) else s)

/-- CONTEXT_IDLE_RESET: after 1 ms without traffic a context is as at first (05 R183). -/
def execContextIdleReset (i : Fin 65536) (s : State) : Host.Outcome State Fault Refusal :=
  let s := { s with ctxSent := tdel s.ctxSent i.val }
  .next ((s.set (TPT_CTX.cwnd i.val) s.cwndInit).set (TPT_CTX.srtt_ns i.val) (s.get TPT_CWND.rtt_init_ns))

/-- REQUEST_HOLD_END: 65,536 µs after a device reset request packets may be injected (05 R163). -/
def execRequestHoldEnd (s : State) : Host.Outcome State Fault Refusal :=
  .next { s with boot := { s.boot with requestHold := false } }

/-! ### MG packets for Izger (02 R59; 04 R127; 14 R504) -/

/-- Whether a public key is that of an enrolled, unrevoked owner (14 R493, R504). -/
def State.ownerKey (s : State) (key : List Byte) : Bool :=
  let d := (Config.sha512 key).toNat
  (List.range 4).any fun k =>
    bit (s.get SEC_LIFECYCLE.owner_valid) k && !bit (s.get SEC_LIFECYCLE.owner_revoked) k
      && (List.range 8).all fun w => s.get (SEC_OWNER_HASH.hash k w) == bf d (64 * w) 64

/-- Lifecycle states (14 Table 14.3). -/
def lcPROVISIONED : Nat := 1

/-- MG_RECEIVE: an MG packet that has passed check 3 goes to Izger, whose store holds 64; subtypes 0x40 to 0xFF are
authenticated (14 R504). -/
def execMgReceive (s : State) : Host.Outcome State Fault Refusal :=
  .next (match s.takePkt 0x0A with
    | none => s
    | some (p, s) =>
      match s.destCheck p with
      | (false, s) => s
      | (true, s) =>
        let keep (s : State) : State := { s with izg := { s.izg with mg := s.izg.mg ++ [p] } }
        if s.izg.mg.length ≥ 64 then s.bump RTE_CNT_MG_FULL.ev
        else if p.hdr.w5 % 256 < 0x40 then keep s
        else
          let n := p.data.length
          let ctr := leAt p.data (n - 104) 8
          let key := (p.data.drop (n - 96)).take 32
          let signed := [BitVec.ofNat 8 p.hdr.w5] ++ bytesOf 3 p.hdr.dstEp ++ p.data.take (n - 64)
          if 104 ≤ n ∧ edVerify (natOf key) signed (leAt p.data (n - 64) 64) ∧ s.ownerKey key ∧ s.get SEC_MG_CTR.counter < ctr ∧ s.get SEC_LIFECYCLE.state ≠ lcPROVISIONED then
            keep (s.set SEC_MG_CTR.counter ctr)
          else (s.bump SEC_CNT_MG_AUTH_FAIL.ev).raiseLimited kMG_AUTH_FAIL 1000000 (srcOf 3 (s.get IZG_PAIR_STAT.active)) 0 0)

end Sys2Proof.Machine
end

