-- ==== Sys2Proof/Machine/Teller.lean ====
section
/-!
DEFINITION. Machine/Teller.lean: Teller's commands: PUT, GET, ATOMIC and ORDER descriptors, their packets at target and
source, keys, counters and the Aperture (05 R186 to R211).
-/
namespace Sys2Proof.Machine

/-! ### Descriptors (05 R186, R187) -/

/-- What the host answers to reads of an account that `failed` says may not all be made: nothing where these may not. -/
def State.hvIf (s : State) (a : Nat) (failed : Bool) (accs : List (Nat × Nat × Bool)) (hv : HostView) : HostView :=
  if !failed then hv else if (s.gate (s.aHl a) (s.aFn a) (s.aPasid a) accs).1 = .go then hv else []

/-- Bits of a descriptor's word. -/
def dw (d : Desc) (word lo len : Nat) : Nat := bf d.toNat (64 * word + lo) len

/-- The read of the pattern record that a descriptor's word `word` names, when its pattern bit is set. -/
def patAccs (d : Desc) (flag word : Nat) : List (Nat × Nat × Bool) := if dw d 1 flag 1 = 1 then [(dw d word 0 64, 64, false)] else []

/-- The counter of a descriptor with ctr_en = 1. -/
def ctrOf (d : Desc) : Option Nat := if dw d 1 26 1 = 1 then some (dw d 5 0 16) else none

/-- Whether the counter named is one the account may use (05 Table 5.5, check 2). -/
def State.ctrBad (s : State) (a : Nat) (d : Desc) : Bool := match ctrOf d with | some c => !s.ctrOwned c a | none => false

/-- The local side of a descriptor (05 Table 5.5, check 3). -/
def localSide (d : Desc) (hv : HostView) : Nat × Pattern :=
  if dw d 1 25 1 = 1 then readPat hv (dw d 3 0 64) (dw d 4 0 40) else (0, .flat (dw d 3 0 64) (dw d 4 0 40))

/-- The accesses of the checks of a PUT, GET or ATOMIC. -/
def State.tellerAccs (s : State) (a : Nat) (d : Desc) : List (Nat × Nat × Bool) :=
  s.rankAccs a (dw d 1 0 24) ++ (if descType d = 3 then [] else patAccs d 25 3)

/-- The checks 1 to 5 of 05 Table 5.5 for a PUT, GET or ATOMIC: status, destination and local side. -/
def State.tellerCheck (s : State) (a : Nat) (d : Desc) (hv : HostView) (failed : Bool) : Nat × RankEntry × Pattern × State :=
  let rank := dw d 1 0 24
  match s.rankXlate a rank (s.hvIf a failed (s.rankAccs a rank) hv) with
  | (0, e, s) =>
    if s.ctrBad a d then (stCOUNTER, e, {}, s)
    else if descType d = 3 then
      let sz := atomicSize (dw d 5 20 2)
      if !atomicLegal (dw d 5 16 7) then (stBAD_ATOMIC, e, {}, s)
      else if dw d 2 0 64 % sz ≠ 0 ∨ dw d 3 0 64 % sz ≠ 0 then (stALIGN, e, {}, s)
      else (0, e, {}, s)
    else
      let (st, p) := localSide d (s.hvIf a failed (patAccs d 25 3) hv)
      (st, e, p, s)
  | (st, e, s) => (st, e, {}, s)

/-- A descriptor fails a check at consumption: its event names its index (05 R210). -/
def State.failDesc (s : State) (ev : EvtInfo) (kind st : Nat) : State := s.complete { ev with ctr := none } kind st ev.idx 0 0 true

/-- What PUT, GET and ATOMIC do once consumed: the checks, then a source entry. -/
def State.tellerDo (s : State) (a : Nat) (hv : HostView) (kind : SrcKind) (done : Nat) (d : Desc) (ev : EvtInfo) (failed : Bool) : State :=
  let ev := { ev with ctr := ctrOf d }
  match s.tellerCheck a d hv failed with
  | (0, e, p, s) =>
    let (nonce, s) := if kind = .atomic then s.free 32 else (0, s)
    (s.openSrc { hl := s.aHl a, kind, ev, desc := d, dst := e, total := if kind = .atomic then 0 else dw d 4 0 40, key := dw d 1 32 32,
                 roff := dw d 2 0 64, pat := p, nonce, visible := kind = .put && dw d 1 24 1 == 1, rank := dw d 1 0 24 }).2
  | (st, _, _, s) =>
    if kind = .atomic then
      let (v, s) := s.free 64
      s.complete { ev with ctr := none } done st ev.idx v 0 true
    else s.failDesc ev done st

/-- PUT (05 R187, R188, R198). -/
def execPut (a : AcctNo) (src : Source) (hv : HostView) (s : State) : Host.Outcome State Fault Refusal :=
  .next (s.withDescHost a src 1 (fun s _ => s.srcFull) (fun s d => s.tellerAccs a d) hv fun s d ev f => s.tellerDo a hv .put evPUT_DONE d ev f)

/-- GET (05 R187, R189, R198). -/
def execGet (a : AcctNo) (src : Source) (hv : HostView) (s : State) : Host.Outcome State Fault Refusal :=
  .next (s.withDescHost a src 2 (fun s _ => s.srcFull || s.getsFull) (fun s d => s.tellerAccs a d) hv
    fun s d ev f => s.tellerDo a hv .get evGET_DONE d ev f)

/-- ATOMIC (05 R187, R193, R196). -/
def execAtomic (a : AcctNo) (src : Source) (hv : HostView) (s : State) : Host.Outcome State Fault Refusal :=
  .next (s.withDescHost a src 3 (fun s _ => s.srcFull) (fun s d => s.tellerAccs a d) hv fun s d ev f => s.tellerDo a hv .atomic evATOMIC_DONE d ev f)

/-- ORDER: parks its triggered descriptor, or fires at once (05 R187 check 6, R207 to R209). The event of one that fails check 6 names
its index (R210). -/
def execOrder (a : AcctNo) (src : Source) (hv : HostView) (s : State) : Host.Outcome State Fault Refusal :=
  .next (s.withDescHost a src 8 (fun _ _ => false) (fun _ d => [(dw d 3 0 64, 64, false)]) hv fun s d ev f =>
    let ctr := dw d 1 0 16; let th := dw d 2 0 48
    let fail (s : State) (st : Nat) : State := s.complete ev evORDER_FAILED st ev.idx th 0 true
    match hostNat (if f then [] else hv) (dw d 3 0 64) 64 with
    | none => fail s stHOST_ERROR
    | some n =>
      let t := BitVec.ofNat 512 n
      if !([1, 2, 3, 4, 6, 7].contains (descType t)) then fail s stBAD_DESC
      else if s.orders.length ≥ 65536 then s.complete ev evORDER_FAILED stRESOURCE ctr th 0 false
      else
        let o : Order := { ctr, threshold := th, desc := t, ev }
        let s := s.completeQuiet ev
        (State.orderStat { s with orders := s.orders ++ [o] }).fireWhere fun x => x.ctr == ctr)

/-! ### Packets at the target -/

/-- Puts a packet back that waits for the host bus, behind the others. -/
def State.putBack (s : State) (p : Packet) : State := { s with tptIn := s.tptIn ++ [p] }

/-- Takes the oldest packet of an opcode whose engine is on, and has it checked (02 R59). -/
def State.withPkt (s : State) (op : Nat) (act : State → Packet → State) : State :=
  match s.takePkt op with
  | none => s
  | some (p, t) =>
    if !s.engineOn (engineOfOp op) then s.activityUpd
    else
      match t.destCheck p with
      | (false, t) => t.activityUpd
      | (true, t) => (act t p).activityUpd

/-- A packet for a FROZEN or MIGRATING account is refused; duplicates of completed messages are still answered (09 R361). -/
def State.unlessRefusing (s : State) (p : Packet) (done : State → FilterEnt → State) (act : State → State) : State :=
  let h := p.hdr
  if !s.refusing h.dstAcct then act s
  else
    match (if h.opcode = 2 then .fresh else s.dupSort h) with
    | .done f => done s f
    | _ => s.refuse h

/-- Writes a packet's payload under its key (05 R188, R194, R200): none while the host bus must be waited for; else the status,
what was last written, and the key's counter. -/
def State.keyWrite (s : State) (p : Packet) (hv : HostView) : Option (Nat × Option HostAddr × Option Nat) × State :=
  let h := p.hdr; let n := epHl h.dstEp
  match s.keyFind h hv with
  | (.wait, s) => (none, s)
  | (.bad, s) => (some (stKEY_INVALID, none, none), s.bump TLR_CNT_KEY_FAULT.ev)
  | (.ok e, s) =>
    let ctr := if e.ctrEn then some e.counter else none
    let st := keyCheck e h.w5 h.length 1
    if st ≠ 0 then (some (st, none, ctr), s.bump TLR_CNT_KEY_FAULT.ev)
    else if h.length = 0 then (some (if h.poison then stHOST_ERROR else 0, none, ctr), s)
    else
      let addr := (e.base + h.w5) % 2 ^ 64; let fn := s.aFn e.account
      match s.gate n fn (s.keyPasid e) [(addr, h.length, true)] with
      | (.wait, s) => (none, s)
      | (.fail, s) => (some (stHOST_ERROR, none, ctr), s)
      | (.go, s) =>
        let s := s.post n fn (s.keyPasid e) addr p.data h.poison
        (some (if h.poison then stHOST_ERROR else 0, s.lastWrite n, ctr), s)

/-- A PUT packet that starts a message or that its open message accepts. -/
def State.putAccept (s : State) (p : Packet) (hv : HostView) (fresh : Bool) : State :=
  let h := p.hdr
  match s.keyWrite p hv with
  | (none, s) => s.putBack p
  | (some (st, w, ctr), s) =>
    let s := if fresh then s.openMsg h else s
    let s := (s.enterPkt h st w).modOpen h.srcEp h.msgId fun o => { o with ctr }
    s.msgCheck h.srcEp h.msgId fun s _ => s

/-- PUT_PACKET_RECEIVE (05 R165 to R170, R179, R188). -/
def execPutPacketReceive (hv : HostView) (s : State) : Host.Outcome State Fault Refusal :=
  .next (s.withPkt 1 fun s p =>
    let done (s : State) (f : FilterEnt) : State := s.receiptAgain p.hdr f
    s.unlessRefusing p done fun s => s.dupHandle p.hdr (fun s => s.putAccept p hv false) (fun s => s.putAccept p hv true) done)

/-- A GET_RESP to a GET_REQ: packet `i`, with a status and data (02 R44; 05 R190). -/
def State.getResp (s : State) (h : Header) (i : Nat) (last : Bool) (status : Nat) (data : List Byte) (poison : Bool) : State :=
  s.injectDrop (mkPkt { opcode := 0x03, last, poison, length := data.length, charter := bf h.w6 40 16, dstAcct := h.srcAcct, dstEp := h.srcEp,
                        srcEp := h.dstEp, srcAcct := h.dstAcct, msgId := h.msgId, pktIndex := i, srcGen := h.srcGen,
                        w5 := 4096 * i % 2 ^ 40, w6 := status } data)

/-- A zero-length get is the FIN of a rendezvous SEND that this device has outstanding (06 R235). -/
def State.finServe (s : State) (h : Header) : State :=
  match s.entries.find? fun e => e.kind == .rndv && e.acct == h.dstAcct && e.key == h.key && e.src == h.srcEp
      && (h.w5 == e.buf || h.w5 == (e.buf + 1) % 2 ^ 64) with
  | some e => (s.rndvEnd e (if h.w5 = e.buf then 0 else stPULL_FAILED)).bump LDG_CNT_FIN.ev
  | none => s

/-- GET_REQ_SERVE: the target reads its host memory and sends the run's packets; it keeps no state (05 R190). -/
def execGetReqServe (hv : HostView) (s : State) : Host.Outcome State Fault Refusal :=
  .next (s.withPkt 2 fun s p =>
    s.unlessRefusing p (fun s _ => s) fun s =>
      let h := p.hdr; let n := epHl h.dstEp; let len := h.w6 % 2 ^ 40; let f := h.pktIndex
      let fail (s : State) (st : Nat) : State := s.getResp h f true st [] false
      match s.keyFind h hv with
      | (.wait, s) => s.putBack p
      | (.bad, s) => fail ((if len = 0 then s.finServe h else s).bump TLR_CNT_KEY_FAULT.ev) stKEY_INVALID
      | (.ok e, s) =>
        let st := keyCheck e h.w5 len 0
        let addr := (e.base + h.w5) % 2 ^ 64
        match s.gate n (s.aFn e.account) (s.keyPasid e) (if st = 0 then [(addr, len, false)] else []) hv with
        | (.wait, s) => s.putBack p
        | (g, s) =>
          let s := if len = 0 then s.finServe h else s
          if st ≠ 0 then fail (s.bump TLR_CNT_KEY_FAULT.ev) st
          else if g = .fail then fail s stHOST_ERROR
          else
            let k := nPktsOf len
            match hostRead hv addr len with
            | none => fail s stHOST_ERROR
            | some _ =>
              (List.range k).foldl (fun s j =>
                match hostRead hv (addr + 4096 * j) (pktLen len j) with
                | some (d, poi) => s.getResp h (f + j) (decide (j + 1 = k)) 0 d poi
                | none => s) s)

/-! ### Responses at the source -/

/-- An accepted packet of a get is written (05 R191, R192, R198; 06 R228). -/
def State.getWrite (s : State) (p : Packet) (m : SrcMsg) : State :=
  let h := p.hdr; let i := h.pktIndex; let a := m.ev.acct
  let enter (s : State) : State :=
    let s := s.modSrc m.id fun m =>
      let bits := addMem m.gBits i
      let b := advance bits bits.length m.gBase
      { m with gBits := bits.filter (fun j => decide (b ≤ j)), gBase := b, status := if h.poison ∧ m.status = 0 then stHOST_ERROR else m.status,
               data := if m.kind == .aptLoad then p.data else m.data }
    match s.srcMsg m.id with
    | some m => if m.nPkts ≤ m.gBase then s.msgEnd m m.status none else s
    | none => s
  if m.kind == .aptLoad ∨ m.kind == .fin ∨ h.length = 0 then enter s
  else
    let (parts, inRange) := m.pat.iova (4096 * i) (min h.length (pktLen m.total i))
    match s.gate m.hl (s.aFn a) (s.aPasid a) (accsOf parts true) with
    | (.wait, s) => s.putBack p
    | (.fail, s) => s.msgFail m stHOST_ERROR
    | (.go, s) =>
      let s := s.scatter m.hl (s.aFn a) (s.aPasid a) parts p.data h.poison
      if inRange then enter s else s.msgFail m stADDRESS

/-- GET_RESP_RECEIVE (05 R191, R192). -/
def execGetRespReceive (_hv : HostView) (s : State) : Host.Outcome State Fault Refusal :=
  .next (s.withPkt 3 fun s p =>
    let h := p.hdr
    match s.srcById (epHl h.dstEp) h.msgId with
    | none => s.bump TPT_CNT_LATE.ev
    | some m =>
      if !m.isGet ∨ h.srcGen ≠ s.aGen m.ev.acct ∨ m.ev.gen ≠ s.aGen m.ev.acct then s.bump TPT_CNT_LATE.ev
      else if h.w6 % 256 ≠ 0 then s.msgEnd m (h.w6 % 256) none
      else
        match m.runs.find? fun (j, _, _) => j == h.msgId with
        | none => s.bump TPT_CNT_LATE.ev
        | some (_, f, e) =>
          if h.pktIndex < f ∨ e ≤ h.pktIndex then s.bump TPT_CNT_LATE.ev
          else if h.pktIndex < m.gBase ∨ m.gBits.contains h.pktIndex then s.bump TPT_CNT_DUP_OPEN.ev
          else s.getWrite p m)

/-- ATOMIC_RESP_RECEIVE (05 R184, R193, R196). -/
def execAtomicRespReceive (s : State) : Host.Outcome State Fault Refusal :=
  .next (s.withPkt 5 fun s p =>
    let h := p.hdr
    match s.srcById (epHl h.dstEp) h.msgId with
    | none => s.bump TPT_CNT_LATE.ev
    | some m =>
      let a := m.ev.acct; let d := m.desc
      if !s.respFits m h then s.bump TPT_CNT_LATE.ev
      else
        let st := h.w6 % 256; let prior := natOf p.data
        let aop := dw d 5 16 4; let sz := atomicSize (dw d 5 20 2)
        let wr := st = 0 ∧ (aop = 1 ∨ aop = 2 ∨ aop = 3 ∨ dw d 1 24 1 = 1)
        match s.gate m.hl (s.aFn a) (s.aPasid a) (if wr then [(dw d 3 0 64, sz, true)] else []) with
        | (.wait, s) => s.putBack p
        | (g, s) =>
          let s := s.ctxSample (ctxOf m.dst.endpoint) ((p.came : Int) - m.sentAt)
          let s := if wr ∧ g = .go then s.post m.hl (s.aFn a) (s.aPasid a) (dw d 3 0 64) (bytesOf sz prior) false else s
          s.msgEnd m (if g = .fail then stHOST_ERROR else st) (some prior))

/-! ### Atomics at the target (05 R193 to R197) -/

/-- The value an atomic leaves: prior value and operands at the operand size; none where IEEE 754 makes it a NaN. -/
def atomicNew (aop aty : Nat) (sg : Bool) (prior a b : Nat) : Option Nat :=
  let w := 8 * atomicSize aty; let m := 2 ^ w
  let lt (x y : Nat) : Bool := if sg then decide (sext w x < sext w y) else decide (x < y)
  match aop with
  | 0 | 1 =>
    if aty < 2 then some ((prior + a) % m)
    else match fmtOf (if aty = 2 then 0xC else 0xD) with | some f => f.addQ prior (a % m) | none => none
  | 2 => some (a % m)
  | 3 => some (if prior = b % m then a % m else prior)
  | 4 => some (if lt (a % m) prior then a % m else prior)
  | 5 => some (if lt prior (a % m) then a % m else prior)
  | 6 => some (prior &&& a % m)
  | 7 => some (prior ||| a % m)
  | _ => some (prior ^^^ a % m)

/-- A quiet NaN whose sign and payload are a free value (05 R193). -/
def State.freeNan (s : State) (aty : Nat) : Nat × State :=
  let w := 8 * atomicSize aty
  let (r, s) := s.free w
  (r ||| (if w = 32 then 0x7FC00000 else 0x7FF8000000000000), s)

/-- Where a message's bucket of the host receipt book of a host link lies (05 R197). -/
def State.bookAddr (s : State) (n src msgId : Nat) : Nat :=
  let k := min 24 (s.get (TLR_RBOOK_SIZE.log2_buckets n))
  s.get (TLR_RBOOK_BASE.base n) / 64 * 64 + 64 * ((msgId ^^^ (src * 512)) % 2 ^ k)

/-- The accesses that the next entry of the on-chip book makes when it finds the book full. -/
def State.bookAccs (s : State) : List (Nat × Nat × Bool) :=
  if s.book.length < 16384 then []
  else match s.book.getLast? with
    | some b => if s.on (TLR_RBOOK_SIZE.enable b.hl) then [(s.bookAddr b.hl b.src b.msgId, 64, false), (s.bookAddr b.hl b.src b.msgId, 64, true)] else []
    | none => []

/-- Whether the oldest entry of a full book may be written back now. -/
def State.bookGate (s : State) (hv : HostView) : Gate × State :=
  match s.book.getLast? with
  | some b => s.gate b.hl (s.aFn b.acct) (s.aPasid b.acct) s.bookAccs hv
  | none => (.go, s)

/-- Writes the oldest on-chip book entry to the host receipt book of its host link (05 R197). -/
def State.bookEvict (s : State) (hv : HostView) : State :=
  match s.book.getLast? with
  | none => s
  | some b =>
    let s := { s with book := s.book.dropLast }
    if !s.on (TLR_RBOOK_SIZE.enable b.hl) then s.bump TLR_CNT_BOOK_OVER.ev
    else
      let addr := s.bookAddr b.hl b.src b.msgId
      let stamp (n : Nat) : Nat := bf n 96 32
      let age (n : Nat) : Nat := subMod m32 (bf s.stamp 12 32) (stamp n)
      let live (n : Nat) : Bool := bit n 23 && decide (age n * 1024 ≤ max 1000 (s.get TPT_FILTER.time_us) * 1000)
      match hostNat hv addr 32, hostNat hv (addr + 32) 32 with
      | some x, some y =>
        let (slot, lost) := if !bit x 23 then (0, false) else if !bit y 23 then (1, false) else if !live x then (0, false)
          else if !live y then (1, false) else (if age x ≥ age y then 0 else 1, true)
        let data := bytesOf 8 (b.src + 2 ^ 23 + b.status * 2 ^ 24 + b.msgId * m32) ++ bytesOf 8 (b.nonce + bf b.atT 12 32 * m32)
          ++ bytesOf 8 b.prior ++ bytesOf 8 0
        let s := if lost then s.bump TLR_CNT_BOOK_OVER.ev else s
        s.postHeld b.hl { fn := s.aFn b.acct, pasid := s.aPasid b.acct, addr := addr + 32 * slot, data }
      | _, _ => s.bump TLR_CNT_BOOK_OVER.ev

/-- Records an atomic's answer (05 R170, R195) and sends it. -/
def State.atomicDone (s : State) (h : Header) (hv : HostView) (status prior : Nat) : State :=
  let s := (s.filterReserve h.srcEp h.msgId h.dstAcct true).filterFill h.srcEp h.msgId status
  let b : BookEnt := { src := h.srcEp, msgId := h.msgId, nonce := bf h.w6 32 32, status, prior, hl := epHl h.dstEp, acct := h.dstAcct, atT := s.stamp }
  let s := if s.book.length ≥ 16384 then s.bookEvict hv else s
  (State.atomicResp { s with book := b :: s.book } h status prior)

/-- Answers a duplicate ATOMIC_REQ from the receipt book, on chip or in the host's (05 R195). -/
def State.atomicAgain (s : State) (p : Packet) (hv : HostView) : State :=
  let h := p.hdr; let n := epHl h.dstEp; let nonce := bf h.w6 32 32
  let answer (s : State) (bn st prior : Nat) : State :=
    if bn = nonce then (s.atomicResp h st prior).bump TLR_CNT_BOOK_HIT.ev
    else (s.bump TLR_CNT_BOOK_MISS.ev).raise kNONCE_MISMATCH (srcOf 0x23 n) (acctAddr h.dstAcct) 0
  match s.book.find? fun b => b.src == h.srcEp && b.msgId == h.msgId with
  | some b => answer (s.bump TPT_CNT_DUP_DONE.ev) b.nonce b.status b.prior
  | none =>
    let addr := s.bookAddr n h.srcEp h.msgId
    let on := s.on (TLR_RBOOK_SIZE.enable n)
    match s.gate n (s.aFn h.dstAcct) (s.aPasid h.dstAcct) (if on then [(addr, 64, false)] else []) hv with
    | (.wait, s) => s.putBack p
    | (g, s) =>
      let s := s.bump TPT_CNT_DUP_DONE.ev
      let slots := if on ∧ g = .go then [hostNat hv addr 32, hostNat hv (addr + 32) 32] else []
      match (slots.filterMap id).find? fun x => bit x 23 && bf x 0 23 == h.srcEp && bf x 32 32 == h.msgId with
      | some x => answer s (bf x 64 32) (bf x 24 8) (bf x 128 64)
      | none => (s.bump TLR_CNT_BOOK_MISS.ev).raise kBOOK_MISS (srcOf 0x23 n) (acctAddr h.dstAcct) 0

/-- Executes a new atomic (05 R193, R194). -/
def State.atomicRun (s : State) (p : Packet) (hv : HostView) : State :=
  let h := p.hdr; let n := epHl h.dstEp
  let aop := h.w6 % 16; let aty := bf h.w6 4 2; let sz := atomicSize aty
  let refuse (s : State) (st : Nat) : State :=
    let (v, s) := s.free 64
    s.atomicDone h hv st v
  match s.bookGate hv with
  | (.wait, s) => s.putBack p
  | (_, s) =>
  match s.keyFind h hv with
  | (.wait, s) => s.putBack p
  | (.bad, s) => refuse (s.bump TLR_CNT_KEY_FAULT.ev) stKEY_INVALID
  | (.ok e, s) =>
    let st := keyCheck e h.w5 sz 2
    let addr := (e.base + h.w5) % 2 ^ 64; let fn := s.aFn e.account
    if st ≠ 0 then refuse (s.bump TLR_CNT_KEY_FAULT.ev) st
    else
      match s.gate n fn (s.keyPasid e) [(addr, sz, false), (addr, sz, true)] hv with
      | (.wait, s) => s.putBack p
      | (.fail, s) => refuse s stHOST_ERROR
      | (.go, s) =>
        match hostNat hv addr sz with
        | none => refuse s stHOST_ERROR
        | some prior =>
          let a := leAt p.data 0 8; let b := leAt p.data 8 8
          let (v, s) := match atomicNew aop aty (bit h.w6 6) prior a b with | some v => (v, s) | none => s.freeNan aty
          let s :=
            if s.on TLR_ATOMIC_CFG.use_pcie ∧ aop < 4 ∧ aty < 2 then
              let (host, _, s) := s.tlpAddr n fn (s.keyPasid e) addr
              s.emit (.hostAtomic n fn (s.keyPasid e) ((s.nextTag n fn).getD 0) host aop sz a b)
            else s.post n fn (s.keyPasid e) addr (bytesOf sz v) false
          let s := if e.ctrEn then s.ctrRaise e.counter else s  -- R206
          (s.bump TLR_CNT_ATOMIC.ev).atomicDone h hv 0 prior

/-- ATOMIC_REQ_RECEIVE (05 R179, R193 to R195). -/
def execAtomicReqReceive (hv : HostView) (s : State) : Host.Outcome State Fault Refusal :=
  .next (s.withPkt 4 fun s p =>
    let done (s : State) (_ : FilterEnt) : State := s.atomicAgain p hv
    s.unlessRefusing p done fun s => s.dupHandle p.hdr (fun s => s.atomicRun p hv) (fun s => s.atomicRun p hv) done)

/-! ### Invalidations and counters (05 R201, R202, R208) -/

/-! ### The Aperture (05 R203 to R205; 08 R297) -/

/-- The window that an access to BAR4 of a function uses. -/
def aptWindow (fn off : Nat) : Nat := (if fn ≥ 2 then 4 * (fn - 1) else 0) + off / 2 ^ 30

/-- Whether a window serves a function's accesses. -/
def State.aptValid (s : State) (n fn w : Nat) : Bool :=
  let a := s.get (TLR_APT_WIN0.account n w)
  decide (w < 1024) && s.on (TLR_APT_WIN0.valid n w) && s.aSt a != aREMOVED && s.aHl a == n && s.aFn a == fn

/-- The rank of a waiting access has been translated: it goes on, or fails. -/
def State.aptRanked (x : AptWait) : Nat × RankEntry × State → State
  | (0, e, s) => State.serveAll { s with aptWaits := modFirst (·.num == x.num) (fun w => { w with dst := some e, reading := false }) s.aptWaits }
  | (_, _, s) =>
    let s := State.aptFault { s with aptWaits := s.aptWaits.filter (·.num != x.num) } x.hl x.win x.acct x.store.isSome
    if x.store.isSome then s else s.cplErr x.hl x.fn cplCA

/-- The same when the rank-table read returns, or fails. What was read before an invalidation serves the access that read it and is not
kept (02 R65, R66; DEDUCED, log entry 125). -/
def State.aptRankRead (s : State) (num : Nat) (data : Option (List Byte)) : State :=
  match s.aptWaits.find? (·.num == num) with
  | some x =>
    let addr := s.get (ACC_RANK_BASE.base x.acct) / 4096 * 4096 + 8 * x.rank
    let (st, e, t) := s.rankXlate x.acct x.rank (match data with | some d => [{ addr, data := d, poison := false }] | none => [])
    State.aptRanked x (st, e, if x.stale then { t with rankCache := s.rankCache } else t)
  | none => s

/-- An access to a valid window, as the window is now: its rank is translated, and it goes on or waits; a translation that fails fails
it (05 R203). -/
def State.aptGo (s : State) (n fn off : Nat) (len tag : Nat) (store : Option (List Byte)) (hv : HostView) : State :=
  let w := aptWindow fn off
  let a := s.get (TLR_APT_WIN0.account n w)
  let rank := s.get (TLR_APT_WIN0.rank n w)
  let (num, s) := s.newId
  let x : AptWait := { hl := n, win := w, tag, off := (s.get (TLR_APT_WIN2.offset n w) + off % 2 ^ 30) % 2 ^ 64, len, store, num, fn, acct := a,
                       gen := s.aGen a, rank, key := s.get (TLR_APT_WIN1.key n w), visible := s.on (TLR_APT_WIN0.visible n w) }
  let s := { s with aptWaits := s.aptWaits ++ [x] }
  match s.gate n fn (s.aPasid a) (s.rankAccs a rank) hv with
  | (.wait, s) => s.modAcct a fun x => { x with held := true }
  | (g, s) => State.aptRanked x (s.rankXlate a rank (if g = .go then hv else []))

/-- The accesses of a host link whose rank is still to be translated read the rank table where they may now. -/
def State.aptKick (s : State) (n : Nat) : State :=
  (s.aptWaits.filter fun x => x.hl == n && x.dst.isNone && !x.reading).foldl (fun s x =>
    let accs := s.rankAccs x.acct x.rank
    match s.gate n x.fn (s.aPasid x.acct) accs with
    | (.wait, s) => s
    | (.fail, s) => State.aptRanked x (s.rankXlate x.acct x.rank [])
    | (.go, s) =>
      match accs with
      | [] => State.aptRanked x (s.rankXlate x.acct x.rank [])
      | (addr, _, _) :: _ =>
        match s.takeTag n x.fn (some x.acct) (.aptRank x.num) with
        | (some t, s) =>
          State.readTlp { s with aptWaits := modFirst (·.num == x.num) (fun w => { w with reading := true }) s.aptWaits } n x.fn
            (s.aPasid x.acct) t addr 8 0
        | (none, s) => s) s

/-- APERTURE_LOAD: a BAR4 read becomes a GET. -/
def execApertureLoad (n : HostLink) (fn : FnNo) (off : BitVec 64) (len : BitVec 13) (tag : Nat) (hv : HostView) (s : State) :
    Host.Outcome State Fault Refusal :=
  let w := aptWindow fn.toNat off.toNat
  .next (if !s.memOn n.val fn.toNat then s.memUr n.val fn.toNat false
    else if !s.aptValid n.val fn.toNat w then s.cplErr n.val fn.toNat cplUR
    else (s.aptGo n.val fn.toNat off.toNat len.toNat tag none hv).activityUpd)

/-- APERTURE_STORE: a BAR4 write becomes a one-packet PUT. -/
def execApertureStore (n : HostLink) (fn : FnNo) (off : BitVec 64) (data : Bytes) (hv : HostView) (s : State) :
    Host.Outcome State Fault Refusal :=
  let w := aptWindow fn.toNat off.toNat
  .next (if !s.memOn n.val fn.toNat then s.memUr n.val fn.toNat true
    else if !s.aptValid n.val fn.toNat w then s.aptFault n.val (w % 1024) (s.get (TLR_APT_WIN0.account n.val (w % 1024))) true
    else (s.aptGo n.val fn.toNat off.toNat data.length 0 (some data) hv).activityUpd)

/-- APERTURE_TIMEOUT: a load without data for timeout_us is answered Completer Abort (05 R204). -/
def execApertureTimeout (n : HostLink) (tag : Nat) (s : State) : Host.Outcome State Fault Refusal :=
  .next (match s.aptWaits.find? fun w => w.hl == n.val && w.tag == tag && w.store.isNone with
    | some w => (State.aptFault { s with aptWaits := s.aptWaits.filter (·.num != w.num) } w.hl w.win w.acct false).cplErr w.hl w.fn cplCA
    | none =>
      match s.srcMsgs.find? fun m => m.hl == n.val && m.kind == .aptLoad && m.aptTag == tag with
      | some m => if s.answered m then s else (s.msgFail m stTIMEOUT).activityUpd
      | none => s)

/-! ### Invalidation registers (05 R201, R202) -/

/-- A write of TLR_KEY_INVAL: with go = 1 it invalidates keys and asks for a flush read on each host link concerned. One in progress
refuses the next (05 R201, R202). -/
def State.keyInval (s : State) (w : Nat) : State :=
  if s.get TLR_KEY_INVAL.done = 0 then s.raise kINVAL_BUSY (srcOf 0x23 0) TLR_KEY_INVAL.reg.addr 0
  else
    let sc := bf w 32 2; let n := bf w 19 3; let i := bf w 0 19
    let s := (s.set TLR_KEY_INVAL.key (bf w 0 32)).set TLR_KEY_INVAL.scope (if sc = 3 then 0 else sc)
    if !bit w 62 then s
    else
      let hit (m j : Nat) : Bool := if sc = 2 then true else if sc = 1 then m == n else m == n && j == i
      let s := { s with keyCache := s.keyCache.filter fun (m, j, _) => !hit m j }
      let ts := (s.presentHls.filter fun m => sc == 2 || m == n).filterMap s.lastWrite
      if ts = [] then s
      else ts.foldl (fun s t => s.flushAsk t none .keyInval) (s.set TLR_KEY_INVAL.done 0)

/-- A write of TLR_RANK_INVAL: with go = 1 it invalidates cached ranks, at once (05 R202), and a fill of the cache under way is discarded
(02 R66). -/
def State.rankInval (s : State) (w : Nat) : State :=
  let r := bf w 0 24; let a := bf w 24 14; let all := bit w 40
  let s := ((s.set TLR_RANK_INVAL.rank r).set TLR_RANK_INVAL.account a).setB TLR_RANK_INVAL.all all
  if bit w 62 then
    { s with rankCache := s.rankCache.filter (fun (b, q, _) => !(b == a && (all || q == r))),
             aptWaits := s.aptWaits.map fun x => if x.reading ∧ x.acct = a ∧ (all ∨ x.rank = r) then { x with stale := true } else x }
  else s

end Sys2Proof.Machine
end

