-- ==== Sys2Proof/Machine/Ledger.lean ====
section
/-!
DEFINITION. Machine/Ledger.lean: Ledger's commands: SEND and RECV descriptors in all their forms, arriving headers, order
fills, copies, spilling, and the context registers (06 R212 to R245).
-/
namespace Sys2Proof.Machine

/-! ### SEND (06 R222 to R224, R227, R232, R242, R243) -/

/-- The device context that a SEND or RECV names. -/
def State.descCtx (s : State) (a : Nat) (d : Desc) : Option Nat := s.devCtx a (dw d 4 40 6)

/-- The checks of 06 Table 6.6 for a SEND: status, destination, local side. A rank beyond the order table has no entry
there: RANK_RANGE. -/
def State.sendCheck (s : State) (a : Nat) (d : Desc) (hv : HostView) (failed : Bool) : Nat × RankEntry × Pattern × State :=
  let rank := dw d 1 0 24
  match s.descCtx a d with
  | none => (stCONTEXT, {}, {}, s)
  | some k =>
    match s.rankXlate a rank (s.hvIf a failed (s.rankAccs a rank) hv) with
    | (0, e, s) =>
      if s.ctrBad a d then (stCOUNTER, e, {}, s)
      else
        let (st, p) := localSide d (s.hvIf a failed (patAccs d 25 3) hv)
        if st ≠ 0 then (st, e, p, s)
        else if dw d 1 25 1 = 1 ∧ s.eagerLimit k < dw d 4 0 40 then (stLENGTH, e, p, s)
        else if s.get (LDG_CTX2.rank_count k) ≤ rank then (stRANK_RANGE, e, p, s)
        else (0, e, p, s)
    | (st, e, s) => (st, e, {}, s)

/-- Whether a SEND waits for its order entry, for fewer outstanding, or for a source entry (06 R223, R224; 05 R161). -/
def State.sendLater (s : State) (d : Desc) (k : Nat) : Bool :=
  match s.ordFind k (dw d 1 0 24) with
  | none => true
  | some o => s.srcFull || decide (o.outstanding ≥ 64)

/-- Whether a SEND that has passed its checks must wait (06 R223, R224, R232; 05 R161). -/
def State.sendHolds (s : State) (a : Nat) (d : Desc) : Bool :=
  match s.descCtx a d with
  | none => false
  | some k => s.sendLater d k || (decide (s.eagerLimit k < dw d 4 0 40) && s.entryRoom k true != 0)

/-- What a SEND does once consumed. -/
def State.sendDo (s : State) (a : Nat) (hv : HostView) (d : Desc) (ev : EvtInfo) (failed : Bool) : State :=
  let ev := { ev with ctr := ctrOf d }
  match s.sendCheck a d hv failed with
  | (0, e, p, s) =>
    let k := (s.descCtx a d).getD 0; let rank := dw d 1 0 24; let len := dw d 4 0 40
    let o := (s.ordFind k rank).getD {}
    let s := s.ordSet k rank { o with nextSend := (o.nextSend + 1) % 65536, outstanding := o.outstanding + 1 }
    let rndv := decide (s.eagerLimit k < len)
    let (m, s) := s.openSrc { hl := s.aHl a, kind := if rndv then .rts else .eager, ev, desc := d, dst := e, total := len, key := dw d 1 32 32,
                              roff := dw d 7 0 64, pat := p, visible := dw d 1 24 1 == 1, rank, ctx := k, seqNo := o.nextSend,
                              ownRank := s.get (LDG_CTX0.own_rank k) }
    if rndv then
      let (num, s) := s.newId
      (s.entryNeed k true).addEntry { num, kind := .rndv, ctx := k, rank, key := m.key, msgId := m.msgId, src := e.endpoint, buf := m.roff, len, acct := a, ev }
    else s
  | (st, _, _, s) => s.failDesc ev evSEND_DONE st

/-- Asks for the order entry that the SEND at the head of a source needs; true when its read cannot be made. -/
def State.sendAsk (s : State) (a : Nat) (src : Source) (hv : HostView) : Bool × State :=
  match s.head a src with
  | some (d, _, _) =>
    match s.descCtx a d with
    | some k =>
      if descType d = 4 ∧ s.sourceOpen a src ∧ (s.ordFind k (dw d 1 0 24)).isNone ∧ (s.sendCheck a d hv false).1 = 0 then
        let (ok, s) := s.ordAsk a k (dw d 1 0 24)
        (!ok, s)
      else (false, s)
    | none => (false, s)
  | none => (false, s)

/-- A descriptor at the head of a source that has passed its checks and needs an entry while none is free makes the spill engine spill a
context (06 R239). -/
def State.headNeed (s : State) (a : Nat) (src : Source) (ty : Nat) (needs : Desc → Nat → Bool) (rndv : Bool) : State :=
  match s.head a src with
  | some (d, _, _) =>
    match s.descCtx a d with
    | some k => if descType d = ty ∧ s.sourceOpen a src ∧ s.ldgFree = 0 ∧ needs d k then s.entryNeed k rndv else s
    | none => s
  | none => s

/-- SEND. -/
def execSend (a : AcctNo) (src : Source) (hv : HostView) (s : State) : Host.Outcome State Fault Refusal :=
  .next (
    let (bad, s) := s.sendAsk a src hv
    let s := s.headNeed a src 4 (fun d k => decide (s.eagerLimit k < dw d 4 0 40) && !s.sendLater d k && (s.sendCheck a d hv false).1 == 0) true
    s.withDescHost a src 4 (fun s d => !bad && (s.sendCheck a d hv false).1 == 0 && s.sendHolds a d)
      (fun s d => s.rankAccs a (dw d 1 0 24) ++ patAccs d 25 3) hv
      fun s d ev f => if bad then s.failDesc ev evSEND_DONE stHOST_ERROR else s.sendDo a hv d ev f)

/-! ### RECV (06 R219, R220, R228, R230, R233, R236 to R238, R242, R243) -/

/-- ovf, probe and cancel of a RECV. -/
def recvFlags (d : Desc) : Nat := dw d 1 27 3

/-- The RECV as an entry; its number and post sequence are given when it is taken. -/
def State.recvEntry (_s : State) (a k : Nat) (d : Desc) (p : Pattern) (ev : EvtInfo) : LEntry :=
  { kind := .posted, ctx := k, mbits := dw d 2 0 64, ignore := dw d 7 0 64, rank := dw d 1 0 24, anySource := dw d 1 24 1 == 1,
    buf := dw d 3 0 64, len := dw d 4 0 40, pattern := dw d 1 25 1 == 1, pat := p, acct := a, ev }

/-- The UNEXP entry that a RECV would match now. -/
def State.recvHit (s : State) (a : Nat) (d : Desc) : Option LEntry :=
  match s.descCtx a d with | some k => s.unexpFor (s.recvEntry a k d {} {}) | none => none

/-- The checks of 06 Table 6.6 for a RECV; with ovf, probe or cancel set only the words they name are used. -/
def State.recvCheck (s : State) (a : Nat) (d : Desc) (hv : HostView) (failed : Bool) : Nat × Pattern :=
  match s.descCtx a d with
  | none => (stCONTEXT, {})
  | some _ =>
    let fl := recvFlags d
    if fl = 0 then
      if s.ctrBad a d then (stCOUNTER, {}) else localSide d (s.hvIf a failed (patAccs d 25 3) hv)
    else if fl ≠ 1 ∧ fl ≠ 2 ∧ fl ≠ 4 then (stBAD_DESC, {})
    else if fl = 1 ∧ ¬ (dw d 3 0 64 % 64 = 0 ∧ dw d 4 0 40 % 64 = 0 ∧ 64 ≤ dw d 4 0 40 ∧ dw d 4 0 40 ≤ m32) then (stLENGTH, {})
    else (0, {})

/-- Whether a RECV waits for its context, for a header ahead of it, or for older posts (06 R219, R221, R240). -/
def State.recvLater (s : State) (d : Desc) (k : Nat) : Bool :=
  s.ctxMoving k || (s.ctx k).stuck ||
    (recvFlags d == 0 && s.entries.any (fun e => e.ctx == k && e.kind == .posted)
      && decide (2 ^ 31 ≤ subMod m32 (s.get (LDG_CTX6.next_post k) + 1) (s.get (LDG_CTX6.oldest_post k))))

/-- Whether a RECV that has passed its checks must wait (06 R219, R221, R239, R240). -/
def State.recvHolds (s : State) (a : Nat) (d : Desc) : Bool :=
  match s.descCtx a d with
  | none => false
  | some k => s.recvLater d k || (recvFlags d == 0 && (s.recvHit a d).isNone && s.entryRoom k false == 1)

/-- A row of RECV: `fits` says which flags it takes. -/
def State.recvRow (s : State) (a : Nat) (src : Source) (hv : HostView) (fits : Nat → Bool) (act : State → Nat → Desc → EvtInfo → Pattern → State) : State :=
  s.withDescHost a src 5 (fun s d => !fits (recvFlags d) || ((s.recvCheck a d hv false).1 == 0 && s.recvHolds a d))
    (fun s d => (if recvFlags d = 0 then patAccs d 25 3 else [])
      ++ (match s.recvHit a d with | some h => if h.rts && recvFlags d == 0 then s.rankAccs a h.rank else [] | none => [])
      ++ (match s.descCtx a d with | some k => s.spillAccs k | none => [])) hv
    fun s d ev f =>
      let ev := { ev with ctr := if recvFlags d = 0 then ctrOf d else none }
      match s.recvCheck a d hv f, s.descCtx a d with
      | (0, p), some k => act (s.ldgOp k) k d ev p
      | (st, _), _ => s.recvNone { ev with ctr := none } (if recvFlags d = 2 then evPROBE else evRECV_DONE) st

/-- RECV: takes an UNEXP message or becomes a POSTED entry. -/
def execRecv (a : AcctNo) (src : Source) (hv : HostView) (s : State) : Host.Outcome State Fault Refusal :=
  .next ((s.headNeed a src 5 (fun d k => recvFlags d == 0 && (s.recvHit a d).isNone && !s.recvLater d k
      && (s.recvCheck a d hv false).1 == 0) false).recvRow a src hv (fun f => f != 1 && f != 2 && f != 4) fun s k d ev p =>
    let (num, s) := s.newId
    let seq := s.get (LDG_CTX6.next_post k)
    let r := { s.recvEntry a k d p ev with num, seqNo := seq }
    let s := s.set (LDG_CTX6.next_post k) ((seq + 1) % m32)
    match s.unexpFor r with
    | some h =>
      let s := (s.delEntry h.num).bump LDG_CNT_MATCH.ev
      if h.rts then s.pullFor r h hv else { s with lmatches := s.lmatches ++ [{ num := h.num, recv := r, hdr := h, mode := 1 }] }
    | none =>
      if s.entryRoom k false = 2 then (s.spillFull k).recvNone { ev with ctr := none } evRECV_DONE stRESOURCE
      else (s.entryNeed k false).addEntry r)

/-- RECV_PROBE (06 R236). -/
def execRecvProbe (a : AcctNo) (src : Source) (s : State) : Host.Outcome State Fault Refusal :=
  .next (s.recvRow a src [] (· == 2) fun s k d ev p =>
    match s.unexpFor (s.recvEntry a k d p ev) with
    | some h => s.complete ev evPROBE 0 h.rank h.mbits h.len false
    | none => s.recvNone ev evPROBE stNOT_FOUND)

/-- RECV_CANCEL (06 R237): the cancelled entry's event carries its own rank and match bits, and a free value as length. -/
def execRecvCancel (a : AcctNo) (src : Source) (s : State) : Host.Outcome State Fault Refusal :=
  .next (s.recvRow a src [] (· == 4) fun s k _ ev _ =>
    match s.entries.find? fun e => e.ctx == k && e.kind == .posted && e.ev.cookie == ev.cookie with
    | some e =>
      let (n, s) := s.free 40
      ((s.delEntry e.num).recvDone e stCANCELLED e.rank e.mbits n).completeQuiet ev
    | none => s.recvNone ev evRECV_DONE stNOT_FOUND)

/-- RECV_OVF (06 R238). -/
def execRecvOvf (a : AcctNo) (src : Source) (s : State) : Host.Outcome State Fault Refusal :=
  .next (s.recvRow a src [] (· == 1) fun s k d ev _ =>
    if (s.ovfBufs.filter fun b => b.ctx == k && !b.retired).length ≥ 65535 then s.recvNone ev evRECV_DONE stRESOURCE
    else
      let (num, s) := s.newId
      let b : OvfBuf := { num, ctx := k, base := dw d 3 0 64, len := dw d 4 0 40, ev }
      (State.modCtx { s with ovfBufs := s.ovfBufs ++ [b] } k fun c => { c with ovfEmptySent := false }).ldgStat k)

/-! ### Arriving headers (06 R225 to R233) -/

/-- What Ledger makes of the first packet of a message. -/
inductive Admit where
  | gone                    -- discarded or refused
  | wait                    -- waits for the host bus
  | ok (num : Option Nat)   -- admitted: where its payload goes
  deriving DecidableEq, Repr

/-- The header of a SEND packet as an entry. -/
def hdrEntry (k : Nat) (p : Packet) : LEntry :=
  let h := p.hdr
  { kind := .unexp, ctx := k, mbits := h.w5, rank := h.w6 % 2 ^ 24, seqNo := bf h.w6 32 16, rts := h.opcode == 7, len := totalOf h,
    buf := if h.opcode = 7 then leAt p.data 0 8 else 0, key := h.key, msgId := h.msgId, src := h.srcEp, srcAcct := h.srcAcct,
    charter := h.charter, acct := h.dstAcct }

/-- Refuses a header for want of overflow space (06 R229). -/
def State.ovfRefuse (s : State) (h : Header) (k : Nat) : State :=
  let s := (s.refuse h).bump LDG_CNT_OVF_NAK.ev
  if (s.ctx k).ovfEmptySent then s
  else (s.modCtx k fun c => { c with ovfEmptySent := true }).notice { acct := h.dstAcct, kind := evOVF_EMPTY, id := s.ctxNum k }

/-- Stores a header that needs an entry, with its overflow reservation; `f` makes the entry. -/
def State.storeHdr (s : State) (h : Header) (e : LEntry) (keep : State → LEntry → State) : Admit × State :=
  let s := s.entryNeed e.ctx false
  match s.entryRoom e.ctx false with
  | 0 =>
    if e.rts ∨ e.len = 0 then (.ok (some e.num), keep s e)
    else
      match s.ovfReserve e.ctx ((e.len + 63) / 64 * 64) (s.ovfBufs.length + 1) with
      | (some (b, addr), s) => (.ok (some e.num), (keep s { e with ovf := some b, buf := addr }).ldgStat e.ctx)
      | (none, s) => (.gone, (s.ovfRefuse h e.ctx).ldgStat e.ctx)
  | 1 => (.gone, s.refuse h)
  | _ => (.gone, (s.spillFull e.ctx).refuse h)

/-- The sequence check and admission of the first packet of a message (06 R225, R226, R231). -/
def State.ledgerAdmit (s : State) (p : Packet) (hv : HostView) : Admit × State :=
  let h := p.hdr; let a := h.dstAcct
  match s.devCtx a (bf h.w6 24 6) with
  | none => (.gone, s.raise kLDG_NO_CTX srcLDG (acctAddr a) (bf h.w6 24 6))
  | some k =>
    let r := h.w6 % 2 ^ 24
    if h.opcode = 6 ∧ 16384 < totalOf h then (.gone, s.raise kLDG_EAGER_LONG srcLDG (acctAddr a) (bf h.w6 24 6))
    else if s.get (LDG_CTX2.rank_count k) ≤ r then (.gone, s.raise kLDG_RANK_RANGE srcLDG (acctAddr a) r)
    else if s.ctxMoving k then (.gone, s.refuse h)
    else
      match s.ordFind k r with
      | none =>
        match s.ordAsk a k r with
        | (true, s) => (.wait, s)
        | (false, s) => (.gone, s.refuse h)
      | some o =>
        let d := subMod 65536 (bf h.w6 32 16) o.expected
        if 32768 ≤ d ∨ (d < 64 ∧ 0 < d ∧ o.early.testBit d) then (.gone, s.bump LDG_CNT_DUP_SEQ.ev)
        else if 64 ≤ d then (.gone, (s.sendNak h.srcEp h.dstEp h.msgId h.pktIndex 2).bump LDG_CNT_ORDER.ev)
        else
          let (num, s) := s.newId
          let e := { hdrEntry k p with num }
          let pulls := decide (d = 0) && (e.rts || s.entries.any fun x => x.ctx == k && x.kind == .early && x.rank == r && x.rts)
          match s.gate (s.aHl a) (s.aFn a) (s.aPasid a) (s.spillAccs k ++ if pulls then s.rankAccs a r else []) hv with
          | (.wait, s) => (.wait, s)
          | (g, s) =>
            if 0 < d then
              s.storeHdr h { e with kind := .early } fun s e =>
                let (adm, s) := s.newAdm k
                ((s.addEntry { e with adm }).ordSet k r { o with early := orBit o.early d }).bump LDG_CNT_EARLY.ev
            else
              let hv := if g = .go then hv else []
              let admitted (s : State) (e : LEntry) : State :=
                let s := s.ordSet k r { o with expected := (o.expected + 1) % 65536, early := o.early / 2 }
                ((s.admitHdr e hv).2).releaseEarly k r hv 64
              match s.postedFor e with
              | some _ => (.ok (if e.rts then none else some num), admitted s e)
              | none => s.storeHdr h e admitted

/-- Writes a packet of an eager message where its payload goes: into the buffer of the RECV it matched, or into its overflow
reservation (06 R228, R229): none while the host bus must be waited for; else the status and the last write. -/
def State.eagerWrite (s : State) (p : Packet) (num : Option Nat) : Option (Nat × Option HostAddr) × State :=
  let h := p.hdr; let n := epHl h.dstEp; let off := 4096 * h.pktIndex; let fn := s.aFn h.dstAcct; let pas := s.aPasid h.dstAcct
  let write (s : State) (parts : List (Nat × Nat)) (fail : State → Nat → State) : Option (Nat × Option HostAddr) × State :=
    match s.gate n fn pas (accsOf parts true) with
    | (.wait, s) => (none, s)
    | (.fail, s) => (some (stHOST_ERROR, none), fail s stHOST_ERROR)
    | (.go, s) =>
      let s := s.scatter n fn pas parts p.data h.poison
      let s := if h.poison then fail s stHOST_ERROR else s
      (some (if h.poison then stHOST_ERROR else 0, if parts = [] then none else s.lastWrite n), s)
  match num with
  | none => (some (0, none), s)
  | some i =>
    match s.lmatches.find? (·.num == i) with
    | some m =>
      let mark (s : State) (st : Nat) : State := s.modMatch i fun m => { m with status := if m.status = 0 then st else m.status }
      if m.mode = 0 then
        let (parts, ok) := m.recv.pat.iova off (min h.length (m.recv.len - off))
        match write s parts mark with
        | (r, s) => (r, if ok then s else mark s stADDRESS)
      else write s (if h.length = 0 then [] else [(m.hdr.buf + off, h.length)]) fun s _ => s
    | none =>
      match s.entries.find? (·.num == i) with
      | some e => write s (if h.length = 0 then [] else [(e.buf + off, h.length)]) fun s _ => s
      | none => (some (0, none), s)

/-- An eager message is complete: its RECV completes, or its header's complete bit is set (06 R228, R229). -/
def State.eagerComplete (s : State) (o : OpenMsg) : State :=
  match o.eager with
  | none => s
  | some i =>
    match s.lmatches.find? (·.num == i) with
    | some m =>
      if m.mode = 0 then (s.matchDone m m.finalStatus).delMatch i else s.modMatch i fun m => { m with hdr := { m.hdr with complete := true } }
    | none =>
      match s.entries.find? (·.num == i) with
      | some e => s.relist e.ctx (modFirst (fun e : LEntry => e.num == i) (fun e => { e with complete := true }) s.entries)
      | none => s

/-- A SEND_EAGER packet of an open message: discarded when its context is disabled now (06 R214, R231). The only packet of its message
waits in the open message for the host bus; another is put back. -/
def State.eagerNext (s : State) (p : Packet) : State :=
  let h := p.hdr
  match s.openFind h.srcEp h.msgId with
  | none => s
  | some o =>
    match s.devCtx h.dstAcct (bf h.w6 24 6) with
    | none =>
      let s := s.raise kLDG_NO_CTX srcLDG (acctAddr h.dstAcct) (bf h.w6 24 6)
      if o.single then (s.delOpen h.srcEp h.msgId).filterFree h.srcEp h.msgId else s
    | some _ =>
      match s.eagerWrite p o.eager with
      | (none, s) => if o.single then s.modOpen h.srcEp h.msgId fun o => { o with wait := some p } else s.putBack p
      | (some (st, w), s) => (s.enterPkt h st w).msgCheck h.srcEp h.msgId State.eagerComplete

/-- The eager packets that wait for a host link's bus are written where they may be now (06 R228, R229). -/
def State.eagerKick (s : State) (n : Nat) : State :=
  (s.openMsgs.filter fun o => epHl o.dst == n).foldl (fun s o =>
    match o.wait with
    | some p => (s.modOpen o.src o.msgId fun o => { o with wait := none }).eagerNext p
    | none => s) s

/-- The header at the head of a context's operations is tried: it no longer waits (06 R221). -/
def State.hdrTry (s : State) (p : Packet) : State :=
  match s.devCtx p.hdr.dstAcct (bf p.hdr.w6 24 6) with
  | some k => s.modCtx k fun c => { c with stuck := false }
  | none => s

/-- A header that waits stays ahead of its context's other operations (06 R221). -/
def State.hdrWait (s : State) (p : Packet) : State :=
  let s := { s with tptIn := p :: s.tptIn }
  match s.devCtx p.hdr.dstAcct (bf p.hdr.w6 24 6) with
  | some k => s.modCtx k fun c => { c with stuck := true }
  | none => s

/-- The headers that wait are processed anew. -/
def State.ctxKick (s : State) : State := { s with ctxs := s.ctxs.map fun (k, c) => (k, { c with stuck := false }) }

/-- The first packet of an eager message: once admitted it opens the message. -/
def State.eagerFresh (s : State) (p : Packet) (hv : HostView) : State :=
  let h := p.hdr
  match (s.hdrTry p).ledgerAdmit p hv with
  | (.gone, s) => s
  | (.wait, s) => s.hdrWait p
  | (.ok num, s) => ((s.openMsg h).modOpen h.srcEp h.msgId fun o => { o with eager := num }).eagerNext p

/-- SEND_EAGER_RECEIVE. -/
def execSendEagerReceive (hv : HostView) (s : State) : Host.Outcome State Fault Refusal :=
  .next (s.withPkt 6 fun s p =>
    let done (s : State) (f : FilterEnt) : State := s.receiptAgain p.hdr f
    s.unlessRefusing p done fun s => s.dupHandle p.hdr (fun s => s.eagerNext p) (fun s => s.eagerFresh p hv) done)

/-- SEND_RTS_RECEIVE: a header alone, receipted at once (06 R232, R233). -/
def execSendRtsReceive (hv : HostView) (s : State) : Host.Outcome State Fault Refusal :=
  .next (s.withPkt 7 fun s p =>
    let h := p.hdr
    let done (s : State) (f : FilterEnt) : State := s.receiptAgain h f
    let go (s : State) : State :=
      match (s.hdrTry p).ledgerAdmit p hv with
      | (.gone, s) => s
      | (.wait, s) => s.hdrWait p
      | (.ok _, s) => ((s.openMsg h).enterPkt h 0 none).msgCheck h.srcEp h.msgId fun s _ => s
    s.unlessRefusing p done fun s => s.dupHandle h go go done)

/-! ### Order fills (06 R223) -/

/-- The header that waits for the order entry of (context, rank), where the one at the head of the context does, is refused. -/
def State.refuseWaiting (s : State) (k r : Nat) : State :=
  match s.tptIn.find? fun p => s.hdrCtx p.hdr == some k with
  | some p => if (s.ctx k).stuck ∧ p.hdr.w6 % 2 ^ 24 = r then State.refuse { s with tptIn := s.tptIn.erase p } p.hdr else s
  | none => s

/-- The SENDs at the heads of an account's sources that wait for it complete HOST_ERROR; one that fails a check of Table 6.6 now ends with
that status (06 R223, R243). -/
def State.failSends (s : State) (a k r : Nat) (hv : HostView) : State :=
  let srcs := Source.fired :: ((s.acct a).rings.map fun (i, _) => Source.ring (Fin.ofNat 64 i))
  srcs.foldl (fun s src =>
    s.withDesc a src 4 (fun s d => !(s.descCtx a d == some k && dw d 1 0 24 == r)) fun s d ev =>
      match s.sendCheck a d hv false with
      | (0, _, _, s) => s.failDesc ev evSEND_DONE stHOST_ERROR
      | (st, _, _, s) => s.failDesc ev evSEND_DONE st) s

/-- ORDER_FILL_COMPLETE: the read of an order entry returns (06 R223). Where its outstanding has fallen meanwhile, the device's own count
holds (R224). -/
def State.orderFill (s : State) (k r : Nat) (v : Option Nat) (hv : HostView) : State :=
  if !(s.ctx k).filling.contains r then s
  else
    let a := (s.ctxOwner k).getD 0
    let fell := (s.ctx k).fell.contains r
    let s := (s.modCtx k fun c => { c with filling := c.filling.filter (· != r), fell := c.fell.filter (· != r) }).freeTag (s.aHl a)
      (.orderFill k r)
    let ready (s : State) : State := s.modCtx k fun c => { c with stuck := false }
    match v with
    | none => ready (((s.raise kLDG_HOST_ERROR srcLDG 0 k).refuseWaiting k r).failSends a k r hv)
    | some n =>
      (ready s).ordEvict.ordSet k r { nextSend := bf n 0 16, expected := bf n 16 16, early := bf n 64 64,
                                      outstanding := if fell then s.ordOut k r else bf n 32 7 }

/-- ORDER_FILL_COMPLETE. -/
def execOrderFillComplete (k : Fin 65536) (rank : Nat) (hv : HostView) (s : State) : Host.Outcome State Fault Refusal :=
  .next (s.orderFill k.val rank (hostNat hv (s.ordAddr k.val rank) 16) hv).activityUpd

/-! ### Copies and spilling (06 R230, R240) -/

/-- EAGER_COPY_DONE: the copy of match `m` from overflow to the RECV's buffer (06 R230). -/
def execEagerCopyDone (m : Nat) (hv : HostView) (s : State) : Host.Outcome State Fault Refusal :=
  .next (match s.lmatches.find? (·.num == m) with
    | none => s
    | some x =>
      if x.mode ≠ 1 ∨ !x.hdr.complete then s
      else
        let a := x.recv.acct; let n := s.aHl a; let len := min x.hdr.len x.recv.len
        let (parts, ok) := x.recv.pat.iova 0 len
        let rd := if len = 0 then [] else [(x.hdr.buf, len, false)]
        match s.gate n (s.aFn a) (s.aPasid a) (rd ++ accsOf parts true) hv with
        | (.wait, s) => s.modAcct a fun y => { y with held := true }
        | (g, s) =>
          let finish (s : State) (st : Nat) : State :=
            let x := { x with status := if x.status = 0 then st else x.status }
            let s := (s.matchDone x x.finalStatus).delMatch m
            let s := match x.hdr.ovf with | some b => (s.ovfRelease b).ldgStat x.recv.ctx | none => s
            s.activityUpd
          match g, hostRead hv x.hdr.buf len with
          | .go, some (d, poi) =>
            let s := s.scatter n (s.aFn a) (s.aPasid a) parts d poi
            finish s (if !ok then stADDRESS else if poi then stHOST_ERROR else 0)
          | _, _ => finish s stHOST_ERROR)

/-- The entries of a context, numbered in order as its spill area takes them. -/
def renumber (k : Nat) : List LEntry → Nat → List LEntry
  | [], _ => []
  | e :: r, i => if e.ctx == k && e.kind != .rndv then { e with slot := i } :: renumber k r (i + 1) else e :: renumber k r i

/-- SPILL_DONE: every entry of a context has been written to its spill area (06 R240, Table 6.2). -/
def State.spillDone (s : State) (k : Nat) : State :=
  let s := (State.spillSync { s with entries := renumber k s.entries 0 } k []).setCtxSt k cxSPILLED
  s.notice { acct := (s.ctxOwner k).getD 0, kind := evCTX_SPILLED, id := s.ctxNum k, w3 := (s.spillable k).length }

/-- SPILL_DONE. -/
def execSpillDone (k : Fin 65536) (s : State) : Host.Outcome State Fault Refusal :=
  .next (if s.ctxSt k.val = cxSPILLING then (s.spillDone k.val).activityUpd else s)

/-- RETURN_START: a SPILLED context below low_water, with room, begins to return (06 R240). -/
def execReturnStart (k : Fin 65536) (s : State) : Host.Outcome State Fault Refusal :=
  let occ := (s.spillable k.val).length
  .next (if s.ctxSt k.val = cxSPILLED ∧ occ < s.get LDG_CFG.low_water ∧ s.get LDG_CFG.reserve + 2 * occ < s.ldgFree then
      (s.setCtxSt k.val cxRETURNING).activityUpd else s)

/-- RETURN_DONE: the last entry is read back; a read that failed leaves the context SPILLED, with a record (06 R240; log
entry 40). -/
def execReturnDone (k : Fin 65536) (ok : Bool) (s : State) : Host.Outcome State Fault Refusal :=
  .next (if s.ctxSt k.val ≠ cxRETURNING then s
    else if !ok then ((s.setCtxSt k.val cxSPILLED).raise kLDG_HOST_ERROR srcLDG 0 k.val).activityUpd
    else
      let s := (s.setCtxSt k.val cxON_CHIP).bump LDG_CNT_RETURN.ev
      (s.notice { acct := (s.ctxOwner k.val).getD 0, kind := evCTX_RETURNED, id := s.ctxNum k.val, w3 := (s.spillable k.val).length }).activityUpd)

/-! ### Context registers (06 R212 to R214) -/

/-- Whether a range of contexts overlaps that of another account. -/
def State.ctxOverlap (s : State) (a base count : Nat) : Bool :=
  decide (0 < count) &&
    ((s.regs.filter fun (x, _) => decide (0x6010000 ≤ x ∧ x < 0x6030000)).map fun (x, _) => (x - 0x6010000) / 8).any fun b =>
      b != a && decide (0 < s.get (LDG_ACC_CTX.count b)) && decide (base < s.get (LDG_ACC_CTX.base b) + s.get (LDG_ACC_CTX.count b))
        && decide (s.get (LDG_ACC_CTX.base b) < base + count)

/-- Discards a context's entries and overflow reservations and stops what its matches still do, without events and without FINs; its order
entries are written back, or dropped (06 R214, R246). -/
def State.ctxClear (s : State) (k : Nat) (back : Bool) : State :=
  let es := s.entries.filter (·.ctx == k)
  let ms := s.lmatches.filter (·.recv.ctx == k)
  let owed := ((es.filter fun e => e.kind == .posted || e.kind == .rndv).map (·.ev)) ++ (ms.filter (·.mode != 3)).map (·.recv.ev)
  let ovfs := es.filterMap (·.ovf) ++ ms.filterMap (·.hdr.ovf)
  let rndv := (es.filter (·.kind == .rndv)).map (·.ev.num)
  let s := { s with entries := s.entries.filter (·.ctx != k), lmatches := s.lmatches.filter (·.recv.ctx != k),
                    srcMsgs := s.srcMsgs.filter fun m => !((m.kind == SrcKind.pull && m.ctx == k) || (m.kind == SrcKind.rts && rndv.contains m.ev.num)) }
  let s := owed.foldl (fun s ev => if s.aGen ev.acct = ev.gen then s.completeQuiet ev else s) s.tptStat
  let s := ovfs.foldl (fun s b => s.ovfRelease b) s
  let s := (s.ctx k).order.foldl (fun s (r, _) => if back then s.ordBack ((s.ctxOwner k).getD 0) k r else s) s
  let s := s.modCtx k fun c => { c with order := [], filling := [], stuck := false }
  ((s.setCtxSt k cxON_CHIP).bumpN LDG_CNT_DISCARD.ev es.length).serveAll

/-- A write of LDG_ACC_CTX[a] (06 R212). -/
def State.ctxRange (s : State) (a base count : Nat) : State :=
  let busy := (List.range (s.get (LDG_ACC_CTX.count a))).any fun c => (s.devCtx a c).isSome
  if 64 < count ∨ 65536 < base + count ∨ s.ctxOverlap a base count ∨ busy then s.raise kLDG_CTX_OVERLAP srcLDG (acctAddr a) 0
  else (s.set (LDG_ACC_CTX.base a) base).set (LDG_ACC_CTX.count a) count

end Sys2Proof.Machine
end

