-- ==== Sys2Proof/Machine/AlloyOps.lean ====
section
/-!
DEFINITION. Machine/AlloyOps.lean: the parts of Alloy: trees and operations, elements and lanes with their arithmetic
(07 R255 to R276), segments and tokens as sent, and the abort (R277 to R280).
-/
namespace Sys2Proof.Machine

/-! ### Codes (07 Tables 7.3, 7.5, 7.11) -/

def opBARRIER : Nat := 0
def opBROADCAST : Nat := 1
def opREDUCE : Nat := 2
def opALLREDUCE : Nat := 3
def opREDUCE_SCATTER : Nat := 4
def opALLGATHER : Nat := 5
def operEXP : Nat := 0x10
def operNONE : Nat := 0x11
def stALLOY_ABORTED : Nat := 0x30
def stTREE : Nat := 0x31
def stMODE : Nat := 0x32
def stSEQUENCE : Nat := 0x33
def trIDLE : Nat := 0
def trACTIVE : Nat := 1
def trABORTED : Nat := 2
/-- What sets an exponent segment's index apart (07 R260). -/
def expIdx : Nat := 2 ^ 23

/-! ### Elements (07 R256, R257, R275, R276) -/

/-- Size of an element type in bytes (07 Table 7.4); of a reserved one, a free value (log entry 46). -/
def etSize (et : Nat) : Nat :=
  if et = 0 ∨ et = 1 ∨ et = 8 ∨ et = 9 then 1 else if et = 2 ∨ et = 3 ∨ et = 10 ∨ et = 11 then 2
  else if et = 4 ∨ et = 5 ∨ et = 12 then 4 else if et ≤ 0xD then 8 else 2 ^ (Config.reservedElem et).toNat

/-- Size of what a count counts: an element, or a pair (07 R257). -/
def unitSize (oper et : Nat) : Nat := if oper = 4 ∨ oper = 5 then (if etSize et ≤ 4 then 8 else 16) else etSize et

/-- Integer combination (07 R257). -/
def combineInt (oper et a b : Nat) : Nat :=
  let w := 8 * etSize et
  let key (w x : Nat) : Int := if et % 2 = 0 then sext w x else x % 2 ^ w
  let pw := if etSize et ≤ 4 then 32 else 64
  let va := key pw a; let vb := key pw b; let ia := bf a pw 32; let ib := bf b pw 32
  match oper with
  | 0 => (a + b) % 2 ^ w
  | 1 => (a * b) % 2 ^ w
  | 2 => if key w b < key w a then b else a
  | 3 => if key w b > key w a then b else a
  | 4 => if vb < va ∨ (vb = va ∧ ib < ia) then b else a
  | 5 => if vb > va ∨ (vb = va ∧ ib < ia) then b else a
  | 6 => a &&& b
  | 7 => a ||| b
  | _ => a ^^^ b

/-- Floating-point combination of Fast mode, and MIN and MAX (07 R275, R276). -/
def combineFp (f : FpFmt) (oper a b : Nat) : Nat :=
  match oper with
  | 0 => (f.addQ a b).getD f.nan
  | 1 => (f.mulQ a b).getD f.nan
  | 2 => f.minE a b
  | _ => f.maxE a b

/-- One input of a floating-point operator, a NaN made canonical (07 R275, R276). -/
def canonFp (et x : Nat) : Nat := match fmtOf et with | some f => if f.isNan x then f.nan else x | none => x

/-! ### Sterling lanes (07 R268 to R273) -/

/-- Lane width in bits and magnitude width w (07 Table 7.8). -/
def laneBits (et : Nat) : Nat := if et = 0xD then 128 else 64
def laneW (et : Nat) : Nat := if et = 0xD then 108 else 44
/-- Bytes of an exponent code (07 R268). -/
def expSize (et : Nat) : Nat := if et = 0xD then 2 else 1

/-- The exponent code of an element (07 R269). -/
def expCode (f : FpFmt) (x : Nat) : Nat := match f.read x with | .fin _ _ _ => max (f.expo x) 1 | _ => 1

/-- The lane of an element under block exponent `b`: (kind, value), kinds 1 to 4 the sentinels NAN, POS_INF, NEG_INF,
NEG_ZERO (07 R270, R271). -/
def laneOf (f : FpFmt) (et b x : Nat) : Nat × Int :=
  match f.read x with
  | .nan => (1, 0)
  | .inf neg => (if neg then 3 else 2, 0)
  | .fin neg m _ =>
    if m = 0 then (if neg then 4 else 0, 0)
    else
      let k : Int := (laneW et : Int) - f.p - ((b : Int) - (max (f.expo x) 1 : Nat))
      let mag : Nat := if 0 ≤ k then m * 2 ^ k.toNat else m / 2 ^ (-k).toNat
      (0, if neg then -(mag : Int) else mag)

/-- Two lanes combined (07 Table 7.9). -/
def laneAdd (a b : Nat × Int) : Nat × Int :=
  match a.1, b.1 with
  | 1, _ => (1, 0)
  | _, 1 => (1, 0)
  | 2, 3 => (1, 0)
  | 3, 2 => (1, 0)
  | 2, _ => (2, 0)
  | _, 2 => (2, 0)
  | 3, _ => (3, 0)
  | _, 3 => (3, 0)
  | 4, 4 => (4, 0)
  | 4, _ => b
  | _, 4 => a
  | _, _ => (0, a.2 + b.2)

/-- Whether a lane sum lies in the finite range (07 R272). -/
def laneFits (et : Nat) (a : Nat × Int) : Bool := a.1 != 0 || decide (a.2.natAbs ≤ 2 ^ (laneBits et - 1) - 2 ^ 19)

/-- A lane under the range rule (07 R272). -/
def laneRange (et : Nat) (a : Nat × Int) : Nat × Int := if laneFits et a then a else (1, 0)

/-- A lane as a packet carries it, and as read from one (07 R270, R271). -/
def laneEnc (et : Nat) (a : Nat × Int) : Nat := if a.1 = 0 then trunc (laneBits et) a.2 else 2 ^ (laneBits et - 1) + (a.1 - 1)
def laneDec (et n : Nat) : Nat × Int :=
  let m := 2 ^ (laneBits et - 1)
  if m ≤ n ∧ n < m + 4 then (n - m + 1, 0) else (0, sext (laneBits et) n)

/-- A lane sum as an element (07 R273). -/
def laneElem (f : FpFmt) (et b : Nat) (a : Nat × Int) : Nat :=
  match a.1 with
  | 1 => f.nan
  | 2 => f.infBits false
  | 3 => f.infBits true
  | 4 => 2 ^ (f.size - 1)
  | _ => f.round (decide (a.2 < 0)) a.2.natAbs ((b : Int) - f.bias - (laneW et - 1 : Nat))

/-! ### Segments (07 R260) -/

/-- Elements of a full segment. -/
def segE (oper et mode : Nat) : Nat := if mode = 1 then 4096 / (laneBits et / 8) else 4096 / unitSize oper et

/-- Numbers packed in `k` bytes each, and unpacked. -/
def packVals (k : Nat) (l : List Nat) : List Byte := (l.map (bytesOf k)).flatten
def unpackVals (k : Nat) (d : List Byte) : List Nat := (List.range (d.length / max k 1)).map fun i => leAt d (k * i) k

/-- Block exponents of consecutive elements, 16 a block (07 R268). -/
def blockExps (f : FpFmt) (vals : List Nat) : List Nat :=
  (List.range ((vals.length + 15) / 16)).map fun b => ((vals.drop (16 * b)).take 16).foldl (fun m x => max m (expCode f x)) 1

/-- Two lists combined place by place, what one has beyond the other kept. -/
def zipKeep {α : Type} (f : α → α → α) (a b : List α) : List α :=
  List.zipWith f a b ++ a.drop b.length ++ b.drop a.length

/-- An input combined into what a slot holds (07 R257, R262, R271, R275). -/
def combineIn (oper et mode : Nat) (acc new : List (Nat × Int)) : List (Nat × Int) :=
  if mode = 1 then (if acc = [] then new else zipKeep laneAdd acc new)
  else if oper = operNONE then new
  else
    let new := new.map fun (_, x) => ((0 : Nat), (canonFp et x.toNat : Int))
    if acc = [] then new
    else zipKeep (fun (_, a) (_, b) => (0, match fmtOf et with
      | some f => (combineFp f oper a.toNat b.toNat : Int)
      | none => (combineInt oper et a.toNat b.toNat : Int))) acc new

/-! ### An operation at a leaf (07 R255, R258) -/

def State.trSt (s : State) (t : Nat) : Nat := s.get (ALY_TREE_STAT.state t)
def State.trW (s : State) (t : Nat) : Nat := max 1 (s.get (ALY_TREE0.window t))
def State.trLinks (s : State) (t : Nat) : List Nat := bitsOf 8 (s.get (ALY_TREE3.leaf_links t))
/-- Leaf index of a host link (07 R249). -/
def State.leafIdx (s : State) (t h : Nat) : Nat := s.get (ALY_TREE3.leaf_base t) + popc h (s.get (ALY_TREE3.leaf_links t))

/-- Whether an operation forwards without combining. -/
def isNone (op : Nat) : Bool := op == opBROADCAST || op == opALLGATHER
/-- Operator and mode that an operation's packets carry (07 R256). -/
def LeafOp.pOper (o : LeafOp) : Nat := if isNone o.op then operNONE else o.oper
def LeafOp.pMode (o : LeafOp) : Nat := if isNone o.op then 0 else o.mode
def LeafOp.unit (o : LeafOp) : Nat := unitSize o.pOper o.et
def LeafOp.e (o : LeafOp) : Nat := segE o.pOper o.et o.pMode
/-- An operation without segments (07 R267). -/
def LeafOp.tokens (o : LeafOp) : Bool := o.op == opBARRIER || o.count == 0
/-- Segments of `count` elements. -/
def LeafOp.c (o : LeafOp) : Nat := (o.count + o.e - 1) / o.e
/-- Whether this leaf is the root leaf. -/
def State.isRootLeaf (s : State) (o : LeafOp) : Bool := s.ep + o.hl == o.root
/-- Whether this leaf has a source, and whether it writes, under 07 Table 7.3. -/
def State.leafReads (s : State) (o : LeafOp) : Bool := o.op != opBARRIER && (o.op != opBROADCAST || s.isRootLeaf o)
def State.leafWrites (s : State) (o : LeafOp) : Bool := o.op != opBARRIER && (o.op != opREDUCE || s.isRootLeaf o)
def State.trTotal (s : State) (t : Nat) : Nat := s.get (ALY_TREE3.leaf_total t)
/-- Segment indices of the whole operation. -/
def State.opSegs (s : State) (t : Nat) (o : LeafOp) : Nat :=
  if o.tokens then 0 else if o.op = opALLGATHER then s.trTotal t * o.c else o.c
/-- First of the indices a leaf contributes, and their number. -/
def State.ownFirst (s : State) (t : Nat) (o : LeafOp) : Nat := if o.op = opALLGATHER then s.leafIdx t o.hl * o.c else 0
def State.ownIdx (s : State) (t : Nat) (o : LeafOp) : List Nat :=
  if o.tokens ∨ !s.leafReads o then [] else (List.range o.c).map (· + s.ownFirst t o)
/-- Bytes a leaf reads and writes. -/
def State.leafSrcLen (_ : State) (o : LeafOp) : Nat := o.count * o.unit
def State.leafDstLen (s : State) (t : Nat) (o : LeafOp) : Nat :=
  (if o.op = opREDUCE_SCATTER then o.count / max 1 (s.trTotal t) else if o.op = opALLGATHER then o.count * s.trTotal t else o.count) * o.unit

/-- Elements of a leaf's own segment. -/
def State.ownElems (s : State) (t : Nat) (o : LeafOp) (idx : Nat) : List Nat := (o.vals.drop ((idx - s.ownFirst t o) * o.e)).take o.e

/-- What a leaf writes of down segment `idx`: the offset in its destination, and the elements (07 Table 7.3). -/
def State.leafPart (s : State) (t : Nat) (o : LeafOp) (idx : Nat) (vals : List Nat) : Nat × List Nat :=
  if !s.leafWrites o then (0, [])
  else if o.op = opALLGATHER then (((idx / max 1 o.c) * o.count + (idx % max 1 o.c) * o.e) * o.unit, vals)
  else
    let a := idx * o.e
    if o.op = opREDUCE_SCATTER then
      let m := o.count / max 1 (s.trTotal t)
      let lo := s.leafIdx t o.hl * m; let hi := lo + m
      let from_ := max a lo
      ((from_ - lo) * o.unit, (vals.drop (from_ - a)).take (hi - from_))
    else (a * o.unit, vals)

/-! ### Packets and tokens (07 R261, R267, R279) -/

/-- A segment as a packet: exponent codes, lanes, or elements. `idx` holds 2^23 for an exponent segment. -/
def State.collPkt (s : State) (t : Nat) (down : Bool) (idx opseq oper et mode form blocks : Nat) (poison : Bool) (data : List Byte) : Packet :=
  { hdr := { opcode := if down then 9 else 8, last := true, poison, length := data.length, charter := s.get (ALY_TREE0.charter t),
             srcEp := s.ep, w5 := t + idx <<< 16,
             w6 := opseq % m32 + oper <<< 32 + et <<< 40 + mode <<< 44 + form <<< 45, w7 := blocks },
    data }

/-- An ALY_RECEIPT for segment index `idx` of operation `opseq` (02 Table 2.8). -/
def State.alyReceipt (s : State) (t dst idx opseq : Nat) : State := s.qsSend 7 dst s.ep (t + idx <<< 12 + (opseq % 2 ^ 28) <<< 36)

/-- An ALY_TOKEN: direction 0 arrival, 1 release (02 Table 2.8). -/
def State.alyToken (s : State) (t dst opseq dir : Nat) (abort : Bool) : State :=
  s.qsSend 8 dst s.ep (t + (opseq % m32) <<< 12 + dir <<< 44 + b2n abort <<< 45)

/-- Sends a held segment on its edge: a first down copy by the child's own port is multicast, any other is addressed to the
child's device (07 R252, R264). It waits while the edge is stalled. -/
def State.sendSeg (s : State) (t : Nat) (h : HeldSeg) (first : Bool) : State :=
  let mark (s : State) (w : Bool) : State := s.modTree t fun r =>
    { r with held := modFirst (fun x => x.down == h.down && x.edge == h.edge && x.idx == h.idx && x.opseq == h.opseq)
                       (fun x => { x with waiting := w }) r.held }
  let s := if first && h.down && !s.usable h.edge then s.bump RTE_CNT_MC_DOWN.ev else s
  match s.edgePort t h.edge with
  | none => mark s true
  | some p =>
    let mc := first && h.down && p == h.edge
    let g := s.get (ALY_TREE0.mc_group t)
    let hd := { h.pkt.hdr with mcast := mc, mcGroup := if mc then g else 0, dstEp := if mc then 0 else s.edgeDev t h.edge }
    (mark s false).sendOn p (mkPkt hd h.pkt.data)

/-- Holds a segment and sends it. -/
def State.holdSeg (s : State) (t : Nat) (down : Bool) (edge idx opseq : Nat) (pkt : Packet) : State :=
  let h : HeldSeg := { down, edge, idx, opseq, pkt }
  (s.modTree t fun r => { r with held := r.held ++ [h] }).sendSeg t h true

/-! ### Aborting (07 R277 to R280) -/

/-- Whether the edge to device `dev` by port `own` is broken: no port to it is in service (07 R252). -/
def State.edgeLost (s : State) (own dev : Nat) : Bool :=
  (s.port own).outOfService
    && ports64.all fun p => s.peer p == epUnknown || epDev (s.peer p) != dev || p == own || (s.port p).outOfService
def State.edgeBroken (s : State) (t e : Nat) : Bool := s.edgeLost (s.edgeOwn t e) (s.edgeDev t e)

/-- The edge of a tree that a device is at. -/
def State.edgeOf (s : State) (t dev : Nat) : Option Nat := (s.trEdges t).find? fun e => s.edgeDev t e == dev

def State.alyStat (s : State) (t : Nat) : State := s.set (ALY_TREE_STAT.opseq t) ((s.tree t).cur % m32)

/-- A COLL ends. -/
def State.collEnd (s : State) (t : Nat) (o : LeafOp) (status : Nat) : State :=
  (s.modTree t fun r => { r with ops := r.ops.filter fun x => !(x.hl == o.hl && x.opseq == o.opseq) }).complete o.ev evCOLL_DONE status
    (o.opseq % m32) t 0 false

/-- Sends abort tokens on the edges whose answer is awaited (07 R279 step 2). -/
def State.abortTokens (s : State) (t : Nat) : State :=
  let s := s.modTree t fun r => { r with abortWait := r.abortWait.filter fun (own, dev) => !s.edgeLost own dev }
  (s.tree t).abortWait.foldl (fun s (_, dev) => s.alyToken t dev (s.tree t).abortSeq 0 true) s

/-- A node aborts every operation in progress on an ACTIVE tree (07 R279, R282). -/
def State.abortTree (s : State) (t cause : Nat) : State :=
  if s.trSt t ≠ trACTIVE then s
  else
    -- a leaf that has written its last segment is complete (R282)
    let s := (s.tree t).ops.foldl (fun s o =>
      s.collEnd t o (if !o.tokens ∧ o.written.length = s.opSegs t o then o.status else stALLOY_ABORTED)) s
    let own := s.get (ALY_TREE0.account t)
    let s := if s.aSt own = aREMOVED then s
      else s.notice { acct := own, kind := evTREE_ABORTED, id := (s.tree t).cur % m32, w2 := t, w3 := cause }
    let s := s.bump ALY_CNT_ABORT.ev
    let ws := (s.trEdges t).map fun e => (s.edgeOwn t e, s.edgeDev t e)
    let s := s.modTree t fun r => { r with
      ops := [], up := [], dn := [], held := [], arrived := [], arrSent := [], abortWait := ws, abortSeq := r.cur }
    ((s.set (ALY_TREE_STAT.state t) trABORTED).set (ALY_TREE_STAT.abort_cause t) cause).abortTokens t

/-- Trees with a broken edge abort (07 R278). -/
def State.abortBroken (s : State) : State :=
  s.trees.foldl (fun s (t, _) => if (s.trEdges t).any (s.edgeBroken t) then s.abortTree t 1 else s) s

/-- Trees of which port `p` serves an edge abort: it has completed a reset with fresh = 1 (07 R278). -/
def State.abortFresh (s : State) (p : Nat) : State :=
  s.trees.foldl (fun s (t, _) => if (s.trEdges t).any fun e => s.edgeOwn t e == p || s.edgeDev t e == epDev (s.peer p) then s.abortTree t 2 else s) s

/-- Trees on which an account has COLLs in progress abort; its own end without events (07 R280; 05 R211). -/
def State.abortAcct (s : State) (a : Nat) : State :=
  s.trees.foldl (fun s (t, _) =>
    if (s.tree t).ops.any fun o => o.ev.acct == a then
      (s.modTree t fun r => { r with ops := r.ops.filter fun o => o.ev.acct != a }).abortTree t 6
    else s) s

/-- Whether an operation is in progress at a node. -/
def State.treeBusy (s : State) (t : Nat) : Bool :=
  let r := s.tree t
  !r.ops.isEmpty || !r.held.isEmpty || r.up.any (!·.rel) || r.dn.any (!·.rel) || !r.arrived.isEmpty || !r.arrSent.isEmpty

end Sys2Proof.Machine
end

