-- ==== Sys2Proof/Machine/Alloy.lean ====
section
/-!
DEFINITION. Machine/Alloy.lean: what a node of a tree does of itself (07 R252 to R254, R262 to R268), and Alloy's commands.
-/
namespace Sys2Proof.Machine

/-! ### Slots and windows (07 R253, R254) -/

def State.upSlot (s : State) (t q i : Nat) : Option UpSlot := (s.tree t).up.find? fun u => u.opseq == q && u.idx == i
def State.dnSlot (s : State) (t q i : Nat) : Option DnSlot := (s.tree t).dn.find? fun d => d.opseq == q && d.idx == i
def State.upLo (s : State) (t q : Nat) : Nat := tcnt (s.tree t).upLo q
def State.dnLo (s : State) (t q : Nat) : Nat := tcnt (s.tree t).dnLo q

/-- Changes an up slot, which is made when there is none. -/
def State.modUp (s : State) (t q i : Nat) (f : UpSlot → UpSlot) : State :=
  s.modTree t fun r =>
    if r.up.any fun u => u.opseq == q && u.idx == i then
      { r with up := modFirst (fun u : UpSlot => u.opseq == q && u.idx == i) f r.up }
    else { r with up := r.up ++ [f { opseq := q, idx := i }] }
def State.modDn (s : State) (t q i : Nat) (f : DnSlot → DnSlot) : State :=
  s.modTree t fun r =>
    if r.dn.any fun d => d.opseq == q && d.idx == i then
      { r with dn := modFirst (fun d : DnSlot => d.opseq == q && d.idx == i) f r.dn }
    else { r with dn := r.dn ++ [f { opseq := q, idx := i }] }

/-- The slots of an operation that a phase holds (07 R253). -/
def TreeRt.upHeld (r : TreeRt) (q : Nat) : Nat := (r.up.filter fun u => u.opseq == q && !u.rel).length
def TreeRt.dnHeld (r : TreeRt) (q : Nat) : Nat := (r.dn.filter fun d => d.opseq == q && !d.rel).length

/-- Whether the 2W slots of a phase cover index `i` of an operation whose lo is `lo`. The current operation and the next share them:
the next (`cur` slots of the current one held, 0 for the current one itself) has what the current one leaves (R253, R266; how they share
is a DESIGN CHOICE, log entry 98). `held` slots are held in all; `has` says that one of them is this index's. -/
def covers (w lo i cur held : Nat) (has : Bool) : Bool :=
  decide (lo ≤ i ∧ i + cur < lo + 2 * w) && (has || decide (held < 2 * w))

/-- The slots of operation `q` that come before the next operation's. -/
def TreeRt.upAhead (r : TreeRt) (q : Nat) : Nat := if q = r.cur then 0 else r.upHeld r.cur
def TreeRt.dnAhead (r : TreeRt) (q : Nat) : Nat := if q = r.cur then 0 else r.dnHeld r.cur

/-- Whether the up slots, and the down slots, take index `i` of operation `q`. -/
def State.upCovers (s : State) (t q i : Nat) : Bool :=
  let r := s.tree t
  covers (s.trW t) (s.upLo t q) i (r.upAhead q) (r.upHeld r.cur + r.upHeld (r.cur + 1)) (s.upSlot t q i).isSome
def State.dnCovers (s : State) (t q i : Nat) : Bool :=
  let r := s.tree t
  covers (s.trW t) (s.dnLo t q) i (r.dnAhead q) (r.dnHeld r.cur + r.dnHeld (r.cur + 1)) (s.dnSlot t q i).isSome

/-- Whether the receipt for index `i` of operation `q` is due (07 R254). -/
def State.upDue (s : State) (t q i : Nat) : Bool := decide (i + (s.tree t).upAhead q < s.upLo t q + s.trW t)
def State.dnDue (s : State) (t q i : Nat) : Bool := decide (i + (s.tree t).dnAhead q < s.dnLo t q + s.trW t)

/-- The inputs of an up slot: child ports, and 64 + leaf host link. -/
def State.trInputs (s : State) (t : Nat) : List Nat := s.trKids t ++ (s.trLinks t).map (· + 64)

/-- Whether the data, and the exponent codes, of an up slot are complete (07 R262). -/
def State.upFull (s : State) (t : Nat) (u : UpSlot) : Bool :=
  if u.oper = operNONE then !u.inputs.isEmpty else (s.trInputs t).all u.inputs.contains
def State.expFull (s : State) (t : Nat) (u : UpSlot) : Bool := (s.trInputs t).all u.expInputs.contains

/-- An input enters an up slot (07 R262, R268, R271). -/
def UpSlot.take (u : UpSlot) (inp oper et mode : Nat) (poison : Bool) (vals : List (Nat × Int)) : UpSlot :=
  let fresh := u.inputs.isEmpty
  let (o, e, m) := if fresh then (oper, et, mode) else (u.oper, u.et, u.mode)
  { u with inputs := u.inputs ++ [inp], oper := o, et := e, mode := m, poison := u.poison || poison, acc := combineIn o e m u.acc vals }
def UpSlot.takeExp (u : UpSlot) (inp et : Nat) (poison : Bool) (codes : List Nat) : UpSlot :=
  { u with expInputs := u.expInputs ++ [inp], et := if u.expInputs.isEmpty then et else u.et, mode := 1, poison := u.poison || poison,
           exps := if u.exps = [] then codes else zipKeep max u.exps codes }

/-! ### What a node does of itself -/

/-- The operations a node works on: the current one and the next (07 R266). -/
def State.opLive (s : State) (t q : Nat) : Bool := q == (s.tree t).cur || q == (s.tree t).cur + 1

/-- A leaf's contribution to its own node's slot `i` (07 R262, R268, R270). -/
def State.feed (s : State) (t : Nat) (o : LeafOp) (i : Nat) : State :=
  let vals := s.ownElems t o i
  let done (s : State) (k : Nat) : State := s.modTree t fun r =>
    { r with ops := modFirst (fun x : LeafOp => x.hl == o.hl && x.opseq == o.opseq) (fun x => { x with fed := x.fed ++ [k] }) r.ops }
  if !s.upCovers t o.opseq i then s
  else if o.pMode = 0 then
    if o.fed.contains i then s
    else done (s.modUp t o.opseq i fun u => u.take (64 + o.hl) o.pOper o.et 0 o.poison (vals.map fun (x : Nat) => ((0 : Nat), (x : Int)))) i
  else
    match fmtOf o.et with
    | none => s
    | some f =>
      if !o.fed.contains (i + expIdx) then
        done (s.modUp t o.opseq i fun u => u.takeExp (64 + o.hl) o.et o.poison (blockExps f vals)) (i + expIdx)
      else if o.fed.contains i then s
      else
        match (s.dnSlot t o.opseq i).bind (·.exps) with
        | none => s
        | some bs =>
          let lanes := vals.zipIdx.map fun (x, j) => laneOf f o.et (bs.getD (j / 16) 1) x
          done (s.modUp t o.opseq i fun u => u.take (64 + o.hl) 0 o.et 1 o.poison lanes) i

/-- The leaves of a node contribute what their windows admit. -/
def State.feedAll (s : State) (t : Nat) : State :=
  (s.tree t).ops.foldl (fun s o =>
    if s.opLive t o.opseq && o.startAt.isNone then
      let lo := s.upLo t o.opseq
      ((s.ownIdx t o).filter fun i => decide (lo ≤ i ∧ i < lo + 2 * s.trW t)).foldl (fun s i =>
        match (s.tree t).ops.find? fun x => x.hl == o.hl && x.opseq == o.opseq with
        | some o => s.feed t o i
        | none => s) s
    else s) s

/-- What an up slot holds, under the range rule; and the lanes set to NAN counted (07 R272). -/
def State.upVals (s : State) (u : UpSlot) : List (Nat × Int) × State :=
  if u.mode = 1 then (u.acc.map (laneRange u.et), s.bumpN ALY_CNT_STERLING_RANGE.ev (u.acc.filter fun a => !laneFits u.et a).length)
  else (u.acc, s)

/-- The ports and the host links of the tree's multicast group as they stand; no host link unless the group is delivered here (04
R148). -/
def State.mcPorts (s : State) (t : Nat) : Nat := s.get (RTE_MC_PORTS.ports (s.get (ALY_TREE0.mc_group t)))
def State.mcLinks (s : State) (t : Nat) : Nat :=
  let g := s.get (ALY_TREE0.mc_group t)
  if s.on (RTE_MC_LOCAL.local g) then s.get (RTE_MC_LOCAL.host_links g) else 0

/-- A COLL_DN whose group has an all-zero mask here is counted at its source as at any device (04 R148). -/
def State.mcZero (s : State) (t : Nat) : State :=
  if s.mcPorts t = 0 ∧ !s.on (RTE_MC_LOCAL.local (s.get (ALY_TREE0.mc_group t))) then s.bump RTE_CNT_MC_ZERO.ev else s

/-- The root turns what an up slot holds into down segment `idx` (07 R262, R268, R273), under its own mask (04 R148). -/
def State.rootTake (s : State) (t : Nat) (u : UpSlot) : State :=
  if !s.dnCovers t u.opseq u.idx then s
  else
    let ports := s.mcPorts t; let links := s.mcLinks t
    let s := if u.mode = 1 && s.expFull t u && !u.expSent then
        (s.modDn t u.opseq u.idx fun d =>
          { d with exps := some u.exps, et := u.et, mode := 1, poison := d.poison || u.poison, ports, links }).modUp t
          u.opseq u.idx (fun u => { u with expSent := true }) |>.mcZero t
      else s
    if s.upFull t u then
      let (vs, s) := s.upVals u
      let bs := ((s.dnSlot t u.opseq u.idx).bind (·.exps)).getD []
      let vals := match u.mode, fmtOf u.et with
        | 1, some f => vs.zipIdx.map fun (v, j) => laneElem f u.et (bs.getD (j / 16) 1) v
        | _, _ => vs.map fun v => v.2.toNat
      (s.modDn t u.opseq u.idx fun d =>
        { d with seg := some vals, oper := u.oper, et := u.et, mode := u.mode, poison := d.poison || u.poison, ports, links }).modUp t
        u.opseq u.idx (fun u => { u with sent := true, rel := true }) |>.mcZero t
    else s

/-- The COLL whose account pays for a segment that a node makes itself: of the node's own leaves the first that has the operation (09 R352;
DESIGN CHOICE: log entry 121). -/
def State.segPayer (s : State) (t q : Nat) : Option LeafOp := (s.tree t).ops.find? (·.opseq == q)
def State.segMark (s : State) (t : Nat) (o : LeafOp) (w : Bool) : State := s.modTree t fun r =>
  { r with ops := modFirst (fun x : LeafOp => x.hl == o.hl && x.opseq == o.opseq) (fun x => { x with starved := w }) r.ops }

/-- A segment of `len` bytes is sent when the allowance of the COLL it is for permits, and charged; else it waits (09 R351, R352). -/
def State.segPaid (s : State) (t q len : Nat) (send : State → State) : State :=
  match s.segPayer t q with
  | none => send s
  | some o =>
    if s.mayServe o.ev.acct (pktCost len) then send ((s.segMark t o false).charge o.ev.acct (pktCost len))
    else s.segMark t o true

/-- Another node sends what an up slot holds to its parent, when R253 and the operation before allow it; the slot is released
once its segments are receipted. -/
def State.upSend (s : State) (t : Nat) (u : UpSlot) : State :=
  let r := s.tree t
  let may := decide (u.idx < s.upLo t u.opseq + s.trW t) && !(r.up.any fun x => !x.rel && decide (x.opseq < u.opseq))
    && !(r.held.any fun h => !h.down && decide (h.opseq < u.opseq))
  let s := if may && u.mode = 1 && s.expFull t u && !u.expSent then
      let k := expSize u.et
      let pk := s.collPkt t false (u.idx + expIdx) u.opseq operEXP u.et 1 0 u.exps.length u.poison (packVals k u.exps)
      s.segPaid t u.opseq pk.data.length fun s =>
        ((s.bump ALY_CNT_SEG_UP.ev).modUp t u.opseq u.idx fun u => { u with expSent := true }).holdSeg t false 64 (u.idx + expIdx) u.opseq pk
    else s
  let s := if may && s.upFull t u && !u.sent then
      let size := u.acc.length * (if u.mode = 1 then laneBits u.et / 8 else unitSize u.oper u.et)
      s.segPaid t u.opseq size fun s =>
        let (vs, s) := s.upVals u
        let data := if u.mode = 1 then packVals (laneBits u.et / 8) (vs.map (laneEnc u.et))
          else packVals (unitSize u.oper u.et) (vs.map fun v => v.2.toNat)
        let pk := s.collPkt t false u.idx u.opseq u.oper u.et u.mode u.mode vs.length u.poison data
        ((s.bump ALY_CNT_SEG_UP.ev).modUp t u.opseq u.idx fun u => { u with sent := true }).holdSeg t false 64 u.idx u.opseq pk
    else s
  let waits := (s.tree t).held.any fun h => !h.down && h.opseq == u.opseq && h.idx % expIdx == u.idx
  match s.upSlot t u.opseq u.idx with
  | some v => if v.sent && !waits && (v.mode = 0 || v.expSent) then s.modUp t u.opseq u.idx fun u => { u with rel := true } else s
  | none => s

def State.upAll (s : State) (t : Nat) : State :=
  ((s.tree t).up.filter (!·.rel)).foldl (fun s u => if s.trRoot t then s.rootTake t u else s.upSend t u) s

/-- Whether a node may send its first copies of down segment `i`: it holds the final receipt of every child for every index
up to i − W (07 R253, R264). -/
def State.dnMay (s : State) (t q i : Nat) : Bool :=
  let r := s.tree t
  (List.range (i + 1 - s.trW t - s.dnLo t q)).all fun k =>
    let j := s.dnLo t q + k
    (match s.dnSlot t q j with | some d => d.rel || d.sent | none => false)
      && !(r.held.any fun h => h.down && h.opseq == q && h.idx == j)

/-- Copies of a down segment on the ports of mask `m` (04 R148): one toward a child is held until its receipt. -/
def State.dnCopies (s : State) (t idx q m : Nat) (pk : Packet) : State :=
  let kids := s.trKids t
  let hd := { pk.hdr with mcast := true, mcGroup := s.get (ALY_TREE0.mc_group t), dstEp := 0 }
  (bitsOf 64 m).foldl (fun s c =>
    if kids.contains c then s.holdSeg t true c idx q pk
    else if s.usable c then s.sendOn c (mkPkt hd pk.data)
    else s.bump RTE_CNT_MC_DOWN.ev) (s.bump ALY_CNT_SEG_DN.ev)

/-- A down segment that the root makes is paid for like an up segment; another node passes on what it has taken (09 R352). -/
def State.dnPaid (s : State) (t q len : Nat) (send : State → State) : State :=
  if s.on (ALY_TREE1.root t) then s.segPaid t q len send else send s

/-- A node sends what a down slot holds on the ports of its group. -/
def State.dnSend (s : State) (t : Nat) (d : DnSlot) : State :=
  if d.ports = 0 then s
  else
    let s := match d.exps with
      | some bs =>
        if !d.expSent && s.dnMay t d.opseq d.idx then
          s.dnPaid t d.opseq (expSize d.et * bs.length) fun s =>
          (s.modDn t d.opseq d.idx fun d => { d with expSent := true }).dnCopies t (d.idx + expIdx) d.opseq d.ports
            (s.collPkt t true (d.idx + expIdx) d.opseq operEXP d.et 1 0 bs.length d.poison (packVals (expSize d.et) bs))
        else s
      | none => s
    match d.seg with
    | some vs =>
      if !d.sent && s.dnMay t d.opseq d.idx then
        s.dnPaid t d.opseq (unitSize d.oper d.et * vs.length) fun s =>
        (s.modDn t d.opseq d.idx fun d => { d with sent := true, segTo := (s.trKids t).filter (bit d.ports) }).dnCopies t d.idx d.opseq d.ports
          (s.collPkt t true d.idx d.opseq d.oper d.et d.mode 0 vs.length d.poison (packVals (unitSize d.oper d.et) vs))
      else s
    | none => s

/-- A leaf host link takes down segment `d`: it writes its part, or discards it (07 R265; R367). A leaf that has not posted the
operation has the slot wait. -/
def State.leafTake (s : State) (t : Nat) (d : DnSlot) (vs : List Nat) (h : Nat) : State :=
  let took (s : State) : State := s.modDn t d.opseq d.idx fun d => { d with leaves := addMem d.leaves h }
  let noted (s : State) (st : Nat) : State := took (s.modTree t fun r =>
    { r with ops := modFirst (fun x : LeafOp => x.hl == h && x.opseq == d.opseq)
                      (fun x => { x with written := addMem x.written d.idx, status := if x.status = 0 then st else x.status }) r.ops })
  if d.leaves.contains h ∨ s.trSt t ≠ trACTIVE then s
  else
    match (s.tree t).ops.find? fun o => o.hl == h && o.opseq == d.opseq with
    | none => if d.opseq < tcnt (s.tree t).leafNext h then took s else s
    | some o =>
      let (off, part) := s.leafPart t o d.idx vs
      let data := packVals o.unit part
      let a := o.ev.acct; let fn := s.aFn a
      let (ps, ok) := o.dst.iova off data.length
      match s.gate h fn (s.aPasid a) (accsOf ps true) with
      | (.wait, s) => s.modAcct a fun x => { x with held := true }
      | (.fail, s) => noted s stHOST_ERROR
      | (.go, s) =>
        let s := s.scatter h fn (s.aPasid a) ps data d.poison
        if ok then noted s (if d.poison && !data.isEmpty then stHOST_ERROR else 0) else (s.collEnd t o stADDRESS).abortTree t 8

/-- A node's leaves take what its down slots hold; a slot is released when they have and every child has receipted it. -/
def State.dnAll (s : State) (t : Nat) : State :=
  ((s.tree t).dn.filter (!·.rel)).foldl (fun s d =>
    let s := if s.trSt t = trACTIVE then s.dnSend t d else s
    match d.seg with
    | none => s
    | some vs =>
      let links := (s.trLinks t).filter (bit d.links)
      let s := links.foldl (fun s h => s.leafTake t d vs h) s
      let waits := (s.tree t).held.any fun h => h.down && h.opseq == d.opseq && h.idx % expIdx == d.idx
      match s.dnSlot t d.opseq d.idx with
      | some e =>
        if links.all e.leaves.contains && (s.trKids t).all e.segTo.contains && !waits then
          -- in an operation that only forwards, no other contribution to this index comes (log entry 45)
          let s := if d.oper = operNONE && (s.upSlot t d.opseq d.idx).isNone && s.upLo t d.opseq ≤ d.idx then
            s.modUp t d.opseq d.idx fun u => { u with rel := true } else s
          s.modDn t d.opseq d.idx fun d => { d with rel := true }
        else s
      | none => s) s

/-- Raises lo of the up-phase of an operation over released slots, and sends the receipts that become due (07 R254). -/
def State.upRaise (s : State) (t q : Nat) : Nat → State
  | 0 => s
  | n + 1 =>
    match s.upSlot t q (s.upLo t q) with
    | some u =>
      if u.rel then
        State.upRaise (s.modTree t fun r => { r with upLo := tput r.upLo q (tcnt r.upLo q + 1),
                                                     up := r.up.filter fun x => !(x.opseq == q && x.idx == u.idx) }) t q n
      else s
    | none => s
def State.dnRaise (s : State) (t q : Nat) : Nat → State
  | 0 => s
  | n + 1 =>
    match s.dnSlot t q (s.dnLo t q) with
    | some d =>
      if d.rel then
        State.dnRaise (s.modTree t fun r => { r with dnLo := tput r.dnLo q (tcnt r.dnLo q + 1),
                                                     dn := r.dn.filter fun x => !(x.opseq == q && x.idx == d.idx) }) t q n
      else s
    | none => s

/-- The receipts held back that are due now (07 R254). -/
def State.oweUp (s : State) (t : Nat) : State :=
  ((s.tree t).up.filter fun u => !u.owed.isEmpty && s.upDue t u.opseq u.idx).foldl (fun s u =>
    (u.owed.foldl (fun s (e, i) => s.alyReceipt t (s.edgeDev t e) i u.opseq) s).modUp t u.opseq u.idx fun u => { u with owed := [] }) s
def State.oweDn (s : State) (t : Nat) : State :=
  ((s.tree t).dn.filter fun d => !d.owed.isEmpty && s.dnDue t d.opseq d.idx).foldl (fun s d =>
    (d.owed.foldl (fun s i => s.alyReceipt t (s.edgeDev t 64) i d.opseq) s).modDn t d.opseq d.idx fun d => { d with owed := [] }) s

/-- Operation `q` has run its course at this node. -/
def State.opEnded (s : State) (t q : Nat) : State := s.modTree t fun r => { r with doneOps := addMem r.doneOps q }

/-- COLLs that are complete end (07 R265). -/
def State.leafEnds (s : State) (t : Nat) : State :=
  ((s.tree t).ops.filter fun o => o.startAt.isNone && !o.tokens).foldl (fun s o =>
    let own := (s.ownIdx t o).all fun i => decide (i < s.upLo t o.opseq) || ((s.upSlot t o.opseq i).map (·.rel)).getD false
    if own ∧ o.written.length = s.opSegs t o then (s.collEnd t o o.status).opEnded t o.opseq else s) s

/-- A barrier, or an operation of count 0, is released: the leaves complete and the children are told (07 R267). -/
def State.release0 (s : State) (t q : Nat) : State :=
  let s := ((s.tree t).ops.filter fun o => o.opseq == q && o.tokens).foldl (fun s o => s.collEnd t o o.status) s
  let s := s.modTree t fun r => { r with doneOps := addMem r.doneOps q, arrSent := r.arrSent.filter (· != q), arrived := r.arrived.filter (· / 128 != q) }
  (s.trKids t).foldl (fun s c => s.alyToken t (s.edgeDev t c) q 1 false) s

/-- Arrivals of operation `q` (07 R267). -/
def State.arrive (s : State) (t q : Nat) : State :=
  let r := s.tree t
  let links := s.trLinks t; let kids := s.trKids t
  let ready := links.all (fun h => r.ops.any fun o => o.hl == h && o.opseq == q && o.tokens && o.startAt.isNone)
    && kids.all fun c => r.arrived.contains (q * 128 + c)
  if !ready || r.arrSent.contains q || r.doneOps.contains q then s
  else if s.trRoot t then s.release0 t q
  else (s.modTree t fun r => { r with arrSent := r.arrSent ++ [q] }).alyToken t (s.edgeDev t 64) q 0 false

/-- Nothing of operation `q` is held at a node, and no arrival of it waits for its release. -/
def State.opQuiet (s : State) (t q : Nat) : Bool :=
  let r := s.tree t
  !(r.up.any fun u => u.opseq == q && !u.rel) && !(r.dn.any fun d => d.opseq == q && !d.rel) && !(r.held.any fun h => h.opseq == q)
    && !(r.arrived.any (· / 128 == q)) && !r.arrSent.contains q

/-- The current operation is over at the node: the next becomes current (07 R266). -/
def State.nextOp (s : State) (t : Nat) : State :=
  let links := s.trLinks t
  (s.modTree t fun r =>
    { r with cur := r.cur + 1, skipped := if links = [] ∨ r.doneOps.contains r.cur then r.skipped else addMem r.skipped r.cur, upLo := tdel r.upLo r.cur, dnLo := tdel r.dnLo r.cur, doneOps := r.doneOps.filter (· != r.cur),
             up := r.up.filter (·.opseq != r.cur), dn := r.dn.filter (·.opseq != r.cur),
             arrived := r.arrived.filter (· / 128 != r.cur), arrSent := r.arrSent.filter (· != r.cur) }).alyStat t

/-- No leaf of the node is in the current operation or has still to post it. -/
def State.leavesPast (s : State) (t : Nat) : Bool :=
  let r := s.tree t
  (s.trLinks t).all fun h => decide (r.cur < tcnt r.leafNext h) && !(r.ops.any fun o => o.hl == h && o.opseq == r.cur)

/-- Whether the current operation is over: it has completed here, or the one after it has. One whose leaves' COLLs have all failed, and
contribute nothing, is not over for that (07 R259, R266, R267; DEDUCED, log entry 45). -/
def State.opDone (s : State) (t : Nat) : Bool :=
  let r := s.tree t
  s.opQuiet t r.cur && s.leavesPast t && (r.doneOps.contains r.cur || r.doneOps.contains (r.cur + 1))

/-- Sends the held segments that waited for a stalled edge. -/
def State.sendWaiting (s : State) (t : Nat) : State :=
  ((s.tree t).held.filter fun h => h.waiting && (s.edgePort t h.edge).isSome).foldl (fun s h => s.sendSeg t h false) s

/-- One round of all that a node may do. -/
def State.alyRound (s : State) (t : Nat) : State :=
  let s := (((s.sendWaiting t).feedAll t).upAll t).dnAll t
  let q := (s.tree t).cur; let w := 2 * s.trW t
  let s := ((((s.upRaise t q w).upRaise t (q + 1) w).dnRaise t q w).dnRaise t (q + 1) w)
  let s := ((s.oweUp t).oweDn t).leafEnds t
  let s := (s.arrive t q).arrive t (q + 1)
  if s.trSt t = trACTIVE && s.opDone t then s.nextOp t else s

def State.alyRounds (s : State) (t : Nat) : Nat → State
  | 0 => s
  | n + 1 =>
    if s.trSt t ≠ trACTIVE then s
    else
      let s' := s.alyRound t
      if s'.tree t = s.tree t then s' else s'.alyRounds t n

/-- A node goes on until nothing more is to be done now. -/
def State.alyGo (s : State) (t : Nat) : State :=
  let r := s.tree t
  (s.alyRounds t (16 + 8 * (r.ops.map fun o => s.opSegs t o + 1).sum + 8 * (r.up.length + r.dn.length + r.held.length))).treesStalled

/-- The trees whose leaf on host link `n` waits for the host bus to write what it has go on (07 R265). -/
def State.alyKick (s : State) (n : Nat) : State :=
  s.trees.foldl (fun s (t, r) => if (s.trLinks t).contains n && r.dn.any (!·.rel) then s.alyGo t else s) s

/-! ### COLL (07 R258, R259, R266) -/

/-- Whether operation, operator, element type and mode form a legal combination (07 R256, R272). -/
def State.collLegal (s : State) (t : Nat) (o : LeafOp) : Bool :=
  if o.op = opBARRIER ∨ isNone o.op then true
  else if o.op > 5 ∨ o.et > 0xD then false
  else if o.et < 8 then o.mode == 0 && decide (o.oper ≤ 8)
  else if o.mode = 1 then o.oper == 0 && s.on (ALY_TREE3.sterling_ok t)
  else decide (o.oper ≤ 3)

/-- What a COLL descriptor asks. -/
def collOf (h : Nat) (ev : EvtInfo) (d : Desc) : LeafOp :=
  { hl := h, ev := { ev with ctr := if dw d 1 30 1 = 1 then some (dw d 5 40 16) else none }, op := dw d 1 12 4, oper := dw d 1 16 8,
    et := dw d 1 24 4, mode := dw d 1 28 1, opseq := dw d 2 0 32, count := dw d 5 0 40, root := dw d 2 32 23 }

/-- The pattern records that a COLL reads. -/
def State.collAccs (s : State) (a : Nat) (d : Desc) : List (Nat × Nat × Bool) :=
  let o := collOf (s.aHl a) {} d
  (if s.leafReads o then patAccs d 31 3 else []) ++ (if s.leafWrites o then patAccs d 32 4 else [])

/-- One side of a COLL: a pattern record that must total `len`, or contiguous. -/
def collSide (d : Desc) (flag word len : Nat) (hv : HostView) : Nat × Pattern :=
  if dw d 1 flag 1 = 1 then readPat hv (dw d word 0 64) len else (0, .flat (dw d word 0 64) len)

/-- Begins a leaf's contribution: its whole source is read (07 R266). -/
def State.leafBegin (s : State) (t : Nat) (o : LeafOp) (hv : HostView) : State :=
  let upd (f : LeafOp → LeafOp) (s : State) : State := s.modTree t fun r =>
    { r with ops := modFirst (fun x : LeafOp => x.hl == o.hl && x.opseq == o.opseq) f r.ops }
  if o.tokens ∨ !s.leafReads o then (upd (fun o => { o with startAt := none }) s).alyGo t
  else
    let a := o.ev.acct
    let (ps, ok) := o.src.iova 0 (s.leafSrcLen o)
    match s.gate o.hl (s.aFn a) (s.aPasid a) (accsOf ps false) hv with
    | (.wait, s) => s.modAcct a fun x => { x with held := true }
    | (.fail, s) => (s.collEnd t o stHOST_ERROR).alyGo t
    | (.go, s) =>
      match gather hv ps with
      | none => (s.collEnd t o stHOST_ERROR).alyGo t
      | some (bytes, poison) =>
        if !ok then (s.collEnd t o stADDRESS).abortTree t 8
        else (upd (fun o => { o with startAt := none, vals := unpackVals o.unit bytes, poison }) s).alyGo t

/-- The end of a COLL at its leaf: its completion with no counter raised. -/
def State.collReject (s : State) (t : Nat) (o : LeafOp) (ev : EvtInfo) (st : Nat) : State :=
  s.complete { ev with ctr := none } evCOLL_DONE st o.opseq t 0 false

/-- The end of a COLL whose leaf's sequence has risen: the tree goes on without it (07 R259, R284). -/
def State.collStop (s : State) (t : Nat) (o : LeafOp) (ev : EvtInfo) (st : Nat) : State := (s.collReject t o ev st).alyGo t

/-- A COLL whose patterns have passed their checks joins the tree, or waits for its start time (07 R265, R266). -/
def State.collJoin (s : State) (t : Nat) (d : Desc) (o : LeafOp) (p1 p2 : Pattern) (hv : HostView) : State :=
  let sched := dw d 1 29 1 == 1
  let late := sched && decide (dw d 7 0 64 < s.now)
  let o := { o with src := p1, dst := p2, startAt := some (if sched then dw d 7 0 64 else 0) }
  let s := s.modTree t fun r => { r with ops := r.ops ++ [o] }
  let s := if late then s.bump ALY_CNT_SCHED_LATE.ev else s
  if sched && decide (dw d 7 0 64 > s.now) then s else s.leafBegin t o hv

/-- The checks of a COLL whose leaf's sequence has risen, in the order of 07 R258. -/
def State.collChecks (s : State) (a t : Nat) (d : Desc) (o : LeafOp) (ev : EvtInfo) (failed : Bool) (hv : HostView) : State :=
  if (match ev.ctr with | some c => !s.ctrOwned c a | none => false) then s.collStop t o ev stCOUNTER
  else
    let hv' := s.hvIf a failed (s.collAccs a d) hv
    let (st1, p1) := if s.leafReads o then collSide d 31 3 (s.leafSrcLen o) hv' else (0, {})
    let (st2, p2) := if s.leafWrites o then collSide d 32 4 (s.leafDstLen t o) hv' else (0, {})
    if st1 ≠ 0 then s.collStop t o ev st1
    else if st2 ≠ 0 then s.collStop t o ev st2
    else if s.opSegs t o ≥ expIdx ∨ (o.op = opREDUCE_SCATTER ∧ o.count % s.trTotal t ≠ 0) then s.collStop t o ev stLENGTH
    else if dw d 1 29 1 = 1 ∧ dw d 7 0 64 > s.now + s.get ALY_CFG.sched_max_ms * 4000000 then s.collStop t o ev stBAD_DESC
    else s.collJoin t d o p1 p2 hv

/-- COLL: the checks of 07 Table 7.7; a ring waits while the device is in REDUCED (01 R27). -/
def execColl (a : AcctNo) (src : Source) (hv : HostView) (s : State) : Host.Outcome State Fault Refusal :=
  .next (s.withDescHost a src 6 (fun s _ => s.get TOP_STATE.svc_state == 2) (fun s d => s.collAccs a d) hv fun s d ev failed =>
    let t := dw d 1 0 12; let h := s.aHl a
    let o := collOf h ev d
    let q := tcnt (s.tree t).leafNext h
    if s.trSt t ≠ trACTIVE ∨ !(s.trLinks t).contains h ∨ s.aCharter a ≠ s.get (ALY_TREE0.charter t) then s.collReject t o ev stTREE
    else if !s.collLegal t o then s.collReject t o ev stMODE
    else if o.opseq ≠ q % m32 then s.collReject t o ev stSEQUENCE
    else
      -- the leaf's sequence has risen, whatever comes of this COLL
      (s.modTree t fun r => { r with leafNext := tput r.leafNext h (q + 1) }).collChecks a t d { o with opseq := q } o.ev failed hv)

/-- COLL_SCHEDULED_START: a COLL of host link `n` on tree `t` begins: Hallmark has reached its start time, or the host bus
that it waited for is free (07 R266). -/
def execCollScheduledStart (t : TreeNo) (n : HostLink) (hv : HostView) (s : State) : Host.Outcome State Fault Refusal :=
  .next (match (s.tree t.val).ops.find? fun o => o.hl == n.val && (match o.startAt with | some x => decide (x ≤ s.now) | none => false) with
    | some o => (s.leafBegin t.val o hv).activityUpd
    | none => s)

/-! ### Activation (07 R250) -/

/-- The checks of 07 Table 7.1: the result code, 0 when all pass. -/
def State.activateCheck (s : State) (t : Nat) : Nat :=
  let kids := s.trKids t; let pp := s.get (ALY_TREE1.parent_port t); let root := s.trRoot t
  let up (p : Nat) : Bool := s.usable p && s.role p != roleCell
  let g := s.get (ALY_TREE0.mc_group t)
  if s.trSt t ≠ trIDLE then 9
  else if s.get ALY_STAT.active ≥ 256 then 1
  else if s.get ALY_STAT.slots_free < 4 * s.trW t then 2
  else if !root ∧ !(up pp && epDev (s.peer pp) == s.edgeDev t 64) then 3
  else if !kids.all up ∨ (!root ∧ kids.contains pp) then 4
  else if s.get (RTE_MC_PORTS.ports g) ≠ s.get (ALY_TREE2.child_ports t) ∨ !s.on (RTE_MC_LOCAL.local g)
      ∨ s.get (RTE_MC_LOCAL.host_links g) ≠ s.get (ALY_TREE3.leaf_links t) then 5
  else if !(s.trLinks t).all s.hlPresent then 6
  else if s.on (ALY_TREE3.sterling_ok t) ∧ s.trTotal t > 524288 then 7
  else if kids = [] ∧ s.trLinks t = [] then 8
  else 0

/-- What a write of ALY_TREE_CTL sets; none when it starts no command. -/
def State.treeCtl (s : State) (v : Word) (cmd : Nat) : Option Nat × State :=
  let w := v.toNat
  let idle := s.on ALY_TREE_CTL.done
  let s := (s.set ALY_TREE_CTL.tree (bf w 0 12)).set ALY_TREE_CTL.cmd (bf w 12 2)
  (if bit w 62 && idle && bf w 12 2 == cmd then some (bf w 0 12) else none, s)

/-- Izger's vote on the Alloy domain follows the trees (07 R251). -/
def State.treeVote (s : State) : State := s.vote engALY 8 (s.on ALY_STAT.active)

/-- Frees a tree and returns it to IDLE (07 R250); abort tokens not yet answered stay to be sent again (R279). -/
def State.treeFree (s : State) (t : Nat) : State :=
  let s := (s.set (ALY_TREE_STAT.state t) trIDLE).set (ALY_TREE_STAT.stalled t) 0
  let s := if (s.tree t).abortWait = [] then { s with trees := tdel s.trees t }
    else s.modTree t fun r => { abortWait := r.abortWait, abortSeq := r.abortSeq }
  let s := (s.set ALY_STAT.active (s.get ALY_STAT.active - 1)).set ALY_STAT.slots_free (s.get ALY_STAT.slots_free + 4 * s.trW t)
  s.treeVote.activityUpd

/-- ALY_TREE_CTL with cmd = activate: checks the tree, and with all checks passed it is ACTIVE with its slots taken (07 R250). -/
def State.treeActivate (s : State) (v : Word) : State :=
  match s.treeCtl v 1 with
  | (none, s) => s
  | (some t, s) =>
    let c := s.activateCheck t
    let s := s.set ALY_TREE_CTL.result c
    if c ≠ 0 then s
    else
      -- abort tokens not yet answered are still sent (R279)
      let s := (s.set (ALY_TREE_STAT.reg t) 1).modTree t fun r => { abortWait := r.abortWait, abortSeq := r.abortSeq }
      let s := (s.set ALY_STAT.active (s.get ALY_STAT.active + 1)).set ALY_STAT.slots_free (s.get ALY_STAT.slots_free - 4 * s.trW t)
      s.treeVote.treesStalled

/-- ALY_TREE_CTL with cmd = deactivate: a tree with operations aborts, and it returns to IDLE (07 R250, R278). One that is IDLE stays
so. -/
def State.treeDeactivate (s : State) (v : Word) : State :=
  match s.treeCtl v 2 with
  | (none, s) => s
  | (some t, s) =>
    let s := s.set ALY_TREE_CTL.result 0
    if s.trSt t = trIDLE then s
    else (if s.treeBusy t then s.abortTree t 5 else s).treeFree t

/-! ### Segments, receipts and tokens as received -/

/-- How a packet's operation sequence stands to the node's (07 R262, R266); a node with no leaf in the current operation goes on to the
next when a packet of the one after it comes. -/
inductive OpSort where
  | live (q : Nat)
  | prev
  | stale
  deriving DecidableEq, Repr

def State.opSort (s : State) (t w : Nat) : OpSort × State :=
  let d (s : State) := subMod m32 w ((s.tree t).cur % m32)
  let s := if d s = 2 ∧ s.leavesPast t ∧ s.opQuiet t (s.tree t).cur then s.nextOp t else s
  (if d s ≤ 1 then .live ((s.tree t).cur + d s) else if d s = m32 - 1 then .prev else .stale, s)

/-- A duplicate: discarded, counted and receipted (07 R262). -/
def State.alyDup (s : State) (t : Nat) (p : Packet) (receipt : Bool) : State :=
  let s := s.bump ALY_CNT_DUP.ev
  if receipt then s.alyReceipt t p.hdr.srcEp (bf p.hdr.w5 16 24) (p.hdr.w6 % m32) else s

/-- An up segment that is neither stale nor a duplicate is combined and receipted (07 R254, R262). -/
def State.collUpPut (s : State) (t q c ci i : Nat) (isExp now : Bool) (p : Packet) : State :=
  let h := p.hdr
  let oper := bf h.w6 32 8; let et := bf h.w6 40 4; let mode := bf h.w6 44 1
  let s := if isExp then s.modUp t q i fun u => u.takeExp c et h.poison (unpackVals (expSize et) p.data)
    else
      let vals := if mode = 1 then (unpackVals (laneBits et / 8) p.data).map (laneDec et)
        else (unpackVals (unitSize oper et) p.data).map fun (x : Nat) => ((0 : Nat), (x : Int))
      s.modUp t q i fun u => u.take c oper et mode h.poison vals
  let s := if now then s.alyReceipt t h.srcEp ci q
    else s.modUp t q i fun u => { u with owed := u.owed ++ [(c, ci)] }
  s.alyGo t

/-- An up segment of a live operation at its slot (07 R253, R254). -/
def State.collUpAt (s : State) (t q c ci i : Nat) (isExp : Bool) (p : Packet) : State :=
  let now := s.upDue t q i
  if i < s.upLo t q then s.alyDup t p true
  else if !s.upCovers t q i then s.bump ALY_CNT_STALE.ev
  else
    let u := (s.upSlot t q i).getD {}
    if u.rel then s.alyDup t p now
    else if (if isExp then u.expInputs else u.inputs).contains c then s.alyDup t p now
    else s.collUpPut t q c ci i isExp now p

/-- An up segment that came over the edge to child `c`, by its operation (07 R262). -/
def State.collUpSort (s : State) (t c ci : Nat) (p : Packet) : State :=
  match s.opSort t (p.hdr.w6 % m32) with
  | (.stale, s) => s.bump ALY_CNT_STALE.ev
  | (.prev, s) => s.alyDup t p true
  | (.live q, s) => s.collUpAt t q c ci (bf ci 0 23) (bit ci 23) p

/-- COLL_UP_RECEIVE: an up segment from a child (07 R254, R261, R262, R266, R268). -/
def execCollUpReceive (s : State) : Host.Outcome State Fault Refusal :=
  .next (s.withPkt 8 fun s p =>
    let h := p.hdr; let t := h.w5 % 4096
    if s.trSt t = trIDLE then s.alyToken t h.srcEp (h.w6 % m32) 0 true
    else if s.trSt t ≠ trACTIVE then s
    else
      match (s.trKids t).find? fun c => s.edgeDev t c == epDev h.srcEp with
      | none => s
      | some c =>
        s.collUpSort t c (bf h.w5 16 24) p)

/-- A down segment that is neither stale nor a duplicate is kept and receipted (07 R254, R264). -/
def State.collDnPut (s : State) (t q ci i : Nat) (isExp now : Bool) (p : Packet) : State :=
  let h := p.hdr
  let oper := bf h.w6 32 8; let et := bf h.w6 40 4; let mode := bf h.w6 44 1
  -- a copy sent to this device alone: the masks as they stand
  let ports := if h.mcast then p.copies else clrBit (s.mcPorts t) p.port
  let links := if h.mcast then p.links else s.mcLinks t
  let s := if isExp then
      s.modDn t q i fun d =>
        { d with exps := some (unpackVals (expSize et) p.data), et, mode := 1, poison := d.poison || h.poison, ports, links }
    else
      let vals := unpackVals (unitSize oper et) p.data
      s.modDn t q i fun d => { d with seg := some vals, oper, et, mode, poison := d.poison || h.poison, ports, links }
  let s := if now then s.alyReceipt t h.srcEp ci q else s.modDn t q i fun d => { d with owed := d.owed ++ [ci] }
  s.alyGo t

/-- A down segment of a live operation at its slot (07 R253, R254). -/
def State.collDnAt (s : State) (t q ci i : Nat) (isExp : Bool) (p : Packet) : State :=
  let now := s.dnDue t q i
  if i < s.dnLo t q then s.alyDup t p true
  else if !s.dnCovers t q i then s.bump ALY_CNT_STALE.ev
  else
    let d := (s.dnSlot t q i).getD {}
    if d.rel || (if isExp then d.exps.isSome else d.seg.isSome) then s.alyDup t p now
    else s.collDnPut t q ci i isExp now p

/-- COLL_DN_RECEIVE: a down segment from the parent (07 R254, R261, R264, R266, R268). -/
def execCollDnReceive (s : State) : Host.Outcome State Fault Refusal :=
  .next (s.withPkt 9 fun s p =>
    let h := p.hdr; let t := h.w5 % 4096; let ci := bf h.w5 16 24
    if s.trSt t = trIDLE then s.alyToken t h.srcEp (h.w6 % m32) 0 true
    else if s.trSt t ≠ trACTIVE ∨ s.trRoot t ∨ s.edgeDev t 64 ≠ epDev h.srcEp then s
    else
      match s.opSort t (h.w6 % m32) with
      | (.stale, s) => s.bump ALY_CNT_STALE.ev
      | (.prev, s) => s.alyDup t p true
      | (.live q, s) => s.collDnAt t q ci (bf ci 0 23) (bit ci 23) p)

/-- ALY_RECEIPT: the held segment it names is received; one that names none is ignored (07 R254, R263). -/
def execAlyReceipt (s : State) : Host.Outcome State Fault Refusal :=
  .next (match s.takeQs 7 with
    | none => s
    | some (a, s) =>
      let w := a.msg.payload; let t := w % 4096; let i := bf w 12 24; let q := bf w 36 28
      match s.edgeOf t (epDev a.msg.src) with
      | none => s
      | some e =>
        let mine (h : HeldSeg) : Bool := h.edge == e && h.idx == i && h.opseq % 2 ^ 28 == q
        if s.trSt t = trACTIVE ∧ (s.tree t).held.any mine then
          ((s.modTree t fun r => { r with held := r.held.filter fun h => !mine h }).alyGo t).activityUpd
        else s)

/-- SEGMENT_RETX_TIMER: a held segment is sent again, or the node aborts after the last resend (07 R263, R278). The timer is
stopped while the edge is stalled. -/
def execSegmentRetxTimer (t : TreeNo) (edge : Nat) (down : Bool) (idx opseq : Nat) (s : State) : Host.Outcome State Fault Refusal :=
  let t := t.val
  .next (match (s.tree t).held.find? fun h => h.edge == edge && h.down == down && h.idx == idx && h.opseq == opseq with
    | none => s
    | some h =>
      if (s.edgePort t edge).isNone then s
      else if h.waiting then s.sendSeg t h false
      else if h.resends ≥ s.get ALY_CFG.retries then (s.abortTree t 3).activityUpd
      else
        let s := s.modTree t fun r =>
          { r with held := modFirst (fun x => x.edge == edge && x.down == down && x.idx == idx && x.opseq == opseq)
                             (fun x => { x with resends := x.resends + 1 }) r.held }
        (s.bump ALY_CNT_RETX.ev).sendSeg t h false)

/-- ALY_TOKEN: an arrival, a release, an abort or its answer (07 R267, R278, R279). -/
def execAlyToken (s : State) : Host.Outcome State Fault Refusal :=
  .next (match s.takeQs 8 with
    | none => s
    | some (a, s) =>
      let w := a.msg.payload; let t := w % 4096; let qw := bf w 12 32
      let e := s.edgeOf t (epDev a.msg.src)
      let dir := bf w 44 1
      (if bit w 45 then
        if dir = 1 then
          if (s.tree t).abortWait = [] then s
          else s.modTree t fun r => { r with abortWait := r.abortWait.filter fun (_, dev) => dev != epDev a.msg.src }
        else (s.alyToken t a.msg.src qw 1 true).abortTree t 7
      else if s.trSt t ≠ trACTIVE then s
      else
        match e with
        | none => s
        | some e =>
          if dir = 0 then
            if e = 64 then s
            else
              match s.opSort t qw with
              | (.live q, s) =>
                if (s.tree t).doneOps.contains q then s.alyToken t (s.edgeDev t e) q 1 false
                else (s.modTree t fun r => { r with arrived := addMem r.arrived (q * 128 + e) }).alyGo t
              | (k, s) =>
                -- one of an operation released here before
                if (k == .prev || decide (subMod m32 ((s.tree t).cur % m32) qw < 2 ^ 31)) && !((s.tree t).skipped.any (· % m32 == qw)) then
                  s.alyToken t (s.edgeDev t e) qw 1 false
                else s
          else if e ≠ 64 then s
          else
            match (s.tree t).arrSent.find? fun q => q % m32 == qw with
            | some q => (s.release0 t q).alyGo t
            | none => s).activityUpd)

/-- TOKEN_RESEND_TIMER: arrivals not yet released, and abort tokens not yet answered, are sent again (07 R267, R279). -/
def execTokenResendTimer (t : TreeNo) (s : State) : Host.Outcome State Fault Refusal :=
  let t := t.val
  let s := (s.tree t).arrSent.foldl (fun s q => (s.alyToken t (s.edgeDev t 64) q 0 false).bump ALY_CNT_TOKEN_RETX.ev) s
  .next (if (s.tree t).abortWait = [] then s else s.abortTokens t)

/-- OP_TIMEOUT: an operation has been in progress for longer than op_timeout_ms (07 R278). -/
def execOpTimeout (t : TreeNo) (s : State) : Host.Outcome State Fault Refusal :=
  .next (if s.on ALY_CFG.op_timeout_ms ∧ s.treeBusy t.val then (s.abortTree t.val 4).activityUpd else s)

end Sys2Proof.Machine
end

