-- ==== Sys2Proof/Machine/TrainEnd.lean ====
section
/-!
DEFINITION. Machine/TrainEnd.lean: the end of a training: PARAM and the fresh start; the frame slot of a port in any state;
the reset limit (03 R74, R100, R101, R107 to R110, R554).
-/
namespace Sys2Proof.Machine

/-- A fresh start (03 R101): Escrow is handed back, partial packets are closed, sequences and credit totals start at 0, and
the peer's Vault holds what it says it holds, less what it has returned `since`. Of the flits that have left this Vault since the
opening PARAM gave its occupancy, those not returned yet are still to be. -/
def State.freshStart (s : State) (p : Nat) (m : ParamMsg) (since : List (Nat × Nat)) : State :=
  let q := s.port p
  let owed := if q.openSent.isNone then [] else
    (List.range 18).map fun c =>
      (c, q.opening.occ.getD c 0 - s.wholeOcc p c - subMod (2 ^ 32) (tcnt q.returnedTotal c) (q.opening.returned.getD c 0), q.periods)
  let s := (s.handBack p).closeRx p
  let s := s.modPort p fun q =>
    { q with returnedTotal := [], receivedTotal := [], fresh := true, retPend := owed.filter fun (_, n, _) => n > 0,
             ctrlIn := q.ctrlIn.filter fun m => match m.msg with | .creditSync _ => false | _ => true }
  (List.range 18).foldl (fun s c => s.set (LNK_VAULT_USED.used p c) (m.occ.getD c 0 - tcnt since c)) s

/-- What the peer's opening PARAM does (03 R77, R100, R101): its V, E, floors and caps are taken, and the link resumes from X
or starts fresh. The resuming replay counts from a new series of failed replays (R88). -/
def State.paramOpen (s : State) (p : Nat) (m : ParamMsg) (x : CtrlArr) : State :=
  let s := s.modPort p fun q => { q with peerV := m.v, peerE := m.e, peerOpen := some m, peerOpenAt := x.clk }
  let s := (List.range 18).foldl (fun s c =>
    (s.set (LNK_VAULT_USED.peer_floor p c) (m.floors.getD c 0)).set (LNK_VAULT_USED.peer_cap p c) (m.caps.getD c 0)) s
  let s := s.set (LNK_ERR_WIN.failed_replays p) 0
  if (s.port p).fresh ∨ m.fresh then s.freshStart p m x.since
  else if !inSpan (s.get (LNK_ESCROW.oldest p)) (s.get (LNK_ESCROW.next p)) m.x then
    (s.raise kRESUME_MISMATCH (srcOf 0x10 p) 0 0).freshStart p m x.since
  else
    let s := (s.release p m.x).modPort p fun q => { q with lastReplay := none }
    let s := if (s.port p).escrow = [] then s else s.startReplay p m.x
    s.syncCredits p m.returned x.since

/-- The answer to the peer's opening PARAM: this side's opening itself where it has not been sent yet, else an answer that
repeats it (03 R554). -/
def State.paramAnswer (s : State) (p : Nat) : State :=
  let mine (w : CtrlWait) : Bool := match w.msg with | .param _ => true | _ => false
  if (s.port p).ctrlQ.any mine then
    s.modPort p fun q => { q with ctrlQ := modFirst mine (fun w => { w with msg := .param { echo := true } }) q.ctrlQ }
  else s.ctrlSend p (.param { echo := true })

/-- The round trip, from this side's opening PARAM to the arrival of the PARAM that echoes it (03 R107), compared in
quarter-nanoseconds. LNK_STAT.reach_short clears at a measurement that is not short (DESIGN CHOICE, log entry 93). -/
def State.paramEcho (s : State) (p : Nat) (m : ParamMsg) (x : CtrlArr) : State :=
  let rt := x.now - (s.port p).openSent.getD x.now
  let short := decide (rt > 4 * (1300 + 10000 * s.get (LNK_REACH.granted p) + m.turnaround))
  let s := s.modPort p fun q => { q with echoed := some m }
  let s := s.setB (LNK_STAT.reach_short p) short
  if short then s.raise kREACH_SHORT (srcOf 0x10 p) 0 0 else s

/-- The PARAM state ends once this side's PARAMs are sent and the peer has echoed its opening (03 Table 3.3). -/
def State.paramDone (s : State) (p : Nat) : State :=
  let q := s.port p
  if s.linkState p = 7 ∧ q.echoed.isSome ∧ !(q.ctrlQ.any fun w => match w.msg with | .param _ => true | _ => false) then
    let fresh := q.fresh || (q.peerOpen.map (·.fresh)).getD false
    let s := s.withCoord fun s => (s.enterActive p).passActive p
    if fresh then s.abortFresh p else s
  else s

/-- PARAM: the oldest PARAM that has come, in the PARAM state (03 R554). -/
def execParam (p : PortNo) (s : State) : Host.Outcome State Fault Refusal :=
  let i := p.val
  .next (match takeFirst (fun m => match m.msg with | .param _ => true | _ => false) (s.port i).ctrlIn with
    | some (x@{ msg := .param m, .. }, r) =>
      let s := s.modPort i fun q => { q with ctrlIn := r }
      if s.linkState i ≠ 7 then s
      else
        let s := if (s.port i).peerOpen.isNone then (s.paramOpen i m x).paramAnswer i else s
        let s := if m.echo ∧ (s.port i).echoed.isNone then s.paramEcho i m x else s
        s.paramDone i
    | _ => s)

/-- FRAME_SEND: the frame slot of a port (03 R69, R74, Table 3.3). While a record of S5 waits for its internal reset, nothing is
forwarded (01 R28): the slot carries no flit and no QS message. -/
def execFrameSend (p : PortNo) (s : State) : Host.Outcome State Fault Refusal :=
  let i := p.val
  let st := s.linkState i
  .next (if (s.port i).pcs.mark > 0 then s.markSlot i
    else if s.role i = roleCell ∧ (st = stActive ∨ st = 11) then s.sendCell i
    else if st = stActive then (s.tryQuiet i).sendActive i
    else if s.role i = roleCell ∧ st ≠ 1 then s
    else (s.sendTraining i).paramDone i)

/-- RESET_LIMIT_EXPIRY: a port that has not reached ACTIVE within LNK_RESET_LIMIT is out of service (03 R108 to R110; 07
R278). -/
def execResetLimitExpiry (p : PortNo) (s : State) : Host.Outcome State Fault Refusal :=
  .next (if (s.port p.val).limitRunning ∧ !s.active p.val then (s.limitExpire p.val).settle.abortBroken else s)

end Sys2Proof.Machine
end

