-- ==== Sys2Proof/Machine/ClearOps.lean ====
section
/-!
DEFINITION. Machine/ClearOps.lean: what follows at once from records, sensors and register writes: FAULT_N, the throttle,
THERM_ALERT_N, Hallmark timers and the PPS output (11 R407, R408, R417; 12 R457, R458).
-/
namespace Sys2Proof.Machine

/-- A Hallmark timer fires and casts its votes (11 R408; 12 R434). -/
def State.timerFire (s : State) (i : Nat) : State :=
  let s := (s.set (HMK_TIMER1.enable i) 0).set (HMK_TIMER1.fired i) 1
  (bitsOf 64 (s.get (PWR_TIMER_MASK.mask i))).foldl (fun s d => s.castLease d 10) s

/-- A timer that is enabled and whose time has come fires. -/
def State.timerCheck (s : State) (i : Nat) : State :=
  if s.on (HMK_TIMER1.enable i) ∧ s.get (HMK_TIMER0.t i) ≤ s.now then s.timerFire i else s

/-- HMK_PPS_OUT may pulse (11 R407). -/
def State.ppsOn (s : State) : Bool :=
  let per := s.get HMK_PPS_OUT.period_us
  s.on HMK_PPS_OUT.enable && per != 0 && decide (s.get HMK_PPS_OUT.width_ns < per * 1000)

/-- The output is held low while it may not pulse. -/
def State.ppsUpd (s : State) : State :=
  if s.hmk.ppsFall.isSome ∧ !s.ppsOn then State.emit { s with hmk := { s.hmk with ppsFall := none } } (.pin .ppsOut false) else s

/-- Brings FAULT_N, its latch and CLH_STAT to what 11 R417 gives. While the IZG domain is off the latch holds. -/
def State.faultUpd (s : State) : State :=
  let ks := s.clh.live.map (·.2)
  let sevs := ks.map fun k => (kindSev k).getD 0
  let thr := s.get CLH_CFG.pin_thresh; let lost := s.get CLH_STAT.lost_sev
  let low := if s.dom 1 = dOff ∧ !s.pwr.tripped then s.clh.latch
    else sevs.any (fun v => decide (thr ≤ v)) || ks.any (fun k => bit (s.get (CLH_REACT.react k)) 4)
      || (lost != 15 && decide (thr ≤ lost)) || s.clh.latchHeld || s.pwr.tripped
  let s := ((s.set CLH_STAT.max_sev (if ks = [] then 15 else sevs.foldl max 0)).set CLH_STAT.uncleared ks.length).setB CLH_STAT.fault_pin low
  if low = s.clh.latch then s
  else State.emit { s with clh := { s.clh with latch := low } } (.pin .faultN !low)

/-- Whether a cause of the throttle holds (12 R457). -/
def State.throttleCause (s : State) : Bool :=
  s.pwr.hot || s.pwr.avsFailRaise != [] || s.on PWR_THERM.force
    || s.clh.live.any fun (_, k) => bit (s.get (CLH_REACT.react k)) 3

/-- Engages or releases the throttle (12 R457). The record's instance is AON's domain code (log entry 60). -/
def State.throttleUpd (s : State) : State :=
  let c := s.throttleCause
  if c = s.on PWR_TEMP.throttled then s
  else if c then ((s.set PWR_TEMP.throttled 1).set PWR_EVT.throttle_on 1).raise kTHROTTLE (srcOf 1 0) 0 0
  else (s.set PWR_TEMP.throttled 0).set PWR_EVT.throttle_off 1

/-- Brings THERM_ALERT_N to what 12 R458 gives. -/
def State.alertUpd (s : State) : State :=
  let a := s.pwr.hot || s.pwr.alertHot || s.pwr.tripped
  if a = s.on PWR_TEMP.alert then s else (s.setB PWR_TEMP.alert a).emit (.pin .thermAlertN !a)

/-- Everything that follows from the records in the ring and from CLH_CFG and CLH_REACT. -/
def State.clhUpd (s : State) : State := s.faultUpd.throttleUpd

end Sys2Proof.Machine
end

