-- ==== Sys2Proof/Machine/RegOps.lean ====
section
/-!
DEFINITION. Machine/RegOps.lean: register accesses: what an address reaches, reading and writing by access type, locks, the
records of accesses that reach nothing, and the Lockbox (00 R3 to R11, R550; 01 R13, R18 to R22; 08 R296 to R299; 10 R383 to
R387).
-/
namespace Sys2Proof.Machine

/-! ### Blocks of the local bus (01 Table 1.4, 11 Table 11.2) -/

/-- The index in an array of `n` elements of `step` bytes from `base` that holds an address; 0 outside it. -/
def elemOf (a base step n : Nat) : Nat := if base ≤ a ∧ a < base + step * n then (a - base) / step else 0

/-- The port or host link that an address names in the blocks RTE, TPT, TLR, ACC and HMK (00 R550; 11 Table 11.2): their arrays with
one element a port or a host link. -/
def instOf (a : Nat) : Nat :=
  elemOf a 0x2008000 0x20 64          -- RTE_PORT_STAT[p]
  + elemOf a 0x4000100 8 8            -- TPT_MSGID[n]
  + elemOf a 0x5000000 0x10 8         -- TLR_KEY_BASE[n], TLR_KEY_COUNT[n]
  + elemOf a 0x5000200 0x10 8         -- TLR_RBOOK_BASE[n], TLR_RBOOK_SIZE[n]
  + elemOf a 0x5100000 0x8000 8       -- TLR_APT_WIN[n]
  + elemOf a 0x9000080 8 8            -- ACC_CHARTER_RANGE[n]
  + elemOf a 0xC001000 8 64           -- HMK_PORT[p]

/-- The block whose range holds a local-bus address: its source (block code × 256 + instance) and its power domain. Of PWR, CLK and
IZG no address names one of the instances that R550 lists, and the source has instance 0 (DEDUCED: log entry 108). -/
def blockOf (a : Nat) : Option (Nat × Nat) :=
  let m := a / 0x100000
  if m = 0 then some (srcOf 0 0, 0)
  else if m = 1 then some (srcOf 1 0, 0)
  else if m = 2 then some (srcOf 2 0, 0)
  else if m = 3 then some (srcOf 3 0, 1)
  else if m = 4 then some (srcOf 4 0, 0)
  else if 0x10 ≤ m ∧ m < 0x14 then
    let p := (a - 0x1000000) / 0x10000
    some (srcOf (if a % 0x10000 < 0x8000 then 0x10 else 0x11) p, 8 + p / 8)
  else if 0x80 ≤ m ∧ m < 0x88 then some (srcOf 0x26 (m - 0x80), 2 + (m - 0x80) / 2)
  else
    match m / 16 with
    | 2 => some (srcOf 0x20 (instOf a), 6)
    | 3 => some (srcOf 0x21 0, 6)
    | 4 => some (srcOf 0x22 (instOf a), 6)
    | 5 => some (srcOf 0x23 (instOf a), engTLR)
    | 6 => some (srcOf 0x24 0, engLDG)
    | 7 => some (srcOf 0x25 0, engALY)
    | 9 => some (srcOf 0x27 (instOf a), 6)
    | 0xA =>
      let o := a % 0x1000000
      some (srcOf 0x28 (if 0x10000 ≤ o ∧ o < 0x14000 then (o - 0x10000) / 0x100 else 0), engMOV)
    | 0xB =>
      let i := a % 0x1000000 / 0x1000
      some (srcOf 0x29 (if i < 128 then i else 0), if i < 2 then 1 else if i = 2 then engLDG else if i = 3 then engTLR else engMOV)
    | 0xC => some (srcOf 0x2A (instOf a), 0)
    | 0xD => some (srcOf 0x2B 0, 1)
    | 0xE => some (srcOf 0x2C 0, 6)
    | 0xF => some (srcOf 0x2D 0, 6)
    | _ => if 0x100000000 ≤ a ∧ a < 0x10C000000 then some (srcOf 0x30 ((a - 0x100000000) / 0x800000), 6) else none

/-- Whether a domain is off: OFF, or waking from OFF (01 R13). -/
def State.domIsOff (s : State) (d : Nat) : Bool := s.dom d == dOff || (s.dom d == dWaking && tcnt s.pwr.wakeFrom d == dOff)

/-! ### Records of accesses (00 R550, 01 R13) -/

def offOf (a : Access) : Nat := a.addr.toNat
/-- Whether an access came through a BAR region that maps no local-bus address (08 Table 8.5). -/
def offBus (a : Access) : Bool := match a.via with | some v => !(v.fn == 0 && v.bar == 0) | none => false

/-- An access to an unmapped offset. The detail's size field has 8 bits: of an access longer than 255 bytes (a Mover piece) it
holds the length modulo 256 (DESIGN CHOICE: R550 gives the field and no rule for such a length; log entry 88). -/
def State.unmapped (s : State) (a : Access) (write : Bool) : State :=
  let src := match a.via with
    | some v => if (offBus a) then srcOf 0x27 v.hl.val else ((blockOf (offOf a)).map (·.1)).getD 0
    | none => ((blockOf (offOf a)).map (·.1)).getD 0
  let via := match a.via with
    | some v => 2 ^ 9 + v.bar.val * 2 ^ 10 + v.fn.toNat * 2 ^ 12 + v.hl.val * 2 ^ 21
    | none => 0
  s.raise kUNMAPPED src (offOf a) (a.size.toNat + b2n write * 2 ^ 8 + via)

/-- An access to a block whose domain is off. -/
def State.domainOffRec (s : State) (addr : Nat) : State := s.raise kDOMAIN_OFF (srcOf 0 0) addr 0

/-! ### What an access reaches -/

inductive Place where
  | reg (r : RegRow) (ix : List Nat) (key : Nat)   -- a register and its 64-bit address in `regs`
  | tly (a j : Nat)                                -- granted Tally counter j of an account's control page (09 Table 9.19)
  | msix (n fn off : Nat)                          -- MSI-X table of a function
  | pba (n fn off : Nat)                           -- its pending bits
  | sram                                           -- SRAM diagnostic window (01 R21)
  | owin                                           -- outbound window (08 R300)
  | badBell (n fn off : Nat)                       -- a doorbell page, at a size or alignment that it does not take (08 R298; 09 R334)
  | other                                          -- doorbell pages and Apertures, which have rows of their own
  | unmapped
  deriving DecidableEq, Repr

/-- Whether a function exists: PF0, PF1, or an enabled VF (08 R291, R292). -/
def State.fnExists (s : State) (n fn : Nat) : Bool :=
  s.hlPresent n && (!s.recovering || (n == 0 && fn == 0)) && (decide (fn < 2) || ((s.hl n).vfEnable && decide (fn ≤ 1 + (s.hl n).numVfs)))

/-- The accounts that are not REMOVED, ascending. -/
def State.boundAccts (s : State) : List Nat :=
  s.regs.filterMap fun (k, w) =>
    if 0x9100000 ≤ k ∧ k < 0x9180000 ∧ (k - 0x9100000) % 0x20 = 8 ∧ bf w.toNat 32 3 ≠ 0 then some ((k - 0x9100000) / 0x20) else none

/-- The account bound to a function, in slice style by its page index (09 R325). -/
def State.acctAt (s : State) (n fn page : Nat) : Option Nat :=
  s.boundAccts.find? fun a =>
    s.aHl a == n && s.aFn a == fn
      && if s.on (ACC_BIND0.slice a) then s.slices n && s.get (ACC_BIND0.page a) == page && page != 0 else page == 0

/-- Instances that Table 10.6 and 08 R286 leave out. -/
def State.rowPresent (s : State) (r : RegRow) (ix : List Nat) : Bool :=
  if 0x8000000 ≤ r.base ∧ r.base < 0x8800000 then s.hlPresent (ix.headD 0)
  else if 0xB000000 ≤ r.base ∧ r.base < 0xC000000 then decide (ix.headD 0 < 4 ∨ 64 ≤ ix.headD 0)
  else true

def sizeOk (addr size : Nat) : Bool := (size == 4 || size == 8) && addr % size == 0

/-- A register place at an address of `regs`. -/
def State.regPlace (s : State) (key : Nat) : Place :=
  match findReg key with
  | some (r, ix) => if s.rowPresent r ix then .reg r ix key else .unmapped
  | none => .unmapped

/-- What a local-bus address reaches (01 Table 1.4). The SRAM diagnostic window takes an access of any size and alignment (DESIGN
CHOICE: R4 and R5 speak of registers, and the spec gives the window no access sizes; log entry 88). -/
def State.busPlace (s : State) (addr size : Nat) : Place :=
  if 0x100000000 ≤ addr ∧ addr < 0x10C000000 then .sram
  else if 2 ^ 47 ≤ addr then .owin
  else if sizeOk addr size then s.regPlace (addr / 8 * 8) else .unmapped

/-- An offset in an account's control page (09 R348 on). -/
def State.pagePlace (s : State) (a page n off : Nat) : Place :=
  if 0x8000 ≤ off ∧ off < 0xA000 then .tly a ((off - 0x8000) / 8)
  else if 0xC000 ≤ off ∧ off < 0xC020 then
    if s.slices n ∧ page = 0 then s.regPlace (2 ^ 56 + 2 ^ 40 + n * 0x100 + (off - 0xC000) / 8 * 8) else .unmapped
  else if off < 0x8000 then s.regPlace (2 ^ 56 + a * 0x10000 + off / 8 * 8) else .unmapped

/-- The MSI-X table and its PBA at a base (08 Table 8.5). -/
def msixPlace (n fn base off size : Nat) : Place :=
  if !sizeOk off size then .unmapped
  else if base ≤ off ∧ off < base + 0x8000 then .msix n fn (off - base)
  else if base + 0x8000 ≤ off ∧ off < base + 0x8100 then .pba n fn (off - base - 0x8000)
  else .unmapped

/-- What an access reaches. -/
def State.place (s : State) (a : Access) : Place :=
  let off := (offOf a); let size := a.size.toNat
  match a.via with
  | none => s.busPlace off size
  | some v =>
    let n := v.hl.val; let fn := v.fn.toNat
    if fn = 0 then
      if v.bar = 0 then (if off < 0x10000000 ∧ sizeOk off size then s.regPlace (off / 8 * 8) else .unmapped)
      else if v.bar = 1 then msixPlace n fn 0 off size else .unmapped
    else if v.bar = 1 ∧ !((off % 0x1000 < 0x400 ∧ size = 8 ∧ off % 8 = 0) ∨ (0x400 ≤ off % 0x1000 ∧ size = 64 ∧ off % 64 = 0)) then
      .badBell n fn off
    else if v.bar ≠ 0 then .other
    else
      let slice := fn = 1 ∧ s.slices n
      let tbl := if slice then 0x8000000 else 0x10000
      if tbl ≤ off then msixPlace n fn tbl off size
      else if !sizeOk off size then .unmapped
      else
        match s.acctAt n fn (if slice then off / 0x10000 else 0) with
        | some acct => s.pagePlace acct (off / 0x10000) n (off % 0x10000)
        | none => .unmapped

/-- The domain of what a place holds: control pages and BAR tables are of ACC and of the host bridge. -/
def placeDom (a : Access) (p : Place) : Nat :=
  match p with
  | .reg _ _ key => if key < 2 ^ 56 then ((blockOf key).map (·.2)).getD 0 else 6
  | .tly _ _ => 6
  | .msix n _ _ => 2 + n / 2
  | .pba n _ _ => 2 + n / 2
  | _ => if (offBus a) then 0 else ((blockOf (offOf a)).map (·.2)).getD 0

/-! ### Reading (00 R8) -/

/-- Whether a Mover channel is a descriptor channel now: as it was started, or while IDLE by MOV_CFG (10 R371). -/
def State.movDesc (s : State) (c : Nat) : Bool :=
  if s.on (MOV_STAT.state c) then s.on (MOV_STAT.mode c) else decide (s.get MOV_CFG.reg_channels ≤ c)

/-- A register as it reads: reserved bits and WO fields as 0 (00 R7, Table 0.4; 10 Table 10.10; 09 Table 9.20; 08 Table 8.16, whose `present` is 1 wherever the
register is mapped). -/
def State.regValue (s : State) (r : RegRow) (ix : List Nat) (key : Nat) : Nat :=
  let w := ((tget s.regs key).getD (BitVec.ofNat 64 (r.rst.value ix))).toNat
  let shown := maskOf ((r.fields.filter fun (_, _, acc) => acc != .wo).flatMap fun (lo, len, _) => (List.range len).map (· + lo))
  let c := ix.headD 0
  if r.base = (ACC_PAGE_ID.reg 0).addr then c + s.aGen c * 2 ^ 16 + s.aSt c * 2 ^ 32 + s.aHl c * 2 ^ 36
  else if (MOV_SRC.reg 0).addr ≤ r.base ∧ r.base < (MOV_STAT.reg 0).addr ∧ s.movDesc c then 0
  else if r.base = (HBI_LINK_STAT.reg 0).addr then w ||| 1
  else if r.base = HMK_NOW.reg.addr then s.stamp
  else w &&& shown

/-- The bits a 4- or 8-byte access at an offset covers, and their lowest. -/
def coverOf (addr size : Nat) : Nat × Nat := if size = 8 then (0, 64) else if addr % 8 = 4 then (32, 32) else (0, 32)

/-- A read of a place clears the RC fields wholly within the bits read (00 R4); qdepth_max then holds the depth as it stands, the
greatest since (04 R158). -/
def State.rcClear (s : State) (r : RegRow) (ix : List Nat) (key lo len : Nat) : State :=
  let clr := maskOf ((r.fields.filter fun (l, n, acc) => acc == .rc && decide (lo ≤ l ∧ l + n ≤ lo + len)).flatMap
    fun (l, n, _) => (List.range n).map (· + l))
  let rf := RF.whole key (r.rst.value ix)
  let w := (s.word rf).toNat
  let s := s.setWord rf (BitVec.ofNat 64 (w ^^^ (w &&& clr)))
  if r.base = (RTE_PORT_STAT3.reg 0).addr then s.qUpd (ix.headD 0) else s

/-- A dword of a function's MSI-X table: its vector control reads masked until unmasked (PCIe Base Specification). -/
def State.msixDword (s : State) (n fn d : Nat) : Nat :=
  if d % 4 = 3 then b2n (!(s.fnc n fn).msixMask.contains (d / 4)) else ((tget (s.fnc n fn).cfg (2 ^ 16 + d)).getD 0)

/-- The value of a place for an access of a size at an offset. -/
def State.placeRead (s : State) (p : Place) (addr size : Nat) : Nat × State :=
  let (lo, len) := coverOf addr size
  match p with
  | .reg r ix key => (bf (s.regValue r ix key) lo len, s.rcClear r ix key lo len)
  | .tly a j =>
    let i := s.get (ACC_TLY_USER.base a) + j
    (if j < s.get (ACC_TLY_USER.count a) ∧ i ≤ 1023 then bf (s.get (TLY_CNT.count i)) lo len else 0, s)
  | .msix n fn off =>
    let d := off / 4
    (if size = 4 then s.msixDword n fn d else s.msixDword n fn d + s.msixDword n fn (d + 1) * m32, s)
  | .pba n fn off => (maskOf ((List.range (8 * size)).filter fun i => (s.fnc n fn).msixPend.contains (8 * off + i)), s)
  | .sram => if 0x105000000 ≤ addr ∧ addr + size ≤ 0x109000000 then s.poolRead (addr - 0x105000000) size else s.free (8 * size)
  | _ => (0, s)

/-! ### Writing (00 R8, R9) -/

/-- Fields whose writes are commands of their own: register base and lowest bit. -/
def ownFields : List (Nat × Nat) :=
  [((ACC_RING1.reg 0 0).addr, 16), ((ACC_EQ1.reg 0 0).addr, 21), ((LNK_REACH.reg 0).addr, 0), ((LNK_REACH.reg 0).addr, 8),
   (IZG_LOCK.reg.addr, 0), ((TLR_CTR.reg 0).addr, 0), ((TLY_CNT.reg 0).addr, 0), ((LDG_ACC_CTX.reg 0).addr, 0),
   ((LDG_ACC_CTX.reg 0).addr, 16), ((LDG_CTX0.reg 0).addr, 24), (CLH_ACK.reg.addr, 0), (ASY_CTL.reg.addr, 0),
   ((ACC_STUB0.reg 0).addr, 15), (PWR_VOTE.reg 0 |>.addr, 8), (PWR_VOTE.reg 0 |>.addr, 9)]

/-- One field written: `m` is the part of it that the write covers. -/
def accWrite (acc : Acc) (old new m : Nat) : Nat :=
  match acc with
  | .rw | .rwl => (old ^^^ (old &&& m)) ||| (new &&& m)
  | .w1c => old ^^^ (old &&& new &&& m)
  | .w1s => old ||| (new &&& m)
  | .ro | .rc | .wo => old

/-- The access type of a field as it acts: the rules of the Izger pairs' Lockboxes lock (10 R389). -/
def actAcc (r : RegRow) (ix : List Nat) (acc : Acc) : Acc :=
  if r.base = (LBX_STAGE.reg 0 0).addr ∧ ix.headD 0 < 2 ∧ acc = .rw then .rwl else acc

/-- Whether a write to a field is ignored for a rule of its register (03 Table 3.24; 09 R329, R339). -/
def State.fieldHeld (s : State) (r : RegRow) (ix : List Nat) (lo v : Nat) : Bool :=
  let a := ix.headD 0; let k := ix.getD 1 0
  if r.base = (ACC_RING0.reg 0 0).addr then s.on (ACC_RING1.enable a k)
  else if r.base = (ACC_RING1.reg 0 0).addr ∧ lo = 0 then s.on (ACC_RING1.enable a k) || decide (v < 6 ∨ 16 < v)
  else if r.base = (ACC_EQ0.reg 0 0).addr then s.on (ACC_EQ1.enable a k)
  else if r.base = (ACC_EQ1.reg 0 0).addr ∧ lo = 0 then s.on (ACC_EQ1.enable a k) || decide (v < 6 ∨ 20 < v)
  else if r.base = (PRT_ROLE.reg 0).addr ∧ lo = 0 then decide (5 < v)
  else if (LDG_CTX0.reg 0).addr ≤ r.base ∧ r.base ≤ (LDG_CTX7.reg 0).addr then
    s.on (LDG_CTX0.enable a) && !(r.base = (LDG_CTX0.reg 0).addr && lo = 32)
  else false

/-- What a refused field write leaves behind (09 Table 9.23; 06 R213). -/
def State.fieldHeldRec (s : State) (r : RegRow) (ix : List Nat) (lo v key : Nat) : State :=
  let a := ix.headD 0
  if (r.base = (ACC_RING1.reg 0 0).addr ∧ lo = 0 ∧ !s.on (ACC_RING1.enable a (ix.getD 1 0)) ∧ (v < 6 ∨ 16 < v))
    ∨ (r.base = (ACC_EQ1.reg 0 0).addr ∧ lo = 0 ∧ !s.on (ACC_EQ1.enable a (ix.getD 1 0)) ∧ (v < 6 ∨ 20 < v)) then
    s.set (ACC_PAGE_ERR.bad_size a) 1
  else if (LDG_CTX0.reg 0).addr ≤ r.base ∧ r.base ≤ (LDG_CTX7.reg 0).addr then s.raise kLDG_CTX_BUSY (srcOf 0x24 0) key 0
  else s

/-- A whole write that a register refuses: the state it leaves (04 R140; 05 R202; 07 R250; 09 Table 9.18; 10 R373; 11 R416; 12 Table
12.18). -/
def State.regRefuse (s : State) (r : RegRow) (ix : List Nat) (key : Nat) : Option State :=
  let i := ix.headD 0
  if (ALY_TREE0.reg 0).addr ≤ r.base ∧ r.base ≤ (ALY_TREE3.reg 0).addr then
    if s.trSt i = trIDLE then none else some (s.raise kTREE_BUSY (srcOf 0x25 0) key 0)
  else if r.base = (ACC_BIND0.reg 0).addr ∨ r.base = (ACC_BIND1.reg 0).addr then
    if s.aSt i = aREMOVED then none else some s
  else if (MOV_SRC.reg 0).addr ≤ r.base ∧ r.base < (MOV_STAT.reg 0).addr then
    if s.on (MOV_STAT.state i) ∨ s.movDesc i then some (s.raise kMOV_BUSY (srcOf 0x28 i) key 0) else none
  else if (r.base = (PWR_VOTE.reg 0).addr ∨ r.base = (PWR_DOM.reg 0).addr) ∧ !isDomain i then some s
  else if r.base = (CLH_REACT.reg 0).addr ∧ (kindSev i).isNone then some s
  else if r.base = TLR_KEY_INVAL.reg.addr ∧ s.get TLR_KEY_INVAL.done = 0 then some (s.raise kINVAL_BUSY (srcOf 0x23 0) key 0)
  else if (RTE_HALL_CTL.reg 0 0).addr ≤ r.base ∧ r.base < (RTE_MC_PORTS.reg 0).addr then
    if s.on RTE_CFG.tables_open ∨ s.get (if i = 0 then RTE_TBL_STAT.obverse else RTE_TBL_STAT.reverse) = 0 then none
    else some ((s.set RTE_TBL_STAT.refused 1).raise kTABLE_BUSY (srcOf 0x20 0xFF) key 0)
  else none

/-- A register's value as it reads back after a write (03 R77, Table 3.25; 04 Table 4.12; 05 Table 5.18; 06 Table 6.13; 07 Table
7.14; 10 Table 10.8; 11 Tables 11.5, 11.8; 12 Tables 12.8, 12.10, 12.13; 14 Table 14.14). -/
def normWord (r : RegRow) (ix : List Nat) (w raw : Nat) : Nat :=
  let fix (lo len : Nat) (f : Nat → Nat) : Nat := (w ^^^ (w &&& ((2 ^ len - 1) <<< lo))) ||| (f (bf w lo len) <<< lo)
  let one (x : Nat) : Nat := max 1 x
  if r.base = (PRT_TARGET.reg 0).addr then fix 0 2 (min 2)
  else if r.base = (LNK_VAULT_CLASS.reg 0 0).addr ∧ ix.getD 1 0 = 16 then fix 0 18 (max 66)
  else if r.base = (ALY_TREE0.reg 0).addr then fix 48 5 one
  else if r.base = (LDG_CTX0.reg 0).addr then fix 32 16 (min 16384)
  else if r.base = PWR_THERM.reg.addr then
    let w' := fix 24 3 one
    (w' ^^^ (w' &&& 0xFF)) ||| min 125 (bf w 0 8)
  else if r.base = PWR_CFG.reg.addr then fix 32 2 (min 1 ·)
  else if r.base = RTE_POLICY.reg.addr then
    (if bf w 0 2 = 3 then 0 else bf w 0 2) + (if bf w 2 2 = 3 then 0 else bf w 2 2) * 4
  else if r.base = TLR_KEY_INVAL.reg.addr then fix 32 2 fun v => if v = 3 then 0 else v
  else if r.base = (TLY_SEL.reg 0).addr then fix 24 3 fun v => if 6 ≤ v then 0 else v
  else if r.base = PWR_AVS_CFG.reg.addr then fix 8 8 one
  else if r.base = HMK_CFG.reg.addr then fix 48 16 one
  else if r.base = MOV_CFG.reg.addr then (if bit raw 6 then 63 else w)
  else if r.base = IZG_SRAM_CFG.reg.addr then
    let w' := fix 0 16 one
    (w' ^^^ (w' &&& (0xFF <<< 16))) ||| (one (bf w 16 8) <<< 16)
  else w

/-- Izger sets a bank of the reach pool ON or, with no byte of it claimed, in RETENTION: by its vote on the bank (01 R16; 12 R437; by
which write is a DESIGN CHOICE, log entry 107). -/
def State.bankSet (s : State) (d : Nat) (on : Bool) : State :=
  if 38 ≤ d ∧ d < 42 then s.setDom d (if on ∨ d - 38 < s.reachBanks then dOn else dRet) else s

/-- Izger's and the fabric manager's votes as a write of PWR_VOTE[d] gives them (12 R434). Izger's vote on Alloy stays while a
tree holds it (07 R251). -/
def State.voteWrite (s : State) (d new cov : Nat) : State :=
  let s := if bit cov 8 then s.bankSet d (bit new 8) else s
  let s := if bit cov 8 then (if d = engALY ∧ !bit new 8 ∧ s.on ALY_STAT.active then s else s.vote d 8 (bit new 8)) else s
  if bit cov 9 then s.vote d 9 (bit new 9) else s

/-- What else follows from a register's new value. -/
def State.regHook (s : State) (r : RegRow) (ix : List Nat) (old new cov : Nat) (w : Nat) : State :=
  let i := ix.headD 0
  if r.base = (HBI_LTR.reg 0).addr then
    if old ≠ w ∧ (s.hl i).ltrEn then s.emit (.hostMsg i 0 msgLtr w) else s
  else if r.base = (HBI_PF0_SRC.reg 0).addr ∨ r.base = TOP_STATE_EVT.reg.addr ∨ r.base = (LNK_EVT.reg 0).addr
      ∨ r.base = IZG_MBOX_CTL.reg.addr ∨ r.base = (TLY_OVF.reg 0).addr ∨ r.base = (TLY_SEL.reg 0).addr then s.intxAll
  else if r.base = (PWR_VOTE.reg 0).addr then s.voteWrite i new cov
  else if r.base = (PWR_CLIENT_MASK.reg 0).addr then s.hostVotes i
  else if r.base = (PWR_DOM.reg 0).addr then
    if bit old 6 ∧ !bit w 6 then (s.set (PWR_DOM.attempts i) 0).evalDom i else s
  else if r.base = CLH_CFG.reg.addr ∨ r.base = (CLH_REACT.reg 0).addr then s.clhUpd
  else if r.base = PWR_THERM.reg.addr then s.throttleUpd
  else if r.base = (HMK_TIMER1.reg 0).addr then s.timerCheck i
  else if r.base = HMK_PPS_OUT.reg.addr then s.ppsUpd
  else if r.base = (PRT_DEGRADE.reg 0).addr then s.degradeWrite i
  else if r.base = (PRT_ROLE.reg 0).addr ∨ r.base = (PRT_TARGET.reg 0).addr ∨ r.base = RTE_HALL_CFG.reg.addr then s.settle
  else if r.base = RTE_CFG.reg.addr then s.coordSync
  else if r.base = MOV_CFG.reg.addr then
    (List.range 64).foldl (fun s c => if s.on (MOV_STAT.state c) then s else s.setB (MOV_STAT.mode c) (s.movDesc c)) s
  else s

/-- A write of `new` to the bits `cov` of a register. -/
def State.regPut (s : State) (r : RegRow) (ix : List Nat) (key new cov : Nat) : State :=
  match s.regRefuse r ix key with
  | some s => s
  | none =>
    let rf := RF.whole key (r.rst.value ix)
    let old := (s.word rf).toNat
    let step (acc : Nat × State × Bool) (f : Nat × Nat × Acc) : Nat × State × Bool :=
      let (w, s, lk) := acc
      let (lo, len, ty) := f
      let m := ((2 ^ len - 1) <<< lo) &&& cov
      let ty := actAcc r ix ty
      if m = 0 ∨ ownFields.contains (r.base, lo) then acc
      else if ty = .rwl ∧ s.on IZG_LOCK.lock then (w, s, true)
      else if ty ≠ .ro ∧ s.fieldHeld r ix lo (bf new lo len) then (w, s.fieldHeldRec r ix lo (bf new lo len) key, lk)
      else (accWrite ty w new m, s, lk)
    let (w, s, lk) := r.fields.foldl step (old, s, false)
    let w := normWord r ix w new
    let s := s.setWord rf (BitVec.ofNat 64 w)
    let s := if lk then s.raise kLOCKED_WRITE (srcOf 0 0) key 0 else s
    s.regHook r ix old new cov w

/-- A dword of a function's MSI-X table is written; unmasking sends what is pending (08 R302). -/
def State.msixPut (s : State) (n fn d v : Nat) : State :=
  if d % 4 = 3 then
    (s.modFn n fn fun f => { f with msixMask := if bit v 0 then f.msixMask.filter (· != d / 4) else addMem f.msixMask (d / 4) }).msixFlush n fn
  else s.modFn n fn fun f => { f with cfg := tput f.cfg (2 ^ 16 + d) (v % m32) }

/-- A write of `v` to a place. -/
def State.placeWrite (s : State) (p : Place) (addr size v : Nat) : State :=
  let (lo, len) := coverOf addr size
  match p with
  | .reg r ix key => s.regPut r ix key ((v % 2 ^ len) <<< lo) ((2 ^ len - 1) <<< lo)
  | .msix n fn off =>
    let s := s.msixPut n fn (off / 4) (v % m32)
    if size = 8 then s.msixPut n fn (off / 4 + 1) (v / m32) else s
  | .badBell n fn off =>
    s.raise kDOORBELL_SIZE (srcOf 0x26 n) (match s.acctAt n fn (off / 0x1000) with | some a => acctAddr a | none => off) 0
  | _ => s

/-! ### 4 KiB boundaries (01 R31) -/

/-- `n` bytes from `a`, cut at every 4 KiB boundary (01 R31, 10 R370). -/
def pageCut : Nat → Nat → Nat → List (Nat × Nat)
  | 0, _, _ => []
  | k + 1, a, n =>
    if n = 0 then []
    else
      let l := min n (4096 - a % 4096)
      (a, l) :: pageCut k (a + l) (n - l)

def cutOf (a n : Nat) : List (Nat × Nat) := pageCut (n / 4096 + 2) a n

/-! ### The Lockbox (10 R384 to R387) -/

/-- Whether rules in force allow an access at an address. -/
def State.lbxAllows (s : State) (m addr : Nat) (write : Bool) : Bool :=
  (List.range 16).any fun i =>
    let z := s.get (LBX_ACTIVE.log2_size m i)
    let base := s.get (LBX_ACTIVE.base m i) * 2 ^ 15
    decide (15 ≤ z) && decide (base ≤ addr ∧ addr < base + 2 ^ z)
      && bit (s.get (LBX_ACTIVE.sub_en m i)) ((addr - base) / 2 ^ (z - 3))
      && s.on (if write then LBX_ACTIVE.write m i else LBX_ACTIVE.read m i)

/-- The SRAM diagnostic window, which only the Izger pairs may reach (10 R386). -/
def inSram (addr : Nat) : Bool := decide (0x100000000 ≤ addr ∧ addr < 0x10C000000)

/-- The check of an access by Lockbox `m`: whether it goes on; a refusal is recorded and counted. -/
def State.lbxCheck (s : State) (m addr : Nat) (write : Bool) : Bool × State :=
  let diag := inSram addr && decide (2 ≤ m)
  if !diag ∧ s.lbxAllows m addr write then (true, s)
  else
    let s := ((s.set (LBX_DENY.address m) addr).setB (LBX_DENY.write m) write).setB (LBX_DENY.diag m) diag
    (false, (s.bump (LBX_CNT_DENY.ev m)).raise kLBX_DENY (srcOf 0x29 m) addr (m + b2n write * 2 ^ 8))

/-! ### Accesses of a master -/

/-- The Lockbox an access passes: that of the active Izger pair for Izger's own (10 Table 10.6). No access crosses a 4 KiB boundary
(01 R31; WellFormed.lean); one that did would be cut there, and each part checked. -/
def State.izgCheck (s : State) (a : Access) (write : Bool) : Bool × State :=
  match a.via with
  | some _ => (true, s)
  | none => (cutOf (offOf a) (max 1 a.size.toNat)).foldl (fun (ok, s) (b, _) =>
      if ok then s.lbxCheck (s.get IZG_PAIR_STAT.active) b write else (false, s)) (true, s)

/-- A read that has passed its Lockbox: its value. An unmapped offset in a block whose domain is off raises UNMAPPED, not DOMAIN_OFF
(DESIGN CHOICE: R6 and R13 give no order between them; log entry 88). -/
def State.busRead (s : State) (a : Access) : Nat × State :=
  let p := s.place a
  if p = .unmapped then (0, s.unmapped a false)
  else if s.domIsOff (placeDom a p) then (0, s.domainOffRec (offOf a))
  else s.placeRead p (offOf a) a.size.toNat

/-- A write that has passed its Lockbox; UNMAPPED comes before DOMAIN_OFF, as for a read. -/
def State.busWrite (s : State) (a : Access) (v : Nat) : State :=
  let p := s.place a
  if p = .unmapped then s.unmapped a true
  else if s.domIsOff (placeDom a p) then s.domainOffRec (offOf a)
  else s.placeWrite p (offOf a) a.size.toNat v

/-- Whether the Steward function of a host link may write a local-bus address (08 R299). -/
def State.stewardMay (s : State) (n addr : Nat) : Bool :=
  !s.on (HBI_LINK_CFG.steward_scope n) || decide (0x8000000 + n * 0x100000 ≤ addr ∧ addr < 0x8000000 + (n + 1) * 0x100000)

def State.stewardDeny (s : State) (n addr : Nat) : State := s.raise kSTEWARD_DENIED (srcOf 0x26 n) addr 0

/-- Whether an access comes through a function that is there and takes memory requests, or from Izger while the device is not COLD. -/
def State.viaOk (s : State) (a : Access) : Bool :=
  match a.via with
  | some v => s.fnExists v.hl.val v.fn.toNat && s.memOn v.hl.val v.fn.toNat
  | none => !s.boot.por && !s.pwr.tripped

/-- What an access that is not `viaOk` leaves: an Unsupported Request of the function, where there is one. -/
def State.viaNot (s : State) (a : Access) (write : Bool) : State :=
  match a.via with
  | some v => if s.fnExists v.hl.val v.fn.toNat then s.memUr v.hl.val v.fn.toNat write else s
  | none => s

/-- Whether a write by Izger or through a BAR goes on to what it addresses, and the state it leaves: its master is there, its data
is not poisoned, and neither the scope of a Steward nor Izger's Lockbox stops it (08 R298, R299, R305; 10 R384). -/
def State.mayWrite (s : State) (a : Access) : Bool × State :=
  if !s.viaOk a then (false, s.viaNot a true)
  else
    match a.via with
    | some b =>
      let n := b.hl.val
      if a.poison then
        (false, ((s.raise kHOST_POISON (srcOf 0x26 n) (offOf a) 0).bump (HBI_CNT_POISON_RX.ev n)).aerBySev n b.fn.toNat aerPoison)
      else if b.fn.toNat = 0 ∧ b.bar = 0 ∧ !s.stewardMay n (offOf a) then (false, s.stewardDeny n (offOf a))
      else (true, s)
    | none => s.izgCheck a true

/-- A register write by Izger or through a BAR (00 R8; 08 R298, R299, R305). -/
def State.regWrite (s : State) (a : Access) (v : Nat) : State :=
  match s.mayWrite a with
  | (true, s) => s.busWrite a v
  | (false, s) => s

/-- The access by which a writer reaches a register. -/
def accessBy (w : Writer) (addr : Nat) : Access :=
  { addr := BitVec.ofNat 48 addr, size := 8,
    via := match w with | some (.pf0 n) => some { bar := 0, fn := 0, hl := n } | _ => none, poison := false }

/-- Whether a write by Izger or a Steward that is a command of its own reaches its register, and the state it leaves: the write is
made, and the block's domain is on (01 R13). -/
def State.reach (s : State) (w : Writer) (addr : Nat) : Bool × State :=
  match w with
  | some (.mover _) => (false, s)
  | _ =>
    match s.mayWrite (accessBy w addr) with
    | (true, s) => if s.domIsOff (((blockOf addr).map (·.2)).getD 0) then (false, s.domainOffRec addr) else (true, s)
    | (false, s) => (false, s)

/-- What a write that leaves `x` in field `r` of its register does, once it has reached it. A Mover channel's is one that the channel has
put out on the local bus (10 R372; log entry 113). -/
def State.reaching (s : State) (w : Writer) (r : RF) (x : Nat) (f : State → State) : State :=
  match w with
  | some (.mover c) =>
    match takeFirst (fun m : MovWrite => m.ch == c.val && m.addr == r.addr && bf m.v r.lo r.len == x) s.movOwn with
    | some (_, rest) => f { s with movOwn := rest }
    | none => s
  | _ =>
    match s.reach w r.addr with
    | (true, s) => f s
    | (false, s) => s

/-- The registers some of whose writes are commands of their own: base, the bits whose writing makes it one, and whether one of them
must be written as 1. -/
def goRegs : List (Nat × Nat × Bool) :=
  let all := 2 ^ 64 - 1
  [((LNK_CTL.reg 0).addr, 1, true), ((LNK_REACH.reg 0).addr, all, false), (IZG_LOCK.reg.addr, 1, true),
   (PWR_STATE_REQ.reg.addr, 3, false), (PWR_PAD_RELEASE.reg.addr, all, false), (TLR_KEY_INVAL.reg.addr, all, false),
   (TLR_RANK_INVAL.reg.addr, all, false), ((TLR_CTR.reg 0).addr, all, false), ((TLY_CNT.reg 0).addr, all, false),
   ((LDG_ACC_CTX.reg 0).addr, all, false), ((LDG_CTX0.reg 0).addr, 2 ^ 24, false), (ALY_TREE_CTL.reg.addr, all, false),
   (ACC_CMD0.reg.addr, all, false), ((ACC_STUB0.reg 0).addr, 2 ^ 15, false), (TOP_RESET_CTL.reg.addr, all, false),
   (TOP_BRINGUP_CTL.reg.addr, 1, true), (IZG_FW_CTL.reg.addr, 2 ^ 62, true), (HMK_CTL.reg.addr, 3, true),
   ((MOV_CTL.reg 0).addr, 3, true), ((LBX_COMMIT.reg 0).addr, 2 ^ 62, true), (CLH_ACK.reg.addr, all, false),
   (ASY_CTL.reg.addr, 3, true), (TLY_LATCH_CTL.reg.addr, 2 ^ 32, true), (SEC_CMD.reg.addr, 2 ^ 62, true),
   (IZG_MBOX_CTL.reg.addr, 1, true), (IZG_PAIR_CTL.reg.addr, 2, true), (IZG_SLICE_CTL.reg.addr, 2 ^ 62, true),
   (PWR_AVS_CTL.reg.addr, 2 ^ 62, true), (PWR_PMB_CMD0.reg.addr, 2 ^ 62, true)]

/-- The values that a write of `new` to the bits `cov` of a register hands to the commands of its own; the two bits of HMK_CTL and of
ASY_CTL are commands each. -/
def goValues (base old new cov : Nat) : List Nat :=
  let v := (old ^^^ (old &&& cov)) ||| (new &&& cov)
  match goRegs.find? (·.1 == base) with
  | some (_, m, one) =>
    if m &&& cov = 0 ∨ (one ∧ v &&& m = 0) then []
    else if base = HMK_CTL.reg.addr ∨ base = ASY_CTL.reg.addr then (bitsOf 2 (v &&& cov)).map (2 ^ ·)
    else [v]
  | none => []

/-- A 64-bit register as a write of a part of it leaves it (00 R4). -/
def putPart (k : Part) (old v : Nat) : Nat :=
  match k with
  | .whole => v
  | .low => old / m32 * m32 + v % m32
  | .high => v % m32 * m32 + old % m32

/-- A register read by Izger or through a BAR: what it returns goes to the master. -/
def State.regRead (s : State) (a : Access) : State :=
  if !s.viaOk a then s.viaNot a false
  else
    match s.izgCheck a false with
    | (true, s) => let (v, s) := s.busRead a; s.emit (.readData v)
    | (false, s) => s.emit (.readData 0)

end Sys2Proof.Machine
end

