-- ==== Sys2Proof/Machine/MoverOps.lean ====
section
/-!
DEFINITION. Machine/MoverOps.lean: outbound windows and the walk of a Mover transfer (08 R300, R301; 10 R365 to R380).
-/
namespace Sys2Proof.Machine

def stEMPTY : Nat := 0x50
def stDENIED : Nat := 0x52
def stABORTED : Nat := 0x53

/-- Channel states (10 Table 10.10). -/
def mvIDLE : Nat := 0
def mvRUNNING : Nat := 1
def mvHOLD : Nat := 2
def mvFLUSHING : Nat := 3

/-! ### Outbound windows (01 R20; 08 R300, R301) -/

/-- Host link, window and offset of an address in the outbound windows. -/
def owinOf (addr : Nat) : Nat × Nat × Nat := ((addr - 2 ^ 47) / 2 ^ 44, addr % 2 ^ 44 / 2 ^ 38, addr % 2 ^ 38)

/-- Where an access into an outbound window goes: host link, function, PASID, host address; bits 11:0 of the base are ignored (08 R300,
Table 8.28). -/
def State.owinTarget (s : State) (addr : Nat) : Nat × Nat × Option Nat × Nat :=
  let (n, w, off) := owinOf addr
  (n, s.get (HBI_OWIN0.function n w), if s.on (HBI_OWIN0.pasid_valid n w) then some (s.get (HBI_OWIN0.pasid n w)) else none,
    (s.get (HBI_OWIN1.base n w) / 4096 * 4096 + off) % 2 ^ 64)

/-- No Snoop and the steering tag of a window; the tag while the function's TPH Requester Enable, bit 8 of the dword at offset
8 of its TPH capability, is set (08 Tables 8.4, 8.28). -/
def State.owinAttr (s : State) (n w : Nat) : Nat :=
  let fn := s.get (HBI_OWIN0.function n w)
  let tph := bit (tcnt (s.fnc n fn).cfg (if fn = 1 then 0x1C8 / 4 else 0x170 / 4)) 8
  s.get (HBI_OWIN0.no_snoop n w) + if tph then 2 * s.get (HBI_OWIN0.st n w) else 0

/-- A faulting access: the window's err bit and count, the host link's counter, a record. -/
def State.owinFault (s : State) (addr : Nat) : State :=
  let (n, w, _) := owinOf addr
  let s := (s.set (HBI_OWIN2.err n w) 1).set (HBI_OWIN2.faults n w) (min (s.get (HBI_OWIN2.faults n w) + 1) (m32 - 1))
  (s.bump (HBI_CNT_OWIN_FAULT.ev n)).raise kOWIN_FAULT (srcOf 0x26 n) addr 0

/-- Whether the function of a valid outbound window may issue no request now, so that an access waits in BME_HOLD (08 R301, R320). -/
def State.owinHeld (s : State) (addr : Nat) : Bool :=
  let (n, w, _) := owinOf addr
  let fn := s.get (HBI_OWIN0.function n w)
  s.on (HBI_OWIN0.valid n w) && s.fnExists n fn && s.on (HBI_LINK_STAT.dl_up n) && !s.mayIssue n fn

/-- Whether an access into an outbound window goes, waits or faults. An Izger core's does not wait for Bus Master Enable, nor for a
function in D3hot, which issues as if it were 0 (08 R320). -/
def State.owinGate (s : State) (addr len : Nat) (write izger : Bool) (hv : HostView := []) : Gate × State :=
  let (n, w, _) := owinOf addr
  let (_, fn, pasid, host) := s.owinTarget addr
  if !s.on (HBI_OWIN0.valid n w) ∨ !s.fnExists n fn ∨ (pasid.isSome ∧ !(s.fnc n fn).pasidEn) ∨ (izger ∧ (!(s.fnc n fn).bme ∨ (s.fnc n fn).d3)) then (.fail, s)
  else s.gate n fn pasid [(host, len, write)] hv

/-! ### Pieces -/

/-- The run of a pattern at byte `pos`: its start as an integer, and the offset in it. -/
def Pattern.runAt (p : Pattern) (pos : Nat) : Int × Nat := (runAddr p.loops (pos / max 1 p.elem) p.base, pos % max 1 p.elem)

/-- Whether that run lies in an address space of `top` bytes (10 R367). -/
def Pattern.runOk (p : Pattern) (pos top : Nat) : Bool :=
  let (a, _) := p.runAt pos
  decide (0 ≤ a ∧ a + p.elem ≤ top)

/-! ### Local-bus pieces of a register channel (10 R372) -/

/-- What a piece may do now: `some status` stops the channel. One that waits in BME_HOLD is checked by the Lockbox as it is issued
(R388). -/
def State.busGate (s : State) (c : Nat) (write : Bool) (ps : List (Nat × Nat)) (hv : HostView) : Gate × Nat × State :=
  ps.foldl (fun (g, st, s) (a, n) =>
    if g ≠ .go then (g, st, s)
    else if 2 ^ 47 ≤ a ∧ s.owinHeld a then
      (.wait, 0, s.bmeHold (owinOf a).1 (s.get (HBI_OWIN0.function (owinOf a).1 (owinOf a).2.1)))
    else
      match s.lbxCheck (64 + c) a write with
      | (false, s) => (.fail, stDENIED, s)
      | (true, s) =>
        if a < 2 ^ 47 then (.go, 0, s)
        else
          match s.owinGate a n write false hv with
          | (.fail, s) => (.fail, stHOST_ERROR, s.owinFault a)
          | (g, s) => (g, 0, s)) (.go, 0, s)

/-- A local-bus read that its gate has passed: bytes and poison; `none` is a failed host read. -/
def State.busIn (s : State) (hv : HostView) (a n : Nat) : Option (List Byte × Bool) × State :=
  if 2 ^ 47 ≤ a then
    let (_, _, _, host) := s.owinTarget a
    (hostRead hv host n, s)
  else if sizeOk a n then
    let (v, s) := s.busRead { addr := BitVec.ofNat 48 a, size := BitVec.ofNat 8 n, via := none, poison := false }
    (some (bytesOf n v, false), s)
  else (some (List.replicate n 0, false), s.unmapped { addr := BitVec.ofNat 48 a, size := BitVec.ofNat 8 n, via := none, poison := false } false)

/-- What a register channel's write of `v` hands to the commands that are writes of a register of their own (log entry 113). -/
def State.movPut (s : State) (c : Nat) (acc : Access) (v : Nat) : State :=
  match s.place acc with
  | .reg r ix key =>
    if s.domIsOff (placeDom acc (.reg r ix key)) then s
    else
      let (lo, len) := coverOf (offOf acc) acc.size.toNat
      let old := ((tget s.regs key).getD (BitVec.ofNat 64 (r.rst.value ix))).toNat
      { s with movOwn := s.movOwn ++ (goValues r.base old ((v % 2 ^ len) <<< lo) ((2 ^ len - 1) <<< lo)).map fun v => { ch := c, addr := key, v } }
  | _ => s

/-- A local-bus write by channel `c` that its gate has passed; and the host address it went to, if any. A write of MOV_CTL is MOVER_GO
or MOVER_ABORT alone. -/
def State.busOut (s : State) (c a : Nat) (d : List Byte) (poison : Bool) : Option HostAddr × State :=
  let acc : Access := { addr := BitVec.ofNat 48 a, size := BitVec.ofNat 8 d.length, via := none, poison := false }
  if 2 ^ 47 ≤ a then
    let (n, fn, pasid, host) := s.owinTarget a
    let (_, w, _) := owinOf a
    let s := s.post n fn pasid host d poison (s.owinAttr n w)
    ((s.hl n).lastWrite, s)
  else if sizeOk a d.length then
    let t := s.movPut c acc (natOf d)
    let ctl : Bool := match s.place acc with | .reg r _ _ => r.base == (MOV_CTL.reg 0).addr && t.movOwn != s.movOwn | _ => false
    (none, if ctl then t else t.busWrite acc (natOf d))
  else (none, s.unmapped acc true)

/-! ### The walk (10 R365 to R367, R375, R376) -/

def State.mvState (s : State) (c : Nat) : Nat := s.get (MOV_STAT.state c)

/-- The channel stops with a status. -/
def State.mvStop (s : State) (c st : Nat) : State :=
  (s.set (MOV_STAT.state c) mvRUNNING).modMov c fun m => { m with stop := some st, todo := false }

/-- Bytes written are counted as they are issued. -/
def State.mvWrote (s : State) (c n : Nat) (last : Option HostAddr) : State :=
  ((s.set (MOV_MOVED.bytes c) (s.get (MOV_MOVED.bytes c) + n)).bumpN MOV_CNT_BYTES.ev n).modMov c fun m => { m with lastWrite := last }

/-- Every write has been issued: the flush read, or the end (10 R375). -/
def State.mvIssued (s : State) (c : Nat) : State :=
  let m := s.mov c
  match m.lastWrite with
  | some w => ((s.set (MOV_STAT.state c) mvFLUSHING).modMov c fun m => { m with todo := false, flush := true }).flushAsk w (if s.on (MOV_STAT.mode c) then some m.ev.acct else none) (.mover c)
  | none => (s.set (MOV_STAT.state c) mvRUNNING).modMov c fun m => { m with todo := false, stop := some 0 }

/-- Whether the pieces of one span may be read and written now. -/
def State.mvGate (s : State) (c : Nat) (rs ws : List (Nat × Nat)) (hv : HostView) : Gate × Nat × State :=
  if s.on (MOV_STAT.mode c) then
    let a := (s.mov c).ev.acct
    match s.gate (s.aHl a) (s.aFn a) (s.aPasid a) (accsOf rs false ++ accsOf ws true) hv with
    | (.fail, s) => (.fail, stHOST_ERROR, s)
    | (.wait, s) => (.wait, 0, s.modAcct a fun x => { x with held := true })
    | (.go, s) => (.go, 0, s)
  else
    match s.busGate c false rs hv with
    | (.go, _, s) => s.busGate c true ws hv
    | r => r

/-- Reads the pieces of one span. -/
def State.mvRead (s : State) (c : Nat) (hv : HostView) (rs : List (Nat × Nat)) : Option (List Byte × Bool) × State :=
  if s.on (MOV_STAT.mode c) then (gather hv rs, s)
  else
    rs.foldl (fun (acc, s) (a, n) =>
      match acc with
      | none => (none, s)
      | some (d, p) => match s.busIn hv a n with
        | (some (x, q), s) => (some (d ++ x, p || q), s)
        | (none, s) => (none, s)) (some ([], false), s)

/-- Writes the pieces of one span, in order. -/
def State.mvWrite (s : State) (c : Nat) (ws : List (Nat × Nat)) (d : List Byte) (poison : Bool) : State :=
  (scatterW ws d).foldl (fun s (a, x) =>
    if s.on (MOV_STAT.mode c) then
      let k := (s.mov c).ev.acct
      let s := s.post (s.aHl k) (s.aFn k) (s.aPasid k) a x poison
      s.mvWrote c x.length (s.hl (s.aHl k)).lastWrite
    else
      let (w, s) := s.busOut c a x poison
      s.mvWrote c x.length w) s

/-- Whether pieces wait for Bus Master Enable: of the account's function, or of those that outbound windows name (10 R380; 08 R301). -/
def State.mvHeld (s : State) (c : Nat) (ps : List (Nat × Nat)) : Bool :=
  if s.on (MOV_STAT.mode c) then
    let a := (s.mov c).ev.acct
    !s.mayIssue (s.aHl a) (s.aFn a)
  else ps.any fun (a, _) => decide (2 ^ 47 ≤ a) && (let (n, fn, _, _) := s.owinTarget a; !s.mayIssue n fn)

/-- Goes on with a transfer from the byte it has reached, at most 4 KiB at a time: each run is checked before any request for it. -/
def State.mvWalk (s : State) (c : Nat) (hv : HostView) : Nat → State
  | 0 => s
  | k + 1 =>
    let m := s.mov c
    let pos := s.get (MOV_MOVED.bytes c)
    let top := if s.on (MOV_STAT.mode c) then 2 ^ 64 else 2 ^ 48
    if pos = m.src.total then s.mvIssued c
    else if !m.src.runOk pos top ∨ !m.dst.runOk pos top then s.mvStop c stADDRESS
    else
      let (sa, so) := m.src.runAt pos
      let (da, do_) := m.dst.runAt pos
      let n := min 4096 (min (m.src.elem - so) (m.dst.elem - do_))
      let rs := cutOf (sa.toNat + so) n
      let ws := cutOf (da.toNat + do_) n
      match s.mvGate c rs ws hv with
      | (.wait, _, s) =>
        (s.set (MOV_STAT.state c) (if s.mvHeld c (rs ++ ws) then mvHOLD else mvRUNNING)).modMov c fun m => { m with todo := true }
      | (.fail, st, s) => s.mvStop c st
      | (.go, _, s) =>
        match s.mvRead c hv rs with
        | (none, s) => s.mvStop c stHOST_ERROR
        | (some (d, p), s) => (s.mvWrite c ws d p).mvWalk c hv k

/-- Starts, or resumes, the walk. -/
def State.mvGo (s : State) (c : Nat) (hv : HostView) : State :=
  (s.set (MOV_STAT.state c) mvRUNNING).mvWalk c hv ((s.mov c).src.total + 1)

/-! ### Ends (10 R374 to R377) -/

/-- A channel becomes IDLE. -/
def State.mvIdle (s : State) (c : Nat) : State :=
  let s := { (s.set (MOV_STAT.state c) mvIDLE) with movs := tdel s.movs c }
  s.setB (MOV_STAT.mode c) (s.movDesc c)

/-- A channel's transfer completes with a status. -/
def State.mvDone (s : State) (c st : Nat) : State :=
  let m := s.mov c
  let moved := s.get (MOV_MOVED.bytes c)
  let s := s.set (MOV_STAT.status c) st
  let s := if st = 0 then s else if st = stEMPTY then s.bump MOV_CNT_EMPTY.ev else s.bump MOV_CNT_STOP.ev
  let s := if !s.on (MOV_STAT.mode c) then s.set (MOV_EVT.done c) 1
    else if m.silent then s else s.complete m.ev evMOVE_DONE st 0 moved 0 false
  (s.mvIdle c).activityUpd

/-- A stopped channel issues no flush read (10 R376): one that is still to be issued is dropped; with `all` one that is outstanding is
waited for no longer than its tag (10 R380). -/
def State.mvUnflush (s : State) (c : Nat) (all : Bool) : State :=
  let gone (f : Flush) : Bool := f.why == .mover c && (all || f.tag.isNone)
  if s.flushes.any gone then
    State.modMov { s with flushes := s.flushes.filter fun f => !gone f } c fun m => { m with flush := false }
  else s

/-- Channels of an account: running MOVEs stop with a status, or end without events; waiting ones end likewise (10 R380). -/
def State.mvAcct (s : State) (a : Nat) (status : Option Nat) : State :=
  let mine := (List.range 64).filter fun c => s.mvState c != mvIDLE && s.on (MOV_STAT.mode c) && (s.mov c).ev.acct == a
  let s := mine.foldl (fun s c => s.modMov c fun m =>
    { m with todo := false, silent := m.silent || status.isNone,
             stop := match m.stop with | some x => some x | none => some (status.getD stABORTED) }) s
  let s := mine.foldl (fun s c => s.mvUnflush c status.isNone) s
  let waits := s.moveWait.filter (·.ev.acct == a)
  let s := { s with moveWait := s.moveWait.filter (·.ev.acct != a) }
  match status with
  | none => s
  | some st => waits.foldl (fun s w => (s.complete w.ev evMOVE_DONE st 0 0 0 false).bump MOV_CNT_STOP.ev) s

/-- Whether a MOVE of an account runs or waits. -/
def State.mvBusy (s : State) (a : Nat) : Bool :=
  (s.moveWait.any (·.ev.acct == a))
    || (List.range 64).any fun c => s.mvState c != mvIDLE && s.on (MOV_STAT.mode c) && (s.mov c).ev.acct == a

end Sys2Proof.Machine
end

