-- ==== Sys2Proof/Machine/Mover.lean ====
section
/-!
DEFINITION. Machine/Mover.lean: the commands of the Mover and the Lockbox (10).
-/
namespace Sys2Proof.Machine

/-! ### MOVE (10 R378, R379) -/

/-- Accesses of the checks: the pattern records a MOVE names, when its length is not 0. -/
def State.moveAccs (_ : State) (d : Desc) : List (Nat × Nat × Bool) :=
  let n := d.toNat
  if bf n 256 40 = 0 then []
  else (if bit n 64 then [(bf n 128 64, 64, false)] else []) ++ (if bit n 65 then [(bf n 192 64, 64, false)] else [])

/-- One side of a MOVE. -/
def moveSide (d : Desc) (flag word : Nat) (hv : HostView) : Nat × Pattern :=
  let n := d.toNat; let len := bf n 256 40
  if bit n flag then readPat hv (bf n word 64) len else (0, Pattern.flat (bf n word 64) len)

/-- MOVE: the checks of 10 Table 10.4; one that passes waits for a descriptor channel. -/
def execMove (a : AcctNo) (src : Source) (hv : HostView) (s : State) : Host.Outcome State Fault Refusal :=
  .next (s.withDescHost a.val src 7 (fun _ _ => false) State.moveAccs hv fun s d ev bad =>
    let n := d.toNat
    let ctr := if bit n 66 then some (bf n 320 16) else none
    let ev := { ev with ctr }
    let fin (s : State) (st : Nat) : State := s.complete ev evMOVE_DONE st 0 0 0 false
    if bf n 256 40 = 0 then fin (s.bump MOV_CNT_EMPTY.ev) stEMPTY
    else if (match ctr with | some c => !s.ctrOwned c a.val | none => false) then fin s stCOUNTER
    else if bad then fin s stHOST_ERROR
    else
      let (st1, p1) := moveSide d 64 128 hv
      let (st2, p2) := moveSide d 65 192 hv
      if st1 ≠ 0 then fin s st1
      else if st2 ≠ 0 then fin s st2
      else
        -- it waits where no more channels are free than MOVEs wait before it
        let free := ((List.range 64).filter fun c => s.mvState c == mvIDLE && s.movDesc c).length
        let s := if s.moveWait.length < free then s else s.bump MOV_CNT_CH_WAIT.ev
        { s with moveWait := s.moveWait ++ [{ desc := d, ev, src := p1, dst := p2 }] })

/-- CHANNEL_GRANT: a channel whose walk had to wait goes on; an IDLE descriptor channel takes the MOVE that waits first
(10 R379). -/
def execChannelGrant (ch : MovNo) (hv : HostView) (s : State) : Host.Outcome State Fault Refusal :=
  let c := ch.val
  .next (if !s.engineOn engMOV then s.activityUpd
    else if s.mvState c ≠ mvIDLE then (if (s.mov c).todo then s.mvGo c hv else s)
    else if !s.movDesc c then s
    else
      match s.moveWait with
      | [] => s
      | w :: r =>
        let s := { s with moveWait := r }
        let s := (s.set (MOV_MOVED.bytes c) 0).modMov c fun _ =>
          { ev := w.ev, gen := w.ev.gen, desc := w.desc, src := w.src, dst := w.dst, todo := true }
        let s := ((s.set (MOV_STAT.mode c) 1).set (MOV_STAT.account c) w.ev.acct)
        ((s.mvGo c hv).acctFetch w.ev.acct).activityUpd)

/-! ### Register channels (10 R372 to R374, R376) -/

/-- The two sides of a register channel. -/
def State.regSides (s : State) (c : Nat) : Pattern × Pattern :=
  let cnt (i : Nat) := s.get (MOV_LOOP0.count c i)
  let elem := s.get (MOV_COUNT.run c)
  ({ base := s.get (MOV_SRC.addr c), elem, loops := (List.range 3).map fun i => (cnt i, sext 48 (s.get (MOV_LOOP1.src_step c i))) },
   { base := s.get (MOV_DST.addr c), elem, loops := (List.range 3).map fun i => (cnt i, sext 48 (s.get (MOV_LOOP2.dst_step c i))) })

/-- For whom a channel is started: PF0 of a host link, or Izger; by a channel, as that one was (DESIGN CHOICE, log entry 113). -/
def State.starterOf (s : State) (w : Writer) : Option Nat :=
  match w with
  | none => none
  | some (.pf0 n) => some n.val
  | some (.mover c) => if s.on (MOV_STAT.starter c.val) then some (s.get (MOV_STAT.starter_link c.val)) else none

/-- MOVER_GO: a write of go = 1, abort = 0, by Izger, by PF0 of a host link or by a channel. -/
def execMoverGo (ch : MovNo) (starter : Writer) (hv : HostView) (s : State) : Host.Outcome State Fault Refusal :=
  let c := ch.val
  let addr := (MOV_CTL.reg c).addr
  .next (s.reaching starter ((MOV_CTL.reg c).sub 0 2) 1 fun s =>
    if s.mvState c ≠ mvIDLE ∨ s.movDesc c then s.raise kMOV_BUSY (srcOf 0x28 c) addr 0
    else
      let (p, q) := s.regSides c
      let s := s.set (MOV_STAT.mode c) 0
      let by_ := s.starterOf starter
      let s := (s.setB (MOV_STAT.starter c) by_.isSome).set (MOV_STAT.starter_link c) (by_.getD 0)
      if p.total > 2 ^ 48 - 1 then s.set (MOV_STAT.status c) stLENGTH
      else
        let s := s.set (MOV_MOVED.bytes c) 0
        if p.total = 0 then s.mvDone c stEMPTY
        else ((s.modMov c fun _ => { src := p, dst := q, todo := true }).mvGo c hv).activityUpd)

/-- MOVER_ABORT: a write of abort = 1; another stop stands (10 R376, R382). -/
def execMoverAbort (w : Writer) (ch : MovNo) (s : State) : Host.Outcome State Fault Refusal :=
  let c := ch.val
  .next (s.reaching w (MOV_CTL.abort ch.val) 1 fun s =>
    if s.mvState c = mvIDLE ∨ (s.mov c).stop.isSome then s
    else
      let s := if s.mvState c = mvFLUSHING then s else s.set (MOV_STAT.state c) mvRUNNING
      (s.modMov c fun m => { m with stop := some stABORTED, todo := false }).mvUnflush c false)

/-- MOVER_COMPLETE: every request of the channel has returned or been issued (10 R375, R376, R380). -/
def execMoverComplete (ch : MovNo) (s : State) : Host.Outcome State Fault Refusal :=
  let c := ch.val; let m := s.mov c
  .next (if s.mvState c = mvIDLE ∨ m.todo ∨ m.flush ∨ s.tags.any (fun t => t.why == .flush (.mover c) && !t.quarantined) then s else s.mvDone c (m.stop.getD 0))

/-! ### The Lockbox (10 R388, R389) -/

/-- The bytes a staged region's enabled sub-regions cover, as (first, past the end). -/
def State.lbxSpans (s : State) (m i : Nat) : List (Nat × Nat) :=
  let z := s.get (LBX_STAGE.log2_size m i)
  let base := s.get (LBX_STAGE.base m i) * 2 ^ 15
  (bitsOf 8 (s.get (LBX_STAGE.sub_en m i))).map fun j => (base + j * 2 ^ (z - 3), base + (j + 1) * 2 ^ (z - 3))

/-- The checks of a commit: result code and region; 0 when all pass. -/
def State.lbxJudge (s : State) (m : Nat) : Nat × Nat :=
  let en := (List.range 16).filter fun i => s.on (LBX_STAGE.sub_en m i)
  let z (i : Nat) := s.get (LBX_STAGE.log2_size m i)
  match en.find? fun i => decide (z i < 15 ∨ 48 < z i) with
  | some i => (2, i)
  | none =>
    match en.find? fun i => s.get (LBX_STAGE.base m i) * 2 ^ 15 % 2 ^ z i != 0 with
    | some i => (3, i)
    | none =>
      match en.findSome? fun i =>
          en.find? fun j => decide (i < j) && (s.lbxSpans m i).any fun (a, b) => (s.lbxSpans m j).any fun (c, d) => decide (a < d ∧ c < b) with
      | some j => (1, j)
      | none => (0, 0)

/-- Instances of 10 Table 10.6. -/
def lbxExists (m : Nat) : Bool := decide (m < 4 ∨ 64 ≤ m)

/-- LOCKBOX_COMMIT: a write of go = 1 to LBX_COMMIT. -/
def execLockboxCommit (w : Writer) (m : Fin 128) (s : State) : Host.Outcome State Fault Refusal :=
  let i := m.val; let addr := (LBX_COMMIT.reg i).addr
  .next (s.reaching w (LBX_COMMIT.go i) 1 fun s =>
    if !lbxExists i then s.unmapped (accessBy w addr) true
    else if i < 2 ∧ s.on IZG_LOCK.lock then s.raise kLOCKED_WRITE (srcOf 0 0) addr 0
    else if !s.on (LBX_COMMIT.done i) then s.raise kLBX_BUSY (srcOf 0x29 i) addr 0
    else
      match s.lbxJudge i with
      | (0, _) =>
        let s := (List.range 16).foldl (fun s j => s.setWord (LBX_ACTIVE.reg i j) (s.word (LBX_STAGE.reg i j))) s
        ((s.set (LBX_COMMIT.result i) 0).set (LBX_COMMIT.region i) 0).set (LBX_COMMIT.done i) 0
      | (r, j) => ((s.set (LBX_COMMIT.result i) r).set (LBX_COMMIT.region i) j).raise kLBX_COMMIT_REFUSED (srcOf 0x29 i) 0 0)

/-- LOCKBOX_DRAIN_DONE: every access checked under the previous rules has completed: no read of the master is outstanding (R388). -/
def execLockboxDrainDone (m : Fin 128) (s : State) : Host.Outcome State Fault Refusal :=
  let reading := s.tags.any fun t => !t.quarantined && (match t.why with | .outbound k _ => k == m.val | _ => false)
  .next (if lbxExists m.val ∧ !reading then s.set (LBX_COMMIT.done m.val) 1 else s)

end Sys2Proof.Machine
end

