-- ==== Sys2Proof/Machine/AcctOps.lean ====
section
/-!
DEFINITION. Machine/AcctOps.lean: rings and queues of an account, its reset, removal and freeze, and account commands
(09 R329 to R364; 16 R545).
-/
namespace Sys2Proof.Machine

/-! ### Account commands (09 R349) -/

/-- An account command goes on: done reads 0. -/
def State.cmdRun (s : State) (c : AcctCmd) : State :=
  let s := { s with acctCmds := s.acctCmds ++ [c] }
  match c.slice with
  | none => s.set ACC_CMD0.done 0
  | some n => s.set (ACC_SLICE_CMD0.done n) 0

/-- The commands running on an account end: RESET and REMOVE with `res`, others ABANDONED (09 Table 9.8). -/
def State.cmdsEnd (s : State) (a res : Nat) : State :=
  (s.acctCmds.filter (·.acct == a)).foldl (fun s c => s.cmdEnd c (if c.cmd = 2 ∨ c.cmd = 3 then res else rcABANDONED)) s

/-- Ends the command `code` running on an account, with a result. -/
def State.cmdDone (s : State) (a code res : Nat) : State :=
  (s.acctCmds.filter fun c => c.acct == a && c.cmd == code).foldl (fun s c => s.cmdEnd c res) s

/-! ### Rings and event queues (09 R329, R330, R339, R343) -/

/-- A queue with room has nothing that waits for it (09 Table 9.25). -/
def State.fullUpd (s : State) (a q : Nat) : State := if s.eqRoom a q then s.set (ACC_EQ3.full a q) 0 else s

/-- The descriptor read of a ring no longer serves it. -/
def State.fetchDrop (s : State) (a r : Nat) : State :=
  { s with tags := s.tags.map fun t => if t.hl == s.aHl a && t.why == .desc a r then { t with why := .other } else t }

/-- A ring is disabled; both indices are kept, and it goes back to the pool. -/
def State.ringOff (s : State) (a r : Nat) : State :=
  if !s.on (ACC_RING1.enable a r) then s
  else
    let s := ((s.set (ACC_RING1.enable a r) 0).set (ACC_RING3.state a r) rDISABLED).set (ACC_RING3.stop_cause a r) 0
    let s := s.set ACC_STAT.rings_free (s.get ACC_STAT.rings_free + 1)
    (s.fetchDrop a r).modRing a r fun x => { x with staged := [], pushed := [], fetching := 0 }

/-- A queue is disabled; it goes back to the pool. -/
def State.eqOff (s : State) (a q : Nat) : State :=
  if !s.eqOn a q then s
  else (s.set (ACC_EQ1.enable a q) 0).set ACC_STAT.eqs_free (s.get ACC_STAT.eqs_free + 1)

/-! ### Reset and removal (09 R356 to R359; 05 R209, R211; 06 R246; 07 R280; 10 R380) -/

/-- The Aperture windows of host link `n` that name an account (05 Table 5.25). -/
def State.acctWindows (s : State) (n a : Nat) : List Nat :=
  let base := (TLR_APT_WIN0.reg n 0).addr
  s.regs.filterMap fun (k, w) =>
    if base ≤ k ∧ k < base + 0x8000 ∧ (k - base) % 0x20 = 0 ∧ bit w.toNat 0 ∧ bf w.toNat 16 14 = a then some ((k - base) / 0x20) else none

/-- Its trees' operations abort (09 Table 9.9). -/
def State.ownTreesAbort (s : State) (a : Nat) : State :=
  s.liveTrees.foldl (fun s t => if s.get (ALY_TREE0.account t) = a ∧ s.treeBusy t then s.abortTree t 6 else s) s

/-- Its match contexts: entries, overflow buffers and order entries go without events or write-back; enable reads 0. -/
def State.ctxsPurge (s : State) (a : Nat) : State :=
  ((List.range (s.get (LDG_ACC_CTX.count a))).map (· + s.get (LDG_ACC_CTX.base a))).foldl (fun s k =>
    let s := { s with ovfBufs := s.ovfBufs.filter (·.ctx != k) }
    (s.ctxClear k false).set (LDG_CTX0.enable k) 0) s

/-- The consumed descriptors of an account whose completions its reset leaves unwritten: messages, matches, COLLs, MOVEs and FENCEs. Entries
and standing orders have counts of their own (09 R342; 05 R209, R211; 06 R246; DESIGN CHOICE: log entry 122). -/
def State.owedDrops (s : State) (a : Nat) : Nat :=
  (s.srcMsgs.filter fun m => m.ev.acct == a
      && (m.kind == .put || m.kind == .get || m.kind == .atomic || m.kind == .eager || m.kind == .rts)).length
    + (s.lmatches.filter fun m => m.recv.acct == a && m.mode != 3).length
    + (s.trees.map fun (_, r) => (r.ops.filter fun o => o.ev.acct == a).length).sum
    + ((List.range 64).filter fun c => s.mvState c != mvIDLE && s.on (MOV_STAT.mode c) && (s.mov c).ev.acct == a && !(s.mov c).silent).length
    + (s.moveWait.filter (·.ev.acct == a)).length
    + ((s.acct a).rings.filter fun (_, x) => x.fence.isSome).length

/-- Its outstanding messages end without events; Aperture loads fail. -/
def State.msgsPurge (s : State) (a : Nat) : State :=
  let loads := s.srcMsgs.filter fun m => m.ev.acct == a && m.kind == .aptLoad
  let waits := s.aptWaits.filter (·.acct == a)
  let s := loads.foldl (fun s m => (s.aptFault m.hl m.apt a false).cplErr m.hl (s.aFn a) cplCA) s
  let s := waits.foldl (fun s w =>
    let s := s.aptFault w.hl w.win a w.store.isSome
    if w.store.isSome then s else s.cplErr w.hl w.fn cplCA) s
  let gone := s.openMsgs.filter fun o => o.acct == a && o.eager.isSome
  let s := State.tptStat { s with srcMsgs := s.srcMsgs.filter (·.ev.acct != a), lmatches := s.lmatches.filter (·.recv.acct != a),
                                  aptWaits := s.aptWaits.filter fun w => !waits.contains w }
  gone.foldl (fun s o => (s.delOpen o.src o.msgId).filterFree o.src o.msgId) s

/-- Its rings and queues: disabled, indices 0, back in the pools. -/
def State.ringsPurge (s : State) (a : Nat) : State :=
  let s := (List.range 64).foldl (fun s r => ((s.ringOff a r).set (ACC_RING2.producer a r) 0).set (ACC_RING2.consumer a r) 0) s
  (List.range 64).foldl (fun s q =>
    let s := s.eqOff a q
    (((s.set (ACC_EQ2.producer a q) 0).set (ACC_EQ2.consumer a q) 0).set (ACC_EQ3.reserved_events a q) 0).setWord (ACC_EQ3.reg a q) 0) s

/-- What an account starts with: its allowance is latched. -/
def State.acctFresh (s : State) (a : Nat) : State :=
  { s with accts := tput s.accts a { weight := s.get (ACC_BIND2.weight a), minRate := s.get (ACC_BIND2.min_rate a),
                                     maxRate := s.get (ACC_BIND2.max_rate a) } }

/-- 09 Table 9.9, the generation having been raised. -/
def State.acctPurge (s : State) (a : Nat) : State :=
  let s := s.bumpN ACC_CNT_GEN_DISCARD.ev (s.owedDrops a)
  let s := (((s.abortAcct a).ownTreesAbort a).mvAcct a none).ctxsPurge a
  let s := s.msgsPurge a
  let drop := s.orders.filter (·.ev.acct == a)
  let s := (State.orderStat { s with orders := s.orders.filter (·.ev.acct != a), notices := s.notices.filter (·.acct != a) }).bumpN
    TLR_CNT_ORDER_DROP.ev drop.length
  let s := s.ringsPurge a
  let s := ((s.set (ACC_RANK_BASE.base a) 0).set (ACC_RANK_COUNT.count a) 0).setWord (ACC_NOTIFY.reg a) 0
  let s := (List.range 8).foldl (fun s n => (s.acctWindows n a).foldl (fun s w => s.set (TLR_APT_WIN0.valid n w) 0) s) s
  let n := s.aHl a; let fn := s.aFn a; let pas := s.aPasid a
  let s := s.modHl n fun h => { h with heldWrites := h.heldWrites.filter fun w => !(w.fn == fn && w.pasid == pas) }
  let s := { s with rankCache := s.rankCache.filter fun (b, _) => b != a,
                    keyCache := s.keyCache.filter fun (_, _, e) => e.account != a,
                    flushes := s.flushes.filter (·.acct != some a),
                    tags := s.tags.map fun (t : Tag) =>
                      if t.acct = some a ∧ !(match t.why with | .flush (.mover _) => true | _ => false) then { t with why := .other } else t }
  ((s.acctFresh a).serveAll).activityUpd

/-- The reset or removal ends: the account is ACTIVE or REMOVED, and its command with it. -/
def State.resetEnd (s : State) (a : Nat) : State :=
  let rm := (s.acct a).removing
  let s := s.acctPurge a
  ((s.set (ACC_BIND1.state a) (if rm then aREMOVED else aACTIVE)).set (ACC_BIND1.quiesced a) 0).cmdsEnd a rcOK

/-- An account is reset or removed, whatever its state (09 R349, R357, R358): a generation-number account at once, a
privileged one when it has drained. -/
def State.acctReset (s : State) (a : Nat) (removing : Bool) : State :=
  if s.aSt a = aREMOVED then s
  else if s.aSt a = aRESETTING then s.modAcct a fun x => { x with removing := x.removing || removing }
  else
    let s := s.resetting a removing
    if (s.acct a).drain = 3 then s.resetEnd a else s

/-- A message of an account that its drain or freeze waits for: all but a rendezvous SEND that waits only for its FIN. -/
def State.msgRuns (s : State) (a : Nat) : Bool := s.srcMsgs.any fun m => m.ev.acct == a && !(m.kind == .rts && m.acked)

/-- Ledger, Mover and Alloy have nothing in progress for an account. -/
def State.workRuns (s : State) (a : Nat) : Bool :=
  s.msgRuns a || s.lmatches.any (·.recv.acct == a) || s.mvBusy a || s.trees.any fun (_, r) => r.ops.any (·.ev.acct == a)

/-- An account's messages that need the host bus no more: wholly sent, and not gets. -/
def State.sentRuns (s : State) (a : Nat) : Bool :=
  s.srcMsgs.any fun m => m.ev.acct == a && m.allSent && m.resend == [] && !(m.kind == .rts && m.acked)
    && (m.kind == .put || m.kind == .eager || m.kind == .rts || m.kind == .aptStore)

/-- An account's work, reads and flush reads have ended. -/
def State.acctStill (s : State) (a : Nat) : Bool :=
  !s.workRuns a && !(s.tags.any fun t => t.acct == some a && !t.quarantined) && !s.flushes.any (·.acct == some a)

/-- A RESETTING account may end: a privileged one when its work, its reads and its flush reads have ended (09 R358; 08 R318), where its
function is in reset and may not issue without what waits for the bus (08 R317, R319); one that waits for 16 R545 when its generation
may advance. -/
def State.drained (s : State) (a : Nat) : Bool :=
  match (s.acct a).drain with
  | 1 =>
    (if (s.fnc (s.aHl a) (s.aFn a)).resetting && !s.mayIssue (s.aHl a) (s.aFn a) then !s.sentRuns a else s.acctStill a)
      && !(s.liveTrees.any fun t => s.get (ALY_TREE0.account t) == a && s.treeBusy t)
  | 2 => s.genMay a
  | 3 => true
  | _ => false

/-- The drain of a RESETTING account ends: the generation rises, unless it already has. -/
def State.drainEnd (s : State) (a : Nat) : State := (if (s.acct a).drain = 3 then s else s.genUp a).resetEnd a

/-! ### Binding (09 R324, R328, R349) -/

def State.boundOn (s : State) (n : Nat) : List Nat := s.boundAccts.filter fun a => s.aHl a == n

/-- Whether R325 allows the binding that ACC_BIND holds, with the PASID `pas` (09 R325): a slice has PF1, a page index from 1 and
a PASID of its own on its host link, in slice style; any other account is its function's only one. -/
def State.bindFits (s : State) (a : Nat) (pas : Option Nat) : Bool :=
  let n := s.aHl a; let style := s.slices n
  let rest := (s.boundOn n).filter (· != a)
  if s.on (ACC_BIND0.slice a) then
    style && s.aFn a == 1 && s.get (ACC_BIND0.page a) != 0 && pas.isSome &&
      rest.all fun b => !s.on (ACC_BIND0.slice b) || (s.get (ACC_BIND0.page b) != s.get (ACC_BIND0.page a) && s.aPasid b != pas)
  else
    decide (1 ≤ s.aFn a ∧ s.aFn a ≤ 256) && (!style || (s.aFn a == 1 && pas.isNone)) &&
      rest.all fun b => s.on (ACC_BIND0.slice b) || s.aFn b != s.aFn a

/-- Whether an account may become bound with a PASID, as a result code (09 R324, R325, R349; log entry 85). -/
def State.bindResult (s : State) (a : Nat) (pas : Option Nat) : Nat :=
  if s.aSt a ≠ aREMOVED then rcSTATE
  else if !s.hlPresent (s.aHl a) then rcABSENT
  else if 2048 ≤ (s.boundOn (s.aHl a)).length then rcLIMIT
  else if !s.bindFits a pas then rcSTATE
  else rcOK

/-- BIND with a PASID: its result, and the state. -/
def State.bindAcct (s : State) (a : Nat) (pas : Option Nat) : Nat × State :=
  if s.bindResult a pas ≠ rcOK then (s.bindResult a pas, s)
  else (rcOK, ((s.set (ACC_BIND1.state a) aACTIVE).genUp a).acctFresh a)

/-! ### Freezing (09 R360; 06 R247; 07 R281) -/

/-- FENCEs of an account still waiting end at the freeze bound (log entry 50). -/
def State.fencesBound (s : State) (a : Nat) : State :=
  (s.acct a).rings.foldl (fun s (r, x) =>
    match x.fence with
    | some (ev, _) => (s.modRing a r fun x => { x with fence := none, fenceAll := false }).complete ev evFENCE_DONE stFREEZE_BOUND ev.idx 0 0 false
    | none => s) s

/-- The freeze bound: transfers still running fail, COLLs abort, FENCEs end (09 R360 step 3). A pull that waits for an entry ends so, too,
and its FIN is sent once there is one (06 R234). -/
def State.freezeBound (s : State) (a : Nat) : State :=
  let ms := s.lmatches.filter fun m => m.recv.acct == a && (m.mode == 0 || m.mode == 1 || m.mode == 4)
  let s := ms.foldl (fun s m =>
    let s := s.matchDone m stFREEZE_BOUND
    let s := if m.mode = 4 then s.modMatch m.num fun m => { m with mode := 3, status := stFREEZE_BOUND } else s.delMatch m.num
    match m.hdr.ovf with | some b => s.ovfRelease b | none => s) s
  let mine := s.srcMsgs.filter fun m => m.ev.acct == a && !(m.kind == .rts && m.acked) && m.kind != .fin
  let s := mine.foldl (fun s m => match s.srcMsg m.id with | some m => s.msgFail m stFREEZE_BOUND | none => s) s.serveAll
  let s := (s.trees.filter fun (_, r) => r.ops.any (·.ev.acct == a)).foldl (fun s (t, _) => s.abortTree t 6) s
  (s.mvAcct a (some stFREEZE_BOUND)).fencesBound a |>.activityUpd

/-- Every enabled context of an account is spilled, and its order entries are written back (06 R247). -/
def State.spillAll (s : State) (a : Nat) : State :=
  let ks := ((List.range (s.get (LDG_ACC_CTX.count a))).map (· + s.get (LDG_ACC_CTX.base a))).filter fun k => s.on (LDG_CTX0.enable k)
  ks.foldl (fun s k =>
    let s := if s.ctxSt k = cxSPILLED then s
      else if s.ctxSt k = cxRETURNING then s.setCtxSt k cxSPILLED
      else if s.get (LDG_CTX4.spill_entries k) < (s.spillable k).length then s.spillFull k
      else (if s.ctxSt k = cxSPILLING then s else s.bump LDG_CNT_SPILL.ev).spillDone k
    (s.ctx k).order.foldl (fun s (r, _) => s.ordBack a k r) s) s

end Sys2Proof.Machine
end

