-- ==== Sys2Proof/Machine/Accounts.lean ====
section
/-!
DEFINITION. Machine/Accounts.lean: the commands of accounts: doorbells, rings, event queues, allowances, notices, and the
account commands but those of migration (09 R324 to R361).
-/
namespace Sys2Proof.Machine

/-! ### The doorbell page (09 R331, R333, R345, R346, R348) -/

/-- A write to the doorbell page of an account, through the BAR of its function: discarded while power fails (12 R459), while an internal
device reset is due (01 R28), and when the account is REMOVED or RESETTING; else it acts. -/
def State.doorbell (s : State) (a : Nat) (act : State → State) : State :=
  if !s.memOn (s.aHl a) (s.aFn a) then s.memUr (s.aHl a) (s.aFn a) true
  else if s.pwr.pwrfail then s.bump PWR_CNT_DB_PWRFAIL.ev
  else if s.stopping then s
  else if s.aSt a = aREMOVED then s.raise kDOORBELL_SIZE (srcOf 0x26 (s.aHl a)) (acctAddr a) 0
  else if s.aSt a = aRESETTING then s.bump ACC_CNT_DB_IGN.ev
  else act s

/-- Whether a ring of an account takes N as its producer index (09 R331). -/
def State.dbOk (s : State) (a r n : Nat) : Bool :=
  let k := 2 ^ s.get (ACC_RING1.log2_size a r)
  s.on (ACC_RING1.enable a r) && decide (subMod m32 n (s.prodOf a r) ≤ k) && decide (subMod m32 n (s.consOf a r) ≤ k)

/-- DOORBELL_WRITE: bits 31:0 are the new producer index. -/
def execDoorbellWrite (a : AcctNo) (r : Fin 64) (v : BitVec 64) (s : State) : Host.Outcome State Fault Refusal :=
  let a := a.val; let r := r.val; let n := bf v.toNat 0 32
  .next (s.doorbell a fun s =>
    if s.dbOk a r n then ((s.set (ACC_RING2.producer a r) n).ringFetch a r).activityUpd
    else (s.set (ACC_PAGE_ERR.db_range a) 1).bump ACC_CNT_DB_IGN.ev)

/-- INLINE_PUSH: the ring and the index it expects are in word 0. -/
def execInlinePush (a : AcctNo) (d : BitVec 512) (s : State) : Host.Outcome State Fault Refusal :=
  let a := a.val; let r := bf d.toNat 16 6; let i := bf d.toNat 32 32
  .next (s.doorbell a fun s =>
    let p := s.prodOf a r
    let ok := s.on (ACC_RING1.enable a r) && s.ringSt a r != rSTOPPED && i == p
      && decide (subMod m32 p (s.consOf a r) < 2 ^ s.get (ACC_RING1.log2_size a r))
    if !ok then (s.set (ACC_PAGE_ERR.inline_discard a) 1).bump ACC_CNT_INLINE_DISCARD.ev
    else
      let s := s.set (ACC_RING2.producer a r) ((p + 1) % m32)
      if s.aSt a ≠ aACTIVE then s
      else (((s.modRing a r fun x => { x with pushed := tput x.pushed p d }).ringFetch a r).badHeads a (.ring (Fin.ofNat 64 r)) 64).activityUpd)

/-- EQ_CONSUMER_DOORBELL: bits 31:0 are the consumer index, bit 32 arms. -/
def execEqConsumerDoorbell (a : AcctNo) (q : Fin 64) (v : BitVec 64) (s : State) : Host.Outcome State Fault Refusal :=
  let a := a.val; let q := q.val; let n := bf v.toNat 0 32
  .next (s.doorbell a fun s =>
    let p := s.get (ACC_EQ2.producer a q); let c := s.get (ACC_EQ2.consumer a q)
    if subMod m32 p c < subMod m32 n c then s.bump ACC_CNT_DB_IGN.ev
    else
      let s := (s.set (ACC_EQ2.consumer a q) n).fullUpd a q
      if !bit v.toNat 32 then s
      else
        let s := s.set (ACC_EQ3.armed a q) 1
        if p ≠ n ∧ s.on (ACC_EQ1.irq_en a q) then s.msix (s.aHl a) (s.aFn a) (s.get (ACC_EQ1.vector a q)) else s)

/-! ### Enabling rings and queues (09 R329, R330, R337, R339, R347) -/

/-- RING_ENABLE: a write of ACC_RING[r].enable = 1. -/
def execRingEnable (a : AcctNo) (r : Fin 64) (s : State) : Host.Outcome State Fault Refusal :=
  let a := a.val; let r := r.val
  .next (if s.aSt a = aREMOVED ∨ s.on (ACC_RING1.enable a r) ∨ (s.ring a r).stopNotice then s
    else if s.get ACC_STAT.rings_free = 0 then s.set (ACC_PAGE_ERR.ring_pool a) 1
    else
      let s := (s.set ACC_STAT.rings_free (s.get ACC_STAT.rings_free - 1)).set (ACC_RING1.enable a r) 1
      (((s.set (ACC_RING3.state a r) rRUNNING).modRing a r fun x => x).ringFetch a r).activityUpd)

/-- RING_DISABLE: a write of ACC_RING[r].enable = 0. -/
def execRingDisable (a : AcctNo) (r : Fin 64) (s : State) : Host.Outcome State Fault Refusal :=
  .next (if s.aSt a.val = aREMOVED then s else (s.ringOff a.val r.val).activityUpd)

/-- EQ_ENABLE: a write of ACC_EQ[q].enable = 1. -/
def execEqEnable (a : AcctNo) (q : Fin 64) (s : State) : Host.Outcome State Fault Refusal :=
  let a := a.val; let q := q.val
  .next (if s.aSt a = aREMOVED ∨ s.eqOn a q then s
    else if s.get ACC_STAT.eqs_free = 0 then s.set (ACC_PAGE_ERR.eq_pool a) 1
    else (s.set ACC_STAT.eqs_free (s.get ACC_STAT.eqs_free - 1)).set (ACC_EQ1.enable a q) 1)

/-- EQ_DISABLE: a write of ACC_EQ[q].enable = 0. -/
def execEqDisable (a : AcctNo) (q : Fin 64) (s : State) : Host.Outcome State Fault Refusal :=
  let a := a.val; let q := q.val
  .next (if s.aSt a = aREMOVED then s
    else if s.get (ACC_EQ3.reserved_events a q) ≠ 0 ∨ (s.get (ACC_NOTIFY.eq a) = q ∧ s.notices.any (·.acct == a)) then
      s.set (ACC_PAGE_ERR.eq_busy a) 1
    else s.eqOff a q)

/-! ### Descriptors (09 R332, R337, R338) -/

/-- The read of a ring's descriptors has been answered. -/
def State.fetchDone (s : State) (a r : Nat) (res : FetchResult) : State :=
  let n := s.aHl a
  match s.tags.find? fun t => t.hl == n && t.why == .desc a r && !t.quarantined with
  | none => s
  | some t =>
    let s := s.freeTag n (.desc a r)
    if t.gen ≠ s.aGen a then s.bump (HBI_CNT_GEN_DISCARD.ev n)
    else
      match res with
      | .failed => (s.ringStop a r 1).activityUpd
      | .ok ds =>
        let k := (s.ring a r).fetching
        let s := s.modRing a r fun x => { x with staged := x.staged ++ ds.take k, fetching := 0 }
        s.after a (.ring (Fin.ofNat 64 r))

/-- DESCRIPTOR_FETCH_COMPLETE. -/
def execDescriptorFetchComplete (a : AcctNo) (r : Fin 64) (res : FetchResult) (s : State) : Host.Outcome State Fault Refusal :=
  .next (s.fetchDone a.val r.val res)

/-- NOP. -/
def execNop (a : AcctNo) (src : Source) (s : State) : Host.Outcome State Fault Refusal :=
  .next (s.withDesc a.val src 0 (fun _ _ => false) fun s _ ev => s.complete ev evNOP_DONE 0 ev.idx 0 0 false)

/-- What a FENCE of a scope waits for: the descriptors consumed before it. -/
def State.fenceWaits (s : State) (a : Nat) (ev : EvtInfo) (all : Bool) : List Nat :=
  let x := s.acct a
  let l := if all then (x.rings.flatMap fun (_, r) => r.live) ++ x.firedLive
    else (s.ring a ev.ring).live
  l.filter (· != ev.num)

/-- FENCE: scope is bit 0 of word 1. -/
def execFence (a : AcctNo) (src : Source) (s : State) : Host.Outcome State Fault Refusal :=
  let a := a.val
  .next (s.withDesc a src 9
    (fun s _ => match s.head a src with | some (_, r, _) => (s.ring a r).fence.isSome | none => false)
    fun s d ev =>
      let all := bit d.toNat 64
      (s.modRing a ev.ring fun x => { x with fence := some (ev, s.fenceWaits a ev all), fenceAll := all }).fenceSweep a 64)

/-! ### Allowances (09 R351 to R355) -/

/-- Whether an account is visited in a round: ACTIVE, or with consumed descriptors that FREEZE or a drain lets run to their ends (09 R351,
R358, R360; DEDUCED: log entry 120). -/
def State.drrCand (s : State) (n a : Nat) : Bool :=
  let x := s.acct a
  s.aHl a == n && (s.aSt a == aACTIVE || (s.aSt a == aFROZEN && x.freezing) || (s.aSt a == aRESETTING && x.drain == 1)) && decide (0 < x.weight) && !s.acctIdle a && (x.maxRate == 0 || decide (0 < x.maxBucket))

/-- A round begins: writes to allowances take effect, and standing orders that a weight of 0 held may fire. -/
def State.drrStart (s : State) (n : Nat) : State :=
  (s.boundOn n).foldl (fun s a =>
    let was := (s.acct a).weight
    let s := s.modAcct a fun x => { x with weight := s.get (ACC_BIND2.weight a), minRate := s.get (ACC_BIND2.min_rate a),
                                           maxRate := s.get (ACC_BIND2.max_rate a) }
    if was = 0 ∧ (s.acct a).weight ≠ 0 then s.fireWhere fun o => o.ev.acct == a else s)
    (s.modHl n fun h => { h with drrRound := none })

/-- The account that the running round visits next. -/
def State.drrNext (s : State) (n : Nat) : Option Nat :=
  let after (a : Nat) : Bool := match (s.hl n).drrRound with | some b => decide (b < a) | none => true
  (s.boundOn n).find? fun a => after a && s.drrCand n a

/-- The trees on which a segment of a COLL of an account waits for its allowance go on (09 R352). -/
def State.starvedGo (s : State) (a : Nat) : State :=
  (s.trees.filter fun (_, r) => r.ops.any fun o => o.ev.acct == a && o.starved).foldl (fun s (t, _) => s.alyGo t) s

/-- ALLOWANCE_TURN: the round of host link `n` visits account `a`; when no account is left in the round, another begins. -/
def execAllowanceTurn (n : HostLink) (a : AcctNo) (s : State) : Host.Outcome State Fault Refusal :=
  let s := if (s.drrNext n).isSome then s else s.drrStart n
  .next (if s.drrNext n = some a.val then
      (((s.modHl n fun h => { h with drrRound := some a.val }).modAcct a fun x =>
        { x with deficit := x.deficit + x.weight * 256 }).starvedGo a).idleZero a
    else s)

/-! ### Notices (09 R344) -/

/-- NOTICE_WRITE: the oldest waiting notice of an account is written, when it may. -/
def execNoticeWrite (a : AcctNo) (s : State) : Host.Outcome State Fault Refusal :=
  .next (match takeFirst (fun n : Notice => n.acct == a.val) s.notices with
    | none => s
    | some (n, r) =>
      if s.noticeRoom a then
        (State.noticeWrite { s with notices := r } n).fullUpd a (s.get (ACC_NOTIFY.eq a))
      else s)

/-! ### ACC_CMD (09 R349) -/

/-- A write of ACC_CMD[0] with go = 1 and the code named: while done reads 0 its go is ignored. -/
def State.accCmd (s : State) (v : Word) (code : Nat) (run : State → AcctCmd → State) : State :=
  if !bit v.toNat 62 ∨ bf v.toNat 16 4 ≠ code then s
  else
    let a := bf v.toNat 0 14
    let go := s.on ACC_CMD0.done
    let s := (s.set ACC_CMD0.account a).set ACC_CMD0.cmd code
    if go then run s { cmd := code, acct := a, addr := s.get ACC_CMD1.image_addr, len := s.get ACC_CMD2.image_len } else s

/-- The slice of a host link that a page index names (09 R327). -/
def State.sliceAt (s : State) (n page : Nat) : Option Nat :=
  if page = 0 then none
  else
    (s.regs.filterMap fun (k, _) =>
      if 0x9100000 ≤ k ∧ k < 0x9180000 ∧ (k - 0x9100000) % 0x20 = 0 then some ((k - 0x9100000) / 0x20) else none).find? fun a =>
        s.aHl a == n && s.on (ACC_BIND0.slice a) && s.get (ACC_BIND0.page a) == page

/-- A write of ACC_SLICE_CMD[0] of a host link in slice style, through PF1's BAR0; a page that names no provisioned slice ends it with STATE. -/
def State.sliceCmd (s : State) (n : Nat) (v : Word) (code : Nat) (run : State → AcctCmd → State) : State :=
  if !s.memOn n 1 then s.memUr n 1 true
  else if !bit v.toNat 62 ∨ bf v.toNat 16 4 ≠ code ∨ !s.hlPresent n ∨ !s.slices n then s
  else
    let page := bf v.toNat 0 11
    let go := s.on (ACC_SLICE_CMD0.done n)
    let s := (s.set (ACC_SLICE_CMD0.page n) page).set (ACC_SLICE_CMD0.cmd n) code
    if !go then s
    else
      match s.sliceAt n page with
      | some a => run s { cmd := code, acct := a, slice := some n, addr := s.get (ACC_SLICE_CMD2.image_iova n),
                          len := s.get (ACC_SLICE_CMD3.image_len n) }
      | none => s.cmdEnd { cmd := code, slice := some n } rcSTATE

/-- BIND. -/
def State.cmdBind (s : State) (c : AcctCmd) : State :=
  match s.bindAcct c.acct (s.aPasid c.acct) with
  | (r, s) => s.cmdEnd c r

/-- RESET and REMOVE. -/
def State.cmdReset (s : State) (c : AcctCmd) (removing : Bool) : State :=
  if s.aSt c.acct ≠ aACTIVE ∧ s.aSt c.acct ≠ aFROZEN then s.cmdEnd c rcSTATE
  else ((s.cmdsEnd c.acct rcABANDONED).cmdRun c).acctReset c.acct removing

/-- An ACTIVE account begins to freeze (09 R360). -/
def State.freezeAcct (s : State) (a : Nat) : State :=
  let s := (s.set (ACC_BIND1.state a) aFROZEN).set (ACC_BIND1.quiesced a) 0
  let s := s.modAcct a fun x => { x with freezing := true, saved := false }
  if s.get ACC_MIG.freeze_ms = 0 then s.freezeBound a else s

/-- FREEZE; with freeze_ms = 0 the bound passes at once (16 Table 16.1). In VIGIL it ends STATE (16 N22). -/
def State.cmdFreeze (s : State) (c : AcctCmd) : State :=
  if s.aSt c.acct ≠ aACTIVE ∨ s.pwrState = 2 then s.cmdEnd c rcSTATE
  else (s.cmdRun c).freezeAcct c.acct

/-- THAW. -/
def State.cmdThaw (s : State) (c : AcctCmd) : State :=
  let a := c.acct
  if s.aSt a ≠ aFROZEN then s.cmdEnd c rcSTATE
  else
    let s := s.cmdDone a 4 rcABANDONED
    let s := (s.set (ACC_BIND1.state a) aACTIVE).set (ACC_BIND1.quiesced a) 0
    let s := (s.modAcct a fun x => { x with freezing := false, saved := false }).acctNotice a 2
    ((s.fireWhere fun o => o.ev.acct == a).acctFetch a).activityUpd.cmdEnd c rcOK

def execBind (w : Writer) (v : Word) (s : State) : Host.Outcome State Fault Refusal :=
  .next (s.reaching w ACC_CMD0.reg v.toNat fun s =>
    s.accCmd v 1 fun s c => s.cmdBind c)
def execAccountReset (w : Writer) (v : Word) (s : State) : Host.Outcome State Fault Refusal :=
  .next (s.reaching w ACC_CMD0.reg v.toNat fun s =>
    s.accCmd v 2 fun s c => s.cmdReset c false)
def execRemove (w : Writer) (v : Word) (s : State) : Host.Outcome State Fault Refusal :=
  .next (s.reaching w ACC_CMD0.reg v.toNat fun s =>
    s.accCmd v 3 fun s c => s.cmdReset c true)
def execFreeze (w : Writer) (v : Word) (s : State) : Host.Outcome State Fault Refusal :=
  .next (s.reaching w ACC_CMD0.reg v.toNat fun s =>
    s.accCmd v 4 fun s c => s.cmdFreeze c)
def execThaw (w : Writer) (v : Word) (s : State) : Host.Outcome State Fault Refusal :=
  .next (s.reaching w ACC_CMD0.reg v.toNat fun s =>
    s.accCmd v 5 fun s c => s.cmdThaw c)

/-- ACC_BAD_CMD: a code that Table 9.7 does not list. -/
def execAccBadCmd (w : Writer) (v : Word) (s : State) : Host.Outcome State Fault Refusal :=
  let code := bf v.toNat 16 4
  .next (s.reaching w ACC_CMD0.reg v.toNat fun s =>
    if code = 0 ∨ 9 ≤ code then s.accCmd v code fun s c => s.cmdEnd c rcBAD_CMD else s)

/-! ### ACC_SLICE_CMD (09 R327) -/

/-- BIND of a slice: its charter must lie in the host link's range, and it takes the PASID and charter written. -/
def State.cmdSliceBind (s : State) (n : Nat) (c : AcctCmd) : State :=
  let a := c.acct; let ch := s.get (ACC_SLICE_CMD1.charter n)
  if s.aSt a ≠ aREMOVED then s.cmdEnd c rcSTATE
  else if ch < s.get (ACC_CHARTER_RANGE.low n) ∨ s.get (ACC_CHARTER_RANGE.high n) < ch then s.cmdEnd c rcCHARTER
  else
    match s.bindAcct a (some (s.get (ACC_SLICE_CMD1.pasid n))) with
    | (0, s) =>
      (((s.set (ACC_BIND0.pasid a) (s.get (ACC_SLICE_CMD1.pasid n))).set (ACC_BIND0.pasid_valid a) 1).set (ACC_BIND1.charter a) ch).cmdEnd c rcOK
    | (r, s) => s.cmdEnd c r

def execSliceBind (n : HostLink) (v : Word) (s : State) : Host.Outcome State Fault Refusal :=
  .next (s.sliceCmd n v 1 fun s c => s.cmdSliceBind n c)
def execSliceReset (n : HostLink) (v : Word) (s : State) : Host.Outcome State Fault Refusal :=
  .next (s.sliceCmd n v 2 fun s c => s.cmdReset c false)
def execSliceRemove (n : HostLink) (v : Word) (s : State) : Host.Outcome State Fault Refusal :=
  .next (s.sliceCmd n v 3 fun s c => s.cmdReset c true)
def execSliceFreeze (n : HostLink) (v : Word) (s : State) : Host.Outcome State Fault Refusal :=
  .next (s.sliceCmd n v 4 fun s c => s.cmdFreeze c)
def execSliceThaw (n : HostLink) (v : Word) (s : State) : Host.Outcome State Fault Refusal :=
  .next (s.sliceCmd n v 5 fun s c => s.cmdThaw c)

/-- SLICE_BAD_CMD: STUB, or a code that Table 9.7 does not list. -/
def execSliceBadCmd (n : HostLink) (v : Word) (s : State) : Host.Outcome State Fault Refusal :=
  let code := bf v.toNat 16 4
  .next (if code = 0 ∨ 8 ≤ code then s.sliceCmd n v code fun s c => s.cmdEnd c rcBAD_CMD else s)

/-! ### What ends later -/

/-- An account's event writes that wait for the host bus (09 R360). -/
def State.eventsWait (s : State) (a : Nat) : Bool :=
  (s.hl (s.aHl a)).heldWrites.any fun w => w.fn == s.aFn a && w.pasid == s.aPasid a

/-- FREEZE_QUIESCED: nothing of a freezing account is in flight, and its events are written: its contexts are spilled, quiesced reads 1
(09 R360). -/
def execFreezeQuiesced (a : AcctNo) (s : State) : Host.Outcome State Fault Refusal :=
  let a := a.val
  .next (if s.aSt a ≠ aFROZEN ∨ !(s.acct a).freezing ∨ s.workRuns a ∨ s.eventsWait a ∨ (s.acct a).rings.any fun (_, x) => x.fence.isSome then s
    else
      let s := (s.spillAll a).set (ACC_BIND1.quiesced a) 1
      ((s.modAcct a fun x => { x with freezing := false }).acctNotice a 1).cmdDone a 4 rcOK)

/-- FREEZE_BOUND_EXPIRY. -/
def execFreezeBoundExpiry (a : AcctNo) (s : State) : Host.Outcome State Fault Refusal :=
  .next (if s.aSt a.val = aFROZEN ∧ (s.acct a.val).freezing then s.freezeBound a.val else s)

/-- ACCOUNT_DRAIN_END. -/
def execAccountDrainEnd (a : AcctNo) (s : State) : Host.Outcome State Fault Refusal :=
  .next (if s.aSt a.val = aRESETTING ∧ s.drained a.val then s.drainEnd a.val else s)

/-! ### VF Enable (09 R328) -/

/-- VF_ENABLE_SET: every REMOVED account that names a VF no greater than NumVFs, with auto_bind = 1, is bound. -/
def execVfEnableSet (n : HostLink) (numVfs : Nat) (s : State) : Host.Outcome State Fault Refusal :=
  let mine := s.regs.filterMap fun (k, w) =>
    if 0x9100000 ≤ k ∧ k < 0x9180000 ∧ (k - 0x9100000) % 0x20 = 0 ∧ bit w.toNat 49 ∧ bf w.toNat 0 3 = n.val ∧ !bit w.toNat 3
      ∧ 2 ≤ bf w.toNat 4 9 ∧ bf w.toNat 4 9 ≤ 1 + numVfs then some ((k - 0x9100000) / 0x20) else none
  .next (if s.hlPresent n ∧ !s.slices n then mine.foldl (fun s a => (s.bindAcct a (s.aPasid a)).2) (s.modHl n fun h => { h with vfEnable := true, numVfs }) else s)

/-- Every VF account of a host link is removed, its VFs are gone, and VF Enable reads 0 (09 R328; 08 Table 8.12). -/
def State.vfsOff (s : State) (n : Nat) : State :=
  let vfs := (s.boundOn n).filter fun a => decide (2 ≤ s.aFn a)
  let s := vfs.foldl (fun s a => s.acctReset a true) s
  let vf (f : Nat) : Bool := decide (2 ≤ f)
  let s := s.modHl n fun h =>
    { h with vfEnable := false, atc := h.atc.filter (!vf ·.fn), ats := h.ats.filter (!vf ·.fn), once := h.once.filter (!vf ·.fn),
             heldWrites := h.heldWrites.filter (!vf ·.fn), draining := h.draining.filter (!vf ·) }
  State.atsStat { s with fns := s.fns.filter fun (k, _) => !(k / 512 == n && vf (k % 512)) } n

/-- VF_ENABLE_CLEAR. -/
def execVfEnableClear (n : HostLink) (s : State) : Host.Outcome State Fault Refusal := .next (s.vfsOff n)

end Sys2Proof.Machine
end

