-- ==== Sys2Proof/Machine/Migration.lean ====
section
/-!
DEFINITION. Machine/Migration.lean: migration images and stubs (09 R361 to R364; 06 R247). The spec names what each section
of an image holds and leaves its layout open; the layout of the sections here is the model's (log entry 51).
-/
namespace Sys2Proof.Machine

/-! ### Words of a section -/

/-- Reads words of a section in order; 0 beyond its end. -/
def rd1 : List Nat → Nat × List Nat
  | [] => (0, [])
  | x :: r => (x, r)

/-- Reads `k` items with `f`. -/
def rdMany {α : Type} (f : List Nat → α × List Nat) : Nat → List Nat → List α × List Nat
  | 0, l => ([], l)
  | k + 1, l =>
    match f l with
    | (x, r) => match rdMany f k r with
      | (xs, r) => (x :: xs, r)

def wrEv (e : EvtInfo) : List Nat :=
  [e.eq + e.ring * 2 ^ 8 + b2n e.fired * 2 ^ 16 + b2n e.ctr.isSome * 2 ^ 17 + e.ctr.getD 0 * 2 ^ 32, e.idx, e.cookie]
def rdEv (a gen : Nat) (l : List Nat) : EvtInfo × List Nat :=
  match rd1 l with
  | (w, l) => match rd1 l with
    | (idx, l) => match rd1 l with
      | (cookie, l) =>
        ({ acct := a, gen, eq := bf w 0 8, ring := bf w 8 8, idx, fired := bit w 16, cookie,
           ctr := if bit w 17 then some (bf w 32 16) else none }, l)

def wrPat (p : Pattern) : List Nat := [p.base, p.elem, p.loops.length] ++ p.loops.flatMap fun (c, st) => [c, trunc 64 st]
def rdPat (l : List Nat) : Pattern × List Nat :=
  match rd1 l with
  | (base, l) => match rd1 l with
    | (elem, l) => match rd1 l with
      | (k, l) =>
        match rdMany (fun l => match rd1 l with | (c, l) => match rd1 l with | (st, l) => ((c, sext 64 st), l)) (min k 8) l with
        | (loops, l) => ({ base, elem, loops }, l)

/-- A Ledger entry: its 64 bytes of 06 Table 6.2, what else its completion needs, and the place of its overflow buffer. -/
def wrEntry (bufs : List OvfBuf) (base : Nat) (e : LEntry) : List Nat :=
  ({ e with ctx := e.ctx - base } : LEntry).words none none ++
    [e.srcAcct + e.charter * 2 ^ 16 + b2n e.complete * 2 ^ 32 + b2n e.rts * 2 ^ 33 + b2n e.pattern * 2 ^ 34 + b2n e.anySource * 2 ^ 35
      + e.slot % 2 ^ 24 * 2 ^ 40,
     e.seqNo, e.key, e.msgId + e.src * m32,
     match e.ovf with | some b => (match bufs.findIdx? (·.num == b) with | some i => i + 1 | none => 0) | none => 0] ++ wrEv e.ev ++ wrPat e.pat
def rdEntry (a gen base : Nat) (bufs : List OvfBuf) (l : List Nat) : LEntry × List Nat :=
  let w := l.take 8
  let at_ (i : Nat) : Nat := w.getD i 0
  let l := l.drop 8
  let kind : LKind := match bf (at_ 2) 25 3 with | 1 => .posted | 2 => .unexp | 3 => .early | _ => .rndv
  match rdMany rd1 5 l with
  | (x, l) =>
    let f := x.getD 0 0
    match rdEv a gen l with
    | (ev, l) => match rdPat l with
      | (pat, l) =>
        let rndv := kind == .rndv
        ({ kind, ctx := base + bf (at_ 2) 32 16, mbits := if rndv then 0 else at_ 0, ignore := if kind == .posted then at_ 1 else 0,
           rank := bf (at_ 2) 0 24, anySource := bit f 35, seqNo := x.getD 1 0, rts := bit f 33, complete := bit f 32, buf := at_ 4,
           len := at_ 5, adm := if kind == .unexp || kind == .early then bf (at_ 3) 0 32 else 0, slot := bf f 40 24, pattern := bit f 34, pat, key := x.getD 2 0, msgId := bf (x.getD 3 0) 0 32, src := bf (x.getD 3 0) 32 23,
           srcAcct := bf f 0 16, charter := bf f 16 16, acct := a, ovf := if x.getD 4 0 = 0 then none else (bufs[x.getD 4 0 - 1]?).map (·.num), ev }, l)

def wrOvf (base : Nat) (b : OvfBuf) : List Nat := [b.ctx - base + b2n b.retired * 2 ^ 32, b.base, b.len, b.fill, b.live] ++ wrEv b.ev
def rdOvf (a gen base : Nat) (l : List Nat) : OvfBuf × List Nat :=
  match rdMany rd1 5 l with
  | (x, l) => match rdEv a gen l with
    | (ev, l) => ({ ctx := base + bf (x.getD 0 0) 0 32, retired := bit (x.getD 0 0) 32, base := x.getD 1 0, len := x.getD 2 0,
                    fill := x.getD 3 0, live := x.getD 4 0, ev }, l)

def wrDesc (d : Desc) : List Nat := (List.range 8).map fun i => bf d.toNat (64 * i) 64
def rdDesc (l : List Nat) : Desc × List Nat := (BitVec.ofNat 512 (joinWords (l.take 8)), l.drop 8)

/-- A standing order; one fired and not yet run has threshold 0. -/
def wrOrder (o : Order) : List Nat := [o.ctr, o.threshold] ++ wrDesc o.desc ++ wrEv o.ev
def rdOrder (a gen : Nat) (l : List Nat) : Order × List Nat :=
  match rdMany rd1 2 l with
  | (x, l) => match rdDesc l with
    | (desc, l) => match rdEv a gen l with
      | (ev, l) => ({ ctr := x.getD 0 0, threshold := x.getD 1 0, desc, ev }, l)

/-! ### Sections (09 Table 9.11) -/

def wordOf (s : State) (r : RF) : Nat := (s.word r).toNat
/-- Registers of the control page that an image carries. -/
def pageRegs (a : Nat) : List RF :=
  [ACC_RANK_BASE.reg a, ACC_RANK_COUNT.reg a, ACC_NOTIFY.reg a]
    ++ (List.range 64).flatMap (fun r => [ACC_RING0.reg a r, ACC_RING1.reg a r, ACC_RING2.reg a r, ACC_RING3.reg a r])
    ++ (List.range 64).flatMap fun q => [ACC_EQ0.reg a q, ACC_EQ1.reg a q, ACC_EQ2.reg a q, ACC_EQ3.reg a q]
def ctxRegs (k : Nat) : List RF :=
  [LDG_CTX0.reg k, LDG_CTX1.reg k, LDG_CTX2.reg k, LDG_CTX3.reg k, LDG_CTX4.reg k, LDG_CTX5.reg k, LDG_CTX6.reg k, LDG_CTX7.reg k]

def State.acctCtxs (s : State) (a : Nat) : List Nat := (List.range (s.get (LDG_ACC_CTX.count a))).map (· + s.get (LDG_ACC_CTX.base a))
/-- Counters that an account owns, ascending (05 R206). -/
def State.acctCtrs (s : State) (a : Nat) : List Nat :=
  s.regs.filterMap fun (k, w) =>
    if 0x5280000 ≤ k ∧ k < 0x5300000 ∧ bit w.toNat 16 ∧ bf w.toNat 0 14 = a then some ((k - 0x5280000) / 8) else none
/-- First Aperture window of an account's function (08 Table 8.5). -/
def State.winFirst (s : State) (a : Nat) : Nat := if s.aFn a ≤ 1 then 0 else 4 * (s.aFn a - 1)

def State.secPage (s : State) (a : Nat) : List Nat := (pageRegs a).map (wordOf s)
def State.secAllow (s : State) (a : Nat) : List Nat := [wordOf s (ACC_BIND2.reg a), wordOf s (ACC_TLY_USER.reg a), s.get (LDG_ACC_CTX.count a)]
/-- The Ledger section: the words of each context with its next admission sequence, the overflow buffers and the RNDV_SEND entries; POSTED,
UNEXP and EARLY entries stand in the spill areas (09 Table 9.11; 06 R247). -/
def State.secLedger (s : State) (a : Nat) : List Nat :=
  let ks := s.acctCtxs a; let base := s.get (LDG_ACC_CTX.base a)
  let es := s.entries.filter fun e => ks.contains e.ctx && e.kind == .rndv
  let bs := s.ovfBufs.filter fun b => ks.contains b.ctx
  ks.flatMap (fun k => (ctxRegs k).map (wordOf s) ++ [(s.ctx k).nextAdm]) ++ [bs.length] ++ bs.flatMap (wrOvf base) ++ [es.length] ++ es.flatMap (wrEntry bs base)
def State.secOrders (s : State) (a : Nat) : List Nat :=
  let os := (s.acct a).fired.map (fun (desc, ev) => ({ desc, ev } : Order)) ++ s.orders.filter (·.ev.acct == a)
  let cs := s.acctCtrs a
  [os.length] ++ os.flatMap wrOrder ++ [cs.length] ++ cs.flatMap fun c => [c, s.get (TLR_CTR.value c)]
/-- The live atomics of an account whose book entries are no longer on chip (05 R195, R197). -/
def State.bookGone (s : State) (a : Nat) : List FilterEnt :=
  s.filter.filter fun f => f.live && f.atomic && f.acct == a && !(s.book.any fun b => b.src == f.src && b.msgId == f.msgId)

/-- The accesses that read them from the host receipt book. -/
def State.bookGoneAccs (s : State) (a : Nat) : List (Nat × Nat × Bool) :=
  if s.on (TLR_RBOOK_SIZE.enable (s.aHl a)) then (s.bookGone a).map fun f => (s.bookAddr (s.aHl a) f.src f.msgId, 64, false) else []

/-- The entries of an account that the host receipt book holds (05 Table 5.6); `none` on an error completion. -/
def State.bookHost (s : State) (a : Nat) (hv : HostView) : Option (List BookEnt) :=
  let n := s.aHl a
  if !s.on (TLR_RBOOK_SIZE.enable n) then some []
  else (s.bookGone a).foldr (fun f acc =>
    let addr := s.bookAddr n f.src f.msgId
    match acc, hostNat hv addr 32, hostNat hv (addr + 32) 32 with
    | some l, some x, some y =>
      match [x, y].find? fun x => bit x 23 && bf x 0 23 == f.src && bf x 32 32 == f.msgId with
      | some x => some ({ src := f.src, msgId := f.msgId, nonce := bf x 64 32, status := bf x 24 8, prior := bf x 128 64, hl := n, acct := a } :: l)
      | none => some l
    | _, _, _ => none) (some [])

/-- The filter section; `out` are the receipt-book entries that the host book holds. -/
def State.secFilter (s : State) (a : Nat) (out : List BookEnt) : List Nat :=
  let fs := s.filter.filter fun f => f.live && f.acct == a
  let win := s.get TPT_FILTER.time_us
  let bs := (s.book.filter fun b => b.acct == a && decide ((s.stamp - b.atT) / 4000 ≤ max 1000 win)) ++ out
  [fs.length] ++ fs.flatMap (fun f => [f.src + f.status * 2 ^ 32 + b2n f.atomic * 2 ^ 40, f.msgId])
    ++ [bs.length] ++ bs.flatMap fun b => [b.src + b.status * 2 ^ 32, b.msgId, b.nonce, b.prior]
def State.secWindows (s : State) (a : Nat) : List Nat :=
  let n := s.aHl a
  (s.acctWindows n a).flatMap fun w =>
    [w - s.winFirst a, wordOf s (TLR_APT_WIN0.reg n w), wordOf s (TLR_APT_WIN1.reg n w), wordOf s (TLR_APT_WIN2.reg n w), wordOf s (TLR_APT_WIN3.reg n w)]

/-! ### The image (09 Table 9.10) -/

def imgMagic : Nat := 0x31544343414E464B
def sectionWords (s : State) (a : Nat) (out : List BookEnt) : List (List Nat) :=
  [s.secPage a, s.secAllow a, s.secLedger a, s.secOrders a, s.secFilter a out, s.secWindows a]

/-- Directory entries and the offset past the sections: type, offset, length in bytes. -/
def imgDir : Nat → Nat → List (List Nat) → List (Nat × Nat × Nat)
  | _, _, [] => []
  | ty, off, x :: r => (ty, off, 8 * x.length) :: imgDir (ty + 1) (off + 8 * x.length) r

/-- The image with a given digest. -/
def State.imageWith (s : State) (a : Nat) (out : List BookEnt) (digest : Nat) : List Byte :=
  let secs := sectionWords s a out
  let dir := imgDir 1 256 secs
  let len := 256 + 8 * (secs.map List.length).sum
  let ds := dir.flatMap fun (ty, off, n) => bytesOf 8 ty ++ bytesOf 4 off ++ bytesOf 4 n
  let hdr := bytesOf 8 imgMagic ++ bytesOf 2 1 ++ bytesOf 2 256 ++ bytesOf 4 (s.get IZG_FW_STAT.generation)
    ++ bytesOf 8 len ++ bytesOf 2 a ++ bytesOf 2 (s.aGen a) ++ bytesOf 2 (s.aCharter a)
    ++ bytesOf 2 (b2n (s.on (ACC_BIND0.slice a)) + 2 * b2n (s.on (ACC_BIND0.pasid_valid a))) ++ bytesOf 4 (s.ep + s.aHl a)
    ++ bytesOf 4 dir.length ++ bytesOf 64 digest ++ ds
  slice hdr 0 256 ++ (secs.flatMap id).flatMap (bytesOf 8)

/-- The image: its SHA-512 digest covers it with the digest field read as zero. -/
def State.image (s : State) (a : Nat) (out : List BookEnt) : List Byte :=
  s.imageWith a out (Config.sha512 (s.imageWith a out 0)).toNat

/-- Section `ty` of an image, as words. -/
def secOf (img : List Byte) (ty : Nat) : Option (List Nat) :=
  ((List.range (leAt img 36 4)).find? fun i => leAt img (104 + 16 * i) 2 == ty).map fun i =>
    let off := leAt img (112 + 16 * i) 4; let n := leAt img (116 + 16 * i) 4
    (List.range (n / 8)).map fun j => leAt img (off + 8 * j) 8

/-- Standing orders and owned counters of section 0x04. -/
def rdOrders (a gen : Nat) (l : List Nat) : List Order × List (Nat × Nat) :=
  match rd1 l with
  | (k, l) => match rdMany (rdOrder a gen) (min k 65536) l with
    | (os, l) => match rd1 l with
      | (k, l) => match rdMany (fun l => match rd1 l with | (c, l) => match rd1 l with | (v, l) => ((c, v), l)) (min k 65536) l with
        | (cs, _) => (os, cs)

/-! ### The buffer (09 R362) -/

/-- Whether a command's buffer may be accessed now, and where it lies: host link, function, host address. ACC_CMD's lies in an
outbound window; ACC_SLICE_CMD's in PF1's space without PASID. -/
def State.bufGate (s : State) (c : AcctCmd) (len : Nat) (write : Bool) : Gate × (Nat × Nat × Option Nat × Nat) × State :=
  match c.slice with
  | some n => match s.gate n 1 none [(c.addr, len, write)] with | (g, s) => (g, (n, 1, none, c.addr), s)
  | none =>
    if c.addr < 2 ^ 47 then (.fail, (0, 0, none, 0), s)
    else
      match s.owinGate c.addr len write false with
      | (.fail, s) => (.fail, (0, 0, none, 0), s.owinFault c.addr)
      | (g, s) => (g, s.owinTarget c.addr, s)

/-! ### SAVE (09 R362; 16 N22) -/

/-- SAVE begins: a buffer too small, were nothing of the account in the host receipt book, ends it; SAVE_IMAGE_WRITTEN judges the whole. -/
def State.cmdSave (s : State) (c : AcctCmd) : State :=
  let a := c.acct
  if s.aSt a ≠ aFROZEN ∨ !s.on (ACC_BIND1.quiesced a) ∨ s.pwrState = 2 then s.cmdEnd c rcSTATE
  else if c.len < (s.image a []).length then s.cmdEnd c rcSPACE
  else (s.cmdRun c).set (ACC_BIND1.state a) aMIGRATING

def execSave (w : Writer) (v : Word) (s : State) : Host.Outcome State Fault Refusal :=
  .next (s.reaching w ACC_CMD0.reg v.toNat fun s =>
    s.accCmd v 6 fun s c => s.cmdSave c)
def execSliceSave (n : HostLink) (v : Word) (s : State) : Host.Outcome State Fault Refusal :=
  .next (s.sliceCmd n v 6 fun s c => s.cmdSave c)

/-- The oldest SAVE or RESTORE running. -/
def State.running (s : State) (code : Nat) : Option AcctCmd := s.acctCmds.find? (·.cmd == code)

/-- SAVE_IMAGE_WRITTEN: the image of the oldest SAVE running is written, what the host receipt book holds of the account among it, and its
account is FROZEN again. A host book that cannot be read ends it with HOST_ERROR (DESIGN CHOICE: log entry 123). -/
def execSaveImageWritten (hv : HostView) (s : State) : Host.Outcome State Fault Refusal :=
  .next (match s.running 6 with
    | none => s
    | some c =>
      let a := c.acct
      let back (s : State) (r : Nat) : State := (s.set (ACC_BIND1.state a) aFROZEN).cmdEnd c r
      match s.gate (s.aHl a) (s.aFn a) (s.aPasid a) (s.bookGoneAccs a) hv with
      | (.wait, s) => s
      | (g, s) =>
        match (if g = .go then s.bookHost a hv else none) with
        | none => back s rcHOST_ERROR
        | some out =>
          let img := s.image a out
          if c.len < img.length then back s rcSPACE
          else
            match s.bufGate c img.length true with
            | (.wait, _, s) => s
            | (.fail, _, s) => back s rcHOST_ERROR
            | (.go, (n, fn, pas, addr), s) =>
              let s := s.post n fn pas addr img false
              let s := match c.slice with
                | some n => s.set (ACC_SLICE_CMD3.image_len n) img.length
                | none => s.set ACC_CMD2.image_len img.length
              back (s.modAcct a fun x => { x with saved := true }) rcOK)

/-! ### RESTORE (09 R363; 16 N22, N25) -/

/-- Reads `n` bytes of host memory for an image; `none` on an error completion. -/
def imgRead (hv : HostView) (addr n : Nat) : Option (List Byte × Bool) :=
  if (hv.map fun x => x.data.length).sum < n then none else hostRead hv addr n

/-- Checks 1 to 5 of 09 R363 on the bytes read: the result. -/
def State.imgCheck (s : State) (a : Nat) (img : List Byte) (poison : Bool) : Nat :=
  let digest := leAt img 40 64
  let zeroed := img.take 40 ++ List.replicate 64 0 ++ img.drop 104
  let dirs := leAt img 36 4
  let types := (List.range dirs).map fun i => leAt img (104 + 16 * i) 2
  let (os, cs) := rdOrders a 0 ((secOf img 4).getD [])
  let page := (secOf img 1).getD []
  let rings := ((List.range 64).filter fun r => bit (page.getD (4 + 4 * r) 0) 16).length
  let eqs := ((List.range 64).filter fun q => bit (page.getD (260 + 4 * q) 0) 21).length
  if (Config.sha512 zeroed).toNat ≠ digest then rcDIGEST
  else if leAt img 0 8 ≠ imgMagic ∨ leAt img 8 2 ≠ 1 ∨ s.get IZG_FW_STAT.generation < leAt img 12 4 ∨ dirs = 0 ∨ 9 < dirs
      ∨ !types.all fun t => decide (1 ≤ t ∧ t ≤ 6) then rcVERSION
  else if s.on (ACC_BIND0.slice a)
      ∧ (leAt img 28 2 < s.get (ACC_CHARTER_RANGE.low (s.aHl a)) ∨ s.get (ACC_CHARTER_RANGE.high (s.aHl a)) < leAt img 28 2) then rcCHARTER
  else if cs.any (fun (c, _) => s.on (TLR_CTR_OWN.valid c)) ∨ s.get (LDG_ACC_CTX.count a) < ((secOf img 2).getD []).getD 2 0
      ∨ s.get ACC_STAT.rings_free < rings ∨ s.get ACC_STAT.eqs_free < eqs ∨ 65536 < s.orders.length + os.length then rcRESOURCE
  else if poison then rcHOST_ERROR
  else rcOK

/-- What becomes of a RESTORE's reading: wait, or a result and the image. -/
def State.imgFetch (s : State) (c : AcctCmd) (hv : HostView) : Option (Nat × List Byte) × State :=
  match s.bufGate c 256 false with
  | (.wait, _, s) => (none, s)
  | (.fail, _, s) => (some (rcHOST_ERROR, []), s)
  | (.go, (_, _, _, addr), s) =>
    match imgRead hv addr 256 with
    | none => (some (rcHOST_ERROR, []), s)
    | some (h, _) =>
      let n := leAt h 16 8
      if n < 256 ∨ c.len < n then (some (rcDIGEST, []), s)
      else
        match s.bufGate c n false with
        | (.wait, _, s) => (none, s)
        | (.fail, _, s) => (some (rcHOST_ERROR, []), s)
        | (.go, _, s) =>
          match imgRead hv addr n with
          | none => (some (rcHOST_ERROR, []), s)
          | some (img, p) => (some (s.imgCheck c.acct img p, img), s)

/-- RESTORE begins: a failed check ends it; while the host bus must be waited for, RESTORE_IMAGE_LOADED goes on with it. -/
def State.cmdRestore (s : State) (c : AcctCmd) (hv : HostView) : State :=
  let a := c.acct
  let r := if s.pwrState = 2 then rcSTATE else s.bindResult a (s.aPasid a)
  if r ≠ rcOK then s.cmdEnd c r
  else
    match s.imgFetch c hv with
    | (some (0, _), s) => (s.cmdRun c).set (ACC_BIND1.state a) aMIGRATING
    | (some (r, _), s) => s.cmdEnd c r
    | (none, s) => (s.cmdRun c).set (ACC_BIND1.state a) aMIGRATING

def execRestore (w : Writer) (v : Word) (hv : HostView) (s : State) : Host.Outcome State Fault Refusal :=
  .next (s.reaching w ACC_CMD0.reg v.toNat fun s =>
    s.accCmd v 7 fun s c => s.cmdRestore c hv)
def execSliceRestore (n : HostLink) (v : Word) (hv : HostView) (s : State) : Host.Outcome State Fault Refusal :=
  .next (s.sliceCmd n v 7 fun s c => s.cmdRestore c hv)

/-- The bits of a register that are not reserved (00 R7). -/
def usedBits (addr : Nat) : Nat :=
  match findReg addr with
  | some (r, _) => maskOf (r.fields.flatMap fun (lo, len, _) => (List.range len).map (· + lo))
  | none => 0

/-- Loads registers in order from words; reserved bits stay 0 (00 R7). -/
def State.loadWords (s : State) (rs : List RF) (ws : List Nat) : State :=
  (rs.zip ws).foldl (fun s (r, w) => s.setWord r (BitVec.ofNat 64 (w &&& usedBits r.addr))) s

/-- Section 0x01: enabled rings and queues leave the pools. -/
def State.loadPage (s : State) (a : Nat) (ws : List Nat) : State :=
  let s := s.loadWords (pageRegs a) ws
  let rings := ((List.range 64).filter fun r => s.on (ACC_RING1.enable a r)).length
  let eqs := ((List.range 64).filter fun q => s.eqOn a q).length
  let s := (List.range 64).foldl (fun s r => if s.on (ACC_RING1.enable a r) then s.modRing a r fun x => x else s) s
  (s.set ACC_STAT.rings_free (s.get ACC_STAT.rings_free - rings)).set ACC_STAT.eqs_free (s.get ACC_STAT.eqs_free - eqs)

/-- Section 0x02. -/
def State.loadAllow (s : State) (a : Nat) (ws : List Nat) : State := s.loadWords [ACC_BIND2.reg a, ACC_TLY_USER.reg a] ws

/-- An entry of an image enters the lists; the descriptor it completes is outstanding again. -/
def State.loadEntry (s : State) (a : Nat) (e : LEntry) : State :=
  let (num, s) := s.newId
  let (d, s) := s.newId
  let owed := e.kind == .posted || e.kind == .rndv
  let s := { s with entries := s.entries ++ [{ e with num, ev := { e.ev with num := d } }] }
  if !owed then s.modCtx e.ctx fun c => { c with nextAdm := (e.adm + 1) % m32 }
  else if e.ev.fired then s.modAcct a fun x => { x with firedLive := x.firedLive ++ [d] }
  else s.modRing a e.ev.ring fun x => { x with live := x.live ++ [d] }

/-- The words of Section 0x03 that stand for each context. -/
def ctxImgLen : Nat := 9

/-- The spill areas that an image names: context by context its base, its entries and how many of them are in use. -/
def State.areasOf (s : State) (a k : Nat) (ws : List Nat) : List (Nat × Nat × Nat × Nat) :=
  let base := s.get (LDG_ACC_CTX.base a)
  (List.range k).map fun i =>
    let w (j : Nat) : Nat := ws.getD (ctxImgLen * i + j) 0
    let fld (f : RF) (j : Nat) : Nat := bf (w j) f.lo f.len
    (base + i, fld (LDG_CTX3.spill_base 0) 3 / 64 * 64, fld (LDG_CTX4.spill_entries 0) 4,
      if fld (LDG_CTX0.enable 0) 0 = 0 then 0 else fld (LDG_CTX5.in_host 0) 5)

/-- The accesses that read them. -/
def areaAccs (l : List (Nat × Nat × Nat × Nat)) : List (Nat × Nat × Bool) :=
  (l.filter fun (_, _, m, n) => n != 0 && m != 0).map fun (_, b, m, _) => (b, 64 * m, false)

/-- The next `left` entries of a spill area from index `i` on, each with its index; `none` on an error completion. -/
def areaScan (sv : HostView) (b : Nat) : Nat → Nat → Nat → Option (List (Nat × Nat))
  | 0, _, _ => some []
  | _, _, 0 => some []
  | f + 1, i, n + 1 =>
    match hostNat sv (b + 64 * i) 64 with
    | none => none
    | some w =>
      if bf w 153 3 = 1 ∨ bf w 153 3 = 2 ∨ bf w 153 3 = 3 then (areaScan sv b f (i + 1) n).map ((i, w) :: ·)
      else areaScan sv b f (i + 1) (n + 1)

/-- An entry from its 64 bytes (06 Table 6.2). What these do not hold comes from `x`, a free value: the queue, ring and index of a RECV, the
account of a header's source (log entry 51). An overflow buffer is known by the bytes reserved in it; the charter is the account's (06 R217).
`none` when the pattern record of a RECV cannot be read. -/
def areaEntryOf (charter a gen k x : Nat) (bufs : List OvfBuf) (sv : HostView) (i w : Nat) : Option LEntry :=
  let posted := bf w 153 3 = 1
  let buf := bf w 256 64; let len := bf w 320 40
  let isPat := posted && bit w 156
  let p := if isPat then readPat sv buf len else (0, .flat buf len)
  let e : LEntry := { kind := if posted then .posted else if bf w 153 3 = 2 then .unexp else .early, ctx := k, mbits := bf w 0 64,
                      ignore := bf w 64 64, rank := bf w 128 24, anySource := bit w 152, buf, len, slot := i, acct := a, pat := p.2 }
  if p.1 = stHOST_ERROR then none
  else if posted then
    some { e with seqNo := bf w 192 32, pattern := isPat, ev := { acct := a, gen, eq := bf x 0 6, ring := bf x 6 6, fired := bit x 12,
                                                                  idx := bf x 16 32, cookie := bf w 384 64,
                                                                  ctr := if bit w 157 then some (bf w 176 16) else none } }
  else
    let rts := bit w 156
    some { e with ignore := 0, seqNo := bf w 176 16, rts, complete := bit w 157, adm := bf w 192 32, msgId := bf w 384 32,
                  src := bf w 416 23, srcAcct := bf x 0 14, charter, key := bf w 480 32,
                  ovf := if rts then none else (bufs.find? fun b => b.ctx == k && decide (b.base ≤ buf ∧ buf < b.base + b.len)).map (·.num) }

/-- The same, with its free value taken. -/
def State.areaEntry (s : State) (a gen k : Nat) (bufs : List OvfBuf) (sv : HostView) (i w : Nat) : Option (LEntry × State) :=
  let (x, t) := s.free 64
  (areaEntryOf (s.aCharter a) a gen k x bufs sv i w).map fun e => (e, t)

/-- The entries of a spill area's slots. -/
def State.areaEntries (s : State) (a gen k : Nat) (bufs : List OvfBuf) (sv : HostView) : List (Nat × Nat) → Option (List LEntry × State)
  | [] => some ([], s)
  | (i, w) :: r =>
    match s.areaEntry a gen k bufs sv i w with
    | none => none
    | some (e, s) => (s.areaEntries a gen k bufs sv r).map fun (es, s) => (e :: es, s)

/-- Puts an entry in its place in a list by ascending age. -/
def insertAge (x : Nat × LEntry) : List (Nat × LEntry) → List (Nat × LEntry)
  | [] => [x]
  | y :: r => if x.1 ≤ y.1 then x :: y :: r else y :: insertAge x r

/-- Reads the entries of a context's spill area, in the order of their posting or admission. -/
def State.areaLoad (s : State) (a gen : Nat) (bufs : List OvfBuf) (sv : HostView) (l : Nat × Nat × Nat × Nat) : Option State :=
  let k := l.1
  match areaScan sv l.2.1 l.2.2.1 0 l.2.2.2 with
  | none => none
  | some ws => (s.areaEntries a gen k bufs sv ws).map fun (es, s) =>
      let age (e : LEntry) : Nat :=
        if e.kind == .posted then subMod m32 e.seqNo (s.get (LDG_CTX6.next_post k)) else subMod m32 e.adm (s.ctx k).nextAdm
      (es.foldl (fun l e => insertAge (age e, e) l) []).foldl (fun s (_, e) => s.loadEntry a e) s

/-- The same for each of a list of spill areas. -/
def State.areasLoad (s : State) (a gen : Nat) (bufs : List OvfBuf) (sv : HostView) : List (Nat × Nat × Nat × Nat) → Option State
  | [] => some s
  | x :: r =>
    match s.areaLoad a gen bufs sv x with
    | none => none
    | some s => s.areasLoad a gen bufs sv r

/-- The words of `k` contexts, from context `base` on, and where each numbers its next admission. -/
def State.loadCtxs (s : State) (base k : Nat) (ws : List Nat) : State :=
  ((List.range k).map (· + base)).zipIdx.foldl (fun s (c, i) =>
    ((s.loadWords (ctxRegs c) ((ws.drop (ctxImgLen * i)).take 8)).set (LDG_CTX5.state c) cxON_CHIP).modCtx c fun x =>
      { x with nextAdm := ws.getD (ctxImgLen * i + 8) 0 }) s

/-- Overflow buffers, each with a number and a descriptor of its own. -/
def State.loadOvfs (s : State) (bufs : List OvfBuf) : List OvfBuf × State :=
  let r := bufs.foldl (fun (acc, s) b =>
    let (num, s) := State.newId s
    let (d, s) := s.newId
    (acc ++ [{ b with num, ev := { b.ev with num := d } }], s)) (([] : List OvfBuf), s)
  (r.1, { r.2 with ovfBufs := r.2.ovfBufs ++ r.1 })

/-- Section 0x03 but for the spill areas: the words of the contexts, overflow buffers and RNDV_SEND entries. The buffers as loaded, and the
state. -/
def State.loadRndv (s : State) (a gen k : Nat) (ws : List Nat) : List OvfBuf × State :=
  let base := s.get (LDG_ACC_CTX.base a)
  let n := rd1 (ws.drop (ctxImgLen * k))
  let b := rdMany (rdOvf a gen base) (min n.1 65536) n.2
  let r := (s.loadCtxs base k ws).loadOvfs b.1
  let m := rd1 b.2
  (r.1, (rdMany (rdEntry a gen base r.1) (min m.1 1048576) m.2).1.foldl (fun s e => s.loadEntry a e) r.2)

/-- Section 0x03, with the spill areas: enabled contexts start SPILLED; `none` when an area cannot be read. -/
def State.loadLedger (s : State) (a gen k : Nat) (ws : List Nat) (sv : HostView) : Option State :=
  let ks := (List.range k).map (· + s.get (LDG_ACC_CTX.base a))
  let areas := s.areasOf a k ws
  let (bufs, s) := s.loadRndv a gen k ws
  (s.areasLoad a gen bufs sv areas).map fun s =>
    ks.foldl (fun s c => if s.on (LDG_CTX0.enable c) then s.setCtxSt c cxSPILLED else s) s

/-- Section 0x04. -/
def State.loadOrders (s : State) (a gen : Nat) (ws : List Nat) : State :=
  let (os, cs) := rdOrders a gen ws
  let s := State.orderStat { s with orders := s.orders ++ os }
  cs.foldl (fun s (c, v) => ((s.set (TLR_CTR_OWN.account c) a).set (TLR_CTR_OWN.valid c) 1).set (TLR_CTR.value c) v) s

/-- Section 0x05: filter and receipt-book entries count from now. -/
def State.loadFilter (s : State) (a : Nat) (ws : List Nat) : State :=
  match rd1 ws with
  | (k, l) => match rdMany (rdMany rd1 2) (min k 1048576) l with
    | (fs, l) => match rd1 l with
      | (k, l) => match rdMany (rdMany rd1 4) (min k 16384) l with
        | (bs, _) =>
          let fl := fs.map fun x => let w := x.getD 0 0
            ({ src := bf w 0 32, msgId := x.getD 1 0, live := true, status := bf w 32 8, atomic := bit w 40, acct := a } : FilterEnt)
          let bl := bs.map fun x => let w := x.getD 0 0
            ({ src := bf w 0 32, msgId := x.getD 1 0, nonce := x.getD 2 0, prior := x.getD 3 0, status := bf w 32 8, hl := s.aHl a,
               acct := a, atT := s.stamp } : BookEnt)
          State.filterStat { s with filter := s.filter ++ fl, book := bl ++ s.book }

/-- Section 0x06: windows return by position, when the image's style is the account's (16 N25). -/
def State.loadWindows (s : State) (a : Nat) (ws : List Nat) : State :=
  let n := s.aHl a
  let k := if s.slices n then 1024 else 4
  match rdMany (rdMany rd1 5) (ws.length / 5) ws with
  | (xs, _) => xs.foldl (fun s x =>
      if k ≤ x.getD 0 0 then s
      else
        let w := s.winFirst a + x.getD 0 0
        (s.loadWords [TLR_APT_WIN0.reg n w, TLR_APT_WIN1.reg n w, TLR_APT_WIN2.reg n w, TLR_APT_WIN3.reg n w] (x.drop 1)).set
          (TLR_APT_WIN0.account n w) a) s

/-- What `f` makes of section `ty` of an image, where it lists one. -/
def State.loadSec (s : State) (img : List Byte) (ty : Nat) (f : State → List Nat → State) : State :=
  match secOf img ty with | some ws => f s ws | none => s

/-- Loads every section of an image that has passed its checks, and the entries in the spill areas that it names, which `sv` answers; `none`
when one cannot be read. -/
def State.imgLoad (s : State) (a : Nat) (img : List Byte) (sv : HostView) : Option State :=
  let gen := (leAt img 26 2 + 1) % 65536
  let s := (s.set (ACC_BIND1.charter a) (leAt img 28 2)).set (ACC_BIND1.generation a) gen
  let s := ((s.loadSec img 2 fun s ws => s.loadAllow a ws).acctFresh a).loadSec img 1 fun s ws => s.loadPage a ws
  (s.loadLedger a gen (((secOf img 2).getD []).getD 2 0) ((secOf img 3).getD []) sv).map fun s =>
    let s := (s.loadSec img 4 fun s ws => s.loadOrders a gen ws).loadSec img 5 fun s ws => s.loadFilter a ws
    if bit (leAt img 30 2) 0 = s.on (ACC_BIND0.slice a) then s.loadSec img 6 fun s ws => s.loadWindows a ws else s

/-- RESTORE_IMAGE_LOADED: the oldest RESTORE running loads its image, which `hv` answers, and the spill areas, which `sv` answers; its account
is FROZEN and quiesced. An area that cannot be read ends it with HOST_ERROR (DESIGN CHOICE: log entry 123). -/
def execRestoreImageLoaded (hv sv : HostView) (s : State) : Host.Outcome State Fault Refusal :=
  .next (match s.running 7 with
    | none => s
    | some c =>
      let a := c.acct
      let back (s : State) (r : Nat) : State := (s.set (ACC_BIND1.state a) aREMOVED).cmdEnd c r
      match s.imgFetch c hv with
      | (none, s) => s
      | (some (0, img), s) =>
        let areas := s.areasOf a (((secOf img 2).getD []).getD 2 0) ((secOf img 3).getD [])
        match s.gate (s.aHl a) (s.aFn a) (s.aPasid a) (areaAccs areas) sv with
        | (.wait, s) => s
        | (.fail, s) => back s rcHOST_ERROR
        | (.go, s) =>
          match s.imgLoad a img sv with
          | none => back s rcHOST_ERROR
          | some s =>
            let s := (s.set (ACC_BIND1.state a) aFROZEN).set (ACC_BIND1.quiesced a) 1
            (s.acctNotice a 3).cmdEnd c rcOK
      | (some (r, _), s) => back s r)

/-! ### Stubs (09 R364) -/

/-- STUB: the account is REMOVED, its state cleared as by REMOVE, and a free entry forwards for it; with stub_ms = 0 the entry
expires at once (16 Table 16.1). -/
def State.cmdStub (s : State) (c : AcctCmd) : State :=
  let a := c.acct
  if s.aSt a ≠ aFROZEN ∨ !(s.acct a).saved then s.cmdEnd c rcSTATE
  else
    match (List.range 64).find? fun i => !s.on (ACC_STUB0.valid i) with
    | none => s.cmdEnd c rcSTUB_FULL
    | some i =>
      let ms := s.get ACC_MIG.stub_ms
      let s := ((s.set (ACC_STUB0.account i) a).set (ACC_STUB0.new_account i) (s.get ACC_CMD3.new_account)).set (ACC_STUB0.new_endpoint i)
        (s.get ACC_CMD3.new_endpoint)
      let s := (s.set (ACC_STUB1.expiry i) ((s.now + ms * 4000000) % 2 ^ 64)).setB (ACC_STUB0.valid i) (ms != 0)
      let s := (s.genUp a).acctPurge a
      ((s.set (ACC_BIND1.state a) aREMOVED).set (ACC_BIND1.quiesced a) 0).cmdEnd c rcOK

def execStub (w : Writer) (v : Word) (s : State) : Host.Outcome State Fault Refusal :=
  .next (s.reaching w ACC_CMD0.reg v.toNat fun s =>
    s.accCmd v 8 fun s c => s.cmdStub c)

/-- A stub ends. -/
def State.stubOff (s : State) (k : Nat) : State := if k < 64 then s.set (ACC_STUB0.valid k) 0 else s

/-- STUB_EXPIRY: entry `k` ends once Hallmark has reached its expiry. -/
def execStubExpiry (k : Nat) (s : State) : Host.Outcome State Fault Refusal :=
  .next (if s.get (ACC_STUB1.expiry k) ≤ s.now then s.stubOff k else s)

/-- STUB_CANCEL: a write of 1 to ACC_STUB[k].valid. -/
def execStubCancel (w : Writer) (k : Nat) (s : State) : Host.Outcome State Fault Refusal :=
  .next (s.reaching w (ACC_STUB0.valid k) 0 fun s =>
    s.stubOff k)

end Sys2Proof.Machine
end

