-- ==== Sys2Proof/Machine/Routing.lean ====
section
/-!
DEFINITION. Machine/Routing.lean: the commands of Routing and the Quicksilver lane: the forwarding decision, relays,
multicast, telemetry, epoch flips, and the arrival of QS messages (02 R57, R58; 04 R122 to R159; 12 R442).
-/
namespace Sys2Proof.Machine

/-! ### The forwarding decision (04 R552) -/

/-- A packet is discarded with a ROUTE_DISCARD record (02 R58). -/
def State.routeDiscard (s : State) (p : Nat) (v : VaultPkt) (code : Nat) : State :=
  (s.raise kROUTE_DISCARD (srcOf 0x20 p) 0 (code + v.hdr.opcode * 2 ^ 8 + v.cls * 2 ^ 16 + v.hdr.srcEp * 2 ^ 21)).routeTo p v.id .drop

/-- The conditions of 02 R58. -/
def illegalHdr (h : Header) (cls : Nat) : Bool :=
  decide (5 ≤ h.phase) || netOf h.opcode != some (clsNet cls) || (h.mcast && h.opcode != 9 && h.opcode != 0x0A) || (!h.mcast && h.mcGroup != 0)

/-- A packet's age in quarter-nanoseconds (04 R143). -/
def State.age (s : State) (h : Header) : Nat := subMod m32 s.stamp h.injectTime

/-- A packet too old is discarded; its source is told, at most once per microsecond (04 R143). -/
def State.tooOld (s : State) (p : Nat) (h : Header) : State :=
  let s := (s.bump RTE_CNT_LIFETIME.ev).raiseLimited kLIFETIME 1000000 (srcOf 0x20 p) 0 0
  match s.limited (2 ^ 42) 1000 with
  | (true, s) => s.sendUnreach h 3
  | (false, s) => s.bump RTE_CNT_UNREACH_SUPP.ev

/-- The phase of a class of the request and reply networks on a LOCAL or GLOBAL link; none for a hall class (03 Table 3.2). -/
def clsPhase (c : Nat) : Option Nat := if c < 5 then some c else if 7 ≤ c ∧ c < 12 then some (c - 7) else none

/-- The decision for a packet in the Vault of port `p`. -/
def State.forward (s : State) (p : Nat) (v : VaultPkt) : State :=
  let h := v.hdr; let role := s.role p
  let a : Arrival := { role, phase := h.phase, port := p }
  let net := (netOf h.opcode).getD 0
  if s.pwrState = 2 ∧ h.opcode ≠ 0x0A then (s.bump PWR_CNT_VIGIL_DROP.ev).routeTo p v.id .drop
  else if illegalHdr h v.cls then s.routeDiscard p v 0
  else if s.get RTE_LIFETIME.quarter_ns < s.age h then (s.tooOld p h).routeTo p v.id .drop
  else if net ≤ 1 ∧ ((clsPhase v.cls).any (· != h.phase) ∨ !s.phaseLegal h a) then s.routeDiscard p v 1
  else if h.mcast then s.routeTo p v.id .mcast
  else if net = 2 ∨ net = 3 ∨ h.linkLocal then s.routeTo p v.id .here
  else if net = 4 ∧ s.isHere h.dstEp then s.routeTo p v.id .here
  else if net = 4 ∧ (role = roleGlobal ∨ role = roleHall) then s.routeTo p v.id .mg
  else if role = roleHall then s.routeTo p v.id .relay
  else if s.isHere h.dstEp then s.routeTo p v.id .here
  else s.sendVault p v.id h a net

/-- Whether a port's packet may go on: before the port's DevID check has passed, only a link-local MG packet (14 R502). -/
def State.certMay (s : State) (p : Nat) (h : Header) : Bool := !(s.port p).certWait || (h.opcode == 0x0A && h.linkLocal)

/-- FORWARDING_DECISION: the oldest header of class `c` that has entered the switch core from port `p`; none while the device stops
for an internal reset (01 R28), and one that comes before its port's certificate check has passed waits in its Vault (14 R502; DESIGN
CHOICE, log entry 116). -/
def execForwardingDecision (p : PortNo) (c : Fin 18) (s : State) : Host.Outcome State Fault Refusal :=
  .next (match (s.port p.val).vault.find? fun v => v.cls == c.val && v.dest == .undecided with
    | none => s
    | some v => if s.stopping ∨ !s.certMay p.val v.hdr then s else (s.forward p.val v).activityUpd)

/-- SAMPLE_FLUSH_TIMER. -/
def execSampleFlushTimer (s : State) : Host.Outcome State Fault Refusal := .next s.flushSamples

/-! ### Relays (04 R124, R127) -/

/-- A packet that arrived on HALL port `p` leaves the relay with its route word rewritten. -/
def State.hallRelay (s : State) (p id : Nat) : State :=
  match s.vaultPkt p id with
  | none => s
  | some v =>
    let transit := epHall v.hdr.dstEp ≠ s.get RTE_CFG.hall
    let h := { v.hdr with injectTime := s.stamp % m32, epoch := s.get RTE_EPOCH.current }
    let h := if transit then h else { h with dateline := false, valiant := false, viaGroup := 0 }
    if s.isHere h.dstEp then (s.modVault p id fun v => { v with hdr := h }).routeTo p id .here
    else s.sendVault p id h { role := roleHall, phase := h.phase, port := p } ((netOf h.opcode).getD 0)

/-- HALL_RELAY_REINJECT: the oldest packet in the relay; its age was checked at its forwarding decision. -/
def execHallRelayReinject (s : State) : Host.Outcome State Fault Refusal :=
  .next (match s.relayIn with
    | [] => s
    | (p, id) :: r => if s.stopping then s else (State.hallRelay { s with relayIn := r } p id).activityUpd)

/-- MG_RELAY: the oldest packet in the MG relay goes on as a fresh injection. -/
def execMgRelay (s : State) : Host.Outcome State Fault Refusal :=
  .next (match s.mgIn with
    | [] => s
    | k :: r => if s.stopping then s else State.injectDrop { s with mgIn := r } k)

/-! ### Multicast (04 R148) -/

/-- MULTICAST_CONSUME: the oldest multicast packet taken whole. The mask is read now; a local consumer is given the host links of
the group, and Alloy, where it is one, makes the copies of a COLL_DN by the mask (07 R264). -/
def execMulticastConsume (s : State) : Host.Outcome State Fault Refusal :=
  .next (match s.mcIn with
    | [] => s
    | k :: r =>
      if s.stopping then s else
      let s : State := { s with mcIn := r }
      let g := k.hdr.mcGroup
      let mask := s.get (RTE_MC_PORTS.ports g); let here := s.on (RTE_MC_LOCAL.local g)
      let k := { k with links := s.get (RTE_MC_LOCAL.host_links g), copies := clrBit mask k.port }
      State.activityUpd (
      if mask = 0 ∧ !here then s.bump RTE_CNT_MC_ZERO.ev
      else if k.hdr.opcode = 9 ∧ here then { s with tptIn := s.tptIn ++ [k] }
      else
        let s := (bitsOf 64 k.copies).foldl (fun s p =>
          if s.usable p then s.sendOn p k else s.bump RTE_CNT_MC_DOWN.ev) s
        if here then { s with tptIn := s.tptIn ++ [k] } else s))

/-! ### Epoch flips (04 R140, R145, R146) -/

/-- RTE_TBL_STAT follows RTE_EPOCH. -/
def State.tblStat (s : State) : State :=
  let cur := s.get RTE_EPOCH.current
  let st (v : Nat) : Nat :=
    if v = cur then 1 else if s.on RTE_EPOCH.draining then 2
    else if s.on RTE_EPOCH.pending_valid ∧ s.get RTE_EPOCH.pending_epoch = v then 3 else 0
  (s.set RTE_TBL_STAT.obverse (st 0)).set RTE_TBL_STAT.reverse (st 1)

/-- The injection epoch changes; `t` is the Hallmark of that instant. -/
def State.flip (s : State) (t : Nat) : State :=
  let s := (s.set RTE_EPOCH.current (1 - s.get RTE_EPOCH.current)).set RTE_EPOCH.draining 1
  ((s.set RTE_EPOCH.pending_valid 0).set RTE_FLIP_LAST.t t).tblStat

/-- Floods an EPOCH_FLIP once for each (epoch, T). -/
def State.flipFlood (s : State) (e t : Nat) : State :=
  if s.boot.floods.contains (e, t) then s
  else
    let s := { s with boot := { s.boot with floods := s.boot.floods ++ [(e, t)] } }
    (s.peerDevs (s.activeRole roleD0 ++ s.activeRole roleD1 ++ s.activeRole roleGlobal)).foldl (fun s d => s.qsSend 5 d s.ep (t + e)) s

/-- EPOCH_FLIP: the oldest such message delivered here. -/
def execEpochFlip (s : State) : Host.Outcome State Fault Refusal :=
  .next (match s.takeQs 5 with
    | none => s
    | some (a, s) =>
      let e := a.msg.payload % 2; let t := a.msg.payload / 2 * 2
      if e = s.get RTE_EPOCH.current then
        if s.on RTE_EPOCH.pending_valid then ((s.set RTE_EPOCH.pending_valid 0).tblStat).flipFlood e t else s.bump RTE_CNT_FLIP_IGN.ev
      else if t ≤ s.now then ((s.flip s.now).raise kFLIP_LATE (srcOf 0x20 0xFF) 0 0).flipFlood e t
      else if t ≤ s.now + 4000000000 then
        (((s.set RTE_EPOCH.pending_valid 1).set RTE_EPOCH.pending_epoch e).set RTE_FLIP_TIME.t t).tblStat.flipFlood e t
      else s.bump RTE_CNT_FLIP_IGN.ev)

/-- EPOCH_FLIP_TIME: Hallmark has reached the T of the scheduled flip. -/
def execEpochFlipTime (s : State) : Host.Outcome State Fault Refusal :=
  .next (if s.on RTE_EPOCH.pending_valid ∧ s.get RTE_FLIP_TIME.t ≤ s.now then s.flip (s.get RTE_FLIP_TIME.t) else s)

/-- DRAINING_END: 1 ms after a flip version `v` becomes idle. -/
def execDrainingEnd (v : Bool) (s : State) : Host.Outcome State Fault Refusal :=
  .next (if s.on RTE_EPOCH.draining ∧ b2n v ≠ s.get RTE_EPOCH.current then (s.set RTE_EPOCH.draining 0).tblStat else s)

/-! ### Arrival of QS messages (04 R155; 02 R54, R57) -/

/-- A message that its destination discards: a reserved type, or a reserved value in its payload (02 R57). -/
def QsMsg.illegal (m : QsMsg) : Bool :=
  let w := m.payload
  match m.type with
  | 1 => bf w 32 2 == 0 || bf w 32 2 == 3 || decide (7 ≤ bf w 34 6)
  | 2 => bf w 60 4 != 1 && bf w 60 4 != 2
  | 10 => !(decide (1 ≤ bf w 24 8 ∧ bf w 24 8 ≤ 3))
  | t => t == 0 || decide (11 ≤ t)

/-- QS_MESSAGE_RECEIVE: the oldest message received. Of a port whose DevID check has not passed only HMK_SYNC is taken, and others are
discarded (14 R502; DESIGN CHOICE, log entry 116). -/
def execQsMessageReceive (s : State) : Host.Outcome State Fault Refusal :=
  .next (match s.qsRx with
    | [] => s
    | a :: r =>
      if s.stopping then s else
      let s := { s with qsRx := r }
      let m := a.msg
      if m.type = 4 then
        let s := { s with qsHere := s.qsHere ++ [{ a with came := s.clk }] }
        if s.isHere m.dst then s.bump QSL_CNT_DELIVERED.ev else s
      else if a.port < 64 ∧ (s.port a.port).certWait then s
      else if s.isHere m.dst then
        if m.illegal then (s.bump QSL_CNT_DELIVERED.ev).tallyHit Config.illegalQsEvent.toNat 0 1 else s.qsDeliver m a.port
      else if m.hops = 63 then s.bump QSL_CNT_HOP_LIMIT.ev
      else
        let m := if s.role a.port = roleHall then { m with epoch := s.get RTE_EPOCH.current } else m
        match s.qsPrefer (s.productive m) with
        | none => s.bump QSL_CNT_NO_ROUTE.ev
        | some p => { s with qsWait := s.qsWait ++ [{ msg := m, arr := a.port, pref := p }] })

end Sys2Proof.Machine
end

