-- ==== Sys2Proof/Machine/BringUp.lean ====
section
/-!
DEFINITION. Machine/BringUp.lean: learning the fabric, the default tables and the staggered upgrade (04 R141, R142;
13 R474 to R484).
-/
namespace Sys2Proof.Machine

/-- Takes the oldest MG packet of a subtype that Izger holds; none while it hands over to new firmware (14 R509). -/
def State.takeMg (s : State) (sub : Nat) : Option (Packet × State) :=
  if s.izgHolds then none else (takeFirst (fun p : Packet => p.hdr.w5 % 256 == sub) s.izg.mg).map fun (p, r) => (p, { s with izg := { s.izg with mg := r } })

/-! ### Default tables (04 R141; 13 R481) -/

/-- What is known of the ports of this group's devices: (d1, d0, port, peer group, peer hall), ascending. -/
def insertPort (x : Nat × Nat × Nat × Nat × Nat) : List (Nat × Nat × Nat × Nat × Nat) → List (Nat × Nat × Nat × Nat × Nat)
  | [] => [x]
  | y :: r =>
    let k (z : Nat × Nat × Nat × Nat × Nat) : Nat := z.1 * 1024 + z.2.1 * 64 + z.2.2.1
    if k x < k y then x :: y :: r else y :: insertPort x r

def State.groupPorts (s : State) : List (Nat × Nat × Nat × Nat × Nat) :=
  let mine := (s.ep, s.advertItems)
  let theirs := s.boot.adverts.filter fun (e, _) => epHall e == s.get RTE_CFG.hall && epGroup e == s.get RTE_CFG.group && e != s.ep
  let all := (mine :: theirs).flatMap fun (e, items) => items.map fun i => (epD1 e, epD0 e, bf i 0 6, bf i 8 8, bf i 16 4)
  all.foldl (fun acc x => insertPort x acc) []

/-- Direction to a hall: 0 this hall, 1 up, 2 down, 3 unreachable. -/
def State.hallDir (s : State) (h : Nat) : Nat :=
  let n := s.get RTE_CFG.halls_m1 + 1; let x := s.get RTE_CFG.hall
  if h = x then 0
  else if n ≤ h then 3
  else if s.on RTE_CFG.hall_ring then (if subMod n h x ≤ subMod n x h then 1 else 2)
  else if x < h then 1 else 2

/-- The neighbour hall of a direction. -/
def State.hallNext (s : State) (dir : Nat) : Nat :=
  let n := s.get RTE_CFG.halls_m1 + 1; let x := s.get RTE_CFG.hall
  if dir = 1 then (x + 1) % n else (x + n - 1) % n

/-- The devices of this group whose coordinates are known to be fixed, as d1 × 16 + d0, ascending: those that the cabling plan lists, or,
without one, this device, those whose ADVERT has come, and neighbours whose COORD says so. A packet to another finds no route (13 Table
13.6; DEDUCED, log entry 44). -/
def State.fixedDevs (s : State) : List Nat :=
  let near := (ports64.filter fun p => (s.port p).coord.valid && (s.port p).coord.fixed && s.active p).map fun p => (s.port p).coord.endpoint
  let es := match s.boot.plan with
    | some l => l.map fun (x : Nat × Nat) => x.2
    | none => (if s.on TOP_BOOT_STAT.coords_fixed then [s.ep] else []) ++ (s.boot.adverts.map fun (x : Nat × List Nat) => x.1) ++ near
  let mine := es.filter fun e => epHall e == s.get RTE_CFG.hall && epGroup e == s.get RTE_CFG.group
  (List.range 256).filter fun j => mine.any fun e => epD1 e * 16 + epD0 e == j

/-- The registers of one version of the default tables that do not hold zero. -/
def State.defaultTable (s : State) (v : Nat) : List (RF × Nat) :=
  let known := s.groupPorts
  let here := s.get RTE_CFG.hall
  let halls := (List.range 16).flatMap fun h =>
    let dir := s.hallDir h
    let gws := ((known.filter fun (_, _, _, _, ph) => dir != 0 && dir != 3 && ph != here && ph == s.hallNext dir).map
      fun (d1, d0, _, _, _) => s.get RTE_CFG.group + d0 * 2 ^ 8 + d1 * 2 ^ 12 + 2 ^ 16).dedup.take 32
    let dir := if (dir = 1 ∨ dir = 2) ∧ gws = [] ∧ s.boot.plan.isNone then 3 else dir
    (RTE_HALL_CTL.reg v h, dir) :: (List.range ((gws.length + 1) / 2)).map fun i =>
      (RTE_HALL_GW.reg v h i, gws.getD (2 * i) 0 + gws.getD (2 * i + 1) 0 * m32)
  let groups := (List.range 256).flatMap fun g =>
    let cs := ((known.filter fun (_, _, _, pg, ph) => pg == g && ph == here && g != s.get RTE_CFG.group).map
      fun (d1, d0, p, _, _) => d0 + d1 * 2 ^ 4 + p * 2 ^ 8 + 2 ^ 14).take 32
    (List.range ((cs.length + 3) / 4)).map fun i =>
      (RTE_GROUP_CAND.reg v g i, ((List.range 4).map fun j => cs.getD (4 * i + j) 0 * 2 ^ (16 * j)).sum)
  let devs := s.fixedDevs.map fun j => (RTE_DEV_ENT.reg v j, 1)
  halls ++ groups ++ devs

/-- Izger writes the default tables into both versions, the dateline flags and the apexes. -/
def State.writeTables (s : State) : State :=
  let tbl := s.defaultTable 0 ++ s.defaultTable 1
  let s := { s with regs := s.regs.filter fun (k, _) => decide (k < 0x2100000 ∨ 0x2300000 ≤ k) }
  let s := tbl.foldl (fun s (r, w) => s.setWord r (BitVec.ofNat 64 w)) s
  let n : Nat := s.get RTE_CFG.halls_m1; let x : Nat := s.get RTE_CFG.hall
  let dl (dir : Nat) : Bool := s.on RTE_CFG.hall_ring && decide (0 < n) && ((x == n && dir == 0) || (x == 0 && dir == 1))
  let s := if s.on RTE_HALL_CFG.a_valid then s.setB RTE_HALL_CFG.a_dateline (dl (s.get RTE_HALL_CFG.a_dir)) else s
  let s := if s.on RTE_HALL_CFG.b_valid then s.setB RTE_HALL_CFG.b_dateline (dl (s.get RTE_HALL_CFG.b_dir)) else s
  let s := (s.set RTE_APEX.d0 (s.get RTE_CFG.n0_m1)).set RTE_APEX.d1 (s.get RTE_CFG.n1_m1)
  (s.set RTE_CFG.tables_open 0).set RTE_ADVERT_EVT.changed 0

/-- The tables are rewritten once the coordinates are fixed, in REDUCED before the upgrade (13 R481). -/
def State.tablesAgain (s : State) : State :=
  if s.on TOP_BOOT_STAT.coords_fixed ∧ s.get TOP_STATE.svc_state = 2 ∧ !s.boot.upgrading then s.writeTables else s

/-- RTE_ADVERT_EVT.changed has been set. -/
def State.advertChanged (s : State) : State := (s.set RTE_ADVERT_EVT.changed 1).tablesAgain

/-- ADVERT: the oldest ADVERT that Izger holds (04 R142). -/
def execAdvert (s : State) : Host.Outcome State Fault Refusal :=
  .next (match s.takeMg 0x30 with
    | none => s
    | some (p, s) =>
      let e := leAt p.data 0 3 % 2 ^ 23; let n := leAt p.data 3 1
      let items := (List.range n).map fun i => leAt p.data (4 + 4 * i) 4
      let s := { s with boot := { s.boot with adverts := tput s.boot.adverts e items } }
      let s := if s.role p.port = roleD0 then
          (s.activeRole roleD1).foldl (fun s q => s.sendOn q (s.mgPkt 0x30 (epDev (s.peer q)) p.data)) s
        else s
      if s.on RTE_CFG.tables_open then s else s.advertChanged)

/-! ### Coordinates (13 R478, R479) -/

def insertAsc (x : Nat) : List Nat → List Nat
  | [] => [x]
  | y :: r => if x < y then x :: y :: r else if x = y then y :: r else y :: insertAsc x r

def State.groupCount (s : State) : Nat := s.get TOP_BRINGUP_CFG.groups_m1 + 1
def State.coordsKnown (s : State) : Bool := s.boot.d0.isSome && s.boot.d1.isSome

/-- Sends GROUPKEYS on every LOCAL port. -/
def State.sendKeys (s : State) : State :=
  let ks := s.boot.keys
  let data := bytesOf 2 ks.length ++ bytesOf 6 0 ++ ks.flatMap (bytesOf 8)
  (ports64.filter fun p => s.active p && (s.role p == roleD0 || s.role p == roleD1)).foldl (fun s p => s.sendOn p (s.mgPkt 0x33 (s.peer p) data)) s

/-- The groups 0 to n - 1 are marked present. -/
def State.groupsMark (s : State) (n : Nat) : State :=
  (List.range 4).foldl (fun s i => s.set (RTE_GROUPS_PRESENT.present i) (2 ^ (min 64 (n - 64 * i)) - 1)) s

/-- The coordinates have become fixed: neighbours are checked, tables are written, an ADVERT goes out (04 R119, R142;
13 R481). -/
def State.coordsFix (s : State) : State :=
  let s := s.set TOP_BOOT_STAT.coords_fixed 1
  let s := ports64.foldl (fun s p => if decide (4 ≤ s.linkState p ∧ s.linkState p ≤ 9) then s.peerCheck p else s) s
  s.tablesAgain.advertise

/-- The group is known once the set of keys is complete. -/
def State.groupFix (s : State) : State :=
  match s.boot.d0, s.boot.d1 with
  | some d0, some d1 =>
    if s.on TOP_BOOT_STAT.coords_fixed ∨ s.boot.keys.length ≠ s.groupCount ∨ !s.boot.keys.contains s.boot.head then s
    else
      let g := (s.boot.keys.filter (· < s.boot.head)).length
      let s := ((s.set RTE_CFG.d0 d0).set RTE_CFG.d1 d1).set RTE_CFG.group g
      (s.groupsMark s.groupCount).coordsFix
  | _, _ => s

/-- Keys enter the set; a device with both coordinates has its own key in it, and sends a set that has grown. -/
def State.keysAdd (s : State) (ks : List Nat) : State :=
  let own := if s.coordsKnown then [s.boot.head] else []
  let all := (own ++ ks).foldl (fun acc k => insertAsc k acc) s.boot.keys
  if all = s.boot.keys then s.groupFix
  else
    let s := { s with boot := { s.boot with keys := all } }
    (if s.coordsKnown then s.sendKeys else s).groupFix

/-- A new head serial: what was learnt from the old one is void (13 Table 13.8). -/
def State.headSet (s : State) (h : Nat) : State :=
  let s := { s with boot := { s.boot with head := h } }
  if s.on TOP_BOOT_STAT.coord_src then s
  else { s.set TOP_BOOT_STAT.coords_fixed 0 with
         boot := { s.boot with d0 := none, d1 := none, assigned := none, keys := [], clash := [] } }

/-- Coordinate `dim` is void: a device whose coordinates were fixed has none, and RTE_CFG no longer names it (13 R478; DEDUCED, log entry
44). -/
def State.coordVoid (s : State) (dim : Nat) : State :=
  let s := { s with boot := if dim = 0 then { s.boot with d0 := none } else { s.boot with d1 := none } }
  if s.on TOP_BOOT_STAT.coords_fixed then (s.set (if dim = 0 then RTE_CFG.d0 else RTE_CFG.d1) 0).set TOP_BOOT_STAT.coords_fixed 0 else s

/-- A value for coordinate `dim` comes on a port: a second, different one voids it, with a MISCABLE record. -/
def State.coordTake (s : State) (p dim v : Nat) : State :=
  let old := if dim = 0 then s.boot.d0 else s.boot.d1
  let put (s : State) (o : Option Nat) : State :=
    { s with boot := if dim = 0 then { s.boot with d0 := o } else { s.boot with d1 := o } }
  if s.boot.clash.contains dim then s
  else
    match old with
    | none => put s (some v)
    | some w =>
      if w = v then s
      else (State.coordVoid { s with boot := { s.boot with clash := s.boot.clash ++ [dim] } } dim).raise kMISCABLE (srcOf 0x10 p) 0 0x13

/-- What a COORD says of coordinates (13 R478 steps 1 and 3, R479). -/
def State.coordLearn (s : State) (p : Nat) (c : CoordInfo) (asg : Option (Nat × Nat)) : State :=
  let r := s.role p
  let loc : Bool := r == roleD0 || r == roleD1
  let s := if loc ∧ c.head < s.boot.head then s.headSet c.head else s
  if s.on TOP_BOOT_STAT.coord_src then s
  else if loc ∧ c.head = s.boot.head ∧ s.boot.head ≠ s.serial then
    let s := match asg with
      | some (dim, v) =>
        if c.serial = s.boot.head ∧ ((dim = 0 ∧ r = roleD0) ∨ (dim = 1 ∧ r = roleD1)) then (s.coordTake p dim v).coordTake p (1 - dim) 0 else s
      | none => s
    let s := if c.serial = s.boot.head then s
      else if r = roleD1 then (match c.d0 with | some v => s.coordTake p 0 v | none => s)
      else (match c.d1 with | some v => s.coordTake p 1 v | none => s)
    s.keysAdd []
  else if r = roleGlobal ∧ s.coordsKnown then s.keysAdd [c.head]
  else s

/-- COORD: the oldest COORD that Izger holds (13 R476 to R479, R483, R488). -/
def execCoord (s : State) : Host.Outcome State Fault Refusal :=
  .next (match s.takeMg 0x32 with
    | none => s
    | some (k, s) =>
      let p := k.port; let d := k.data
      let opt (n : Nat) : Option Nat := if bit n 4 then some (n % 16) else none
      let fl := leAt d 21 1; let as_ := leAt d 22 1
      let c : CoordInfo := { valid := true, serial := leAt d 0 8, head := leAt d 8 8, endpoint := leAt d 16 3 % 2 ^ 23,
                             d0 := opt (leAt d 19 1), d1 := opt (leAt d 20 1), upReady := bit fl 0, service := bit fl 1, fixed := bit fl 2 }
      let asg := if bit as_ 4 then some (b2n (bit as_ 5), as_ % 16) else none
      if !s.active p ∨ !decide (1 ≤ s.role p ∧ s.role p ≤ 4) then s
      else
        s.withCoord fun s =>
          let s := s.modPort p fun q => { q with coord := c }
          let s := if s.peer p = 0x7FFFFF ∧ c.endpoint ≠ 0x7FFFFF then
              let s := (s.set (LNK_PEER_INFO.endpoint p) c.endpoint).peerCheck p
              if s.role p = roleGlobal ∨ s.role p = roleHall then s.advertise else s
            else s
          if !s.active p then s
          else ((s.coordLearn p c asg).settle).passAdvance (p / 8))

/-- COORD_PERIOD (13 R476). -/
def execCoordPeriod (s : State) : Host.Outcome State Fault Refusal := .next s.sendCoords

/-- What the head assigns to the peers on its ports of a role: 1 and on, in ascending serial (13 R478 step 2). -/
def State.assignTo (s : State) (r dim : Nat) : List (Nat × Nat × Nat) :=
  let ns := ((ports64.filter fun p => s.active p && s.role p == r).map fun p => s.get (LNK_PEER.serial p)).foldl (fun l n => insertAsc n l) []
  (List.range ns.length).map fun i => (ns.getD i 0, dim, i + 1)

/-- HEAD_ASSIGN: the head's serial has not changed for 10 ms (13 R478 steps 1 and 2). -/
def execHeadAssign (s : State) : Host.Outcome State Fault Refusal :=
  let n (r : Nat) : Nat := (ports64.filter fun p => s.active p && s.role p == r).length
  .next (if s.boot.head ≠ s.serial ∨ s.on TOP_BOOT_STAT.coord_src ∨ s.boot.assigned.isSome ∨ s.get TOP_STATE.svc_state ≠ 2
      ∨ n roleD0 ≠ s.get RTE_CFG.n0_m1 ∨ n roleD1 ≠ s.get RTE_CFG.n1_m1 then s
    else s.withCoord fun s =>
      State.keysAdd { s with boot := { s.boot with assigned := some (s.assignTo roleD0 0 ++ s.assignTo roleD1 1), d0 := some 0, d1 := some 0 } } [])

/-- GROUPKEYS: the oldest GROUPKEYS that Izger holds (13 R479). -/
def execGroupkeys (s : State) : Host.Outcome State Fault Refusal :=
  .next (match s.takeMg 0x33 with
    | none => s
    | some (p, s) =>
      if s.on TOP_BOOT_STAT.coord_src then s
      else s.withCoord fun s => s.keysAdd ((List.range (leAt p.data 0 2)).map fun i => leAt p.data (8 + 8 * i) 8))

/-- GROUPKEYS_PERIOD: every 10 ms while the set is incomplete (13 R479). -/
def execGroupkeysPeriod (s : State) : Host.Outcome State Fault Refusal :=
  .next (if s.coordsKnown ∧ !s.on TOP_BOOT_STAT.coord_src ∧ s.boot.keys.length < s.groupCount then s.sendKeys else s)

/-- COORD_TIMEOUT: learn_ms after entering REDUCED the coordinates are not fixed (13 R480). -/
def execCoordTimeout (s : State) : Host.Outcome State Fault Refusal :=
  .next (if s.get TOP_STATE.svc_state = 2 ∧ !s.on TOP_BOOT_STAT.coords_fixed then s.set TOP_BOOT_STAT.error 3 else s)

/-- TABLES_DONE_TIMER: changed has stayed clear for 50 ms after a rewrite (13 R481). -/
def execTablesDoneTimer (s : State) : Host.Outcome State Fault Refusal :=
  .next (if s.on TOP_BOOT_STAT.coords_fixed ∧ !s.on RTE_ADVERT_EVT.changed ∧ s.get TOP_STATE.svc_state = 2 then
      s.set TOP_BOOT_STAT.tables_done 1 else s)

/-! ### The upgrade (13 R482 to R484) -/

/-- UPGRADE_START. -/
def execUpgradeStart (s : State) : Host.Outcome State Fault Refusal :=
  .next (if s.on TOP_BRINGUP_CFG.auto_upgrade ∧ s.upgradeReady then s.startUpgrade else s)

/-- BRINGUP_START: TOP_BRINGUP_CTL.start is written. -/
def execBringupStart (w : Writer) (s : State) : Host.Outcome State Fault Refusal :=
  .next (s.reaching w TOP_BRINGUP_CTL.start 1 fun s =>
    if !s.on TOP_BRINGUP_CFG.auto_upgrade ∧ s.upgradeReady then s.startUpgrade else s)

/-- TILE_PASS_START: tile `i` begins its pass. -/
def execTilePassStart (i : Fin 8) (s : State) : Host.Outcome State Fault Refusal :=
  .next (if s.on TOP_STATE.upgrade_active ∧ !s.boot.tileOn.contains i.val then
      (State.passAdvance { s with boot := { s.boot with tileOn := s.boot.tileOn ++ [i.val] } } i.val).upgradeCheck
    else s)

/-- PORT_WAIT_TIMEOUT: the pass of tile `i` moves on. -/
def execPortWaitTimeout (i : Fin 8) (s : State) : Host.Outcome State Fault Refusal :=
  .next (if (tget s.boot.passing i.val).isSome then s.passNext i.val else s)

/-- UPGRADE_LIMIT_EXPIRY. -/
def execUpgradeLimitExpiry (s : State) : Host.Outcome State Fault Refusal :=
  .next (if s.on TOP_STATE.upgrade_active then s.endUpgrade else s)

end Sys2Proof.Machine
end

