-- ==== Sys2Proof/Machine/Host.lean ====
section
/-!
DEFINITION. Machine/Host.lean: the commands of the host interface: resets, Bus Master Enable, power states, completions,
address translation, outbound windows (08; 13 R465, R473; 15 R533).
-/
namespace Sys2Proof.Machine

/-- The bits of HBI_BME_HOLD once a function's work waits no longer (08 Table 8.26). -/
def State.bmeFree (s : State) (n fn : Nat) : State :=
  let s := (s.boundOn n).foldl (fun s a => if s.aFn a = fn then s.modAcct a fun x => { x with held := false } else s) s
  if fn = 0 then s.set (HBI_BME_HOLD.pf0 n) 0
  else if fn = 1 then s.set (HBI_BME_HOLD.pf1 n) 0
  else s.setB (HBI_BME_HOLD.vf n) ((s.boundOn n).any fun a => decide (2 ≤ s.aFn a) && (s.acct a).held)

/-! ### Flush reads and completions (08 R305, R311 to R315) -/

/-- A flush read has ended: what waited for it goes on; an error makes a status that was OK HOST_ERROR (05 R168, R169, R201;
10 R375). -/
def State.flushEnd (s : State) (f : Flush) (ok : Bool) : State :=
  let s := State.freeTag { s with flushes := s.flushes.filter (· != f) } f.target.hl (.flush f.why)
  match f.why with
  | .receipt src id =>
    match s.openFind src id with
    | some o => s.closeOpen o (if ok || o.status != 0 then o.status else stHOST_ERROR)
    | none => s
  | .keyInval => if s.flushes.any (·.why == .keyInval) then s else s.set TLR_KEY_INVAL.done 1
  | .mover c => s.modMov c fun m => { m with flush := false, stop := some (m.stop.getD (if ok then 0 else stHOST_ERROR)) }

/-- The flush reads of a host link that end without a read do (08 R290, R315). -/
def State.flushFails (s : State) (n : Nat) : State :=
  (s.flushes.filter fun f => f.target.hl == n && f.endsAs.isSome).foldl (fun s f => s.flushEnd f (f.endsAs.getD true)) s

/-- What waits for the bus of a host link goes on where it may: held writes, flush reads, Aperture accesses, arrived packets, leaves
of trees, descriptor reads. -/
def State.hostKick (s : State) (n : Nat) : State :=
  (s.boundOn n).foldl State.acctFetch ((((((((s.postFlush n).flushIssue n).flushFails n).aptKick n).eagerKick n).ctxKick).alyKick n))

/-- FLUSH_READ_RETURN: the oldest flush read issued on a host link returns. -/
def execFlushReadReturn (n : HostLink) (ok : Bool) (s : State) : Host.Outcome State Fault Refusal :=
  .next (match s.flushes.find? fun f => f.target.hl == n.val && f.tag.isSome with
    | some f => (s.flushEnd f ok).hostKick n.val
    | none => s.flushFails n.val)

/-- What a read's end means to the engine that asked: `res` is its data and whether it came poisoned, `none` a failure. The
read's tag is freed. -/
def State.tagDeliver (s : State) (t : Tag) (res : Option (List Byte × Bool)) : State :=
  let clean := match res with | some (d, false) => some d | _ => none
  match t.why with
  | .desc a r => s.fetchDone a r (match clean with
      | some d => .ok ((List.range (d.length / 64)).map fun i => BitVec.ofNat 512 (leAt d (64 * i) 64))
      | none => .failed)
  | .flush k =>
    match s.flushes.find? fun f => f.target.hl == t.hl && f.why == k && f.tag == some t.tag with
    | some f => s.flushEnd f res.isSome
    | none => s
  | .orderFill k r => s.orderFill k r (clean.map natOf) []
  | .outbound _ _ =>
    match res with
    | some (d, p) => s.emit (if p then .readPoison (natOf d) else .readData (natOf d))
    | none => let (v, s) := s.free 64; s.emit (.readData v)
  | .trans fn pasid page =>
    -- no translation came: what waits for it fails with HOST_ERROR
    s.modHl t.hl fun h =>
      { h with ats := modFirst (fun q => q.fn == fn && q.pasid == pasid && q.page == page && q.answer.isNone)
                  (fun q => { q with denied := true }) h.ats }
  | .aptRank num => s.aptRankRead num clean
  | .host _ => s
  | .other => s

def tagIs (n fn tag : Nat) (t : Tag) : Bool := t.hl == n && t.fn == fn && t.tag == tag

/-- A tag is free. -/
def State.dropTag (s : State) (n fn tag : Nat) : State := State.tagStat { s with tags := s.tags.filter fun t => !tagIs n fn tag t } n

/-- Whether the account a tag was issued for has moved on to another generation (08 R314). -/
def State.tagStale (s : State) (t : Tag) : Bool := match t.acct with | some a => s.aGen a != t.gen | none => false

/-- HOST_COMPLETION_RECEIVE: `fn` and `tag` name the request. A completion that no tag awaits is reported in the function it names, or
in PF0 (log entry 12). -/
def execHostCompletionReceive (n : HostLink) (fn : FnNo) (tag : Nat) (cpl : CplStatus) (data : Bytes) (s : State) :
    Host.Outcome State Fault Refusal :=
  let i := n.val; let f := fn.toNat
  let s := if cpl = .poisoned then s.bump (HBI_CNT_POISON_RX.ev i) else s
  .next (match s.tags.find? (tagIs i f tag) with
    | none => (s.aerAdvise i (if s.fnExists i f then f else 0) aerUnexp).bump (HBI_CNT_UNEXP_CPL.ev i)
    | some t =>
      let s := if t.quarantined then (s.dropTag i f tag).bump (HBI_CNT_LATE_CPL.ev i)
        else if s.tagStale t then (s.dropTag i f tag).bump (HBI_CNT_GEN_DISCARD.ev i)
        else
          let s := match cpl with
            | .poisoned => (s.poisonSta i f true).aerAdvise i f aerPoison
            | .ur => s.pciErr i f 13
            | .ca => s.pciErr i f 12
            | .ok => s
          let res := match cpl with | .ok => some (data, false) | .poisoned => some (data, true) | .ur | .ca => none
          (s.tagDeliver t res).dropTag i f tag
      s.hostKick i)

/-- COMPLETION_TIMEOUT: the request fails and its tag is quarantined; one whose account has moved on fails unseen. -/
def execCompletionTimeout (n : HostLink) (fn : FnNo) (tag : Nat) (s : State) : Host.Outcome State Fault Refusal :=
  let i := n.val; let f := fn.toNat
  .next (match s.tags.find? (tagIs i f tag) with
    | none => s
    | some t =>
      if t.quarantined then s
      else
        let s := s.bump (HBI_CNT_CTO.ev i)
        let s := if s.tagStale t then s else (s.aerAdvise i f aerCto).tagDeliver t none
        let q := { t with quarantined := true, why := match t.why with | .trans f p pg => .trans f p pg | _ => .other }
        (State.tagStat { s with tags := s.tags.filter (fun t => !tagIs i f tag t) ++ [q] } i).hostKick i)

/-- QUARANTINE_EXPIRY. -/
def execQuarantineExpiry (n : HostLink) (fn : FnNo) (tag : Nat) (s : State) : Host.Outcome State Fault Refusal :=
  .next (match s.tags.find? (tagIs n.val fn.toNat tag) with
    | some t => if t.quarantined then (s.dropTag n.val fn.toNat tag).hostKick n.val else s
    | none => s)

/-! ### Function resets (08 R310, R317 to R319) -/

/-- The translations of a function, cached or asked for, are gone. -/
def State.atcClear (s : State) (n fn : Nat) : State :=
  (s.modHl n fun h => { h with atc := h.atc.filter (·.fn != fn), ats := h.ats.filter (·.fn != fn), once := h.once.filter (·.fn != fn) }).atsStat n

/-- The completion timeout of an encoding, in microseconds (08 Table 8.11). -/
def ctoUs (c : Nat) : Nat :=
  match c with
  | 1 => 75 | 2 => 5000 | 5 => 32000 | 6 => 128000 | 9 => 512000 | 10 => 2000000 | 13 => 8000000 | 14 => 32000000 | _ => 32000

/-- HBI_CPL_TO follows the encodings. -/
def State.ctoUpd (s : State) (n : Nat) : State :=
  (s.set (HBI_CPL_TO.pf0_us n) (ctoUs (s.fnc n 0).cto)).set (HBI_CPL_TO.pf1_us n) (ctoUs (s.fnc n 1).cto)

/-- A function's state at the start of a function-level reset: sticky fields and Max_Payload_Size stay, the AER mask and severity
registers and Link Control 2 among them (00 R8; 13 R466; log entry 12). The drain of a PF may use the bus where the function might (08 R318). -/
def Fn.reset (pf : Bool) (f : Fn) : Fn :=
  { resetting := true, mps := f.mps, aerUnc := f.aerUnc, aerCor := f.aerCor, aerFirst := f.aerFirst, aerHdr := f.aerHdr, pmeEn := f.pmeEn,
    pme := f.pme, cfg := f.cfg.filter fun (d, _) => [0x42, 0x43, 0x45, 0x20, 0x1C].contains d, drainBme := pf && f.bme && !f.d3 }

/-- What a reset of a function does at once: the function, its translations, its accounts, and the work of it that waits for the bus and
cannot have it: writes, flush reads, which fail (08 Table 8.12). -/
def State.fnReset (s : State) (n fn : Nat) : State :=
  let s := (s.modFn n fn (Fn.reset (decide (fn < 2)))).atcClear n fn
  let s := s.modHl n fun h => { h with draining := addMem h.draining fn }
  let s := if s.mayIssue n fn then s
    else
      let s := s.modHl n fun h => { h with heldWrites := h.heldWrites.filter (·.fn != fn) }
      (s.flushes.filter fun f => f.target.hl == n && f.target.fn == fn && f.tag.isNone).foldl (fun s f => s.flushEnd f false) s
  let s := ((s.boundOn n).filter fun a => s.aFn a == fn).foldl (fun s a => s.acctReset a false) s
  let s := if fn = 1 ∧ !s.slices n then s.vfsOff n else s
  let s := if fn = 0 then s.modHl n fun h => { h with doe := none, doeInt := false, ltrEn := false }
    else if fn = 1 then s.modHl n fun h => { h with numVfs := 0 } else s
  (((s.bmeFree n fn).ctoUpd n).intxOne n).hostVotes n

/-- FUNCTION_LEVEL_RESET. -/
def execFunctionLevelReset (n : HostLink) (fn : FnNo) (s : State) : Host.Outcome State Fault Refusal :=
  let i := n.val; let f := fn.toNat
  .next (if !s.fnExists i f ∨ (s.fnc i f).resetting then s
    else
      let s := s.set (if f = 0 then HBI_EVT.flr_pf0 i else if f = 1 then HBI_EVT.flr_pf1 i else HBI_EVT.flr_vf i) 1
      (s.fnReset i f).hostKick i)

/-- The register channels that PF0 of a host link has started (10 R373, R381). -/
def State.pf0Channels (s : State) (n : Nat) : List Nat :=
  (List.range 64).filter fun c => s.mvState c != mvIDLE && !s.on (MOV_STAT.mode c) && s.on (MOV_STAT.starter c)
    && s.get (MOV_STAT.starter_link c) == n

/-- The accounts that a function's reset resets: those bound to it. -/
def State.fnAccts (s : State) (n fn : Nat) : List Nat := (s.boundOn n).filter fun a => s.aFn a == fn

/-- A reset of a function has ended: Function Readiness Status is sent, on a link that is up (08 R317). -/
def State.fnReady (s : State) (n fn : Nat) : State :=
  let s := (s.modFn n fn fun f => { f with resetting := false, drainBme := false }).modHl n fun h =>
    { h with draining := h.draining.filter (· != fn) }
  if s.on (HBI_LINK_STAT.dl_up n) then s.emit (.hostMsg n fn msgFrs 0) else s

/-- A channel of a drain is stopped where it is, without an event. -/
def State.mvSquash (s : State) (c : Nat) : State := State.mvIdle { s with flushes := s.flushes.filter (·.why != .mover c) } c

/-- A channel waits for the bus of PF0 of a host link: what comes next of its transfer goes through an outbound window that names it. -/
def State.mvAwaits (s : State) (c n : Nat) : Bool :=
  let m := s.mov c; let pos := s.get (MOV_MOVED.bytes c)
  m.todo && [m.src, m.dst].any fun p =>
    let (a, o) := p.runAt pos
    let x := a.toNat + o
    decide (0 ≤ a ∧ 2 ^ 47 ≤ x) && (let (k, fn, _, _) := s.owinTarget x; k == n && fn == 0)

/-- The channels of PF0's drain: one that waits for the bus of PF0 where that may not be used fails with HOST_ERROR, and completes as
usual (08 R317, R319; 10 R381; the status is DEDUCED, log entry 115). -/
def State.pf0Drain (s : State) (n : Nat) : State :=
  if s.mayIssue n 0 then s
  else ((s.pf0Channels n).filter fun c => s.mvAwaits c n).foldl (fun s c => s.mvDone c stHOST_ERROR) s

/-- FLR_DRAIN_END: the accounts that may end do; when none of the function's is left RESETTING and no channel of its drains,
the reset ends. -/
def execFlrDrainEnd (n : HostLink) (fn : FnNo) (s : State) : Host.Outcome State Fault Refusal :=
  let i := n.val; let f := fn.toNat
  .next (if !(s.hl i).draining.contains f then s
    else
      let s := (s.fnAccts i f).foldl (fun s a => if s.aSt a = aRESETTING ∧ s.drained a then s.drainEnd a else s) s
      let s := if f = 0 then s.pf0Drain i else s
      if f = 0 ∧ s.pf0Channels i ≠ [] then s
      else if (s.fnAccts i f).any fun a => s.aSt a == aRESETTING then s
      else s.fnReady i f)

/-- DRAIN_SQUASH_TIMER: what is left of a drain, of a function's reset or of a privileged account's own, is squashed without events: reads
stay in quarantine, and the reset ends (08 R318; 09 R358). -/
def execDrainSquashTimer (n : HostLink) (fn : FnNo) (s : State) : Host.Outcome State Fault Refusal :=
  let i := n.val; let f := fn.toNat
  let fnDrain := (s.hl i).draining.contains f
  let as := (s.fnAccts i f).filter fun a => s.aSt a == aRESETTING && (fnDrain || (s.acct a).drain == 1)
  .next (if !fnDrain && as == [] then s
    else
      let mine (t : Tag) : Bool := t.hl == i && (match t.acct with | some a => as.contains a | none => fnDrain && f == 0 && t.fn == 0)
      let s := State.tagStat { s with tags := s.tags.map fun (t : Tag) => if mine t then { t with quarantined := true, why := .other } else t } i
      let s := as.foldl State.drainEnd s
      let s := if fnDrain && f == 0 then (s.pf0Channels i).foldl State.mvSquash s else s
      (if fnDrain then s.fnReady i f else s).activityUpd)

/-- A host link is reset: every function, as 08 R319 gives, its reads failing at once; tags in quarantine stay there (R313), and
Max_Payload_Size, which is not sticky, goes back to 128 (log entry 12). -/
def State.hostDown (s : State) (n : Nat) : State :=
  let up := s.on (HBI_LINK_STAT.dl_up n)
  let s := ((s.set (HBI_LINK_STAT.dl_up n) 0).set (HBI_LINK_STAT.speed n) 0).set (HBI_LINK_STAT.width n) 0
  let s := s.set (HBI_LINK_STAT.flit n) 0
  let s := if up then s.set (HBI_EVT.dl_down n) 1 else s
  let mine := s.tags.filter fun t => t.hl == n && !t.quarantined
  let s := mine.foldl (fun s t => (if s.tagStale t then s else s.tagDeliver t none).dropTag n t.fn t.tag) s
  let s := (s.fnReset n 0).fnReset n 1
  let s := s.modHl n fun h =>
    { h with ready := false, lastWrite := none, atc := [], ats := [], once := [], tagWaits := [], invals := [], heldInvals := [],
             heldWrites := [], intx := false }
  -- a drain issues nothing more, not even once the link is up again
  let s := { s with fns := s.fns.map fun (k, (f : Fn)) => (k, if k / 512 = n then { f with mps := 128, drainBme := false } else f) }
  (s.atsStat n).hostVotes n

/-- DL_DOWN. -/
def execDlDown (n : HostLink) (s : State) : Host.Outcome State Fault Refusal :=
  .next (if s.on (HBI_LINK_STAT.dl_up n) then (s.hostDown n).activityUpd else s)

/-- HOT_RESET: the data link goes down with it. -/
def execHotReset (n : HostLink) (s : State) : Host.Outcome State Fault Refusal :=
  .next (if s.on (HBI_LINK_STAT.dl_up n) then ((s.set (HBI_EVT.hot_reset n) 1).hostDown n).activityUpd else s)

/-- WAKE_N of a host port: low while PERST_N is low and a function has a PME pending and PME_En (15 R533). -/
def State.wakePin (s : State) (hb : Nat) : State :=
  let low := s.on (HBI_LINK_STAT.perst (2 * hb)) && s.fns.any fun (k, f) => k / 1024 == hb && f.pmeEn && f.pme
  if low = s.wakeLow.contains hb then s
  else State.emit { s with wakeLow := if low then addMem s.wakeLow hb else s.wakeLow.filter (· != hb) } (.pin (.wakeN hb) !low)

/-- PERST_ASSERT: both host links of the port are held in fundamental reset (13 R465; 08 R319). -/
def execPerstAssert (n : Fin 4) (s : State) : Host.Outcome State Fault Refusal :=
  let hb := n.val
  .next (if s.on (HBI_LINK_STAT.perst (2 * hb)) then s
    else
      let ls := [2 * hb, 2 * hb + 1].filter s.hlPresent
      let s := ls.foldl (fun s l => s.modHl l fun h => { h with trained := false }) s
      let s := (s.set (HBI_LINK_STAT.perst (2 * hb)) 1).set (HBI_LINK_STAT.perst (2 * hb + 1)) 1
      let s := ls.foldl (fun s l => (s.set (HBI_EVT.perst l) 1).hostDown l) s
      ((s.wakePin hb).evalDom (2 + hb)).activityUpd)

/-- PERST_DEASSERT: the host links may train (13 R473). -/
def execPerstDeassert (n : Fin 4) (s : State) : Host.Outcome State Fault Refusal :=
  let hb := n.val
  let s := (s.set (HBI_LINK_STAT.perst (2 * hb)) 0).set (HBI_LINK_STAT.perst (2 * hb + 1)) 0
  .next ((s.wakePin hb).evalDom (2 + hb))

/-- Lanes a host link has (08 R286, R287). -/
def State.hlLanes (s : State) (n : Nat) : Nat := if s.hlPresent (n / 2 * 2 + 1) then 8 else 16

/-- Configuration space of a host link is ready, and says so (08 R295). -/
def State.hostReady (s : State) (n : Nat) : State := (s.modHl n fun h => { h with ready := true }).emit (.hostMsg n 0 msgDrs 0)

/-- HOST_LINK_UP: the data link comes up at a rate and width, with the account style that its first training since PERST_N rose takes;
configuration space is ready, unless the device is in BOOT (01 R23; 08 R287 to R291, R295; 13 R473). A flush read that waits has
no write of this link to follow (08 R315); a source of INTx that is pending asserts it (R304). -/
def execHostLinkUp (n : HostLink) (rate : BitVec 3) (lanes : BitVec 5) (flit : Bool) (s : State) : Host.Outcome State Fault Refusal :=
  let i := n.val; let w := lanes.toNat
  let may := s.hlPresent i && !s.on (HBI_LINK_STAT.perst i) && !s.on (HBI_LINK_STAT.dl_up i) && s.dom (2 + i / 2) == dOn
    && !bit (s.get PWR_PAD.held_hb) (i / 2) && (decide (8 ≤ s.get TOP_BOOT_STAT.stage) || (s.recovering && i == 0))
    && decide (rate.toNat ≤ 6) && [1, 2, 4, 8, 16].contains w && decide (w ≤ s.hlLanes i) && (flit || decide (rate.toNat ≤ 4))
  .next (if !may then s
    else
      let s := ((s.set (HBI_LINK_STAT.dl_up i) 1).set (HBI_LINK_STAT.speed i) rate.toNat).set (HBI_LINK_STAT.width i) w
      let s := (s.setB (HBI_LINK_STAT.flit i) flit).set (HBI_EVT.dl_up i) 1
      let s := if (s.hl i).trained then s else s.modHl i fun h => { h with trained := true, style := s.on (HBI_LINK_CFG.style i) }
      let s := if s.get TOP_STATE.svc_state ≤ 1 ∧ !s.recovering then s else s.hostReady i
      let s := (s.flushes.filter fun f => f.target.hl == i).foldl (fun s f => s.flushEnd f true) s
      ((s.hostVotes i).hostKick i).intxOne i)

/-! ### Bus Master Enable and power states (08 R316, R320) -/

/-- BME_CLEAR. -/
def execBmeClear (n : HostLink) (fn : FnNo) (s : State) : Host.Outcome State Fault Refusal :=
  let i := n.val; let f := fn.toNat
  .next (if s.fnExists i f ∧ (s.fnc i f).bme then (s.set (HBI_EVT.bme_clear i) 1).modFn i f fun x => { x with bme := false } else s)

/-- Held work of a function goes on: pending vectors, held writes, waiting reads (08 R302, R316). -/
def State.fnResume (s : State) (n fn : Nat) : State :=
  if s.mayIssue n fn then ((s.bmeFree n fn).hostKick n).msixFlush n fn else s

/-- BME_SET. -/
def execBmeSet (n : HostLink) (fn : FnNo) (s : State) : Host.Outcome State Fault Refusal :=
  let i := n.val; let f := fn.toNat
  .next (if s.fnExists i f ∧ !(s.fnc i f).resetting then (s.modFn i f fun x => { x with bme := true }).fnResume i f else s)

/-- D3HOT_ENTER. -/
def execD3hotEnter (n : HostLink) (fn : FnNo) (s : State) : Host.Outcome State Fault Refusal :=
  let i := n.val; let f := fn.toNat
  .next (if s.fnExists i f ∧ f ≤ 1 then (s.modFn i f fun x => { x with d3 := true }).hostVotes i else s)

/-- D0_RETURN: No_Soft_Reset is 1. -/
def execD0Return (n : HostLink) (fn : FnNo) (s : State) : Host.Outcome State Fault Refusal :=
  let i := n.val; let f := fn.toNat
  .next (if s.fnExists i f ∧ f ≤ 1 then ((s.modFn i f fun x => { x with d3 := false }).hostVotes i).fnResume i f else s)

/-! ### Requests no BAR takes (08 R298) -/

/-- UNSUPPORTED_REQUEST: an MRdLk or AtomicOp request; PCIe reports it as an advisory non-fatal error (log entry 12). -/
def execUnsupportedRequest (n : HostLink) (fn : FnNo) (_bar : Fin 3) (s : State) : Host.Outcome State Fault Refusal :=
  let i := n.val; let f := fn.toNat
  .next (if s.fnExists i f ∧ s.on (HBI_LINK_STAT.dl_up i) then s.cplErr i f cplUR else s)

/-! ### Address translation (08 R307 to R310) -/

/-- TRANSLATION_COMPLETION: the oldest Translation Request for the page that is unanswered. A translation goes to the cache,
unless an Invalidate Request has covered its page since; one that permits nothing denies the access. One that comes for a tag in
quarantine is late (R313). -/
def execTranslationCompletion (n : HostLink) (fn : FnNo) (page : Nat) (res : TransResult) (s : State) : Host.Outcome State Fault Refusal :=
  let i := n.val; let f := fn.toNat
  let mine (q : AtsReq) : Bool := q.fn == f && q.page == page && q.answer.isNone && !q.denied
  let late (t : Tag) : Bool := t.hl == i && match t.why with | .trans g _ p => g == f && p == page | _ => false
  .next (match takeFirst mine (s.hl i).ats with
    | none =>
      match takeFirst late s.tags with
      | some (t, r) =>
        let s := State.tagStat { s with tags := r } i
        (if t.quarantined then s.bump (HBI_CNT_LATE_CPL.ev i) else s).hostKick i
      | none => s
    | some (q, rest) =>
      let s := s.freeTag i (.trans f q.pasid page)
      let deny (s : State) : State := (s.modHl i fun h => { h with ats := modFirst mine (fun q => { q with denied := true }) h.ats }).atsDenied i f page
      let s := match res with
        | .denied => deny s
        | .ok base pages rd wr uo =>
          let k := max 1 pages
          let e : AtcEnt := { fn := f, pasid := q.pasid, page := page / k * k, pages := k, trans := base, rd, wr, untransOnly := uo }
          if !rd ∧ !wr then deny s
          else if q.stale then s.modHl i fun h => { h with ats := modFirst mine (fun q => { q with answer := some e }) h.ats }
          else (s.modHl i fun h => { h with ats := rest, atc := (e :: h.atc).take 65536 }).atsStat i
      s.hostKick i)

/-- Whether an Invalidate Request covers a page of a function and PASID; `all` is a global invalidation. -/
def invalCovers (fn : Nat) (pasid : Option Nat) (all : Bool) (page pages : Nat) (f : Nat) (p : Option Nat) (lo k : Nat) : Bool :=
  f == fn && (all || (p == pasid && decide (lo < page + pages ∧ page < lo + k)))

/-- An Invalidate Request is taken: matching translations go, and its completion waits for the reads that used them (08 R309). -/
def State.invalTake (s : State) (i : Nat) (x : HeldInval) : State :=
  let fx := s.fnc i x.fn
  if !fx.ats ∨ fx.resetting then (s.bump (HBI_CNT_ATS_INVAL.ev i)).emit (.hostMsg i x.fn msgInvalCpl x.itag)
  else
    let cov := invalCovers x.fn x.pasid x.all x.page x.pages
    let s := s.modHl i fun h =>
      { h with atc := h.atc.filter fun e => !cov e.fn e.pasid e.page e.pages,
               ats := h.ats.map fun (q : AtsReq) => if cov q.fn q.pasid q.page 1 then { q with stale := true } else q,
               invals := h.invals ++ [{ itag := x.itag, fn := x.fn }] }
    let uses (y : Tag) : Bool := y.hl == i && y.fn == x.fn && !y.quarantined
      && match y.xl with | some e => cov e.fn e.pasid e.page e.pages | none => false
    let waits (f : Flush) : Bool := f.target.hl == i && f.target.fn == x.fn
      && match f.target.xl with | some e => cov e.fn e.pasid e.page e.pages | none => false
    State.atsStat { s with tags := s.tags.map fun (y : Tag) => if uses y then { y with invals := addMem y.invals x.itag } else y,
                           flushes := s.flushes.map fun (f : Flush) => if waits f then { f with invals := addMem f.invals x.itag } else f } i

/-- INVALIDATE_REQUEST: one that comes while 32 are outstanding waits for one of them to complete (16 R547). The posted requests behind it
come as commands once the block takes them (log entry 104). -/
def execInvalidateRequest (n : HostLink) (fn : FnNo) (itag : BitVec 5) (pasid : Option (BitVec 20)) (all : Bool) (page pages : Nat)
    (s : State) : Host.Outcome State Fault Refusal :=
  let i := n.val
  let x : HeldInval := { fn := fn.toNat, itag := itag.toNat, pasid := pasid.map BitVec.toNat, all, page, pages }
  .next (if !s.on (HBI_LINK_STAT.dl_up i) then s
    else if 32 ≤ (s.hl i).invals.length ∨ (s.hl i).heldInvals ≠ [] then s.modHl i fun h => { h with heldInvals := h.heldInvals ++ [x] }
    else s.invalTake i x)

/-- The oldest Invalidate Request that waits is taken once fewer than 32 are outstanding (16 R547). -/
def State.invalNext (s : State) (i : Nat) : State :=
  match (s.hl i).heldInvals with
  | x :: r => if (s.hl i).invals.length < 32 then (s.modHl i fun h => { h with heldInvals := r }).invalTake i x else s
  | [] => s

/-- INVALIDATE_COMPLETION: sent once no read that used a removed translation is outstanding, nor a flush read waiting that is to use it. -/
def execInvalidateCompletion (n : HostLink) (itag : BitVec 5) (s : State) : Host.Outcome State Fault Refusal :=
  let i := n.val; let t := itag.toNat
  .next (match takeFirst (fun q : InvalReq => q.itag == t) (s.hl i).invals with
    | none => s
    | some (q, rest) =>
      if (s.tags.any fun x => x.hl == i && !x.quarantined && x.invals.contains t)
        ∨ (s.flushes.any fun f => f.target.hl == i && f.invals.contains t) then s
      else
        ((((s.modHl i fun h => { h with invals := rest }).atsStat i).bump (HBI_CNT_ATS_INVAL.ev i)).emit
          (.hostMsg i q.fn msgInvalCpl t)).invalNext i)

/-! ### Outbound windows (08 R300, R301) -/

/-- The tags of a read's requests: `none` when one finds no usable tag. -/
def State.takeTags (s : State) (m n fn w : Nat) (pasid : Option Nat) : List (Nat × Nat) → Option State
  | [] => some s
  | (a, l) :: r =>
    match s.takeTag n fn none (.outbound m w) with
    | (some t, s) =>
      (s.readTlp n fn pasid t a l (s.owinAttr n w)).takeTags m n fn w pasid r
    | (none, _) => none

/-- The requests a read is cut into (08 R290). -/
def readCut (mrrs : Nat) : Nat → Nat → Nat → List (Nat × Nat)
  | 0, _, _ => []
  | k + 1, a, n => if n = 0 then [] else
    let l := min n (min (max 1 mrrs) (4096 - a % 4096))
    (a, l) :: readCut mrrs k (a + l) (n - l)

/-- One piece of an access in an outbound window, of a master's Lockbox (10 Table 10.6): a write's data and poison, or none. The spill
engines' own areas lie at IOVAs and not here (DEDUCED, log entry 114). -/
def State.outPiece (s : State) (m a k : Nat) (wr : Option (List Byte × Bool)) : State :=
  match s.lbxCheck m a wr.isSome with
  | (false, s) => if wr.isSome then s else s.emit (.readData 0)
  | (true, s) =>
    match s.owinGate a k wr.isSome (decide (m < 2)) with
    | (.wait, s) => s
    | (.fail, s) => if wr.isSome then s.owinFault a else (s.owinFault a).emit (.readData 0)
    | (.go, s) =>
      let (_, w, _) := owinOf a
      let (n, fn, pasid, host) := s.owinTarget a
      match wr with
      | some (d, poison) => s.post n fn pasid host d poison (s.owinAttr n w)
      | none =>
        match s.takeTags m n fn w pasid (readCut (s.ctlFn n fn).mrrs k host k) with
        | some s => s
        | none => s.tagWait n fn (.outbound m w)

/-- OUTBOUND_ACCESS: master `m` reads or writes in an outbound window, in pieces that cross no 4 KiB boundary (01 R31). -/
def execOutboundAccess (m : Fin 128) (addr : BitVec 48) (write : Bool) (data : Bytes) (poison : Bool) (len : BitVec 13) (s : State) :
    Host.Outcome State Fault Refusal :=
  let a := addr.toNat; let k := if write then data.length else len.toNat
  .next (if a < 2 ^ 47 ∨ (4 ≤ m.val ∧ m.val < 64) ∨ k = 0 then s
    else if write then (scatterW (cutOf a k) data).foldl (fun s (b, d) => s.outPiece m.val b d.length (some (d, poison))) s
    else (cutOf a k).foldl (fun s (b, l) => s.outPiece m.val b l none) s)

end Sys2Proof.Machine
end

