-- ==== Sys2Proof/Machine/PcieConfig.lean ====
section
/-!
DEFINITION. Machine/PcieConfig.lean: configuration space (08 R289, R293 to R296). What the spec fixes is as its tables give
it; the layout of the registers is that of the PCIe Base Specification, and fields neither fixes read 0 (log entry 12).
-/
namespace Sys2Proof.Machine

/-- A capability of configuration space. -/
inductive Cap where
  | header | pm | pcie | msix | aer | dsn | ari | sriov | ats | pasid | tph | secPcie | dlf | phy (id : Nat) | phy128 | margin | dev3
  | doe | ltr | rtr
  deriving DecidableEq, Repr

/-- Its capability identifier; that of the 128.0 GT/s Physical Layer capability is not given: a free constant (log entry 12). -/
def Cap.id : Cap → Nat
  | .header => 0 | .pm => 0x01 | .pcie => 0x10 | .msix => 0x11 | .aer => 0x01 | .dsn => 0x03 | .ari => 0x0E | .sriov => 0x10
  | .ats => 0x0F | .pasid => 0x1B | .tph => 0x17 | .secPcie => 0x19 | .dlf => 0x25 | .phy i => i
  | .phy128 => Config.phy128Cap.toNat | .margin => 0x27 | .dev3 => 0x2F | .doe => 0x2E | .ltr => 0x18 | .rtr => 0x22

/-- The capabilities of a function with their offsets, ascending (08 Table 8.4). -/
def State.capsOf (s : State) (n fn : Nat) : List (Nat × Cap) :=
  if fn = 0 then
    [(0, .header), (0x40, .pm), (0x50, .pcie), (0xA0, .msix), (0x100, .aer), (0x148, .dsn), (0x158, .ari), (0x200, .secPcie),
     (0x240, .dlf), (0x250, .phy 0x26), (0x290, .phy 0x2A), (0x2D0, .phy 0x31), (0x310, .phy128), (0x350, .margin),
     (0x3A0, .dev3), (0x3B0, .doe), (0x3D0, .ltr), (0x3D8, .rtr)]
  else if fn = 1 then
    [(0, .header), (0x40, .pm), (0x50, .pcie), (0xA0, .msix), (0x100, .aer), (0x148, .dsn), (0x158, .ari)]
      ++ (if s.slices n then [] else [(0x160, .sriov)]) ++ [(0x1A0, .ats), (0x1B0, .pasid), (0x1C0, .tph)]
  else [(0, .header), (0x40, .pcie), (0x80, .msix), (0x100, .aer), (0x148, .ari), (0x158, .ats), (0x168, .tph)]

/-- The capability that holds an offset. -/
def State.capAt (s : State) (n fn off : Nat) : Nat × Cap :=
  ((s.capsOf n fn).filter fun (o, _) => decide (o ≤ off)).getLastD (0, .header)

/-- The next capability in its chain: the standard chain ends below 0x100. -/
def State.capNext (s : State) (n fn off : Nat) : Nat :=
  match (s.capsOf n fn).find? fun (o, _) => decide (off < o) with
  | some (o, _) => if off < 0x100 ∧ 0x100 ≤ o then 0 else o
  | none => 0

/-- Sizes of BARs 0, 2 and 4 as powers of two, and whether they are prefetchable; none for a BAR that is absent (08 Table 8.5). -/
def State.barSize (s : State) (n fn b : Nat) : Option (Nat × Bool) :=
  let slice := fn = 1 ∧ s.slices n
  if fn = 0 then (if b = 0 then some (28, false) else if b = 2 then some (16, false) else none)
  else if b = 0 then some (if slice then 28 else 17, false)
  else if b = 2 then some (if slice then 23 else 12, true)
  else if b = 4 then some (if slice then 40 else 32, true)
  else none

/-- The writable bits of dword `i` (0 to 5) of a set of BARs, and its type bits. `least` is the least size of any BAR. -/
def State.barDword (s : State) (n fn least i : Nat) : Nat × Nat :=
  match s.barSize n fn (i / 2 * 2) with
  | none => (0, 0)
  | some (k, pf) =>
    let k := max k least
    let m := 2 ^ 64 - 2 ^ k
    if i % 2 = 0 then (m % m32, 4 + 8 * b2n pf) else (m / m32, 0)

/-- A time as the Readiness Time Reporting capability codes it: a value of 9 bits and a scale, rounded up. -/
def rtrCode (ns : Nat) : Nat :=
  match [0, 1, 2, 3, 4, 5].find? fun k => decide (ns ≤ 511 * 2 ^ (5 * k)) with
  | some k => (ns + 2 ^ (5 * k) - 1) / 2 ^ (5 * k) + 512 * k
  | none => 511 + 512 * 5

/-- Encodings of the PCIe Base Specification for a size of 128 bytes times a power of two. -/
def sizeCode (n : Nat) : Nat := ((List.range 6).find? fun k => decide (n ≤ 128 * 2 ^ k)).getD 5

/-- Header dwords (08 R293). -/
def State.cfgHeader (s : State) (n fn off : Nat) : Nat :=
  let f := s.fnc n fn
  let at_ (o : Nat) : Nat := tcnt f.cfg (o / 4)
  let sub := s.get (HBI_SUBSYS.vendor n) + s.get (HBI_SUBSYS.device n) * 2 ^ 16
  if off = 0 then (if fn = 0 then 0x96001E6B else if fn = 1 then 0x96011E6B else 0xFFFFFFFF)
  else if off = 4 then
    ((at_ 4) ||| (b2n f.bme * 4 + b2n f.intxDis * 2 ^ 10 + 2 ^ 20 + (if fn = 0 ∧ (s.hl n).intx then 2 ^ 19 else 0))) + f.pciSta * 2 ^ 16
  else if off = 8 then s.get TOP_ID.stepping + (if fn = 0 then 0x088000 else 0x028000) * 2 ^ 8
  else if off = 0xC then at_ 0xC + (if fn ≤ 1 then 0x800000 else 0)
  else if 0x10 ≤ off ∧ off < 0x28 then (if fn ≤ 1 then at_ off ||| (s.barDword n fn 0 ((off - 0x10) / 4)).2 else 0)
  else if off = 0x2C then sub
  else if off = 0x34 then 0x40
  else if off = 0x3C then at_ 0x3C + (if fn = 0 then 0x100 else 0)
  else 0

/-- Dwords of a capability at offset `r` from its start (08 R295). -/
def State.cfgCap (s : State) (n fn : Nat) (cap : Cap) (o r : Nat) : Nat :=
  let f := s.fnc n fn
  let kept : Nat := tcnt f.cfg ((o + r) / 4)
  let x8 := s.hlLanes n = 8
  match cap with
  | .header => 0
  | .pm => if r = 4 then (if f.d3 then 3 else 0) + 8 + b2n f.pmeEn * 2 ^ 8 + b2n f.pme * 2 ^ 15
           else 0
  | .pcie =>
    if r = 4 then 5 + 2 ^ 5 + 2 ^ 15 + 2 ^ 28
    else if r = 8 then
      (kept ||| (if fn ≤ 1 then sizeCode f.mps * 2 ^ 5 + b2n f.extTag * 2 ^ 8 + sizeCode f.mrrs * 2 ^ 12 else 0)) + f.devSta % 16 * 2 ^ 16
    else if r = 0xC then 7 + (if x8 then 8 else 16) * 2 ^ 4 + 2 * 2 ^ 10 + 3 * 2 ^ 15
    else if r = 0x10 then kept + (if s.on (HBI_LINK_STAT.dl_up n) then
      (s.get (HBI_LINK_STAT.speed n) + 1) * 2 ^ 16 + s.get (HBI_LINK_STAT.width n) * 2 ^ 20 else 0)
    else if r = 0x24 then 0xF + (if fn = 0 then 2 ^ 11 else 0) + 2 ^ 16 + 2 ^ 17 + 2 ^ 31    -- FRS (Table 8.1)
    else if r = 0x2C then 0xFE + 2 ^ 31                                                      -- seven rates and DRS (Table 8.1)
    else if r = 0x28 then kept ||| (if fn ≤ 1 then f.cto + b2n f.tag10 * 2 ^ 12 + (if fn = 0 then b2n (s.hl n).ltrEn * 2 ^ 10 else 0) else 0)
    else kept
  | .msix =>
    if r = 4 then (if fn = 0 then 2 else if fn = 1 ∧ s.slices n then 0x8000000 else 0x10000)
    else if r = 8 then (if fn = 0 then 0x8000 + 2 else if fn = 1 ∧ s.slices n then 0x8008000 else 0x18000)
    else 0
  | .aer =>
    if r = 4 then f.aerUnc
    else if r = 8 then (if fn ≤ 1 then s.aerMask n fn else 0)
    else if r = 0xC then (if fn ≤ 1 then s.aerSev n fn else 0)
    else if r = 0x10 then f.aerCor
    else if r = 0x14 then (if fn ≤ 1 then s.aerCorMask n fn else 0)
    else if r = 0x18 then f.aerFirst % 32
    else if 0x1C ≤ r ∧ r < 0x2C then f.aerHdr / 2 ^ (8 * (r - 0x1C))
    else 0
  | .dsn => if r = 4 then s.get SEC_SERIAL.serial % m32 else if r = 8 then s.get SEC_SERIAL.serial / m32 else 0
  | .sriov =>
    if r = 8 then kept + b2n (s.hl n).vfEnable
    else if r = 0xC then 255 + 255 * 2 ^ 16
    else if r = 0x10 then (s.hl n).numVfs
    else if r = 0x14 then 1 + 2 ^ 16
    else if r = 0x18 then 0x9602 * 2 ^ 16
    else if r = 0x1C then 0x1F
    else if r = 0x20 then (tget f.cfg ((o + r) / 4)).getD 1
    else if 0x24 ≤ r ∧ r < 0x3C then kept ||| (s.barDword n 2 0 ((r - 0x24) / 4)).2
    else kept
  | .ats => if r = 4 then 2 ^ 5 + 2 ^ 6 + kept + b2n f.ats * 2 ^ 31 else 0
  | .pasid => if r = 4 then 20 * 2 ^ 8 + b2n f.pasidEn * 2 ^ 16 else 0
  | .tph => if r = 4 then 5 + 1 * 2 ^ 9 + 63 * 2 ^ 16 else kept   -- no ST and device-specific modes; 64 entries in the capability (Table 8.4)
  | .doe =>
    if r = 4 then 1 + 5 * 2                                                      -- interrupts, with message number 5 (08 R303)
    else if r = 0xC then b2n (s.hl n).doe.isSome + 2 * b2n (s.hl n).doeInt
    else kept
  | .rtr => if r = 4 then rtrCode 150000000 + rtrCode 150000000 * 2 ^ 12 + 2 ^ 31
            else if r = 8 then rtrCode 100000000 + rtrCode 10000000 * 2 ^ 12 else 0
  | _ => kept

/-- The first dword of a capability. -/
def State.cfgCapHead (s : State) (n fn : Nat) (cap : Cap) (o : Nat) : Nat :=
  let f := s.fnc n fn
  let next := s.capNext n fn o
  let own := match cap with
    | .pm => (3 + 0x4800) * 2 ^ 16   -- version 3, PME from D0 and D3hot
    | .pcie => (2 + 2 ^ 15) * 2 ^ 16   -- version 2, Flit Mode Supported
    | .msix => 0x7FF * 2 ^ 16 + b2n f.fnMask * 2 ^ 30 + b2n f.msixEn * 2 ^ 31
    | _ => 0
  if o < 0x100 then cap.id + next * 2 ^ 8 + own else cap.id + 2 ^ 16 + next * 2 ^ 20

/-- A dword of configuration space as it reads. -/
def State.cfgRead (s : State) (n fn dw : Nat) : Nat :=
  let off := dw * 4
  let (o, cap) := s.capAt n fn off
  (if cap = .header then s.cfgHeader n fn off
    else if off = o then s.cfgCapHead n fn cap o
    else s.cfgCap n fn cap o (off - o)) % m32

/-- The bits of a dword that a write stores and that have no field of their own in State. -/
def State.cfgKeep (s : State) (n fn : Nat) (cap : Cap) (off r : Nat) : Nat :=
  match cap with
  | .header =>
    if off = 4 then (if fn ≤ 1 then 0x0142 else 0)
    else if off = 0xC then 0xFF
    else if 0x10 ≤ off ∧ off < 0x28 ∧ fn ≤ 1 then (s.barDword n fn 0 ((off - 0x10) / 4)).1
    else if off = 0x3C then 0xFF else 0
  | .pcie => if r = 8 then 0x081F else if r = 0x10 then 0x3CB else if r = 0x28 then 0x0340 else if r = 0x30 then 0xFFFF else 0
  | .aer => if fn ≤ 1 ∧ (r = 8 ∨ r = 0xC ∨ r = 0x14) then 0xFFFFFFFF else 0
  | .sriov =>
    if r = 8 then 0x18 else if r = 0x20 then 0x1F
    else if 0x24 ≤ r ∧ r < 0x3C then
      (s.barDword n 2 (12 + ((bitsOf 5 (tcnt (s.fnc n fn).cfg ((off - r + 0x20) / 4))).headD 0)) ((r - 0x24) / 4)).1
    else 0
  | .ats => if r = 4 then 0x1F * 2 ^ 16 else 0
  | .tph => if r = 8 then 0x0307 else if 0xC ≤ r ∧ r < 0xC + 128 then 0xFFFFFFFF else 0
  | .ltr => if r = 4 then 0x1FFF1FFF else 0
  | _ => 0

/-- What a write does to the fields that State holds by name. Bus Master Enable, the power state, Initiate Function Level Reset,
VF Enable and the DOE mailbox have commands of their own. -/
def State.cfgAct (s : State) (n fn : Nat) (cap : Cap) (off r v : Nat) : State :=
  let md (f : Fn → Fn) : State := s.modFn n fn f
  match cap with
  | .header =>
    if off = 4 then
      let s := md fun f => { f with pciSta := f.pciSta ^^^ (f.pciSta &&& bf v 16 16), intxDis := if fn = 0 then bit v 10 else f.intxDis }
      if fn = 0 then s.intxOne n else s
    else s
  | .pm =>
    if r = 4 then
      let s := (md fun f => { f with pmeEn := bit v 8, pme := f.pme && !bit v 15 }).wakePin (n / 2)
      -- PME is signalled when it is enabled while one is pending (PCIe Base Specification, log entry 12)
      if bit v 8 ∧ (s.fnc n fn).pme ∧ s.on (HBI_LINK_STAT.dl_up n) then s.emit (.hostMsg n fn msgPme 0) else s
    else s
  | .pcie =>
    if r = 8 then
      md fun f =>
        let f := { f with devSta := f.devSta ^^^ (f.devSta &&& bf v 16 4) }
        if fn ≤ 1 then { f with mps := 128 * 2 ^ (min 5 (bf v 5 3)), extTag := bit v 8, mrrs := 128 * 2 ^ (min 5 (bf v 12 3)) } else f
    else if r = 0x28 ∧ fn ≤ 1 then
      let s := (md fun f => { f with cto := bf v 0 4, tag10 := bit v 12 }).ctoUpd n
      if fn = 0 ∧ bit v 10 ≠ (s.hl n).ltrEn then
        let s := s.modHl n fun h => { h with ltrEn := bit v 10 }
        if bit v 10 then s.emit (.hostMsg n 0 msgLtr (s.get (HBI_LTR.reg n))) else s
      else s
    else s
  | .msix => if r = 0 then ((md fun f => { f with fnMask := bit v 30, msixEn := bit v 31 }).msixFlush n fn).intxOne n else s
  | .aer => if r = 4 then md fun f => { f with aerUnc := f.aerUnc ^^^ (f.aerUnc &&& v) }
    else if r = 0x10 then md fun f => { f with aerCor := f.aerCor ^^^ (f.aerCor &&& v) } else s
  | .sriov => if r = 0x10 ∧ !(s.hl n).vfEnable then s.modHl n fun h => { h with numVfs := min 255 (bf v 0 16) } else s
  | .ats =>
    if r = 4 then
      let s := md fun f => { f with ats := bit v 31 }
      (if bit v 31 then s else s.atcClear n fn).hostKick n
    else s
  | .pasid => if r = 4 then (md fun f => { f with pasidEn := bit v 16 }).hostKick n else s
  | .doe => if r = 0xC ∧ bit v 1 then (s.modHl n fun h => { h with doeInt := false }).intxOne n else s
  | _ => s

/-- The bits of a dword that byte enables select. -/
def beMask (be : Nat) : Nat := ((bitsOf 4 be).map fun i => 0xFF * 2 ^ (8 * i)).sum

/-- A write of a dword of configuration space: bytes not enabled keep what they read, but clear nothing. -/
def State.cfgWrite (s : State) (n fn dw be v : Nat) : State :=
  let off := dw * 4
  let (o, cap) := s.capAt n fn off
  let m := beMask be
  let old := s.cfgRead n fn dw
  let w1c := if cap = .aer ∧ (off - o = 4 ∨ off - o = 0x10) then 0xFFFFFFFF else if cap = .pm ∧ off - o = 4 then 2 ^ 15
    else if cap = .pcie ∧ off - o = 8 then 0xF * 2 ^ 16 else if cap = .doe ∧ off - o = 0xC then 2
    else if cap = .header ∧ off = 4 then 0xF900 * 2 ^ 16 else 0
  let w := (v &&& m) ||| (old ^^^ (old &&& (m ||| w1c)))
  let keep := s.cfgKeep n fn cap off (off - o)
  let kept := w &&& keep
  let s := if keep = 0 then s
    else s.modFn n fn fun f => { f with cfg := if kept = 0 ∧ cap ≠ .aer then tdel f.cfg dw else tput f.cfg dw kept }
  s.cfgAct n fn cap off (off - o) w

/-- Configuration RRS status (PCIe Base Specification, log entry 12). -/
def cplRRS : Nat := 2

/-- CONFIG_REQUEST: served, or completed with Configuration RRS until configuration space is ready (08 R295, R317). -/
def execConfigRequest (n : HostLink) (fn : FnNo) (dw : BitVec 10) (be : BitVec 4) (wr : Option (BitVec 32)) (s : State) :
    Host.Outcome State Fault Refusal :=
  let i := n.val; let f := fn.toNat
  .next (if !s.on (HBI_LINK_STAT.dl_up i) then s
    else if !(s.hl i).ready then s.emit (.hostCpl i f cplRRS [])
    else if !s.fnExists i f then (s.aerAdvise i 0 aerUnsup).emit (.hostCpl i f cplUR [])
    else if (s.fnc i f).resetting then s.emit (.hostCpl i f cplRRS [])
    else match wr with
      | none => s.emit (.hostCpl i f cplOK (bytesOf 4 (s.cfgRead i f dw.toNat)))
      | some v => (s.cfgWrite i f dw.toNat be.toNat v.toNat).emit (.hostCpl i f cplOK []))

end Sys2Proof.Machine
end

