-- ==== Sys2Proof/Machine/Hallmark.lean ====
section
/-!
DEFINITION. Machine/Hallmark.lean: the synchronisation exchange, the time tree, steering, the external reference, time
outputs and timers (11 R394 to R408).
-/
namespace Sys2Proof.Machine

/-! ### The time tree (11 R394, R398 to R400) -/

/-- Whether a port takes part in the exchange. -/
def State.hmkTakes (s : State) (p : Nat) : Bool :=
  let r := s.role p
  s.active p && (((r == roleD0 || r == roleD1 || r == roleGlobal) && s.on (HMK_PORT.time_en p)) || (r == roleHall && s.on (HMK_PORT.hall_en p)))

/-- This device's priority: holdover while the external reference is lost (11 R398, R405). -/
def State.hmkPrio (s : State) : Nat := if s.hmk.extLost then s.get HMK_CFG.holdover_prio else s.get HMK_CFG.prio

/-- Sends an HMK_SYNC on a port: it enters the injection queue, for that port alone (04 R154). -/
def State.hmkSend (s : State) (p payload : Nat) : State :=
  if s.qsInj.length ≥ 4096 then s.bump QSL_CNT_INJ_FULL.ev
  else
    let m : QsMsg := { type := 4, dst := s.peer p, src := s.ep, hops := 0, epoch := s.get RTE_EPOCH.current, payload }
    State.injUpd { s with qsInj := s.qsInj ++ [{ msg := m, arr := 64, pref := p, misses := 0 }] }

/-- Form 1: the best key known, and depth 63 on the parent port (11 R399). -/
def State.hmkForm1On (s : State) (p : Nat) : State :=
  let up := s.on HMK_STAT.parent_valid && s.get HMK_STAT.parent_port == p
  let depth := if up then 63 else s.get HMK_STAT.depth
  s.hmkSend p (s.now / 2 ^ 40 + s.get HMK_STAT.gm_prio * 2 ^ 24 + s.get HMK_STAT.gm_endpoint * 2 ^ 32 + depth * 2 ^ 55 + 2 ^ 63)

def State.hmkForm1All (s : State) : State := (ports64.filter s.hmkTakes).foldl State.hmkForm1On s

/-- Keys in order: priority, then endpoint (11 R398). -/
def hmkKey (prio ep : Nat) : Nat := prio * 2 ^ 23 + ep

/-- The candidates, as (key, depth, port) (11 R400). -/
def State.hmkCands (s : State) : List (Nat × Nat × Nat) :=
  (ports64.filter s.hmkTakes).filterMap fun p =>
    match (s.port p).hmkForm1 with
    | some f => if f.depth < 62 ∧ f.prio ≠ 255 then some (hmkKey f.prio f.gm, f.depth, p) else none
    | none => none

/-- The best of the candidates. -/
def hmkBest : List (Nat × Nat × Nat) → Option (Nat × Nat × Nat)
  | [] => none
  | x :: r => some (r.foldl (fun a b =>
      if b.1 < a.1 ∨ (b.1 = a.1 ∧ (b.2.1 < a.2.1 ∨ (b.2.1 = a.2.1 ∧ b.2.2 < a.2.2))) then b else a) x)

/-- Sets this device's place in the tree, and tells the neighbours of a change (11 R400, R402). -/
def State.hmkPlace (s : State) (gm : Bool) (parent : Option Nat) (depth prio ep : Nat) : State :=
  let newKey := s.get HMK_STAT.gm_prio ≠ prio ∨ s.get HMK_STAT.gm_endpoint ≠ ep
  let old := (s.get HMK_STAT.depth, s.on HMK_STAT.parent_valid, s.get HMK_STAT.parent_port)
  let s := ((s.setB HMK_STAT.grandmaster gm).setB HMK_STAT.parent_valid parent.isSome).set HMK_STAT.parent_port (parent.getD 0)
  let s := ((s.set HMK_STAT.depth depth).set HMK_STAT.gm_prio prio).set HMK_STAT.gm_endpoint ep
  let s := if gm ∧ !s.on HMK_CFG.ext_en ∧ !s.on HMK_CFG.ext_10m_en then s.set HMK_RATE.r 0 else s
  let s := if !newKey then s
    else
      let s := (s.set HMK_EVT.gm_change 1).bump HMK_CNT_GM_CHANGE.ev
      let may := match s.hmk.gmRecAt with | some t => decide (t + 1000000 ≤ s.clk) | none => true
      if may then
        State.raise { s with hmk := { s.hmk with gmRecAt := some s.clk } } kHMK_GM_CHANGE (srcOf 0x2A (parent.getD 0xFF)) 0 0
      else s
  if newKey ∨ old ≠ (depth, parent.isSome, parent.getD 0) then s.hmkForm1All else s

/-- The election (11 R400). -/
def State.hmkElect (s : State) : State :=
  let prio := s.hmkPrio; let ep := s.epShown
  let own := decide (prio ≠ 255 ∧ ep ≠ 0x7FFFFF)
  let key := hmkKey prio ep
  match hmkBest s.hmkCands with
  | some (k, d, p) =>
    if own ∧ key < k then s.hmkPlace true none 0 prio ep
    else s.hmkPlace false (some p) (d + 1) (k / 2 ^ 23) (k % 2 ^ 23)
  | none => if own then s.hmkPlace true none 0 prio ep else s.hmkPlace false none 63 255 0x7FFFFF

/-- A 16-, 32- or 40-bit field as a signed number. -/
def signed (w n : Nat) : Int := sext w n

/-- Sets the rate correction, within ±1,000 ppm (11 R392). -/
def State.hmkRate (s : State) (r : Int) : State := s.set HMK_RATE.r (trunc 32 (max (-4294967) (min r 4294967)))

/-- A slew by an offset θ: r changes in θ's direction, by a free value of at most HMK_CFG.slew_ppm, and not at all when θ is 0 (11 R402; the
spec bounds the change and does not give it: log entry 2). -/
def State.hmkSlew (s : State) (θ : Int) : State :=
  let m := s.get HMK_CFG.slew_ppm * 2 ^ 32 / 1000000
  let (v, s) := s.free 32
  s.hmkRate (signed 32 (s.get HMK_RATE.r) + θ.sign * (v % (m + 1) : Nat))

/-- The rate that `edges` edges of HMK_10M_IN since the last period define: each is 400 quarter-nanoseconds, where REFCLK_AON has counted 160
a cycle (11 R404). -/
def State.hmkExt (s : State) (edges : Nat) : State :=
  let c := (s.clk - s.hmk.periodAt) / 40
  if c = 0 then s else s.hmkRate ((2 ^ 32 * (400 * edges : Nat) : Int) / (160 * c : Nat) - 2 ^ 32)

/-- HMK_SYNC_PERIOD: the election, then one form 0 and one form 1 on every port that takes part (11 R394, R400). `edges` are those that
HMK_10M_IN has shown since the period before: with ext_10m_en they set the rate, once a period (11 R404; log entry 77). -/
def execHmkSyncPeriod (edges : Nat) (s : State) : Host.Outcome State Fault Refusal :=
  let s := if s.on HMK_CFG.ext_10m_en then s.hmkElect.hmkExt edges else s.hmkElect
  let s := { s with hmk := { s.hmk with periodAt := s.clk } }
  .next ((ports64.filter s.hmkTakes).foldl (fun s p => (s.hmkSend p 0).hmkForm1On p) s)

/-- Takes the oldest HMK_SYNC of a form that has come. -/
def State.hmkTake (s : State) (form1 : Bool) : Option (QsArr × State) :=
  (takeFirst (fun a : QsArr => a.msg.type == 4 && bit a.msg.payload 63 == form1) s.qsHere).map fun (a, r) => (a, { s with qsHere := r })

/-- HMK_SYNC_FORM1. -/
def execHmkSyncForm1 (s : State) : Host.Outcome State Fault Refusal :=
  .next (match s.hmkTake true with
    | none => s
    | some (a, s) =>
      if !s.hmkTakes a.port then s
      else
        let w := a.msg.payload
        let f : Form1 := { hi := bf w 0 24, prio := bf w 24 8, gm := bf w 32 23, depth := bf w 55 6 }
        (s.modPort a.port fun q => { q with hmkForm1 := some f }).hmkElect)

/-- FORM1_AGE_OUT. -/
def execForm1AgeOut (p : PortNo) (s : State) : Host.Outcome State Fault Refusal :=
  .next (if (s.port p).hmkForm1.isSome then (s.modPort p fun q => { q with hmkForm1 := none }).hmkElect else s)

/-- PARENT_TIMEOUT: the parent is used no longer, and the rate stays, until the next election (11 R402). -/
def execParentTimeout (s : State) : Host.Outcome State Fault Refusal :=
  .next (if s.on HMK_STAT.parent_valid then (s.set HMK_STAT.parent_valid 0).set HMK_STAT.parent_port 0 else s)

/-! ### Steering (11 R402) -/

/-- The count is stepped by θ. -/
def State.hmkStep (s : State) (θ : Int) (port : Nat) : State :=
  let s := (s.set HMK_NOW.reg (trunc 64 ((s.now : Nat) + θ))).set HMK_STAT.valid 1
  ((s.set HMK_EVT.step 1).bump HMK_CNT_STEP.ev).raise kHMK_STEP (srcOf 0x2A port) 0 (trunc 48 θ)

/-- Lock: gained after 8 samples within 4, lost after 2 beyond 16. -/
def State.hmkLock (s : State) (θ : Int) (port : Nat) : State :=
  let a := θ.natAbs
  let good := if a ≤ 4 then s.hmk.good + 1 else 0
  let bad := if 16 < a then s.hmk.bad + 1 else 0
  let s := { s with hmk := { s.hmk with good := min good 8, bad := min bad 2 } }
  if s.on HMK_STAT.locked then
    if 2 ≤ bad then
      ((s.set HMK_STAT.locked 0).set HMK_EVT.lock_lost 1).raise kHMK_LOCK_LOST (srcOf 0x2A port) 0 0
    else s
  else if 8 ≤ good then (s.set HMK_STAT.locked 1).set HMK_EVT.locked 1 else s

/-- An accepted offset steers the count: `whole` is the offset from the parent's full time, used while the count is not valid. As a signed
number of 64 bits it is the one nearest the own count (11 R402). -/
def State.hmkSteer (s : State) (θ whole : Int) (port : Nat) : State :=
  let s := s.hmkLock θ port
  if !s.on HMK_STAT.valid then s.hmkStep whole port
  else if θ > 4 * (s.get HMK_CFG.step_ns : Nat) then s.hmkStep θ port
  else s.hmkSlew θ

/-- Whether a port's sample of a round trip is accepted, and the port's filter after it (11 R397). -/
def Port.hmkFilter (q : Port) (rtt : Int) : Bool × Port :=
  if !q.hmkFSet ∨ 4 ≤ q.hmkDiscards then (true, { q with hmkF := rtt, hmkFSet := true, hmkDiscards := 0 })
  else if rtt < 0 ∨ 64 < (rtt - q.hmkF).natAbs then (false, { q with hmkDiscards := q.hmkDiscards + 1 })
  else (true, { q with hmkF := q.hmkF + (rtt - q.hmkF).tdiv 8, hmkDiscards := 0 })

/-- HMK_SYNC_FORM0: a sample of the offset, which steers when it comes from the parent (11 R396, R402). -/
def execHmkSyncForm0 (s : State) : Host.Outcome State Fault Refusal :=
  .next (match s.hmkTake false with
    | none => s
    | some (a, s) =>
      let p := a.port; let w := a.msg.payload
      let s := s.bump HMK_CNT_SYNC_RX.ev
      if !s.hmkTakes p then s
      else
        let atx := bf w 0 40; let ta := bf w 40 23
        let q := s.port p
        match if ta = 0x7FFFFF then none else q.hmkTx.find? fun t => decide (t + ta ≤ a.rx) with
        | none => s
        | some btx =>
          let rtt : Int := ((a.rx : Nat) : Int) - (btx : Nat) - (ta : Nat)
          let d : Int := rtt.tdiv 2 + signed 16 (s.get (HMK_PORT.asym p))
          let θ := signed 40 (trunc 40 ((atx : Nat) + d - (a.rx : Nat)))
          let (ok, q) := (s.port p).hmkFilter rtt
          let s := s.modPort p fun _ => q
          if !ok then s.bump HMK_CNT_SYNC_BAD.ev
          else if !(s.on HMK_STAT.parent_valid && s.get HMK_STAT.parent_port == p) then s
          else
            let s := (s.set HMK_OFFSET.theta (trunc 32 θ)).set HMK_OFFSET.rtt (trunc 32 q.hmkF)
            let full : Int := (((q.hmkForm1.map (·.hi)).getD 0 * 2 ^ 40 + atx : Nat) : Int)
            s.hmkSteer θ (signed 64 (trunc 64 (full + d - (a.rx : Nat)))) p)

/-! ### External reference and loads (11 R404 to R406) -/

/-- Loads HMK_SET, or refuses (11 R406). -/
def State.hmkLoad (s : State) : Bool × State :=
  let t := s.get HMK_SET.t
  if s.on HMK_STAT.parent_valid ∨ (s.on HMK_STAT.valid ∧ t < s.now) then
    (false, (s.set HMK_EVT.set_denied 1).raise kHMK_SET_DENIED (srcOf 0x2A 0xFF) 0 0)
  else (true, ({ s with hmk := { s.hmk with frac := 0 } } : State).set HMK_NOW.reg t |>.set HMK_STAT.valid 1)

/-- HMK_SET. -/
def execHmkSet (w : Writer) (s : State) : Host.Outcome State Fault Refusal :=
  .next (s.reaching w HMK_CTL.set 1 fun s =>
    s.hmkLoad.2)

/-- HMK_SET_AT_PPS. -/
def execHmkSetAtPps (w : Writer) (s : State) : Host.Outcome State Fault Refusal :=
  .next (s.reaching w HMK_CTL.set_at_pps 1 fun s =>
    s.set HMK_CTL.pending 1)

/-- Edges of the reference: 8 in a row spaced 1 s ± 1 µs make it good again (11 R405). -/
def State.ppsCount (s : State) : State :=
  let near := match s.hmk.lastEdge with
    | some t => decide (t + 999999000 ≤ s.clk ∧ s.clk ≤ t + 1000001000)
    | none => false
  let n := if near then s.hmk.extEdges + 1 else 1
  let s := { s with hmk := { s.hmk with lastEdge := some s.clk, extEdges := min n 8 } }
  if 8 ≤ n then State.set { s with hmk := { s.hmk with extLost := false } } HMK_STAT.ext_ok 1 else s

/-- The start of a second on HMK_PPS_IN, when the count is `-e` from the second nearest to it (11 R405, R406). -/
def State.ppsEdge (s : State) (e : Int) : State :=
  let s := if s.on HMK_CFG.ext_en then s.ppsCount.set HMK_EXT_OFFSET.e (trunc 32 e) else s
  let (loaded, s) := if s.on HMK_CTL.pending then State.hmkLoad (s.set HMK_CTL.pending 0) else (false, s)
  if !s.on HMK_CFG.ext_en ∨ loaded ∨ !s.on HMK_STAT.grandmaster then s else s.hmkSteer e e 0xFF

/-- PPS_IN_EDGE: e is recorded, a pending load is made, and a grandmaster steers to e (11 R404, R406). An offset of exactly half
a second may round either way: a free value. -/
def execPpsInEdge (s : State) : Host.Outcome State Fault Refusal :=
  let r := s.now % 4000000000
  let up := decide (4000000000 < 2 * r) || (4000000000 == 2 * r && (s.free 1).1 == 1)
  .next ((s.free 1).2.ppsEdge (if up then (4000000000 : Int) - (r : Nat) else - ((r : Nat) : Int)))

/-- HMK_EXT_LOST: 1.1 s after an edge without another (11 R405). -/
def execHmkExtLost (s : State) : Host.Outcome State Fault Refusal :=
  .next (if !s.on HMK_CFG.ext_en ∨ s.hmk.lastEdge = none then s
    else
      let s := { s with hmk := { s.hmk with lastEdge := none, extEdges := 0, extLost := true } }
      ((s.set HMK_STAT.ext_ok 0).set HMK_EVT.ext_lost 1).raise kHMK_EXT_LOST (srcOf 0x2A 0xFF) 0 0)

/-! ### Time outputs (11 R407, R408; 12 R434) -/

/-- The multiple of a period in µs that the count has passed in the last REFCLK_AON cycle (11 R407, R432). -/
def State.passed (s : State) (us : Nat) : Option Nat :=
  let p := 4000 * us
  if us ≠ 0 ∧ s.hmk.prev / p < s.now / p then some (s.now / p * p) else none

/-- PPS_OUT_PULSE: the output rises once for each multiple of its period that the count passes. -/
def execPpsOutPulse (s : State) : Host.Outcome State Fault Refusal :=
  .next (if s.ppsOn then
      match s.passed (s.get HMK_PPS_OUT.period_us) with
      | some m =>
        if s.hmk.ppsMark = some m then s
        else State.emit { s with hmk := { s.hmk with ppsMark := some m, ppsFall := some (s.clk + s.get HMK_PPS_OUT.width_ns) } } (.pin .ppsOut true)
      | none => s
    else s)

/-- HMK_TIMER_FIRE: the count has reached an enabled timer's time; it casts its votes. -/
def execHmkTimerFire (i : Fin 8) (s : State) : Host.Outcome State Fault Refusal :=
  .next (s.timerCheck i)

end Sys2Proof.Machine
end

