-- ==== Sys2Proof/Machine/Observe.lean ====
section
/-!
DEFINITION. Machine/Observe.lean: Assay snapshots and Tally counters (11 R422 to R432).
-/
namespace Sys2Proof.Machine

/-! ### Assay -/

/-- The register at a local-bus address as a capture stores it: no side effect, no record, and zero for what is off, unmapped or
no register (11 R423). -/
def State.asyRead (s : State) (addr : Nat) : Nat :=
  match if addr < 2 ^ 47 then s.regPlace (addr / 8 * 8) else .unmapped with
  | .reg r ix key => if s.domIsOff (((blockOf key).map (·.2)).getD 0) then 0 else s.regValue r ix key
  | _ => 0

/-- The valid entries of ASY_LIST: index and address. -/
def State.asyList (s : State) : List (Nat × Nat) :=
  s.regs.filterMap fun (a, w) =>
    if 0xE010000 ≤ a ∧ a < 0xE018000 ∧ bit w.toNat 63 then some ((a - 0xE010000) / 8, bf w.toNat 0 48) else none

/-- A trigger: a capture when armed, else a count; one of the cycle of the last capture is part of that capture, which reports the lowest
source code (11 R422 to R424). -/
def State.asyTrigger (s : State) (source : Nat) : State :=
  if !s.on ASY_STAT.armed then
    if s.hmk.capturedAt = some s.clk then s.set ASY_STAT.source (min source (s.get ASY_STAT.source))
    else s.bump ASY_CNT_MISSED.ev
  else
    let s := { s with hmk := { s.hmk with capturedAt := some s.clk } }
    let vals := s.asyList.map fun (i, a) => (i, s.asyRead a)
    let s := vals.foldl (fun s (i, v) => s.set (ASY_SNAP.value i) v) s
    let s := ((s.set ASY_STAT.armed 0).set ASY_CTL.arm 0).set ASY_STAT.captured 1
    let s := (s.set ASY_STAT.source source).set ASY_TIME.t s.stamp
    if s.on ASY_CFG.pin_out_en then State.emit { s with trigFall := some (s.clk + 100) } (.pin .trigOut true) else s

/-- The timed capture is taken (11 R422, R425). -/
def State.asyTimed (s : State) (late : Bool) : State :=
  let armed := s.on ASY_STAT.armed
  let s := (s.set ASY_AT.valid 0).asyTrigger 3
  if armed then s.setB ASY_STAT.late late else s

/-- ASSAY_ARM: the previous snapshot is discarded. -/
def execAssayArm (w : Writer) (s : State) : Host.Outcome State Fault Refusal :=
  .next (s.reaching w ASY_CTL.arm 1 fun s =>
    let s := { s with regs := s.regs.filter fun (a, _) => decide (a < 0xE020000 ∨ 0xE028000 ≤ a) }
    ((s.set ASY_STAT.armed 1).set ASY_CTL.arm 1).set ASY_STAT.captured 0)

/-- ASSAY_TRIGGER: source 0. -/
def execAssayTrigger (w : Writer) (s : State) : Host.Outcome State Fault Refusal :=
  .next (s.reaching w ASY_CTL.trigger 1 fun s =>
    s.asyTrigger 0)

/-- ASSAY_TRIG_IN_EDGE: source 1. -/
def execAssayTrigInEdge (s : State) : Host.Outcome State Fault Refusal :=
  .next (if s.on ASY_CFG.pin_in_en then s.asyTrigger 1 else s)

/-- ASSAY_AT_TIME: source 3. -/
def execAssayAtTime (s : State) : Host.Outcome State Fault Refusal :=
  .next (if s.on ASY_AT.valid ∧ 2 * s.get ASY_AT.t ≤ s.now then s.asyTimed false else s)

/-- Floods an ASSAY_AT once for each payload: over LOCAL and GLOBAL ports, and over time-enabled HALL ports when hall_flood = 1
(11 R425; 04 R146). -/
def State.asyFlood (s : State) (w : Nat) : State :=
  if s.boot.asyFloods.contains (w % 2, w / 2 * 2) then s
  else
    let s := { s with boot := { s.boot with asyFloods := s.boot.asyFloods ++ [(w % 2, w / 2 * 2)] } }
    let halls := if s.on ASY_CFG.hall_flood then (s.activeRole roleHall).filter fun p => s.on (HMK_PORT.hall_en p) else []
    (s.peerDevs (s.activeRole roleD0 ++ s.activeRole roleD1 ++ s.activeRole roleGlobal ++ halls)).foldl
      (fun s d => s.qsSend 6 d s.ep w) s

/-- Sets ASY_AT. -/
def State.asySet (s : State) (t : Nat) : State := (s.set ASY_AT.t (t / 2)).set ASY_AT.valid 1

/-- ASSAY_AT: the oldest such message delivered here (11 R425). -/
def execAssayAt (s : State) : Host.Outcome State Fault Refusal :=
  .next (match s.takeQs 6 with
    | none => s
    | some (a, s) =>
      let w := a.msg.payload; let t := w / 2 * 2
      if !s.on ASY_CFG.qs_en then s
      else if bit w 0 then
        if s.on ASY_AT.valid ∧ 2 * s.get ASY_AT.t = t then (s.set ASY_AT.valid 0).asyFlood w else s
      else if t ≤ s.now then (((s.asySet s.now).asyTimed true).raise kASY_LATE (srcOf 0x2C 0) 0 0).asyFlood w
      else if t ≤ s.now + 4000000000 then (s.asySet t).asyFlood w
      else s)

/-- A record that has reached the Clearing house, as Assay sees it (11 R422, R426). -/
def State.asyRecord (s : State) (r : Record) : State :=
  if !((List.range 4).any fun k => s.on (ASY_KIND.valid k) && s.get (ASY_KIND.kind k) == r.kind) then s
  else if !s.on ASY_CFG.kind_broadcast then s.asyTrigger 2
  else if s.on ASY_AT.valid then s
  else
    -- the message addressed to this device is served, and flooded, by ASSAY_AT (R425)
    let t := (r.time + s.get ASY_CFG.lead_us * 4000) % 2 ^ 64 / 2 * 2
    (s.asySet t).qsSend 6 s.ep s.ep t

/-! ### Tally -/

/-- TALLY_WRITE: the counter, or the half of it that the write covers, is set (00 R4; 11 R429). -/
def execTallyWrite (w : Writer) (i : Fin 1024) (part : Part) (v : Word) (s : State) : Host.Outcome State Fault Refusal :=
  .next (s.reaching w (TLY_CNT.reg i.val) (putPart part (s.word (TLY_CNT.reg i.val)).toNat v.toNat) fun s =>
    s.set (TLY_CNT.count i) (putPart part (s.get (TLY_CNT.count i)) v.toNat % 2 ^ 48))

/-- Copies every counter into TLY_LATCHED (11 R432). -/
def State.tallyLatch (s : State) : State :=
  let cur := s.regs.filterMap fun (a, w) => if 0xF000000 ≤ a ∧ a < 0xF002000 ∧ a % 8 = 0 then some ((a - 0xF000000) / 8, w.toNat) else none
  let s := { s with regs := s.regs.filter fun (a, _) => decide (a < 0xF008000 ∨ 0xF00A000 ≤ a) }
  (cur.foldl (fun s (i, v) => s.set (TLY_LATCHED.count i) (v % 2 ^ 48)) s).set TLY_LATCH_TIME.t s.stamp

/-- TALLY_LATCH_PERIOD: the count has reached a multiple of the period. -/
def execTallyLatchPeriod (s : State) : Host.Outcome State Fault Refusal :=
  .next (match s.passed (s.get TLY_LATCH_CTL.period_us) with
    | some m =>
      if s.hmk.tlyMark = some m then s else State.tallyLatch { s with hmk := { s.hmk with tlyMark := some m } }
    | none => s)

/-- TALLY_LATCH_NOW. -/
def execTallyLatchNow (w : Writer) (s : State) : Host.Outcome State Fault Refusal :=
  .next (s.reaching w TLY_LATCH_CTL.now 1 fun s =>
    s.tallyLatch)

end Sys2Proof.Machine
end

