-- ==== Sys2Proof/Machine/Clearing.lean ====
section
/-!
DEFINITION. Machine/Clearing.lean: the Clearing house: storing records, reactions, the host mirror, the flash summary (11 R410
to R420; 08 R306; 12 R459).
-/
namespace Sys2Proof.Machine

/-- The four words of a record (11 Table 11.1). -/
def recWords (r : Record) (phase : Nat) : List Nat :=
  [r.time % 2 ^ 64, r.addr % 2 ^ 64, r.src % 2 ^ 16 + r.kind % 2 ^ 16 * 2 ^ 16 + r.detail % m32 * m32,
   r.detail / m32 % 2 ^ 16 + (r.ep % 2 ^ 23 + r.sev % 16 * 2 ^ 23 + b2n r.lost * 2 ^ 27 + b2n r.tv * 2 ^ 28) * 2 ^ 16 + phase * 2 ^ 63]

/-- Writes the record's words into registers. -/
def State.setWords (s : State) (f : Nat → RF) (ws : List Nat) : State :=
  (List.range ws.length).foldl (fun s k => s.setWord (f k) (BitVec.ofNat 64 (ws.getD k 0))) s

/-- A record is stored in the ring, or lost (11 R414): the record as it then is, and the state. -/
def State.clhStore (s : State) (r : Record) : Record × State :=
  let prod := s.get CLH_PROD.prod
  let slot := prod % 4096
  if (tget s.clh.live slot).isNone then
    let r := { r with lost := s.clh.lostNext }
    let live := if r.sev < s.get CLH_CFG.auto_clear then s.clh.live else tput s.clh.live slot r.kind
    let s := { s with clh := { s.clh with lostNext := false, live } }
    (r, ((s.setWords (CLH_RING.reg slot) (recWords r 0)).set CLH_PROD.prod ((prod + 1) % m32)).bump CLH_CNT_RAISED.ev)
  else
    let old := s.get CLH_STAT.lost_sev
    let s := if old = 15 ∨ old < r.sev then s.set CLH_STAT.lost_sev r.sev else s
    (r, State.bump { s with clh := { s.clh with lostNext := true } } CLH_CNT_LOST.ev)

/-- The mirror copy of a record (11 R418). -/
def State.clhMirror (s : State) (r : Record) : State :=
  if !s.on CLH_MIRROR1.enable then s
  else
    let n := s.get CLH_MIRROR1.host_link
    let k := min 16 (max 6 (s.get CLH_MIRROR1.log2_entries))
    let m := s.get CLH_MIRROR2.prod
    if !s.hlPresent n ∨ !s.mayIssue n 0 ∨ 2 ^ k ≤ subMod m32 m (s.get CLH_MIRROR3.cons) then s.bump CLH_CNT_MIRROR_LOST.ev
    else
      let data := (recWords r (if m / 2 ^ k % 2 = 0 then 1 else 0)).flatMap (bytesOf 8)
      let w : HeldWrite := { fn := 0, addr := s.get CLH_MIRROR0.base / 32 * 32 + 32 * (m % 2 ^ k), data }
      (s.postHeld n w).set CLH_MIRROR2.prod ((m + 1) % m32)

/-- A record joins the flash queue (11 R419). -/
def State.flashQueue (s : State) (r : Record) : State :=
  if s.clh.flashQ.length < 64 then { s with clh := { s.clh with flashQ := s.clh.flashQ ++ [r] } }
  else s.bump CLH_CNT_FLASH_LOST.ev

/-- While power fails every record goes to the power-loss area while it has room (12 R459). -/
def State.lossWrite (s : State) (r : Record) : Bool × State :=
  if s.pwr.pwrfail ∧ s.pwr.lossArea.length < 64 then
    (true, State.emit { s with pwr := { s.pwr with lossArea := s.pwr.lossArea ++ [r] } } (.flash 0x02B80000 (recWords r 0)))
  else (false, s)

/-- The AER report of a record, on every present host link; a link that is down logs it and sends no message (08 R306; log entry 75). -/
def State.recordAer (s : State) (r : Record) : State :=
  let ns := s.presentHls
  let a := r.addr % 2 ^ 14
  if r.sev = 0 then (ns.filter fun n => s.on (HBI_AER_MAP.s0 n)).foldl (fun s n => s.aerCorrected n 0) s
  else if r.sev = 2 then
    if ns.contains (s.aHl a) then s.aerReport (s.aHl a) (s.aFn a) aerInternal false else s
  else if r.sev = 3 then (ns.filter fun n => s.on (HBI_AER_MAP.s3 n)).foldl (fun s n => s.aerCorrected n 0) s
  else if 4 ≤ r.sev then ns.foldl (fun s n => s.aerReport n 0 aerInternal (r.sev == 5)) s
  else s

/-- Whether a record names one account (11 R413). -/
def Record.account (r : Record) : Option Nat :=
  if bf r.addr 14 50 = 2 ^ 49 ∧ (r.kind = kNO_ACCOUNT ∨ r.kind = kCHARTER_MISMATCH ∨ r.kind = kNONCE_MISMATCH ∨ r.kind = kBOOK_MISS
      ∨ r.kind = kAPT_FAULT ∨ (kLDG_CTX_OVERLAP ≤ r.kind ∧ r.kind ≤ kLDG_SPILL_FULL) ∨ r.kind = kDOORBELL_SIZE
      ∨ r.kind = kRING_STOPPED ∨ r.kind = kEQ_FULL ∨ r.kind = kNOTIFY_OVERRUN) then some (r.addr % 2 ^ 14) else none

/-- The reactions of 11 Table 11.4 other than pin and throttle. -/
def State.clhReact (s : State) (r : Record) : State :=
  let react := s.get (CLH_REACT.react r.kind)
  let s := if bit react 0 then s.pf0Signal 0 else s
  let s := if bit react 1 then
      (match r.account with
       | some a => if s.aSt a = aACTIVE ∧ s.pwrState ≠ 2 then s.freezeAcct a else s
       | none => s)
    else s
  let s := if bit react 2 ∧ (r.src / 256 = 0x10 ∨ r.src / 256 = 0x11) then s.linkReset (r.src % 64) else s
  let s := if bit react 5 then s.clhMirror r else s
  let (lost, s) := s.lossWrite r
  if bit react 6 ∧ !lost then s.flashQueue r else s

/-- CLEARING_HOUSE_RECORD: the oldest record on its way reaches the Clearing house (11 R414 to R420). -/
def execClearingHouseRecord (s : State) : Host.Outcome State Fault Refusal :=
  .next (match s.clhIn with
    | [] => s
    | r :: rest =>
      let s := { s with clhIn := rest }
      if s.dom 1 = dOff then
        let old := s.get CLH_STAT.lost_sev
        let s := if old = 15 ∨ old < r.sev then s.set CLH_STAT.lost_sev r.sev else s
        let s := State.bump { s with clh := { s.clh with lostNext := true } } CLH_CNT_LOST.ev
        if r.sev = 5 then { s with boot := { s.boot with resetDue := s.boot.resetDue <|> some 2 } } else s
      else
        let (r, s) := s.clhStore r
        let s := ((s.clhReact r).recordAer r).asyRecord r
        let s := if r.sev = 5 then
            let s := s.setWords CLH_LAST_FATAL.reg (recWords r 0)
            { s with boot := { s.boot with resetDue := s.boot.resetDue <|> some 2 } }
          else s
        s.clhUpd)

/-- CLH_ACK_WRITE: records below the new index are cleared (11 R414, R417). -/
def execClhAckWrite (w : Writer) (v : Word) (s : State) : Host.Outcome State Fault Refusal :=
  let n := v.toNat % m32
  .next (s.reaching w CLH_ACK.ack n fun s =>
    let ack := s.get CLH_ACK.ack; let prod := s.get CLH_PROD.prod
    let s := { s with clh := { s.clh with latchHeld := false } }
    State.clhUpd (
    if subMod m32 prod ack < subMod m32 n ack then s
    else
      -- slots of indices from N to before CLH_PROD stay uncleared
      let keep := subMod m32 prod n
      let s := { s with clh := { s.clh with live := s.clh.live.filter fun (slot, _) => decide (subMod 4096 slot (n % 4096) < keep) } }
      let s := if n = prod then s.set CLH_STAT.lost_sev 15 else s
      (s.set CLH_ACK.ack n).intxAll))

/-- The flash summary with records appended; a full one first erases its oldest sector (11 R419; 14 Table 14.7). -/
def summaryAdd (l : List Record) (r : Record) : List Record := (if 16384 ≤ l.length then l.drop 4096 else l) ++ [r]

/-- FLASH_BATCH: every queued record is appended to the flash summary, or the write fails; none is started while power fails (11
R419; 12 R459). -/
def execFlashBatch (ok : Bool) (s : State) : Host.Outcome State Fault Refusal :=
  let q := s.clh.flashQ
  .next (if q = [] ∨ s.pwr.pwrfail then s
    else
      let s := { s with clh := { s.clh with flashQ := [] } }
      if ok then
        let s := { s with izg := { s.izg with summary := q.foldl summaryAdd s.izg.summary } }
        (s.bumpN CLH_CNT_FLASH.ev q.length).emit (.flash 0x02B00000 (q.flatMap fun r => recWords r 0))
      else s.raise kCLH_FLASH_FAIL (srcOf 0x2B 0) 0 0)

end Sys2Proof.Machine
end

