-- ==== Sys2Proof/Machine/Supply.lean ====
section
/-!
DEFINITION. Machine/Supply.lean: AVSBus, PMBus, power-good inputs, temperature, power failure and clocks (12 R452 to R463).
-/
namespace Sys2Proof.Machine

/-! ### AVSBus (12 R452 to R454) -/

/-- A failed request: the level stays, the rail holds for 1 ms, and a failed raise throttles (12 R452, R454). -/
def State.avsFail (s : State) (r target : Nat) : State :=
  let s := (s.set PWR_EVT.avs_fail 1)
  let s := { s with pwr := { s.pwr with avsHold := tput s.pwr.avsHold r (s.clk + 1000000) } }
  if s.get (PWR_AVS_STAT.level_mv r) < target then
    let s := s.raise kAVS_RAISE_FAIL (srcOf 1 0) 0 0
    State.throttleUpd { s with pwr := { s.pwr with avsFailRaise := addMem s.pwr.avsFailRaise r } }
  else s.raise kAVS_LOWER_FAIL (srcOf 1 0) 0 0

/-- Ends a rail's running request with a result; PWR_AVS_CTL shows it when it made the request. -/
def State.avsEnd (s : State) (r result : Nat) : State :=
  let s := if s.pwr.avsManual.contains r then (s.set PWR_AVS_CTL.result result).set PWR_AVS_CTL.done 1 else s
  { s with pwr := { s.pwr with avsBusy := tdel s.pwr.avsBusy r, avsManual := s.pwr.avsManual.filter (· != r) } }

/-- Whether a rail may be given a request now: none runs, and no hold does. -/
def State.avsFree (s : State) (r : Nat) : Bool :=
  (tget s.pwr.avsBusy r).isNone && decide (tcnt s.pwr.avsHold r ≤ s.clk)

/-- Sends a Voltage write; without SlaveAck 00b it fails at once (12 R452, Table 12.13). -/
def State.avsSend (s : State) (r target : Nat) (ack : Bool) : State :=
  let s := State.emit { s with pwr := { s.pwr with avsBusy := tput s.pwr.avsBusy r target } } (.avs r 0 target)
  if ack then s else (s.avsEnd r 2).avsFail r target

/-- The range of a rail's level, in mV (12 R453). -/
def avsRange (r : Nat) : Nat × Nat := if r = 0 then (700, 850) else (720, 780)

/-- AVS_REQUEST: a write of PWR_AVS_CTL with go = 1 (12 R453). Before Izger firmware runs no level is requested (13 R469): the request
ends BUSY (DESIGN CHOICE, log entry 118). -/
def execAvsRequest (w : Writer) (v : Word) (ack : Bool) (s : State) : Host.Outcome State Fault Refusal :=
  let r := bf v.toNat 0 1; let t := bf v.toNat 16 10
  .next (s.reaching w PWR_AVS_CTL.reg v.toNat fun s =>
    if !s.on PWR_AVS_CTL.done then s
    else
      let s := (s.set PWR_AVS_CTL.rail r).set PWR_AVS_CTL.target_mv t
      let (lo, hi) := avsRange r
      if s.on PWR_AVS_CFG.auto ∨ s.get TOP_BOOT_STAT.stage < 7 then s.set PWR_AVS_CTL.result 4
      else if t < lo ∨ hi < t then s.set PWR_AVS_CTL.result 3
      else if !s.avsFree r then s.set PWR_AVS_CTL.result 4
      else State.avsSend (State.set { s with pwr := { s.pwr with avsManual := addMem s.pwr.avsManual r } } PWR_AVS_CTL.done 0) r t ack)

/-- AVS_POLL: a Voltage read frame to a rail whose request runs, and the reading that answers it (12 R452). -/
def execAvsPoll (r : Fin 2) (mv : BitVec 10) (s : State) : Host.Outcome State Fault Refusal :=
  let m := mv.toNat
  .next (match tget s.pwr.avsBusy r with
    | none => s
    | some t =>
      let s := (s.emit (.avs r 1 0)).set (PWR_AVS_STAT.read_mv r) m
      if t ≤ m + 5 ∧ m ≤ t + 5 then
        let raise := decide (s.get (PWR_AVS_STAT.level_mv r) < t)
        let s := (s.set (PWR_AVS_STAT.level_mv r) t).avsEnd r 0
        if raise then
          State.throttleUpd { s with pwr := { s.pwr with avsFailRaise := s.pwr.avsFailRaise.filter (· != r.val) } }
        else s
      else s)

/-- AVS_TIMEOUT: 200 µs after the write without success (12 R452, R454). -/
def execAvsTimeout (r : Fin 2) (s : State) : Host.Outcome State Fault Refusal :=
  .next (match tget s.pwr.avsBusy r with
    | none => s
    | some t => (s.avsEnd r 1).avsFail r t)

/-- The device's choice of a level for a rail (12 R453): within its range, at most 5 mV down; none where the level stays. -/
def State.avsAuto (s : State) (r mv : Nat) (ack : Bool) : State :=
  let (lo, hi) := avsRange r
  let level := s.get (PWR_AVS_STAT.level_mv r)
  let t := min hi (max lo (max mv (level - 5)))
  if t = level ∨ !s.avsFree r then s else s.avsSend r t ack

/-- AVS_AUTO_PERIOD: what the monitors ask for is the command's operand (12 R453). AVSBus adjustment begins once firmware runs
(13 R469). -/
def execAvsAutoPeriod (mv0 mv1 : BitVec 10) (ack0 ack1 : Bool) (s : State) : Host.Outcome State Fault Refusal :=
  .next (if s.on PWR_AVS_CFG.auto ∧ 7 ≤ s.get TOP_BOOT_STAT.stage then
      (s.avsAuto 0 mv0.toNat ack0).avsAuto 1 mv1.toNat ack1
    else s)

/-! ### PMBus (12 R455) -/

def pmbVout : Nat := 0x8B
def pmbIout : Nat := 0x8C
def pmbTemp : Nat := 0x8D
def pmbStatus : Nat := 0x79

/-- A transaction that has failed twice raises PMB_FAIL. -/
def State.pmbFail (s : State) : State := (s.set PWR_EVT.pmb_fail 1).raise kPMB_FAIL (srcOf 1 0) 0 0

/-- A PMBus transaction, retried once where it fails: its last answer (12 R455). -/
def State.pmbRun (s : State) (addr cmd data : Nat) (x : PmbTry) : PmbAnswer × State :=
  let s := s.emit (.pmb addr cmd data)
  match x.first with
  | .ok v => (.ok v, s)
  | _ => (x.again, s.emit (.pmb addr cmd data))

/-- One telemetry value: stored, or the transaction failed. -/
def State.pmbRead (s : State) (k cmd : Nat) (f : RF) (x : PmbTry) : State :=
  let (ans, s) := s.pmbRun (s.get (PWR_PMB_DEV.addr k)) cmd 0 x
  match ans with
  | .ok v => s.set f (v % 2 ^ 16)
  | _ => s.pmbFail

/-- PMB_TELEMETRY_POLL. -/
def execPmbTelemetryPoll (k : Fin 8) (vout iout temp : PmbTry) (s : State) : Host.Outcome State Fault Refusal :=
  .next (if s.on (PWR_PMB_DEV.valid k) then
      ((s.pmbRead k pmbVout (PWR_PMB_TEL.vout_mv k) vout).pmbRead k pmbIout (PWR_PMB_TEL.iout_da k) iout).pmbRead k pmbTemp
        (PWR_PMB_TEL.temp_c k) temp
    else s)

/-- PMB_ALERT: STATUS_WORD of one listed regulator while PMB_ALERT_N is low. The detail holds the address and, above it, the
status (layout: log entry 61). -/
def execPmbAlert (k : Fin 8) (status : BitVec 16) (s : State) : Host.Outcome State Fault Refusal :=
  .next (if s.on (PWR_PMB_DEV.valid k) then
      let a := s.get (PWR_PMB_DEV.addr k)
      let s := s.emit (.pmb a pmbStatus 0)
      if status.toNat = 0 then s
      else (s.set PWR_EVT.pmb_alert 1).raise kPMB_ALERT (srcOf 1 0) 0 (a + status.toNat * 2 ^ 8)
    else s)

/-- PMB_COMMAND: PWR_PMB_CMD.go. -/
def execPmbCommand (w : Writer) (x : PmbTry) (s : State) : Host.Outcome State Fault Refusal :=
  let n := s.get PWR_PMB_CMD0.len; let data := s.get PWR_PMB_CMD1.data % 2 ^ (8 * n)
  let wr := s.on PWR_PMB_CMD0.write
  .next (s.reaching w PWR_PMB_CMD0.go 1 fun s =>
    if !s.on PWR_PMB_CMD0.done then s
    else
      let (ans, s) := s.pmbRun (s.get (PWR_PMB_DEV.addr (s.get PWR_PMB_CMD0.dev))) (s.get PWR_PMB_CMD0.code) (if wr then data else 0) x
      match ans with
      | .ok v =>
        let s := s.set PWR_PMB_CMD0.result 0
        if wr then s else s.set PWR_PMB_CMD1.data (v % 2 ^ (8 * min n 2))
      | .nak => (s.set PWR_PMB_CMD0.result 1).pmbFail
      | .timeout => (s.set PWR_PMB_CMD0.result 2).pmbFail
      | .badPec => (s.set PWR_PMB_CMD0.result 3).pmbFail)

/-- PMB_FAIL: a transaction of the device's own to a listed regulator has failed twice, whatever the command and the reason. -/
def execPmbFail (k : Fin 8) (_cmd : BitVec 8) (_why : Fin 3) (s : State) : Host.Outcome State Fault Refusal :=
  .next (if s.on (PWR_PMB_DEV.valid k) then s.pmbFail else s)

/-! ### Power failure (12 R456, R459, R460) -/

/-- The response to a fall of PWRFAIL_N: the flash queue goes to the power-loss area while it has room (12 R459). -/
def State.pwrfailStart (s : State) : State :=
  if s.pwr.pwrfail then s
  else
    let n := 64 - s.pwr.lossArea.length
    let q := s.clh.flashQ.take n
    let s := { s with pwr := { s.pwr with pwrfail := true, lossArea := s.pwr.lossArea ++ q },
                      clh := { s.clh with flashQ := s.clh.flashQ.drop n } }
    let s := if q = [] then s else s.emit (.flash 0x02B80000 (q.flatMap fun r => recWords r 0))
    ((s.bumpN CLH_CNT_FLASH.ev q.length).set PWR_EVT.pwrfail 1).raise kPWRFAIL (srcOf 1 0) 0 0

/-- Izger runs (13 R470). -/
def State.izgRuns (s : State) : Bool := !s.boot.por && !s.pwr.tripped && decide (7 ≤ s.get TOP_BOOT_STAT.stage)

/-- PWRFAIL: PWRFAIL_N falls. A fall before Izger runs is answered once it does (15 R541). -/
def execPwrfail (s : State) : Host.Outcome State Fault Refusal :=
  let s := { s with pwr := { s.pwr with pwrfailPin := true } }
  .next (if s.izgRuns then s.pwrfailStart else s)

/-- PWRFAIL_CLEAR: PWRFAIL_N has been high for 1 ms (12 R460). Domains that hold a vote and waited may wake (12 R462). -/
def execPwrfailClear (s : State) : Host.Outcome State Fault Refusal :=
  let was := s.pwr.pwrfail
  let s := { s with pwr := { s.pwr with pwrfailPin := false, pwrfail := false } }
  .next (if was then (s.set PWR_EVT.pwrfail_clear 1).evalAll else s)

/-- PG_LOST: a PG input falls while its EN output (0 EN_CORE, 1 EN_SDS, 2 EN_SRAM, 3 EN_HB) is high (12 R456). -/
def execPgLost (r : Fin 4) (s : State) : Host.Outcome State Fault Refusal :=
  .next (if s.boot.en.contains r.val then s.pwrfailStart.raise kPG_LOST (srcOf 1 0) 0 0 else s)

/-! ### Temperature (12 R457, R458) -/

/-- A temperature in °C. -/
def degC (t : BitVec 9) : Int := t.toInt

/-- The hottest sensor's reading is shown. -/
def State.tempShow (s : State) (sensor : Nat) (t : BitVec 9) : State :=
  (s.set PWR_TEMP.temp_c (trunc 16 (degC t))).set PWR_TEMP.sensor sensor

/-- THROTTLE: the hottest sensor reaches throttle_c. The throttle's other causes engage it as they arise. -/
def execThrottle (sensor : Fin 32) (temp : BitVec 9) (s : State) : Host.Outcome State Fault Refusal :=
  .next (if (s.get PWR_THERM.throttle_c : Nat) ≤ degC temp then
      let s := s.tempShow sensor temp
      (State.throttleUpd { s with pwr := { s.pwr with hot := true } }).alertUpd
    else s)

/-- THROTTLE_RELEASE: the hottest sensor falls to throttle_c − hyst. -/
def execThrottleRelease (sensor : Fin 32) (temp : BitVec 9) (s : State) : Host.Outcome State Fault Refusal :=
  .next (if degC temp ≤ (s.get PWR_THERM.throttle_c : Nat) - ((s.get PWR_THERM.hyst : Nat) : Int) then
      let s := s.tempShow sensor temp
      (State.throttleUpd { s with pwr := { s.pwr with hot := false } }).alertUpd
    else s)

/-- THERM_ALERT_N: the hottest sensor's reading crosses alert_c. -/
def execThermAlertN (sensor : Fin 32) (temp : BitVec 9) (s : State) : Host.Outcome State Fault Refusal :=
  let s := s.tempShow sensor temp
  .next (State.alertUpd { s with pwr := { s.pwr with alertHot := decide ((s.get PWR_THERM.alert_c : Nat) ≤ degC temp) } })

/-- Drives every EN_ output low. -/
def State.railsOff (s : State) : State :=
  let es := s.boot.en
  es.foldl (fun s e => s.emit (.pin (.en e) false)) { s with boot := { s.boot with en := [], railsUp := false, railStep := 0 } }

/-- The device is COLD: nothing outside AON keeps its state; links and host links are down (01 R23; 12 R458; 13 R464). What
stays is given by `keep`, a test on register addresses, and the power block's state `pwr`. -/
def State.cold (s : State) (keep : Nat → Bool) (pwr : Pwr) : State :=
  let z : State := {
    regs := s.regs.filter fun (a, _) => keep a
    clk := s.clk, freeCtr := s.freeCtr, nextId := s.nextId, out := s.out, pending := s.pending, pwr
    boot := { fuses := s.boot.fuses, railStep := 0, en := [] }
    izg := { bankValid := s.izg.bankValid, bankState := s.izg.bankState, bankGen := s.izg.bankGen, bankSvn := s.izg.bankSvn,
             bankTries := s.izg.bankTries, bankSeq := s.izg.bankSeq, bankSec := s.izg.bankSec, summary := s.izg.summary, repairMap := s.izg.repairMap,
             selfTest := [] } }
  let os := s.get TOP_STATE.svc_state; let op := s.get TOP_STATE.pwr_state
  let z := (z.set TOP_STATE.svc_state 0).set TOP_STATE.pwr_state 3
  let z := if os = 0 then z
    else ((z.set TOP_STATE_TIME.last_change s.stamp).event TOP_STATE_EVT.pwr_change 1).stateChange os 0 op op |>.stateChange 0 0 op 3
  (List.range 64).foldl (fun s d => if d = 0 ∨ !isDomain d then s else s.setDom d dOff) z

/-- THERMAL_TRIP: a sensor reads 130 °C or more for 1 µs (12 R458). -/
def execThermalTrip (sensor : Fin 32) (temp : BitVec 9) (s : State) : Host.Outcome State Fault Refusal :=
  .next (if degC temp < 130 ∨ s.boot.por ∨ s.pwr.tripped then s
    else
      let s := ((s.set PWR_TRIP.valid 1).set PWR_TRIP.sensor sensor).set PWR_TRIP.temp_c (trunc 16 (degC temp))
      let s := (s.set PWR_TRIP_TIME.t s.stamp).railsOff
      let low := s.clh.latch; let hmk := s.hmk
      let s := s.cold (fun a => decide (0x100000 ≤ a ∧ a < 0x300000 ∨ 0xC000000 ≤ a ∧ a < 0xD000000))
        { lossArea := s.pwr.lossArea, tripped := true, tripNew := true, pwrfailPin := s.pwr.pwrfailPin }
      let s := State.alertUpd { s with hmk, clh := { s.clh with latch := low } }
      s.faultUpd)

/-! ### Clocks (12 R463) -/

/-- SDS_REFCLK_LOST: a tile's reference clock stops. -/
def execSdsRefclkLost (t : Fin 8) (s : State) : Host.Outcome State Fault Refusal :=
  let s := s.raise kSDS_REFCLK_LOST (srcOf 2 t) 0 0
  .next (((tilePorts (8 + t.val)).filter s.active).foldl (fun s p => s.linkDown p 4) s)

/-- PLL_UNLOCK: a running core, engine or Izger PLL (the record's instance) loses lock. -/
def execPllUnlock (pll : Fin 3) (s : State) : Host.Outcome State Fault Refusal :=
  .next (if s.boot.por ∨ s.pwr.tripped ∨ s.get TOP_BOOT_STAT.stage ≤ 2 then s else s.raise kPLL_UNLOCK (srcOf 2 pll) 0 0)

end Sys2Proof.Machine
end

