-- ==== Sys2Proof/Machine/Boot.lean ====
section
/-!
DEFINITION. Machine/Boot.lean: resets and the ROM boot (13 R464 to R473; 14 R494, R498 to R501, R506, R507, R515).
-/
namespace Sys2Proof.Machine

/-! ### Bank control (14 R506, R507) -/

/-- The bytes of the current bank-control record. -/
def bankBytes (z : Izg) : List Nat :=
  let b (n v : Nat) : List Nat := (bytesOf n v).map (·.toNat)
  let l := "KFNBANK1".toList.map (·.toNat) ++ b 4 z.bankSeq ++ z.bankState.flatMap (b 1) ++ b 1 z.bankTries ++ [0]
    ++ z.bankGen.flatMap (b 4) ++ z.bankSvn.flatMap (b 1)
  let l := l ++ List.replicate (60 - l.length) 0
  l ++ b 4 (crc32c (l.map (BitVec.ofNat 8)))

/-- Writes a new bank-control record, to the sector that does not hold the current one (14 R506). -/
def State.bankWrite (s : State) (f : Izg → Izg) : State :=
  let z := f s.izg
  let z := { z with bankValid := true, bankSeq := (z.bankSeq + 1) % m32 }
  let sec := 1 - s.izg.bankSec
  State.emit { s with izg := { z with bankSec := sec } } (.flash (65536 * sec) (bankBytes z))

def Izg.setBank (z : Izg) (b st : Nat) : Izg := { z with bankState := z.bankState.set b st }
def bkEMPTY : Nat := 0
def bkWRITING : Nat := 1
def bkREADY : Nat := 2
def bkPENDING : Nat := 3
def bkACTIVE : Nat := 4
def bkFALLBACK : Nat := 5

/-- The banks the ROM tries, best first (14 R507), less those it has rejected in this boot. -/
def State.bootBanks (s : State) : List Nat :=
  let st (b : Nat) : Nat := s.izg.bankState.getD b 0
  let order := if !s.izg.bankValid then [0, 1]
    else
      ([bkPENDING, bkACTIVE, bkFALLBACK, bkREADY].flatMap fun x => [0, 1].filter fun b => st b == x && (x != bkPENDING || s.izg.bankTries != 0))
  order.filter fun b => !bit s.boot.bootFault b

/-- Kinds of a signed envelope (14 Table 14.5). -/
def envFIRST : Nat := 1
def envMAIN : Nat := 2
def envSTORE : Nat := 3
def envPLAN : Nat := 4

/-! ### Signed objects (14 R498 to R501): an envelope of 320 bytes and its body (14 Table 14.5) -/

/-- The body. -/
def imgBody (b : List Byte) : List Byte := (b.drop 320).take (leAt b 16 4)
/-- The security version, of an image. -/
def imgSvn (b : List Byte) : Nat := leAt b 9 1
/-- The hand-over format, of a main image. -/
def imgFmt (b : List Byte) : Nat := leAt b 10 2
/-- The firmware generation. -/
def imgGen (b : List Byte) : Nat := leAt b 12 4
/-- The resident section of a main image: the part of its body that a firmware region takes. -/
def imgRes (b : List Byte) : List Byte := (imgBody b).take (leAt b 20 4)
/-- The digest that the envelope gives its body, which is its measurement, too (14 Table 14.6). -/
def imgMeas (b : List Byte) : Nat := leAt b 24 64

/-- The signature at offset `o` of a signed object verifies under the key just before it, over the first `n` bytes. -/
def imgSig (b : List Byte) (o n : Nat) : Bool := edVerify (leAt b (o - 32) 32) (b.take n) (leAt b o 64)

/-- A signed object of a kind verifies (14 R498 to R500). In MANUFACTURE and RMA, which Table 14.5a leaves out, what PROVISIONED asks for
(DESIGN CHOICE, log entry 103). -/
def State.envOk (s : State) (kind : Nat) (b : List Byte) : Bool :=
  b.take 8 == asciiBytes "KFNIMG01" && leAt b 8 1 == kind && decide (320 + leAt b 16 4 ≤ b.length)
    && (kind != envMAIN || decide (leAt b 20 4 ≤ 2 ^ 21))
    && BitVec.ofNat 512 (imgMeas b) == Config.sha512 (imgBody b)
    && (decide (envSTORE ≤ kind) || (s.boot.fuses.map (fun f => f.rootHash) == some (Config.sha512 (slice b 88 32)) && imgSig b 120 120))
    && (s.get SEC_LIFECYCLE.state != 2 || (s.ownerKey (slice b 184 32) && imgSig b 216 184))

/-- An image of a kind, as read, verifies (14 R500, R501). -/
def State.imageOk (s : State) (img : Option (List Byte)) (kind : Nat) : Bool :=
  match img with | some b => s.envOk kind b && decide (s.get SEC_LIFECYCLE.svn_floor ≤ imgSvn b) | none => false

def State.setMeas (s : State) (i v : Nat) : State :=
  (List.range 8).foldl (fun s w => s.set (SEC_MEAS.digest (i - 1) w) (bf v (64 * w) 64)) s

/-- Measurements 5 and 6 (14 Table 14.6), over what they cover: the spec gives no layout (log entry 63). -/
def State.measUpd (s : State) : State :=
  let owners := (List.range 4).flatMap fun k => (List.range 8).map fun w => s.get (SEC_OWNER_HASH.hash k w)
  let m5 := Config.measure 5 (s.get SEC_LIFECYCLE.reg :: owners)
  let m6 := Config.measure 6 [s.get SEC_LIFECYCLE.svn_floor, s.izg.svn1, s.get IZG_FW_STAT.svn]
  (s.setMeas 5 m5.toNat).setMeas 6 m6.toNat

/-- Enters recovery boot (13 R471). -/
def State.recover (s : State) (error : Nat) : State := (s.set TOP_BOOT_STAT.recovery 1).set TOP_BOOT_STAT.error error

/-- The chosen bank is rejected: the other is tried, or recovery boot begins (13 R471). -/
def State.bankReject (s : State) (b : Nat) : State :=
  let s := { s with boot := { s.boot with bootFault := orBit s.boot.bootFault b } }
  let s := s.set TOP_BOOT_STAT.stage 4
  if s.bootBanks = [] then s.recover 2 else s

/-- The parts of the Izger and staging partition, in KiB (14 Table 14.1): source message table; standing-order store; completion counters;
Ledger contexts, order cache and bin table; MG relay and receive stores; Clearing-house ring and flash queue; firmware regions 0 and 1;
working data. -/
def izgParts : List Nat := [1024, 4096, 512, 5632, 512, 256, 4096, 256]

/-! ### POR and the rails (13 R464, R466, R468, R469; 12 R458; 15 R541) -/

/-- Whether a register is kept across POR (13 Table 13.1). -/
def keptPor (a : Nat) : Bool := a == PWR_TRIP.reg.addr || a == PWR_TRIP_TIME.reg.addr

/-- POR_ASSERT: POR_N falls or VDD_AON is lost: COLD. PWR_TRIP is lost with VDD_AON alone (12 R458). -/
def execPorAssert (aonLost : Bool) (s : State) : Host.Outcome State Fault Refusal :=
  let lose (s : State) : State :=
    if aonLost then { s with regs := s.regs.filter fun (a, _) => !keptPor a, pwr := { s.pwr with tripNew := false } } else s
  .next (if s.boot.por then lose s
    else
      let s := (lose s).railsOff
      let s := if s.clh.latch then s.emit (.pin .faultN true) else s
      let s := if s.on PWR_TEMP.alert then s.emit (.pin .thermAlertN true) else s
      let s := s.cold keptPor { lossArea := s.pwr.lossArea, tripNew := s.pwr.tripNew, pwrfailPin := s.pwr.pwrfailPin }
      { s with boot := { s.boot with por := true } })

/-- POR_RELEASE: the straps are sampled (bit 0 STRAP_BOOT, 4:1 STRAP_HLSPLIT, 5 STRAP_SAFE), and the device is in BOOT, in the
first rail step. -/
def execPorRelease (straps : BitVec 6) (s : State) : Host.Outcome State Fault Refusal :=
  .next (if !s.boot.por then s
    else
      -- nothing that came while POR_N was low is kept
      let s := s.cold keptPor { lossArea := s.pwr.lossArea, tripNew := s.pwr.tripNew, pwrfailPin := s.pwr.pwrfailPin }
      let s := { s with regs := s.regs.filter fun (a, _) => keptPor a, boot := { s.boot with por := false, railStep := 1 }, clhIn := [] }
      let s := { s with izg := { s.izg with selfTest := [0, 1] } }
      -- both states change at once, the device state first (01 R32; DEDUCED, log entry 79)
      let s := ((s.event TOP_STATE_EVT.to_boot 1).stateChange 0 1 3 3).event TOP_STATE_EVT.pwr_change 1 |>.stateChange 1 1 3 0
      ((s.set TOP_STRAP.boot (bf straps.toNat 0 1)).set TOP_STRAP.hlsplit (bf straps.toNat 1 4)).set TOP_STRAP.safe (bf straps.toNat 5 1))

/-- The EN_ output that the end of a rail step raises: 0 EN_CORE, 1 EN_SDS, 2 EN_SRAM, 3 EN_HB. -/
def railEn (step : Nat) : Option Nat := if step = 1 then some 0 else if step = 2 then some 2 else if step = 3 then some 1 else if step = 4 then some 3 else none

/-- RAIL_POWER_GOOD: the power-good input that the step in progress waits for rises. -/
def execRailPowerGood (s : State) : Host.Outcome State Fault Refusal :=
  let k := s.boot.railStep
  .next (if s.boot.por ∨ k = 0 then s
    else
      match railEn k with
      | some e => State.emit { s with boot := { s.boot with railStep := k + 1, en := addMem s.boot.en e } } (.pin (.en e) true)
      | none => State.set { s with boot := { s.boot with railStep := 0, railsUp := true } } TOP_BOOT_STAT.stage 2)

/-- RAIL_TIMEOUT: the input has not risen within 10 ms. -/
def execRailTimeout (s : State) : Host.Outcome State Fault Refusal :=
  let k := s.boot.railStep
  .next (if s.boot.por ∨ k = 0 then s else (s.railsOff.set TOP_BOOT_STAT.error 1).set TOP_BOOT_STAT.fail_step k)

/-! ### The boot stages (13 R470 to R472) -/

/-- Whether boot is in a stage. -/
def State.inStage (s : State) (k : Nat) : Bool :=
  !s.boot.por && !s.pwr.tripped && s.boot.resetDue.isNone && s.boot.railsUp && s.get TOP_BOOT_STAT.stage == k

/-- BOOT_PLL_LOCK: the core, engine and Izger PLLs lock; Izger votes for every host port (13 R466). -/
def execBootPllLock (locked : Bool) (s : State) : Host.Outcome State Fault Refusal :=
  .next (if s.inStage 2 ∧ locked then [2, 3, 4, 5].foldl (fun s d => s.vote d 8 true) (s.set TOP_BOOT_STAT.stage 3) else s)

/-- FUSE_READ: the serial, the lifecycle state, the owner slots and the svn floor are known (14 R495). The model keeps what was
read first: fuses change only as this device programs them. The security nonce is random (14 R497). -/
def execFuseRead (fuses : Fuses) (s : State) : Host.Outcome State Fault Refusal :=
  .next (if !s.inStage 3 then s
    else
      let f := s.boot.fuses.getD fuses
      let s := { s with boot := { s.boot with fuses := some f, head := f.serial.toNat } }
      let s := (s.set SEC_SERIAL.serial f.serial.toNat).set SEC_LIFECYCLE.state f.lifecycle.toNat
      let s := ((s.set SEC_LIFECYCLE.owner_valid f.enrolled.toNat).set SEC_LIFECYCLE.owner_revoked f.revoked.toNat).set
        SEC_LIFECYCLE.svn_floor f.svnFloor.toNat
      let s := (List.range 4).foldl (fun s k => (List.range 8).foldl (fun s w =>
        s.set (SEC_OWNER_HASH.hash k w) (bf ((f.owner.getD k 0).toNat) (64 * w) 64)) s) s
      let (n, s) := s.free 64
      let s := (s.set SEC_NONCE.nonce n).set TOP_BOOT_STAT.stage 4
      if s.on TOP_STRAP.boot then s.recover 0 else if s.bootBanks = [] then s.recover 2 else s)

/-- A 32-byte seed: the first half of a SHA-512 (14 R494). -/
def seedOf (data : List Byte) : List Byte := (bytesOf 64 (Config.sha512 data).toNat).take 32

/-- The unique device secret, as the ROM reads it: not once it has been made unreadable, nor where a fuse blocks its reading (14 R494,
R495). -/
def State.uds (s : State) : Option (BitVec 256) :=
  if s.boot.udsHidden then none
  else match s.boot.fuses with
    | some f => if f.udsBlock then none else some f.uds
    | none => none

/-- The DevID seed, derived in PROVISIONED and OWNED while debug access has not been opened (14 R494, R495). -/
def State.devKey (s : State) : Option (List Byte) :=
  let life := s.get SEC_LIFECYCLE.state
  if (life = 1 ∨ life = 2) ∧ !s.on SEC_LIFECYCLE.debug_unlocked then s.uds.map fun u => seedOf (asciiBytes "KFN-DEVID" ++ bytesOf 32 u.toNat)
  else none

/-- JTAG debug access is open: in MANUFACTURE and RMA, and from an UNLOCK until POR (14 Table 14.3). Boundary scan works always. -/
def State.debugOpen (s : State) : Bool :=
  s.boot.fuses.isSome && (s.get SEC_LIFECYCLE.state == 0 || s.get SEC_LIFECYCLE.state == 3 || s.on SEC_LIFECYCLE.debug_unlocked)

/-- The Kofort manufacturing key, in the resident section that runs (14 R493). -/
def State.kofort (s : State) : BitVec 256 := Config.kofortKey (s.izg.region.getD s.izg.fwRegion [])

/-- Measurement `i`. -/
def State.meas (s : State) (i : Nat) : Nat := joinWords ((List.range 8).map fun w => s.get (SEC_MEAS.digest (i - 1) w))

/-- The alias seed is derived, from the DevID seed where that is held (14 R494, R509). -/
def State.aliasKey (s : State) : State :=
  let seed (d : List Byte) : List Byte := seedOf (asciiBytes "KFN-ALIAS" ++ d ++ bytesOf 64 (s.meas 1) ++ bytesOf 64 (s.meas 2))
  { s with izg := { s.izg with aliasSeed := s.izg.devSeed.map seed } }

/-- A first stage has verified: it runs; the ROM has derived the DevID key, and nothing reads the unique device secret from here on (14
R494). -/
def State.firstStage (s : State) (b : List Byte) : State :=
  let seed := if s.boot.udsHidden then s.izg.devSeed else s.devKey
  State.setMeas { s.set TOP_BOOT_STAT.stage 6 with
                  izg := { s.izg with svn1 := imgSvn b, devSeed := seed }, boot := { s.boot with udsHidden := true } } 1 (imgMeas b)

/-- Boot reads or verifies a first stage from flash: stages 0x4 and 0x5 (13 Table 13.3). -/
def State.firstWaits (s : State) : Bool := (s.inStage 4 || s.inStage 5) && !s.on TOP_BOOT_STAT.recovery

/-- Between two commands the first-stage image has been read from its bank, and its verification is in progress (13 Table 13.3; DESIGN
CHOICE, log entry 117). -/
def State.bootTick (s : State) : State := if s.firstWaits ∧ s.bootBanks ≠ [] then s.set TOP_BOOT_STAT.stage 5 else s

/-- FIRST_STAGE_VERIFY: the first-stage image of the chosen bank has been read and is verified (14 R507, R500; 13 R471). -/
def execFirstStageVerify (img : FlashRead) (s : State) : Host.Outcome State Fault Refusal :=
  .next (if !s.firstWaits then s
    else
      match s.bootBanks with
      | [] => s
      | b :: _ =>
        let s := if s.izg.bankValid ∧ s.izg.bankState.getD b 0 = bkPENDING then
            s.bankWrite fun z => { z with bankTries := z.bankTries - 1 } else s
        if s.imageOk img envFIRST then (s.set TOP_BOOT_STAT.bank b).firstStage (img.getD []) else s.bankReject b)

/-- RECOVERY_IMAGE_LOAD: a signed image comes through the recovery mailbox or MCTP, verifies and runs (13 R471). -/
def execRecoveryImageLoad (img : FlashRead) (s : State) : Host.Outcome State Fault Refusal :=
  .next (if s.inStage 4 ∧ s.on TOP_BOOT_STAT.recovery ∧ s.imageOk img envFIRST then s.firstStage (img.getD []) else s)

/-- A main image's resident section lies in a firmware region (14 R492, R499). -/
def Izg.load (z : Izg) (r : Nat) (b : List Byte) : Izg := { z with region := z.region.set r (imgRes b) }

/-- Main firmware has verified: it runs. A fall of PWRFAIL_N that came before is answered now (15 R541). -/
def State.mainFirmware (s : State) (img : List Byte) : State :=
  let b := s.get TOP_BOOT_STAT.bank; let rec' := s.on TOP_BOOT_STAT.recovery
  let s := ((s.set IZG_FW_STAT.bank b).set IZG_FW_STAT.svn (imgSvn img)).set IZG_FW_STAT.generation (imgGen img)
  let s := { s with izg := { s.izg.load s.izg.fwRegion img with fmt := imgFmt img } }
  let s := if s.izg.bankValid ∨ rec' then s
    else { s with izg := { s.izg.setBank b bkACTIVE with
                           bankGen := s.izg.bankGen.set b (imgGen img), bankSvn := s.izg.bankSvn.set b (imgSvn img) } }
  let s := s.setB IZG_FW_STAT.pending (s.izg.bankState.any (· == bkPENDING))
  let s := (((s.set TOP_BOOT_STAT.stage 7).setMeas 2 (imgMeas img)).measUpd).aliasKey
  if s.pwr.pwrfailPin then s.pwrfailStart else s

/-- MAIN_FIRMWARE_VERIFY: the first stage reads and verifies the main firmware; Izger then runs. A main image that fails rejects its
bank (log entry 64). -/
def execMainFirmwareVerify (img : FlashRead) (s : State) : Host.Outcome State Fault Refusal :=
  .next (if !s.inStage 6 then s
    else if s.imageOk img envMAIN then s.mainFirmware (img.getD [])
    else if s.on TOP_BOOT_STAT.recovery then s.set TOP_BOOT_STAT.stage 4
    else s.bankReject (s.get TOP_BOOT_STAT.bank))

/-! ### Provisioning (13 R470, R472, R474, R475; 14 R500, R515) -/

/-- The registers that the store sets (13 Table 13.3), other than Lockbox rules and reach claims. -/
def provRegs : List Nat :=
  [(HBI_LINK_CFG.reg 0).addr, (HBI_SUBSYS.reg 0).addr, (PRT_ROLE.reg 0).addr, RTE_CFG.reg.addr, TOP_BRINGUP_CFG.reg.addr]

/-- One register of the store. Loading is not held by IZG_LOCK (log entry 65). -/
def State.provWrite (s : State) (a v : Nat) : State :=
  match findReg a with
  | none => s
  | some (r, ix) =>
    let i := ix.headD 0
    let put (s : State) : State :=
      let rf := RF.whole a (r.rst.value ix)
      let w := r.fields.foldl (fun w (lo, len, acc) =>
        if (acc = .rw ∨ acc = .rwl) ∧ !s.fieldHeld r ix lo (bf v lo len) then accWrite .rw w v ((2 ^ len - 1) <<< lo) else w) (s.word rf).toNat
      s.setWord rf (BitVec.ofNat 64 (normWord r ix w v))
    if !s.rowPresent r ix then s
    else if provRegs.contains r.base then put s
    else if r.base = (LNK_REACH.reg 0).addr then s.reachWrite i (v % 8)
    else if r.base = (LBX_STAGE.reg 0 0).addr then
      let s := put s
      s.setWord (LBX_ACTIVE.reg i (ix.getD 1 0)) (s.word (LBX_STAGE.reg i (ix.getD 1 0)))
    else s

/-- The body of a cabling plan is one: magic, and a count of entries that it holds (13 Table 13.4; DESIGN CHOICE, log entry 103). -/
def planWell (b : List Byte) : Bool :=
  b.take 8 == asciiBytes "KFNPLAN1" && decide (1 ≤ leAt b 8 4 ∧ leAt b 8 4 ≤ 65536 ∧ 64 + 16 * leAt b 8 4 ≤ b.length)

/-- Its entries: serial and device endpoint. -/
def planEntries (b : List Byte) : List (Nat × Nat) :=
  (List.range (leAt b 8 4)).map fun i => (leAt b (64 + 16 * i) 8, leAt b (72 + 16 * i) 3 % 2 ^ 23)

/-- The cabling plan, by its body, gives the coordinates (13 R474, R475). -/
def State.planApply (s : State) (b : List Byte) : State :=
  let l := planEntries b; let n := leAt b 13 1
  let s := { s with boot := { s.boot with plan := some l } }
  let s := ((s.set RTE_CFG.n0_m1 (n % 16)).set RTE_CFG.n1_m1 (n / 16)).set RTE_CFG.halls_m1 (leAt b 15 1 % 16)
  let s := ((s.setB RTE_CFG.hall_ring (bit (leAt b 12 1) 4)).set RTE_CFG.hall (leAt b 12 1 % 16)).set TOP_BOOT_STAT.coord_src 1
  match tget l s.serial with
  | none => s
  | some e =>
    let s := ((s.set RTE_CFG.d0 (epD0 e)).set RTE_CFG.d1 (epD1 e)).set RTE_CFG.group (epGroup e)
    let s := State.groupsMark { s with boot := { s.boot with d0 := some (epD0 e), d1 := some (epD1 e) } } (leAt b 14 1 + 1)
    s.set TOP_BOOT_STAT.coords_fixed 1

/-- The repair map is applied again (14 R515). -/
def State.repairApply (s : State) : State :=
  let l := s.izg.repairMap
  let s := { s with izg := { s.izg with spared := l, repairQ := [] } }
  (List.range 24).foldl (fun s b => s.set (IZG_SRAM_SPARE.used b) (l.filter fun (x, _) => x == b).length) s

/-- PROVISIONING_APPLY: with STRAP_SAFE high, or a store that does not verify, nothing of it is applied. The DevID certificate is read
with it (14 Table 14.7). -/
def execProvisioningApply (prov : ProvRead) (s : State) : Host.Outcome State Fault Refusal :=
  .next (if !s.inStage 7 then s
    else
      let s := { s with izg := { s.izg with chain := prov.chain } }
      let s := s.repairApply.set TOP_BOOT_STAT.stage 8
      let b := prov.store.getD []
      if s.on TOP_STRAP.safe then s
      else if !s.envOk envSTORE b then s.raise kPROV_BAD (srcOf 4 0) 0 0
      else
        let s := prov.writes.foldl (fun s (a, v) => s.provWrite a.toNat v.toNat) s
        let s := { s with boot := { s.boot with prov := { ok := true, targets := prov.targets.foldl (fun t (x : PortNo × BitVec 4) => tput t x.1.val x.2.toNat) [] } } }
        let s := s.setMeas 3 (imgMeas b)
        match prov.plan with
        | none => s
        | some p => if s.envOk envPLAN p ∧ planWell (imgBody p) then (s.setMeas 4 (imgMeas p)).planApply (imgBody p) else s.raise kPLAN_BAD (srcOf 4 0) 0 0)

/-- A record as its four words hold it (11 Table 11.1). -/
def recOf (w : Nat → Nat) : Record :=
  let w2 := w 2; let w3 := w 3; let top := bf w3 16 32
  { kind := bf w2 16 16, sev := bf top 23 4, src := bf w2 0 16, addr := w 1, detail := bf w2 32 32 + bf w3 0 16 * m32, time := w 0,
    tv := bit top 28, ep := bf top 0 23, lost := bit top 27 }

/-- What Izger queues for the flash summary after a boot: the last S5 record, and a trip (11 R420; 12 R458). -/
def State.bootQueue (s : State) : State :=
  let last := recOf fun k => s.get (CLH_LAST_FATAL.word k)
  let s := if last.sev = 5 then s.flashQueue last else s
  if s.pwr.tripNew then
    let r : Record := { kind := kTHERM_TRIP, sev := 4, src := srcOf 1 0, detail := s.get PWR_TRIP.sensor, time := s.get PWR_TRIP_TIME.t,
                        tv := s.on HMK_STAT.valid, ep := s.epShown }
    State.flashQueue { s with pwr := { s.pwr with tripNew := false } } r
  else s

/-- BOOT_PORTS_RESET: the default tables are written, every provisioned port is reset, and the device enters REDUCED, and goes on
at once with no provisioned port (01 R23, R26; 04 R141; 13 R470, R475). -/
def execBootPortsReset (s : State) : Host.Outcome State Fault Refusal :=
  .next (if !s.inStage 8 ∨ s.get TOP_STATE.svc_state ≠ 1 then s
    else
      let s := s.writeTables
      let ps := ports64.filter s.provisioned
      let s := if s.boot.bootFault = 0 then s else s.raise kIMAGE_BAD (srcOf 4 0) 0 0
      let s := s.bootQueue.enterSvc 2
      let s := (s.presentHls.filter fun n => s.on (HBI_LINK_STAT.dl_up n) && !(s.hl n).ready).foldl State.hostReady s
      let s := ps.foldl State.startReset s
      if (ports64.filter s.provisioned).isEmpty then (s.enterSvc (if s.fullCond then 3 else 4)).settle else s.settle)

/-! ### The internal device reset (13 R467, Table 13.1) -/

/-- RESET_CTL_WRITE. -/
def execResetCtlWrite (w : Writer) (v : Word) (s : State) : Host.Outcome State Fault Refusal :=
  .next (s.reaching w TOP_RESET_CTL.reg v.toNat fun s =>
    if bf v.toNat 0 16 = 0xC0DE ∧ !s.boot.por ∧ !s.pwr.tripped then
      { s with boot := { s.boot with resetDue := s.boot.resetDue <|> some 3 } }
    else s)

/-- Registers that an internal device reset keeps, but for ACC_BIND (13 Table 13.1; 14 Tables 14.11, 14.15). -/
def keptReset (a : Nat) : Bool :=
  a == TOP_STATE_TIME.reg.addr || a == TOP_RESET_CAUSE.reg.addr || a == TOP_STRAP.reg.addr
    || (decide (0x100000 ≤ a ∧ a < 0x300000) && a != PWR_STATE_REQ.reg.addr) || a == IZG_LOCK.reg.addr
    || a == SEC_SERIAL.reg.addr || a == SEC_LIFECYCLE.reg.addr || decide ((SEC_OWNER_HASH.reg 0 0).addr ≤ a ∧ a < (SEC_MEAS.reg 0 0).addr)
    || decide (0xC000000 ≤ a ∧ a < 0xD000000) || decide ((CLH_LAST_FATAL.reg 0).addr ≤ a ∧ a < (CLH_RING.reg 0 0).addr)

/-- The ACC_BIND words after the reset: provisioning and allowances kept, every account REMOVED, every generation one on. -/
def bindKept (old : List (Nat × Word)) : List (Nat × Word) :=
  let get (rf : RF) : Word := (tget old rf.addr).getD (BitVec.ofNat 64 rf.rst)
  (List.range 16384).flatMap fun a =>
    let w1 := get (ACC_BIND1.reg a)
    let n1 := fldPut (fldPut w1 32 4 0) 16 16 ((bf w1.toNat 16 16 + 1) % 2 ^ 16)
    [(ACC_BIND0.reg a, get (ACC_BIND0.reg a)), (ACC_BIND1.reg a, n1), (ACC_BIND2.reg a, get (ACC_BIND2.reg a))].filterMap fun (rf, w) =>
      if w = BitVec.ofNat 64 rf.rst then none else some (rf.addr, w)

/-- The registers after the reset. -/
def State.resetRegs (s : State) : List (Nat × Word) :=
  let base := (ACC_BIND0.reg 0).addr
  let auto := s.regs.filterMap fun (a, w) =>
    -- PRT_LANE_EXCL.auto alone
    if 0x1008010 ≤ a ∧ a < 0x1408010 ∧ (a - 0x1008010) % 0x10000 = 0 ∧ w &&& 0xFF00 ≠ 0 then some (a, w &&& 0xFF00) else none
  let keep := s.regs.filter fun (a, _) => keptReset a
  let bind := bindKept (s.regs.filter fun (a, _) => decide (base ≤ a ∧ a < base + 0x80000))
  (keep.filter fun (a, _) => decide (a < 0x1000000)) ++ auto ++ bind ++ (keep.filter fun (a, _) => decide (base + 0x80000 ≤ a))

/-- The record of severity S5 that waits, if any, is kept and reported before the reset (11 R420; 08 Table 8.9). -/
def State.lastFatal (s : State) : State :=
  match s.clhIn.find? fun r => r.sev == 5 with
  | some r => ((s.setWords CLH_LAST_FATAL.reg (recWords r 0)).recordAer r)
  | none => s

/-- INTERNAL_DEVICE_RESET: every block outside AON is reset, and boot runs from the clock step. A record of severity S5 calls for it as
soon as it has been raised (01 R28). -/
def execInternalDeviceReset (s : State) : Host.Outcome State Fault Refusal :=
  .next (match s.boot.resetDue <|> (if s.stopping then some 2 else none) with
    | none => s
    | some cause =>
      -- after a rail has failed the device stays in BOOT until POR (13 R469)
      if s.boot.por ∨ s.pwr.tripped ∨ !s.boot.railsUp then s
      else
        let s := s.lastFatal
        let os := s.get TOP_STATE.svc_state; let op := s.get TOP_STATE.pwr_state
        let isHbDom (d : Nat) : Bool := isHb d
        let z : State := {
          regs := s.resetRegs, hmk := s.hmk
          clh := { latch := s.clh.latch, latchHeld := s.clh.latch }
          pwr := { s.pwr with dropping := [], retrying := [], wakeFrom := s.pwr.wakeFrom.filter fun (d, _) => isHbDom d }
          boot := { fuses := s.boot.fuses, en := s.boot.en, railsUp := true, railStep := 0 }
          izg := { bankValid := s.izg.bankValid, bankState := s.izg.bankState, bankGen := s.izg.bankGen, bankSvn := s.izg.bankSvn,
                   bankTries := s.izg.bankTries, bankSeq := s.izg.bankSeq, bankSec := s.izg.bankSec, summary := s.izg.summary, repairMap := s.izg.repairMap,
                   selfTest := [0, 1].filter fun p => !bit (s.get IZG_PAIR_STAT.failed) p, rows := s.izg.rows }
          wakeLow := s.wakeLow, clk := s.clk, freeCtr := s.freeCtr, nextId := s.nextId, out := s.out, pending := s.pending }
        let z := (z.set TOP_RESET_CAUSE.cause cause).set TOP_RESET_CAUSE.internal_count (min (s.get TOP_RESET_CAUSE.internal_count + 1) 65535)
        -- a pair out of service stays so until POR (14 R491)
        let out := s.get IZG_PAIR_STAT.failed
        let z := if out = 0 then z else ((z.set IZG_PAIR_STAT.failed out).set IZG_PAIR_STAT.standby_ok 0).setB IZG_PAIR_STAT.active (bit out 0)
        -- pins: PERST_N stays as it is
        let z := (List.range 8).foldl (fun z n => z.set (HBI_LINK_STAT.perst n) (s.get (HBI_LINK_STAT.perst n))) z
        let z := (List.range 64).foldl (fun z d => if isDomain d ∧ !isHbDom d then (z.setDom d dOn).set (PWR_DOM.step d) 0 else z) z
        let z := (((z.set TOP_STATE.svc_state os).set TOP_STATE.pwr_state op).set TOP_BOOT_STAT.stage 2).enterPwr 0
        let z := if os = 1 then (z.event TOP_STATE_EVT.to_boot 1).stateChange 1 1 0 0 else z.enterSvc 1
        ((List.range 8).foldl State.hostVotes z).activityUpd.clhUpd)

end Sys2Proof.Machine
end

