-- ==== Sys2Proof/Machine/Security.lean ====
section
/-!
DEFINITION. Machine/Security.lean: security commands, certificates, DOE, MCTP and SPDM (08 R322, R323; 14 R493 to R503).
-/
namespace Sys2Proof.Machine

/-! ### Security commands (14 R495 to R497) -/

/-- The blob in SEC_CMD_BUF (14 Table 14.4). -/
def State.secBlob (s : State) : List Byte := (List.range 24).flatMap fun w => bytesOf 8 (s.get (SEC_CMD_BUF.data w))

/-- The command code of the blob: 1 ENROLL, 2 REVOKE, 3 RAISE_FLOOR, 4 UNLOCK, 5 RMA; 0 for an unknown magic or code. -/
def State.secCode (s : State) : Nat :=
  let b := s.secBlob
  let c := leAt b 8 1
  if b.take 8 = asciiBytes "KFNSCMD1" ∧ c ≤ 5 then c else 0

/-- Ends a command with a result. -/
def State.secEnd (s : State) (result : Nat) : State :=
  let s := (s.set SEC_CMD.result result).set SEC_CMD.done 1
  if result = 0 then s else s.bump SEC_CNT_CMD_FAIL.ev

/-- The hash of an owner slot. -/
def State.ownerHash (s : State) (k : Nat) : Nat := joinWords ((List.range 8).map fun w => s.get (SEC_OWNER_HASH.hash k w))

/-- Slot `k` is enrolled and not revoked. -/
def State.ownerLive (s : State) (k : Nat) : Bool := bit (s.get SEC_LIFECYCLE.owner_valid) k && !bit (s.get SEC_LIFECYCLE.owner_revoked) k

/-- The blob's signature verifies under its signer's key, over bytes 0 to 127 (14 Table 14.4). -/
def secSigned (b : List Byte) : Bool := edVerify (leAt b 96 32) (b.take 128) (leAt b 128 64)

/-- The hash of the blob's signer. -/
def signerHash (b : List Byte) : Nat := (Config.sha512 (slice b 96 32)).toNat

/-- Whether the signer may give a command (14 R497, check 3). -/
def State.secAuth (s : State) (code : Nat) (viaMg : Bool) : Bool :=
  let b := s.secBlob; let h := signerHash b; let life := s.get SEC_LIFECYCLE.state
  if life = 1 ∧ code = 1 then h == leAt b 32 64 && !viaMg
  else if life = 2 then (List.range 4).any fun k => s.ownerLive k && s.ownerHash k == h
  else if life = 1 ∧ (code = 4 ∨ code = 5) then some h == s.boot.fuses.map fun f => f.rootHash.toNat
  else false

/-- The fuses' contents after a program: what the fuse-backed registers then show. -/
def State.fuseSync (s : State) : State :=
  let g : Fuses → Fuses := fun f =>
    { f with lifecycle := BitVec.ofNat 2 (s.get SEC_LIFECYCLE.state), enrolled := BitVec.ofNat 4 (s.get SEC_LIFECYCLE.owner_valid),
             revoked := BitVec.ofNat 4 (s.get SEC_LIFECYCLE.owner_revoked), svnFloor := BitVec.ofNat 6 (s.get SEC_LIFECYCLE.svn_floor),
             udsBlock := f.udsBlock || s.get SEC_LIFECYCLE.state == 3, owner := (List.range 4).map fun k => BitVec.ofNat 512 (s.ownerHash k) }
  State.measUpd { s with boot := { s.boot with fuses := s.boot.fuses.map g } }

/-- Runs a command of a code: the checks of 14 R497 in order. `special` is its own check, `fuses` whether it programs fuses, `act` its
effect. A blob of another code is not this command's. -/
def State.secRun (s : State) (c : SecCmd) (code : Nat) (special : List Byte → State → Option Nat) (fuses : Bool)
    (act : List Byte → State → State) : State :=
  s.reaching (c.via.getD none) SEC_CMD.go 1 fun s =>
    if !s.on SEC_CMD.done ∨ s.secCode ≠ code then s
    else
      let b := s.secBlob
      if leAt b 16 8 ≠ s.get SEC_SERIAL.serial then s.secEnd 1
      else if leAt b 24 8 ≠ s.get SEC_NONCE.nonce then s.secEnd 2
      else if !s.secAuth code c.via.isNone then s.secEnd 3
      else
        let (n, s) := s.free 64
        let s := s.set SEC_NONCE.nonce n
        if !secSigned b then s.secEnd 4
        else
          match special b s with
          | some r => s.secEnd r
          | none =>
            if fuses ∧ !c.fuseOk then (s.raise kFUSE_FAIL (srcOf 4 0) 0 0).secEnd 8 else (act b s).secEnd 0

/-- ENROLL: the slot takes the hash; the first one in PROVISIONED makes the device OWNED. -/
def execEnroll (cmd : SecCmd) (s : State) : Host.Outcome State Fault Refusal :=
  .next (s.secRun cmd 1
    (fun b s => if 3 < leAt b 9 1 ∨ bit (s.get SEC_LIFECYCLE.owner_valid) (leAt b 9 1) then some 5 else none) true
    fun b s =>
      let k := leAt b 9 1; let h := leAt b 32 64
      let s := (List.range 8).foldl (fun s w => s.set (SEC_OWNER_HASH.hash k w) (bf h (64 * w) 64)) s
      let s := (s.set SEC_LIFECYCLE.owner_valid (orBit (s.get SEC_LIFECYCLE.owner_valid) k)).emit (.fuse k h)
      (if s.get SEC_LIFECYCLE.state = 1 then (s.set SEC_LIFECYCLE.state 2).emit (.fuse 8 2) else s).fuseSync)

/-- REVOKE. -/
def execRevoke (cmd : SecCmd) (s : State) : Host.Outcome State Fault Refusal :=
  .next (s.secRun cmd 2
    (fun b s =>
      let k := leAt b 9 1
      if 3 < k ∨ !s.ownerLive k ∨ s.ownerHash k = signerHash b then some 5
      else if ((List.range 4).filter s.ownerLive).length ≤ 1 then some 6 else none) true
    fun b s =>
      let k := leAt b 9 1
      ((s.set SEC_LIFECYCLE.owner_revoked (orBit (s.get SEC_LIFECYCLE.owner_revoked) k)).emit (.fuse (4 + k) 1)).fuseSync)

/-- RAISE_FLOOR. -/
def execRaiseFloor (cmd : SecCmd) (s : State) : Host.Outcome State Fault Refusal :=
  .next (s.secRun cmd 3 (fun b s => if leAt b 32 1 ≤ s.get SEC_LIFECYCLE.svn_floor ∨ 63 < leAt b 32 1 then some 7 else none) true
    fun b s => ((s.set SEC_LIFECYCLE.svn_floor (leAt b 32 1)).emit (.fuse 9 (leAt b 32 1))).fuseSync)

/-- UNLOCK: debug access is open until POR, and the identity keys are destroyed (14 R495). It programs no fuse. -/
def execUnlock (cmd : SecCmd) (s : State) : Host.Outcome State Fault Refusal :=
  .next (s.secRun cmd 4 (fun _ _ => none) false
    fun _ s =>
      let s := { s with izg := { s.izg with devSeed := none, aliasSeed := none } }
      ((s.set SEC_LIFECYCLE.debug_unlocked 1).raise kUNLOCKED (srcOf 4 0) 0 0).measUpd)

/-- RMA: debug access is open, and a fuse blocks the reading of the unique device secret (14 Table 14.3). -/
def execRma (cmd : SecCmd) (s : State) : Host.Outcome State Fault Refusal :=
  .next (s.secRun cmd 5 (fun _ _ => none) true
    fun _ s => (((s.set SEC_LIFECYCLE.state 3).emit (.fuse 8 3)).emit (.fuse 10 1)).fuseSync)

/-- SECURITY_COMMAND_UNKNOWN. -/
def execSecurityCommandUnknown (cmd : SecCmd) (s : State) : Host.Outcome State Fault Refusal :=
  .next (s.reaching (cmd.via.getD none) SEC_CMD.go 1 fun s => if s.on SEC_CMD.done ∧ s.secCode = 0 then s.secEnd 1 else s)

/-! ### Certificates of neighbours (14 R502) -/

/-- CERT_REQ: the oldest one that Izger holds is answered on its port. -/
def execCertReq (s : State) : Host.Outcome State Fault Refusal :=
  .next (match s.takeMg 0x34 with
    | none => s
    | some (p, s) => if s.active p.port then s.sendOn p.port (s.mgPkt 0x35 (s.peer p.port) s.izg.chain) else s)

/-- Whether a CERT passes on a port: it chains to the Kofort manufacturing key, and its serial and public key are those of IDENT and
IDENT_SIG (14 R502). -/
def State.certPass (s : State) (i : Nat) (data : List Byte) : Bool :=
  let n := BitVec.ofNat 64 (s.get (LNK_PEER.serial i)); let k := BitVec.ofNat 256 (s.port i).peerKey
  data == Config.devidCert s.kofort n k || Config.certAlso s.kofort n k data

/-- CERT: the oldest one that Izger holds is checked. The cache holds the key itself for its hash. -/
def execCert (s : State) : Host.Outcome State Fault Refusal :=
  .next (match s.takeMg 0x35 with
    | none => s
    | some (p, s) =>
      let i := p.port; let q := s.port i
      if !s.active i ∨ !q.certWait then s
      else if s.certPass i p.data then
        let s := s.modPort i fun q => { q with certWait := false }
        let pair := (s.get (LNK_PEER.serial i), q.peerKey)
        State.settle { s with izg := { s.izg with certs := (pair :: s.izg.certs.filter (· != pair)).take 4096 } }
      else s.holdPort i 0x20)

/-- CERT_TIMEOUT: no valid CERT within 20 ms of ACTIVE. -/
def execCertTimeout (p : PortNo) (s : State) : Host.Outcome State Fault Refusal :=
  .next (if s.active p.val ∧ (s.port p.val).certWait then s.holdPort p.val 0x20 else s)

/-! ### DOE and MCTP (08 R322, R323; 14 R491) -/

/-- Whether Izger serves management requests: its firmware runs, or recovery boot is on. -/
def State.izgServes (s : State) : Bool := s.izgRuns || (s.recovering && !s.boot.por && !s.pwr.tripped)

/-- An answer of Izger: emitted with the kind 0 to 7 for a DOE mailbox, 24 for the management bus and 25 for the mailbox, which holds the
first 64 bytes (log entry 66). -/
def State.mgmtAnswer (s : State) (dst : MgmtTo) (data : List Nat) : State :=
  match dst with
  | .doe n => (State.modHl (s.emit (.mailbox n data)) n fun h => { h with doeInt := true }).pf0Signal 5
  | .vdm n req => s.emit (.vdm n req data)
  | .bus => s.emit (.mailbox 24 data)
  | .mailbox =>
    let b : List Byte := data.map (BitVec.ofNat 8)
    let s := (List.range 8).foldl (fun s k => s.set (IZG_MBOX_OUT.data k) (leAt b (8 * k) 8)) (s.emit (.mailbox 25 data))
    (s.set IZG_MBOX_CTL.to_host 1).pf0Signal 2

/-- DOE Error, and DOE Discovery (08 Table 8.14). -/
def doeError : List Nat := [0xFF]
def doeDiscovery : List Nat := [0x00, 0x01, 0x02]

/-- DOE_REQUEST: Discovery and what Table 8.14 does not list, of another Vendor ID or type, are answered; an SPDM object waits for its
SPDM command. -/
def execDoeRequest (n : HostLink) (vendor : BitVec 16) (typ : BitVec 8) (body : Bytes) (s : State) : Host.Outcome State Fault Refusal :=
  let i := n.val; let t := typ.toNat
  .next (if !s.fnExists i 0 ∨ !s.on (HBI_LINK_STAT.dl_up i) ∨ !s.izgServes ∨ (s.hl i).doe.isSome then s
    else if vendor ≠ 1 ∨ 2 < t ∨ 65536 < body.length then s.mgmtAnswer (.doe i) doeError
    else if t = 0 ∧ !s.izgHolds then s.mgmtAnswer (.doe i) doeDiscovery
    else s.modHl i fun h => { h with doe := some t })

/-- DOE_ABORT. -/
def execDoeAbort (n : HostLink) (s : State) : Host.Outcome State Fault Refusal := .next (s.modHl n.val fun h => { h with doe := none })

/-- An MCTP message reaches Izger: one that carries SPDM (type 5, or 6 secured) waits for its SPDM command; what Izger does with other
types the spec does not say (log entry 67). -/
def State.mctpTake (s : State) (from_ : MgmtTo) (t : Nat) : State :=
  if t = 5 ∨ t = 6 then { s with izg := { s.izg with mctpIn := s.izg.mctpIn ++ [{ typ := t, from_ }] } } else s

/-- MCTP_MESSAGE: in a vendor-defined message of PF0, or over the management bus. PF0 takes those of Vendor ID 0x1AB4; PF1 and the VFs
discard every one (08 R323). -/
def execMctpMessage (src : MctpFrom) (typ : BitVec 7) (_body : Bytes) (s : State) : Host.Outcome State Fault Refusal :=
  .next (if !s.izgServes then s
    else
      match src with
      | .vdm n fn vendor req =>
        if fn = 0 ∧ vendor = 0x1AB4 ∧ s.fnExists n.val 0 ∧ s.on (HBI_LINK_STAT.dl_up n.val) then s.mctpTake (.vdm n.val req.toNat) typ.toNat else s
      | .bus => s.mctpTake .bus typ.toNat)

/-- Izger reads its mailbox (14 Table 14.13). -/
def State.mboxRead (s : State) : State := (s.mctpTake .mailbox (s.get (IZG_MBOX_IN.data 0) % 128)).set IZG_MBOX_CTL.to_izg 0

/-- MBOX_TO_IZG: IZG_MBOX_CTL.to_izg is set; Izger reads the message, unless it holds requests (14 R509). -/
def execMboxToIzg (w : Writer) (s : State) : Host.Outcome State Fault Refusal :=
  .next (s.reaching w IZG_MBOX_CTL.to_izg 1 fun s =>
    let s := s.set IZG_MBOX_CTL.to_izg 1
    if s.izgHolds ∨ !s.izgServes then s else s.mboxRead)

/-! ### SPDM (14 R503); request order and response codes: DMTF DSP0274, log entry 68 -/

def chanOf (ch : SpdmChan) : Nat := match ch with | .doe n => n.val | .mctp => 8

def State.spdmConn (s : State) (c : Nat) : SpdmConn := (s.izg.spdm.find? (·.chan == c)).getD { chan := c }

def State.setConn (s : State) (x : SpdmConn) : State :=
  { s with izg := { s.izg with spdm := s.izg.spdm.filter (·.chan != x.chan) ++ [x] } }

/-- Takes the SPDM request in progress on a channel, a secured one where it belongs to a session: where its answer goes, and the state. -/
def State.spdmTake (s : State) (ch : SpdmChan) (secured : Bool) : Option (MgmtTo × State) :=
  if s.izgHolds then none
  else
    match ch with
    | .doe n =>
      if (s.hl n.val).doe = some (if secured then 2 else 1) then some (.doe n.val, s.modHl n.val fun h => { h with doe := none }) else none
    | .mctp =>
      (takeFirst (fun m : MctpMsg => m.typ == if secured then 6 else 5) s.izg.mctpIn).map fun (m, r) =>
        (m.from_, { s with izg := { s.izg with mctpIn := r } })

/-- An SPDM ERROR. -/
def spdmError : List Nat := [0x7F]

/-- Serves a request on a channel: `f` gives the answer and the connection after it, or nothing for an ERROR. -/
def State.spdm (s : State) (ch : SpdmChan) (secured : Bool) (need : Nat) (f : SpdmConn → State → Option (List Nat × SpdmConn × State)) : State :=
  match s.spdmTake ch secured with
  | none => s
  | some (dest, s) =>
    let x := s.spdmConn (chanOf ch)
    if x.negotiated < need then s.mgmtAnswer dest spdmError
    else
      match f x s with
      | none => s.mgmtAnswer dest spdmError
      | some (a, x, s) => (s.setConn x).mgmtAnswer dest a

/-- A signature by the alias key, over what the spec gives no bytes of: a free value; none without the key. -/
def State.aliasSign (s : State) : Option (Nat × State) := if s.izg.aliasSeed.isSome then some (s.free 512) else none

/-- The chain of slot 0, the Kofort root CA and the DevID certificate as the flash holds them and the alias certificate; without the
identity keys it ends in no alias certificate (14 R494, R503). -/
def State.slot0 (s : State) : List Byte :=
  s.izg.chain ++ match s.izg.devSeed, s.izg.aliasSeed with
    | some d, some a => Config.aliasCert d a
    | _, _ => []

/-- GET_VERSION: SPDM 1.2 and 1.3. -/
def execGetVersion (ch : SpdmChan) (s : State) : Host.Outcome State Fault Refusal :=
  .next (s.spdm ch false 0 fun x s => some ([0x04, 0x12, 0x13], { x with negotiated := 1 }, s))

/-- GET_CAPABILITIES: CERT, CHAL, MEAS with signature, MEAS_FRESH, KEY_EX, ENCRYPT, MAC, HBEAT, KEY_UPD. -/
def execGetCapabilities (ch : SpdmChan) (s : State) : Host.Outcome State Fault Refusal :=
  .next (s.spdm ch false 1 fun x s => some ([0x61] ++ [1, 2, 4, 5, 9, 6, 7, 13, 14], { x with negotiated := max x.negotiated 2 }, s))

/-- The algorithms that are chosen (14 Table 14.6), each by its bit in DMTF DSP0274: DMTF measurements, SHA-512 for them, EdDSA Ed25519,
SHA-512, secp384r1, AES-256-GCM. -/
def spdmAlgorithms : List Nat := [0x01, 0x08, 0x200, 0x04, 0x10, 0x02]

/-- NEGOTIATE_ALGORITHMS. -/
def execNegotiateAlgorithms (ch : SpdmChan) (s : State) : Host.Outcome State Fault Refusal :=
  .next (s.spdm ch false 2 fun x s => some (0x63 :: spdmAlgorithms, { x with negotiated := 3 }, s))

/-- GET_DIGESTS: slot 0 only. -/
def execGetDigests (ch : SpdmChan) (s : State) : Host.Outcome State Fault Refusal :=
  .next (s.spdm ch false 3 fun x s => some ([0x01, (Config.sha512 s.slot0).toNat], x, s))

/-- GET_CERTIFICATE: a portion of the chain of slot 0, with what remains after it. -/
def execGetCertificate (ch : SpdmChan) (slot : BitVec 4) (off len : BitVec 16) (s : State) : Host.Outcome State Fault Refusal :=
  .next (s.spdm ch false 3 fun x s =>
    let c := s.slot0; let part := (c.drop off.toNat).take len.toNat
    if slot ≠ 0 ∨ c.length < off.toNat then none
    else some (0x02 :: (c.length - off.toNat - part.length) :: part.map (·.toNat), x, s))

/-- CHALLENGE of slot 0. -/
def execChallenge (ch : SpdmChan) (slot : BitVec 4) (s : State) : Host.Outcome State Fault Refusal :=
  .next (s.spdm ch false 3 fun x s =>
    if slot ≠ 0 then none else s.aliasSign.map fun (g, s) => ([0x03, (Config.sha512 s.slot0).toNat, g], x, s))

/-- GET_MEASUREMENTS: the number of them (index 0), all six of Table 14.6 (0xFF), or one of them. -/
def execGetMeasurements (ch : SpdmChan) (slot : BitVec 4) (idx : BitVec 8) (s : State) : Host.Outcome State Fault Refusal :=
  let i := idx.toNat
  .next (s.spdm ch false 3 fun x s =>
    if slot ≠ 0 ∨ (6 < i ∧ i ≠ 0xFF) then none
    else
      s.aliasSign.map fun (g, s) =>
        (0x60 :: ((if i = 0 then [6] else if i = 0xFF then [1, 2, 3, 4, 5, 6].map s.meas else [s.meas i]) ++ [g]), x, s))

/-- The session of an identifier, if the connection has it. -/
def SpdmConn.sess? (x : SpdmConn) (id : Nat) : Option SpdmSess := x.sessions.find? (·.id == id)

/-- The connection without a session. -/
def SpdmConn.drop (x : SpdmConn) (id : Nat) : SpdmConn := { x with sessions := x.sessions.filter (·.id != id) }

/-- The connection with a session changed. -/
def SpdmConn.put (x : SpdmConn) (y : SpdmSess) : SpdmConn := { x with sessions := x.sessions.filter (·.id != y.id) ++ [y] }

/-- KEY_EXCHANGE: at most four sessions on a channel; the responder's half of the identifier and the keys that the exchange gives are free
values. -/
def execKeyExchange (ch : SpdmChan) (slot : BitVec 4) (req : BitVec 16) (s : State) : Host.Outcome State Fault Refusal :=
  .next (s.spdm ch false 3 fun x s =>
    if 4 ≤ x.sessions.length ∨ slot ≠ 0 then none
    else
      s.aliasSign.map fun (g, s) =>
        let (r, s) := s.free 16
        let (a, s) := s.free 256
        let (b, s) := s.free 256
        let id := req.toNat + r * 2 ^ 16
        ([0x64, id, g], x.put { id, reqKey := a, rspKey := b }, s))

/-- FINISH: the handshake completes, or the session ends. -/
def execFinish (ch : SpdmChan) (sess : BitVec 32) (ok : Bool) (s : State) : Host.Outcome State Fault Refusal :=
  .next (s.spdm ch true 3 fun x s =>
    match x.sess? sess.toNat with
    | some y =>
      if y.est then none
      else if ok then some ([0x65], x.put { y with est := true }, s)
      else some (spdmError, x.drop y.id, s)
    | none => none)

/-- What a request within an established session does. -/
def State.spdmIn (s : State) (ch : SpdmChan) (sess : BitVec 32) (f : SpdmConn → SpdmSess → State → Option (List Nat × SpdmConn × State)) : State :=
  s.spdm ch true 3 fun x s =>
    match x.sess? sess.toNat with
    | some y => if y.est then f x y s else none
    | none => none

/-- KEY_UPDATE: 1 the requester's key takes its next value, 2 both keys do, 3 the new key is verified; the values are free. -/
def execKeyUpdate (ch : SpdmChan) (sess : BitVec 32) (op : BitVec 8) (s : State) : Host.Outcome State Fault Refusal :=
  .next (s.spdmIn ch sess fun x y s =>
    if op = 3 then some ([0x69, 3], x, s)
    else if op = 1 ∨ op = 2 then
      let (a, s) := s.free 256
      let (b, s) := s.free 256
      some ([0x69, op.toNat], x.put { y with reqKey := a, rspKey := if op = 2 then b else y.rspKey }, s)
    else none)

/-- HEARTBEAT, in an established session. -/
def execHeartbeat (ch : SpdmChan) (sess : BitVec 32) (s : State) : Host.Outcome State Fault Refusal :=
  .next (s.spdmIn ch sess fun x _ s => some ([0x68], x, s))

/-- END_SESSION. -/
def execEndSession (ch : SpdmChan) (sess : BitVec 32) (s : State) : Host.Outcome State Fault Refusal :=
  .next (s.spdmIn ch sess fun x y s => some ([0x6C], x.drop y.id, s))

end Sys2Proof.Machine
end

