-- ==== Sys2Proof/Machine/Firmware.lean ====
section
/-!
DEFINITION. Machine/Firmware.lean: loading, activating and committing firmware (14 R506 to R511, R518).
-/
namespace Sys2Proof.Machine

/-- Whether the ROM or the first stage waits for an image, in recovery boot (13 R471). -/
def State.awaitsImage (s : State) : Bool := s.on TOP_BOOT_STAT.recovery && (s.inStage 4 || s.inStage 6)

/-- Whether IZG_FW_CTL takes a command: it is not running one, and Izger runs or recovery boot waits for an image. -/
def State.fwTakes (s : State) : Bool := s.on IZG_FW_CTL.done && (s.izgRuns || s.awaitsImage)

/-- IZG_FW_CTL's fields as a command writes them. -/
def State.fwCmd (s : State) (bank cmd : Nat) : State := (s.set IZG_FW_CTL.bank bank).set IZG_FW_CTL.cmd cmd

/-- A firmware command ends. -/
def State.fwEnd (s : State) (result : Nat) : State := (s.set IZG_FW_CTL.result result).set IZG_FW_CTL.done 1

/-- Bank states that R508 counts as bootable. -/
def bankLive (st : Nat) : Bool := st == bkPENDING || st == bkACTIVE || st == bkFALLBACK

/-- The state of a bank. -/
def State.bankSt (s : State) (b : Nat) : Nat := s.izg.bankState.getD b 0

/-- Whether the running firmware is the bank's: in recovery boot only once the bank has been activated or committed. -/
def State.bankRuns (s : State) (b : Nat) : Bool :=
  s.get IZG_FW_STAT.bank == b && (!s.on TOP_BOOT_STAT.recovery || s.bankSt b == bkPENDING || s.bankSt b == bkACTIVE)

/-- LOAD ends BANK: the bank is running, or is the only one that may boot (14 R508). -/
def State.bankHeld (s : State) (b : Nat) : Bool := s.bankRuns b || (bankLive (s.bankSt b) && !bankLive (s.bankSt (1 - b)))

/-- FW_LOAD: LOAD of IZG_FW_CTL. In recovery boot no flash is written. -/
def execFwLoad (w : Writer) (bank : Fin 2) (s : State) : Host.Outcome State Fault Refusal :=
  let b := bank.val
  .next (s.reaching w (IZG_FW_CTL.reg.sub 0 4) (b + 2) fun s =>
    if !s.fwTakes ∨ s.pwr.pwrfail then s
    else
      let s := s.fwCmd b 1
      let start (s : State) : State := State.set { s with izg := { s.izg with loading := some b } } IZG_FW_CTL.done 0
      if s.awaitsImage then start s
      else if s.bankHeld b then s.fwEnd 4
      else start (s.bankWrite fun z => z.setBank b bkWRITING))

/-- The result that an image's checks give a command: its read, R500 for the kinds that may stand there, R501; `none` when it
verifies. -/
def State.imageResult (s : State) (img : FlashRead) (kinds : List Nat) (unread : Nat) : Option Nat :=
  match img with
  | none => some unread
  | some b =>
    if !kinds.any (fun k => s.envOk k b) then some 2
    else if imgSvn b < s.get SEC_LIFECYCLE.svn_floor then some 3
    else none

/-- The kinds of image that a LOAD takes: in recovery boot the one that boot waits for, else either that a bank holds (14 Table 14.7;
DESIGN CHOICE, log entry 103). -/
def State.loadKinds (s : State) : List Nat := if s.awaitsImage then (if s.inStage 4 then [envFIRST] else [envMAIN]) else [envFIRST, envMAIN]

/-- FW_LOAD_DONE: the copy has ended; `flashOk` false when the flash could not be programmed. It waits while power fails (14 R518). -/
def execFwLoadDone (img : FlashRead) (flashOk : Bool) (s : State) : Host.Outcome State Fault Refusal :=
  .next (match s.izg.loading with
    | none => s
    | some b =>
      if s.pwr.pwrfail then s
      else
        let s := { s with izg := { s.izg with loading := none } }
        match s.imageResult img s.loadKinds 7 with
        | some r => s.fwEnd (if r ≠ 7 ∧ !flashOk ∧ !s.awaitsImage then 9 else r)
        | none =>
          if s.awaitsImage then (if s.inStage 4 then s.firstStage (img.getD []) else s.mainFirmware (img.getD [])).fwEnd 0
          else if !flashOk then s.fwEnd 9
          else
            (s.bankWrite fun z => { z.setBank b bkREADY with bankGen := z.bankGen.set b (imgGen (img.getD [])),
                                                             bankSvn := z.bankSvn.set b (imgSvn (img.getD [])) }).fwEnd 0)

/-- A main image supports the hand-over format of the running firmware: it has the same one, or declares it (14 R509; log entry 103). -/
def State.fmtOk (s : State) (b : List Byte) : Bool := imgFmt b == s.izg.fmt || Config.fmtAlso (imgBody b) s.izg.fmt

/-- FW_ACTIVATE: the standby pair loads and verifies the resident section of a READY bank, and the active pair then holds later
requests (14 R509, steps 1 and 2). -/
def execFwActivate (w : Writer) (bank : Fin 2) (img : FlashRead) (s : State) : Host.Outcome State Fault Refusal :=
  let b := bank.val
  .next (s.reaching w (IZG_FW_CTL.reg.sub 0 4) (b + 4) fun s =>
    if !s.fwTakes ∨ !s.izgRuns ∨ s.pwr.pwrfail then s
    else
      let s := s.fwCmd b 2
      if s.bankSt b ≠ bkREADY then s.fwEnd 8
      else if !s.on IZG_PAIR_STAT.standby_ok then s.fwEnd 5
      else
        match s.imageResult img [envMAIN] 9 with
        | some r => s.fwEnd r
        | none =>
          let d := img.getD []
          if !s.fmtOk d then s.fwEnd 6
          else
            let f : FwImg := { bank := b, gen := imgGen d, svn := imgSvn d, meas := imgMeas d, fmt := imgFmt d, res := imgRes d }
            State.set { s with izg := { s.izg with activating := some f } } IZG_FW_CTL.done 0)

/-- The active pair changes (14 R491). -/
def State.pairSwitch (s : State) : State :=
  (s.set IZG_PAIR_STAT.active (1 - s.get IZG_PAIR_STAT.active)).set IZG_PAIR_STAT.takeovers (min 255 (s.get IZG_PAIR_STAT.takeovers + 1))

/-- Requests held during a hand-over that are served at once: the mailbox, and DOE Discovery. The others have rows of their own. -/
def State.serveHeld (s : State) : State :=
  let s := if s.on IZG_MBOX_CTL.to_izg then s.mboxRead else s
  (List.range 8).foldl (fun s n =>
    if (s.hl n).doe = some 0 then (s.modHl n fun h => { h with doe := none }).mgmtAnswer (.doe n) doeDiscovery else s) s

/-- The new firmware takes over: 14 R509, steps 3 to 5. -/
def State.handover (s : State) (f : FwImg) : State :=
  let old := s.get IZG_PAIR_STAT.active
  let s := s.pairSwitch
  let r := 1 - s.izg.fwRegion
  let s := { s with izg := { s.izg with activating := none, fwRegion := r, region := s.izg.region.set r f.res, fmt := f.fmt, spdm := [],
                                        ckSpdm := [], pairFailed := false } }
  let s := ((s.set IZG_FW_STAT.bank f.bank).set IZG_FW_STAT.svn f.svn).set IZG_FW_STAT.generation f.gen
  let s := (s.set IZG_FW_STAT.pending 1).set IZG_FW_STAT.commit_blocked 0
  let s := (((s.setMeas 2 f.meas).measUpd).aliasKey).raise kFW_ACTIVATED (srcOf 3 (1 - old)) 0 0
  ((s.bankWrite fun z => { z.setBank f.bank bkPENDING with bankTries := 3 }).fwEnd 0).serveHeld

/-- FW_HANDOVER. -/
def execFwHandover (s : State) : Host.Outcome State Fault Refusal :=
  .next (match s.izg.activating with
    | some f => if s.pwr.pwrfail then s else s.handover f
    | none => s)

/-- A PENDING bank is committed (14 R510): the result, and the state. -/
def State.commitBank (s : State) (b : Nat) (fuseOk : Bool) : Nat × State :=
  if s.bankSt b ≠ bkPENDING then (8, s)
  else
    let s := s.bankWrite fun z => (z.setBank b bkACTIVE).setBank (1 - b) bkFALLBACK
    let s := (s.set IZG_FW_STAT.pending 0).set IZG_FW_STAT.commit_blocked 0
    let svn := s.izg.bankSvn.getD b 0
    if !s.on IZG_FW_CFG.auto_floor ∨ svn ≤ s.get SEC_LIFECYCLE.svn_floor then (0, s)
    else if !fuseOk then (0, s.raise kFUSE_FAIL (srcOf 4 0) 0 0)
    else (0, ((s.set SEC_LIFECYCLE.svn_floor svn).emit (.fuse 9 svn)).fuseSync)

/-- FW_COMMIT: COMMIT of IZG_FW_CTL. -/
def execFwCommit (w : Writer) (bank : Fin 2) (fuseOk : Bool) (s : State) : Host.Outcome State Fault Refusal :=
  .next (s.reaching w (IZG_FW_CTL.reg.sub 0 4) (bank.val + 6) fun s =>
    if !s.fwTakes ∨ !s.izgRuns ∨ s.pwr.pwrfail then s
    else
      match (s.fwCmd bank.val 3).commitBank bank.val fuseOk with
      | (r, s) => s.fwEnd r)

/-- FW_BAD_CMD: a command code that 14 Table 14.13 does not list ends with STATE. -/
def execFwBadCmd (w : Writer) (v : Word) (s : State) : Host.Outcome State Fault Refusal :=
  let cmd := bf v.toNat 1 3
  .next (s.reaching w (IZG_FW_CTL.reg.sub 0 4) (bf v.toNat 0 4) fun s =>
    if !s.fwTakes ∨ !bit v.toNat 62 ∨ (1 ≤ cmd ∧ cmd ≤ 3) then s else (s.fwCmd (bf v.toNat 0 1) cmd).fwEnd 8)

/-- AUTO_COMMIT: IZG_FW_CFG.commit_s of running the PENDING bank's firmware (14 R510). -/
def execAutoCommit (fuseOk : Bool) (s : State) : Host.Outcome State Fault Refusal :=
  let b := s.get IZG_FW_STAT.bank
  .next (if !s.izgRuns ∨ s.pwr.pwrfail ∨ s.izgHolds ∨ s.bankSt b ≠ bkPENDING then s
    else if s.izg.pairFailed then s.set IZG_FW_STAT.commit_blocked 1
    else (s.commitBank b fuseOk).2)

end Sys2Proof.Machine
end

