-- ==== Sys2Proof/Machine/Regs.lean ====
section
/-!
DEFINITION. Machine/Regs.lean: the commands that access registers (00 R6, R8, R9; 01 R13), and the registers of the ports, Power, Teller,
Ledger and Alloy whose writes are commands of their own (03 R89, R106; 05 R201, R202, R208; 06 R212 to R214; 07 R250; 12 R440, R451).
-/
namespace Sys2Proof.Machine

/-- REGISTER_WRITE: each field the write covers by its access type. Fields whose writes are commands of their own are left to
those commands. -/
def execRegisterWrite (a : Access) (v : BitVec 64) (s : State) : Host.Outcome State Fault Refusal := .next (s.regWrite a v.toNat)

/-- RC_READ: the value is returned and the RC fields it covers clear. -/
def execRcRead (a : Access) (s : State) : Host.Outcome State Fault Refusal := .next (s.regRead a)

/-- UNMAPPED_ACCESS: an access that does reach nothing, or is of the wrong size or alignment. -/
def execUnmappedAccess (a : Access) (write : Bool) (s : State) : Host.Outcome State Fault Refusal :=
  .next (if s.place a = .unmapped ∧ s.viaOk a then (if write then s.regWrite a 0 else s.regRead a) else s)

/-- DOMAIN_OFF_ACCESS: an access to a block whose domain is off. -/
def execDomainOffAccess (a : Access) (write : Bool) (s : State) : Host.Outcome State Fault Refusal :=
  .next (if s.place a ≠ .unmapped ∧ s.domIsOff (placeDom a (s.place a)) ∧ s.viaOk a then
      (if write then s.regWrite a 0 else s.regRead a)
    else s)

/-- IZG_LOCK_SET: the lock holds until POR. -/
def execIzgLockSet (w : Writer) (s : State) : Host.Outcome State Fault Refusal :=
  .next (s.reaching w IZG_LOCK.lock 1 fun s => s.set IZG_LOCK.lock 1)

/-! ### Registers whose writes are commands of their own. An operand `v` is the register's value as the write leaves it. -/

/-- LINK_RESET_WRITE: LNK_CTL.reset (03 R89). -/
def execLinkResetWrite (w : Writer) (p : PortNo) (s : State) : Host.Outcome State Fault Refusal :=
  .next (s.reaching w (LNK_CTL.reset p.val) 1 fun s => s.linkReset p.val)

/-- REACH_WRITE (03 R106). -/
def execReachWrite (w : Writer) (p : PortNo) (v : Word) (s : State) : Host.Outcome State Fault Refusal :=
  .next (s.reaching w (LNK_REACH.reg p.val) v.toNat fun s => s.reachWrite p v.toNat)

/-- PAD_RELEASE: a write of PWR_PAD_RELEASE (12 R451). -/
def execPadRelease (w : Writer) (v : Word) (s : State) : Host.Outcome State Fault Refusal :=
  .next (s.reaching w PWR_PAD_RELEASE.reg v.toNat fun s =>
    ((bitsOf 8 v.toNat).map (· + 8) ++ (bitsOf 4 (bf v.toNat 8 4)).map (· + 2)).foldl State.padRelease s)

/-- PWR_REQ_FULL. -/
def execPwrReqFull (w : Writer) (s : State) : Host.Outcome State Fault Refusal :=
  .next (s.reaching w PWR_STATE_REQ.req 0 fun s => (s.pwrResult 0 0).enterAwake 0)

/-- PWR_REQ_TRIM: at once; in BOOT, which Table 1.6 does not join with TRIM, it ends BUSY (log entry 21). -/
def execPwrReqTrim (w : Writer) (s : State) : Host.Outcome State Fault Refusal :=
  .next (s.reaching w PWR_STATE_REQ.req 1 fun s =>
    if s.get TOP_STATE.svc_state ≤ 1 then s.pwrResult 1 1 else ((s.pwrResult 1 0).enterAwake 1).activityUpd)

/-- PWR_REQ_VIGIL. -/
def execPwrReqVigil (w : Writer) (s : State) : Host.Outcome State Fault Refusal :=
  .next (s.reaching w PWR_STATE_REQ.req 2 fun s =>
    if s.get TOP_STATE.svc_state ≤ 1 ∨ s.vigilBusy then s.pwrResult 2 1
    else if s.pwrState = 2 then s.pwrResult 2 0
    else (s.pwrResult 2 0).enterVigil)

/-- PWR_REQ_BAD: a request of 11b. -/
def execPwrReqBad (w : Writer) (s : State) : Host.Outcome State Fault Refusal :=
  .next (s.reaching w PWR_STATE_REQ.req 3 fun s => s.pwrResult 3 2)

/-- KEY_INVAL: a write of TLR_KEY_INVAL (05 R201, R202). -/
def execKeyInval (w : Writer) (v : Word) (s : State) : Host.Outcome State Fault Refusal :=
  .next (s.reaching w TLR_KEY_INVAL.reg v.toNat fun s => s.keyInval v.toNat)

/-- RANK_INVAL: a write of TLR_RANK_INVAL (05 R202). -/
def execRankInval (w : Writer) (v : Word) (s : State) : Host.Outcome State Fault Refusal :=
  .next (s.reaching w TLR_RANK_INVAL.reg v.toNat fun s => s.rankInval v.toNat)

/-- COUNTER_WRITE: a write of TLR_CTR or of half of it, which fires every order its value satisfies (00 R4; 05 R208). -/
def execCounterWrite (w : Writer) (i : Fin 65536) (part : Part) (v : Word) (s : State) : Host.Outcome State Fault Refusal :=
  .next (s.reaching w (TLR_CTR.value i.val) (putPart part (s.get (TLR_CTR.value i.val)) v.toNat % 2 ^ 48) fun s =>
    let c := putPart part (s.get (TLR_CTR.value i.val)) v.toNat % 2 ^ 48
    ((s.set (TLR_CTR.value i.val) c).fireWhere fun o => o.ctr == i.val).activityUpd)

/-- CTX_RANGE_WRITE: a write of LDG_ACC_CTX[a] (06 R212). -/
def execCtxRangeWrite (w : Writer) (a : AcctNo) (v : Word) (s : State) : Host.Outcome State Fault Refusal :=
  .next (s.reaching w (LDG_ACC_CTX.reg a.val) v.toNat fun s => s.ctxRange a.val (bf v.toNat 0 16) (bf v.toNat 16 7))

/-- CTX_ENABLE: a write of LDG_CTX[k][0].enable = 1 (06 R213). -/
def execCtxEnable (w : Writer) (k : Fin 65536) (s : State) : Host.Outcome State Fault Refusal :=
  .next (s.reaching w (LDG_CTX0.enable k.val) 1 fun s => s.set (LDG_CTX0.enable k.val) 1)

/-- CTX_DISABLE: a write of LDG_CTX[k][0].enable = 0 (06 R214). -/
def execCtxDisable (w : Writer) (k : Fin 65536) (s : State) : Host.Outcome State Fault Refusal :=
  .next (s.reaching w (LDG_CTX0.enable k.val) 0 fun s =>
    if s.on (LDG_CTX0.enable k.val) then ((s.ctxClear k.val true).set (LDG_CTX0.enable k.val) 0).activityUpd else s)

/-- TREE_ACTIVATE: a write of ALY_TREE_CTL with cmd = activate (07 R250). -/
def execTreeActivate (w : Writer) (v : Word) (s : State) : Host.Outcome State Fault Refusal :=
  .next (s.reaching w ALY_TREE_CTL.reg v.toNat fun s => s.treeActivate v)

/-- TREE_DEACTIVATE: a write of ALY_TREE_CTL with cmd = deactivate (07 R250, R278). -/
def execTreeDeactivate (w : Writer) (v : Word) (s : State) : Host.Outcome State Fault Refusal :=
  .next (s.reaching w ALY_TREE_CTL.reg v.toNat fun s => s.treeDeactivate v)

end Sys2Proof.Machine
end

