-- ==== Sys2Proof/Machine/Service.lean ====
section
/-!
DEFINITION. Machine/Service.lean: Izger pairs, switch slices, SRAM repair, the management bus (14 R490, R491, R512 to R515,
R518; 15 R532).
-/
namespace Sys2Proof.Machine

/-! ### Izger pairs (14 R490, R491, R518) -/

/-- PAIR_CHECKPOINT: the standby pair receives the active pair's state. -/
def execPairCheckpoint (s : State) : Host.Outcome State Fault Refusal :=
  .next (if s.izgRuns ∧ s.on IZG_PAIR_STAT.standby_ok then
      { s with izg := { s.izg with ckSpdm := s.izg.spdm, ckCerts := s.izg.certs } }
    else s)

/-- The standby pair becomes active from the last checkpoint; requests in progress receive no answer (14 R491). -/
def State.takeover (s : State) : State :=
  let s := { s with izg := { s.izg with spdm := s.izg.ckSpdm, certs := s.izg.ckCerts, mctpIn := [] }
                    hls := s.hls.map fun (n, (h : Hl)) => (n, { h with doe := none }) }
  State.set s.pairSwitch IZG_MBOX_CTL.to_izg 0

/-- Whether a pair is in service: not failed, and not in the self-test after its failure. -/
def State.pairUp (s : State) (p : Nat) : Bool :=
  !bit (s.get IZG_PAIR_STAT.failed) p && s.izg.testing != some p
    && (p == s.get IZG_PAIR_STAT.active || s.on IZG_PAIR_STAT.standby_ok)

/-- A pair fails. During an ACTIVATE the standby pair holds the new image verified, and takes over with it; when it is the standby
pair that fails, the ACTIVATE ends NO_STANDBY (14 R491, R509, R518). Izger works from the end of the rail steps on. -/
def State.pairFail (s : State) (p : Nat) : State :=
  if s.boot.por ∨ s.pwr.tripped ∨ !s.boot.railsUp ∨ !s.pairUp p then s
  else
    let active := p == s.get IZG_PAIR_STAT.active
    let healthy := s.on IZG_PAIR_STAT.standby_ok
    let s := s.raise kIZG_LOCKSTEP (srcOf 3 p) 0 0
    let s := if active ∧ !healthy then { s with boot := { s.boot with resetDue := s.boot.resetDue <|> some 4 } }
      else
        let s := if active then
            (match s.izg.activating with
             | some f => s.handover f
             | none => s.takeover)
          else if s.izg.activating.isSome then (State.fwEnd { s with izg := { s.izg with activating := none } } 5).serveHeld
          else s
        State.set { s with izg := { s.izg with testing := some p } } IZG_PAIR_STAT.standby_ok 0
    { s with izg := { s.izg with pairFailed := true, watch := s.izg.watch.filter (· != p), selfTest := s.izg.selfTest.filter (· != p) } }

/-- IZG_LOCKSTEP: the cores of a pair disagree. -/
def execIzgLockstep (pr : Fin 2) (s : State) : Host.Outcome State Fault Refusal := .next (s.pairFail pr.val)

/-- WATCHDOG_EXPIRY. -/
def execWatchdogExpiry (pr : Fin 2) (s : State) : Host.Outcome State Fault Refusal :=
  .next (if s.izg.watch.contains pr.val then s.pairFail pr.val else s)

/-- WATCHDOG_KICK. -/
def execWatchdogKick (pr : Fin 2) (s : State) : Host.Outcome State Fault Refusal :=
  .next (if s.pairUp pr.val then { s with izg := { s.izg with watch := addMem s.izg.watch pr.val } } else s)

/-- PAIR_TAKEOVER: IZG_PAIR_CTL.takeover; the old active pair becomes the standby. -/
def execPairTakeover (w : Writer) (s : State) : Host.Outcome State Fault Refusal :=
  .next (s.reaching w IZG_PAIR_CTL.takeover 1 fun s =>
    if s.izgRuns ∧ s.on IZG_PAIR_STAT.standby_ok ∧ !s.izgHolds then s.takeover else s)

/-- PAIR_SELF_TEST_DONE: the self-test that follows a reset of the device, whose failure is a failure of the pair, or that after a
failure of the pair. -/
def execPairSelfTestDone (pr : Fin 2) (pass : Bool) (s : State) : Host.Outcome State Fault Refusal :=
  let p := pr.val
  .next (if s.izg.selfTest.contains p then
      let s := { s with izg := { s.izg with selfTest := s.izg.selfTest.filter (· != p) } }
      if pass then s else s.pairFail p
    else if s.izg.testing ≠ some p then s
    else
      let s := { s with izg := { s.izg with testing := none } }
      if pass then State.set { s with izg := { s.izg with watch := addMem s.izg.watch p } } IZG_PAIR_STAT.standby_ok 1
      else s.set IZG_PAIR_STAT.failed (orBit (s.get IZG_PAIR_STAT.failed) p))

/-! ### Switch slices (14 R512, R513, R518) -/

/-- `SL_k` is swapped out for the spare `p`, and is self-tested. -/
def State.sliceSwap (s : State) (k p : Nat) : State :=
  let s := { s with izg := { s.izg with sliceTest := some k } }
  let s := s.set IZG_SLICE_STAT.in_use (orBit (clrBit (s.get IZG_SLICE_STAT.in_use) k) p)
  let s := (s.set IZG_SLICE_STAT.spare 15).set IZG_SLICE_STAT.swaps (min 65535 (s.get IZG_SLICE_STAT.swaps + 1))
  s.raise kSLICE_SWAP (srcOf 3 (s.get IZG_PAIR_STAT.active)) 0 k

/-- A slice is marked failed. -/
def State.sliceFailed (s : State) (k : Nat) : State := s.set IZG_SLICE_STAT.failed (orBit (s.get IZG_SLICE_STAT.failed) k)

/-- SLICE_FAULT: a slice becomes faulty. -/
def execSliceFault (i : Fin 9) (s : State) : Host.Outcome State Fault Refusal :=
  let k := i.val; let p := s.get IZG_SLICE_STAT.spare
  .next (if p = k then (s.sliceFailed k).set IZG_SLICE_STAT.spare 15
    else if !bit (s.get IZG_SLICE_STAT.in_use) k then s
    else if p < 9 then s.sliceSwap k p
    else
      let s := (s.sliceFailed k).set IZG_SLICE_STAT.in_use (clrBit (s.get IZG_SLICE_STAT.in_use) k)
      (s.raise kSLICE_LOST (srcOf 3 (s.get IZG_PAIR_STAT.active)) 0 k).settle)

/-- SLICE_SELF_TEST: the self-test of the slice last swapped out ends, or that of the spare. -/
def execSliceSelfTest (pass : Bool) (s : State) : Host.Outcome State Fault Refusal :=
  let p := s.get IZG_SLICE_STAT.spare
  .next (match s.izg.sliceTest with
    | some k =>
      let s := { s with izg := { s.izg with sliceTest := none } }
      if pass then s.set IZG_SLICE_STAT.spare k else s.sliceFailed k
    | none => if p < 9 ∧ !pass then (s.sliceFailed p).set IZG_SLICE_STAT.spare 15 else s)

/-- SLICE_SWAP_CMD: a write of IZG_SLICE_CTL. -/
def execSliceSwapCmd (w : Writer) (v : Word) (s : State) : Host.Outcome State Fault Refusal :=
  let k := bf v.toNat 0 4
  .next (s.reaching w IZG_SLICE_CTL.reg v.toNat fun s =>
    let p := s.get IZG_SLICE_STAT.spare
    let s := s.set IZG_SLICE_CTL.slice k
    if !bit v.toNat 62 then s
    else if 9 ≤ p then s.set IZG_SLICE_CTL.result 1
    else if 9 ≤ k ∨ !bit (s.get IZG_SLICE_STAT.in_use) k then s.set IZG_SLICE_CTL.result 2
    else (s.sliceSwap k p).set IZG_SLICE_CTL.result 0)

/-! ### SRAM repair (14 R514, R515) -/

/-- The local-bus address of a word of an SRAM bank (01 R21). -/
def sramAddr (b row word : Nat) : Nat := 0x100000000 + b * 0x800000 + row * 1024 + word * 8

/-- A row is redirected to a spare; a row redirected before takes another. -/
def State.spareRow (s : State) (b row word : Nat) : State :=
  let used := s.get (IZG_SRAM_SPARE.used b)
  if 64 ≤ used then s
  else
    let s := s.set (IZG_SRAM_SPARE.used b) (used + 1)
    let s := { s with izg := { s.izg with spared := s.izg.spared ++ [(b, row)], repairQ := s.izg.repairQ ++ [(b, row)] } }
    let s := s.raise kSRAM_ROW_SPARED (srcOf 0x30 b) (sramAddr b row word) 0
    if used + 1 = 64 then s.raise kSRAM_SPARES_OUT (srcOf 0x30 b) 0 0 else s

/-- The corrected errors of a row since POR. -/
def State.rowCount (s : State) (b row : Nat) : Nat := ((s.izg.rows.find? fun (k, _) => k == (b, row)).map (·.2)).getD 0

/-- An uncorrectable error in a Vault bank stomps a packet whose flits it hits (02 R51). The spec does not say where a flit lies: a
free value takes a packet, or none, of the ports whose Vaults the bank holds: those of port `p` are in bank p / 16, and those of a
long-reach port or a hall relay in the banks of the reach pool, too (01 Table 1.3; DESIGN CHOICE, log entry 95). -/
def State.vaultError (s : State) (b : Nat) : State :=
  let near (p : Nat) : Bool := p / 16 == b
  let far (p : Nat) : Bool := decide (6 ≤ b ∧ b < 10) && (decide (0 < s.get (LNK_REACH.granted p)) || s.role p == roleHall)
  let hit := (ports64.filter fun p => near p || far p).flatMap fun p =>
    ((s.port p).vault.filter fun v => !v.bad && v.flits != []).map fun v => (p, v)
  let (n, s) := s.free 32
  match hit[n % (hit.length + 1)]? with
  | none => s
  | some (p, v) =>
    if v.whole then
      let t := tailFlit ((bf (v.flits.getLastD 0).toNat 0 32) ^^^ 0xFFFFFFFF) true
      (s.raise kSTOMP (srcOf 0x20 p) 0 0).modVault p v.id fun v => { v with bad := true, flits := v.flits.dropLast ++ [t] }
    else s.modVault p v.id fun v => { v with bad := true }

/-- An error that an access or the scrubber finds. -/
def State.sramError (s : State) (b row word : Nat) (bad : Bool) : State :=
  let s := s.raise (if bad then kSRAM_UE else kSRAM_CE) (srcOf 0x30 b) (sramAddr b row word) 0
  if bad then
    let s := if b < 4 ∨ (6 ≤ b ∧ b < 10) then s.vaultError b else s
    (s.set (IZG_SRAM_SPARE.uncorrectable b) (min 65535 (s.get (IZG_SRAM_SPARE.uncorrectable b) + 1))).spareRow b row word
  else
    let s := s.set (IZG_SRAM_SPARE.corrected b) (min 65535 (s.get (IZG_SRAM_SPARE.corrected b) + 1))
    let n := s.rowCount b row + 1
    let s := { s with izg := { s.izg with rows := (s.izg.rows.filter fun (k, _) => k != (b, row)) ++ [((b, row), n)] } }
    if n = max 1 (s.get IZG_SRAM_CFG.ce_limit) then s.spareRow b row word else s

/-- SRAM_ERROR: an access finds an error. -/
def execSramError (b : Fin 24) (row : Fin 8192) (word : Fin 128) (uncorrectable : Bool) (s : State) : Host.Outcome State Fault Refusal :=
  .next (s.sramError b.val row.val word.val uncorrectable)

/-- SRAM_SCRUB: the scrubber has read a bank, and found these errors. -/
def execSramScrub (b : Fin 24) (found : List (Fin 8192 × Fin 128 × Bool)) (s : State) : Host.Outcome State Fault Refusal :=
  .next (found.foldl (fun s (x : Fin 8192 × Fin 128 × Bool) => s.sramError b.val x.1.val x.2.1.val x.2.2) s)

/-- REPAIR_MAP_WRITE: the sparings not yet in the flash's repair map join it; a failed write leaves them for the next one. -/
def execRepairMapWrite (ok : Bool) (s : State) : Host.Outcome State Fault Refusal :=
  .next (if !s.izgRuns ∨ s.pwr.pwrfail ∨ s.izg.repairQ = [] ∨ !ok then s
    else
      let q := s.izg.repairQ
      State.emit { s with izg := { s.izg with repairMap := s.izg.repairMap ++ q, repairQ := [] } }
        (.flash 0x02B90000 (q.flatMap fun (b, r) => [b, r])))

/-- MGMT_BUS_TIMEOUT: the SMBus target releases the bus and resets its interface (15 R532). The model takes whole MCTP messages, so
no transfer in progress is lost. -/
def execMgmtBusTimeout (s : State) : Host.Outcome State Fault Refusal := .next s

end Sys2Proof.Machine
end

