-- ==== Sys2Proof/Machine/Dispatch.lean ====
section
/-!
DEFINITION. Machine/Dispatch.lean: one arm for each command, each a direct call of its meaning.
-/
namespace Sys2Proof.Machine

def exec (i : Instr) (s : State) : Host.Outcome State Fault Refusal :=
  match i with
  | .registerWrite a v => Sys2Proof.Machine.execRegisterWrite a v s
  | .rcRead a => Sys2Proof.Machine.execRcRead a s
  | .unmappedAccess a write => Sys2Proof.Machine.execUnmappedAccess a write s
  | .domainOffAccess a write => Sys2Proof.Machine.execDomainOffAccess a write s
  | .izgLockSet w => Sys2Proof.Machine.execIzgLockSet w s
  | .doorbellWrite a r v => Sys2Proof.Machine.execDoorbellWrite a r v s
  | .inlinePush a d => Sys2Proof.Machine.execInlinePush a d s
  | .eqConsumerDoorbell a q v => Sys2Proof.Machine.execEqConsumerDoorbell a q v s
  | .ringEnable a r => Sys2Proof.Machine.execRingEnable a r s
  | .ringDisable a r => Sys2Proof.Machine.execRingDisable a r s
  | .eqEnable a q => Sys2Proof.Machine.execEqEnable a q s
  | .eqDisable a q => Sys2Proof.Machine.execEqDisable a q s
  | .descriptorFetchComplete a r res => Sys2Proof.Machine.execDescriptorFetchComplete a r res s
  | .nop a from_ => Sys2Proof.Machine.execNop a from_ s
  | .fence a from_ => Sys2Proof.Machine.execFence a from_ s
  | .put a from_ hv => Sys2Proof.Machine.execPut a from_ hv s
  | .get a from_ hv => Sys2Proof.Machine.execGet a from_ hv s
  | .atomic a from_ hv => Sys2Proof.Machine.execAtomic a from_ hv s
  | .order a from_ hv => Sys2Proof.Machine.execOrder a from_ hv s
  | .send a from_ hv => Sys2Proof.Machine.execSend a from_ hv s
  | .recv a from_ hv => Sys2Proof.Machine.execRecv a from_ hv s
  | .recvProbe a from_ => Sys2Proof.Machine.execRecvProbe a from_ s
  | .recvCancel a from_ => Sys2Proof.Machine.execRecvCancel a from_ s
  | .recvOvf a from_ => Sys2Proof.Machine.execRecvOvf a from_ s
  | .coll a from_ hv => Sys2Proof.Machine.execColl a from_ hv s
  | .move a from_ hv => Sys2Proof.Machine.execMove a from_ hv s
  | .allowanceTurn n a => Sys2Proof.Machine.execAllowanceTurn n a s
  | .noticeWrite a => Sys2Proof.Machine.execNoticeWrite a s
  | .bind w v => Sys2Proof.Machine.execBind w v s
  | .accountReset w v => Sys2Proof.Machine.execAccountReset w v s
  | .remove w v => Sys2Proof.Machine.execRemove w v s
  | .freeze w v => Sys2Proof.Machine.execFreeze w v s
  | .thaw w v => Sys2Proof.Machine.execThaw w v s
  | .save w v => Sys2Proof.Machine.execSave w v s
  | .restore w v hv => Sys2Proof.Machine.execRestore w v hv s
  | .stub w v => Sys2Proof.Machine.execStub w v s
  | .accBadCmd w v => Sys2Proof.Machine.execAccBadCmd w v s
  | .sliceBind n v => Sys2Proof.Machine.execSliceBind n v s
  | .sliceReset n v => Sys2Proof.Machine.execSliceReset n v s
  | .sliceRemove n v => Sys2Proof.Machine.execSliceRemove n v s
  | .sliceFreeze n v => Sys2Proof.Machine.execSliceFreeze n v s
  | .sliceThaw n v => Sys2Proof.Machine.execSliceThaw n v s
  | .sliceSave n v => Sys2Proof.Machine.execSliceSave n v s
  | .sliceRestore n v hv => Sys2Proof.Machine.execSliceRestore n v hv s
  | .freezeQuiesced a => Sys2Proof.Machine.execFreezeQuiesced a s
  | .freezeBoundExpiry a => Sys2Proof.Machine.execFreezeBoundExpiry a s
  | .saveImageWritten hv => Sys2Proof.Machine.execSaveImageWritten hv s
  | .restoreImageLoaded hv areas => Sys2Proof.Machine.execRestoreImageLoaded hv areas s
  | .accountDrainEnd a => Sys2Proof.Machine.execAccountDrainEnd a s
  | .vfEnableSet n numVfs => Sys2Proof.Machine.execVfEnableSet n numVfs s
  | .vfEnableClear n => Sys2Proof.Machine.execVfEnableClear n s
  | .stubExpiry k => Sys2Proof.Machine.execStubExpiry k s
  | .stubCancel w k => Sys2Proof.Machine.execStubCancel w k s
  | .frameReceive p f rx => Sys2Proof.Machine.execFrameReceive p f rx s
  | .frameSend p => Sys2Proof.Machine.execFrameSend p s
  | .ackTimerExpiry p => Sys2Proof.Machine.execAckTimerExpiry p s
  | .errorWindowEnd p => Sys2Proof.Machine.execErrorWindowEnd p s
  | .signalLoss p l => Sys2Proof.Machine.execSignalLoss p l s
  | .linkResetWrite w p => Sys2Proof.Machine.execLinkResetWrite w p s
  | .resetEntryDone p => Sys2Proof.Machine.execResetEntryDone p s
  | .detectStable p signal txShort => Sys2Proof.Machine.execDetectStable p signal txShort s
  | .trainingSetReceive p l ts => Sys2Proof.Machine.execTrainingSetReceive p l ts s
  | .trainTimeout p => Sys2Proof.Machine.execTrainTimeout p s
  | .ident p => Sys2Proof.Machine.execIdent p s
  | .identSig p => Sys2Proof.Machine.execIdentSig p s
  | .equalizationDone p passed => Sys2Proof.Machine.execEqualizationDone p passed s
  | .param p => Sys2Proof.Machine.execParam p s
  | .creditSync p => Sys2Proof.Machine.execCreditSync p s
  | .creditSyncReq p => Sys2Proof.Machine.execCreditSyncReq p s
  | .creditSyncPeriod p => Sys2Proof.Machine.execCreditSyncPeriod p s
  | .heldProbe p pattern => Sys2Proof.Machine.execHeldProbe p pattern s
  | .resetLimitExpiry p => Sys2Proof.Machine.execResetLimitExpiry p s
  | .reachWrite w p v => Sys2Proof.Machine.execReachWrite w p v s
  | .cellReceive p c uncorrectable => Sys2Proof.Machine.execCellReceive p c uncorrectable s
  | .cellAckTimeout p => Sys2Proof.Machine.execCellAckTimeout p s
  | .quiet p => Sys2Proof.Machine.execQuiet p s
  | .quietAck p => Sys2Proof.Machine.execQuietAck p s
  | .quietTimeout p => Sys2Proof.Machine.execQuietTimeout p s
  | .quietRetry p => Sys2Proof.Machine.execQuietRetry p s
  | .quietSignalDetect p => Sys2Proof.Machine.execQuietSignalDetect p s
  | .wakeNoansTimeout p => Sys2Proof.Machine.execWakeNoansTimeout p s
  | .wakeExchangeRetry p => Sys2Proof.Machine.execWakeExchangeRetry p s
  | .forwardingDecision p c => Sys2Proof.Machine.execForwardingDecision p c s
  | .sampleFlushTimer => Sys2Proof.Machine.execSampleFlushTimer s
  | .hallRelayReinject => Sys2Proof.Machine.execHallRelayReinject s
  | .mgRelay => Sys2Proof.Machine.execMgRelay s
  | .multicastConsume => Sys2Proof.Machine.execMulticastConsume s
  | .fifelPacket => Sys2Proof.Machine.execFifelPacket s
  | .epochFlip => Sys2Proof.Machine.execEpochFlip s
  | .epochFlipTime => Sys2Proof.Machine.execEpochFlipTime s
  | .drainingEnd v => Sys2Proof.Machine.execDrainingEnd v s
  | .advert => Sys2Proof.Machine.execAdvert s
  | .qsMessageReceive => Sys2Proof.Machine.execQsMessageReceive s
  | .packetSend k hv => Sys2Proof.Machine.execPacketSend k hv s
  | .putPacketReceive hv => Sys2Proof.Machine.execPutPacketReceive hv s
  | .getReqServe hv => Sys2Proof.Machine.execGetReqServe hv s
  | .getRespReceive hv => Sys2Proof.Machine.execGetRespReceive hv s
  | .atomicReqReceive hv => Sys2Proof.Machine.execAtomicReqReceive hv s
  | .atomicRespReceive => Sys2Proof.Machine.execAtomicRespReceive s
  | .sendEagerReceive hv => Sys2Proof.Machine.execSendEagerReceive hv s
  | .sendRtsReceive hv => Sys2Proof.Machine.execSendRtsReceive hv s
  | .mgReceive => Sys2Proof.Machine.execMgReceive s
  | .receipt => Sys2Proof.Machine.execReceipt s
  | .e2eNak => Sys2Proof.Machine.execE2eNak s
  | .nakDelayExpiry k n hv => Sys2Proof.Machine.execNakDelayExpiry k n hv s
  | .cecho => Sys2Proof.Machine.execCecho s
  | .unreach hv => Sys2Proof.Machine.execUnreach hv s
  | .retransmitTimeout k hv => Sys2Proof.Machine.execRetransmitTimeout k hv s
  | .holeTimerExpiry src msg => Sys2Proof.Machine.execHoleTimerExpiry src msg s
  | .openEntryAbandon src msg => Sys2Proof.Machine.execOpenEntryAbandon src msg s
  | .filterExpiry src msg => Sys2Proof.Machine.execFilterExpiry src msg s
  | .cwndGrow k => Sys2Proof.Machine.execCwndGrow k s
  | .contextIdleReset k => Sys2Proof.Machine.execContextIdleReset k s
  | .requestHoldEnd => Sys2Proof.Machine.execRequestHoldEnd s
  | .flushReadReturn n ok => Sys2Proof.Machine.execFlushReadReturn n ok s
  | .keyInval w v => Sys2Proof.Machine.execKeyInval w v s
  | .rankInval w v => Sys2Proof.Machine.execRankInval w v s
  | .counterWrite w k part v => Sys2Proof.Machine.execCounterWrite w k part v s
  | .apertureLoad n fn off len tag hv => Sys2Proof.Machine.execApertureLoad n fn off len tag hv s
  | .apertureStore n fn off data hv => Sys2Proof.Machine.execApertureStore n fn off data hv s
  | .apertureTimeout n tag => Sys2Proof.Machine.execApertureTimeout n tag s
  | .ctxRangeWrite w a v => Sys2Proof.Machine.execCtxRangeWrite w a v s
  | .ctxEnable w k => Sys2Proof.Machine.execCtxEnable w k s
  | .ctxDisable w k => Sys2Proof.Machine.execCtxDisable w k s
  | .orderFillComplete k rank hv => Sys2Proof.Machine.execOrderFillComplete k rank hv s
  | .eagerCopyDone m hv => Sys2Proof.Machine.execEagerCopyDone m hv s
  | .spillDone k => Sys2Proof.Machine.execSpillDone k s
  | .returnStart k => Sys2Proof.Machine.execReturnStart k s
  | .returnDone k ok => Sys2Proof.Machine.execReturnDone k ok s
  | .treeActivate w v => Sys2Proof.Machine.execTreeActivate w v s
  | .treeDeactivate w v => Sys2Proof.Machine.execTreeDeactivate w v s
  | .collScheduledStart t n hv => Sys2Proof.Machine.execCollScheduledStart t n hv s
  | .collUpReceive => Sys2Proof.Machine.execCollUpReceive s
  | .collDnReceive => Sys2Proof.Machine.execCollDnReceive s
  | .alyReceipt => Sys2Proof.Machine.execAlyReceipt s
  | .segmentRetxTimer t edge down idx opseq => Sys2Proof.Machine.execSegmentRetxTimer t edge down idx opseq s
  | .alyToken => Sys2Proof.Machine.execAlyToken s
  | .tokenResendTimer t => Sys2Proof.Machine.execTokenResendTimer t s
  | .opTimeout t => Sys2Proof.Machine.execOpTimeout t s
  | .perstAssert n => Sys2Proof.Machine.execPerstAssert n s
  | .perstDeassert n => Sys2Proof.Machine.execPerstDeassert n s
  | .dlDown n => Sys2Proof.Machine.execDlDown n s
  | .hotReset n => Sys2Proof.Machine.execHotReset n s
  | .hostLinkUp n rate lanes flit => Sys2Proof.Machine.execHostLinkUp n rate lanes flit s
  | .functionLevelReset n fn => Sys2Proof.Machine.execFunctionLevelReset n fn s
  | .flrDrainEnd n fn => Sys2Proof.Machine.execFlrDrainEnd n fn s
  | .drainSquashTimer n fn => Sys2Proof.Machine.execDrainSquashTimer n fn s
  | .bmeClear n fn => Sys2Proof.Machine.execBmeClear n fn s
  | .bmeSet n fn => Sys2Proof.Machine.execBmeSet n fn s
  | .d3hotEnter n fn => Sys2Proof.Machine.execD3hotEnter n fn s
  | .d0Return n fn => Sys2Proof.Machine.execD0Return n fn s
  | .configRequest n fn dw be wr => Sys2Proof.Machine.execConfigRequest n fn dw be wr s
  | .unsupportedRequest n fn bar => Sys2Proof.Machine.execUnsupportedRequest n fn bar s
  | .hostCompletionReceive n fn tag cpl data => Sys2Proof.Machine.execHostCompletionReceive n fn tag cpl data s
  | .completionTimeout n fn tag => Sys2Proof.Machine.execCompletionTimeout n fn tag s
  | .quarantineExpiry n fn tag => Sys2Proof.Machine.execQuarantineExpiry n fn tag s
  | .translationCompletion n fn page res => Sys2Proof.Machine.execTranslationCompletion n fn page res s
  | .invalidateRequest n fn itag pasid all page pages => Sys2Proof.Machine.execInvalidateRequest n fn itag pasid all page pages s
  | .invalidateCompletion n itag => Sys2Proof.Machine.execInvalidateCompletion n itag s
  | .outboundAccess m addr write data poison len => Sys2Proof.Machine.execOutboundAccess m addr write data poison len s
  | .doeRequest n vendor typ body => Sys2Proof.Machine.execDoeRequest n vendor typ body s
  | .doeAbort n => Sys2Proof.Machine.execDoeAbort n s
  | .mctpMessage src typ body => Sys2Proof.Machine.execMctpMessage src typ body s
  | .moverGo ch starter hv => Sys2Proof.Machine.execMoverGo ch starter hv s
  | .moverAbort w ch => Sys2Proof.Machine.execMoverAbort w ch s
  | .channelGrant ch hv => Sys2Proof.Machine.execChannelGrant ch hv s
  | .moverComplete ch => Sys2Proof.Machine.execMoverComplete ch s
  | .lockboxCommit w m => Sys2Proof.Machine.execLockboxCommit w m s
  | .lockboxDrainDone m => Sys2Proof.Machine.execLockboxDrainDone m s
  | .hmkSyncPeriod edges => Sys2Proof.Machine.execHmkSyncPeriod edges s
  | .hmkSyncForm0 => Sys2Proof.Machine.execHmkSyncForm0 s
  | .hmkSyncForm1 => Sys2Proof.Machine.execHmkSyncForm1 s
  | .parentTimeout => Sys2Proof.Machine.execParentTimeout s
  | .form1AgeOut p => Sys2Proof.Machine.execForm1AgeOut p s
  | .ppsInEdge => Sys2Proof.Machine.execPpsInEdge s
  | .hmkExtLost => Sys2Proof.Machine.execHmkExtLost s
  | .hmkSet w => Sys2Proof.Machine.execHmkSet w s
  | .hmkSetAtPps w => Sys2Proof.Machine.execHmkSetAtPps w s
  | .ppsOutPulse => Sys2Proof.Machine.execPpsOutPulse s
  | .hmkTimerFire k => Sys2Proof.Machine.execHmkTimerFire k s
  | .clearingHouseRecord => Sys2Proof.Machine.execClearingHouseRecord s
  | .clhAckWrite w v => Sys2Proof.Machine.execClhAckWrite w v s
  | .flashBatch ok => Sys2Proof.Machine.execFlashBatch ok s
  | .assayArm w => Sys2Proof.Machine.execAssayArm w s
  | .assayTrigger w => Sys2Proof.Machine.execAssayTrigger w s
  | .assayTrigInEdge => Sys2Proof.Machine.execAssayTrigInEdge s
  | .assayAtTime => Sys2Proof.Machine.execAssayAtTime s
  | .assayAt => Sys2Proof.Machine.execAssayAt s
  | .tallyWrite w k part v => Sys2Proof.Machine.execTallyWrite w k part v s
  | .tallyLatchPeriod => Sys2Proof.Machine.execTallyLatchPeriod s
  | .tallyLatchNow w => Sys2Proof.Machine.execTallyLatchNow w s
  | .fmVote => Sys2Proof.Machine.execFmVote s
  | .wake => Sys2Proof.Machine.execWake s
  | .voteLeaseExpiry d wake => Sys2Proof.Machine.execVoteLeaseExpiry d wake s
  | .dropDelayExpiry d => Sys2Proof.Machine.execDropDelayExpiry d s
  | .wakeStepReady d => Sys2Proof.Machine.execWakeStepReady d s
  | .wakeFail d => Sys2Proof.Machine.execWakeFail d s
  | .wakeRetry d => Sys2Proof.Machine.execWakeRetry d s
  | .pwrReqFull w => Sys2Proof.Machine.execPwrReqFull w s
  | .pwrReqTrim w => Sys2Proof.Machine.execPwrReqTrim w s
  | .pwrReqVigil w => Sys2Proof.Machine.execPwrReqVigil w s
  | .pwrReqBad w => Sys2Proof.Machine.execPwrReqBad w s
  | .padRelease w v => Sys2Proof.Machine.execPadRelease w v s
  | .avsRequest w v ack => Sys2Proof.Machine.execAvsRequest w v ack s
  | .avsPoll r mv => Sys2Proof.Machine.execAvsPoll r mv s
  | .avsTimeout r => Sys2Proof.Machine.execAvsTimeout r s
  | .avsAutoPeriod mv0 mv1 ack0 ack1 => Sys2Proof.Machine.execAvsAutoPeriod mv0 mv1 ack0 ack1 s
  | .pmbTelemetryPoll k vout iout temp => Sys2Proof.Machine.execPmbTelemetryPoll k vout iout temp s
  | .pmbAlert k status => Sys2Proof.Machine.execPmbAlert k status s
  | .pmbCommand w ans => Sys2Proof.Machine.execPmbCommand w ans s
  | .pmbFail k cmd why => Sys2Proof.Machine.execPmbFail k cmd why s
  | .pgLost r => Sys2Proof.Machine.execPgLost r s
  | .throttle sensor temp => Sys2Proof.Machine.execThrottle sensor temp s
  | .throttleRelease sensor temp => Sys2Proof.Machine.execThrottleRelease sensor temp s
  | .thermalTrip sensor temp => Sys2Proof.Machine.execThermalTrip sensor temp s
  | .pwrfail => Sys2Proof.Machine.execPwrfail s
  | .pwrfailClear => Sys2Proof.Machine.execPwrfailClear s
  | .sdsRefclkLost t => Sys2Proof.Machine.execSdsRefclkLost t s
  | .pllUnlock pll => Sys2Proof.Machine.execPllUnlock pll s
  | .porAssert aonLost => Sys2Proof.Machine.execPorAssert aonLost s
  | .porRelease straps => Sys2Proof.Machine.execPorRelease straps s
  | .railPowerGood => Sys2Proof.Machine.execRailPowerGood s
  | .railTimeout => Sys2Proof.Machine.execRailTimeout s
  | .resetCtlWrite w v => Sys2Proof.Machine.execResetCtlWrite w v s
  | .internalDeviceReset => Sys2Proof.Machine.execInternalDeviceReset s
  | .bootPllLock locked => Sys2Proof.Machine.execBootPllLock locked s
  | .fuseRead fuses => Sys2Proof.Machine.execFuseRead fuses s
  | .firstStageVerify img => Sys2Proof.Machine.execFirstStageVerify img s
  | .mainFirmwareVerify img => Sys2Proof.Machine.execMainFirmwareVerify img s
  | .provisioningApply prov => Sys2Proof.Machine.execProvisioningApply prov s
  | .bootPortsReset => Sys2Proof.Machine.execBootPortsReset s
  | .recoveryImageLoad img => Sys2Proof.Machine.execRecoveryImageLoad img s
  | .coord => Sys2Proof.Machine.execCoord s
  | .coordPeriod => Sys2Proof.Machine.execCoordPeriod s
  | .headAssign => Sys2Proof.Machine.execHeadAssign s
  | .groupkeys => Sys2Proof.Machine.execGroupkeys s
  | .groupkeysPeriod => Sys2Proof.Machine.execGroupkeysPeriod s
  | .coordTimeout => Sys2Proof.Machine.execCoordTimeout s
  | .tablesDoneTimer => Sys2Proof.Machine.execTablesDoneTimer s
  | .upgradeStart => Sys2Proof.Machine.execUpgradeStart s
  | .bringupStart w => Sys2Proof.Machine.execBringupStart w s
  | .tilePassStart k => Sys2Proof.Machine.execTilePassStart k s
  | .portWaitTimeout k => Sys2Proof.Machine.execPortWaitTimeout k s
  | .upgradeLimitExpiry => Sys2Proof.Machine.execUpgradeLimitExpiry s
  | .pairCheckpoint => Sys2Proof.Machine.execPairCheckpoint s
  | .izgLockstep pr => Sys2Proof.Machine.execIzgLockstep pr s
  | .watchdogExpiry pr => Sys2Proof.Machine.execWatchdogExpiry pr s
  | .watchdogKick pr => Sys2Proof.Machine.execWatchdogKick pr s
  | .pairTakeover w => Sys2Proof.Machine.execPairTakeover w s
  | .pairSelfTestDone pr pass => Sys2Proof.Machine.execPairSelfTestDone pr pass s
  | .mboxToIzg w => Sys2Proof.Machine.execMboxToIzg w s
  | .enroll cmd => Sys2Proof.Machine.execEnroll cmd s
  | .revoke cmd => Sys2Proof.Machine.execRevoke cmd s
  | .raiseFloor cmd => Sys2Proof.Machine.execRaiseFloor cmd s
  | .unlock cmd => Sys2Proof.Machine.execUnlock cmd s
  | .rma cmd => Sys2Proof.Machine.execRma cmd s
  | .certReq => Sys2Proof.Machine.execCertReq s
  | .cert => Sys2Proof.Machine.execCert s
  | .certTimeout p => Sys2Proof.Machine.execCertTimeout p s
  | .getVersion ch => Sys2Proof.Machine.execGetVersion ch s
  | .getCapabilities ch => Sys2Proof.Machine.execGetCapabilities ch s
  | .negotiateAlgorithms ch => Sys2Proof.Machine.execNegotiateAlgorithms ch s
  | .getDigests ch => Sys2Proof.Machine.execGetDigests ch s
  | .getCertificate ch slot off len => Sys2Proof.Machine.execGetCertificate ch slot off len s
  | .challenge ch slot => Sys2Proof.Machine.execChallenge ch slot s
  | .getMeasurements ch slot idx => Sys2Proof.Machine.execGetMeasurements ch slot idx s
  | .keyExchange ch slot req => Sys2Proof.Machine.execKeyExchange ch slot req s
  | .finish ch sess ok => Sys2Proof.Machine.execFinish ch sess ok s
  | .keyUpdate ch sess op => Sys2Proof.Machine.execKeyUpdate ch sess op s
  | .heartbeat ch sess => Sys2Proof.Machine.execHeartbeat ch sess s
  | .endSession ch sess => Sys2Proof.Machine.execEndSession ch sess s
  | .fwLoad w bank => Sys2Proof.Machine.execFwLoad w bank s
  | .fwLoadDone img flashOk => Sys2Proof.Machine.execFwLoadDone img flashOk s
  | .fwActivate w bank img => Sys2Proof.Machine.execFwActivate w bank img s
  | .fwHandover => Sys2Proof.Machine.execFwHandover s
  | .fwCommit w bank fuseOk => Sys2Proof.Machine.execFwCommit w bank fuseOk s
  | .fwBadCmd w v => Sys2Proof.Machine.execFwBadCmd w v s
  | .autoCommit fuseOk => Sys2Proof.Machine.execAutoCommit fuseOk s
  | .sliceFault k => Sys2Proof.Machine.execSliceFault k s
  | .sliceSelfTest pass => Sys2Proof.Machine.execSliceSelfTest pass s
  | .sliceSwapCmd w v => Sys2Proof.Machine.execSliceSwapCmd w v s
  | .sramError b row word uncorrectable => Sys2Proof.Machine.execSramError b row word uncorrectable s
  | .sramScrub b found => Sys2Proof.Machine.execSramScrub b found s
  | .repairMapWrite ok => Sys2Proof.Machine.execRepairMapWrite ok s
  | .thermAlertN sensor temp => Sys2Proof.Machine.execThermAlertN sensor temp s
  | .mgmtBusTimeout => Sys2Proof.Machine.execMgmtBusTimeout s
  | .securityCommandUnknown cmd => Sys2Proof.Machine.execSecurityCommandUnknown cmd s
  | .sliceBadCmd n v => Sys2Proof.Machine.execSliceBadCmd n v s

end Sys2Proof.Machine
end

