-- ==== Sys2Proof/Machine/Tick.lean ====
section
/-!
DEFINITION. Machine/Tick.lean: one REFCLK_AON cycle, 40 ns or 64 core cycles: what goes on with no command (log entry 1):
Hallmark counts, Tally counts cycles and levels, buckets refill, stalled and throttled cycles are counted, pulses end (04 R158;
09 R354; 11 R392, R407, R424, R427 to R430; 12 R457).
-/
namespace Sys2Proof.Machine

/-- Core cycles in a REFCLK_AON cycle. -/
def coreCycles : Nat := 64

/-- The Hallmark count advances by 160 × (1 + r) quarter-nanoseconds; the fraction is kept (11 R392). -/
def State.tickHmk (s : State) : State :=
  let step : Int := s.hmk.frac + 160 * (2 ^ 32 + signed 32 (s.get HMK_RATE.r))
  let s := { s with hmk := { s.hmk with frac := step % 2 ^ 32, sub := 0, prev := s.now } }
  s.set HMK_NOW.reg (trunc 64 ((s.now : Nat) + step / 2 ^ 32))

/-- Pulses whose width has passed end (11 R407, R424). -/
def State.tickPins (s : State) : State :=
  let s := match s.hmk.ppsFall with
    | some t => if t ≤ s.clk then State.emit { s with hmk := { s.hmk with ppsFall := none } } (.pin .ppsOut false) else s
    | none => s
  match s.trigFall with
  | some t => if t ≤ s.clk then State.emit { s with trigFall := none } (.pin .trigOut false) else s
  | none => s

/-- A bucket of 65,536 bytes, in bits, after 40 ns at a rate in units of 100 Mb/s (09 R354). -/
def bucketFill (b : Int) (rate : Nat) : Int := min 524288 (b + (4 * rate : Nat))

/-- The buckets of every account refill at the rates in force. -/
def State.tickBuckets (s : State) : State :=
  { s with accts := s.accts.map fun (a, (x : Acct)) =>
      (a, { x with blocked := false, minBucket := bucketFill x.minBucket x.minRate, maxBucket := bucketFill x.maxBucket x.maxRate }) }

/-- A port with a flit waiting for it and credit for no class that has one (04 R158). -/
def State.stalled (s : State) (p : Nat) : Bool :=
  let cs := (List.range 18).filter fun c => match s.txNext p c with | some t => decide (0 < s.txReady t) | none => false
  cs != [] && cs.all fun c => !s.hasCredit p c

/-- Stalled cycles are counted. -/
def State.tickStalls (s : State) : State :=
  s.ports.foldl (fun s (p, _) =>
    if s.stalled p then s.set (RTE_PORT_STAT2.stall_cycles p) (min (s.get (RTE_PORT_STAT2.stall_cycles p) + coreCycles) (2 ^ 48 - 1)) else s) s

/-- A level signal of 11 Table 11.6 at one instance; `none` for a code that is no level. -/
def State.level (s : State) (code i : Nat) : Option Nat :=
  match code with
  | 0x1080 => some ((s.port i).vault.map (·.flits.length)).sum
  | 0x1081 => some (s.port i).escrow.length
  | 0x2080 => some (s.queued 0 i)
  | 0x2081 => some (s.queued 1 i)
  | 0x2180 => some s.qsInj.length
  | 0x2280 => some (s.openMsgs.filter (!·.single)).length
  | 0x2281 => some s.srcMsgs.length
  | 0x2282 => some (s.filter.filter (·.live)).length
  | 0x2480 => some (s.get LDG_STAT.free)
  | 0x2580 => some (s.get ALY_STAT.slots_free)
  | 0x2680 => some (s.tags.filter fun t => t.hl == i && !t.quarantined).length
  | 0x2681 => some (s.hl i).atc.length
  | 0x2780 => some ((s.accts.filter fun (a, _) => s.aHl a == i).map fun (a, (x : Acct)) =>
      (x.rings.filter fun (r, _) => s.ringSt a r == rWAITING).length).sum
  | _ => none

/-- How many instances a level has. -/
def levelCount (code : Nat) : Nat :=
  let b := code / 256
  if b = 0x10 ∨ b = 0x20 then 64 else if b = 0x26 ∨ b = 0x27 then 8 else 1

/-- The level that a selection names; instance 0xFF sums every instance (11 R428). -/
def State.levelOf (s : State) (code inst : Nat) : Option Nat :=
  if inst = 0xFF then
    (s.level code 0).map fun _ => ((List.range (levelCount code)).map fun i => (s.level code i).getD 0).sum
  else if inst < levelCount code then s.level code inst
  else none

/-- What a Tally counter adds in 64 core cycles in which its level stays as it is (11 Table 11.5). -/
def tallyStep (mode level thresh : Nat) : Nat :=
  match mode with
  | 2 => if thresh < level then coreCycles else 0
  | 3 => if level < thresh then coreCycles else 0
  | 4 => if level = thresh then coreCycles else 0
  | 5 => level * coreCycles
  | _ => 0

/-- Tally counts cycles and levels. -/
def State.tickTally (s : State) : State :=
  s.tallySel.foldl (fun s (i, w) =>
    let code := bf w 0 16; let mode := bf w 24 3
    if mode = 1 then (if code = 0 then s.tallyAdd i coreCycles else s)
    else
      match s.levelOf code (bf w 16 8) with
      | some v => s.tallyAdd i (tallyStep mode v (s.get (TLY_THRESH.thresh i)))
      | none => s) s

/-- One REFCLK_AON cycle. Without power the block only ages; Hallmark runs in AON; the rest needs the core clock. A tree that has lost
a port with a reset limit of 0 is aborted (03 R108; 07 R278). -/
def State.tick (s : State) : State :=
  let s := { s with clk := s.clk + 40 }
  if s.boot.por then s
  else
    let s := s.tickHmk.tickPins.bootTick
    if s.dom 6 ≠ dOn ∨ s.pwr.tripped then s
    else
      let s := s.tickTally.tickStalls.tickBuckets
      let s := if s.on PWR_TEMP.throttled then s.bumpN PWR_CNT_THROTTLE_CYC.ev coreCycles else s
      s.abortBroken

end Sys2Proof.Machine
end

