-- ==== Sys2Proof/Safety.lean ====
section
/-!
DEFINITION. Safety.lean: what every run keeps (the tables of State in their one form, and the stores of the spec within their
sizes), and the words in which the obligations speak of one command.
-/
namespace Sys2Proof.Machine

/-- The invariant of the model. The tables list their entries by rising numbers, so that equal contents are equal data; the
stores that the spec bounds hold no more than it says. -/
structure State.Inv (s : State) : Prop where
  /-- registers by address -/
  regs : tasc s.regs = true
  /-- ports -/
  ports : tasc s.ports = true
  /-- host links -/
  hls : tasc s.hls = true
  /-- functions -/
  fns : tasc s.fns = true
  /-- accounts -/
  accts : tasc s.accts = true
  /-- match contexts -/
  ctxs : tasc s.ctxs = true
  /-- trees -/
  trees : tasc s.trees = true
  /-- Mover channels -/
  movs : tasc s.movs = true
  /-- QS messages injected and waiting (04 R154) -/
  qsInj : s.qsInj.length ≤ 4096
  /-- flash queue (11 R419) -/
  flashQ : s.clh.flashQ.length ≤ 64
  /-- power-loss area (12 R459) -/
  lossArea : s.pwr.lossArea.length ≤ 64
  /-- Izger's MG store (04 R127) -/
  mg : s.izg.mg.length ≤ 64
  /-- flash summary (11 R419, 14 Table 14.7) -/
  summary : s.izg.summary.length ≤ 16384
  /-- key cache (05 R199) -/
  keyCache : s.keyCache.length ≤ 262144
  /-- rank cache (02 R65) -/
  rankCache : s.rankCache.length ≤ 65536

/-- Command `c` runs on `s`: the step answers a next state, of which `P` holds. -/
def Completes (c : Instr) (s : State) (P : State → Prop) : Prop := ∃ t, exec c s = .next t ∧ P t

/-- `t` is `s` but for the registers at the addresses `as`. -/
def SameBut (as : List Nat) (s t : State) : Prop :=
  t = { s with regs := t.regs } ∧ ∀ q : RF, q.addr ∉ as → t.word q = s.word q

/-- An access of Izger or through a BAR is made: its master is there, and neither Izger's Lockbox, nor a poisoned write, nor the
scope of a Steward stops it (08 R298, R299, R305; 10 R384 to R386). -/
def State.lets (s : State) (a : Access) (write : Bool) : Bool :=
  s.viaOk a && match a.via with
    | none => (cutOf a.addr.toNat (max 1 a.size.toNat)).all fun (b, _) =>
        (!inSram b || decide (s.get IZG_PAIR_STAT.active < 2)) && s.lbxAllows (s.get IZG_PAIR_STAT.active) b write
    | some b => !write || (!a.poison && (!(b.fn.toNat == 0 && b.bar == 0) || s.stewardMay b.hl.val a.addr.toNat))

/-- A write that is a command of its own, by Izger or by PF0, reaches its register: its master is there, nothing on its way stops it, and the
block's domain is on (01 R13; 08 R298, R299; 10 R384). -/
abbrev State.Lands (s : State) (w : Writer) (addr : Nat) : Prop := s.reach w addr = (true, s)

/-- The register writes that are commands of their own: who makes the write, the register or the field of it that the command writes, and its
value there. -/
def State.ownWrite (s : State) : Instr → Option (Writer × RF × Nat)
  | .izgLockSet w => some (w, IZG_LOCK.lock, 1)
  | .bind w v | .accountReset w v | .remove w v | .freeze w v | .thaw w v | .save w v | .restore w v _ | .stub w v | .accBadCmd w v =>
    some (w, ACC_CMD0.reg, v.toNat)
  | .stubCancel w k => some (w, ACC_STUB0.valid k, 0)
  | .linkResetWrite w p => some (w, LNK_CTL.reset p.val, 1)
  | .reachWrite w p v => some (w, LNK_REACH.reg p.val, v.toNat)
  | .keyInval w v => some (w, TLR_KEY_INVAL.reg, v.toNat)
  | .rankInval w v => some (w, TLR_RANK_INVAL.reg, v.toNat)
  | .counterWrite w i part v => some (w, TLR_CTR.value i.val, putPart part (s.get (TLR_CTR.value i.val)) v.toNat % 2 ^ 48)
  | .ctxRangeWrite w a v => some (w, LDG_ACC_CTX.reg a.val, v.toNat)
  | .ctxEnable w k => some (w, LDG_CTX0.enable k.val, 1)
  | .ctxDisable w k => some (w, LDG_CTX0.enable k.val, 0)
  | .treeActivate w v | .treeDeactivate w v => some (w, ALY_TREE_CTL.reg, v.toNat)
  | .moverAbort w ch => some (w, MOV_CTL.abort ch.val, 1)
  | .moverGo ch w _ => some (w, (MOV_CTL.reg ch.val).sub 0 2, 1)
  | .lockboxCommit w m => some (w, LBX_COMMIT.go m.val, 1)
  | .hmkSet w => some (w, HMK_CTL.set, 1)
  | .hmkSetAtPps w => some (w, HMK_CTL.set_at_pps, 1)
  | .clhAckWrite w v => some (w, CLH_ACK.ack, v.toNat % m32)
  | .assayArm w => some (w, ASY_CTL.arm, 1)
  | .assayTrigger w => some (w, ASY_CTL.trigger, 1)
  | .tallyWrite w i part v => some (w, TLY_CNT.reg i.val, putPart part (s.word (TLY_CNT.reg i.val)).toNat v.toNat)
  | .tallyLatchNow w => some (w, TLY_LATCH_CTL.now, 1)
  | .pwrReqFull w => some (w, PWR_STATE_REQ.req, 0)
  | .pwrReqTrim w => some (w, PWR_STATE_REQ.req, 1)
  | .pwrReqVigil w => some (w, PWR_STATE_REQ.req, 2)
  | .pwrReqBad w => some (w, PWR_STATE_REQ.req, 3)
  | .padRelease w v => some (w, PWR_PAD_RELEASE.reg, v.toNat)
  | .avsRequest w v _ => some (w, PWR_AVS_CTL.reg, v.toNat)
  | .pmbCommand w _ => some (w, PWR_PMB_CMD0.go, 1)
  | .resetCtlWrite w v => some (w, TOP_RESET_CTL.reg, v.toNat)
  | .bringupStart w => some (w, TOP_BRINGUP_CTL.start, 1)
  | .pairTakeover w => some (w, IZG_PAIR_CTL.takeover, 1)
  | .mboxToIzg w => some (w, IZG_MBOX_CTL.to_izg, 1)
  | .fwLoad w b => some (w, IZG_FW_CTL.reg.sub 0 4, b.val + 2)
  | .fwActivate w b _ => some (w, IZG_FW_CTL.reg.sub 0 4, b.val + 4)
  | .fwCommit w b _ => some (w, IZG_FW_CTL.reg.sub 0 4, b.val + 6)
  | .fwBadCmd w v => some (w, IZG_FW_CTL.reg.sub 0 4, bf v.toNat 0 4)
  | .sliceSwapCmd w v => some (w, IZG_SLICE_CTL.reg, v.toNat)
  | .enroll c | .revoke c | .raiseFloor c | .unlock c | .rma c | .securityCommandUnknown c => some (c.via.getD none, SEC_CMD.go, 1)
  | _ => none

/-- A PMBus transaction that gives `v`: it is answered at once, or when it is retried (12 R455). -/
def Gives (x : PmbTry) (v : Nat) : Prop := x.first = .ok v ∨ (∀ w, x.first ≠ .ok w) ∧ x.again = .ok v

/-- The same command with Izger's write in place of another master's; a MOVER_GO, whose effect depends on who starts the channel, has none. -/
inductive ByIzger : Instr → Instr → Prop where
  | izgLockSet w : ByIzger (.izgLockSet w) (.izgLockSet none)
  | bind w b : ByIzger (.bind w b) (.bind none b)
  | accountReset w b : ByIzger (.accountReset w b) (.accountReset none b)
  | remove w b : ByIzger (.remove w b) (.remove none b)
  | freeze w b : ByIzger (.freeze w b) (.freeze none b)
  | thaw w b : ByIzger (.thaw w b) (.thaw none b)
  | save w b : ByIzger (.save w b) (.save none b)
  | restore w b c : ByIzger (.restore w b c) (.restore none b c)
  | stub w b : ByIzger (.stub w b) (.stub none b)
  | accBadCmd w b : ByIzger (.accBadCmd w b) (.accBadCmd none b)
  | stubCancel w b : ByIzger (.stubCancel w b) (.stubCancel none b)
  | linkResetWrite w b : ByIzger (.linkResetWrite w b) (.linkResetWrite none b)
  | reachWrite w b c : ByIzger (.reachWrite w b c) (.reachWrite none b c)
  | keyInval w b : ByIzger (.keyInval w b) (.keyInval none b)
  | rankInval w b : ByIzger (.rankInval w b) (.rankInval none b)
  | counterWrite w b c d : ByIzger (.counterWrite w b c d) (.counterWrite none b c d)
  | ctxRangeWrite w b c : ByIzger (.ctxRangeWrite w b c) (.ctxRangeWrite none b c)
  | ctxEnable w b : ByIzger (.ctxEnable w b) (.ctxEnable none b)
  | ctxDisable w b : ByIzger (.ctxDisable w b) (.ctxDisable none b)
  | treeActivate w b : ByIzger (.treeActivate w b) (.treeActivate none b)
  | treeDeactivate w b : ByIzger (.treeDeactivate w b) (.treeDeactivate none b)
  | moverAbort w b : ByIzger (.moverAbort w b) (.moverAbort none b)
  | lockboxCommit w b : ByIzger (.lockboxCommit w b) (.lockboxCommit none b)
  | hmkSet w : ByIzger (.hmkSet w) (.hmkSet none)
  | hmkSetAtPps w : ByIzger (.hmkSetAtPps w) (.hmkSetAtPps none)
  | clhAckWrite w b : ByIzger (.clhAckWrite w b) (.clhAckWrite none b)
  | assayArm w : ByIzger (.assayArm w) (.assayArm none)
  | assayTrigger w : ByIzger (.assayTrigger w) (.assayTrigger none)
  | tallyWrite w b c d : ByIzger (.tallyWrite w b c d) (.tallyWrite none b c d)
  | tallyLatchNow w : ByIzger (.tallyLatchNow w) (.tallyLatchNow none)
  | pwrReqFull w : ByIzger (.pwrReqFull w) (.pwrReqFull none)
  | pwrReqTrim w : ByIzger (.pwrReqTrim w) (.pwrReqTrim none)
  | pwrReqVigil w : ByIzger (.pwrReqVigil w) (.pwrReqVigil none)
  | pwrReqBad w : ByIzger (.pwrReqBad w) (.pwrReqBad none)
  | padRelease w b : ByIzger (.padRelease w b) (.padRelease none b)
  | avsRequest w b c : ByIzger (.avsRequest w b c) (.avsRequest none b c)
  | pmbCommand w b : ByIzger (.pmbCommand w b) (.pmbCommand none b)
  | resetCtlWrite w b : ByIzger (.resetCtlWrite w b) (.resetCtlWrite none b)
  | bringupStart w : ByIzger (.bringupStart w) (.bringupStart none)
  | pairTakeover w : ByIzger (.pairTakeover w) (.pairTakeover none)
  | mboxToIzg w : ByIzger (.mboxToIzg w) (.mboxToIzg none)
  | fwLoad w b : ByIzger (.fwLoad w b) (.fwLoad none b)
  | fwActivate w b c : ByIzger (.fwActivate w b c) (.fwActivate none b c)
  | fwCommit w b c : ByIzger (.fwCommit w b c) (.fwCommit none b c)
  | fwBadCmd w b : ByIzger (.fwBadCmd w b) (.fwBadCmd none b)
  | sliceSwapCmd w b : ByIzger (.sliceSwapCmd w b) (.sliceSwapCmd none b)
  | enroll c : ByIzger (.enroll c) (.enroll { c with via := c.via.map fun _ => none })
  | revoke c : ByIzger (.revoke c) (.revoke { c with via := c.via.map fun _ => none })
  | raiseFloor c : ByIzger (.raiseFloor c) (.raiseFloor { c with via := c.via.map fun _ => none })
  | unlock c : ByIzger (.unlock c) (.unlock { c with via := c.via.map fun _ => none })
  | rma c : ByIzger (.rma c) (.rma { c with via := c.via.map fun _ => none })
  | securityCommandUnknown c : ByIzger (.securityCommandUnknown c) (.securityCommandUnknown { c with via := c.via.map fun _ => none })

/-- A source of an account has at its head a descriptor of type `ty` that may be consumed now: its event queue is enabled and has
room, the source is served, and the engine of its type is on (09 R332, R336, R343, R348, R351; 12 R450). -/
structure State.Serves (s : State) (a : Nat) (src : Source) (ty : Nat) (d : Desc) (ring idx : Nat) : Prop where
  /-- the descriptor, with its ring and index -/
  head : s.head a src = some (d, ring, idx)
  /-- its type -/
  type : descType d = ty
  /-- its type is one of Table 9.3 -/
  known : ty < 10
  /-- its event queue is enabled -/
  eq : s.eqOn a (bf d.toNat 8 6) = true
  /-- and has room -/
  room : s.eqRoom a (bf d.toNat 8 6) = true
  /-- the account serves the source -/
  opened : s.sourceOpen a src = true
  /-- its engine is on -/
  engine : engineOf ty = 0 ∨ s.engineOn (engineOf ty) = true

/-- A source of an account has at its head a descriptor of type `ty` whose engine makes the accesses `accs`: the host bus lets them go now, `hv`
answers the reads, and in `g`, the state that this leaves, the descriptor may be consumed (08 R307, R311). -/
structure State.ServesHost (s g : State) (a : Nat) (src : Source) (ty : Nat) (accs : List (Nat × Nat × Bool)) (hv : HostView) (d : Desc)
    (ring idx : Nat) : Prop where
  /-- the descriptor, with its ring and index -/
  head : s.head a src = some (d, ring, idx)
  /-- the account serves the source -/
  opened : s.sourceOpen a src = true
  /-- its event queue is enabled -/
  eq : s.eqOn a (bf d.toNat 8 6) = true
  /-- its accesses go -/
  bus : s.gate (s.aHl a) (s.aFn a) (s.aPasid a) accs hv = (.go, g)
  /-- and it may be consumed -/
  serves : g.Serves a src ty d ring idx

/-- The state in which a descriptor's engine acts: the descriptor has been consumed (09 R332, R343, R351). -/
def State.taken (s : State) (a : Nat) (src : Source) (d : Desc) : State := s.consume a src (bf d.toNat 8 6)

/-- How it completes. -/
def State.evTaken (s : State) (a : Nat) (src : Source) (d : Desc) (ring idx : Nat) : EvtInfo := s.evOf a src d ring idx (bf d.toNat 8 6)

/-- A packet of an opcode waits for its engine, which is on, and passes the checks of a destination (02 R59): `u` is the state
in which the engine acts on it. -/
structure State.Arrives (s : State) (op : Nat) (p : Packet) (u : State) : Prop where
  /-- the oldest packet of the opcode that may be taken -/
  first : s.takePkt op = some (p, u)
  /-- its engine is on -/
  engine : s.engineOn (engineOfOp op) = true
  /-- it passes -/
  passes : u.destCheck p = (true, u)

/-- A message of a Quicksilver type, delivered here, waits: `u` is the state without it. -/
def State.Delivered (s : State) (ty : Nat) (m : QsArr) (u : State) : Prop := s.takeQs ty = some (m, u)

/-- A write of ACC_CMD[0] that starts command `code` on account `a` (09 R349). -/
def State.accGo (s : State) (v : Word) (code a : Nat) : Prop :=
  bit v.toNat 62 = true ∧ bf v.toNat 16 4 = code ∧ bf v.toNat 0 14 = a ∧ s.on ACC_CMD0.done = true

/-- A write of ACC_SLICE_CMD[0] of host link `n` that starts command `code` on the slice that is account `a` (09 R327). -/
def State.sliceGo (s : State) (n : Nat) (v : Word) (code a : Nat) : Prop :=
  s.memOn n 1 = true ∧ bit v.toNat 62 = true ∧ bf v.toNat 16 4 = code ∧ s.hlPresent n = true ∧ s.slices n = true ∧
  s.on (ACC_SLICE_CMD0.done n) = true ∧ s.sliceAt n (bf v.toNat 0 11) = some a

/-! ### Frames -/

/-- A part of State. -/
inductive Fld where
  | regs | ports | hls | fns | accts | ctxs | trees | movs | srcMsgs | openMsgs | filter | book | keyCache | rankCache | orders | aptWaits | flushes
  | notices | acctCmds | entries | lmatches | ovfBufs | tags | moveWait | movOwn | ctxSent | clhIn | tptIn | relayIn | mgIn | mcIn | fifelIn | qsRx | qsHere | qsWait
  | qsInj | samples | sampleLost | hmk | clh | pwr | boot | izg | wakeLow | trigFall | clk | rotate | freeCtr | nextId | out | pending
  deriving DecidableEq, Repr

/-- Every part of State that is not in `A` is in `t` as it is in `s`. -/
structure Unchanged (A : Fld → Bool) (s t : State) : Prop where
  regs : A .regs = true ∨ t.regs = s.regs
  ports : A .ports = true ∨ t.ports = s.ports
  hls : A .hls = true ∨ t.hls = s.hls
  fns : A .fns = true ∨ t.fns = s.fns
  accts : A .accts = true ∨ t.accts = s.accts
  ctxs : A .ctxs = true ∨ t.ctxs = s.ctxs
  trees : A .trees = true ∨ t.trees = s.trees
  movs : A .movs = true ∨ t.movs = s.movs
  srcMsgs : A .srcMsgs = true ∨ t.srcMsgs = s.srcMsgs
  openMsgs : A .openMsgs = true ∨ t.openMsgs = s.openMsgs
  filter : A .filter = true ∨ t.filter = s.filter
  book : A .book = true ∨ t.book = s.book
  keyCache : A .keyCache = true ∨ t.keyCache = s.keyCache
  rankCache : A .rankCache = true ∨ t.rankCache = s.rankCache
  orders : A .orders = true ∨ t.orders = s.orders
  aptWaits : A .aptWaits = true ∨ t.aptWaits = s.aptWaits
  flushes : A .flushes = true ∨ t.flushes = s.flushes
  notices : A .notices = true ∨ t.notices = s.notices
  acctCmds : A .acctCmds = true ∨ t.acctCmds = s.acctCmds
  entries : A .entries = true ∨ t.entries = s.entries
  lmatches : A .lmatches = true ∨ t.lmatches = s.lmatches
  ovfBufs : A .ovfBufs = true ∨ t.ovfBufs = s.ovfBufs
  tags : A .tags = true ∨ t.tags = s.tags
  moveWait : A .moveWait = true ∨ t.moveWait = s.moveWait
  movOwn : A .movOwn = true ∨ t.movOwn = s.movOwn
  ctxSent : A .ctxSent = true ∨ t.ctxSent = s.ctxSent
  clhIn : A .clhIn = true ∨ t.clhIn = s.clhIn
  tptIn : A .tptIn = true ∨ t.tptIn = s.tptIn
  relayIn : A .relayIn = true ∨ t.relayIn = s.relayIn
  mgIn : A .mgIn = true ∨ t.mgIn = s.mgIn
  mcIn : A .mcIn = true ∨ t.mcIn = s.mcIn
  fifelIn : A .fifelIn = true ∨ t.fifelIn = s.fifelIn
  qsRx : A .qsRx = true ∨ t.qsRx = s.qsRx
  qsHere : A .qsHere = true ∨ t.qsHere = s.qsHere
  qsWait : A .qsWait = true ∨ t.qsWait = s.qsWait
  qsInj : A .qsInj = true ∨ t.qsInj = s.qsInj
  samples : A .samples = true ∨ t.samples = s.samples
  sampleLost : A .sampleLost = true ∨ t.sampleLost = s.sampleLost
  hmk : A .hmk = true ∨ t.hmk = s.hmk
  clh : A .clh = true ∨ t.clh = s.clh
  pwr : A .pwr = true ∨ t.pwr = s.pwr
  boot : A .boot = true ∨ t.boot = s.boot
  izg : A .izg = true ∨ t.izg = s.izg
  wakeLow : A .wakeLow = true ∨ t.wakeLow = s.wakeLow
  trigFall : A .trigFall = true ∨ t.trigFall = s.trigFall
  clk : A .clk = true ∨ t.clk = s.clk
  rotate : A .rotate = true ∨ t.rotate = s.rotate
  freeCtr : A .freeCtr = true ∨ t.freeCtr = s.freeCtr
  nextId : A .nextId = true ∨ t.nextId = s.nextId
  out : A .out = true ∨ t.out = s.out
  pending : A .pending = true ∨ t.pending = s.pending

/-- The parts of State that a command may change. A command that changes nothing of a part in any state does not list it; the queue of
commands and device time stand in no list. -/
def touches : Instr → List Fld
  | .registerWrite .. => [.regs, .ports, .hls, .fns, .clhIn, .tptIn, .relayIn, .mgIn, .mcIn, .fifelIn, .samples, .sampleLost, .hmk, .clh, .pwr, .boot,
      .rotate, .freeCtr, .nextId, .out]
  | .rcRead .. => [.regs, .hls, .fns, .clhIn, .freeCtr, .out]
  | .unmappedAccess .. => [.regs, .ports, .hls, .fns, .clhIn, .tptIn, .relayIn, .mgIn, .mcIn, .fifelIn, .samples, .sampleLost, .hmk, .clh, .pwr,
      .boot, .rotate, .freeCtr, .nextId, .out]
  | .domainOffAccess .. => [.regs, .ports, .hls, .fns, .clhIn, .tptIn, .relayIn, .mgIn, .mcIn, .fifelIn, .samples, .sampleLost, .hmk, .clh, .pwr,
      .boot, .rotate, .freeCtr, .nextId, .out]
  | .izgLockSet .. => [.regs, .hls, .fns, .movOwn, .clhIn, .freeCtr, .out]
  | .doorbellWrite .. => [.regs, .ports, .hls, .fns, .accts, .notices, .acctCmds, .tags, .clhIn, .tptIn, .mcIn, .fifelIn, .samples, .sampleLost, .clh,
      .pwr, .boot, .rotate, .freeCtr, .nextId, .out]
  | .inlinePush .. => [.regs, .ports, .hls, .fns, .accts, .orders, .notices, .acctCmds, .tags, .clhIn, .tptIn, .mcIn, .fifelIn, .samples, .sampleLost,
      .clh, .pwr, .boot, .rotate, .freeCtr, .nextId, .out]
  | .eqConsumerDoorbell .. => [.regs, .hls, .fns, .clhIn, .freeCtr, .out]
  | .ringEnable .. => [.regs, .ports, .hls, .fns, .accts, .notices, .acctCmds, .tags, .clhIn, .tptIn, .mcIn, .fifelIn, .samples, .sampleLost, .clh,
      .pwr, .boot, .rotate, .freeCtr, .nextId, .out]
  | .ringDisable .. => [.regs, .ports, .hls, .fns, .accts, .tags, .clhIn, .tptIn, .mcIn, .fifelIn, .samples, .sampleLost, .clh, .pwr, .boot, .rotate,
      .freeCtr, .nextId, .out]
  | .eqEnable .. => [.regs]
  | .eqDisable .. => [.regs]
  | .descriptorFetchComplete .. => [.regs, .ports, .hls, .fns, .accts, .orders, .notices, .acctCmds, .tags, .clhIn, .tptIn, .mcIn, .fifelIn, .samples,
      .sampleLost, .clh, .pwr, .boot, .rotate, .freeCtr, .nextId, .out]
  | .nop .. => [.regs, .ports, .hls, .fns, .accts, .orders, .notices, .acctCmds, .tags, .clhIn, .tptIn, .mcIn, .fifelIn, .samples, .sampleLost, .clh,
      .pwr, .boot, .rotate, .freeCtr, .nextId, .out]
  | .fence .. => [.regs, .ports, .hls, .fns, .accts, .orders, .notices, .acctCmds, .tags, .clhIn, .tptIn, .mcIn, .fifelIn, .samples, .sampleLost,
      .clh, .pwr, .boot, .rotate, .freeCtr, .nextId, .out]
  | .put .. => [.regs, .ports, .hls, .fns, .accts, .srcMsgs, .rankCache, .orders, .notices, .acctCmds, .tags, .clhIn, .tptIn, .mcIn, .fifelIn,
      .samples, .sampleLost, .clh, .pwr, .boot, .rotate, .freeCtr, .nextId, .out]
  | .get .. => [.regs, .ports, .hls, .fns, .accts, .srcMsgs, .rankCache, .orders, .notices, .acctCmds, .tags, .clhIn, .tptIn, .mcIn, .fifelIn,
      .samples, .sampleLost, .clh, .pwr, .boot, .rotate, .freeCtr, .nextId, .out]
  | .atomic .. => [.regs, .ports, .hls, .fns, .accts, .srcMsgs, .rankCache, .orders, .notices, .acctCmds, .tags, .clhIn, .tptIn, .mcIn, .fifelIn,
      .samples, .sampleLost, .clh, .pwr, .boot, .rotate, .freeCtr, .nextId, .out]
  | .order .. => [.regs, .ports, .hls, .fns, .accts, .orders, .notices, .acctCmds, .tags, .clhIn, .tptIn, .mcIn, .fifelIn, .samples, .sampleLost,
      .clh, .pwr, .boot, .rotate, .freeCtr, .nextId, .out]
  | .send .. => [.regs, .ports, .hls, .fns, .accts, .ctxs, .srcMsgs, .rankCache, .orders, .notices, .acctCmds, .entries, .tags, .clhIn, .tptIn, .mcIn,
      .fifelIn, .samples, .sampleLost, .clh, .pwr, .boot, .rotate, .freeCtr, .nextId, .out]
  | .recv .. => [.regs, .ports, .hls, .fns, .accts, .srcMsgs, .rankCache, .orders, .notices, .acctCmds, .entries, .lmatches, .tags, .clhIn, .tptIn,
      .mcIn, .fifelIn, .samples, .sampleLost, .clh, .pwr, .boot, .rotate, .freeCtr, .nextId, .out]
  | .recvProbe .. => [.regs, .ports, .hls, .fns, .accts, .orders, .notices, .acctCmds, .tags, .clhIn, .tptIn, .mcIn, .fifelIn, .samples, .sampleLost,
      .clh, .pwr, .boot, .rotate, .freeCtr, .nextId, .out]
  | .recvCancel .. => [.regs, .ports, .hls, .fns, .accts, .orders, .notices, .acctCmds, .entries, .tags, .clhIn, .tptIn, .mcIn, .fifelIn, .samples,
      .sampleLost, .clh, .pwr, .boot, .rotate, .freeCtr, .nextId, .out]
  | .recvOvf .. => [.regs, .ports, .hls, .fns, .accts, .ctxs, .orders, .notices, .acctCmds, .ovfBufs, .tags, .clhIn, .tptIn, .mcIn, .fifelIn,
      .samples, .sampleLost, .clh, .pwr, .boot, .rotate, .freeCtr, .nextId, .out]
  | .coll .. => [.regs, .ports, .hls, .fns, .accts, .trees, .orders, .notices, .acctCmds, .tags, .clhIn, .tptIn, .mcIn, .fifelIn, .qsHere, .qsInj,
      .samples, .sampleLost, .clh, .pwr, .boot, .rotate, .freeCtr, .nextId, .out]
  | .move .. => [.regs, .ports, .hls, .fns, .accts, .orders, .notices, .acctCmds, .tags, .moveWait, .clhIn, .tptIn, .mcIn, .fifelIn, .samples,
      .sampleLost, .clh, .pwr, .boot, .rotate, .freeCtr, .nextId, .out]
  | .allowanceTurn .. => [.regs, .ports, .hls, .fns, .accts, .trees, .orders, .notices, .acctCmds, .tags, .clhIn, .tptIn, .mcIn, .fifelIn, .qsHere,
      .qsInj, .samples, .sampleLost, .clh, .rotate, .freeCtr, .nextId, .out]
  | .noticeWrite .. => [.regs, .hls, .fns, .accts, .notices, .tags, .clhIn, .freeCtr, .out]
  | .bind .. => [.regs, .hls, .fns, .accts, .acctCmds, .movOwn, .clhIn, .freeCtr, .out]
  | .accountReset .. => [.regs, .ports, .hls, .fns, .accts, .ctxs, .trees, .movs, .srcMsgs, .openMsgs, .filter, .keyCache, .rankCache, .orders,
      .aptWaits, .flushes, .notices, .acctCmds, .entries, .lmatches, .ovfBufs, .tags, .moveWait, .movOwn, .clhIn, .tptIn, .mcIn, .fifelIn, .qsHere,
      .qsInj, .samples, .sampleLost, .clh, .pwr, .boot, .rotate, .freeCtr, .nextId, .out]
  | .remove .. => [.regs, .ports, .hls, .fns, .accts, .ctxs, .trees, .movs, .srcMsgs, .openMsgs, .filter, .keyCache, .rankCache, .orders, .aptWaits,
      .flushes, .notices, .acctCmds, .entries, .lmatches, .ovfBufs, .tags, .moveWait, .movOwn, .clhIn, .tptIn, .mcIn, .fifelIn, .qsHere, .qsInj,
      .samples, .sampleLost, .clh, .pwr, .boot, .rotate, .freeCtr, .nextId, .out]
  | .freeze .. => [.regs, .ports, .hls, .fns, .accts, .ctxs, .trees, .movs, .srcMsgs, .orders, .aptWaits, .flushes, .notices, .acctCmds, .entries,
      .lmatches, .ovfBufs, .tags, .moveWait, .movOwn, .clhIn, .tptIn, .mcIn, .fifelIn, .qsHere, .qsInj, .samples, .sampleLost, .clh, .pwr, .boot,
      .rotate, .freeCtr, .nextId, .out]
  | .thaw .. => [.regs, .ports, .hls, .fns, .accts, .orders, .notices, .acctCmds, .tags, .movOwn, .clhIn, .tptIn, .mcIn, .fifelIn, .samples,
      .sampleLost, .clh, .pwr, .boot, .rotate, .freeCtr, .nextId, .out]
  | .save .. => [.regs, .hls, .fns, .acctCmds, .movOwn, .clhIn, .freeCtr, .out]
  | .restore .. => [.regs, .hls, .fns, .acctCmds, .tags, .movOwn, .clhIn, .freeCtr, .out]
  | .stub .. => [.regs, .ports, .hls, .fns, .accts, .ctxs, .trees, .movs, .srcMsgs, .openMsgs, .filter, .keyCache, .rankCache, .orders, .aptWaits,
      .flushes, .notices, .acctCmds, .entries, .lmatches, .ovfBufs, .tags, .moveWait, .movOwn, .clhIn, .tptIn, .mcIn, .fifelIn, .qsHere, .qsInj,
      .samples, .sampleLost, .clh, .pwr, .boot, .rotate, .freeCtr, .nextId, .out]
  | .accBadCmd .. => [.regs, .hls, .fns, .acctCmds, .movOwn, .clhIn, .freeCtr, .out]
  | .sliceBind .. => [.regs, .fns, .accts, .acctCmds, .freeCtr, .out]
  | .sliceReset .. => [.regs, .ports, .hls, .fns, .accts, .ctxs, .trees, .movs, .srcMsgs, .openMsgs, .filter, .keyCache, .rankCache, .orders,
      .aptWaits, .flushes, .notices, .acctCmds, .entries, .lmatches, .ovfBufs, .tags, .moveWait, .clhIn, .tptIn, .mcIn, .fifelIn, .qsHere, .qsInj,
      .samples, .sampleLost, .clh, .pwr, .boot, .rotate, .freeCtr, .nextId, .out]
  | .sliceRemove .. => [.regs, .ports, .hls, .fns, .accts, .ctxs, .trees, .movs, .srcMsgs, .openMsgs, .filter, .keyCache, .rankCache, .orders,
      .aptWaits, .flushes, .notices, .acctCmds, .entries, .lmatches, .ovfBufs, .tags, .moveWait, .clhIn, .tptIn, .mcIn, .fifelIn, .qsHere, .qsInj,
      .samples, .sampleLost, .clh, .pwr, .boot, .rotate, .freeCtr, .nextId, .out]
  | .sliceFreeze .. => [.regs, .ports, .hls, .fns, .accts, .ctxs, .trees, .movs, .srcMsgs, .orders, .aptWaits, .flushes, .notices, .acctCmds,
      .entries, .lmatches, .ovfBufs, .tags, .moveWait, .clhIn, .tptIn, .mcIn, .fifelIn, .qsHere, .qsInj, .samples, .sampleLost, .clh, .pwr, .boot,
      .rotate, .freeCtr, .nextId, .out]
  | .sliceThaw .. => [.regs, .ports, .hls, .fns, .accts, .orders, .notices, .acctCmds, .tags, .clhIn, .tptIn, .mcIn, .fifelIn, .samples, .sampleLost,
      .clh, .pwr, .boot, .rotate, .freeCtr, .nextId, .out]
  | .sliceSave .. => [.regs, .fns, .acctCmds, .freeCtr, .out]
  | .sliceRestore .. => [.regs, .hls, .fns, .acctCmds, .tags, .clhIn, .freeCtr, .out]
  | .freezeQuiesced .. => [.regs, .hls, .fns, .accts, .ctxs, .notices, .acctCmds, .entries, .tags, .clhIn, .clh, .freeCtr, .out]
  | .freezeBoundExpiry .. => [.regs, .ports, .hls, .fns, .accts, .ctxs, .trees, .movs, .srcMsgs, .orders, .aptWaits, .flushes, .notices, .acctCmds,
      .entries, .lmatches, .ovfBufs, .tags, .moveWait, .clhIn, .tptIn, .mcIn, .fifelIn, .qsHere, .qsInj, .samples, .sampleLost, .clh, .pwr, .boot,
      .rotate, .freeCtr, .nextId, .out]
  | .saveImageWritten .. => [.regs, .hls, .fns, .accts, .acctCmds, .tags, .clhIn, .freeCtr, .out]
  | .restoreImageLoaded .. => [.regs, .hls, .fns, .accts, .ctxs, .filter, .book, .orders, .notices, .acctCmds, .entries, .ovfBufs, .tags, .clhIn,
      .freeCtr, .nextId, .out]
  | .accountDrainEnd .. => [.regs, .ports, .hls, .fns, .accts, .ctxs, .trees, .movs, .srcMsgs, .openMsgs, .filter, .keyCache, .rankCache, .orders,
      .aptWaits, .flushes, .notices, .acctCmds, .entries, .lmatches, .ovfBufs, .tags, .moveWait, .clhIn, .tptIn, .mcIn, .fifelIn, .qsHere, .qsInj,
      .samples, .sampleLost, .clh, .pwr, .boot, .rotate, .freeCtr, .nextId, .out]
  | .vfEnableSet .. => [.regs, .hls, .accts]
  | .vfEnableClear .. => [.regs, .ports, .hls, .fns, .accts, .ctxs, .trees, .movs, .srcMsgs, .openMsgs, .filter, .keyCache, .rankCache, .orders,
      .aptWaits, .flushes, .notices, .acctCmds, .entries, .lmatches, .ovfBufs, .tags, .moveWait, .clhIn, .tptIn, .mcIn, .fifelIn, .qsHere, .qsInj,
      .samples, .sampleLost, .clh, .pwr, .boot, .rotate, .freeCtr, .nextId, .out]
  | .stubExpiry .. => [.regs]
  | .stubCancel .. => [.regs, .hls, .fns, .movOwn, .clhIn, .freeCtr, .out]
  | .frameReceive .. => [.regs, .ports, .hls, .fns, .clhIn, .tptIn, .relayIn, .mgIn, .mcIn, .fifelIn, .qsRx, .samples, .sampleLost, .hmk, .clh, .pwr,
      .boot, .rotate, .freeCtr, .nextId, .out]
  | .frameSend .. => [.regs, .ports, .hls, .fns, .accts, .trees, .orders, .notices, .acctCmds, .tags, .clhIn, .tptIn, .relayIn, .mgIn, .mcIn,
      .fifelIn, .qsHere, .qsWait, .qsInj, .samples, .sampleLost, .hmk, .clh, .boot, .izg, .rotate, .freeCtr, .nextId, .out]
  | .ackTimerExpiry .. => [.regs, .ports, .hls, .fns, .clhIn, .tptIn, .relayIn, .mgIn, .mcIn, .fifelIn, .samples, .sampleLost, .clh, .rotate,
      .freeCtr, .nextId, .out]
  | .errorWindowEnd .. => [.regs, .ports]
  | .signalLoss .. => [.regs, .ports, .hls, .fns, .clhIn, .tptIn, .relayIn, .mgIn, .mcIn, .fifelIn, .samples, .sampleLost, .clh, .pwr, .boot, .rotate,
      .freeCtr, .nextId, .out]
  | .linkResetWrite .. => [.regs, .ports, .hls, .fns, .movOwn, .clhIn, .tptIn, .relayIn, .mgIn, .mcIn, .fifelIn, .samples, .sampleLost, .clh, .rotate,
      .freeCtr, .nextId, .out]
  | .resetEntryDone .. => [.regs, .ports]
  | .detectStable .. => [.regs, .ports, .clhIn]
  | .trainingSetReceive .. => [.regs, .ports, .hls, .fns, .clhIn, .tptIn, .relayIn, .mgIn, .mcIn, .fifelIn, .samples, .sampleLost, .clh, .rotate,
      .freeCtr, .nextId, .out]
  | .trainTimeout .. => [.regs, .ports, .hls, .fns, .clhIn, .tptIn, .relayIn, .mgIn, .mcIn, .fifelIn, .samples, .sampleLost, .clh, .rotate, .freeCtr,
      .nextId, .out]
  | .ident .. => [.regs, .ports, .hls, .fns, .clhIn, .tptIn, .relayIn, .mgIn, .mcIn, .fifelIn, .samples, .sampleLost, .clh, .rotate, .freeCtr,
      .nextId, .out]
  | .identSig .. => [.regs, .ports, .hls, .fns, .clhIn, .tptIn, .relayIn, .mgIn, .mcIn, .fifelIn, .samples, .sampleLost, .clh, .rotate, .freeCtr,
      .nextId, .out]
  | .equalizationDone .. => [.regs, .ports, .hls, .fns, .clhIn, .tptIn, .relayIn, .mgIn, .mcIn, .fifelIn, .samples, .sampleLost, .clh, .rotate,
      .freeCtr, .nextId, .out]
  | .param .. => [.regs, .ports, .hls, .fns, .accts, .trees, .orders, .notices, .acctCmds, .tags, .clhIn, .tptIn, .relayIn, .mgIn, .mcIn, .fifelIn,
      .qsHere, .qsInj, .samples, .sampleLost, .clh, .boot, .izg, .rotate, .freeCtr, .nextId, .out]
  | .creditSync .. => [.regs, .ports, .hls, .fns, .out]
  | .creditSyncReq .. => [.ports]
  | .creditSyncPeriod .. => [.ports]
  | .heldProbe .. => [.regs, .ports, .hls, .fns, .clhIn, .tptIn, .relayIn, .mgIn, .mcIn, .fifelIn, .samples, .sampleLost, .clh, .rotate, .freeCtr,
      .nextId, .out]
  | .resetLimitExpiry .. => [.regs, .ports, .hls, .fns, .accts, .trees, .orders, .notices, .acctCmds, .tags, .clhIn, .tptIn, .relayIn, .mgIn, .mcIn,
      .fifelIn, .qsHere, .qsInj, .samples, .sampleLost, .clh, .rotate, .freeCtr, .nextId, .out]
  | .reachWrite .. => [.regs, .hls, .fns, .movOwn, .clhIn, .freeCtr, .out]
  | .cellReceive .. => [.regs, .ports, .hls, .fns, .clhIn, .tptIn, .relayIn, .mgIn, .mcIn, .fifelIn, .samples, .sampleLost, .clh, .izg, .rotate,
      .freeCtr, .nextId, .out]
  | .cellAckTimeout .. => [.regs, .ports, .hls, .fns, .clhIn, .tptIn, .relayIn, .mgIn, .mcIn, .fifelIn, .samples, .sampleLost, .clh, .rotate,
      .freeCtr, .nextId, .out]
  | .quiet .. => [.regs, .ports, .hls, .fns, .clhIn, .tptIn, .mcIn, .fifelIn, .qsWait, .qsInj, .samples, .sampleLost, .hmk, .clh, .pwr, .rotate,
      .freeCtr, .nextId, .out]
  | .quietAck .. => [.regs, .ports, .hls, .fns, .clhIn, .tptIn, .mcIn, .fifelIn, .samples, .sampleLost, .clh, .pwr, .rotate, .freeCtr, .nextId, .out]
  | .quietTimeout .. => [.ports]
  | .quietRetry .. => [.ports]
  | .quietSignalDetect .. => [.regs, .ports, .hls, .fns, .clhIn, .tptIn, .mcIn, .fifelIn, .samples, .sampleLost, .clh, .pwr, .boot, .rotate, .freeCtr,
      .nextId, .out]
  | .wakeNoansTimeout .. => [.regs, .ports, .hls, .fns, .out]
  | .wakeExchangeRetry .. => [.ports]
  | .forwardingDecision .. => [.regs, .ports, .hls, .fns, .clhIn, .tptIn, .relayIn, .mgIn, .mcIn, .fifelIn, .qsHere, .qsInj, .samples, .sampleLost,
      .clh, .pwr, .boot, .rotate, .freeCtr, .nextId, .out]
  | .sampleFlushTimer .. => [.regs, .ports, .hls, .fns, .clhIn, .tptIn, .mcIn, .fifelIn, .samples, .sampleLost, .clh, .rotate, .freeCtr, .nextId,
      .out]
  | .hallRelayReinject .. => [.regs, .ports, .hls, .fns, .clhIn, .tptIn, .relayIn, .mgIn, .mcIn, .fifelIn, .samples, .sampleLost, .clh, .pwr, .boot,
      .rotate, .freeCtr, .nextId, .out]
  | .mgRelay .. => [.regs, .ports, .hls, .fns, .clhIn, .tptIn, .mgIn, .mcIn, .fifelIn, .samples, .sampleLost, .clh, .rotate, .freeCtr, .nextId, .out]
  | .multicastConsume .. => [.regs, .ports, .hls, .fns, .clhIn, .tptIn, .mcIn, .fifelIn, .samples, .sampleLost, .clh, .pwr, .boot, .rotate, .freeCtr,
      .nextId, .out]
  | .fifelPacket .. => [.regs, .ports, .hls, .fns, .clhIn, .fifelIn, .out]
  | .epochFlip .. => [.regs, .hls, .fns, .clhIn, .qsHere, .qsInj, .boot, .out]
  | .epochFlipTime .. => [.regs]
  | .drainingEnd .. => [.regs]
  | .advert .. => [.regs, .ports, .hls, .fns, .clhIn, .tptIn, .mcIn, .fifelIn, .samples, .sampleLost, .clh, .boot, .izg, .rotate, .freeCtr, .nextId,
      .out]
  | .qsMessageReceive .. => [.regs, .hls, .fns, .qsRx, .qsHere, .qsWait, .out]
  | .packetSend .. => [.regs, .ports, .hls, .fns, .accts, .ctxs, .srcMsgs, .orders, .aptWaits, .entries, .lmatches, .tags, .ctxSent, .clhIn, .tptIn,
      .mcIn, .fifelIn, .samples, .sampleLost, .clh, .pwr, .boot, .rotate, .freeCtr, .nextId, .out]
  | .putPacketReceive .. => [.regs, .ports, .hls, .fns, .accts, .openMsgs, .filter, .keyCache, .orders, .flushes, .tags, .clhIn, .tptIn, .mcIn,
      .fifelIn, .qsHere, .qsInj, .samples, .sampleLost, .clh, .pwr, .boot, .rotate, .freeCtr, .nextId, .out]
  | .getReqServe .. => [.regs, .ports, .hls, .fns, .accts, .ctxs, .srcMsgs, .keyCache, .orders, .aptWaits, .entries, .lmatches, .tags, .clhIn, .tptIn,
      .mcIn, .fifelIn, .qsHere, .qsInj, .samples, .sampleLost, .clh, .pwr, .boot, .rotate, .freeCtr, .nextId, .out]
  | .getRespReceive .. => [.regs, .ports, .hls, .fns, .accts, .ctxs, .srcMsgs, .orders, .aptWaits, .entries, .lmatches, .tags, .clhIn, .tptIn, .mcIn,
      .fifelIn, .qsHere, .qsInj, .samples, .sampleLost, .clh, .pwr, .boot, .rotate, .freeCtr, .nextId, .out]
  | .atomicReqReceive .. => [.regs, .ports, .hls, .fns, .accts, .filter, .book, .keyCache, .orders, .tags, .clhIn, .tptIn, .mcIn, .fifelIn, .qsHere,
      .qsInj, .samples, .sampleLost, .clh, .pwr, .boot, .rotate, .freeCtr, .nextId, .out]
  | .atomicRespReceive .. => [.regs, .ports, .hls, .fns, .accts, .ctxs, .srcMsgs, .orders, .aptWaits, .entries, .lmatches, .tags, .clhIn, .tptIn,
      .mcIn, .fifelIn, .qsHere, .qsInj, .samples, .sampleLost, .clh, .pwr, .boot, .rotate, .freeCtr, .nextId, .out]
  | .sendEagerReceive .. => [.regs, .ports, .hls, .fns, .accts, .ctxs, .srcMsgs, .openMsgs, .filter, .rankCache, .orders, .flushes, .notices,
      .acctCmds, .entries, .lmatches, .ovfBufs, .tags, .clhIn, .tptIn, .mcIn, .fifelIn, .qsHere, .qsInj, .samples, .sampleLost, .clh, .pwr, .boot,
      .rotate, .freeCtr, .nextId, .out]
  | .sendRtsReceive .. => [.regs, .ports, .hls, .fns, .accts, .ctxs, .srcMsgs, .openMsgs, .filter, .rankCache, .orders, .flushes, .notices, .acctCmds,
      .entries, .lmatches, .ovfBufs, .tags, .clhIn, .tptIn, .mcIn, .fifelIn, .qsHere, .qsInj, .samples, .sampleLost, .clh, .pwr, .boot, .rotate,
      .freeCtr, .nextId, .out]
  | .mgReceive .. => [.regs, .ports, .hls, .fns, .clhIn, .tptIn, .mcIn, .fifelIn, .qsHere, .qsInj, .samples, .sampleLost, .clh, .izg, .rotate,
      .freeCtr, .nextId, .out]
  | .receipt .. => [.regs, .ports, .hls, .fns, .accts, .ctxs, .srcMsgs, .orders, .aptWaits, .entries, .lmatches, .tags, .ctxSent, .clhIn, .tptIn,
      .mcIn, .fifelIn, .qsHere, .samples, .sampleLost, .clh, .pwr, .boot, .rotate, .freeCtr, .nextId, .out]
  | .e2eNak .. => [.regs, .ports, .hls, .fns, .accts, .ctxs, .srcMsgs, .orders, .aptWaits, .entries, .lmatches, .tags, .clhIn, .tptIn, .mcIn,
      .fifelIn, .qsHere, .samples, .sampleLost, .clh, .pwr, .boot, .rotate, .freeCtr, .nextId, .out]
  | .nakDelayExpiry .. => [.regs, .ports, .hls, .fns, .accts, .ctxs, .srcMsgs, .orders, .aptWaits, .entries, .lmatches, .tags, .ctxSent, .clhIn,
      .tptIn, .mcIn, .fifelIn, .samples, .sampleLost, .clh, .pwr, .boot, .rotate, .freeCtr, .nextId, .out]
  | .cecho .. => [.regs, .hls, .fns, .srcMsgs, .ctxSent, .qsHere, .out]
  | .unreach .. => [.regs, .ports, .hls, .fns, .accts, .ctxs, .srcMsgs, .orders, .aptWaits, .entries, .lmatches, .tags, .ctxSent, .clhIn, .tptIn,
      .mcIn, .fifelIn, .qsHere, .samples, .sampleLost, .clh, .pwr, .boot, .rotate, .freeCtr, .nextId, .out]
  | .retransmitTimeout .. => [.regs, .ports, .hls, .fns, .accts, .ctxs, .srcMsgs, .orders, .aptWaits, .entries, .lmatches, .tags, .ctxSent, .clhIn,
      .tptIn, .mcIn, .fifelIn, .samples, .sampleLost, .clh, .pwr, .boot, .rotate, .freeCtr, .nextId, .out]
  | .holeTimerExpiry .. => [.regs, .hls, .fns, .qsHere, .qsInj, .out]
  | .openEntryAbandon .. => [.regs, .ports, .hls, .fns, .openMsgs, .filter, .clhIn, .tptIn, .mcIn, .fifelIn, .samples, .sampleLost, .clh, .pwr, .boot,
      .rotate, .freeCtr, .nextId, .out]
  | .filterExpiry .. => [.regs, .filter]
  | .cwndGrow .. => [.regs, .ctxSent]
  | .contextIdleReset .. => [.regs, .ctxSent]
  | .requestHoldEnd .. => [.boot]
  | .flushReadReturn .. => [.regs, .ports, .hls, .fns, .accts, .ctxs, .trees, .movs, .srcMsgs, .openMsgs, .filter, .rankCache, .orders, .aptWaits,
      .flushes, .notices, .acctCmds, .entries, .lmatches, .tags, .clhIn, .tptIn, .mcIn, .fifelIn, .qsHere, .qsInj, .samples, .sampleLost, .clh,
      .rotate, .freeCtr, .nextId, .out]
  | .keyInval .. => [.regs, .hls, .fns, .keyCache, .flushes, .tags, .movOwn, .clhIn, .freeCtr, .out]
  | .rankInval .. => [.regs, .hls, .fns, .rankCache, .aptWaits, .movOwn, .clhIn, .freeCtr, .out]
  | .counterWrite .. => [.regs, .ports, .hls, .fns, .accts, .orders, .movOwn, .clhIn, .tptIn, .mcIn, .fifelIn, .samples, .sampleLost, .clh, .pwr,
      .boot, .rotate, .freeCtr, .nextId, .out]
  | .apertureLoad .. => [.regs, .ports, .hls, .fns, .accts, .srcMsgs, .rankCache, .aptWaits, .lmatches, .tags, .clhIn, .tptIn, .mcIn, .fifelIn,
      .samples, .sampleLost, .clh, .pwr, .boot, .rotate, .freeCtr, .nextId, .out]
  | .apertureStore .. => [.regs, .ports, .hls, .fns, .accts, .srcMsgs, .rankCache, .aptWaits, .lmatches, .tags, .clhIn, .tptIn, .mcIn, .fifelIn,
      .samples, .sampleLost, .clh, .pwr, .boot, .rotate, .freeCtr, .nextId, .out]
  | .apertureTimeout .. => [.regs, .ports, .hls, .fns, .accts, .ctxs, .srcMsgs, .orders, .aptWaits, .entries, .lmatches, .tags, .clhIn, .tptIn, .mcIn,
      .fifelIn, .samples, .sampleLost, .clh, .pwr, .boot, .rotate, .freeCtr, .nextId, .out]
  | .ctxRangeWrite .. => [.regs, .hls, .fns, .movOwn, .clhIn, .freeCtr, .out]
  | .ctxEnable .. => [.regs, .hls, .fns, .movOwn, .clhIn, .freeCtr, .out]
  | .ctxDisable .. => [.regs, .ports, .hls, .fns, .accts, .ctxs, .srcMsgs, .orders, .aptWaits, .entries, .lmatches, .ovfBufs, .tags, .movOwn, .clhIn,
      .tptIn, .mcIn, .fifelIn, .samples, .sampleLost, .clh, .pwr, .boot, .rotate, .freeCtr, .nextId, .out]
  | .orderFillComplete .. => [.regs, .ports, .hls, .fns, .accts, .ctxs, .rankCache, .orders, .notices, .acctCmds, .tags, .clhIn, .tptIn, .mcIn,
      .fifelIn, .qsHere, .qsInj, .samples, .sampleLost, .clh, .pwr, .boot, .rotate, .freeCtr, .nextId, .out]
  | .eagerCopyDone .. => [.regs, .ports, .hls, .fns, .accts, .orders, .lmatches, .ovfBufs, .tags, .clhIn, .tptIn, .mcIn, .fifelIn, .samples,
      .sampleLost, .clh, .pwr, .boot, .rotate, .freeCtr, .nextId, .out]
  | .spillDone .. => [.regs, .ports, .hls, .fns, .accts, .notices, .acctCmds, .entries, .tags, .clhIn, .tptIn, .mcIn, .fifelIn, .samples, .sampleLost,
      .clh, .pwr, .boot, .rotate, .freeCtr, .nextId, .out]
  | .returnStart .. => [.regs, .ports, .hls, .fns, .clhIn, .tptIn, .mcIn, .fifelIn, .samples, .sampleLost, .clh, .pwr, .boot, .rotate, .freeCtr,
      .nextId, .out]
  | .returnDone .. => [.regs, .ports, .hls, .fns, .accts, .notices, .acctCmds, .tags, .clhIn, .tptIn, .mcIn, .fifelIn, .samples, .sampleLost, .clh,
      .pwr, .boot, .rotate, .freeCtr, .nextId, .out]
  | .treeActivate .. => [.regs, .ports, .hls, .fns, .trees, .movOwn, .clhIn, .tptIn, .mcIn, .fifelIn, .samples, .sampleLost, .clh, .pwr, .boot,
      .rotate, .freeCtr, .nextId, .out]
  | .treeDeactivate .. => [.regs, .ports, .hls, .fns, .accts, .trees, .orders, .notices, .acctCmds, .tags, .movOwn, .clhIn, .tptIn, .mcIn, .fifelIn,
      .qsHere, .qsInj, .samples, .sampleLost, .clh, .pwr, .boot, .rotate, .freeCtr, .nextId, .out]
  | .collScheduledStart .. => [.regs, .ports, .hls, .fns, .accts, .trees, .orders, .notices, .acctCmds, .tags, .clhIn, .tptIn, .mcIn, .fifelIn,
      .qsHere, .qsInj, .samples, .sampleLost, .clh, .pwr, .boot, .rotate, .freeCtr, .nextId, .out]
  | .collUpReceive .. => [.regs, .ports, .hls, .fns, .accts, .trees, .orders, .notices, .acctCmds, .tags, .clhIn, .tptIn, .mcIn, .fifelIn, .qsHere,
      .qsInj, .samples, .sampleLost, .clh, .pwr, .boot, .rotate, .freeCtr, .nextId, .out]
  | .collDnReceive .. => [.regs, .ports, .hls, .fns, .accts, .trees, .orders, .notices, .acctCmds, .tags, .clhIn, .tptIn, .mcIn, .fifelIn, .qsHere,
      .qsInj, .samples, .sampleLost, .clh, .pwr, .boot, .rotate, .freeCtr, .nextId, .out]
  | .alyReceipt .. => [.regs, .ports, .hls, .fns, .accts, .trees, .orders, .notices, .acctCmds, .tags, .clhIn, .tptIn, .mcIn, .fifelIn, .qsHere,
      .qsInj, .samples, .sampleLost, .clh, .pwr, .boot, .rotate, .freeCtr, .nextId, .out]
  | .segmentRetxTimer .. => [.regs, .ports, .hls, .fns, .accts, .trees, .orders, .notices, .acctCmds, .tags, .clhIn, .tptIn, .mcIn, .fifelIn, .qsHere,
      .qsInj, .samples, .sampleLost, .clh, .pwr, .boot, .rotate, .freeCtr, .nextId, .out]
  | .alyToken .. => [.regs, .ports, .hls, .fns, .accts, .trees, .orders, .notices, .acctCmds, .tags, .clhIn, .tptIn, .mcIn, .fifelIn, .qsHere, .qsInj,
      .samples, .sampleLost, .clh, .pwr, .boot, .rotate, .freeCtr, .nextId, .out]
  | .tokenResendTimer .. => [.regs, .hls, .fns, .trees, .qsHere, .qsInj, .out]
  | .opTimeout .. => [.regs, .ports, .hls, .fns, .accts, .trees, .orders, .notices, .acctCmds, .tags, .clhIn, .tptIn, .mcIn, .fifelIn, .qsHere,
      .qsInj, .samples, .sampleLost, .clh, .pwr, .boot, .rotate, .freeCtr, .nextId, .out]
  | .perstAssert .. => [.regs, .ports, .hls, .fns, .accts, .ctxs, .trees, .movs, .srcMsgs, .openMsgs, .filter, .keyCache, .rankCache, .orders,
      .aptWaits, .flushes, .notices, .acctCmds, .entries, .lmatches, .ovfBufs, .tags, .moveWait, .clhIn, .tptIn, .mcIn, .fifelIn, .qsHere, .qsInj,
      .samples, .sampleLost, .clh, .pwr, .boot, .wakeLow, .rotate, .freeCtr, .nextId, .out]
  | .perstDeassert .. => [.regs, .ports, .fns, .pwr, .wakeLow, .freeCtr, .out]
  | .dlDown .. => [.regs, .ports, .hls, .fns, .accts, .ctxs, .trees, .movs, .srcMsgs, .openMsgs, .filter, .keyCache, .rankCache, .orders, .aptWaits,
      .flushes, .notices, .acctCmds, .entries, .lmatches, .ovfBufs, .tags, .moveWait, .clhIn, .tptIn, .mcIn, .fifelIn, .qsHere, .qsInj, .samples,
      .sampleLost, .clh, .pwr, .boot, .rotate, .freeCtr, .nextId, .out]
  | .hotReset .. => [.regs, .ports, .hls, .fns, .accts, .ctxs, .trees, .movs, .srcMsgs, .openMsgs, .filter, .keyCache, .rankCache, .orders, .aptWaits,
      .flushes, .notices, .acctCmds, .entries, .lmatches, .ovfBufs, .tags, .moveWait, .clhIn, .tptIn, .mcIn, .fifelIn, .qsHere, .qsInj, .samples,
      .sampleLost, .clh, .pwr, .boot, .rotate, .freeCtr, .nextId, .out]
  | .hostLinkUp .. => [.regs, .ports, .hls, .fns, .accts, .ctxs, .trees, .movs, .srcMsgs, .openMsgs, .filter, .rankCache, .orders, .aptWaits,
      .flushes, .notices, .acctCmds, .entries, .lmatches, .tags, .clhIn, .tptIn, .mcIn, .fifelIn, .qsHere, .qsInj, .samples, .sampleLost, .clh, .pwr,
      .boot, .rotate, .freeCtr, .nextId, .out]
  | .functionLevelReset .. => [.regs, .ports, .hls, .fns, .accts, .ctxs, .trees, .movs, .srcMsgs, .openMsgs, .filter, .keyCache, .rankCache, .orders,
      .aptWaits, .flushes, .notices, .acctCmds, .entries, .lmatches, .ovfBufs, .tags, .moveWait, .clhIn, .tptIn, .mcIn, .fifelIn, .qsHere, .qsInj,
      .samples, .sampleLost, .clh, .pwr, .boot, .rotate, .freeCtr, .nextId, .out]
  | .flrDrainEnd .. => [.regs, .ports, .hls, .fns, .accts, .ctxs, .trees, .movs, .srcMsgs, .openMsgs, .filter, .keyCache, .rankCache, .orders,
      .aptWaits, .flushes, .notices, .acctCmds, .entries, .lmatches, .ovfBufs, .tags, .moveWait, .clhIn, .tptIn, .mcIn, .fifelIn, .qsHere, .qsInj,
      .samples, .sampleLost, .clh, .pwr, .boot, .rotate, .freeCtr, .nextId, .out]
  | .drainSquashTimer .. => [.regs, .ports, .hls, .fns, .accts, .ctxs, .trees, .movs, .srcMsgs, .openMsgs, .filter, .keyCache, .rankCache, .orders,
      .aptWaits, .flushes, .notices, .acctCmds, .entries, .lmatches, .ovfBufs, .tags, .moveWait, .clhIn, .tptIn, .mcIn, .fifelIn, .qsHere, .qsInj,
      .samples, .sampleLost, .clh, .pwr, .boot, .rotate, .freeCtr, .nextId, .out]
  | .bmeClear .. => [.regs, .fns]
  | .bmeSet .. => [.regs, .ports, .hls, .fns, .accts, .ctxs, .trees, .movs, .srcMsgs, .openMsgs, .filter, .rankCache, .orders, .aptWaits, .flushes,
      .notices, .acctCmds, .entries, .lmatches, .tags, .clhIn, .tptIn, .mcIn, .fifelIn, .qsHere, .qsInj, .samples, .sampleLost, .clh, .rotate,
      .freeCtr, .nextId, .out]
  | .d3hotEnter .. => [.regs, .ports, .hls, .fns, .clhIn, .tptIn, .mcIn, .fifelIn, .samples, .sampleLost, .clh, .pwr, .boot, .rotate, .freeCtr,
      .nextId, .out]
  | .d0Return .. => [.regs, .ports, .hls, .fns, .accts, .ctxs, .trees, .movs, .srcMsgs, .openMsgs, .filter, .rankCache, .orders, .aptWaits, .flushes,
      .notices, .acctCmds, .entries, .lmatches, .tags, .clhIn, .tptIn, .mcIn, .fifelIn, .qsHere, .qsInj, .samples, .sampleLost, .clh, .pwr, .boot,
      .rotate, .freeCtr, .nextId, .out]
  | .configRequest .. => [.regs, .ports, .hls, .fns, .accts, .ctxs, .trees, .movs, .srcMsgs, .openMsgs, .filter, .rankCache, .orders, .aptWaits,
      .flushes, .notices, .acctCmds, .entries, .lmatches, .tags, .clhIn, .tptIn, .mcIn, .fifelIn, .qsHere, .qsInj, .samples, .sampleLost, .clh,
      .wakeLow, .rotate, .freeCtr, .nextId, .out]
  | .unsupportedRequest .. => [.fns, .freeCtr, .out]
  | .hostCompletionReceive .. => [.regs, .ports, .hls, .fns, .accts, .ctxs, .trees, .movs, .srcMsgs, .openMsgs, .filter, .rankCache, .orders,
      .aptWaits, .flushes, .notices, .acctCmds, .entries, .lmatches, .tags, .clhIn, .tptIn, .mcIn, .fifelIn, .qsHere, .qsInj, .samples, .sampleLost,
      .clh, .pwr, .boot, .rotate, .freeCtr, .nextId, .out]
  | .completionTimeout .. => [.regs, .ports, .hls, .fns, .accts, .ctxs, .trees, .movs, .srcMsgs, .openMsgs, .filter, .rankCache, .orders, .aptWaits,
      .flushes, .notices, .acctCmds, .entries, .lmatches, .tags, .clhIn, .tptIn, .mcIn, .fifelIn, .qsHere, .qsInj, .samples, .sampleLost, .clh, .pwr,
      .boot, .rotate, .freeCtr, .nextId, .out]
  | .quarantineExpiry .. => [.regs, .ports, .hls, .fns, .accts, .ctxs, .trees, .movs, .srcMsgs, .openMsgs, .filter, .rankCache, .orders, .aptWaits,
      .flushes, .notices, .acctCmds, .entries, .lmatches, .tags, .clhIn, .tptIn, .mcIn, .fifelIn, .qsHere, .qsInj, .samples, .sampleLost, .clh,
      .rotate, .freeCtr, .nextId, .out]
  | .translationCompletion .. => [.regs, .ports, .hls, .fns, .accts, .ctxs, .trees, .movs, .srcMsgs, .openMsgs, .filter, .rankCache, .orders,
      .aptWaits, .flushes, .notices, .acctCmds, .entries, .lmatches, .tags, .clhIn, .tptIn, .mcIn, .fifelIn, .qsHere, .qsInj, .samples, .sampleLost,
      .clh, .rotate, .freeCtr, .nextId, .out]
  | .invalidateRequest .. => [.regs, .hls, .fns, .flushes, .tags, .out]
  | .invalidateCompletion .. => [.regs, .hls, .fns, .flushes, .tags, .out]
  | .outboundAccess .. => [.regs, .hls, .fns, .tags, .clhIn, .freeCtr, .out]
  | .doeRequest .. => [.regs, .hls, .fns, .out]
  | .doeAbort .. => [.hls]
  | .mctpMessage .. => [.izg]
  | .moverGo .. => [.regs, .ports, .hls, .fns, .accts, .movs, .orders, .flushes, .tags, .movOwn, .clhIn, .tptIn, .relayIn, .mgIn, .mcIn, .fifelIn,
      .samples, .sampleLost, .hmk, .clh, .pwr, .boot, .rotate, .freeCtr, .nextId, .out]
  | .moverAbort .. => [.regs, .hls, .fns, .movs, .flushes, .movOwn, .clhIn, .freeCtr, .out]
  | .channelGrant .. => [.regs, .ports, .hls, .fns, .accts, .movs, .flushes, .notices, .acctCmds, .tags, .moveWait, .movOwn, .clhIn, .tptIn, .relayIn,
      .mgIn, .mcIn, .fifelIn, .samples, .sampleLost, .hmk, .clh, .pwr, .boot, .rotate, .freeCtr, .nextId, .out]
  | .moverComplete .. => [.regs, .ports, .hls, .fns, .accts, .movs, .orders, .tags, .clhIn, .tptIn, .mcIn, .fifelIn, .samples, .sampleLost, .clh,
      .pwr, .boot, .rotate, .freeCtr, .nextId, .out]
  | .lockboxCommit .. => [.regs, .hls, .fns, .movOwn, .clhIn, .freeCtr, .out]
  | .lockboxDrainDone .. => [.regs]
  | .hmkSyncPeriod .. => [.regs, .hls, .fns, .clhIn, .qsInj, .hmk, .out]
  | .hmkSyncForm0 .. => [.regs, .ports, .hls, .fns, .clhIn, .qsHere, .hmk, .freeCtr, .out]
  | .hmkSyncForm1 .. => [.regs, .ports, .hls, .fns, .clhIn, .qsHere, .qsInj, .hmk, .out]
  | .parentTimeout .. => [.regs]
  | .form1AgeOut .. => [.regs, .ports, .hls, .fns, .clhIn, .qsInj, .hmk, .out]
  | .ppsInEdge .. => [.regs, .hls, .fns, .clhIn, .hmk, .freeCtr, .out]
  | .hmkExtLost .. => [.regs, .clhIn, .hmk]
  | .hmkSet .. => [.regs, .hls, .fns, .movOwn, .clhIn, .hmk, .freeCtr, .out]
  | .hmkSetAtPps .. => [.regs, .hls, .fns, .movOwn, .clhIn, .freeCtr, .out]
  | .ppsOutPulse .. => [.hmk, .out]
  | .hmkTimerFire .. => [.regs, .ports, .hls, .fns, .clhIn, .tptIn, .mcIn, .fifelIn, .samples, .sampleLost, .clh, .pwr, .boot, .rotate, .freeCtr,
      .nextId, .out]
  | .clearingHouseRecord .. => [.regs, .ports, .hls, .fns, .accts, .ctxs, .trees, .movs, .srcMsgs, .orders, .aptWaits, .flushes, .notices, .acctCmds,
      .entries, .lmatches, .ovfBufs, .tags, .moveWait, .clhIn, .tptIn, .relayIn, .mgIn, .mcIn, .fifelIn, .qsHere, .qsInj, .samples, .sampleLost, .hmk,
      .clh, .pwr, .boot, .trigFall, .rotate, .freeCtr, .nextId, .out]
  | .clhAckWrite .. => [.regs, .hls, .fns, .movOwn, .clhIn, .clh, .freeCtr, .out]
  | .flashBatch .. => [.regs, .hls, .fns, .clhIn, .clh, .izg, .out]
  | .assayArm .. => [.regs, .hls, .fns, .movOwn, .clhIn, .freeCtr, .out]
  | .assayTrigger .. => [.regs, .hls, .fns, .movOwn, .clhIn, .hmk, .trigFall, .freeCtr, .out]
  | .assayTrigInEdge .. => [.regs, .hls, .fns, .hmk, .trigFall, .out]
  | .assayAtTime .. => [.regs, .hls, .fns, .hmk, .trigFall, .out]
  | .assayAt .. => [.regs, .hls, .fns, .clhIn, .qsHere, .qsInj, .hmk, .boot, .trigFall, .out]
  | .tallyWrite .. => [.regs, .hls, .fns, .movOwn, .clhIn, .freeCtr, .out]
  | .tallyLatchPeriod .. => [.regs, .hmk]
  | .tallyLatchNow .. => [.regs, .hls, .fns, .movOwn, .clhIn, .freeCtr, .out]
  | .fmVote .. => [.regs, .ports, .hls, .fns, .clhIn, .tptIn, .mcIn, .fifelIn, .samples, .sampleLost, .clh, .pwr, .boot, .izg, .rotate, .freeCtr,
      .nextId, .out]
  | .wake .. => [.regs, .ports, .hls, .fns, .clhIn, .tptIn, .mcIn, .fifelIn, .qsHere, .samples, .sampleLost, .clh, .pwr, .boot, .rotate, .freeCtr,
      .nextId, .out]
  | .voteLeaseExpiry .. => [.regs, .ports, .hls, .fns, .clhIn, .tptIn, .mcIn, .fifelIn, .samples, .sampleLost, .clh, .pwr, .boot, .rotate, .freeCtr,
      .nextId, .out]
  | .dropDelayExpiry .. => [.regs, .ports, .hls, .fns, .clhIn, .tptIn, .mcIn, .fifelIn, .samples, .sampleLost, .clh, .pwr, .boot, .rotate, .freeCtr,
      .nextId, .out]
  | .wakeStepReady .. => [.regs, .ports, .hls, .fns, .clhIn, .tptIn, .relayIn, .mgIn, .mcIn, .fifelIn, .samples, .sampleLost, .clh, .pwr, .boot,
      .rotate, .freeCtr, .nextId, .out]
  | .wakeFail .. => [.regs, .clhIn, .pwr, .freeCtr]
  | .wakeRetry .. => [.regs, .ports, .fns, .pwr, .freeCtr, .out]
  | .pwrReqFull .. => [.regs, .ports, .hls, .fns, .movOwn, .clhIn, .tptIn, .mcIn, .fifelIn, .samples, .sampleLost, .clh, .pwr, .boot, .rotate,
      .freeCtr, .nextId, .out]
  | .pwrReqTrim .. => [.regs, .ports, .hls, .fns, .movOwn, .clhIn, .tptIn, .mcIn, .fifelIn, .samples, .sampleLost, .clh, .pwr, .boot, .rotate,
      .freeCtr, .nextId, .out]
  | .pwrReqVigil .. => [.regs, .ports, .hls, .fns, .movOwn, .clhIn, .tptIn, .relayIn, .mgIn, .mcIn, .fifelIn, .samples, .sampleLost, .clh, .pwr,
      .boot, .rotate, .freeCtr, .nextId, .out]
  | .pwrReqBad .. => [.regs, .hls, .fns, .movOwn, .clhIn, .freeCtr, .out]
  | .padRelease .. => [.regs, .ports, .hls, .fns, .movOwn, .clhIn, .tptIn, .relayIn, .mgIn, .mcIn, .fifelIn, .samples, .sampleLost, .clh, .pwr,
      .rotate, .freeCtr, .nextId, .out]
  | .avsRequest .. => [.regs, .hls, .fns, .movOwn, .clhIn, .pwr, .freeCtr, .out]
  | .avsPoll .. => [.regs, .clhIn, .pwr, .out]
  | .avsTimeout .. => [.regs, .clhIn, .pwr]
  | .avsAutoPeriod .. => [.regs, .clhIn, .pwr, .out]
  | .pmbTelemetryPoll .. => [.regs, .clhIn, .out]
  | .pmbAlert .. => [.regs, .clhIn, .out]
  | .pmbCommand .. => [.regs, .hls, .fns, .movOwn, .clhIn, .freeCtr, .out]
  | .pmbFail .. => [.regs, .clhIn]
  | .pgLost .. => [.regs, .hls, .fns, .clhIn, .clh, .pwr, .out]
  | .throttle .. => [.regs, .clhIn, .pwr, .out]
  | .throttleRelease .. => [.regs, .clhIn, .pwr, .out]
  | .thermalTrip .. => [.regs, .ports, .hls, .fns, .accts, .ctxs, .trees, .movs, .srcMsgs, .openMsgs, .filter, .book, .keyCache, .rankCache, .orders,
      .aptWaits, .flushes, .notices, .acctCmds, .entries, .lmatches, .ovfBufs, .tags, .moveWait, .movOwn, .ctxSent, .clhIn, .tptIn, .relayIn, .mgIn,
      .mcIn, .fifelIn, .qsRx, .qsHere, .qsWait, .qsInj, .samples, .sampleLost, .hmk, .clh, .pwr, .boot, .izg, .wakeLow, .trigFall, .rotate, .out]
  | .pwrfail .. => [.regs, .hls, .fns, .clhIn, .clh, .pwr, .out]
  | .pwrfailClear .. => [.regs, .ports, .fns, .pwr, .freeCtr, .out]
  | .sdsRefclkLost .. => [.regs, .ports, .hls, .fns, .clhIn, .tptIn, .relayIn, .mgIn, .mcIn, .fifelIn, .samples, .sampleLost, .clh, .rotate, .freeCtr,
      .nextId, .out]
  | .pllUnlock .. => [.clhIn]
  | .porAssert .. => [.regs, .ports, .hls, .fns, .accts, .ctxs, .trees, .movs, .srcMsgs, .openMsgs, .filter, .book, .keyCache, .rankCache, .orders,
      .aptWaits, .flushes, .notices, .acctCmds, .entries, .lmatches, .ovfBufs, .tags, .moveWait, .movOwn, .ctxSent, .clhIn, .tptIn, .relayIn, .mgIn,
      .mcIn, .fifelIn, .qsRx, .qsHere, .qsWait, .qsInj, .samples, .sampleLost, .hmk, .clh, .pwr, .boot, .izg, .wakeLow, .trigFall, .rotate, .out]
  | .porRelease .. => [.regs, .ports, .hls, .fns, .accts, .ctxs, .trees, .movs, .srcMsgs, .openMsgs, .filter, .book, .keyCache, .rankCache, .orders,
      .aptWaits, .flushes, .notices, .acctCmds, .entries, .lmatches, .ovfBufs, .tags, .moveWait, .movOwn, .ctxSent, .clhIn, .tptIn, .relayIn, .mgIn,
      .mcIn, .fifelIn, .qsRx, .qsHere, .qsWait, .qsInj, .samples, .sampleLost, .hmk, .clh, .pwr, .boot, .izg, .wakeLow, .trigFall, .rotate, .out]
  | .railPowerGood .. => [.regs, .boot, .out]
  | .railTimeout .. => [.regs, .boot, .out]
  | .resetCtlWrite .. => [.regs, .hls, .fns, .movOwn, .clhIn, .boot, .freeCtr, .out]
  | .internalDeviceReset .. => [.regs, .ports, .hls, .fns, .accts, .ctxs, .trees, .movs, .srcMsgs, .openMsgs, .filter, .book, .keyCache, .rankCache,
      .orders, .aptWaits, .flushes, .notices, .acctCmds, .entries, .lmatches, .ovfBufs, .tags, .moveWait, .movOwn, .ctxSent, .clhIn, .tptIn, .relayIn,
      .mgIn, .mcIn, .fifelIn, .qsRx, .qsHere, .qsWait, .qsInj, .samples, .sampleLost, .clh, .pwr, .boot, .izg, .trigFall, .rotate, .freeCtr, .nextId,
      .out]
  | .bootPllLock .. => [.regs, .ports, .hls, .fns, .clhIn, .tptIn, .mcIn, .fifelIn, .samples, .sampleLost, .clh, .pwr, .boot, .rotate, .freeCtr,
      .nextId, .out]
  | .fuseRead .. => [.regs, .boot, .freeCtr]
  | .firstStageVerify .. => [.regs, .boot, .izg, .out]
  | .mainFirmwareVerify .. => [.regs, .hls, .fns, .clhIn, .clh, .pwr, .boot, .izg, .out]
  | .provisioningApply .. => [.regs, .clhIn, .boot, .izg]
  | .bootPortsReset .. => [.regs, .ports, .hls, .fns, .clhIn, .tptIn, .relayIn, .mgIn, .mcIn, .fifelIn, .samples, .sampleLost, .clh, .pwr, .rotate,
      .freeCtr, .nextId, .out]
  | .recoveryImageLoad .. => [.regs, .boot, .izg]
  | .coord .. => [.regs, .ports, .hls, .fns, .clhIn, .tptIn, .relayIn, .mgIn, .mcIn, .fifelIn, .samples, .sampleLost, .clh, .boot, .izg, .rotate,
      .freeCtr, .nextId, .out]
  | .coordPeriod .. => [.regs, .ports, .hls, .fns, .clhIn, .tptIn, .mcIn, .fifelIn, .samples, .sampleLost, .clh, .rotate, .freeCtr, .nextId, .out]
  | .headAssign .. => [.regs, .ports, .hls, .fns, .clhIn, .tptIn, .relayIn, .mgIn, .mcIn, .fifelIn, .samples, .sampleLost, .clh, .boot, .rotate,
      .freeCtr, .nextId, .out]
  | .groupkeys .. => [.regs, .ports, .hls, .fns, .clhIn, .tptIn, .relayIn, .mgIn, .mcIn, .fifelIn, .samples, .sampleLost, .clh, .boot, .izg, .rotate,
      .freeCtr, .nextId, .out]
  | .groupkeysPeriod .. => [.regs, .ports, .hls, .fns, .clhIn, .tptIn, .mcIn, .fifelIn, .samples, .sampleLost, .clh, .rotate, .freeCtr, .nextId, .out]
  | .coordTimeout .. => [.regs]
  | .tablesDoneTimer .. => [.regs]
  | .upgradeStart .. => [.regs, .ports, .hls, .fns, .clhIn, .tptIn, .mcIn, .fifelIn, .samples, .sampleLost, .clh, .boot, .rotate, .freeCtr, .nextId,
      .out]
  | .bringupStart .. => [.regs, .ports, .hls, .fns, .movOwn, .clhIn, .tptIn, .mcIn, .fifelIn, .samples, .sampleLost, .clh, .boot, .rotate, .freeCtr,
      .nextId, .out]
  | .tilePassStart .. => [.regs, .ports, .hls, .fns, .clhIn, .tptIn, .relayIn, .mgIn, .mcIn, .fifelIn, .samples, .sampleLost, .clh, .boot, .rotate,
      .freeCtr, .nextId, .out]
  | .portWaitTimeout .. => [.regs, .ports, .hls, .fns, .clhIn, .tptIn, .relayIn, .mgIn, .mcIn, .fifelIn, .samples, .sampleLost, .clh, .boot, .rotate,
      .freeCtr, .nextId, .out]
  | .upgradeLimitExpiry .. => [.regs, .ports, .hls, .fns, .clhIn, .tptIn, .mcIn, .fifelIn, .samples, .sampleLost, .clh, .boot, .rotate, .freeCtr,
      .nextId, .out]
  | .pairCheckpoint .. => [.izg]
  | .izgLockstep .. => [.regs, .hls, .fns, .clhIn, .boot, .izg, .out]
  | .watchdogExpiry .. => [.regs, .hls, .fns, .clhIn, .boot, .izg, .out]
  | .watchdogKick .. => [.izg]
  | .pairTakeover .. => [.regs, .hls, .fns, .movOwn, .clhIn, .izg, .freeCtr, .out]
  | .pairSelfTestDone .. => [.regs, .hls, .fns, .clhIn, .boot, .izg, .out]
  | .mboxToIzg .. => [.regs, .hls, .fns, .movOwn, .clhIn, .izg, .freeCtr, .out]
  | .enroll .. => [.regs, .hls, .fns, .movOwn, .clhIn, .boot, .freeCtr, .out]
  | .revoke .. => [.regs, .hls, .fns, .movOwn, .clhIn, .boot, .freeCtr, .out]
  | .raiseFloor .. => [.regs, .hls, .fns, .movOwn, .clhIn, .boot, .freeCtr, .out]
  | .unlock .. => [.regs, .hls, .fns, .movOwn, .clhIn, .izg, .freeCtr, .out]
  | .rma .. => [.regs, .hls, .fns, .movOwn, .clhIn, .boot, .freeCtr, .out]
  | .certReq .. => [.regs, .ports, .hls, .fns, .clhIn, .tptIn, .mcIn, .fifelIn, .samples, .sampleLost, .clh, .izg, .rotate, .freeCtr, .nextId, .out]
  | .cert .. => [.regs, .ports, .hls, .fns, .clhIn, .tptIn, .relayIn, .mgIn, .mcIn, .fifelIn, .samples, .sampleLost, .clh, .izg, .rotate, .freeCtr,
      .nextId, .out]
  | .certTimeout .. => [.regs, .ports, .hls, .fns, .clhIn, .tptIn, .relayIn, .mgIn, .mcIn, .fifelIn, .samples, .sampleLost, .clh, .rotate, .freeCtr,
      .nextId, .out]
  | .getVersion .. => [.regs, .hls, .fns, .izg, .out]
  | .getCapabilities .. => [.regs, .hls, .fns, .izg, .out]
  | .negotiateAlgorithms .. => [.regs, .hls, .fns, .izg, .out]
  | .getDigests .. => [.regs, .hls, .fns, .izg, .out]
  | .getCertificate .. => [.regs, .hls, .fns, .izg, .out]
  | .challenge .. => [.regs, .hls, .fns, .izg, .freeCtr, .out]
  | .getMeasurements .. => [.regs, .hls, .fns, .izg, .freeCtr, .out]
  | .keyExchange .. => [.regs, .hls, .fns, .izg, .freeCtr, .out]
  | .finish .. => [.regs, .hls, .fns, .izg, .out]
  | .keyUpdate .. => [.regs, .hls, .fns, .izg, .freeCtr, .out]
  | .heartbeat .. => [.regs, .hls, .fns, .izg, .out]
  | .endSession .. => [.regs, .hls, .fns, .izg, .out]
  | .fwLoad .. => [.regs, .hls, .fns, .movOwn, .clhIn, .izg, .freeCtr, .out]
  | .fwLoadDone .. => [.regs, .hls, .fns, .clhIn, .clh, .pwr, .boot, .izg, .out]
  | .fwActivate .. => [.regs, .hls, .fns, .movOwn, .clhIn, .izg, .freeCtr, .out]
  | .fwHandover .. => [.regs, .hls, .fns, .clhIn, .izg, .out]
  | .fwCommit .. => [.regs, .hls, .fns, .movOwn, .clhIn, .boot, .izg, .freeCtr, .out]
  | .fwBadCmd .. => [.regs, .hls, .fns, .movOwn, .clhIn, .freeCtr, .out]
  | .autoCommit .. => [.regs, .clhIn, .boot, .izg, .out]
  | .sliceFault .. => [.regs, .ports, .hls, .fns, .clhIn, .tptIn, .mcIn, .fifelIn, .samples, .sampleLost, .clh, .izg, .rotate, .freeCtr, .nextId,
      .out]
  | .sliceSelfTest .. => [.regs, .izg]
  | .sliceSwapCmd .. => [.regs, .hls, .fns, .movOwn, .clhIn, .izg, .freeCtr, .out]
  | .sramError .. => [.regs, .ports, .clhIn, .izg, .freeCtr]
  | .sramScrub .. => [.regs, .ports, .clhIn, .izg, .freeCtr]
  | .repairMapWrite .. => [.izg, .out]
  | .thermAlertN .. => [.regs, .pwr, .out]
  | .mgmtBusTimeout .. => []
  | .securityCommandUnknown .. => [.regs, .hls, .fns, .movOwn, .clhIn, .freeCtr, .out]
  | .sliceBadCmd .. => [.regs, .fns, .acctCmds, .freeCtr, .out]

/-! ### Layouts -/

/-- The fields of a header that fit their widths in 02 Table 2.3. -/
def Header.Fits (h : Header) : Prop :=
  h.phase < 2 ^ 3 ∧ h.epoch < 2 ∧ h.viaGroup < 2 ^ 8 ∧ h.hops < 2 ^ 6 ∧ h.injectTime < 2 ^ 32 ∧ h.opcode < 2 ^ 8 ∧ h.length < 2 ^ 13 ∧
  h.charter < 2 ^ 16 ∧ h.dstAcct < 2 ^ 14 ∧ h.dstEp < 2 ^ 23 ∧ h.srcEp < 2 ^ 23 ∧ h.srcAcct < 2 ^ 14 ∧ h.msgId < 2 ^ 32 ∧
  h.pktIndex < 2 ^ 28 ∧ h.srcGen < 2 ^ 16 ∧ h.mcGroup < 2 ^ 14 ∧ h.key < 2 ^ 32 ∧ h.w5 < 2 ^ 64 ∧ h.w6 < 2 ^ 64 ∧ h.w7 < 2 ^ 64

/-- 18 numbers of 32 bits (03 Table 3.5). -/
def EighteenWords (l : List Nat) : Prop := l.length = 18 ∧ ∀ x ∈ l, x < 2 ^ 32

end Sys2Proof.Machine
end

