-- ==== Sys2Proof/Certificates/Slice0/Obligations.lean ====
section
/-!
DEFINITION. Certificates/Slice0/Obligations.lean: the statements for the provers. `Completes c s P` says that the command `c` answers
a next state on `s`, and that `P` holds of it.
-/
open Sys2Proof Sys2Proof.Machine

/-! ## The machine as a whole -/

/-- A step takes the command at the front of the queue and runs it on the state with the queue's rest. -/
def Obligations.StepRunsFrontCommand : Prop :=
  ∀ (c : Instr) (rest : List Instr) (s : State), step { s with pending := c :: rest } = exec c { s with pending := rest }

/-- With no command waiting a step is one REFCLK_AON cycle: 40 ns of device time pass (the model's choice, log entry 1); while
POR_N is low nothing else happens; and no step of that kind takes or adds a command. -/
def Obligations.IdleStepIsOneCycle : Prop :=
  ∀ s : State, s.pending = [] →
    ∃ t, step s = .next t ∧ t.clk = s.clk + 40 ∧ t.pending = [] ∧ (s.boot.por = true → t = { s with clk := s.clk + 40 })

/-- The state after reset is as 13 R464 and the register tables give it: `svc_state` BOOT, reset cause POR, stage 1, no owner key,
Hallmark 0, every account REMOVED, every tree IDLE, every register at the reset value of its place, and no command waiting. -/
def Obligations.ResetState : Prop :=
  State.reset.get TOP_STATE.svc_state = 1 ∧ State.reset.get TOP_RESET_CAUSE.cause = 1 ∧ State.reset.get TOP_BOOT_STAT.stage = 1 ∧
  State.reset.get SEC_LIFECYCLE.owner_valid = 0 ∧ State.reset.get HMK_NOW.reg = 0 ∧
  (∀ a, State.reset.get (ACC_BIND1.state a) = aREMOVED) ∧ (∀ t, State.reset.get (ALY_TREE_STAT.state t) = 0) ∧
  (∀ r : RF, State.reset.word r = BitVec.ofNat 64 r.rst) ∧ State.reset.pending = []

/-- The invariant holds after reset. -/
def Obligations.ResetKeepsInvariant : Prop := State.reset.Inv

/-- Every step keeps the invariant, from any state that has it. -/
def Obligations.EveryStepKeepsInvariant : Prop := ∀ s t : State, s.Inv → step s = .next t → t.Inv

/-- A command that answers a next state changes no part of State but those that `touches` lists for it; no list holds the queue of
commands or device time. -/
def Obligations.FrameOfEveryCommand : Prop :=
  (∀ (c : Instr) (s t : State), exec c s = .next t → Unchanged (fun f => decide (f ∈ touches c)) s t) ∧
  (∀ c : Instr, Fld.pending ∉ touches c ∧ Fld.clk ∉ touches c)

/-- Every well-formed command answers a next state in every state: none is refused, none faults. -/
def Obligations.EveryCommandAnswers : Prop := ∀ (c : Instr) (s : State), wellFormed c = true → ∃ t, exec c s = .next t

/-! ## Registers (00 R3 to R9, R550; 01 R13, R18) -/

/-- A register access, by Izger or through a BAR, that nothing on its way stops (`State.lets`), and a register write that is a command of
its own (`ownWrite`) (00 R6, 01 R13; parts of 00 R3, R4, R8, R550, 08 R298, R299, R305, 10 R384). -/
def Obligations.RegisterAccessesComplete : Prop :=
  -- REGISTER_WRITE: the register takes the write field by field (`regPut`)
  (∀ (a : Access) (v : BitVec 64) (s : State) r ix key, s.lets a true = true →
      s.place a = .reg r ix key → s.domIsOff (placeDom a (.reg r ix key)) = false →
      Completes (.registerWrite a v) s fun t =>
        t = s.regPut r ix key ((v.toNat % 2 ^ (coverOf a.addr.toNat a.size.toNat).2) <<< (coverOf a.addr.toNat a.size.toNat).1)
              ((2 ^ (coverOf a.addr.toNat a.size.toNat).2 - 1) <<< (coverOf a.addr.toNat a.size.toNat).1)) ∧
  -- RC_READ: the value goes to the master, and every RC field that lies wholly in the bits read is 0 afterwards; the greatest queue depth of
  -- RTE_PORT_STAT starts again from the present one (04 Table 4.24)
  (∀ (a : Access) (s : State) r ix key lo len, s.lets a false = true →
      s.place a = .reg r ix key → s.domIsOff (placeDom a (.reg r ix key)) = false → coverOf a.addr.toNat a.size.toNat = (lo, len) →
      Completes (.rcRead a) s fun t =>
        t.out = .readData (bf (s.regValue r ix key) lo len) :: s.out ∧
        (r.base ≠ (RTE_PORT_STAT3.reg 0).addr →
          ∀ l n, (l, n, Acc.rc) ∈ r.fields → lo ≤ l → l + n ≤ lo + len → t.get ⟨key, r.rst.value ix, l, n⟩ = 0) ∧
        (r.base = (RTE_PORT_STAT3.reg 0).addr → lo ≤ 32 → 48 ≤ lo + len →
          t.get (RTE_PORT_STAT3.qdepth_max (ix.headD 0)) = min (s.queued 0 (ix.headD 0) + s.queued 1 (ix.headD 0)) 0xFFFF) ∧
        SameBut [key] { s with out := t.out } t) ∧
  -- UNMAPPED_ACCESS: a read returns zero and a write is dropped; either raises UNMAPPED, with the offset
  (∀ (a : Access) (write : Bool) (s : State), s.lets a write = true → s.place a = .unmapped →
      Completes (.unmappedAccess a write) s fun t =>
        t = { s with clhIn := t.clhIn, out := t.out } ∧ t.out = (if write then s.out else .readData 0 :: s.out) ∧
        ∃ r, t.clhIn = recInsert r s.clhIn ∧ r.kind = kUNMAPPED ∧ r.addr = a.addr.toNat) ∧
  -- DOMAIN_OFF_ACCESS: the same with DOMAIN_OFF
  (∀ (a : Access) (write : Bool) (s : State), s.lets a write = true → s.place a ≠ .unmapped →
      s.domIsOff (placeDom a (s.place a)) = true →
      Completes (.domainOffAccess a write) s fun t =>
        t = { s with clhIn := t.clhIn, out := t.out } ∧ t.out = (if write then s.out else .readData 0 :: s.out) ∧
        ∃ r, t.clhIn = recInsert r s.clhIn ∧ r.kind = kDOMAIN_OFF ∧ r.sev = 0 ∧ r.addr = a.addr.toNat) ∧
  -- a register write that is a command of its own and does not reach its register has no other effect than what that does
  (∀ (c : Instr) (wr : Writer) (r : RF) (x : Nat) (s t : State), s.ownWrite c = some (wr, r, x) → (∀ ch, wr ≠ some (.mover ch)) →
      s.reach wr r.addr = (false, t) → Completes c s (· = t)) ∧
  -- by a Mover channel: the command acts when a write of it is out, as Izger's does, and that write is no longer out; with none out it does nothing
  -- (the model's choice, log entry 113)
  (∀ (c : Instr) (ch : MovNo) (r : RF) (x : Nat) (s : State), s.ownWrite c = some (some (.mover ch), r, x) →
      s.movOwn.any (fun m => m.ch == ch.val && m.addr == r.addr && bf m.v r.lo r.len == x) = false → Completes c s (· = s)) ∧
  (∀ (c d : Instr) (ch : MovNo) (r : RF) (x : Nat) (s : State) m rest, s.ownWrite c = some (some (.mover ch), r, x) → ByIzger c d →
      takeFirst (fun m : MovWrite => m.ch == ch.val && m.addr == r.addr && bf m.v r.lo r.len == x) s.movOwn = some (m, rest) →
      State.Lands { s with movOwn := rest } none r.addr → exec c s = exec d { s with movOwn := rest }) ∧
  -- from Izger, with the block's domain off: DOMAIN_OFF
  (∀ (addr : Nat) (s : State), addr < 2 ^ 48 → addr % 8 = 0 → s.boot.por = false → s.pwr.tripped = false → (s.reach none addr).1 = false →
      s.lbxAllows (s.get IZG_PAIR_STAT.active) addr true = true → ∃ t : State,
      s.reach none addr = (false, t) ∧ t = { s with clhIn := t.clhIn } ∧ ∃ x, t.clhIn = recInsert x s.clhIn ∧ x.kind = kDOMAIN_OFF ∧ x.addr = addr) ∧
  -- IZG_LOCK_SET: the lock is set
  (∀ (wr : Writer) (s : State), s.Lands wr IZG_LOCK.reg.addr →
      Completes (.izgLockSet wr) s fun t => t.get IZG_LOCK.lock = 1 ∧ SameBut [IZG_LOCK.reg.addr] s t)

/-- What a write leaves in one field of each access type, bit by bit (00 Table 0.4): RW and RWL take the bits written, W1C clears
and W1S sets those written as 1, the others keep their value; a bit the write does not cover keeps its value. -/
def Obligations.WriteByAccessType : Prop :=
  ∀ (old new m i : Nat),
    (∀ acc, m.testBit i = false → (accWrite acc old new m).testBit i = old.testBit i) ∧
    (m.testBit i = true →
      (accWrite .rw old new m).testBit i = new.testBit i ∧ (accWrite .rwl old new m).testBit i = new.testBit i ∧
      (accWrite .w1c old new m).testBit i = (old.testBit i && !new.testBit i) ∧
      (accWrite .w1s old new m).testBit i = (old.testBit i || new.testBit i) ∧
      (accWrite .ro old new m).testBit i = old.testBit i ∧ (accWrite .rc old new m).testBit i = old.testBit i ∧
      (accWrite .wo old new m).testBit i = old.testBit i)

/-- A write to an RWL field after IZG_LOCK is set leaves the field as it was and raises LOCKED_WRITE at severity S0 (00 R9), for every
field of that type, the staged rules of the Izger pairs among them. (The one register with such a field that refuses a write whole, `regRefuse`, is the
CLH_REACT entry of a kind that is never raised, whose bits are reserved.) The alert limit's field is taken to hold at most 125, which every write of it keeps. -/
def Obligations.LockedFieldsStay : Prop :=
  ∀ (a : Access) (v : BitVec 64) (s : State) r ix key lo len l n acc, s.lets a true = true →
    s.place a = .reg r ix key → s.domIsOff (placeDom a (.reg r ix key)) = false → s.regRefuse r ix key = none →
    coverOf a.addr.toNat a.size.toNat = (lo, len) → s.on IZG_LOCK.lock = true →
    (l, n, acc) ∈ r.fields → actAcc r ix acc = .rwl → lo < l + n → l < lo + len →
    s.get PWR_THERM.throttle_c ≤ 125 →
    Completes (.registerWrite a v) s fun t =>
      t.get ⟨key, r.rst.value ix, l, n⟩ = s.get ⟨key, r.rst.value ix, l, n⟩ ∧
      ∃ x ∈ t.clhIn, x.kind = kLOCKED_WRITE ∧ x.sev = 0 ∧ x.addr = key

/-! ## Accounts, rings and event queues (09) -/

/-- A write to the doorbell page of account `a` acts now. -/
def Obligations.DoorbellsAndRingsComplete : Prop :=
  -- DOORBELL_WRITE: a producer index within the ring is taken (09 R331)
  (∀ (a : AcctNo) (r : Fin 64) (v : BitVec 64) (s : State), s.memOn (s.aHl a.val) (s.aFn a.val) = true →
      s.pwr.pwrfail = false → s.stopping = false → s.aSt a.val ≠ aREMOVED → s.aSt a.val ≠ aRESETTING → s.on (ACC_RING1.enable a.val r.val) = true →
      subMod m32 (bf v.toNat 0 32) (s.prodOf a.val r.val) ≤ 2 ^ s.get (ACC_RING1.log2_size a.val r.val) →
      subMod m32 (bf v.toNat 0 32) (s.consOf a.val r.val) ≤ 2 ^ s.get (ACC_RING1.log2_size a.val r.val) →
      Completes (.doorbellWrite a r v) s fun t => ∃ u : State, t = (u.ringFetch a.val r.val).activityUpd ∧
        u.prodOf a.val r.val = bf v.toNat 0 32 ∧ u.consOf a.val r.val = s.consOf a.val r.val ∧
        SameBut [(ACC_RING2.reg a.val r.val).addr] s u) ∧
  -- INLINE_PUSH: the descriptor is pushed at the producer index, which advances (09 R333)
  (∀ (a : AcctNo) (d : BitVec 512) (s : State) (r i : Nat), bf d.toNat 16 6 = r → bf d.toNat 32 32 = i →
      s.memOn (s.aHl a.val) (s.aFn a.val) = true → s.pwr.pwrfail = false → s.stopping = false → s.aSt a.val = aACTIVE → s.on (ACC_RING1.enable a.val r) = true → s.ringSt a.val r ≠ rSTOPPED →
      s.prodOf a.val r = i → subMod m32 i (s.consOf a.val r) < 2 ^ s.get (ACC_RING1.log2_size a.val r) →
      Completes (.inlinePush a d) s fun t => ∃ u,
        t = (((u.modRing a.val r fun x => { x with pushed := tput x.pushed i d }).ringFetch a.val r).badHeads a.val (.ring (Fin.ofNat 64 r)) 64).activityUpd ∧
        u.prodOf a.val r = (i + 1) % 2 ^ 32 ∧ u.consOf a.val r = s.consOf a.val r ∧ SameBut [(ACC_RING2.reg a.val r).addr] s u) ∧
  -- EQ_CONSUMER_DOORBELL: the consumer index moves up to the producer index at most; bit 32 arms (09 R345, R346)
  (∀ (a : AcctNo) (q : Fin 64) (v : BitVec 64) (s : State), s.memOn (s.aHl a.val) (s.aFn a.val) = true →
      s.pwr.pwrfail = false → s.stopping = false → s.aSt a.val ≠ aREMOVED → s.aSt a.val ≠ aRESETTING →
      subMod m32 (bf v.toNat 0 32) (s.get (ACC_EQ2.consumer a.val q.val)) ≤
        subMod m32 (s.get (ACC_EQ2.producer a.val q.val)) (s.get (ACC_EQ2.consumer a.val q.val)) →
      Completes (.eqConsumerDoorbell a q v) s fun t => ∃ u,
        t = (if bit v.toNat 32 ∧ s.get (ACC_EQ2.producer a.val q.val) ≠ bf v.toNat 0 32 ∧ s.on (ACC_EQ1.irq_en a.val q.val) then
               u.msix (u.aHl a.val) (u.aFn a.val) (u.get (ACC_EQ1.vector a.val q.val)) else u) ∧
        u.get (ACC_EQ2.consumer a.val q.val) = bf v.toNat 0 32 ∧ u.get (ACC_EQ2.producer a.val q.val) = s.get (ACC_EQ2.producer a.val q.val) ∧
        u.get (ACC_EQ3.armed a.val q.val) = (if bit v.toNat 32 then 1 else s.get (ACC_EQ3.armed a.val q.val)) ∧
        SameBut [(ACC_EQ2.reg a.val q.val).addr, (ACC_EQ3.reg a.val q.val).addr] s u) ∧
  (∀ (a : AcctNo) (q : Fin 64) (v : BitVec 64) (s : State), s.memOn (s.aHl a.val) (s.aFn a.val) = true →
      s.pwr.pwrfail = false → s.stopping = false → s.aSt a.val ≠ aREMOVED → s.aSt a.val ≠ aRESETTING →
      subMod m32 (s.get (ACC_EQ2.producer a.val q.val)) (s.get (ACC_EQ2.consumer a.val q.val)) <
        subMod m32 (bf v.toNat 0 32) (s.get (ACC_EQ2.consumer a.val q.val)) →
      Completes (.eqConsumerDoorbell a q v) s fun t => t = s.bump ACC_CNT_DB_IGN.ev) ∧
  -- RING_ENABLE: the ring runs, and the pool has one fewer (09 R329)
  (∀ (a : AcctNo) (r : Fin 64) (s : State), s.aSt a.val ≠ aREMOVED → s.on (ACC_RING1.enable a.val r.val) = false →
      (s.ring a.val r.val).stopNotice = false → s.get ACC_STAT.rings_free ≠ 0 →
      Completes (.ringEnable a r) s fun t => ∃ u : State, t = ((u.modRing a.val r.val fun x => x).ringFetch a.val r.val).activityUpd ∧
        u.get (ACC_RING1.enable a.val r.val) = 1 ∧ u.ringSt a.val r.val = rRUNNING ∧
        u.get ACC_STAT.rings_free + 1 = s.get ACC_STAT.rings_free ∧
        u.prodOf a.val r.val = s.prodOf a.val r.val ∧ u.consOf a.val r.val = s.consOf a.val r.val ∧
        SameBut [ACC_STAT.reg.addr, (ACC_RING1.reg a.val r.val).addr, (ACC_RING3.reg a.val r.val).addr] s u) ∧
  -- RING_DISABLE: the ring goes back to the pool and keeps its indices; nothing stays staged (09 R329)
  (∀ (a : AcctNo) (r : Fin 64) (s : State), s.aSt a.val ≠ aREMOVED → s.on (ACC_RING1.enable a.val r.val) = true →
      s.get ACC_STAT.rings_free < 65536 →
      Completes (.ringDisable a r) s fun t => ∃ u : State, t = u.activityUpd ∧
        u.get (ACC_RING1.enable a.val r.val) = 0 ∧ u.ringSt a.val r.val = rDISABLED ∧ u.get (ACC_RING3.stop_cause a.val r.val) = 0 ∧
        u.get ACC_STAT.rings_free = s.get ACC_STAT.rings_free + 1 ∧
        u.prodOf a.val r.val = s.prodOf a.val r.val ∧ u.consOf a.val r.val = s.consOf a.val r.val ∧
        (u.ring a.val r.val).staged = [] ∧ (u.ring a.val r.val).pushed = [] ∧ (u.ring a.val r.val).live = (s.ring a.val r.val).live) ∧
  -- EQ_ENABLE and EQ_DISABLE (09 R339)
  (∀ (a : AcctNo) (q : Fin 64) (s : State), s.aSt a.val ≠ aREMOVED → s.eqOn a.val q.val = false → s.get ACC_STAT.eqs_free ≠ 0 →
      Completes (.eqEnable a q) s fun t => t.eqOn a.val q.val = true ∧ t.get ACC_STAT.eqs_free + 1 = s.get ACC_STAT.eqs_free ∧
        SameBut [ACC_STAT.reg.addr, (ACC_EQ1.reg a.val q.val).addr] s t) ∧
  (∀ (a : AcctNo) (q : Fin 64) (s : State), s.aSt a.val ≠ aREMOVED → s.eqOn a.val q.val = true →
      s.get (ACC_EQ3.reserved_events a.val q.val) = 0 → s.get (ACC_NOTIFY.eq a.val) ≠ q.val → s.get ACC_STAT.eqs_free < 65536 →
      Completes (.eqDisable a q) s fun t => t.eqOn a.val q.val = false ∧ t.get ACC_STAT.eqs_free = s.get ACC_STAT.eqs_free + 1 ∧
        SameBut [ACC_STAT.reg.addr, (ACC_EQ1.reg a.val q.val).addr] s t)

/-- What consuming a descriptor from a ring does (09 R332, R343, R351): the consumer index advances, its event is owed to its
queue, 64 bytes are charged, it leaves the staged ones and is counted as in progress under a number of its own. -/
def Obligations.DescriptorConsumed : Prop :=
  ∀ (a : AcctNo) (r : Fin 64) (d : Desc) (s : State),
    (s.taken a.val (.ring r) d).consOf a.val r.val = (s.consOf a.val r.val + 1) % 2 ^ 32 ∧
    (s.taken a.val (.ring r) d).prodOf a.val r.val = s.prodOf a.val r.val ∧
    (s.taken a.val (.ring r) d).ringSt a.val r.val = rRUNNING ∧
    (s.taken a.val (.ring r) d).get (ACC_EQ3.reserved_events a.val (bf d.toNat 8 6)) =
      (s.get (ACC_EQ3.reserved_events a.val (bf d.toNat 8 6)) + 1) % 2 ^ 21 ∧
    (s.taken a.val (.ring r) d).get (ACC_BIND3.charged a.val) = min (s.get (ACC_BIND3.charged a.val) + 64) (2 ^ 48 - 1) ∧
    ((s.taken a.val (.ring r) d).ring a.val r.val).staged = (s.ring a.val r.val).staged.drop 1 ∧
    ((s.taken a.val (.ring r) d).ring a.val r.val).live = (s.ring a.val r.val).live ++ [s.nextId] ∧
    SameBut [(ACC_RING2.reg a.val r.val).addr, (ACC_RING3.reg a.val r.val).addr, (ACC_EQ3.reg a.val (bf d.toNat 8 6)).addr,
             (ACC_BIND3.reg a.val).addr]
      { s with accts := (s.taken a.val (.ring r) d).accts, nextId := s.nextId + 1 } (s.taken a.val (.ring r) d)

/-- How an event is written (09 R339, R340, R346): the producer index advances, a queue with irq_en disarms, and 32 bytes go to the slot of
the index, with a phase bit that changes each time round, and with the queue's interrupt when it was armed. -/
def Obligations.EventWritten : Prop :=
  ∀ (a : AcctNo) (q : Fin 64) (w0 w1 w2 w3 : Nat) (s : State),
    ∃ u : State,
      s.eqWrite a.val q.val w0 w1 w2 w3 = u.postHeld (s.aHl a.val)
        { fn := s.aFn a.val, pasid := s.aPasid a.val,
          addr := s.get (ACC_EQ0.base a.val q.val) / 4096 * 4096 +
            32 * (s.get (ACC_EQ2.producer a.val q.val) % 2 ^ s.get (ACC_EQ1.log2_size a.val q.val)),
          data := bytesOf 32 (joinWords [w0 + (if (s.get (ACC_EQ2.producer a.val q.val) / 2 ^ s.get (ACC_EQ1.log2_size a.val q.val)) % 2 = 0
                    then 2 ^ 16 else 0), w1, w2, w3]),
          vec := if s.on (ACC_EQ3.armed a.val q.val) && s.on (ACC_EQ1.irq_en a.val q.val) then some (s.get (ACC_EQ1.vector a.val q.val)) else none } ∧
      u.get (ACC_EQ2.producer a.val q.val) = (s.get (ACC_EQ2.producer a.val q.val) + 1) % 2 ^ 32 ∧
      u.get (ACC_EQ2.consumer a.val q.val) = s.get (ACC_EQ2.consumer a.val q.val) ∧ u.get (ACC_EQ3.armed a.val q.val) =
        (if s.on (ACC_EQ1.irq_en a.val q.val) then 0 else s.get (ACC_EQ3.armed a.val q.val)) ∧
      SameBut [(ACC_EQ2.reg a.val q.val).addr, (ACC_EQ3.reg a.val q.val).addr] s u

/-- Descriptors reach the device and are served in turn (09 R332, R338, R344, R351). -/
def Obligations.DescriptorServiceCompletes : Prop :=
  -- DESCRIPTOR_FETCH_COMPLETE: what the read returned is staged behind what is there
  (∀ (a : AcctNo) (r : Fin 64) (ds : List Desc) (s : State) t0,
      (s.tags.find? fun t => t.hl == s.aHl a.val && t.why == .desc a.val r.val && !t.quarantined) = some t0 → t0.gen = s.aGen a.val →
      Completes (.descriptorFetchComplete a r (.ok ds)) s fun t => ∃ u : State, t = u.after a.val (.ring r) ∧
        (u.ring a.val r.val).staged = (s.ring a.val r.val).staged ++ ds.take (s.ring a.val r.val).fetching ∧
        (u.ring a.val r.val).fetching = 0) ∧
  -- NOP: consumed, and completes with NOP_DONE
  (∀ (a : AcctNo) (src : Source) (d : Desc) ring idx (s : State), s.Serves a.val src 0 d ring idx →
      Completes (.nop a src) s fun t =>
        t = ((s.taken a.val src d).complete (s.evTaken a.val src d ring idx) evNOP_DONE 0 idx 0 0 false).after a.val src) ∧
  -- FENCE of scope 0 behind descriptors in progress: it waits for exactly them
  (∀ (a : AcctNo) (r : Fin 64) (d : Desc) idx (s : State), s.Serves a.val (.ring r) 9 d r.val idx → bit d.toNat 64 = false →
      (s.acct a.val).rings.all (fun x => x.2.fence.isNone) = true → (s.ring a.val r.val).live.filter (· != s.nextId) ≠ [] →
      Completes (.fence a (.ring r)) s fun t => ∃ u : State, t = u.after a.val (.ring r) ∧
        (u.ring a.val r.val).fence = some (s.evTaken a.val (.ring r) d r.val idx, (s.ring a.val r.val).live.filter (· != s.nextId)) ∧
        (u.ring a.val r.val).fenceAll = false) ∧
  -- ALLOWANCE_TURN: the account whose turn it is gains 256 bytes for each unit of its weight; its visit begins, in which COLL segments that waited
  -- for it go
  (∀ (n : HostLink) (a : AcctNo) (s : State), s.drrNext n.val = some a.val →
      Completes (.allowanceTurn n a) s fun t => ∃ u : State, t = (u.starvedGo a.val).idleZero a.val ∧
        (u.acct a.val).deficit = (s.acct a.val).deficit + (s.acct a.val).weight * 256 ∧
        (u.hl n.val).drrRound = some a.val ∧ u = { s with hls := u.hls, accts := u.accts } ∧
        (∀ b, b ≠ a.val → u.acct b = s.acct b) ∧ (∀ m, m ≠ n.val → u.hl m = s.hl m)) ∧
  -- NOTICE_WRITE: the oldest waiting notice is written and waits no longer
  (∀ (a : AcctNo) (s : State) n rest, takeFirst (fun n : Notice => n.acct == a.val) s.notices = some (n, rest) →
      s.noticeRoom a.val = true →
      Completes (.noticeWrite a) s fun t =>
        t = (State.noticeWrite { s with notices := rest } n).fullUpd a.val (s.get (ACC_NOTIFY.eq a.val)) ∧ t.notices = rest)

/-- The commands of ACC_CMD (parts of 09 R349, R356 to R360; 16 R545). -/
def Obligations.AccountCommandsComplete : Prop :=
  -- BIND: a REMOVED account whose binding R325 allows (log entry 85) becomes ACTIVE with its generation one higher
  (∀ (wr : Writer) (v : Word) (a : Nat) (s : State), s.accGo v 1 a → s.aSt a = aREMOVED → s.hlPresent (s.aHl a) = true → (s.boundOn (s.aHl a)).length < 2048 →
      s.bindFits a (s.aPasid a) = true →
      s.Lands wr ACC_CMD0.reg.addr →
      Completes (.bind wr v) s fun t => t.aSt a = aACTIVE ∧ t.aGen a = (s.aGen a + 1) % 65536 ∧ t.get ACC_CMD0.result = rcOK ∧
        t.get ACC_CMD0.done = 1 ∧ t.get ACC_CMD0.account = a ∧ (t.acct a).weight = s.get (ACC_BIND2.weight a) ∧ (t.acct a).rings = [] ∧
        SameBut [ACC_CMD0.reg.addr, (ACC_BIND1.reg a).addr] { s with accts := t.accts, acctCmds := t.acctCmds } t) ∧
  -- RESET and REMOVE of a generation-number account: its generation rises at once, its state is purged, it is ACTIVE or REMOVED
  (∀ (wr : Writer) (v : Word) (a : Nat) (s : State), s.accGo v 2 a → s.aSt a = aACTIVE ∨ s.aSt a = aFROZEN → s.privileged a = false → s.genMay a = true →
      s.Lands wr ACC_CMD0.reg.addr →
      Completes (.accountReset wr v) s fun t => t.aSt a = aACTIVE ∧ ∃ u : State, t = u.resetEnd a ∧ u.aSt a = aRESETTING ∧
        u.aGen a = (s.aGen a + 1) % 65536 ∧ (u.acct a).removing = false) ∧
  (∀ (wr : Writer) (v : Word) (a : Nat) (s : State), s.accGo v 3 a → s.aSt a = aACTIVE ∨ s.aSt a = aFROZEN → s.privileged a = false → s.genMay a = true →
      s.Lands wr ACC_CMD0.reg.addr → Completes (.remove wr v) s fun t => t.aSt a = aREMOVED ∧ ∃ u : State, t = u.resetEnd a ∧ u.aSt a = aRESETTING ∧
        u.aGen a = (s.aGen a + 1) % 65536 ∧ (u.acct a).removing = true) ∧
  -- FREEZE: the account is FROZEN and the command runs until FREEZE_QUIESCED or FREEZE_BOUND_EXPIRY
  (∀ (wr : Writer) (v : Word) (a : Nat) (s : State), s.accGo v 4 a → s.aSt a = aACTIVE → s.pwrState ≠ 2 → s.get ACC_MIG.freeze_ms ≠ 0 →
      s.Lands wr ACC_CMD0.reg.addr → Completes (.freeze wr v) s fun t => t.aSt a = aFROZEN ∧ t.get (ACC_BIND1.quiesced a) = 0 ∧ t.aGen a = s.aGen a ∧
        (t.acct a).freezing = true ∧ (t.acct a).saved = false ∧ t.get ACC_CMD0.done = 0 ∧
        t.acctCmds = s.acctCmds ++ [{ cmd := 4, acct := a, addr := s.get ACC_CMD1.image_addr, len := s.get ACC_CMD2.image_len }] ∧
        SameBut [ACC_CMD0.reg.addr, (ACC_BIND1.reg a).addr] { s with accts := t.accts, acctCmds := t.acctCmds } t) ∧
  -- THAW: a FROZEN account is ACTIVE again, and says so
  (∀ (wr : Writer) (v : Word) (a : Nat) (s : State), s.accGo v 5 a → s.aSt a = aFROZEN →
      s.Lands wr ACC_CMD0.reg.addr →
      Completes (.thaw wr v) s fun t => t.get ACC_CMD0.result = rcOK ∧ t.get ACC_CMD0.done = 1 ∧ ∃ (u : State) (c : AcctCmd),
        t = ((((u.acctNotice a 2).fireWhere fun o => o.ev.acct == a).acctFetch a).activityUpd).cmdEnd c rcOK ∧ c.acct = a ∧
        u.aSt a = aACTIVE ∧ u.get (ACC_BIND1.quiesced a) = 0 ∧ (u.acct a).freezing = false) ∧
  -- a code that Table 9.7 does not list ends BAD_CMD
  (∀ (wr : Writer) (v : Word) (a code : Nat) (s : State), s.accGo v code a → code = 0 ∨ 9 ≤ code →
      s.Lands wr ACC_CMD0.reg.addr → Completes (.accBadCmd wr v) s fun t => t.get ACC_CMD0.result = rcBAD_CMD ∧ t.get ACC_CMD0.done = 1 ∧
        SameBut [ACC_CMD0.reg.addr] { s with acctCmds := t.acctCmds } t)

/-- The commands of ACC_SLICE_CMD act on the account of the slice they name, and end there (part of 09 R327; which slices R325 lets bind: log
entry 85). -/
def Obligations.SliceCommandsComplete : Prop :=
  -- BIND: a REMOVED account becomes ACTIVE with its generation one higher, and with the charter and PASID of the command
  (∀ (n : HostLink) (v : Word) (a : Nat) (s : State), s.sliceGo n.val v 1 a →
      s.aSt a = aREMOVED → s.hlPresent (s.aHl a) = true → (s.boundOn (s.aHl a)).length < 2048 →
      s.bindFits a (some (s.get (ACC_SLICE_CMD1.pasid n.val))) = true → s.get (ACC_CHARTER_RANGE.low n.val) ≤ s.get (ACC_SLICE_CMD1.charter n.val) →
      s.get (ACC_SLICE_CMD1.charter n.val) ≤ s.get (ACC_CHARTER_RANGE.high n.val) → a < 16384 →
      Completes (.sliceBind n v) s fun t => t.aSt a = aACTIVE ∧ t.aGen a = (s.aGen a + 1) % 65536 ∧
        t.aCharter a = s.get (ACC_SLICE_CMD1.charter n.val) ∧ t.aPasid a = some (s.get (ACC_SLICE_CMD1.pasid n.val)) ∧
        t.get (ACC_SLICE_CMD0.result n.val) = rcOK ∧ t.get (ACC_SLICE_CMD0.done n.val) = 1 ∧
        SameBut [(ACC_SLICE_CMD0.reg n.val).addr, (ACC_BIND0.reg a).addr, (ACC_BIND1.reg a).addr]
          { s with accts := t.accts, acctCmds := t.acctCmds } t) ∧
  -- RESET and REMOVE of a generation-number account: it is purged, and ACTIVE or REMOVED
  (∀ (n : HostLink) (v : Word) (a : Nat) (s : State), s.sliceGo n.val v 2 a → s.aSt a = aACTIVE ∨ s.aSt a = aFROZEN → a < 16384 →
      s.privileged a = false → s.genMay a = true →
      Completes (.sliceReset n v) s fun t => t.aSt a = aACTIVE ∧ ∃ u : State, t = u.resetEnd a ∧ u.aSt a = aRESETTING ∧
        u.aGen a = (s.aGen a + 1) % 65536 ∧ (u.acct a).removing = false) ∧
  (∀ (n : HostLink) (v : Word) (a : Nat) (s : State), s.sliceGo n.val v 3 a → s.aSt a = aACTIVE ∨ s.aSt a = aFROZEN → a < 16384 →
      s.privileged a = false → s.genMay a = true →
      Completes (.sliceRemove n v) s fun t => t.aSt a = aREMOVED ∧ ∃ u : State, t = u.resetEnd a ∧ u.aSt a = aRESETTING ∧
        u.aGen a = (s.aGen a + 1) % 65536 ∧ (u.acct a).removing = true) ∧
  -- FREEZE: the account is FROZEN, and the command runs
  (∀ (n : HostLink) (v : Word) (a : Nat) (s : State), s.sliceGo n.val v 4 a → s.aSt a = aACTIVE → s.pwrState ≠ 2 →
      s.get ACC_MIG.freeze_ms ≠ 0 → a < 16384 →
      Completes (.sliceFreeze n v) s fun t => t.aSt a = aFROZEN ∧ t.get (ACC_BIND1.quiesced a) = 0 ∧ (t.acct a).freezing = true ∧
        t.get (ACC_SLICE_CMD0.done n.val) = 0 ∧
        SameBut [(ACC_SLICE_CMD0.reg n.val).addr, (ACC_BIND1.reg a).addr] { s with accts := t.accts, acctCmds := t.acctCmds } t) ∧
  -- THAW: a FROZEN account is ACTIVE again, and says so
  (∀ (n : HostLink) (v : Word) (a : Nat) (s : State), s.sliceGo n.val v 5 a → s.aSt a = aFROZEN → a < 16384 →
      Completes (.sliceThaw n v) s fun t => t.get (ACC_SLICE_CMD0.result n.val) = rcOK ∧ t.get (ACC_SLICE_CMD0.done n.val) = 1 ∧
        ∃ (u : State) (c : AcctCmd), t = ((((u.acctNotice a 2).fireWhere fun o => o.ev.acct == a).acctFetch a).activityUpd).cmdEnd c rcOK ∧
        c.acct = a ∧ u.aSt a = aACTIVE ∧ u.get (ACC_BIND1.quiesced a) = 0 ∧ (u.acct a).freezing = false) ∧
  -- STUB, or a code that Table 9.7 does not list, ends BAD_CMD
  (∀ (n : HostLink) (v : Word) (a code : Nat) (s : State), s.sliceGo n.val v code a → code = 0 ∨ 8 ≤ code →
      Completes (.sliceBadCmd n v) s fun t => t.get (ACC_SLICE_CMD0.result n.val) = rcBAD_CMD ∧ t.get (ACC_SLICE_CMD0.done n.val) = 1 ∧
        SameBut [(ACC_SLICE_CMD0.reg n.val).addr] { s with acctCmds := t.acctCmds } t)

/-- Migration: saving, restoring, stubs (parts of 09 R362 to R364; 16 N22). -/
def Obligations.MigrationCommandsComplete : Prop :=
  -- SAVE and its slice form: a FROZEN, quiesced account is MIGRATING while its image is written
  (∀ (wr : Writer) (v : Word) (a : Nat) (s : State), s.accGo v 6 a → s.aSt a = aFROZEN → s.on (ACC_BIND1.quiesced a) = true → s.pwrState ≠ 2 →
      (((s.set ACC_CMD0.account a).set ACC_CMD0.cmd 6).image a []).length ≤ s.get ACC_CMD2.image_len →
      s.Lands wr ACC_CMD0.reg.addr → Completes (.save wr v) s fun t => t.aSt a = aMIGRATING ∧ t.get ACC_CMD0.done = 0 ∧
        t.acctCmds = s.acctCmds ++ [{ cmd := 6, acct := a, addr := s.get ACC_CMD1.image_addr, len := s.get ACC_CMD2.image_len }] ∧
        SameBut [ACC_CMD0.reg.addr, (ACC_BIND1.reg a).addr] { s with acctCmds := t.acctCmds } t) ∧
  (∀ (n : HostLink) (v : Word) (a : Nat) (s : State), s.sliceGo n.val v 6 a → s.aSt a = aFROZEN → s.on (ACC_BIND1.quiesced a) = true →
      s.pwrState ≠ 2 → a < 16384 →
      (((s.set (ACC_SLICE_CMD0.page n.val) (bf v.toNat 0 11)).set (ACC_SLICE_CMD0.cmd n.val) 6).image a []).length ≤ s.get (ACC_SLICE_CMD3.image_len n.val) →
      Completes (.sliceSave n v) s fun t => t.aSt a = aMIGRATING ∧ t.get (ACC_SLICE_CMD0.done n.val) = 0 ∧
        SameBut [(ACC_SLICE_CMD0.reg n.val).addr, (ACC_BIND1.reg a).addr] { s with acctCmds := t.acctCmds } t) ∧
  -- SAVE_IMAGE_WRITTEN: the image, with what the account's host book holds of it, goes to the buffer; the account is FROZEN, and STUB may follow
  (∀ (hv : HostView) (s : State) (c : AcctCmd) out n fn pas addr, s.running 6 = some c → c.slice = none → c.acct < 16384 →
      s.gate (s.aHl c.acct) (s.aFn c.acct) (s.aPasid c.acct) (s.bookGoneAccs c.acct) hv = (.go, s) → s.bookHost c.acct hv = some out →
      (s.image c.acct out).length ≤ c.len → s.bufGate c (s.image c.acct out).length true = (.go, (n, fn, pas, addr), s) →
      Completes (.saveImageWritten hv) s fun t => ∃ u : State, u = s.post n fn pas addr (s.image c.acct out) false ∧
        t = ((((u.set ACC_CMD2.image_len (s.image c.acct out).length).modAcct c.acct fun x => { x with saved := true }).set
              (ACC_BIND1.state c.acct) aFROZEN).cmdEnd c rcOK) ∧
        t.aSt c.acct = aFROZEN ∧ (t.acct c.acct).saved = true ∧ t.get ACC_CMD0.result = rcOK ∧ t.get ACC_CMD0.done = 1) ∧
  -- RESTORE and its slice form: for an account whose binding R325 allows (log entry 85) an image that passes its checks makes it MIGRATING
  (∀ (wr : Writer) (v : Word) (hv : HostView) (a : Nat) (s u : State) (img : List Byte), s.accGo v 7 a → s.aSt a = aREMOVED → s.pwrState ≠ 2 →
      s.hlPresent (s.aHl a) = true → (s.boundOn (s.aHl a)).length < 2048 → s.bindFits a (s.aPasid a) = true →
      ((s.set ACC_CMD0.account a).set ACC_CMD0.cmd 7).imgFetch
          { cmd := 7, acct := a, addr := s.get ACC_CMD1.image_addr, len := s.get ACC_CMD2.image_len } hv = (some (0, img), u) →
      s.Lands wr ACC_CMD0.reg.addr → Completes (.restore wr v hv) s fun t =>
        t = (u.cmdRun { cmd := 7, acct := a, addr := s.get ACC_CMD1.image_addr, len := s.get ACC_CMD2.image_len }).set (ACC_BIND1.state a) aMIGRATING ∧
        t.aSt a = aMIGRATING ∧ t.get ACC_CMD0.done = 0) ∧
  (∀ (n : HostLink) (v : Word) (hv : HostView) (a : Nat) (s u : State) (img : List Byte), s.sliceGo n.val v 7 a → s.aSt a = aREMOVED →
      s.pwrState ≠ 2 → s.hlPresent (s.aHl a) = true → (s.boundOn (s.aHl a)).length < 2048 → s.bindFits a (s.aPasid a) = true → a < 16384 →
      ((s.set (ACC_SLICE_CMD0.page n.val) (bf v.toNat 0 11)).set (ACC_SLICE_CMD0.cmd n.val) 7).imgFetch
          { cmd := 7, acct := a, slice := some n.val, addr := s.get (ACC_SLICE_CMD2.image_iova n.val), len := s.get (ACC_SLICE_CMD3.image_len n.val) } hv
        = (some (0, img), u) →
      Completes (.sliceRestore n v hv) s fun t => t.aSt a = aMIGRATING ∧ t.get (ACC_SLICE_CMD0.done n.val) = 0 ∧
        t = (u.cmdRun { cmd := 7, acct := a, slice := some n.val, addr := s.get (ACC_SLICE_CMD2.image_iova n.val),
                        len := s.get (ACC_SLICE_CMD3.image_len n.val) }).set (ACC_BIND1.state a) aMIGRATING) ∧
  -- RESTORE_IMAGE_LOADED: the image and the entries of its spill areas are loaded; the account is FROZEN and quiesced, and a notice says so
  (∀ (hv sv : HostView) (s u v : State) (c : AcctCmd) (img : List Byte), s.running 7 = some c → s.imgFetch c hv = (some (0, img), u) →
      u.gate (u.aHl c.acct) (u.aFn c.acct) (u.aPasid c.acct)
        (areaAccs (u.areasOf c.acct (((secOf img 2).getD []).getD 2 0) ((secOf img 3).getD []))) sv = (.go, u) →
      u.imgLoad c.acct img sv = some v →
      Completes (.restoreImageLoaded hv sv) s fun t => ∃ w : State, t = (w.acctNotice c.acct 3).cmdEnd c rcOK ∧
        w = (v.set (ACC_BIND1.state c.acct) aFROZEN).set (ACC_BIND1.quiesced c.acct) 1 ∧
        w.aSt c.acct = aFROZEN ∧ w.on (ACC_BIND1.quiesced c.acct) = true) ∧
  -- STUB: an entry of the stub table is taken; the account is REMOVED, its generation one higher
  (∀ (wr : Writer) (v : Word) (a i : Nat) (s : State), s.accGo v 8 a → s.aSt a = aFROZEN → (s.acct a).saved = true →
      ((List.range 64).find? fun i => !s.on (ACC_STUB0.valid i)) = some i →
      s.Lands wr ACC_CMD0.reg.addr → Completes (.stub wr v) s fun t => t.aSt a = aREMOVED ∧ t.get ACC_CMD0.result = rcOK ∧ t.get ACC_CMD0.done = 1 ∧
        ∃ (u : State) (c : AcctCmd), t = (((u.acctPurge a).set (ACC_BIND1.state a) aREMOVED).set (ACC_BIND1.quiesced a) 0).cmdEnd c rcOK ∧
          u.get (ACC_STUB0.account i) = a ∧ u.get (ACC_STUB0.new_account i) = s.get ACC_CMD3.new_account ∧
          u.get (ACC_STUB0.new_endpoint i) = s.get ACC_CMD3.new_endpoint ∧
          u.get (ACC_STUB0.valid i) = (if s.get ACC_MIG.stub_ms = 0 then 0 else 1) ∧
          u.get (ACC_STUB1.expiry i) = (s.now + s.get ACC_MIG.stub_ms * 4000000) % 2 ^ 64 ∧ u.aGen a = (s.aGen a + 1) % 65536) ∧
  -- STUB_EXPIRY and STUB_CANCEL: the stub answers no more
  (∀ (k : Nat) (s : State), k < 64 →
      s.get (ACC_STUB1.expiry k) ≤ s.now →
      Completes (.stubExpiry k) s fun t => t.on (ACC_STUB0.valid k) = false ∧ SameBut [(ACC_STUB0.reg k).addr] s t) ∧
  (∀ (wr : Writer) (k : Nat) (s : State), k < 64 → s.Lands wr (ACC_STUB0.reg k).addr →
      Completes (.stubCancel wr k) s fun t => t.on (ACC_STUB0.valid k) = false ∧ SameBut [(ACC_STUB0.reg k).addr] s t)

/-- The end of a freeze, of its bound and of a drain (parts of 09 R358, R360), and VF Enable set and cleared (parts of 09 R328). -/
def Obligations.AccountEndingsComplete : Prop :=
  -- FREEZE_QUIESCED, with nothing of the account in flight and no event waiting: the contexts are spilled, quiesced reads 1, a notice
  -- says so, and a running FREEZE ends OK
  (∀ (a : AcctNo) (s : State), s.aSt a.val = aFROZEN → (s.acct a.val).freezing = true → s.workRuns a.val = false →
      s.eventsWait a.val = false → (s.acct a.val).rings.all (fun x => x.2.fence.isNone) = true →
      Completes (.freezeQuiesced a) s fun t => ∃ u : State, t = (u.acctNotice a.val 1).cmdDone a.val 4 rcOK ∧
        u = ((s.spillAll a.val).set (ACC_BIND1.quiesced a.val) 1).modAcct a.val (fun x => { x with freezing := false }) ∧
        u.on (ACC_BIND1.quiesced a.val) = true ∧ (u.acct a.val).freezing = false) ∧
  -- FREEZE_BOUND_EXPIRY with no match of the account: its messages fail with FREEZE_BOUND, but for an RTS that its receipt has
  -- acknowledged and a FIN; the trees on which it has a COLL abort (cause 6); its MOVEs stop and its FENCEs end with FREEZE_BOUND
  (∀ (a : AcctNo) (s : State), s.aSt a.val = aFROZEN → (s.acct a.val).freezing = true → s.lmatches.all (·.recv.acct != a.val) = true →
      Completes (.freezeBoundExpiry a) s fun t => ∃ u v : State,
        u = (s.srcMsgs.filter fun m => m.ev.acct == a.val && !(m.kind == .rts && m.acked) && m.kind != .fin).foldl
              (fun s m => match s.srcMsg m.id with | some m => s.msgFail m stFREEZE_BOUND | none => s) s.serveAll ∧
        v = (u.trees.filter fun x => x.2.ops.any (·.ev.acct == a.val)).foldl (fun s x => s.abortTree x.1 6) u ∧
        t = ((v.mvAcct a.val (some stFREEZE_BOUND)).fencesBound a.val).activityUpd) ∧
  -- ACCOUNT_DRAIN_END: the account ends as RESET or REMOVE asks; its generation is one higher, unless it had risen already
  (∀ (a : AcctNo) (s : State), s.aSt a.val = aRESETTING → s.drained a.val = true →
      Completes (.accountDrainEnd a) s fun t => ∃ u : State, t = u.resetEnd a.val ∧
        u.aGen a.val = (if (s.acct a.val).drain = 3 then s.aGen a.val else (s.aGen a.val + 1) % 65536) ∧
        SameBut [(ACC_BIND1.reg a.val).addr] s u ∧
        t.aSt a.val = (if (s.acct a.val).removing then aREMOVED else aACTIVE) ∧ t.on (ACC_BIND1.quiesced a.val) = false) ∧
  -- VF_ENABLE_SET: VF Enable and NumVFs read what was written; BIND is tried for each account that names a VF of the link up to
  -- NumVFs with auto_bind = 1, and for no other
  (∀ (n : HostLink) (numVfs : Nat) (s : State), s.Inv → s.hlPresent n.val = true → s.slices n.val = false →
      Completes (.vfEnableSet n numVfs) s fun t => (t.hl n.val).vfEnable = true ∧ (t.hl n.val).numVfs = numVfs ∧
        (∀ m, m ≠ n.val → t.hl m = s.hl m) ∧ t = { s with hls := t.hls, regs := t.regs, accts := t.accts } ∧ ∃ mine : List Nat,
        t = mine.foldl (fun s a => (s.bindAcct a (s.aPasid a)).2) (s.modHl n.val fun h => { h with vfEnable := true, numVfs }) ∧
        ∀ a, a ∈ mine ↔ a < 16384 ∧ s.aHl a = n.val ∧ s.on (ACC_BIND0.slice a) = false ∧ s.on (ACC_BIND0.auto_bind a) = true ∧
          2 ≤ s.aFn a ∧ s.aFn a ≤ 1 + numVfs) ∧
  -- VF_ENABLE_CLEAR: the link has no VF any more, and each account bound to one of its VFs is taken as by REMOVE
  (∀ (n : HostLink) (s : State),
      Completes (.vfEnableClear n) s fun t => (t.hl n.val).vfEnable = false ∧
        (∀ fn, 2 ≤ fn → fn < 512 → tget t.fns (n.val * 512 + fn) = none) ∧ (t.hl n.val).draining.all (fun f => decide (f < 2)) = true ∧
        ∃ u : State, u = ((s.boundOn n.val).filter fun a => decide (2 ≤ s.aFn a)).foldl (fun s a => s.acctReset a true) s ∧
          t = { u with hls := t.hls, fns := t.fns, regs := t.regs } ∧ ∀ b : AcctNo, t.aSt b.val = u.aSt b.val ∧ t.aGen b.val = u.aGen b.val) ∧
  -- and one such account, ACTIVE or FROZEN, whose generation may rise is REMOVED at once
  (∀ (n : HostLink) (a : Nat) (s : State), ((s.boundOn n.val).filter fun a => decide (2 ≤ s.aFn a)) = [a] →
      s.aSt a = aACTIVE ∨ s.aSt a = aFROZEN → s.privileged a = false → s.genMay a = true →
      Completes (.vfEnableClear n) s fun t => t.aSt a = aREMOVED)

/-! ## Teller and Transport (05) -/

/-- PUT, GET and ATOMIC descriptors that pass the checks of 05 Table 5.5 open an entry of the source message table, with the translation of
their rank and the operands of the descriptor (parts of 05 R161, R187); an ORDER that passes them is parked (part of 05 R207). -/
def Obligations.TellerDescriptorsComplete : Prop :=
  (∀ (a : AcctNo) (src : Source) (hv : HostView) (d : Desc) ring idx (s g : State), s.ServesHost g a.val src 1 (s.tellerAccs a.val d) hv d ring idx →
      g.srcFull = false → ((g.taken a.val src d).tellerCheck a.val d hv false).1 = 0 →
      Completes (.put a src hv) s fun t => ∃ (v : State) (m : SrcMsg), t = v.after a.val src ∧
        v.srcMsgs = ((g.taken a.val src d).tellerCheck a.val d hv false).2.2.2.srcMsgs ++ [m] ∧ m.kind = .put ∧ m.ev.acct = a.val ∧
        m.ev.eq = bf d.toNat 8 6 ∧ m.dst = ((g.taken a.val src d).tellerCheck a.val d hv false).2.1 ∧ m.total = dw d 4 0 40 ∧
        m.key = dw d 1 32 32 ∧ m.roff = dw d 2 0 64 ∧ m.next = 0 ∧ m.pat = ((g.taken a.val src d).tellerCheck a.val d hv false).2.2.1 ∧
        (m.visible = true ↔ dw d 1 24 1 = 1)) ∧
  (∀ (a : AcctNo) (src : Source) (hv : HostView) (d : Desc) ring idx (s g : State), s.ServesHost g a.val src 2 (s.tellerAccs a.val d) hv d ring idx →
      g.srcFull = false → g.getsFull = false → ((g.taken a.val src d).tellerCheck a.val d hv false).1 = 0 →
      Completes (.get a src hv) s fun t => ∃ (v : State) (m : SrcMsg), t = v.after a.val src ∧
        v.srcMsgs = ((g.taken a.val src d).tellerCheck a.val d hv false).2.2.2.srcMsgs ++ [m] ∧ m.kind = .get ∧ m.ev.acct = a.val ∧
        m.ev.eq = bf d.toNat 8 6 ∧ m.dst = ((g.taken a.val src d).tellerCheck a.val d hv false).2.1 ∧ m.total = dw d 4 0 40 ∧
        m.key = dw d 1 32 32 ∧ m.roff = dw d 2 0 64 ∧ m.next = 0 ∧ m.pat = ((g.taken a.val src d).tellerCheck a.val d hv false).2.2.1 ∧
        m.visible = false) ∧
  (∀ (a : AcctNo) (src : Source) (hv : HostView) (d : Desc) ring idx (s g : State), s.ServesHost g a.val src 3 (s.tellerAccs a.val d) hv d ring idx →
      g.srcFull = false → ((g.taken a.val src d).tellerCheck a.val d hv false).1 = 0 →
      Completes (.atomic a src hv) s fun t => ∃ (v : State) (m : SrcMsg), t = v.after a.val src ∧
        v.srcMsgs = ((g.taken a.val src d).tellerCheck a.val d hv false).2.2.2.srcMsgs ++ [m] ∧ m.kind = .atomic ∧ m.ev.acct = a.val ∧
        m.ev.eq = bf d.toNat 8 6 ∧ m.dst = ((g.taken a.val src d).tellerCheck a.val d hv false).2.1 ∧ m.desc = d ∧ m.total = 0 ∧
        m.key = dw d 1 32 32 ∧ m.roff = dw d 2 0 64 ∧ m.next = 0) ∧
  (∀ (a : AcctNo) (src : Source) (hv : HostView) (d : Desc) ring idx n (s g : State), s.ServesHost g a.val src 8 [(dw d 3 0 64, 64, false)] hv d ring idx →
      hostNat hv (dw d 3 0 64) 64 = some n → descType (BitVec.ofNat 512 n) ∈ [1, 2, 3, 4, 6, 7] → g.orders.length < 65536 →
      Completes (.order a src hv) s fun t => ∃ v : State, t = (v.fireWhere fun x => x.ctr == dw d 1 0 16).after a.val src ∧
        v.orders = g.orders ++ [{ ctr := dw d 1 0 16, threshold := dw d 2 0 48, desc := BitVec.ofNat 512 n,
                                  ev := g.evTaken a.val src d ring idx }] ∧
        v.get TLR_ORDER_STAT.parked = (g.orders.length + 1) % 2 ^ TLR_ORDER_STAT.parked.len)

/-- An outstanding message: its packets are sent, what comes back for it is taken, and its timers expire (parts of 05 R163, R171, R173,
R175, R183 to R185, R191 to R193, Table 5.2). -/
def Obligations.SourceSideCompletes : Prop :=
  -- PACKET_SEND: the next packet of a PUT or of an eager SEND, which neither the hold of R163 nor its context's window nor the host bus
  -- makes wait, is handed to Routing with the bytes read now; it is charged and counted in its context
  (∀ (k : Nat) (hv : HostView) (s g u : State) m bytes poison r, s.srcMsg k = some m → m.resend = [] → m.due = true →
      m.kind = .put ∨ m.kind = .eager → s.mayServe m.ev.acct (pktCost (m.pktBytes m.next)) = true → s.boot.requestHold = false →
      s.ctxMay (ctxOf m.dst.endpoint) = true → (m.localParts m.next).2 = true →
      s.gate m.hl (s.aFn m.ev.acct) (s.aPasid m.ev.acct) (accsOf (m.localParts m.next).1 false) hv = (.go, g) →
      gather hv (m.localParts m.next).1 = some (bytes, poison) →
      g.inject (mkPkt (g.pktHdr m m.next (m.next + 1) m.msgId poison) bytes) = (r, u) → r ≠ .noRoute →
      Completes (.packetSend k hv) s fun t => ∃ v : State,
        v = (u.charge m.ev.acct (pktCost (g.pktHdr m m.next (m.next + 1) m.msgId poison).length)).ctxCount (ctxOf m.dst.endpoint) ∧
        t = ((((v.modSrc m.id fun m => { m with sentAt := v.clk }).modSrc m.id fun m =>
              { m with next := m.next + 1, allSent := decide (m.next + 1 = m.nPkts) }).idleZero m.ev.acct).activityUpd)) ∧
  -- GET_RESP_RECEIVE: a packet of the current runs of a GET, not yet received, is written to the message's local bytes; the message
  -- notes it, with HOST_ERROR if it is poisoned, and ends when it has every packet
  (∀ (hv : HostView) (s u g : State) p m f e, s.Arrives 3 p u → u.srcById (epHl p.hdr.dstEp) p.hdr.msgId = some m → m.kind = .get →
      p.hdr.srcGen = u.aGen m.ev.acct → m.ev.gen = u.aGen m.ev.acct → p.hdr.w6 % 256 = 0 →
      (m.runs.find? fun r => r.1 == p.hdr.msgId) = some (p.hdr.msgId, f, e) → f ≤ p.hdr.pktIndex → p.hdr.pktIndex < e →
      m.gBase ≤ p.hdr.pktIndex → m.gBits.contains p.hdr.pktIndex = false → p.hdr.length ≠ 0 →
      (m.pat.iova (4096 * p.hdr.pktIndex) (min p.hdr.length (pktLen m.total p.hdr.pktIndex))).2 = true →
      u.gate m.hl (u.aFn m.ev.acct) (u.aPasid m.ev.acct)
        (accsOf (m.pat.iova (4096 * p.hdr.pktIndex) (min p.hdr.length (pktLen m.total p.hdr.pktIndex))).1 true) = (.go, g) → g.srcMsg m.id = some m →
      let bits := addMem m.gBits p.hdr.pktIndex
      let base := advance bits bits.length m.gBase
      let m' : SrcMsg := { m with gBits := bits.filter (fun j => decide (base ≤ j)), gBase := base,
                                  status := if p.hdr.poison ∧ m.status = 0 then stHOST_ERROR else m.status }
      Completes (.getRespReceive hv) s fun t => ∃ v : State,
        v = (g.scatter m.hl (g.aFn m.ev.acct) (g.aPasid m.ev.acct)
              (m.pat.iova (4096 * p.hdr.pktIndex) (min p.hdr.length (pktLen m.total p.hdr.pktIndex))).1 p.data p.hdr.poison).modSrc m.id (fun _ => m') ∧
        t = (if m.nPkts ≤ base then v.msgEnd m' m'.status none else v).activityUpd) ∧
  -- ATOMIC_RESP_RECEIVE: the prior value is written back where the operation returns one, the context has a sample, and the message ends
  -- with the status
  (∀ (s u g : State) p m, s.Arrives 5 p u → u.srcById (epHl p.hdr.dstEp) p.hdr.msgId = some m → m.kind = .atomic → m.msgId = p.hdr.msgId →
      p.hdr.opcode = 5 → p.hdr.srcGen = u.aGen m.ev.acct → m.ev.gen = u.aGen m.ev.acct → bf p.hdr.w6 32 32 = m.nonce →
      let accs := if p.hdr.w6 % 256 = 0 ∧ (dw m.desc 5 16 4 = 1 ∨ dw m.desc 5 16 4 = 2 ∨ dw m.desc 5 16 4 = 3 ∨ dw m.desc 1 24 1 = 1) then
        [(dw m.desc 3 0 64, atomicSize (dw m.desc 5 20 2), true)] else []
      u.gate m.hl (u.aFn m.ev.acct) (u.aPasid m.ev.acct) accs = (.go, g) →
      Completes .atomicRespReceive s fun t => ∃ v : State, v = g.ctxSample (ctxOf m.dst.endpoint) ((p.came : Int) - m.sentAt) ∧
        t = (((if accs ≠ [] then v.post m.hl (v.aFn m.ev.acct) (v.aPasid m.ev.acct) (dw m.desc 3 0 64)
                  (bytesOf (atomicSize (dw m.desc 5 20 2)) (natOf p.data)) false else v).msgEnd m (p.hdr.w6 % 256) (some (natOf p.data))).activityUpd)) ∧
  -- RECEIPT: the message ends with its status; its context has a sample, and its window halves when more marks came than echoed
  (∀ (s u : State) q m, s.Delivered 1 q u → u.srcById (epHl q.msg.dst) (bf q.msg.payload 0 32) = some m → m.receipted = true → m.acked = false →
      bf q.msg.payload 40 16 = u.aGen m.ev.acct → m.ev.gen = u.aGen m.ev.acct → bf q.msg.payload 32 2 = (if m.visible then 2 else 1) →
      Completes .receipt s fun t => ∃ v : State, t = (v.msgEnd m (bf q.msg.payload 34 6) none).activityUpd ∧
        v = (if bf q.msg.payload 56 8 > m.echoed then
               (u.ctxSample (ctxOf m.dst.endpoint) ((q.came : Int) - m.sentAt)).ctxHalve (ctxOf m.dst.endpoint)
             else u.ctxSample (ctxOf m.dst.endpoint) ((q.came : Int) - m.sentAt)) ∧
        v.srcMsgs = s.srcMsgs) ∧
  -- E2E_NAK: counted; while the limit permits, or when an answer has come already, the packet that it names waits its delay
  (∀ (s u : State) q m, s.Delivered 2 q u → (u.bump TPT_CNT_NAK_RX.ev).srcById (epHl q.msg.dst) (bf q.msg.payload 0 32) = some m →
      m.naks + 1 ≤ (u.bump TPT_CNT_NAK_RX.ev).get TPT_RETRY.nak_max ∨ (u.bump TPT_CNT_NAK_RX.ev).answered m = true →
      Completes .e2eNak s fun t => t = { u.bump TPT_CNT_NAK_RX.ev with srcMsgs := t.srcMsgs } ∧
        t.srcMsgs = modFirst (fun x => x.id == m.id)
          (fun x => { x with naks := x.naks + 1, nakWait := x.nakWait ++ [bf q.msg.payload 32 28] }) s.srcMsgs) ∧
  -- E2E_NAK beyond the limit: the message fails with RESOURCE
  (∀ (s u : State) q m, s.Delivered 2 q u → (u.bump TPT_CNT_NAK_RX.ev).srcById (epHl q.msg.dst) (bf q.msg.payload 0 32) = some m →
      (u.bump TPT_CNT_NAK_RX.ev).get TPT_RETRY.nak_max < m.naks + 1 → (u.bump TPT_CNT_NAK_RX.ev).answered m = false →
      Completes .e2eNak s fun t => t = ((u.bump TPT_CNT_NAK_RX.ev).msgFail m stRESOURCE).activityUpd) ∧
  -- NAK_DELAY_EXPIRY: the packet of a PUT or of an eager SEND is read again and handed to Routing; it is counted in TPT_CNT_RETX and its
  -- bytes are charged
  (∀ (k i : Nat) (hv : HostView) (s g u : State) m bytes poison r,
      let w := s.modSrc k fun m => { m with nakWait := m.nakWait.erase i }
      let m' := { m with nakWait := m.nakWait.erase i }
      s.srcMsg k = some m → m.nakWait.contains i = true → m.kind = .put ∨ m.kind = .eager → i < m.nPkts → s.boot.requestHold = false →
      s.ctxMay (ctxOf m.dst.endpoint) = true → (m.localParts i).2 = true →
      w.gate m.hl (w.aFn m.ev.acct) (w.aPasid m.ev.acct) (accsOf (m.localParts i).1 false) hv = (.go, g) →
      gather hv (m.localParts i).1 = some (bytes, poison) →
      g.inject (mkPkt (g.pktHdr m' i (i + 1) m.msgId poison) bytes) = (r, u) → r ≠ .noRoute →
      Completes (.nakDelayExpiry k i hv) s fun t => ∃ v : State,
        v = ((u.chargeFree m.ev.acct (pktCost (g.pktHdr m' i (i + 1) m.msgId poison).length)).bump TPT_CNT_RETX.ev).ctxCount (ctxOf m.dst.endpoint) ∧
        t = (v.modSrc m.id fun m => { m with sentAt := v.clk }).activityUpd) ∧
  -- CECHO: the window of the message's context halves
  (∀ (s u : State) q m, s.Delivered 3 q u → (u.bump TPT_CNT_CECHO_RX.ev).srcById (epHl q.msg.dst) (bf q.msg.payload 0 32) = some m →
      Completes .cecho s fun t =>
        t.srcMsgs = modFirst (fun x => x.id == m.id) (fun x => { x with echoed := x.echoed + bf q.msg.payload 32 16 }) s.srcMsgs ∧
        t.get (TPT_CTX.cwnd (ctxOf m.dst.endpoint)) = max 1 ((u.bump TPT_CNT_CECHO_RX.ev).get (TPT_CTX.cwnd (ctxOf m.dst.endpoint)) / 2)) ∧
  -- UNREACH: no route and no account fail the message; an expired lifetime acts as a timer expiry does
  (∀ (hv : HostView) (s u : State) q m, s.Delivered 0x0A q u → u.srcById (epHl q.msg.dst) (bf q.msg.payload 32 32) = some m →
      u.answered m = false →
      Completes (.unreach hv) s fun t =>
        (bf q.msg.payload 24 8 = 1 → t = (u.msgFail m stNO_ROUTE).activityUpd) ∧ (bf q.msg.payload 24 8 = 2 → t = (u.msgFail m stNO_ACCOUNT).activityUpd) ∧
        (bf q.msg.payload 24 8 = 3 → u.get TPT_RETRY.retries < m.expiries + 1 → t = ((u.msgFail m stTIMEOUT).bump TPT_CNT_TIMEOUT.ev).activityUpd) ∧
        (bf q.msg.payload 24 8 = 3 → m.expiries + 1 ≤ u.get TPT_RETRY.retries →
          t = ((u.modSrc m.id fun m' => { m' with expiries := m.expiries + 1 }).sendProbe { m with expiries := m.expiries + 1 } hv).activityUpd)) ∧
  -- and an UNREACH for a message whose answer has come already changes nothing of it
  (∀ (hv : HostView) (s u : State) q m, s.Delivered 0x0A q u → u.srcById (epHl q.msg.dst) (bf q.msg.payload 32 32) = some m →
      u.answered m = true → Completes (.unreach hv) s fun t => t = u.activityUpd) ∧
  -- RETRANSMIT_TIMEOUT: a probe, or after the last the status TIMEOUT
  (∀ (k : Nat) (hv : HostView) (s : State) m, s.srcMsg k = some m → m.allSent = true → m.acked = false → s.answered m = false →
      Completes (.retransmitTimeout k hv) s fun t =>
        (s.get TPT_RETRY.retries < m.expiries + 1 → t = ((s.msgFail m stTIMEOUT).bump TPT_CNT_TIMEOUT.ev).activityUpd) ∧
        (m.expiries + 1 ≤ s.get TPT_RETRY.retries →
          t = ((s.modSrc m.id fun m' => { m' with expiries := m.expiries + 1 }).sendProbe { m with expiries := m.expiries + 1 } hv).activityUpd))

/-- Packets at their destination (parts of 05 R165, R169, R170, R188, R190, R193, R194; 06 R225, R228, R232, R233; 04 R127; 14 R504). `u` is
the state in which the engine acts: the packet has passed the destination checks and is gone from the queue. -/
def Obligations.TargetSideCompletes : Prop :=
  -- PUT_PACKET_RECEIVE: the first packet of a message to arrive, whose key it may write through, is written at the key's base plus the
  -- offset as the key's account; it opens the message and is entered in it, with HOST_ERROR if it is poisoned
  (∀ (hv : HostView) (s u v g : State) p e, s.Arrives 1 p u → u.refusing p.hdr.dstAcct = false → u.dupSort p.hdr = .fresh →
      u.keyFind p.hdr hv = (.ok e, v) → keyCheck e p.hdr.w5 p.hdr.length 1 = 0 → p.hdr.length ≠ 0 →
      v.gate (epHl p.hdr.dstEp) (v.aFn e.account) (v.keyPasid e) [((e.base + p.hdr.w5) % 2 ^ 64, p.hdr.length, true)] = (.go, g) →
      Completes (.putPacketReceive hv) s fun t => ∃ x : State,
        x = g.post (epHl p.hdr.dstEp) (g.aFn e.account) (g.keyPasid e) ((e.base + p.hdr.w5) % 2 ^ 64) p.data p.hdr.poison ∧
        t = (((((x.openMsg p.hdr).enterPkt p.hdr (if p.hdr.poison then stHOST_ERROR else 0) (x.lastWrite (epHl p.hdr.dstEp))).modOpen p.hdr.srcEp
              p.hdr.msgId fun o => { o with ctr := if e.ctrEn then some e.counter else none }).msgCheck p.hdr.srcEp p.hdr.msgId
              fun s _ => s).activityUpd)) ∧
  -- and one whose key does not resolve opens the message and is entered with KEY_INVALID
  (∀ (hv : HostView) (s u v : State) p, s.Arrives 1 p u → u.refusing p.hdr.dstAcct = false → u.dupSort p.hdr = .fresh →
      u.keyFind p.hdr hv = (.bad, v) →
      Completes (.putPacketReceive hv) s fun t =>
        t = ((((((v.bump TLR_CNT_KEY_FAULT.ev).openMsg p.hdr).enterPkt p.hdr stKEY_INVALID none).modOpen p.hdr.srcEp p.hdr.msgId
              fun o => { o with ctr := none }).msgCheck p.hdr.srcEp p.hdr.msgId fun s _ => s).activityUpd)) ∧
  -- GET_REQ_SERVE of up to 4,096 bytes: they are read as the key's account and go back in one GET_RESP with status 0
  (∀ (hv : HostView) (s u v g : State) p e data poi, s.Arrives 2 p u → u.refusing p.hdr.dstAcct = false →
      u.keyFind p.hdr hv = (.ok e, v) → keyCheck e p.hdr.w5 (p.hdr.w6 % 2 ^ 40) 0 = 0 → 0 < p.hdr.w6 % 2 ^ 40 → p.hdr.w6 % 2 ^ 40 ≤ 4096 →
      v.gate (epHl p.hdr.dstEp) (v.aFn e.account) (v.keyPasid e) [((e.base + p.hdr.w5) % 2 ^ 64, p.hdr.w6 % 2 ^ 40, false)] hv = (.go, g) →
      hostRead hv ((e.base + p.hdr.w5) % 2 ^ 64) (p.hdr.w6 % 2 ^ 40) = some (data, poi) →
      Completes (.getReqServe hv) s fun t => t = (g.injectDrop (mkPkt
        { opcode := 3, last := true, poison := poi, length := data.length, charter := bf p.hdr.w6 40 16, dstAcct := p.hdr.srcAcct,
          dstEp := p.hdr.srcEp, srcEp := p.hdr.dstEp, srcAcct := p.hdr.dstAcct, msgId := p.hdr.msgId, pktIndex := p.hdr.pktIndex,
          srcGen := p.hdr.srcGen, w5 := 4096 * p.hdr.pktIndex % 2 ^ 40, w6 := 0 } data)).activityUpd) ∧
  -- ATOMIC_REQ_RECEIVE by read, modify and write: the new value is written, the key's counter rises, and the prior value goes back
  (∀ (hv : HostView) (s u b v g : State) p e prior new, s.Arrives 4 p u → u.refusing p.hdr.dstAcct = false → u.dupSort p.hdr = .fresh →
      u.bookGate hv = (.go, b) → b.keyFind p.hdr hv = (.ok e, v) → keyCheck e p.hdr.w5 (atomicSize (bf p.hdr.w6 4 2)) 2 = 0 →
      v.gate (epHl p.hdr.dstEp) (v.aFn e.account) (v.keyPasid e)
        [((e.base + p.hdr.w5) % 2 ^ 64, atomicSize (bf p.hdr.w6 4 2), false),
         ((e.base + p.hdr.w5) % 2 ^ 64, atomicSize (bf p.hdr.w6 4 2), true)] hv = (.go, g) →
      hostNat hv ((e.base + p.hdr.w5) % 2 ^ 64) (atomicSize (bf p.hdr.w6 4 2)) = some prior →
      atomicNew (p.hdr.w6 % 16) (bf p.hdr.w6 4 2) (bit p.hdr.w6 6) prior (leAt p.data 0 8) (leAt p.data 8 8) = some new →
      g.on TLR_ATOMIC_CFG.use_pcie = false →
      Completes (.atomicReqReceive hv) s fun t =>
        ∃ x : State, x = g.post (epHl p.hdr.dstEp) (g.aFn e.account) (g.keyPasid e) ((e.base + p.hdr.w5) % 2 ^ 64)
                (bytesOf (atomicSize (bf p.hdr.w6 4 2)) new) false ∧
          t = ((((if e.ctrEn then x.ctrRaise e.counter else x).bump TLR_CNT_ATOMIC.ev).atomicDone p.hdr hv 0 prior).activityUpd)) ∧
  -- SEND_EAGER_RECEIVE: an admitted first packet opens its message, under the number of its admission, and its payload goes where Ledger says
  (∀ (hv : HostView) (s u v : State) p num, s.Arrives 6 p u → u.refusing p.hdr.dstAcct = false → u.dupSort p.hdr = .fresh →
      (u.hdrTry p).ledgerAdmit p hv = (.ok num, v) →
      Completes (.sendEagerReceive hv) s fun t =>
        t = (((v.openMsg p.hdr).modOpen p.hdr.srcEp p.hdr.msgId fun o => { o with eager := num }).eagerNext p).activityUpd) ∧
  -- SEND_RTS_RECEIVE: an admitted header is entered and receipted at once
  (∀ (hv : HostView) (s u v : State) p num, s.Arrives 7 p u → u.refusing p.hdr.dstAcct = false → u.dupSort p.hdr = .fresh →
      (u.hdrTry p).ledgerAdmit p hv = (.ok num, v) →
      Completes (.sendRtsReceive hv) s fun t =>
        t = (((v.openMsg p.hdr).enterPkt p.hdr 0 none).msgCheck p.hdr.srcEp p.hdr.msgId fun s _ => s).activityUpd) ∧
  -- MG_RECEIVE of a subtype below 0x40 with room in Izger's store: it is kept there
  (∀ (s u : State) p, s.takePkt 0x0A = some (p, u) → u.destCheck p = (true, u) → u.izg.mg.length < 64 → p.hdr.w5 % 256 < 0x40 →
      Completes .mgReceive s fun t => t = { u with izg := { u.izg with mg := u.izg.mg ++ [p] } }) ∧
  -- and of another, signed by an owner key with a counter above SEC_MG_CTR, once an owner is there: it is kept, and SEC_MG_CTR takes the counter
  (∀ (s u : State) p, s.takePkt 0x0A = some (p, u) → u.destCheck p = (true, u) → u.izg.mg.length < 64 → 0x40 ≤ p.hdr.w5 % 256 →
      104 ≤ p.data.length →
      edVerify (natOf ((p.data.drop (p.data.length - 96)).take 32))
        ([BitVec.ofNat 8 p.hdr.w5] ++ bytesOf 3 p.hdr.dstEp ++ p.data.take (p.data.length - 64)) (leAt p.data (p.data.length - 64) 64) = true →
      u.ownerKey ((p.data.drop (p.data.length - 96)).take 32) = true →
      u.get SEC_MG_CTR.counter < leAt p.data (p.data.length - 104) 8 → u.get SEC_LIFECYCLE.state ≠ lcPROVISIONED →
      Completes .mgReceive s fun t => t.izg = { u.izg with mg := u.izg.mg ++ [p] } ∧
        t.get SEC_MG_CTR.counter = leAt p.data (p.data.length - 104) 8 % 2 ^ 64 ∧ SameBut [SEC_MG_CTR.reg.addr] { u with izg := t.izg } t)

/-- The timers of Transport (parts of 05 R163, R167, R174, R180, R183, R185). -/
def Obligations.TransportTimersComplete : Prop :=
  -- HOLE_TIMER_EXPIRY: an E2E_NAK of reason RESOURCE, counted, for each of the missing indices named, which are at most 16
  (∀ (src : EndPoint) (msg : BitVec 32) (s : State) o, s.openFind src.toNat msg.toNat = some o → o.hole = true →
      Completes (.holeTimerExpiry src msg) s fun t =>
        t = o.holes.foldl (fun s i => (s.qsSend 2 o.src o.dst (o.msgId + i % 2 ^ 28 * 2 ^ 32 + 2 ^ 60)).bump TPT_CNT_NAK_TX.ev) s ∧
        o.holes.length ≤ 16 ∧ ∀ i ∈ o.holes, o.base ≤ i ∧ o.bits.contains i = false) ∧
  -- OPEN_ENTRY_ABANDON: the entry of a message of several packets is closed and counted, and its filter slot is free
  (∀ (src : EndPoint) (msg : BitVec 32) (s : State) o, s.openFind src.toNat msg.toNat = some o → o.single = false →
      Completes (.openEntryAbandon src msg) s fun t => t.openFind src.toNat msg.toNat = none ∧ t.filterFind src.toNat msg.toNat = none ∧
        t = (((s.delOpen src.toNat msg.toNat).filterFree src.toNat msg.toNat).bump TPT_CNT_ABANDONED.ev).activityUpd) ∧
  -- FILTER_EXPIRY: a live slot is free
  (∀ (src : EndPoint) (msg : BitVec 32) (s : State) f, s.filterFind src.toNat msg.toNat = some f → f.live = true →
      Completes (.filterExpiry src msg) s fun t => t.filterFind src.toNat msg.toNat = none ∧ t = { s with filter := t.filter, regs := t.regs }) ∧
  -- CWND_GROW: a window that sent something and did not halve grows by one packet, to the maximum
  (∀ (i : Fin 65536) (s : State), 0 < (s.ctxWin i.val).sent → (s.ctxWin i.val).halved = false → s.get (TPT_CTX.cwnd i.val) < s.cwndMax →
      Completes (.cwndGrow i) s fun t => t.get (TPT_CTX.cwnd i.val) = s.get (TPT_CTX.cwnd i.val) + 1 ∧ (t.ctxWin i.val).sent = 0 ∧
        SameBut [(TPT_CTX.reg i.val).addr] { s with ctxSent := t.ctxSent } t) ∧
  -- CONTEXT_IDLE_RESET: the context's window and srtt are those of TPT_CWND
  (∀ (i : Fin 65536) (s : State),
      Completes (.contextIdleReset i) s fun t => t.get (TPT_CTX.cwnd i.val) = s.cwndInit % 2 ^ (TPT_CTX.cwnd i.val).len ∧
        t.get (TPT_CTX.srtt_ns i.val) = s.get TPT_CWND.rtt_init_ns % 2 ^ (TPT_CTX.srtt_ns i.val).len ∧
        SameBut [(TPT_CTX.reg i.val).addr] { s with ctxSent := t.ctxSent } t) ∧
  -- REQUEST_HOLD_END: requests may be sent
  (∀ s : State, Completes .requestHoldEnd s fun t => t = { s with boot := { s.boot with requestHold := false } })

/-- Keys, ranks and counters, and the Aperture with nothing else waiting for an entry (parts of 05 R201 to R205, R208). -/
def Obligations.KeysAndApertureComplete : Prop :=
  -- KEY_INVAL with go = 1: the keys named are no longer cached; where no host link has had a write, done stays 1
  (∀ (wr : Writer) (v : Word) (s : State), s.get TLR_KEY_INVAL.done = 1 → bit v.toNat 62 = true →
      s.Lands wr TLR_KEY_INVAL.reg.addr → Completes (.keyInval wr v) s fun t =>
        t.keyCache = s.keyCache.filter (fun x => !(if bf v.toNat 32 2 = 2 then true else if bf v.toNat 32 2 = 1 then x.1 == bf v.toNat 19 3
                       else x.1 == bf v.toNat 19 3 && x.2.1 == bf v.toNat 0 19)) ∧
        ((∀ n, s.lastWrite n = none) → SameBut [TLR_KEY_INVAL.reg.addr] { s with keyCache := t.keyCache } t ∧
          t.get TLR_KEY_INVAL.done = 1)) ∧
  -- RANK_INVAL with go = 1: the rank named, or with all = 1 every rank of the account, is no longer cached, and what a
  -- read of it under way returns is not kept (02 R65, R66)
  (∀ (wr : Writer) (v : Word) (s : State), bit v.toNat 62 = true →
      s.Lands wr TLR_RANK_INVAL.reg.addr → Completes (.rankInval wr v) s fun t =>
        t.rankCache = s.rankCache.filter (fun x => !(x.1 == bf v.toNat 24 14 && (bit v.toNat 40 || x.2.1 == bf v.toNat 0 24))) ∧
        t.get TLR_RANK_INVAL.rank = bf v.toNat 0 24 ∧ t.get TLR_RANK_INVAL.account = bf v.toNat 24 14 ∧
        t.aptWaits = s.aptWaits.map (fun x =>
          if x.reading = true ∧ x.acct = bf v.toNat 24 14 ∧ (bit v.toNat 40 = true ∨ x.rank = bf v.toNat 0 24) then { x with stale := true } else x) ∧
        SameBut [TLR_RANK_INVAL.reg.addr] { s with rankCache := t.rankCache, aptWaits := t.aptWaits } t) ∧
  -- COUNTER_WRITE: the counter takes the value, and orders it satisfies fire
  (∀ (wr : Writer) (i : Fin 65536) (part : Part) (v : Word) (s : State),
      s.Lands wr (TLR_CTR.reg i.val).addr →
      Completes (.counterWrite wr i part v) s fun t => ∃ u : State, t = (u.fireWhere fun o => o.ctr == i.val).activityUpd ∧
        u.get (TLR_CTR.value i.val) = putPart part (s.get (TLR_CTR.value i.val)) v.toNat % 2 ^ 48 ∧ SameBut [(TLR_CTR.reg i.val).addr] s u) ∧
  -- APERTURE_LOAD through a valid window whose rank translates: a GET of the window's account opens a source entry
  (∀ (n : HostLink) (fn : FnNo) (off : BitVec 64) (len : BitVec 13) (tag : Nat) (hv : HostView) (s u v g : State) e,
      let w := aptWindow fn.toNat off.toNat
      let a := s.get (TLR_APT_WIN0.account n.val w)
      let rank := s.get (TLR_APT_WIN0.rank n.val w)
      s.memOn n.val fn.toNat = true → s.aptValid n.val fn.toNat w = true → s.aptWaits = [] → s.lmatches = [] → s.srcFull = false →
      s.getsFull = false → s.srcMsgs.all (·.kind != .aptStore) = true →
      v = { s with nextId := s.nextId + 1, aptWaits :=
              [{ hl := n.val, win := w, tag, off := (s.get (TLR_APT_WIN2.offset n.val w) + off.toNat % 2 ^ 30) % 2 ^ 64, len := len.toNat,
                 num := s.nextId, fn := fn.toNat, acct := a, gen := s.aGen a, rank, key := s.get (TLR_APT_WIN1.key n.val w),
                 visible := s.on (TLR_APT_WIN0.visible n.val w) }] } →
      v.gate n.val fn.toNat (v.aPasid a) (v.rankAccs a rank) hv = (.go, g) → g.rankXlate a rank hv = (0, e, u) →
      Completes (.apertureLoad n fn off len tag hv) s fun t => ∃ (x : State) (m : SrcMsg), t = x.activityUpd ∧ x.aptWaits = [] ∧
        x.srcMsgs = s.srcMsgs ++ [m] ∧ m.kind = .aptLoad ∧ m.hl = n.val ∧ m.ev.acct = a ∧ m.dst = e ∧ m.total = len.toNat ∧
        m.key = s.get (TLR_APT_WIN1.key n.val w) ∧ m.roff = (s.get (TLR_APT_WIN2.offset n.val w) + off.toNat % 2 ^ 30) % 2 ^ 64 ∧
        m.apt = w ∧ m.aptTag = tag) ∧
  -- APERTURE_STORE likewise: a PUT of one packet with the bytes stored
  (∀ (n : HostLink) (fn : FnNo) (off : BitVec 64) (data : Bytes) (hv : HostView) (s u v g : State) e,
      let w := aptWindow fn.toNat off.toNat
      let a := s.get (TLR_APT_WIN0.account n.val w)
      let rank := s.get (TLR_APT_WIN0.rank n.val w)
      s.memOn n.val fn.toNat = true → s.aptValid n.val fn.toNat w = true → s.aptWaits = [] → s.lmatches = [] → s.srcFull = false →
      v = { s with nextId := s.nextId + 1, aptWaits :=
              [{ hl := n.val, win := w, tag := 0, off := (s.get (TLR_APT_WIN2.offset n.val w) + off.toNat % 2 ^ 30) % 2 ^ 64, len := data.length,
                 store := some data, num := s.nextId, fn := fn.toNat, acct := a, gen := s.aGen a, rank,
                 key := s.get (TLR_APT_WIN1.key n.val w), visible := s.on (TLR_APT_WIN0.visible n.val w) }] } →
      v.gate n.val fn.toNat (v.aPasid a) (v.rankAccs a rank) hv = (.go, g) → g.rankXlate a rank hv = (0, e, u) →
      Completes (.apertureStore n fn off data hv) s fun t => ∃ (x : State) (m : SrcMsg), t = x.activityUpd ∧ x.aptWaits = [] ∧
        x.srcMsgs = s.srcMsgs ++ [m] ∧ m.kind = .aptStore ∧ m.hl = n.val ∧ m.ev.acct = a ∧ m.dst = e ∧ m.total = data.length ∧ m.data = data ∧
        m.visible = s.on (TLR_APT_WIN0.visible n.val w) ∧ m.key = s.get (TLR_APT_WIN1.key n.val w) ∧
        m.roff = (s.get (TLR_APT_WIN2.offset n.val w) + off.toNat % 2 ^ 30) % 2 ^ 64 ∧ m.apt = w) ∧
  -- APERTURE_TIMEOUT of a load that still waits to be sent: it is given up, and answered with Completer Abort
  (∀ (n : HostLink) (tag : Nat) (s : State) w, (s.aptWaits.find? fun w => w.hl == n.val && w.tag == tag && w.store.isNone) = some w →
      w.win < 1024 →
      Completes (.apertureTimeout n tag) s fun t => t.aptWaits = s.aptWaits.filter (·.num != w.num) ∧
        t.get (TLR_APT_WIN3.faults n.val w.win) = min (s.get (TLR_APT_WIN3.faults n.val w.win) + 1) (2 ^ 32 - 1) ∧
        ∃ rest : List Emit, t.out = .hostCpl n.val w.fn cplCA [] :: rest)

/-! ## Ledger (06) -/

/-- SEND and RECV descriptors that pass their checks and need not wait (parts of 06 R219, R222, R224, R232, R236 to R238). -/
def Obligations.LedgerDescriptorsComplete : Prop :=
  -- SEND of an eager message whose order entry is cached: its source entry carries the order entry's next sequence, which rises, and
  -- one more SEND is outstanding
  (∀ (a : AcctNo) (src : Source) (hv : HostView) (d : Desc) ring idx k o0 o (s g : State),
      let r := (g.taken a.val src d).sendCheck a.val d hv false
      s.ServesHost g a.val src 4 (s.rankAccs a.val (dw d 1 0 24) ++ patAccs d 25 3) hv d ring idx → s.descCtx a.val d = some k →
      s.ordFind k (dw d 1 0 24) = some o0 → g.sendHolds a.val d = false →
      r.1 = 0 → r.2.2.2.descCtx a.val d = some k → r.2.2.2.ordFind k (dw d 1 0 24) = some o → dw d 4 0 40 ≤ g.eagerLimit k →
      Completes (.send a src hv) s fun t => ∃ (v : State) (m : SrcMsg), t = v.after a.val src ∧ v.srcMsgs = r.2.2.2.srcMsgs ++ [m] ∧
        m.kind = .eager ∧ m.ev.acct = a.val ∧ m.dst = r.2.1 ∧ m.total = dw d 4 0 40 ∧ m.ctx = k ∧ m.rank = dw d 1 0 24 ∧ m.seqNo = o.nextSend ∧
        v.ordFind k (dw d 1 0 24) = some { o with nextSend := (o.nextSend + 1) % 65536, outstanding := o.outstanding + 1 }) ∧
  -- SEND of a longer message, with entries to spare: a source entry for its RTS and an RNDV entry of the context
  (∀ (a : AcctNo) (src : Source) (hv : HostView) (d : Desc) ring idx k o0 o (s g : State),
      let r := (g.taken a.val src d).sendCheck a.val d hv false
      s.ServesHost g a.val src 4 (s.rankAccs a.val (dw d 1 0 24) ++ patAccs d 25 3) hv d ring idx → s.descCtx a.val d = some k →
      s.ordFind k (dw d 1 0 24) = some o0 → g.sendHolds a.val d = false →
      r.1 = 0 → r.2.2.2.descCtx a.val d = some k → r.2.2.2.ordFind k (dw d 1 0 24) = some o → g.eagerLimit k < dw d 4 0 40 →
      s.get LDG_CFG.reserve < s.ldgFree → g.get LDG_CFG.reserve < g.ldgFree →
      Completes (.send a src hv) s fun t => ∃ (v : State) (m : SrcMsg) (e : LEntry), t = v.after a.val src ∧
        v.srcMsgs = r.2.2.2.srcMsgs ++ [m] ∧ m.kind = .rts ∧ m.ev.acct = a.val ∧ m.dst = r.2.1 ∧ m.total = dw d 4 0 40 ∧ m.ctx = k ∧
        m.rank = dw d 1 0 24 ∧ m.seqNo = o.nextSend ∧ v.entries = g.entries ++ [e] ∧ e.kind = .rndv ∧ e.ctx = k ∧ e.rank = dw d 1 0 24 ∧
        e.msgId = m.msgId ∧ e.buf = m.roff ∧ e.len = dw d 4 0 40 ∧
        v.ordFind k (dw d 1 0 24) = some { o with nextSend := (o.nextSend + 1) % 65536, outstanding := o.outstanding + 1 }) ∧
  -- RECV with no message that matches and an entry to spare: a POSTED entry with the context's next post sequence
  (∀ (a : AcctNo) (src : Source) (hv : HostView) (d : Desc) ring idx k p (s g : State),
      let w := (g.taken a.val src d).ldgOp k
      let u := { w with nextId := w.nextId + 1 }.set (LDG_CTX6.next_post k) ((w.get (LDG_CTX6.next_post k) + 1) % m32)
      let r : LEntry := { w.recvEntry a.val k d p { g.evTaken a.val src d ring idx with ctr := ctrOf d } with
                          num := w.nextId, seqNo := w.get (LDG_CTX6.next_post k) }
      s.ServesHost g a.val src 5 (patAccs d 25 3 ++ s.spillAccs k) hv d ring idx → recvFlags d = 0 → g.recvHolds a.val d = false →
      s.recvHit a.val d = none → s.descCtx a.val d = some k → s.get LDG_CFG.reserve < s.ldgFree → g.get LDG_CFG.reserve < g.ldgFree →
      (g.taken a.val src d).recvCheck a.val d hv false = (0, p) → (g.taken a.val src d).descCtx a.val d = some k →
      u.unexpFor r = none → u.entryRoom k false ≠ 2 →
      Completes (.recv a src hv) s fun t => t = (u.addEntry r).after a.val src ∧ ∃ e : LEntry, (u.addEntry r).entries = g.entries ++ [e] ∧
        e.kind = .posted ∧ e.ctx = k ∧ e.num = w.nextId ∧ e.seqNo = w.get (LDG_CTX6.next_post k) ∧ e.mbits = dw d 2 0 64 ∧
        e.ignore = dw d 7 0 64 ∧ e.rank = dw d 1 0 24 ∧ e.buf = dw d 3 0 64 ∧ e.len = dw d 4 0 40) ∧
  -- RECV of an eager message that waits unexpected: the message leaves the lists, is counted, and its copy to the buffer begins
  (∀ (a : AcctNo) (src : Source) (hv : HostView) (d : Desc) ring idx k p h (s g : State),
      let w := (g.taken a.val src d).ldgOp k
      let u := { w with nextId := w.nextId + 1 }.set (LDG_CTX6.next_post k) ((w.get (LDG_CTX6.next_post k) + 1) % m32)
      let r : LEntry := { w.recvEntry a.val k d p { g.evTaken a.val src d ring idx with ctr := ctrOf d } with
                          num := w.nextId, seqNo := w.get (LDG_CTX6.next_post k) }
      s.ServesHost g a.val src 5 (patAccs d 25 3 ++ s.spillAccs k) hv d ring idx → recvFlags d = 0 → g.recvHolds a.val d = false →
      s.recvHit a.val d = some h → h.rts = false → s.descCtx a.val d = some k →
      (g.taken a.val src d).recvCheck a.val d hv false = (0, p) → (g.taken a.val src d).descCtx a.val d = some k →
      u.unexpFor r = some h →
      Completes (.recv a src hv) s fun t => ∃ v : State, t = v.after a.val src ∧ v.entries = g.entries.filter (·.num != h.num) ∧
        v.lmatches = g.lmatches ++ [{ num := h.num, recv := r, hdr := h, mode := 1 }]) ∧
  -- RECV_PROBE: the message that would match, which stays where it is
  (∀ (a : AcctNo) (src : Source) (d : Desc) ring idx k h (s g : State),
      let w := (g.taken a.val src d).ldgOp k
      let ev := { g.evTaken a.val src d ring idx with ctr := none }
      s.ServesHost g a.val src 5 (s.spillAccs k) [] d ring idx → recvFlags d = 2 → g.recvHolds a.val d = false → s.descCtx a.val d = some k →
      (g.taken a.val src d).descCtx a.val d = some k →
      w.unexpFor (w.recvEntry a.val k d {} ev) = some h →
      Completes (.recvProbe a src) s fun t => ∃ v : State, t = v.after a.val src ∧ v = w.complete ev evPROBE 0 h.rank h.mbits h.len false ∧
        v.entries = g.entries) ∧
  -- RECV_CANCEL: the posted RECV with the same cookie ends CANCELLED; the cancelling one has no event of its own
  (∀ (a : AcctNo) (src : Source) (d : Desc) ring idx k e (s g : State),
      let w := (g.taken a.val src d).ldgOp k
      let ev := { g.evTaken a.val src d ring idx with ctr := none }
      s.ServesHost g a.val src 5 (s.spillAccs k) [] d ring idx → recvFlags d = 4 → g.recvHolds a.val d = false → s.descCtx a.val d = some k →
      (g.taken a.val src d).descCtx a.val d = some k →
      (g.entries.find? fun e => e.ctx == k && e.kind == .posted && e.ev.cookie == ev.cookie) = some e →
      Completes (.recvCancel a src) s fun t => ∃ (v : State) (n : Nat), t = v.after a.val src ∧
        v = (((w.free 40).2.delEntry e.num).recvDone e stCANCELLED e.rank e.mbits n).completeQuiet ev ∧
        v.entries = g.entries.filter (·.num != e.num)) ∧
  -- RECV_OVF: an overflow buffer behind the others
  (∀ (a : AcctNo) (src : Source) (d : Desc) ring idx k (s g : State),
      s.ServesHost g a.val src 5 (s.spillAccs k) [] d ring idx → recvFlags d = 1 → g.recvHolds a.val d = false → s.descCtx a.val d = some k →
      (g.taken a.val src d).descCtx a.val d = some k →
      dw d 3 0 64 % 64 = 0 → dw d 4 0 40 % 64 = 0 → 64 ≤ dw d 4 0 40 → dw d 4 0 40 ≤ 2 ^ 32 →
      (g.ovfBufs.filter fun b => b.ctx == k && !b.retired).length < 65535 →
      Completes (.recvOvf a src) s fun t => ∃ (v : State) (b : OvfBuf), t = v.after a.val src ∧ v.ovfBufs = g.ovfBufs ++ [b] ∧ b.ctx = k ∧
        b.base = dw d 3 0 64 ∧ b.len = dw d 4 0 40 ∧ b.fill = 0 ∧ b.live = 0 ∧ b.retired = false)

/-- Order fills, copies, spilling and the context registers (parts of 06 R212 to R214, R223, R230, R240). -/
def Obligations.LedgerContextsComplete : Prop :=
  -- ORDER_FILL_COMPLETE: the order entry that was read is cached, with the SENDs now outstanding where that number fell
  -- meanwhile (R224)
  (∀ (k : Fin 65536) (rank n : Nat) (hv : HostView) (s : State), (s.ctx k.val).filling.contains rank = true →
      hostNat hv (s.ordAddr k.val rank) 16 = some n →
      Completes (.orderFillComplete k rank hv) s fun t => ∃ u : State, t = u.activityUpd ∧
        u.ordFind k.val rank = some { nextSend := bf n 0 16, expected := bf n 16 16, early := bf n 64 64,
                                      outstanding := if (s.ctx k.val).fell.contains rank then s.ordOut k.val rank else bf n 32 7 } ∧ u.entries = s.entries) ∧
  -- EAGER_COPY_DONE: the bytes are in the buffer of the RECV, which ends; the overflow reservation is released
  (∀ (m : Nat) (hv : HostView) (s g : State) x data b, (s.lmatches.find? (·.num == m)) = some x → x.mode = 1 → x.hdr.complete = true →
      x.hdr.ovf = some b → min x.hdr.len x.recv.len ≠ 0 → (x.recv.pat.iova 0 (min x.hdr.len x.recv.len)).2 = true →
      s.gate (s.aHl x.recv.acct) (s.aFn x.recv.acct) (s.aPasid x.recv.acct) ([(x.hdr.buf, min x.hdr.len x.recv.len, false)] ++
        accsOf (x.recv.pat.iova 0 (min x.hdr.len x.recv.len)).1 true) hv = (.go, g) →
      hostRead hv x.hdr.buf (min x.hdr.len x.recv.len) = some (data, false) →
      Completes (.eagerCopyDone m hv) s fun t => ∃ v : State,
        v = g.scatter (s.aHl x.recv.acct) (g.aFn x.recv.acct) (g.aPasid x.recv.acct) (x.recv.pat.iova 0 (min x.hdr.len x.recv.len)).1 data false ∧
        t = (((((v.matchDone x x.finalStatus).delMatch m).ovfRelease b).ldgStat x.recv.ctx).activityUpd)) ∧
  -- SPILL_DONE: the context is SPILLED, with a notice; it holds the same entries, numbered by their places in its spill area
  (∀ (k : Fin 65536) (s : State), s.ctxSt k.val = cxSPILLING →
      Completes (.spillDone k) s fun t => ∃ (u : State) (n : Notice), t = (u.notice n).activityUpd ∧ u.ctxSt k.val = cxSPILLED ∧ n.kind = evCTX_SPILLED ∧
        u.entries.map (fun e => { e with slot := 0 }) = s.entries.map (fun e => { e with slot := 0 })) ∧
  -- RETURN_START: a SPILLED context below low_water, for which there is room, is RETURNING
  (∀ (k : Fin 65536) (s : State), s.ctxSt k.val = cxSPILLED → (s.spillable k.val).length < s.get LDG_CFG.low_water →
      s.get LDG_CFG.reserve + 2 * (s.spillable k.val).length < s.ldgFree →
      Completes (.returnStart k) s fun t => ∃ u : State, t = u.activityUpd ∧ u.ctxSt k.val = cxRETURNING ∧
        SameBut [(LDG_CTX5.reg k.val).addr] s u) ∧
  -- RETURN_DONE: it is ON_CHIP again, counted, with a notice and the same entries
  (∀ (k : Fin 65536) (s : State), s.ctxSt k.val = cxRETURNING →
      Completes (.returnDone k true) s fun t => ∃ (u : State) (n : Notice), t = ((u.bump LDG_CNT_RETURN.ev).notice n).activityUpd ∧
        u.ctxSt k.val = cxON_CHIP ∧ n.kind = evCTX_RETURNED ∧ u.entries = s.entries) ∧
  -- CTX_RANGE_WRITE of a range within the contexts, that overlaps no other account's, with no context of the account enabled: taken
  (∀ (wr : Writer) (a : AcctNo) (v : Word) (s : State), bf v.toNat 16 7 ≤ 64 → bf v.toNat 0 16 + bf v.toNat 16 7 ≤ 65536 →
      s.ctxOverlap a.val (bf v.toNat 0 16) (bf v.toNat 16 7) = false →
      ((List.range (s.get (LDG_ACC_CTX.count a.val))).any fun c => (s.devCtx a.val c).isSome) = false →
      s.Lands wr (LDG_ACC_CTX.reg a.val).addr →
      Completes (.ctxRangeWrite wr a v) s fun t => t.get (LDG_ACC_CTX.base a.val) = bf v.toNat 0 16 ∧ t.get (LDG_ACC_CTX.count a.val) = bf v.toNat 16 7 ∧
        SameBut [(LDG_ACC_CTX.reg a.val).addr] s t) ∧
  -- CTX_ENABLE
  (∀ (wr : Writer) (k : Fin 65536) (s : State),
      s.Lands wr (LDG_CTX0.reg k.val).addr →
      Completes (.ctxEnable wr k) s fun t => t.on (LDG_CTX0.enable k.val) = true ∧ SameBut [(LDG_CTX0.reg k.val).addr] s t) ∧
  -- CTX_DISABLE: enable reads 0; the context has no entries, no matches that a RECV of it made, and no order entry in the cache
  (∀ (wr : Writer) (k : Fin 65536) (s : State), s.on (LDG_CTX0.enable k.val) = true →
      s.Lands wr (LDG_CTX0.reg k.val).addr →
      Completes (.ctxDisable wr k) s fun t => ∃ u : State, t = u.activityUpd ∧ u = (s.ctxClear k.val true).set (LDG_CTX0.enable k.val) 0 ∧
        u.on (LDG_CTX0.enable k.val) = false ∧ u.entries = s.entries.filter (·.ctx != k.val) ∧
        u.lmatches.all (·.recv.ctx != k.val) = true ∧ (u.ctx k.val).order = [])

/-! ## Alloy (07) -/

/-- COLL at a leaf, and the start of one that waited (parts of 07 R258, R259, R265, R266). -/
def Obligations.CollCompletes : Prop :=
  -- COLL: one that passes the checks of 07 Table 7.7 raises the leaf's sequence and joins the tree
  (∀ (a : AcctNo) (src : Source) (hv : HostView) (s g : State) d ring idx (p1 p2 : Pattern),
      let u := g.taken a.val src d
      let t := dw d 1 0 12
      let h := u.aHl a.val
      let q := tcnt (u.tree t).leafNext h
      let o := collOf h (g.evTaken a.val src d ring idx) d
      let w := u.modTree t fun r => { r with leafNext := tput r.leafNext h (q + 1) }
      s.ServesHost g a.val src 6 (s.collAccs a.val d) hv d ring idx → g.get TOP_STATE.svc_state ≠ 2 →
      u.trSt t = trACTIVE → h ∈ u.trLinks t → u.aCharter a.val = u.get (ALY_TREE0.charter t) → u.collLegal t o = true →
      o.opseq = q % 2 ^ 32 → dw d 1 30 1 = 0 →
      (if w.leafReads { o with opseq := q } then
          collSide d 31 3 (w.leafSrcLen { o with opseq := q }) (w.hvIf a.val false (w.collAccs a.val d) hv) else (0, {})) = (0, p1) →
      (if w.leafWrites { o with opseq := q } then
          collSide d 32 4 (w.leafDstLen t { o with opseq := q }) (w.hvIf a.val false (w.collAccs a.val d) hv) else (0, {})) = (0, p2) →
      w.opSegs t { o with opseq := q } < 2 ^ 23 → ¬ (o.op = opREDUCE_SCATTER ∧ o.count % w.trTotal t ≠ 0) →
      (dw d 1 29 1 = 1 → dw d 7 0 64 ≤ w.now + w.get ALY_CFG.sched_max_ms * 4000000) →
      Completes (.coll a src hv) s fun t' => t' = (w.collJoin t d { o with opseq := q } p1 p2 hv).after a.val src) ∧
  -- joining, for a COLL without segments (a BARRIER, or one of count 0) that is not scheduled and whose number no other of its host link
  -- has: it is in progress, and the node goes on
  (∀ (t : Nat) (d : Desc) (o : LeafOp) (p1 p2 : Pattern) (hv : HostView) (s : State), dw d 1 29 1 = 0 → o.tokens = true →
      (s.tree t).ops.all (fun x => !(x.hl == o.hl && x.opseq == o.opseq)) = true →
      s.collJoin t d o p1 p2 hv =
        (s.modTree t fun r => { r with ops := r.ops ++ [{ o with src := p1, dst := p2, startAt := none }] }).alyGo t) ∧
  -- joining, for one of a start time yet to come: nothing is read, it waits at its leaf
  (∀ (t : Nat) (d : Desc) (o : LeafOp) (p1 p2 : Pattern) (hv : HostView) (s : State), dw d 1 29 1 = 1 → s.now < dw d 7 0 64 →
      s.collJoin t d o p1 p2 hv =
        s.modTree t fun r => { r with ops := r.ops ++ [{ o with src := p1, dst := p2, startAt := some (dw d 7 0 64) }] }) ∧
  -- COLL with the wrong operation sequence: COLL_DONE with SEQUENCE, the leaf's sequence as it was
  (∀ (a : AcctNo) (src : Source) (hv : HostView) (s g : State) d ring idx,
      let u := g.taken a.val src d
      let t := dw d 1 0 12
      let h := u.aHl a.val
      let o := collOf h (g.evTaken a.val src d ring idx) d
      s.ServesHost g a.val src 6 (s.collAccs a.val d) hv d ring idx → g.get TOP_STATE.svc_state ≠ 2 →
      u.trSt t = trACTIVE → h ∈ u.trLinks t → u.aCharter a.val = u.get (ALY_TREE0.charter t) → u.collLegal t o = true →
      o.opseq ≠ tcnt (u.tree t).leafNext h % 2 ^ 32 →
      Completes (.coll a src hv) s fun t' =>
        t' = (u.complete { g.evTaken a.val src d ring idx with ctr := none } evCOLL_DONE stSEQUENCE o.opseq t 0 false).after a.val src) ∧
  -- COLL_SCHEDULED_START of a COLL without segments whose time has come: it waits no more; the node goes on
  (∀ (t : TreeNo) (n : HostLink) (hv : HostView) (s : State) o x,
      (s.tree t.val).ops.find? (fun o => o.hl == n.val && (match o.startAt with | some x => decide (x ≤ s.now) | none => false)) = some o →
      o.startAt = some x → o.tokens = true →
      Completes (.collScheduledStart t n hv) s fun t' => t' = ((s.modTree t.val fun r =>
        { r with ops := modFirst (fun x : LeafOp => x.hl == o.hl && x.opseq == o.opseq) (fun o => { o with startAt := none }) r.ops }).alyGo
          t.val).activityUpd) ∧
  -- and of one with segments that reads its source: it keeps the elements read
  (∀ (t : TreeNo) (n : HostLink) (hv : HostView) (s g : State) o x ps bytes poison,
      (s.tree t.val).ops.find? (fun o => o.hl == n.val && (match o.startAt with | some x => decide (x ≤ s.now) | none => false)) = some o →
      o.startAt = some x → o.tokens = false → s.leafReads o = true → o.src.iova 0 (s.leafSrcLen o) = (ps, true) →
      s.gate o.hl (s.aFn o.ev.acct) (s.aPasid o.ev.acct) (accsOf ps false) hv = (.go, g) → gather hv ps = some (bytes, poison) →
      Completes (.collScheduledStart t n hv) s fun t' => t' = ((g.modTree t.val fun r =>
        { r with ops := modFirst (fun x : LeafOp => x.hl == o.hl && x.opseq == o.opseq)
                          (fun o => { o with startAt := none, vals := unpackVals o.unit bytes, poison }) r.ops }).alyGo t.val).activityUpd)

/-- Segments, receipts and tokens between the nodes of a tree (parts of 07 R254, R262 to R264, R267, R278, R279). -/
def Obligations.SegmentsComplete : Prop :=
  -- COLL_UP_RECEIVE: a new up segment of mode 0, whose index has a slot and whose receipt is due, enters its slot under its child, is
  -- receipted, and the node goes on
  (∀ (s u : State) p t c q,
      s.Arrives 8 p u → t = p.hdr.w5 % 4096 → u.trSt t = trACTIVE → (u.trKids t).find? (fun c => u.edgeDev t c == epDev p.hdr.srcEp) = some c →
      u.opSort t (p.hdr.w6 % 2 ^ 32) = (.live q, u) → bit (bf p.hdr.w5 16 24) 23 = false → bf p.hdr.w6 44 1 = 0 →
      u.upLo t q ≤ bf (bf p.hdr.w5 16 24) 0 23 → u.upCovers t q (bf (bf p.hdr.w5 16 24) 0 23) = true →
      u.upDue t q (bf (bf p.hdr.w5 16 24) 0 23) = true →
      (u.upSlot t q (bf (bf p.hdr.w5 16 24) 0 23)).all (fun x => !x.rel && !x.inputs.contains c) = true →
      Completes .collUpReceive s fun t' => t' = (((((u.modUp t q (bf (bf p.hdr.w5 16 24) 0 23) fun x =>
        x.take c (bf p.hdr.w6 32 8) (bf p.hdr.w6 40 4) 0 p.hdr.poison
          ((unpackVals (unitSize (bf p.hdr.w6 32 8) (bf p.hdr.w6 40 4)) p.data).map fun (x : Nat) => ((0 : Nat), (x : Int)))).alyReceipt
            t p.hdr.srcEp (bf p.hdr.w5 16 24) q).alyGo t).activityUpd))) ∧
  -- one below the window is a duplicate: counted, discarded, and receipted again
  (∀ (s u : State) p t c q,
      s.Arrives 8 p u → t = p.hdr.w5 % 4096 → u.trSt t = trACTIVE → (u.trKids t).find? (fun c => u.edgeDev t c == epDev p.hdr.srcEp) = some c →
      u.opSort t (p.hdr.w6 % 2 ^ 32) = (.live q, u) → bf (bf p.hdr.w5 16 24) 0 23 < u.upLo t q →
      Completes .collUpReceive s fun t' =>
        t' = ((u.bump ALY_CNT_DUP.ev).alyReceipt t p.hdr.srcEp (bf p.hdr.w5 16 24) (p.hdr.w6 % 2 ^ 32)).activityUpd) ∧
  -- COLL_DN_RECEIVE: a new down segment of elements from the parent, whose index has a slot and whose receipt is due, is kept in its
  -- slot with the masks of its copies, receipted, and the node goes on
  (∀ (s u : State) p t q,
      s.Arrives 9 p u → t = p.hdr.w5 % 4096 → u.trSt t = trACTIVE → u.trRoot t = false → u.edgeDev t 64 = epDev p.hdr.srcEp →
      u.opSort t (p.hdr.w6 % 2 ^ 32) = (.live q, u) → bit (bf p.hdr.w5 16 24) 23 = false →
      u.dnLo t q ≤ bf (bf p.hdr.w5 16 24) 0 23 → u.dnCovers t q (bf (bf p.hdr.w5 16 24) 0 23) = true →
      u.dnDue t q (bf (bf p.hdr.w5 16 24) 0 23) = true →
      (u.dnSlot t q (bf (bf p.hdr.w5 16 24) 0 23)).all (fun x => !x.rel && x.seg.isNone) = true →
      Completes .collDnReceive s fun t' => t' = (((((u.modDn t q (bf (bf p.hdr.w5 16 24) 0 23) fun x =>
        { x with seg := some (unpackVals (unitSize (bf p.hdr.w6 32 8) (bf p.hdr.w6 40 4)) p.data), oper := bf p.hdr.w6 32 8,
                 et := bf p.hdr.w6 40 4, mode := bf p.hdr.w6 44 1, poison := x.poison || p.hdr.poison,
                 ports := if p.hdr.mcast then p.copies else clrBit (u.mcPorts t) p.port,
                 links := if p.hdr.mcast then p.links else u.mcLinks t }).alyReceipt
            t p.hdr.srcEp (bf p.hdr.w5 16 24) q).alyGo t).activityUpd))) ∧
  -- ALY_RECEIPT: the segment it names is held no longer
  (∀ (s u : State) m t e, s.Delivered 7 m u → t = m.msg.payload % 4096 → u.edgeOf t (epDev m.msg.src) = some e → u.trSt t = trACTIVE →
      (u.tree t).held.any (fun h => h.edge == e && h.idx == bf m.msg.payload 12 24 && h.opseq % 2 ^ 28 == bf m.msg.payload 36 28) = true →
      Completes .alyReceipt s fun t' => t' = ((u.modTree t fun r => { r with held := r.held.filter fun h =>
        !(h.edge == e && h.idx == bf m.msg.payload 12 24 && h.opseq % 2 ^ 28 == bf m.msg.payload 36 28) }).alyGo t).activityUpd) ∧
  -- SEGMENT_RETX_TIMER: sent again and counted, until the resends are used up; then the node aborts with cause 3
  (∀ (t : TreeNo) (edge : Nat) (down : Bool) (idx opseq : Nat) (s : State) h,
      (s.tree t.val).held.find? (fun h => h.edge == edge && h.down == down && h.idx == idx && h.opseq == opseq) = some h →
      (s.edgePort t.val edge).isSome = true → h.waiting = false →
      Completes (.segmentRetxTimer t edge down idx opseq) s fun t' =>
        if h.resends < s.get ALY_CFG.retries then
          t' = ((s.modTree t.val fun r =>
                  { r with held := modFirst (fun x => x.edge == edge && x.down == down && x.idx == idx && x.opseq == opseq)
                                     (fun x => { x with resends := x.resends + 1 }) r.held }).bump ALY_CNT_RETX.ev).sendSeg t.val h false
        else t' = (s.abortTree t.val 3).activityUpd) ∧
  -- ALY_TOKEN, the arrival of a child in a live operation not yet released: it is noted, and the node goes on
  (∀ (s u : State) m t e q, s.Delivered 8 m u → t = m.msg.payload % 4096 → bit m.msg.payload 45 = false → bf m.msg.payload 44 1 = 0 →
      u.edgeOf t (epDev m.msg.src) = some e → e ≠ 64 → u.trSt t = trACTIVE → u.opSort t (bf m.msg.payload 12 32) = (.live q, u) →
      q ∉ (u.tree t).doneOps →
      Completes .alyToken s fun t' => t' = ((u.modTree t fun r => { r with arrived := addMem r.arrived (q * 128 + e) }).alyGo t).activityUpd) ∧
  -- an abort: it is answered, and the node aborts with cause 7
  (∀ (s u : State) m, s.Delivered 8 m u → bit m.msg.payload 45 = true → bf m.msg.payload 44 1 = 0 →
      Completes .alyToken s fun t' => t' = ((u.alyToken (m.msg.payload % 4096) m.msg.src (bf m.msg.payload 12 32) 1 true).abortTree
        (m.msg.payload % 4096) 7).activityUpd) ∧
  -- the answer to an abort: it is awaited from that device no longer
  (∀ (s u : State) m, s.Delivered 8 m u → bit m.msg.payload 45 = true → bf m.msg.payload 44 1 = 1 →
      (u.tree (m.msg.payload % 4096)).abortWait ≠ [] →
      Completes .alyToken s fun t' => t' = (u.modTree (m.msg.payload % 4096) fun r =>
        { r with abortWait := r.abortWait.filter fun x => x.2 != epDev m.msg.src }).activityUpd) ∧
  -- TOKEN_RESEND_TIMER: an arrival not yet released goes again, and is counted
  (∀ (t : TreeNo) (s : State) q, (s.tree t.val).arrSent = [q] → (s.tree t.val).abortWait = [] →
      Completes (.tokenResendTimer t) s fun t' =>
        t' = (s.alyToken t.val (s.edgeDev t.val 64) q 0 false).bump ALY_CNT_TOKEN_RETX.ev) ∧
  -- and so does an abort token whose answer is awaited on an edge that is not lost
  (∀ (t : TreeNo) (s : State) own dev, (s.tree t.val).arrSent = [] → (s.tree t.val).abortWait = [(own, dev)] → s.edgeLost own dev = false →
      Completes (.tokenResendTimer t) s fun t' =>
        t' = (s.modTree t.val fun r => { r with abortWait := [(own, dev)] }).alyToken t.val dev (s.tree t.val).abortSeq 0 true) ∧
  -- OP_TIMEOUT: the node aborts with cause 4
  (∀ (t : TreeNo) (s : State), s.get ALY_CFG.op_timeout_ms ≠ 0 → s.treeBusy t.val = true →
      Completes (.opTimeout t) s fun t' => t' = (s.abortTree t.val 4).activityUpd)

/-- ALY_TREE_CTL (parts of 07 R250, R278; Table 7.1), and parts of what an abort leaves (07 R279). -/
def Obligations.TreeCommandsComplete : Prop :=
  -- TREE_ACTIVATE of a tree that passes the checks: ACTIVE from operation 0, its 4W slots taken; abort tokens not yet answered stay
  (∀ (wr : Writer) (v : Word) (s u : State) t, s.treeCtl v 1 = (some t, u) → t < 4096 → u.activateCheck t = 0 → u.get ALY_STAT.active < 256 →
      4 * u.trW t ≤ u.get ALY_STAT.slots_free →
      s.Lands wr ALY_TREE_CTL.reg.addr → Completes (.treeActivate wr v) s fun t' => ∃ w : State, t' = w.treeVote.treesStalled ∧
        w.get ALY_TREE_CTL.result = 0 ∧ w.trSt t = trACTIVE ∧ w.get (ALY_TREE_STAT.opseq t) = 0 ∧ w.get (ALY_TREE_STAT.abort_cause t) = 0 ∧
        w.get ALY_STAT.active = u.get ALY_STAT.active + 1 ∧ w.get ALY_STAT.slots_free + 4 * u.trW t = u.get ALY_STAT.slots_free ∧
        w.tree t = { abortWait := (u.tree t).abortWait, abortSeq := (u.tree t).abortSeq } ∧ SameBut [ALY_TREE_CTL.reg.addr, (ALY_TREE_STAT.reg t).addr, ALY_STAT.reg.addr] { u with trees := w.trees } w) ∧
  -- one that does not: only its result code
  (∀ (wr : Writer) (v : Word) (s u : State) t, s.treeCtl v 1 = (some t, u) → u.activateCheck t ≠ 0 →
      s.Lands wr ALY_TREE_CTL.reg.addr → Completes (.treeActivate wr v) s fun t' => t' = u.set ALY_TREE_CTL.result (u.activateCheck t)) ∧
  -- TREE_DEACTIVATE of a tree that is not IDLE: it is freed; with an operation in progress the node aborts first, with cause 5
  (∀ (wr : Writer) (v : Word) (s u : State) t, s.treeCtl v 2 = (some t, u) → u.trSt t ≠ trIDLE →
      s.Lands wr ALY_TREE_CTL.reg.addr → Completes (.treeDeactivate wr v) s fun t' =>
        t' = (if (u.set ALY_TREE_CTL.result 0).treeBusy t then (u.set ALY_TREE_CTL.result 0).abortTree t 5
              else u.set ALY_TREE_CTL.result 0).treeFree t) ∧
  -- a tree that is freed is IDLE and keeps nothing but the abort answers that it awaits
  (∀ (s : State) (t : Nat), t < 4096 →
      ∃ w : State, s.treeFree t = w.treeVote.activityUpd ∧ w.trSt t = trIDLE ∧ w.get (ALY_TREE_STAT.stalled t) = 0 ∧
        w.tree t = (if (s.tree t).abortWait = [] then {} else { abortWait := (s.tree t).abortWait, abortSeq := (s.tree t).abortSeq }) ∧
        SameBut [(ALY_TREE_STAT.reg t).addr, ALY_STAT.reg.addr] { s with trees := w.trees } w) ∧
  -- an abort leaves an ACTIVE tree ABORTED with its cause, with no operation, slot, held segment or arrival, and sends its tokens
  (∀ (s : State) (t cause : Nat), t < 4096 → cause < 16 → s.trSt t = trACTIVE →
      ∃ w : State, s.abortTree t cause = w.abortTokens t ∧ w.trSt t = trABORTED ∧ w.get (ALY_TREE_STAT.abort_cause t) = cause ∧
        (w.tree t).ops = [] ∧ (w.tree t).up = [] ∧ (w.tree t).dn = [] ∧ (w.tree t).held = [] ∧ (w.tree t).arrived = [])

/-! ## The Mover and the Lockbox (10) -/

/-- MOVE and the channels (parts of 10 R372, R375, R376, R379, R382). -/
def Obligations.MoverCompletes : Prop :=
  -- MOVE: one that raises no counter and passes the checks of 10 Table 10.4 waits for a channel, counted where no more channels are free than MOVEs wait already
  (∀ (a : AcctNo) (src : Source) (hv : HostView) (s g : State) d ring idx (p1 p2 : Pattern),
      let u := g.taken a.val src d
      s.ServesHost g a.val src 7 (s.moveAccs d) hv d ring idx →
      bf d.toNat 256 40 ≠ 0 → bit d.toNat 66 = false → moveSide d 64 128 hv = (0, p1) → moveSide d 65 192 hv = (0, p2) →
      Completes (.move a src hv) s fun t => ∃ w : State, t = w.after a.val src ∧
        w = { (if u.moveWait.length < ((List.range 64).filter fun c => u.mvState c == mvIDLE && u.movDesc c).length then u else u.bump MOV_CNT_CH_WAIT.ev) with
              moveWait := u.moveWait ++ [{ desc := d, ev := { g.evTaken a.val src d ring idx with ctr := none }, src := p1, dst := p2 }] }) ∧
  -- a length of 0 completes at once with EMPTY
  (∀ (a : AcctNo) (src : Source) (hv : HostView) (s : State) d ring idx,
      let u := s.taken a.val src d
      s.Serves a.val src 7 d ring idx → bf d.toNat 256 40 = 0 → bit d.toNat 66 = false →
      Completes (.move a src hv) s fun t =>
        t = ((u.bump MOV_CNT_EMPTY.ev).complete { s.evTaken a.val src d ring idx with ctr := none } evMOVE_DONE stEMPTY 0 0 0 false).after a.val src) ∧
  -- CHANNEL_GRANT: an IDLE descriptor channel takes the MOVE that waits first, with no byte moved, and walks it
  (∀ (ch : MovNo) (hv : HostView) (s : State) w r, s.engineOn engMOV = true → s.mvState ch.val = mvIDLE → s.movDesc ch.val = true →
      s.moveWait = w :: r → w.ev.acct < 16384 →
      Completes (.channelGrant ch hv) s fun t => ∃ u : State, t = ((u.mvGo ch.val hv).acctFetch w.ev.acct).activityUpd ∧ u.moveWait = r ∧
        u.mov ch.val = { ev := w.ev, gen := w.ev.gen, desc := w.desc, src := w.src, dst := w.dst, todo := true } ∧
        u.get (MOV_MOVED.bytes ch.val) = 0 ∧ u.get (MOV_STAT.mode ch.val) = 1 ∧ u.get (MOV_STAT.account ch.val) = w.ev.acct ∧
        SameBut [(MOV_MOVED.reg ch.val).addr, (MOV_STAT.reg ch.val).addr] { s with moveWait := r, movs := u.movs } u) ∧
  -- a channel that waited on hold goes on
  (∀ (ch : MovNo) (hv : HostView) (s : State), s.engineOn engMOV = true → s.mvState ch.val ≠ mvIDLE → (s.mov ch.val).todo = true →
      Completes (.channelGrant ch hv) s fun t => t = s.mvGo ch.val hv) ∧
  -- walking, where the run that it has reached is the last and may be read and written now: the run's bytes are written, and as every
  -- write has been issued the flush read follows
  (∀ (c : Nat) (hv : HostView) (s u v : State) st d p,
      let m := s.mov c
      let pos := s.get (MOV_MOVED.bytes c)
      let top := if s.on (MOV_STAT.mode c) then 2 ^ 64 else 2 ^ 48
      let n := min 4096 (min (m.src.elem - (m.src.runAt pos).2) (m.dst.elem - (m.dst.runAt pos).2))
      let rs := cutOf ((m.src.runAt pos).1.toNat + (m.src.runAt pos).2) n
      let ws := cutOf ((m.dst.runAt pos).1.toNat + (m.dst.runAt pos).2) n
      let w := s.set (MOV_STAT.state c) mvRUNNING
      let x := v.mvWrite c ws d p
      pos < m.src.total → m.src.runOk pos top = true → m.dst.runOk pos top = true → w.mvGate c rs ws hv = (.go, st, u) →
      u.mvRead c hv rs = (some (d, p), v) → x.get (MOV_MOVED.bytes c) = (x.mov c).src.total → s.mvGo c hv = x.mvIssued c) ∧
  -- MOVER_GO, by Izger or by PF0 of a host link, on an IDLE register channel: mode, starter, 0 bytes moved, and the walk
  (∀ (wr : Writer) (ch : MovNo) (hv : HostView) (s : State), s.Lands wr (MOV_CTL.reg ch.val).addr → s.mvState ch.val = mvIDLE →
      s.movDesc ch.val = false → (s.regSides ch.val).1.total ≤ 2 ^ 48 - 1 → (s.regSides ch.val).1.total ≠ 0 →
      Completes (.moverGo ch wr hv) s fun t => ∃ u : State, t = (u.mvGo ch.val hv).activityUpd ∧
        u.get (MOV_MOVED.bytes ch.val) = 0 ∧ u.get (MOV_STAT.mode ch.val) = 0 ∧ u.get (MOV_STAT.starter ch.val) = (if (s.starterOf wr).isSome then 1 else 0) ∧
        u.get (MOV_STAT.starter_link ch.val) = (s.starterOf wr).getD 0 ∧
        u.mov ch.val = { src := (s.regSides ch.val).1, dst := (s.regSides ch.val).2, todo := true } ∧
        SameBut [(MOV_MOVED.reg ch.val).addr, (MOV_STAT.reg ch.val).addr] { s with movs := u.movs } u) ∧
  -- MOVER_GO by a write of another channel: the same, for whom that channel was started (model's choice, log entry 113)
  (∀ (c ch : MovNo) (hv : HostView) (s v : State) m rest, v = { s with movOwn := rest } →
      takeFirst (fun m : MovWrite => m.ch == c.val && m.addr == (MOV_CTL.reg ch.val).addr && bf m.v 0 2 == 1) s.movOwn = some (m, rest) →
      s.mvState ch.val = mvIDLE → s.movDesc ch.val = false → (s.regSides ch.val).1.total ≤ 2 ^ 48 - 1 → (s.regSides ch.val).1.total ≠ 0 →
      Completes (.moverGo ch (some (.mover c)) hv) s fun t => ∃ u : State, t = (u.mvGo ch.val hv).activityUpd ∧
        u.get (MOV_MOVED.bytes ch.val) = 0 ∧ u.get (MOV_STAT.mode ch.val) = 0 ∧
        u.mov ch.val = { src := (s.regSides ch.val).1, dst := (s.regSides ch.val).2, todo := true } ∧
        SameBut [(MOV_MOVED.reg ch.val).addr, (MOV_STAT.reg ch.val).addr] { v with movs := u.movs } u) ∧
  -- MOVER_ABORT of a channel that does not stop already: it stops with ABORTED, and issues no more of its walk and no flush read
  (∀ (wr : Writer) (ch : MovNo) (s : State), s.mvState ch.val ≠ mvIDLE → (s.mov ch.val).stop = none →
      s.Lands wr (MOV_CTL.reg ch.val).addr →
      Completes (.moverAbort wr ch) s fun t => (t.mov ch.val).stop = some stABORTED ∧ (t.mov ch.val).todo = false ∧
        t.mvState ch.val = (if s.mvState ch.val = mvFLUSHING then mvFLUSHING else mvRUNNING) ∧
        t.flushes = s.flushes.filter (fun f => !(f.why == .mover ch.val && f.tag.isNone)) ∧
        SameBut [(MOV_STAT.reg ch.val).addr] { s with movs := t.movs, flushes := t.flushes } t) ∧
  -- MOVER_COMPLETE of a channel whose every request has returned: its transfer ends with the status of its stop, or 0
  (∀ (ch : MovNo) (s : State), s.mvState ch.val ≠ mvIDLE → (s.mov ch.val).todo = false → (s.mov ch.val).flush = false →
      s.tags.any (fun t => t.why == .flush (.mover ch.val) && !t.quarantined) = false →
      Completes (.moverComplete ch) s fun t => t = s.mvDone ch.val ((s.mov ch.val).stop.getD 0)) ∧
  -- what that is for a descriptor channel that an account still awaits: MOVE_DONE with the bytes moved, and the channel is IDLE
  (∀ (c : Nat) (s : State), s.get (MOV_STAT.mode c) = 1 → (s.mov c).silent = false →
      s.mvDone c 0 = ((((s.set (MOV_STAT.status c) 0).complete (s.mov c).ev evMOVE_DONE 0 0 (s.get (MOV_MOVED.bytes c)) 0 false).mvIdle
        c).activityUpd)) ∧
  -- and for a register channel whose transfer ended well: IDLE, status 0, `done` set
  (∀ (c : Nat) (s : State), c < 128 → s.get (MOV_STAT.mode c) = 0 →
      ∃ u : State, s.mvDone c 0 = u.activityUpd ∧ u.mvState c = mvIDLE ∧ u.get (MOV_STAT.status c) = 0 ∧ u.get (MOV_EVT.done c) = 1 ∧ u.mov c = {})

/-- Committing rules to the Lockbox (parts of 10 R386 to R389). -/
def Obligations.LockboxCompletes : Prop :=
  -- LOCKBOX_COMMIT: a staged set that passes is in force at once, and done reads 0
  (∀ (wr : Writer) (m : Fin 128) (s : State), lbxExists m.val = true → (2 ≤ m.val ∨ s.get IZG_LOCK.lock = 0) → s.get (LBX_COMMIT.done m.val) ≠ 0 →
      s.lbxJudge m.val = (0, 0) →
      s.Lands wr (LBX_COMMIT.reg m.val).addr → Completes (.lockboxCommit wr m) s fun t =>
        (∀ i, i < 16 → t.word (LBX_ACTIVE.reg m.val i) = s.word (LBX_STAGE.reg m.val i)) ∧ t.get (LBX_COMMIT.result m.val) = 0 ∧
        t.get (LBX_COMMIT.region m.val) = 0 ∧ t.get (LBX_COMMIT.done m.val) = 0 ∧
        SameBut ((LBX_COMMIT.reg m.val).addr :: (List.range 16).map fun i => (LBX_ACTIVE.reg m.val i).addr) s t) ∧
  -- one that does not pass leaves the rules as they were, with the code, the region and a record
  (∀ (wr : Writer) (m : Fin 128) (s : State) r j, lbxExists m.val = true → (2 ≤ m.val ∨ s.get IZG_LOCK.lock = 0) → s.get (LBX_COMMIT.done m.val) ≠ 0 →
      s.lbxJudge m.val = (r, j) → r ≠ 0 → r < 16 → j < 16 →
      s.Lands wr (LBX_COMMIT.reg m.val).addr → Completes (.lockboxCommit wr m) s fun t =>
        t.get (LBX_COMMIT.result m.val) = r ∧ t.get (LBX_COMMIT.region m.val) = j ∧ t.get (LBX_COMMIT.done m.val) = s.get (LBX_COMMIT.done m.val) ∧
        SameBut [(LBX_COMMIT.reg m.val).addr] { s with clhIn := t.clhIn } t ∧
        ∃ x, t.clhIn = recInsert x s.clhIn ∧ x.kind = kLBX_COMMIT_REFUSED) ∧
  -- a commit of a Lockbox that is not there is an UNMAPPED write
  (∀ (wr : Writer) (m : Fin 128) (s : State), lbxExists m.val = false → s.Lands wr (LBX_COMMIT.reg m.val).addr →
      Completes (.lockboxCommit wr m) s fun t => t = { s with clhIn := t.clhIn } ∧
        ∃ x, t.clhIn = recInsert x s.clhIn ∧ x.kind = kUNMAPPED ∧ x.addr = (LBX_COMMIT.reg m.val).addr) ∧
  -- LOCKBOX_DRAIN_DONE: done reads 1, once no read of the master is out; until then it stays
  (∀ (m : Fin 128) (s : State), s.tags.any (fun t => !t.quarantined && (match t.why with | .outbound k _ => k == m.val | _ => false)) = true →
      Completes (.lockboxDrainDone m) s fun t => t = s) ∧
  (∀ (m : Fin 128) (s : State), lbxExists m.val = true →
      s.tags.any (fun t => !t.quarantined && (match t.why with | .outbound k _ => k == m.val | _ => false)) = false →
      Completes (.lockboxDrainDone m) s fun t => t.get (LBX_COMMIT.done m.val) = 1 ∧ SameBut [(LBX_COMMIT.reg m.val).addr] s t)

/-! ## The host interface (08; 13 R465, R473) -/

/-- Resets and power states of a host link and its functions (parts of 08 R287, R291, R295, R316 to R319, Table 8.12; 13 R465, R473; 01 R23). -/
def Obligations.HostLinkCommandsComplete : Prop :=
  -- PERST_ASSERT: both host links of the port are held in fundamental reset; each that is present is reset, with its event, and latches
  -- its account style anew when it next trains
  (∀ (n : Fin 4) (s : State), s.get (HBI_LINK_STAT.perst (2 * n.val)) = 0 →
      Completes (.perstAssert n) s fun t => ∃ u : State,
        t = ((((([2 * n.val, 2 * n.val + 1].filter s.hlPresent).foldl (fun s l => (s.set (HBI_EVT.perst l) 1).hostDown l) u).wakePin n.val).evalDom
              (2 + n.val)).activityUpd) ∧
        u.get (HBI_LINK_STAT.perst (2 * n.val)) = 1 ∧ u.get (HBI_LINK_STAT.perst (2 * n.val + 1)) = 1 ∧
        (∀ l ∈ [2 * n.val, 2 * n.val + 1].filter s.hlPresent, (u.hl l).trained = false) ∧
        SameBut [(HBI_LINK_STAT.reg (2 * n.val)).addr, (HBI_LINK_STAT.reg (2 * n.val + 1)).addr] { s with hls := u.hls } u) ∧
  -- PERST_DEASSERT: released; the domain of the port may come on
  (∀ (n : Fin 4) (s : State),
      Completes (.perstDeassert n) s fun t => ∃ u : State, t = (u.wakePin n.val).evalDom (2 + n.val) ∧
        u.get (HBI_LINK_STAT.perst (2 * n.val)) = 0 ∧ u.get (HBI_LINK_STAT.perst (2 * n.val + 1)) = 0 ∧
        SameBut [(HBI_LINK_STAT.reg (2 * n.val)).addr, (HBI_LINK_STAT.reg (2 * n.val + 1)).addr] s u) ∧
  -- DL_DOWN and HOT_RESET, of a link that is up: the host link is reset
  (∀ (n : HostLink) (s : State), s.get (HBI_LINK_STAT.dl_up n.val) ≠ 0 →
      Completes (.dlDown n) s fun t => t = (s.hostDown n.val).activityUpd) ∧
  (∀ (n : HostLink) (s : State), s.get (HBI_LINK_STAT.dl_up n.val) ≠ 0 →
      Completes (.hotReset n) s fun t => t = ((s.set (HBI_EVT.hot_reset n.val) 1).hostDown n.val).activityUpd) ∧
  -- what that leaves: configuration space is not ready; translations, held writes, invalidations and the record of the last write are gone
  (∀ (n : Nat) (s : State), n < 8 →
      ∃ u : State, s.hostDown n = (u.atsStat n).hostVotes n ∧ (u.hl n).ready = false ∧ (u.hl n).atc = [] ∧ (u.hl n).ats = [] ∧
        (u.hl n).invals = [] ∧ (u.hl n).heldInvals = [] ∧ (u.hl n).heldWrites = [] ∧ (u.hl n).lastWrite = none) ∧
  -- HOST_LINK_UP after BOOT, at a rate and a width that PCIe and the link have: the status and the event; configuration space is ready and
  -- says so; the first training since PERST_N rose latches the account style
  (∀ (n : HostLink) (rate : BitVec 3) (lanes : BitVec 5) (flit : Bool) (s : State), s.hlPresent n.val = true →
      s.get (HBI_LINK_STAT.perst n.val) = 0 → s.get (HBI_LINK_STAT.dl_up n.val) = 0 → s.dom (2 + n.val / 2) = dOn →
      bit (s.get PWR_PAD.held_hb) (n.val / 2) = false → 8 ≤ s.get TOP_BOOT_STAT.stage → 2 ≤ s.get TOP_STATE.svc_state → rate.toNat ≤ 6 →
      lanes.toNat ∈ [1, 2, 4, 8, 16] → lanes.toNat ≤ s.hlLanes n.val → (flit = true ∨ rate.toNat ≤ 4) →
      (s.flushes.filter fun f => f.target.hl == n.val) = [] →
      Completes (.hostLinkUp n rate lanes flit) s fun t => ∃ u : State, t = ((u.hostVotes n.val).hostKick n.val).intxOne n.val ∧
        u.get (HBI_LINK_STAT.dl_up n.val) = 1 ∧ u.get (HBI_LINK_STAT.speed n.val) = rate.toNat ∧
        u.get (HBI_LINK_STAT.width n.val) = lanes.toNat ∧ u.get (HBI_LINK_STAT.flit n.val) = (if flit then 1 else 0) ∧
        u.get (HBI_EVT.dl_up n.val) = 1 ∧ (u.hl n.val).ready = true ∧ u.out = .hostMsg n.val 0 msgDrs 0 :: s.out ∧
        (u.hl n.val).trained = true ∧ (u.hl n.val).style = (if (s.hl n.val).trained then (s.hl n.val).style else s.on (HBI_LINK_CFG.style n.val)) ∧
        SameBut [(HBI_LINK_STAT.reg n.val).addr, (HBI_EVT.reg n.val).addr] { s with hls := u.hls, out := u.out } u) ∧
  -- and in BOOT the same, but that configuration space is not ready
  (∀ (n : HostLink) (rate : BitVec 3) (lanes : BitVec 5) (flit : Bool) (s : State), s.hlPresent n.val = true →
      s.get (HBI_LINK_STAT.perst n.val) = 0 → s.get (HBI_LINK_STAT.dl_up n.val) = 0 → s.dom (2 + n.val / 2) = dOn →
      bit (s.get PWR_PAD.held_hb) (n.val / 2) = false → 8 ≤ s.get TOP_BOOT_STAT.stage → s.get TOP_STATE.svc_state = 1 → s.recovering = false →
      rate.toNat ≤ 6 → lanes.toNat ∈ [1, 2, 4, 8, 16] → lanes.toNat ≤ s.hlLanes n.val → (flit = true ∨ rate.toNat ≤ 4) →
      (s.flushes.filter fun f => f.target.hl == n.val) = [] →
      Completes (.hostLinkUp n rate lanes flit) s fun t => ∃ u : State, t = ((u.hostVotes n.val).hostKick n.val).intxOne n.val ∧
        u.get (HBI_LINK_STAT.dl_up n.val) = 1 ∧ u.get (HBI_EVT.dl_up n.val) = 1 ∧ (u.hl n.val).ready = (s.hl n.val).ready ∧ u.out = s.out) ∧
  -- FUNCTION_LEVEL_RESET: the event, and the reset of the function begins
  (∀ (n : HostLink) (fn : FnNo) (s : State), s.fnExists n.val fn.toNat = true → (s.fnc n.val fn.toNat).resetting = false →
      Completes (.functionLevelReset n fn) s fun t => ∃ u : State, t = (u.fnReset n.val fn.toNat).hostKick n.val ∧
        u.get (if fn.toNat = 0 then HBI_EVT.flr_pf0 n.val else if fn.toNat = 1 then HBI_EVT.flr_pf1 n.val else HBI_EVT.flr_vf n.val) = 1 ∧
        SameBut [(HBI_EVT.reg n.val).addr] s u) ∧
  -- what that is for a VF with no account, held write or flush read that waits: it is in reset and draining, may not issue, and has no
  -- cached translation
  (∀ (n fn : Nat) (s : State), 2 ≤ fn → (s.boundOn n).all (fun a => s.aFn a != fn) = true → (s.hl n).heldWrites.all (·.fn != fn) = true →
      s.flushes.all (fun f => !(f.target.hl == n && f.target.fn == fn && f.tag.isNone)) = true →
      ∃ w : State, s.fnReset n fn = ((((w.bmeFree n fn).ctoUpd n).intxOne n).hostVotes n) ∧ (w.fnc n fn).resetting = true ∧
        (w.fnc n fn).bme = false ∧ fn ∈ (w.hl n).draining ∧ (w.hl n).atc.all (·.fn != fn) = true ∧ (w.hl n).ats.all (·.fn != fn) = true ∧
        w = { s with hls := w.hls, fns := w.fns, regs := w.regs }) ∧
  -- FLR_DRAIN_END of a function with nothing left to drain: its reset ends, and on a link that is up it says so
  (∀ (n : HostLink) (fn : FnNo) (s : State), fn.toNat ∈ (s.hl n.val).draining →
      (s.fnAccts n.val fn.toNat).any (fun a => s.aSt a == aRESETTING) = false → (fn.toNat = 0 → s.pf0Channels n.val = []) →
      Completes (.flrDrainEnd n fn) s fun t => (t.fnc n.val fn.toNat).resetting = false ∧ fn.toNat ∉ (t.hl n.val).draining ∧
        t.out = (if s.on (HBI_LINK_STAT.dl_up n.val) then .hostMsg n.val fn.toNat msgFrs 0 :: s.out else s.out) ∧ t.regs = s.regs ∧ t.tags = s.tags) ∧
  -- DRAIN_SQUASH_TIMER of a function other than PF0: the reads of its accounts that still drain are quarantined, the accounts end, and so
  -- does the reset
  (∀ (n : HostLink) (fn : FnNo) (s : State), fn.toNat ∈ (s.hl n.val).draining → fn.toNat ≠ 0 →
      let as := (s.fnAccts n.val fn.toNat).filter fun a => s.aSt a == aRESETTING
      Completes (.drainSquashTimer n fn) s fun t => ∃ u : State, t = (((as.foldl State.drainEnd (State.tagStat u n.val)).fnReady n.val fn.toNat).activityUpd) ∧
        u = { s with tags := u.tags } ∧ u.tags.length = s.tags.length ∧
        (∀ x ∈ u.tags, x.hl = n.val → (∃ a ∈ as, x.acct = some a) → x.quarantined = true)) ∧
  -- BME_CLEAR: the function may not issue, with the event
  (∀ (n : HostLink) (fn : FnNo) (s : State), s.fnExists n.val fn.toNat = true → (s.fnc n.val fn.toNat).bme = true →
      Completes (.bmeClear n fn) s fun t => (t.fnc n.val fn.toNat).bme = false ∧ t.get (HBI_EVT.bme_clear n.val) = 1 ∧
        SameBut [(HBI_EVT.reg n.val).addr] { s with fns := t.fns } t) ∧
  -- BME_SET: it may, and what waited for that goes on
  (∀ (n : HostLink) (fn : FnNo) (s : State), s.fnExists n.val fn.toNat = true → (s.fnc n.val fn.toNat).resetting = false →
      Completes (.bmeSet n fn) s fun t => ∃ u : State, t = u.fnResume n.val fn.toNat ∧ (u.fnc n.val fn.toNat).bme = true ∧
        u = { s with fns := u.fns }) ∧
  -- D3HOT_ENTER and D0_RETURN of a physical function
  (∀ (n : HostLink) (fn : FnNo) (s : State), s.fnExists n.val fn.toNat = true → fn.toNat ≤ 1 →
      Completes (.d3hotEnter n fn) s fun t => ∃ u : State, t = u.hostVotes n.val ∧ (u.fnc n.val fn.toNat).d3 = true ∧ u = { s with fns := u.fns }) ∧
  (∀ (n : HostLink) (fn : FnNo) (s : State), s.fnExists n.val fn.toNat = true → fn.toNat ≤ 1 →
      Completes (.d0Return n fn) s fun t => ∃ u : State, t = (u.hostVotes n.val).fnResume n.val fn.toNat ∧
        (u.fnc n.val fn.toNat).d3 = false ∧ u = { s with fns := u.fns })

/-- Requests and completions on a host link (parts of 08 R295, R300, R301, R305, R307, R309, R312, R313, R315). -/
def Obligations.HostRequestsComplete : Prop :=
  -- CONFIG_REQUEST to a function that is ready: a read is answered with the dword
  (∀ (n : HostLink) (fn : FnNo) (dw : BitVec 10) (be : BitVec 4) (s : State), s.get (HBI_LINK_STAT.dl_up n.val) ≠ 0 →
      (s.hl n.val).ready = true → s.fnExists n.val fn.toNat = true → (s.fnc n.val fn.toNat).resetting = false →
      Completes (.configRequest n fn dw be none) s fun t =>
        t = { s with out := .hostCpl n.val fn.toNat cplOK (bytesOf 4 (s.cfgRead n.val fn.toNat dw.toNat)) :: s.out }) ∧
  -- a write is made (`cfgWrite`) and completed
  (∀ (n : HostLink) (fn : FnNo) (dw : BitVec 10) (be : BitVec 4) (v : BitVec 32) (s : State), s.get (HBI_LINK_STAT.dl_up n.val) ≠ 0 →
      (s.hl n.val).ready = true → s.fnExists n.val fn.toNat = true → (s.fnc n.val fn.toNat).resetting = false →
      Completes (.configRequest n fn dw be (some v)) s fun t =>
        t = (s.cfgWrite n.val fn.toNat dw.toNat be.toNat v.toNat).emit (.hostCpl n.val fn.toNat cplOK [])) ∧
  -- UNSUPPORTED_REQUEST: completed as such, and reported
  (∀ (n : HostLink) (fn : FnNo) (bar : Fin 3) (s : State), s.fnExists n.val fn.toNat = true → s.get (HBI_LINK_STAT.dl_up n.val) ≠ 0 →
      Completes (.unsupportedRequest n fn bar) s fun t =>
        t = (s.aerAdvise n.val fn.toNat aerUnsup).emit (.hostCpl n.val fn.toNat cplUR [])) ∧
  -- HOST_COMPLETION_RECEIVE of a read whose account has not moved on: its data goes to the engine that asked, and its tag is free
  (∀ (n : HostLink) (fn : FnNo) (tag : Nat) (data : Bytes) (s : State) x, s.tags.find? (tagIs n.val fn.toNat tag) = some x → x.quarantined = false →
      s.tagStale x = false →
      Completes (.hostCompletionReceive n fn tag .ok data) s fun t =>
        t = ((s.tagDeliver x (some (data, false))).dropTag n.val fn.toNat tag).hostKick n.val ∧
        ((s.tagDeliver x (some (data, false))).dropTag n.val fn.toNat tag).tags.find? (tagIs n.val fn.toNat tag) = none) ∧
  -- where the engine is a local-bus master that reads through an outbound window, it has the data
  (∀ (x : Tag) (data : Bytes) (k w : Nat) (s : State), x.why = .outbound k w →
      s.tagDeliver x (some (data, false)) = { s with out := .readData (natOf data) :: s.out }) ∧
  -- a completion that no tag awaits is counted and reported
  (∀ (n : HostLink) (fn : FnNo) (tag : Nat) (data : Bytes) (s : State), s.tags.find? (tagIs n.val fn.toNat tag) = none →
      Completes (.hostCompletionReceive n fn tag .ok data) s fun t =>
        t = (s.aerAdvise n.val (if s.fnExists n.val fn.toNat then fn.toNat else 0) aerUnexp).bump (HBI_CNT_UNEXP_CPL.ev n.val)) ∧
  -- COMPLETION_TIMEOUT of a tag not in quarantine: it is quarantined, and answers nobody any more
  (∀ (n : HostLink) (fn : FnNo) (tag : Nat) (s : State) x, s.tags.find? (tagIs n.val fn.toNat tag) = some x → x.quarantined = false →
      Completes (.completionTimeout n fn tag) s fun t => ∃ u : State, t = (State.tagStat u n.val).hostKick n.val ∧
        u.tags.find? (tagIs n.val fn.toNat tag) = some { x with quarantined := true, why := match x.why with | .trans f p pg => .trans f p pg | _ => .other }) ∧
  -- QUARANTINE_EXPIRY: the tag is free
  (∀ (n : HostLink) (fn : FnNo) (tag : Nat) (s : State) x, s.tags.find? (tagIs n.val fn.toNat tag) = some x → x.quarantined = true →
      Completes (.quarantineExpiry n fn tag) s fun t => t = (s.dropTag n.val fn.toNat tag).hostKick n.val ∧
        (s.dropTag n.val fn.toNat tag).tags.find? (tagIs n.val fn.toNat tag) = none) ∧
  -- FLUSH_READ_RETURN: the oldest flush read issued waits no more, and its tag is free; for an invalidation of keys whose last it is, done
  -- reads 1; a Mover channel has its end, with HOST_ERROR where it failed and no other stop stands; a message's receipt goes out, with
  -- HOST_ERROR where it failed and the status was OK
  (∀ (n : HostLink) (ok : Bool) (s : State) f, s.flushes.find? (fun f => f.target.hl == n.val && f.tag.isSome) = some f →
      Completes (.flushReadReturn n ok) s fun t => ∃ u : State,
        u = State.freeTag { s with flushes := s.flushes.filter (· != f) } f.target.hl (.flush f.why) ∧
        (f.why = .keyInval → u.flushes.any (·.why == .keyInval) = false → t = (u.set TLR_KEY_INVAL.done 1).hostKick n.val) ∧
        (∀ c, f.why = .mover c → t = (u.modMov c fun m =>
          { m with flush := false, stop := some (m.stop.getD (if ok then 0 else stHOST_ERROR)) }).hostKick n.val) ∧
        (∀ src id o, f.why = .receipt src id → u.openFind src id = some o →
          t = (u.closeOpen o (if ok || o.status != 0 then o.status else stHOST_ERROR)).hostKick n.val)) ∧
  -- TRANSLATION_COMPLETION: a translation that permits something enters the cache
  (∀ (n : HostLink) (fn : FnNo) (page base pages : Nat) (rd wr uo : Bool) (s : State) q rest,
      takeFirst (fun q : AtsReq => q.fn == fn.toNat && q.page == page && q.answer.isNone && !q.denied) (s.hl n.val).ats = some (q, rest) →
      (rd || wr) = true → q.stale = false →
      Completes (.translationCompletion n fn page (.ok base pages rd wr uo)) s fun t => ∃ u : State, t = (u.atsStat n.val).hostKick n.val ∧
        (u.hl n.val).ats = rest ∧
        (u.hl n.val).atc.head? = some { fn := fn.toNat, pasid := q.pasid, page := page / max 1 pages * max 1 pages, pages := max 1 pages,
                                         trans := base, rd, wr, untransOnly := uo } ∧
        (∀ m, m ≠ n.val → u.hl m = s.hl m) ∧ u = { s.freeTag n.val (.trans fn.toNat q.pasid page) with hls := u.hls }) ∧
  -- INVALIDATE_REQUEST with fewer than 32 outstanding: no cached translation that it covers is left, and its completion is owed
  (∀ (n : HostLink) (fn : FnNo) (itag : BitVec 5) (pasid : Option (BitVec 20)) (all : Bool) (page pages : Nat) (s : State),
      s.get (HBI_LINK_STAT.dl_up n.val) ≠ 0 → (s.fnc n.val fn.toNat).ats = true → (s.fnc n.val fn.toNat).resetting = false →
      (s.hl n.val).invals.length < 32 → (s.hl n.val).heldInvals = [] →
      Completes (.invalidateRequest n fn itag pasid all page pages) s fun t => ∃ u : State, t = State.atsStat u n.val ∧
        (u.hl n.val).atc = (s.hl n.val).atc.filter (fun e =>
          !invalCovers fn.toNat (pasid.map BitVec.toNat) all page pages e.fn e.pasid e.page e.pages) ∧
        (u.hl n.val).invals = (s.hl n.val).invals ++ [{ itag := itag.toNat, fn := fn.toNat }] ∧ u = { s with hls := u.hls, tags := u.tags, flushes := u.flushes }) ∧
  -- one that comes while 32 are outstanding waits (16 R547)
  (∀ (n : HostLink) (fn : FnNo) (itag : BitVec 5) (pasid : Option (BitVec 20)) (all : Bool) (page pages : Nat) (s : State),
      s.get (HBI_LINK_STAT.dl_up n.val) ≠ 0 → 32 ≤ (s.hl n.val).invals.length →
      Completes (.invalidateRequest n fn itag pasid all page pages) s fun t =>
        (t.hl n.val).heldInvals = (s.hl n.val).heldInvals ++ [{ fn := fn.toNat, itag := itag.toNat, pasid := pasid.map BitVec.toNat, all, page, pages }] ∧
        (t.hl n.val).atc = (s.hl n.val).atc ∧ (t.hl n.val).invals = (s.hl n.val).invals ∧ t = { s with hls := t.hls }) ∧
  -- INVALIDATE_COMPLETION, with no read that used the translation outstanding, no flush read that is to use it, and none waiting behind it: it is sent and counted
  (∀ (n : HostLink) (itag : BitVec 5) (s : State) q rest, takeFirst (fun q : InvalReq => q.itag == itag.toNat) (s.hl n.val).invals = some (q, rest) →
      s.tags.any (fun x => x.hl == n.val && !x.quarantined && x.invals.contains itag.toNat) = false →
      s.flushes.any (fun f => f.target.hl == n.val && f.invals.contains itag.toNat) = false →
      (s.hl n.val).heldInvals = [] →
      Completes (.invalidateCompletion n itag) s fun t =>
        t = (((s.modHl n.val fun h => { h with invals := rest }).atsStat n.val).bump (HBI_CNT_ATS_INVAL.ev n.val)).emit
              (.hostMsg n.val q.fn msgInvalCpl itag.toNat)) ∧
  -- OUTBOUND_ACCESS, a write within one page that the master's Lockbox and the window let go: it goes out to the window's host address
  (∀ (m : Fin 128) (addr : BitVec 48) (data : Bytes) (poison : Bool) (len : BitVec 13) (s g : State), 2 ^ 47 ≤ addr.toNat → (m.val < 4 ∨ 64 ≤ m.val) →
      data ≠ [] → addr.toNat % 4096 + data.length ≤ 4096 → s.lbxCheck m.val addr.toNat true = (true, s) →
      s.owinGate addr.toNat data.length true (decide (m.val < 2)) = (.go, g) →
      Completes (.outboundAccess m addr true data poison len) s fun t =>
        t = g.post (g.owinTarget addr.toNat).1 (g.owinTarget addr.toNat).2.1 (g.owinTarget addr.toNat).2.2.1 (g.owinTarget addr.toNat).2.2.2
              data poison (g.owinAttr (g.owinTarget addr.toNat).1 (addr.toNat % 2 ^ 44 / 2 ^ 38))) ∧
  -- a read likewise, that one request covers: it takes a tag and is put on the link
  (∀ (m : Fin 128) (addr : BitVec 48) (data : Bytes) (poison : Bool) (len : BitVec 13) (s g u : State) tag, 2 ^ 47 ≤ addr.toNat →
      (m.val < 4 ∨ 64 ≤ m.val) → len.toNat ≠ 0 → addr.toNat % 4096 + len.toNat ≤ 4096 → s.lbxCheck m.val addr.toNat false = (true, s) →
      s.owinGate addr.toNat len.toNat false (decide (m.val < 2)) = (.go, g) →
      readCut (g.ctlFn (g.owinTarget addr.toNat).1 (g.owinTarget addr.toNat).2.1).mrrs len.toNat (g.owinTarget addr.toNat).2.2.2 len.toNat
        = [((g.owinTarget addr.toNat).2.2.2, len.toNat)] →
      g.takeTag (g.owinTarget addr.toNat).1 (g.owinTarget addr.toNat).2.1 none (.outbound m.val (addr.toNat % 2 ^ 44 / 2 ^ 38)) = (some tag, u) →
      Completes (.outboundAccess m addr false data poison len) s fun t =>
        t = u.readTlp (g.owinTarget addr.toNat).1 (g.owinTarget addr.toNat).2.1 (g.owinTarget addr.toNat).2.2.1 tag
              (g.owinTarget addr.toNat).2.2.2 len.toNat (u.owinAttr (g.owinTarget addr.toNat).1 (addr.toNat % 2 ^ 44 / 2 ^ 38))) ∧
  -- and one that the Lockbox refuses gives its master 0, and is counted and recorded
  (∀ (m : Fin 128) (addr : BitVec 48) (data : Bytes) (poison : Bool) (len : BitVec 13) (s u : State), 2 ^ 47 ≤ addr.toNat →
      (m.val < 4 ∨ 64 ≤ m.val) → len.toNat ≠ 0 → addr.toNat % 4096 + len.toNat ≤ 4096 → s.lbxCheck m.val addr.toNat false = (false, u) →
      Completes (.outboundAccess m addr false data poison len) s fun t => t = { u with out := .readData 0 :: u.out } ∧
        (∃ r, u.clhIn = recInsert r s.clhIn ∧ r.kind = kLBX_DENY) ∧ u.get (LBX_DENY.address m.val) = addr.toNat)

/-! ## The Cuhan link (03; 02 R55, R56; 04 R128) -/

/-- Frames in ACTIVE, and what keeps the link there (parts of 03 R70, R74, R76, R81, R84 to R91, R106). -/
def Obligations.LinkServiceCompletes : Prop :=
  -- FRAME_RECEIVE in ACTIVE, with no symbol in error: a good frame that is no error is counted in the window and served
  (∀ (p : PortNo) (f : LinkFrame) (s : State), f.wf = true → s.linkState p.val = stActive → s.role p.val ≠ roleCell →
      (s.port p.val).pcs.rxBad = false → frameCrcOk f = true → s.frameIllegal p.val f = none → s.dataFault p.val f = none →
      Completes (.frameReceive p f { words := [], marks := [] }) s fun t => ∃ u : State, t = (u.serveFrame p.val f).activityUpd ∧
        u.get (LNK_ERR_WIN.frames p.val) = min (s.get (LNK_ERR_WIN.frames p.val) + 1) (2 ^ 24 - 1) ∧
        u.get (LNK_ERR_WIN.fec_uncorr p.val) = s.get (LNK_ERR_WIN.fec_uncorr p.val) ∧
        u.port p.val = { s.port p.val with pcs := { (s.port p.val).pcs with rxPos := ((s.port p.val).pcs.rxPos + 1) % 5, rxBad := false } } ∧
        SameBut [(LNK_ERR_WIN.reg p.val).addr] { s with ports := u.ports } u) ∧
  -- what serving is for a DATA frame of the sequence expected that acknowledges nothing new and carries nothing else: the next sequence is
  -- expected, and its flits are taken in order
  (∀ (p : Nat) (f : LinkFrame) (s : State), p < 64 → s.linkState p = stActive → f.ackSeq.toNat = s.get (LNK_ESCROW.oldest p) → f.nak = false →
      18 ≤ f.cr0Class.toNat → 18 ≤ f.cr1Class.toNat → f.qs0v = false → f.qs1v = false → f.ftype = 1 → f.seq.toNat = (s.port p).rxNext →
      ∃ u : State, s.serveFrame p f = (slotsOf f).foldl (fun s x => s.acceptFlit p x) u ∧ (u.port p).rxNext = ((s.port p).rxNext + 1) % 2 ^ 24 ∧
        (u.port p).nakHold = false ∧ (u.port p).vault = (s.port p).vault ∧ u = { s with ports := u.ports }) ∧
  -- a repeat of such a frame, from behind what is expected, has no effect, but that one marked as replayed is counted
  (∀ (p : Nat) (f : LinkFrame) (s : State), s.linkState p = stActive → f.ackSeq.toNat = s.get (LNK_ESCROW.oldest p) → f.nak = false →
      18 ≤ f.cr0Class.toNat → 18 ≤ f.cr1Class.toNat → f.qs0v = false → f.qs1v = false → f.ftype = 1 → f.seq.toNat ≠ (s.port p).rxNext →
      behind f.seq.toNat (s.port p).rxNext = true →
      s.serveFrame p f = if f.replayed = true then s.modPort p fun q => { q with replayedIn := q.replayedIn + 1 } else s) ∧
  -- a credit return lowers what counts as used of the class, and is noted in the total received
  (∀ (p c n : Nat) (s : State), p < 64 → c < 18 →
      (s.takeCredit p c n).get (LNK_VAULT_USED.used p c) = s.get (LNK_VAULT_USED.used p c) - n ∧
      tcnt ((s.takeCredit p c n).port p).receivedTotal c = (tcnt (s.port p).receivedTotal c + n) % 2 ^ 32 ∧
      SameBut [(LNK_VAULT_USED.reg p c).addr] { s with ports := (s.takeCredit p c n).ports } (s.takeCredit p c n)) ∧
  -- a corrupt frame in ACTIVE is counted and nothing of it is used: the port asks for it again
  (∀ (p : PortNo) (f : LinkFrame) (s : State), f.wf = true → s.linkState p.val = stActive → s.role p.val ≠ roleCell → frameCrcOk f = false →
      Completes (.frameReceive p f { words := [], marks := [] }) s fun t => ∃ u : State,
        t = ((((u.bump (LNK_CNT_CORRUPT.ev p.val)).modPort p.val fun q => { q with goodFrames := 0 }).nakCause p.val).askCreditSync p.val).activityUpd ∧
        u.get (LNK_ERR_WIN.frames p.val) = min (s.get (LNK_ERR_WIN.frames p.val) + 1) (2 ^ 24 - 1) ∧
        SameBut [(LNK_ERR_WIN.reg p.val).addr] { s with ports := u.ports } u) ∧
  -- that is a NAK in the next frame, while none is being waited for and the window's 1,024 are not used up
  (∀ (p : Nat) (s : State), p < 64 → (s.port p).nakHold = false → s.get (LNK_ERR_WIN.naks p) < 1024 → ∃ v : State,
      s.nakCause p = v.bump (LNK_CNT_NAK.ev p) ∧ (v.port p).nakPending = true ∧ (v.port p).nakHold = true ∧ (v.port p).nakAt = s.clk ∧
      v.get (LNK_ERR_WIN.naks p) = s.get (LNK_ERR_WIN.naks p) + 1 ∧ SameBut [(LNK_ERR_WIN.reg p).addr] { s with ports := v.ports } v) ∧
  -- FRAME_SEND in ACTIVE with nothing to replay or to say: new flits go in a DATA frame of the next sequence, which is kept
  (∀ (p : PortNo) (s t : State) xs, s.linkState p.val = stActive → s.role p.val ≠ roleCell → (s.port p.val).pcs.mark = 0 →
      s.tryQuiet p.val = s → (s.port p.val).ctrlQ = [] → (s.port p.val).replayQ = [] → (s.port p.val).quietSent = false → s.stopping = false →
      (s.port p.val).escrow.length < s.get (LNK_ESCROW.depth p.val) → s.fillSlots p.val 15 = (xs, t) → xs ≠ [] →
      Completes (.frameSend p) s fun t' =>
        t' = (((t.set (LNK_ESCROW.next p.val) ((t.get (LNK_ESCROW.next p.val) + 1) % 2 ^ 24)).modPort p.val fun q =>
          { q with escrow := q.escrow ++ [{ seq := t.get (LNK_ESCROW.next p.val), slots := xs }], ackRunning := true }).buildFrame p.val
            (.data (t.get (LNK_ESCROW.next p.val)) false xs))) ∧
  -- with no flit to send, an IDLE frame
  (∀ (p : PortNo) (s t : State), s.linkState p.val = stActive → s.role p.val ≠ roleCell → (s.port p.val).pcs.mark = 0 →
      s.tryQuiet p.val = s → (s.port p.val).ctrlQ = [] → (s.port p.val).replayQ = [] → s.fillSlots p.val 15 = ([], t) →
      Completes (.frameSend p) s fun t' => t' = s.buildFrame p.val .idle) ∧
  -- a frame so built is whole, carries the next frame expected and what it is to carry, and goes out and into the PCS
  (∀ (p : Nat) (y : Payload) (s : State), ∃ (u : State) (f : LinkFrame),
      s.buildFrame p y = (u.emit (.frame p f)).pcsSend p 5 (frameAll f) ∧ frameCrcOk f = true ∧
      f.ackSeq = BitVec.ofNat 24 (s.port p).rxNext ∧ f.nak = (s.port p).nakPending ∧
      match y with
      | .data q r xs => f.ftype = 1 ∧ f.seq = BitVec.ofNat 24 q ∧ f.replayed = r ∧ (xs.length ≤ 15 → f.wf = true ∧ f.flits.take xs.length = xs.map (·.slot.flit))
      | .idle => f.ftype = 2 ∧ f.wf = true ∧ f.replayed = false
      | .ctrl _ => f.ftype = 3 ∧ f.seq = 0 ∧ f.replayed = false) ∧
  -- after 16,384 groups of frames five frame slots go to a marker group, of which the first brings the eight codewords
  (∀ (p : PortNo) (s : State), (s.port p.val).pcs.mark = 5 → Completes (.frameSend p) s fun t =>
      (t.port p.val).pcs.mark = 4 ∧ (t.port p.val).escrow = (s.port p.val).escrow ∧
      t.out = List.replicate 8 (.codeword p.val (byLane (s.lanesNow p.val) (markWord (s.lanesNow p.val)))) ++ s.out ∧
      t = { s with ports := t.ports, out := t.out }) ∧
  -- ACK_TIMER_EXPIRY: replay from the oldest frame held; the frames from there on are to be sent again
  (∀ (p : PortNo) (s : State), s.linkState p.val = stActive → (s.port p.val).ackRunning = true →
      Completes (.ackTimerExpiry p) s fun t => t = s.startReplay p.val (s.get (LNK_ESCROW.oldest p.val))) ∧
  (∀ (p q : Nat) (s : State), s.get (LNK_ERR_WIN.failed_replays p) = 0 → (s.port p).lastReplay ≠ some q →
      ∃ u : State, s.startReplay p q = u.modPort p (fun t =>
        { t with lastReplay := some q, replayFrom := some q, replayAt := u.clk, ackRunning := true,
                 replayQ := (t.escrow.map (·.seq)).dropWhile fun x => behind x q }) ∧ u.ports = s.ports) ∧
  -- ERROR_WINDOW_END: the counts of the window restart
  (∀ (p : PortNo) (s : State), Completes (.errorWindowEnd p) s fun t => t.get (LNK_ERR_WIN.naks p.val) = 0 ∧
      t.get (LNK_ERR_WIN.fec_uncorr p.val) = 0 ∧ t.get (LNK_ERR_WIN.frames p.val) = 0 ∧
      t.get (LNK_ERR_WIN.failed_replays p.val) = s.get (LNK_ERR_WIN.failed_replays p.val) ∧ (t.port p.val).winCorr = [] ∧
      SameBut [(LNK_ERR_WIN.reg p.val).addr] { s with ports := t.ports } t) ∧
  -- SIGNAL_LOSS: a lane in use is a cause of link down (4); another only loses its signal
  (∀ (p : PortNo) (l : Fin 8) (s : State), Completes (.signalLoss p l) s fun t => ∃ u : State, u.get (PRT_LANE_STAT.signal p.val l.val) = 0 ∧
      SameBut [(PRT_LANE_STAT.reg p.val l.val).addr] s u ∧
      t = (if s.get (PRT_LANE_STAT.active p.val l.val) ≠ 0 then u.linkDown p.val 4 else u).activityUpd) ∧
  -- what such a cause does to an ACTIVE link: its code is kept, LINK_DOWN is raised, and the port starts a reset
  (∀ (p cause : Nat) (s : State), p < 64 → cause < 16 → s.linkState p = stActive → ∃ u : State,
      s.linkDown p cause = ((u.startReset p).adverted (s.role p)).settle ∧ u.get (LNK_STAT.down_cause p) = cause ∧ u.linkState p = stActive ∧
      (∃ x, u.clhIn = recInsert x s.clhIn ∧ x.kind = kLINK_DOWN ∧ x.src = srcOf 0x10 p ∧ x.detail = cause) ∧ u.ports = s.ports) ∧
  -- and what starting a reset does, on a port that has a role within its limit: it is in RESET_ENTRY, in its role, with nothing of the
  -- training before; from ACTIVE, QUIET, HELD or DISABLED its reset limit runs anew
  (∀ (p : Nat) (s : State), p < 64 → s.get (PRT_ROLE.role p) ≠ 0 → s.overLimit p = false → s.recovering = false → s.ownAbsent = false →
      s.get (LNK_RESET_LIMIT.limit_us p) ≠ 0 →
      ((s.startReset p).linkState p = 1 ∧ (s.startReset p).get (PRT_ROLE.effective p) = s.get (PRT_ROLE.role p) ∧
        ((s.startReset p).port p).ctrlQ = [] ∧ ((s.startReset p).port p).ctrlIn = [] ∧ ((s.startReset p).port p).escrow = (s.port p).escrow ∧
        ((s.startReset p).port p).vault = (s.port p).vault ∧
        (s.linkState p ∈ [0, 8, 9, 10] → ((s.startReset p).port p).limitRunning = true ∧ ((s.startReset p).port p).outOfService = false))) ∧
  -- in recovery boot it stays in DISABLED; a device that its cabling plan lacks is held with code 0x14
  (∀ (p : Nat) (s : State), p < 64 → s.recovering = true → (s.startReset p).linkState p = 0 ∧ (s.startReset p).get (PRT_ROLE.effective p) = 0) ∧
  (∀ (p : Nat) (s : State), s.get (PRT_ROLE.role p) ≠ 0 → s.overLimit p = false → s.recovering = false → s.ownAbsent = true →
    ∃ u : State, s.startReset p = u.holdPort p 0x14 ∧ u.linkState p = s.linkState p) ∧
  -- LINK_RESET_WRITE: a port in HELD or DISABLED starts its reset; on another it is a cause of link down (8)
  (∀ (wr : Writer) (p : PortNo) (s : State), s.Lands wr (LNK_CTL.reg p.val).addr → Completes (.linkResetWrite wr p) s fun t =>
      t = (if s.linkState p.val = 0 ∨ s.linkState p.val = 10 then (s.startReset p.val).settle else s.linkDown p.val 8)) ∧
  -- CREDIT_SYNC: the oldest that has come restores credits
  (∀ (p : PortNo) (s : State) x l r, (s.port p.val).ctrlIn = x :: r → x.msg = .creditSync l →
      Completes (.creditSync p) s fun t => t = (s.modPort p.val fun q => { q with ctrlIn := r }).syncCredits p.val l x.since) ∧
  -- which, where the peer has returned of each class what had come, changes nothing
  (∀ (p : Nat) (s : State) l since, (∀ c, c < 18 → tcnt (s.port p).receivedTotal c < 2 ^ 32 ∧
      (l.getD c 0 + tcnt since c) % 2 ^ 32 = tcnt (s.port p).receivedTotal c) → s.syncCredits p l since = s) ∧
  -- CREDIT_SYNC_REQ, the oldest that has come, and CREDIT_SYNC_PERIOD: a CREDIT_SYNC is to be sent, in the one case as an answer
  (∀ (p : PortNo) (s : State) x r, (s.port p.val).ctrlIn = x :: r → x.msg = .creditSyncReq → (s.port p.val).ctrlQ = [] →
      Completes (.creditSyncReq p) s fun t => (t.port p.val).ctrlIn = r ∧
        (t.port p.val).ctrlQ = [{ msg := .creditSync [], waited := 0, answer := true }] ∧ t = { s with ports := t.ports }) ∧
  (∀ (p : PortNo) (s : State), s.linkState p.val = stActive → (s.port p.val).ctrlQ = [] →
      Completes (.creditSyncPeriod p) s fun t =>
        (t.port p.val).ctrlQ = [{ msg := .creditSync [], waited := 0, answer := false }] ∧ t = { s with ports := t.ports }) ∧
  -- its totals are those of the frame in which it goes
  (∀ (p : Nat) (s : State) l, s.ctrlStamp p (.creditSync l) = (.creditSync (list18 (s.port p).returnedTotal), s)) ∧
  -- REACH_WRITE: set for the next training while the claims total at most 8 km; refused otherwise, with a record; bit 8 clears the mark of
  -- an earlier refusal
  (∀ (wr : Writer) (p : PortNo) (v : Word) (s : State), s.Lands wr (LNK_REACH.reg p.val).addr → Completes (.reachWrite wr p v) s fun t =>
      if 4 < bf v.toNat 0 3 ∨ s.get (PRT_ROLE.role p.val) = roleCell ∨
          8 < (ports64.map fun q => max (if q = p.val then bf v.toNat 0 3 else s.get (LNK_REACH.km q)) (s.get (LNK_REACH.granted q))).sum then
        t.get (LNK_REACH.refused p.val) = 1 ∧ t.get (LNK_REACH.km p.val) = s.get (LNK_REACH.km p.val) ∧
        ∃ x, t.clhIn = recInsert x s.clhIn ∧ x.kind = kREACH_REFUSED
      else t.get (LNK_REACH.km p.val) = bf v.toNat 0 3 ∧
        t.get (LNK_REACH.refused p.val) = (if bit v.toNat 8 = true then 0 else s.get (LNK_REACH.refused p.val)) ∧
        SameBut [(LNK_REACH.reg p.val).addr] s t)

/-- Training, from RESET_ENTRY to PARAM, and its ends (parts of 03 R89 to R101, R103, R107 to R109, R112, R554, Table 3.3). -/
def Obligations.LinkTrainingCompletes : Prop :=
  -- RESET_ENTRY_DONE: DETECT, with no lane in use
  (∀ (p : PortNo) (s : State), s.linkState p.val = 1 →
      Completes (.resetEntryDone p) s fun t => t.linkState p.val = 2 ∧ (t.port p.val).resetSets = [] ∧
        (∀ l, l < 8 → t.get (PRT_LANE_STAT.active p.val l) = 0 ∧ t.get (PRT_LANE_STAT.locked p.val l) = 0)) ∧
  -- DETECT_STABLE with a signal on a port of the fabric: LANE_TRAIN
  (∀ (p : PortNo) (signal : BitVec 8) (s : State), s.linkState p.val = 2 → signal ≠ 0 → s.role p.val ≠ roleCell →
      Completes (.detectStable p signal 0) s fun t => t.linkState p.val = 3 ∧ (t.port p.val).pairSets = 0 ∧
        (∀ l, l < 8 → t.get (PRT_LANE_STAT.signal p.val l) = (if bit signal.toNat l then 1 else 0) ∧
          t.get (PRT_LANE_STAT.tx_fault p.val l) = 0)) ∧
  -- on a CELL port: SPEED_EQ at x4 and 53.125 GBd, on the four lowest lanes with signal that are not excluded (log entry 38)
  (∀ (p : PortNo) (signal : BitVec 8) (s : State) ls, s.linkState p.val = 2 → s.role p.val = roleCell →
      ls = (lanes8.filter fun l => bit signal.toNat l && !bit (s.excluded p.val) l).take 4 → ls.length = 4 →
      Completes (.detectStable p signal 0) s fun t => t.linkState p.val = 5 ∧ (t.port p.val).eqRate = 1 ∧ t.get (LNK_STAT.width p.val) = 2 ∧
        (∀ l, l < 8 → t.get (PRT_LANE_STAT.active p.val l) = (if l ∈ ls then 1 else 0))) ∧
  -- with fewer than four it waits in DETECT
  (∀ (p : PortNo) (signal : BitVec 8) (s : State), s.linkState p.val = 2 → s.role p.val = roleCell →
      (lanes8.filter fun l => bit signal.toNat l && !bit (s.excluded p.val) l).length < 4 →
      Completes (.detectStable p signal 0) s fun t => t.linkState p.val = 2) ∧
  -- a lane whose transmitter is shorted is marked and, the first time, reported
  (∀ (p : PortNo) (s : State), s.linkState p.val = 2 → s.get (PRT_LANE_STAT.tx_fault p.val 0) = 0 →
      Completes (.detectStable p 0 1) s fun t => t.get (PRT_LANE_STAT.tx_fault p.val 0) = 1 ∧ t.linkState p.val = 2 ∧
        ∃ x, t.clhIn = recInsert x s.clhIn ∧ x.kind = kTX_FAULT ∧ x.src = srcOf 0x11 p.val) ∧
  -- without a signal the port waits in DETECT
  (∀ (p : PortNo) (s : State), s.linkState p.val = 2 → Completes (.detectStable p 0 0) s fun t => t.linkState p.val = 2) ∧
  -- TRAINING_SET_RECEIVE in LANE_TRAIN, while the lanes so far give no usable pair: the lane is locked to the peer's lane, and what the peer
  -- says of its lanes is kept
  (∀ (p : PortNo) (l : Fin 8) (ts : BitVec 256) (s : State) inv m, trainRead ts = some (inv, m) → s.linkState p.val = 3 →
      s.role p.val ≠ roleCell → bit m 35 = false → bf m 48 8 = 0 →
      Completes (.trainingSetReceive p l ts) s fun t => t.linkState p.val = 3 ∧ t.get (PRT_LANE_STAT.locked p.val l.val) = 1 ∧
        t.get (PRT_LANE_STAT.pol_inv p.val l.val) = (if inv = true then 1 else 0) ∧ t.get (PRT_LANE_STAT.peer_lane p.val l.val) = bf m 32 3 ∧
        (t.port p.val).peerLocked = bf m 40 8 ∧ (t.port p.val).peerTxOk = 0 ∧ (t.port p.val).pairSets = 0 ∧
        SameBut [(PRT_LANE_STAT.reg p.val l.val).addr] { s with ports := t.ports } t) ∧
  -- the sixteenth set with the same usable pairs ends LANE_TRAIN: the port is in IDENT, with a challenge of its own
  (∀ (p l : Nat) (inv : Bool) (m : Nat) (s u : State), p < 64 → l < 8 →
      u = ((((s.set (PRT_LANE_STAT.locked p l) 1).setB (PRT_LANE_STAT.pol_inv p l) inv).set (PRT_LANE_STAT.peer_lane p l) (bf m 32 3)).modPort p
        fun q => { q with peerLocked := bf m 40 8, peerTxOk := bf m 48 8 }) →
      maskOf (lanes8.filter (u.usableLane p)) ≠ 0 → maskOf (lanes8.filter (u.usableLane p)) = (s.port p).pairsSeen → (s.port p).pairSets = 15 →
      (s.laneSet p l inv m).linkState p = 4 ∧ ((s.laneSet p l inv m).port p).ident = none ∧ ((s.laneSet p l inv m).port p).identSent = false) ∧
  -- a fourth reset training set in a row on a lane is a cause of link down (7), on a CELL port too
  (∀ (p : PortNo) (l : Fin 8) (ts : BitVec 256) (s : State) inv m, trainRead ts = some (inv, m) → s.linkState p.val = stActive →
      bit m 35 = true → tcnt (s.port p.val).resetSets l.val = 3 →
      Completes (.trainingSetReceive p l ts) s fun t =>
        t = (s.modPort p.val fun q => { q with resetSets := tput q.resetSets l.val 4 }).linkDown p.val 7) ∧
  -- TRAIN_TIMEOUT in IDENT to PARAM: the reset starts again, and is counted
  (∀ (p : PortNo) (s : State), 4 ≤ s.linkState p.val → s.linkState p.val ≤ 7 →
      Completes (.trainTimeout p) s fun t => t = (s.bump (LNK_CNT_RESET.ev p.val)).startReset p.val) ∧
  -- the third timeout in a row in LANE_TRAIN raises NO_TRAIN, once
  (∀ (p : PortNo) (s : State), s.linkState p.val = 3 → (s.port p.val).laneTimeouts = 2 → (s.port p.val).noTrainRaised = false →
      Completes (.trainTimeout p) s fun t => ∃ u : State, t = (u.bump (LNK_CNT_RESET.ev p.val)).startReset p.val ∧
        (u.port p.val).laneTimeouts = 3 ∧ (u.port p.val).noTrainRaised = true ∧
        (∃ x, u.clhIn = recInsert x s.clhIn ∧ x.kind = kNO_TRAIN ∧ x.src = srcOf 0x10 p.val) ∧ u = { s with ports := u.ports, clhIn := u.clhIn }) ∧
  -- the third in a row in CELL_LOCK holds the port with code 6
  (∀ (p : PortNo) (s : State), s.linkState p.val = 11 → (s.port p.val).cellFails = 2 → Completes (.trainTimeout p) s fun t => ∃ u : State,
      t = u.holdPort p.val 6 ∧ (u.port p.val).cellFails = 0) ∧
  -- IDENT: the oldest that has come is kept, its fields shown; a peer with this device's own serial, another role or another version holds
  -- the port with code 1, 2 or 3
  (∀ (p : PortNo) (s : State) x m r, (s.port p.val).ctrlIn = x :: r → x.msg = .ident m → s.linkState p.val = 4 → m.serial < 2 ^ 64 →
      m.role < 8 → m.port < 64 →
      Completes (.ident p) s fun t => ∃ u : State, (u.port p.val).ctrlIn = r ∧ (u.port p.val).ident = some m ∧
        u.get (LNK_PEER.serial p.val) = m.serial ∧ u.get (LNK_PEER_INFO.role p.val) = m.role ∧ u.get (LNK_PEER_INFO.port p.val) = m.port ∧
        SameBut [(LNK_PEER.reg p.val).addr, (LNK_PEER_INFO.reg p.val).addr] { s with ports := u.ports } u ∧
        (m.serial = s.serial → t = u.holdPort p.val 1) ∧
        (m.serial ≠ s.serial → m.role ≠ s.role p.val → t = u.holdPort p.val 2) ∧
        (m.serial ≠ s.serial → m.role = s.role p.val → m.version ≠ s.get TOP_ID.cuhan_version → t = u.holdPort p.val 3)) ∧
  -- what that is: the port is in HELD and in no role, with nothing of the training, and MISCABLE names the code; a link that was ACTIVE went
  -- down, and its reset limit runs, or is over where it is 0
  (∀ (p code : Nat) (s : State), p < 64 → code < 256 → ∃ (u : State) (was : Nat), s.holdPort p code = (u.adverted was).settle ∧
      u.linkState p = 10 ∧ u.get (PRT_ROLE.effective p) = 0 ∧ u.get (LNK_EVT.held p) = 1 ∧ (u.port p).ctrlIn = [] ∧ (u.port p).ident = none ∧
      (s.active p = true → s.get (LNK_RESET_LIMIT.limit_us p) = 0 → (u.port p).limitRunning = false ∧ (u.port p).outOfService = true) ∧
      (s.active p = false ∨ s.get (LNK_RESET_LIMIT.limit_us p) ≠ 0 → (u.port p).outOfService = (s.port p).outOfService ∧
        (u.port p).limitRunning = ((s.port p).limitRunning || s.active p) ∧
        ∃ x, u.clhIn = recInsert x s.clhIn ∧ x.kind = kMISCABLE ∧ x.src = srcOf 0x10 p ∧ x.detail = code)) ∧
  -- IDENT_SIG: one that verifies under no challenge of this side holds the port with code 4, and one under an earlier challenge is dropped; a
  -- good one after this side's own ends IDENT: at the lower of the two rates and
  -- widths the port equalises, or, where these are 26.5625 GBd and x1, goes to PARAM
  (∀ (p : PortNo) (s : State) x k c r m, (s.port p.val).ctrlIn = x :: r → x.msg = .identSig k c → (s.port p.val).ident = some m →
      s.linkState p.val = 4 →
      Completes (.identSig p) s fun t => edVerify k (identMsg m (s.port p.val).challenge) c = false →
        t = (if (((s.port p.val).drawn.drop 1).any fun d => edVerify k (identMsg m d) c) = true then s.modPort p.val fun q => { q with ctrlIn := r }
          else (s.modPort p.val fun q => { q with ctrlIn := r }).holdPort p.val 4)) ∧
  (∀ (p : PortNo) (s : State) x k c r m, (s.port p.val).ctrlIn = x :: r → x.msg = .identSig k c → (s.port p.val).ident = some m →
      s.linkState p.val = 4 → edVerify k (identMsg m (s.port p.val).challenge) c = true → s.izg.devSeed.isSome = true →
      (s.port p.val).identSent = true → 0 < min (s.targetOf p.val).1 m.maxRate →
      Completes (.identSig p) s fun t => t.linkState p.val = 5 ∧ (t.port p.val).eqRate = min (s.targetOf p.val).1 m.maxRate ∧
        (t.port p.val).peerKey = k ∧ (t.port p.val).ctrlIn = r) ∧
  (∀ (p : PortNo) (s : State) x k c r m, (s.port p.val).ctrlIn = x :: r → x.msg = .identSig k c → (s.port p.val).ident = some m →
      s.linkState p.val = 4 → edVerify k (identMsg m (s.port p.val).challenge) c = true → s.izg.devSeed.isSome = true →
      (s.port p.val).identSent = true → m.maxRate = 0 → m.maxWidth = 0 →
      Completes (.identSig p) s fun t => ∃ u : State, t = u.enterParam p.val ∧ (u.port p.val).peerKey = k ∧
        u.get (LNK_STAT.rate p.val) = 0 ∧ u.get (LNK_STAT.width p.val) = 0) ∧
  -- EQUALIZATION_DONE with no lane left: the next lower rate; with every active lane of a CELL port good: CELL_LOCK, with no credit held
  (∀ (p : PortNo) (s : State), s.linkState p.val = 5 → s.role p.val ≠ roleCell → 0 < (s.port p.val).eqRate →
      Completes (.equalizationDone p 0) s fun t => t.linkState p.val = 5 ∧ (t.port p.val).eqRate = (s.port p.val).eqRate - 1) ∧
  (∀ (p : PortNo) (passed : BitVec 8) (s : State), s.linkState p.val = 5 → s.role p.val = roleCell → passed.toNat = 255 →
      Completes (.equalizationDone p passed) s fun t => t.linkState p.val = 11 ∧ (t.port p.val).goodFrames = 0 ∧
        (t.port p.val).cellCredit = [] ∧ (t.port p.val).cellOwed = [] ∧
        SameBut [(LNK_STAT.reg p.val).addr] { s with ports := t.ports } t) ∧
  -- and otherwise the lanes of the width that passed are those of the next width, and the port locks
  (∀ (p : PortNo) (passed : BitVec 8) (s : State), s.linkState p.val = 5 → s.role p.val ≠ roleCell →
      maskOf (lanes8.filter fun l => s.on (PRT_LANE_STAT.active p.val l)) &&& passed.toNat ≠ 0 →
      Completes (.equalizationDone p passed) s fun t => t.linkState p.val = 6 ∧ t.get (LNK_STAT.rate p.val) = (s.port p.val).eqRate % 4 ∧
        (t.port p.val).pairsSeen = maskOf (lanes8.filter fun l => s.on (PRT_LANE_STAT.active p.val l)) &&& passed.toNat ∧
        (∀ l, l < 8 → bit (maskOf (lanes8.filter fun l => s.on (PRT_LANE_STAT.active p.val l)) &&& passed.toNat) l = false →
          t.get (PRT_LANE_STAT.active p.val l) = 0)) ∧
  -- PARAM: the peer's opening is taken and answered
  (∀ (p : PortNo) (s : State) x m r, (s.port p.val).ctrlIn = x :: r → x.msg = .param m → s.linkState p.val = 7 →
      (s.port p.val).peerOpen = none → m.echo = false → (s.port p.val).echoed = none →
      Completes (.param p) s fun t => ∃ u : State,
        t = ((u.paramOpen p.val m x).paramAnswer p.val).paramDone p.val ∧ (u.port p.val).ctrlIn = r ∧ u = { s with ports := u.ports }) ∧
  -- what the taking leaves, where both sides resume and nothing is held to be replayed: the peer's V and E, its floors and caps
  (∀ (p : Nat) (m : ParamMsg) (x : CtrlArr) (s : State), p < 64 → (s.port p).fresh = false → m.fresh = false → (s.port p).escrow = [] →
      s.get (LNK_ESCROW.oldest p) = m.x → (∀ c, c < 18 → m.floors.getD c 0 < 2 ^ 16 ∧ m.caps.getD c 0 < 2 ^ 16) →
      ∃ u : State, s.paramOpen p m x = u.syncCredits p m.returned x.since ∧ (u.port p).peerV = m.v ∧ (u.port p).peerE = m.e ∧
        (u.port p).peerOpen = some m ∧ (u.port p).peerOpenAt = x.clk ∧
        (∀ c, c < 18 → u.get (LNK_VAULT_USED.peer_floor p c) = m.floors.getD c 0 ∧ u.get (LNK_VAULT_USED.peer_cap p c) = m.caps.getD c 0)) ∧
  -- a PARAM that echoes this side's gives the round trip, and the PARAM state ends in ACTIVE
  (∀ (p : PortNo) (s : State) x m r, (s.port p.val).ctrlIn = x :: r → x.msg = .param m → s.linkState p.val = 7 →
      (s.port p.val).peerOpen.isSome = true → m.echo = true → (s.port p.val).echoed = none →
      Completes (.param p) s fun t => ∃ u : State, t = u.paramDone p.val ∧ (u.port p.val).echoed = some m ∧ (u.port p.val).ctrlIn = r ∧
        (u.get (LNK_STAT.reach_short p.val) = 1 ↔
          4 * (1300 + 10000 * s.get (LNK_REACH.granted p.val) + m.turnaround) < x.now - (s.port p.val).openSent.getD x.now)) ∧
  -- HELD_PROBE: a different pattern leaves HELD
  (∀ (p : PortNo) (pattern : BitVec 8) (s : State) x, s.linkState p.val = 10 → (s.port p.val).probe = some x →
      Completes (.heldProbe p pattern) s fun t => t = (if x = pattern.toNat then s else (s.startReset p.val).settle)) ∧
  -- RESET_LIMIT_EXPIRY: the port is out of service, with RESET_LIMIT; its packets are handed back, and what it was receiving is closed
  (∀ (p : PortNo) (s : State), (s.port p.val).limitRunning = true → s.linkState p.val ≠ stActive →
      Completes (.resetLimitExpiry p) s fun t => ∃ u : State,
        t = ((((u.handBack p.val).closeRx p.val).set (LNK_STAT.handed_back p.val) 1).settle.abortBroken) ∧ (u.port p.val).outOfService = true ∧
        (u.port p.val).limitRunning = false ∧ (u.port p.val).fresh = true ∧ u.get (LNK_EVT.reset_limit p.val) = 1 ∧
        ∃ x, u.clhIn = recInsert x s.clhIn ∧ x.kind = kRESET_LIMIT ∧ x.src = srcOf 0x10 p.val)

/-- Fifel cells and packets on CELL ports (parts of 02 R55; 03 R88, R112, R113; 04 R128). -/
def Obligations.CellsComplete : Prop :=
  -- CELL_RECEIVE in ACTIVE, with no symbol in error: what the cell carries is used, and the next one in order is kept
  (∀ (p : PortNo) (c : Flit) (s : State), s.role p.val = roleCell → s.linkState p.val = stActive → (s.port p.val).pcs.rxPos = 0 →
      cellCrcOk c = true → cellIllegal (cellOf c) = none → (cellOf c).kind ≠ 0 → (cellOf c).cseq = (s.port p.val).cellExp →
      Completes (.cellReceive p c []) s fun t => ∃ u : State, t = (u.cellCarried p.val (cellOf c)).cellTake p.val (cellOf c) ∧
        u.port p.val = { s.port p.val with pcs := { (s.port p.val).pcs with
          rxPos := 1, rxBad := false, cells := ((s.port p.val).pcs.cells + 1) % 16 } } ∧
        SameBut [(LNK_ERR_WIN.reg p.val).addr] { s with ports := u.ports } u) ∧
  -- what a cell carries: credits of a channel; and where the peer expects what has been sent last, nothing more is held
  (∀ (p : Nat) (x : Cell) (s : State), p < 64 → tcnt ((s.cellCarried p x).port p).cellCredit x.crFvc =
      tcnt (s.port p).cellCredit x.crFvc + x.crCount) ∧
  (∀ (p : Nat) (x c : Cell) r (s : State), (s.port p).cellEscrow = c :: r → x.cack = (c.cseq + (r.length + 1)) % 256 → r.length < 255 →
      ((s.cellCarried p x).port p).cellEscrow = []) ∧
  -- keeping one that neither starts nor ends a packet: it stands behind those of its channel
  (∀ (p : Nat) (x : Cell) (s : State), x.kind = 2 → ((s.cellTake p x).port p).cellExp = ((s.port p).cellExp + 1) % 256 ∧
      tget ((s.cellTake p x).port p).cellRx x.fvc = some ((tget (s.port p).cellRx x.fvc).getD [] ++ [x]) ∧
      tcnt ((s.cellTake p x).port p).cellHeld x.fvc = tcnt (s.port p).cellHeld x.fvc + 1 ∧
      s.cellTake p x = { s with ports := (s.cellTake p x).ports }) ∧
  -- the 64th good cell in a row in CELL_LOCK ends it: what cells are kept is sent again, and each channel's credits are granted anew
  (∀ (p : PortNo) (c : Flit) (s : State), s.role p.val = roleCell → s.linkState p.val = 11 → (s.port p.val).pcs.rxPos = 0 →
      cellCrcOk c = true → cellIllegal (cellOf c) = none → (s.port p.val).goodFrames = 63 →
      Completes (.cellReceive p c []) s fun t => ∃ u : State, t = u.enterActive p.val ∧
        (u.port p.val).cellReplay = (u.port p.val).cellEscrow.length ∧
        (∀ f, f < 4 → tcnt (u.port p.val).cellOwed f = min 2048 (max 1 (s.get (LNK_CELL.credit p.val))) - tcnt (s.port p.val).cellHeld f)) ∧
  -- a corrupt cell brings an ACTIVE link down, and in CELL_LOCK starts the count again
  (∀ (p : PortNo) (c : Flit) (s : State), s.role p.val = roleCell → s.linkState p.val = stActive → (s.port p.val).pcs.rxPos = 0 →
      cellCrcOk c = false → Completes (.cellReceive p c []) s fun t => ∃ u : State, t = u.cellDown p.val ∧
        SameBut [(LNK_ERR_WIN.reg p.val).addr] { s with ports := u.ports } u) ∧
  (∀ (p : PortNo) (c : Flit) (s : State), s.role p.val = roleCell → s.linkState p.val = 11 → (s.port p.val).pcs.rxPos = 0 →
      cellCrcOk c = false → Completes (.cellReceive p c []) s fun t => t.linkState p.val = 11 ∧ (t.port p.val).goodFrames = 0 ∧
        (t.port p.val).cellRx = (s.port p.val).cellRx ∧ SameBut [(LNK_ERR_WIN.reg p.val).addr] { s with ports := t.ports } t) ∧
  -- FRAME_SEND in ACTIVE with nothing to send again: the first cell whose channel has credits goes and is kept; while the machine stops for an
  -- internal reset, none
  (∀ (p : PortNo) (s : State) c, s.role p.val = roleCell → s.linkState p.val = stActive → (s.port p.val).pcs.mark = 0 →
      (s.port p.val).cellOwed = [] → (s.port p.val).cellReplay = 0 → s.stopping = false → (s.port p.val).cellEscrow.length < 255 →
      ((s.port p.val).cellTx.find? fun c => decide (tcnt (s.port p.val).cellCredit c.fvc > 0)) = some c →
      Completes (.frameSend p) s fun t =>
        (t.port p.val).cellEscrow = (s.port p.val).cellEscrow ++ [{ c with cseq := (s.port p.val).cellNext }] ∧
        (t.port p.val).cellTx = (s.port p.val).cellTx.erase c ∧ (t.port p.val).cellNext = ((s.port p.val).cellNext + 1) % 256 ∧
        tcnt (t.port p.val).cellCredit c.fvc = tcnt (s.port p.val).cellCredit c.fvc - 1 ∧
        t.get (RTE_PORT_STAT0.tx_packets p.val) = (if c.kind = 3 ∨ c.kind = 4 then min (s.get (RTE_PORT_STAT0.tx_packets p.val) + 1) (2 ^ 48 - 1)
          else s.get (RTE_PORT_STAT0.tx_packets p.val))) ∧
  (∀ (p : PortNo) (s : State), s.role p.val = roleCell → s.linkState p.val = stActive → (s.port p.val).pcs.mark = 0 →
      (s.port p.val).cellReplay = 0 → s.stopping = true →
      Completes (.frameSend p) s fun t => (t.port p.val).cellTx = (s.port p.val).cellTx ∧ (t.port p.val).cellEscrow = (s.port p.val).cellEscrow) ∧
  -- CELL_ACK_TIMEOUT: cells are held unacknowledged, and the link goes down; the code of that cause is open (log entry 19)
  (∀ (p : PortNo) (s : State), s.role p.val = roleCell → s.linkState p.val = stActive → (s.port p.val).cellEscrow ≠ [] →
      Completes (.cellAckTimeout p) s fun t => ∃ (c : Nat) (u : State), t = u.linkDown p.val c ∧ u = { s with freeCtr := u.freeCtr }) ∧
  -- FIFEL_PACKET: cut into cells for the port of its host-link field
  (∀ (s : State) k r p, s.fifelIn = k :: r → s.stopping = false → pktIntact k = true → s.isHere k.hdr.dstEp = true → lengthOk k.hdr = true →
      s.cellMap (epHl k.hdr.dstEp) = some p →
      Completes .fifelPacket s fun t => t = { s with fifelIn := r, ports := t.ports } ∧
        (t.port p).cellTx = (s.port p).cellTx ++ cutCells k.hdr.dstEp (k.hdr.w5 % 4) k.data ∧ (∀ q, q ≠ p → t.port q = s.port q)) ∧
  -- a packet shorter than a cell's payload is one cell
  (∀ (dst fvc : Nat) (data : List Byte), data ≠ [] → data.length ≤ 52 →
      cutCells dst fvc data = [{ kind := 4, fvc, dest := dst, valid := data.length, data := data }])

/-! ## Power (12) -/

/-- The Quiet exchange on a port (parts of 12 R444, R445). -/
def Obligations.QuietExchangeCompletes : Prop :=
  -- QUIET to a port with nothing to send: accepted, and the port is QUIET
  (∀ (p : PortNo) (s : State) x b r, (s.port p.val).ctrlIn = x :: r → x.msg = .quiet b → s.linkState p.val = stActive → bit b 56 = true →
      (s.port p.val).quietSent = false → (s.port p.val).txq = [] → (s.port p.val).escrow = [] →
      Completes (.quiet p) s fun t =>
        t = ((s.modPort p.val fun q => { q with ctrlIn := r }).buildFrame p.val (.ctrl (.quietAck (2 ^ 56)))).enterQuiet p.val) ∧
  -- to one with something to send: refused
  (∀ (p : PortNo) (s : State) x b r, (s.port p.val).ctrlIn = x :: r → x.msg = .quiet b → s.linkState p.val = stActive → bit b 56 = true →
      (s.port p.val).quietSent = false → (s.port p.val).txq ≠ [] →
      Completes (.quiet p) s fun t => t = (s.modPort p.val fun q => { q with ctrlIn := r }).ctrlSend p.val (.quietAck 0)) ∧
  -- QUIET_ACK to this port's QUIET: accepted, or to be tried again
  (∀ (p : PortNo) (s : State) x b r, (s.port p.val).ctrlIn = x :: r → x.msg = .quietAck b → s.linkState p.val = stActive → (s.port p.val).quietSent = true →
      Completes (.quietAck p) s fun t =>
        t = (if bit b 56 then (s.modPort p.val fun q => { q with ctrlIn := r }).enterQuiet p.val
             else s.modPort p.val fun q => { q with ctrlIn := r, quietSent := false, quietRetry := true })) ∧
  -- what QUIET is for the port: its state, and no signal on its lanes
  (∀ (p : Nat) (s : State), p < 64 → ∃ u : State,
      s.enterQuiet p = ((u.adverted (s.role p)).settle).tileCheck (tileOf p) ∧ u.linkState p = 9 ∧
      (∀ l, l < 8 → u.get (PRT_LANE_STAT.signal p l) = 0) ∧ (u.port p).quietSent = false ∧ (u.port p).waking = false) ∧
  -- QUIET_TIMEOUT: as a refusal; QUIET_RETRY: with the cause still there and nothing to send, QUIET is to be sent again
  (∀ (p : PortNo) (s : State), s.linkState p.val = stActive → (s.port p.val).quietSent = true →
      Completes (.quietTimeout p) s fun t => (t.port p.val).quietSent = false ∧ (t.port p.val).quietRetry = true ∧ t = { s with ports := t.ports }) ∧
  (∀ (p : PortNo) (s : State), (s.port p.val).quietRetry = true → (s.port p.val).quietCause = false →
      Completes (.quietRetry p) s fun t => t = s.modPort p.val fun q => { q with quietRetry := false }) ∧
  (∀ (p : PortNo) (s : State), (s.port p.val).quietRetry = true → s.linkState p.val = stActive → s.role p.val ≠ roleCell →
      (s.port p.val).quietCause = true → (s.port p.val).quietSent = false → (s.port p.val).txq = [] → (s.port p.val).escrow = [] →
      Completes (.quietRetry p) s fun t => (t.port p.val).quietRetry = false ∧ (t.port p.val).quietSent = true ∧
        (t.port p.val).ctrlQ = (s.port p.val).ctrlQ ++ [{ msg := .quiet (2 ^ 56), waited := 0, answer := false }] ∧ t = { s with ports := t.ports }) ∧
  -- a QUIET still to go out is taken back where something to send has come meanwhile
  (∀ (p : Nat) (s : State), (s.port p).quietSent = true → (s.port p).ctrlQ = [{ msg := .quiet (2 ^ 56), waited := 0, answer := false }] →
      (s.port p).txq ≠ [] → s.quietRecheck p = s.modPort p fun q => { q with quietSent := false, ctrlQ := [] }) ∧
  -- QUIET_SIGNAL_DETECT: the port starts its wake exchange, and its tile has an activity vote
  (∀ (p : PortNo) (s : State), s.linkState p.val = 9 → s.dom (tileOf p.val) ≠ dOff → s.padHeld p.val = false →
      Completes (.quietSignalDetect p) s fun t => ∃ u : State, t = u.vote (tileOf p.val) 12 true ∧
        (u.port p.val).waking = true ∧ (u.port p.val).goodFrames = 0 ∧ (u.port p.val).quietCause = false ∧
        (∀ l, l < 8 → u.get (PRT_LANE_STAT.signal p.val l) =
          (if s.get (PRT_LANE_STAT.active p.val l) ≠ 0 then 1 else s.get (PRT_LANE_STAT.signal p.val l))) ∧
        u = { s with regs := u.regs, ports := u.ports }) ∧
  -- WAKE_NOANS_TIMEOUT: counted, and the exchange ends; WAKE_EXCHANGE_RETRY: it begins again, unless the tile's pads are held
  (∀ (p : PortNo) (s : State), s.linkState p.val = 9 → (s.port p.val).waking = true →
      Completes (.wakeNoansTimeout p) s fun t =>
        t = (s.bump PWR_CNT_WAKE_NOANS.ev).modPort p.val fun q => { q with waking := false, goodFrames := 0 }) ∧
  (∀ (p : PortNo) (s : State), s.linkState p.val = 9 → (s.port p.val).waking = false → s.dom (tileOf p.val) = dOn → s.pwrState = 0 →
      s.padHeld p.val = false → Completes (.wakeExchangeRetry p) s fun t => (t.port p.val).waking = true ∧ (t.port p.val).goodFrames = 0 ∧ t = { s with ports := t.ports })

/-- Votes, waking and dropping (parts of 12 R434, R436, R438, R445, R447 to R449, R451). -/
def Obligations.DomainCommandsComplete : Prop :=
  -- FM_VOTE: the votes named are cleared, then set
  (∀ (s : State) p r, s.izg.activating.isSome = false → s.izg.mg = p :: r → p.hdr.w5 % 256 = 0x40 →
      Completes .fmVote s fun t => t = (bitsOf 64 (leAt p.data 8 8)).foldl (fun s d => s.vote d 9 true)
        ((bitsOf 64 (leAt p.data 0 8)).foldl (fun s d => s.vote d 9 false) { s with izg := { s.izg with mg := r } })) ∧
  -- a vote is kept in PWR_VOTE
  (∀ (s : State) (d b : Nat) (on : Bool), isDomain d = true → d < 64 → b < 13 → bit (s.get (PWR_VOTE.reg d)) b ≠ on → s.pwrState ≠ 2 →
      ∃ u : State, s.vote d b on = (State.impliedUpd u).evalDom d ∧ SameBut [(PWR_VOTE.reg d).addr] s u ∧
        ∀ i, i < 64 → bit (u.get (PWR_VOTE.reg d)) i = (if i = b then on else bit (s.get (PWR_VOTE.reg d)) i)) ∧
  -- what votes call for, unless the device is OFF: a domain that is off and wanted starts its wake, and nothing of it drops
  (∀ (s : State) (d : Nat), s.pwrState = 3 → s.evalDom d = s) ∧
  (∀ (s : State) (d : Nat), s.pwrState ≠ 3 → s.dom d = dOff → s.wanted d = true → d < 64 → s.get (PWR_DOM.failed d) = 0 → s.pwr.pwrfail = false → d ∉ s.pwr.retrying →
      (s.evalDom d).dom d = dWaking ∧ (s.evalDom d).get (PWR_DOM.step d) = 1 ∧ tcnt (s.evalDom d).pwr.wakeFrom d = dOff ∧
      d ∉ (s.evalDom d).pwr.dropping ∧ SameBut [(PWR_DOM.reg d).addr] { s with pwr := (s.evalDom d).pwr, out := (s.evalDom d).out, freeCtr := (s.evalDom d).freeCtr } (s.evalDom d)) ∧
  -- one that is DROPPING goes on dropping; once its ports are QUIET, DISABLED or HELD it has dropped, and its wake starts
  (∀ (s : State) (d : Nat), s.pwrState ≠ 3 → s.dom d = dDropping → s.wanted d = true →
      s.evalDom d = { s with pwr := { s.pwr with dropping := s.pwr.dropping.filter (· != d) } }) ∧
  (∀ (s : State) (d : Nat), isTile d = true → s.dom d = dDropping → (∀ p ∈ tilePorts d, s.linkState p ∈ [0, 9, 10]) → s.wanted d = true →
      ∃ u : State, s.tileCheck d = u.startWake d ∧ u.dom d = (if s.get (PWR_DOM.drop_to d) = 0 then dQuiet else dOff)) ∧
  -- one that is ON and that nothing wants waits out the drop delay
  (∀ (s : State) (d : Nat), s.dom d = dOn → s.wanted d = false → isHb d = false → s.pwrState ≠ 2 → s.pwrState ≠ 3 → s.get PWR_CFG.drop_delay_us ≠ 0 →
      s.evalDom d = { s with pwr := { s.pwr with dropping := addMem s.pwr.dropping d } }) ∧
  -- WAKE: a lease for each domain named
  (∀ (s : State) m u, s.Delivered 9 m u →
      Completes .wake s fun t => t = ((bitsOf 8 m.msg.payload).map (· + 8) ++ (bitsOf 4 (bf m.msg.payload 8 4)).map (· + 16) ++
        (bitsOf 4 (bf m.msg.payload 12 4)).map (· + 2)).foldl (fun s d => s.castLease d 11) u) ∧
  -- VOTE_LEASE_EXPIRY: the lease is over and its vote is cleared; one renewed in this very cycle stays
  (∀ (d : Fin 64) (wake : Bool) (s : State), tget s.pwr.leases (d.val * 2 + (if wake then 1 else 0)) = some s.clk →
      Completes (.voteLeaseExpiry d wake) s fun t => t = s) ∧
  (∀ (d : Fin 64) (wake : Bool) (s : State) x, tget s.pwr.leases (d.val * 2 + (if wake then 1 else 0)) = some x → x ≠ s.clk →
      Completes (.voteLeaseExpiry d wake) s fun t => ∃ u : State, t = u.vote d.val (10 + (if wake then 1 else 0)) false ∧
        u = { s with pwr := u.pwr } ∧ u.pwr.leases = tdel s.pwr.leases (d.val * 2 + (if wake then 1 else 0))) ∧
  -- a lease is noted and its vote is cast
  (∀ (s : State) (d b : Nat), isDomain d = true → ∃ u : State, s.castLease d b = u.vote d b true ∧ u = { s with pwr := u.pwr } ∧
      u.pwr = { s.pwr with leases := tput s.pwr.leases (d * 2 + (b - 10)) s.clk }) ∧
  -- DROP_DELAY_EXPIRY: a domain that nothing wants drops
  (∀ (d : Fin 64) (s : State), d.val ∈ s.activityUpd.pwr.dropping → s.activityUpd.wanted d.val = false →
      Completes (.dropDelayExpiry d) s fun t => t = s.activityUpd.drop d.val) ∧
  -- an engine's goes off, its banks in RETENTION; a tile asks its ports to be QUIET first
  (∀ (s : State) (d : Nat), isEngine d = true → (s.drop d).dom d = dOff ∧ (s.drop d).get (PWR_DOM.step d) = 0 ∧
      (∀ b ∈ banksOf d, (s.drop d).dom b = dRet) ∧ d ∉ (s.drop d).pwr.dropping ∧ s.drop d = { s with regs := (s.drop d).regs, pwr := (s.drop d).pwr }) ∧
  (∀ (s : State) (d : Nat), isTile d = true → ∃ u : State, u.dom d = dDropping ∧ u.ports = s.ports ∧ s.drop d =
      ((tilePorts d).foldl (fun s p => (s.modPort p fun q => { q with quietCause := true }).tryQuiet p) u).tileCheck d) ∧
  -- WAKE_STEP_READY: the next step of the wake begins; after the last one the domain is ON
  (∀ (d : Fin 64) (s : State) k r, s.dom d.val = dWaking →
      (wakeSteps d.val (tcnt s.pwr.wakeFrom d.val)).filter (fun k => s.get (PWR_DOM.step d.val) < k) = k :: r →
      Completes (.wakeStepReady d) s fun t => t.get (PWR_DOM.step d.val) = k ∧ t.dom d.val = dWaking ∧
        (s.get (PWR_DOM.step d.val) = 3 → ∀ b ∈ banksOf d.val, t.dom b = dOn) ∧
        SameBut ((PWR_DOM.reg d.val).addr :: (banksOf d.val).map fun b => (PWR_DOM.reg b).addr) s t) ∧
  (∀ (d : Fin 64) (s : State), s.dom d.val = dWaking →
      (wakeSteps d.val (tcnt s.pwr.wakeFrom d.val)).filter (fun k => s.get (PWR_DOM.step d.val) < k) = [] →
      Completes (.wakeStepReady d) s fun t => t = State.wakeDone
        (if s.get (PWR_DOM.step d.val) = 3 then (banksOf d.val).foldl (fun s b => s.setDom b dOn) s else s) d.val) ∧
  -- an engine is then ON, with no step and no failed attempt, what waited for it is served, and what votes call for is done
  (∀ (s : State) (d : Nat), isEngine d = true → ∃ u : State, s.wakeDone d = ((u.bump PWR_CNT_WAKE.ev).domServe d).evalDom d ∧ u.dom d = dOn ∧
      u.get (PWR_DOM.step d) = 0 ∧ u.get (PWR_DOM.attempts d) = 0 ∧ SameBut [(PWR_DOM.reg d).addr] { s with pwr := u.pwr } u) ∧
  -- a tile or host block from OFF keeps its pads held until they are released
  (∀ (s : State) (d : Nat), d < 8 → tcnt s.pwr.wakeFrom (8 + d) = dOff → (8 + d) ∉ s.pwr.relPend → ∃ u : State, s.wakeDone (8 + d) = (u.domServe (8 + d)).evalDom (8 + d) ∧
      bit (u.get PWR_PAD.held_tile) d = true ∧ u.get PWR_EVT.pad_held = 1) ∧
  -- WAKE_FAIL: OFF again, a failure more
  (∀ (d : Fin 64) (s : State), s.dom d.val = dWaking → s.get (PWR_DOM.attempts d.val) < 2 →
      Completes (.wakeFail d) s fun t => t.dom d.val = dOff ∧ (∀ b ∈ banksOf d.val, t.dom b = dRet) ∧ t.get (PWR_DOM.step d.val) = 0 ∧
        t.get (PWR_DOM.attempts d.val) = s.get (PWR_DOM.attempts d.val) + 1 ∧ t.get PWR_EVT.wake_fail = 1 ∧ d.val ∈ t.pwr.retrying) ∧
  -- the third in a row is final
  (∀ (d : Fin 64) (s : State), s.dom d.val = dWaking → s.get (PWR_DOM.attempts d.val) = 2 →
      Completes (.wakeFail d) s fun t => t.dom d.val = dOff ∧ t.get (PWR_DOM.failed d.val) = 1 ∧ t.pwr.retrying = s.pwr.retrying) ∧
  -- WAKE_RETRY
  (∀ (d : Fin 64) (s : State), d.val ∈ s.pwr.retrying →
      Completes (.wakeRetry d) s fun t =>
        t = State.evalDom { s with pwr := { s.pwr with retrying := s.pwr.retrying.filter (· != d.val) } } d.val) ∧
  -- PAD_RELEASE of one tile that is ON and whose pads are held: they are released; of one that is not, when it is ON again
  (∀ (wr : Writer) (d : Nat) (s : State), d < 8 → bit (s.get PWR_PAD.held_tile) d = true → s.dom (8 + d) = dOn →
      s.Lands wr PWR_PAD_RELEASE.reg.addr → Completes (.padRelease wr (BitVec.ofNat 64 (2 ^ d))) s fun t => t = s.padsFree (8 + d)) ∧
  (∀ (wr : Writer) (d : Nat) (s : State), d < 8 → bit (s.get PWR_PAD.held_tile) d = true → s.dom (8 + d) = dOff →
      s.Lands wr PWR_PAD_RELEASE.reg.addr → Completes (.padRelease wr (BitVec.ofNat 64 (2 ^ d))) s fun t =>
        t = { s with pwr := { s.pwr with relPend := addMem s.pwr.relPend (8 + d) } }) ∧
  (∀ (wr : Writer) (d : Nat) (s : State), d < 4 → bit (s.get PWR_PAD.held_hb) d = true → s.dom (2 + d) = dOn → s.Lands wr PWR_PAD_RELEASE.reg.addr →
      Completes (.padRelease wr (BitVec.ofNat 64 (2 ^ (8 + d)))) s fun t => SameBut [PWR_PAD.reg.addr] s t ∧
        ∀ i, i < 4 → bit (t.get PWR_PAD.held_hb) i = (if i = d then false else bit (s.get PWR_PAD.held_hb) i)) ∧
  -- and a tile's QUIET ports then start their link reset
  (∀ (s : State) (d p : Nat), d < 8 → (tilePorts (8 + d)).filter (fun p => s.linkState p == 9) = [p] → ∃ u : State,
      s.padsFree (8 + d) = (u.startReset p).settle ∧ SameBut [PWR_PAD.reg.addr] s u ∧
      ∀ i, i < 8 → bit (u.get PWR_PAD.held_tile) i = (if i = d then false else bit (s.get PWR_PAD.held_tile) i))

/-- Requests of a power state (parts of 12 R439 to R441). -/
def Obligations.PowerStateRequestsComplete : Prop :=
  -- PWR_REQ_FULL, and PWR_REQ_TRIM after BOOT: the result is OK and the state is entered
  (∀ (wr : Writer) (s : State), s.Lands wr PWR_STATE_REQ.reg.addr →
      Completes (.pwrReqFull wr) s fun t => ∃ u : State, t = u.enterAwake 0 ∧ u.get PWR_STATE_REQ.req = 0 ∧
      u.get PWR_STATE_REQ.result = 0 ∧ SameBut [PWR_STATE_REQ.reg.addr] s u) ∧
  (∀ (wr : Writer) (s : State), 2 ≤ s.get TOP_STATE.svc_state → s.Lands wr PWR_STATE_REQ.reg.addr →
      Completes (.pwrReqTrim wr) s fun t => ∃ u : State, t = (u.enterAwake 1).activityUpd ∧
      u.get PWR_STATE_REQ.req = 1 ∧ u.get PWR_STATE_REQ.result = 0 ∧ SameBut [PWR_STATE_REQ.reg.addr] s u) ∧
  -- which, from another state than VIGIL, is that it is shown, with its event and its record, and every domain follows its votes
  (∀ (n : Nat) (s : State), n < 2 → s.pwrState ≠ n → s.pwrState ≠ 2 → ∃ u : State, s.enterAwake n = u.evalAll ∧ u.pwrState = n ∧
      u.get TOP_STATE_EVT.pwr_change = 1 ∧ u.get TOP_STATE_TIME.last_change = s.stamp % 2 ^ 64 ∧
      (∃ x, u.clhIn = recInsert x s.clhIn ∧ x.kind = kSTATE_CHANGE) ∧ u.ports = s.ports) ∧
  -- from VIGIL, the beacon ports that are still to be brought to their targets then go through their passes
  (∀ (n : Nat) (s : State), s.pwrState = 2 → ∃ u : State, s.enterAwake n = u.startPasses false (u.upgradePorts.filter u.beaconPorts.contains) ∧
      ∀ p, p < 64 → (u.port p).quietCause = false ∧ (u.port p).quietRetry = false ∧ (u.port p).beaconReset = false) ∧
  -- PWR_REQ_VIGIL, while nothing stands against it: OK, and VIGIL is entered
  (∀ (wr : Writer) (s : State), 2 ≤ s.get TOP_STATE.svc_state → s.vigilBusy = false → s.pwrState ≠ 2 →
      s.Lands wr PWR_STATE_REQ.reg.addr →
      Completes (.pwrReqVigil wr) s fun t => ∃ u : State, t = u.enterVigil ∧ u.get PWR_STATE_REQ.req = 2 ∧ u.get PWR_STATE_REQ.result = 0 ∧
        SameBut [PWR_STATE_REQ.reg.addr] s u) ∧
  -- in BOOT, TRIM and VIGIL end BUSY (for TRIM: DEDUCED, log entry 21)
  (∀ (wr : Writer) (s : State), s.get TOP_STATE.svc_state ≤ 1 → s.Lands wr PWR_STATE_REQ.reg.addr →
      Completes (.pwrReqTrim wr) s fun t => t.get PWR_STATE_REQ.req = 1 ∧ t.get PWR_STATE_REQ.result = 1 ∧
      SameBut [PWR_STATE_REQ.reg.addr] s t) ∧
  -- refused BUSY while an engine works, a host votes or a tree is in use
  (∀ (wr : Writer) (s : State), s.vigilBusy = true → s.Lands wr PWR_STATE_REQ.reg.addr →
      Completes (.pwrReqVigil wr) s fun t => t.get PWR_STATE_REQ.req = 2 ∧ t.get PWR_STATE_REQ.result = 1 ∧
      SameBut [PWR_STATE_REQ.reg.addr] s t) ∧
  -- PWR_REQ_BAD: a request that is none of the three
  (∀ (wr : Writer) (s : State), s.Lands wr PWR_STATE_REQ.reg.addr →
      Completes (.pwrReqBad wr) s fun t => t.get PWR_STATE_REQ.req = 3 ∧ t.get PWR_STATE_REQ.result = 2 ∧
      SameBut [PWR_STATE_REQ.reg.addr] s t)

/-- AVSBus and PMBus (parts of 12 R452 to R455). -/
def Obligations.RailCommandsComplete : Prop :=
  -- AVS_REQUEST in range on a free rail, once the firmware runs: the Voltage write goes out and the rail is busy
  (∀ (wr : Writer) (v : Word) (s : State), s.get PWR_AVS_CTL.done ≠ 0 → s.get PWR_AVS_CFG.auto = 0 → 7 ≤ s.get TOP_BOOT_STAT.stage →
      (avsRange (bf v.toNat 0 1)).1 ≤ bf v.toNat 16 10 → bf v.toNat 16 10 ≤ (avsRange (bf v.toNat 0 1)).2 → s.avsFree (bf v.toNat 0 1) = true →
      s.Lands wr PWR_AVS_CTL.reg.addr →
      Completes (.avsRequest wr v true) s fun t => t.get PWR_AVS_CTL.rail = bf v.toNat 0 1 ∧ t.get PWR_AVS_CTL.target_mv = bf v.toNat 16 10 ∧
        t.get PWR_AVS_CTL.done = 0 ∧ tget t.pwr.avsBusy (bf v.toNat 0 1) = some (bf v.toNat 16 10) ∧
        t.out = .avs (bf v.toNat 0 1) 0 (bf v.toNat 16 10) :: s.out ∧ SameBut [PWR_AVS_CTL.reg.addr] { s with pwr := t.pwr, out := t.out } t) ∧
  -- while the device chooses the levels, or before the firmware runs (log entry 118): BUSY
  (∀ (wr : Writer) (v : Word) (ack : Bool) (s : State), s.get PWR_AVS_CTL.done ≠ 0 →
      (s.get PWR_AVS_CFG.auto ≠ 0 ∨ s.get TOP_BOOT_STAT.stage < 7) → s.Lands wr PWR_AVS_CTL.reg.addr →
      Completes (.avsRequest wr v ack) s fun t => t.get PWR_AVS_CTL.result = 4 ∧ SameBut [PWR_AVS_CTL.reg.addr] s t) ∧
  -- out of range: the result only
  (∀ (wr : Writer) (v : Word) (ack : Bool) (s : State), s.get PWR_AVS_CTL.done ≠ 0 → s.get PWR_AVS_CFG.auto = 0 → 7 ≤ s.get TOP_BOOT_STAT.stage →
      (bf v.toNat 16 10 < (avsRange (bf v.toNat 0 1)).1 ∨ (avsRange (bf v.toNat 0 1)).2 < bf v.toNat 16 10) →
      s.Lands wr PWR_AVS_CTL.reg.addr →
      Completes (.avsRequest wr v ack) s fun t => t.get PWR_AVS_CTL.result = 3 ∧ SameBut [PWR_AVS_CTL.reg.addr] s t) ∧
  -- AVS_POLL reads the Voltage of a rail that is busy. It reads the target, of a request to lower: the level is the target, the rail is free
  (∀ (r : Fin 2) (mv : BitVec 10) (s : State) x, tget s.pwr.avsBusy r.val = some x → x < 1024 → mv.toNat ≤ x + 5 → x ≤ mv.toNat + 5 →
      x ≤ s.get (PWR_AVS_STAT.level_mv r.val) →
      Completes (.avsPoll r mv) s fun t => t.get (PWR_AVS_STAT.level_mv r.val) = x ∧ t.get (PWR_AVS_STAT.read_mv r.val) = mv.toNat ∧
        tget t.pwr.avsBusy r.val = none ∧ t.out = .avs r.val 1 0 :: s.out) ∧
  -- AVS_TIMEOUT of a request to lower: it fails, the level stays, and the rail takes no other for 1 ms
  (∀ (r : Fin 2) (s : State) x, tget s.pwr.avsBusy r.val = some x → x ≤ s.get (PWR_AVS_STAT.level_mv r.val) → r.val ∉ s.pwr.avsManual →
      Completes (.avsTimeout r) s fun t => t.get PWR_EVT.avs_fail = 1 ∧ tget t.pwr.avsBusy r.val = none ∧
        tcnt t.pwr.avsHold r.val = s.clk + 1000000 ∧ (∃ y, t.clhIn = recInsert y s.clhIn ∧ y.kind = kAVS_LOWER_FAIL) ∧
        SameBut [PWR_EVT.reg.addr] { s with pwr := t.pwr, clhIn := t.clhIn } t) ∧
  -- of one to raise: its own record, and the throttle follows; a request of PWR_AVS_CTL shows the result
  (∀ (r : Fin 2) (s : State) x, tget s.pwr.avsBusy r.val = some x → s.get (PWR_AVS_STAT.level_mv r.val) < x →
      Completes (.avsTimeout r) s fun t => ∃ u : State, t = u.throttleUpd ∧ u.get PWR_EVT.avs_fail = 1 ∧ tget u.pwr.avsBusy r.val = none ∧
        r.val ∈ u.pwr.avsFailRaise ∧ (∃ y, u.clhIn = recInsert y s.clhIn ∧ y.kind = kAVS_RAISE_FAIL) ∧
        (r.val ∈ s.pwr.avsManual → u.get PWR_AVS_CTL.result = 1 ∧ u.get PWR_AVS_CTL.done = 1)) ∧
  -- AVS_AUTO_PERIOD: each rail is given the level chosen
  (∀ (mv0 mv1 : BitVec 10) (a0 a1 : Bool) (s : State), s.get PWR_AVS_CFG.auto ≠ 0 → 7 ≤ s.get TOP_BOOT_STAT.stage →
      Completes (.avsAutoPeriod mv0 mv1 a0 a1) s fun t => t = (s.avsAuto 0 mv0.toNat a0).avsAuto 1 mv1.toNat a1) ∧
  -- which is what is asked for, kept within the rail's range and at most 5 mV below the level it has; none where that is the level
  (∀ (r mv : Nat) (s : State), s.avsFree r = true →
      min (avsRange r).2 (max (avsRange r).1 (max mv (s.get (PWR_AVS_STAT.level_mv r) - 5))) ≠ s.get (PWR_AVS_STAT.level_mv r) →
      ∃ u : State, s.avsAuto r mv true = u ∧ tget u.pwr.avsBusy r =
        some (min (avsRange r).2 (max (avsRange r).1 (max mv (s.get (PWR_AVS_STAT.level_mv r) - 5)))) ∧
        u.out = .avs r 0 (min (avsRange r).2 (max (avsRange r).1 (max mv (s.get (PWR_AVS_STAT.level_mv r) - 5)))) :: s.out ∧
        u = { s with pwr := u.pwr, out := u.out }) ∧
  (∀ (r mv : Nat) (a : Bool) (s : State),
      min (avsRange r).2 (max (avsRange r).1 (max mv (s.get (PWR_AVS_STAT.level_mv r) - 5))) = s.get (PWR_AVS_STAT.level_mv r) →
      s.avsAuto r mv a = s) ∧
  -- PMB_TELEMETRY_POLL: the three values
  (∀ (k : Fin 8) (xv xi xc : PmbTry) (v i c : Nat) (s : State), s.get (PWR_PMB_DEV.valid k.val) ≠ 0 → Gives xv v → Gives xi i → Gives xc c →
      Completes (.pmbTelemetryPoll k xv xi xc) s fun t => t.get (PWR_PMB_TEL.vout_mv k.val) = v % 2 ^ 16 ∧
        t.get (PWR_PMB_TEL.iout_da k.val) = i % 2 ^ 16 ∧ t.get (PWR_PMB_TEL.temp_c k.val) = c % 2 ^ 16 ∧
        SameBut [(PWR_PMB_TEL.reg k.val).addr] { s with out := t.out } t) ∧
  -- PMB_ALERT with a status
  (∀ (k : Fin 8) (st : BitVec 16) (s : State), s.get (PWR_PMB_DEV.valid k.val) ≠ 0 → st.toNat ≠ 0 →
      Completes (.pmbAlert k st) s fun t => t.get PWR_EVT.pmb_alert = 1 ∧ (∃ x, t.clhIn = recInsert x s.clhIn ∧ x.kind = kPMB_ALERT) ∧
        SameBut [PWR_EVT.reg.addr] { s with out := t.out, clhIn := t.clhIn } t) ∧
  -- PMB_COMMAND: a write that is answered, at once or when retried; a read's data; a write that is refused twice
  (∀ (wr : Writer) (x : PmbTry) (v : Nat) (s : State), Gives x v → s.get PWR_PMB_CMD0.done ≠ 0 → s.get PWR_PMB_CMD0.write ≠ 0 →
      s.Lands wr PWR_PMB_CMD0.reg.addr →
      Completes (.pmbCommand wr x) s fun t => t.get PWR_PMB_CMD0.result = 0 ∧ SameBut [PWR_PMB_CMD0.reg.addr] { s with out := t.out } t) ∧
  (∀ (wr : Writer) (x : PmbTry) (v : Nat) (s : State), Gives x v → s.get PWR_PMB_CMD0.done ≠ 0 → s.get PWR_PMB_CMD0.write = 0 → s.get PWR_PMB_CMD0.len = 2 →
      s.Lands wr PWR_PMB_CMD0.reg.addr →
      Completes (.pmbCommand wr x) s fun t => t.get PWR_PMB_CMD0.result = 0 ∧ t.get PWR_PMB_CMD1.data = v % 2 ^ 16 ∧
        SameBut [PWR_PMB_CMD0.reg.addr, PWR_PMB_CMD1.reg.addr] { s with out := t.out } t) ∧
  (∀ (wr : Writer) (x : PmbTry) (e : Emit) (s : State), (∀ v, x.first ≠ .ok v) → x.again = .nak → s.get PWR_PMB_CMD0.done ≠ 0 →
      s.get PWR_PMB_CMD0.write ≠ 0 → s.Lands wr PWR_PMB_CMD0.reg.addr →
      e = .pmb (s.get (PWR_PMB_DEV.addr (s.get PWR_PMB_CMD0.dev))) (s.get PWR_PMB_CMD0.code)
        (s.get PWR_PMB_CMD1.data % 2 ^ (8 * s.get PWR_PMB_CMD0.len)) →
      Completes (.pmbCommand wr x) s fun t => t.get PWR_PMB_CMD0.result = 1 ∧ t.get PWR_EVT.pmb_fail = 1 ∧ t.out = e :: e :: s.out ∧
        ∃ y, t.clhIn = recInsert y s.clhIn ∧ y.kind = kPMB_FAIL) ∧
  -- PMB_FAIL
  (∀ (k : Fin 8) (cmd : BitVec 8) (why : Fin 3) (s : State), s.get (PWR_PMB_DEV.valid k.val) ≠ 0 →
      Completes (.pmbFail k cmd why) s fun t => t.get PWR_EVT.pmb_fail = 1 ∧ (∃ x, t.clhIn = recInsert x s.clhIn ∧ x.kind = kPMB_FAIL) ∧
        SameBut [PWR_EVT.reg.addr] { s with clhIn := t.clhIn } t)

/-- Power failure, temperature and clocks (parts of 12 R456 to R460, R463). -/
def Obligations.PowerEventsComplete : Prop :=
  -- PWRFAIL while Izger runs: the flash queue is saved, and the event and the record are raised
  (∀ s : State, s.izgRuns = true → s.pwr.pwrfail = false →
      Completes .pwrfail s fun t => t.pwr.pwrfail = true ∧ t.pwr.pwrfailPin = true ∧ t.get PWR_EVT.pwrfail = 1 ∧
        t.pwr.lossArea = s.pwr.lossArea ++ s.clh.flashQ.take (64 - s.pwr.lossArea.length) ∧
        t.clh.flashQ = s.clh.flashQ.drop (64 - s.pwr.lossArea.length) ∧ ∃ x, t.clhIn = recInsert x s.clhIn ∧ x.kind = kPWRFAIL) ∧
  -- PWRFAIL_CLEAR: the response ends, and domains follow their votes
  (∀ s : State, s.pwr.pwrfail = true →
      Completes .pwrfailClear s fun t => ∃ u : State, t = u.evalAll ∧ u.pwr.pwrfail = false ∧ u.pwr.pwrfailPin = false ∧
        u.get PWR_EVT.pwrfail_clear = 1 ∧ SameBut [PWR_EVT.reg.addr] { s with pwr := u.pwr } u) ∧
  -- PG_LOST of a rail that is enabled: as a power failure, and its record
  (∀ (r : Fin 4) (s : State), r.val ∈ s.boot.en →
      Completes (.pgLost r) s fun t => t = { s.pwrfailStart with clhIn := t.clhIn } ∧
        ∃ x, t.clhIn = recInsert x s.pwrfailStart.clhIn ∧ x.kind = kPG_LOST) ∧
  -- THROTTLE and THROTTLE_RELEASE at their temperatures
  (∀ (k : Fin 32) (c : BitVec 9) (s : State), (s.get PWR_THERM.throttle_c : Int) ≤ c.toInt →
      Completes (.throttle k c) s fun t => ∃ u : State, t = u.throttleUpd.alertUpd ∧ u.pwr = { s.pwr with hot := true } ∧
        u.get PWR_TEMP.sensor = k.val ∧ (u.get PWR_TEMP.temp_c : Int) = c.toInt % 2 ^ 16 ∧ SameBut [PWR_TEMP.reg.addr] { s with pwr := u.pwr } u) ∧
  (∀ (k : Fin 32) (c : BitVec 9) (s : State), c.toInt ≤ (s.get PWR_THERM.throttle_c : Int) - (s.get PWR_THERM.hyst : Int) →
      Completes (.throttleRelease k c) s fun t => ∃ u : State, t = u.throttleUpd.alertUpd ∧ u.pwr = { s.pwr with hot := false } ∧
        u.get PWR_TEMP.sensor = k.val ∧ SameBut [PWR_TEMP.reg.addr] { s with pwr := u.pwr } u) ∧
  -- the throttle engages with its event and record when its cause arises, and is released with its event when it ends
  (∀ s : State, s.throttleCause = true → s.get PWR_TEMP.throttled = 0 → s.throttleUpd.get PWR_TEMP.throttled = 1 ∧
      s.throttleUpd.get PWR_EVT.throttle_on = 1 ∧ (∃ x, s.throttleUpd.clhIn = recInsert x s.clhIn ∧ x.kind = kTHROTTLE) ∧
      SameBut [PWR_TEMP.reg.addr, PWR_EVT.reg.addr] { s with clhIn := s.throttleUpd.clhIn } s.throttleUpd) ∧
  (∀ s : State, s.throttleCause = false → s.get PWR_TEMP.throttled = 1 → s.throttleUpd.get PWR_TEMP.throttled = 0 ∧
      s.throttleUpd.get PWR_EVT.throttle_off = 1 ∧ SameBut [PWR_TEMP.reg.addr, PWR_EVT.reg.addr] s s.throttleUpd) ∧
  -- THERM_ALERT_N: the pin follows the reading
  (∀ (k : Fin 32) (c : BitVec 9) (s : State),
      Completes (.thermAlertN k c) s fun t => ∃ u : State, t = u.alertUpd ∧
        u.pwr = { s.pwr with alertHot := decide ((s.get PWR_THERM.alert_c : Int) ≤ c.toInt) } ∧ u.get PWR_TEMP.sensor = k.val ∧
        SameBut [PWR_TEMP.reg.addr] { s with pwr := u.pwr } u) ∧
  -- THERMAL_TRIP: every rail goes off, the device is COLD, and what tripped it is kept
  (∀ (k : Fin 32) (c : BitVec 9) (s : State), 130 ≤ c.toInt → s.boot.por = false → s.pwr.tripped = false →
      Completes (.thermalTrip k c) s fun t => t.pwr.tripped = true ∧ t.boot.en = [] ∧ t.get PWR_TRIP.valid = 1 ∧ t.get PWR_TRIP.sensor = k.val ∧
        t.get TOP_STATE.pwr_state = 3 ∧ t.ports = [] ∧ t.accts = [] ∧ t.pwr.lossArea = s.pwr.lossArea) ∧
  -- SDS_REFCLK_LOST: a record; and where one port of the tile is ACTIVE, its link goes down with cause 4
  (∀ (k : Fin 8) (s : State), (tilePorts (8 + k.val)).filter s.active = [] →
      Completes (.sdsRefclkLost k) s fun t => t = { s with clhIn := t.clhIn } ∧ ∃ x, t.clhIn = recInsert x s.clhIn ∧ x.kind = kSDS_REFCLK_LOST) ∧
  (∀ (k : Fin 8) (s : State) p, (tilePorts (8 + k.val)).filter s.active = [p] →
      Completes (.sdsRefclkLost k) s fun t => ∃ u : State, t = u.linkDown p 4 ∧ u = { s with clhIn := u.clhIn }) ∧
  -- PLL_UNLOCK of a PLL that runs: a record
  (∀ (k : Fin 3) (s : State), s.boot.por = false → s.pwr.tripped = false → 3 ≤ s.get TOP_BOOT_STAT.stage →
      Completes (.pllUnlock k) s fun t => t = { s with clhIn := t.clhIn } ∧ ∃ x, t.clhIn = recInsert x s.clhIn ∧ x.kind = kPLL_UNLOCK)

/-! ## Routing, telemetry and bring-up (04, 13) -/

/-- The packets and messages that Routing passes on (parts of 04 R122, R124, R127, R130, R139, R143, R148, R153, R155, R159; 02 R54, R58). -/
def Obligations.RoutingCompletes : Prop :=
  -- FORWARDING_DECISION of the oldest undecided header of a class
  (∀ (p : PortNo) (c : Fin 18) (s : State) v, (s.port p.val).vault.find? (fun v => v.cls == c.val && v.dest == .undecided) = some v →
      s.stopping = false → s.certMay p.val v.hdr = true → Completes (.forwardingDecision p c) s fun t => t = (s.forward p.val v).activityUpd) ∧
  -- before the DevID check of the port has passed, only a link-local MG packet is looked at (log entry 116)
  (∀ (p : PortNo) (c : Fin 18) (s : State) v, (s.port p.val).vault.find? (fun v => v.cls == c.val && v.dest == .undecided) = some v →
      (s.port p.val).certWait = true → (v.hdr.opcode ≠ 0x0A ∨ v.hdr.linkLocal = false) → Completes (.forwardingDecision p c) s fun t => t = s) ∧
  -- in VIGIL every packet but an MG is discarded and counted
  (∀ (p : Nat) (v : VaultPkt) (s : State), s.pwrState = 2 → v.hdr.opcode ≠ 0x0A →
      s.forward p v = (s.bump PWR_CNT_VIGIL_DROP.ev).routeTo p v.id .drop) ∧
  -- one whose header breaks 02 R58 is discarded with ROUTE_DISCARD
  (∀ (p : Nat) (v : VaultPkt) (s : State), (s.pwrState ≠ 2 ∨ v.hdr.opcode = 0x0A) → illegalHdr v.hdr v.cls = true →
      ∃ u : State, s.forward p v = u.routeTo p v.id .drop ∧ u = { s with clhIn := u.clhIn } ∧
        ∃ x, u.clhIn = recInsert x s.clhIn ∧ x.kind = kROUTE_DISCARD ∧ x.src = srcOf 0x20 p) ∧
  -- one older than RTE_LIFETIME is discarded and counted
  (∀ (p : Nat) (v : VaultPkt) (s : State), (s.pwrState ≠ 2 ∨ v.hdr.opcode = 0x0A) → illegalHdr v.hdr v.cls = false →
      s.get RTE_LIFETIME.quarter_ns < s.age v.hdr → s.forward p v = (s.tooOld p v.hdr).routeTo p v.id .drop) ∧
  -- a multicast packet of a request or response network goes to the multicast consumer
  (∀ (p : Nat) (v : VaultPkt) (s : State) net, (s.pwrState ≠ 2 ∨ v.hdr.opcode = 0x0A) → illegalHdr v.hdr v.cls = false →
      s.age v.hdr ≤ s.get RTE_LIFETIME.quarter_ns → netOf v.hdr.opcode = some net → 2 ≤ net → v.hdr.mcast = true →
      s.forward p v = s.routeTo p v.id .mcast) ∧
  -- one for this device is delivered here; one for another takes the output that Routing chooses, is queued there, and may be sampled
  (∀ (p : Nat) (v : VaultPkt) (s : State) net, (s.pwrState ≠ 2 ∨ v.hdr.opcode = 0x0A) → illegalHdr v.hdr v.cls = false →
      s.age v.hdr ≤ s.get RTE_LIFETIME.quarter_ns → netOf v.hdr.opcode = some net → net ≤ 1 → (clsPhase v.cls).all (· == v.hdr.phase) = true →
      s.phaseLegal v.hdr { role := s.role p, phase := v.hdr.phase, port := p } = true → v.hdr.mcast = false → s.role p ≠ roleHall →
      s.isHere v.hdr.dstEp = true → s.forward p v = s.routeTo p v.id .here) ∧
  (∀ (p : Nat) (v : VaultPkt) (s u : State) net q c h, (s.pwrState ≠ 2 ∨ v.hdr.opcode = 0x0A) → illegalHdr v.hdr v.cls = false →
      s.age v.hdr ≤ s.get RTE_LIFETIME.quarter_ns → netOf v.hdr.opcode = some net → net ≤ 1 → (clsPhase v.cls).all (· == v.hdr.phase) = true →
      s.phaseLegal v.hdr { role := s.role p, phase := v.hdr.phase, port := p } = true → v.hdr.mcast = false → v.hdr.linkLocal = false →
      s.role p ≠ roleHall → s.isHere v.hdr.dstEp = false →
      s.chooseOut v.hdr { role := s.role p, phase := v.hdr.phase, port := p } net = (.port q c h, u) →
      s.forward p v = ((((u.modVault p v.id fun v => { v with hdr := u.markFor h net q }).enqueue q
        { id := v.id, src := p, cls := c, arrRole := s.role p, arrPhase := v.hdr.phase }).sampleHeader p false q c (u.markFor h net q)).routeTo p
          v.id (.out q c))) ∧
  -- and one for which there is no way is discarded
  (∀ (p : Nat) (v : VaultPkt) (s u : State) net, (s.pwrState ≠ 2 ∨ v.hdr.opcode = 0x0A) → illegalHdr v.hdr v.cls = false →
      s.age v.hdr ≤ s.get RTE_LIFETIME.quarter_ns → netOf v.hdr.opcode = some net → net ≤ 1 → (clsPhase v.cls).all (· == v.hdr.phase) = true →
      s.phaseLegal v.hdr { role := s.role p, phase := v.hdr.phase, port := p } = true → v.hdr.mcast = false → v.hdr.linkLocal = false →
      s.role p ≠ roleHall → s.isHere v.hdr.dstEp = false →
      s.chooseOut v.hdr { role := s.role p, phase := v.hdr.phase, port := p } net = (.noPath, u) →
      s.forward p v = (u.noPath p).routeTo p v.id .drop) ∧
  -- SAMPLE_FLUSH_TIMER: with nothing sampled, nothing; a batch goes to the collector, with how many samples have been lost, and where no way
  -- is open it stays
  (∀ s : State, s.samples = [] → Completes .sampleFlushTimer s fun t => t = s) ∧
  (∀ (s u : State) p c h, s.samples ≠ [] →
      State.injectCore { s with samples := [], sampleLost := 0 } (s.mgPkt 0x31 (s.get RTE_SAMPLE.collector) (bytesOf 3 s.ep ++
        bytesOf 1 s.samples.length ++ bytesOf 4 (min s.sampleLost 0xFFFFFFFF) ++ (s.samples.map (bytesOf 64)).flatten)) = (.sent, u, some (p, c, h)) →
      Completes .sampleFlushTimer s fun t => t = u.sampleTake 0 true p c h) ∧
  (∀ (s u : State) w, s.samples ≠ [] →
      State.injectCore { s with samples := [], sampleLost := 0 } (s.mgPkt 0x31 (s.get RTE_SAMPLE.collector) (bytesOf 3 s.ep ++
        bytesOf 1 s.samples.length ++ bytesOf 4 (min s.sampleLost 0xFFFFFFFF) ++ (s.samples.map (bytesOf 64)).flatten)) = (.noRoute, u, w) →
      Completes .sampleFlushTimer s fun t => t = s) ∧
  -- one with no move is discarded
  (∀ (s u : State) w, s.samples ≠ [] →
      State.injectCore { s with samples := [], sampleLost := 0 } (s.mgPkt 0x31 (s.get RTE_SAMPLE.collector) (bytesOf 3 s.ep ++
        bytesOf 1 s.samples.length ++ bytesOf 4 (min s.sampleLost 0xFFFFFFFF) ++ (s.samples.map (bytesOf 64)).flatten)) = (.noPath, u, w) →
      Completes .sampleFlushTimer s fun t => t = u) ∧
  -- HALL_RELAY_REINJECT of a packet for this device: its age starts anew, and it is delivered
  (∀ (s : State) p id r v, s.relayIn = (p, id) :: r → s.stopping = false → s.vaultPkt p id = some v → epHall v.hdr.dstEp = s.get RTE_CFG.hall →
      s.isHere v.hdr.dstEp = true →
      Completes .hallRelayReinject s fun t => t = ((State.modVault { s with relayIn := r } p id fun w => { w with hdr :=
        { v.hdr with injectTime := s.stamp % 2 ^ 32, epoch := s.get RTE_EPOCH.current, dateline := false, valiant := false, viaGroup := 0 } }).routeTo
          p id .here).activityUpd) ∧
  -- and of one for another hall, which keeps its route word's other fields
  (∀ (s u : State) p id r v q c h, s.relayIn = (p, id) :: r → s.stopping = false → s.vaultPkt p id = some v →
      epHall v.hdr.dstEp ≠ s.get RTE_CFG.hall → s.isHere v.hdr.dstEp = false →
      State.chooseOut { s with relayIn := r } { v.hdr with injectTime := s.stamp % 2 ^ 32, epoch := s.get RTE_EPOCH.current }
        { role := roleHall, phase := v.hdr.phase, port := p } ((netOf v.hdr.opcode).getD 0) = (.port q c h, u) →
      Completes .hallRelayReinject s fun t =>
        t = ((((u.modVault p id fun w => { w with hdr := u.markFor h ((netOf v.hdr.opcode).getD 0) q }).enqueue q
              { id, src := p, cls := c, arrRole := roleHall, arrPhase := v.hdr.phase }).sampleHeader p false q c
                (u.markFor h ((netOf v.hdr.opcode).getD 0) q)).routeTo p id (.out q c)).activityUpd) ∧
  -- MG_RELAY: a fresh injection
  (∀ (s : State) k r, s.mgIn = k :: r → s.stopping = false → Completes .mgRelay s fun t => t = State.injectDrop { s with mgIn := r } k) ∧
  -- MULTICAST_CONSUME of an MG packet: a copy on each usable port of the group's mask but its own, and one here with the group's host links
  (∀ (s : State) k r, s.mcIn = k :: r → s.stopping = false → k.hdr.opcode = 0x0A → s.get (RTE_MC_LOCAL.local k.hdr.mcGroup) ≠ 0 →
      Completes .multicastConsume s fun t => ∃ (u : State) (k' : Packet), t = State.activityUpd { u with tptIn := u.tptIn ++ [k'] } ∧
        k' = { k with links := s.get (RTE_MC_LOCAL.host_links k.hdr.mcGroup), copies := clrBit (s.get (RTE_MC_PORTS.ports k.hdr.mcGroup)) k.port } ∧
        u = (bitsOf 64 k'.copies).foldl (fun s p => if s.usable p then s.sendOn p k' else s.bump RTE_CNT_MC_DOWN.ev) { s with mcIn := r }) ∧
  -- of a COLL_DN: Alloy's, with the mask that its copies follow; with an empty mask and no consumer here, it is counted and gone
  (∀ (s : State) k r, s.mcIn = k :: r → s.stopping = false → k.hdr.opcode = 9 → s.get (RTE_MC_LOCAL.local k.hdr.mcGroup) ≠ 0 →
      Completes .multicastConsume s fun t => t = State.activityUpd { s with mcIn := r, tptIn := s.tptIn ++
        [{ k with links := s.get (RTE_MC_LOCAL.host_links k.hdr.mcGroup), copies := clrBit (s.get (RTE_MC_PORTS.ports k.hdr.mcGroup)) k.port }] }) ∧
  (∀ (s : State) k r, s.mcIn = k :: r → s.stopping = false → s.get (RTE_MC_PORTS.ports k.hdr.mcGroup) = 0 →
      s.get (RTE_MC_LOCAL.local k.hdr.mcGroup) = 0 →
      Completes .multicastConsume s fun t => t = (State.bump { s with mcIn := r } RTE_CNT_MC_ZERO.ev).activityUpd) ∧
  -- QS_MESSAGE_RECEIVE: one on a port whose DevID check has not passed is discarded (log entry 116); one for this device is delivered
  (∀ (s : State) a r, s.qsRx = a :: r → s.stopping = false → a.msg.type ≠ 4 → a.port < 64 → (s.port a.port).certWait = true →
      Completes .qsMessageReceive s fun t => t = { s with qsRx := r }) ∧
  (∀ (s : State) a r, s.qsRx = a :: r → s.stopping = false → a.msg.type ≠ 4 → (s.port a.port).certWait = false → s.isHere a.msg.dst = true → a.msg.illegal = false →
      Completes .qsMessageReceive s fun t => ∃ u : State, t = { u with qsHere := u.qsHere ++ [{ msg := a.msg, port := a.port, came := u.clk }] } ∧
        u = State.bump { s with qsRx := r } QSL_CNT_DELIVERED.ev) ∧
  -- an illegal one is counted, and nothing comes of it
  (∀ (s : State) a r, s.qsRx = a :: r → s.stopping = false → a.msg.type ≠ 4 → (s.port a.port).certWait = false → s.isHere a.msg.dst = true → a.msg.illegal = true →
      Completes .qsMessageReceive s fun t => t = (State.bump { s with qsRx := r } QSL_CNT_DELIVERED.ev).tallyHit Config.illegalQsEvent.toNat 0 1) ∧
  -- one for another waits for a slot on its preferred port
  (∀ (s : State) a r p, s.qsRx = a :: r → s.stopping = false → a.msg.type ≠ 4 → (s.port a.port).certWait = false → s.isHere a.msg.dst = false → a.msg.hops < 63 →
      s.role a.port ≠ roleHall →
      s.qsPrefer (s.productive a.msg) = some p →
      Completes .qsMessageReceive s fun t =>
        t = { s with qsRx := r, qsWait := s.qsWait ++ [{ msg := a.msg, arr := a.port, pref := p }] }) ∧
  -- one that has made 63 hops is dropped and counted
  (∀ (s : State) a r, s.qsRx = a :: r → s.stopping = false → a.msg.type ≠ 4 → (s.port a.port).certWait = false → s.isHere a.msg.dst = false → a.msg.hops = 63 →
      Completes .qsMessageReceive s fun t => t = State.bump { s with qsRx := r } QSL_CNT_HOP_LIMIT.ev)

/-- Flips of the table version (parts of 04 R140, R145, R146). -/
def Obligations.EpochFlipCompletes : Prop :=
  -- EPOCH_FLIP for a time within a second: pending, and flooded once
  (∀ (s u : State) m, s.Delivered 5 m u → m.msg.payload % 2 ≠ u.get RTE_EPOCH.current → u.now < m.msg.payload / 2 * 2 →
      m.msg.payload / 2 * 2 ≤ u.now + 4000000000 → m.msg.payload < 2 ^ 64 →
      Completes .epochFlip s fun t => ∃ w : State, t = w.tblStat.flipFlood (m.msg.payload % 2) (m.msg.payload / 2 * 2) ∧
        w.get RTE_EPOCH.pending_valid = 1 ∧ w.get RTE_EPOCH.pending_epoch = m.msg.payload % 2 ∧
        w.get RTE_FLIP_TIME.t = m.msg.payload / 2 * 2 ∧ w.get RTE_EPOCH.current = u.get RTE_EPOCH.current ∧
        SameBut [RTE_EPOCH.reg.addr, RTE_FLIP_TIME.reg.addr] u w) ∧
  -- for a time that has passed: at once, with FLIP_LATE
  (∀ (s u : State) m, s.Delivered 5 m u → m.msg.payload % 2 ≠ u.get RTE_EPOCH.current → m.msg.payload / 2 * 2 ≤ u.now →
      Completes .epochFlip s fun t =>
        t = ((u.flip u.now).raise kFLIP_LATE (srcOf 0x20 0xFF) 0 0).flipFlood (m.msg.payload % 2) (m.msg.payload / 2 * 2)) ∧
  -- one for the version that is current clears a flip that is pending, and is flooded
  (∀ (s u : State) m, s.Delivered 5 m u → m.msg.payload % 2 = u.get RTE_EPOCH.current → u.get RTE_EPOCH.pending_valid ≠ 0 →
      Completes .epochFlip s fun t => ∃ w : State, t = w.tblStat.flipFlood (m.msg.payload % 2) (m.msg.payload / 2 * 2) ∧
        w.get RTE_EPOCH.pending_valid = 0 ∧ SameBut [RTE_EPOCH.reg.addr] u w) ∧
  -- one for more than a second ahead is ignored and counted
  (∀ (s u : State) m, s.Delivered 5 m u → m.msg.payload % 2 ≠ u.get RTE_EPOCH.current → u.now + 4000000000 < m.msg.payload / 2 * 2 →
      Completes .epochFlip s fun t => t = u.bump RTE_CNT_FLIP_IGN.ev) ∧
  -- a flood that has been made is not made again
  (∀ (s : State) (e x : Nat), (e, x) ∈ s.boot.floods → s.flipFlood e x = s) ∧
  -- EPOCH_FLIP_TIME, once Hallmark has reached the time of the pending flip
  (∀ s : State, s.get RTE_EPOCH.pending_valid ≠ 0 → s.get RTE_FLIP_TIME.t ≤ s.now → Completes .epochFlipTime s fun t => t = s.flip (s.get RTE_FLIP_TIME.t)) ∧
  -- what a flip is: the other version is current, the old one drains, nothing is pending
  (∀ (s : State) (x : Nat), x < 2 ^ 64 → ∃ u : State, s.flip x = u.tblStat ∧ u.get RTE_EPOCH.current = 1 - s.get RTE_EPOCH.current ∧
      u.get RTE_EPOCH.draining = 1 ∧ u.get RTE_EPOCH.pending_valid = 0 ∧ u.get RTE_FLIP_LAST.t = x ∧
      SameBut [RTE_EPOCH.reg.addr, RTE_FLIP_LAST.reg.addr] s u) ∧
  -- DRAINING_END of the version that is not current
  (∀ (v : Bool) (s : State), s.get RTE_EPOCH.draining ≠ 0 → (if v then 1 else 0) ≠ s.get RTE_EPOCH.current →
      Completes (.drainingEnd v) s fun t => t.get RTE_EPOCH.draining = 0 ∧ t.get RTE_EPOCH.current = s.get RTE_EPOCH.current ∧
        SameBut [RTE_EPOCH.reg.addr, RTE_TBL_STAT.reg.addr] s t)

/-- Learning the fabric, and the staggered upgrade (parts of 13 R476, R478 to R485; 04 R142). -/
def Obligations.BringUpCompletes : Prop :=
  -- ADVERT: kept under its endpoint; the tables are written while they are not open
  (∀ (s : State) k r, s.izg.activating.isSome = false → s.izg.mg = k :: r → k.hdr.w5 % 256 = 0x30 → s.role k.port ≠ roleD0 →
      s.get RTE_CFG.tables_open = 0 →
      Completes .advert s fun t => ∃ u : State, t = u.advertChanged ∧ u = { s with izg := { s.izg with mg := r }, boot := u.boot } ∧
        tget u.boot.adverts (leAt k.data 0 3 % 2 ^ 23) = some ((List.range (leAt k.data 3 1)).map fun i => leAt k.data (4 + 4 * i) 4)) ∧
  -- from a D0 neighbour it is first passed on to every D1 neighbour
  (∀ (s : State) k r, s.izg.activating.isSome = false → s.izg.mg = k :: r → k.hdr.w5 % 256 = 0x30 → s.role k.port = roleD0 →
      s.get RTE_CFG.tables_open = 0 →
      Completes .advert s fun t => ∃ u : State,
        t = ((u.activeRole roleD1).foldl (fun s q => s.sendOn q (s.mgPkt 0x30 (epDev (s.peer q)) k.data)) u).advertChanged ∧
        u = { s with izg := { s.izg with mg := r }, boot := u.boot } ∧
        tget u.boot.adverts (leAt k.data 0 3 % 2 ^ 23) = some ((List.range (leAt k.data 3 1)).map fun i => leAt k.data (4 + 4 * i) 4)) ∧
  -- what that changes before the coordinates are known: the event bit
  (∀ s : State, s.get TOP_BOOT_STAT.coords_fixed = 0 → s.advertChanged.get RTE_ADVERT_EVT.changed = 1 ∧
      SameBut [RTE_ADVERT_EVT.reg.addr] s s.advertChanged) ∧
  -- an ADVERT while the tables are open is kept, and changes nothing
  (∀ (s : State) k r, s.izg.activating.isSome = false → s.izg.mg = k :: r → k.hdr.w5 % 256 = 0x30 → s.role k.port ≠ roleD0 →
      s.get RTE_CFG.tables_open ≠ 0 →
      Completes .advert s fun t => t = { s with izg := { s.izg with mg := r }, boot := t.boot } ∧
        tget t.boot.adverts (leAt k.data 0 3 % 2 ^ 23) = some ((List.range (leAt k.data 3 1)).map fun i => leAt k.data (4 + 4 * i) 4)) ∧
  -- COORD on an ACTIVE port of the fabric whose peer's endpoint is known: its content is kept for the port, and learnt from
  (∀ (s : State) k r, s.izg.activating.isSome = false → s.izg.mg = k :: r → k.hdr.w5 % 256 = 0x32 → s.active k.port = true → s.peer k.port ≠ 0x7FFFFF →
      1 ≤ s.role k.port → s.role k.port ≤ 4 →
      let d := k.data
      let c : CoordInfo := { valid := true, serial := leAt d 0 8, head := leAt d 8 8, endpoint := leAt d 16 3 % 2 ^ 23,
                             d0 := if bit (leAt d 19 1) 4 then some (leAt d 19 1 % 16) else none,
                             d1 := if bit (leAt d 20 1) 4 then some (leAt d 20 1 % 16) else none,
                             upReady := bit (leAt d 21 1) 0, service := bit (leAt d 21 1) 1, fixed := bit (leAt d 21 1) 2 }
      let asg := if bit (leAt d 22 1) 4 then some (b2n (bit (leAt d 22 1) 5), leAt d 22 1 % 16) else none
      Completes .coord s fun t => t = State.withCoord { s with izg := { s.izg with mg := r } } fun s =>
        (((s.modPort k.port fun q => { q with coord := c }).coordLearn k.port c asg).settle).passAdvance (k.port / 8)) ∧
  -- one on another port has no effect
  (∀ (s : State) k r, s.izg.activating.isSome = false → s.izg.mg = k :: r → k.hdr.w5 % 256 = 0x32 → s.active k.port = false →
      Completes .coord s fun t => t = { s with izg := { s.izg with mg := r } }) ∧
  -- COORD_PERIOD: a COORD, as the device now is, goes to the peer on each port of the fabric that is ACTIVE
  (∀ s : State, Completes .coordPeriod s fun t => t = s.coordPorts.foldl (fun s p =>
      (s.modPort p fun q => { q with coordSent := some (s.coordData p) }).sendOn p (s.mgPkt 0x32 (s.peer p) (s.coordData p))) s) ∧
  -- between them one goes out on a port as soon as what it says has changed: while it says what was sent last, none
  (∀ s : State, (∀ p ∈ s.coordPorts, (s.port p).coordSent = some (s.coordData p)) → s.coordSync = s) ∧
  (∀ (s : State) (p : Nat) c, s.coordPorts = [p] → (s.port p).coordSent = some c → c ≠ s.coordData p → s.coordSync = s.sendCoord p) ∧
  -- HEAD_ASSIGN at the head whose LOCAL ports are all ACTIVE: it takes coordinates 0 and 0, and gives its peers theirs
  (∀ s : State, s.boot.head = s.serial → s.get TOP_BOOT_STAT.coord_src = 0 → s.boot.assigned = none → s.get TOP_STATE.svc_state = 2 →
      (ports64.filter fun p => s.active p && s.role p == roleD0).length = s.get RTE_CFG.n0_m1 →
      (ports64.filter fun p => s.active p && s.role p == roleD1).length = s.get RTE_CFG.n1_m1 →
      Completes .headAssign s fun t => t = s.withCoord fun s =>
        State.keysAdd { s with boot := { s.boot with
          assigned := some (s.assignTo roleD0 0 ++ s.assignTo roleD1 1), d0 := some 0, d1 := some 0 } } []) ∧
  -- GROUPKEYS: the keys enter the set; GROUPKEYS_PERIOD: an incomplete set is sent
  (∀ (s : State) k r, s.izg.activating.isSome = false → s.izg.mg = k :: r → k.hdr.w5 % 256 = 0x33 → s.get TOP_BOOT_STAT.coord_src = 0 →
      Completes .groupkeys s fun t => t = State.withCoord { s with izg := { s.izg with mg := r } } fun s =>
        s.keysAdd ((List.range (leAt k.data 0 2)).map fun i => leAt k.data (8 + 8 * i) 8)) ∧
  (∀ s : State, s.coordsKnown = true → s.get TOP_BOOT_STAT.coord_src = 0 → s.boot.keys.length < s.groupCount →
      Completes .groupkeysPeriod s fun t => t = (ports64.filter fun p => s.active p && (s.role p == roleD0 || s.role p == roleD1)).foldl
        (fun u p => u.sendOn p (u.mgPkt 0x33 (u.peer p) (bytesOf 2 s.boot.keys.length ++ bytesOf 6 0 ++ s.boot.keys.flatMap (bytesOf 8)))) s) ∧
  -- a device that has no key to add and knows all that come sends nothing: the set is as it was
  (∀ (s : State), s.coordsKnown = false → s.keysAdd [] = s.groupFix) ∧
  -- COORD_TIMEOUT: error 3
  (∀ s : State, s.get TOP_STATE.svc_state = 2 → s.get TOP_BOOT_STAT.coords_fixed = 0 →
      Completes .coordTimeout s fun t => t.get TOP_BOOT_STAT.error = 3 ∧ SameBut [TOP_BOOT_STAT.reg.addr] s t) ∧
  -- TABLES_DONE_TIMER, in REDUCED with the coordinates fixed and no change since: tables_done
  (∀ s : State, s.get TOP_BOOT_STAT.coords_fixed ≠ 0 → s.get RTE_ADVERT_EVT.changed = 0 → s.get TOP_STATE.svc_state = 2 →
      Completes .tablesDoneTimer s fun t => t.get TOP_BOOT_STAT.tables_done = 1 ∧ SameBut [TOP_BOOT_STAT.reg.addr] s t) ∧
  -- UPGRADE_START and BRINGUP_START: the upgrade begins, by itself or when asked, as TOP_BRINGUP_CFG says: up_ready, and the passes start
  (∀ s : State, s.get TOP_BRINGUP_CFG.auto_upgrade ≠ 0 → s.upgradeReady = true → Completes .upgradeStart s fun t => ∃ f : State → State,
      t = s.withCoord (fun s => (f s).startPasses true (f s).upgradePorts) ∧ (∀ u : State, (f u).get TOP_BOOT_STAT.up_ready = 1) ∧
      ∀ (u : State) p v, p < 64 → u.upgradePorts = [p] → tget u.boot.prov.targets p = some v →
        (f u).get (PRT_TARGET.rate p) = min (v % 4) 2 ∧ (f u).get (PRT_TARGET.width p) = v / 4 % 4) ∧
  (∀ (wr : Writer) (s : State), s.get TOP_BRINGUP_CFG.auto_upgrade = 0 → s.upgradeReady = true → s.Lands wr TOP_BRINGUP_CTL.reg.addr →
      Completes (.bringupStart wr) s fun t => t = s.startUpgrade) ∧
  -- starting the passes: upgrade_active with its time, and each tile has its ports to take
  (∀ (s : State) (own : Bool) (ps : List Nat), ∃ u : State, s.startPasses own ps = u.upgradeCheck ∧ u.get TOP_STATE.upgrade_active = 1 ∧
      u.get TOP_UPGRADE_TIME.t = s.stamp % 2 ^ 64 ∧ u.boot.upgrading = (s.boot.upgrading || own) ∧ u.boot.passing = [] ∧ u.boot.tileOn = [] ∧
      ∀ i, i < 8 → tget u.boot.tilePend i = some (ps.filter fun p => p / 8 == i)) ∧
  -- TILE_PASS_START: the tile's pass begins; PORT_WAIT_TIMEOUT: a pass moves on from the port it waits for
  (∀ (i : Fin 8) (s : State), s.get TOP_STATE.upgrade_active ≠ 0 → i.val ∉ s.boot.tileOn →
      Completes (.tilePassStart i) s fun t =>
        t = (State.passAdvance { s with boot := { s.boot with tileOn := s.boot.tileOn ++ [i.val] } } i.val).upgradeCheck) ∧
  (∀ (i : Fin 8) (s : State) p, tget s.boot.passing i.val = some p →
      Completes (.portWaitTimeout i) s fun t =>
        t = State.passAdvance { s with boot := { s.boot with passing := tdel s.boot.passing i.val } } i.val) ∧
  -- UPGRADE_LIMIT_EXPIRY: the upgrade is over
  (∀ s : State, s.get TOP_STATE.upgrade_active ≠ 0 → s.get TOP_STATE.svc_state ≠ 2 →
      Completes .upgradeLimitExpiry s fun t => t.get TOP_STATE.upgrade_active = 0 ∧ t.boot.tilePend = [] ∧ t.boot.passing = [] ∧
        SameBut [TOP_STATE.reg.addr, TOP_BRINGUP_STAT.reg.addr] { s with boot := t.boot } t) ∧
  -- in REDUCED the device then becomes FULL or DEGRADED
  (∀ s : State, s.get TOP_STATE.upgrade_active ≠ 0 → s.get TOP_STATE.svc_state = 2 → s.pwrState ≠ 2 →
      Completes .upgradeLimitExpiry s fun t => ∃ u : State,
        t = (u.withCoord fun s => s.enterSvc (if s.fullCond then 3 else 4)).settle ∧ u.get TOP_STATE.upgrade_active = 0 ∧
        u.boot.tilePend = [] ∧ SameBut [TOP_STATE.reg.addr, TOP_BRINGUP_STAT.reg.addr] { s with boot := u.boot } u)

/-! ## Hallmark, the Clearing house, Assay and Tally (11) -/

/-- Time (parts of 11 R394, R396, R400, R402, R404 to R408). -/
def Obligations.HallmarkCompletes : Prop :=
  -- HMK_SYNC_PERIOD: the election, then both forms on every port that takes part
  (∀ (edges : Nat) (s e : State), e = s.hmkElect → (s.get HMK_CFG.ext_10m_en = 0 ∨ (e.clk - e.hmk.periodAt) / 40 = 0) →
      Completes (.hmkSyncPeriod edges) s fun t => ∃ u : State, t = (ports64.filter u.hmkTakes).foldl (fun s p => (s.hmkSend p 0).hmkForm1On p) u ∧
        u = { e with hmk := { e.hmk with periodAt := e.clk } }) ∧
  -- with the external 10 MHz in use the rate is first taken from it: its edges since the last period count 400 quarter-nanoseconds each, and
  -- REFCLK_AON has counted 160 a cycle; the rate is kept within 1,000 ppm
  (∀ (edges c : Nat) (s e : State), e = s.hmkElect → s.get HMK_CFG.ext_10m_en ≠ 0 → c = (e.clk - e.hmk.periodAt) / 40 → c ≠ 0 →
      Completes (.hmkSyncPeriod edges) s fun t => ∃ u : State, t = (ports64.filter u.hmkTakes).foldl (fun s p => (s.hmkSend p 0).hmkForm1On p) u ∧
        u.get HMK_RATE.r = trunc 32 (max (-4294967) (min ((2 ^ 32 * (400 * edges : Nat) : Int) / (160 * c : Nat) - 2 ^ 32) 4294967)) ∧
        SameBut [HMK_RATE.reg.addr] { e with hmk := { e.hmk with periodAt := e.clk } } u) ∧
  -- what is sent on a port, while the injection queue has room: an HMK_SYNC to its peer, for that port alone
  (∀ (p w : Nat) (s : State), s.qsInj.length < 4096 → ∃ (u : State) (m : QsMsg), s.hmkSend p w = u.injUpd ∧
      u = { s with qsInj := s.qsInj ++ [{ msg := m, arr := 64, pref := p, misses := 0 }] } ∧ m.type = 4 ∧ m.dst = s.peer p ∧ m.payload = w) ∧
  -- the election: the best of the candidates heard, unless this device's own key is lower
  (∀ (s : State) k d p, hmkBest s.hmkCands = some (k, d, p) → (s.hmkPrio = 255 ∨ s.epShown = 0x7FFFFF ∨ k ≤ hmkKey s.hmkPrio s.epShown) →
      s.hmkElect = s.hmkPlace false (some p) (d + 1) (k / 2 ^ 23) (k % 2 ^ 23)) ∧
  (∀ (s : State) k d p, hmkBest s.hmkCands = some (k, d, p) → s.hmkPrio ≠ 255 → s.epShown ≠ 0x7FFFFF → hmkKey s.hmkPrio s.epShown < k →
      s.hmkElect = s.hmkPlace true none 0 s.hmkPrio s.epShown) ∧
  -- HMK_SYNC_FORM1 from a port that takes part: kept, and an election
  (∀ (s u : State) m, s.hmkTake true = some (m, u) → u.hmkTakes m.port = true →
      let f : Form1 := { hi := bf m.msg.payload 0 24, prio := bf m.msg.payload 24 8, gm := bf m.msg.payload 32 23, depth := bf m.msg.payload 55 6 }
      Completes .hmkSyncForm1 s fun t => t = (u.modPort m.port fun q => { q with hmkForm1 := some f }).hmkElect) ∧
  -- FORM1_AGE_OUT: forgotten, and an election
  (∀ (p : PortNo) (s : State) f, (s.port p.val).hmkForm1 = some f →
      Completes (.form1AgeOut p) s fun t => t = (s.modPort p.val fun q => { q with hmkForm1 := none }).hmkElect) ∧
  -- PARENT_TIMEOUT: the parent is used no longer, and the rate stays
  (∀ s : State, s.get HMK_STAT.parent_valid ≠ 0 →
      Completes .parentTimeout s fun t => t.get HMK_STAT.parent_valid = 0 ∧ t.get HMK_STAT.parent_port = 0 ∧
        t.get HMK_RATE.r = s.get HMK_RATE.r ∧ SameBut [HMK_STAT.reg.addr] s t) ∧
  -- HMK_SYNC_FORM0 from the parent: the offset is (A_tx + d) − B_rx, d half the round trip with the port's asymmetry; it steers
  (∀ (s u : State) m (btx : Nat), s.hmkTake false = some (m, u) →
      let v := u.bump HMK_CNT_SYNC_RX.ev
      let p := m.port
      let atx := bf m.msg.payload 0 40
      let ta := bf m.msg.payload 40 23
      let rtt : Int := (m.rx : Int) - (btx : Int) - (ta : Int)
      let d : Int := rtt.tdiv 2 + signed 16 (v.get (HMK_PORT.asym p))
      let θ := signed 40 (trunc 40 ((atx : Int) + d - (m.rx : Int)))
      let q := (v.port p).hmkFilter rtt
      v.hmkTakes p = true → ta ≠ 0x7FFFFF → (v.port p).hmkTx.find? (fun t => decide (t + ta ≤ m.rx)) = some btx → q.1 = true →
      v.get HMK_STAT.parent_valid ≠ 0 → v.get HMK_STAT.parent_port = p →
      Completes .hmkSyncForm0 s fun t => ∃ x : State,
        t = x.hmkSteer θ (signed 64 (trunc 64 (((((q.2.hmkForm1.map (·.hi)).getD 0 * 2 ^ 40 + atx : Nat)) : Int) + d - (m.rx : Int)))) p ∧
        x.get HMK_OFFSET.theta = trunc 32 θ ∧ x.get HMK_OFFSET.rtt = trunc 32 q.2.hmkF ∧
        SameBut [HMK_OFFSET.reg.addr] (v.modPort p fun _ => q.2) x) ∧
  -- the steps and slews of R402: a count that is not valid, or an offset beyond step_ns ahead, steps; any other slews
  (∀ (s : State) (θ whole : Int) (p : Nat), s.hmkSteer θ whole p =
      (if (s.hmkLock θ p).get HMK_STAT.valid = 0 then (s.hmkLock θ p).hmkStep whole p
       else if 4 * (s.get HMK_CFG.step_ns : Int) < θ then (s.hmkLock θ p).hmkStep θ p else (s.hmkLock θ p).hmkSlew θ)) ∧
  -- a step adds the offset to the count and is recorded; a slew changes the rate in the offset's direction, by at most slew_ppm (how far is
  -- free: log entry 2), and keeps it within 1,000 ppm
  (∀ (s : State) (θ : Int) (p : Nat), ∃ u : State, s.hmkStep θ p = (u.bump HMK_CNT_STEP.ev).raise kHMK_STEP (srcOf 0x2A p) 0 (trunc 48 θ) ∧
      u.now = trunc 64 ((s.now : Int) + θ) ∧ u.get HMK_STAT.valid = 1 ∧ u.get HMK_EVT.step = 1 ∧
      SameBut [HMK_NOW.reg.addr, HMK_STAT.reg.addr, HMK_EVT.reg.addr] s u) ∧
  (∀ (s : State) (θ : Int), ∃ d : Nat, d ≤ s.get HMK_CFG.slew_ppm * 2 ^ 32 / 1000000 ∧ (s.hmkSlew θ).now = s.now ∧
      (s.hmkSlew θ).get HMK_RATE.r = trunc 32 (max (-4294967) (min (signed 32 (s.get HMK_RATE.r) + θ.sign * d) 4294967)) ∧
      SameBut [HMK_RATE.reg.addr] { s with freeCtr := (s.hmkSlew θ).freeCtr } (s.hmkSlew θ)) ∧
  -- lock is gained with the 8th sample in a row within 4 quarter-nanoseconds
  (∀ (s : State) (θ : Int) (p : Nat), θ.natAbs ≤ 4 → s.hmk.good = 7 → s.get HMK_STAT.locked = 0 →
      (s.hmkLock θ p).get HMK_STAT.locked = 1 ∧ (s.hmkLock θ p).get HMK_EVT.locked = 1) ∧
  -- HMK_SET: loaded and valid, or refused under a parent or into the past
  (∀ (wr : Writer) (s : State), s.get HMK_STAT.parent_valid = 0 → (s.get HMK_STAT.valid = 0 ∨ s.now ≤ s.get HMK_SET.t) →
      s.Lands wr HMK_CTL.reg.addr →
      Completes (.hmkSet wr) s fun t => t.now = s.get HMK_SET.t ∧ t.get HMK_STAT.valid = 1 ∧ t.hmk = { s.hmk with frac := 0 } ∧
        SameBut [HMK_NOW.reg.addr, HMK_STAT.reg.addr] { s with hmk := t.hmk } t) ∧
  (∀ (wr : Writer) (s : State), s.get HMK_STAT.parent_valid ≠ 0 ∨ (s.get HMK_STAT.valid ≠ 0 ∧ s.get HMK_SET.t < s.now) →
      s.Lands wr HMK_CTL.reg.addr →
      Completes (.hmkSet wr) s fun t => t.now = s.now ∧ t.get HMK_EVT.set_denied = 1 ∧ (∃ x, t.clhIn = recInsert x s.clhIn ∧ x.kind = kHMK_SET_DENIED) ∧
        SameBut [HMK_EVT.reg.addr] { s with clhIn := t.clhIn } t) ∧
  -- HMK_SET_AT_PPS: the load is pending
  (∀ (wr : Writer) (s : State), s.Lands wr HMK_CTL.reg.addr →
      Completes (.hmkSetAtPps wr) s fun t => t.get HMK_CTL.pending = 1 ∧ SameBut [HMK_CTL.reg.addr] s t) ∧
  -- PPS_IN_EDGE: a pending load is made at the edge
  (∀ s : State, s.get HMK_CFG.ext_en = 0 → s.get HMK_CTL.pending ≠ 0 → s.get HMK_STAT.parent_valid = 0 → s.get HMK_STAT.valid = 0 →
      Completes .ppsInEdge s fun t => t.now = s.get HMK_SET.t ∧ t.get HMK_STAT.valid = 1 ∧ t.get HMK_CTL.pending = 0) ∧
  -- otherwise a grandmaster with an external reference records the offset and steers to it
  (∀ s : State, s.get HMK_CFG.ext_en ≠ 0 → s.get HMK_CTL.pending = 0 → s.get HMK_STAT.grandmaster ≠ 0 → 2 * (s.now % 4000000000) < 4000000000 →
      Completes .ppsInEdge s fun t => ∃ u : State, t = u.hmkSteer (-(s.now % 4000000000 : Nat)) (-(s.now % 4000000000 : Nat)) 0xFF ∧
        u.get HMK_EXT_OFFSET.e = trunc 32 (-(s.now % 4000000000 : Nat)) ∧ u.now = s.now) ∧
  -- HMK_EXT_LOST: the external reference is not used until it is back, with its event and record
  (∀ (s : State) x, s.get HMK_CFG.ext_en ≠ 0 → s.hmk.lastEdge = some x →
      Completes .hmkExtLost s fun t => t.get HMK_STAT.ext_ok = 0 ∧ t.get HMK_EVT.ext_lost = 1 ∧
        t.hmk = { s.hmk with lastEdge := none, extEdges := 0, extLost := true } ∧
        (∃ x, t.clhIn = recInsert x s.clhIn ∧ x.kind = kHMK_EXT_LOST) ∧
        SameBut [HMK_STAT.reg.addr, HMK_EVT.reg.addr] { s with hmk := t.hmk, clhIn := t.clhIn } t) ∧
  -- PPS_OUT_PULSE: when the count has passed a multiple of the period the pin rises, once, and falls again after the width; else nothing happens
  (∀ (s : State) m, s.ppsOn = true → s.passed (s.get HMK_PPS_OUT.period_us) = some m → s.hmk.ppsMark ≠ some m →
      Completes .ppsOutPulse s fun t => t.out = .pin .ppsOut true :: s.out ∧
        t = { s with hmk := { s.hmk with ppsMark := some m, ppsFall := some (s.clk + s.get HMK_PPS_OUT.width_ns) }, out := t.out }) ∧
  (∀ s : State, s.passed (s.get HMK_PPS_OUT.period_us) = none → Completes .ppsOutPulse s fun t => t = s) ∧
  (∀ (s : State) (us : Nat), us ≠ 0 → s.passed us =
      if s.hmk.prev / (4000 * us) < s.now / (4000 * us) then some (s.now / (4000 * us) * (4000 * us)) else none) ∧
  -- HMK_TIMER_FIRE: an enabled timer whose time has come casts its votes, once
  (∀ (i : Fin 8) (s : State), s.get (HMK_TIMER1.enable i.val) ≠ 0 → s.get (HMK_TIMER0.t i.val) ≤ s.now →
      Completes (.hmkTimerFire i) s fun t => ∃ u : State, t = (bitsOf 64 (s.get (PWR_TIMER_MASK.mask i.val))).foldl (fun s d => s.castLease d 10) u ∧
        u.get (HMK_TIMER1.enable i.val) = 0 ∧ u.get (HMK_TIMER1.fired i.val) = 1 ∧ SameBut [(HMK_TIMER1.reg i.val).addr] s u)

/-- Records (parts of 11 R414, R416, R417, R419, R420). -/
def Obligations.ClearingHouseCompletes : Prop :=
  -- CLEARING_HOUSE_RECORD: stored or lost, its reactions, the fault pin; a FATAL one makes an internal device reset due
  (∀ (s : State) r rest, s.clhIn = r :: rest → s.dom 1 ≠ dOff → r.sev ≠ 5 →
      Completes .clearingHouseRecord s fun t => ∃ u x, State.clhStore { s with clhIn := rest } r = (x, u) ∧
        t = (((u.clhReact x).recordAer x).asyRecord x).clhUpd) ∧
  (∀ (s : State) r rest, s.clhIn = r :: rest → s.dom 1 ≠ dOff → r.sev = 5 →
      Completes .clearingHouseRecord s fun t => ∃ u v : State, ∃ x, State.clhStore { s with clhIn := rest } r = (x, u) ∧
        v = (((u.clhReact x).recordAer x).asyRecord x).setWords CLH_LAST_FATAL.reg (recWords x 0) ∧
        t = State.clhUpd { v with boot := { v.boot with resetDue := v.boot.resetDue <|> some 2 } }) ∧
  -- while the IZG domain is off it is lost: the highest severity so lost is kept, and the next record stored says so
  (∀ (s : State) r rest, s.clhIn = r :: rest → s.dom 1 = dOff → r.sev ≠ 5 → r.sev < 16 →
      Completes .clearingHouseRecord s fun t => ∃ u : State, t = u.bump CLH_CNT_LOST.ev ∧ u.clh = { s.clh with lostNext := true } ∧
        u.get CLH_STAT.lost_sev = (if s.get CLH_STAT.lost_sev = 15 ∨ s.get CLH_STAT.lost_sev < r.sev then r.sev else s.get CLH_STAT.lost_sev) ∧
        u.clhIn = rest ∧ SameBut [CLH_STAT.reg.addr] { s with clhIn := rest, clh := u.clh } u) ∧
  -- a record whose slot is free: its words, and the producer index
  (∀ (s : State) (r : Record), tget s.clh.live (s.get CLH_PROD.prod % 4096) = none →
      ∃ u : State, (s.clhStore r).2 = u.bump CLH_CNT_RAISED.ev ∧ u.get CLH_PROD.prod = (s.get CLH_PROD.prod + 1) % 2 ^ 32 ∧
        (∀ k, k < 4 → (u.word (CLH_RING.reg (s.get CLH_PROD.prod % 4096) k)).toNat =
          (recWords { r with lost := s.clh.lostNext } 0).getD k 0 % 2 ^ 64) ∧ u.clh.lostNext = false) ∧
  -- a record whose slot is not: lost, and the next one stored says so
  (∀ (s : State) (r : Record) k, tget s.clh.live (s.get CLH_PROD.prod % 4096) = some k →
      ∃ u : State, (s.clhStore r).2 = u.bump CLH_CNT_LOST.ev ∧ u.clh = { s.clh with lostNext := true } ∧
        u.get CLH_PROD.prod = s.get CLH_PROD.prod) ∧
  -- CLH_ACK_WRITE within the records stored: those below the index are cleared, and with all of them the severity lost
  (∀ (wr : Writer) (v : Word) (s : State), subMod m32 (v.toNat % 2 ^ 32) (s.get CLH_ACK.ack) ≤ subMod m32 (s.get CLH_PROD.prod) (s.get CLH_ACK.ack) →
      s.Lands wr CLH_ACK.reg.addr → Completes (.clhAckWrite wr v) s fun t => ∃ u : State, t = u.clhUpd ∧ u.get CLH_ACK.ack = v.toNat % 2 ^ 32 ∧
        u.get CLH_STAT.lost_sev = (if v.toNat % 2 ^ 32 = s.get CLH_PROD.prod then 15 else s.get CLH_STAT.lost_sev) ∧ u.clh.latchHeld = false ∧
        u.clh.live = s.clh.live.filter (fun x => decide (subMod 4096 x.1 (v.toNat % 2 ^ 32 % 4096) <
          subMod m32 (s.get CLH_PROD.prod) (v.toNat % 2 ^ 32))) ∧ SameBut [CLH_ACK.reg.addr, CLH_STAT.reg.addr] { s with clh := u.clh, hls := u.hls, fns := u.fns, out := u.out } u) ∧
  -- one beyond them clears nothing
  (∀ (wr : Writer) (v : Word) (s : State), subMod m32 (s.get CLH_PROD.prod) (s.get CLH_ACK.ack) < subMod m32 (v.toNat % 2 ^ 32) (s.get CLH_ACK.ack) →
      s.Lands wr CLH_ACK.reg.addr → Completes (.clhAckWrite wr v) s fun t => ∃ u : State, t = u.clhUpd ∧
        u = { s with clh := { s.clh with latchHeld := false } }) ∧
  -- FLASH_BATCH: the queue is written, or the write fails with a record
  (∀ s : State, s.clh.flashQ ≠ [] → s.pwr.pwrfail = false →
      Completes (.flashBatch true) s fun t => t.clh = { s.clh with flashQ := [] } ∧
        t.izg = { s.izg with summary := s.clh.flashQ.foldl summaryAdd s.izg.summary }) ∧
  (∀ s : State, s.clh.flashQ ≠ [] → s.pwr.pwrfail = false →
      Completes (.flashBatch false) s fun t => t = { s with clh := { s.clh with flashQ := [] }, clhIn := t.clhIn } ∧
        ∃ x, t.clhIn = recInsert x s.clhIn ∧ x.kind = kCLH_FLASH_FAIL)

/-- Snapshots and counters (parts of 11 R422 to R425, R429, R432; 00 R4). -/
def Obligations.AssayTallyCompletes : Prop :=
  -- ASSAY_ARM: armed, the previous snapshot is gone
  (∀ (wr : Writer) (s : State), s.Lands wr ASY_CTL.reg.addr →
      Completes (.assayArm wr) s fun t => t.get ASY_STAT.armed = 1 ∧ t.get ASY_CTL.arm = 1 ∧ t.get ASY_STAT.captured = 0 ∧
      (∀ i, i < 4096 → t.get (ASY_SNAP.value i) = 0) ∧ t = { s with regs := t.regs }) ∧
  -- ASSAY_TRIGGER, ASSAY_TRIG_IN_EDGE: a trigger with its source; one that finds Assay armed captures; another in the cycle of a capture
  -- lowers its source to the lowest code; any other is counted
  (∀ (wr : Writer) (s : State), s.Lands wr ASY_CTL.reg.addr → Completes (.assayTrigger wr) s fun t => t = s.asyTrigger 0) ∧
  (∀ s : State, s.get ASY_CFG.pin_in_en ≠ 0 → Completes .assayTrigInEdge s fun t => t = s.asyTrigger 1) ∧
  (∀ (s : State) (src : Nat), src < 4 → s.get ASY_STAT.armed ≠ 0 → s.get ASY_CFG.pin_out_en = 0 →
      (s.asyTrigger src).get ASY_STAT.armed = 0 ∧ (s.asyTrigger src).get ASY_STAT.captured = 1 ∧ (s.asyTrigger src).get ASY_STAT.source = src ∧
      (s.asyTrigger src).get ASY_TIME.t = s.stamp ∧
      s.asyTrigger src = { s with regs := (s.asyTrigger src).regs, hmk := { s.hmk with capturedAt := some s.clk } }) ∧
  (∀ (s : State) (src : Nat), s.get ASY_STAT.armed = 0 → s.hmk.capturedAt ≠ some s.clk → s.asyTrigger src = s.bump ASY_CNT_MISSED.ev) ∧
  (∀ (s : State) (src : Nat), s.get ASY_STAT.armed = 0 → s.hmk.capturedAt = some s.clk →
      (s.asyTrigger src).get ASY_STAT.source = min src (s.get ASY_STAT.source) ∧ SameBut [ASY_STAT.reg.addr] s (s.asyTrigger src)) ∧
  -- ASSAY_AT_TIME: the timed capture, with source 3, is taken when it is due
  (∀ s : State, s.get ASY_AT.valid ≠ 0 → 2 * s.get ASY_AT.t ≤ s.now → s.get ASY_STAT.armed ≠ 0 → s.get ASY_CFG.pin_out_en = 0 →
      Completes .assayAtTime s fun t => t.get ASY_AT.valid = 0 ∧ t.get ASY_STAT.armed = 0 ∧ t.get ASY_STAT.captured = 1 ∧
        t.get ASY_STAT.source = 3 ∧ t.get ASY_STAT.late = 0 ∧ t.get ASY_TIME.t = s.stamp ∧
        t = { s with regs := t.regs, hmk := t.hmk }) ∧
  -- ASSAY_AT for a time within a second: set and flooded
  (∀ (s u : State) m, s.Delivered 6 m u → u.get ASY_CFG.qs_en ≠ 0 → bit m.msg.payload 0 = false → u.now < m.msg.payload / 2 * 2 →
      m.msg.payload / 2 * 2 ≤ u.now + 4000000000 → m.msg.payload < 2 ^ 64 →
      Completes .assayAt s fun t => ∃ w : State, t = w.asyFlood m.msg.payload ∧ w.get ASY_AT.t = m.msg.payload / 2 ∧ w.get ASY_AT.valid = 1 ∧
        SameBut [ASY_AT.reg.addr] u w) ∧
  -- a flood that has been made is not made again
  (∀ (s : State) (w : Nat), (w % 2, w / 2 * 2) ∈ s.boot.asyFloods → s.asyFlood w = s) ∧
  -- TALLY_WRITE: the counter, or the half of it that the write covers
  (∀ (wr : Writer) (i : Fin 1024) (part : Part) (v : Word) (s : State), s.Lands wr (TLY_CNT.reg i.val).addr →
      Completes (.tallyWrite wr i part v) s fun t =>
      t.get (TLY_CNT.count i.val) = putPart part (s.get (TLY_CNT.count i.val)) v.toNat % 2 ^ 48 ∧
      SameBut [(TLY_CNT.reg i.val).addr] s t) ∧
  -- TALLY_LATCH_NOW, and TALLY_LATCH_PERIOD once the count has passed a multiple of the period: every counter is copied, with the time
  (∀ (wr : Writer) (s : State), s.Lands wr TLY_LATCH_CTL.reg.addr → Completes (.tallyLatchNow wr) s fun t => t.get TLY_LATCH_TIME.t = s.stamp ∧
      (∀ i, i < 1024 → tasc s.regs = true → t.get (TLY_LATCHED.count i) = s.get (TLY_CNT.count i)) ∧ t = { s with regs := t.regs }) ∧
  (∀ (s : State) m, s.passed (s.get TLY_LATCH_CTL.period_us) = some m → s.hmk.tlyMark ≠ some m → Completes .tallyLatchPeriod s fun t => t.get TLY_LATCH_TIME.t = s.stamp ∧
      (∀ i, i < 1024 → tasc s.regs = true → t.get (TLY_LATCHED.count i) = s.get (TLY_CNT.count i)) ∧
      t = { s with regs := t.regs, hmk := { s.hmk with tlyMark := some m } }) ∧
  (∀ s : State, s.passed (s.get TLY_LATCH_CTL.period_us) = none → Completes .tallyLatchPeriod s fun t => t = s)

/-! ## Resets and boot (13, 14) -/

/-- POR, the rails and the internal device reset (parts of 13 R464 to R469; 01 R28, R32). -/
def Obligations.ResetCommandsComplete : Prop :=
  -- POR_ASSERT: COLD; only what AON keeps across POR is left, and what the trip left only while VDD_AON is there
  (∀ (lost : Bool) (s : State), s.boot.por = false →
      Completes (.porAssert lost) s fun t => t.get PWR_TRIP.valid = (if lost then 0 else s.get PWR_TRIP.valid) ∧ t.boot.por = true ∧ t.boot.en = [] ∧ t.get TOP_STATE.svc_state = 0 ∧ t.get TOP_STATE.pwr_state = 3 ∧
        t.ports = [] ∧ t.accts = [] ∧ t.pwr.lossArea = s.pwr.lossArea) ∧
  -- POR_RELEASE: the straps are sampled, the first rail step begins, and entry into BOOT and into FULL are recorded, each with its bit
  (∀ (straps : BitVec 6) (s : State), s.boot.por = true →
      Completes (.porRelease straps) s fun t => t.boot.por = false ∧ t.boot.railStep = 1 ∧ t.get TOP_STRAP.boot = bf straps.toNat 0 1 ∧
        t.get TOP_STRAP.hlsplit = bf straps.toNat 1 4 ∧ t.get TOP_STRAP.safe = bf straps.toNat 5 1 ∧ t.get TOP_STATE.svc_state = 1 ∧
        t.get TOP_BOOT_STAT.stage = 1 ∧ t.get TOP_RESET_CAUSE.cause = 1 ∧
        t.get TOP_STATE_EVT.to_boot = 1 ∧ t.get TOP_STATE_EVT.pwr_change = 1 ∧
        ∃ x y, t.clhIn = [x, y] ∧ x.kind = kSTATE_CHANGE ∧ y.kind = kSTATE_CHANGE) ∧
  -- RAIL_POWER_GOOD: the next rail is enabled; after the last one boot goes to stage 2
  (∀ s : State, s.boot.por = false → 1 ≤ s.boot.railStep → s.boot.railStep ≤ 4 →
      Completes .railPowerGood s fun t => ∃ e, railEn s.boot.railStep = some e ∧
        t = { s with boot := { s.boot with railStep := s.boot.railStep + 1, en := addMem s.boot.en e }, out := .pin (.en e) true :: s.out }) ∧
  (∀ s : State, s.boot.por = false → 5 ≤ s.boot.railStep →
      Completes .railPowerGood s fun t => t.get TOP_BOOT_STAT.stage = 2 ∧ t.boot = { s.boot with railStep := 0, railsUp := true } ∧
        SameBut [TOP_BOOT_STAT.reg.addr] { s with boot := t.boot } t) ∧
  -- RAIL_TIMEOUT: error 1, with the step, and every rail off
  (∀ s : State, s.boot.por = false → 1 ≤ s.boot.railStep → s.boot.railStep < 8 →
      Completes .railTimeout s fun t => t.get TOP_BOOT_STAT.error = 1 ∧ t.get TOP_BOOT_STAT.fail_step = s.boot.railStep ∧ t.boot.en = [] ∧
        SameBut [TOP_BOOT_STAT.reg.addr] { s with boot := t.boot, out := t.out } t) ∧
  -- RESET_CTL_WRITE of the key: a reset of cause 3 is due; any other value does nothing
  (∀ (wr : Writer) (v : Word) (s : State), bf v.toNat 0 16 = 0xC0DE → s.boot.por = false → s.pwr.tripped = false → s.boot.resetDue = none →
      s.Lands wr TOP_RESET_CTL.reg.addr → Completes (.resetCtlWrite wr v) s fun t => t = { s with boot := { s.boot with resetDue := some 3 } }) ∧
  (∀ (wr : Writer) (v : Word) (s : State), bf v.toNat 0 16 ≠ 0xC0DE → s.Lands wr TOP_RESET_CTL.reg.addr →
      Completes (.resetCtlWrite wr v) s fun t => t = s) ∧
  -- INTERNAL_DEVICE_RESET: what Table 13.1 keeps, and boot from the clock step
  (∀ (s : State) c, s.boot.resetDue = some c → s.boot.por = false → s.pwr.tripped = false → s.boot.railsUp = true → c < 8 →
      Completes .internalDeviceReset s fun t => ∃ u : State, t = ((List.range 8).foldl State.hostVotes u).activityUpd.clhUpd ∧
        u.boot.resetDue = none ∧ u.get TOP_BOOT_STAT.stage = 2 ∧ u.get TOP_RESET_CAUSE.cause = c ∧ u.hmk = s.hmk ∧ u.ports = [] ∧ u.accts = [] ∧
        u.boot.fuses = s.boot.fuses ∧ u.get TOP_STATE.svc_state = 1 ∧ u.get TOP_STATE.pwr_state = 0) ∧
  -- a FATAL record on its way calls for it at once, with cause 2; without a cause nothing happens
  (∀ s : State, s.boot.resetDue = none → s.boot.por = false → s.pwr.tripped = false → s.boot.railsUp = true →
      (s.clhIn.any fun r => r.sev == 5) = true →
      Completes .internalDeviceReset s fun t => ∃ u : State, t = ((List.range 8).foldl State.hostVotes u).activityUpd.clhUpd ∧
        u.get TOP_BOOT_STAT.stage = 2 ∧ u.get TOP_RESET_CAUSE.cause = 2 ∧ u.ports = [] ∧ u.accts = []) ∧
  (∀ s : State, s.stopping = false → Completes .internalDeviceReset s fun t => t = s) ∧
  -- after a rail has failed none takes place: the device stays as it is until POR
  (∀ s : State, s.boot.railsUp = false → Completes .internalDeviceReset s fun t => t = s)

/-- The stages of boot (parts of 13 R466, R470, R471; 14 R494, R495, R500, R507, R515). -/
def Obligations.BootStagesComplete : Prop :=
  -- BOOT_PLL_LOCK: Izger votes for the host ports, and the fuses are next
  (∀ s : State, s.inStage 2 = true → Completes (.bootPllLock true) s fun t => ∃ u : State,
      t = [2, 3, 4, 5].foldl (fun s d => s.vote d 8 true) u ∧ u.get TOP_BOOT_STAT.stage = 3 ∧ SameBut [TOP_BOOT_STAT.reg.addr] s u) ∧
  -- FUSE_READ: what the fuses hold is known, and a bank may boot
  (∀ (f : Fuses) (s : State), s.inStage 3 = true → s.boot.fuses = none → s.get TOP_STRAP.boot = 0 → s.bootBanks ≠ [] →
      Completes (.fuseRead f) s fun t => t.get TOP_BOOT_STAT.stage = 4 ∧ t.boot.fuses = some f ∧ t.boot.head = f.serial.toNat ∧
        t.get SEC_SERIAL.serial = f.serial.toNat ∧ t.get SEC_LIFECYCLE.state = f.lifecycle.toNat ∧
        t.get SEC_LIFECYCLE.owner_valid = f.enrolled.toNat ∧ t.get SEC_LIFECYCLE.svn_floor = f.svnFloor.toNat ∧
        t.get TOP_BOOT_STAT.recovery = s.get TOP_BOOT_STAT.recovery) ∧
  -- with the boot strap high: recovery
  (∀ (f : Fuses) (s : State), s.inStage 3 = true → s.get TOP_STRAP.boot ≠ 0 →
      Completes (.fuseRead f) s fun t => t.get TOP_BOOT_STAT.stage = 4 ∧ t.get TOP_BOOT_STAT.recovery = 1 ∧ t.get TOP_BOOT_STAT.error = 0) ∧
  -- FIRST_STAGE_VERIFY of a bank that is not PENDING: it runs, or the bank is rejected
  (∀ (img : FlashRead) (s : State) b r, s.firstWaits = true → s.bootBanks = b :: r →
      s.izg.bankState.getD b 0 ≠ bkPENDING →
      Completes (.firstStageVerify img) s fun t =>
        t = (if s.imageOk img envFIRST = true then (s.set TOP_BOOT_STAT.bank b).firstStage (img.getD []) else s.bankReject b)) ∧
  -- of a PENDING one: one of its tries is used first
  (∀ (img : FlashRead) (s : State) b r, s.firstWaits = true → s.bootBanks = b :: r →
      s.izg.bankValid = true → s.izg.bankState.getD b 0 = bkPENDING →
      Completes (.firstStageVerify img) s fun t => ∃ u : State, u = s.bankWrite (fun z => { z with bankTries := z.bankTries - 1 }) ∧
        t = (if u.imageOk img envFIRST = true then (u.set TOP_BOOT_STAT.bank b).firstStage (img.getD []) else u.bankReject b)) ∧
  -- what makes an image verify: it has been read, its envelope verifies for its kind, and it is not below the floor
  (∀ (img : FlashRead) (kind : Nat) (s : State), s.imageOk img kind = true ↔ ∃ b, img = some b ∧ s.envOk kind b = true ∧
      s.get SEC_LIFECYCLE.svn_floor ≤ imgSvn b) ∧
  -- in OWNED, an image's envelope verifies when it is one of its kind whose body is there, the body's digest is the one it gives, and both
  -- signatures verify, under the vendor's root key and a live owner's key; a main image's resident section is at most 2 MiB
  (∀ (b : List Byte) (kind : Nat) (s : State) (f : Fuses), (kind = envFIRST ∨ kind = envMAIN) → s.get SEC_LIFECYCLE.state = 2 →
      s.boot.fuses = some f → (s.envOk kind b = true ↔
        b.take 8 = asciiBytes "KFNIMG01" ∧ leAt b 8 1 = kind ∧ 320 + leAt b 16 4 ≤ b.length ∧ (kind = envMAIN → leAt b 20 4 ≤ 2 ^ 21) ∧
        BitVec.ofNat 512 (leAt b 24 64) = Config.sha512 ((b.drop 320).take (leAt b 16 4)) ∧
        f.rootHash = Config.sha512 (slice b 88 32) ∧ edVerify (leAt b 88 32) (b.take 120) (leAt b 120 64) = true ∧
        s.ownerKey (slice b 184 32) = true ∧ edVerify (leAt b 184 32) (b.take 216) (leAt b 216 64) = true)) ∧
  -- a bank that is rejected is not tried again; with none left, recovery
  (∀ (b : Nat) (s : State), ∃ u : State, s.bankReject b = (if u.bootBanks = [] then u.recover 2 else u) ∧ u.get TOP_BOOT_STAT.stage = 4 ∧
      u.boot = { s.boot with bootFault := orBit s.boot.bootFault b }) ∧
  -- what it is for a first stage to run: the DevID key is there in PROVISIONED and OWNED unless debug access has been opened, and the unique
  -- device secret can be read no more
  (∀ (b : List Byte) (s : State), (s.firstStage b).get TOP_BOOT_STAT.stage = 6 ∧ (s.firstStage b).izg.svn1 = imgSvn b ∧
      (s.firstStage b).uds = none ∧
      (s.boot.udsHidden = false → (s.firstStage b).izg.devSeed.isSome = ((s.get SEC_LIFECYCLE.state == 1 || s.get SEC_LIFECYCLE.state == 2) &&
        !s.on SEC_LIFECYCLE.debug_unlocked && s.uds.isSome))) ∧
  -- RECOVERY_IMAGE_LOAD of an image that verifies: it runs; of another: nothing
  (∀ (img : FlashRead) (s : State), s.inStage 4 = true → s.get TOP_BOOT_STAT.recovery ≠ 0 → s.imageOk img envFIRST = true →
      Completes (.recoveryImageLoad img) s fun t => t = s.firstStage (img.getD [])) ∧
  (∀ (img : FlashRead) (s : State), s.imageOk img envFIRST = false → Completes (.recoveryImageLoad img) s fun t => t = s) ∧
  -- MAIN_FIRMWARE_VERIFY of an image that verifies: it runs; of another: its bank is rejected, or recovery goes on
  (∀ (img : FlashRead) (s : State), s.inStage 6 = true → s.imageOk img envMAIN = true →
      Completes (.mainFirmwareVerify img) s fun t => t = s.mainFirmware (img.getD [])) ∧
  (∀ (img : FlashRead) (s : State), s.inStage 6 = true → s.imageOk img envMAIN = false →
      Completes (.mainFirmwareVerify img) s fun t =>
        t = (if s.get TOP_BOOT_STAT.recovery ≠ 0 then s.set TOP_BOOT_STAT.stage 4 else s.bankReject (s.get TOP_BOOT_STAT.bank))) ∧
  (∀ (img : List Byte) (s : State), s.pwr.pwrfailPin = false →
      (s.mainFirmware img).get TOP_BOOT_STAT.stage = 7 ∧ (s.mainFirmware img).get IZG_FW_STAT.bank = s.get TOP_BOOT_STAT.bank ∧
      (s.mainFirmware img).get IZG_FW_STAT.svn = imgSvn img ∧ (s.mainFirmware img).get IZG_FW_STAT.generation = imgGen img ∧
      (s.mainFirmware img).izg.region = s.izg.region.set s.izg.fwRegion (imgRes img) ∧
      (s.mainFirmware img).izg.aliasSeed.isSome = s.izg.devSeed.isSome) ∧
  -- PROVISIONING_APPLY: with STRAP_SAFE high nothing of the store is applied; a store that does not verify raises PROV_BAD
  (∀ (p : ProvRead) (s : State), s.inStage 7 = true → s.get TOP_STRAP.safe ≠ 0 →
      Completes (.provisioningApply p) s fun t => t = (State.repairApply { s with izg := { s.izg with chain := p.chain } }).set TOP_BOOT_STAT.stage 8) ∧
  (∀ (p : ProvRead) (s : State), s.inStage 7 = true → s.get TOP_STRAP.safe = 0 → s.envOk envSTORE (p.store.getD []) = false →
      Completes (.provisioningApply p) s fun t => t.get TOP_BOOT_STAT.stage = 8 ∧ ∃ x, t.clhIn = recInsert x s.clhIn ∧ x.kind = kPROV_BAD) ∧
  (∀ (p : ProvRead) (s : State), s.inStage 7 = true → s.get TOP_STRAP.safe = 0 → s.envOk envSTORE (p.store.getD []) = true →
      Completes (.provisioningApply p) s fun t => ∃ u v : State, v = State.setMeas { u with boot := { u.boot with prov :=
          { ok := true, targets := p.targets.foldl (fun t (x : PortNo × BitVec 4) => tput t x.1.val x.2.toNat) [] } } } 3
            (imgMeas (p.store.getD [])) ∧
        u = p.writes.foldl (fun s (a, v) => s.provWrite a.toNat v.toNat)
          ((State.repairApply { s with izg := { s.izg with chain := p.chain } }).set TOP_BOOT_STAT.stage 8) ∧
        t = match p.plan with
          | none => v
          | some b => if v.envOk envPLAN b = true ∧ planWell (imgBody b) = true then (v.setMeas 4 (imgMeas b)).planApply (imgBody b)
            else v.raise kPLAN_BAD (srcOf 4 0) 0 0) ∧
  -- a cabling plan that lists this device gives it its endpoint; it says which devices there are
  (∀ (b : List Byte) (s : State), (s.planApply b).boot.plan = some (planEntries b) ∧ (s.planApply b).get TOP_BOOT_STAT.coord_src = 1 ∧
      ∀ e, tget (planEntries b) s.serial = some e → (s.planApply b).get TOP_BOOT_STAT.coords_fixed = 1 ∧
        (s.planApply b).get RTE_CFG.d0 = epD0 e ∧ (s.planApply b).get RTE_CFG.d1 = epD1 e ∧ (s.planApply b).get RTE_CFG.group = epGroup e) ∧
  -- the repair map is applied: its rows are redirected, and each bank shows how many spares that takes
  (∀ s : State, s.repairApply.izg = { s.izg with spared := s.izg.repairMap, repairQ := [] } ∧
      (∀ b, b < 24 → (s.izg.repairMap.filter fun (x, _) => x == b).length < 128 →
        s.repairApply.get (IZG_SRAM_SPARE.used b) = (s.izg.repairMap.filter fun (x, _) => x == b).length)) ∧
  -- BOOT_PORTS_RESET: REDUCED; host links that are up become ready, every provisioned port starts its reset, and
  -- with none the device goes on at once
  (∀ s : State, s.inStage 8 = true → s.get TOP_STATE.svc_state = 1 →
      let w := s.writeTables
      let u := State.enterSvc (State.bootQueue (if s.boot.bootFault = 0 then w else w.raise kIMAGE_BAD (srcOf 4 0) 0 0)) 2
      let r := (u.presentHls.filter fun n => u.on (HBI_LINK_STAT.dl_up n) && !(u.hl n).ready).foldl State.hostReady u
      let v := (ports64.filter w.provisioned).foldl State.startReset r
      Completes .bootPortsReset s fun t =>
        t = (if (ports64.filter v.provisioned).isEmpty then (v.enterSvc (if v.fullCond then 3 else 4)).settle else v.settle))

/-- Firmware (parts of 14 R506 to R510, R518). -/
def Obligations.FirmwareCompletes : Prop :=
  -- FW_LOAD: the bank is WRITING, and the copy runs
  (∀ (wr : Writer) (b : Fin 2) (s : State), s.fwTakes = true → s.pwr.pwrfail = false → s.awaitsImage = false → (s.fwCmd b.val 1).bankHeld b.val = false →
      s.Lands wr IZG_FW_CTL.reg.addr →
      Completes (.fwLoad wr b) s fun t => t.get IZG_FW_CTL.done = 0 ∧ t.get IZG_FW_CTL.bank = b.val ∧ t.get IZG_FW_CTL.cmd = 1 ∧
        t.izg.loading = some b.val ∧ t.izg.bankState = s.izg.bankState.set b.val bkWRITING ∧
        SameBut [IZG_FW_CTL.reg.addr] { s with izg := t.izg, out := t.out } t) ∧
  -- a bank that runs, or the only one that may boot: BANK
  (∀ (wr : Writer) (b : Fin 2) (s : State), s.fwTakes = true → s.pwr.pwrfail = false → s.awaitsImage = false → (s.fwCmd b.val 1).bankHeld b.val = true →
      s.Lands wr IZG_FW_CTL.reg.addr →
      Completes (.fwLoad wr b) s fun t => t.get IZG_FW_CTL.result = 4 ∧ t.get IZG_FW_CTL.done = 1 ∧ SameBut [IZG_FW_CTL.reg.addr] s t) ∧
  -- FW_LOAD_DONE of a good image: READY
  (∀ (img : FlashRead) (s : State) b, s.izg.loading = some b → s.pwr.pwrfail = false → s.imageResult img s.loadKinds 7 = none → s.awaitsImage = false →
      Completes (.fwLoadDone img true) s fun t => t.get IZG_FW_CTL.result = 0 ∧ t.get IZG_FW_CTL.done = 1 ∧ t.izg.loading = none ∧
        t.izg.bankState = s.izg.bankState.set b bkREADY ∧ t.izg.bankGen = s.izg.bankGen.set b (imgGen (img.getD [])) ∧
        t.izg.bankSvn = s.izg.bankSvn.set b (imgSvn (img.getD [])) ∧ SameBut [IZG_FW_CTL.reg.addr] { s with izg := t.izg, out := t.out } t) ∧
  -- of one that could not be read (7), whose envelope fails (2), or that is below the floor (3): its result, and the bank stays WRITING
  (∀ (img : FlashRead) (s : State) b r, s.izg.loading = some b → s.pwr.pwrfail = false → s.imageResult img s.loadKinds 7 = some r →
      Completes (.fwLoadDone img true) s fun t => t.get IZG_FW_CTL.result = r ∧ t.get IZG_FW_CTL.done = 1 ∧
        t.izg = { s.izg with loading := none } ∧ SameBut [IZG_FW_CTL.reg.addr] { s with izg := t.izg } t) ∧
  (∀ (img : FlashRead) (ks : List Nat) (n : Nat) (s : State), s.imageResult img ks n = match img with
      | none => some n
      | some b => if (ks.any fun k => s.envOk k b) = false then some 2 else if imgSvn b < s.get SEC_LIFECYCLE.svn_floor then some 3 else none) ∧
  -- FW_ACTIVATE of a READY bank with a healthy standby pair: requests are held from now on
  (∀ (wr : Writer) (b : Fin 2) (img : FlashRead) (s : State), s.fwTakes = true → s.izgRuns = true → s.pwr.pwrfail = false → s.bankSt b.val = bkREADY →
      s.get IZG_PAIR_STAT.standby_ok ≠ 0 → s.imageResult img [envMAIN] 9 = none → s.fmtOk (img.getD []) = true →
      s.Lands wr IZG_FW_CTL.reg.addr → Completes (.fwActivate wr b img) s fun t => t.get IZG_FW_CTL.done = 0 ∧
        t.izg.activating = some { bank := b.val, gen := imgGen (img.getD []), svn := imgSvn (img.getD []), meas := imgMeas (img.getD []),
                                  fmt := imgFmt (img.getD []), res := imgRes (img.getD []) } ∧
        SameBut [IZG_FW_CTL.reg.addr] { s with izg := t.izg } t) ∧
  -- without one: NO_STANDBY
  (∀ (wr : Writer) (b : Fin 2) (img : FlashRead) (s : State), s.fwTakes = true → s.izgRuns = true → s.pwr.pwrfail = false → s.bankSt b.val = bkREADY →
      s.get IZG_PAIR_STAT.standby_ok = 0 →
      s.Lands wr IZG_FW_CTL.reg.addr →
      Completes (.fwActivate wr b img) s fun t => t.get IZG_FW_CTL.result = 5 ∧ t.get IZG_FW_CTL.done = 1 ∧ SameBut [IZG_FW_CTL.reg.addr] s t) ∧
  -- FW_HANDOVER: the other pair is active with the new image, whose bank is PENDING with three tries
  (∀ (s : State) f, s.izg.activating = some f → s.pwr.pwrfail = false → Completes .fwHandover s fun t => t = s.handover f) ∧
  (∀ (s : State) (f : FwImg), f.bank < 2 → f.svn < 256 → ∃ u : State, s.handover f = (u.fwEnd 0).serveHeld ∧
      u.get IZG_PAIR_STAT.active = 1 - s.get IZG_PAIR_STAT.active ∧ u.izg.activating = none ∧ u.izg.bankState = s.izg.bankState.set f.bank bkPENDING ∧
      u.izg.bankTries = 3 ∧ u.izg.spdm = [] ∧ u.izg.region = s.izg.region.set (1 - s.izg.fwRegion) f.res ∧ u.get IZG_FW_STAT.bank = f.bank ∧ u.get IZG_FW_STAT.svn = f.svn ∧ u.get IZG_FW_STAT.pending = 1) ∧
  -- FW_COMMIT of a PENDING bank: ACTIVE, the other FALLBACK
  (∀ (wr : Writer) (b : Fin 2) (ok : Bool) (s : State), s.fwTakes = true → s.izgRuns = true → s.pwr.pwrfail = false → s.bankSt b.val = bkPENDING →
      s.get IZG_FW_CFG.auto_floor = 0 →
      s.Lands wr IZG_FW_CTL.reg.addr →
      Completes (.fwCommit wr b ok) s fun t => t.get IZG_FW_CTL.result = 0 ∧ t.get IZG_FW_CTL.done = 1 ∧ t.get IZG_FW_STAT.pending = 0 ∧
        t.izg.bankState = (s.izg.bankState.set b.val bkACTIVE).set (1 - b.val) bkFALLBACK ∧ t.get SEC_LIFECYCLE.svn_floor = s.get SEC_LIFECYCLE.svn_floor) ∧
  (∀ (wr : Writer) (b : Fin 2) (ok : Bool) (s : State), s.fwTakes = true → s.izgRuns = true → s.pwr.pwrfail = false → s.bankSt b.val ≠ bkPENDING →
      s.Lands wr IZG_FW_CTL.reg.addr →
      Completes (.fwCommit wr b ok) s fun t => t.get IZG_FW_CTL.result = 8 ∧ t.get IZG_FW_CTL.done = 1 ∧ SameBut [IZG_FW_CTL.reg.addr] s t) ∧
  -- FW_BAD_CMD, a code of no command: STATE
  (∀ (wr : Writer) (v : Word) (s : State), s.fwTakes = true → bit v.toNat 62 = true → (bf v.toNat 1 3 = 0 ∨ 3 < bf v.toNat 1 3) →
      s.Lands wr IZG_FW_CTL.reg.addr →
      Completes (.fwBadCmd wr v) s fun t => t.get IZG_FW_CTL.result = 8 ∧ t.get IZG_FW_CTL.done = 1 ∧ SameBut [IZG_FW_CTL.reg.addr] s t) ∧
  -- AUTO_COMMIT: as COMMIT, unless a pair has failed since
  (∀ (ok : Bool) (s : State), s.izgRuns = true → s.pwr.pwrfail = false → s.izg.activating.isSome = false →
      s.bankSt (s.get IZG_FW_STAT.bank) = bkPENDING → s.izg.pairFailed = true →
      Completes (.autoCommit ok) s fun t => t.get IZG_FW_STAT.commit_blocked = 1 ∧ SameBut [IZG_FW_STAT.reg.addr] s t) ∧
  (∀ (ok : Bool) (s : State), s.izgRuns = true → s.pwr.pwrfail = false → s.izg.activating.isSome = false →
      s.bankSt (s.get IZG_FW_STAT.bank) = bkPENDING → s.izg.pairFailed = false → s.get IZG_FW_CFG.auto_floor = 0 →
      Completes (.autoCommit ok) s fun t => t.get IZG_FW_STAT.pending = 0 ∧ t.get IZG_FW_STAT.commit_blocked = 0 ∧
        t.izg.bankState = (s.izg.bankState.set (s.get IZG_FW_STAT.bank) bkACTIVE).set (1 - s.get IZG_FW_STAT.bank) bkFALLBACK ∧
        SameBut [IZG_FW_STAT.reg.addr] { s with izg := t.izg, out := t.out } t)

/-! ## Izger's service and security (14) -/

/-- Pairs, slices and SRAM repair (parts of 14 R490, R491, R512 to R515, R518; 02 R51). -/
def Obligations.ServiceCompletes : Prop :=
  -- PAIR_CHECKPOINT: the standby pair has the active pair's connections and certificates
  (∀ s : State, s.izgRuns = true → s.get IZG_PAIR_STAT.standby_ok ≠ 0 →
      Completes .pairCheckpoint s fun t => t = { s with izg := { s.izg with ckSpdm := s.izg.spdm, ckCerts := s.izg.certs } }) ∧
  -- IZG_LOCKSTEP of the active pair with a healthy standby: it takes over, and the failed one is tested
  (∀ (p : Fin 2) (s : State), s.boot.por = false → s.pwr.tripped = false → s.boot.railsUp = true → s.pairUp p.val = true →
      s.get IZG_PAIR_STAT.active = p.val → s.get IZG_PAIR_STAT.standby_ok ≠ 0 → s.izg.activating = none →
      Completes (.izgLockstep p) s fun t => t.get IZG_PAIR_STAT.active = 1 - p.val ∧ t.get IZG_PAIR_STAT.standby_ok = 0 ∧
        t.izg.testing = some p.val ∧ t.izg.spdm = s.izg.ckSpdm ∧ t.izg.certs = s.izg.ckCerts ∧ t.boot = s.boot ∧
        ∃ x, t.clhIn = recInsert x s.clhIn ∧ x.kind = kIZG_LOCKSTEP) ∧
  -- with none: an internal device reset of cause 4 is due
  (∀ (p : Fin 2) (s : State), s.boot.por = false → s.pwr.tripped = false → s.boot.railsUp = true → s.pairUp p.val = true →
      s.get IZG_PAIR_STAT.active = p.val → s.get IZG_PAIR_STAT.standby_ok = 0 → s.boot.resetDue = none →
      Completes (.izgLockstep p) s fun t => t.boot.resetDue = some 4 ∧ ∃ x, t.clhIn = recInsert x s.clhIn ∧ x.kind = kIZG_LOCKSTEP) ∧
  -- WATCHDOG_EXPIRY: as IZG_LOCKSTEP; WATCHDOG_KICK: the watchdog runs again
  (∀ (p : Fin 2) (s : State), p.val ∈ s.izg.watch → Completes (.watchdogExpiry p) s fun t => exec (.izgLockstep p) s = .next t) ∧
  (∀ (p : Fin 2) (s : State), s.pairUp p.val = true →
      Completes (.watchdogKick p) s fun t => p.val ∈ t.izg.watch ∧ t = { s with izg := t.izg } ∧
        t.izg = { s.izg with watch := t.izg.watch }) ∧
  -- PAIR_TAKEOVER: the other pair is active, from the last checkpoint
  (∀ (wr : Writer) (s : State), s.izgRuns = true → s.get IZG_PAIR_STAT.standby_ok ≠ 0 → s.izg.activating = none →
      s.Lands wr IZG_PAIR_CTL.reg.addr → Completes (.pairTakeover wr) s fun t => t.get IZG_PAIR_STAT.active = 1 - s.get IZG_PAIR_STAT.active ∧
        t.get IZG_PAIR_STAT.takeovers = min 255 (s.get IZG_PAIR_STAT.takeovers + 1) ∧ t.get IZG_PAIR_STAT.standby_ok = 1 ∧
        t.izg.spdm = s.izg.ckSpdm ∧ t.get IZG_MBOX_CTL.to_izg = 0) ∧
  -- PAIR_SELF_TEST_DONE of a pair's test at a reset: it is healthy, or it fails as by IZG_LOCKSTEP
  (∀ (p : Fin 2) (pass : Bool) (s : State), p.val ∈ s.izg.selfTest →
      Completes (.pairSelfTestDone p pass) s fun t => ∃ u : State, t = (if pass then u else u.pairFail p.val) ∧
        u = { s with izg := { s.izg with selfTest := s.izg.selfTest.filter (· != p.val) } }) ∧
  -- of one under test after a failure: it is the standby again, or is out of service
  (∀ (p : Fin 2) (s : State), p.val ∉ s.izg.selfTest → s.izg.testing = some p.val →
      Completes (.pairSelfTestDone p true) s fun t => t.get IZG_PAIR_STAT.standby_ok = 1 ∧ t.izg.testing = none ∧ p.val ∈ t.izg.watch ∧
        SameBut [IZG_PAIR_STAT.reg.addr] { s with izg := t.izg } t) ∧
  (∀ (p : Fin 2) (s : State), p.val ∉ s.izg.selfTest → s.izg.testing = some p.val →
      Completes (.pairSelfTestDone p false) s fun t => bit (t.get IZG_PAIR_STAT.failed) p.val = true ∧ t.izg = { s.izg with testing := none } ∧
        SameBut [IZG_PAIR_STAT.reg.addr] { s with izg := t.izg } t) ∧
  -- SLICE_FAULT of a slice in use, with a spare: swapped, with a record
  (∀ (k : Fin 9) (s : State), s.get IZG_SLICE_STAT.spare < 9 → s.get IZG_SLICE_STAT.spare ≠ k.val →
      bit (s.get IZG_SLICE_STAT.in_use) k.val = true →
      Completes (.sliceFault k) s fun t => t.get IZG_SLICE_STAT.spare = 15 ∧ bit (t.get IZG_SLICE_STAT.in_use) k.val = false ∧
        bit (t.get IZG_SLICE_STAT.in_use) (s.get IZG_SLICE_STAT.spare) = true ∧ t.izg = { s.izg with sliceTest := some k.val } ∧
        (∃ x, t.clhIn = recInsert x s.clhIn ∧ x.kind = kSLICE_SWAP) ∧
        SameBut [IZG_SLICE_STAT.reg.addr] { s with izg := t.izg, clhIn := t.clhIn } t) ∧
  -- with none: the slice is lost
  (∀ (k : Fin 9) (s : State), 9 ≤ s.get IZG_SLICE_STAT.spare → bit (s.get IZG_SLICE_STAT.in_use) k.val = true →
      Completes (.sliceFault k) s fun t => ∃ u : State, t = u.settle ∧ bit (u.get IZG_SLICE_STAT.in_use) k.val = false ∧
        bit (u.get IZG_SLICE_STAT.failed) k.val = true ∧ ∃ x, u.clhIn = recInsert x s.clhIn ∧ x.kind = kSLICE_LOST) ∧
  -- SLICE_SELF_TEST of the slice swapped out: it is the spare, or it has failed
  (∀ (ok : Bool) (s : State) k, s.izg.sliceTest = some k → k < 9 →
      Completes (.sliceSelfTest ok) s fun t => t.izg = { s.izg with sliceTest := none } ∧
        (if ok then t.get IZG_SLICE_STAT.spare = k else bit (t.get IZG_SLICE_STAT.failed) k = true) ∧
        SameBut [IZG_SLICE_STAT.reg.addr] { s with izg := t.izg } t) ∧
  -- SLICE_SWAP_CMD of a slice in use, with a spare: swapped; without one: result 1
  (∀ (wr : Writer) (v : Word) (s : State), bit v.toNat 62 = true → s.get IZG_SLICE_STAT.spare < 9 → bf v.toNat 0 4 < 9 →
      bit (s.get IZG_SLICE_STAT.in_use) (bf v.toNat 0 4) = true →
      s.Lands wr IZG_SLICE_CTL.reg.addr →
      Completes (.sliceSwapCmd wr v) s fun t => t.get IZG_SLICE_CTL.result = 0 ∧ t.get IZG_SLICE_CTL.slice = bf v.toNat 0 4 ∧
        t.izg = { s.izg with sliceTest := some (bf v.toNat 0 4) } ∧
        t.get IZG_SLICE_STAT.swaps = min 65535 (s.get IZG_SLICE_STAT.swaps + 1)) ∧
  (∀ (wr : Writer) (v : Word) (s : State), bit v.toNat 62 = true → 9 ≤ s.get IZG_SLICE_STAT.spare →
      s.Lands wr IZG_SLICE_CTL.reg.addr →
      Completes (.sliceSwapCmd wr v) s fun t => t.get IZG_SLICE_CTL.result = 1 ∧ SameBut [IZG_SLICE_CTL.reg.addr] s t) ∧
  -- SRAM_ERROR, corrected, below the limit of its row
  (∀ (b : Fin 24) (row : Fin 8192) (w : Fin 128) (s : State), s.rowCount b.val row.val + 1 < s.get IZG_SRAM_CFG.ce_limit →
      Completes (.sramError b row w false) s fun t =>
        t.get (IZG_SRAM_SPARE.corrected b.val) = min 65535 (s.get (IZG_SRAM_SPARE.corrected b.val) + 1) ∧
        t.rowCount b.val row.val = s.rowCount b.val row.val + 1 ∧
        (∃ x, t.clhIn = recInsert x s.clhIn ∧ x.kind = kSRAM_CE ∧ x.addr = sramAddr b.val row.val w.val) ∧
        SameBut [(IZG_SRAM_SPARE.reg b.val).addr] { s with izg := t.izg, clhIn := t.clhIn } t) ∧
  -- uncorrectable, outside the Vault banks: counted, and the row is spared
  (∀ (b : Fin 24) (row : Fin 8192) (w : Fin 128) (s : State), 4 ≤ b.val → (b.val < 6 ∨ 10 ≤ b.val) →
      s.get (IZG_SRAM_SPARE.used b.val) < 63 →
      Completes (.sramError b row w true) s fun t =>
        t.get (IZG_SRAM_SPARE.uncorrectable b.val) = min 65535 (s.get (IZG_SRAM_SPARE.uncorrectable b.val) + 1) ∧
        t.get (IZG_SRAM_SPARE.used b.val) = s.get (IZG_SRAM_SPARE.used b.val) + 1 ∧
        t.izg = { s.izg with spared := s.izg.spared ++ [(b.val, row.val)], repairQ := s.izg.repairQ ++ [(b.val, row.val)] } ∧
        (∃ x y, t.clhIn = recInsert y (recInsert x s.clhIn) ∧ x.kind = kSRAM_UE ∧ y.kind = kSRAM_ROW_SPARED)) ∧
  -- in a Vault bank, or one of the long-reach pool of the ports that have reach or a HALL role, a packet may be hit, whole or not: with none
  -- there, none is; where one is hit, it is stomped
  (∀ (b : Nat) (s : State), (∀ p, p < 64 → (p / 16 = b ∨ (6 ≤ b ∧ b < 10 ∧ (0 < s.get (LNK_REACH.granted p) ∨ s.role p = roleHall))) →
      (s.port p).vault = []) → s.vaultError b = (s.free 32).2) ∧
  (∀ (b p : Nat) (v : VaultPkt) (s : State) (hit : Nat → Prop),
      (∀ q, hit q ↔ q / 16 = b ∨ (6 ≤ b ∧ b < 10 ∧ (0 < s.get (LNK_REACH.granted q) ∨ s.role q = roleHall))) →
      p < 64 → hit p → (∀ q, q < 64 → hit q → q ≠ p → (s.port q).vault = []) → (s.port p).vault = [v] → v.bad = false → v.flits ≠ [] →
      ∃ w, ((s.vaultError b).port p).vault = [w] ∧ w.bad = decide ((s.free 32).1 % 2 = 0) ∧ w.id = v.id) ∧
  -- SRAM_SCRUB: each error that it found
  (∀ (b : Fin 24) (found : List (Fin 8192 × Fin 128 × Bool)) (s : State),
      Completes (.sramScrub b found) s fun t =>
        t = found.foldl (fun s (x : Fin 8192 × Fin 128 × Bool) => s.sramError b.val x.1.val x.2.1.val x.2.2) s) ∧
  -- REPAIR_MAP_WRITE: the sparings not yet in the flash join its repair map
  (∀ s : State, s.izgRuns = true → s.pwr.pwrfail = false → s.izg.repairQ ≠ [] →
      Completes (.repairMapWrite true) s fun t => t = { s with izg := { s.izg with repairMap := s.izg.repairMap ++ s.izg.repairQ, repairQ := [] },
                                                               out := t.out }) ∧
  -- MGMT_BUS_TIMEOUT: the model takes whole messages, so nothing is lost
  (∀ s : State, Completes .mgmtBusTimeout s fun t => t = s)

/-- Security commands, certificates and management requests (parts of 14 R495 to R497, R502, R509; 08 R322, R323). -/
def Obligations.SecurityCompletes : Prop :=
  -- ENROLL, REVOKE, RAISE_FLOOR, UNLOCK and RMA: a blob that is not for this device ends SERIAL, one not for this nonce NONCE, and one whose
  -- signer may not give the command AUTH
  (∀ (c : SecCmd) (s : State) (x : Nat × Instr), x ∈ [(1, Instr.enroll c), (2, .revoke c), (3, .raiseFloor c), (4, .unlock c), (5, .rma c)] →
      s.Lands (c.via.getD none) SEC_CMD.reg.addr → s.get SEC_CMD.done ≠ 0 → s.secCode = x.1 →
      (leAt s.secBlob 16 8 ≠ s.get SEC_SERIAL.serial → Completes x.2 s fun t => t = s.secEnd 1) ∧
      (leAt s.secBlob 16 8 = s.get SEC_SERIAL.serial → leAt s.secBlob 24 8 ≠ s.get SEC_NONCE.nonce → Completes x.2 s fun t => t = s.secEnd 2) ∧
      (leAt s.secBlob 16 8 = s.get SEC_SERIAL.serial → leAt s.secBlob 24 8 = s.get SEC_NONCE.nonce → s.secAuth x.1 c.via.isNone = false →
        Completes x.2 s fun t => t = s.secEnd 3)) ∧
  -- who may give one: in OWNED the signer of a live owner slot
  (∀ (s : State) (k : Nat) (mg : Bool), s.get SEC_LIFECYCLE.state = 2 → (s.secAuth k mg = true ↔
      ∃ i, i < 4 ∧ s.ownerLive i = true ∧ s.ownerHash i = signerHash s.secBlob)) ∧
  -- a bad signature: the nonce has changed all the same (a free value), and the command ends SIGNATURE
  (∀ (c : SecCmd) (s : State), s.Lands (c.via.getD none) SEC_CMD.reg.addr → s.get SEC_CMD.done ≠ 0 → s.secCode = 2 → leAt s.secBlob 16 8 = s.get SEC_SERIAL.serial →
      leAt s.secBlob 24 8 = s.get SEC_NONCE.nonce → s.secAuth 2 c.via.isNone = true →
      Completes (.revoke c) s fun t => secSigned s.secBlob = false → t = ((s.free 64).2.set SEC_NONCE.nonce (s.free 64).1).secEnd 4) ∧
  -- ENROLL in PROVISIONED, into a free slot: the slot holds the hash, and the device is OWNED
  (∀ (c : SecCmd) (s : State), s.Lands (c.via.getD none) SEC_CMD.reg.addr → s.get SEC_CMD.done ≠ 0 → s.secCode = 1 → leAt s.secBlob 16 8 = s.get SEC_SERIAL.serial →
      leAt s.secBlob 24 8 = s.get SEC_NONCE.nonce → s.secAuth 1 c.via.isNone = true → secSigned s.secBlob = true → c.fuseOk = true →
      leAt s.secBlob 9 1 ≤ 3 → bit (s.get SEC_LIFECYCLE.owner_valid) (leAt s.secBlob 9 1) = false → s.get SEC_LIFECYCLE.state = 1 →
      Completes (.enroll c) s fun t => ∃ u : State, t = u.fuseSync.secEnd 0 ∧ u.get SEC_LIFECYCLE.state = 2 ∧
        bit (u.get SEC_LIFECYCLE.owner_valid) (leAt s.secBlob 9 1) = true ∧
        (∀ w, w < 8 → u.get (SEC_OWNER_HASH.hash (leAt s.secBlob 9 1) w) = bf (leAt s.secBlob 32 64) (64 * w) 64)) ∧
  -- REVOKE of another live slot, while more than one is live
  (∀ (c : SecCmd) (s : State), s.Lands (c.via.getD none) SEC_CMD.reg.addr → s.get SEC_CMD.done ≠ 0 → s.secCode = 2 → leAt s.secBlob 16 8 = s.get SEC_SERIAL.serial →
      leAt s.secBlob 24 8 = s.get SEC_NONCE.nonce → s.secAuth 2 c.via.isNone = true → secSigned s.secBlob = true → c.fuseOk = true →
      leAt s.secBlob 9 1 ≤ 3 → s.ownerLive (leAt s.secBlob 9 1) = true → s.ownerHash (leAt s.secBlob 9 1) ≠ signerHash s.secBlob →
      1 < ((List.range 4).filter s.ownerLive).length →
      Completes (.revoke c) s fun t => ∃ u : State, t = u.fuseSync.secEnd 0 ∧
        bit (u.get SEC_LIFECYCLE.owner_revoked) (leAt s.secBlob 9 1) = true ∧ u.get SEC_LIFECYCLE.owner_valid = s.get SEC_LIFECYCLE.owner_valid) ∧
  -- RAISE_FLOOR
  (∀ (c : SecCmd) (s : State), s.Lands (c.via.getD none) SEC_CMD.reg.addr → s.get SEC_CMD.done ≠ 0 → s.secCode = 3 → leAt s.secBlob 16 8 = s.get SEC_SERIAL.serial →
      leAt s.secBlob 24 8 = s.get SEC_NONCE.nonce → s.secAuth 3 c.via.isNone = true → secSigned s.secBlob = true → c.fuseOk = true →
      s.get SEC_LIFECYCLE.svn_floor < leAt s.secBlob 32 1 → leAt s.secBlob 32 1 ≤ 63 →
      Completes (.raiseFloor c) s fun t => ∃ u : State, t = u.fuseSync.secEnd 0 ∧ u.get SEC_LIFECYCLE.svn_floor = leAt s.secBlob 32 1) ∧
  -- UNLOCK: debug access is open and the identity keys are gone
  (∀ (c : SecCmd) (s : State), s.Lands (c.via.getD none) SEC_CMD.reg.addr → s.get SEC_CMD.done ≠ 0 → s.secCode = 4 → leAt s.secBlob 16 8 = s.get SEC_SERIAL.serial →
      leAt s.secBlob 24 8 = s.get SEC_NONCE.nonce → s.secAuth 4 c.via.isNone = true → secSigned s.secBlob = true →
      Completes (.unlock c) s fun t => t.izg = { s.izg with devSeed := none, aliasSeed := none } ∧
        t.debugOpen = s.boot.fuses.isSome ∧ t.get SEC_LIFECYCLE.debug_unlocked = 1 ∧
        t.get SEC_CMD.result = 0 ∧ t.get SEC_CMD.done = 1 ∧ ∃ x, t.clhIn = recInsert x s.clhIn ∧ x.kind = kUNLOCKED) ∧
  -- RMA: debug access is open, the device is in RMA, and the unique device secret can be read no more
  (∀ (c : SecCmd) (s : State), s.Lands (c.via.getD none) SEC_CMD.reg.addr → s.get SEC_CMD.done ≠ 0 → s.secCode = 5 → leAt s.secBlob 16 8 = s.get SEC_SERIAL.serial →
      leAt s.secBlob 24 8 = s.get SEC_NONCE.nonce → s.secAuth 5 c.via.isNone = true → secSigned s.secBlob = true → c.fuseOk = true →
      Completes (.rma c) s fun t => t.izg = s.izg ∧ t.debugOpen = s.boot.fuses.isSome ∧ t.uds = none ∧
        t.get SEC_LIFECYCLE.state = 3 ∧ t.get SEC_CMD.result = 0) ∧
  -- debug access is open in MANUFACTURE and RMA, and from an UNLOCK on
  (∀ (s : State) f, s.boot.fuses = some f → (s.debugOpen = true ↔
      s.get SEC_LIFECYCLE.state = 0 ∨ s.get SEC_LIFECYCLE.state = 3 ∨ s.get SEC_LIFECYCLE.debug_unlocked ≠ 0)) ∧
  -- where the fuses cannot be programmed the command ends FUSE_FAIL, with its record
  (∀ (c : SecCmd) (s : State), s.Lands (c.via.getD none) SEC_CMD.reg.addr → s.get SEC_CMD.done ≠ 0 → s.secCode = 5 →
      leAt s.secBlob 16 8 = s.get SEC_SERIAL.serial → leAt s.secBlob 24 8 = s.get SEC_NONCE.nonce → s.secAuth 5 c.via.isNone = true →
      secSigned s.secBlob = true → c.fuseOk = false →
      Completes (.rma c) s fun t => ∃ u : State, t = u.secEnd 8 ∧ u.izg = s.izg ∧ u.get SEC_LIFECYCLE.state = s.get SEC_LIFECYCLE.state ∧
        ∃ x, u.clhIn = recInsert x s.clhIn ∧ x.kind = kFUSE_FAIL) ∧
  -- SECURITY_COMMAND_UNKNOWN: a code of no command ends SERIAL
  (∀ (c : SecCmd) (s : State), s.Lands (c.via.getD none) SEC_CMD.reg.addr → s.get SEC_CMD.done ≠ 0 → s.secCode = 0 → Completes (.securityCommandUnknown c) s fun t => t = s.secEnd 1) ∧
  -- how a command ends: its result, and done
  (∀ (s : State) (r : Nat), r < 16 → ∃ u : State, s.secEnd r = (if r = 0 then u else u.bump SEC_CNT_CMD_FAIL.ev) ∧ u.get SEC_CMD.result = r ∧
      u.get SEC_CMD.done = 1 ∧ SameBut [SEC_CMD.reg.addr] s u) ∧
  -- CERT_REQ: answered with the chain
  (∀ (s : State) k r, s.izg.activating.isSome = false → s.izg.mg = k :: r → k.hdr.w5 % 256 = 0x34 → s.active k.port = true →
      Completes .certReq s fun t => ∃ u : State, u = { s with izg := { s.izg with mg := r } } ∧
        t = u.sendOn k.port (u.mgPkt 0x35 (u.peer k.port) s.izg.chain)) ∧
  -- CERT: a chain that names the peer ends the wait; any other holds the port with code 0x20
  (∀ (s : State) k r, s.izg.activating.isSome = false → s.izg.mg = k :: r → k.hdr.w5 % 256 = 0x35 →
      s.active k.port = true → (s.port k.port).certWait = true → s.certPass k.port k.data = true →
      Completes .cert s fun t => ∃ u : State,
        u = State.modPort { s with izg := { s.izg with mg := r } } k.port (fun q => { q with certWait := false }) ∧
        t = State.settle { u with izg := { u.izg with certs :=
              ((s.get (LNK_PEER.serial k.port), (s.port k.port).peerKey) ::
                s.izg.certs.filter (· != (s.get (LNK_PEER.serial k.port), (s.port k.port).peerKey))).take 4096 } }) ∧
  (∀ (s : State) k r, s.izg.activating.isSome = false → s.izg.mg = k :: r → k.hdr.w5 % 256 = 0x35 →
      s.active k.port = true → (s.port k.port).certWait = true →
      Completes .cert s fun t => s.certPass k.port k.data = false → t = State.holdPort { s with izg := { s.izg with mg := r } } k.port 0x20) ∧
  -- the chain that the Kofort manufacturing key has signed for the serial of IDENT and the key of IDENT_SIG is one
  (∀ (s : State) (p : Nat), s.certPass p (Config.devidCert s.kofort (BitVec.ofNat 64 (s.get (LNK_PEER.serial p)))
      (BitVec.ofNat 256 (s.port p).peerKey)) = true) ∧
  -- CERT_TIMEOUT: as a bad chain
  (∀ (p : PortNo) (s : State), s.active p.val = true → (s.port p.val).certWait = true →
      Completes (.certTimeout p) s fun t => t = s.holdPort p.val 0x20) ∧
  -- an answer goes out where the request came from: a DOE mailbox, which interrupts; MCTP over a host link or the management bus
  (∀ (n : Nat) (data : List Nat) (s : State), n < 8 → ∃ u : State, s.mgmtAnswer (.doe n) data = u.pf0Signal 5 ∧ (u.hl n).doeInt = true ∧
      u = { s with hls := u.hls, out := .mailbox n data :: s.out }) ∧
  (∀ (n req : Nat) (data : List Nat) (s : State), s.mgmtAnswer (.vdm n req) data = { s with out := .vdm n req data :: s.out }) ∧
  (∀ (data : List Nat) (s : State), s.mgmtAnswer .bus data = { s with out := .mailbox 24 data :: s.out }) ∧
  -- DOE_REQUEST: Discovery is answered; an SPDM object waits for its command. DOE_ABORT: none waits
  (∀ (n : HostLink) (body : Bytes) (s : State), s.fnExists n.val 0 = true → s.get (HBI_LINK_STAT.dl_up n.val) ≠ 0 → s.izgServes = true →
      (s.hl n.val).doe = none → body.length ≤ 65536 → s.izg.activating.isSome = false →
      Completes (.doeRequest n 1 0 body) s fun t => t = s.mgmtAnswer (.doe n.val) doeDiscovery) ∧
  (∀ (n : HostLink) (typ : BitVec 8) (body : Bytes) (s : State), s.fnExists n.val 0 = true → s.get (HBI_LINK_STAT.dl_up n.val) ≠ 0 →
      s.izgServes = true → (s.hl n.val).doe = none → body.length ≤ 65536 → 1 ≤ typ.toNat → typ.toNat ≤ 2 →
      Completes (.doeRequest n 1 typ body) s fun t => (t.hl n.val).doe = some typ.toNat ∧ t = { s with hls := t.hls } ∧
        ∀ m, m ≠ n.val → t.hl m = s.hl m) ∧
  -- an object of another Vendor ID or of a type that is not listed: a DOE Error
  (∀ (n : HostLink) (vendor : BitVec 16) (typ : BitVec 8) (body : Bytes) (s : State), s.fnExists n.val 0 = true →
      s.get (HBI_LINK_STAT.dl_up n.val) ≠ 0 → s.izgServes = true → (s.hl n.val).doe = none → (vendor ≠ 1 ∨ 2 < typ.toNat) →
      Completes (.doeRequest n vendor typ body) s fun t => t = s.mgmtAnswer (.doe n.val) doeError) ∧
  (∀ (n : HostLink) (s : State), Completes (.doeAbort n) s fun t => (t.hl n.val).doe = none ∧ t = { s with hls := t.hls } ∧
      ∀ m, m ≠ n.val → t.hl m = s.hl m) ∧
  -- MCTP_MESSAGE that carries SPDM, over the management bus or to PF0 of a host link, waits for its command; another function, or another
  -- Vendor ID, takes none. MBOX_TO_IZG: the mailbox has been read, or, during a hand-over, waits
  (∀ (typ : BitVec 7) (body : Bytes) (s : State), s.izgServes = true → (typ.toNat = 5 ∨ typ.toNat = 6) →
      Completes (.mctpMessage .bus typ body) s fun t =>
        t = { s with izg := { s.izg with mctpIn := s.izg.mctpIn ++ [{ typ := typ.toNat, from_ := .bus }] } }) ∧
  (∀ (n : HostLink) fn vendor req (typ : BitVec 7) (body : Bytes) (s : State), s.izgServes = true → (typ.toNat = 5 ∨ typ.toNat = 6) →
      s.fnExists n.val 0 = true → s.get (HBI_LINK_STAT.dl_up n.val) ≠ 0 →
      Completes (.mctpMessage (.vdm n fn vendor req) typ body) s fun t =>
        t = if fn = 0 ∧ vendor = 0x1AB4 then
          { s with izg := { s.izg with mctpIn := s.izg.mctpIn ++ [{ typ := typ.toNat, from_ := .vdm n.val req.toNat }] } } else s) ∧
  (∀ (wr : Writer) (s : State), s.izgServes = true → s.izg.activating.isSome = false →
      s.Lands wr IZG_MBOX_CTL.reg.addr → Completes (.mboxToIzg wr) s fun t => t.get IZG_MBOX_CTL.to_izg = 0 ∧
        SameBut [IZG_MBOX_CTL.reg.addr] { s with izg := t.izg } t) ∧
  (∀ (wr : Writer) (s : State), s.izg.activating.isSome = true →
      s.Lands wr IZG_MBOX_CTL.reg.addr → Completes (.mboxToIzg wr) s fun t => t.get IZG_MBOX_CTL.to_izg = 1 ∧ SameBut [IZG_MBOX_CTL.reg.addr] s t)

/-- SPDM requests on a channel (14 R503; the order of requests and the response codes are the model's, log entry 68). `w` is the state
without the request, `x` the channel's connection; those of a session come secured. -/
def Obligations.SpdmCompletes : Prop :=
  (∀ (ch : SpdmChan) (s w : State) dest x, s.spdmTake ch false = some (dest, w) → w.spdmConn (chanOf ch) = x →
    -- GET_VERSION begins anew
    Completes (.getVersion ch) s (fun t => t = (w.setConn { x with negotiated := 1 }).mgmtAnswer dest [0x04, 0x12, 0x13]) ∧
    -- GET_CAPABILITIES
    (1 ≤ x.negotiated → Completes (.getCapabilities ch) s fun t =>
      t = (w.setConn { x with negotiated := max x.negotiated 2 }).mgmtAnswer dest [0x61, 1, 2, 4, 5, 9, 6, 7, 13, 14]) ∧
    -- NEGOTIATE_ALGORITHMS: the one choice of each
    (2 ≤ x.negotiated → Completes (.negotiateAlgorithms ch) s fun t =>
      t = (w.setConn { x with negotiated := 3 }).mgmtAnswer dest (0x63 :: spdmAlgorithms)) ∧
    -- before the algorithms are agreed: ERROR, and the connection as it was
    (x.negotiated < 3 → Completes (.getDigests ch) s fun t => t = w.mgmtAnswer dest spdmError) ∧
    -- GET_DIGESTS, and GET_CERTIFICATE of slot 0: a portion of the chain, with what remains; of another slot, ERROR
    (3 ≤ x.negotiated → Completes (.getDigests ch) s fun t => t = (w.setConn x).mgmtAnswer dest [0x01, (Config.sha512 w.slot0).toNat]) ∧
    (∀ off len : BitVec 16, 3 ≤ x.negotiated → off.toNat ≤ w.slot0.length → Completes (.getCertificate ch 0 off len) s fun t =>
      t = (w.setConn x).mgmtAnswer dest (0x02 :: (w.slot0.length - off.toNat - min len.toNat (w.slot0.length - off.toNat)) ::
        ((w.slot0.drop off.toNat).take len.toNat).map (·.toNat))) ∧
    (∀ (slot : BitVec 4) (off len : BitVec 16), 3 ≤ x.negotiated → slot ≠ 0 →
      Completes (.getCertificate ch slot off len) s fun t => t = w.mgmtAnswer dest spdmError) ∧
    -- CHALLENGE of slot 0, and GET_MEASUREMENTS: signed with the alias key; ERROR without it
    (3 ≤ x.negotiated → w.izg.aliasSeed.isSome = true → Completes (.challenge ch 0) s fun t => t = ((w.free 512).2.setConn x).mgmtAnswer dest
      [0x03, (Config.sha512 w.slot0).toNat, (w.free 512).1]) ∧
    (3 ≤ x.negotiated → w.izg.aliasSeed.isSome = true → Completes (.getMeasurements ch 0 0xFF) s fun t =>
      t = ((w.free 512).2.setConn x).mgmtAnswer dest (0x60 :: ([1, 2, 3, 4, 5, 6].map w.meas ++ [(w.free 512).1]))) ∧
    (∀ i : BitVec 8, 3 ≤ x.negotiated → w.izg.aliasSeed.isSome = true → 1 ≤ i.toNat → i.toNat ≤ 6 → Completes (.getMeasurements ch 0 i) s fun t =>
      t = ((w.free 512).2.setConn x).mgmtAnswer dest [0x60, w.meas i.toNat, (w.free 512).1]) ∧
    (∀ slot : BitVec 4, 3 ≤ x.negotiated → w.izg.aliasSeed.isSome = false → Completes (.challenge ch slot) s fun t => t = w.mgmtAnswer dest spdmError) ∧
    (∀ (slot : BitVec 4) (i : BitVec 8), 3 ≤ x.negotiated → w.izg.aliasSeed.isSome = false →
      Completes (.getMeasurements ch slot i) s fun t => t = w.mgmtAnswer dest spdmError) ∧
    -- KEY_EXCHANGE: a session in handshake, with its keys (free values), at most four
    (∀ (req : BitVec 16) r a b (u : State), 3 ≤ x.negotiated → x.sessions.length < 4 → w.izg.aliasSeed.isSome = true →
      ((w.free 512).2.free 16).1 = r → (((w.free 512).2.free 16).2.free 256).1 = a → ((((w.free 512).2.free 16).2.free 256).2.free 256) = (b, u) →
      Completes (.keyExchange ch 0 req) s fun t =>
        t = (u.setConn { x with sessions := x.sessions.filter (·.id != req.toNat + r * 2 ^ 16) ++
          [{ id := req.toNat + r * 2 ^ 16, est := false, reqKey := a, rspKey := b }] }).mgmtAnswer dest
            [0x64, req.toNat + r * 2 ^ 16, (w.free 512).1]) ∧
    (∀ (slot : BitVec 4) (req : BitVec 16), 3 ≤ x.negotiated → 4 ≤ x.sessions.length →
      Completes (.keyExchange ch slot req) s fun t => t = w.mgmtAnswer dest spdmError)) ∧
  (∀ (ch : SpdmChan) (s w : State) dest x (sess : BitVec 32) y, s.spdmTake ch true = some (dest, w) → w.spdmConn (chanOf ch) = x →
    3 ≤ x.negotiated → x.sess? sess.toNat = some y →
    -- FINISH ends the handshake, or the session
    (y.est = false → Completes (.finish ch sess true) s fun t =>
      t = (w.setConn { x with sessions := x.sessions.filter (·.id != y.id) ++ [{ y with est := true }] }).mgmtAnswer dest [0x65]) ∧
    (y.est = false → Completes (.finish ch sess false) s fun t =>
      t = (w.setConn { x with sessions := x.sessions.filter (·.id != y.id) }).mgmtAnswer dest spdmError) ∧
    -- KEY_UPDATE: the requester's key, or both, take their next values (free ones), and the new key is verified
    (∀ a b (u : State), y.est = true → (w.free 256).1 = a → (w.free 256).2.free 256 = (b, u) → Completes (.keyUpdate ch sess 1) s fun t =>
      t = (u.setConn { x with sessions := x.sessions.filter (·.id != y.id) ++ [{ y with reqKey := a }] }).mgmtAnswer dest [0x69, 1]) ∧
    (∀ a b (u : State), y.est = true → (w.free 256).1 = a → (w.free 256).2.free 256 = (b, u) → Completes (.keyUpdate ch sess 2) s fun t =>
      t = (u.setConn { x with sessions := x.sessions.filter (·.id != y.id) ++ [{ y with reqKey := a, rspKey := b }] }).mgmtAnswer dest [0x69, 2]) ∧
    (y.est = true → Completes (.keyUpdate ch sess 3) s fun t => t = (w.setConn x).mgmtAnswer dest [0x69, 3]) ∧
    -- HEARTBEAT, END_SESSION
    (y.est = true → Completes (.heartbeat ch sess) s fun t => t = (w.setConn x).mgmtAnswer dest [0x68]) ∧
    (y.est = true → Completes (.endSession ch sess) s fun t =>
      t = (w.setConn { x with sessions := x.sessions.filter (·.id != y.id) }).mgmtAnswer dest [0x6C]) ∧
    -- none of the last three before FINISH
    (y.est = false → Completes (.heartbeat ch sess) s fun t => t = w.mgmtAnswer dest spdmError))

/-! ## Layouts -/

/-- The header flit of a header reads back as it; a router's restamp gives it the new route word and leaves words 1 to 7 as they
were, whatever flit they came in. -/
def Obligations.HeaderRoundTrip : Prop :=
  (∀ h, Header.Fits h → hdrOf (hdrFlit h) = h) ∧
  (∀ (h : Header) (f : Flit), Header.Fits h →
    hdrOf (restamp h f) = { hdrOf f with
      phase := h.phase, epoch := h.epoch, mark := h.mark, valiant := h.valiant, dateline := h.dateline,
      viaGroup := h.viaGroup, hops := h.hops, injectTime := h.injectTime } ∧
    (restamp h f).toNat / 2 ^ 64 = f.toNat / 2 ^ 64)

/-- A packet is header, payload flits and trailer; its flits read back as it. Its end-to-end CRC covers the 64 header bytes with the
route word taken as zero, then the first L payload bytes, so that one made here passes the check of length and CRC whatever its
route word later is. -/
def Obligations.PacketRoundTrip : Prop :=
  ∀ (h : Header) (data : List Byte) (cls port : Nat), Header.Fits h → data.length = h.length →
    let p := mkPkt h data
    p.ecrc = crc32c (bytesOf 64 ((hdrFlit h).toNat / 2 ^ 64 * 2 ^ 64) ++ data) ∧
    pktOf (pktFlits p) cls port = { p with cls, port } ∧ (pktFlits p).length = flitCount h.length ∧ pktIntact p = true ∧
    (∀ h' : Header, Header.Fits h' → pktIntact (pktOf (restamp h' (hdrFlit h) :: (pktFlits p).drop 1) cls port) = true) ∧
    pktIntact { p with stomped := true } = false

/-- A Quicksilver message reads back from its 128 bits. -/
def Obligations.QuicksilverRoundTrip : Prop :=
  ∀ m : QsMsg, m.type < 2 ^ 5 → m.dst < 2 ^ 23 → m.src < 2 ^ 23 → m.hops < 2 ^ 6 → m.epoch < 2 → m.payload < 2 ^ 64 →
    qsOf (qsBits m).toNat = m

/-- A CTRL message reads back from the 15 flits that carry it, and a code outside 03 Table 3.5 reads as no message. -/
def Obligations.CtrlRoundTrip : Prop :=
  let reads (m : CtrlMsg) : Prop := ∀ f : LinkFrame, f.flits = ctrlFlits m → ctrlOf (ctrlBody f) = some m
  (∀ m : IdentInfo, m.serial < 2 ^ 64 → m.endpoint < 2 ^ 23 → m.port < 2 ^ 6 → m.role < 2 ^ 3 → m.version < 2 ^ 4 → m.maxRate < 2 ^ 2 →
    m.maxWidth < 2 ^ 2 → m.reachKm < 2 ^ 3 → m.challenge < 2 ^ 256 → reads (.ident m)) ∧
  (∀ k g, k < 2 ^ 256 → g < 2 ^ 512 → reads (.identSig k g)) ∧
  (∀ m : ParamMsg, m.v < 2 ^ 32 → EighteenWords m.floors → EighteenWords m.caps → m.e < 2 ^ 16 → m.x < 2 ^ 24 →
    EighteenWords m.occ → EighteenWords m.returned → m.sendTime < 2 ^ 64 → m.turnaround < 2 ^ 32 → reads (.param m)) ∧
  (∀ l, EighteenWords l → reads (.creditSync l)) ∧ reads .creditSyncReq ∧
  (∀ b, b < 2 ^ 256 → reads (.quiet b) ∧ reads (.quietAck b)) ∧
  (∀ n : Nat, n % 256 = 0 ∨ 7 < n % 256 → ctrlOf n = none)

/-- A flit slot reads back from its tag and flit, and a slot whose tag is not valid is not read. -/
def Obligations.SlotsRoundTrip : Prop :=
  ∀ (f : LinkFrame) (l : List Slot) (k : Nat), (∀ x ∈ l, x.cls < 32) → l.length + k = 15 →
    f.tags = l.map tagOf ++ List.replicate k 0 → f.flits = l.map Slot.flit ++ List.replicate k 0 → slotsOf f = l

/-- An error record reads back from its four words, whatever the phase bit of the last. -/
def Obligations.RecordRoundTrip : Prop :=
  ∀ (r : Record) (phase : Nat), r.kind < 2 ^ 16 → r.sev < 2 ^ 4 → r.src < 2 ^ 16 → r.addr < 2 ^ 64 → r.detail < 2 ^ 48 → r.time < 2 ^ 64 →
    r.ep < 2 ^ 23 → phase < 2 → recOf (fun k => (recWords r phase).getD k 0) = r

/-- A Sterling lane reads back as a packet carries it: an integer in the finite range as its two's complement, a code as itself. -/
def Obligations.SterlingLaneRoundTrip : Prop :=
  ∀ (et : Nat) (a : Nat × Int), a.1 ≤ 4 → (a.1 = 0 ∨ a.2 = 0) → laneFits et a = true →
    laneDec et (laneEnc et a) = a ∧ laneEnc et a < 2 ^ laneBits et

/-- A frame without its 15 tags and 15 flits cannot be: FRAME_RECEIVE of one is the only command that stops (the model's choice, a
fault of its own; log entry 70). -/
def Obligations.IllFormedFrameFaults : Prop :=
  ∀ (p : PortNo) (f : LinkFrame) (rx : RxErrors) (s : State),
    (f.wf = false → exec (.frameReceive p f rx) s = .fault .illFormed) ∧
    (∀ (c : Instr) (e : Fault), exec c s = .fault e → e = .illFormed ∧ ∃ p' f' rx', c = .frameReceive p' f' rx' ∧ f'.wf = false) ∧
    (∀ (c : Instr) (r : Refusal), exec c s ≠ .refused r)
end

