-- ==== Sys2Proof/Laws/Tables.lean ====
section
/-!
SUPPORT. Laws/Tables.lean: tables (lists of numbers and entries): a read after a write, and the canonical form.
-/
namespace Sys2Proof.Machine

theorem tget_tput_self {α : Type} (l : List (Nat × α)) (i : Nat) (x : α) : tget (tput l i x) i = some x := by
  induction l with
  | nil => simp [tput, tget]
  | cons h t ih =>
    obtain ⟨k, v⟩ := h
    simp only [tput]
    split
    · simp [tget]
    · split
      · simp [tget]
      · simp_all [tget]

theorem tget_tput_other {α : Type} (l : List (Nat × α)) {i j : Nat} (x : α) (h : j ≠ i) : tget (tput l i x) j = tget l j := by
  induction l with
  | nil => simp [tput, tget, Ne.symm h]
  | cons e t ih =>
    obtain ⟨k, v⟩ := e
    simp only [tput]
    split
    · simp [tget, Ne.symm h]
    · split
      · simp_all [tget, Ne.symm h]
      · simp_all [tget]

theorem tget_tput {α : Type} (l : List (Nat × α)) (i j : Nat) (x : α) :
    tget (tput l i x) j = if j = i then some x else tget l j := by
  split
  · next h => rw [h, tget_tput_self]
  · next h => exact tget_tput_other l x h

theorem tget_tdel {α : Type} (l : List (Nat × α)) (i j : Nat) : tget (tdel l i) j = if j = i then none else tget l j := by
  induction l with
  | nil => simp [tdel, tget]
  | cons e t ih =>
    obtain ⟨k, v⟩ := e
    simp only [tdel, tget]
    by_cases h1 : k = i <;> by_cases h2 : j = i <;> simp_all [tget, eq_comm]

/-- Every number of a table is above `m`. -/
def tabove {α : Type} (m : Nat) (l : List (Nat × α)) : Prop := ∀ e ∈ l, m < e.1

theorem tasc_cons {α : Type} (e : Nat × α) (l : List (Nat × α)) : tasc (e :: l) = true ↔ tabove e.1 l ∧ tasc l = true := by
  induction l generalizing e with
  | nil => simp [tasc, tabove]
  | cons f t ih =>
    obtain ⟨a, x⟩ := e; obtain ⟨b, y⟩ := f
    have h := ih (b, y)
    simp only [tasc, Bool.and_eq_true, decide_eq_true_eq, tabove, List.mem_cons, forall_eq_or_imp] at h ⊢
    constructor
    · rintro ⟨hab, ht⟩
      exact ⟨⟨hab, fun g hg => Nat.lt_trans hab ((h.mp ht).1 g hg)⟩, ht⟩
    · rintro ⟨⟨hab, _⟩, ht⟩
      exact ⟨hab, ht⟩

theorem tabove_tput {α : Type} {m : Nat} {l : List (Nat × α)} {i : Nat} (x : α) (h : tabove m l) (hi : m < i) :
    tabove m (tput l i x) := by
  induction l with
  | nil => simp [tput, tabove, hi]
  | cons e t ih =>
    obtain ⟨k, v⟩ := e
    have ht : tabove m t := fun g hg => h g (List.mem_cons_of_mem _ hg)
    have hk : m < k := h (k, v) (List.mem_cons_self ..)
    simp only [tput]
    split
    · intro g hg; simp only [List.mem_cons] at hg; rcases hg with rfl | rfl | hg
      exacts [hi, hk, ht g hg]
    · split
      · intro g hg; simp only [List.mem_cons] at hg; rcases hg with rfl | hg
        exacts [hi, ht g hg]
      · intro g hg; simp only [List.mem_cons] at hg; rcases hg with rfl | hg
        exacts [hk, ih ht g hg]

theorem tabove_tdel {α : Type} {m : Nat} {l : List (Nat × α)} (i : Nat) (h : tabove m l) : tabove m (tdel l i) := by
  induction l with
  | nil => simpa [tdel] using h
  | cons e t ih =>
    obtain ⟨k, v⟩ := e
    have ht : tabove m t := fun g hg => h g (List.mem_cons_of_mem _ hg)
    simp only [tdel]
    split
    · exact ih ht
    · intro g hg; simp only [List.mem_cons] at hg; rcases hg with rfl | hg
      exacts [h (k, v) (List.mem_cons_self ..), ih ht g hg]

/-- Setting an entry keeps the canonical form. -/
theorem tasc_tput {α : Type} {l : List (Nat × α)} (i : Nat) (x : α) (h : tasc l = true) : tasc (tput l i x) = true := by
  induction l with
  | nil => simp [tput, tasc]
  | cons e t ih =>
    obtain ⟨k, v⟩ := e
    have h' := (tasc_cons (k, v) t).mp h
    simp only [tput]
    split
    · next hik => exact (tasc_cons _ _).mpr ⟨fun g hg => by
        simp only [List.mem_cons] at hg
        rcases hg with rfl | hg
        · exact hik
        · exact Nat.lt_trans hik (h'.1 g hg), h⟩
    · split
      · next hik => exact (tasc_cons _ _).mpr ⟨by rw [← hik]; exact h'.1, h'.2⟩
      · next h1 h2 => exact (tasc_cons _ _).mpr ⟨tabove_tput x h'.1 (by omega), ih h'.2⟩

/-- Removing an entry keeps the canonical form. -/
theorem tasc_tdel {α : Type} {l : List (Nat × α)} (i : Nat) (h : tasc l = true) : tasc (tdel l i) = true := by
  induction l with
  | nil => simpa [tdel] using h
  | cons e t ih =>
    obtain ⟨k, v⟩ := e
    have h' := (tasc_cons (k, v) t).mp h
    simp only [tdel]
    split
    · exact ih h'.2
    · exact (tasc_cons _ _).mpr ⟨tabove_tdel i h'.1, ih h'.2⟩

/-- Keeping some entries keeps the canonical form. -/
theorem tasc_filter {α : Type} {l : List (Nat × α)} (f : Nat × α → Bool) (h : tasc l = true) : tasc (l.filter f) = true := by
  induction l with
  | nil => simpa using h
  | cons e t ih =>
    have h' := (tasc_cons e t).mp h
    simp only [List.filter]
    split
    · exact (tasc_cons _ _).mpr ⟨fun g hg => h'.1 g (List.mem_filter.mp hg).1, ih h'.2⟩
    · exact ih h'.2

/-- The numbers of a table rise from each entry to every later one. -/
theorem tasc_iff {α : Type} (l : List (Nat × α)) : tasc l = true ↔ l.Pairwise (fun x y => x.1 < y.1) := by
  induction l with
  | nil => simp [tasc]
  | cons e l ih => rw [tasc_cons, ih, List.pairwise_cons]; rfl

/-- Changing the entries of a table, not their numbers, keeps its form. -/
theorem tasc_map {α β : Type} {l : List (Nat × α)} (f : Nat × α → Nat × β) (hf : ∀ x, (f x).1 = x.1) (h : tasc l = true) :
    tasc (l.map f) = true := by
  rw [tasc_iff] at h ⊢
  rw [List.pairwise_map]
  exact h.imp fun {a b} k => by rw [hf a, hf b]; exact k

/-- A list with room takes one more item. -/
theorem length_snoc {α : Type} {l : List α} {x : α} {n : Nat} (h : ¬ l.length ≥ n) : (l ++ [x]).length ≤ n := by
  simp only [List.length_append, List.length_singleton]; omega

theorem length_snoc_lt {α : Type} {l : List α} {x : α} {n : Nat} (h : l.length < n) : (l ++ [x]).length ≤ n := by
  simp only [List.length_append, List.length_singleton]; omega

/-- Taking an item out of a list leaves it no longer. -/
theorem takeFirst_le {α : Type} {f : α → Bool} {l : List α} {x : α} {r : List α} (h : takeFirst f l = some (x, r)) :
    r.length ≤ l.length := by
  induction l generalizing x r with
  | nil => cases h
  | cons y l ih =>
    simp only [takeFirst] at h
    split at h
    · cases h; exact Nat.le_succ _
    · cases e : takeFirst f l with
      | none => simp [e] at h
      | some q =>
        obtain ⟨z, t⟩ := q
        simp only [e, Option.map_some, Option.some.injEq, Prod.mk.injEq] at h
        obtain ⟨rfl, rfl⟩ := h
        exact Nat.succ_le_succ (ih e)

end Sys2Proof.Machine
end

