-- ==== Sys2Proof/Laws/Registers.lean ====
section
/-!
SUPPORT. Laws/Registers.lean: fields of registers: a read after a write, and what a write leaves alone.
-/
namespace Sys2Proof.Machine

/-! ### Words -/

theorem word_setWord (s : State) (r q : RF) (v : Word) (h : q.addr = r.addr → q.rst = r.rst) :
    (s.setWord r v).word q = if q.addr = r.addr then v else s.word q := by
  by_cases hv : v = BitVec.ofNat 64 r.rst
  · simp only [State.setWord, State.word, hv, if_true, tget_tdel]
    by_cases ha : q.addr = r.addr
    · simp [ha, h ha]
    · simp [ha]
  · simp only [State.setWord, State.word, hv, if_false, tget_tput]
    by_cases ha : q.addr = r.addr <;> simp [ha]

theorem getLsbD_fldMask (lo len i : Nat) (h : lo + len ≤ 64) :
    (fldMask lo len).getLsbD i = (decide (lo ≤ i) && decide (i < lo + len)) := by
  have h1 : (2 ^ len - 1).testBit (i - lo) = decide (i - lo < len) := Nat.testBit_two_pow_sub_one ..
  simp only [fldMask, BitVec.getLsbD_ofNat, Nat.testBit_shiftLeft, h1]
  by_cases a : lo ≤ i <;> by_cases b : i - lo < len <;> by_cases c : i < 64 <;> simp [a, b, c] <;> omega

theorem bf_testBit (n lo len i : Nat) : (bf n lo len).testBit i = (decide (i < len) && n.testBit (lo + i)) := by
  simp [bf, Nat.testBit_mod_two_pow, Nat.testBit_shiftRight]

/-- A field written and read back. -/
theorem bf_fldPut_same (w : Word) (lo len v : Nat) (h : lo + len ≤ 64) : bf (fldPut w lo len v).toNat lo len = v % 2 ^ len := by
  apply Nat.eq_of_testBit_eq
  intro i
  rw [bf_testBit, Nat.testBit_mod_two_pow]
  by_cases hi : i < len
  · have hm := getLsbD_fldMask lo len (lo + i) h
    have e : (decide (lo ≤ lo + i) && decide (lo + i < lo + len)) = true := by
      simp only [Bool.and_eq_true, decide_eq_true_eq]; omega
    rw [e] at hm
    have hk : lo + i < 64 := by omega
    simp only [hi, decide_true, Bool.true_and, fldPut, BitVec.testBit_toNat, BitVec.getLsbD_or, BitVec.getLsbD_and,
      BitVec.getLsbD_not, hm, BitVec.getLsbD_ofNat, Nat.testBit_shiftLeft]
    simp [hk]
  · simp [hi]

/-- A field that another does not meet keeps its value. -/
theorem bf_fldPut_other (w : Word) (lo len v lo' len' : Nat) (h : lo + len ≤ 64) (d : lo' + len' ≤ lo ∨ lo + len ≤ lo') :
    bf (fldPut w lo len v).toNat lo' len' = bf w.toNat lo' len' := by
  apply Nat.eq_of_testBit_eq
  intro i
  rw [bf_testBit, bf_testBit]
  by_cases hi : i < len'
  · have hm := getLsbD_fldMask lo len (lo' + i) h
    have e : (decide (lo ≤ lo' + i) && decide (lo' + i < lo + len)) = false := by
      simp only [Bool.and_eq_false_iff, decide_eq_false_iff_not]; omega
    rw [e] at hm
    simp only [hi, decide_true, Bool.true_and, fldPut, BitVec.testBit_toNat, BitVec.getLsbD_or, BitVec.getLsbD_and, BitVec.getLsbD_not, hm]
    by_cases hk : lo' + i < 64
    · simp [hk]
    · simp [hk, BitVec.getLsbD_of_ge _ _ (by omega : 64 ≤ lo' + i)]
  · simp [hi]

/-! ### Fields -/

theorem get_set_same (s : State) (r : RF) (v : Nat) (h : r.lo + r.len ≤ 64) : (s.set r v).get r = v % 2 ^ r.len := by
  simp only [State.set, State.get, word_setWord s r r _ (fun _ => rfl), if_true]
  exact bf_fldPut_same _ _ _ _ h

theorem get_set_addr (s : State) (r q : RF) (v : Nat) (h : q.addr ≠ r.addr) : (s.set r v).get q = s.get q := by
  simp only [State.set, State.get]
  rw [word_setWord s r q _ (fun e => absurd e h)]
  simp [h]

theorem get_set_field (s : State) (r q : RF) (v : Nat) (ha : q.addr = r.addr) (hr : q.rst = r.rst) (h : r.lo + r.len ≤ 64)
    (d : q.lo + q.len ≤ r.lo ∨ r.lo + r.len ≤ q.lo) : (s.set r v).get q = s.get q := by
  have hw : s.word q = s.word r := by simp [State.word, ha, hr]
  simp only [State.set, State.get]
  rw [word_setWord s r q _ (fun _ => hr)]
  simp only [ha, if_true, hw]
  exact bf_fldPut_other _ _ _ _ _ _ h d

/-- A field is below the power of two of its length. -/
theorem get_lt (s : State) (r : RF) : s.get r < 2 ^ r.len := Nat.mod_lt _ (Nat.two_pow_pos _)

/-- Nothing but the registers changes. -/
theorem set_eq (s : State) (r : RF) (v : Nat) : s.set r v = { s with regs := (s.set r v).regs } := rfl

/-- Writing a register keeps the canonical form of the registers. -/
theorem tasc_setWord (s : State) (r : RF) (v : Word) (h : tasc s.regs = true) : tasc (s.setWord r v).regs = true := by
  simp only [State.setWord]
  split
  · exact tasc_tdel _ h
  · exact tasc_tput _ _ h

end Sys2Proof.Machine
end

