-- ==== Sys2Proof/Laws/State.lean ====
section
/-!
SUPPORT. Laws/State.lean: what each basic update of State leaves: one lemma a field and update, by `rfl`; and what is read of
a table's item after it has been changed.
-/
namespace Sys2Proof.Machine

/-! ### set -/

@[simp] theorem State.set_ports (s : State) (r : RF) (v : Nat) : (s.set r v).ports = s.ports := rfl
@[simp] theorem State.set_hls (s : State) (r : RF) (v : Nat) : (s.set r v).hls = s.hls := rfl
@[simp] theorem State.set_fns (s : State) (r : RF) (v : Nat) : (s.set r v).fns = s.fns := rfl
@[simp] theorem State.set_accts (s : State) (r : RF) (v : Nat) : (s.set r v).accts = s.accts := rfl
@[simp] theorem State.set_ctxs (s : State) (r : RF) (v : Nat) : (s.set r v).ctxs = s.ctxs := rfl
@[simp] theorem State.set_trees (s : State) (r : RF) (v : Nat) : (s.set r v).trees = s.trees := rfl
@[simp] theorem State.set_movs (s : State) (r : RF) (v : Nat) : (s.set r v).movs = s.movs := rfl
@[simp] theorem State.set_srcMsgs (s : State) (r : RF) (v : Nat) : (s.set r v).srcMsgs = s.srcMsgs := rfl
@[simp] theorem State.set_openMsgs (s : State) (r : RF) (v : Nat) : (s.set r v).openMsgs = s.openMsgs := rfl
@[simp] theorem State.set_filter (s : State) (r : RF) (v : Nat) : (s.set r v).filter = s.filter := rfl
@[simp] theorem State.set_book (s : State) (r : RF) (v : Nat) : (s.set r v).book = s.book := rfl
@[simp] theorem State.set_keyCache (s : State) (r : RF) (v : Nat) : (s.set r v).keyCache = s.keyCache := rfl
@[simp] theorem State.set_rankCache (s : State) (r : RF) (v : Nat) : (s.set r v).rankCache = s.rankCache := rfl
@[simp] theorem State.set_orders (s : State) (r : RF) (v : Nat) : (s.set r v).orders = s.orders := rfl
@[simp] theorem State.set_aptWaits (s : State) (r : RF) (v : Nat) : (s.set r v).aptWaits = s.aptWaits := rfl
@[simp] theorem State.set_flushes (s : State) (r : RF) (v : Nat) : (s.set r v).flushes = s.flushes := rfl
@[simp] theorem State.set_notices (s : State) (r : RF) (v : Nat) : (s.set r v).notices = s.notices := rfl
@[simp] theorem State.set_acctCmds (s : State) (r : RF) (v : Nat) : (s.set r v).acctCmds = s.acctCmds := rfl
@[simp] theorem State.set_entries (s : State) (r : RF) (v : Nat) : (s.set r v).entries = s.entries := rfl
@[simp] theorem State.set_lmatches (s : State) (r : RF) (v : Nat) : (s.set r v).lmatches = s.lmatches := rfl
@[simp] theorem State.set_ovfBufs (s : State) (r : RF) (v : Nat) : (s.set r v).ovfBufs = s.ovfBufs := rfl
@[simp] theorem State.set_tags (s : State) (r : RF) (v : Nat) : (s.set r v).tags = s.tags := rfl
@[simp] theorem State.set_moveWait (s : State) (r : RF) (v : Nat) : (s.set r v).moveWait = s.moveWait := rfl
@[simp] theorem State.set_movOwn (s : State) (r : RF) (v : Nat) : (s.set r v).movOwn = s.movOwn := rfl
@[simp] theorem State.set_ctxSent (s : State) (r : RF) (v : Nat) : (s.set r v).ctxSent = s.ctxSent := rfl
@[simp] theorem State.set_clhIn (s : State) (r : RF) (v : Nat) : (s.set r v).clhIn = s.clhIn := rfl
@[simp] theorem State.set_tptIn (s : State) (r : RF) (v : Nat) : (s.set r v).tptIn = s.tptIn := rfl
@[simp] theorem State.set_relayIn (s : State) (r : RF) (v : Nat) : (s.set r v).relayIn = s.relayIn := rfl
@[simp] theorem State.set_mgIn (s : State) (r : RF) (v : Nat) : (s.set r v).mgIn = s.mgIn := rfl
@[simp] theorem State.set_mcIn (s : State) (r : RF) (v : Nat) : (s.set r v).mcIn = s.mcIn := rfl
@[simp] theorem State.set_fifelIn (s : State) (r : RF) (v : Nat) : (s.set r v).fifelIn = s.fifelIn := rfl
@[simp] theorem State.set_qsRx (s : State) (r : RF) (v : Nat) : (s.set r v).qsRx = s.qsRx := rfl
@[simp] theorem State.set_qsHere (s : State) (r : RF) (v : Nat) : (s.set r v).qsHere = s.qsHere := rfl
@[simp] theorem State.set_qsWait (s : State) (r : RF) (v : Nat) : (s.set r v).qsWait = s.qsWait := rfl
@[simp] theorem State.set_qsInj (s : State) (r : RF) (v : Nat) : (s.set r v).qsInj = s.qsInj := rfl
@[simp] theorem State.set_samples (s : State) (r : RF) (v : Nat) : (s.set r v).samples = s.samples := rfl
@[simp] theorem State.set_sampleLost (s : State) (r : RF) (v : Nat) : (s.set r v).sampleLost = s.sampleLost := rfl
@[simp] theorem State.set_hmk (s : State) (r : RF) (v : Nat) : (s.set r v).hmk = s.hmk := rfl
@[simp] theorem State.set_clh (s : State) (r : RF) (v : Nat) : (s.set r v).clh = s.clh := rfl
@[simp] theorem State.set_pwr (s : State) (r : RF) (v : Nat) : (s.set r v).pwr = s.pwr := rfl
@[simp] theorem State.set_boot (s : State) (r : RF) (v : Nat) : (s.set r v).boot = s.boot := rfl
@[simp] theorem State.set_izg (s : State) (r : RF) (v : Nat) : (s.set r v).izg = s.izg := rfl
@[simp] theorem State.set_wakeLow (s : State) (r : RF) (v : Nat) : (s.set r v).wakeLow = s.wakeLow := rfl
@[simp] theorem State.set_trigFall (s : State) (r : RF) (v : Nat) : (s.set r v).trigFall = s.trigFall := rfl
@[simp] theorem State.set_clk (s : State) (r : RF) (v : Nat) : (s.set r v).clk = s.clk := rfl
@[simp] theorem State.set_rotate (s : State) (r : RF) (v : Nat) : (s.set r v).rotate = s.rotate := rfl
@[simp] theorem State.set_freeCtr (s : State) (r : RF) (v : Nat) : (s.set r v).freeCtr = s.freeCtr := rfl
@[simp] theorem State.set_nextId (s : State) (r : RF) (v : Nat) : (s.set r v).nextId = s.nextId := rfl
@[simp] theorem State.set_out (s : State) (r : RF) (v : Nat) : (s.set r v).out = s.out := rfl
@[simp] theorem State.set_pending (s : State) (r : RF) (v : Nat) : (s.set r v).pending = s.pending := rfl

/-! ### setWord -/

@[simp] theorem State.setWord_ports (s : State) (r : RF) (v : Word) : (s.setWord r v).ports = s.ports := rfl
@[simp] theorem State.setWord_hls (s : State) (r : RF) (v : Word) : (s.setWord r v).hls = s.hls := rfl
@[simp] theorem State.setWord_fns (s : State) (r : RF) (v : Word) : (s.setWord r v).fns = s.fns := rfl
@[simp] theorem State.setWord_accts (s : State) (r : RF) (v : Word) : (s.setWord r v).accts = s.accts := rfl
@[simp] theorem State.setWord_ctxs (s : State) (r : RF) (v : Word) : (s.setWord r v).ctxs = s.ctxs := rfl
@[simp] theorem State.setWord_trees (s : State) (r : RF) (v : Word) : (s.setWord r v).trees = s.trees := rfl
@[simp] theorem State.setWord_movs (s : State) (r : RF) (v : Word) : (s.setWord r v).movs = s.movs := rfl
@[simp] theorem State.setWord_srcMsgs (s : State) (r : RF) (v : Word) : (s.setWord r v).srcMsgs = s.srcMsgs := rfl
@[simp] theorem State.setWord_openMsgs (s : State) (r : RF) (v : Word) : (s.setWord r v).openMsgs = s.openMsgs := rfl
@[simp] theorem State.setWord_filter (s : State) (r : RF) (v : Word) : (s.setWord r v).filter = s.filter := rfl
@[simp] theorem State.setWord_book (s : State) (r : RF) (v : Word) : (s.setWord r v).book = s.book := rfl
@[simp] theorem State.setWord_keyCache (s : State) (r : RF) (v : Word) : (s.setWord r v).keyCache = s.keyCache := rfl
@[simp] theorem State.setWord_rankCache (s : State) (r : RF) (v : Word) : (s.setWord r v).rankCache = s.rankCache := rfl
@[simp] theorem State.setWord_orders (s : State) (r : RF) (v : Word) : (s.setWord r v).orders = s.orders := rfl
@[simp] theorem State.setWord_aptWaits (s : State) (r : RF) (v : Word) : (s.setWord r v).aptWaits = s.aptWaits := rfl
@[simp] theorem State.setWord_flushes (s : State) (r : RF) (v : Word) : (s.setWord r v).flushes = s.flushes := rfl
@[simp] theorem State.setWord_notices (s : State) (r : RF) (v : Word) : (s.setWord r v).notices = s.notices := rfl
@[simp] theorem State.setWord_acctCmds (s : State) (r : RF) (v : Word) : (s.setWord r v).acctCmds = s.acctCmds := rfl
@[simp] theorem State.setWord_entries (s : State) (r : RF) (v : Word) : (s.setWord r v).entries = s.entries := rfl
@[simp] theorem State.setWord_lmatches (s : State) (r : RF) (v : Word) : (s.setWord r v).lmatches = s.lmatches := rfl
@[simp] theorem State.setWord_ovfBufs (s : State) (r : RF) (v : Word) : (s.setWord r v).ovfBufs = s.ovfBufs := rfl
@[simp] theorem State.setWord_tags (s : State) (r : RF) (v : Word) : (s.setWord r v).tags = s.tags := rfl
@[simp] theorem State.setWord_moveWait (s : State) (r : RF) (v : Word) : (s.setWord r v).moveWait = s.moveWait := rfl
@[simp] theorem State.setWord_movOwn (s : State) (r : RF) (v : Word) : (s.setWord r v).movOwn = s.movOwn := rfl
@[simp] theorem State.setWord_ctxSent (s : State) (r : RF) (v : Word) : (s.setWord r v).ctxSent = s.ctxSent := rfl
@[simp] theorem State.setWord_clhIn (s : State) (r : RF) (v : Word) : (s.setWord r v).clhIn = s.clhIn := rfl
@[simp] theorem State.setWord_tptIn (s : State) (r : RF) (v : Word) : (s.setWord r v).tptIn = s.tptIn := rfl
@[simp] theorem State.setWord_relayIn (s : State) (r : RF) (v : Word) : (s.setWord r v).relayIn = s.relayIn := rfl
@[simp] theorem State.setWord_mgIn (s : State) (r : RF) (v : Word) : (s.setWord r v).mgIn = s.mgIn := rfl
@[simp] theorem State.setWord_mcIn (s : State) (r : RF) (v : Word) : (s.setWord r v).mcIn = s.mcIn := rfl
@[simp] theorem State.setWord_fifelIn (s : State) (r : RF) (v : Word) : (s.setWord r v).fifelIn = s.fifelIn := rfl
@[simp] theorem State.setWord_qsRx (s : State) (r : RF) (v : Word) : (s.setWord r v).qsRx = s.qsRx := rfl
@[simp] theorem State.setWord_qsHere (s : State) (r : RF) (v : Word) : (s.setWord r v).qsHere = s.qsHere := rfl
@[simp] theorem State.setWord_qsWait (s : State) (r : RF) (v : Word) : (s.setWord r v).qsWait = s.qsWait := rfl
@[simp] theorem State.setWord_qsInj (s : State) (r : RF) (v : Word) : (s.setWord r v).qsInj = s.qsInj := rfl
@[simp] theorem State.setWord_samples (s : State) (r : RF) (v : Word) : (s.setWord r v).samples = s.samples := rfl
@[simp] theorem State.setWord_sampleLost (s : State) (r : RF) (v : Word) : (s.setWord r v).sampleLost = s.sampleLost := rfl
@[simp] theorem State.setWord_hmk (s : State) (r : RF) (v : Word) : (s.setWord r v).hmk = s.hmk := rfl
@[simp] theorem State.setWord_clh (s : State) (r : RF) (v : Word) : (s.setWord r v).clh = s.clh := rfl
@[simp] theorem State.setWord_pwr (s : State) (r : RF) (v : Word) : (s.setWord r v).pwr = s.pwr := rfl
@[simp] theorem State.setWord_boot (s : State) (r : RF) (v : Word) : (s.setWord r v).boot = s.boot := rfl
@[simp] theorem State.setWord_izg (s : State) (r : RF) (v : Word) : (s.setWord r v).izg = s.izg := rfl
@[simp] theorem State.setWord_wakeLow (s : State) (r : RF) (v : Word) : (s.setWord r v).wakeLow = s.wakeLow := rfl
@[simp] theorem State.setWord_trigFall (s : State) (r : RF) (v : Word) : (s.setWord r v).trigFall = s.trigFall := rfl
@[simp] theorem State.setWord_clk (s : State) (r : RF) (v : Word) : (s.setWord r v).clk = s.clk := rfl
@[simp] theorem State.setWord_rotate (s : State) (r : RF) (v : Word) : (s.setWord r v).rotate = s.rotate := rfl
@[simp] theorem State.setWord_freeCtr (s : State) (r : RF) (v : Word) : (s.setWord r v).freeCtr = s.freeCtr := rfl
@[simp] theorem State.setWord_nextId (s : State) (r : RF) (v : Word) : (s.setWord r v).nextId = s.nextId := rfl
@[simp] theorem State.setWord_out (s : State) (r : RF) (v : Word) : (s.setWord r v).out = s.out := rfl
@[simp] theorem State.setWord_pending (s : State) (r : RF) (v : Word) : (s.setWord r v).pending = s.pending := rfl

/-! ### setB -/

@[simp] theorem State.setB_ports (s : State) (r : RF) (b : Bool) : (s.setB r b).ports = s.ports := rfl
@[simp] theorem State.setB_hls (s : State) (r : RF) (b : Bool) : (s.setB r b).hls = s.hls := rfl
@[simp] theorem State.setB_fns (s : State) (r : RF) (b : Bool) : (s.setB r b).fns = s.fns := rfl
@[simp] theorem State.setB_accts (s : State) (r : RF) (b : Bool) : (s.setB r b).accts = s.accts := rfl
@[simp] theorem State.setB_ctxs (s : State) (r : RF) (b : Bool) : (s.setB r b).ctxs = s.ctxs := rfl
@[simp] theorem State.setB_trees (s : State) (r : RF) (b : Bool) : (s.setB r b).trees = s.trees := rfl
@[simp] theorem State.setB_movs (s : State) (r : RF) (b : Bool) : (s.setB r b).movs = s.movs := rfl
@[simp] theorem State.setB_srcMsgs (s : State) (r : RF) (b : Bool) : (s.setB r b).srcMsgs = s.srcMsgs := rfl
@[simp] theorem State.setB_openMsgs (s : State) (r : RF) (b : Bool) : (s.setB r b).openMsgs = s.openMsgs := rfl
@[simp] theorem State.setB_filter (s : State) (r : RF) (b : Bool) : (s.setB r b).filter = s.filter := rfl
@[simp] theorem State.setB_book (s : State) (r : RF) (b : Bool) : (s.setB r b).book = s.book := rfl
@[simp] theorem State.setB_keyCache (s : State) (r : RF) (b : Bool) : (s.setB r b).keyCache = s.keyCache := rfl
@[simp] theorem State.setB_rankCache (s : State) (r : RF) (b : Bool) : (s.setB r b).rankCache = s.rankCache := rfl
@[simp] theorem State.setB_orders (s : State) (r : RF) (b : Bool) : (s.setB r b).orders = s.orders := rfl
@[simp] theorem State.setB_aptWaits (s : State) (r : RF) (b : Bool) : (s.setB r b).aptWaits = s.aptWaits := rfl
@[simp] theorem State.setB_flushes (s : State) (r : RF) (b : Bool) : (s.setB r b).flushes = s.flushes := rfl
@[simp] theorem State.setB_notices (s : State) (r : RF) (b : Bool) : (s.setB r b).notices = s.notices := rfl
@[simp] theorem State.setB_acctCmds (s : State) (r : RF) (b : Bool) : (s.setB r b).acctCmds = s.acctCmds := rfl
@[simp] theorem State.setB_entries (s : State) (r : RF) (b : Bool) : (s.setB r b).entries = s.entries := rfl
@[simp] theorem State.setB_lmatches (s : State) (r : RF) (b : Bool) : (s.setB r b).lmatches = s.lmatches := rfl
@[simp] theorem State.setB_ovfBufs (s : State) (r : RF) (b : Bool) : (s.setB r b).ovfBufs = s.ovfBufs := rfl
@[simp] theorem State.setB_tags (s : State) (r : RF) (b : Bool) : (s.setB r b).tags = s.tags := rfl
@[simp] theorem State.setB_moveWait (s : State) (r : RF) (b : Bool) : (s.setB r b).moveWait = s.moveWait := rfl
@[simp] theorem State.setB_movOwn (s : State) (r : RF) (b : Bool) : (s.setB r b).movOwn = s.movOwn := rfl
@[simp] theorem State.setB_ctxSent (s : State) (r : RF) (b : Bool) : (s.setB r b).ctxSent = s.ctxSent := rfl
@[simp] theorem State.setB_clhIn (s : State) (r : RF) (b : Bool) : (s.setB r b).clhIn = s.clhIn := rfl
@[simp] theorem State.setB_tptIn (s : State) (r : RF) (b : Bool) : (s.setB r b).tptIn = s.tptIn := rfl
@[simp] theorem State.setB_relayIn (s : State) (r : RF) (b : Bool) : (s.setB r b).relayIn = s.relayIn := rfl
@[simp] theorem State.setB_mgIn (s : State) (r : RF) (b : Bool) : (s.setB r b).mgIn = s.mgIn := rfl
@[simp] theorem State.setB_mcIn (s : State) (r : RF) (b : Bool) : (s.setB r b).mcIn = s.mcIn := rfl
@[simp] theorem State.setB_fifelIn (s : State) (r : RF) (b : Bool) : (s.setB r b).fifelIn = s.fifelIn := rfl
@[simp] theorem State.setB_qsRx (s : State) (r : RF) (b : Bool) : (s.setB r b).qsRx = s.qsRx := rfl
@[simp] theorem State.setB_qsHere (s : State) (r : RF) (b : Bool) : (s.setB r b).qsHere = s.qsHere := rfl
@[simp] theorem State.setB_qsWait (s : State) (r : RF) (b : Bool) : (s.setB r b).qsWait = s.qsWait := rfl
@[simp] theorem State.setB_qsInj (s : State) (r : RF) (b : Bool) : (s.setB r b).qsInj = s.qsInj := rfl
@[simp] theorem State.setB_samples (s : State) (r : RF) (b : Bool) : (s.setB r b).samples = s.samples := rfl
@[simp] theorem State.setB_sampleLost (s : State) (r : RF) (b : Bool) : (s.setB r b).sampleLost = s.sampleLost := rfl
@[simp] theorem State.setB_hmk (s : State) (r : RF) (b : Bool) : (s.setB r b).hmk = s.hmk := rfl
@[simp] theorem State.setB_clh (s : State) (r : RF) (b : Bool) : (s.setB r b).clh = s.clh := rfl
@[simp] theorem State.setB_pwr (s : State) (r : RF) (b : Bool) : (s.setB r b).pwr = s.pwr := rfl
@[simp] theorem State.setB_boot (s : State) (r : RF) (b : Bool) : (s.setB r b).boot = s.boot := rfl
@[simp] theorem State.setB_izg (s : State) (r : RF) (b : Bool) : (s.setB r b).izg = s.izg := rfl
@[simp] theorem State.setB_wakeLow (s : State) (r : RF) (b : Bool) : (s.setB r b).wakeLow = s.wakeLow := rfl
@[simp] theorem State.setB_trigFall (s : State) (r : RF) (b : Bool) : (s.setB r b).trigFall = s.trigFall := rfl
@[simp] theorem State.setB_clk (s : State) (r : RF) (b : Bool) : (s.setB r b).clk = s.clk := rfl
@[simp] theorem State.setB_rotate (s : State) (r : RF) (b : Bool) : (s.setB r b).rotate = s.rotate := rfl
@[simp] theorem State.setB_freeCtr (s : State) (r : RF) (b : Bool) : (s.setB r b).freeCtr = s.freeCtr := rfl
@[simp] theorem State.setB_nextId (s : State) (r : RF) (b : Bool) : (s.setB r b).nextId = s.nextId := rfl
@[simp] theorem State.setB_out (s : State) (r : RF) (b : Bool) : (s.setB r b).out = s.out := rfl
@[simp] theorem State.setB_pending (s : State) (r : RF) (b : Bool) : (s.setB r b).pending = s.pending := rfl

/-! ### emit -/

@[simp] theorem State.emit_regs (s : State) (e : Emit) : (s.emit e).regs = s.regs := rfl
@[simp] theorem State.emit_ports (s : State) (e : Emit) : (s.emit e).ports = s.ports := rfl
@[simp] theorem State.emit_hls (s : State) (e : Emit) : (s.emit e).hls = s.hls := rfl
@[simp] theorem State.emit_fns (s : State) (e : Emit) : (s.emit e).fns = s.fns := rfl
@[simp] theorem State.emit_accts (s : State) (e : Emit) : (s.emit e).accts = s.accts := rfl
@[simp] theorem State.emit_ctxs (s : State) (e : Emit) : (s.emit e).ctxs = s.ctxs := rfl
@[simp] theorem State.emit_trees (s : State) (e : Emit) : (s.emit e).trees = s.trees := rfl
@[simp] theorem State.emit_movs (s : State) (e : Emit) : (s.emit e).movs = s.movs := rfl
@[simp] theorem State.emit_srcMsgs (s : State) (e : Emit) : (s.emit e).srcMsgs = s.srcMsgs := rfl
@[simp] theorem State.emit_openMsgs (s : State) (e : Emit) : (s.emit e).openMsgs = s.openMsgs := rfl
@[simp] theorem State.emit_filter (s : State) (e : Emit) : (s.emit e).filter = s.filter := rfl
@[simp] theorem State.emit_book (s : State) (e : Emit) : (s.emit e).book = s.book := rfl
@[simp] theorem State.emit_keyCache (s : State) (e : Emit) : (s.emit e).keyCache = s.keyCache := rfl
@[simp] theorem State.emit_rankCache (s : State) (e : Emit) : (s.emit e).rankCache = s.rankCache := rfl
@[simp] theorem State.emit_orders (s : State) (e : Emit) : (s.emit e).orders = s.orders := rfl
@[simp] theorem State.emit_aptWaits (s : State) (e : Emit) : (s.emit e).aptWaits = s.aptWaits := rfl
@[simp] theorem State.emit_flushes (s : State) (e : Emit) : (s.emit e).flushes = s.flushes := rfl
@[simp] theorem State.emit_notices (s : State) (e : Emit) : (s.emit e).notices = s.notices := rfl
@[simp] theorem State.emit_acctCmds (s : State) (e : Emit) : (s.emit e).acctCmds = s.acctCmds := rfl
@[simp] theorem State.emit_entries (s : State) (e : Emit) : (s.emit e).entries = s.entries := rfl
@[simp] theorem State.emit_lmatches (s : State) (e : Emit) : (s.emit e).lmatches = s.lmatches := rfl
@[simp] theorem State.emit_ovfBufs (s : State) (e : Emit) : (s.emit e).ovfBufs = s.ovfBufs := rfl
@[simp] theorem State.emit_tags (s : State) (e : Emit) : (s.emit e).tags = s.tags := rfl
@[simp] theorem State.emit_moveWait (s : State) (e : Emit) : (s.emit e).moveWait = s.moveWait := rfl
@[simp] theorem State.emit_movOwn (s : State) (e : Emit) : (s.emit e).movOwn = s.movOwn := rfl
@[simp] theorem State.emit_ctxSent (s : State) (e : Emit) : (s.emit e).ctxSent = s.ctxSent := rfl
@[simp] theorem State.emit_clhIn (s : State) (e : Emit) : (s.emit e).clhIn = s.clhIn := rfl
@[simp] theorem State.emit_tptIn (s : State) (e : Emit) : (s.emit e).tptIn = s.tptIn := rfl
@[simp] theorem State.emit_relayIn (s : State) (e : Emit) : (s.emit e).relayIn = s.relayIn := rfl
@[simp] theorem State.emit_mgIn (s : State) (e : Emit) : (s.emit e).mgIn = s.mgIn := rfl
@[simp] theorem State.emit_mcIn (s : State) (e : Emit) : (s.emit e).mcIn = s.mcIn := rfl
@[simp] theorem State.emit_fifelIn (s : State) (e : Emit) : (s.emit e).fifelIn = s.fifelIn := rfl
@[simp] theorem State.emit_qsRx (s : State) (e : Emit) : (s.emit e).qsRx = s.qsRx := rfl
@[simp] theorem State.emit_qsHere (s : State) (e : Emit) : (s.emit e).qsHere = s.qsHere := rfl
@[simp] theorem State.emit_qsWait (s : State) (e : Emit) : (s.emit e).qsWait = s.qsWait := rfl
@[simp] theorem State.emit_qsInj (s : State) (e : Emit) : (s.emit e).qsInj = s.qsInj := rfl
@[simp] theorem State.emit_samples (s : State) (e : Emit) : (s.emit e).samples = s.samples := rfl
@[simp] theorem State.emit_sampleLost (s : State) (e : Emit) : (s.emit e).sampleLost = s.sampleLost := rfl
@[simp] theorem State.emit_hmk (s : State) (e : Emit) : (s.emit e).hmk = s.hmk := rfl
@[simp] theorem State.emit_clh (s : State) (e : Emit) : (s.emit e).clh = s.clh := rfl
@[simp] theorem State.emit_pwr (s : State) (e : Emit) : (s.emit e).pwr = s.pwr := rfl
@[simp] theorem State.emit_boot (s : State) (e : Emit) : (s.emit e).boot = s.boot := rfl
@[simp] theorem State.emit_izg (s : State) (e : Emit) : (s.emit e).izg = s.izg := rfl
@[simp] theorem State.emit_wakeLow (s : State) (e : Emit) : (s.emit e).wakeLow = s.wakeLow := rfl
@[simp] theorem State.emit_trigFall (s : State) (e : Emit) : (s.emit e).trigFall = s.trigFall := rfl
@[simp] theorem State.emit_clk (s : State) (e : Emit) : (s.emit e).clk = s.clk := rfl
@[simp] theorem State.emit_rotate (s : State) (e : Emit) : (s.emit e).rotate = s.rotate := rfl
@[simp] theorem State.emit_freeCtr (s : State) (e : Emit) : (s.emit e).freeCtr = s.freeCtr := rfl
@[simp] theorem State.emit_nextId (s : State) (e : Emit) : (s.emit e).nextId = s.nextId := rfl
@[simp] theorem State.emit_pending (s : State) (e : Emit) : (s.emit e).pending = s.pending := rfl
@[simp] theorem State.emit_word (s : State) (e : Emit) (q : RF) : (s.emit e).word q = s.word q := rfl
@[simp] theorem State.emit_get (s : State) (e : Emit) (q : RF) : (s.emit e).get q = s.get q := rfl
@[simp] theorem State.emit_on (s : State) (e : Emit) (q : RF) : (s.emit e).on q = s.on q := rfl

/-! ### raise -/

@[simp] theorem State.raise_regs (s : State) (k c a d : Nat) : (s.raise k c a d).regs = s.regs := rfl
@[simp] theorem State.raise_ports (s : State) (k c a d : Nat) : (s.raise k c a d).ports = s.ports := rfl
@[simp] theorem State.raise_hls (s : State) (k c a d : Nat) : (s.raise k c a d).hls = s.hls := rfl
@[simp] theorem State.raise_fns (s : State) (k c a d : Nat) : (s.raise k c a d).fns = s.fns := rfl
@[simp] theorem State.raise_accts (s : State) (k c a d : Nat) : (s.raise k c a d).accts = s.accts := rfl
@[simp] theorem State.raise_ctxs (s : State) (k c a d : Nat) : (s.raise k c a d).ctxs = s.ctxs := rfl
@[simp] theorem State.raise_trees (s : State) (k c a d : Nat) : (s.raise k c a d).trees = s.trees := rfl
@[simp] theorem State.raise_movs (s : State) (k c a d : Nat) : (s.raise k c a d).movs = s.movs := rfl
@[simp] theorem State.raise_srcMsgs (s : State) (k c a d : Nat) : (s.raise k c a d).srcMsgs = s.srcMsgs := rfl
@[simp] theorem State.raise_openMsgs (s : State) (k c a d : Nat) : (s.raise k c a d).openMsgs = s.openMsgs := rfl
@[simp] theorem State.raise_filter (s : State) (k c a d : Nat) : (s.raise k c a d).filter = s.filter := rfl
@[simp] theorem State.raise_book (s : State) (k c a d : Nat) : (s.raise k c a d).book = s.book := rfl
@[simp] theorem State.raise_keyCache (s : State) (k c a d : Nat) : (s.raise k c a d).keyCache = s.keyCache := rfl
@[simp] theorem State.raise_rankCache (s : State) (k c a d : Nat) : (s.raise k c a d).rankCache = s.rankCache := rfl
@[simp] theorem State.raise_orders (s : State) (k c a d : Nat) : (s.raise k c a d).orders = s.orders := rfl
@[simp] theorem State.raise_aptWaits (s : State) (k c a d : Nat) : (s.raise k c a d).aptWaits = s.aptWaits := rfl
@[simp] theorem State.raise_flushes (s : State) (k c a d : Nat) : (s.raise k c a d).flushes = s.flushes := rfl
@[simp] theorem State.raise_notices (s : State) (k c a d : Nat) : (s.raise k c a d).notices = s.notices := rfl
@[simp] theorem State.raise_acctCmds (s : State) (k c a d : Nat) : (s.raise k c a d).acctCmds = s.acctCmds := rfl
@[simp] theorem State.raise_entries (s : State) (k c a d : Nat) : (s.raise k c a d).entries = s.entries := rfl
@[simp] theorem State.raise_lmatches (s : State) (k c a d : Nat) : (s.raise k c a d).lmatches = s.lmatches := rfl
@[simp] theorem State.raise_ovfBufs (s : State) (k c a d : Nat) : (s.raise k c a d).ovfBufs = s.ovfBufs := rfl
@[simp] theorem State.raise_tags (s : State) (k c a d : Nat) : (s.raise k c a d).tags = s.tags := rfl
@[simp] theorem State.raise_moveWait (s : State) (k c a d : Nat) : (s.raise k c a d).moveWait = s.moveWait := rfl
@[simp] theorem State.raise_movOwn (s : State) (k c a d : Nat) : (s.raise k c a d).movOwn = s.movOwn := rfl
@[simp] theorem State.raise_ctxSent (s : State) (k c a d : Nat) : (s.raise k c a d).ctxSent = s.ctxSent := rfl
@[simp] theorem State.raise_tptIn (s : State) (k c a d : Nat) : (s.raise k c a d).tptIn = s.tptIn := rfl
@[simp] theorem State.raise_relayIn (s : State) (k c a d : Nat) : (s.raise k c a d).relayIn = s.relayIn := rfl
@[simp] theorem State.raise_mgIn (s : State) (k c a d : Nat) : (s.raise k c a d).mgIn = s.mgIn := rfl
@[simp] theorem State.raise_mcIn (s : State) (k c a d : Nat) : (s.raise k c a d).mcIn = s.mcIn := rfl
@[simp] theorem State.raise_fifelIn (s : State) (k c a d : Nat) : (s.raise k c a d).fifelIn = s.fifelIn := rfl
@[simp] theorem State.raise_qsRx (s : State) (k c a d : Nat) : (s.raise k c a d).qsRx = s.qsRx := rfl
@[simp] theorem State.raise_qsHere (s : State) (k c a d : Nat) : (s.raise k c a d).qsHere = s.qsHere := rfl
@[simp] theorem State.raise_qsWait (s : State) (k c a d : Nat) : (s.raise k c a d).qsWait = s.qsWait := rfl
@[simp] theorem State.raise_qsInj (s : State) (k c a d : Nat) : (s.raise k c a d).qsInj = s.qsInj := rfl
@[simp] theorem State.raise_samples (s : State) (k c a d : Nat) : (s.raise k c a d).samples = s.samples := rfl
@[simp] theorem State.raise_sampleLost (s : State) (k c a d : Nat) : (s.raise k c a d).sampleLost = s.sampleLost := rfl
@[simp] theorem State.raise_hmk (s : State) (k c a d : Nat) : (s.raise k c a d).hmk = s.hmk := rfl
@[simp] theorem State.raise_clh (s : State) (k c a d : Nat) : (s.raise k c a d).clh = s.clh := rfl
@[simp] theorem State.raise_pwr (s : State) (k c a d : Nat) : (s.raise k c a d).pwr = s.pwr := rfl
@[simp] theorem State.raise_boot (s : State) (k c a d : Nat) : (s.raise k c a d).boot = s.boot := rfl
@[simp] theorem State.raise_izg (s : State) (k c a d : Nat) : (s.raise k c a d).izg = s.izg := rfl
@[simp] theorem State.raise_wakeLow (s : State) (k c a d : Nat) : (s.raise k c a d).wakeLow = s.wakeLow := rfl
@[simp] theorem State.raise_trigFall (s : State) (k c a d : Nat) : (s.raise k c a d).trigFall = s.trigFall := rfl
@[simp] theorem State.raise_clk (s : State) (k c a d : Nat) : (s.raise k c a d).clk = s.clk := rfl
@[simp] theorem State.raise_rotate (s : State) (k c a d : Nat) : (s.raise k c a d).rotate = s.rotate := rfl
@[simp] theorem State.raise_freeCtr (s : State) (k c a d : Nat) : (s.raise k c a d).freeCtr = s.freeCtr := rfl
@[simp] theorem State.raise_nextId (s : State) (k c a d : Nat) : (s.raise k c a d).nextId = s.nextId := rfl
@[simp] theorem State.raise_out (s : State) (k c a d : Nat) : (s.raise k c a d).out = s.out := rfl
@[simp] theorem State.raise_pending (s : State) (k c a d : Nat) : (s.raise k c a d).pending = s.pending := rfl
@[simp] theorem State.raise_word (s : State) (k c a d : Nat) (q : RF) : (s.raise k c a d).word q = s.word q := rfl
@[simp] theorem State.raise_get (s : State) (k c a d : Nat) (q : RF) : (s.raise k c a d).get q = s.get q := rfl
@[simp] theorem State.raise_on (s : State) (k c a d : Nat) (q : RF) : (s.raise k c a d).on q = s.on q := rfl

/-! ### modPort -/

@[simp] theorem State.modPort_regs (s : State) (p : Nat) (f : Port → Port) : (s.modPort p f).regs = s.regs := rfl
@[simp] theorem State.modPort_hls (s : State) (p : Nat) (f : Port → Port) : (s.modPort p f).hls = s.hls := rfl
@[simp] theorem State.modPort_fns (s : State) (p : Nat) (f : Port → Port) : (s.modPort p f).fns = s.fns := rfl
@[simp] theorem State.modPort_accts (s : State) (p : Nat) (f : Port → Port) : (s.modPort p f).accts = s.accts := rfl
@[simp] theorem State.modPort_ctxs (s : State) (p : Nat) (f : Port → Port) : (s.modPort p f).ctxs = s.ctxs := rfl
@[simp] theorem State.modPort_trees (s : State) (p : Nat) (f : Port → Port) : (s.modPort p f).trees = s.trees := rfl
@[simp] theorem State.modPort_movs (s : State) (p : Nat) (f : Port → Port) : (s.modPort p f).movs = s.movs := rfl
@[simp] theorem State.modPort_srcMsgs (s : State) (p : Nat) (f : Port → Port) : (s.modPort p f).srcMsgs = s.srcMsgs := rfl
@[simp] theorem State.modPort_openMsgs (s : State) (p : Nat) (f : Port → Port) : (s.modPort p f).openMsgs = s.openMsgs := rfl
@[simp] theorem State.modPort_filter (s : State) (p : Nat) (f : Port → Port) : (s.modPort p f).filter = s.filter := rfl
@[simp] theorem State.modPort_book (s : State) (p : Nat) (f : Port → Port) : (s.modPort p f).book = s.book := rfl
@[simp] theorem State.modPort_keyCache (s : State) (p : Nat) (f : Port → Port) : (s.modPort p f).keyCache = s.keyCache := rfl
@[simp] theorem State.modPort_rankCache (s : State) (p : Nat) (f : Port → Port) : (s.modPort p f).rankCache = s.rankCache := rfl
@[simp] theorem State.modPort_orders (s : State) (p : Nat) (f : Port → Port) : (s.modPort p f).orders = s.orders := rfl
@[simp] theorem State.modPort_aptWaits (s : State) (p : Nat) (f : Port → Port) : (s.modPort p f).aptWaits = s.aptWaits := rfl
@[simp] theorem State.modPort_flushes (s : State) (p : Nat) (f : Port → Port) : (s.modPort p f).flushes = s.flushes := rfl
@[simp] theorem State.modPort_notices (s : State) (p : Nat) (f : Port → Port) : (s.modPort p f).notices = s.notices := rfl
@[simp] theorem State.modPort_acctCmds (s : State) (p : Nat) (f : Port → Port) : (s.modPort p f).acctCmds = s.acctCmds := rfl
@[simp] theorem State.modPort_entries (s : State) (p : Nat) (f : Port → Port) : (s.modPort p f).entries = s.entries := rfl
@[simp] theorem State.modPort_lmatches (s : State) (p : Nat) (f : Port → Port) : (s.modPort p f).lmatches = s.lmatches := rfl
@[simp] theorem State.modPort_ovfBufs (s : State) (p : Nat) (f : Port → Port) : (s.modPort p f).ovfBufs = s.ovfBufs := rfl
@[simp] theorem State.modPort_tags (s : State) (p : Nat) (f : Port → Port) : (s.modPort p f).tags = s.tags := rfl
@[simp] theorem State.modPort_moveWait (s : State) (p : Nat) (f : Port → Port) : (s.modPort p f).moveWait = s.moveWait := rfl
@[simp] theorem State.modPort_movOwn (s : State) (p : Nat) (f : Port → Port) : (s.modPort p f).movOwn = s.movOwn := rfl
@[simp] theorem State.modPort_ctxSent (s : State) (p : Nat) (f : Port → Port) : (s.modPort p f).ctxSent = s.ctxSent := rfl
@[simp] theorem State.modPort_clhIn (s : State) (p : Nat) (f : Port → Port) : (s.modPort p f).clhIn = s.clhIn := rfl
@[simp] theorem State.modPort_tptIn (s : State) (p : Nat) (f : Port → Port) : (s.modPort p f).tptIn = s.tptIn := rfl
@[simp] theorem State.modPort_relayIn (s : State) (p : Nat) (f : Port → Port) : (s.modPort p f).relayIn = s.relayIn := rfl
@[simp] theorem State.modPort_mgIn (s : State) (p : Nat) (f : Port → Port) : (s.modPort p f).mgIn = s.mgIn := rfl
@[simp] theorem State.modPort_mcIn (s : State) (p : Nat) (f : Port → Port) : (s.modPort p f).mcIn = s.mcIn := rfl
@[simp] theorem State.modPort_fifelIn (s : State) (p : Nat) (f : Port → Port) : (s.modPort p f).fifelIn = s.fifelIn := rfl
@[simp] theorem State.modPort_qsRx (s : State) (p : Nat) (f : Port → Port) : (s.modPort p f).qsRx = s.qsRx := rfl
@[simp] theorem State.modPort_qsHere (s : State) (p : Nat) (f : Port → Port) : (s.modPort p f).qsHere = s.qsHere := rfl
@[simp] theorem State.modPort_qsWait (s : State) (p : Nat) (f : Port → Port) : (s.modPort p f).qsWait = s.qsWait := rfl
@[simp] theorem State.modPort_qsInj (s : State) (p : Nat) (f : Port → Port) : (s.modPort p f).qsInj = s.qsInj := rfl
@[simp] theorem State.modPort_samples (s : State) (p : Nat) (f : Port → Port) : (s.modPort p f).samples = s.samples := rfl
@[simp] theorem State.modPort_sampleLost (s : State) (p : Nat) (f : Port → Port) : (s.modPort p f).sampleLost = s.sampleLost := rfl
@[simp] theorem State.modPort_hmk (s : State) (p : Nat) (f : Port → Port) : (s.modPort p f).hmk = s.hmk := rfl
@[simp] theorem State.modPort_clh (s : State) (p : Nat) (f : Port → Port) : (s.modPort p f).clh = s.clh := rfl
@[simp] theorem State.modPort_pwr (s : State) (p : Nat) (f : Port → Port) : (s.modPort p f).pwr = s.pwr := rfl
@[simp] theorem State.modPort_boot (s : State) (p : Nat) (f : Port → Port) : (s.modPort p f).boot = s.boot := rfl
@[simp] theorem State.modPort_izg (s : State) (p : Nat) (f : Port → Port) : (s.modPort p f).izg = s.izg := rfl
@[simp] theorem State.modPort_wakeLow (s : State) (p : Nat) (f : Port → Port) : (s.modPort p f).wakeLow = s.wakeLow := rfl
@[simp] theorem State.modPort_trigFall (s : State) (p : Nat) (f : Port → Port) : (s.modPort p f).trigFall = s.trigFall := rfl
@[simp] theorem State.modPort_clk (s : State) (p : Nat) (f : Port → Port) : (s.modPort p f).clk = s.clk := rfl
@[simp] theorem State.modPort_rotate (s : State) (p : Nat) (f : Port → Port) : (s.modPort p f).rotate = s.rotate := rfl
@[simp] theorem State.modPort_freeCtr (s : State) (p : Nat) (f : Port → Port) : (s.modPort p f).freeCtr = s.freeCtr := rfl
@[simp] theorem State.modPort_nextId (s : State) (p : Nat) (f : Port → Port) : (s.modPort p f).nextId = s.nextId := rfl
@[simp] theorem State.modPort_out (s : State) (p : Nat) (f : Port → Port) : (s.modPort p f).out = s.out := rfl
@[simp] theorem State.modPort_pending (s : State) (p : Nat) (f : Port → Port) : (s.modPort p f).pending = s.pending := rfl
@[simp] theorem State.modPort_word (s : State) (p : Nat) (f : Port → Port) (q : RF) : (s.modPort p f).word q = s.word q := rfl
@[simp] theorem State.modPort_get (s : State) (p : Nat) (f : Port → Port) (q : RF) : (s.modPort p f).get q = s.get q := rfl
@[simp] theorem State.modPort_on (s : State) (p : Nat) (f : Port → Port) (q : RF) : (s.modPort p f).on q = s.on q := rfl

/-! ### modHl -/

@[simp] theorem State.modHl_regs (s : State) (n : Nat) (f : Hl → Hl) : (s.modHl n f).regs = s.regs := rfl
@[simp] theorem State.modHl_ports (s : State) (n : Nat) (f : Hl → Hl) : (s.modHl n f).ports = s.ports := rfl
@[simp] theorem State.modHl_fns (s : State) (n : Nat) (f : Hl → Hl) : (s.modHl n f).fns = s.fns := rfl
@[simp] theorem State.modHl_accts (s : State) (n : Nat) (f : Hl → Hl) : (s.modHl n f).accts = s.accts := rfl
@[simp] theorem State.modHl_ctxs (s : State) (n : Nat) (f : Hl → Hl) : (s.modHl n f).ctxs = s.ctxs := rfl
@[simp] theorem State.modHl_trees (s : State) (n : Nat) (f : Hl → Hl) : (s.modHl n f).trees = s.trees := rfl
@[simp] theorem State.modHl_movs (s : State) (n : Nat) (f : Hl → Hl) : (s.modHl n f).movs = s.movs := rfl
@[simp] theorem State.modHl_srcMsgs (s : State) (n : Nat) (f : Hl → Hl) : (s.modHl n f).srcMsgs = s.srcMsgs := rfl
@[simp] theorem State.modHl_openMsgs (s : State) (n : Nat) (f : Hl → Hl) : (s.modHl n f).openMsgs = s.openMsgs := rfl
@[simp] theorem State.modHl_filter (s : State) (n : Nat) (f : Hl → Hl) : (s.modHl n f).filter = s.filter := rfl
@[simp] theorem State.modHl_book (s : State) (n : Nat) (f : Hl → Hl) : (s.modHl n f).book = s.book := rfl
@[simp] theorem State.modHl_keyCache (s : State) (n : Nat) (f : Hl → Hl) : (s.modHl n f).keyCache = s.keyCache := rfl
@[simp] theorem State.modHl_rankCache (s : State) (n : Nat) (f : Hl → Hl) : (s.modHl n f).rankCache = s.rankCache := rfl
@[simp] theorem State.modHl_orders (s : State) (n : Nat) (f : Hl → Hl) : (s.modHl n f).orders = s.orders := rfl
@[simp] theorem State.modHl_aptWaits (s : State) (n : Nat) (f : Hl → Hl) : (s.modHl n f).aptWaits = s.aptWaits := rfl
@[simp] theorem State.modHl_flushes (s : State) (n : Nat) (f : Hl → Hl) : (s.modHl n f).flushes = s.flushes := rfl
@[simp] theorem State.modHl_notices (s : State) (n : Nat) (f : Hl → Hl) : (s.modHl n f).notices = s.notices := rfl
@[simp] theorem State.modHl_acctCmds (s : State) (n : Nat) (f : Hl → Hl) : (s.modHl n f).acctCmds = s.acctCmds := rfl
@[simp] theorem State.modHl_entries (s : State) (n : Nat) (f : Hl → Hl) : (s.modHl n f).entries = s.entries := rfl
@[simp] theorem State.modHl_lmatches (s : State) (n : Nat) (f : Hl → Hl) : (s.modHl n f).lmatches = s.lmatches := rfl
@[simp] theorem State.modHl_ovfBufs (s : State) (n : Nat) (f : Hl → Hl) : (s.modHl n f).ovfBufs = s.ovfBufs := rfl
@[simp] theorem State.modHl_tags (s : State) (n : Nat) (f : Hl → Hl) : (s.modHl n f).tags = s.tags := rfl
@[simp] theorem State.modHl_moveWait (s : State) (n : Nat) (f : Hl → Hl) : (s.modHl n f).moveWait = s.moveWait := rfl
@[simp] theorem State.modHl_movOwn (s : State) (n : Nat) (f : Hl → Hl) : (s.modHl n f).movOwn = s.movOwn := rfl
@[simp] theorem State.modHl_ctxSent (s : State) (n : Nat) (f : Hl → Hl) : (s.modHl n f).ctxSent = s.ctxSent := rfl
@[simp] theorem State.modHl_clhIn (s : State) (n : Nat) (f : Hl → Hl) : (s.modHl n f).clhIn = s.clhIn := rfl
@[simp] theorem State.modHl_tptIn (s : State) (n : Nat) (f : Hl → Hl) : (s.modHl n f).tptIn = s.tptIn := rfl
@[simp] theorem State.modHl_relayIn (s : State) (n : Nat) (f : Hl → Hl) : (s.modHl n f).relayIn = s.relayIn := rfl
@[simp] theorem State.modHl_mgIn (s : State) (n : Nat) (f : Hl → Hl) : (s.modHl n f).mgIn = s.mgIn := rfl
@[simp] theorem State.modHl_mcIn (s : State) (n : Nat) (f : Hl → Hl) : (s.modHl n f).mcIn = s.mcIn := rfl
@[simp] theorem State.modHl_fifelIn (s : State) (n : Nat) (f : Hl → Hl) : (s.modHl n f).fifelIn = s.fifelIn := rfl
@[simp] theorem State.modHl_qsRx (s : State) (n : Nat) (f : Hl → Hl) : (s.modHl n f).qsRx = s.qsRx := rfl
@[simp] theorem State.modHl_qsHere (s : State) (n : Nat) (f : Hl → Hl) : (s.modHl n f).qsHere = s.qsHere := rfl
@[simp] theorem State.modHl_qsWait (s : State) (n : Nat) (f : Hl → Hl) : (s.modHl n f).qsWait = s.qsWait := rfl
@[simp] theorem State.modHl_qsInj (s : State) (n : Nat) (f : Hl → Hl) : (s.modHl n f).qsInj = s.qsInj := rfl
@[simp] theorem State.modHl_samples (s : State) (n : Nat) (f : Hl → Hl) : (s.modHl n f).samples = s.samples := rfl
@[simp] theorem State.modHl_sampleLost (s : State) (n : Nat) (f : Hl → Hl) : (s.modHl n f).sampleLost = s.sampleLost := rfl
@[simp] theorem State.modHl_hmk (s : State) (n : Nat) (f : Hl → Hl) : (s.modHl n f).hmk = s.hmk := rfl
@[simp] theorem State.modHl_clh (s : State) (n : Nat) (f : Hl → Hl) : (s.modHl n f).clh = s.clh := rfl
@[simp] theorem State.modHl_pwr (s : State) (n : Nat) (f : Hl → Hl) : (s.modHl n f).pwr = s.pwr := rfl
@[simp] theorem State.modHl_boot (s : State) (n : Nat) (f : Hl → Hl) : (s.modHl n f).boot = s.boot := rfl
@[simp] theorem State.modHl_izg (s : State) (n : Nat) (f : Hl → Hl) : (s.modHl n f).izg = s.izg := rfl
@[simp] theorem State.modHl_wakeLow (s : State) (n : Nat) (f : Hl → Hl) : (s.modHl n f).wakeLow = s.wakeLow := rfl
@[simp] theorem State.modHl_trigFall (s : State) (n : Nat) (f : Hl → Hl) : (s.modHl n f).trigFall = s.trigFall := rfl
@[simp] theorem State.modHl_clk (s : State) (n : Nat) (f : Hl → Hl) : (s.modHl n f).clk = s.clk := rfl
@[simp] theorem State.modHl_rotate (s : State) (n : Nat) (f : Hl → Hl) : (s.modHl n f).rotate = s.rotate := rfl
@[simp] theorem State.modHl_freeCtr (s : State) (n : Nat) (f : Hl → Hl) : (s.modHl n f).freeCtr = s.freeCtr := rfl
@[simp] theorem State.modHl_nextId (s : State) (n : Nat) (f : Hl → Hl) : (s.modHl n f).nextId = s.nextId := rfl
@[simp] theorem State.modHl_out (s : State) (n : Nat) (f : Hl → Hl) : (s.modHl n f).out = s.out := rfl
@[simp] theorem State.modHl_pending (s : State) (n : Nat) (f : Hl → Hl) : (s.modHl n f).pending = s.pending := rfl
@[simp] theorem State.modHl_word (s : State) (n : Nat) (f : Hl → Hl) (q : RF) : (s.modHl n f).word q = s.word q := rfl
@[simp] theorem State.modHl_get (s : State) (n : Nat) (f : Hl → Hl) (q : RF) : (s.modHl n f).get q = s.get q := rfl
@[simp] theorem State.modHl_on (s : State) (n : Nat) (f : Hl → Hl) (q : RF) : (s.modHl n f).on q = s.on q := rfl

/-! ### modFn -/

@[simp] theorem State.modFn_regs (s : State) (n m : Nat) (f : Fn → Fn) : (s.modFn n m f).regs = s.regs := rfl
@[simp] theorem State.modFn_ports (s : State) (n m : Nat) (f : Fn → Fn) : (s.modFn n m f).ports = s.ports := rfl
@[simp] theorem State.modFn_hls (s : State) (n m : Nat) (f : Fn → Fn) : (s.modFn n m f).hls = s.hls := rfl
@[simp] theorem State.modFn_accts (s : State) (n m : Nat) (f : Fn → Fn) : (s.modFn n m f).accts = s.accts := rfl
@[simp] theorem State.modFn_ctxs (s : State) (n m : Nat) (f : Fn → Fn) : (s.modFn n m f).ctxs = s.ctxs := rfl
@[simp] theorem State.modFn_trees (s : State) (n m : Nat) (f : Fn → Fn) : (s.modFn n m f).trees = s.trees := rfl
@[simp] theorem State.modFn_movs (s : State) (n m : Nat) (f : Fn → Fn) : (s.modFn n m f).movs = s.movs := rfl
@[simp] theorem State.modFn_srcMsgs (s : State) (n m : Nat) (f : Fn → Fn) : (s.modFn n m f).srcMsgs = s.srcMsgs := rfl
@[simp] theorem State.modFn_openMsgs (s : State) (n m : Nat) (f : Fn → Fn) : (s.modFn n m f).openMsgs = s.openMsgs := rfl
@[simp] theorem State.modFn_filter (s : State) (n m : Nat) (f : Fn → Fn) : (s.modFn n m f).filter = s.filter := rfl
@[simp] theorem State.modFn_book (s : State) (n m : Nat) (f : Fn → Fn) : (s.modFn n m f).book = s.book := rfl
@[simp] theorem State.modFn_keyCache (s : State) (n m : Nat) (f : Fn → Fn) : (s.modFn n m f).keyCache = s.keyCache := rfl
@[simp] theorem State.modFn_rankCache (s : State) (n m : Nat) (f : Fn → Fn) : (s.modFn n m f).rankCache = s.rankCache := rfl
@[simp] theorem State.modFn_orders (s : State) (n m : Nat) (f : Fn → Fn) : (s.modFn n m f).orders = s.orders := rfl
@[simp] theorem State.modFn_aptWaits (s : State) (n m : Nat) (f : Fn → Fn) : (s.modFn n m f).aptWaits = s.aptWaits := rfl
@[simp] theorem State.modFn_flushes (s : State) (n m : Nat) (f : Fn → Fn) : (s.modFn n m f).flushes = s.flushes := rfl
@[simp] theorem State.modFn_notices (s : State) (n m : Nat) (f : Fn → Fn) : (s.modFn n m f).notices = s.notices := rfl
@[simp] theorem State.modFn_acctCmds (s : State) (n m : Nat) (f : Fn → Fn) : (s.modFn n m f).acctCmds = s.acctCmds := rfl
@[simp] theorem State.modFn_entries (s : State) (n m : Nat) (f : Fn → Fn) : (s.modFn n m f).entries = s.entries := rfl
@[simp] theorem State.modFn_lmatches (s : State) (n m : Nat) (f : Fn → Fn) : (s.modFn n m f).lmatches = s.lmatches := rfl
@[simp] theorem State.modFn_ovfBufs (s : State) (n m : Nat) (f : Fn → Fn) : (s.modFn n m f).ovfBufs = s.ovfBufs := rfl
@[simp] theorem State.modFn_tags (s : State) (n m : Nat) (f : Fn → Fn) : (s.modFn n m f).tags = s.tags := rfl
@[simp] theorem State.modFn_moveWait (s : State) (n m : Nat) (f : Fn → Fn) : (s.modFn n m f).moveWait = s.moveWait := rfl
@[simp] theorem State.modFn_movOwn (s : State) (n m : Nat) (f : Fn → Fn) : (s.modFn n m f).movOwn = s.movOwn := rfl
@[simp] theorem State.modFn_ctxSent (s : State) (n m : Nat) (f : Fn → Fn) : (s.modFn n m f).ctxSent = s.ctxSent := rfl
@[simp] theorem State.modFn_clhIn (s : State) (n m : Nat) (f : Fn → Fn) : (s.modFn n m f).clhIn = s.clhIn := rfl
@[simp] theorem State.modFn_tptIn (s : State) (n m : Nat) (f : Fn → Fn) : (s.modFn n m f).tptIn = s.tptIn := rfl
@[simp] theorem State.modFn_relayIn (s : State) (n m : Nat) (f : Fn → Fn) : (s.modFn n m f).relayIn = s.relayIn := rfl
@[simp] theorem State.modFn_mgIn (s : State) (n m : Nat) (f : Fn → Fn) : (s.modFn n m f).mgIn = s.mgIn := rfl
@[simp] theorem State.modFn_mcIn (s : State) (n m : Nat) (f : Fn → Fn) : (s.modFn n m f).mcIn = s.mcIn := rfl
@[simp] theorem State.modFn_fifelIn (s : State) (n m : Nat) (f : Fn → Fn) : (s.modFn n m f).fifelIn = s.fifelIn := rfl
@[simp] theorem State.modFn_qsRx (s : State) (n m : Nat) (f : Fn → Fn) : (s.modFn n m f).qsRx = s.qsRx := rfl
@[simp] theorem State.modFn_qsHere (s : State) (n m : Nat) (f : Fn → Fn) : (s.modFn n m f).qsHere = s.qsHere := rfl
@[simp] theorem State.modFn_qsWait (s : State) (n m : Nat) (f : Fn → Fn) : (s.modFn n m f).qsWait = s.qsWait := rfl
@[simp] theorem State.modFn_qsInj (s : State) (n m : Nat) (f : Fn → Fn) : (s.modFn n m f).qsInj = s.qsInj := rfl
@[simp] theorem State.modFn_samples (s : State) (n m : Nat) (f : Fn → Fn) : (s.modFn n m f).samples = s.samples := rfl
@[simp] theorem State.modFn_sampleLost (s : State) (n m : Nat) (f : Fn → Fn) : (s.modFn n m f).sampleLost = s.sampleLost := rfl
@[simp] theorem State.modFn_hmk (s : State) (n m : Nat) (f : Fn → Fn) : (s.modFn n m f).hmk = s.hmk := rfl
@[simp] theorem State.modFn_clh (s : State) (n m : Nat) (f : Fn → Fn) : (s.modFn n m f).clh = s.clh := rfl
@[simp] theorem State.modFn_pwr (s : State) (n m : Nat) (f : Fn → Fn) : (s.modFn n m f).pwr = s.pwr := rfl
@[simp] theorem State.modFn_boot (s : State) (n m : Nat) (f : Fn → Fn) : (s.modFn n m f).boot = s.boot := rfl
@[simp] theorem State.modFn_izg (s : State) (n m : Nat) (f : Fn → Fn) : (s.modFn n m f).izg = s.izg := rfl
@[simp] theorem State.modFn_wakeLow (s : State) (n m : Nat) (f : Fn → Fn) : (s.modFn n m f).wakeLow = s.wakeLow := rfl
@[simp] theorem State.modFn_trigFall (s : State) (n m : Nat) (f : Fn → Fn) : (s.modFn n m f).trigFall = s.trigFall := rfl
@[simp] theorem State.modFn_clk (s : State) (n m : Nat) (f : Fn → Fn) : (s.modFn n m f).clk = s.clk := rfl
@[simp] theorem State.modFn_rotate (s : State) (n m : Nat) (f : Fn → Fn) : (s.modFn n m f).rotate = s.rotate := rfl
@[simp] theorem State.modFn_freeCtr (s : State) (n m : Nat) (f : Fn → Fn) : (s.modFn n m f).freeCtr = s.freeCtr := rfl
@[simp] theorem State.modFn_nextId (s : State) (n m : Nat) (f : Fn → Fn) : (s.modFn n m f).nextId = s.nextId := rfl
@[simp] theorem State.modFn_out (s : State) (n m : Nat) (f : Fn → Fn) : (s.modFn n m f).out = s.out := rfl
@[simp] theorem State.modFn_pending (s : State) (n m : Nat) (f : Fn → Fn) : (s.modFn n m f).pending = s.pending := rfl
@[simp] theorem State.modFn_word (s : State) (n m : Nat) (f : Fn → Fn) (q : RF) : (s.modFn n m f).word q = s.word q := rfl
@[simp] theorem State.modFn_get (s : State) (n m : Nat) (f : Fn → Fn) (q : RF) : (s.modFn n m f).get q = s.get q := rfl
@[simp] theorem State.modFn_on (s : State) (n m : Nat) (f : Fn → Fn) (q : RF) : (s.modFn n m f).on q = s.on q := rfl

/-! ### modAcct -/

@[simp] theorem State.modAcct_regs (s : State) (a : Nat) (f : Acct → Acct) : (s.modAcct a f).regs = s.regs := rfl
@[simp] theorem State.modAcct_ports (s : State) (a : Nat) (f : Acct → Acct) : (s.modAcct a f).ports = s.ports := rfl
@[simp] theorem State.modAcct_hls (s : State) (a : Nat) (f : Acct → Acct) : (s.modAcct a f).hls = s.hls := rfl
@[simp] theorem State.modAcct_fns (s : State) (a : Nat) (f : Acct → Acct) : (s.modAcct a f).fns = s.fns := rfl
@[simp] theorem State.modAcct_ctxs (s : State) (a : Nat) (f : Acct → Acct) : (s.modAcct a f).ctxs = s.ctxs := rfl
@[simp] theorem State.modAcct_trees (s : State) (a : Nat) (f : Acct → Acct) : (s.modAcct a f).trees = s.trees := rfl
@[simp] theorem State.modAcct_movs (s : State) (a : Nat) (f : Acct → Acct) : (s.modAcct a f).movs = s.movs := rfl
@[simp] theorem State.modAcct_srcMsgs (s : State) (a : Nat) (f : Acct → Acct) : (s.modAcct a f).srcMsgs = s.srcMsgs := rfl
@[simp] theorem State.modAcct_openMsgs (s : State) (a : Nat) (f : Acct → Acct) : (s.modAcct a f).openMsgs = s.openMsgs := rfl
@[simp] theorem State.modAcct_filter (s : State) (a : Nat) (f : Acct → Acct) : (s.modAcct a f).filter = s.filter := rfl
@[simp] theorem State.modAcct_book (s : State) (a : Nat) (f : Acct → Acct) : (s.modAcct a f).book = s.book := rfl
@[simp] theorem State.modAcct_keyCache (s : State) (a : Nat) (f : Acct → Acct) : (s.modAcct a f).keyCache = s.keyCache := rfl
@[simp] theorem State.modAcct_rankCache (s : State) (a : Nat) (f : Acct → Acct) : (s.modAcct a f).rankCache = s.rankCache := rfl
@[simp] theorem State.modAcct_orders (s : State) (a : Nat) (f : Acct → Acct) : (s.modAcct a f).orders = s.orders := rfl
@[simp] theorem State.modAcct_aptWaits (s : State) (a : Nat) (f : Acct → Acct) : (s.modAcct a f).aptWaits = s.aptWaits := rfl
@[simp] theorem State.modAcct_flushes (s : State) (a : Nat) (f : Acct → Acct) : (s.modAcct a f).flushes = s.flushes := rfl
@[simp] theorem State.modAcct_notices (s : State) (a : Nat) (f : Acct → Acct) : (s.modAcct a f).notices = s.notices := rfl
@[simp] theorem State.modAcct_acctCmds (s : State) (a : Nat) (f : Acct → Acct) : (s.modAcct a f).acctCmds = s.acctCmds := rfl
@[simp] theorem State.modAcct_entries (s : State) (a : Nat) (f : Acct → Acct) : (s.modAcct a f).entries = s.entries := rfl
@[simp] theorem State.modAcct_lmatches (s : State) (a : Nat) (f : Acct → Acct) : (s.modAcct a f).lmatches = s.lmatches := rfl
@[simp] theorem State.modAcct_ovfBufs (s : State) (a : Nat) (f : Acct → Acct) : (s.modAcct a f).ovfBufs = s.ovfBufs := rfl
@[simp] theorem State.modAcct_tags (s : State) (a : Nat) (f : Acct → Acct) : (s.modAcct a f).tags = s.tags := rfl
@[simp] theorem State.modAcct_moveWait (s : State) (a : Nat) (f : Acct → Acct) : (s.modAcct a f).moveWait = s.moveWait := rfl
@[simp] theorem State.modAcct_movOwn (s : State) (a : Nat) (f : Acct → Acct) : (s.modAcct a f).movOwn = s.movOwn := rfl
@[simp] theorem State.modAcct_ctxSent (s : State) (a : Nat) (f : Acct → Acct) : (s.modAcct a f).ctxSent = s.ctxSent := rfl
@[simp] theorem State.modAcct_clhIn (s : State) (a : Nat) (f : Acct → Acct) : (s.modAcct a f).clhIn = s.clhIn := rfl
@[simp] theorem State.modAcct_tptIn (s : State) (a : Nat) (f : Acct → Acct) : (s.modAcct a f).tptIn = s.tptIn := rfl
@[simp] theorem State.modAcct_relayIn (s : State) (a : Nat) (f : Acct → Acct) : (s.modAcct a f).relayIn = s.relayIn := rfl
@[simp] theorem State.modAcct_mgIn (s : State) (a : Nat) (f : Acct → Acct) : (s.modAcct a f).mgIn = s.mgIn := rfl
@[simp] theorem State.modAcct_mcIn (s : State) (a : Nat) (f : Acct → Acct) : (s.modAcct a f).mcIn = s.mcIn := rfl
@[simp] theorem State.modAcct_fifelIn (s : State) (a : Nat) (f : Acct → Acct) : (s.modAcct a f).fifelIn = s.fifelIn := rfl
@[simp] theorem State.modAcct_qsRx (s : State) (a : Nat) (f : Acct → Acct) : (s.modAcct a f).qsRx = s.qsRx := rfl
@[simp] theorem State.modAcct_qsHere (s : State) (a : Nat) (f : Acct → Acct) : (s.modAcct a f).qsHere = s.qsHere := rfl
@[simp] theorem State.modAcct_qsWait (s : State) (a : Nat) (f : Acct → Acct) : (s.modAcct a f).qsWait = s.qsWait := rfl
@[simp] theorem State.modAcct_qsInj (s : State) (a : Nat) (f : Acct → Acct) : (s.modAcct a f).qsInj = s.qsInj := rfl
@[simp] theorem State.modAcct_samples (s : State) (a : Nat) (f : Acct → Acct) : (s.modAcct a f).samples = s.samples := rfl
@[simp] theorem State.modAcct_sampleLost (s : State) (a : Nat) (f : Acct → Acct) : (s.modAcct a f).sampleLost = s.sampleLost := rfl
@[simp] theorem State.modAcct_hmk (s : State) (a : Nat) (f : Acct → Acct) : (s.modAcct a f).hmk = s.hmk := rfl
@[simp] theorem State.modAcct_clh (s : State) (a : Nat) (f : Acct → Acct) : (s.modAcct a f).clh = s.clh := rfl
@[simp] theorem State.modAcct_pwr (s : State) (a : Nat) (f : Acct → Acct) : (s.modAcct a f).pwr = s.pwr := rfl
@[simp] theorem State.modAcct_boot (s : State) (a : Nat) (f : Acct → Acct) : (s.modAcct a f).boot = s.boot := rfl
@[simp] theorem State.modAcct_izg (s : State) (a : Nat) (f : Acct → Acct) : (s.modAcct a f).izg = s.izg := rfl
@[simp] theorem State.modAcct_wakeLow (s : State) (a : Nat) (f : Acct → Acct) : (s.modAcct a f).wakeLow = s.wakeLow := rfl
@[simp] theorem State.modAcct_trigFall (s : State) (a : Nat) (f : Acct → Acct) : (s.modAcct a f).trigFall = s.trigFall := rfl
@[simp] theorem State.modAcct_clk (s : State) (a : Nat) (f : Acct → Acct) : (s.modAcct a f).clk = s.clk := rfl
@[simp] theorem State.modAcct_rotate (s : State) (a : Nat) (f : Acct → Acct) : (s.modAcct a f).rotate = s.rotate := rfl
@[simp] theorem State.modAcct_freeCtr (s : State) (a : Nat) (f : Acct → Acct) : (s.modAcct a f).freeCtr = s.freeCtr := rfl
@[simp] theorem State.modAcct_nextId (s : State) (a : Nat) (f : Acct → Acct) : (s.modAcct a f).nextId = s.nextId := rfl
@[simp] theorem State.modAcct_out (s : State) (a : Nat) (f : Acct → Acct) : (s.modAcct a f).out = s.out := rfl
@[simp] theorem State.modAcct_pending (s : State) (a : Nat) (f : Acct → Acct) : (s.modAcct a f).pending = s.pending := rfl
@[simp] theorem State.modAcct_word (s : State) (a : Nat) (f : Acct → Acct) (q : RF) : (s.modAcct a f).word q = s.word q := rfl
@[simp] theorem State.modAcct_get (s : State) (a : Nat) (f : Acct → Acct) (q : RF) : (s.modAcct a f).get q = s.get q := rfl
@[simp] theorem State.modAcct_on (s : State) (a : Nat) (f : Acct → Acct) (q : RF) : (s.modAcct a f).on q = s.on q := rfl

/-! ### modCtx -/

@[simp] theorem State.modCtx_regs (s : State) (k : Nat) (f : CtxRt → CtxRt) : (s.modCtx k f).regs = s.regs := rfl
@[simp] theorem State.modCtx_ports (s : State) (k : Nat) (f : CtxRt → CtxRt) : (s.modCtx k f).ports = s.ports := rfl
@[simp] theorem State.modCtx_hls (s : State) (k : Nat) (f : CtxRt → CtxRt) : (s.modCtx k f).hls = s.hls := rfl
@[simp] theorem State.modCtx_fns (s : State) (k : Nat) (f : CtxRt → CtxRt) : (s.modCtx k f).fns = s.fns := rfl
@[simp] theorem State.modCtx_accts (s : State) (k : Nat) (f : CtxRt → CtxRt) : (s.modCtx k f).accts = s.accts := rfl
@[simp] theorem State.modCtx_trees (s : State) (k : Nat) (f : CtxRt → CtxRt) : (s.modCtx k f).trees = s.trees := rfl
@[simp] theorem State.modCtx_movs (s : State) (k : Nat) (f : CtxRt → CtxRt) : (s.modCtx k f).movs = s.movs := rfl
@[simp] theorem State.modCtx_srcMsgs (s : State) (k : Nat) (f : CtxRt → CtxRt) : (s.modCtx k f).srcMsgs = s.srcMsgs := rfl
@[simp] theorem State.modCtx_openMsgs (s : State) (k : Nat) (f : CtxRt → CtxRt) : (s.modCtx k f).openMsgs = s.openMsgs := rfl
@[simp] theorem State.modCtx_filter (s : State) (k : Nat) (f : CtxRt → CtxRt) : (s.modCtx k f).filter = s.filter := rfl
@[simp] theorem State.modCtx_book (s : State) (k : Nat) (f : CtxRt → CtxRt) : (s.modCtx k f).book = s.book := rfl
@[simp] theorem State.modCtx_keyCache (s : State) (k : Nat) (f : CtxRt → CtxRt) : (s.modCtx k f).keyCache = s.keyCache := rfl
@[simp] theorem State.modCtx_rankCache (s : State) (k : Nat) (f : CtxRt → CtxRt) : (s.modCtx k f).rankCache = s.rankCache := rfl
@[simp] theorem State.modCtx_orders (s : State) (k : Nat) (f : CtxRt → CtxRt) : (s.modCtx k f).orders = s.orders := rfl
@[simp] theorem State.modCtx_aptWaits (s : State) (k : Nat) (f : CtxRt → CtxRt) : (s.modCtx k f).aptWaits = s.aptWaits := rfl
@[simp] theorem State.modCtx_flushes (s : State) (k : Nat) (f : CtxRt → CtxRt) : (s.modCtx k f).flushes = s.flushes := rfl
@[simp] theorem State.modCtx_notices (s : State) (k : Nat) (f : CtxRt → CtxRt) : (s.modCtx k f).notices = s.notices := rfl
@[simp] theorem State.modCtx_acctCmds (s : State) (k : Nat) (f : CtxRt → CtxRt) : (s.modCtx k f).acctCmds = s.acctCmds := rfl
@[simp] theorem State.modCtx_entries (s : State) (k : Nat) (f : CtxRt → CtxRt) : (s.modCtx k f).entries = s.entries := rfl
@[simp] theorem State.modCtx_lmatches (s : State) (k : Nat) (f : CtxRt → CtxRt) : (s.modCtx k f).lmatches = s.lmatches := rfl
@[simp] theorem State.modCtx_ovfBufs (s : State) (k : Nat) (f : CtxRt → CtxRt) : (s.modCtx k f).ovfBufs = s.ovfBufs := rfl
@[simp] theorem State.modCtx_tags (s : State) (k : Nat) (f : CtxRt → CtxRt) : (s.modCtx k f).tags = s.tags := rfl
@[simp] theorem State.modCtx_moveWait (s : State) (k : Nat) (f : CtxRt → CtxRt) : (s.modCtx k f).moveWait = s.moveWait := rfl
@[simp] theorem State.modCtx_movOwn (s : State) (k : Nat) (f : CtxRt → CtxRt) : (s.modCtx k f).movOwn = s.movOwn := rfl
@[simp] theorem State.modCtx_ctxSent (s : State) (k : Nat) (f : CtxRt → CtxRt) : (s.modCtx k f).ctxSent = s.ctxSent := rfl
@[simp] theorem State.modCtx_clhIn (s : State) (k : Nat) (f : CtxRt → CtxRt) : (s.modCtx k f).clhIn = s.clhIn := rfl
@[simp] theorem State.modCtx_tptIn (s : State) (k : Nat) (f : CtxRt → CtxRt) : (s.modCtx k f).tptIn = s.tptIn := rfl
@[simp] theorem State.modCtx_relayIn (s : State) (k : Nat) (f : CtxRt → CtxRt) : (s.modCtx k f).relayIn = s.relayIn := rfl
@[simp] theorem State.modCtx_mgIn (s : State) (k : Nat) (f : CtxRt → CtxRt) : (s.modCtx k f).mgIn = s.mgIn := rfl
@[simp] theorem State.modCtx_mcIn (s : State) (k : Nat) (f : CtxRt → CtxRt) : (s.modCtx k f).mcIn = s.mcIn := rfl
@[simp] theorem State.modCtx_fifelIn (s : State) (k : Nat) (f : CtxRt → CtxRt) : (s.modCtx k f).fifelIn = s.fifelIn := rfl
@[simp] theorem State.modCtx_qsRx (s : State) (k : Nat) (f : CtxRt → CtxRt) : (s.modCtx k f).qsRx = s.qsRx := rfl
@[simp] theorem State.modCtx_qsHere (s : State) (k : Nat) (f : CtxRt → CtxRt) : (s.modCtx k f).qsHere = s.qsHere := rfl
@[simp] theorem State.modCtx_qsWait (s : State) (k : Nat) (f : CtxRt → CtxRt) : (s.modCtx k f).qsWait = s.qsWait := rfl
@[simp] theorem State.modCtx_qsInj (s : State) (k : Nat) (f : CtxRt → CtxRt) : (s.modCtx k f).qsInj = s.qsInj := rfl
@[simp] theorem State.modCtx_samples (s : State) (k : Nat) (f : CtxRt → CtxRt) : (s.modCtx k f).samples = s.samples := rfl
@[simp] theorem State.modCtx_sampleLost (s : State) (k : Nat) (f : CtxRt → CtxRt) : (s.modCtx k f).sampleLost = s.sampleLost := rfl
@[simp] theorem State.modCtx_hmk (s : State) (k : Nat) (f : CtxRt → CtxRt) : (s.modCtx k f).hmk = s.hmk := rfl
@[simp] theorem State.modCtx_clh (s : State) (k : Nat) (f : CtxRt → CtxRt) : (s.modCtx k f).clh = s.clh := rfl
@[simp] theorem State.modCtx_pwr (s : State) (k : Nat) (f : CtxRt → CtxRt) : (s.modCtx k f).pwr = s.pwr := rfl
@[simp] theorem State.modCtx_boot (s : State) (k : Nat) (f : CtxRt → CtxRt) : (s.modCtx k f).boot = s.boot := rfl
@[simp] theorem State.modCtx_izg (s : State) (k : Nat) (f : CtxRt → CtxRt) : (s.modCtx k f).izg = s.izg := rfl
@[simp] theorem State.modCtx_wakeLow (s : State) (k : Nat) (f : CtxRt → CtxRt) : (s.modCtx k f).wakeLow = s.wakeLow := rfl
@[simp] theorem State.modCtx_trigFall (s : State) (k : Nat) (f : CtxRt → CtxRt) : (s.modCtx k f).trigFall = s.trigFall := rfl
@[simp] theorem State.modCtx_clk (s : State) (k : Nat) (f : CtxRt → CtxRt) : (s.modCtx k f).clk = s.clk := rfl
@[simp] theorem State.modCtx_rotate (s : State) (k : Nat) (f : CtxRt → CtxRt) : (s.modCtx k f).rotate = s.rotate := rfl
@[simp] theorem State.modCtx_freeCtr (s : State) (k : Nat) (f : CtxRt → CtxRt) : (s.modCtx k f).freeCtr = s.freeCtr := rfl
@[simp] theorem State.modCtx_nextId (s : State) (k : Nat) (f : CtxRt → CtxRt) : (s.modCtx k f).nextId = s.nextId := rfl
@[simp] theorem State.modCtx_out (s : State) (k : Nat) (f : CtxRt → CtxRt) : (s.modCtx k f).out = s.out := rfl
@[simp] theorem State.modCtx_pending (s : State) (k : Nat) (f : CtxRt → CtxRt) : (s.modCtx k f).pending = s.pending := rfl
@[simp] theorem State.modCtx_word (s : State) (k : Nat) (f : CtxRt → CtxRt) (q : RF) : (s.modCtx k f).word q = s.word q := rfl
@[simp] theorem State.modCtx_get (s : State) (k : Nat) (f : CtxRt → CtxRt) (q : RF) : (s.modCtx k f).get q = s.get q := rfl
@[simp] theorem State.modCtx_on (s : State) (k : Nat) (f : CtxRt → CtxRt) (q : RF) : (s.modCtx k f).on q = s.on q := rfl

/-! ### modTree -/

@[simp] theorem State.modTree_regs (s : State) (k : Nat) (f : TreeRt → TreeRt) : (s.modTree k f).regs = s.regs := rfl
@[simp] theorem State.modTree_ports (s : State) (k : Nat) (f : TreeRt → TreeRt) : (s.modTree k f).ports = s.ports := rfl
@[simp] theorem State.modTree_hls (s : State) (k : Nat) (f : TreeRt → TreeRt) : (s.modTree k f).hls = s.hls := rfl
@[simp] theorem State.modTree_fns (s : State) (k : Nat) (f : TreeRt → TreeRt) : (s.modTree k f).fns = s.fns := rfl
@[simp] theorem State.modTree_accts (s : State) (k : Nat) (f : TreeRt → TreeRt) : (s.modTree k f).accts = s.accts := rfl
@[simp] theorem State.modTree_ctxs (s : State) (k : Nat) (f : TreeRt → TreeRt) : (s.modTree k f).ctxs = s.ctxs := rfl
@[simp] theorem State.modTree_movs (s : State) (k : Nat) (f : TreeRt → TreeRt) : (s.modTree k f).movs = s.movs := rfl
@[simp] theorem State.modTree_srcMsgs (s : State) (k : Nat) (f : TreeRt → TreeRt) : (s.modTree k f).srcMsgs = s.srcMsgs := rfl
@[simp] theorem State.modTree_openMsgs (s : State) (k : Nat) (f : TreeRt → TreeRt) : (s.modTree k f).openMsgs = s.openMsgs := rfl
@[simp] theorem State.modTree_filter (s : State) (k : Nat) (f : TreeRt → TreeRt) : (s.modTree k f).filter = s.filter := rfl
@[simp] theorem State.modTree_book (s : State) (k : Nat) (f : TreeRt → TreeRt) : (s.modTree k f).book = s.book := rfl
@[simp] theorem State.modTree_keyCache (s : State) (k : Nat) (f : TreeRt → TreeRt) : (s.modTree k f).keyCache = s.keyCache := rfl
@[simp] theorem State.modTree_rankCache (s : State) (k : Nat) (f : TreeRt → TreeRt) : (s.modTree k f).rankCache = s.rankCache := rfl
@[simp] theorem State.modTree_orders (s : State) (k : Nat) (f : TreeRt → TreeRt) : (s.modTree k f).orders = s.orders := rfl
@[simp] theorem State.modTree_aptWaits (s : State) (k : Nat) (f : TreeRt → TreeRt) : (s.modTree k f).aptWaits = s.aptWaits := rfl
@[simp] theorem State.modTree_flushes (s : State) (k : Nat) (f : TreeRt → TreeRt) : (s.modTree k f).flushes = s.flushes := rfl
@[simp] theorem State.modTree_notices (s : State) (k : Nat) (f : TreeRt → TreeRt) : (s.modTree k f).notices = s.notices := rfl
@[simp] theorem State.modTree_acctCmds (s : State) (k : Nat) (f : TreeRt → TreeRt) : (s.modTree k f).acctCmds = s.acctCmds := rfl
@[simp] theorem State.modTree_entries (s : State) (k : Nat) (f : TreeRt → TreeRt) : (s.modTree k f).entries = s.entries := rfl
@[simp] theorem State.modTree_lmatches (s : State) (k : Nat) (f : TreeRt → TreeRt) : (s.modTree k f).lmatches = s.lmatches := rfl
@[simp] theorem State.modTree_ovfBufs (s : State) (k : Nat) (f : TreeRt → TreeRt) : (s.modTree k f).ovfBufs = s.ovfBufs := rfl
@[simp] theorem State.modTree_tags (s : State) (k : Nat) (f : TreeRt → TreeRt) : (s.modTree k f).tags = s.tags := rfl
@[simp] theorem State.modTree_moveWait (s : State) (k : Nat) (f : TreeRt → TreeRt) : (s.modTree k f).moveWait = s.moveWait := rfl
@[simp] theorem State.modTree_movOwn (s : State) (k : Nat) (f : TreeRt → TreeRt) : (s.modTree k f).movOwn = s.movOwn := rfl
@[simp] theorem State.modTree_ctxSent (s : State) (k : Nat) (f : TreeRt → TreeRt) : (s.modTree k f).ctxSent = s.ctxSent := rfl
@[simp] theorem State.modTree_clhIn (s : State) (k : Nat) (f : TreeRt → TreeRt) : (s.modTree k f).clhIn = s.clhIn := rfl
@[simp] theorem State.modTree_tptIn (s : State) (k : Nat) (f : TreeRt → TreeRt) : (s.modTree k f).tptIn = s.tptIn := rfl
@[simp] theorem State.modTree_relayIn (s : State) (k : Nat) (f : TreeRt → TreeRt) : (s.modTree k f).relayIn = s.relayIn := rfl
@[simp] theorem State.modTree_mgIn (s : State) (k : Nat) (f : TreeRt → TreeRt) : (s.modTree k f).mgIn = s.mgIn := rfl
@[simp] theorem State.modTree_mcIn (s : State) (k : Nat) (f : TreeRt → TreeRt) : (s.modTree k f).mcIn = s.mcIn := rfl
@[simp] theorem State.modTree_fifelIn (s : State) (k : Nat) (f : TreeRt → TreeRt) : (s.modTree k f).fifelIn = s.fifelIn := rfl
@[simp] theorem State.modTree_qsRx (s : State) (k : Nat) (f : TreeRt → TreeRt) : (s.modTree k f).qsRx = s.qsRx := rfl
@[simp] theorem State.modTree_qsHere (s : State) (k : Nat) (f : TreeRt → TreeRt) : (s.modTree k f).qsHere = s.qsHere := rfl
@[simp] theorem State.modTree_qsWait (s : State) (k : Nat) (f : TreeRt → TreeRt) : (s.modTree k f).qsWait = s.qsWait := rfl
@[simp] theorem State.modTree_qsInj (s : State) (k : Nat) (f : TreeRt → TreeRt) : (s.modTree k f).qsInj = s.qsInj := rfl
@[simp] theorem State.modTree_samples (s : State) (k : Nat) (f : TreeRt → TreeRt) : (s.modTree k f).samples = s.samples := rfl
@[simp] theorem State.modTree_sampleLost (s : State) (k : Nat) (f : TreeRt → TreeRt) : (s.modTree k f).sampleLost = s.sampleLost := rfl
@[simp] theorem State.modTree_hmk (s : State) (k : Nat) (f : TreeRt → TreeRt) : (s.modTree k f).hmk = s.hmk := rfl
@[simp] theorem State.modTree_clh (s : State) (k : Nat) (f : TreeRt → TreeRt) : (s.modTree k f).clh = s.clh := rfl
@[simp] theorem State.modTree_pwr (s : State) (k : Nat) (f : TreeRt → TreeRt) : (s.modTree k f).pwr = s.pwr := rfl
@[simp] theorem State.modTree_boot (s : State) (k : Nat) (f : TreeRt → TreeRt) : (s.modTree k f).boot = s.boot := rfl
@[simp] theorem State.modTree_izg (s : State) (k : Nat) (f : TreeRt → TreeRt) : (s.modTree k f).izg = s.izg := rfl
@[simp] theorem State.modTree_wakeLow (s : State) (k : Nat) (f : TreeRt → TreeRt) : (s.modTree k f).wakeLow = s.wakeLow := rfl
@[simp] theorem State.modTree_trigFall (s : State) (k : Nat) (f : TreeRt → TreeRt) : (s.modTree k f).trigFall = s.trigFall := rfl
@[simp] theorem State.modTree_clk (s : State) (k : Nat) (f : TreeRt → TreeRt) : (s.modTree k f).clk = s.clk := rfl
@[simp] theorem State.modTree_rotate (s : State) (k : Nat) (f : TreeRt → TreeRt) : (s.modTree k f).rotate = s.rotate := rfl
@[simp] theorem State.modTree_freeCtr (s : State) (k : Nat) (f : TreeRt → TreeRt) : (s.modTree k f).freeCtr = s.freeCtr := rfl
@[simp] theorem State.modTree_nextId (s : State) (k : Nat) (f : TreeRt → TreeRt) : (s.modTree k f).nextId = s.nextId := rfl
@[simp] theorem State.modTree_out (s : State) (k : Nat) (f : TreeRt → TreeRt) : (s.modTree k f).out = s.out := rfl
@[simp] theorem State.modTree_pending (s : State) (k : Nat) (f : TreeRt → TreeRt) : (s.modTree k f).pending = s.pending := rfl
@[simp] theorem State.modTree_word (s : State) (k : Nat) (f : TreeRt → TreeRt) (q : RF) : (s.modTree k f).word q = s.word q := rfl
@[simp] theorem State.modTree_get (s : State) (k : Nat) (f : TreeRt → TreeRt) (q : RF) : (s.modTree k f).get q = s.get q := rfl
@[simp] theorem State.modTree_on (s : State) (k : Nat) (f : TreeRt → TreeRt) (q : RF) : (s.modTree k f).on q = s.on q := rfl

/-! ### modMov -/

@[simp] theorem State.modMov_regs (s : State) (c : Nat) (f : MovCh → MovCh) : (s.modMov c f).regs = s.regs := rfl
@[simp] theorem State.modMov_ports (s : State) (c : Nat) (f : MovCh → MovCh) : (s.modMov c f).ports = s.ports := rfl
@[simp] theorem State.modMov_hls (s : State) (c : Nat) (f : MovCh → MovCh) : (s.modMov c f).hls = s.hls := rfl
@[simp] theorem State.modMov_fns (s : State) (c : Nat) (f : MovCh → MovCh) : (s.modMov c f).fns = s.fns := rfl
@[simp] theorem State.modMov_accts (s : State) (c : Nat) (f : MovCh → MovCh) : (s.modMov c f).accts = s.accts := rfl
@[simp] theorem State.modMov_ctxs (s : State) (c : Nat) (f : MovCh → MovCh) : (s.modMov c f).ctxs = s.ctxs := rfl
@[simp] theorem State.modMov_trees (s : State) (c : Nat) (f : MovCh → MovCh) : (s.modMov c f).trees = s.trees := rfl
@[simp] theorem State.modMov_srcMsgs (s : State) (c : Nat) (f : MovCh → MovCh) : (s.modMov c f).srcMsgs = s.srcMsgs := rfl
@[simp] theorem State.modMov_openMsgs (s : State) (c : Nat) (f : MovCh → MovCh) : (s.modMov c f).openMsgs = s.openMsgs := rfl
@[simp] theorem State.modMov_filter (s : State) (c : Nat) (f : MovCh → MovCh) : (s.modMov c f).filter = s.filter := rfl
@[simp] theorem State.modMov_book (s : State) (c : Nat) (f : MovCh → MovCh) : (s.modMov c f).book = s.book := rfl
@[simp] theorem State.modMov_keyCache (s : State) (c : Nat) (f : MovCh → MovCh) : (s.modMov c f).keyCache = s.keyCache := rfl
@[simp] theorem State.modMov_rankCache (s : State) (c : Nat) (f : MovCh → MovCh) : (s.modMov c f).rankCache = s.rankCache := rfl
@[simp] theorem State.modMov_orders (s : State) (c : Nat) (f : MovCh → MovCh) : (s.modMov c f).orders = s.orders := rfl
@[simp] theorem State.modMov_aptWaits (s : State) (c : Nat) (f : MovCh → MovCh) : (s.modMov c f).aptWaits = s.aptWaits := rfl
@[simp] theorem State.modMov_flushes (s : State) (c : Nat) (f : MovCh → MovCh) : (s.modMov c f).flushes = s.flushes := rfl
@[simp] theorem State.modMov_notices (s : State) (c : Nat) (f : MovCh → MovCh) : (s.modMov c f).notices = s.notices := rfl
@[simp] theorem State.modMov_acctCmds (s : State) (c : Nat) (f : MovCh → MovCh) : (s.modMov c f).acctCmds = s.acctCmds := rfl
@[simp] theorem State.modMov_entries (s : State) (c : Nat) (f : MovCh → MovCh) : (s.modMov c f).entries = s.entries := rfl
@[simp] theorem State.modMov_lmatches (s : State) (c : Nat) (f : MovCh → MovCh) : (s.modMov c f).lmatches = s.lmatches := rfl
@[simp] theorem State.modMov_ovfBufs (s : State) (c : Nat) (f : MovCh → MovCh) : (s.modMov c f).ovfBufs = s.ovfBufs := rfl
@[simp] theorem State.modMov_tags (s : State) (c : Nat) (f : MovCh → MovCh) : (s.modMov c f).tags = s.tags := rfl
@[simp] theorem State.modMov_moveWait (s : State) (c : Nat) (f : MovCh → MovCh) : (s.modMov c f).moveWait = s.moveWait := rfl
@[simp] theorem State.modMov_movOwn (s : State) (c : Nat) (f : MovCh → MovCh) : (s.modMov c f).movOwn = s.movOwn := rfl
@[simp] theorem State.modMov_ctxSent (s : State) (c : Nat) (f : MovCh → MovCh) : (s.modMov c f).ctxSent = s.ctxSent := rfl
@[simp] theorem State.modMov_clhIn (s : State) (c : Nat) (f : MovCh → MovCh) : (s.modMov c f).clhIn = s.clhIn := rfl
@[simp] theorem State.modMov_tptIn (s : State) (c : Nat) (f : MovCh → MovCh) : (s.modMov c f).tptIn = s.tptIn := rfl
@[simp] theorem State.modMov_relayIn (s : State) (c : Nat) (f : MovCh → MovCh) : (s.modMov c f).relayIn = s.relayIn := rfl
@[simp] theorem State.modMov_mgIn (s : State) (c : Nat) (f : MovCh → MovCh) : (s.modMov c f).mgIn = s.mgIn := rfl
@[simp] theorem State.modMov_mcIn (s : State) (c : Nat) (f : MovCh → MovCh) : (s.modMov c f).mcIn = s.mcIn := rfl
@[simp] theorem State.modMov_fifelIn (s : State) (c : Nat) (f : MovCh → MovCh) : (s.modMov c f).fifelIn = s.fifelIn := rfl
@[simp] theorem State.modMov_qsRx (s : State) (c : Nat) (f : MovCh → MovCh) : (s.modMov c f).qsRx = s.qsRx := rfl
@[simp] theorem State.modMov_qsHere (s : State) (c : Nat) (f : MovCh → MovCh) : (s.modMov c f).qsHere = s.qsHere := rfl
@[simp] theorem State.modMov_qsWait (s : State) (c : Nat) (f : MovCh → MovCh) : (s.modMov c f).qsWait = s.qsWait := rfl
@[simp] theorem State.modMov_qsInj (s : State) (c : Nat) (f : MovCh → MovCh) : (s.modMov c f).qsInj = s.qsInj := rfl
@[simp] theorem State.modMov_samples (s : State) (c : Nat) (f : MovCh → MovCh) : (s.modMov c f).samples = s.samples := rfl
@[simp] theorem State.modMov_sampleLost (s : State) (c : Nat) (f : MovCh → MovCh) : (s.modMov c f).sampleLost = s.sampleLost := rfl
@[simp] theorem State.modMov_hmk (s : State) (c : Nat) (f : MovCh → MovCh) : (s.modMov c f).hmk = s.hmk := rfl
@[simp] theorem State.modMov_clh (s : State) (c : Nat) (f : MovCh → MovCh) : (s.modMov c f).clh = s.clh := rfl
@[simp] theorem State.modMov_pwr (s : State) (c : Nat) (f : MovCh → MovCh) : (s.modMov c f).pwr = s.pwr := rfl
@[simp] theorem State.modMov_boot (s : State) (c : Nat) (f : MovCh → MovCh) : (s.modMov c f).boot = s.boot := rfl
@[simp] theorem State.modMov_izg (s : State) (c : Nat) (f : MovCh → MovCh) : (s.modMov c f).izg = s.izg := rfl
@[simp] theorem State.modMov_wakeLow (s : State) (c : Nat) (f : MovCh → MovCh) : (s.modMov c f).wakeLow = s.wakeLow := rfl
@[simp] theorem State.modMov_trigFall (s : State) (c : Nat) (f : MovCh → MovCh) : (s.modMov c f).trigFall = s.trigFall := rfl
@[simp] theorem State.modMov_clk (s : State) (c : Nat) (f : MovCh → MovCh) : (s.modMov c f).clk = s.clk := rfl
@[simp] theorem State.modMov_rotate (s : State) (c : Nat) (f : MovCh → MovCh) : (s.modMov c f).rotate = s.rotate := rfl
@[simp] theorem State.modMov_freeCtr (s : State) (c : Nat) (f : MovCh → MovCh) : (s.modMov c f).freeCtr = s.freeCtr := rfl
@[simp] theorem State.modMov_nextId (s : State) (c : Nat) (f : MovCh → MovCh) : (s.modMov c f).nextId = s.nextId := rfl
@[simp] theorem State.modMov_out (s : State) (c : Nat) (f : MovCh → MovCh) : (s.modMov c f).out = s.out := rfl
@[simp] theorem State.modMov_pending (s : State) (c : Nat) (f : MovCh → MovCh) : (s.modMov c f).pending = s.pending := rfl
@[simp] theorem State.modMov_word (s : State) (c : Nat) (f : MovCh → MovCh) (q : RF) : (s.modMov c f).word q = s.word q := rfl
@[simp] theorem State.modMov_get (s : State) (c : Nat) (f : MovCh → MovCh) (q : RF) : (s.modMov c f).get q = s.get q := rfl
@[simp] theorem State.modMov_on (s : State) (c : Nat) (f : MovCh → MovCh) (q : RF) : (s.modMov c f).on q = s.on q := rfl

/-! ### free -/

@[simp] theorem State.free_regs (s : State) (w : Nat) : ((s.free w).2).regs = s.regs := rfl
@[simp] theorem State.free_ports (s : State) (w : Nat) : ((s.free w).2).ports = s.ports := rfl
@[simp] theorem State.free_hls (s : State) (w : Nat) : ((s.free w).2).hls = s.hls := rfl
@[simp] theorem State.free_fns (s : State) (w : Nat) : ((s.free w).2).fns = s.fns := rfl
@[simp] theorem State.free_accts (s : State) (w : Nat) : ((s.free w).2).accts = s.accts := rfl
@[simp] theorem State.free_ctxs (s : State) (w : Nat) : ((s.free w).2).ctxs = s.ctxs := rfl
@[simp] theorem State.free_trees (s : State) (w : Nat) : ((s.free w).2).trees = s.trees := rfl
@[simp] theorem State.free_movs (s : State) (w : Nat) : ((s.free w).2).movs = s.movs := rfl
@[simp] theorem State.free_srcMsgs (s : State) (w : Nat) : ((s.free w).2).srcMsgs = s.srcMsgs := rfl
@[simp] theorem State.free_openMsgs (s : State) (w : Nat) : ((s.free w).2).openMsgs = s.openMsgs := rfl
@[simp] theorem State.free_filter (s : State) (w : Nat) : ((s.free w).2).filter = s.filter := rfl
@[simp] theorem State.free_book (s : State) (w : Nat) : ((s.free w).2).book = s.book := rfl
@[simp] theorem State.free_keyCache (s : State) (w : Nat) : ((s.free w).2).keyCache = s.keyCache := rfl
@[simp] theorem State.free_rankCache (s : State) (w : Nat) : ((s.free w).2).rankCache = s.rankCache := rfl
@[simp] theorem State.free_orders (s : State) (w : Nat) : ((s.free w).2).orders = s.orders := rfl
@[simp] theorem State.free_aptWaits (s : State) (w : Nat) : ((s.free w).2).aptWaits = s.aptWaits := rfl
@[simp] theorem State.free_flushes (s : State) (w : Nat) : ((s.free w).2).flushes = s.flushes := rfl
@[simp] theorem State.free_notices (s : State) (w : Nat) : ((s.free w).2).notices = s.notices := rfl
@[simp] theorem State.free_acctCmds (s : State) (w : Nat) : ((s.free w).2).acctCmds = s.acctCmds := rfl
@[simp] theorem State.free_entries (s : State) (w : Nat) : ((s.free w).2).entries = s.entries := rfl
@[simp] theorem State.free_lmatches (s : State) (w : Nat) : ((s.free w).2).lmatches = s.lmatches := rfl
@[simp] theorem State.free_ovfBufs (s : State) (w : Nat) : ((s.free w).2).ovfBufs = s.ovfBufs := rfl
@[simp] theorem State.free_tags (s : State) (w : Nat) : ((s.free w).2).tags = s.tags := rfl
@[simp] theorem State.free_moveWait (s : State) (w : Nat) : ((s.free w).2).moveWait = s.moveWait := rfl
@[simp] theorem State.free_movOwn (s : State) (w : Nat) : ((s.free w).2).movOwn = s.movOwn := rfl
@[simp] theorem State.free_ctxSent (s : State) (w : Nat) : ((s.free w).2).ctxSent = s.ctxSent := rfl
@[simp] theorem State.free_clhIn (s : State) (w : Nat) : ((s.free w).2).clhIn = s.clhIn := rfl
@[simp] theorem State.free_tptIn (s : State) (w : Nat) : ((s.free w).2).tptIn = s.tptIn := rfl
@[simp] theorem State.free_relayIn (s : State) (w : Nat) : ((s.free w).2).relayIn = s.relayIn := rfl
@[simp] theorem State.free_mgIn (s : State) (w : Nat) : ((s.free w).2).mgIn = s.mgIn := rfl
@[simp] theorem State.free_mcIn (s : State) (w : Nat) : ((s.free w).2).mcIn = s.mcIn := rfl
@[simp] theorem State.free_fifelIn (s : State) (w : Nat) : ((s.free w).2).fifelIn = s.fifelIn := rfl
@[simp] theorem State.free_qsRx (s : State) (w : Nat) : ((s.free w).2).qsRx = s.qsRx := rfl
@[simp] theorem State.free_qsHere (s : State) (w : Nat) : ((s.free w).2).qsHere = s.qsHere := rfl
@[simp] theorem State.free_qsWait (s : State) (w : Nat) : ((s.free w).2).qsWait = s.qsWait := rfl
@[simp] theorem State.free_qsInj (s : State) (w : Nat) : ((s.free w).2).qsInj = s.qsInj := rfl
@[simp] theorem State.free_samples (s : State) (w : Nat) : ((s.free w).2).samples = s.samples := rfl
@[simp] theorem State.free_sampleLost (s : State) (w : Nat) : ((s.free w).2).sampleLost = s.sampleLost := rfl
@[simp] theorem State.free_hmk (s : State) (w : Nat) : ((s.free w).2).hmk = s.hmk := rfl
@[simp] theorem State.free_clh (s : State) (w : Nat) : ((s.free w).2).clh = s.clh := rfl
@[simp] theorem State.free_pwr (s : State) (w : Nat) : ((s.free w).2).pwr = s.pwr := rfl
@[simp] theorem State.free_boot (s : State) (w : Nat) : ((s.free w).2).boot = s.boot := rfl
@[simp] theorem State.free_izg (s : State) (w : Nat) : ((s.free w).2).izg = s.izg := rfl
@[simp] theorem State.free_wakeLow (s : State) (w : Nat) : ((s.free w).2).wakeLow = s.wakeLow := rfl
@[simp] theorem State.free_trigFall (s : State) (w : Nat) : ((s.free w).2).trigFall = s.trigFall := rfl
@[simp] theorem State.free_clk (s : State) (w : Nat) : ((s.free w).2).clk = s.clk := rfl
@[simp] theorem State.free_rotate (s : State) (w : Nat) : ((s.free w).2).rotate = s.rotate := rfl
@[simp] theorem State.free_nextId (s : State) (w : Nat) : ((s.free w).2).nextId = s.nextId := rfl
@[simp] theorem State.free_out (s : State) (w : Nat) : ((s.free w).2).out = s.out := rfl
@[simp] theorem State.free_pending (s : State) (w : Nat) : ((s.free w).2).pending = s.pending := rfl
@[simp] theorem State.free_word (s : State) (w : Nat) (q : RF) : ((s.free w).2).word q = s.word q := rfl
@[simp] theorem State.free_get (s : State) (w : Nat) (q : RF) : ((s.free w).2).get q = s.get q := rfl
@[simp] theorem State.free_on (s : State) (w : Nat) (q : RF) : ((s.free w).2).on q = s.on q := rfl

/-! ### newId -/

@[simp] theorem State.newId_regs (s : State) : (s.newId.2).regs = s.regs := rfl
@[simp] theorem State.newId_ports (s : State) : (s.newId.2).ports = s.ports := rfl
@[simp] theorem State.newId_hls (s : State) : (s.newId.2).hls = s.hls := rfl
@[simp] theorem State.newId_fns (s : State) : (s.newId.2).fns = s.fns := rfl
@[simp] theorem State.newId_accts (s : State) : (s.newId.2).accts = s.accts := rfl
@[simp] theorem State.newId_ctxs (s : State) : (s.newId.2).ctxs = s.ctxs := rfl
@[simp] theorem State.newId_trees (s : State) : (s.newId.2).trees = s.trees := rfl
@[simp] theorem State.newId_movs (s : State) : (s.newId.2).movs = s.movs := rfl
@[simp] theorem State.newId_srcMsgs (s : State) : (s.newId.2).srcMsgs = s.srcMsgs := rfl
@[simp] theorem State.newId_openMsgs (s : State) : (s.newId.2).openMsgs = s.openMsgs := rfl
@[simp] theorem State.newId_filter (s : State) : (s.newId.2).filter = s.filter := rfl
@[simp] theorem State.newId_book (s : State) : (s.newId.2).book = s.book := rfl
@[simp] theorem State.newId_keyCache (s : State) : (s.newId.2).keyCache = s.keyCache := rfl
@[simp] theorem State.newId_rankCache (s : State) : (s.newId.2).rankCache = s.rankCache := rfl
@[simp] theorem State.newId_orders (s : State) : (s.newId.2).orders = s.orders := rfl
@[simp] theorem State.newId_aptWaits (s : State) : (s.newId.2).aptWaits = s.aptWaits := rfl
@[simp] theorem State.newId_flushes (s : State) : (s.newId.2).flushes = s.flushes := rfl
@[simp] theorem State.newId_notices (s : State) : (s.newId.2).notices = s.notices := rfl
@[simp] theorem State.newId_acctCmds (s : State) : (s.newId.2).acctCmds = s.acctCmds := rfl
@[simp] theorem State.newId_entries (s : State) : (s.newId.2).entries = s.entries := rfl
@[simp] theorem State.newId_lmatches (s : State) : (s.newId.2).lmatches = s.lmatches := rfl
@[simp] theorem State.newId_ovfBufs (s : State) : (s.newId.2).ovfBufs = s.ovfBufs := rfl
@[simp] theorem State.newId_tags (s : State) : (s.newId.2).tags = s.tags := rfl
@[simp] theorem State.newId_moveWait (s : State) : (s.newId.2).moveWait = s.moveWait := rfl
@[simp] theorem State.newId_movOwn (s : State) : (s.newId.2).movOwn = s.movOwn := rfl
@[simp] theorem State.newId_ctxSent (s : State) : (s.newId.2).ctxSent = s.ctxSent := rfl
@[simp] theorem State.newId_clhIn (s : State) : (s.newId.2).clhIn = s.clhIn := rfl
@[simp] theorem State.newId_tptIn (s : State) : (s.newId.2).tptIn = s.tptIn := rfl
@[simp] theorem State.newId_relayIn (s : State) : (s.newId.2).relayIn = s.relayIn := rfl
@[simp] theorem State.newId_mgIn (s : State) : (s.newId.2).mgIn = s.mgIn := rfl
@[simp] theorem State.newId_mcIn (s : State) : (s.newId.2).mcIn = s.mcIn := rfl
@[simp] theorem State.newId_fifelIn (s : State) : (s.newId.2).fifelIn = s.fifelIn := rfl
@[simp] theorem State.newId_qsRx (s : State) : (s.newId.2).qsRx = s.qsRx := rfl
@[simp] theorem State.newId_qsHere (s : State) : (s.newId.2).qsHere = s.qsHere := rfl
@[simp] theorem State.newId_qsWait (s : State) : (s.newId.2).qsWait = s.qsWait := rfl
@[simp] theorem State.newId_qsInj (s : State) : (s.newId.2).qsInj = s.qsInj := rfl
@[simp] theorem State.newId_samples (s : State) : (s.newId.2).samples = s.samples := rfl
@[simp] theorem State.newId_sampleLost (s : State) : (s.newId.2).sampleLost = s.sampleLost := rfl
@[simp] theorem State.newId_hmk (s : State) : (s.newId.2).hmk = s.hmk := rfl
@[simp] theorem State.newId_clh (s : State) : (s.newId.2).clh = s.clh := rfl
@[simp] theorem State.newId_pwr (s : State) : (s.newId.2).pwr = s.pwr := rfl
@[simp] theorem State.newId_boot (s : State) : (s.newId.2).boot = s.boot := rfl
@[simp] theorem State.newId_izg (s : State) : (s.newId.2).izg = s.izg := rfl
@[simp] theorem State.newId_wakeLow (s : State) : (s.newId.2).wakeLow = s.wakeLow := rfl
@[simp] theorem State.newId_trigFall (s : State) : (s.newId.2).trigFall = s.trigFall := rfl
@[simp] theorem State.newId_clk (s : State) : (s.newId.2).clk = s.clk := rfl
@[simp] theorem State.newId_rotate (s : State) : (s.newId.2).rotate = s.rotate := rfl
@[simp] theorem State.newId_freeCtr (s : State) : (s.newId.2).freeCtr = s.freeCtr := rfl
@[simp] theorem State.newId_out (s : State) : (s.newId.2).out = s.out := rfl
@[simp] theorem State.newId_pending (s : State) : (s.newId.2).pending = s.pending := rfl
@[simp] theorem State.newId_word (s : State) (q : RF) : (s.newId.2).word q = s.word q := rfl
@[simp] theorem State.newId_get (s : State) (q : RF) : (s.newId.2).get q = s.get q := rfl
@[simp] theorem State.newId_on (s : State) (q : RF) : (s.newId.2).on q = s.on q := rfl

/-! ### Items -/

@[simp] theorem State.emit_out (s : State) (e : Emit) : (s.emit e).out = e :: s.out := rfl

@[simp] theorem State.modPort_port (s : State) (p q : Nat) (f : Port → Port) :
    (s.modPort p f).port q = if q = p then f (s.port p) else s.port q := by
  by_cases h : q = p <;> simp [State.modPort, State.port, tget_tput, h]

@[simp] theorem State.modHl_hl (s : State) (p q : Nat) (f : Hl → Hl) :
    (s.modHl p f).hl q = if q = p then f (s.hl p) else s.hl q := by
  by_cases h : q = p <;> simp [State.modHl, State.hl, tget_tput, h]

@[simp] theorem State.modAcct_acct (s : State) (p q : Nat) (f : Acct → Acct) :
    (s.modAcct p f).acct q = if q = p then f (s.acct p) else s.acct q := by
  by_cases h : q = p <;> simp [State.modAcct, State.acct, tget_tput, h]

@[simp] theorem State.modCtx_ctx (s : State) (p q : Nat) (f : CtxRt → CtxRt) :
    (s.modCtx p f).ctx q = if q = p then f (s.ctx p) else s.ctx q := by
  by_cases h : q = p <;> simp [State.modCtx, State.ctx, tget_tput, h]

@[simp] theorem State.modTree_tree (s : State) (p q : Nat) (f : TreeRt → TreeRt) :
    (s.modTree p f).tree q = if q = p then f (s.tree p) else s.tree q := by
  by_cases h : q = p <;> simp [State.modTree, State.tree, tget_tput, h]

@[simp] theorem State.modMov_mov (s : State) (p q : Nat) (f : MovCh → MovCh) :
    (s.modMov p f).mov q = if q = p then f (s.mov p) else s.mov q := by
  by_cases h : q = p <;> simp [State.modMov, State.mov, tget_tput, h]

end Sys2Proof.Machine
end

