-- ==== Sys2Proof/Laws/Complete.lean ====
section
/-!
SUPPORT. Laws/Complete.lean: what the words of Safety.lean are used with: registers that change alone, descriptors that are
consumed, packets that arrive.
-/
namespace Sys2Proof.Machine

/-! ### SameBut -/

theorem SameBut.refl (as : List Nat) (s : State) : SameBut as s s := ⟨rfl, fun _ _ => rfl⟩

theorem SameBut.setWord {as : List Nat} {s t : State} (h : SameBut as s t) (r : RF) (v : Word) (m : r.addr ∈ as) :
    SameBut as s (t.setWord r v) := by
  refine ⟨?_, fun q hq => ?_⟩
  · rw [h.1]; rfl
  · have hn : q.addr ≠ r.addr := fun e => hq (e ▸ m)
    rw [word_setWord t r q v (fun e => absurd e hn), if_neg hn, h.2 q hq]

theorem SameBut.set {as : List Nat} {s t : State} (h : SameBut as s t) (r : RF) (v : Nat) (m : r.addr ∈ as) :
    SameBut as s (t.set r v) := h.setWord r _ m

theorem SameBut.trans {as : List Nat} {s t u : State} (h : SameBut as s t) (k : SameBut as t u) : SameBut as s u :=
  ⟨by rw [k.1, h.1], fun q hq => (k.2 q hq).trans (h.2 q hq)⟩

/-- A field of a register that may not have changed reads as before. -/
theorem SameBut.get {as : List Nat} {s t : State} (h : SameBut as s t) (q : RF) (m : q.addr ∉ as) : t.get q = s.get q := by
  simp only [State.get, h.2 q m]

/-! ### One-bit fields -/

theorem on_eq_true_iff (s : State) (r : RF) : s.on r = true ↔ s.get r ≠ 0 := by simp [State.on]

theorem on_eq_false_iff (s : State) (r : RF) : s.on r = false ↔ s.get r = 0 := by simp [State.on]

/-! ### Descriptors -/

/-- A good descriptor at the head of a source stops the search for bad ones. -/
theorem badHeads_good (s : State) (a : Nat) (src : Source) (k : Nat) {d : Desc} {ring idx : Nat} (h : s.head a src = some (d, ring, idx))
    (ty : descType d < 10) (eq : s.eqOn a (bf d.toNat 8 6) = true) : s.badHeads a src k = s := by
  cases k with
  | zero => rfl
  | succ k =>
    have t : ¬ 10 ≤ descType d := by omega
    simp [State.badHeads, h, eq, t]

/-- A descriptor that may be consumed is consumed, and its engine acts. -/
theorem withDesc_serves {s : State} {a : Nat} {src : Source} {ty : Nat} {d : Desc} {ring idx : Nat} (h : s.Serves a src ty d ring idx)
    {holds : State → Desc → Bool} (hh : holds s d = false) (act : State → Desc → EvtInfo → State) :
    s.withDesc a src ty holds act = (act (s.taken a src d) d (s.evTaken a src d ring idx)).after a src := by
  have hb := badHeads_good s a src 64 h.head (h.type ▸ h.known) h.eq
  have he : ¬ (engineOf ty ≠ 0 ∧ s.engineOn (engineOf ty) = false) := by
    rcases h.engine with e | e <;> simp [e]
  simp only [State.withDesc, hb, h.head, h.type, h.eq, h.opened, h.room, hh, State.taken, State.evTaken]
  simp [he]

/-- The same where the engine's accesses to host memory can all be made. -/
theorem withDescHost_serves {s : State} {a : Nat} {src : Source} {ty : Nat} {d : Desc} {ring idx : Nat} (h : s.Serves a src ty d ring idx)
    {holds : State → Desc → Bool} (hh : holds s d = false) {accs : State → Desc → List (Nat × Nat × Bool)}
    {hv : HostView} (hg : s.gate (s.aHl a) (s.aFn a) (s.aPasid a) (accs s d) hv = (.go, s)) (act : State → Desc → EvtInfo → Bool → State) :
    s.withDescHost a src ty holds accs hv act = (act (s.taken a src d) d (s.evTaken a src d ring idx) false).after a src := by
  have hb := badHeads_good s a src 64 h.head (h.type ▸ h.known) h.eq
  simp only [State.withDescHost, hb, h.head, h.type, h.opened, hg]
  rw [withDesc_serves h hh]
  have hf : (Gate.go == Gate.fail) = false := by decide
  simp [hf]

/-! ### Packets -/

/-- A packet that arrives is acted on. -/
theorem withPkt_arrives {s u : State} {op : Nat} {p : Packet} (h : s.Arrives op p u) (act : State → Packet → State) :
    s.withPkt op act = (act u p).activityUpd := by
  simp [State.withPkt, h.first, h.engine, h.passes]

end Sys2Proof.Machine
end

