-- ==== Sys2Proof/Laws/Frame.lean ====
section
/-!
SUPPORT. Laws/Frame.lean: which parts of State an operation may change. `Upd A s t` says that a run of operations took `s` to `t`,
that every part of State that is not in `A` is as before, and that the invariant of Safety.lean was kept. Each shared operation has one lemma in this
form (Laws/FrameOps.lean to Laws/FrameTick.lean), which names the parts it may change; a proof cites it and does not unfold the operation.
-/
namespace Sys2Proof.Machine

/-- `t` comes from `s` by operations that change only the parts in `A` and keep the invariant. -/
structure Upd (A : Fld → Bool) (s t : State) : Prop extends Unchanged A s t where
  keeps : s.Inv → t.Inv

theorem Upd.refl {A : Fld → Bool} (s : State) : Upd A s s where
  regs := .inr rfl
  ports := .inr rfl
  hls := .inr rfl
  fns := .inr rfl
  accts := .inr rfl
  ctxs := .inr rfl
  trees := .inr rfl
  movs := .inr rfl
  srcMsgs := .inr rfl
  openMsgs := .inr rfl
  filter := .inr rfl
  book := .inr rfl
  keyCache := .inr rfl
  rankCache := .inr rfl
  orders := .inr rfl
  aptWaits := .inr rfl
  flushes := .inr rfl
  notices := .inr rfl
  acctCmds := .inr rfl
  entries := .inr rfl
  lmatches := .inr rfl
  ovfBufs := .inr rfl
  tags := .inr rfl
  moveWait := .inr rfl
  movOwn := .inr rfl
  ctxSent := .inr rfl
  clhIn := .inr rfl
  tptIn := .inr rfl
  relayIn := .inr rfl
  mgIn := .inr rfl
  mcIn := .inr rfl
  fifelIn := .inr rfl
  qsRx := .inr rfl
  qsHere := .inr rfl
  qsWait := .inr rfl
  qsInj := .inr rfl
  samples := .inr rfl
  sampleLost := .inr rfl
  hmk := .inr rfl
  clh := .inr rfl
  pwr := .inr rfl
  boot := .inr rfl
  izg := .inr rfl
  wakeLow := .inr rfl
  trigFall := .inr rfl
  clk := .inr rfl
  rotate := .inr rfl
  freeCtr := .inr rfl
  nextId := .inr rfl
  out := .inr rfl
  pending := .inr rfl
  keeps := id

theorem Upd.trans {A : Fld → Bool} {s t u : State} (h : Upd A s t) (k : Upd A t u) : Upd A s u where
  regs := k.regs.elim .inl fun e => h.regs.imp id fun d => e.trans d
  ports := k.ports.elim .inl fun e => h.ports.imp id fun d => e.trans d
  hls := k.hls.elim .inl fun e => h.hls.imp id fun d => e.trans d
  fns := k.fns.elim .inl fun e => h.fns.imp id fun d => e.trans d
  accts := k.accts.elim .inl fun e => h.accts.imp id fun d => e.trans d
  ctxs := k.ctxs.elim .inl fun e => h.ctxs.imp id fun d => e.trans d
  trees := k.trees.elim .inl fun e => h.trees.imp id fun d => e.trans d
  movs := k.movs.elim .inl fun e => h.movs.imp id fun d => e.trans d
  srcMsgs := k.srcMsgs.elim .inl fun e => h.srcMsgs.imp id fun d => e.trans d
  openMsgs := k.openMsgs.elim .inl fun e => h.openMsgs.imp id fun d => e.trans d
  filter := k.filter.elim .inl fun e => h.filter.imp id fun d => e.trans d
  book := k.book.elim .inl fun e => h.book.imp id fun d => e.trans d
  keyCache := k.keyCache.elim .inl fun e => h.keyCache.imp id fun d => e.trans d
  rankCache := k.rankCache.elim .inl fun e => h.rankCache.imp id fun d => e.trans d
  orders := k.orders.elim .inl fun e => h.orders.imp id fun d => e.trans d
  aptWaits := k.aptWaits.elim .inl fun e => h.aptWaits.imp id fun d => e.trans d
  flushes := k.flushes.elim .inl fun e => h.flushes.imp id fun d => e.trans d
  notices := k.notices.elim .inl fun e => h.notices.imp id fun d => e.trans d
  acctCmds := k.acctCmds.elim .inl fun e => h.acctCmds.imp id fun d => e.trans d
  entries := k.entries.elim .inl fun e => h.entries.imp id fun d => e.trans d
  lmatches := k.lmatches.elim .inl fun e => h.lmatches.imp id fun d => e.trans d
  ovfBufs := k.ovfBufs.elim .inl fun e => h.ovfBufs.imp id fun d => e.trans d
  tags := k.tags.elim .inl fun e => h.tags.imp id fun d => e.trans d
  moveWait := k.moveWait.elim .inl fun e => h.moveWait.imp id fun d => e.trans d
  movOwn := k.movOwn.elim .inl fun e => h.movOwn.imp id fun d => e.trans d
  ctxSent := k.ctxSent.elim .inl fun e => h.ctxSent.imp id fun d => e.trans d
  clhIn := k.clhIn.elim .inl fun e => h.clhIn.imp id fun d => e.trans d
  tptIn := k.tptIn.elim .inl fun e => h.tptIn.imp id fun d => e.trans d
  relayIn := k.relayIn.elim .inl fun e => h.relayIn.imp id fun d => e.trans d
  mgIn := k.mgIn.elim .inl fun e => h.mgIn.imp id fun d => e.trans d
  mcIn := k.mcIn.elim .inl fun e => h.mcIn.imp id fun d => e.trans d
  fifelIn := k.fifelIn.elim .inl fun e => h.fifelIn.imp id fun d => e.trans d
  qsRx := k.qsRx.elim .inl fun e => h.qsRx.imp id fun d => e.trans d
  qsHere := k.qsHere.elim .inl fun e => h.qsHere.imp id fun d => e.trans d
  qsWait := k.qsWait.elim .inl fun e => h.qsWait.imp id fun d => e.trans d
  qsInj := k.qsInj.elim .inl fun e => h.qsInj.imp id fun d => e.trans d
  samples := k.samples.elim .inl fun e => h.samples.imp id fun d => e.trans d
  sampleLost := k.sampleLost.elim .inl fun e => h.sampleLost.imp id fun d => e.trans d
  hmk := k.hmk.elim .inl fun e => h.hmk.imp id fun d => e.trans d
  clh := k.clh.elim .inl fun e => h.clh.imp id fun d => e.trans d
  pwr := k.pwr.elim .inl fun e => h.pwr.imp id fun d => e.trans d
  boot := k.boot.elim .inl fun e => h.boot.imp id fun d => e.trans d
  izg := k.izg.elim .inl fun e => h.izg.imp id fun d => e.trans d
  wakeLow := k.wakeLow.elim .inl fun e => h.wakeLow.imp id fun d => e.trans d
  trigFall := k.trigFall.elim .inl fun e => h.trigFall.imp id fun d => e.trans d
  clk := k.clk.elim .inl fun e => h.clk.imp id fun d => e.trans d
  rotate := k.rotate.elim .inl fun e => h.rotate.imp id fun d => e.trans d
  freeCtr := k.freeCtr.elim .inl fun e => h.freeCtr.imp id fun d => e.trans d
  nextId := k.nextId.elim .inl fun e => h.nextId.imp id fun d => e.trans d
  out := k.out.elim .inl fun e => h.out.imp id fun d => e.trans d
  pending := k.pending.elim .inl fun e => h.pending.imp id fun d => e.trans d
  keeps i := k.keeps (h.keeps i)

section
variable {A : Fld → Bool} {s0 s : State}

theorem Upd.to_regs (x : List (Nat × BitVec 64)) (h : Upd A s0 s) (a : A .regs = true) (k : s0.Inv → s.Inv → tasc x = true) : Upd A s0 { s with regs := x } :=
  { h with regs := .inl a, keeps := fun i => { h.keeps i with regs := k i (h.keeps i) } }
theorem Upd.to_ports (x : List (Nat × Port)) (h : Upd A s0 s) (a : A .ports = true) (k : s0.Inv → s.Inv → tasc x = true) : Upd A s0 { s with ports := x } :=
  { h with ports := .inl a, keeps := fun i => { h.keeps i with ports := k i (h.keeps i) } }
theorem Upd.to_hls (x : List (Nat × Hl)) (h : Upd A s0 s) (a : A .hls = true) (k : s0.Inv → s.Inv → tasc x = true) : Upd A s0 { s with hls := x } :=
  { h with hls := .inl a, keeps := fun i => { h.keeps i with hls := k i (h.keeps i) } }
theorem Upd.to_fns (x : List (Nat × Fn)) (h : Upd A s0 s) (a : A .fns = true) (k : s0.Inv → s.Inv → tasc x = true) : Upd A s0 { s with fns := x } :=
  { h with fns := .inl a, keeps := fun i => { h.keeps i with fns := k i (h.keeps i) } }
theorem Upd.to_accts (x : List (Nat × Acct)) (h : Upd A s0 s) (a : A .accts = true) (k : s0.Inv → s.Inv → tasc x = true) : Upd A s0 { s with accts := x } :=
  { h with accts := .inl a, keeps := fun i => { h.keeps i with accts := k i (h.keeps i) } }
theorem Upd.to_ctxs (x : List (Nat × CtxRt)) (h : Upd A s0 s) (a : A .ctxs = true) (k : s0.Inv → s.Inv → tasc x = true) : Upd A s0 { s with ctxs := x } :=
  { h with ctxs := .inl a, keeps := fun i => { h.keeps i with ctxs := k i (h.keeps i) } }
theorem Upd.to_trees (x : List (Nat × TreeRt)) (h : Upd A s0 s) (a : A .trees = true) (k : s0.Inv → s.Inv → tasc x = true) : Upd A s0 { s with trees := x } :=
  { h with trees := .inl a, keeps := fun i => { h.keeps i with trees := k i (h.keeps i) } }
theorem Upd.to_movs (x : List (Nat × MovCh)) (h : Upd A s0 s) (a : A .movs = true) (k : s0.Inv → s.Inv → tasc x = true) : Upd A s0 { s with movs := x } :=
  { h with movs := .inl a, keeps := fun i => { h.keeps i with movs := k i (h.keeps i) } }
theorem Upd.to_srcMsgs (x : List SrcMsg) (h : Upd A s0 s) (a : A .srcMsgs = true) : Upd A s0 { s with srcMsgs := x } :=
  { h with srcMsgs := .inl a, keeps := fun i => { h.keeps i with } }
theorem Upd.to_openMsgs (x : List OpenMsg) (h : Upd A s0 s) (a : A .openMsgs = true) : Upd A s0 { s with openMsgs := x } :=
  { h with openMsgs := .inl a, keeps := fun i => { h.keeps i with } }
theorem Upd.to_filter (x : List FilterEnt) (h : Upd A s0 s) (a : A .filter = true) : Upd A s0 { s with filter := x } :=
  { h with filter := .inl a, keeps := fun i => { h.keeps i with } }
theorem Upd.to_book (x : List BookEnt) (h : Upd A s0 s) (a : A .book = true) : Upd A s0 { s with book := x } :=
  { h with book := .inl a, keeps := fun i => { h.keeps i with } }
theorem Upd.to_keyCache (x : List (Nat × Nat × KeyEntry)) (h : Upd A s0 s) (a : A .keyCache = true) (k : s0.Inv → s.Inv → x.length ≤ 262144) : Upd A s0 { s with keyCache := x } :=
  { h with keyCache := .inl a, keeps := fun i => { h.keeps i with keyCache := k i (h.keeps i) } }
theorem Upd.to_rankCache (x : List (Nat × Nat × RankEntry)) (h : Upd A s0 s) (a : A .rankCache = true) (k : s0.Inv → s.Inv → x.length ≤ 65536) : Upd A s0 { s with rankCache := x } :=
  { h with rankCache := .inl a, keeps := fun i => { h.keeps i with rankCache := k i (h.keeps i) } }
theorem Upd.to_orders (x : List Order) (h : Upd A s0 s) (a : A .orders = true) : Upd A s0 { s with orders := x } :=
  { h with orders := .inl a, keeps := fun i => { h.keeps i with } }
theorem Upd.to_aptWaits (x : List AptWait) (h : Upd A s0 s) (a : A .aptWaits = true) : Upd A s0 { s with aptWaits := x } :=
  { h with aptWaits := .inl a, keeps := fun i => { h.keeps i with } }
theorem Upd.to_flushes (x : List Flush) (h : Upd A s0 s) (a : A .flushes = true) : Upd A s0 { s with flushes := x } :=
  { h with flushes := .inl a, keeps := fun i => { h.keeps i with } }
theorem Upd.to_notices (x : List Notice) (h : Upd A s0 s) (a : A .notices = true) : Upd A s0 { s with notices := x } :=
  { h with notices := .inl a, keeps := fun i => { h.keeps i with } }
theorem Upd.to_acctCmds (x : List AcctCmd) (h : Upd A s0 s) (a : A .acctCmds = true) : Upd A s0 { s with acctCmds := x } :=
  { h with acctCmds := .inl a, keeps := fun i => { h.keeps i with } }
theorem Upd.to_entries (x : List LEntry) (h : Upd A s0 s) (a : A .entries = true) : Upd A s0 { s with entries := x } :=
  { h with entries := .inl a, keeps := fun i => { h.keeps i with } }
theorem Upd.to_lmatches (x : List LMatch) (h : Upd A s0 s) (a : A .lmatches = true) : Upd A s0 { s with lmatches := x } :=
  { h with lmatches := .inl a, keeps := fun i => { h.keeps i with } }
theorem Upd.to_ovfBufs (x : List OvfBuf) (h : Upd A s0 s) (a : A .ovfBufs = true) : Upd A s0 { s with ovfBufs := x } :=
  { h with ovfBufs := .inl a, keeps := fun i => { h.keeps i with } }
theorem Upd.to_tags (x : List Tag) (h : Upd A s0 s) (a : A .tags = true) : Upd A s0 { s with tags := x } :=
  { h with tags := .inl a, keeps := fun i => { h.keeps i with } }
theorem Upd.to_moveWait (x : List MoveWait) (h : Upd A s0 s) (a : A .moveWait = true) : Upd A s0 { s with moveWait := x } :=
  { h with moveWait := .inl a, keeps := fun i => { h.keeps i with } }
theorem Upd.to_movOwn (x : List MovWrite) (h : Upd A s0 s) (a : A .movOwn = true) : Upd A s0 { s with movOwn := x } :=
  { h with movOwn := .inl a, keeps := fun i => { h.keeps i with } }
theorem Upd.to_ctxSent (x : List (Nat × CtxWin)) (h : Upd A s0 s) (a : A .ctxSent = true) : Upd A s0 { s with ctxSent := x } :=
  { h with ctxSent := .inl a, keeps := fun i => { h.keeps i with } }
theorem Upd.to_clhIn (x : List Record) (h : Upd A s0 s) (a : A .clhIn = true) : Upd A s0 { s with clhIn := x } :=
  { h with clhIn := .inl a, keeps := fun i => { h.keeps i with } }
theorem Upd.to_tptIn (x : List Packet) (h : Upd A s0 s) (a : A .tptIn = true) : Upd A s0 { s with tptIn := x } :=
  { h with tptIn := .inl a, keeps := fun i => { h.keeps i with } }
theorem Upd.to_relayIn (x : List (Nat × Nat)) (h : Upd A s0 s) (a : A .relayIn = true) : Upd A s0 { s with relayIn := x } :=
  { h with relayIn := .inl a, keeps := fun i => { h.keeps i with } }
theorem Upd.to_mgIn (x : List Packet) (h : Upd A s0 s) (a : A .mgIn = true) : Upd A s0 { s with mgIn := x } :=
  { h with mgIn := .inl a, keeps := fun i => { h.keeps i with } }
theorem Upd.to_mcIn (x : List Packet) (h : Upd A s0 s) (a : A .mcIn = true) : Upd A s0 { s with mcIn := x } :=
  { h with mcIn := .inl a, keeps := fun i => { h.keeps i with } }
theorem Upd.to_fifelIn (x : List Packet) (h : Upd A s0 s) (a : A .fifelIn = true) : Upd A s0 { s with fifelIn := x } :=
  { h with fifelIn := .inl a, keeps := fun i => { h.keeps i with } }
theorem Upd.to_qsRx (x : List QsArr) (h : Upd A s0 s) (a : A .qsRx = true) : Upd A s0 { s with qsRx := x } :=
  { h with qsRx := .inl a, keeps := fun i => { h.keeps i with } }
theorem Upd.to_qsHere (x : List QsArr) (h : Upd A s0 s) (a : A .qsHere = true) : Upd A s0 { s with qsHere := x } :=
  { h with qsHere := .inl a, keeps := fun i => { h.keeps i with } }
theorem Upd.to_qsWait (x : List QsWait) (h : Upd A s0 s) (a : A .qsWait = true) : Upd A s0 { s with qsWait := x } :=
  { h with qsWait := .inl a, keeps := fun i => { h.keeps i with } }
theorem Upd.to_qsInj (x : List QsWait) (h : Upd A s0 s) (a : A .qsInj = true) (k : s0.Inv → s.Inv → x.length ≤ 4096) : Upd A s0 { s with qsInj := x } :=
  { h with qsInj := .inl a, keeps := fun i => { h.keeps i with qsInj := k i (h.keeps i) } }
theorem Upd.to_samples (x : List Nat) (h : Upd A s0 s) (a : A .samples = true) : Upd A s0 { s with samples := x } :=
  { h with samples := .inl a, keeps := fun i => { h.keeps i with } }
theorem Upd.to_sampleLost (x : Nat) (h : Upd A s0 s) (a : A .sampleLost = true) : Upd A s0 { s with sampleLost := x } :=
  { h with sampleLost := .inl a, keeps := fun i => { h.keeps i with } }
theorem Upd.to_hmk (x : Hmk) (h : Upd A s0 s) (a : A .hmk = true) : Upd A s0 { s with hmk := x } :=
  { h with hmk := .inl a, keeps := fun i => { h.keeps i with } }
theorem Upd.to_clh (x : Clh) (h : Upd A s0 s) (a : A .clh = true) (k : s0.Inv → s.Inv → x.flashQ.length ≤ 64) : Upd A s0 { s with clh := x } :=
  { h with clh := .inl a, keeps := fun i => { h.keeps i with flashQ := k i (h.keeps i) } }
theorem Upd.to_pwr (x : Pwr) (h : Upd A s0 s) (a : A .pwr = true) (k : s0.Inv → s.Inv → x.lossArea.length ≤ 64) : Upd A s0 { s with pwr := x } :=
  { h with pwr := .inl a, keeps := fun i => { h.keeps i with lossArea := k i (h.keeps i) } }
theorem Upd.to_boot (x : Boot) (h : Upd A s0 s) (a : A .boot = true) : Upd A s0 { s with boot := x } :=
  { h with boot := .inl a, keeps := fun i => { h.keeps i with } }
theorem Upd.to_izg (x : Izg) (h : Upd A s0 s) (a : A .izg = true) (k : s0.Inv → s.Inv → x.mg.length ≤ 64 ∧ x.summary.length ≤ 16384) : Upd A s0 { s with izg := x } :=
  { h with izg := .inl a, keeps := fun i => { h.keeps i with mg := (k i (h.keeps i)).1, summary := (k i (h.keeps i)).2 } }
theorem Upd.to_wakeLow (x : List Nat) (h : Upd A s0 s) (a : A .wakeLow = true) : Upd A s0 { s with wakeLow := x } :=
  { h with wakeLow := .inl a, keeps := fun i => { h.keeps i with } }
theorem Upd.to_trigFall (x : Option Nat) (h : Upd A s0 s) (a : A .trigFall = true) : Upd A s0 { s with trigFall := x } :=
  { h with trigFall := .inl a, keeps := fun i => { h.keeps i with } }
theorem Upd.to_clk (x : Nat) (h : Upd A s0 s) (a : A .clk = true) : Upd A s0 { s with clk := x } :=
  { h with clk := .inl a, keeps := fun i => { h.keeps i with } }
theorem Upd.to_rotate (x : List (Nat × Nat)) (h : Upd A s0 s) (a : A .rotate = true) : Upd A s0 { s with rotate := x } :=
  { h with rotate := .inl a, keeps := fun i => { h.keeps i with } }
theorem Upd.to_freeCtr (x : Nat) (h : Upd A s0 s) (a : A .freeCtr = true) : Upd A s0 { s with freeCtr := x } :=
  { h with freeCtr := .inl a, keeps := fun i => { h.keeps i with } }
theorem Upd.to_nextId (x : Nat) (h : Upd A s0 s) (a : A .nextId = true) : Upd A s0 { s with nextId := x } :=
  { h with nextId := .inl a, keeps := fun i => { h.keeps i with } }
theorem Upd.to_out (x : List Emit) (h : Upd A s0 s) (a : A .out = true) : Upd A s0 { s with out := x } :=
  { h with out := .inl a, keeps := fun i => { h.keeps i with } }
theorem Upd.to_pending (x : List Instr) (h : Upd A s0 s) (a : A .pending = true) : Upd A s0 { s with pending := x } :=
  { h with pending := .inl a, keeps := fun i => { h.keeps i with } }
/-! Updates of several parts at once. -/
theorem Upd.to_filter_book (x0 : List FilterEnt) (x1 : List BookEnt) (h : Upd A s0 s) (a0 : A .filter = true) (a1 : A .book = true)  :
    Upd A s0 { s with filter := x0, book := x1 } :=
  { h with filter := .inl a0, book := .inl a1, keeps := fun i => { h.keeps i with  } }
theorem Upd.to_srcMsgs_entries_lmatches (x0 : List SrcMsg) (x1 : List LEntry) (x2 : List LMatch) (h : Upd A s0 s) (a0 : A .srcMsgs = true) (a1 : A .entries = true) (a2 : A .lmatches = true)  :
    Upd A s0 { s with srcMsgs := x0, entries := x1, lmatches := x2 } :=
  { h with srcMsgs := .inl a0, entries := .inl a1, lmatches := .inl a2, keeps := fun i => { h.keeps i with  } }
theorem Upd.to_orders_notices (x0 : List Order) (x1 : List Notice) (h : Upd A s0 s) (a0 : A .orders = true) (a1 : A .notices = true)  :
    Upd A s0 { s with orders := x0, notices := x1 } :=
  { h with orders := .inl a0, notices := .inl a1, keeps := fun i => { h.keeps i with  } }
theorem Upd.to_samples_sampleLost (x0 : List Nat) (x1 : Nat) (h : Upd A s0 s) (a0 : A .samples = true) (a1 : A .sampleLost = true)  :
    Upd A s0 { s with samples := x0, sampleLost := x1 } :=
  { h with samples := .inl a0, sampleLost := .inl a1, keeps := fun i => { h.keeps i with  } }
theorem Upd.to_srcMsgs_aptWaits_lmatches (x0 : List SrcMsg) (x1 : List AptWait) (x2 : List LMatch) (h : Upd A s0 s) (a0 : A .srcMsgs = true) (a1 : A .aptWaits = true) (a2 : A .lmatches = true)  :
    Upd A s0 { s with srcMsgs := x0, aptWaits := x1, lmatches := x2 } :=
  { h with srcMsgs := .inl a0, aptWaits := .inl a1, lmatches := .inl a2, keeps := fun i => { h.keeps i with  } }
theorem Upd.to_hmk_clh (x0 : Hmk) (x1 : Clh) (h : Upd A s0 s) (a0 : A .hmk = true) (a1 : A .clh = true) (k1 : s0.Inv → s.Inv → x1.flashQ.length ≤ 64) :
    Upd A s0 { s with hmk := x0, clh := x1 } :=
  { h with hmk := .inl a0, clh := .inl a1, keeps := fun i => { h.keeps i with flashQ := k1 i (h.keeps i) } }
theorem Upd.to_clh_pwr (x0 : Clh) (x1 : Pwr) (h : Upd A s0 s) (a0 : A .clh = true) (a1 : A .pwr = true) (k0 : s0.Inv → s.Inv → x0.flashQ.length ≤ 64) (k1 : s0.Inv → s.Inv → x1.lossArea.length ≤ 64) :
    Upd A s0 { s with clh := x0, pwr := x1 } :=
  { h with clh := .inl a0, pwr := .inl a1, keeps := fun i => { h.keeps i with flashQ := k0 i (h.keeps i), lossArea := k1 i (h.keeps i) } }
theorem Upd.to_hls_izg (x0 : List (Nat × Hl)) (x1 : Izg) (h : Upd A s0 s) (a0 : A .hls = true) (a1 : A .izg = true) (k0 : s0.Inv → s.Inv → tasc x0 = true) (k1 : s0.Inv → s.Inv → x1.mg.length ≤ 64 ∧ x1.summary.length ≤ 16384) :
    Upd A s0 { s with hls := x0, izg := x1 } :=
  { h with hls := .inl a0, izg := .inl a1, keeps := fun i => { h.keeps i with hls := k0 i (h.keeps i), mg := (k1 i (h.keeps i)).1, summary := (k1 i (h.keeps i)).2 } }

theorem Upd.to_keyCache_rankCache_flushes_tags (x0 : List (Nat × Nat × KeyEntry)) (x1 : List (Nat × Nat × RankEntry)) (x2 : List Flush) (x3 : List Tag) (h : Upd A s0 s) (a0 : A .keyCache = true) (a1 : A .rankCache = true) (a2 : A .flushes = true) (a3 : A .tags = true) (k0 : s0.Inv → s.Inv → x0.length ≤ 262144) (k1 : s0.Inv → s.Inv → x1.length ≤ 65536) :
    Upd A s0 { s with keyCache := x0, rankCache := x1, flushes := x2, tags := x3 } :=
  { h with keyCache := .inl a0, rankCache := .inl a1, flushes := .inl a2, tags := .inl a3, keeps := fun i => { h.keeps i with keyCache := k0 i (h.keeps i), rankCache := k1 i (h.keeps i) } }
theorem Upd.to_regs_clhIn_boot (x0 : List (Nat × BitVec 64)) (x1 : List Record) (x2 : Boot) (h : Upd A s0 s) (a0 : A .regs = true) (a1 : A .clhIn = true) (a2 : A .boot = true) (k0 : s0.Inv → s.Inv → tasc x0 = true) :
    Upd A s0 { s with regs := x0, clhIn := x1, boot := x2 } :=
  { h with regs := .inl a0, clhIn := .inl a1, boot := .inl a2, keeps := fun i => { h.keeps i with regs := k0 i (h.keeps i) } }

theorem Upd.to_boot_izg (x0 : Boot) (x1 : Izg) (h : Upd A s0 s) (a0 : A .boot = true) (a1 : A .izg = true) (k1 : s0.Inv → s.Inv → x1.mg.length ≤ 64 ∧ x1.summary.length ≤ 16384) :
    Upd A s0 { s with boot := x0, izg := x1 } :=
  { h with boot := .inl a0, izg := .inl a1, keeps := fun i => { h.keeps i with mg := (k1 i (h.keeps i)).1, summary := (k1 i (h.keeps i)).2 } }
theorem Upd.to_flushes_tags (x0 : List Flush) (x1 : List Tag) (h : Upd A s0 s) (a0 : A .flushes = true) (a1 : A .tags = true) :
    Upd A s0 { s with flushes := x0, tags := x1 } :=
  { h with flushes := .inl a0, tags := .inl a1, keeps := fun i => { h.keeps i with  } }
theorem Upd.to_rankCache_aptWaits (x0 : List (Nat × Nat × RankEntry)) (x1 : List AptWait) (h : Upd A s0 s) (a0 : A .rankCache = true) (a1 : A .aptWaits = true) (k0 : s0.Inv → s.Inv → x0.length ≤ 65536) :
    Upd A s0 { s with rankCache := x0, aptWaits := x1 } :=
  { h with rankCache := .inl a0, aptWaits := .inl a1, keeps := fun i => { h.keeps i with rankCache := k0 i (h.keeps i) } }
theorem Upd.to_regs_pwr (x0 : List (Nat × BitVec 64)) (x1 : Pwr) (h : Upd A s0 s) (a0 : A .regs = true) (a1 : A .pwr = true) (k0 : s0.Inv → s.Inv → tasc x0 = true) (k1 : s0.Inv → s.Inv → x1.lossArea.length ≤ 64) :
    Upd A s0 { s with regs := x0, pwr := x1 } :=
  { h with regs := .inl a0, pwr := .inl a1, keeps := fun i => { h.keeps i with regs := k0 i (h.keeps i), lossArea := k1 i (h.keeps i) } }

/-- Either branch of a choice. -/
theorem Upd.ite {c : Prop} {i : Decidable c} {x y : State} (a : c → Upd A s0 x) (b : ¬ c → Upd A s0 y) :
    Upd A s0 (if c then x else y) := by
  split
  · exact a ‹_›
  · exact b ‹_›

/-- A state that an operation may not have given. -/
theorem Upd.getD {o : Option State} {d : State} (k : ∀ t, o = some t → Upd A s0 t) (h : Upd A s0 d) : Upd A s0 (o.getD d) := by
  cases o with
  | none => exact h
  | some t => exact k t rfl

theorem Upd.ofMapSnd {α β : Type} {o : Option α} {f : α → β × State} {y : β} {t : State} (e : o.map f = some (y, t))
    (k : ∀ a, o = some a → Upd A s0 (f a).2) : Upd A s0 t := by
  cases o with
  | none => cases e
  | some a => have d := k a rfl; rw [show f a = (y, t) from Option.some.inj e] at d; exact d

theorem Upd.ofMap {α : Type} {o : Option α} {f : α → State} {t : State} (e : o.map f = some t) (k : ∀ a, Upd A s0 (f a)) : Upd A s0 t := by
  cases o with
  | none => cases e
  | some a => cases e; exact k a

/-- The state component of a result that has been named. -/
theorem Upd.ofSnd {α : Type} {p : α × State} {y : α} {t : State} (e : p = (y, t)) (h : Upd A s0 p.2) : Upd A s0 t := by
  rw [e] at h; exact h

theorem Upd.ofFst {α : Type} {p : State × α} {y : α} {t : State} (e : p = (t, y)) (h : Upd A s0 p.1) : Upd A s0 t := by
  rw [e] at h; exact h

theorem Upd.ofSnd2 {α β : Type} {p : α × β × State} {y : α} {z : β} {t : State} (e : p = (y, z, t)) (h : Upd A s0 p.2.2) :
    Upd A s0 t := by
  rw [e] at h; exact h

theorem Upd.ofSnd3 {α β γ : Type} {p : α × β × γ × State} {y : α} {z : β} {w : γ} {t : State} (e : p = (y, z, w, t))
    (h : Upd A s0 p.2.2.2) : Upd A s0 t := by
  rw [e] at h; exact h

theorem Upd.ofMid {α β : Type} {p : α × State × β} {y : α} {z : β} {t : State} (e : p = (y, t, z)) (h : Upd A s0 p.2.1) :
    Upd A s0 t := by
  rw [e] at h; exact h

/-- A fold that carries two other values beside the state. -/
theorem Upd.foldSnd2 {α β γ : Type} {l : List α} {f : β × γ × State → α → β × γ × State} {b : β} {c : γ} (h : Upd A s0 s)
    (k : ∀ b c t x, Upd A s0 t → Upd A s0 (f (b, c, t) x).2.2) : Upd A s0 (l.foldl f (b, c, s)).2.2 := by
  induction l generalizing s b c with
  | nil => exact h
  | cons x l ih => exact ih (s := (f (b, c, s) x).2.2) (b := (f (b, c, s) x).1) (c := (f (b, c, s) x).2.1) (k b c s x h)

/-- A fold that carries a state between two other values. -/
theorem Upd.foldMid {α β γ : Type} {l : List α} {f : β × State × γ → α → β × State × γ} {b : β} {c : γ} (h : Upd A s0 s)
    (k : ∀ b t c x, Upd A s0 t → Upd A s0 (f (b, t, c) x).2.1) : Upd A s0 (l.foldl f (b, s, c)).2.1 := by
  induction l generalizing s b c with
  | nil => exact h
  | cons x l ih => exact ih (s := (f (b, s, c) x).2.1) (b := (f (b, s, c) x).1) (c := (f (b, s, c) x).2.2) (k b s c x h)

/-- A fold that carries a state and something more. -/
theorem Upd.foldFst {α β : Type} {l : List α} {f : State × β → α → State × β} {b : β} (h : Upd A s0 s)
    (k : ∀ c t x, Upd A s0 t → Upd A s0 (f (t, c) x).1) : Upd A s0 (l.foldl f (s, b)).1 := by
  induction l generalizing s b with
  | nil => exact h
  | cons x l ih => exact ih (s := (f (s, b) x).1) (b := (f (s, b) x).2) (k b s x h)

/-- The right-hand sides of `Upd` follow a fold. -/
theorem Upd.fold {α : Type} {l : List α} {f : State → α → State} (h : Upd A s0 s) (k : ∀ t x, Upd A s0 t → Upd A s0 (f t x)) :
    Upd A s0 (l.foldl f s) := by
  induction l generalizing s with
  | nil => exact h
  | cons x l ih => exact ih (k s x h)

/-- A fold that carries another value beside the state. -/
theorem Upd.foldSnd {α β : Type} {l : List α} {f : β × State → α → β × State} {b : β} (h : Upd A s0 s)
    (k : ∀ c t x, Upd A s0 t → Upd A s0 (f (c, t) x).2) : Upd A s0 (l.foldl f (b, s)).2 := by
  induction l generalizing s b with
  | nil => exact h
  | cons x l ih => exact ih (s := (f (b, s) x).2) (b := (f (b, s) x).1) (k b s x h)

end

end Sys2Proof.Machine
end

