-- ==== Sys2Proof/Laws/FrameOps.lean ====
section
/-!
SUPPORT. Laws/FrameOps.lean: which parts of State each operation of Machine/Ops.lean may change, and that it keeps the invariant.
-/
namespace Sys2Proof.Machine
set_option linter.unusedTactic false
set_option linter.unreachableTactic false
set_option linter.unusedVariables false

theorem State.setWord_upd {A : Fld → Bool} {s0 s : State} (x1 : RF) (x2 : Word) (h : Upd A s0 s) (a_regs : A .regs = true) : Upd A s0 (State.setWord s x1 x2) := by
  exact Upd.to_regs _ h a_regs fun _ i => by
    split
    · exact tasc_tdel _ i.regs
    · exact tasc_tput _ _ i.regs

theorem State.set_upd {A : Fld → Bool} {s0 s : State} (x1 : RF) (x2 : ℕ) (h : Upd A s0 s) (a_regs : A .regs = true) : Upd A s0 (State.set s x1 x2) := by
  unfold State.set
  repeat' first
    | with_reducible assumption
    | lift_lets
    | with_reducible apply State.setWord_upd

theorem State.setB_upd {A : Fld → Bool} {s0 s : State} (x1 : RF) (x2 : Bool) (h : Upd A s0 s) (a_regs : A .regs = true) : Upd A s0 (State.setB s x1 x2) := by
  unfold State.setB
  repeat' first
    | with_reducible assumption
    | lift_lets
    | with_reducible apply State.set_upd

theorem State.modPort_upd {A : Fld → Bool} {s0 s : State} (x1 : ℕ) (x2 : (Port → Port)) (h : Upd A s0 s) (a_ports : A .ports = true) : Upd A s0 (State.modPort s x1 x2) := by
  unfold State.modPort
  repeat' first
    | with_reducible assumption
    | lift_lets
    | refine Upd.to_ports _ ?_ (by assumption) (fun _ i => tasc_tput _ _ i.ports)

theorem State.modHl_upd {A : Fld → Bool} {s0 s : State} (x1 : ℕ) (x2 : (Hl → Hl)) (h : Upd A s0 s) (a_hls : A .hls = true) : Upd A s0 (State.modHl s x1 x2) := by
  unfold State.modHl
  repeat' first
    | with_reducible assumption
    | lift_lets
    | refine Upd.to_hls _ ?_ (by assumption) (fun _ i => tasc_tput _ _ i.hls)

theorem State.modFn_upd {A : Fld → Bool} {s0 s : State} (x1 : ℕ) (x2 : ℕ) (x3 : (Fn → Fn)) (h : Upd A s0 s) (a_fns : A .fns = true) : Upd A s0 (State.modFn s x1 x2 x3) := by
  unfold State.modFn
  repeat' first
    | with_reducible assumption
    | lift_lets
    | refine Upd.to_fns _ ?_ (by assumption) (fun _ i => tasc_tput _ _ i.fns)

theorem State.modAcct_upd {A : Fld → Bool} {s0 s : State} (x1 : ℕ) (x2 : (Acct → Acct)) (h : Upd A s0 s) (a_accts : A .accts = true) : Upd A s0 (State.modAcct s x1 x2) := by
  unfold State.modAcct
  repeat' first
    | with_reducible assumption
    | lift_lets
    | refine Upd.to_accts _ ?_ (by assumption) (fun _ i => tasc_tput _ _ i.accts)

theorem State.modCtx_upd {A : Fld → Bool} {s0 s : State} (x1 : ℕ) (x2 : (CtxRt → CtxRt)) (h : Upd A s0 s) (a_ctxs : A .ctxs = true) : Upd A s0 (State.modCtx s x1 x2) := by
  unfold State.modCtx
  repeat' first
    | with_reducible assumption
    | lift_lets
    | refine Upd.to_ctxs _ ?_ (by assumption) (fun _ i => tasc_tput _ _ i.ctxs)

theorem State.modTree_upd {A : Fld → Bool} {s0 s : State} (x1 : ℕ) (x2 : (TreeRt → TreeRt)) (h : Upd A s0 s) (a_trees : A .trees = true) : Upd A s0 (State.modTree s x1 x2) := by
  unfold State.modTree
  repeat' first
    | with_reducible assumption
    | lift_lets
    | refine Upd.to_trees _ ?_ (by assumption) (fun _ i => tasc_tput _ _ i.trees)

theorem State.modMov_upd {A : Fld → Bool} {s0 s : State} (x1 : ℕ) (x2 : (MovCh → MovCh)) (h : Upd A s0 s) (a_movs : A .movs = true) : Upd A s0 (State.modMov s x1 x2) := by
  unfold State.modMov
  repeat' first
    | with_reducible assumption
    | lift_lets
    | refine Upd.to_movs _ ?_ (by assumption) (fun _ i => tasc_tput _ _ i.movs)

theorem State.free_upd {A : Fld → Bool} {s0 s : State} (x1 : ℕ) (h : Upd A s0 s) (a_freeCtr : A .freeCtr = true) : Upd A s0 (State.free s x1).2 := by
  unfold State.free
  repeat' first
    | with_reducible assumption
    | lift_lets
    | exact { h with freeCtr := .inl a_freeCtr, keeps := fun i => { h.keeps i with } }

theorem State.pcsNow_upd {A : Fld → Bool} {s0 s : State} (h : Upd A s0 s) (a_hmk : A .hmk = true) (a_freeCtr : A .freeCtr = true) : Upd A s0 (State.pcsNow s).2 := by
  unfold State.pcsNow
  repeat' first
    | with_reducible assumption
    | (intro x1; clear_value x1)
    | intro x1
    | lift_lets
    | with_reducible apply State.free_upd
    | with_reducible refine Upd.ofSnd (by assumption) ?_
    | split
    | dsimp only
    | with_reducible apply Upd.to_hmk

theorem State.newId_upd {A : Fld → Bool} {s0 s : State} (h : Upd A s0 s) (a_nextId : A .nextId = true) : Upd A s0 (State.newId s).2 := by
  unfold State.newId
  repeat' first
    | with_reducible assumption
    | lift_lets
    | exact { h with nextId := .inl a_nextId, keeps := fun i => { h.keeps i with } }

theorem State.emit_upd {A : Fld → Bool} {s0 s : State} (x1 : Emit) (h : Upd A s0 s) (a_out : A .out = true) : Upd A s0 (State.emit s x1) := by
  unfold State.emit
  repeat' first
    | with_reducible assumption
    | lift_lets
    | exact { h with out := .inl a_out, keeps := fun i => { h.keeps i with } }

theorem State.msix_upd {A : Fld → Bool} {s0 s : State} (x1 : ℕ) (x2 : ℕ) (x3 : ℕ) (h : Upd A s0 s) (a_fns : A .fns = true) (a_out : A .out = true) : Upd A s0 (State.msix s x1 x2 x3) := by
  unfold State.msix
  repeat' first
    | with_reducible assumption
    | intro x1
    | lift_lets
    | with_reducible apply State.modFn_upd
    | with_reducible apply State.emit_upd
    | split
    | dsimp only

theorem State.msixFlush_upd {A : Fld → Bool} {s0 s : State} (x1 : ℕ) (x2 : ℕ) (h : Upd A s0 s) (a_fns : A .fns = true) (a_out : A .out = true) : Upd A s0 (State.msixFlush s x1 x2) := by
  unfold State.msixFlush
  repeat' first
    | with_reducible assumption
    | (intro s1; refine (fun (hs1 : Upd A s0 s1) => ?_) ?_; clear_value s1; rotate_left; subst s1; rotate_left)
    | intro x1
    | lift_lets
    | with_reducible apply State.modFn_upd
    | with_reducible apply State.emit_upd
    | with_reducible apply Upd.fold

theorem State.intxOne_upd {A : Fld → Bool} {s0 s : State} (x1 : ℕ) (h : Upd A s0 s) (a_hls : A .hls = true) (a_out : A .out = true) : Upd A s0 (State.intxOne s x1) := by
  unfold State.intxOne
  repeat' first
    | with_reducible assumption
    | intro x1
    | (intro x1; clear_value x1)
    | lift_lets
    | with_reducible apply State.modHl_upd
    | with_reducible apply State.emit_upd
    | split
    | dsimp only

theorem State.intxAll_upd {A : Fld → Bool} {s0 s : State} (h : Upd A s0 s) (a_hls : A .hls = true) (a_out : A .out = true) : Upd A s0 (State.intxAll s) := by
  unfold State.intxAll
  repeat' first
    | with_reducible assumption
    | intro x1
    | lift_lets
    | with_reducible apply State.intxOne_upd
    | with_reducible apply Upd.fold

theorem State.pf0Signal_upd {A : Fld → Bool} {s0 s : State} (x1 : ℕ) (h : Upd A s0 s) (a_hls : A .hls = true) (a_fns : A .fns = true) (a_out : A .out = true) : Upd A s0 (State.pf0Signal s x1) := by
  unfold State.pf0Signal
  repeat' first
    | with_reducible assumption
    | (intro s1; refine (fun (hs1 : Upd A s0 s1) => ?_) ?_; clear_value s1; rotate_left; subst s1; rotate_left)
    | intro x1
    | lift_lets
    | with_reducible apply State.msix_upd
    | with_reducible apply State.intxAll_upd
    | with_reducible apply Upd.fold
    | split
    | dsimp only

theorem State.event_upd {A : Fld → Bool} {s0 s : State} (x1 : RF) (x2 : ℕ) (h : Upd A s0 s) (a_regs : A .regs = true) (a_hls : A .hls = true) (a_fns : A .fns = true) (a_out : A .out = true) : Upd A s0 (State.event s x1 x2) := by
  unfold State.event
  repeat' first
    | with_reducible assumption
    | lift_lets
    | with_reducible apply State.pf0Signal_upd
    | with_reducible apply State.set_upd

theorem State.tallyAdd_upd {A : Fld → Bool} {s0 s : State} (x1 : ℕ) (x2 : ℕ) (h : Upd A s0 s) (a_regs : A .regs = true) (a_hls : A .hls = true) (a_fns : A .fns = true) (a_out : A .out = true) : Upd A s0 (State.tallyAdd s x1 x2) := by
  unfold State.tallyAdd
  repeat' first
    | with_reducible assumption
    | (intro s1; refine (fun (hs1 : Upd A s0 s1) => ?_) ?_; clear_value s1; rotate_left; subst s1; rotate_left)
    | (intro x1; clear_value x1)
    | lift_lets
    | with_reducible apply State.pf0Signal_upd
    | with_reducible apply State.set_upd
    | split

theorem State.tallyHit_upd {A : Fld → Bool} {s0 s : State} (x1 : ℕ) (x2 : ℕ) (x3 : ℕ) (h : Upd A s0 s) (a_regs : A .regs = true) (a_hls : A .hls = true) (a_fns : A .fns = true) (a_out : A .out = true) : Upd A s0 (State.tallyHit s x1 x2 x3) := by
  unfold State.tallyHit
  repeat' first
    | with_reducible assumption
    | intro x1
    | lift_lets
    | with_reducible apply State.tallyAdd_upd
    | with_reducible apply Upd.fold
    | split

theorem State.bumpN_upd {A : Fld → Bool} {s0 s : State} (x1 : Cnt) (x2 : ℕ) (h : Upd A s0 s) (a_regs : A .regs = true) (a_hls : A .hls = true) (a_fns : A .fns = true) (a_out : A .out = true) : Upd A s0 (State.bumpN s x1 x2) := by
  unfold State.bumpN
  repeat' first
    | with_reducible assumption
    | lift_lets
    | with_reducible apply State.set_upd
    | with_reducible apply State.tallyHit_upd
    | split

theorem State.bump_upd {A : Fld → Bool} {s0 s : State} (x1 : Cnt) (h : Upd A s0 s) (a_regs : A .regs = true) (a_hls : A .hls = true) (a_fns : A .fns = true) (a_out : A .out = true) : Upd A s0 (State.bump s x1) := by
  unfold State.bump
  repeat' first
    | with_reducible assumption
    | lift_lets
    | with_reducible apply State.bumpN_upd

theorem State.raise_upd {A : Fld → Bool} {s0 s : State} (x1 : ℕ) (x2 : ℕ) (x3 : ℕ) (x4 : ℕ) (h : Upd A s0 s) (a_clhIn : A .clhIn = true) : Upd A s0 (State.raise s x1 x2 x3 x4) := by
  unfold State.raise
  repeat' first
    | with_reducible assumption
    | intro x1
    | lift_lets
    | exact { h with clhIn := .inl a_clhIn, keeps := fun i => { h.keeps i with } }
    | split
    | dsimp only
    | with_reducible apply Upd.to_clhIn

end Sys2Proof.Machine
end

