-- ==== Sys2Proof/Laws/FramePcs.lean ====
section
/-!
SUPPORT. Laws/FramePcs.lean: which parts of State each operation of Machine/Pcs.lean may change, and that it keeps the invariant.
-/
namespace Sys2Proof.Machine
set_option linter.unusedTactic false
set_option linter.unreachableTactic false
set_option linter.unusedVariables false

theorem State.pcsSend_upd {A : Fld → Bool} {s0 s : State} (x1 : ℕ) (x2 : ℕ) (x3 : List Byte) (h : Upd A s0 s) (a_ports : A .ports = true) (a_freeCtr : A .freeCtr = true) (a_out : A .out = true) : Upd A s0 (State.pcsSend s x1 x2 x3) := by
  unfold State.pcsSend
  repeat' first
    | with_reducible assumption
    | (intro s1; refine (fun (hs1 : Upd A s0 s1) => ?_) ?_; clear_value s1; rotate_left; subst s1; rotate_left)
    | (intro x1; clear_value x1)
    | intro x1
    | lift_lets
    | with_reducible apply State.emit_upd
    | with_reducible apply State.free_upd
    | with_reducible apply State.modPort_upd
    | with_reducible refine Upd.ofSnd (by assumption) ?_
    | with_reducible apply Upd.fold
    | split
    | dsimp only

theorem State.markSlot_upd {A : Fld → Bool} {s0 s : State} (x1 : ℕ) (h : Upd A s0 s) (a_ports : A .ports = true) (a_out : A .out = true) : Upd A s0 (State.markSlot s x1) := by
  unfold State.markSlot
  repeat' first
    | with_reducible assumption
    | (intro s1; refine (fun (hs1 : Upd A s0 s1) => ?_) ?_; clear_value s1; rotate_left; subst s1; rotate_left)
    | (intro x1; clear_value x1)
    | intro x1
    | lift_lets
    | with_reducible apply State.emit_upd
    | with_reducible apply State.modPort_upd
    | with_reducible apply Upd.fold
    | split
    | dsimp only

theorem State.pcsTake_upd {A : Fld → Bool} {s0 s : State} (x1 : ℕ) (x2 : RxErrors) (h : Upd A s0 s) (a_ports : A .ports = true) : Upd A s0 (State.pcsTake s x1 x2).2.2 := by
  unfold State.pcsTake
  repeat' first
    | with_reducible assumption
    | (intro x1; clear_value x1)
    | intro x1
    | lift_lets
    | with_reducible apply State.modPort_upd
    | split
    | dsimp only

theorem State.pcsTakeCell_upd {A : Fld → Bool} {s0 s : State} (x1 : ℕ) (x2 : CwErrs) (h : Upd A s0 s) (a_ports : A .ports = true) : Upd A s0 (State.pcsTakeCell s x1 x2).2.2 := by
  unfold State.pcsTakeCell
  repeat' first
    | with_reducible assumption
    | (intro x1; clear_value x1)
    | intro x1
    | lift_lets
    | with_reducible apply State.modPort_upd
    | split
    | dsimp only

end Sys2Proof.Machine
end

