-- ==== Sys2Proof/Laws/FrameRoute.lean ====
section
/-!
SUPPORT. Laws/FrameRoute.lean: which parts of State each operation of Machine/Route.lean may change, and that it keeps the invariant.
-/
namespace Sys2Proof.Machine
set_option linter.unusedTactic false
set_option linter.unreachableTactic false
set_option linter.unusedVariables false

theorem State.rotated_upd {A : Fld → Bool} {s0 s : State} (x1 : ℕ) (x2 : List ℕ) (x3 : ℕ) (h : Upd A s0 s) (a_rotate : A .rotate = true) : Upd A s0 (State.rotated s x1 x2 x3) := by
  unfold State.rotated
  repeat' first
    | with_reducible assumption
    | intro x1
    | lift_lets
    | with_reducible apply Upd.fold
    | split
    | dsimp only
    | with_reducible apply Upd.to_rotate

end Sys2Proof.Machine
end

