-- ==== Sys2Proof/Laws/FrameSwitch.lean ====
section
/-!
SUPPORT. Laws/FrameSwitch.lean: which parts of State each operation of Machine/Switch.lean may change, and that it keeps the invariant.
-/
namespace Sys2Proof.Machine
set_option linter.unusedTactic false
set_option linter.unreachableTactic false
set_option linter.unusedVariables false

theorem State.limited_upd {A : Fld → Bool} {s0 s : State} (x1 : ℕ) (x2 : ℕ) (h : Upd A s0 s) (a_clh : A .clh = true) : Upd A s0 (State.limited s x1 x2).2 := by
  unfold State.limited
  repeat' first
    | with_reducible assumption
    | (intro x1; have x2 : Clh := x1; clear x2; subst x1)
    | (intro x1; have x2 : Pwr := x1; clear x2; subst x1)
    | (intro x1; have x2 : Izg := x1; clear x2; subst x1)
    | lift_lets
    | split
    | refine Upd.to_clh _ ?_ (by assumption) (fun _ i => i.flashQ)

theorem State.raiseLimited_upd {A : Fld → Bool} {s0 s : State} (x1 : ℕ) (x2 : ℕ) (x3 : ℕ) (x4 : ℕ) (x5 : ℕ) (h : Upd A s0 s) (a_clhIn : A .clhIn = true) (a_clh : A .clh = true) : Upd A s0 (State.raiseLimited s x1 x2 x3 x4 x5) := by
  unfold State.raiseLimited
  repeat' first
    | with_reducible assumption
    | lift_lets
    | with_reducible apply State.limited_upd
    | with_reducible apply State.raise_upd
    | with_reducible refine Upd.ofSnd (by assumption) ?_
    | split

theorem State.leaveVault_upd {A : Fld → Bool} {s0 s : State} (x1 : ℕ) (x2 : ℕ) (x3 : ℕ) (x4 : Bool) (h : Upd A s0 s) (a_regs : A .regs = true) (a_ports : A .ports = true) : Upd A s0 (State.leaveVault s x1 x2 x3 x4) := by
  unfold State.leaveVault
  repeat' first
    | with_reducible assumption
    | intro x1
    | (intro x1; clear_value x1)
    | lift_lets
    | with_reducible apply State.modPort_upd
    | with_reducible apply State.set_upd
    | split
    | dsimp only

theorem State.modVault_upd {A : Fld → Bool} {s0 s : State} (x1 : ℕ) (x2 : ℕ) (x3 : (VaultPkt → VaultPkt)) (h : Upd A s0 s) (a_ports : A .ports = true) : Upd A s0 (State.modVault s x1 x2 x3) := by
  unfold State.modVault
  repeat' first
    | with_reducible assumption
    | lift_lets
    | with_reducible apply State.modPort_upd

theorem State.delVault_upd {A : Fld → Bool} {s0 s : State} (x1 : ℕ) (x2 : ℕ) (h : Upd A s0 s) (a_ports : A .ports = true) : Upd A s0 (State.delVault s x1 x2) := by
  unfold State.delVault
  repeat' first
    | with_reducible assumption
    | lift_lets
    | with_reducible apply State.modPort_upd

theorem State.qUpd_upd {A : Fld → Bool} {s0 s : State} (x1 : ℕ) (h : Upd A s0 s) (a_regs : A .regs = true) : Upd A s0 (State.qUpd s x1) := by
  unfold State.qUpd
  repeat' first
    | with_reducible assumption
    | (intro s1; refine (fun (hs1 : Upd A s0 s1) => ?_) ?_; clear_value s1; rotate_left; subst s1; rotate_left)
    | lift_lets
    | with_reducible apply State.set_upd

theorem State.enqueue_upd {A : Fld → Bool} {s0 s : State} (x1 : ℕ) (x2 : TxPkt) (h : Upd A s0 s) (a_regs : A .regs = true) (a_ports : A .ports = true) : Upd A s0 (State.enqueue s x1 x2) := by
  unfold State.enqueue
  repeat' first
    | with_reducible assumption
    | lift_lets
    | with_reducible apply State.modPort_upd
    | with_reducible apply State.qUpd_upd

theorem State.qsDeliver_upd {A : Fld → Bool} {s0 s : State} (x1 : QsMsg) (x2 : ℕ) (h : Upd A s0 s) (a_regs : A .regs = true) (a_hls : A .hls = true) (a_fns : A .fns = true) (a_qsHere : A .qsHere = true) (a_out : A .out = true) : Upd A s0 (State.qsDeliver s x1 x2) := by
  unfold State.qsDeliver
  repeat' first
    | with_reducible assumption
    | intro x1
    | (intro s1; refine (fun (hs1 : Upd A s0 s1) => ?_) ?_; clear_value s1; rotate_left; subst s1; rotate_left)
    | lift_lets
    | with_reducible apply State.bump_upd
    | with_reducible apply Upd.to_qsHere
    | split
    | dsimp only

theorem State.injUpd_upd {A : Fld → Bool} {s0 s : State} (h : Upd A s0 s) (a_regs : A .regs = true) : Upd A s0 (State.injUpd s) := by
  unfold State.injUpd
  repeat' first
    | with_reducible assumption
    | lift_lets
    | with_reducible apply State.set_upd

theorem State.qsSend_upd {A : Fld → Bool} {s0 s : State} (x1 : ℕ) (x2 : ℕ) (x3 : ℕ) (x4 : ℕ) (h : Upd A s0 s) (a_regs : A .regs = true) (a_hls : A .hls = true) (a_fns : A .fns = true) (a_qsHere : A .qsHere = true) (a_qsInj : A .qsInj = true) (a_out : A .out = true) : Upd A s0 (State.qsSend s x1 x2 x3 x4) := by
  unfold State.qsSend
  repeat' first
    | with_reducible assumption
    | (intro x1; clear_value x1)
    | lift_lets
    | with_reducible apply State.qsDeliver_upd
    | with_reducible apply State.bump_upd
    | with_reducible apply State.injUpd_upd
    | split
    | refine Upd.to_qsInj _ ?_ (by assumption) (fun _ i => length_snoc (by assumption))

theorem State.chooseOut_upd {A : Fld → Bool} {s0 s : State} (x1 : Header) (x2 : Arrival) (x3 : ℕ) (h : Upd A s0 s) (a_regs : A .regs = true) (a_hls : A .hls = true) (a_fns : A .fns = true) (a_rotate : A .rotate = true) (a_out : A .out = true) : Upd A s0 (State.chooseOut s x1 x2 x3).2 := by
  unfold State.chooseOut
  repeat' first
    | with_reducible assumption
    | intro x1
    | (intro x1; clear_value x1)
    | lift_lets
    | with_reducible apply State.bump_upd
    | with_reducible apply State.rotated_upd
    | split
    | with_reducible apply Upd.to_rotate
    | dsimp only

theorem State.noPath_upd {A : Fld → Bool} {s0 s : State} (x1 : ℕ) (h : Upd A s0 s) (a_regs : A .regs = true) (a_hls : A .hls = true) (a_fns : A .fns = true) (a_clhIn : A .clhIn = true) (a_clh : A .clh = true) (a_out : A .out = true) : Upd A s0 (State.noPath s x1) := by
  unfold State.noPath
  repeat' first
    | with_reducible assumption
    | lift_lets
    | with_reducible apply State.bump_upd
    | with_reducible apply State.raiseLimited_upd

theorem State.drawVia_upd {A : Fld → Bool} {s0 s : State} (x1 : ℕ) (x2 : ℕ) (x3 : ℕ) (h : Upd A s0 s) (a_freeCtr : A .freeCtr = true) : Upd A s0 (State.drawVia s x1 x2 x3).2 := by
  induction x3 generalizing s with
  | zero =>
    unfold State.drawVia
    repeat' first
      | with_reducible assumption
      | lift_lets
      | with_reducible apply State.free_upd
      | with_reducible refine Upd.ofSnd (by assumption) ?_
      | split
      | dsimp only
  | succ x0 ih =>
    unfold State.drawVia
    repeat' first
      | with_reducible apply ih
      | with_reducible assumption
      | lift_lets
      | with_reducible apply State.free_upd
      | with_reducible refine Upd.ofSnd (by assumption) ?_
      | split
      | dsimp only

theorem State.injectRoute_upd {A : Fld → Bool} {s0 s : State} (x1 : Header) (x2 : ℕ) (h : Upd A s0 s) (a_regs : A .regs = true) (a_hls : A .hls = true) (a_fns : A .fns = true) (a_rotate : A .rotate = true) (a_freeCtr : A .freeCtr = true) (a_out : A .out = true) : Upd A s0 (State.injectRoute s x1 x2).2 := by
  unfold State.injectRoute
  repeat' first
    | with_reducible assumption
    | lift_lets
    | with_reducible apply State.chooseOut_upd
    | with_reducible apply State.drawVia_upd
    | with_reducible refine Upd.ofSnd (by assumption) ?_
    | split
    | dsimp only

theorem State.deliver_upd {A : Fld → Bool} {s0 s : State} (x1 : Packet) (h : Upd A s0 s) (a_tptIn : A .tptIn = true) (a_fifelIn : A .fifelIn = true) : Upd A s0 (State.deliver s x1) := by
  unfold State.deliver
  repeat' first
    | with_reducible assumption
    | intro x1
    | lift_lets
    | split
    | exact { h with tptIn := .inl a_tptIn, fifelIn := .inl a_fifelIn, keeps := fun i => { h.keeps i with } }
    | dsimp only
    | with_reducible apply Upd.to_fifelIn
    | with_reducible apply Upd.to_tptIn

theorem State.queuePacket_upd {A : Fld → Bool} {s0 s : State} (x1 : ℕ) (x2 : ℕ) (x3 : Header) (x4 : Packet) (x5 : Bool) (x6 : ℕ) (x7 : ℕ) (h : Upd A s0 s) (a_regs : A .regs = true) (a_ports : A .ports = true) (a_nextId : A .nextId = true) : Upd A s0 (State.queuePacket s x1 x2 x3 x4 x5 x6 x7) := by
  unfold State.queuePacket
  repeat' first
    | with_reducible assumption
    | lift_lets
    | with_reducible apply State.enqueue_upd
    | with_reducible apply State.newId_upd
    | with_reducible refine Upd.ofSnd (by assumption) ?_

theorem State.injectCore_upd {A : Fld → Bool} {s0 s : State} (x1 : Packet) (h : Upd A s0 s) (a_regs : A .regs = true) (a_ports : A .ports = true) (a_hls : A .hls = true) (a_fns : A .fns = true) (a_clhIn : A .clhIn = true) (a_tptIn : A .tptIn = true) (a_mcIn : A .mcIn = true) (a_fifelIn : A .fifelIn = true) (a_clh : A .clh = true) (a_rotate : A .rotate = true) (a_freeCtr : A .freeCtr = true) (a_nextId : A .nextId = true) (a_out : A .out = true) : Upd A s0 (State.injectCore s x1).2.1 := by
  unfold State.injectCore
  repeat' first
    | with_reducible assumption
    | intro x1
    | (intro x1; clear_value x1)
    | lift_lets
    | with_reducible apply State.injectRoute_upd
    | with_reducible apply State.noPath_upd
    | with_reducible apply State.queuePacket_upd
    | with_reducible apply State.deliver_upd
    | with_reducible refine Upd.ofSnd (by assumption) ?_
    | split
    | with_reducible apply Upd.getD
    | dsimp only
    | with_reducible apply Upd.to_mcIn

theorem State.flushBatch_upd {A : Fld → Bool} {s0 s : State} (h : Upd A s0 s) (a_regs : A .regs = true) (a_ports : A .ports = true) (a_hls : A .hls = true) (a_fns : A .fns = true) (a_clhIn : A .clhIn = true) (a_tptIn : A .tptIn = true) (a_mcIn : A .mcIn = true) (a_fifelIn : A .fifelIn = true) (a_samples : A .samples = true) (a_sampleLost : A .sampleLost = true) (a_clh : A .clh = true) (a_rotate : A .rotate = true) (a_freeCtr : A .freeCtr = true) (a_nextId : A .nextId = true) (a_out : A .out = true) : Upd A s0 (State.flushBatch s).1 := by
  unfold State.flushBatch
  repeat' first
    | with_reducible assumption
    | (intro x1; clear_value x1)
    | intro x1
    | lift_lets
    | with_reducible apply State.injectCore_upd
    | with_reducible refine Upd.ofMid (by assumption) ?_
    | split
    | dsimp only
    | with_reducible apply Upd.to_samples_sampleLost

theorem State.sampleTake_upd {A : Fld → Bool} {s0 s : State} (x1 : ℕ) (x2 : Bool) (x3 : ℕ) (x4 : ℕ) (x5 : Header) (h : Upd A s0 s) (a_regs : A .regs = true) (a_hls : A .hls = true) (a_fns : A .fns = true) (a_samples : A .samples = true) (a_sampleLost : A .sampleLost = true) (a_freeCtr : A .freeCtr = true) (a_out : A .out = true) : Upd A s0 (State.sampleTake s x1 x2 x3 x4 x5) := by
  unfold State.sampleTake
  repeat' first
    | with_reducible assumption
    | intro x1
    | lift_lets
    | with_reducible apply State.bump_upd
    | with_reducible apply State.free_upd
    | with_reducible refine Upd.ofSnd (by assumption) ?_
    | split
    | dsimp only
    | with_reducible apply Upd.to_sampleLost
    | with_reducible apply Upd.to_samples

theorem State.flushSamples_upd {A : Fld → Bool} {s0 s : State} (h : Upd A s0 s) (a_regs : A .regs = true) (a_ports : A .ports = true) (a_hls : A .hls = true) (a_fns : A .fns = true) (a_clhIn : A .clhIn = true) (a_tptIn : A .tptIn = true) (a_mcIn : A .mcIn = true) (a_fifelIn : A .fifelIn = true) (a_samples : A .samples = true) (a_sampleLost : A .sampleLost = true) (a_clh : A .clh = true) (a_rotate : A .rotate = true) (a_freeCtr : A .freeCtr = true) (a_nextId : A .nextId = true) (a_out : A .out = true) : Upd A s0 (State.flushSamples s) := by
  unfold State.flushSamples
  repeat' first
    | with_reducible assumption
    | intro x1
    | lift_lets
    | with_reducible apply State.flushBatch_upd
    | with_reducible apply State.sampleTake_upd
    | with_reducible refine Upd.ofFst (by assumption) ?_
    | split
    | exact { h with samples := .inl a_samples, sampleLost := .inl a_sampleLost, keeps := fun i => { h.keeps i with } }
    | dsimp only

theorem State.sampleHeader_upd {A : Fld → Bool} {s0 s : State} (x1 : ℕ) (x2 : Bool) (x3 : ℕ) (x4 : ℕ) (x5 : Header) (h : Upd A s0 s) (a_regs : A .regs = true) (a_ports : A .ports = true) (a_hls : A .hls = true) (a_fns : A .fns = true) (a_clhIn : A .clhIn = true) (a_tptIn : A .tptIn = true) (a_mcIn : A .mcIn = true) (a_fifelIn : A .fifelIn = true) (a_samples : A .samples = true) (a_sampleLost : A .sampleLost = true) (a_clh : A .clh = true) (a_rotate : A .rotate = true) (a_freeCtr : A .freeCtr = true) (a_nextId : A .nextId = true) (a_out : A .out = true) : Upd A s0 (State.sampleHeader s x1 x2 x3 x4 x5) := by
  unfold State.sampleHeader
  repeat' first
    | with_reducible assumption
    | intro x1
    | (intro s1; refine (fun (hs1 : Upd A s0 s1) => ?_) ?_; clear_value s1; rotate_left; subst s1; rotate_left)
    | lift_lets
    | with_reducible apply State.flushSamples_upd
    | with_reducible apply State.sampleTake_upd
    | with_reducible refine Upd.ofSnd (by assumption) ?_
    | split
    | with_reducible apply Upd.to_samples
    | dsimp only

theorem State.inject_upd {A : Fld → Bool} {s0 s : State} (x1 : Packet) (h : Upd A s0 s) (a_regs : A .regs = true) (a_ports : A .ports = true) (a_hls : A .hls = true) (a_fns : A .fns = true) (a_clhIn : A .clhIn = true) (a_tptIn : A .tptIn = true) (a_mcIn : A .mcIn = true) (a_fifelIn : A .fifelIn = true) (a_samples : A .samples = true) (a_sampleLost : A .sampleLost = true) (a_clh : A .clh = true) (a_rotate : A .rotate = true) (a_freeCtr : A .freeCtr = true) (a_nextId : A .nextId = true) (a_out : A .out = true) : Upd A s0 (State.inject s x1).2 := by
  unfold State.inject
  repeat' first
    | with_reducible assumption
    | lift_lets
    | with_reducible apply State.sampleHeader_upd
    | with_reducible apply State.injectCore_upd
    | with_reducible refine Upd.ofSnd (by assumption) ?_
    | with_reducible refine Upd.ofMid (by assumption) ?_
    | with_reducible apply Upd.getD
    | split

theorem State.injectDrop_upd {A : Fld → Bool} {s0 s : State} (x1 : Packet) (h : Upd A s0 s) (a_regs : A .regs = true) (a_ports : A .ports = true) (a_hls : A .hls = true) (a_fns : A .fns = true) (a_clhIn : A .clhIn = true) (a_tptIn : A .tptIn = true) (a_mcIn : A .mcIn = true) (a_fifelIn : A .fifelIn = true) (a_samples : A .samples = true) (a_sampleLost : A .sampleLost = true) (a_clh : A .clh = true) (a_rotate : A .rotate = true) (a_freeCtr : A .freeCtr = true) (a_nextId : A .nextId = true) (a_out : A .out = true) : Upd A s0 (State.injectDrop s x1) := by
  unfold State.injectDrop
  repeat' first
    | with_reducible assumption
    | lift_lets
    | with_reducible apply State.inject_upd
    | with_reducible refine Upd.ofSnd (by assumption) ?_

theorem State.sendOn_upd {A : Fld → Bool} {s0 s : State} (x1 : ℕ) (x2 : Packet) (h : Upd A s0 s) (a_regs : A .regs = true) (a_ports : A .ports = true) (a_hls : A .hls = true) (a_fns : A .fns = true) (a_clhIn : A .clhIn = true) (a_tptIn : A .tptIn = true) (a_mcIn : A .mcIn = true) (a_fifelIn : A .fifelIn = true) (a_samples : A .samples = true) (a_sampleLost : A .sampleLost = true) (a_clh : A .clh = true) (a_rotate : A .rotate = true) (a_freeCtr : A .freeCtr = true) (a_nextId : A .nextId = true) (a_out : A .out = true) : Upd A s0 (State.sendOn s x1 x2) := by
  unfold State.sendOn
  repeat' first
    | with_reducible assumption
    | intro x1
    | (intro x1; clear_value x1)
    | lift_lets
    | with_reducible apply State.queuePacket_upd
    | with_reducible apply State.sampleHeader_upd
    | with_reducible apply Upd.getD
    | split
    | dsimp only

theorem State.vaultStep_upd {A : Fld → Bool} {s0 s : State} (x1 : ℕ) (x2 : ℕ) (h : Upd A s0 s) (a_regs : A .regs = true) (a_ports : A .ports = true) (a_hls : A .hls = true) (a_fns : A .fns = true) (a_tptIn : A .tptIn = true) (a_relayIn : A .relayIn = true) (a_mgIn : A .mgIn = true) (a_mcIn : A .mcIn = true) (a_fifelIn : A .fifelIn = true) (a_out : A .out = true) : Upd A s0 (State.vaultStep s x1 x2) := by
  unfold State.vaultStep
  repeat' first
    | with_reducible assumption
    | intro x1
    | (intro x1; clear_value x1)
    | (intro s1; refine (fun (hs1 : Upd A s0 s1) => ?_) ?_; clear_value s1; rotate_left; subst s1; rotate_left)
    | (intro x1; have x2 := fun a => x1 a; clear x2; subst x1)
    | (intro x1; have x2 := Prod.snd x1; clear x2; subst x1)
    | lift_lets
    | with_reducible apply State.bump_upd
    | with_reducible apply State.qUpd_upd
    | with_reducible apply State.delVault_upd
    | with_reducible apply State.modVault_upd
    | with_reducible apply State.deliver_upd
    | with_reducible apply State.leaveVault_upd
    | split
    | with_reducible apply Upd.to_relayIn
    | with_reducible apply Upd.to_mgIn
    | with_reducible apply Upd.to_mcIn
    | dsimp only
    | dsimp +zetaDelta only

theorem State.routeTo_upd {A : Fld → Bool} {s0 s : State} (x1 : ℕ) (x2 : ℕ) (x3 : RouteTo) (h : Upd A s0 s) (a_regs : A .regs = true) (a_ports : A .ports = true) (a_hls : A .hls = true) (a_fns : A .fns = true) (a_tptIn : A .tptIn = true) (a_relayIn : A .relayIn = true) (a_mgIn : A .mgIn = true) (a_mcIn : A .mcIn = true) (a_fifelIn : A .fifelIn = true) (a_out : A .out = true) : Upd A s0 (State.routeTo s x1 x2 x3) := by
  unfold State.routeTo
  repeat' first
    | with_reducible assumption
    | (intro s1; refine (fun (hs1 : Upd A s0 s1) => ?_) ?_; clear_value s1; rotate_left; subst s1; rotate_left)
    | (intro x1; have x2 := fun a => x1 a; clear x2; subst x1)
    | (intro x1; have x2 := Prod.snd x1; clear x2; subst x1)
    | lift_lets
    | with_reducible apply State.vaultStep_upd
    | with_reducible apply State.modVault_upd

theorem State.sendVault_upd {A : Fld → Bool} {s0 s : State} (x1 : ℕ) (x2 : ℕ) (x3 : Header) (x4 : Arrival) (x5 : ℕ) (h : Upd A s0 s) (a_regs : A .regs = true) (a_ports : A .ports = true) (a_hls : A .hls = true) (a_fns : A .fns = true) (a_clhIn : A .clhIn = true) (a_tptIn : A .tptIn = true) (a_relayIn : A .relayIn = true) (a_mgIn : A .mgIn = true) (a_mcIn : A .mcIn = true) (a_fifelIn : A .fifelIn = true) (a_samples : A .samples = true) (a_sampleLost : A .sampleLost = true) (a_clh : A .clh = true) (a_rotate : A .rotate = true) (a_freeCtr : A .freeCtr = true) (a_nextId : A .nextId = true) (a_out : A .out = true) : Upd A s0 (State.sendVault s x1 x2 x3 x4 x5) := by
  unfold State.sendVault
  repeat' first
    | with_reducible assumption
    | (intro s1; refine (fun (hs1 : Upd A s0 s1) => ?_) ?_; clear_value s1; rotate_left; subst s1; rotate_left)
    | (intro x1; clear_value x1)
    | intro x1
    | lift_lets
    | with_reducible apply State.chooseOut_upd
    | with_reducible apply State.enqueue_upd
    | with_reducible apply State.modVault_upd
    | with_reducible apply State.noPath_upd
    | with_reducible apply State.routeTo_upd
    | with_reducible apply State.sampleHeader_upd
    | with_reducible refine Upd.ofSnd (by assumption) ?_
    | split
    | dsimp only

theorem State.reinject_upd {A : Fld → Bool} {s0 s : State} (x1 : ℕ) (x2 : ℕ) (x3 : ℕ) (x4 : Arrival) (x5 : List Flit) (h : Upd A s0 s) (a_regs : A .regs = true) (a_ports : A .ports = true) (a_hls : A .hls = true) (a_fns : A .fns = true) (a_clhIn : A .clhIn = true) (a_tptIn : A .tptIn = true) (a_relayIn : A .relayIn = true) (a_mgIn : A .mgIn = true) (a_mcIn : A .mcIn = true) (a_fifelIn : A .fifelIn = true) (a_samples : A .samples = true) (a_sampleLost : A .sampleLost = true) (a_clh : A .clh = true) (a_rotate : A .rotate = true) (a_freeCtr : A .freeCtr = true) (a_nextId : A .nextId = true) (a_out : A .out = true) : Upd A s0 (State.reinject s x1 x2 x3 x4 x5) := by
  unfold State.reinject
  repeat' first
    | with_reducible assumption
    | intro x1
    | (intro s1; refine (fun (hs1 : Upd A s0 s1) => ?_) ?_; clear_value s1; rotate_left; subst s1; rotate_left)
    | (intro x1; have x2 := fun a => x1 a; clear x2; subst x1)
    | (intro x1; have x2 := Prod.snd x1; clear x2; subst x1)
    | (intro x1; clear_value x1)
    | lift_lets
    | with_reducible apply State.enqueue_upd
    | with_reducible apply State.routeTo_upd
    | with_reducible apply State.chooseOut_upd
    | with_reducible apply State.noPath_upd
    | with_reducible apply State.sampleHeader_upd
    | with_reducible refine Upd.ofSnd (by assumption) ?_
    | split
    | with_reducible apply Upd.getD
    | dsimp only
    | dsimp +zetaDelta only

theorem State.handBack_upd {A : Fld → Bool} {s0 s : State} (x1 : ℕ) (h : Upd A s0 s) (a_regs : A .regs = true) (a_ports : A .ports = true) (a_hls : A .hls = true) (a_fns : A .fns = true) (a_clhIn : A .clhIn = true) (a_tptIn : A .tptIn = true) (a_relayIn : A .relayIn = true) (a_mgIn : A .mgIn = true) (a_mcIn : A .mcIn = true) (a_fifelIn : A .fifelIn = true) (a_samples : A .samples = true) (a_sampleLost : A .sampleLost = true) (a_clh : A .clh = true) (a_rotate : A .rotate = true) (a_freeCtr : A .freeCtr = true) (a_nextId : A .nextId = true) (a_out : A .out = true) : Upd A s0 (State.handBack s x1) := by
  unfold State.handBack
  repeat' first
    | with_reducible assumption
    | (intro s1; refine (fun (hs1 : Upd A s0 s1) => ?_) ?_; clear_value s1; rotate_left; subst s1; rotate_left)
    | (intro x1; clear_value x1)
    | intro x1
    | lift_lets
    | with_reducible apply State.modPort_upd
    | with_reducible apply State.bump_upd
    | with_reducible apply State.routeTo_upd
    | with_reducible apply State.qUpd_upd
    | with_reducible apply State.reinject_upd
    | with_reducible apply State.sendVault_upd
    | with_reducible apply State.set_upd
    | with_reducible refine Upd.ofSnd (by assumption) ?_
    | with_reducible apply Upd.fold
    | split
    | with_reducible apply Upd.getD
    | dsimp only

theorem State.closeRx_upd {A : Fld → Bool} {s0 s : State} (x1 : ℕ) (h : Upd A s0 s) (a_regs : A .regs = true) (a_ports : A .ports = true) (a_hls : A .hls = true) (a_fns : A .fns = true) (a_clhIn : A .clhIn = true) (a_tptIn : A .tptIn = true) (a_relayIn : A .relayIn = true) (a_mgIn : A .mgIn = true) (a_mcIn : A .mcIn = true) (a_fifelIn : A .fifelIn = true) (a_freeCtr : A .freeCtr = true) (a_out : A .out = true) : Upd A s0 (State.closeRx s x1) := by
  unfold State.closeRx
  repeat' first
    | with_reducible assumption
    | (intro s1; refine (fun (hs1 : Upd A s0 s1) => ?_) ?_; clear_value s1; rotate_left; subst s1; rotate_left)
    | (intro x1; have x2 := fun a => x1 a; clear x2; subst x1)
    | (intro x1; have x2 := Prod.snd x1; clear x2; subst x1)
    | intro x1
    | lift_lets
    | with_reducible apply State.modPort_upd
    | with_reducible apply State.set_upd
    | with_reducible apply State.free_upd
    | with_reducible apply State.vaultStep_upd
    | with_reducible apply State.modVault_upd
    | with_reducible apply State.raise_upd
    | with_reducible refine Upd.ofSnd (by assumption) ?_
    | with_reducible apply Upd.fold

end Sys2Proof.Machine
end

