-- ==== Sys2Proof/Laws/FramePortOps.lean ====
section
/-!
SUPPORT. Laws/FramePortOps.lean: which parts of State each operation of Machine/PortOps.lean may change, and that it keeps the invariant.
-/
namespace Sys2Proof.Machine
set_option linter.unusedTactic false
set_option linter.unreachableTactic false
set_option linter.unusedVariables false

theorem State.stateChange_upd {A : Fld → Bool} {s0 s : State} (x1 : ℕ) (x2 : ℕ) (x3 : ℕ) (x4 : ℕ) (h : Upd A s0 s) (a_clhIn : A .clhIn = true) : Upd A s0 (State.stateChange s x1 x2 x3 x4) := by
  unfold State.stateChange
  repeat' first
    | with_reducible assumption
    | lift_lets
    | with_reducible apply State.raise_upd

theorem State.enterSvc_upd {A : Fld → Bool} {s0 s : State} (x1 : ℕ) (h : Upd A s0 s) (a_regs : A .regs = true) (a_hls : A .hls = true) (a_fns : A .fns = true) (a_clhIn : A .clhIn = true) (a_out : A .out = true) : Upd A s0 (State.enterSvc s x1) := by
  unfold State.enterSvc
  repeat' first
    | with_reducible assumption
    | (intro s1; refine (fun (hs1 : Upd A s0 s1) => ?_) ?_; clear_value s1; rotate_left; subst s1; rotate_left)
    | (intro x1; clear_value x1)
    | intro x1
    | lift_lets
    | with_reducible apply State.event_upd
    | with_reducible apply State.set_upd
    | with_reducible apply State.stateChange_upd
    | split
    | dsimp only

theorem State.enterPwr_upd {A : Fld → Bool} {s0 s : State} (x1 : ℕ) (h : Upd A s0 s) (a_regs : A .regs = true) (a_hls : A .hls = true) (a_fns : A .fns = true) (a_clhIn : A .clhIn = true) (a_out : A .out = true) : Upd A s0 (State.enterPwr s x1) := by
  unfold State.enterPwr
  repeat' first
    | with_reducible assumption
    | intro x1
    | (intro x1; clear_value x1)
    | lift_lets
    | with_reducible apply State.stateChange_upd
    | with_reducible apply State.set_upd
    | with_reducible apply State.event_upd
    | split
    | dsimp only

theorem State.reachOn_upd {A : Fld → Bool} {s0 s : State} (h : Upd A s0 s) (a_regs : A .regs = true) : Upd A s0 (State.reachOn s) := by
  unfold State.reachOn
  repeat' first
    | with_reducible assumption
    | intro x1
    | lift_lets
    | with_reducible apply State.set_upd
    | with_reducible apply Upd.fold
    | split
    | dsimp only

theorem State.svcUpdate_upd {A : Fld → Bool} {s0 s : State} (h : Upd A s0 s) (a_regs : A .regs = true) (a_hls : A .hls = true) (a_fns : A .fns = true) (a_clhIn : A .clhIn = true) (a_out : A .out = true) : Upd A s0 (State.svcUpdate s) := by
  unfold State.svcUpdate
  repeat' first
    | with_reducible assumption
    | (intro s1; refine (fun (hs1 : Upd A s0 s1) => ?_) ?_; clear_value s1; rotate_left; subst s1; rotate_left)
    | (intro x1; clear_value x1)
    | lift_lets
    | with_reducible apply State.setB_upd
    | with_reducible apply State.enterSvc_upd
    | split

theorem State.joinUpdate_upd {A : Fld → Bool} {s0 s : State} (x1 : ℕ) (h : Upd A s0 s) (a_regs : A .regs = true) (a_ports : A .ports = true) (a_clhIn : A .clhIn = true) : Upd A s0 (State.joinUpdate s x1) := by
  unfold State.joinUpdate
  repeat' first
    | with_reducible assumption
    | (intro s1; refine (fun (hs1 : Upd A s0 s1) => ?_) ?_; clear_value s1; rotate_left; subst s1; rotate_left)
    | (intro x1; clear_value x1)
    | lift_lets
    | with_reducible apply State.modPort_upd
    | with_reducible apply State.setB_upd
    | with_reducible apply State.stateChange_upd
    | split

theorem State.joinAll_upd {A : Fld → Bool} {s0 s : State} (h : Upd A s0 s) (a_regs : A .regs = true) (a_ports : A .ports = true) (a_clhIn : A .clhIn = true) : Upd A s0 (State.joinAll s) := by
  unfold State.joinAll
  repeat' first
    | with_reducible assumption
    | intro x1
    | lift_lets
    | with_reducible apply State.joinUpdate_upd
    | with_reducible apply Upd.fold

theorem State.treesStalled_upd {A : Fld → Bool} {s0 s : State} (h : Upd A s0 s) (a_regs : A .regs = true) : Upd A s0 (State.treesStalled s) := by
  unfold State.treesStalled
  repeat' first
    | with_reducible assumption
    | intro x1
    | lift_lets
    | with_reducible apply State.setB_upd
    | with_reducible apply Upd.fold

theorem State.coordNote_upd {A : Fld → Bool} {s0 s : State} (x1 : ℕ) (h : Upd A s0 s) (a_ports : A .ports = true) : Upd A s0 (State.coordNote s x1) := by
  unfold State.coordNote
  repeat' first
    | with_reducible assumption
    | intro x1
    | lift_lets
    | with_reducible apply State.modPort_upd
    | split
    | dsimp only

theorem State.sendCoord_upd {A : Fld → Bool} {s0 s : State} (x1 : ℕ) (h : Upd A s0 s) (a_regs : A .regs = true) (a_ports : A .ports = true) (a_hls : A .hls = true) (a_fns : A .fns = true) (a_clhIn : A .clhIn = true) (a_tptIn : A .tptIn = true) (a_mcIn : A .mcIn = true) (a_fifelIn : A .fifelIn = true) (a_samples : A .samples = true) (a_sampleLost : A .sampleLost = true) (a_clh : A .clh = true) (a_rotate : A .rotate = true) (a_freeCtr : A .freeCtr = true) (a_nextId : A .nextId = true) (a_out : A .out = true) : Upd A s0 (State.sendCoord s x1) := by
  unfold State.sendCoord
  repeat' first
    | with_reducible assumption
    | intro x1
    | lift_lets
    | with_reducible apply State.sendOn_upd
    | with_reducible apply State.coordNote_upd
    | split
    | dsimp only

theorem State.coordSync_upd {A : Fld → Bool} {s0 s : State} (h : Upd A s0 s) (a_regs : A .regs = true) (a_ports : A .ports = true) (a_hls : A .hls = true) (a_fns : A .fns = true) (a_clhIn : A .clhIn = true) (a_tptIn : A .tptIn = true) (a_mcIn : A .mcIn = true) (a_fifelIn : A .fifelIn = true) (a_samples : A .samples = true) (a_sampleLost : A .sampleLost = true) (a_clh : A .clh = true) (a_rotate : A .rotate = true) (a_freeCtr : A .freeCtr = true) (a_nextId : A .nextId = true) (a_out : A .out = true) : Upd A s0 (State.coordSync s) := by
  unfold State.coordSync
  repeat' first
    | with_reducible assumption
    | intro x1
    | lift_lets
    | with_reducible apply State.coordNote_upd
    | with_reducible apply State.sendCoord_upd
    | with_reducible apply Upd.fold
    | split
    | dsimp only

theorem State.settle_upd {A : Fld → Bool} {s0 s : State} (h : Upd A s0 s) (a_regs : A .regs = true) (a_ports : A .ports = true) (a_hls : A .hls = true) (a_fns : A .fns = true) (a_clhIn : A .clhIn = true) (a_tptIn : A .tptIn = true) (a_mcIn : A .mcIn = true) (a_fifelIn : A .fifelIn = true) (a_samples : A .samples = true) (a_sampleLost : A .sampleLost = true) (a_clh : A .clh = true) (a_rotate : A .rotate = true) (a_freeCtr : A .freeCtr = true) (a_nextId : A .nextId = true) (a_out : A .out = true) : Upd A s0 (State.settle s) := by
  unfold State.settle
  repeat' first
    | with_reducible assumption
    | intro x1
    | lift_lets
    | with_reducible apply State.joinAll_upd
    | with_reducible apply State.svcUpdate_upd
    | with_reducible apply State.treesStalled_upd
    | with_reducible apply State.coordSync_upd
    | split
    | dsimp only

theorem State.ctrlSend_upd {A : Fld → Bool} {s0 s : State} (x1 : ℕ) (x2 : CtrlMsg) (h : Upd A s0 s) (a_ports : A .ports = true) : Upd A s0 (State.ctrlSend s x1 x2) := by
  unfold State.ctrlSend
  repeat' first
    | with_reducible assumption
    | lift_lets
    | with_reducible apply State.modPort_upd

theorem State.sendCreditSync_upd {A : Fld → Bool} {s0 s : State} (x1 : ℕ) (x2 : Bool) (h : Upd A s0 s) (a_ports : A .ports = true) : Upd A s0 (State.sendCreditSync s x1 x2) := by
  unfold State.sendCreditSync
  repeat' first
    | with_reducible assumption
    | intro x1
    | (intro x1; clear_value x1)
    | lift_lets
    | with_reducible apply State.modPort_upd
    | split
    | dsimp only

theorem State.askCreditSync_upd {A : Fld → Bool} {s0 s : State} (x1 : ℕ) (h : Upd A s0 s) (a_ports : A .ports = true) : Upd A s0 (State.askCreditSync s x1) := by
  unfold State.askCreditSync
  repeat' first
    | with_reducible assumption
    | lift_lets
    | with_reducible apply State.modPort_upd
    | with_reducible apply State.ctrlSend_upd
    | split

theorem State.ownIdentSig_upd {A : Fld → Bool} {s0 s : State} (x1 : ℕ) (x2 : IdentInfo) (h : Upd A s0 s) (a_freeCtr : A .freeCtr = true) : Upd A s0 (State.ownIdentSig s x1 x2).2 := by
  unfold State.ownIdentSig
  repeat' first
    | with_reducible assumption
    | intro x1
    | (intro x1; clear_value x1)
    | lift_lets
    | with_reducible apply State.free_upd
    | with_reducible refine Upd.ofSnd (by assumption) ?_
    | split
    | dsimp only

theorem State.advertise_upd {A : Fld → Bool} {s0 s : State} (h : Upd A s0 s) (a_regs : A .regs = true) (a_ports : A .ports = true) (a_hls : A .hls = true) (a_fns : A .fns = true) (a_clhIn : A .clhIn = true) (a_tptIn : A .tptIn = true) (a_mcIn : A .mcIn = true) (a_fifelIn : A .fifelIn = true) (a_samples : A .samples = true) (a_sampleLost : A .sampleLost = true) (a_clh : A .clh = true) (a_rotate : A .rotate = true) (a_freeCtr : A .freeCtr = true) (a_nextId : A .nextId = true) (a_out : A .out = true) : Upd A s0 (State.advertise s) := by
  unfold State.advertise
  repeat' first
    | with_reducible assumption
    | intro x1
    | lift_lets
    | with_reducible apply State.sendOn_upd
    | with_reducible apply Upd.fold
    | split

theorem State.limitExpire_upd {A : Fld → Bool} {s0 s : State} (x1 : ℕ) (h : Upd A s0 s) (a_regs : A .regs = true) (a_ports : A .ports = true) (a_hls : A .hls = true) (a_fns : A .fns = true) (a_clhIn : A .clhIn = true) (a_tptIn : A .tptIn = true) (a_relayIn : A .relayIn = true) (a_mgIn : A .mgIn = true) (a_mcIn : A .mcIn = true) (a_fifelIn : A .fifelIn = true) (a_samples : A .samples = true) (a_sampleLost : A .sampleLost = true) (a_clh : A .clh = true) (a_rotate : A .rotate = true) (a_freeCtr : A .freeCtr = true) (a_nextId : A .nextId = true) (a_out : A .out = true) : Upd A s0 (State.limitExpire s x1) := by
  unfold State.limitExpire
  repeat' first
    | with_reducible assumption
    | (intro s1; refine (fun (hs1 : Upd A s0 s1) => ?_) ?_; clear_value s1; rotate_left; subst s1; rotate_left)
    | intro x1
    | lift_lets
    | with_reducible apply State.closeRx_upd
    | with_reducible apply State.event_upd
    | with_reducible apply State.handBack_upd
    | with_reducible apply State.modPort_upd
    | with_reducible apply State.raise_upd
    | with_reducible apply State.set_upd
    | split
    | dsimp only

theorem State.readmit_upd {A : Fld → Bool} {s0 s : State} (x1 : ℕ) (h : Upd A s0 s) (a_regs : A .regs = true) : Upd A s0 (State.readmit s x1) := by
  unfold State.readmit
  repeat' first
    | with_reducible assumption
    | intro x1
    | lift_lets
    | with_reducible apply State.set_upd
    | with_reducible apply Upd.fold
    | split
    | dsimp only

theorem State.adverted_upd {A : Fld → Bool} {s0 s : State} (x1 : ℕ) (h : Upd A s0 s) (a_regs : A .regs = true) (a_ports : A .ports = true) (a_hls : A .hls = true) (a_fns : A .fns = true) (a_clhIn : A .clhIn = true) (a_tptIn : A .tptIn = true) (a_mcIn : A .mcIn = true) (a_fifelIn : A .fifelIn = true) (a_samples : A .samples = true) (a_sampleLost : A .sampleLost = true) (a_clh : A .clh = true) (a_rotate : A .rotate = true) (a_freeCtr : A .freeCtr = true) (a_nextId : A .nextId = true) (a_out : A .out = true) : Upd A s0 (State.adverted s x1) := by
  unfold State.adverted
  repeat' first
    | with_reducible assumption
    | intro x1
    | lift_lets
    | with_reducible apply State.advertise_upd
    | split
    | dsimp only

theorem State.holdPort_upd {A : Fld → Bool} {s0 s : State} (x1 : ℕ) (x2 : ℕ) (h : Upd A s0 s) (a_regs : A .regs = true) (a_ports : A .ports = true) (a_hls : A .hls = true) (a_fns : A .fns = true) (a_clhIn : A .clhIn = true) (a_tptIn : A .tptIn = true) (a_relayIn : A .relayIn = true) (a_mgIn : A .mgIn = true) (a_mcIn : A .mcIn = true) (a_fifelIn : A .fifelIn = true) (a_samples : A .samples = true) (a_sampleLost : A .sampleLost = true) (a_clh : A .clh = true) (a_rotate : A .rotate = true) (a_freeCtr : A .freeCtr = true) (a_nextId : A .nextId = true) (a_out : A .out = true) : Upd A s0 (State.holdPort s x1 x2) := by
  unfold State.holdPort
  repeat' first
    | with_reducible assumption
    | (intro s1; refine (fun (hs1 : Upd A s0 s1) => ?_) ?_; clear_value s1; rotate_left; subst s1; rotate_left)
    | (intro x1; clear_value x1)
    | intro x1
    | lift_lets
    | with_reducible apply State.adverted_upd
    | with_reducible apply State.event_upd
    | with_reducible apply State.limitExpire_upd
    | with_reducible apply State.modPort_upd
    | with_reducible apply State.raise_upd
    | with_reducible apply State.set_upd
    | with_reducible apply State.settle_upd
    | split
    | dsimp only

theorem State.startReset_upd {A : Fld → Bool} {s0 s : State} (x1 : ℕ) (h : Upd A s0 s) (a_regs : A .regs = true) (a_ports : A .ports = true) (a_hls : A .hls = true) (a_fns : A .fns = true) (a_clhIn : A .clhIn = true) (a_tptIn : A .tptIn = true) (a_relayIn : A .relayIn = true) (a_mgIn : A .mgIn = true) (a_mcIn : A .mcIn = true) (a_fifelIn : A .fifelIn = true) (a_samples : A .samples = true) (a_sampleLost : A .sampleLost = true) (a_clh : A .clh = true) (a_rotate : A .rotate = true) (a_freeCtr : A .freeCtr = true) (a_nextId : A .nextId = true) (a_out : A .out = true) : Upd A s0 (State.startReset s x1) := by
  unfold State.startReset
  repeat' first
    | with_reducible assumption
    | intro x1
    | (intro x1; clear_value x1)
    | (intro s1; refine (fun (hs1 : Upd A s0 s1) => ?_) ?_; clear_value s1; rotate_left; subst s1; rotate_left)
    | lift_lets
    | with_reducible apply State.modPort_upd
    | with_reducible apply State.set_upd
    | with_reducible apply State.limitExpire_upd
    | with_reducible apply State.readmit_upd
    | with_reducible apply State.holdPort_upd
    | split
    | dsimp only

theorem State.retryReset_upd {A : Fld → Bool} {s0 s : State} (x1 : ℕ) (h : Upd A s0 s) (a_regs : A .regs = true) (a_ports : A .ports = true) (a_hls : A .hls = true) (a_fns : A .fns = true) (a_clhIn : A .clhIn = true) (a_tptIn : A .tptIn = true) (a_relayIn : A .relayIn = true) (a_mgIn : A .mgIn = true) (a_mcIn : A .mcIn = true) (a_fifelIn : A .fifelIn = true) (a_samples : A .samples = true) (a_sampleLost : A .sampleLost = true) (a_clh : A .clh = true) (a_rotate : A .rotate = true) (a_freeCtr : A .freeCtr = true) (a_nextId : A .nextId = true) (a_out : A .out = true) : Upd A s0 (State.retryReset s x1) := by
  unfold State.retryReset
  repeat' first
    | with_reducible assumption
    | lift_lets
    | with_reducible apply State.bump_upd
    | with_reducible apply State.startReset_upd

theorem State.linkDown_upd {A : Fld → Bool} {s0 s : State} (x1 : ℕ) (x2 : ℕ) (h : Upd A s0 s) (a_regs : A .regs = true) (a_ports : A .ports = true) (a_hls : A .hls = true) (a_fns : A .fns = true) (a_clhIn : A .clhIn = true) (a_tptIn : A .tptIn = true) (a_relayIn : A .relayIn = true) (a_mgIn : A .mgIn = true) (a_mcIn : A .mcIn = true) (a_fifelIn : A .fifelIn = true) (a_samples : A .samples = true) (a_sampleLost : A .sampleLost = true) (a_clh : A .clh = true) (a_rotate : A .rotate = true) (a_freeCtr : A .freeCtr = true) (a_nextId : A .nextId = true) (a_out : A .out = true) : Upd A s0 (State.linkDown s x1 x2) := by
  unfold State.linkDown
  repeat' first
    | with_reducible assumption
    | intro x1
    | (intro x1; clear_value x1)
    | (intro s1; refine (fun (hs1 : Upd A s0 s1) => ?_) ?_; clear_value s1; rotate_left; subst s1; rotate_left)
    | lift_lets
    | with_reducible apply State.set_upd
    | with_reducible apply State.settle_upd
    | with_reducible apply State.startReset_upd
    | with_reducible apply State.raise_upd
    | with_reducible apply State.retryReset_upd
    | with_reducible apply State.event_upd
    | with_reducible apply State.adverted_upd
    | split
    | dsimp only

theorem State.nakCause_upd {A : Fld → Bool} {s0 s : State} (x1 : ℕ) (h : Upd A s0 s) (a_regs : A .regs = true) (a_ports : A .ports = true) (a_hls : A .hls = true) (a_fns : A .fns = true) (a_clhIn : A .clhIn = true) (a_tptIn : A .tptIn = true) (a_relayIn : A .relayIn = true) (a_mgIn : A .mgIn = true) (a_mcIn : A .mcIn = true) (a_fifelIn : A .fifelIn = true) (a_samples : A .samples = true) (a_sampleLost : A .sampleLost = true) (a_clh : A .clh = true) (a_rotate : A .rotate = true) (a_freeCtr : A .freeCtr = true) (a_nextId : A .nextId = true) (a_out : A .out = true) : Upd A s0 (State.nakCause s x1) := by
  unfold State.nakCause
  repeat' first
    | with_reducible assumption
    | (intro s1; refine (fun (hs1 : Upd A s0 s1) => ?_) ?_; clear_value s1; rotate_left; subst s1; rotate_left)
    | (intro x1; clear_value x1)
    | lift_lets
    | with_reducible apply State.modPort_upd
    | with_reducible apply State.bump_upd
    | with_reducible apply State.linkDown_upd
    | with_reducible apply State.set_upd
    | split

theorem State.startReplay_upd {A : Fld → Bool} {s0 s : State} (x1 : ℕ) (x2 : ℕ) (h : Upd A s0 s) (a_regs : A .regs = true) (a_ports : A .ports = true) (a_hls : A .hls = true) (a_fns : A .fns = true) (a_clhIn : A .clhIn = true) (a_tptIn : A .tptIn = true) (a_relayIn : A .relayIn = true) (a_mgIn : A .mgIn = true) (a_mcIn : A .mcIn = true) (a_fifelIn : A .fifelIn = true) (a_samples : A .samples = true) (a_sampleLost : A .sampleLost = true) (a_clh : A .clh = true) (a_rotate : A .rotate = true) (a_freeCtr : A .freeCtr = true) (a_nextId : A .nextId = true) (a_out : A .out = true) : Upd A s0 (State.startReplay s x1 x2) := by
  unfold State.startReplay
  repeat' first
    | with_reducible assumption
    | (intro s1; refine (fun (hs1 : Upd A s0 s1) => ?_) ?_; clear_value s1; rotate_left; subst s1; rotate_left)
    | (intro x1; clear_value x1)
    | lift_lets
    | with_reducible apply State.modPort_upd
    | with_reducible apply State.bump_upd
    | with_reducible apply State.linkDown_upd
    | with_reducible apply State.set_upd
    | split

theorem State.release_upd {A : Fld → Bool} {s0 s : State} (x1 : ℕ) (x2 : ℕ) (h : Upd A s0 s) (a_regs : A .regs = true) (a_ports : A .ports = true) : Upd A s0 (State.release s x1 x2) := by
  unfold State.release
  repeat' first
    | with_reducible assumption
    | (intro s1; refine (fun (hs1 : Upd A s0 s1) => ?_) ?_; clear_value s1; rotate_left; subst s1; rotate_left)
    | lift_lets
    | with_reducible apply State.modPort_upd
    | with_reducible apply State.set_upd
    | split

theorem State.takeAck_upd {A : Fld → Bool} {s0 s : State} (x1 : ℕ) (x2 : ℕ) (x3 : Bool) (h : Upd A s0 s) (a_regs : A .regs = true) (a_ports : A .ports = true) (a_hls : A .hls = true) (a_fns : A .fns = true) (a_clhIn : A .clhIn = true) (a_tptIn : A .tptIn = true) (a_relayIn : A .relayIn = true) (a_mgIn : A .mgIn = true) (a_mcIn : A .mcIn = true) (a_fifelIn : A .fifelIn = true) (a_samples : A .samples = true) (a_sampleLost : A .sampleLost = true) (a_clh : A .clh = true) (a_rotate : A .rotate = true) (a_freeCtr : A .freeCtr = true) (a_nextId : A .nextId = true) (a_out : A .out = true) : Upd A s0 (State.takeAck s x1 x2 x3) := by
  unfold State.takeAck
  repeat' first
    | with_reducible assumption
    | (intro s1; refine (fun (hs1 : Upd A s0 s1) => ?_) ?_; clear_value s1; rotate_left; subst s1; rotate_left)
    | (intro x1; clear_value x1)
    | lift_lets
    | with_reducible apply State.bump_upd
    | with_reducible apply State.startReplay_upd
    | with_reducible apply State.release_upd
    | split

theorem State.takeCredit_upd {A : Fld → Bool} {s0 s : State} (x1 : ℕ) (x2 : ℕ) (x3 : ℕ) (h : Upd A s0 s) (a_regs : A .regs = true) (a_ports : A .ports = true) : Upd A s0 (State.takeCredit s x1 x2 x3) := by
  unfold State.takeCredit
  repeat' first
    | with_reducible assumption
    | intro x1
    | (intro x1; clear_value x1)
    | lift_lets
    | with_reducible apply State.modPort_upd
    | with_reducible apply State.set_upd
    | split
    | dsimp only

theorem State.syncCredits_upd {A : Fld → Bool} {s0 s : State} (x1 : ℕ) (x2 : List ℕ) (x3 : List (ℕ × ℕ)) (h : Upd A s0 s) (a_regs : A .regs = true) (a_ports : A .ports = true) (a_hls : A .hls = true) (a_fns : A .fns = true) (a_out : A .out = true) : Upd A s0 (State.syncCredits s x1 x2 x3) := by
  unfold State.syncCredits
  repeat' first
    | with_reducible assumption
    | (intro s1; refine (fun (hs1 : Upd A s0 s1) => ?_) ?_; clear_value s1; rotate_left; subst s1; rotate_left)
    | (intro x1; clear_value x1)
    | intro x1
    | lift_lets
    | with_reducible apply State.bumpN_upd
    | with_reducible apply State.event_upd
    | with_reducible apply State.modPort_upd
    | with_reducible apply State.set_upd
    | with_reducible apply Upd.fold
    | split
    | dsimp only

theorem State.enterActive_upd {A : Fld → Bool} {s0 s : State} (x1 : ℕ) (h : Upd A s0 s) (a_regs : A .regs = true) (a_ports : A .ports = true) (a_hls : A .hls = true) (a_fns : A .fns = true) (a_clhIn : A .clhIn = true) (a_tptIn : A .tptIn = true) (a_mcIn : A .mcIn = true) (a_fifelIn : A .fifelIn = true) (a_samples : A .samples = true) (a_sampleLost : A .sampleLost = true) (a_clh : A .clh = true) (a_izg : A .izg = true) (a_rotate : A .rotate = true) (a_freeCtr : A .freeCtr = true) (a_nextId : A .nextId = true) (a_out : A .out = true) : Upd A s0 (State.enterActive s x1) := by
  unfold State.enterActive
  repeat' first
    | with_reducible assumption
    | (intro s1; refine (fun (hs1 : Upd A s0 s1) => ?_) ?_; clear_value s1; rotate_left; subst s1; rotate_left)
    | (intro x1; have x2 : Izg := x1; clear x2; subst x1)
    | (intro x1; clear_value x1)
    | intro x1
    | lift_lets
    | with_reducible apply State.adverted_upd
    | with_reducible apply State.event_upd
    | with_reducible apply State.modPort_upd
    | with_reducible apply State.sendOn_upd
    | with_reducible apply State.set_upd
    | with_reducible apply State.settle_upd
    | split
    | dsimp only
    | refine Upd.to_izg _ ?_ (by assumption) (fun _ i => ⟨i.mg, i.summary⟩)

end Sys2Proof.Machine
end

