-- ==== Sys2Proof/Laws/FrameLink.lean ====
section
/-!
SUPPORT. Laws/FrameLink.lean: which parts of State each operation of Machine/Link.lean may change, and that it keeps the invariant.
-/
namespace Sys2Proof.Machine
set_option linter.unusedTactic false
set_option linter.unreachableTactic false
set_option linter.unusedVariables false

theorem State.enterParam_upd {A : Fld → Bool} {s0 s : State} (x1 : ℕ) (h : Upd A s0 s) (a_regs : A .regs = true) (a_ports : A .ports = true) (a_clhIn : A .clhIn = true) : Upd A s0 (State.enterParam s x1) := by
  unfold State.enterParam
  repeat' first
    | with_reducible assumption
    | (intro s1; refine (fun (hs1 : Upd A s0 s1) => ?_) ?_; clear_value s1; rotate_left; subst s1; rotate_left)
    | (intro x1; clear_value x1)
    | intro x1
    | lift_lets
    | with_reducible apply State.ctrlSend_upd
    | with_reducible apply State.modPort_upd
    | with_reducible apply State.raise_upd
    | with_reducible apply State.reachOn_upd
    | with_reducible apply State.sendCreditSync_upd
    | with_reducible apply State.set_upd
    | split
    | dsimp only

theorem State.degradeCheck_upd {A : Fld → Bool} {s0 s : State} (x1 : ℕ) (x2 : ℕ) (h : Upd A s0 s) (a_regs : A .regs = true) (a_ports : A .ports = true) (a_hls : A .hls = true) (a_fns : A .fns = true) (a_clhIn : A .clhIn = true) (a_tptIn : A .tptIn = true) (a_relayIn : A .relayIn = true) (a_mgIn : A .mgIn = true) (a_mcIn : A .mcIn = true) (a_fifelIn : A .fifelIn = true) (a_samples : A .samples = true) (a_sampleLost : A .sampleLost = true) (a_clh : A .clh = true) (a_rotate : A .rotate = true) (a_freeCtr : A .freeCtr = true) (a_nextId : A .nextId = true) (a_out : A .out = true) : Upd A s0 (State.degradeCheck s x1 x2) := by
  unfold State.degradeCheck
  repeat' first
    | with_reducible assumption
    | (intro s1; refine (fun (hs1 : Upd A s0 s1) => ?_) ?_; clear_value s1; rotate_left; subst s1; rotate_left)
    | (intro x1; clear_value x1)
    | intro x1
    | lift_lets
    | with_reducible apply State.event_upd
    | with_reducible apply State.linkDown_upd
    | with_reducible apply State.raise_upd
    | with_reducible apply State.set_upd
    | split
    | dsimp only

theorem State.degradeWrite_upd {A : Fld → Bool} {s0 s : State} (x1 : ℕ) (h : Upd A s0 s) (a_regs : A .regs = true) (a_ports : A .ports = true) (a_hls : A .hls = true) (a_fns : A .fns = true) (a_clhIn : A .clhIn = true) (a_tptIn : A .tptIn = true) (a_relayIn : A .relayIn = true) (a_mgIn : A .mgIn = true) (a_mcIn : A .mcIn = true) (a_fifelIn : A .fifelIn = true) (a_samples : A .samples = true) (a_sampleLost : A .sampleLost = true) (a_clh : A .clh = true) (a_rotate : A .rotate = true) (a_freeCtr : A .freeCtr = true) (a_nextId : A .nextId = true) (a_out : A .out = true) : Upd A s0 (State.degradeWrite s x1) := by
  unfold State.degradeWrite
  repeat' first
    | with_reducible assumption
    | intro x1
    | lift_lets
    | with_reducible apply State.degradeCheck_upd
    | with_reducible apply Upd.fold
    | split
    | dsimp only

theorem State.corrected_upd {A : Fld → Bool} {s0 s : State} (x1 : ℕ) (x2 : ℕ) (x3 : ℕ) (h : Upd A s0 s) (a_regs : A .regs = true) (a_ports : A .ports = true) (a_hls : A .hls = true) (a_fns : A .fns = true) (a_clhIn : A .clhIn = true) (a_tptIn : A .tptIn = true) (a_relayIn : A .relayIn = true) (a_mgIn : A .mgIn = true) (a_mcIn : A .mcIn = true) (a_fifelIn : A .fifelIn = true) (a_samples : A .samples = true) (a_sampleLost : A .sampleLost = true) (a_clh : A .clh = true) (a_rotate : A .rotate = true) (a_freeCtr : A .freeCtr = true) (a_nextId : A .nextId = true) (a_out : A .out = true) : Upd A s0 (State.corrected s x1 x2 x3) := by
  unfold State.corrected
  repeat' first
    | with_reducible assumption
    | intro x1
    | (intro s1; refine (fun (hs1 : Upd A s0 s1) => ?_) ?_; clear_value s1; rotate_left; subst s1; rotate_left)
    | (intro x1; clear_value x1)
    | lift_lets
    | with_reducible apply State.modPort_upd
    | with_reducible apply State.set_upd
    | with_reducible apply State.degradeCheck_upd
    | split
    | dsimp only

theorem State.protoDown_upd {A : Fld → Bool} {s0 s : State} (x1 : ℕ) (x2 : ℕ) (h : Upd A s0 s) (a_regs : A .regs = true) (a_ports : A .ports = true) (a_hls : A .hls = true) (a_fns : A .fns = true) (a_clhIn : A .clhIn = true) (a_tptIn : A .tptIn = true) (a_relayIn : A .relayIn = true) (a_mgIn : A .mgIn = true) (a_mcIn : A .mcIn = true) (a_fifelIn : A .fifelIn = true) (a_samples : A .samples = true) (a_sampleLost : A .sampleLost = true) (a_clh : A .clh = true) (a_rotate : A .rotate = true) (a_freeCtr : A .freeCtr = true) (a_nextId : A .nextId = true) (a_out : A .out = true) : Upd A s0 (State.protoDown s x1 x2) := by
  unfold State.protoDown
  repeat' first
    | with_reducible assumption
    | intro x1
    | lift_lets
    | with_reducible apply State.linkDown_upd
    | with_reducible apply State.settle_upd
    | with_reducible apply State.startReset_upd
    | split
    | dsimp only

theorem State.linkProto_upd {A : Fld → Bool} {s0 s : State} (x1 : ℕ) (x2 : ℕ) (h : Upd A s0 s) (a_regs : A .regs = true) (a_ports : A .ports = true) (a_hls : A .hls = true) (a_fns : A .fns = true) (a_clhIn : A .clhIn = true) (a_tptIn : A .tptIn = true) (a_relayIn : A .relayIn = true) (a_mgIn : A .mgIn = true) (a_mcIn : A .mcIn = true) (a_fifelIn : A .fifelIn = true) (a_samples : A .samples = true) (a_sampleLost : A .sampleLost = true) (a_clh : A .clh = true) (a_rotate : A .rotate = true) (a_freeCtr : A .freeCtr = true) (a_nextId : A .nextId = true) (a_out : A .out = true) : Upd A s0 (State.linkProto s x1 x2) := by
  unfold State.linkProto
  repeat' first
    | with_reducible assumption
    | intro x1
    | lift_lets
    | with_reducible apply State.raise_upd
    | with_reducible apply State.protoDown_upd
    | split
    | dsimp only

theorem State.acceptFlit_upd {A : Fld → Bool} {s0 s : State} (x1 : ℕ) (x2 : Slot) (h : Upd A s0 s) (a_regs : A .regs = true) (a_ports : A .ports = true) (a_hls : A .hls = true) (a_fns : A .fns = true) (a_clhIn : A .clhIn = true) (a_tptIn : A .tptIn = true) (a_relayIn : A .relayIn = true) (a_mgIn : A .mgIn = true) (a_mcIn : A .mcIn = true) (a_fifelIn : A .fifelIn = true) (a_freeCtr : A .freeCtr = true) (a_nextId : A .nextId = true) (a_out : A .out = true) : Upd A s0 (State.acceptFlit s x1 x2) := by
  unfold State.acceptFlit
  repeat' first
    | with_reducible assumption
    | (intro s1; refine (fun (hs1 : Upd A s0 s1) => ?_) ?_; clear_value s1; rotate_left; subst s1; rotate_left)
    | (intro x1; clear_value x1)
    | lift_lets
    | with_reducible apply State.modPort_upd
    | with_reducible apply State.set_upd
    | with_reducible apply State.free_upd
    | with_reducible apply State.vaultStep_upd
    | with_reducible apply State.modVault_upd
    | with_reducible apply State.raise_upd
    | with_reducible apply State.newId_upd
    | with_reducible refine Upd.ofSnd (by assumption) ?_
    | split

theorem State.creditFault_upd {A : Fld → Bool} {s0 s : State} (x1 : ℕ) (x2 : ℕ) (h : Upd A s0 s) (a_regs : A .regs = true) (a_ports : A .ports = true) (a_hls : A .hls = true) (a_fns : A .fns = true) (a_clhIn : A .clhIn = true) (a_tptIn : A .tptIn = true) (a_relayIn : A .relayIn = true) (a_mgIn : A .mgIn = true) (a_mcIn : A .mcIn = true) (a_fifelIn : A .fifelIn = true) (a_samples : A .samples = true) (a_sampleLost : A .sampleLost = true) (a_clh : A .clh = true) (a_rotate : A .rotate = true) (a_freeCtr : A .freeCtr = true) (a_nextId : A .nextId = true) (a_out : A .out = true) : Upd A s0 (State.creditFault s x1 x2) := by
  unfold State.creditFault
  repeat' first
    | with_reducible assumption
    | intro x1
    | lift_lets
    | with_reducible apply State.raise_upd
    | with_reducible apply State.protoDown_upd
    | split
    | dsimp only

theorem State.acceptData_upd {A : Fld → Bool} {s0 s : State} (x1 : ℕ) (x2 : LinkFrame) (h : Upd A s0 s) (a_regs : A .regs = true) (a_ports : A .ports = true) (a_hls : A .hls = true) (a_fns : A .fns = true) (a_clhIn : A .clhIn = true) (a_tptIn : A .tptIn = true) (a_relayIn : A .relayIn = true) (a_mgIn : A .mgIn = true) (a_mcIn : A .mcIn = true) (a_fifelIn : A .fifelIn = true) (a_freeCtr : A .freeCtr = true) (a_nextId : A .nextId = true) (a_out : A .out = true) : Upd A s0 (State.acceptData s x1 x2) := by
  unfold State.acceptData
  repeat' first
    | with_reducible assumption
    | (intro s1; refine (fun (hs1 : Upd A s0 s1) => ?_) ?_; clear_value s1; rotate_left; subst s1; rotate_left)
    | intro x1
    | lift_lets
    | with_reducible apply State.modPort_upd
    | with_reducible apply State.acceptFlit_upd
    | with_reducible apply Upd.fold
    | split
    | dsimp only

theorem State.takeCtrl_upd {A : Fld → Bool} {s0 s : State} (x1 : ℕ) (x2 : LinkFrame) (h : Upd A s0 s) (a_regs : A .regs = true) (a_ports : A .ports = true) (a_hls : A .hls = true) (a_fns : A .fns = true) (a_hmk : A .hmk = true) (a_freeCtr : A .freeCtr = true) (a_out : A .out = true) : Upd A s0 (State.takeCtrl s x1 x2) := by
  unfold State.takeCtrl
  repeat' first
    | with_reducible assumption
    | intro x1
    | lift_lets
    | with_reducible apply State.modPort_upd
    | with_reducible apply State.bump_upd
    | with_reducible apply State.pcsNow_upd
    | with_reducible refine Upd.ofSnd (by assumption) ?_
    | split
    | dsimp only

theorem State.serveFrame_upd {A : Fld → Bool} {s0 s : State} (x1 : ℕ) (x2 : LinkFrame) (h : Upd A s0 s) (a_regs : A .regs = true) (a_ports : A .ports = true) (a_hls : A .hls = true) (a_fns : A .fns = true) (a_clhIn : A .clhIn = true) (a_tptIn : A .tptIn = true) (a_relayIn : A .relayIn = true) (a_mgIn : A .mgIn = true) (a_mcIn : A .mcIn = true) (a_fifelIn : A .fifelIn = true) (a_qsRx : A .qsRx = true) (a_samples : A .samples = true) (a_sampleLost : A .sampleLost = true) (a_hmk : A .hmk = true) (a_clh : A .clh = true) (a_rotate : A .rotate = true) (a_freeCtr : A .freeCtr = true) (a_nextId : A .nextId = true) (a_out : A .out = true) : Upd A s0 (State.serveFrame s x1 x2) := by
  unfold State.serveFrame
  repeat' first
    | with_reducible assumption
    | intro x1
    | (intro x1; clear_value x1)
    | (intro s1; refine (fun (hs1 : Upd A s0 s1) => ?_) ?_; clear_value s1; rotate_left; subst s1; rotate_left)
    | lift_lets
    | with_reducible apply State.acceptData_upd
    | with_reducible apply State.takeAck_upd
    | with_reducible apply State.takeCtrl_upd
    | with_reducible apply State.takeCredit_upd
    | with_reducible apply State.nakCause_upd
    | with_reducible apply State.modPort_upd
    | with_reducible apply State.pcsNow_upd
    | with_reducible refine Upd.ofSnd (by assumption) ?_
    | split
    | with_reducible apply Upd.to_qsRx
    | dsimp only

theorem State.goodFrame_upd {A : Fld → Bool} {s0 s : State} (x1 : ℕ) (h : Upd A s0 s) (a_regs : A .regs = true) (a_ports : A .ports = true) (a_hls : A .hls = true) (a_fns : A .fns = true) (a_clhIn : A .clhIn = true) (a_tptIn : A .tptIn = true) (a_mcIn : A .mcIn = true) (a_fifelIn : A .fifelIn = true) (a_samples : A .samples = true) (a_sampleLost : A .sampleLost = true) (a_clh : A .clh = true) (a_rotate : A .rotate = true) (a_freeCtr : A .freeCtr = true) (a_nextId : A .nextId = true) (a_out : A .out = true) : Upd A s0 (State.goodFrame s x1) := by
  unfold State.goodFrame
  repeat' first
    | with_reducible assumption
    | (intro s1; refine (fun (hs1 : Upd A s0 s1) => ?_) ?_; clear_value s1; rotate_left; subst s1; rotate_left)
    | (intro x1; clear_value x1)
    | intro x1
    | lift_lets
    | with_reducible apply State.adverted_upd
    | with_reducible apply State.enterParam_upd
    | with_reducible apply State.modPort_upd
    | with_reducible apply State.set_upd
    | with_reducible apply State.settle_upd
    | with_reducible apply Upd.fold
    | split
    | dsimp only

theorem State.decoded_upd {A : Fld → Bool} {s0 s : State} (x1 : ℕ) (x2 : ℕ) (x3 : List (Option (List ℕ))) (h : Upd A s0 s) (a_regs : A .regs = true) (a_ports : A .ports = true) (a_hls : A .hls = true) (a_fns : A .fns = true) (a_clhIn : A .clhIn = true) (a_tptIn : A .tptIn = true) (a_relayIn : A .relayIn = true) (a_mgIn : A .mgIn = true) (a_mcIn : A .mcIn = true) (a_fifelIn : A .fifelIn = true) (a_samples : A .samples = true) (a_sampleLost : A .sampleLost = true) (a_clh : A .clh = true) (a_rotate : A .rotate = true) (a_freeCtr : A .freeCtr = true) (a_nextId : A .nextId = true) (a_out : A .out = true) : Upd A s0 (State.decoded s x1 x2 x3) := by
  unfold State.decoded
  repeat' first
    | with_reducible assumption
    | (intro s1; refine (fun (hs1 : Upd A s0 s1) => ?_) ?_; clear_value s1; rotate_left; subst s1; rotate_left)
    | (intro x1; clear_value x1)
    | intro x1
    | lift_lets
    | with_reducible apply State.corrected_upd
    | with_reducible apply State.linkDown_upd
    | with_reducible apply State.set_upd
    | with_reducible apply Upd.fold
    | split
    | dsimp only

theorem State.frameReceive_upd {A : Fld → Bool} {s0 s : State} (x1 : ℕ) (x2 : LinkFrame) (x3 : RxErrors) (h : Upd A s0 s) (a_regs : A .regs = true) (a_ports : A .ports = true) (a_hls : A .hls = true) (a_fns : A .fns = true) (a_clhIn : A .clhIn = true) (a_tptIn : A .tptIn = true) (a_relayIn : A .relayIn = true) (a_mgIn : A .mgIn = true) (a_mcIn : A .mcIn = true) (a_fifelIn : A .fifelIn = true) (a_qsRx : A .qsRx = true) (a_samples : A .samples = true) (a_sampleLost : A .sampleLost = true) (a_hmk : A .hmk = true) (a_clh : A .clh = true) (a_rotate : A .rotate = true) (a_freeCtr : A .freeCtr = true) (a_nextId : A .nextId = true) (a_out : A .out = true) : Upd A s0 (State.frameReceive s x1 x2 x3) := by
  unfold State.frameReceive
  repeat' first
    | with_reducible assumption
    | (intro x1; clear_value x1)
    | (intro s1; refine (fun (hs1 : Upd A s0 s1) => ?_) ?_; clear_value s1; rotate_left; subst s1; rotate_left)
    | intro x1
    | lift_lets
    | with_reducible apply State.modPort_upd
    | with_reducible apply State.bump_upd
    | with_reducible apply State.linkProto_upd
    | with_reducible apply State.askCreditSync_upd
    | with_reducible apply State.serveFrame_upd
    | with_reducible apply State.set_upd
    | with_reducible apply State.goodFrame_upd
    | with_reducible apply State.nakCause_upd
    | with_reducible apply State.creditFault_upd
    | with_reducible apply State.decoded_upd
    | with_reducible apply State.pcsTake_upd
    | with_reducible refine Upd.ofSnd2 (by assumption) ?_
    | with_reducible apply Upd.fold
    | split
    | dsimp only

theorem State.hmkStamp_upd {A : Fld → Bool} {s0 s : State} (x1 : ℕ) (x2 : QsMsg) (h : Upd A s0 s) (a_ports : A .ports = true) (a_hmk : A .hmk = true) (a_freeCtr : A .freeCtr = true) : Upd A s0 (State.hmkStamp s x1 x2).2 := by
  unfold State.hmkStamp
  repeat' first
    | with_reducible assumption
    | intro x1
    | (intro x1; clear_value x1)
    | lift_lets
    | with_reducible apply State.modPort_upd
    | with_reducible apply State.pcsNow_upd
    | with_reducible refine Upd.ofSnd (by assumption) ?_
    | split
    | dsimp only

theorem State.qsPlace_upd {A : Fld → Bool} {s0 s : State} (x1 : ℕ) (x2 : QsWait) (x3 : Bool) (h : Upd A s0 s) (a_regs : A .regs = true) (a_ports : A .ports = true) (a_hls : A .hls = true) (a_fns : A .fns = true) (a_hmk : A .hmk = true) (a_freeCtr : A .freeCtr = true) (a_out : A .out = true) : Upd A s0 (State.qsPlace s x1 x2 x3).2 := by
  unfold State.qsPlace
  repeat' first
    | with_reducible assumption
    | (intro s1; refine (fun (hs1 : Upd A s0 s1) => ?_) ?_; clear_value s1; rotate_left; subst s1; rotate_left)
    | lift_lets
    | with_reducible apply State.bump_upd
    | with_reducible apply State.set_upd
    | with_reducible apply State.hmkStamp_upd
    | with_reducible refine Upd.ofSnd (by assumption) ?_
    | split

theorem State.qsRefresh_upd {A : Fld → Bool} {s0 s : State} (h : Upd A s0 s) (a_regs : A .regs = true) (a_hls : A .hls = true) (a_fns : A .fns = true) (a_qsWait : A .qsWait = true) (a_out : A .out = true) : Upd A s0 (State.qsRefresh s) := by
  unfold State.qsRefresh
  repeat' first
    | with_reducible assumption
    | intro x1
    | lift_lets
    | with_reducible apply State.bump_upd
    | with_reducible apply Upd.fold
    | split
    | with_reducible apply Upd.to_qsWait

theorem State.injRefresh_upd {A : Fld → Bool} {s0 s : State} (h : Upd A s0 s) (a_regs : A .regs = true) (a_hls : A .hls = true) (a_fns : A .fns = true) (a_qsInj : A .qsInj = true) (a_out : A .out = true) : Upd A s0 (State.injRefresh s) := by
  unfold State.injRefresh
  apply State.injUpd_upd _ a_regs
  have k : ∀ (l : List QsWait) (t : State), Upd A s0 t → (s0.Inv → t.qsInj.length + l.length ≤ 4096) →
      Upd A s0 (l.foldl (fun s w => if (s.qsPorts w).contains w.pref then { s with qsInj := s.qsInj ++ [w] }
        else match s.qsPrefer (s.qsPorts w) with
          | some p => { s with qsInj := s.qsInj ++ [{ w with pref := p }] }
          | none => s.bump QSL_CNT_NO_ROUTE.ev) t) := by
    intro l
    induction l with
    | nil => intro t ht _; exact ht
    | cons w l ih =>
      intro t ht hl
      simp only [List.length_cons] at hl
      refine ih _ ?_ ?_
      · beta_reduce
        split
        · exact Upd.to_qsInj _ ht a_qsInj fun i _ => by simp only [List.length_append, List.length_singleton]; have := hl i; omega
        · split
          · exact Upd.to_qsInj _ ht a_qsInj fun i _ => by simp only [List.length_append, List.length_singleton]; have := hl i; omega
          · apply State.bump_upd <;> assumption
      · intro i
        have := hl i
        beta_reduce
        split
        · simp only [List.length_append, List.length_singleton]; omega
        · split
          · simp only [List.length_append, List.length_singleton]; omega
          · have e : (t.bump QSL_CNT_NO_ROUTE.ev).qsInj = t.qsInj :=
              (State.bump_upd (A := fun f => f != .qsInj) _ (Upd.refl t) rfl rfl rfl rfl).qsInj.resolve_left (by decide)
            rw [e]; omega
  exact k _ _ (Upd.to_qsInj _ h a_qsInj fun _ _ => Nat.zero_le _) fun i => by
    have := (h.keeps i).qsInj
    simpa using this

theorem State.qsSlot_upd {A : Fld → Bool} {s0 s : State} (x1 : ℕ) (x2 : Bool) (h : Upd A s0 s) (a_regs : A .regs = true) (a_ports : A .ports = true) (a_hls : A .hls = true) (a_fns : A .fns = true) (a_qsWait : A .qsWait = true) (a_qsInj : A .qsInj = true) (a_hmk : A .hmk = true) (a_freeCtr : A .freeCtr = true) (a_out : A .out = true) : Upd A s0 (State.qsSlot s x1 x2).2 := by
  unfold State.qsSlot
  repeat' first
    | with_reducible assumption
    | (intro x1; have x2 := fun a => x1 a; clear x2; subst x1)
    | (intro x1; have x2 := Prod.snd x1; clear x2; subst x1)
    | lift_lets
    | with_reducible apply State.injUpd_upd
    | with_reducible apply State.qsPlace_upd
    | with_reducible refine Upd.ofSnd (by assumption) ?_
    | split
    | dsimp only
    | with_reducible apply Upd.to_qsWait
    | refine Upd.to_qsInj _ ?_ (by assumption) (fun _ i => Nat.le_trans (List.length_erase_le ..) i.qsInj)

theorem State.qsMiss_upd {A : Fld → Bool} {s0 s : State} (x1 : ℕ) (h : Upd A s0 s) (a_regs : A .regs = true) (a_hls : A .hls = true) (a_fns : A .fns = true) (a_qsWait : A .qsWait = true) (a_out : A .out = true) : Upd A s0 (State.qsMiss s x1) := by
  unfold State.qsMiss
  repeat' first
    | with_reducible assumption
    | lift_lets
    | with_reducible apply State.bumpN_upd
    | exact { h with qsWait := .inl a_qsWait, keeps := fun i => { h.keeps i with } }

theorem State.takeReturn_upd {A : Fld → Bool} {s0 s : State} (x1 : ℕ) (x2 : ℕ) (h : Upd A s0 s) (a_ports : A .ports = true) : Upd A s0 (State.takeReturn s x1 x2).2 := by
  unfold State.takeReturn
  repeat' first
    | with_reducible assumption
    | intro x1
    | (intro x1; clear_value x1)
    | lift_lets
    | with_reducible apply State.modPort_upd
    | split
    | dsimp only

theorem State.sendFlit_upd {A : Fld → Bool} {s0 s : State} (x1 : ℕ) (x2 : TxPkt) (h : Upd A s0 s) (a_regs : A .regs = true) (a_ports : A .ports = true) : Upd A s0 (State.sendFlit s x1 x2).2 := by
  unfold State.sendFlit
  repeat' first
    | with_reducible assumption
    | intro x1
    | (intro x1; clear_value x1)
    | (intro s1; refine (fun (hs1 : Upd A s0 s1) => ?_) ?_; clear_value s1; rotate_left; subst s1; rotate_left)
    | (intro x1; have x2 := fun a => x1 a; clear x2; subst x1)
    | (intro x1; have x2 := Prod.snd x1; clear x2; subst x1)
    | lift_lets
    | with_reducible apply State.modPort_upd
    | with_reducible apply State.set_upd
    | with_reducible apply State.qUpd_upd
    | with_reducible apply State.delVault_upd
    | with_reducible apply State.modVault_upd
    | with_reducible apply State.leaveVault_upd
    | split
    | dsimp only
    | dsimp +zetaDelta only

theorem State.fillSlots_upd {A : Fld → Bool} {s0 s : State} (x1 : ℕ) (x2 : ℕ) (h : Upd A s0 s) (a_regs : A .regs = true) (a_ports : A .ports = true) : Upd A s0 (State.fillSlots s x1 x2).2 := by
  induction x2 generalizing s with
  | zero =>
    unfold State.fillSlots
    repeat' first
      | with_reducible assumption
      | (intro x1; clear_value x1)
      | lift_lets
      | with_reducible apply State.modPort_upd
      | with_reducible apply State.sendFlit_upd
      | with_reducible refine Upd.ofSnd (by assumption) ?_
      | split
  | succ x0 ih =>
    unfold State.fillSlots
    repeat' first
      | with_reducible apply ih
      | with_reducible assumption
      | (intro x1; clear_value x1)
      | lift_lets
      | with_reducible apply State.modPort_upd
      | with_reducible apply State.sendFlit_upd
      | with_reducible refine Upd.ofSnd (by assumption) ?_
      | split

theorem State.ctrlStamp_upd {A : Fld → Bool} {s0 s : State} (x1 : ℕ) (x2 : CtrlMsg) (h : Upd A s0 s) (a_ports : A .ports = true) (a_hmk : A .hmk = true) (a_freeCtr : A .freeCtr = true) : Upd A s0 (State.ctrlStamp s x1 x2).2 := by
  unfold State.ctrlStamp
  repeat' first
    | with_reducible assumption
    | (intro x1; clear_value x1)
    | intro x1
    | lift_lets
    | with_reducible apply State.modPort_upd
    | with_reducible apply State.pcsNow_upd
    | with_reducible refine Upd.ofSnd (by assumption) ?_
    | split
    | dsimp only

theorem State.buildFrame_upd {A : Fld → Bool} {s0 s : State} (x1 : ℕ) (x2 : Payload) (h : Upd A s0 s) (a_regs : A .regs = true) (a_ports : A .ports = true) (a_hls : A .hls = true) (a_fns : A .fns = true) (a_qsWait : A .qsWait = true) (a_qsInj : A .qsInj = true) (a_hmk : A .hmk = true) (a_freeCtr : A .freeCtr = true) (a_out : A .out = true) : Upd A s0 (State.buildFrame s x1 x2) := by
  unfold State.buildFrame
  repeat' first
    | with_reducible assumption
    | intro x1
    | (intro x1; clear_value x1)
    | (intro s1; refine (fun (hs1 : Upd A s0 s1) => ?_) ?_; clear_value s1; rotate_left; subst s1; rotate_left)
    | (intro x1; have x2 := fun a => x1 a; clear x2; subst x1)
    | (intro x1; have x2 := Prod.snd x1; clear x2; subst x1)
    | lift_lets
    | with_reducible apply State.modPort_upd
    | with_reducible apply State.qsMiss_upd
    | with_reducible apply State.takeReturn_upd
    | with_reducible apply State.qsSlot_upd
    | with_reducible apply State.injRefresh_upd
    | with_reducible apply State.qsRefresh_upd
    | with_reducible apply State.emit_upd
    | with_reducible apply State.ctrlStamp_upd
    | with_reducible apply State.pcsSend_upd
    | with_reducible refine Upd.ofSnd (by assumption) ?_
    | split
    | dsimp only
    | with_reducible apply Upd.getD

theorem State.sendCtrl_upd_eq {A : Fld → Bool} {s0 s : State} {x1 : ℕ} {x2 : (CtrlWait → Bool)} {t : State} (h : Upd A s0 s) (e : State.sendCtrl s x1 x2 = some t) (a_regs : A .regs = true) (a_ports : A .ports = true) (a_hls : A .hls = true) (a_fns : A .fns = true) (a_qsWait : A .qsWait = true) (a_qsInj : A .qsInj = true) (a_hmk : A .hmk = true) (a_freeCtr : A .freeCtr = true) (a_out : A .out = true) : Upd A s0 t := by
  unfold State.sendCtrl at e
  revert e
  repeat' first
    | split
    | (intro e; refine Upd.ofMap e ?_)
    | (intro e; refine Upd.ofMapSnd e ?_)
    | (intro e; rw [← Option.some.inj e])
    | (intro e; rw [← (Prod.mk.inj (Option.some.inj e)).2])
    | (intro e; cases e; done)
    | with_reducible assumption
    | intro x1
    | lift_lets
    | with_reducible apply State.modPort_upd
    | with_reducible apply State.buildFrame_upd
    | dsimp only

theorem State.quietRecheck_upd {A : Fld → Bool} {s0 s : State} (x1 : ℕ) (h : Upd A s0 s) (a_ports : A .ports = true) : Upd A s0 (State.quietRecheck s x1) := by
  unfold State.quietRecheck
  repeat' first
    | with_reducible assumption
    | (intro x1; have x2 := fun a => x1 a; clear x2; subst x1)
    | (intro x1; clear_value x1)
    | intro x1
    | lift_lets
    | with_reducible apply State.modPort_upd
    | split
    | dsimp only
    | dsimp +zetaDelta only

theorem State.sendActive_upd {A : Fld → Bool} {s0 s : State} (x1 : ℕ) (h : Upd A s0 s) (a_regs : A .regs = true) (a_ports : A .ports = true) (a_hls : A .hls = true) (a_fns : A .fns = true) (a_qsWait : A .qsWait = true) (a_qsInj : A .qsInj = true) (a_hmk : A .hmk = true) (a_freeCtr : A .freeCtr = true) (a_out : A .out = true) : Upd A s0 (State.sendActive s x1) := by
  unfold State.sendActive
  repeat' first
    | with_reducible assumption
    | intro x1
    | (intro s1; refine (fun (hs1 : Upd A s0 s1) => ?_) ?_; clear_value s1; rotate_left; subst s1; rotate_left)
    | (intro x1; clear_value x1)
    | lift_lets
    | with_reducible apply State.modPort_upd
    | with_reducible apply State.fillSlots_upd
    | with_reducible apply State.set_upd
    | with_reducible apply State.buildFrame_upd
    | with_reducible refine State.sendCtrl_upd_eq ?_ (by assumption) (by assumption) (by assumption) (by assumption) (by assumption) (by assumption) (by assumption) (by assumption) (by assumption) (by assumption)
    | with_reducible apply State.quietRecheck_upd
    | with_reducible refine Upd.ofSnd (by assumption) ?_
    | split
    | dsimp only

theorem State.sendTraining_upd {A : Fld → Bool} {s0 s : State} (x1 : ℕ) (h : Upd A s0 s) (a_regs : A .regs = true) (a_ports : A .ports = true) (a_hls : A .hls = true) (a_fns : A .fns = true) (a_qsWait : A .qsWait = true) (a_qsInj : A .qsInj = true) (a_hmk : A .hmk = true) (a_freeCtr : A .freeCtr = true) (a_out : A .out = true) : Upd A s0 (State.sendTraining s x1) := by
  unfold State.sendTraining
  repeat' first
    | with_reducible assumption
    | (intro s1; refine (fun (hs1 : Upd A s0 s1) => ?_) ?_; clear_value s1; rotate_left; subst s1; rotate_left)
    | (intro x1; clear_value x1)
    | intro x1
    | lift_lets
    | with_reducible apply State.buildFrame_upd
    | with_reducible apply State.ctrlSend_upd
    | with_reducible apply State.emit_upd
    | with_reducible apply State.modPort_upd
    | with_reducible apply State.ownIdentSig_upd
    | with_reducible refine State.sendCtrl_upd_eq ?_ (by assumption) (by assumption) (by assumption) (by assumption) (by assumption) (by assumption) (by assumption) (by assumption) (by assumption) (by assumption)
    | with_reducible refine Upd.ofSnd (by assumption) ?_
    | with_reducible apply Upd.fold
    | with_reducible apply Upd.getD
    | split
    | dsimp only

theorem State.cellOut_upd {A : Fld → Bool} {s0 s : State} (x1 : ℕ) (x2 : Cell) (h : Upd A s0 s) (a_ports : A .ports = true) (a_freeCtr : A .freeCtr = true) (a_out : A .out = true) : Upd A s0 (State.cellOut s x1 x2) := by
  unfold State.cellOut
  repeat' first
    | with_reducible assumption
    | (intro x1; clear_value x1)
    | intro x1
    | lift_lets
    | with_reducible apply State.emit_upd
    | with_reducible apply State.pcsSend_upd
    | split
    | dsimp only

theorem State.sendCell_upd {A : Fld → Bool} {s0 s : State} (x1 : ℕ) (h : Upd A s0 s) (a_regs : A .regs = true) (a_ports : A .ports = true) (a_freeCtr : A .freeCtr = true) (a_out : A .out = true) : Upd A s0 (State.sendCell s x1) := by
  unfold State.sendCell
  repeat' first
    | with_reducible assumption
    | intro x1
    | (intro s1; refine (fun (hs1 : Upd A s0 s1) => ?_) ?_; clear_value s1; rotate_left; subst s1; rotate_left)
    | (intro x1; have x2 := fun a => x1 a; clear x2; subst x1)
    | (intro x1; have x2 := Prod.snd x1; clear x2; subst x1)
    | (intro x1; clear_value x1)
    | lift_lets
    | with_reducible apply State.modPort_upd
    | with_reducible apply State.cellOut_upd
    | with_reducible apply State.set_upd
    | split
    | dsimp only
    | dsimp +zetaDelta only

theorem execAckTimerExpiry_upd_eq {A : Fld → Bool} {s0 s : State} {x1 : PortNo} {t : State} (h : Upd A s0 s) (e : execAckTimerExpiry x1 s = .next t) (a_regs : A .regs = true) (a_ports : A .ports = true) (a_hls : A .hls = true) (a_fns : A .fns = true) (a_clhIn : A .clhIn = true) (a_tptIn : A .tptIn = true) (a_relayIn : A .relayIn = true) (a_mgIn : A .mgIn = true) (a_mcIn : A .mcIn = true) (a_fifelIn : A .fifelIn = true) (a_samples : A .samples = true) (a_sampleLost : A .sampleLost = true) (a_clh : A .clh = true) (a_rotate : A .rotate = true) (a_freeCtr : A .freeCtr = true) (a_nextId : A .nextId = true) (a_out : A .out = true) : Upd A s0 t := by
  unfold execAckTimerExpiry at e
  cases e
  repeat' first
    | with_reducible assumption
    | lift_lets
    | with_reducible apply State.startReplay_upd
    | split

theorem execErrorWindowEnd_upd_eq {A : Fld → Bool} {s0 s : State} {x1 : PortNo} {t : State} (h : Upd A s0 s) (e : execErrorWindowEnd x1 s = .next t) (a_regs : A .regs = true) (a_ports : A .ports = true) : Upd A s0 t := by
  unfold execErrorWindowEnd at e
  cases e
  repeat' first
    | with_reducible assumption
    | lift_lets
    | with_reducible apply State.modPort_upd
    | with_reducible apply State.set_upd

theorem State.linkReset_upd {A : Fld → Bool} {s0 s : State} (x1 : ℕ) (h : Upd A s0 s) (a_regs : A .regs = true) (a_ports : A .ports = true) (a_hls : A .hls = true) (a_fns : A .fns = true) (a_clhIn : A .clhIn = true) (a_tptIn : A .tptIn = true) (a_relayIn : A .relayIn = true) (a_mgIn : A .mgIn = true) (a_mcIn : A .mcIn = true) (a_fifelIn : A .fifelIn = true) (a_samples : A .samples = true) (a_sampleLost : A .sampleLost = true) (a_clh : A .clh = true) (a_rotate : A .rotate = true) (a_freeCtr : A .freeCtr = true) (a_nextId : A .nextId = true) (a_out : A .out = true) : Upd A s0 (State.linkReset s x1) := by
  unfold State.linkReset
  repeat' first
    | with_reducible assumption
    | (intro x1; clear_value x1)
    | lift_lets
    | with_reducible apply State.linkDown_upd
    | with_reducible apply State.settle_upd
    | with_reducible apply State.startReset_upd
    | split

theorem execCreditSync_upd_eq {A : Fld → Bool} {s0 s : State} {x1 : PortNo} {t : State} (h : Upd A s0 s) (e : execCreditSync x1 s = .next t) (a_regs : A .regs = true) (a_ports : A .ports = true) (a_hls : A .hls = true) (a_fns : A .fns = true) (a_out : A .out = true) : Upd A s0 t := by
  unfold execCreditSync at e
  cases e
  repeat' first
    | with_reducible assumption
    | intro x1
    | lift_lets
    | with_reducible apply State.modPort_upd
    | with_reducible apply State.syncCredits_upd
    | split
    | dsimp only

theorem execCreditSyncReq_upd_eq {A : Fld → Bool} {s0 s : State} {x1 : PortNo} {t : State} (h : Upd A s0 s) (e : execCreditSyncReq x1 s = .next t) (a_ports : A .ports = true) : Upd A s0 t := by
  unfold execCreditSyncReq at e
  cases e
  repeat' first
    | with_reducible assumption
    | intro x1
    | lift_lets
    | with_reducible apply State.modPort_upd
    | with_reducible apply State.sendCreditSync_upd
    | split
    | dsimp only

theorem execCreditSyncPeriod_upd_eq {A : Fld → Bool} {s0 s : State} {x1 : PortNo} {t : State} (h : Upd A s0 s) (e : execCreditSyncPeriod x1 s = .next t) (a_ports : A .ports = true) : Upd A s0 t := by
  unfold execCreditSyncPeriod at e
  cases e
  repeat' first
    | with_reducible assumption
    | intro x1
    | lift_lets
    | with_reducible apply State.sendCreditSync_upd
    | split
    | dsimp only

end Sys2Proof.Machine
end

