-- ==== Sys2Proof/Laws/FrameUpgrade.lean ====
section
/-!
SUPPORT. Laws/FrameUpgrade.lean: which parts of State each operation of Machine/Upgrade.lean may change, and that it keeps the invariant.
-/
namespace Sys2Proof.Machine
set_option linter.unusedTactic false
set_option linter.unreachableTactic false
set_option linter.unusedVariables false

theorem State.sendCoords_upd {A : Fld → Bool} {s0 s : State} (h : Upd A s0 s) (a_regs : A .regs = true) (a_ports : A .ports = true) (a_hls : A .hls = true) (a_fns : A .fns = true) (a_clhIn : A .clhIn = true) (a_tptIn : A .tptIn = true) (a_mcIn : A .mcIn = true) (a_fifelIn : A .fifelIn = true) (a_samples : A .samples = true) (a_sampleLost : A .sampleLost = true) (a_clh : A .clh = true) (a_rotate : A .rotate = true) (a_freeCtr : A .freeCtr = true) (a_nextId : A .nextId = true) (a_out : A .out = true) : Upd A s0 (State.sendCoords s) := by
  unfold State.sendCoords
  repeat' first
    | with_reducible assumption
    | intro x1
    | lift_lets
    | with_reducible apply State.sendCoord_upd
    | with_reducible apply Upd.fold

theorem State.withCoord_upd {A : Fld → Bool} {s0 s : State} (x1 : (State → State)) (h : Upd A s0 s) (f1 : ∀ v0, Upd A s0 v0 → Upd A s0 (x1 v0)) (a_regs : A .regs = true) (a_ports : A .ports = true) (a_hls : A .hls = true) (a_fns : A .fns = true) (a_clhIn : A .clhIn = true) (a_tptIn : A .tptIn = true) (a_mcIn : A .mcIn = true) (a_fifelIn : A .fifelIn = true) (a_samples : A .samples = true) (a_sampleLost : A .sampleLost = true) (a_clh : A .clh = true) (a_rotate : A .rotate = true) (a_freeCtr : A .freeCtr = true) (a_nextId : A .nextId = true) (a_out : A .out = true) : Upd A s0 (State.withCoord s x1) := by
  unfold State.withCoord
  repeat' first
    | with_reducible assumption
    | intro x1
    | (intro s1; refine (fun (hs1 : Upd A s0 s1) => ?_) ?_; clear_value s1; rotate_left; subst s1; rotate_left)
    | (intro x1; clear_value x1)
    | lift_lets
    | with_reducible apply State.coordSync_upd
    | with_reducible apply f1
    | split
    | dsimp only

theorem State.passStat_upd {A : Fld → Bool} {s0 s : State} (h : Upd A s0 s) (a_regs : A .regs = true) : Upd A s0 (State.passStat s) := by
  unfold State.passStat
  repeat' first
    | with_reducible assumption
    | lift_lets
    | with_reducible apply State.set_upd

theorem State.endUpgrade_upd {A : Fld → Bool} {s0 s : State} (h : Upd A s0 s) (a_regs : A .regs = true) (a_ports : A .ports = true) (a_hls : A .hls = true) (a_fns : A .fns = true) (a_clhIn : A .clhIn = true) (a_tptIn : A .tptIn = true) (a_mcIn : A .mcIn = true) (a_fifelIn : A .fifelIn = true) (a_samples : A .samples = true) (a_sampleLost : A .sampleLost = true) (a_clh : A .clh = true) (a_boot : A .boot = true) (a_rotate : A .rotate = true) (a_freeCtr : A .freeCtr = true) (a_nextId : A .nextId = true) (a_out : A .out = true) : Upd A s0 (State.endUpgrade s) := by
  unfold State.endUpgrade
  dsimp only
  repeat' first
    | with_reducible assumption
    | (intro x1; clear_value x1)
    | (intro s1; refine (fun (hs1 : Upd A s0 s1) => ?_) ?_; clear_value s1; rotate_left; subst s1; rotate_left)
    | intro x1
    | lift_lets
    | with_reducible apply State.enterSvc_upd
    | with_reducible apply State.withCoord_upd
    | with_reducible apply State.set_upd
    | with_reducible apply State.settle_upd
    | with_reducible apply State.passStat_upd
    | split
    | with_reducible apply Upd.to_boot
    | dsimp only

theorem State.upgradeCheck_upd {A : Fld → Bool} {s0 s : State} (h : Upd A s0 s) (a_regs : A .regs = true) (a_ports : A .ports = true) (a_hls : A .hls = true) (a_fns : A .fns = true) (a_clhIn : A .clhIn = true) (a_tptIn : A .tptIn = true) (a_mcIn : A .mcIn = true) (a_fifelIn : A .fifelIn = true) (a_samples : A .samples = true) (a_sampleLost : A .sampleLost = true) (a_clh : A .clh = true) (a_boot : A .boot = true) (a_rotate : A .rotate = true) (a_freeCtr : A .freeCtr = true) (a_nextId : A .nextId = true) (a_out : A .out = true) : Upd A s0 (State.upgradeCheck s) := by
  unfold State.upgradeCheck
  repeat' first
    | with_reducible assumption
    | (intro s1; refine (fun (hs1 : Upd A s0 s1) => ?_) ?_; clear_value s1; rotate_left; subst s1; rotate_left)
    | lift_lets
    | with_reducible apply State.endUpgrade_upd
    | with_reducible apply State.passStat_upd
    | split

theorem State.setPend_upd {A : Fld → Bool} {s0 s : State} (x1 : ℕ) (x2 : List ℕ) (h : Upd A s0 s) (a_boot : A .boot = true) : Upd A s0 (State.setPend s x1 x2) := by
  unfold State.setPend
  repeat' first
    | with_reducible assumption
    | lift_lets
    | exact { h with boot := .inl a_boot, keeps := fun i => { h.keeps i with } }

theorem State.passGo_upd {A : Fld → Bool} {s0 s : State} (x1 : ℕ) (x2 : ℕ) (h : Upd A s0 s) (a_regs : A .regs = true) (a_ports : A .ports = true) (a_hls : A .hls = true) (a_fns : A .fns = true) (a_clhIn : A .clhIn = true) (a_tptIn : A .tptIn = true) (a_relayIn : A .relayIn = true) (a_mgIn : A .mgIn = true) (a_mcIn : A .mcIn = true) (a_fifelIn : A .fifelIn = true) (a_samples : A .samples = true) (a_sampleLost : A .sampleLost = true) (a_clh : A .clh = true) (a_boot : A .boot = true) (a_rotate : A .rotate = true) (a_freeCtr : A .freeCtr = true) (a_nextId : A .nextId = true) (a_out : A .out = true) : Upd A s0 (State.passGo s x1 x2) := by
  induction x2 generalizing s with
  | zero =>
    unfold State.passGo
    repeat' first
      | with_reducible assumption
      | (intro s1; refine (fun (hs1 : Upd A s0 s1) => ?_) ?_; clear_value s1; rotate_left; subst s1; rotate_left)
      | lift_lets
      | with_reducible apply State.modPort_upd
      | with_reducible apply State.setPend_upd
      | with_reducible apply State.linkReset_upd
      | split
      | with_reducible apply Upd.to_boot
  | succ x0 ih =>
    unfold State.passGo
    repeat' first
      | with_reducible apply ih
      | with_reducible assumption
      | (intro s1; refine (fun (hs1 : Upd A s0 s1) => ?_) ?_; clear_value s1; rotate_left; subst s1; rotate_left)
      | lift_lets
      | with_reducible apply State.modPort_upd
      | with_reducible apply State.setPend_upd
      | with_reducible apply State.linkReset_upd
      | split
      | with_reducible apply Upd.to_boot

theorem State.passAdvance_upd {A : Fld → Bool} {s0 s : State} (x1 : ℕ) (h : Upd A s0 s) (a_regs : A .regs = true) (a_ports : A .ports = true) (a_hls : A .hls = true) (a_fns : A .fns = true) (a_clhIn : A .clhIn = true) (a_tptIn : A .tptIn = true) (a_relayIn : A .relayIn = true) (a_mgIn : A .mgIn = true) (a_mcIn : A .mcIn = true) (a_fifelIn : A .fifelIn = true) (a_samples : A .samples = true) (a_sampleLost : A .sampleLost = true) (a_clh : A .clh = true) (a_boot : A .boot = true) (a_rotate : A .rotate = true) (a_freeCtr : A .freeCtr = true) (a_nextId : A .nextId = true) (a_out : A .out = true) : Upd A s0 (State.passAdvance s x1) := by
  unfold State.passAdvance
  repeat' first
    | with_reducible assumption
    | (intro x1; clear_value x1)
    | lift_lets
    | with_reducible apply State.passGo_upd
    | with_reducible apply State.upgradeCheck_upd
    | split

theorem State.passNext_upd {A : Fld → Bool} {s0 s : State} (x1 : ℕ) (h : Upd A s0 s) (a_regs : A .regs = true) (a_ports : A .ports = true) (a_hls : A .hls = true) (a_fns : A .fns = true) (a_clhIn : A .clhIn = true) (a_tptIn : A .tptIn = true) (a_relayIn : A .relayIn = true) (a_mgIn : A .mgIn = true) (a_mcIn : A .mcIn = true) (a_fifelIn : A .fifelIn = true) (a_samples : A .samples = true) (a_sampleLost : A .sampleLost = true) (a_clh : A .clh = true) (a_boot : A .boot = true) (a_rotate : A .rotate = true) (a_freeCtr : A .freeCtr = true) (a_nextId : A .nextId = true) (a_out : A .out = true) : Upd A s0 (State.passNext s x1) := by
  unfold State.passNext
  repeat' first
    | with_reducible assumption
    | lift_lets
    | with_reducible apply State.passAdvance_upd
    | exact { h with boot := .inl a_boot, keeps := fun i => { h.keeps i with } }

theorem State.passActive_upd {A : Fld → Bool} {s0 s : State} (x1 : ℕ) (h : Upd A s0 s) (a_regs : A .regs = true) (a_ports : A .ports = true) (a_hls : A .hls = true) (a_fns : A .fns = true) (a_clhIn : A .clhIn = true) (a_tptIn : A .tptIn = true) (a_relayIn : A .relayIn = true) (a_mgIn : A .mgIn = true) (a_mcIn : A .mcIn = true) (a_fifelIn : A .fifelIn = true) (a_samples : A .samples = true) (a_sampleLost : A .sampleLost = true) (a_clh : A .clh = true) (a_boot : A .boot = true) (a_rotate : A .rotate = true) (a_freeCtr : A .freeCtr = true) (a_nextId : A .nextId = true) (a_out : A .out = true) : Upd A s0 (State.passActive s x1) := by
  unfold State.passActive
  repeat' first
    | with_reducible assumption
    | lift_lets
    | with_reducible apply State.passAdvance_upd
    | with_reducible apply State.passNext_upd
    | split

theorem State.startPasses_upd {A : Fld → Bool} {s0 s : State} (x1 : Bool) (x2 : List ℕ) (h : Upd A s0 s) (a_regs : A .regs = true) (a_ports : A .ports = true) (a_hls : A .hls = true) (a_fns : A .fns = true) (a_clhIn : A .clhIn = true) (a_tptIn : A .tptIn = true) (a_mcIn : A .mcIn = true) (a_fifelIn : A .fifelIn = true) (a_samples : A .samples = true) (a_sampleLost : A .sampleLost = true) (a_clh : A .clh = true) (a_boot : A .boot = true) (a_rotate : A .rotate = true) (a_freeCtr : A .freeCtr = true) (a_nextId : A .nextId = true) (a_out : A .out = true) : Upd A s0 (State.startPasses s x1 x2) := by
  unfold State.startPasses
  repeat' first
    | with_reducible assumption
    | (intro s1; refine (fun (hs1 : Upd A s0 s1) => ?_) ?_; clear_value s1; rotate_left; subst s1; rotate_left)
    | (intro x1; clear_value x1)
    | intro x1
    | lift_lets
    | with_reducible apply State.modPort_upd
    | with_reducible apply State.set_upd
    | with_reducible apply State.upgradeCheck_upd
    | with_reducible apply Upd.fold
    | split
    | dsimp only
    | with_reducible apply Upd.to_boot

theorem State.startUpgrade_upd {A : Fld → Bool} {s0 s : State} (h : Upd A s0 s) (a_regs : A .regs = true) (a_ports : A .ports = true) (a_hls : A .hls = true) (a_fns : A .fns = true) (a_clhIn : A .clhIn = true) (a_tptIn : A .tptIn = true) (a_mcIn : A .mcIn = true) (a_fifelIn : A .fifelIn = true) (a_samples : A .samples = true) (a_sampleLost : A .sampleLost = true) (a_clh : A .clh = true) (a_boot : A .boot = true) (a_rotate : A .rotate = true) (a_freeCtr : A .freeCtr = true) (a_nextId : A .nextId = true) (a_out : A .out = true) : Upd A s0 (State.startUpgrade s) := by
  unfold State.startUpgrade
  repeat' first
    | with_reducible assumption
    | (intro s1; refine (fun (hs1 : Upd A s0 s1) => ?_) ?_; clear_value s1; rotate_left; subst s1; rotate_left)
    | intro x1
    | lift_lets
    | with_reducible apply State.withCoord_upd
    | with_reducible apply State.set_upd
    | with_reducible apply State.startPasses_upd
    | with_reducible apply State.settle_upd
    | with_reducible apply Upd.fold
    | split
    | dsimp only

theorem State.stopUpgrade_upd {A : Fld → Bool} {s0 s : State} (h : Upd A s0 s) (a_regs : A .regs = true) (a_boot : A .boot = true) : Upd A s0 (State.stopUpgrade s) := by
  unfold State.stopUpgrade
  repeat' first
    | with_reducible assumption
    | (intro s1; refine (fun (hs1 : Upd A s0 s1) => ?_) ?_; clear_value s1; rotate_left; subst s1; rotate_left)
    | (intro x1; clear_value x1)
    | intro x1
    | lift_lets
    | with_reducible apply State.passStat_upd
    | with_reducible apply State.set_upd
    | split
    | dsimp only
    | with_reducible apply Upd.to_boot

end Sys2Proof.Machine
end

