-- ==== Sys2Proof/Laws/FrameTrain.lean ====
section
/-!
SUPPORT. Laws/FrameTrain.lean: which parts of State each operation of Machine/Train.lean may change, and that it keeps the invariant.
-/
namespace Sys2Proof.Machine
set_option linter.unusedTactic false
set_option linter.unreachableTactic false
set_option linter.unusedVariables false

theorem State.clearLanes_upd {A : Fld → Bool} {s0 s : State} (x1 : ℕ) (h : Upd A s0 s) (a_regs : A .regs = true) : Upd A s0 (State.clearLanes s x1) := by
  unfold State.clearLanes
  repeat' first
    | with_reducible assumption
    | intro x1
    | lift_lets
    | with_reducible apply State.set_upd
    | with_reducible apply Upd.fold

theorem State.agreeWidth_upd {A : Fld → Bool} {s0 s : State} (x1 : ℕ) (x2 : ℕ) (x3 : ℕ) (h : Upd A s0 s) (a_regs : A .regs = true) : Upd A s0 (State.agreeWidth s x1 x2 x3) := by
  unfold State.agreeWidth
  repeat' first
    | with_reducible assumption
    | (intro s1; refine (fun (hs1 : Upd A s0 s1) => ?_) ?_; clear_value s1; rotate_left; subst s1; rotate_left)
    | intro x1
    | lift_lets
    | with_reducible apply State.setB_upd
    | with_reducible apply State.set_upd
    | with_reducible apply Upd.fold

theorem State.narrowCheck_upd {A : Fld → Bool} {s0 s : State} (x1 : ℕ) (h : Upd A s0 s) (a_clhIn : A .clhIn = true) : Upd A s0 (State.narrowCheck s x1) := by
  unfold State.narrowCheck
  repeat' first
    | with_reducible assumption
    | lift_lets
    | with_reducible apply State.raise_upd
    | split

theorem State.peerCheck_upd {A : Fld → Bool} {s0 s : State} (x1 : ℕ) (h : Upd A s0 s) (a_regs : A .regs = true) (a_ports : A .ports = true) (a_hls : A .hls = true) (a_fns : A .fns = true) (a_clhIn : A .clhIn = true) (a_tptIn : A .tptIn = true) (a_relayIn : A .relayIn = true) (a_mgIn : A .mgIn = true) (a_mcIn : A .mcIn = true) (a_fifelIn : A .fifelIn = true) (a_samples : A .samples = true) (a_sampleLost : A .sampleLost = true) (a_clh : A .clh = true) (a_rotate : A .rotate = true) (a_freeCtr : A .freeCtr = true) (a_nextId : A .nextId = true) (a_out : A .out = true) : Upd A s0 (State.peerCheck s x1) := by
  unfold State.peerCheck
  repeat' first
    | with_reducible assumption
    | lift_lets
    | with_reducible apply State.holdPort_upd
    | split

theorem execResetEntryDone_upd_eq {A : Fld → Bool} {s0 s : State} {x1 : PortNo} {t : State} (h : Upd A s0 s) (e : execResetEntryDone x1 s = .next t) (a_regs : A .regs = true) (a_ports : A .ports = true) : Upd A s0 t := by
  unfold execResetEntryDone at e
  cases e
  repeat' first
    | with_reducible assumption
    | lift_lets
    | with_reducible apply State.modPort_upd
    | with_reducible apply State.set_upd
    | with_reducible apply State.clearLanes_upd
    | split

theorem State.enterSpeedEq_upd {A : Fld → Bool} {s0 s : State} (x1 : ℕ) (x2 : ℕ) (h : Upd A s0 s) (a_regs : A .regs = true) (a_ports : A .ports = true) : Upd A s0 (State.enterSpeedEq s x1 x2) := by
  unfold State.enterSpeedEq
  repeat' first
    | with_reducible assumption
    | lift_lets
    | with_reducible apply State.modPort_upd
    | with_reducible apply State.set_upd

theorem execDetectStable_upd_eq {A : Fld → Bool} {s0 s : State} {x1 : PortNo} {x2 : BitVec 8} {x3 : BitVec 8} {t : State} (h : Upd A s0 s) (e : execDetectStable x1 x2 x3 s = .next t) (a_regs : A .regs = true) (a_ports : A .ports = true) (a_clhIn : A .clhIn = true) : Upd A s0 t := by
  unfold execDetectStable at e
  cases e
  repeat' first
    | with_reducible assumption
    | (intro s1; refine (fun (hs1 : Upd A s0 s1) => ?_) ?_; clear_value s1; rotate_left; subst s1; rotate_left)
    | (intro x1; clear_value x1)
    | intro x1
    | lift_lets
    | with_reducible apply State.enterSpeedEq_upd
    | with_reducible apply State.modPort_upd
    | with_reducible apply State.raise_upd
    | with_reducible apply State.set_upd
    | with_reducible apply State.setB_upd
    | with_reducible apply Upd.fold
    | split
    | dsimp only

theorem State.enterIdent_upd {A : Fld → Bool} {s0 s : State} (x1 : ℕ) (h : Upd A s0 s) (a_regs : A .regs = true) (a_ports : A .ports = true) (a_freeCtr : A .freeCtr = true) : Upd A s0 (State.enterIdent s x1) := by
  unfold State.enterIdent
  repeat' first
    | with_reducible assumption
    | intro x1
    | lift_lets
    | with_reducible apply State.modPort_upd
    | with_reducible apply State.set_upd
    | with_reducible apply State.free_upd
    | with_reducible refine Upd.ofSnd (by assumption) ?_
    | split
    | dsimp only

theorem State.resetSet_upd {A : Fld → Bool} {s0 s : State} (x1 : ℕ) (x2 : ℕ) (h : Upd A s0 s) (a_regs : A .regs = true) (a_ports : A .ports = true) (a_hls : A .hls = true) (a_fns : A .fns = true) (a_clhIn : A .clhIn = true) (a_tptIn : A .tptIn = true) (a_relayIn : A .relayIn = true) (a_mgIn : A .mgIn = true) (a_mcIn : A .mcIn = true) (a_fifelIn : A .fifelIn = true) (a_samples : A .samples = true) (a_sampleLost : A .sampleLost = true) (a_clh : A .clh = true) (a_rotate : A .rotate = true) (a_freeCtr : A .freeCtr = true) (a_nextId : A .nextId = true) (a_out : A .out = true) : Upd A s0 (State.resetSet s x1 x2) := by
  unfold State.resetSet
  repeat' first
    | with_reducible assumption
    | intro x1
    | (intro s1; refine (fun (hs1 : Upd A s0 s1) => ?_) ?_; clear_value s1; rotate_left; subst s1; rotate_left)
    | (intro x1; clear_value x1)
    | lift_lets
    | with_reducible apply State.modPort_upd
    | with_reducible apply State.linkDown_upd
    | with_reducible apply State.startReset_upd
    | split
    | dsimp only

theorem State.laneSet_upd {A : Fld → Bool} {s0 s : State} (x1 : ℕ) (x2 : ℕ) (x3 : Bool) (x4 : ℕ) (h : Upd A s0 s) (a_regs : A .regs = true) (a_ports : A .ports = true) (a_freeCtr : A .freeCtr = true) : Upd A s0 (State.laneSet s x1 x2 x3 x4) := by
  unfold State.laneSet
  repeat' first
    | with_reducible assumption
    | (intro s1; refine (fun (hs1 : Upd A s0 s1) => ?_) ?_; clear_value s1; rotate_left; subst s1; rotate_left)
    | (intro x1; clear_value x1)
    | lift_lets
    | with_reducible apply State.modPort_upd
    | with_reducible apply State.setB_upd
    | with_reducible apply State.set_upd
    | with_reducible apply State.enterIdent_upd
    | split

theorem execTrainingSetReceive_upd_eq {A : Fld → Bool} {s0 s : State} {x1 : PortNo} {x2 : Fin 8} {x3 : BitVec 256} {t : State} (h : Upd A s0 s) (e : execTrainingSetReceive x1 x2 x3 s = .next t) (a_regs : A .regs = true) (a_ports : A .ports = true) (a_hls : A .hls = true) (a_fns : A .fns = true) (a_clhIn : A .clhIn = true) (a_tptIn : A .tptIn = true) (a_relayIn : A .relayIn = true) (a_mgIn : A .mgIn = true) (a_mcIn : A .mcIn = true) (a_fifelIn : A .fifelIn = true) (a_samples : A .samples = true) (a_sampleLost : A .sampleLost = true) (a_clh : A .clh = true) (a_rotate : A .rotate = true) (a_freeCtr : A .freeCtr = true) (a_nextId : A .nextId = true) (a_out : A .out = true) : Upd A s0 t := by
  unfold execTrainingSetReceive at e
  cases e
  repeat' first
    | with_reducible assumption
    | intro x1
    | (intro s1; refine (fun (hs1 : Upd A s0 s1) => ?_) ?_; clear_value s1; rotate_left; subst s1; rotate_left)
    | (intro x1; clear_value x1)
    | lift_lets
    | with_reducible apply State.modPort_upd
    | with_reducible apply State.holdPort_upd
    | with_reducible apply State.laneSet_upd
    | with_reducible apply State.resetSet_upd
    | split
    | dsimp only

theorem execTrainTimeout_upd_eq {A : Fld → Bool} {s0 s : State} {x1 : PortNo} {t : State} (h : Upd A s0 s) (e : execTrainTimeout x1 s = .next t) (a_regs : A .regs = true) (a_ports : A .ports = true) (a_hls : A .hls = true) (a_fns : A .fns = true) (a_clhIn : A .clhIn = true) (a_tptIn : A .tptIn = true) (a_relayIn : A .relayIn = true) (a_mgIn : A .mgIn = true) (a_mcIn : A .mcIn = true) (a_fifelIn : A .fifelIn = true) (a_samples : A .samples = true) (a_sampleLost : A .sampleLost = true) (a_clh : A .clh = true) (a_rotate : A .rotate = true) (a_freeCtr : A .freeCtr = true) (a_nextId : A .nextId = true) (a_out : A .out = true) : Upd A s0 t := by
  unfold execTrainTimeout at e
  cases e
  repeat' first
    | with_reducible assumption
    | (intro s1; refine (fun (hs1 : Upd A s0 s1) => ?_) ?_; clear_value s1; rotate_left; subst s1; rotate_left)
    | (intro x1; clear_value x1)
    | lift_lets
    | with_reducible apply State.modPort_upd
    | with_reducible apply State.bump_upd
    | with_reducible apply State.holdPort_upd
    | with_reducible apply State.raise_upd
    | with_reducible apply State.retryReset_upd
    | split

theorem State.identIn_upd {A : Fld → Bool} {s0 s : State} (x1 : ℕ) (x2 : IdentInfo) (h : Upd A s0 s) (a_regs : A .regs = true) (a_ports : A .ports = true) (a_hls : A .hls = true) (a_fns : A .fns = true) (a_clhIn : A .clhIn = true) (a_tptIn : A .tptIn = true) (a_relayIn : A .relayIn = true) (a_mgIn : A .mgIn = true) (a_mcIn : A .mcIn = true) (a_fifelIn : A .fifelIn = true) (a_samples : A .samples = true) (a_sampleLost : A .sampleLost = true) (a_clh : A .clh = true) (a_rotate : A .rotate = true) (a_freeCtr : A .freeCtr = true) (a_nextId : A .nextId = true) (a_out : A .out = true) : Upd A s0 (State.identIn s x1 x2) := by
  unfold State.identIn
  repeat' first
    | with_reducible assumption
    | intro x1
    | (intro s1; refine (fun (hs1 : Upd A s0 s1) => ?_) ?_; clear_value s1; rotate_left; subst s1; rotate_left)
    | (intro x1; clear_value x1)
    | lift_lets
    | with_reducible apply State.modPort_upd
    | with_reducible apply State.holdPort_upd
    | with_reducible apply State.set_upd
    | with_reducible apply State.adverted_upd
    | split
    | dsimp only

theorem execIdent_upd_eq {A : Fld → Bool} {s0 s : State} {x1 : PortNo} {t : State} (h : Upd A s0 s) (e : execIdent x1 s = .next t) (a_regs : A .regs = true) (a_ports : A .ports = true) (a_hls : A .hls = true) (a_fns : A .fns = true) (a_clhIn : A .clhIn = true) (a_tptIn : A .tptIn = true) (a_relayIn : A .relayIn = true) (a_mgIn : A .mgIn = true) (a_mcIn : A .mcIn = true) (a_fifelIn : A .fifelIn = true) (a_samples : A .samples = true) (a_sampleLost : A .sampleLost = true) (a_clh : A .clh = true) (a_rotate : A .rotate = true) (a_freeCtr : A .freeCtr = true) (a_nextId : A .nextId = true) (a_out : A .out = true) : Upd A s0 t := by
  unfold execIdent at e
  cases e
  repeat' first
    | with_reducible assumption
    | intro x1
    | (intro s1; refine (fun (hs1 : Upd A s0 s1) => ?_) ?_; clear_value s1; rotate_left; subst s1; rotate_left)
    | lift_lets
    | with_reducible apply State.modPort_upd
    | with_reducible apply State.identIn_upd
    | split
    | dsimp only

theorem State.identDone_upd {A : Fld → Bool} {s0 s : State} (x1 : ℕ) (x2 : IdentInfo) (h : Upd A s0 s) (a_regs : A .regs = true) (a_ports : A .ports = true) (a_clhIn : A .clhIn = true) : Upd A s0 (State.identDone s x1 x2) := by
  unfold State.identDone
  repeat' first
    | with_reducible assumption
    | lift_lets
    | with_reducible apply State.narrowCheck_upd
    | with_reducible apply State.set_upd
    | with_reducible apply State.agreeWidth_upd
    | with_reducible apply State.enterSpeedEq_upd
    | with_reducible apply State.enterParam_upd
    | split
    | dsimp only

theorem execIdentSig_upd_eq {A : Fld → Bool} {s0 s : State} {x1 : PortNo} {t : State} (h : Upd A s0 s) (e : execIdentSig x1 s = .next t) (a_regs : A .regs = true) (a_ports : A .ports = true) (a_hls : A .hls = true) (a_fns : A .fns = true) (a_clhIn : A .clhIn = true) (a_tptIn : A .tptIn = true) (a_relayIn : A .relayIn = true) (a_mgIn : A .mgIn = true) (a_mcIn : A .mcIn = true) (a_fifelIn : A .fifelIn = true) (a_samples : A .samples = true) (a_sampleLost : A .sampleLost = true) (a_clh : A .clh = true) (a_rotate : A .rotate = true) (a_freeCtr : A .freeCtr = true) (a_nextId : A .nextId = true) (a_out : A .out = true) : Upd A s0 t := by
  unfold execIdentSig at e
  cases e
  repeat' first
    | with_reducible assumption
    | (intro x1; clear_value x1)
    | (intro x1; have x2 := fun a => x1 a; clear x2; subst x1)
    | intro x1
    | lift_lets
    | with_reducible apply State.modPort_upd
    | with_reducible apply State.holdPort_upd
    | with_reducible apply State.identDone_upd
    | split
    | dsimp only
    | dsimp +zetaDelta only

theorem execEqualizationDone_upd_eq {A : Fld → Bool} {s0 s : State} {x1 : PortNo} {x2 : BitVec 8} {t : State} (h : Upd A s0 s) (e : execEqualizationDone x1 x2 s = .next t) (a_regs : A .regs = true) (a_ports : A .ports = true) (a_hls : A .hls = true) (a_fns : A .fns = true) (a_clhIn : A .clhIn = true) (a_tptIn : A .tptIn = true) (a_relayIn : A .relayIn = true) (a_mgIn : A .mgIn = true) (a_mcIn : A .mcIn = true) (a_fifelIn : A .fifelIn = true) (a_samples : A .samples = true) (a_sampleLost : A .sampleLost = true) (a_clh : A .clh = true) (a_rotate : A .rotate = true) (a_freeCtr : A .freeCtr = true) (a_nextId : A .nextId = true) (a_out : A .out = true) : Upd A s0 t := by
  unfold execEqualizationDone at e
  cases e
  repeat' first
    | with_reducible assumption
    | intro x1
    | (intro x1; clear_value x1)
    | (intro s1; refine (fun (hs1 : Upd A s0 s1) => ?_) ?_; clear_value s1; rotate_left; subst s1; rotate_left)
    | lift_lets
    | with_reducible apply State.modPort_upd
    | with_reducible apply State.narrowCheck_upd
    | with_reducible apply State.set_upd
    | with_reducible apply State.agreeWidth_upd
    | with_reducible apply State.enterSpeedEq_upd
    | with_reducible apply State.retryReset_upd
    | split
    | with_reducible apply Upd.getD
    | dsimp only

theorem execHeldProbe_upd_eq {A : Fld → Bool} {s0 s : State} {x1 : PortNo} {x2 : BitVec 8} {t : State} (h : Upd A s0 s) (e : execHeldProbe x1 x2 s = .next t) (a_regs : A .regs = true) (a_ports : A .ports = true) (a_hls : A .hls = true) (a_fns : A .fns = true) (a_clhIn : A .clhIn = true) (a_tptIn : A .tptIn = true) (a_relayIn : A .relayIn = true) (a_mgIn : A .mgIn = true) (a_mcIn : A .mcIn = true) (a_fifelIn : A .fifelIn = true) (a_samples : A .samples = true) (a_sampleLost : A .sampleLost = true) (a_clh : A .clh = true) (a_rotate : A .rotate = true) (a_freeCtr : A .freeCtr = true) (a_nextId : A .nextId = true) (a_out : A .out = true) : Upd A s0 t := by
  unfold execHeldProbe at e
  cases e
  repeat' first
    | with_reducible assumption
    | lift_lets
    | with_reducible apply State.modPort_upd
    | with_reducible apply State.settle_upd
    | with_reducible apply State.startReset_upd
    | split

theorem State.reachWrite_upd {A : Fld → Bool} {s0 s : State} (x1 : ℕ) (x2 : ℕ) (h : Upd A s0 s) (a_regs : A .regs = true) (a_clhIn : A .clhIn = true) : Upd A s0 (State.reachWrite s x1 x2) := by
  unfold State.reachWrite
  repeat' first
    | with_reducible assumption
    | (intro s1; refine (fun (hs1 : Upd A s0 s1) => ?_) ?_; clear_value s1; rotate_left; subst s1; rotate_left)
    | (intro x1; clear_value x1)
    | lift_lets
    | with_reducible apply State.set_upd
    | with_reducible apply State.raise_upd
    | split

end Sys2Proof.Machine
end

