-- ==== Sys2Proof/Laws/FrameCell.lean ====
section
/-!
SUPPORT. Laws/FrameCell.lean: which parts of State each operation of Machine/Cell.lean may change, and that it keeps the invariant.
-/
namespace Sys2Proof.Machine
set_option linter.unusedTactic false
set_option linter.unreachableTactic false
set_option linter.unusedVariables false

theorem State.cellActive_upd {A : Fld → Bool} {s0 s : State} (x1 : ℕ) (h : Upd A s0 s) (a_regs : A .regs = true) (a_ports : A .ports = true) (a_hls : A .hls = true) (a_fns : A .fns = true) (a_clhIn : A .clhIn = true) (a_tptIn : A .tptIn = true) (a_mcIn : A .mcIn = true) (a_fifelIn : A .fifelIn = true) (a_samples : A .samples = true) (a_sampleLost : A .sampleLost = true) (a_clh : A .clh = true) (a_izg : A .izg = true) (a_rotate : A .rotate = true) (a_freeCtr : A .freeCtr = true) (a_nextId : A .nextId = true) (a_out : A .out = true) : Upd A s0 (State.cellActive s x1) := by
  unfold State.cellActive
  repeat' first
    | with_reducible assumption
    | intro x1
    | (intro x1; clear_value x1)
    | (intro s1; refine (fun (hs1 : Upd A s0 s1) => ?_) ?_; clear_value s1; rotate_left; subst s1; rotate_left)
    | lift_lets
    | with_reducible apply State.modPort_upd
    | with_reducible apply State.enterActive_upd
    | split
    | dsimp only

theorem State.cellAck_upd {A : Fld → Bool} {s0 s : State} (x1 : ℕ) (x2 : ℕ) (h : Upd A s0 s) (a_ports : A .ports = true) : Upd A s0 (State.cellAck s x1 x2) := by
  unfold State.cellAck
  repeat' first
    | with_reducible assumption
    | lift_lets
    | with_reducible apply State.modPort_upd

theorem State.fifelScope_upd {A : Fld → Bool} {s0 s : State} (x1 : ℕ) (h : Upd A s0 s) (a_clhIn : A .clhIn = true) : Upd A s0 (State.fifelScope s x1) := by
  unfold State.fifelScope
  repeat' first
    | with_reducible assumption
    | lift_lets
    | with_reducible apply State.raise_upd

theorem State.cellForm_upd {A : Fld → Bool} {s0 s : State} (x1 : ℕ) (x2 : ℕ) (x3 : List Cell) (h : Upd A s0 s) (a_regs : A .regs = true) (a_ports : A .ports = true) (a_hls : A .hls = true) (a_fns : A .fns = true) (a_clhIn : A .clhIn = true) (a_tptIn : A .tptIn = true) (a_mcIn : A .mcIn = true) (a_fifelIn : A .fifelIn = true) (a_samples : A .samples = true) (a_sampleLost : A .sampleLost = true) (a_clh : A .clh = true) (a_rotate : A .rotate = true) (a_freeCtr : A .freeCtr = true) (a_nextId : A .nextId = true) (a_out : A .out = true) : Upd A s0 (State.cellForm s x1 x2 x3) := by
  unfold State.cellForm
  repeat' first
    | with_reducible assumption
    | intro x1
    | (intro s1; refine (fun (hs1 : Upd A s0 s1) => ?_) ?_; clear_value s1; rotate_left; subst s1; rotate_left)
    | (intro x1; clear_value x1)
    | lift_lets
    | with_reducible apply State.modPort_upd
    | with_reducible apply State.injectDrop_upd
    | with_reducible apply State.fifelScope_upd
    | split
    | with_reducible apply Upd.getD
    | dsimp only

theorem State.cellTake_upd {A : Fld → Bool} {s0 s : State} (x1 : ℕ) (x2 : Cell) (h : Upd A s0 s) (a_regs : A .regs = true) (a_ports : A .ports = true) (a_hls : A .hls = true) (a_fns : A .fns = true) (a_clhIn : A .clhIn = true) (a_tptIn : A .tptIn = true) (a_mcIn : A .mcIn = true) (a_fifelIn : A .fifelIn = true) (a_samples : A .samples = true) (a_sampleLost : A .sampleLost = true) (a_clh : A .clh = true) (a_rotate : A .rotate = true) (a_freeCtr : A .freeCtr = true) (a_nextId : A .nextId = true) (a_out : A .out = true) : Upd A s0 (State.cellTake s x1 x2) := by
  unfold State.cellTake
  repeat' first
    | with_reducible assumption
    | intro x1
    | (intro x1; clear_value x1)
    | (intro s1; refine (fun (hs1 : Upd A s0 s1) => ?_) ?_; clear_value s1; rotate_left; subst s1; rotate_left)
    | lift_lets
    | with_reducible apply State.modPort_upd
    | with_reducible apply State.cellForm_upd
    | split
    | with_reducible apply Upd.getD
    | dsimp only

theorem State.cellDown_upd {A : Fld → Bool} {s0 s : State} (x1 : ℕ) (h : Upd A s0 s) (a_regs : A .regs = true) (a_ports : A .ports = true) (a_hls : A .hls = true) (a_fns : A .fns = true) (a_clhIn : A .clhIn = true) (a_tptIn : A .tptIn = true) (a_relayIn : A .relayIn = true) (a_mgIn : A .mgIn = true) (a_mcIn : A .mcIn = true) (a_fifelIn : A .fifelIn = true) (a_samples : A .samples = true) (a_sampleLost : A .sampleLost = true) (a_clh : A .clh = true) (a_rotate : A .rotate = true) (a_freeCtr : A .freeCtr = true) (a_nextId : A .nextId = true) (a_out : A .out = true) : Upd A s0 (State.cellDown s x1) := by
  unfold State.cellDown
  repeat' first
    | with_reducible assumption
    | lift_lets
    | with_reducible apply State.linkDown_upd
    | with_reducible apply State.free_upd
    | with_reducible refine Upd.ofSnd (by assumption) ?_

theorem State.cellCarried_upd {A : Fld → Bool} {s0 s : State} (x1 : ℕ) (x2 : Cell) (h : Upd A s0 s) (a_ports : A .ports = true) : Upd A s0 (State.cellCarried s x1 x2) := by
  unfold State.cellCarried
  repeat' first
    | with_reducible assumption
    | intro x1
    | lift_lets
    | with_reducible apply State.cellAck_upd
    | with_reducible apply State.modPort_upd
    | split
    | dsimp only

theorem State.cellCount_upd {A : Fld → Bool} {s0 s : State} (x1 : ℕ) (h : Upd A s0 s) (a_regs : A .regs = true) (a_ports : A .ports = true) : Upd A s0 (State.cellCount s x1) := by
  unfold State.cellCount
  repeat' first
    | with_reducible assumption
    | (intro s1; refine (fun (hs1 : Upd A s0 s1) => ?_) ?_; clear_value s1; rotate_left; subst s1; rotate_left)
    | (intro x1; clear_value x1)
    | intro x1
    | lift_lets
    | with_reducible apply State.modPort_upd
    | with_reducible apply State.set_upd
    | split
    | dsimp only

theorem execCellReceive_upd_eq {A : Fld → Bool} {s0 s : State} {x1 : PortNo} {x2 : Flit} {x3 : CwErrs} {t : State} (h : Upd A s0 s) (e : execCellReceive x1 x2 x3 s = .next t) (a_regs : A .regs = true) (a_ports : A .ports = true) (a_hls : A .hls = true) (a_fns : A .fns = true) (a_clhIn : A .clhIn = true) (a_tptIn : A .tptIn = true) (a_relayIn : A .relayIn = true) (a_mgIn : A .mgIn = true) (a_mcIn : A .mcIn = true) (a_fifelIn : A .fifelIn = true) (a_samples : A .samples = true) (a_sampleLost : A .sampleLost = true) (a_clh : A .clh = true) (a_izg : A .izg = true) (a_rotate : A .rotate = true) (a_freeCtr : A .freeCtr = true) (a_nextId : A .nextId = true) (a_out : A .out = true) : Upd A s0 t := by
  unfold execCellReceive at e
  cases e
  repeat' first
    | with_reducible assumption
    | intro x1
    | (intro s1; refine (fun (hs1 : Upd A s0 s1) => ?_) ?_; clear_value s1; rotate_left; subst s1; rotate_left)
    | (intro x1; clear_value x1)
    | lift_lets
    | with_reducible apply State.modPort_upd
    | with_reducible apply State.cellDown_upd
    | with_reducible apply State.linkProto_upd
    | with_reducible apply State.cellActive_upd
    | with_reducible apply State.cellTake_upd
    | with_reducible apply State.cellCarried_upd
    | with_reducible apply State.cellCount_upd
    | with_reducible apply State.decoded_upd
    | with_reducible apply State.pcsTakeCell_upd
    | with_reducible refine Upd.ofSnd2 (by assumption) ?_
    | split
    | dsimp only

theorem execCellAckTimeout_upd_eq {A : Fld → Bool} {s0 s : State} {x1 : PortNo} {t : State} (h : Upd A s0 s) (e : execCellAckTimeout x1 s = .next t) (a_regs : A .regs = true) (a_ports : A .ports = true) (a_hls : A .hls = true) (a_fns : A .fns = true) (a_clhIn : A .clhIn = true) (a_tptIn : A .tptIn = true) (a_relayIn : A .relayIn = true) (a_mgIn : A .mgIn = true) (a_mcIn : A .mcIn = true) (a_fifelIn : A .fifelIn = true) (a_samples : A .samples = true) (a_sampleLost : A .sampleLost = true) (a_clh : A .clh = true) (a_rotate : A .rotate = true) (a_freeCtr : A .freeCtr = true) (a_nextId : A .nextId = true) (a_out : A .out = true) : Upd A s0 t := by
  unfold execCellAckTimeout at e
  cases e
  repeat' first
    | with_reducible assumption
    | intro x1
    | lift_lets
    | with_reducible apply State.cellDown_upd
    | split
    | dsimp only

theorem execFifelPacket_upd_eq {A : Fld → Bool} {s0 s : State} {t : State} (h : Upd A s0 s) (e : execFifelPacket s = .next t) (a_regs : A .regs = true) (a_ports : A .ports = true) (a_hls : A .hls = true) (a_fns : A .fns = true) (a_clhIn : A .clhIn = true) (a_fifelIn : A .fifelIn = true) (a_out : A .out = true) : Upd A s0 t := by
  unfold execFifelPacket at e
  cases e
  repeat' first
    | with_reducible assumption
    | intro x1
    | (intro s1; refine (fun (hs1 : Upd A s0 s1) => ?_) ?_; clear_value s1; rotate_left; subst s1; rotate_left)
    | lift_lets
    | with_reducible apply State.modPort_upd
    | with_reducible apply State.fifelScope_upd
    | with_reducible apply State.raise_upd
    | with_reducible apply State.tallyHit_upd
    | split
    | exact { h with fifelIn := .inl a_fifelIn, keeps := fun i => { h.keeps i with } }
    | dsimp only
    | with_reducible apply Upd.to_fifelIn

end Sys2Proof.Machine
end

