-- ==== Sys2Proof/Laws/FramePower.lean ====
section
/-!
SUPPORT. Laws/FramePower.lean: which parts of State each operation of Machine/Power.lean may change, and that it keeps the invariant.
-/
namespace Sys2Proof.Machine
set_option linter.unusedTactic false
set_option linter.unreachableTactic false
set_option linter.unusedVariables false

theorem State.tryQuiet_upd {A : Fld → Bool} {s0 s : State} (x1 : ℕ) (h : Upd A s0 s) (a_ports : A .ports = true) : Upd A s0 (State.tryQuiet s x1) := by
  unfold State.tryQuiet
  repeat' first
    | with_reducible assumption
    | intro x1
    | (intro x1; clear_value x1)
    | lift_lets
    | with_reducible apply State.modPort_upd
    | with_reducible apply State.ctrlSend_upd
    | split
    | dsimp only

theorem State.wakePort_upd {A : Fld → Bool} {s0 s : State} (x1 : ℕ) (h : Upd A s0 s) (a_ports : A .ports = true) : Upd A s0 (State.wakePort s x1) := by
  unfold State.wakePort
  repeat' first
    | with_reducible assumption
    | intro x1
    | (intro s1; refine (fun (hs1 : Upd A s0 s1) => ?_) ?_; clear_value s1; rotate_left; subst s1; rotate_left)
    | lift_lets
    | with_reducible apply State.modPort_upd
    | split
    | dsimp only

theorem State.setDom_upd {A : Fld → Bool} {s0 s : State} (x1 : ℕ) (x2 : ℕ) (h : Upd A s0 s) (a_regs : A .regs = true) : Upd A s0 (State.setDom s x1 x2) := by
  unfold State.setDom
  repeat' first
    | with_reducible assumption
    | lift_lets
    | with_reducible apply State.set_upd

theorem State.railForWake_upd {A : Fld → Bool} {s0 s : State} (h : Upd A s0 s) (a_pwr : A .pwr = true) (a_freeCtr : A .freeCtr = true) (a_out : A .out = true) : Upd A s0 (State.railForWake s) := by
  unfold State.railForWake
  repeat' first
    | with_reducible assumption
    | (intro x1; have x2 : Pwr := x1; clear x2; subst x1)
    | (intro x1; clear_value x1)
    | intro x1
    | lift_lets
    | with_reducible apply State.emit_upd
    | with_reducible apply State.free_upd
    | with_reducible refine Upd.ofSnd (by assumption) ?_
    | split
    | dsimp only
    | refine Upd.to_pwr _ ?_ (by assumption) (fun _ i => i.lossArea)

theorem State.startWake_upd {A : Fld → Bool} {s0 s : State} (x1 : ℕ) (h : Upd A s0 s) (a_regs : A .regs = true) (a_pwr : A .pwr = true) (a_freeCtr : A .freeCtr = true) (a_out : A .out = true) : Upd A s0 (State.startWake s x1) := by
  unfold State.startWake
  repeat' first
    | with_reducible assumption
    | intro x1
    | (intro x1; clear_value x1)
    | (intro s1; refine (fun (hs1 : Upd A s0 s1) => ?_) ?_; clear_value s1; rotate_left; subst s1; rotate_left)
    | (intro x1; have x2 : Clh := x1; clear x2; subst x1)
    | (intro x1; have x2 : Pwr := x1; clear x2; subst x1)
    | (intro x1; have x2 : Izg := x1; clear x2; subst x1)
    | lift_lets
    | with_reducible apply State.set_upd
    | with_reducible apply State.setDom_upd
    | with_reducible apply State.railForWake_upd
    | split
    | refine Upd.to_pwr _ ?_ (by assumption) (fun _ i => i.lossArea)
    | dsimp only

theorem State.domOff_upd {A : Fld → Bool} {s0 s : State} (x1 : ℕ) (h : Upd A s0 s) (a_regs : A .regs = true) (a_fns : A .fns = true) (a_pwr : A .pwr = true) : Upd A s0 (State.domOff s x1) := by
  unfold State.domOff
  repeat' first
    | with_reducible assumption
    | (intro s1; refine (fun (hs1 : Upd A s0 s1) => ?_) ?_; clear_value s1; rotate_left; subst s1; rotate_left)
    | (intro x1; have x2 : Clh := x1; clear x2; subst x1)
    | (intro x1; have x2 : Pwr := x1; clear x2; subst x1)
    | (intro x1; have x2 : Izg := x1; clear x2; subst x1)
    | intro x1
    | lift_lets
    | with_reducible apply State.set_upd
    | with_reducible apply State.setDom_upd
    | with_reducible apply Upd.fold
    | split
    | refine Upd.to_fns _ ?_ (by assumption) (fun _ i => tasc_filter _ i.fns)
    | refine Upd.to_pwr _ ?_ (by assumption) (fun _ i => i.lossArea)

theorem State.tileCheck_upd {A : Fld → Bool} {s0 s : State} (x1 : ℕ) (h : Upd A s0 s) (a_regs : A .regs = true) (a_fns : A .fns = true) (a_pwr : A .pwr = true) (a_freeCtr : A .freeCtr = true) (a_out : A .out = true) : Upd A s0 (State.tileCheck s x1) := by
  unfold State.tileCheck
  repeat' first
    | with_reducible assumption
    | (intro s1; refine (fun (hs1 : Upd A s0 s1) => ?_) ?_; clear_value s1; rotate_left; subst s1; rotate_left)
    | intro x1
    | lift_lets
    | with_reducible apply State.domOff_upd
    | with_reducible apply State.setDom_upd
    | with_reducible apply State.startWake_upd
    | split
    | dsimp only

theorem State.drop_upd {A : Fld → Bool} {s0 s : State} (x1 : ℕ) (h : Upd A s0 s) (a_regs : A .regs = true) (a_ports : A .ports = true) (a_fns : A .fns = true) (a_pwr : A .pwr = true) (a_freeCtr : A .freeCtr = true) (a_out : A .out = true) : Upd A s0 (State.drop s x1) := by
  unfold State.drop
  repeat' first
    | with_reducible assumption
    | (intro s1; refine (fun (hs1 : Upd A s0 s1) => ?_) ?_; clear_value s1; rotate_left; subst s1; rotate_left)
    | (intro x1; have x2 : Clh := x1; clear x2; subst x1)
    | (intro x1; have x2 : Pwr := x1; clear x2; subst x1)
    | (intro x1; have x2 : Izg := x1; clear x2; subst x1)
    | intro x1
    | lift_lets
    | with_reducible apply State.modPort_upd
    | with_reducible apply State.domOff_upd
    | with_reducible apply State.tileCheck_upd
    | with_reducible apply State.setDom_upd
    | with_reducible apply State.tryQuiet_upd
    | with_reducible apply Upd.fold
    | split
    | refine Upd.to_pwr _ ?_ (by assumption) (fun _ i => i.lossArea)

theorem State.evalDom_upd {A : Fld → Bool} {s0 s : State} (x1 : ℕ) (h : Upd A s0 s) (a_regs : A .regs = true) (a_ports : A .ports = true) (a_fns : A .fns = true) (a_pwr : A .pwr = true) (a_freeCtr : A .freeCtr = true) (a_out : A .out = true) : Upd A s0 (State.evalDom s x1) := by
  unfold State.evalDom
  repeat' first
    | with_reducible assumption
    | (intro s1; refine (fun (hs1 : Upd A s0 s1) => ?_) ?_; clear_value s1; rotate_left; subst s1; rotate_left)
    | (intro x1; have x2 : Pwr := x1; clear x2; subst x1)
    | (intro x1; clear_value x1)
    | intro x1
    | lift_lets
    | with_reducible apply State.drop_upd
    | with_reducible apply State.startWake_upd
    | with_reducible apply State.wakePort_upd
    | with_reducible apply Upd.fold
    | split
    | dsimp only
    | refine Upd.to_pwr _ ?_ (by assumption) (fun _ i => i.lossArea)

theorem State.evalAll_upd {A : Fld → Bool} {s0 s : State} (h : Upd A s0 s) (a_regs : A .regs = true) (a_ports : A .ports = true) (a_fns : A .fns = true) (a_pwr : A .pwr = true) (a_freeCtr : A .freeCtr = true) (a_out : A .out = true) : Upd A s0 (State.evalAll s) := by
  unfold State.evalAll
  repeat' first
    | with_reducible assumption
    | (intro x1; have x2 : Clh := x1; clear x2; subst x1)
    | (intro x1; have x2 : Pwr := x1; clear x2; subst x1)
    | (intro x1; have x2 : Izg := x1; clear x2; subst x1)
    | intro x1
    | lift_lets
    | with_reducible apply State.evalDom_upd
    | with_reducible apply Upd.fold

theorem State.impliedUpd_upd {A : Fld → Bool} {s0 s : State} (h : Upd A s0 s) (a_regs : A .regs = true) : Upd A s0 (State.impliedUpd s) := by
  unfold State.impliedUpd
  repeat' first
    | with_reducible assumption
    | (intro s1; refine (fun (hs1 : Upd A s0 s1) => ?_) ?_; clear_value s1; rotate_left; subst s1; rotate_left)
    | intro x1
    | lift_lets
    | with_reducible apply State.setB_upd
    | with_reducible apply Upd.fold

theorem State.enterAwake_upd {A : Fld → Bool} {s0 s : State} (x1 : ℕ) (h : Upd A s0 s) (a_regs : A .regs = true) (a_ports : A .ports = true) (a_hls : A .hls = true) (a_fns : A .fns = true) (a_clhIn : A .clhIn = true) (a_tptIn : A .tptIn = true) (a_mcIn : A .mcIn = true) (a_fifelIn : A .fifelIn = true) (a_samples : A .samples = true) (a_sampleLost : A .sampleLost = true) (a_clh : A .clh = true) (a_pwr : A .pwr = true) (a_boot : A .boot = true) (a_rotate : A .rotate = true) (a_freeCtr : A .freeCtr = true) (a_nextId : A .nextId = true) (a_out : A .out = true) : Upd A s0 (State.enterAwake s x1) := by
  unfold State.enterAwake
  repeat' first
    | with_reducible assumption
    | (intro s1; refine (fun (hs1 : Upd A s0 s1) => ?_) ?_; clear_value s1; rotate_left; subst s1; rotate_left)
    | (intro x1; clear_value x1)
    | intro x1
    | lift_lets
    | with_reducible apply State.enterPwr_upd
    | with_reducible apply State.evalAll_upd
    | with_reducible apply State.modPort_upd
    | with_reducible apply State.startPasses_upd
    | with_reducible apply Upd.fold
    | split
    | dsimp only

theorem State.beaconReset_upd {A : Fld → Bool} {s0 s : State} (x1 : ℕ) (h : Upd A s0 s) (a_regs : A .regs = true) (a_ports : A .ports = true) (a_hls : A .hls = true) (a_fns : A .fns = true) (a_clhIn : A .clhIn = true) (a_tptIn : A .tptIn = true) (a_relayIn : A .relayIn = true) (a_mgIn : A .mgIn = true) (a_mcIn : A .mcIn = true) (a_fifelIn : A .fifelIn = true) (a_samples : A .samples = true) (a_sampleLost : A .sampleLost = true) (a_clh : A .clh = true) (a_rotate : A .rotate = true) (a_freeCtr : A .freeCtr = true) (a_nextId : A .nextId = true) (a_out : A .out = true) : Upd A s0 (State.beaconReset s x1) := by
  unfold State.beaconReset
  repeat' first
    | with_reducible assumption
    | intro x1
    | lift_lets
    | with_reducible apply State.linkReset_upd
    | with_reducible apply State.startReset_upd
    | split
    | dsimp only

theorem State.enterVigil_upd {A : Fld → Bool} {s0 s : State} (h : Upd A s0 s) (a_regs : A .regs = true) (a_ports : A .ports = true) (a_hls : A .hls = true) (a_fns : A .fns = true) (a_clhIn : A .clhIn = true) (a_tptIn : A .tptIn = true) (a_relayIn : A .relayIn = true) (a_mgIn : A .mgIn = true) (a_mcIn : A .mcIn = true) (a_fifelIn : A .fifelIn = true) (a_samples : A .samples = true) (a_sampleLost : A .sampleLost = true) (a_clh : A .clh = true) (a_pwr : A .pwr = true) (a_boot : A .boot = true) (a_rotate : A .rotate = true) (a_freeCtr : A .freeCtr = true) (a_nextId : A .nextId = true) (a_out : A .out = true) : Upd A s0 (State.enterVigil s) := by
  unfold State.enterVigil
  repeat' first
    | with_reducible assumption
    | (intro s1; refine (fun (hs1 : Upd A s0 s1) => ?_) ?_; clear_value s1; rotate_left; subst s1; rotate_left)
    | (intro x1; clear_value x1)
    | intro x1
    | lift_lets
    | with_reducible apply State.enterPwr_upd
    | with_reducible apply State.enterSvc_upd
    | with_reducible apply State.evalAll_upd
    | with_reducible apply State.modPort_upd
    | with_reducible apply State.settle_upd
    | with_reducible apply State.tryQuiet_upd
    | with_reducible apply State.withCoord_upd
    | with_reducible apply State.beaconReset_upd
    | with_reducible apply State.stopUpgrade_upd
    | with_reducible apply Upd.fold
    | split
    | dsimp only

theorem State.vote_upd {A : Fld → Bool} {s0 s : State} (x1 : ℕ) (x2 : ℕ) (x3 : Bool) (h : Upd A s0 s) (a_regs : A .regs = true) (a_ports : A .ports = true) (a_hls : A .hls = true) (a_fns : A .fns = true) (a_clhIn : A .clhIn = true) (a_tptIn : A .tptIn = true) (a_mcIn : A .mcIn = true) (a_fifelIn : A .fifelIn = true) (a_samples : A .samples = true) (a_sampleLost : A .sampleLost = true) (a_clh : A .clh = true) (a_pwr : A .pwr = true) (a_boot : A .boot = true) (a_rotate : A .rotate = true) (a_freeCtr : A .freeCtr = true) (a_nextId : A .nextId = true) (a_out : A .out = true) : Upd A s0 (State.vote s x1 x2 x3) := by
  unfold State.vote
  repeat' first
    | with_reducible assumption
    | (intro s1; refine (fun (hs1 : Upd A s0 s1) => ?_) ?_; clear_value s1; rotate_left; subst s1; rotate_left)
    | (intro x1; have x2 : Clh := x1; clear x2; subst x1)
    | (intro x1; have x2 : Pwr := x1; clear x2; subst x1)
    | (intro x1; have x2 : Izg := x1; clear x2; subst x1)
    | (intro x1; clear_value x1)
    | lift_lets
    | with_reducible apply State.impliedUpd_upd
    | with_reducible apply State.evalDom_upd
    | with_reducible apply State.enterAwake_upd
    | with_reducible apply State.set_upd
    | with_reducible apply Upd.fold
    | split

theorem State.activityUpd_upd {A : Fld → Bool} {s0 s : State} (h : Upd A s0 s) (a_regs : A .regs = true) (a_ports : A .ports = true) (a_hls : A .hls = true) (a_fns : A .fns = true) (a_clhIn : A .clhIn = true) (a_tptIn : A .tptIn = true) (a_mcIn : A .mcIn = true) (a_fifelIn : A .fifelIn = true) (a_samples : A .samples = true) (a_sampleLost : A .sampleLost = true) (a_clh : A .clh = true) (a_pwr : A .pwr = true) (a_boot : A .boot = true) (a_rotate : A .rotate = true) (a_freeCtr : A .freeCtr = true) (a_nextId : A .nextId = true) (a_out : A .out = true) : Upd A s0 (State.activityUpd s) := by
  unfold State.activityUpd
  repeat' first
    | with_reducible assumption
    | (intro s1; refine (fun (hs1 : Upd A s0 s1) => ?_) ?_; clear_value s1; rotate_left; subst s1; rotate_left)
    | intro x1
    | lift_lets
    | with_reducible apply State.vote_upd
    | with_reducible apply Upd.fold

theorem State.hostVotes_upd {A : Fld → Bool} {s0 s : State} (x1 : ℕ) (h : Upd A s0 s) (a_regs : A .regs = true) (a_ports : A .ports = true) (a_hls : A .hls = true) (a_fns : A .fns = true) (a_clhIn : A .clhIn = true) (a_tptIn : A .tptIn = true) (a_mcIn : A .mcIn = true) (a_fifelIn : A .fifelIn = true) (a_samples : A .samples = true) (a_sampleLost : A .sampleLost = true) (a_clh : A .clh = true) (a_pwr : A .pwr = true) (a_boot : A .boot = true) (a_rotate : A .rotate = true) (a_freeCtr : A .freeCtr = true) (a_nextId : A .nextId = true) (a_out : A .out = true) : Upd A s0 (State.hostVotes s x1) := by
  unfold State.hostVotes
  repeat' first
    | with_reducible assumption
    | intro x1
    | lift_lets
    | with_reducible apply State.vote_upd
    | with_reducible apply Upd.fold

theorem State.castLease_upd {A : Fld → Bool} {s0 s : State} (x1 : ℕ) (x2 : ℕ) (h : Upd A s0 s) (a_regs : A .regs = true) (a_ports : A .ports = true) (a_hls : A .hls = true) (a_fns : A .fns = true) (a_clhIn : A .clhIn = true) (a_tptIn : A .tptIn = true) (a_mcIn : A .mcIn = true) (a_fifelIn : A .fifelIn = true) (a_samples : A .samples = true) (a_sampleLost : A .sampleLost = true) (a_clh : A .clh = true) (a_pwr : A .pwr = true) (a_boot : A .boot = true) (a_rotate : A .rotate = true) (a_freeCtr : A .freeCtr = true) (a_nextId : A .nextId = true) (a_out : A .out = true) : Upd A s0 (State.castLease s x1 x2) := by
  unfold State.castLease
  repeat' first
    | with_reducible assumption
    | (intro s1; refine (fun (hs1 : Upd A s0 s1) => ?_) ?_; clear_value s1; rotate_left; subst s1; rotate_left)
    | (intro x1; have x2 : Clh := x1; clear x2; subst x1)
    | (intro x1; have x2 : Pwr := x1; clear x2; subst x1)
    | (intro x1; have x2 : Izg := x1; clear x2; subst x1)
    | lift_lets
    | with_reducible apply State.vote_upd
    | split
    | refine Upd.to_pwr _ ?_ (by assumption) (fun _ i => i.lossArea)

theorem execFmVote_upd_eq {A : Fld → Bool} {s0 s : State} {t : State} (h : Upd A s0 s) (e : execFmVote s = .next t) (a_regs : A .regs = true) (a_ports : A .ports = true) (a_hls : A .hls = true) (a_fns : A .fns = true) (a_clhIn : A .clhIn = true) (a_tptIn : A .tptIn = true) (a_mcIn : A .mcIn = true) (a_fifelIn : A .fifelIn = true) (a_samples : A .samples = true) (a_sampleLost : A .sampleLost = true) (a_clh : A .clh = true) (a_pwr : A .pwr = true) (a_boot : A .boot = true) (a_izg : A .izg = true) (a_rotate : A .rotate = true) (a_freeCtr : A .freeCtr = true) (a_nextId : A .nextId = true) (a_out : A .out = true) : Upd A s0 t := by
  unfold execFmVote at e
  cases e
  repeat' first
    | with_reducible assumption
    | (intro x1; have x2 : Clh := x1; clear x2; subst x1)
    | (intro x1; have x2 : Pwr := x1; clear x2; subst x1)
    | (intro x1; have x2 : Izg := x1; clear x2; subst x1)
    | intro x1
    | lift_lets
    | with_reducible apply State.vote_upd
    | with_reducible apply Upd.fold
    | split
    | dsimp only
    | refine Upd.to_izg _ ?_ (by assumption) (fun _ i => ⟨Nat.le_trans (takeFirst_le (by assumption)) i.mg, i.summary⟩)

theorem execWake_upd_eq {A : Fld → Bool} {s0 s : State} {t : State} (h : Upd A s0 s) (e : execWake s = .next t) (a_regs : A .regs = true) (a_ports : A .ports = true) (a_hls : A .hls = true) (a_fns : A .fns = true) (a_clhIn : A .clhIn = true) (a_tptIn : A .tptIn = true) (a_mcIn : A .mcIn = true) (a_fifelIn : A .fifelIn = true) (a_qsHere : A .qsHere = true) (a_samples : A .samples = true) (a_sampleLost : A .sampleLost = true) (a_clh : A .clh = true) (a_pwr : A .pwr = true) (a_boot : A .boot = true) (a_rotate : A .rotate = true) (a_freeCtr : A .freeCtr = true) (a_nextId : A .nextId = true) (a_out : A .out = true) : Upd A s0 t := by
  unfold execWake at e
  cases e
  repeat' first
    | with_reducible assumption
    | (intro s1; refine (fun (hs1 : Upd A s0 s1) => ?_) ?_; clear_value s1; rotate_left; subst s1; rotate_left)
    | intro x1
    | lift_lets
    | with_reducible apply State.castLease_upd
    | with_reducible apply Upd.fold
    | split
    | dsimp only
    | exact { h with qsHere := .inl a_qsHere, keeps := fun i => { h.keeps i with } }

theorem execVoteLeaseExpiry_upd_eq {A : Fld → Bool} {s0 s : State} {x1 : Fin 64} {x2 : Bool} {t : State} (h : Upd A s0 s) (e : execVoteLeaseExpiry x1 x2 s = .next t) (a_regs : A .regs = true) (a_ports : A .ports = true) (a_hls : A .hls = true) (a_fns : A .fns = true) (a_clhIn : A .clhIn = true) (a_tptIn : A .tptIn = true) (a_mcIn : A .mcIn = true) (a_fifelIn : A .fifelIn = true) (a_samples : A .samples = true) (a_sampleLost : A .sampleLost = true) (a_clh : A .clh = true) (a_pwr : A .pwr = true) (a_boot : A .boot = true) (a_rotate : A .rotate = true) (a_freeCtr : A .freeCtr = true) (a_nextId : A .nextId = true) (a_out : A .out = true) : Upd A s0 t := by
  unfold execVoteLeaseExpiry at e
  cases e
  repeat' first
    | with_reducible assumption
    | intro x1
    | (intro x1; clear_value x1)
    | (intro x1; have x2 : Clh := x1; clear x2; subst x1)
    | (intro x1; have x2 : Pwr := x1; clear x2; subst x1)
    | (intro x1; have x2 : Izg := x1; clear x2; subst x1)
    | lift_lets
    | with_reducible apply State.vote_upd
    | split
    | refine Upd.to_pwr _ ?_ (by assumption) (fun _ i => i.lossArea)
    | dsimp only

theorem execDropDelayExpiry_upd_eq {A : Fld → Bool} {s0 s : State} {x1 : Fin 64} {t : State} (h : Upd A s0 s) (e : execDropDelayExpiry x1 s = .next t) (a_regs : A .regs = true) (a_ports : A .ports = true) (a_hls : A .hls = true) (a_fns : A .fns = true) (a_clhIn : A .clhIn = true) (a_tptIn : A .tptIn = true) (a_mcIn : A .mcIn = true) (a_fifelIn : A .fifelIn = true) (a_samples : A .samples = true) (a_sampleLost : A .sampleLost = true) (a_clh : A .clh = true) (a_pwr : A .pwr = true) (a_boot : A .boot = true) (a_rotate : A .rotate = true) (a_freeCtr : A .freeCtr = true) (a_nextId : A .nextId = true) (a_out : A .out = true) : Upd A s0 t := by
  unfold execDropDelayExpiry at e
  cases e
  repeat' first
    | with_reducible assumption
    | (intro s1; refine (fun (hs1 : Upd A s0 s1) => ?_) ?_; clear_value s1; rotate_left; subst s1; rotate_left)
    | lift_lets
    | with_reducible apply State.drop_upd
    | with_reducible apply State.activityUpd_upd
    | split

theorem State.padsFree_upd {A : Fld → Bool} {s0 s : State} (x1 : ℕ) (h : Upd A s0 s) (a_regs : A .regs = true) (a_ports : A .ports = true) (a_hls : A .hls = true) (a_fns : A .fns = true) (a_clhIn : A .clhIn = true) (a_tptIn : A .tptIn = true) (a_relayIn : A .relayIn = true) (a_mgIn : A .mgIn = true) (a_mcIn : A .mcIn = true) (a_fifelIn : A .fifelIn = true) (a_samples : A .samples = true) (a_sampleLost : A .sampleLost = true) (a_clh : A .clh = true) (a_rotate : A .rotate = true) (a_freeCtr : A .freeCtr = true) (a_nextId : A .nextId = true) (a_out : A .out = true) : Upd A s0 (State.padsFree s x1) := by
  unfold State.padsFree
  repeat' first
    | with_reducible assumption
    | (intro s1; refine (fun (hs1 : Upd A s0 s1) => ?_) ?_; clear_value s1; rotate_left; subst s1; rotate_left)
    | intro x1
    | lift_lets
    | with_reducible apply State.startReset_upd
    | with_reducible apply State.set_upd
    | with_reducible apply State.settle_upd
    | with_reducible apply Upd.fold
    | split
    | dsimp only

theorem State.padRelease_upd {A : Fld → Bool} {s0 s : State} (x1 : ℕ) (h : Upd A s0 s) (a_regs : A .regs = true) (a_ports : A .ports = true) (a_hls : A .hls = true) (a_fns : A .fns = true) (a_clhIn : A .clhIn = true) (a_tptIn : A .tptIn = true) (a_relayIn : A .relayIn = true) (a_mgIn : A .mgIn = true) (a_mcIn : A .mcIn = true) (a_fifelIn : A .fifelIn = true) (a_samples : A .samples = true) (a_sampleLost : A .sampleLost = true) (a_clh : A .clh = true) (a_pwr : A .pwr = true) (a_rotate : A .rotate = true) (a_freeCtr : A .freeCtr = true) (a_nextId : A .nextId = true) (a_out : A .out = true) : Upd A s0 (State.padRelease s x1) := by
  unfold State.padRelease
  repeat' first
    | with_reducible assumption
    | (intro x1; have x2 : Pwr := x1; clear x2; subst x1)
    | (intro x1; clear_value x1)
    | intro x1
    | lift_lets
    | with_reducible apply State.padsFree_upd
    | split
    | dsimp only
    | refine Upd.to_pwr _ ?_ (by assumption) (fun _ i => i.lossArea)

theorem State.domServe_upd {A : Fld → Bool} {s0 s : State} (x1 : ℕ) (h : Upd A s0 s) (a_regs : A .regs = true) (a_ports : A .ports = true) (a_hls : A .hls = true) (a_fns : A .fns = true) (a_clhIn : A .clhIn = true) (a_tptIn : A .tptIn = true) (a_relayIn : A .relayIn = true) (a_mgIn : A .mgIn = true) (a_mcIn : A .mcIn = true) (a_fifelIn : A .fifelIn = true) (a_samples : A .samples = true) (a_sampleLost : A .sampleLost = true) (a_clh : A .clh = true) (a_pwr : A .pwr = true) (a_boot : A .boot = true) (a_rotate : A .rotate = true) (a_freeCtr : A .freeCtr = true) (a_nextId : A .nextId = true) (a_out : A .out = true) : Upd A s0 (State.domServe s x1) := by
  unfold State.domServe
  repeat' first
    | with_reducible assumption
    | (intro x1; clear_value x1)
    | intro x1
    | lift_lets
    | with_reducible apply State.activityUpd_upd
    | with_reducible apply State.beaconReset_upd
    | with_reducible apply State.settle_upd
    | with_reducible apply State.vaultStep_upd
    | with_reducible apply Upd.fold
    | split
    | dsimp only

theorem State.wakeDone_upd {A : Fld → Bool} {s0 s : State} (x1 : ℕ) (h : Upd A s0 s) (a_regs : A .regs = true) (a_ports : A .ports = true) (a_hls : A .hls = true) (a_fns : A .fns = true) (a_clhIn : A .clhIn = true) (a_tptIn : A .tptIn = true) (a_relayIn : A .relayIn = true) (a_mgIn : A .mgIn = true) (a_mcIn : A .mcIn = true) (a_fifelIn : A .fifelIn = true) (a_samples : A .samples = true) (a_sampleLost : A .sampleLost = true) (a_clh : A .clh = true) (a_pwr : A .pwr = true) (a_boot : A .boot = true) (a_rotate : A .rotate = true) (a_freeCtr : A .freeCtr = true) (a_nextId : A .nextId = true) (a_out : A .out = true) : Upd A s0 (State.wakeDone s x1) := by
  unfold State.wakeDone
  repeat' first
    | with_reducible assumption
    | intro x1
    | (intro x1; clear_value x1)
    | (intro s1; refine (fun (hs1 : Upd A s0 s1) => ?_) ?_; clear_value s1; rotate_left; subst s1; rotate_left)
    | (intro x1; have x2 : Clh := x1; clear x2; subst x1)
    | (intro x1; have x2 : Pwr := x1; clear x2; subst x1)
    | (intro x1; have x2 : Izg := x1; clear x2; subst x1)
    | lift_lets
    | with_reducible apply State.bump_upd
    | with_reducible apply State.evalDom_upd
    | with_reducible apply State.set_upd
    | with_reducible apply State.padsFree_upd
    | with_reducible apply State.setDom_upd
    | with_reducible apply State.domServe_upd
    | with_reducible apply Upd.fold
    | split
    | with_reducible refine Upd.to_pwr _ ?_ (by assumption) (fun _ i => i.lossArea)
    | dsimp only
    | refine Upd.to_pwr _ ?_ (by assumption) (fun _ i => i.lossArea)

theorem execWakeStepReady_upd_eq {A : Fld → Bool} {s0 s : State} {x1 : Fin 64} {t : State} (h : Upd A s0 s) (e : execWakeStepReady x1 s = .next t) (a_regs : A .regs = true) (a_ports : A .ports = true) (a_hls : A .hls = true) (a_fns : A .fns = true) (a_clhIn : A .clhIn = true) (a_tptIn : A .tptIn = true) (a_relayIn : A .relayIn = true) (a_mgIn : A .mgIn = true) (a_mcIn : A .mcIn = true) (a_fifelIn : A .fifelIn = true) (a_samples : A .samples = true) (a_sampleLost : A .sampleLost = true) (a_clh : A .clh = true) (a_pwr : A .pwr = true) (a_boot : A .boot = true) (a_rotate : A .rotate = true) (a_freeCtr : A .freeCtr = true) (a_nextId : A .nextId = true) (a_out : A .out = true) : Upd A s0 t := by
  unfold execWakeStepReady at e
  cases e
  repeat' first
    | with_reducible assumption
    | (intro s1; refine (fun (hs1 : Upd A s0 s1) => ?_) ?_; clear_value s1; rotate_left; subst s1; rotate_left)
    | intro x1
    | lift_lets
    | with_reducible apply State.wakeDone_upd
    | with_reducible apply State.set_upd
    | with_reducible apply State.setDom_upd
    | with_reducible apply Upd.fold
    | split

theorem execWakeFail_upd_eq {A : Fld → Bool} {s0 s : State} {x1 : Fin 64} {t : State} (h : Upd A s0 s) (e : execWakeFail x1 s = .next t) (a_regs : A .regs = true) (a_clhIn : A .clhIn = true) (a_pwr : A .pwr = true) (a_freeCtr : A .freeCtr = true) : Upd A s0 t := by
  unfold execWakeFail at e
  cases e
  repeat' first
    | with_reducible assumption
    | (intro s1; refine (fun (hs1 : Upd A s0 s1) => ?_) ?_; clear_value s1; rotate_left; subst s1; rotate_left)
    | (intro x1; have x2 : Clh := x1; clear x2; subst x1)
    | (intro x1; have x2 : Pwr := x1; clear x2; subst x1)
    | (intro x1; have x2 : Izg := x1; clear x2; subst x1)
    | intro x1
    | lift_lets
    | with_reducible apply State.set_upd
    | with_reducible apply State.free_upd
    | with_reducible apply State.raise_upd
    | with_reducible apply State.setDom_upd
    | with_reducible refine Upd.ofSnd (by assumption) ?_
    | with_reducible apply Upd.fold
    | split
    | refine Upd.to_pwr _ ?_ (by assumption) (fun _ i => i.lossArea)

theorem execWakeRetry_upd_eq {A : Fld → Bool} {s0 s : State} {x1 : Fin 64} {t : State} (h : Upd A s0 s) (e : execWakeRetry x1 s = .next t) (a_regs : A .regs = true) (a_ports : A .ports = true) (a_fns : A .fns = true) (a_pwr : A .pwr = true) (a_freeCtr : A .freeCtr = true) (a_out : A .out = true) : Upd A s0 t := by
  unfold execWakeRetry at e
  cases e
  repeat' first
    | with_reducible assumption
    | (intro x1; have x2 : Clh := x1; clear x2; subst x1)
    | (intro x1; have x2 : Pwr := x1; clear x2; subst x1)
    | (intro x1; have x2 : Izg := x1; clear x2; subst x1)
    | lift_lets
    | with_reducible apply State.evalDom_upd
    | with_reducible apply Upd.fold
    | split
    | refine Upd.to_pwr _ ?_ (by assumption) (fun _ i => i.lossArea)

theorem State.pwrResult_upd {A : Fld → Bool} {s0 s : State} (x1 : ℕ) (x2 : ℕ) (h : Upd A s0 s) (a_regs : A .regs = true) : Upd A s0 (State.pwrResult s x1 x2) := by
  unfold State.pwrResult
  repeat' first
    | with_reducible assumption
    | lift_lets
    | with_reducible apply State.set_upd

theorem State.enterQuiet_upd {A : Fld → Bool} {s0 s : State} (x1 : ℕ) (h : Upd A s0 s) (a_regs : A .regs = true) (a_ports : A .ports = true) (a_hls : A .hls = true) (a_fns : A .fns = true) (a_clhIn : A .clhIn = true) (a_tptIn : A .tptIn = true) (a_mcIn : A .mcIn = true) (a_fifelIn : A .fifelIn = true) (a_samples : A .samples = true) (a_sampleLost : A .sampleLost = true) (a_clh : A .clh = true) (a_pwr : A .pwr = true) (a_rotate : A .rotate = true) (a_freeCtr : A .freeCtr = true) (a_nextId : A .nextId = true) (a_out : A .out = true) : Upd A s0 (State.enterQuiet s x1) := by
  unfold State.enterQuiet
  repeat' first
    | with_reducible assumption
    | (intro s1; refine (fun (hs1 : Upd A s0 s1) => ?_) ?_; clear_value s1; rotate_left; subst s1; rotate_left)
    | intro x1
    | lift_lets
    | with_reducible apply State.modPort_upd
    | with_reducible apply State.tileCheck_upd
    | with_reducible apply State.set_upd
    | with_reducible apply State.adverted_upd
    | with_reducible apply State.settle_upd
    | with_reducible apply Upd.fold
    | split
    | dsimp only

theorem execQuiet_upd_eq {A : Fld → Bool} {s0 s : State} {x1 : PortNo} {t : State} (h : Upd A s0 s) (e : execQuiet x1 s = .next t) (a_regs : A .regs = true) (a_ports : A .ports = true) (a_hls : A .hls = true) (a_fns : A .fns = true) (a_clhIn : A .clhIn = true) (a_tptIn : A .tptIn = true) (a_mcIn : A .mcIn = true) (a_fifelIn : A .fifelIn = true) (a_qsWait : A .qsWait = true) (a_qsInj : A .qsInj = true) (a_samples : A .samples = true) (a_sampleLost : A .sampleLost = true) (a_hmk : A .hmk = true) (a_clh : A .clh = true) (a_pwr : A .pwr = true) (a_rotate : A .rotate = true) (a_freeCtr : A .freeCtr = true) (a_nextId : A .nextId = true) (a_out : A .out = true) : Upd A s0 t := by
  unfold execQuiet at e
  cases e
  repeat' first
    | with_reducible assumption
    | intro x1
    | (intro s1; refine (fun (hs1 : Upd A s0 s1) => ?_) ?_; clear_value s1; rotate_left; subst s1; rotate_left)
    | (intro x1; clear_value x1)
    | lift_lets
    | with_reducible apply State.modPort_upd
    | with_reducible apply State.ctrlSend_upd
    | with_reducible apply State.enterQuiet_upd
    | with_reducible apply State.buildFrame_upd
    | split
    | dsimp only

theorem State.quietBack_upd {A : Fld → Bool} {s0 s : State} (x1 : ℕ) (h : Upd A s0 s) (a_ports : A .ports = true) : Upd A s0 (State.quietBack s x1) := by
  unfold State.quietBack
  repeat' first
    | with_reducible assumption
    | lift_lets
    | with_reducible apply State.modPort_upd

theorem execQuietAck_upd_eq {A : Fld → Bool} {s0 s : State} {x1 : PortNo} {t : State} (h : Upd A s0 s) (e : execQuietAck x1 s = .next t) (a_regs : A .regs = true) (a_ports : A .ports = true) (a_hls : A .hls = true) (a_fns : A .fns = true) (a_clhIn : A .clhIn = true) (a_tptIn : A .tptIn = true) (a_mcIn : A .mcIn = true) (a_fifelIn : A .fifelIn = true) (a_samples : A .samples = true) (a_sampleLost : A .sampleLost = true) (a_clh : A .clh = true) (a_pwr : A .pwr = true) (a_rotate : A .rotate = true) (a_freeCtr : A .freeCtr = true) (a_nextId : A .nextId = true) (a_out : A .out = true) : Upd A s0 t := by
  unfold execQuietAck at e
  cases e
  repeat' first
    | with_reducible assumption
    | intro x1
    | (intro x1; clear_value x1)
    | (intro s1; refine (fun (hs1 : Upd A s0 s1) => ?_) ?_; clear_value s1; rotate_left; subst s1; rotate_left)
    | lift_lets
    | with_reducible apply State.modPort_upd
    | with_reducible apply State.enterQuiet_upd
    | with_reducible apply State.quietBack_upd
    | split
    | dsimp only

theorem execQuietTimeout_upd_eq {A : Fld → Bool} {s0 s : State} {x1 : PortNo} {t : State} (h : Upd A s0 s) (e : execQuietTimeout x1 s = .next t) (a_ports : A .ports = true) : Upd A s0 t := by
  unfold execQuietTimeout at e
  cases e
  repeat' first
    | with_reducible assumption
    | lift_lets
    | with_reducible apply State.quietBack_upd
    | split

theorem execQuietRetry_upd_eq {A : Fld → Bool} {s0 s : State} {x1 : PortNo} {t : State} (h : Upd A s0 s) (e : execQuietRetry x1 s = .next t) (a_ports : A .ports = true) : Upd A s0 t := by
  unfold execQuietRetry at e
  cases e
  repeat' first
    | with_reducible assumption
    | lift_lets
    | with_reducible apply State.modPort_upd
    | with_reducible apply State.tryQuiet_upd
    | split

theorem execQuietSignalDetect_upd_eq {A : Fld → Bool} {s0 s : State} {x1 : PortNo} {t : State} (h : Upd A s0 s) (e : execQuietSignalDetect x1 s = .next t) (a_regs : A .regs = true) (a_ports : A .ports = true) (a_hls : A .hls = true) (a_fns : A .fns = true) (a_clhIn : A .clhIn = true) (a_tptIn : A .tptIn = true) (a_mcIn : A .mcIn = true) (a_fifelIn : A .fifelIn = true) (a_samples : A .samples = true) (a_sampleLost : A .sampleLost = true) (a_clh : A .clh = true) (a_pwr : A .pwr = true) (a_boot : A .boot = true) (a_rotate : A .rotate = true) (a_freeCtr : A .freeCtr = true) (a_nextId : A .nextId = true) (a_out : A .out = true) : Upd A s0 t := by
  unfold execQuietSignalDetect at e
  cases e
  repeat' first
    | with_reducible assumption
    | (intro s1; refine (fun (hs1 : Upd A s0 s1) => ?_) ?_; clear_value s1; rotate_left; subst s1; rotate_left)
    | intro x1
    | lift_lets
    | with_reducible apply State.wakePort_upd
    | with_reducible apply State.vote_upd
    | with_reducible apply State.set_upd
    | with_reducible apply Upd.fold
    | split

theorem execWakeNoansTimeout_upd_eq {A : Fld → Bool} {s0 s : State} {x1 : PortNo} {t : State} (h : Upd A s0 s) (e : execWakeNoansTimeout x1 s = .next t) (a_regs : A .regs = true) (a_ports : A .ports = true) (a_hls : A .hls = true) (a_fns : A .fns = true) (a_out : A .out = true) : Upd A s0 t := by
  unfold execWakeNoansTimeout at e
  cases e
  repeat' first
    | with_reducible assumption
    | lift_lets
    | with_reducible apply State.modPort_upd
    | with_reducible apply State.bump_upd
    | split

theorem execWakeExchangeRetry_upd_eq {A : Fld → Bool} {s0 s : State} {x1 : PortNo} {t : State} (h : Upd A s0 s) (e : execWakeExchangeRetry x1 s = .next t) (a_ports : A .ports = true) : Upd A s0 t := by
  unfold execWakeExchangeRetry at e
  cases e
  repeat' first
    | with_reducible assumption
    | lift_lets
    | with_reducible apply State.wakePort_upd
    | split

theorem execFrameReceive_upd_eq {A : Fld → Bool} {s0 s : State} {x1 : PortNo} {x2 : LinkFrame} {x3 : RxErrors} {t : State} (h : Upd A s0 s) (e : execFrameReceive x1 x2 x3 s = .next t) (a_regs : A .regs = true) (a_ports : A .ports = true) (a_hls : A .hls = true) (a_fns : A .fns = true) (a_clhIn : A .clhIn = true) (a_tptIn : A .tptIn = true) (a_relayIn : A .relayIn = true) (a_mgIn : A .mgIn = true) (a_mcIn : A .mcIn = true) (a_fifelIn : A .fifelIn = true) (a_qsRx : A .qsRx = true) (a_samples : A .samples = true) (a_sampleLost : A .sampleLost = true) (a_hmk : A .hmk = true) (a_clh : A .clh = true) (a_pwr : A .pwr = true) (a_boot : A .boot = true) (a_rotate : A .rotate = true) (a_freeCtr : A .freeCtr = true) (a_nextId : A .nextId = true) (a_out : A .out = true) : Upd A s0 t := by
  unfold execFrameReceive at e
  split at e
  · cases e
    apply State.activityUpd_upd <;> try assumption
    apply State.frameReceive_upd <;> assumption
  · cases e

theorem execSignalLoss_upd_eq {A : Fld → Bool} {s0 s : State} {x1 : PortNo} {x2 : Fin 8} {t : State} (h : Upd A s0 s) (e : execSignalLoss x1 x2 s = .next t) (a_regs : A .regs = true) (a_ports : A .ports = true) (a_hls : A .hls = true) (a_fns : A .fns = true) (a_clhIn : A .clhIn = true) (a_tptIn : A .tptIn = true) (a_relayIn : A .relayIn = true) (a_mgIn : A .mgIn = true) (a_mcIn : A .mcIn = true) (a_fifelIn : A .fifelIn = true) (a_samples : A .samples = true) (a_sampleLost : A .sampleLost = true) (a_clh : A .clh = true) (a_pwr : A .pwr = true) (a_boot : A .boot = true) (a_rotate : A .rotate = true) (a_freeCtr : A .freeCtr = true) (a_nextId : A .nextId = true) (a_out : A .out = true) : Upd A s0 t := by
  unfold execSignalLoss at e
  cases e
  repeat' first
    | with_reducible assumption
    | intro x1
    | (intro s1; refine (fun (hs1 : Upd A s0 s1) => ?_) ?_; clear_value s1; rotate_left; subst s1; rotate_left)
    | lift_lets
    | with_reducible apply State.linkDown_upd
    | with_reducible apply State.set_upd
    | with_reducible apply State.activityUpd_upd
    | split
    | dsimp only

end Sys2Proof.Machine
end

