-- ==== Sys2Proof/Laws/FrameHostOps.lean ====
section
/-!
SUPPORT. Laws/FrameHostOps.lean: which parts of State each operation of Machine/HostOps.lean may change, and that it keeps the invariant.
-/
namespace Sys2Proof.Machine
set_option linter.unusedTactic false
set_option linter.unreachableTactic false
set_option linter.unusedVariables false

theorem State.pciErr_upd {A : Fld → Bool} {s0 s : State} (x1 : ℕ) (x2 : ℕ) (x3 : ℕ) (h : Upd A s0 s) (a_fns : A .fns = true) : Upd A s0 (State.pciErr s x1 x2 x3) := by
  unfold State.pciErr
  repeat' first
    | with_reducible assumption
    | intro x1
    | lift_lets
    | with_reducible apply State.modFn_upd
    | split
    | dsimp only

theorem State.poisonSta_upd {A : Fld → Bool} {s0 s : State} (x1 : ℕ) (x2 : ℕ) (x3 : Bool) (h : Upd A s0 s) (a_fns : A .fns = true) : Upd A s0 (State.poisonSta s x1 x2 x3) := by
  unfold State.poisonSta
  repeat' first
    | with_reducible assumption
    | (intro s1; refine (fun (hs1 : Upd A s0 s1) => ?_) ?_; clear_value s1; rotate_left; subst s1; rotate_left)
    | intro x1
    | lift_lets
    | with_reducible apply State.pciErr_upd
    | split
    | dsimp only

theorem State.errMsg_upd {A : Fld → Bool} {s0 s : State} (x1 : ℕ) (x2 : ℕ) (x3 : ℕ) (x4 : ℕ) (h : Upd A s0 s) (a_fns : A .fns = true) (a_out : A .out = true) : Upd A s0 (State.errMsg s x1 x2 x3 x4) := by
  unfold State.errMsg
  repeat' first
    | with_reducible assumption
    | (intro s1; refine (fun (hs1 : Upd A s0 s1) => ?_) ?_; clear_value s1; rotate_left; subst s1; rotate_left)
    | intro x1
    | lift_lets
    | with_reducible apply State.emit_upd
    | with_reducible apply State.pciErr_upd
    | split
    | dsimp only

theorem State.aerLog_upd {A : Fld → Bool} {s0 s : State} (x1 : ℕ) (x2 : ℕ) (x3 : ℕ) (x4 : ℕ) (h : Upd A s0 s) (a_fns : A .fns = true) (a_freeCtr : A .freeCtr = true) : Upd A s0 (State.aerLog s x1 x2 x3 x4) := by
  unfold State.aerLog
  repeat' first
    | with_reducible assumption
    | (intro s1; refine (fun (hs1 : Upd A s0 s1) => ?_) ?_; clear_value s1; rotate_left; subst s1; rotate_left)
    | (intro x1; clear_value x1)
    | intro x1
    | lift_lets
    | with_reducible apply State.free_upd
    | with_reducible apply State.modFn_upd
    | with_reducible refine Upd.ofSnd (by assumption) ?_
    | split
    | dsimp only

theorem State.aerReport_upd {A : Fld → Bool} {s0 s : State} (x1 : ℕ) (x2 : ℕ) (x3 : ℕ) (x4 : Bool) (h : Upd A s0 s) (a_fns : A .fns = true) (a_freeCtr : A .freeCtr = true) (a_out : A .out = true) : Upd A s0 (State.aerReport s x1 x2 x3 x4) := by
  unfold State.aerReport
  repeat' first
    | with_reducible assumption
    | intro x1
    | (intro s1; refine (fun (hs1 : Upd A s0 s1) => ?_) ?_; clear_value s1; rotate_left; subst s1; rotate_left)
    | lift_lets
    | with_reducible apply State.aerLog_upd
    | with_reducible apply State.errMsg_upd
    | split
    | dsimp only

theorem State.aerBySev_upd {A : Fld → Bool} {s0 s : State} (x1 : ℕ) (x2 : ℕ) (x3 : ℕ) (h : Upd A s0 s) (a_fns : A .fns = true) (a_freeCtr : A .freeCtr = true) (a_out : A .out = true) : Upd A s0 (State.aerBySev s x1 x2 x3) := by
  unfold State.aerBySev
  repeat' first
    | with_reducible assumption
    | (intro s1; refine (fun (hs1 : Upd A s0 s1) => ?_) ?_; clear_value s1; rotate_left; subst s1; rotate_left)
    | intro x1
    | lift_lets
    | with_reducible apply State.aerReport_upd
    | with_reducible apply State.poisonSta_upd
    | split
    | dsimp only

theorem State.aerAdvise_upd {A : Fld → Bool} {s0 s : State} (x1 : ℕ) (x2 : ℕ) (x3 : ℕ) (h : Upd A s0 s) (a_fns : A .fns = true) (a_freeCtr : A .freeCtr = true) (a_out : A .out = true) : Upd A s0 (State.aerAdvise s x1 x2 x3) := by
  unfold State.aerAdvise
  repeat' first
    | with_reducible assumption
    | intro x1
    | (intro s1; refine (fun (hs1 : Upd A s0 s1) => ?_) ?_; clear_value s1; rotate_left; subst s1; rotate_left)
    | lift_lets
    | with_reducible apply State.modFn_upd
    | with_reducible apply State.aerLog_upd
    | with_reducible apply State.aerReport_upd
    | with_reducible apply State.errMsg_upd
    | split
    | dsimp only

theorem State.aerCorrected_upd {A : Fld → Bool} {s0 s : State} (x1 : ℕ) (x2 : ℕ) (h : Upd A s0 s) (a_fns : A .fns = true) (a_out : A .out = true) : Upd A s0 (State.aerCorrected s x1 x2) := by
  unfold State.aerCorrected
  repeat' first
    | with_reducible assumption
    | intro x1
    | (intro s1; refine (fun (hs1 : Upd A s0 s1) => ?_) ?_; clear_value s1; rotate_left; subst s1; rotate_left)
    | lift_lets
    | with_reducible apply State.modFn_upd
    | with_reducible apply State.errMsg_upd
    | split
    | dsimp only

theorem State.cplErr_upd {A : Fld → Bool} {s0 s : State} (x1 : ℕ) (x2 : ℕ) (x3 : ℕ) (h : Upd A s0 s) (a_fns : A .fns = true) (a_freeCtr : A .freeCtr = true) (a_out : A .out = true) : Upd A s0 (State.cplErr s x1 x2 x3) := by
  unfold State.cplErr
  repeat' first
    | with_reducible assumption
    | (intro s1; refine (fun (hs1 : Upd A s0 s1) => ?_) ?_; clear_value s1; rotate_left; subst s1; rotate_left)
    | intro x1
    | lift_lets
    | with_reducible apply State.aerAdvise_upd
    | with_reducible apply State.emit_upd
    | with_reducible apply State.pciErr_upd
    | split
    | dsimp only

theorem State.memUr_upd {A : Fld → Bool} {s0 s : State} (x1 : ℕ) (x2 : ℕ) (x3 : Bool) (h : Upd A s0 s) (a_fns : A .fns = true) (a_freeCtr : A .freeCtr = true) (a_out : A .out = true) : Upd A s0 (State.memUr s x1 x2 x3) := by
  unfold State.memUr
  repeat' first
    | with_reducible assumption
    | intro x1
    | lift_lets
    | with_reducible apply State.aerBySev_upd
    | with_reducible apply State.cplErr_upd
    | split
    | dsimp only

theorem State.tagStat_upd {A : Fld → Bool} {s0 s : State} (x1 : ℕ) (h : Upd A s0 s) (a_regs : A .regs = true) : Upd A s0 (State.tagStat s x1) := by
  unfold State.tagStat
  repeat' first
    | with_reducible assumption
    | (intro s1; refine (fun (hs1 : Upd A s0 s1) => ?_) ?_; clear_value s1; rotate_left; subst s1; rotate_left)
    | lift_lets
    | with_reducible apply State.set_upd

theorem State.tagWait_upd {A : Fld → Bool} {s0 s : State} (x1 : ℕ) (x2 : ℕ) (x3 : TagFor) (h : Upd A s0 s) (a_regs : A .regs = true) (a_hls : A .hls = true) (a_fns : A .fns = true) (a_out : A .out = true) : Upd A s0 (State.tagWait s x1 x2 x3) := by
  unfold State.tagWait
  repeat' first
    | with_reducible assumption
    | intro x1
    | lift_lets
    | with_reducible apply State.bump_upd
    | with_reducible apply State.modHl_upd
    | split
    | dsimp only

theorem State.tagGot_upd {A : Fld → Bool} {s0 s : State} (x1 : ℕ) (x2 : ℕ) (x3 : TagFor) (h : Upd A s0 s) (a_hls : A .hls = true) : Upd A s0 (State.tagGot s x1 x2 x3) := by
  unfold State.tagGot
  repeat' first
    | with_reducible assumption
    | intro x1
    | lift_lets
    | with_reducible apply State.modHl_upd
    | split
    | dsimp only

theorem State.takeTag_upd {A : Fld → Bool} {s0 s : State} (x1 : ℕ) (x2 : ℕ) (x3 : Option ℕ) (x4 : TagFor) (h : Upd A s0 s) (a_regs : A .regs = true) (a_hls : A .hls = true) (a_fns : A .fns = true) (a_tags : A .tags = true) (a_out : A .out = true) : Upd A s0 (State.takeTag s x1 x2 x3 x4).2 := by
  unfold State.takeTag
  repeat' first
    | with_reducible assumption
    | (intro s1; refine (fun (hs1 : Upd A s0 s1) => ?_) ?_; clear_value s1; rotate_left; subst s1; rotate_left)
    | intro x1
    | (intro x1; clear_value x1)
    | lift_lets
    | with_reducible apply State.tagStat_upd
    | with_reducible apply State.tagGot_upd
    | with_reducible apply State.tagWait_upd
    | split
    | dsimp only
    | exact { h with tags := .inl a_tags, keeps := fun i => { h.keeps i with } }
    | with_reducible apply Upd.to_tags

theorem State.freeTag_upd {A : Fld → Bool} {s0 s : State} (x1 : ℕ) (x2 : TagFor) (h : Upd A s0 s) (a_regs : A .regs = true) (a_tags : A .tags = true) : Upd A s0 (State.freeTag s x1 x2) := by
  unfold State.freeTag
  repeat' first
    | with_reducible assumption
    | lift_lets
    | with_reducible apply State.tagStat_upd
    | exact { h with tags := .inl a_tags, keeps := fun i => { h.keeps i with } }

theorem State.atsStat_upd {A : Fld → Bool} {s0 s : State} (x1 : ℕ) (h : Upd A s0 s) (a_regs : A .regs = true) : Upd A s0 (State.atsStat s x1) := by
  unfold State.atsStat
  repeat' first
    | with_reducible assumption
    | lift_lets
    | with_reducible apply State.set_upd

theorem State.atsDenied_upd {A : Fld → Bool} {s0 s : State} (x1 : ℕ) (x2 : ℕ) (x3 : ℕ) (h : Upd A s0 s) (a_clhIn : A .clhIn = true) : Upd A s0 (State.atsDenied s x1 x2 x3) := by
  unfold State.atsDenied
  repeat' first
    | with_reducible assumption
    | lift_lets
    | with_reducible apply State.raise_upd

theorem State.xlate_upd {A : Fld → Bool} {s0 s : State} (x1 : ℕ) (x2 : ℕ) (x3 : Option ℕ) (x4 : ℕ) (x5 : Bool) (h : Upd A s0 s) (a_regs : A .regs = true) (a_hls : A .hls = true) (a_fns : A .fns = true) (a_tags : A .tags = true) (a_clhIn : A .clhIn = true) (a_out : A .out = true) : Upd A s0 (State.xlate s x1 x2 x3 x4 x5).2 := by
  unfold State.xlate
  repeat' first
    | with_reducible assumption
    | intro x1
    | (intro x1; clear_value x1)
    | (intro x1; have x2 := fun a => x1 a; clear x2; subst x1)
    | (intro x1; have x2 := Prod.snd x1; clear x2; subst x1)
    | lift_lets
    | with_reducible apply State.bump_upd
    | with_reducible apply State.atsDenied_upd
    | with_reducible apply State.modHl_upd
    | with_reducible apply State.emit_upd
    | with_reducible apply State.takeTag_upd
    | with_reducible refine Upd.ofSnd (by assumption) ?_
    | split
    | dsimp only
    | dsimp +zetaDelta only

theorem State.xlUsed_upd {A : Fld → Bool} {s0 s : State} (x1 : ℕ) (x2 : ℕ) (x3 : Option ℕ) (x4 : List ℕ) (x5 : Bool) (h : Upd A s0 s) (a_hls : A .hls = true) : Upd A s0 (State.xlUsed s x1 x2 x3 x4 x5) := by
  unfold State.xlUsed
  repeat' first
    | with_reducible assumption
    | (intro x1; have x2 := fun a => x1 a; clear x2; subst x1)
    | (intro x1; clear_value x1)
    | intro x1
    | lift_lets
    | with_reducible apply State.modHl_upd
    | split
    | dsimp only
    | dsimp +zetaDelta only

theorem State.tlpAddr_upd {A : Fld → Bool} {s0 s : State} (x1 : ℕ) (x2 : ℕ) (x3 : Option ℕ) (x4 : ℕ) (h : Upd A s0 s) (a_hls : A .hls = true) : Upd A s0 (State.tlpAddr s x1 x2 x3 x4).2.2 := by
  unfold State.tlpAddr
  repeat' first
    | with_reducible assumption
    | intro x1
    | (intro x1; have x2 := fun a => x1 a; clear x2; subst x1)
    | (intro x1; clear_value x1)
    | lift_lets
    | with_reducible apply State.modHl_upd
    | split
    | dsimp only
    | dsimp +zetaDelta only

theorem State.tagUses_upd {A : Fld → Bool} {s0 s : State} (x1 : ℕ) (x2 : ℕ) (x3 : ℕ) (x4 : Option AtcEnt) (h : Upd A s0 s) (a_tags : A .tags = true) : Upd A s0 (State.tagUses s x1 x2 x3 x4) := by
  unfold State.tagUses
  repeat' first
    | with_reducible assumption
    | intro x1
    | lift_lets
    | split
    | dsimp only
    | with_reducible apply Upd.to_tags

theorem State.readTlp_upd {A : Fld → Bool} {s0 s : State} (x1 : ℕ) (x2 : ℕ) (x3 : Option ℕ) (x4 : ℕ) (x5 : ℕ) (x6 : ℕ) (x7 : ℕ) (h : Upd A s0 s) (a_hls : A .hls = true) (a_tags : A .tags = true) (a_out : A .out = true) : Upd A s0 (State.readTlp s x1 x2 x3 x4 x5 x6 x7) := by
  unfold State.readTlp
  repeat' first
    | with_reducible assumption
    | intro x1
    | lift_lets
    | with_reducible apply State.tlpAddr_upd
    | with_reducible apply State.emit_upd
    | with_reducible apply State.tagUses_upd
    | with_reducible refine Upd.ofSnd2 (by assumption) ?_
    | split
    | dsimp only

theorem State.bmeHold_upd {A : Fld → Bool} {s0 s : State} (x1 : ℕ) (x2 : ℕ) (h : Upd A s0 s) (a_regs : A .regs = true) : Upd A s0 (State.bmeHold s x1 x2) := by
  unfold State.bmeHold
  repeat' first
    | with_reducible assumption
    | lift_lets
    | with_reducible apply State.set_upd

theorem State.hostSeen_upd {A : Fld → Bool} {s0 s : State} (x1 : ℕ) (x2 : ℕ) (x3 : List (ℕ × ℕ × Bool)) (x4 : HostView) (h : Upd A s0 s) (a_regs : A .regs = true) (a_hls : A .hls = true) (a_fns : A .fns = true) (a_tags : A .tags = true) (a_freeCtr : A .freeCtr = true) (a_out : A .out = true) : Upd A s0 (State.hostSeen s x1 x2 x3 x4) := by
  unfold State.hostSeen
  repeat' first
    | with_reducible assumption
    | (intro s1; refine (fun (hs1 : Upd A s0 s1) => ?_) ?_; clear_value s1; rotate_left; subst s1; rotate_left)
    | (intro x1; have x2 := fun a => x1 a; clear x2; subst x1)
    | (intro x1; clear_value x1)
    | intro x1
    | lift_lets
    | with_reducible apply State.aerAdvise_upd
    | with_reducible apply State.bump_upd
    | with_reducible apply State.tagStat_upd
    | with_reducible apply State.takeTag_upd
    | with_reducible apply State.poisonSta_upd
    | with_reducible refine Upd.ofSnd (by assumption) ?_
    | with_reducible apply Upd.fold
    | split
    | dsimp only
    | with_reducible apply Upd.to_tags
    | dsimp +zetaDelta only

theorem State.tagPeak_upd {A : Fld → Bool} {s0 s : State} (x1 : ℕ) (h : Upd A s0 s) (a_regs : A .regs = true) : Upd A s0 (State.tagPeak s x1) := by
  unfold State.tagPeak
  repeat' first
    | with_reducible assumption
    | intro x1
    | lift_lets
    | with_reducible apply State.set_upd
    | split
    | dsimp only

theorem State.gate_upd {A : Fld → Bool} {s0 s : State} (x1 : ℕ) (x2 : ℕ) (x3 : Option ℕ) (x4 : List (ℕ × ℕ × Bool)) (x5 : optParam HostView []) (h : Upd A s0 s) (a_regs : A .regs = true) (a_hls : A .hls = true) (a_fns : A .fns = true) (a_tags : A .tags = true) (a_clhIn : A .clhIn = true) (a_freeCtr : A .freeCtr = true) (a_out : A .out = true) : Upd A s0 (State.gate s x1 x2 x3 x4 x5).2 := by
  unfold State.gate
  repeat' first
    | with_reducible assumption
    | (intro s1; refine (fun (hs1 : Upd A s0 s1) => ?_) ?_; clear_value s1; rotate_left; subst s1; rotate_left)
    | intro x1
    | lift_lets
    | with_reducible apply State.bmeHold_upd
    | with_reducible apply State.hostSeen_upd
    | with_reducible apply State.tagGot_upd
    | with_reducible apply State.tagPeak_upd
    | with_reducible apply State.tagWait_upd
    | with_reducible apply State.xlUsed_upd
    | with_reducible apply State.xlate_upd
    | with_reducible refine Upd.ofSnd (by assumption) ?_
    | with_reducible apply Upd.getD
    | split
    | with_reducible apply Upd.fold
    | with_reducible apply Upd.foldSnd
    | with_reducible apply Upd.foldFst
    | with_reducible apply Upd.foldMid
    | with_reducible apply Upd.foldSnd2
    | dsimp only
    | dsimp +zetaDelta only

theorem State.post_upd {A : Fld → Bool} {s0 s : State} (x1 : ℕ) (x2 : ℕ) (x3 : Option ℕ) (x4 : ℕ) (x5 : List Byte) (x6 : Bool) (x7 : optParam ℕ 0) (h : Upd A s0 s) (a_hls : A .hls = true) (a_out : A .out = true) : Upd A s0 (State.post s x1 x2 x3 x4 x5 x6 x7) := by
  unfold State.post
  repeat' first
    | with_reducible assumption
    | intro x1
    | lift_lets
    | with_reducible apply State.tlpAddr_upd
    | with_reducible apply State.modHl_upd
    | with_reducible apply State.emit_upd
    | with_reducible refine Upd.ofSnd2 (by assumption) ?_
    | with_reducible apply Upd.fold
    | split
    | dsimp only

theorem State.postHeld_upd {A : Fld → Bool} {s0 s : State} (x1 : ℕ) (x2 : HeldWrite) (h : Upd A s0 s) (a_regs : A .regs = true) (a_hls : A .hls = true) (a_fns : A .fns = true) (a_tags : A .tags = true) (a_clhIn : A .clhIn = true) (a_freeCtr : A .freeCtr = true) (a_out : A .out = true) : Upd A s0 (State.postHeld s x1 x2) := by
  unfold State.postHeld
  repeat' first
    | with_reducible assumption
    | (intro s1; refine (fun (hs1 : Upd A s0 s1) => ?_) ?_; clear_value s1; rotate_left; subst s1; rotate_left)
    | (intro x1; have x2 := fun a => x1 a; clear x2; subst x1)
    | (intro x1; have x2 := Prod.snd x1; clear x2; subst x1)
    | lift_lets
    | with_reducible apply State.post_upd
    | with_reducible apply State.gate_upd
    | with_reducible apply State.modHl_upd
    | with_reducible apply State.msix_upd
    | with_reducible refine Upd.ofSnd (by assumption) ?_
    | split

theorem State.postFlush_upd {A : Fld → Bool} {s0 s : State} (x1 : ℕ) (h : Upd A s0 s) (a_regs : A .regs = true) (a_hls : A .hls = true) (a_fns : A .fns = true) (a_tags : A .tags = true) (a_clhIn : A .clhIn = true) (a_freeCtr : A .freeCtr = true) (a_out : A .out = true) : Upd A s0 (State.postFlush s x1) := by
  unfold State.postFlush
  repeat' first
    | with_reducible assumption
    | (intro s1; refine (fun (hs1 : Upd A s0 s1) => ?_) ?_; clear_value s1; rotate_left; subst s1; rotate_left)
    | (intro x1; clear_value x1)
    | intro x1
    | lift_lets
    | with_reducible apply State.modHl_upd
    | with_reducible apply State.msixFlush_upd
    | with_reducible apply State.postHeld_upd
    | with_reducible apply Upd.fold
    | split
    | dsimp only

theorem State.flushIssue_upd {A : Fld → Bool} {s0 s : State} (x1 : ℕ) (h : Upd A s0 s) (a_regs : A .regs = true) (a_hls : A .hls = true) (a_fns : A .fns = true) (a_flushes : A .flushes = true) (a_tags : A .tags = true) (a_out : A .out = true) : Upd A s0 (State.flushIssue s x1) := by
  unfold State.flushIssue
  refine Upd.fold h fun u x hu => ?_
  dsimp only
  split
  · exact Upd.to_flushes _ hu a_flushes
  split
  · split
    · exact hu
    · apply State.bmeHold_upd <;> assumption
  split
  · rename_i t v ht
    have hv : Upd A s0 v := by
      with_reducible refine Upd.ofSnd (by assumption) ?_
      apply State.takeTag_upd <;> assumption
    apply State.emit_upd _ ?_ a_out
    apply State.tagUses_upd <;> try assumption
    exact Upd.to_flushes_tags _ _ hv a_flushes a_tags
  · with_reducible refine Upd.ofSnd (by assumption) ?_
    apply State.takeTag_upd <;> assumption

theorem State.flushAsk_upd {A : Fld → Bool} {s0 s : State} (x1 : HostAddr) (x2 : Option ℕ) (x3 : FlushFor) (h : Upd A s0 s) (a_regs : A .regs = true) (a_hls : A .hls = true) (a_fns : A .fns = true) (a_flushes : A .flushes = true) (a_tags : A .tags = true) (a_out : A .out = true) : Upd A s0 (State.flushAsk s x1 x2 x3) := by
  unfold State.flushAsk
  repeat' first
    | with_reducible assumption
    | intro x1
    | (intro x1; clear_value x1)
    | lift_lets
    | with_reducible apply State.flushIssue_upd
    | exact { h with flushes := .inl a_flushes, keeps := fun i => { h.keeps i with } }
    | split
    | dsimp only
    | with_reducible apply Upd.to_flushes

end Sys2Proof.Machine
end

