-- ==== Sys2Proof/Laws/FrameEvents.lean ====
section
/-!
SUPPORT. Laws/FrameEvents.lean: which parts of State each operation of Machine/Events.lean may change, and that it keeps the invariant.
-/
namespace Sys2Proof.Machine
set_option linter.unusedTactic false
set_option linter.unreachableTactic false
set_option linter.unusedVariables false

theorem State.eqWrite_upd {A : Fld → Bool} {s0 s : State} (x1 : ℕ) (x2 : ℕ) (x3 : ℕ) (x4 : ℕ) (x5 : ℕ) (x6 : ℕ) (h : Upd A s0 s) (a_regs : A .regs = true) (a_hls : A .hls = true) (a_fns : A .fns = true) (a_tags : A .tags = true) (a_clhIn : A .clhIn = true) (a_freeCtr : A .freeCtr = true) (a_out : A .out = true) : Upd A s0 (State.eqWrite s x1 x2 x3 x4 x5 x6) := by
  unfold State.eqWrite
  repeat' first
    | with_reducible assumption
    | (intro s1; refine (fun (hs1 : Upd A s0 s1) => ?_) ?_; clear_value s1; rotate_left; subst s1; rotate_left)
    | lift_lets
    | with_reducible apply State.set_upd
    | with_reducible apply State.postHeld_upd
    | split

theorem State.eqUnowe_upd {A : Fld → Bool} {s0 s : State} (x1 : ℕ) (x2 : ℕ) (h : Upd A s0 s) (a_regs : A .regs = true) : Upd A s0 (State.eqUnowe s x1 x2) := by
  unfold State.eqUnowe
  repeat' first
    | with_reducible assumption
    | lift_lets
    | with_reducible apply State.set_upd

theorem State.noticeWrite_upd {A : Fld → Bool} {s0 s : State} (x1 : Notice) (h : Upd A s0 s) (a_regs : A .regs = true) (a_hls : A .hls = true) (a_fns : A .fns = true) (a_accts : A .accts = true) (a_tags : A .tags = true) (a_clhIn : A .clhIn = true) (a_freeCtr : A .freeCtr = true) (a_out : A .out = true) : Upd A s0 (State.noticeWrite s x1) := by
  unfold State.noticeWrite
  repeat' first
    | with_reducible assumption
    | (intro s1; refine (fun (hs1 : Upd A s0 s1) => ?_) ?_; clear_value s1; rotate_left; subst s1; rotate_left)
    | lift_lets
    | with_reducible apply State.eqWrite_upd
    | with_reducible apply State.modAcct_upd
    | split

theorem State.genUp_upd {A : Fld → Bool} {s0 s : State} (x1 : ℕ) (h : Upd A s0 s) (a_regs : A .regs = true) : Upd A s0 (State.genUp s x1) := by
  unfold State.genUp
  repeat' first
    | with_reducible assumption
    | lift_lets
    | with_reducible apply State.set_upd

theorem State.cmdEnd_upd {A : Fld → Bool} {s0 s : State} (x1 : AcctCmd) (x2 : ℕ) (h : Upd A s0 s) (a_regs : A .regs = true) (a_acctCmds : A .acctCmds = true) : Upd A s0 (State.cmdEnd s x1 x2) := by
  unfold State.cmdEnd
  repeat' first
    | with_reducible assumption
    | (intro s1; refine (fun (hs1 : Upd A s0 s1) => ?_) ?_; clear_value s1; rotate_left; subst s1; rotate_left)
    | lift_lets
    | with_reducible apply State.set_upd
    | split
    | exact { h with acctCmds := .inl a_acctCmds, keeps := fun i => { h.keeps i with } }

theorem State.cmdsAbandon_upd {A : Fld → Bool} {s0 s : State} (x1 : ℕ) (h : Upd A s0 s) (a_regs : A .regs = true) (a_acctCmds : A .acctCmds = true) : Upd A s0 (State.cmdsAbandon s x1) := by
  unfold State.cmdsAbandon
  repeat' first
    | with_reducible assumption
    | intro x1
    | lift_lets
    | with_reducible apply State.cmdEnd_upd
    | with_reducible apply Upd.fold
    | split
    | dsimp only

theorem State.resetting_upd {A : Fld → Bool} {s0 s : State} (x1 : ℕ) (x2 : Bool) (h : Upd A s0 s) (a_regs : A .regs = true) (a_accts : A .accts = true) (a_acctCmds : A .acctCmds = true) : Upd A s0 (State.resetting s x1 x2) := by
  unfold State.resetting
  repeat' first
    | with_reducible assumption
    | intro x1
    | (intro s1; refine (fun (hs1 : Upd A s0 s1) => ?_) ?_; clear_value s1; rotate_left; subst s1; rotate_left)
    | (intro x1; clear_value x1)
    | lift_lets
    | with_reducible apply State.genUp_upd
    | with_reducible apply State.set_upd
    | with_reducible apply State.modAcct_upd
    | with_reducible apply State.cmdsAbandon_upd
    | split
    | dsimp only

theorem State.notice_upd {A : Fld → Bool} {s0 s : State} (x1 : Notice) (h : Upd A s0 s) (a_regs : A .regs = true) (a_hls : A .hls = true) (a_fns : A .fns = true) (a_accts : A .accts = true) (a_notices : A .notices = true) (a_acctCmds : A .acctCmds = true) (a_tags : A .tags = true) (a_clhIn : A .clhIn = true) (a_freeCtr : A .freeCtr = true) (a_out : A .out = true) : Upd A s0 (State.notice s x1) := by
  unfold State.notice
  repeat' first
    | with_reducible assumption
    | (intro s1; refine (fun (hs1 : Upd A s0 s1) => ?_) ?_; clear_value s1; rotate_left; subst s1; rotate_left)
    | lift_lets
    | with_reducible apply State.bump_upd
    | with_reducible apply State.noticeWrite_upd
    | with_reducible apply State.set_upd
    | with_reducible apply State.raise_upd
    | with_reducible apply State.resetting_upd
    | split
    | with_reducible apply Upd.to_notices

theorem State.acctNotice_upd {A : Fld → Bool} {s0 s : State} (x1 : ℕ) (x2 : ℕ) (h : Upd A s0 s) (a_regs : A .regs = true) (a_hls : A .hls = true) (a_fns : A .fns = true) (a_accts : A .accts = true) (a_notices : A .notices = true) (a_acctCmds : A .acctCmds = true) (a_tags : A .tags = true) (a_clhIn : A .clhIn = true) (a_freeCtr : A .freeCtr = true) (a_out : A .out = true) : Upd A s0 (State.acctNotice s x1 x2) := by
  unfold State.acctNotice
  repeat' first
    | with_reducible assumption
    | (intro s1; refine (fun (hs1 : Upd A s0 s1) => ?_) ?_; clear_value s1; rotate_left; subst s1; rotate_left)
    | lift_lets
    | with_reducible apply State.notice_upd

theorem State.evtOut_upd {A : Fld → Bool} {s0 s : State} (x1 : EvtInfo) (x2 : ℕ) (x3 : ℕ) (x4 : ℕ) (x5 : ℕ) (x6 : ℕ) (x7 : Bool) (h : Upd A s0 s) (a_regs : A .regs = true) (a_hls : A .hls = true) (a_fns : A .fns = true) (a_tags : A .tags = true) (a_clhIn : A .clhIn = true) (a_freeCtr : A .freeCtr = true) (a_out : A .out = true) : Upd A s0 (State.evtOut s x1 x2 x3 x4 x5 x6 x7) := by
  unfold State.evtOut
  repeat' first
    | with_reducible assumption
    | lift_lets
    | with_reducible apply State.eqUnowe_upd
    | with_reducible apply State.eqWrite_upd

theorem State.fenceSweep_upd {A : Fld → Bool} {s0 s : State} (x1 : ℕ) (x2 : ℕ) (h : Upd A s0 s) (a_regs : A .regs = true) (a_hls : A .hls = true) (a_fns : A .fns = true) (a_accts : A .accts = true) (a_tags : A .tags = true) (a_clhIn : A .clhIn = true) (a_freeCtr : A .freeCtr = true) (a_out : A .out = true) : Upd A s0 (State.fenceSweep s x1 x2) := by
  induction x2 generalizing s with
  | zero =>
    unfold State.fenceSweep
    repeat' first
      | with_reducible assumption
      | lift_lets
      | with_reducible apply State.evtOut_upd
      | with_reducible apply State.modAcct_upd
      | split
      | dsimp only
  | succ x0 ih =>
    unfold State.fenceSweep
    repeat' first
      | with_reducible apply ih
      | with_reducible assumption
      | lift_lets
      | with_reducible apply State.evtOut_upd
      | with_reducible apply State.modAcct_upd
      | split
      | dsimp only

theorem State.orderStat_upd {A : Fld → Bool} {s0 s : State} (h : Upd A s0 s) (a_regs : A .regs = true) : Upd A s0 (State.orderStat s) := by
  unfold State.orderStat
  repeat' first
    | with_reducible assumption
    | lift_lets
    | with_reducible apply State.set_upd

theorem State.fireWhere_upd {A : Fld → Bool} {s0 s : State} (x1 : (Order → Bool)) (h : Upd A s0 s) (a_regs : A .regs = true) (a_hls : A .hls = true) (a_fns : A .fns = true) (a_accts : A .accts = true) (a_orders : A .orders = true) (a_out : A .out = true) : Upd A s0 (State.fireWhere s x1) := by
  unfold State.fireWhere
  repeat' first
    | with_reducible assumption
    | (intro s1; refine (fun (hs1 : Upd A s0 s1) => ?_) ?_; clear_value s1; rotate_left; subst s1; rotate_left)
    | intro x1
    | lift_lets
    | with_reducible apply State.orderStat_upd
    | with_reducible apply State.bumpN_upd
    | with_reducible apply State.modAcct_upd
    | with_reducible apply Upd.fold
    | exact { h with orders := .inl a_orders, keeps := fun i => { h.keeps i with } }

theorem State.ctrRaise_upd {A : Fld → Bool} {s0 s : State} (x1 : ℕ) (h : Upd A s0 s) (a_regs : A .regs = true) (a_hls : A .hls = true) (a_fns : A .fns = true) (a_accts : A .accts = true) (a_orders : A .orders = true) (a_out : A .out = true) : Upd A s0 (State.ctrRaise s x1) := by
  unfold State.ctrRaise
  repeat' first
    | with_reducible assumption
    | lift_lets
    | with_reducible apply State.set_upd
    | with_reducible apply State.fireWhere_upd

theorem State.complete_upd {A : Fld → Bool} {s0 s : State} (x1 : EvtInfo) (x2 : ℕ) (x3 : ℕ) (x4 : ℕ) (x5 : ℕ) (x6 : ℕ) (x7 : Bool) (h : Upd A s0 s) (a_regs : A .regs = true) (a_hls : A .hls = true) (a_fns : A .fns = true) (a_accts : A .accts = true) (a_orders : A .orders = true) (a_tags : A .tags = true) (a_clhIn : A .clhIn = true) (a_freeCtr : A .freeCtr = true) (a_out : A .out = true) : Upd A s0 (State.complete s x1 x2 x3 x4 x5 x6 x7) := by
  unfold State.complete
  repeat' first
    | with_reducible assumption
    | (intro s1; refine (fun (hs1 : Upd A s0 s1) => ?_) ?_; clear_value s1; rotate_left; subst s1; rotate_left)
    | lift_lets
    | with_reducible apply State.bump_upd
    | with_reducible apply State.fenceSweep_upd
    | with_reducible apply State.evtOut_upd
    | with_reducible apply State.ctrRaise_upd
    | with_reducible apply State.modAcct_upd
    | split

theorem State.completeQuiet_upd {A : Fld → Bool} {s0 s : State} (x1 : EvtInfo) (h : Upd A s0 s) (a_regs : A .regs = true) (a_hls : A .hls = true) (a_fns : A .fns = true) (a_accts : A .accts = true) (a_tags : A .tags = true) (a_clhIn : A .clhIn = true) (a_freeCtr : A .freeCtr = true) (a_out : A .out = true) : Upd A s0 (State.completeQuiet s x1) := by
  unfold State.completeQuiet
  repeat' first
    | with_reducible assumption
    | lift_lets
    | with_reducible apply State.fenceSweep_upd
    | with_reducible apply State.eqUnowe_upd
    | with_reducible apply State.modAcct_upd

theorem State.charge_upd {A : Fld → Bool} {s0 s : State} (x1 : ℕ) (x2 : ℕ) (h : Upd A s0 s) (a_regs : A .regs = true) (a_accts : A .accts = true) : Upd A s0 (State.charge s x1 x2) := by
  unfold State.charge
  repeat' first
    | with_reducible assumption
    | (intro s1; refine (fun (hs1 : Upd A s0 s1) => ?_) ?_; clear_value s1; rotate_left; subst s1; rotate_left)
    | lift_lets
    | with_reducible apply State.set_upd
    | with_reducible apply State.modAcct_upd

theorem State.chargeFree_upd {A : Fld → Bool} {s0 s : State} (x1 : ℕ) (x2 : ℕ) (h : Upd A s0 s) (a_regs : A .regs = true) (a_accts : A .accts = true) : Upd A s0 (State.chargeFree s x1 x2) := by
  unfold State.chargeFree
  repeat' first
    | with_reducible assumption
    | (intro s1; refine (fun (hs1 : Upd A s0 s1) => ?_) ?_; clear_value s1; rotate_left; subst s1; rotate_left)
    | lift_lets
    | with_reducible apply State.set_upd
    | with_reducible apply State.modAcct_upd

theorem State.modRing_upd {A : Fld → Bool} {s0 s : State} (x1 : ℕ) (x2 : ℕ) (x3 : (Ring → Ring)) (h : Upd A s0 s) (a_accts : A .accts = true) : Upd A s0 (State.modRing s x1 x2 x3) := by
  unfold State.modRing
  repeat' first
    | with_reducible assumption
    | lift_lets
    | with_reducible apply State.modAcct_upd

theorem State.ringStop_upd {A : Fld → Bool} {s0 s : State} (x1 : ℕ) (x2 : ℕ) (x3 : ℕ) (h : Upd A s0 s) (a_regs : A .regs = true) (a_hls : A .hls = true) (a_fns : A .fns = true) (a_accts : A .accts = true) (a_notices : A .notices = true) (a_acctCmds : A .acctCmds = true) (a_tags : A .tags = true) (a_clhIn : A .clhIn = true) (a_freeCtr : A .freeCtr = true) (a_out : A .out = true) : Upd A s0 (State.ringStop s x1 x2 x3) := by
  unfold State.ringStop
  repeat' first
    | with_reducible assumption
    | (intro s1; refine (fun (hs1 : Upd A s0 s1) => ?_) ?_; clear_value s1; rotate_left; subst s1; rotate_left)
    | lift_lets
    | with_reducible apply State.set_upd
    | with_reducible apply State.raise_upd
    | with_reducible apply State.modRing_upd
    | with_reducible apply State.notice_upd

theorem State.stagePushed_upd {A : Fld → Bool} {s0 s : State} (x1 : ℕ) (x2 : ℕ) (x3 : ℕ) (h : Upd A s0 s) (a_accts : A .accts = true) : Upd A s0 (State.stagePushed s x1 x2 x3) := by
  induction x3 generalizing s with
  | zero =>
    unfold State.stagePushed
    repeat' first
      | with_reducible assumption
      | (intro x1; clear_value x1)
      | lift_lets
      | with_reducible apply State.modRing_upd
      | split
  | succ x0 ih =>
    unfold State.stagePushed
    repeat' first
      | with_reducible apply ih
      | with_reducible assumption
      | (intro x1; clear_value x1)
      | lift_lets
      | with_reducible apply State.modRing_upd
      | split

theorem State.ringFetch_upd {A : Fld → Bool} {s0 s : State} (x1 : ℕ) (x2 : ℕ) (h : Upd A s0 s) (a_regs : A .regs = true) (a_hls : A .hls = true) (a_fns : A .fns = true) (a_accts : A .accts = true) (a_notices : A .notices = true) (a_acctCmds : A .acctCmds = true) (a_tags : A .tags = true) (a_clhIn : A .clhIn = true) (a_freeCtr : A .freeCtr = true) (a_out : A .out = true) : Upd A s0 (State.ringFetch s x1 x2) := by
  unfold State.ringFetch
  repeat' first
    | with_reducible assumption
    | intro x1
    | (intro s1; refine (fun (hs1 : Upd A s0 s1) => ?_) ?_; clear_value s1; rotate_left; subst s1; rotate_left)
    | (intro x1; clear_value x1)
    | lift_lets
    | with_reducible apply State.readTlp_upd
    | with_reducible apply State.stagePushed_upd
    | with_reducible apply State.gate_upd
    | with_reducible apply State.ringStop_upd
    | with_reducible apply State.takeTag_upd
    | with_reducible apply State.modAcct_upd
    | with_reducible apply State.modRing_upd
    | with_reducible refine Upd.ofSnd (by assumption) ?_
    | split
    | dsimp only

theorem State.acctFetch_upd {A : Fld → Bool} {s0 s : State} (x1 : ℕ) (h : Upd A s0 s) (a_regs : A .regs = true) (a_hls : A .hls = true) (a_fns : A .fns = true) (a_accts : A .accts = true) (a_notices : A .notices = true) (a_acctCmds : A .acctCmds = true) (a_tags : A .tags = true) (a_clhIn : A .clhIn = true) (a_freeCtr : A .freeCtr = true) (a_out : A .out = true) : Upd A s0 (State.acctFetch s x1) := by
  unfold State.acctFetch
  repeat' first
    | with_reducible assumption
    | intro x1
    | lift_lets
    | with_reducible apply State.ringFetch_upd
    | with_reducible apply Upd.fold

theorem State.passTurn_upd {A : Fld → Bool} {s0 s : State} (x1 : ℕ) (x2 : Source) (h : Upd A s0 s) (a_accts : A .accts = true) : Upd A s0 (State.passTurn s x1 x2) := by
  unfold State.passTurn
  repeat' first
    | with_reducible assumption
    | intro x1
    | lift_lets
    | with_reducible apply State.modAcct_upd
    | split
    | dsimp only

theorem State.block_upd {A : Fld → Bool} {s0 s : State} (x1 : ℕ) (h : Upd A s0 s) (a_accts : A .accts = true) : Upd A s0 (State.block s x1) := by
  unfold State.block
  repeat' first
    | with_reducible assumption
    | intro x1
    | lift_lets
    | with_reducible apply State.modAcct_upd
    | split
    | dsimp only

theorem State.unblock_upd {A : Fld → Bool} {s0 s : State} (x1 : ℕ) (h : Upd A s0 s) (a_accts : A .accts = true) : Upd A s0 (State.unblock s x1) := by
  unfold State.unblock
  repeat' first
    | with_reducible assumption
    | intro x1
    | lift_lets
    | with_reducible apply State.modAcct_upd
    | split
    | dsimp only

theorem State.hold_upd {A : Fld → Bool} {s0 s : State} (x1 : ℕ) (h : Upd A s0 s) (a_accts : A .accts = true) : Upd A s0 (State.hold s x1) := by
  unfold State.hold
  repeat' first
    | with_reducible assumption
    | intro x1
    | lift_lets
    | with_reducible apply State.modAcct_upd
    | split
    | dsimp only

theorem State.eqWait_upd {A : Fld → Bool} {s0 s : State} (x1 : ℕ) (x2 : ℕ) (x3 : Source) (h : Upd A s0 s) (a_regs : A .regs = true) (a_hls : A .hls = true) (a_fns : A .fns = true) (a_accts : A .accts = true) (a_clhIn : A .clhIn = true) (a_clh : A .clh = true) (a_out : A .out = true) : Upd A s0 (State.eqWait s x1 x2 x3) := by
  unfold State.eqWait
  repeat' first
    | with_reducible assumption
    | (intro s1; refine (fun (hs1 : Upd A s0 s1) => ?_) ?_; clear_value s1; rotate_left; subst s1; rotate_left)
    | (intro x1; clear_value x1)
    | intro x1
    | lift_lets
    | with_reducible apply State.bump_upd
    | with_reducible apply State.limited_upd
    | with_reducible apply State.passTurn_upd
    | with_reducible apply State.raise_upd
    | with_reducible apply State.set_upd
    | with_reducible apply State.block_upd
    | with_reducible refine Upd.ofSnd (by assumption) ?_
    | split
    | dsimp only

theorem State.consume_upd {A : Fld → Bool} {s0 s : State} (x1 : ℕ) (x2 : Source) (x3 : ℕ) (h : Upd A s0 s) (a_regs : A .regs = true) (a_accts : A .accts = true) (a_nextId : A .nextId = true) : Upd A s0 (State.consume s x1 x2 x3) := by
  unfold State.consume
  repeat' first
    | with_reducible assumption
    | intro x1
    | (intro s1; refine (fun (hs1 : Upd A s0 s1) => ?_) ?_; clear_value s1; rotate_left; subst s1; rotate_left)
    | lift_lets
    | with_reducible apply State.set_upd
    | with_reducible apply State.charge_upd
    | with_reducible apply State.modAcct_upd
    | with_reducible apply State.modRing_upd
    | with_reducible apply State.passTurn_upd
    | with_reducible apply State.unblock_upd
    | with_reducible refine Upd.ofSnd (by assumption) ?_
    | split
    | exact { h with nextId := .inl a_nextId, keeps := fun i => { h.keeps i with } }
    | dsimp only
    | with_reducible apply Upd.to_nextId

theorem State.idleZero_upd {A : Fld → Bool} {s0 s : State} (x1 : ℕ) (h : Upd A s0 s) (a_accts : A .accts = true) : Upd A s0 (State.idleZero s x1) := by
  unfold State.idleZero
  repeat' first
    | with_reducible assumption
    | lift_lets
    | with_reducible apply State.modAcct_upd
    | split

theorem State.badHeads_upd {A : Fld → Bool} {s0 s : State} (x1 : ℕ) (x2 : Source) (x3 : ℕ) (h : Upd A s0 s) (a_regs : A .regs = true) (a_hls : A .hls = true) (a_fns : A .fns = true) (a_accts : A .accts = true) (a_orders : A .orders = true) (a_notices : A .notices = true) (a_acctCmds : A .acctCmds = true) (a_tags : A .tags = true) (a_clhIn : A .clhIn = true) (a_clh : A .clh = true) (a_freeCtr : A .freeCtr = true) (a_nextId : A .nextId = true) (a_out : A .out = true) : Upd A s0 (State.badHeads s x1 x2 x3) := by
  induction x3 generalizing s with
  | zero =>
    unfold State.badHeads
    repeat' first
      | with_reducible assumption
      | lift_lets
      | with_reducible apply State.complete_upd
      | with_reducible apply State.eqWait_upd
      | with_reducible apply State.consume_upd
      | with_reducible apply State.ringStop_upd
      | with_reducible apply State.modAcct_upd
      | split
  | succ x0 ih =>
    unfold State.badHeads
    dsimp only
    repeat' first
      | with_reducible apply ih
      | with_reducible assumption
      | lift_lets
      | with_reducible apply State.complete_upd
      | with_reducible apply State.eqWait_upd
      | with_reducible apply State.consume_upd
      | with_reducible apply State.ringStop_upd
      | with_reducible apply State.modAcct_upd
      | split

theorem State.after_upd {A : Fld → Bool} {s0 s : State} (x1 : ℕ) (x2 : Source) (h : Upd A s0 s) (a_regs : A .regs = true) (a_ports : A .ports = true) (a_hls : A .hls = true) (a_fns : A .fns = true) (a_accts : A .accts = true) (a_orders : A .orders = true) (a_notices : A .notices = true) (a_acctCmds : A .acctCmds = true) (a_tags : A .tags = true) (a_clhIn : A .clhIn = true) (a_tptIn : A .tptIn = true) (a_mcIn : A .mcIn = true) (a_fifelIn : A .fifelIn = true) (a_samples : A .samples = true) (a_sampleLost : A .sampleLost = true) (a_clh : A .clh = true) (a_pwr : A .pwr = true) (a_boot : A .boot = true) (a_rotate : A .rotate = true) (a_freeCtr : A .freeCtr = true) (a_nextId : A .nextId = true) (a_out : A .out = true) : Upd A s0 (State.after s x1 x2) := by
  unfold State.after
  repeat' first
    | with_reducible assumption
    | (intro s1; refine (fun (hs1 : Upd A s0 s1) => ?_) ?_; clear_value s1; rotate_left; subst s1; rotate_left)
    | lift_lets
    | with_reducible apply State.idleZero_upd
    | with_reducible apply State.activityUpd_upd
    | with_reducible apply State.ringFetch_upd
    | with_reducible apply State.badHeads_upd
    | split

theorem State.withDesc_upd {A : Fld → Bool} {s0 s : State} (x1 : ℕ) (x2 : Source) (x3 : ℕ) (x4 : (State → Desc → Bool)) (x5 : (State → Desc → EvtInfo → State)) (h : Upd A s0 s) (f5 : ∀ v0 v1 v2, Upd A s0 v0 → Upd A s0 (x5 v0 v1 v2)) (a_regs : A .regs = true) (a_ports : A .ports = true) (a_hls : A .hls = true) (a_fns : A .fns = true) (a_accts : A .accts = true) (a_orders : A .orders = true) (a_notices : A .notices = true) (a_acctCmds : A .acctCmds = true) (a_tags : A .tags = true) (a_clhIn : A .clhIn = true) (a_tptIn : A .tptIn = true) (a_mcIn : A .mcIn = true) (a_fifelIn : A .fifelIn = true) (a_samples : A .samples = true) (a_sampleLost : A .sampleLost = true) (a_clh : A .clh = true) (a_pwr : A .pwr = true) (a_boot : A .boot = true) (a_rotate : A .rotate = true) (a_freeCtr : A .freeCtr = true) (a_nextId : A .nextId = true) (a_out : A .out = true) : Upd A s0 (State.withDesc s x1 x2 x3 x4 x5) := by
  unfold State.withDesc
  repeat' first
    | with_reducible assumption
    | intro x1
    | (intro x1; clear_value x1)
    | (intro s1; refine (fun (hs1 : Upd A s0 s1) => ?_) ?_; clear_value s1; rotate_left; subst s1; rotate_left)
    | lift_lets
    | with_reducible apply State.eqWait_upd
    | with_reducible apply State.activityUpd_upd
    | with_reducible apply State.consume_upd
    | with_reducible apply State.after_upd
    | with_reducible apply State.badHeads_upd
    | with_reducible apply State.passTurn_upd
    | with_reducible apply State.block_upd
    | with_reducible apply f5
    | split
    | dsimp only

theorem State.withDescHost_upd {A : Fld → Bool} {s0 s : State} (x1 : ℕ) (x2 : Source) (x3 : ℕ) (x4 : (State → Desc → Bool)) (x5 : (State → Desc → List (ℕ × ℕ × Bool))) (x6 : HostView) (x7 : (State → Desc → EvtInfo → Bool → State)) (h : Upd A s0 s) (f7 : ∀ v0 v1 v2 v3, Upd A s0 v0 → Upd A s0 (x7 v0 v1 v2 v3)) (a_regs : A .regs = true) (a_ports : A .ports = true) (a_hls : A .hls = true) (a_fns : A .fns = true) (a_accts : A .accts = true) (a_orders : A .orders = true) (a_notices : A .notices = true) (a_acctCmds : A .acctCmds = true) (a_tags : A .tags = true) (a_clhIn : A .clhIn = true) (a_tptIn : A .tptIn = true) (a_mcIn : A .mcIn = true) (a_fifelIn : A .fifelIn = true) (a_samples : A .samples = true) (a_sampleLost : A .sampleLost = true) (a_clh : A .clh = true) (a_pwr : A .pwr = true) (a_boot : A .boot = true) (a_rotate : A .rotate = true) (a_freeCtr : A .freeCtr = true) (a_nextId : A .nextId = true) (a_out : A .out = true) : Upd A s0 (State.withDescHost s x1 x2 x3 x4 x5 x6 x7) := by
  unfold State.withDescHost
  repeat' first
    | with_reducible assumption
    | (intro s1; refine (fun (hs1 : Upd A s0 s1) => ?_) ?_; clear_value s1; rotate_left; subst s1; rotate_left)
    | intro x1
    | lift_lets
    | with_reducible apply State.gate_upd
    | with_reducible apply State.withDesc_upd
    | with_reducible apply State.badHeads_upd
    | with_reducible apply State.passTurn_upd
    | with_reducible apply State.hold_upd
    | with_reducible refine Upd.ofSnd (by assumption) ?_
    | with_reducible apply f6
    | split
    | with_reducible apply f7
    | dsimp only

end Sys2Proof.Machine
end

