-- ==== Sys2Proof/Laws/FramePattern.lean ====
section
/-!
SUPPORT. Laws/FramePattern.lean: which parts of State each operation of Machine/Pattern.lean may change, and that it keeps the invariant.
-/
namespace Sys2Proof.Machine
set_option linter.unusedTactic false
set_option linter.unreachableTactic false
set_option linter.unusedVariables false

theorem State.scatter_upd {A : Fld → Bool} {s0 s : State} (x1 : ℕ) (x2 : ℕ) (x3 : Option ℕ) (x4 : List (ℕ × ℕ)) (x5 : List Byte) (x6 : Bool) (h : Upd A s0 s) (a_hls : A .hls = true) (a_out : A .out = true) : Upd A s0 (State.scatter s x1 x2 x3 x4 x5 x6) := by
  unfold State.scatter
  repeat' first
    | with_reducible assumption
    | intro x1
    | lift_lets
    | with_reducible apply State.post_upd
    | with_reducible apply Upd.fold

theorem State.rankXlate_upd {A : Fld → Bool} {s0 s : State} (x1 : ℕ) (x2 : ℕ) (x3 : HostView) (h : Upd A s0 s) (a_rankCache : A .rankCache = true) : Upd A s0 (State.rankXlate s x1 x2 x3).2.2 := by
  unfold State.rankXlate
  repeat' first
    | with_reducible assumption
    | (intro s1; refine (fun (hs1 : Upd A s0 s1) => ?_) ?_; clear_value s1; rotate_left; subst s1; rotate_left)
    | lift_lets
    | split
    | refine Upd.to_rankCache _ ?_ (by assumption) (fun _ i => List.length_take_le ..)

end Sys2Proof.Machine
end

