-- ==== Sys2Proof/Laws/FrameMsg.lean ====
section
/-!
SUPPORT. Laws/FrameMsg.lean: which parts of State each operation of Machine/Msg.lean may change, and that it keeps the invariant.
-/
namespace Sys2Proof.Machine
set_option linter.unusedTactic false
set_option linter.unreachableTactic false
set_option linter.unusedVariables false

theorem State.tptStat_upd {A : Fld → Bool} {s0 s : State} (h : Upd A s0 s) (a_regs : A .regs = true) : Upd A s0 (State.tptStat s) := by
  unfold State.tptStat
  repeat' first
    | with_reducible assumption
    | lift_lets
    | with_reducible apply State.set_upd

theorem State.newMsgId_upd {A : Fld → Bool} {s0 s : State} (x1 : ℕ) (h : Upd A s0 s) (a_regs : A .regs = true) : Upd A s0 (State.newMsgId s x1).2 := by
  unfold State.newMsgId
  repeat' first
    | with_reducible assumption
    | lift_lets
    | with_reducible apply State.set_upd

theorem State.openSrc_upd {A : Fld → Bool} {s0 s : State} (x1 : SrcMsg) (h : Upd A s0 s) (a_regs : A .regs = true) (a_srcMsgs : A .srcMsgs = true) (a_nextId : A .nextId = true) : Upd A s0 (State.openSrc s x1).2 := by
  unfold State.openSrc
  repeat' first
    | with_reducible assumption
    | intro x1
    | (intro x1; clear_value x1)
    | lift_lets
    | with_reducible apply State.newMsgId_upd
    | with_reducible apply State.tptStat_upd
    | with_reducible apply State.newId_upd
    | with_reducible refine Upd.ofSnd (by assumption) ?_
    | with_reducible apply Upd.to_srcMsgs
    | split
    | dsimp only

theorem State.modSrc_upd {A : Fld → Bool} {s0 s : State} (x1 : ℕ) (x2 : (SrcMsg → SrcMsg)) (h : Upd A s0 s) (a_srcMsgs : A .srcMsgs = true) : Upd A s0 (State.modSrc s x1 x2) := by
  unfold State.modSrc
  repeat' first
    | with_reducible assumption
    | lift_lets
    | exact { h with srcMsgs := .inl a_srcMsgs, keeps := fun i => { h.keeps i with } }

theorem State.delSrc_upd {A : Fld → Bool} {s0 s : State} (x1 : ℕ) (h : Upd A s0 s) (a_regs : A .regs = true) (a_srcMsgs : A .srcMsgs = true) : Upd A s0 (State.delSrc s x1) := by
  unfold State.delSrc
  repeat' first
    | with_reducible assumption
    | lift_lets
    | with_reducible apply State.tptStat_upd
    | exact { h with srcMsgs := .inl a_srcMsgs, keeps := fun i => { h.keeps i with } }

theorem State.ctxCount_upd {A : Fld → Bool} {s0 s : State} (x1 : ℕ) (h : Upd A s0 s) (a_ctxSent : A .ctxSent = true) : Upd A s0 (State.ctxCount s x1) := by
  unfold State.ctxCount
  repeat' first
    | with_reducible assumption
    | intro x1
    | (intro x1; clear_value x1)
    | lift_lets
    | exact { h with ctxSent := .inl a_ctxSent, keeps := fun i => { h.keeps i with } }
    | split
    | dsimp only
    | with_reducible apply Upd.to_ctxSent

theorem State.ctxHalve_upd {A : Fld → Bool} {s0 s : State} (x1 : ℕ) (h : Upd A s0 s) (a_regs : A .regs = true) (a_ctxSent : A .ctxSent = true) : Upd A s0 (State.ctxHalve s x1) := by
  unfold State.ctxHalve
  repeat' first
    | with_reducible assumption
    | intro x1
    | (intro x1; clear_value x1)
    | (intro s1; refine (fun (hs1 : Upd A s0 s1) => ?_) ?_; clear_value s1; rotate_left; subst s1; rotate_left)
    | lift_lets
    | with_reducible apply State.set_upd
    | with_reducible apply Upd.to_ctxSent
    | split
    | dsimp only

theorem State.ctxSample_upd {A : Fld → Bool} {s0 s : State} (x1 : ℕ) (x2 : ℤ) (h : Upd A s0 s) (a_regs : A .regs = true) : Upd A s0 (State.ctxSample s x1 x2) := by
  unfold State.ctxSample
  repeat' first
    | with_reducible assumption
    | intro x1
    | (intro x1; clear_value x1)
    | lift_lets
    | with_reducible apply State.set_upd
    | split
    | dsimp only

theorem State.sendPkt_upd {A : Fld → Bool} {s0 s : State} (x1 : SrcMsg) (x2 : ℕ) (x3 : ℕ) (x4 : ℕ) (x5 : HostView) (x6 : Bool) (h : Upd A s0 s) (a_regs : A .regs = true) (a_ports : A .ports = true) (a_hls : A .hls = true) (a_fns : A .fns = true) (a_accts : A .accts = true) (a_srcMsgs : A .srcMsgs = true) (a_tags : A .tags = true) (a_ctxSent : A .ctxSent = true) (a_clhIn : A .clhIn = true) (a_tptIn : A .tptIn = true) (a_mcIn : A .mcIn = true) (a_fifelIn : A .fifelIn = true) (a_samples : A .samples = true) (a_sampleLost : A .sampleLost = true) (a_clh : A .clh = true) (a_rotate : A .rotate = true) (a_freeCtr : A .freeCtr = true) (a_nextId : A .nextId = true) (a_out : A .out = true) : Upd A s0 (State.sendPkt s x1 x2 x3 x4 x5 x6).2 := by
  unfold State.sendPkt
  repeat' first
    | with_reducible assumption
    | (intro s1; refine (fun (hs1 : Upd A s0 s1) => ?_) ?_; clear_value s1; rotate_left; subst s1; rotate_left)
    | (intro x1; clear_value x1)
    | intro x1
    | lift_lets
    | with_reducible apply State.bump_upd
    | with_reducible apply State.charge_upd
    | with_reducible apply State.chargeFree_upd
    | with_reducible apply State.ctxCount_upd
    | with_reducible apply State.gate_upd
    | with_reducible apply State.inject_upd
    | with_reducible apply State.modSrc_upd
    | with_reducible apply State.hold_upd
    | with_reducible refine Upd.ofSnd (by assumption) ?_
    | split
    | dsimp only

end Sys2Proof.Machine
end

