-- ==== Sys2Proof/Laws/FrameTarget.lean ====
section
/-!
SUPPORT. Laws/FrameTarget.lean: which parts of State each operation of Machine/Target.lean may change, and that it keeps the invariant.
-/
namespace Sys2Proof.Machine
set_option linter.unusedTactic false
set_option linter.unreachableTactic false
set_option linter.unusedVariables false

theorem State.sendNak_upd {A : Fld → Bool} {s0 s : State} (x1 : ℕ) (x2 : ℕ) (x3 : ℕ) (x4 : ℕ) (x5 : ℕ) (h : Upd A s0 s) (a_regs : A .regs = true) (a_hls : A .hls = true) (a_fns : A .fns = true) (a_qsHere : A .qsHere = true) (a_qsInj : A .qsInj = true) (a_out : A .out = true) : Upd A s0 (State.sendNak s x1 x2 x3 x4 x5) := by
  unfold State.sendNak
  repeat' first
    | with_reducible assumption
    | lift_lets
    | with_reducible apply State.bump_upd
    | with_reducible apply State.qsSend_upd

theorem State.refuse_upd {A : Fld → Bool} {s0 s : State} (x1 : Header) (h : Upd A s0 s) (a_regs : A .regs = true) (a_hls : A .hls = true) (a_fns : A .fns = true) (a_qsHere : A .qsHere = true) (a_qsInj : A .qsInj = true) (a_out : A .out = true) : Upd A s0 (State.refuse s x1) := by
  unfold State.refuse
  repeat' first
    | with_reducible assumption
    | lift_lets
    | with_reducible apply State.bump_upd
    | with_reducible apply State.sendNak_upd

theorem State.sendUnreach_upd {A : Fld → Bool} {s0 s : State} (x1 : Header) (x2 : ℕ) (h : Upd A s0 s) (a_regs : A .regs = true) (a_hls : A .hls = true) (a_fns : A .fns = true) (a_qsHere : A .qsHere = true) (a_qsInj : A .qsInj = true) (a_out : A .out = true) : Upd A s0 (State.sendUnreach s x1 x2) := by
  unfold State.sendUnreach
  repeat' first
    | with_reducible assumption
    | lift_lets
    | with_reducible apply State.qsSend_upd

theorem State.stubForward_upd {A : Fld → Bool} {s0 s : State} (x1 : Packet) (x2 : ℕ) (h : Upd A s0 s) (a_regs : A .regs = true) (a_ports : A .ports = true) (a_hls : A .hls = true) (a_fns : A .fns = true) (a_clhIn : A .clhIn = true) (a_tptIn : A .tptIn = true) (a_mcIn : A .mcIn = true) (a_fifelIn : A .fifelIn = true) (a_samples : A .samples = true) (a_sampleLost : A .sampleLost = true) (a_clh : A .clh = true) (a_rotate : A .rotate = true) (a_freeCtr : A .freeCtr = true) (a_nextId : A .nextId = true) (a_out : A .out = true) : Upd A s0 (State.stubForward s x1 x2) := by
  unfold State.stubForward
  repeat' first
    | with_reducible assumption
    | lift_lets
    | with_reducible apply State.bump_upd
    | with_reducible apply State.injectDrop_upd

theorem State.atomicResp_upd {A : Fld → Bool} {s0 s : State} (x1 : Header) (x2 : ℕ) (x3 : ℕ) (h : Upd A s0 s) (a_regs : A .regs = true) (a_ports : A .ports = true) (a_hls : A .hls = true) (a_fns : A .fns = true) (a_clhIn : A .clhIn = true) (a_tptIn : A .tptIn = true) (a_mcIn : A .mcIn = true) (a_fifelIn : A .fifelIn = true) (a_samples : A .samples = true) (a_sampleLost : A .sampleLost = true) (a_clh : A .clh = true) (a_rotate : A .rotate = true) (a_freeCtr : A .freeCtr = true) (a_nextId : A .nextId = true) (a_out : A .out = true) : Upd A s0 (State.atomicResp s x1 x2 x3) := by
  unfold State.atomicResp
  repeat' first
    | with_reducible assumption
    | lift_lets
    | with_reducible apply State.injectDrop_upd

theorem State.atomicRefuse_upd {A : Fld → Bool} {s0 s : State} (x1 : Header) (x2 : ℕ) (h : Upd A s0 s) (a_regs : A .regs = true) (a_ports : A .ports = true) (a_hls : A .hls = true) (a_fns : A .fns = true) (a_clhIn : A .clhIn = true) (a_tptIn : A .tptIn = true) (a_mcIn : A .mcIn = true) (a_fifelIn : A .fifelIn = true) (a_samples : A .samples = true) (a_sampleLost : A .sampleLost = true) (a_clh : A .clh = true) (a_rotate : A .rotate = true) (a_freeCtr : A .freeCtr = true) (a_nextId : A .nextId = true) (a_out : A .out = true) : Upd A s0 (State.atomicRefuse s x1 x2) := by
  unfold State.atomicRefuse
  repeat' first
    | with_reducible assumption
    | lift_lets
    | with_reducible apply State.free_upd
    | with_reducible apply State.atomicResp_upd
    | with_reducible refine Upd.ofSnd (by assumption) ?_

theorem State.destCheck_upd {A : Fld → Bool} {s0 s : State} (x1 : Packet) (h : Upd A s0 s) (a_regs : A .regs = true) (a_ports : A .ports = true) (a_hls : A .hls = true) (a_fns : A .fns = true) (a_clhIn : A .clhIn = true) (a_tptIn : A .tptIn = true) (a_mcIn : A .mcIn = true) (a_fifelIn : A .fifelIn = true) (a_qsHere : A .qsHere = true) (a_qsInj : A .qsInj = true) (a_samples : A .samples = true) (a_sampleLost : A .sampleLost = true) (a_clh : A .clh = true) (a_rotate : A .rotate = true) (a_freeCtr : A .freeCtr = true) (a_nextId : A .nextId = true) (a_out : A .out = true) : Upd A s0 (State.destCheck s x1).2 := by
  unfold State.destCheck
  repeat' first
    | with_reducible assumption
    | intro x1
    | (intro x1; clear_value x1)
    | lift_lets
    | with_reducible apply State.sendUnreach_upd
    | with_reducible apply State.atomicRefuse_upd
    | with_reducible apply State.stubForward_upd
    | with_reducible apply State.raise_upd
    | with_reducible apply State.tallyHit_upd
    | split
    | dsimp only

theorem State.filterStat_upd {A : Fld → Bool} {s0 s : State} (h : Upd A s0 s) (a_regs : A .regs = true) : Upd A s0 (State.filterStat s) := by
  unfold State.filterStat
  repeat' first
    | with_reducible assumption
    | lift_lets
    | with_reducible apply State.set_upd

theorem State.filterReserve_upd {A : Fld → Bool} {s0 s : State} (x1 : ℕ) (x2 : ℕ) (x3 : ℕ) (x4 : Bool) (h : Upd A s0 s) (a_filter : A .filter = true) : Upd A s0 (State.filterReserve s x1 x2 x3 x4) := by
  unfold State.filterReserve
  repeat' first
    | with_reducible assumption
    | lift_lets
    | exact { h with filter := .inl a_filter, keeps := fun i => { h.keeps i with } }

theorem State.filterFill_upd {A : Fld → Bool} {s0 s : State} (x1 : ℕ) (x2 : ℕ) (x3 : ℕ) (h : Upd A s0 s) (a_regs : A .regs = true) (a_filter : A .filter = true) : Upd A s0 (State.filterFill s x1 x2 x3) := by
  unfold State.filterFill
  repeat' first
    | with_reducible assumption
    | lift_lets
    | with_reducible apply State.filterStat_upd
    | exact { h with filter := .inl a_filter, keeps := fun i => { h.keeps i with } }

theorem State.filterFree_upd {A : Fld → Bool} {s0 s : State} (x1 : ℕ) (x2 : ℕ) (h : Upd A s0 s) (a_regs : A .regs = true) (a_filter : A .filter = true) : Upd A s0 (State.filterFree s x1 x2) := by
  unfold State.filterFree
  repeat' first
    | with_reducible assumption
    | lift_lets
    | with_reducible apply State.filterStat_upd
    | exact { h with filter := .inl a_filter, keeps := fun i => { h.keeps i with } }

theorem State.modOpen_upd {A : Fld → Bool} {s0 s : State} (x1 : ℕ) (x2 : ℕ) (x3 : (OpenMsg → OpenMsg)) (h : Upd A s0 s) (a_openMsgs : A .openMsgs = true) : Upd A s0 (State.modOpen s x1 x2 x3) := by
  unfold State.modOpen
  repeat' first
    | with_reducible assumption
    | lift_lets
    | exact { h with openMsgs := .inl a_openMsgs, keeps := fun i => { h.keeps i with } }

theorem State.delOpen_upd {A : Fld → Bool} {s0 s : State} (x1 : ℕ) (x2 : ℕ) (h : Upd A s0 s) (a_regs : A .regs = true) (a_openMsgs : A .openMsgs = true) : Upd A s0 (State.delOpen s x1 x2) := by
  unfold State.delOpen
  repeat' first
    | with_reducible assumption
    | lift_lets
    | with_reducible apply State.tptStat_upd
    | exact { h with openMsgs := .inl a_openMsgs, keeps := fun i => { h.keeps i with } }

theorem State.openMsg_upd {A : Fld → Bool} {s0 s : State} (x1 : Header) (h : Upd A s0 s) (a_regs : A .regs = true) (a_openMsgs : A .openMsgs = true) (a_filter : A .filter = true) : Upd A s0 (State.openMsg s x1) := by
  unfold State.openMsg
  repeat' first
    | with_reducible assumption
    | (intro s1; refine (fun (hs1 : Upd A s0 s1) => ?_) ?_; clear_value s1; rotate_left; subst s1; rotate_left)
    | lift_lets
    | with_reducible apply State.tptStat_upd
    | with_reducible apply State.filterReserve_upd
    | with_reducible apply Upd.to_openMsgs

theorem State.cechoMaybe_upd {A : Fld → Bool} {s0 s : State} (x1 : ℕ) (x2 : ℕ) (h : Upd A s0 s) (a_regs : A .regs = true) (a_hls : A .hls = true) (a_fns : A .fns = true) (a_openMsgs : A .openMsgs = true) (a_qsHere : A .qsHere = true) (a_qsInj : A .qsInj = true) (a_out : A .out = true) : Upd A s0 (State.cechoMaybe s x1 x2) := by
  unfold State.cechoMaybe
  repeat' first
    | with_reducible assumption
    | (intro x1; clear_value x1)
    | lift_lets
    | with_reducible apply State.qsSend_upd
    | with_reducible apply State.modOpen_upd
    | split

theorem State.enterPkt_upd {A : Fld → Bool} {s0 s : State} (x1 : Header) (x2 : ℕ) (x3 : Option HostAddr) (h : Upd A s0 s) (a_regs : A .regs = true) (a_hls : A .hls = true) (a_fns : A .fns = true) (a_openMsgs : A .openMsgs = true) (a_qsHere : A .qsHere = true) (a_qsInj : A .qsInj = true) (a_out : A .out = true) : Upd A s0 (State.enterPkt s x1 x2 x3) := by
  unfold State.enterPkt
  repeat' first
    | with_reducible assumption
    | (intro s1; refine (fun (hs1 : Upd A s0 s1) => ?_) ?_; clear_value s1; rotate_left; subst s1; rotate_left)
    | lift_lets
    | with_reducible apply State.cechoMaybe_upd
    | with_reducible apply State.modOpen_upd
    | split

theorem State.receiptQs_upd {A : Fld → Bool} {s0 s : State} (x1 : ℕ) (x2 : ℕ) (x3 : ℕ) (x4 : ℕ) (x5 : Bool) (x6 : ℕ) (x7 : ℕ) (h : Upd A s0 s) (a_regs : A .regs = true) (a_hls : A .hls = true) (a_fns : A .fns = true) (a_qsHere : A .qsHere = true) (a_qsInj : A .qsInj = true) (a_out : A .out = true) : Upd A s0 (State.receiptQs s x1 x2 x3 x4 x5 x6 x7) := by
  unfold State.receiptQs
  repeat' first
    | with_reducible assumption
    | lift_lets
    | with_reducible apply State.qsSend_upd

theorem State.closeOpen_upd {A : Fld → Bool} {s0 s : State} (x1 : OpenMsg) (x2 : ℕ) (h : Upd A s0 s) (a_regs : A .regs = true) (a_hls : A .hls = true) (a_fns : A .fns = true) (a_accts : A .accts = true) (a_openMsgs : A .openMsgs = true) (a_filter : A .filter = true) (a_orders : A .orders = true) (a_qsHere : A .qsHere = true) (a_qsInj : A .qsInj = true) (a_out : A .out = true) : Upd A s0 (State.closeOpen s x1 x2) := by
  unfold State.closeOpen
  repeat' first
    | with_reducible assumption
    | (intro s1; refine (fun (hs1 : Upd A s0 s1) => ?_) ?_; clear_value s1; rotate_left; subst s1; rotate_left)
    | lift_lets
    | with_reducible apply State.ctrRaise_upd
    | with_reducible apply State.receiptQs_upd
    | with_reducible apply State.delOpen_upd
    | with_reducible apply State.filterFill_upd
    | split

theorem State.receiptAgain_upd {A : Fld → Bool} {s0 s : State} (x1 : Header) (x2 : FilterEnt) (h : Upd A s0 s) (a_regs : A .regs = true) (a_hls : A .hls = true) (a_fns : A .fns = true) (a_qsHere : A .qsHere = true) (a_qsInj : A .qsInj = true) (a_out : A .out = true) : Upd A s0 (State.receiptAgain s x1 x2) := by
  unfold State.receiptAgain
  repeat' first
    | with_reducible assumption
    | lift_lets
    | with_reducible apply State.bump_upd
    | with_reducible apply State.receiptQs_upd

theorem State.keyFind_upd {A : Fld → Bool} {s0 s : State} (x1 : Header) (x2 : HostView) (h : Upd A s0 s) (a_regs : A .regs = true) (a_hls : A .hls = true) (a_fns : A .fns = true) (a_keyCache : A .keyCache = true) (a_tags : A .tags = true) (a_clhIn : A .clhIn = true) (a_freeCtr : A .freeCtr = true) (a_out : A .out = true) : Upd A s0 (State.keyFind s x1 x2).2 := by
  unfold State.keyFind
  repeat' first
    | with_reducible assumption
    | intro x1
    | (intro x1; clear_value x1)
    | (intro s1; refine (fun (hs1 : Upd A s0 s1) => ?_) ?_; clear_value s1; rotate_left; subst s1; rotate_left)
    | (intro x1; have x2 := fun a => x1 a; clear x2; subst x1)
    | (intro x1; have x2 := Prod.snd x1; clear x2; subst x1)
    | lift_lets
    | with_reducible apply State.bump_upd
    | with_reducible apply State.gate_upd
    | with_reducible refine Upd.ofSnd (by assumption) ?_
    | split
    | dsimp only
    | refine Upd.to_keyCache _ ?_ (by assumption) (fun _ i => List.length_take_le ..)
    | refine Upd.to_keyCache _ ?_ (by assumption) (fun _ i => Nat.le_trans (List.length_filter_le ..) i.keyCache)
    | dsimp +zetaDelta only

theorem State.nakHoles_upd {A : Fld → Bool} {s0 s : State} (x1 : OpenMsg) (h : Upd A s0 s) (a_regs : A .regs = true) (a_hls : A .hls = true) (a_fns : A .fns = true) (a_qsHere : A .qsHere = true) (a_qsInj : A .qsInj = true) (a_out : A .out = true) : Upd A s0 (State.nakHoles s x1) := by
  unfold State.nakHoles
  repeat' first
    | with_reducible assumption
    | intro x1
    | lift_lets
    | with_reducible apply State.sendNak_upd
    | with_reducible apply Upd.fold

theorem State.msgCheck_upd {A : Fld → Bool} {s0 s : State} (x1 : ℕ) (x2 : ℕ) (x3 : (State → OpenMsg → State)) (h : Upd A s0 s) (f3 : ∀ v0 v1, Upd A s0 v0 → Upd A s0 (x3 v0 v1)) (a_regs : A .regs = true) (a_hls : A .hls = true) (a_fns : A .fns = true) (a_accts : A .accts = true) (a_openMsgs : A .openMsgs = true) (a_filter : A .filter = true) (a_orders : A .orders = true) (a_flushes : A .flushes = true) (a_tags : A .tags = true) (a_qsHere : A .qsHere = true) (a_qsInj : A .qsInj = true) (a_out : A .out = true) : Upd A s0 (State.msgCheck s x1 x2 x3) := by
  unfold State.msgCheck
  repeat' first
    | with_reducible assumption
    | intro x1
    | (intro s1; refine (fun (hs1 : Upd A s0 s1) => ?_) ?_; clear_value s1; rotate_left; subst s1; rotate_left)
    | lift_lets
    | with_reducible apply State.closeOpen_upd
    | with_reducible apply State.flushAsk_upd
    | with_reducible apply State.modOpen_upd
    | with_reducible apply f3
    | split
    | dsimp only

theorem State.dupHandle_upd {A : Fld → Bool} {s0 s : State} (x1 : Header) (x2 : (State → State)) (x3 : (State → State)) (x4 : (State → FilterEnt → State)) (h : Upd A s0 s) (f2 : ∀ v0, Upd A s0 v0 → Upd A s0 (x2 v0)) (f3 : ∀ v0, Upd A s0 v0 → Upd A s0 (x3 v0)) (f4 : ∀ v0 v1, Upd A s0 v0 → Upd A s0 (x4 v0 v1)) (a_regs : A .regs = true) (a_hls : A .hls = true) (a_fns : A .fns = true) (a_clhIn : A .clhIn = true) (a_qsHere : A .qsHere = true) (a_qsInj : A .qsInj = true) (a_out : A .out = true) : Upd A s0 (State.dupHandle s x1 x2 x3 x4) := by
  unfold State.dupHandle
  repeat' first
    | with_reducible assumption
    | (intro s1; refine (fun (hs1 : Upd A s0 s1) => ?_) ?_; clear_value s1; rotate_left; subst s1; rotate_left)
    | lift_lets
    | with_reducible apply State.bump_upd
    | with_reducible apply State.refuse_upd
    | with_reducible apply State.nakHoles_upd
    | with_reducible apply State.raise_upd
    | with_reducible apply f2
    | with_reducible apply f3
    | with_reducible apply f4
    | split

theorem State.takePkt_upd_eq {A : Fld → Bool} {s0 s : State} {x1 : ℕ} {y0} {t : State} (h : Upd A s0 s) (e : State.takePkt s x1 = some (y0, t)) (a_tptIn : A .tptIn = true) : Upd A s0 t := by
  unfold State.takePkt at e
  revert e
  repeat' first
    | split
    | (intro x1; clear_value x1)
    | (intro x1; have x2 := fun a => x1 a; clear x2; subst x1)
    | (intro e; refine Upd.ofMap e ?_)
    | (intro e; refine Upd.ofMapSnd e ?_)
    | (intro e; rw [← Option.some.inj e])
    | (intro e; rw [← (Prod.mk.inj (Option.some.inj e)).2])
    | (intro e; cases e; done)
    | with_reducible assumption
    | intro x1
    | lift_lets
    | exact { h with tptIn := .inl a_tptIn, keeps := fun i => { h.keeps i with } }
    | dsimp only
    | with_reducible apply Upd.to_tptIn
    | dsimp +zetaDelta only

end Sys2Proof.Machine
end

