-- ==== Sys2Proof/Laws/FrameLedgerOps.lean ====
section
/-!
SUPPORT. Laws/FrameLedgerOps.lean: which parts of State each operation of Machine/LedgerOps.lean may change, and that it keeps the invariant.
-/
namespace Sys2Proof.Machine
set_option linter.unusedTactic false
set_option linter.unreachableTactic false
set_option linter.unusedVariables false

theorem State.ldgStat_upd {A : Fld → Bool} {s0 s : State} (x1 : ℕ) (h : Upd A s0 s) (a_regs : A .regs = true) : Upd A s0 (State.ldgStat s x1) := by
  unfold State.ldgStat
  repeat' first
    | with_reducible assumption
    | (intro s1; refine (fun (hs1 : Upd A s0 s1) => ?_) ?_; clear_value s1; rotate_left; subst s1; rotate_left)
    | lift_lets
    | with_reducible apply State.set_upd
    | split

theorem State.setCtxSt_upd {A : Fld → Bool} {s0 s : State} (x1 : ℕ) (x2 : ℕ) (h : Upd A s0 s) (a_regs : A .regs = true) : Upd A s0 (State.setCtxSt s x1 x2) := by
  unfold State.setCtxSt
  repeat' first
    | with_reducible assumption
    | lift_lets
    | with_reducible apply State.set_upd
    | with_reducible apply State.ldgStat_upd

theorem State.spillFull_upd {A : Fld → Bool} {s0 s : State} (x1 : ℕ) (h : Upd A s0 s) (a_clhIn : A .clhIn = true) (a_clh : A .clh = true) : Upd A s0 (State.spillFull s x1) := by
  unfold State.spillFull
  repeat' first
    | with_reducible assumption
    | lift_lets
    | with_reducible apply State.limited_upd
    | with_reducible apply State.raise_upd
    | with_reducible refine Upd.ofSnd (by assumption) ?_
    | split

theorem State.spillFirst_upd {A : Fld → Bool} {s0 s : State} (x1 : List ℕ) (h : Upd A s0 s) (a_regs : A .regs = true) (a_hls : A .hls = true) (a_fns : A .fns = true) (a_clhIn : A .clhIn = true) (a_clh : A .clh = true) (a_out : A .out = true) : Upd A s0 (State.spillFirst s x1) := by
  induction x1 generalizing s with
  | nil =>
    unfold State.spillFirst
    repeat' first
      | with_reducible assumption
      | lift_lets
      | with_reducible apply State.bump_upd
      | with_reducible apply State.setCtxSt_upd
      | with_reducible apply State.spillFull_upd
      | split
  | cons x0 x9 ih =>
    unfold State.spillFirst
    repeat' first
      | with_reducible apply ih
      | with_reducible assumption
      | lift_lets
      | with_reducible apply State.bump_upd
      | with_reducible apply State.setCtxSt_upd
      | with_reducible apply State.spillFull_upd
      | split

theorem State.spillPick_upd {A : Fld → Bool} {s0 s : State} (x1 : ℕ) (h : Upd A s0 s) (a_regs : A .regs = true) (a_hls : A .hls = true) (a_fns : A .fns = true) (a_clhIn : A .clhIn = true) (a_clh : A .clh = true) (a_out : A .out = true) : Upd A s0 (State.spillPick s x1) := by
  unfold State.spillPick
  repeat' first
    | with_reducible assumption
    | intro x1
    | (intro x1; clear_value x1)
    | lift_lets
    | with_reducible apply State.spillFirst_upd
    | with_reducible apply Upd.fold
    | split
    | dsimp only

theorem State.entryNeed_upd {A : Fld → Bool} {s0 s : State} (x1 : ℕ) (x2 : Bool) (h : Upd A s0 s) (a_regs : A .regs = true) (a_hls : A .hls = true) (a_fns : A .fns = true) (a_clhIn : A .clhIn = true) (a_clh : A .clh = true) (a_out : A .out = true) : Upd A s0 (State.entryNeed s x1 x2) := by
  unfold State.entryNeed
  repeat' first
    | with_reducible assumption
    | intro x1
    | lift_lets
    | with_reducible apply State.spillPick_upd
    | split
    | dsimp only

theorem State.ldgOp_upd {A : Fld → Bool} {s0 s : State} (x1 : ℕ) (h : Upd A s0 s) (a_regs : A .regs = true) (a_hls : A .hls = true) (a_fns : A .fns = true) (a_out : A .out = true) : Upd A s0 (State.ldgOp s x1) := by
  unfold State.ldgOp
  repeat' first
    | with_reducible assumption
    | lift_lets
    | with_reducible apply State.bump_upd
    | split

theorem State.poolRead_upd {A : Fld → Bool} {s0 s : State} (x1 : ℕ) (x2 : ℕ) (h : Upd A s0 s) (a_freeCtr : A .freeCtr = true) : Upd A s0 (State.poolRead s x1 x2).2 := by
  unfold State.poolRead
  repeat' first
    | with_reducible assumption
    | intro x1
    | lift_lets
    | with_reducible apply State.free_upd
    | with_reducible refine Upd.ofSnd (by assumption) ?_
    | split
    | with_reducible apply Upd.fold
    | with_reducible apply Upd.foldSnd
    | with_reducible apply Upd.foldFst
    | with_reducible apply Upd.foldMid
    | with_reducible apply Upd.foldSnd2
    | dsimp only
    | dsimp +zetaDelta only

theorem State.spillSync_upd {A : Fld → Bool} {s0 s : State} (x1 : ℕ) (x2 : List (ℕ × List ℕ)) (h : Upd A s0 s) (a_regs : A .regs = true) (a_hls : A .hls = true) (a_fns : A .fns = true) (a_tags : A .tags = true) (a_clhIn : A .clhIn = true) (a_freeCtr : A .freeCtr = true) (a_out : A .out = true) : Upd A s0 (State.spillSync s x1 x2) := by
  unfold State.spillSync
  repeat' first
    | with_reducible assumption
    | (intro x1; clear_value x1)
    | intro x1
    | lift_lets
    | with_reducible apply State.postHeld_upd
    | with_reducible apply Upd.fold
    | with_reducible apply Upd.getD
    | split
    | dsimp only

theorem State.relist_upd {A : Fld → Bool} {s0 s : State} (x1 : ℕ) (x2 : List LEntry) (h : Upd A s0 s) (a_regs : A .regs = true) (a_hls : A .hls = true) (a_fns : A .fns = true) (a_entries : A .entries = true) (a_tags : A .tags = true) (a_clhIn : A .clhIn = true) (a_freeCtr : A .freeCtr = true) (a_out : A .out = true) : Upd A s0 (State.relist s x1 x2) := by
  unfold State.relist
  repeat' first
    | with_reducible assumption
    | (intro s1; refine (fun (hs1 : Upd A s0 s1) => ?_) ?_; clear_value s1; rotate_left; subst s1; rotate_left)
    | intro x1
    | lift_lets
    | with_reducible apply State.ldgStat_upd
    | with_reducible apply State.spillSync_upd
    | split
    | dsimp only
    | with_reducible apply Upd.to_entries

theorem State.addEntry_upd {A : Fld → Bool} {s0 s : State} (x1 : LEntry) (h : Upd A s0 s) (a_regs : A .regs = true) (a_hls : A .hls = true) (a_fns : A .fns = true) (a_entries : A .entries = true) (a_tags : A .tags = true) (a_clhIn : A .clhIn = true) (a_freeCtr : A .freeCtr = true) (a_out : A .out = true) : Upd A s0 (State.addEntry s x1) := by
  unfold State.addEntry
  repeat' first
    | with_reducible assumption
    | intro x1
    | (intro x1; clear_value x1)
    | (intro s1; refine (fun (hs1 : Upd A s0 s1) => ?_) ?_; clear_value s1; rotate_left; subst s1; rotate_left)
    | lift_lets
    | with_reducible apply State.relist_upd
    | split
    | with_reducible apply Upd.to_entries
    | with_reducible apply Upd.getD
    | dsimp only

theorem State.delEntry_upd {A : Fld → Bool} {s0 s : State} (x1 : ℕ) (h : Upd A s0 s) (a_regs : A .regs = true) (a_hls : A .hls = true) (a_fns : A .fns = true) (a_entries : A .entries = true) (a_tags : A .tags = true) (a_clhIn : A .clhIn = true) (a_freeCtr : A .freeCtr = true) (a_out : A .out = true) : Upd A s0 (State.delEntry s x1) := by
  unfold State.delEntry
  repeat' first
    | with_reducible assumption
    | intro x1
    | lift_lets
    | with_reducible apply State.relist_upd
    | split
    | exact { h with entries := .inl a_entries, keeps := fun i => { h.keeps i with } }
    | dsimp only

theorem State.newAdm_upd {A : Fld → Bool} {s0 s : State} (x1 : ℕ) (h : Upd A s0 s) (a_ctxs : A .ctxs = true) : Upd A s0 (State.newAdm s x1).2 := by
  unfold State.newAdm
  repeat' first
    | with_reducible assumption
    | intro x1
    | lift_lets
    | with_reducible apply State.modCtx_upd
    | split
    | dsimp only

theorem State.ordSet_upd {A : Fld → Bool} {s0 s : State} (x1 : ℕ) (x2 : ℕ) (x3 : OrderEnt) (h : Upd A s0 s) (a_ctxs : A .ctxs = true) : Upd A s0 (State.ordSet s x1 x2 x3) := by
  unfold State.ordSet
  repeat' first
    | with_reducible assumption
    | lift_lets
    | with_reducible apply State.modCtx_upd

theorem State.ordBack_upd {A : Fld → Bool} {s0 s : State} (x1 : ℕ) (x2 : ℕ) (x3 : ℕ) (h : Upd A s0 s) (a_regs : A .regs = true) (a_hls : A .hls = true) (a_fns : A .fns = true) (a_ctxs : A .ctxs = true) (a_tags : A .tags = true) (a_clhIn : A .clhIn = true) (a_freeCtr : A .freeCtr = true) (a_out : A .out = true) : Upd A s0 (State.ordBack s x1 x2 x3) := by
  unfold State.ordBack
  repeat' first
    | with_reducible assumption
    | lift_lets
    | with_reducible apply State.postHeld_upd
    | with_reducible apply State.modCtx_upd
    | split

theorem State.ordEvict_upd {A : Fld → Bool} {s0 s : State} (h : Upd A s0 s) (a_regs : A .regs = true) (a_hls : A .hls = true) (a_fns : A .fns = true) (a_ctxs : A .ctxs = true) (a_tags : A .tags = true) (a_clhIn : A .clhIn = true) (a_freeCtr : A .freeCtr = true) (a_out : A .out = true) : Upd A s0 (State.ordEvict s) := by
  unfold State.ordEvict
  repeat' first
    | with_reducible assumption
    | intro x1
    | (intro x1; clear_value x1)
    | lift_lets
    | with_reducible apply State.ordBack_upd
    | with_reducible apply State.free_upd
    | with_reducible apply State.modCtx_upd
    | with_reducible refine Upd.ofSnd (by assumption) ?_
    | split
    | dsimp only

theorem State.ordAsk_upd {A : Fld → Bool} {s0 s : State} (x1 : ℕ) (x2 : ℕ) (x3 : ℕ) (h : Upd A s0 s) (a_regs : A .regs = true) (a_hls : A .hls = true) (a_fns : A .fns = true) (a_ctxs : A .ctxs = true) (a_tags : A .tags = true) (a_clhIn : A .clhIn = true) (a_freeCtr : A .freeCtr = true) (a_out : A .out = true) : Upd A s0 (State.ordAsk s x1 x2 x3).2 := by
  unfold State.ordAsk
  repeat' first
    | with_reducible assumption
    | intro x1
    | lift_lets
    | with_reducible apply State.readTlp_upd
    | with_reducible apply State.raise_upd
    | with_reducible apply State.gate_upd
    | with_reducible apply State.modCtx_upd
    | with_reducible apply State.takeTag_upd
    | with_reducible refine Upd.ofSnd (by assumption) ?_
    | split
    | dsimp only

theorem State.ordDone_upd {A : Fld → Bool} {s0 s : State} (x1 : ℕ) (x2 : ℕ) (h : Upd A s0 s) (a_regs : A .regs = true) (a_hls : A .hls = true) (a_fns : A .fns = true) (a_ctxs : A .ctxs = true) (a_tags : A .tags = true) (a_clhIn : A .clhIn = true) (a_freeCtr : A .freeCtr = true) (a_out : A .out = true) : Upd A s0 (State.ordDone s x1 x2) := by
  unfold State.ordDone
  repeat' first
    | with_reducible assumption
    | (intro s1; refine (fun (hs1 : Upd A s0 s1) => ?_) ?_; clear_value s1; rotate_left; subst s1; rotate_left)
    | intro x1
    | lift_lets
    | with_reducible apply State.ordSet_upd
    | with_reducible apply State.postHeld_upd
    | with_reducible apply State.modCtx_upd
    | split
    | dsimp only

theorem State.ovfGiveBack_upd {A : Fld → Bool} {s0 s : State} (x1 : ℕ) (h : Upd A s0 s) (a_regs : A .regs = true) (a_hls : A .hls = true) (a_fns : A .fns = true) (a_accts : A .accts = true) (a_orders : A .orders = true) (a_ovfBufs : A .ovfBufs = true) (a_tags : A .tags = true) (a_clhIn : A .clhIn = true) (a_freeCtr : A .freeCtr = true) (a_out : A .out = true) : Upd A s0 (State.ovfGiveBack s x1) := by
  unfold State.ovfGiveBack
  repeat' first
    | with_reducible assumption
    | (intro s1; refine (fun (hs1 : Upd A s0 s1) => ?_) ?_; clear_value s1; rotate_left; subst s1; rotate_left)
    | lift_lets
    | with_reducible apply State.complete_upd
    | with_reducible apply State.ldgStat_upd
    | split
    | exact { h with ovfBufs := .inl a_ovfBufs, keeps := fun i => { h.keeps i with } }

theorem State.ovfRelease_upd {A : Fld → Bool} {s0 s : State} (x1 : ℕ) (h : Upd A s0 s) (a_regs : A .regs = true) (a_hls : A .hls = true) (a_fns : A .fns = true) (a_accts : A .accts = true) (a_orders : A .orders = true) (a_ovfBufs : A .ovfBufs = true) (a_tags : A .tags = true) (a_clhIn : A .clhIn = true) (a_freeCtr : A .freeCtr = true) (a_out : A .out = true) : Upd A s0 (State.ovfRelease s x1) := by
  unfold State.ovfRelease
  repeat' first
    | with_reducible assumption
    | (intro s1; refine (fun (hs1 : Upd A s0 s1) => ?_) ?_; clear_value s1; rotate_left; subst s1; rotate_left)
    | lift_lets
    | with_reducible apply State.ovfGiveBack_upd
    | exact { h with ovfBufs := .inl a_ovfBufs, keeps := fun i => { h.keeps i with } }

theorem State.ovfReserve_upd {A : Fld → Bool} {s0 s : State} (x1 : ℕ) (x2 : ℕ) (x3 : ℕ) (h : Upd A s0 s) (a_regs : A .regs = true) (a_hls : A .hls = true) (a_fns : A .fns = true) (a_accts : A .accts = true) (a_orders : A .orders = true) (a_ovfBufs : A .ovfBufs = true) (a_tags : A .tags = true) (a_clhIn : A .clhIn = true) (a_freeCtr : A .freeCtr = true) (a_out : A .out = true) : Upd A s0 (State.ovfReserve s x1 x2 x3).2 := by
  induction x3 generalizing s with
  | zero =>
    unfold State.ovfReserve
    repeat' first
      | with_reducible assumption
      | (intro x1; have x2 := fun a => x1 a; clear x2; subst x1)
      | (intro x1; clear_value x1)
      | intro x1
      | lift_lets
      | with_reducible apply State.ovfGiveBack_upd
      | split
      | dsimp only
      | with_reducible apply Upd.to_ovfBufs
      | dsimp +zetaDelta only
  | succ x0 ih =>
    unfold State.ovfReserve
    repeat' first
      | with_reducible apply ih
      | with_reducible assumption
      | (intro x1; have x2 := fun a => x1 a; clear x2; subst x1)
      | (intro x1; clear_value x1)
      | intro x1
      | lift_lets
      | with_reducible apply State.ovfGiveBack_upd
      | split
      | dsimp only
      | with_reducible apply Upd.to_ovfBufs
      | dsimp +zetaDelta only

theorem State.recvDone_upd {A : Fld → Bool} {s0 s : State} (x1 : LEntry) (x2 : ℕ) (x3 : ℕ) (x4 : ℕ) (x5 : ℕ) (h : Upd A s0 s) (a_regs : A .regs = true) (a_hls : A .hls = true) (a_fns : A .fns = true) (a_accts : A .accts = true) (a_orders : A .orders = true) (a_tags : A .tags = true) (a_clhIn : A .clhIn = true) (a_freeCtr : A .freeCtr = true) (a_out : A .out = true) : Upd A s0 (State.recvDone s x1 x2 x3 x4 x5) := by
  unfold State.recvDone
  repeat' first
    | with_reducible assumption
    | lift_lets
    | with_reducible apply State.complete_upd

theorem State.recvNone_upd {A : Fld → Bool} {s0 s : State} (x1 : EvtInfo) (x2 : ℕ) (x3 : ℕ) (h : Upd A s0 s) (a_regs : A .regs = true) (a_hls : A .hls = true) (a_fns : A .fns = true) (a_accts : A .accts = true) (a_orders : A .orders = true) (a_tags : A .tags = true) (a_clhIn : A .clhIn = true) (a_freeCtr : A .freeCtr = true) (a_out : A .out = true) : Upd A s0 (State.recvNone s x1 x2 x3) := by
  unfold State.recvNone
  repeat' first
    | with_reducible assumption
    | lift_lets
    | with_reducible apply State.complete_upd
    | with_reducible apply State.free_upd
    | with_reducible refine Upd.ofSnd (by assumption) ?_

theorem State.delMatch_upd {A : Fld → Bool} {s0 s : State} (x1 : ℕ) (h : Upd A s0 s) (a_lmatches : A .lmatches = true) : Upd A s0 (State.delMatch s x1) := by
  unfold State.delMatch
  repeat' first
    | with_reducible assumption
    | lift_lets
    | exact { h with lmatches := .inl a_lmatches, keeps := fun i => { h.keeps i with } }

theorem State.modMatch_upd {A : Fld → Bool} {s0 s : State} (x1 : ℕ) (x2 : (LMatch → LMatch)) (h : Upd A s0 s) (a_lmatches : A .lmatches = true) : Upd A s0 (State.modMatch s x1 x2) := by
  unfold State.modMatch
  repeat' first
    | with_reducible assumption
    | lift_lets
    | exact { h with lmatches := .inl a_lmatches, keeps := fun i => { h.keeps i with } }

theorem State.matchDone_upd {A : Fld → Bool} {s0 s : State} (x1 : LMatch) (x2 : ℕ) (h : Upd A s0 s) (a_regs : A .regs = true) (a_hls : A .hls = true) (a_fns : A .fns = true) (a_accts : A .accts = true) (a_orders : A .orders = true) (a_tags : A .tags = true) (a_clhIn : A .clhIn = true) (a_freeCtr : A .freeCtr = true) (a_out : A .out = true) : Upd A s0 (State.matchDone s x1 x2) := by
  unfold State.matchDone
  repeat' first
    | with_reducible assumption
    | lift_lets
    | with_reducible apply State.recvDone_upd

theorem State.pullStart_upd {A : Fld → Bool} {s0 s : State} (x1 : LMatch) (h : Upd A s0 s) (a_regs : A .regs = true) (a_hls : A .hls = true) (a_fns : A .fns = true) (a_srcMsgs : A .srcMsgs = true) (a_lmatches : A .lmatches = true) (a_nextId : A .nextId = true) (a_out : A .out = true) : Upd A s0 (State.pullStart s x1) := by
  unfold State.pullStart
  repeat' first
    | with_reducible assumption
    | lift_lets
    | with_reducible apply State.openSrc_upd
    | with_reducible apply State.bump_upd
    | with_reducible apply State.modMatch_upd
    | with_reducible refine Upd.ofSnd (by assumption) ?_

theorem State.pullFor_upd {A : Fld → Bool} {s0 s : State} (x1 : LEntry) (x2 : LEntry) (x3 : HostView) (h : Upd A s0 s) (a_regs : A .regs = true) (a_hls : A .hls = true) (a_fns : A .fns = true) (a_accts : A .accts = true) (a_srcMsgs : A .srcMsgs = true) (a_rankCache : A .rankCache = true) (a_orders : A .orders = true) (a_lmatches : A .lmatches = true) (a_tags : A .tags = true) (a_clhIn : A .clhIn = true) (a_freeCtr : A .freeCtr = true) (a_nextId : A .nextId = true) (a_out : A .out = true) : Upd A s0 (State.pullFor s x1 x2 x3) := by
  unfold State.pullFor
  repeat' first
    | with_reducible assumption
    | lift_lets
    | with_reducible apply State.rankXlate_upd
    | with_reducible apply State.newId_upd
    | with_reducible apply State.recvDone_upd
    | with_reducible apply State.pullStart_upd
    | with_reducible refine Upd.ofSnd (by assumption) ?_
    | with_reducible refine Upd.ofSnd2 (by assumption) ?_
    | with_reducible apply Upd.getD
    | split
    | with_reducible apply Upd.to_lmatches

theorem State.admitHdr_upd {A : Fld → Bool} {s0 s : State} (x1 : LEntry) (x2 : HostView) (h : Upd A s0 s) (a_regs : A .regs = true) (a_hls : A .hls = true) (a_fns : A .fns = true) (a_accts : A .accts = true) (a_ctxs : A .ctxs = true) (a_srcMsgs : A .srcMsgs = true) (a_rankCache : A .rankCache = true) (a_orders : A .orders = true) (a_entries : A .entries = true) (a_lmatches : A .lmatches = true) (a_tags : A .tags = true) (a_clhIn : A .clhIn = true) (a_freeCtr : A .freeCtr = true) (a_nextId : A .nextId = true) (a_out : A .out = true) : Upd A s0 (State.admitHdr s x1 x2).2 := by
  unfold State.admitHdr
  repeat' first
    | with_reducible assumption
    | intro x1
    | (intro s1; refine (fun (hs1 : Upd A s0 s1) => ?_) ?_; clear_value s1; rotate_left; subst s1; rotate_left)
    | lift_lets
    | with_reducible apply State.bump_upd
    | with_reducible apply State.ldgOp_upd
    | with_reducible apply State.delEntry_upd
    | with_reducible apply State.addEntry_upd
    | with_reducible apply State.pullFor_upd
    | with_reducible apply State.newAdm_upd
    | with_reducible refine Upd.ofSnd (by assumption) ?_
    | with_reducible refine Upd.ofSnd2 (by assumption) ?_
    | with_reducible apply Upd.getD
    | split
    | with_reducible apply Upd.to_lmatches
    | dsimp only

theorem State.releaseEarly_upd {A : Fld → Bool} {s0 s : State} (x1 : ℕ) (x2 : ℕ) (x3 : HostView) (x4 : ℕ) (h : Upd A s0 s) (a_regs : A .regs = true) (a_hls : A .hls = true) (a_fns : A .fns = true) (a_accts : A .accts = true) (a_ctxs : A .ctxs = true) (a_srcMsgs : A .srcMsgs = true) (a_rankCache : A .rankCache = true) (a_orders : A .orders = true) (a_entries : A .entries = true) (a_lmatches : A .lmatches = true) (a_tags : A .tags = true) (a_clhIn : A .clhIn = true) (a_freeCtr : A .freeCtr = true) (a_nextId : A .nextId = true) (a_out : A .out = true) : Upd A s0 (State.releaseEarly s x1 x2 x3 x4) := by
  induction x4 generalizing s with
  | zero =>
    unfold State.releaseEarly
    repeat' first
      | with_reducible assumption
      | (intro s1; refine (fun (hs1 : Upd A s0 s1) => ?_) ?_; clear_value s1; rotate_left; subst s1; rotate_left)
      | lift_lets
      | with_reducible apply State.delEntry_upd
      | with_reducible apply State.ordSet_upd
      | with_reducible apply State.admitHdr_upd
      | with_reducible refine Upd.ofSnd (by assumption) ?_
      | split
  | succ x0 ih =>
    unfold State.releaseEarly
    repeat' first
      | with_reducible apply ih
      | with_reducible assumption
      | (intro s1; refine (fun (hs1 : Upd A s0 s1) => ?_) ?_; clear_value s1; rotate_left; subst s1; rotate_left)
      | lift_lets
      | with_reducible apply State.delEntry_upd
      | with_reducible apply State.ordSet_upd
      | with_reducible apply State.admitHdr_upd
      | with_reducible refine Upd.ofSnd (by assumption) ?_
      | split

end Sys2Proof.Machine
end

