-- ==== Sys2Proof/Laws/FrameFinish.lean ====
section
/-!
SUPPORT. Laws/FrameFinish.lean: which parts of State each operation of Machine/Finish.lean may change, and that it keeps the invariant.
-/
namespace Sys2Proof.Machine
set_option linter.unusedTactic false
set_option linter.unreachableTactic false
set_option linter.unusedVariables false

theorem State.aptFault_upd {A : Fld → Bool} {s0 s : State} (x1 : ℕ) (x2 : ℕ) (x3 : ℕ) (x4 : Bool) (h : Upd A s0 s) (a_regs : A .regs = true) (a_hls : A .hls = true) (a_fns : A .fns = true) (a_clhIn : A .clhIn = true) (a_out : A .out = true) : Upd A s0 (State.aptFault s x1 x2 x3 x4) := by
  unfold State.aptFault
  repeat' first
    | with_reducible assumption
    | (intro s1; refine (fun (hs1 : Upd A s0 s1) => ?_) ?_; clear_value s1; rotate_left; subst s1; rotate_left)
    | lift_lets
    | with_reducible apply State.bump_upd
    | with_reducible apply State.set_upd
    | with_reducible apply State.raise_upd
    | split

theorem State.aptStart_upd {A : Fld → Bool} {s0 s : State} (x1 : AptWait) (h : Upd A s0 s) (a_regs : A .regs = true) (a_srcMsgs : A .srcMsgs = true) (a_aptWaits : A .aptWaits = true) (a_nextId : A .nextId = true) : Upd A s0 (State.aptStart s x1) := by
  unfold State.aptStart
  repeat' first
    | with_reducible assumption
    | intro x1
    | (intro x1; clear_value x1)
    | (intro s1; refine (fun (hs1 : Upd A s0 s1) => ?_) ?_; clear_value s1; rotate_left; subst s1; rotate_left)
    | lift_lets
    | with_reducible apply State.openSrc_upd
    | with_reducible refine Upd.ofSnd (by assumption) ?_
    | split
    | exact { h with aptWaits := .inl a_aptWaits, keeps := fun i => { h.keeps i with } }
    | with_reducible apply Upd.getD
    | dsimp only
    | with_reducible apply Upd.to_aptWaits

theorem State.finOpen_upd {A : Fld → Bool} {s0 s : State} (x1 : LMatch) (h : Upd A s0 s) (a_regs : A .regs = true) (a_srcMsgs : A .srcMsgs = true) (a_lmatches : A .lmatches = true) (a_nextId : A .nextId = true) : Upd A s0 (State.finOpen s x1) := by
  unfold State.finOpen
  repeat' first
    | with_reducible assumption
    | (intro x1; clear_value x1)
    | intro x1
    | lift_lets
    | with_reducible apply State.delMatch_upd
    | with_reducible apply State.openSrc_upd
    | with_reducible refine Upd.ofSnd (by assumption) ?_
    | split
    | dsimp only

theorem State.serveWaits_upd {A : Fld → Bool} {s0 s : State} (x1 : ℕ) (h : Upd A s0 s) (a_regs : A .regs = true) (a_hls : A .hls = true) (a_fns : A .fns = true) (a_srcMsgs : A .srcMsgs = true) (a_aptWaits : A .aptWaits = true) (a_lmatches : A .lmatches = true) (a_nextId : A .nextId = true) (a_out : A .out = true) : Upd A s0 (State.serveWaits s x1) := by
  induction x1 generalizing s with
  | zero =>
    unfold State.serveWaits
    repeat' first
      | with_reducible assumption
      | (intro x1; have x2 := fun a => x1 a; clear x2; subst x1)
      | (intro x1; clear_value x1)
      | intro x1
      | lift_lets
      | with_reducible apply State.aptStart_upd
      | with_reducible apply State.finOpen_upd
      | with_reducible apply State.pullStart_upd
      | split
      | dsimp only
      | dsimp +zetaDelta only
  | succ x0 ih =>
    unfold State.serveWaits
    repeat' first
      | with_reducible apply ih
      | with_reducible assumption
      | (intro x1; have x2 := fun a => x1 a; clear x2; subst x1)
      | (intro x1; clear_value x1)
      | intro x1
      | lift_lets
      | with_reducible apply State.aptStart_upd
      | with_reducible apply State.finOpen_upd
      | with_reducible apply State.pullStart_upd
      | split
      | dsimp only
      | dsimp +zetaDelta only

theorem State.serveAll_upd {A : Fld → Bool} {s0 s : State} (h : Upd A s0 s) (a_regs : A .regs = true) (a_hls : A .hls = true) (a_fns : A .fns = true) (a_srcMsgs : A .srcMsgs = true) (a_aptWaits : A .aptWaits = true) (a_lmatches : A .lmatches = true) (a_nextId : A .nextId = true) (a_out : A .out = true) : Upd A s0 (State.serveAll s) := by
  unfold State.serveAll
  repeat' first
    | with_reducible assumption
    | intro x1
    | lift_lets
    | with_reducible apply State.serveWaits_upd
    | split
    | dsimp only

theorem State.finStart_upd {A : Fld → Bool} {s0 s : State} (x1 : SrcMsg) (x2 : ℕ) (h : Upd A s0 s) (a_regs : A .regs = true) (a_srcMsgs : A .srcMsgs = true) : Upd A s0 (State.finStart s x1 x2) := by
  unfold State.finStart
  repeat' first
    | with_reducible assumption
    | intro x1
    | (intro x1; clear_value x1)
    | lift_lets
    | with_reducible apply State.newMsgId_upd
    | with_reducible apply State.modSrc_upd
    | with_reducible refine Upd.ofSnd (by assumption) ?_
    | split
    | dsimp only

theorem State.rndvEnd_upd {A : Fld → Bool} {s0 s : State} (x1 : LEntry) (x2 : ℕ) (h : Upd A s0 s) (a_regs : A .regs = true) (a_hls : A .hls = true) (a_fns : A .fns = true) (a_accts : A .accts = true) (a_ctxs : A .ctxs = true) (a_srcMsgs : A .srcMsgs = true) (a_orders : A .orders = true) (a_aptWaits : A .aptWaits = true) (a_entries : A .entries = true) (a_lmatches : A .lmatches = true) (a_tags : A .tags = true) (a_clhIn : A .clhIn = true) (a_freeCtr : A .freeCtr = true) (a_nextId : A .nextId = true) (a_out : A .out = true) : Upd A s0 (State.rndvEnd s x1 x2) := by
  unfold State.rndvEnd
  repeat' first
    | with_reducible assumption
    | intro x1
    | (intro s1; refine (fun (hs1 : Upd A s0 s1) => ?_) ?_; clear_value s1; rotate_left; subst s1; rotate_left)
    | lift_lets
    | with_reducible apply State.tptStat_upd
    | with_reducible apply State.delEntry_upd
    | with_reducible apply State.complete_upd
    | with_reducible apply State.ordDone_upd
    | with_reducible apply State.serveAll_upd
    | exact { h with srcMsgs := .inl a_srcMsgs, keeps := fun i => { h.keeps i with } }
    | split
    | dsimp only
    | with_reducible apply Upd.to_srcMsgs

theorem State.msgEnd_upd {A : Fld → Bool} {s0 s : State} (x1 : SrcMsg) (x2 : ℕ) (x3 : Option ℕ) (h : Upd A s0 s) (a_regs : A .regs = true) (a_hls : A .hls = true) (a_fns : A .fns = true) (a_accts : A .accts = true) (a_ctxs : A .ctxs = true) (a_srcMsgs : A .srcMsgs = true) (a_orders : A .orders = true) (a_aptWaits : A .aptWaits = true) (a_entries : A .entries = true) (a_lmatches : A .lmatches = true) (a_tags : A .tags = true) (a_clhIn : A .clhIn = true) (a_freeCtr : A .freeCtr = true) (a_nextId : A .nextId = true) (a_out : A .out = true) : Upd A s0 (State.msgEnd s x1 x2 x3) := by
  unfold State.msgEnd
  repeat' first
    | with_reducible assumption
    | intro x1
    | (intro x1; clear_value x1)
    | (intro s1; refine (fun (hs1 : Upd A s0 s1) => ?_) ?_; clear_value s1; rotate_left; subst s1; rotate_left)
    | (intro x1; have x2 := fun a => x1 a; clear x2; subst x1)
    | (intro x1; have x2 := Prod.snd x1; clear x2; subst x1)
    | lift_lets
    | with_reducible apply State.ordDone_upd
    | with_reducible apply State.matchDone_upd
    | with_reducible apply State.aptFault_upd
    | with_reducible apply State.complete_upd
    | with_reducible apply State.free_upd
    | with_reducible apply State.finStart_upd
    | with_reducible apply State.rndvEnd_upd
    | with_reducible apply State.modSrc_upd
    | with_reducible apply State.delSrc_upd
    | with_reducible apply State.delMatch_upd
    | with_reducible apply State.emit_upd
    | with_reducible apply State.serveAll_upd
    | with_reducible apply State.cplErr_upd
    | with_reducible refine Upd.ofSnd (by assumption) ?_
    | split
    | dsimp only
    | dsimp +zetaDelta only

theorem State.msgFail_upd {A : Fld → Bool} {s0 s : State} (x1 : SrcMsg) (x2 : ℕ) (h : Upd A s0 s) (a_regs : A .regs = true) (a_hls : A .hls = true) (a_fns : A .fns = true) (a_accts : A .accts = true) (a_ctxs : A .ctxs = true) (a_srcMsgs : A .srcMsgs = true) (a_orders : A .orders = true) (a_aptWaits : A .aptWaits = true) (a_entries : A .entries = true) (a_lmatches : A .lmatches = true) (a_tags : A .tags = true) (a_clhIn : A .clhIn = true) (a_freeCtr : A .freeCtr = true) (a_nextId : A .nextId = true) (a_out : A .out = true) : Upd A s0 (State.msgFail s x1 x2) := by
  unfold State.msgFail
  repeat' first
    | with_reducible assumption
    | lift_lets
    | with_reducible apply State.msgEnd_upd

theorem State.failDecided_upd {A : Fld → Bool} {s0 s : State} (x1 : SrcMsg) (x2 : ℕ) (h : Upd A s0 s) (a_regs : A .regs = true) (a_hls : A .hls = true) (a_fns : A .fns = true) (a_accts : A .accts = true) (a_ctxs : A .ctxs = true) (a_srcMsgs : A .srcMsgs = true) (a_orders : A .orders = true) (a_aptWaits : A .aptWaits = true) (a_entries : A .entries = true) (a_lmatches : A .lmatches = true) (a_tags : A .tags = true) (a_clhIn : A .clhIn = true) (a_freeCtr : A .freeCtr = true) (a_nextId : A .nextId = true) (a_out : A .out = true) : Upd A s0 (State.failDecided s x1 x2) := by
  unfold State.failDecided
  repeat' first
    | with_reducible assumption
    | intro x1
    | lift_lets
    | with_reducible apply State.msgFail_upd
    | split
    | dsimp only

theorem State.sendNext_upd {A : Fld → Bool} {s0 s : State} (x1 : SrcMsg) (x2 : HostView) (h : Upd A s0 s) (a_regs : A .regs = true) (a_ports : A .ports = true) (a_hls : A .hls = true) (a_fns : A .fns = true) (a_accts : A .accts = true) (a_ctxs : A .ctxs = true) (a_srcMsgs : A .srcMsgs = true) (a_orders : A .orders = true) (a_aptWaits : A .aptWaits = true) (a_entries : A .entries = true) (a_lmatches : A .lmatches = true) (a_tags : A .tags = true) (a_ctxSent : A .ctxSent = true) (a_clhIn : A .clhIn = true) (a_tptIn : A .tptIn = true) (a_mcIn : A .mcIn = true) (a_fifelIn : A .fifelIn = true) (a_samples : A .samples = true) (a_sampleLost : A .sampleLost = true) (a_clh : A .clh = true) (a_rotate : A .rotate = true) (a_freeCtr : A .freeCtr = true) (a_nextId : A .nextId = true) (a_out : A .out = true) : Upd A s0 (State.sendNext s x1 x2) := by
  unfold State.sendNext
  repeat' first
    | with_reducible assumption
    | intro x1
    | (intro x1; clear_value x1)
    | lift_lets
    | with_reducible apply State.newMsgId_upd
    | with_reducible apply State.modSrc_upd
    | with_reducible apply State.sendPkt_upd
    | with_reducible apply State.failDecided_upd
    | with_reducible refine Upd.ofSnd (by assumption) ?_
    | split
    | dsimp only

theorem State.sendAgain_upd {A : Fld → Bool} {s0 s : State} (x1 : ℕ) (x2 : ℕ) (x3 : ℕ) (x4 : ℕ) (x5 : HostView) (x6 : optParam Bool false) (h : Upd A s0 s) (a_regs : A .regs = true) (a_ports : A .ports = true) (a_hls : A .hls = true) (a_fns : A .fns = true) (a_accts : A .accts = true) (a_ctxs : A .ctxs = true) (a_srcMsgs : A .srcMsgs = true) (a_orders : A .orders = true) (a_aptWaits : A .aptWaits = true) (a_entries : A .entries = true) (a_lmatches : A .lmatches = true) (a_tags : A .tags = true) (a_ctxSent : A .ctxSent = true) (a_clhIn : A .clhIn = true) (a_tptIn : A .tptIn = true) (a_mcIn : A .mcIn = true) (a_fifelIn : A .fifelIn = true) (a_samples : A .samples = true) (a_sampleLost : A .sampleLost = true) (a_clh : A .clh = true) (a_rotate : A .rotate = true) (a_freeCtr : A .freeCtr = true) (a_nextId : A .nextId = true) (a_out : A .out = true) : Upd A s0 (State.sendAgain s x1 x2 x3 x4 x5 x6) := by
  unfold State.sendAgain
  repeat' first
    | with_reducible assumption
    | intro x1
    | (intro x1; clear_value x1)
    | (intro x1; have x2 := fun a => x1 a; clear x2; subst x1)
    | lift_lets
    | with_reducible apply State.modSrc_upd
    | with_reducible apply State.sendPkt_upd
    | with_reducible apply State.msgFail_upd
    | with_reducible refine Upd.ofSnd (by assumption) ?_
    | split
    | dsimp only
    | dsimp +zetaDelta only

theorem State.sendNamed_upd {A : Fld → Bool} {s0 s : State} (x1 : SrcMsg) (x2 : ℕ) (x3 : HostView) (x4 : Bool) (h : Upd A s0 s) (a_regs : A .regs = true) (a_ports : A .ports = true) (a_hls : A .hls = true) (a_fns : A .fns = true) (a_accts : A .accts = true) (a_ctxs : A .ctxs = true) (a_srcMsgs : A .srcMsgs = true) (a_orders : A .orders = true) (a_aptWaits : A .aptWaits = true) (a_entries : A .entries = true) (a_lmatches : A .lmatches = true) (a_tags : A .tags = true) (a_ctxSent : A .ctxSent = true) (a_clhIn : A .clhIn = true) (a_tptIn : A .tptIn = true) (a_mcIn : A .mcIn = true) (a_fifelIn : A .fifelIn = true) (a_samples : A .samples = true) (a_sampleLost : A .sampleLost = true) (a_clh : A .clh = true) (a_rotate : A .rotate = true) (a_freeCtr : A .freeCtr = true) (a_nextId : A .nextId = true) (a_out : A .out = true) : Upd A s0 (State.sendNamed s x1 x2 x3 x4) := by
  unfold State.sendNamed
  repeat' first
    | with_reducible assumption
    | intro x1
    | lift_lets
    | with_reducible apply State.sendAgain_upd
    | split
    | dsimp only

theorem State.sendProbe_upd {A : Fld → Bool} {s0 s : State} (x1 : SrcMsg) (x2 : HostView) (h : Upd A s0 s) (a_regs : A .regs = true) (a_ports : A .ports = true) (a_hls : A .hls = true) (a_fns : A .fns = true) (a_accts : A .accts = true) (a_ctxs : A .ctxs = true) (a_srcMsgs : A .srcMsgs = true) (a_orders : A .orders = true) (a_aptWaits : A .aptWaits = true) (a_entries : A .entries = true) (a_lmatches : A .lmatches = true) (a_tags : A .tags = true) (a_ctxSent : A .ctxSent = true) (a_clhIn : A .clhIn = true) (a_tptIn : A .tptIn = true) (a_mcIn : A .mcIn = true) (a_fifelIn : A .fifelIn = true) (a_samples : A .samples = true) (a_sampleLost : A .sampleLost = true) (a_clh : A .clh = true) (a_rotate : A .rotate = true) (a_freeCtr : A .freeCtr = true) (a_nextId : A .nextId = true) (a_out : A .out = true) : Upd A s0 (State.sendProbe s x1 x2) := by
  unfold State.sendProbe
  repeat' first
    | with_reducible assumption
    | intro x1
    | lift_lets
    | with_reducible apply State.sendAgain_upd
    | with_reducible apply Upd.fold
    | split

end Sys2Proof.Machine
end

