-- ==== Sys2Proof/Laws/FrameTransport.lean ====
section
/-!
SUPPORT. Laws/FrameTransport.lean: which parts of State each operation of Machine/Transport.lean may change, and that it keeps the invariant.
-/
namespace Sys2Proof.Machine
set_option linter.unusedTactic false
set_option linter.unreachableTactic false
set_option linter.unusedVariables false

theorem State.takeQs_upd_eq {A : Fld → Bool} {s0 s : State} {x1 : ℕ} {y0} {t : State} (h : Upd A s0 s) (e : State.takeQs s x1 = some (y0, t)) (a_qsHere : A .qsHere = true) : Upd A s0 t := by
  unfold State.takeQs at e
  revert e
  repeat' first
    | split
    | (intro e; refine Upd.ofMap e ?_)
    | (intro e; refine Upd.ofMapSnd e ?_)
    | (intro e; rw [← Option.some.inj e])
    | (intro e; rw [← (Prod.mk.inj (Option.some.inj e)).2])
    | (intro e; cases e; done)
    | with_reducible assumption
    | intro x1
    | lift_lets
    | exact { h with qsHere := .inl a_qsHere, keeps := fun i => { h.keeps i with } }

theorem execPacketSend_upd_eq {A : Fld → Bool} {s0 s : State} {x1 : ℕ} {x2 : HostView} {t : State} (h : Upd A s0 s) (e : execPacketSend x1 x2 s = .next t) (a_regs : A .regs = true) (a_ports : A .ports = true) (a_hls : A .hls = true) (a_fns : A .fns = true) (a_accts : A .accts = true) (a_ctxs : A .ctxs = true) (a_srcMsgs : A .srcMsgs = true) (a_orders : A .orders = true) (a_aptWaits : A .aptWaits = true) (a_entries : A .entries = true) (a_lmatches : A .lmatches = true) (a_tags : A .tags = true) (a_ctxSent : A .ctxSent = true) (a_clhIn : A .clhIn = true) (a_tptIn : A .tptIn = true) (a_mcIn : A .mcIn = true) (a_fifelIn : A .fifelIn = true) (a_samples : A .samples = true) (a_sampleLost : A .sampleLost = true) (a_clh : A .clh = true) (a_pwr : A .pwr = true) (a_boot : A .boot = true) (a_rotate : A .rotate = true) (a_freeCtr : A .freeCtr = true) (a_nextId : A .nextId = true) (a_out : A .out = true) : Upd A s0 t := by
  unfold execPacketSend at e
  cases e
  repeat' first
    | with_reducible assumption
    | intro x1
    | lift_lets
    | with_reducible apply State.idleZero_upd
    | with_reducible apply State.sendNext_upd
    | with_reducible apply State.activityUpd_upd
    | with_reducible apply State.sendNamed_upd
    | split
    | dsimp only

theorem execReceipt_upd_eq {A : Fld → Bool} {s0 s : State} {t : State} (h : Upd A s0 s) (e : execReceipt s = .next t) (a_regs : A .regs = true) (a_ports : A .ports = true) (a_hls : A .hls = true) (a_fns : A .fns = true) (a_accts : A .accts = true) (a_ctxs : A .ctxs = true) (a_srcMsgs : A .srcMsgs = true) (a_orders : A .orders = true) (a_aptWaits : A .aptWaits = true) (a_entries : A .entries = true) (a_lmatches : A .lmatches = true) (a_tags : A .tags = true) (a_ctxSent : A .ctxSent = true) (a_clhIn : A .clhIn = true) (a_tptIn : A .tptIn = true) (a_mcIn : A .mcIn = true) (a_fifelIn : A .fifelIn = true) (a_qsHere : A .qsHere = true) (a_samples : A .samples = true) (a_sampleLost : A .sampleLost = true) (a_clh : A .clh = true) (a_pwr : A .pwr = true) (a_boot : A .boot = true) (a_rotate : A .rotate = true) (a_freeCtr : A .freeCtr = true) (a_nextId : A .nextId = true) (a_out : A .out = true) : Upd A s0 t := by
  unfold execReceipt at e
  cases e
  repeat' first
    | with_reducible assumption
    | intro x1
    | (intro x1; clear_value x1)
    | (intro s1; refine (fun (hs1 : Upd A s0 s1) => ?_) ?_; clear_value s1; rotate_left; subst s1; rotate_left)
    | lift_lets
    | with_reducible apply State.bump_upd
    | with_reducible apply State.ctxSample_upd
    | with_reducible apply State.ctxHalve_upd
    | with_reducible apply State.activityUpd_upd
    | with_reducible apply State.msgEnd_upd
    | with_reducible refine State.takeQs_upd_eq ?_ (by assumption) (by assumption)
    | split
    | dsimp only

theorem execE2eNak_upd_eq {A : Fld → Bool} {s0 s : State} {t : State} (h : Upd A s0 s) (e : execE2eNak s = .next t) (a_regs : A .regs = true) (a_ports : A .ports = true) (a_hls : A .hls = true) (a_fns : A .fns = true) (a_accts : A .accts = true) (a_ctxs : A .ctxs = true) (a_srcMsgs : A .srcMsgs = true) (a_orders : A .orders = true) (a_aptWaits : A .aptWaits = true) (a_entries : A .entries = true) (a_lmatches : A .lmatches = true) (a_tags : A .tags = true) (a_clhIn : A .clhIn = true) (a_tptIn : A .tptIn = true) (a_mcIn : A .mcIn = true) (a_fifelIn : A .fifelIn = true) (a_qsHere : A .qsHere = true) (a_samples : A .samples = true) (a_sampleLost : A .sampleLost = true) (a_clh : A .clh = true) (a_pwr : A .pwr = true) (a_boot : A .boot = true) (a_rotate : A .rotate = true) (a_freeCtr : A .freeCtr = true) (a_nextId : A .nextId = true) (a_out : A .out = true) : Upd A s0 t := by
  unfold execE2eNak at e
  cases e
  repeat' first
    | with_reducible assumption
    | intro x1
    | (intro x1; clear_value x1)
    | (intro s1; refine (fun (hs1 : Upd A s0 s1) => ?_) ?_; clear_value s1; rotate_left; subst s1; rotate_left)
    | lift_lets
    | with_reducible apply State.bump_upd
    | with_reducible apply State.modSrc_upd
    | with_reducible apply State.msgFail_upd
    | with_reducible refine State.takeQs_upd_eq ?_ (by assumption) (by assumption)
    | with_reducible apply State.activityUpd_upd
    | split
    | dsimp only

theorem execNakDelayExpiry_upd_eq {A : Fld → Bool} {s0 s : State} {x1 : ℕ} {x2 : ℕ} {x3 : HostView} {t : State} (h : Upd A s0 s) (e : execNakDelayExpiry x1 x2 x3 s = .next t) (a_regs : A .regs = true) (a_ports : A .ports = true) (a_hls : A .hls = true) (a_fns : A .fns = true) (a_accts : A .accts = true) (a_ctxs : A .ctxs = true) (a_srcMsgs : A .srcMsgs = true) (a_orders : A .orders = true) (a_aptWaits : A .aptWaits = true) (a_entries : A .entries = true) (a_lmatches : A .lmatches = true) (a_tags : A .tags = true) (a_ctxSent : A .ctxSent = true) (a_clhIn : A .clhIn = true) (a_tptIn : A .tptIn = true) (a_mcIn : A .mcIn = true) (a_fifelIn : A .fifelIn = true) (a_samples : A .samples = true) (a_sampleLost : A .sampleLost = true) (a_clh : A .clh = true) (a_pwr : A .pwr = true) (a_boot : A .boot = true) (a_rotate : A .rotate = true) (a_freeCtr : A .freeCtr = true) (a_nextId : A .nextId = true) (a_out : A .out = true) : Upd A s0 t := by
  unfold execNakDelayExpiry at e
  cases e
  repeat' first
    | with_reducible assumption
    | intro x1
    | (intro s1; refine (fun (hs1 : Upd A s0 s1) => ?_) ?_; clear_value s1; rotate_left; subst s1; rotate_left)
    | lift_lets
    | with_reducible apply State.modSrc_upd
    | with_reducible apply State.sendNamed_upd
    | with_reducible apply State.activityUpd_upd
    | split
    | dsimp only

theorem execCecho_upd_eq {A : Fld → Bool} {s0 s : State} {t : State} (h : Upd A s0 s) (e : execCecho s = .next t) (a_regs : A .regs = true) (a_hls : A .hls = true) (a_fns : A .fns = true) (a_srcMsgs : A .srcMsgs = true) (a_ctxSent : A .ctxSent = true) (a_qsHere : A .qsHere = true) (a_out : A .out = true) : Upd A s0 t := by
  unfold execCecho at e
  cases e
  repeat' first
    | with_reducible assumption
    | lift_lets
    | with_reducible apply State.bump_upd
    | with_reducible apply State.ctxHalve_upd
    | with_reducible apply State.modSrc_upd
    | with_reducible refine State.takeQs_upd_eq ?_ (by assumption) (by assumption)
    | split
    | dsimp only

theorem State.expire_upd {A : Fld → Bool} {s0 s : State} (x1 : SrcMsg) (x2 : HostView) (h : Upd A s0 s) (a_regs : A .regs = true) (a_ports : A .ports = true) (a_hls : A .hls = true) (a_fns : A .fns = true) (a_accts : A .accts = true) (a_ctxs : A .ctxs = true) (a_srcMsgs : A .srcMsgs = true) (a_orders : A .orders = true) (a_aptWaits : A .aptWaits = true) (a_entries : A .entries = true) (a_lmatches : A .lmatches = true) (a_tags : A .tags = true) (a_ctxSent : A .ctxSent = true) (a_clhIn : A .clhIn = true) (a_tptIn : A .tptIn = true) (a_mcIn : A .mcIn = true) (a_fifelIn : A .fifelIn = true) (a_samples : A .samples = true) (a_sampleLost : A .sampleLost = true) (a_clh : A .clh = true) (a_rotate : A .rotate = true) (a_freeCtr : A .freeCtr = true) (a_nextId : A .nextId = true) (a_out : A .out = true) : Upd A s0 (State.expire s x1 x2) := by
  unfold State.expire
  repeat' first
    | with_reducible assumption
    | intro x1
    | (intro x1; clear_value x1)
    | lift_lets
    | with_reducible apply State.bump_upd
    | with_reducible apply State.modSrc_upd
    | with_reducible apply State.sendProbe_upd
    | with_reducible apply State.msgFail_upd
    | split
    | dsimp only

theorem execUnreach_upd_eq {A : Fld → Bool} {s0 s : State} {x1 : HostView} {t : State} (h : Upd A s0 s) (e : execUnreach x1 s = .next t) (a_regs : A .regs = true) (a_ports : A .ports = true) (a_hls : A .hls = true) (a_fns : A .fns = true) (a_accts : A .accts = true) (a_ctxs : A .ctxs = true) (a_srcMsgs : A .srcMsgs = true) (a_orders : A .orders = true) (a_aptWaits : A .aptWaits = true) (a_entries : A .entries = true) (a_lmatches : A .lmatches = true) (a_tags : A .tags = true) (a_ctxSent : A .ctxSent = true) (a_clhIn : A .clhIn = true) (a_tptIn : A .tptIn = true) (a_mcIn : A .mcIn = true) (a_fifelIn : A .fifelIn = true) (a_qsHere : A .qsHere = true) (a_samples : A .samples = true) (a_sampleLost : A .sampleLost = true) (a_clh : A .clh = true) (a_pwr : A .pwr = true) (a_boot : A .boot = true) (a_rotate : A .rotate = true) (a_freeCtr : A .freeCtr = true) (a_nextId : A .nextId = true) (a_out : A .out = true) : Upd A s0 t := by
  unfold execUnreach at e
  cases e
  repeat' first
    | with_reducible assumption
    | intro x1
    | (intro x1; clear_value x1)
    | lift_lets
    | with_reducible apply State.bump_upd
    | with_reducible apply State.expire_upd
    | with_reducible apply State.msgFail_upd
    | with_reducible refine State.takeQs_upd_eq ?_ (by assumption) (by assumption)
    | with_reducible apply State.activityUpd_upd
    | split
    | dsimp only

theorem execRetransmitTimeout_upd_eq {A : Fld → Bool} {s0 s : State} {x1 : ℕ} {x2 : HostView} {t : State} (h : Upd A s0 s) (e : execRetransmitTimeout x1 x2 s = .next t) (a_regs : A .regs = true) (a_ports : A .ports = true) (a_hls : A .hls = true) (a_fns : A .fns = true) (a_accts : A .accts = true) (a_ctxs : A .ctxs = true) (a_srcMsgs : A .srcMsgs = true) (a_orders : A .orders = true) (a_aptWaits : A .aptWaits = true) (a_entries : A .entries = true) (a_lmatches : A .lmatches = true) (a_tags : A .tags = true) (a_ctxSent : A .ctxSent = true) (a_clhIn : A .clhIn = true) (a_tptIn : A .tptIn = true) (a_mcIn : A .mcIn = true) (a_fifelIn : A .fifelIn = true) (a_samples : A .samples = true) (a_sampleLost : A .sampleLost = true) (a_clh : A .clh = true) (a_pwr : A .pwr = true) (a_boot : A .boot = true) (a_rotate : A .rotate = true) (a_freeCtr : A .freeCtr = true) (a_nextId : A .nextId = true) (a_out : A .out = true) : Upd A s0 t := by
  unfold execRetransmitTimeout at e
  cases e
  repeat' first
    | with_reducible assumption
    | intro x1
    | lift_lets
    | with_reducible apply State.expire_upd
    | with_reducible apply State.activityUpd_upd
    | split
    | dsimp only

theorem execHoleTimerExpiry_upd_eq {A : Fld → Bool} {s0 s : State} {x1 : EndPoint} {x2 : BitVec 32} {t : State} (h : Upd A s0 s) (e : execHoleTimerExpiry x1 x2 s = .next t) (a_regs : A .regs = true) (a_hls : A .hls = true) (a_fns : A .fns = true) (a_qsHere : A .qsHere = true) (a_qsInj : A .qsInj = true) (a_out : A .out = true) : Upd A s0 t := by
  unfold execHoleTimerExpiry at e
  cases e
  repeat' first
    | with_reducible assumption
    | lift_lets
    | with_reducible apply State.nakHoles_upd
    | split

theorem execOpenEntryAbandon_upd_eq {A : Fld → Bool} {s0 s : State} {x1 : EndPoint} {x2 : BitVec 32} {t : State} (h : Upd A s0 s) (e : execOpenEntryAbandon x1 x2 s = .next t) (a_regs : A .regs = true) (a_ports : A .ports = true) (a_hls : A .hls = true) (a_fns : A .fns = true) (a_openMsgs : A .openMsgs = true) (a_filter : A .filter = true) (a_clhIn : A .clhIn = true) (a_tptIn : A .tptIn = true) (a_mcIn : A .mcIn = true) (a_fifelIn : A .fifelIn = true) (a_samples : A .samples = true) (a_sampleLost : A .sampleLost = true) (a_clh : A .clh = true) (a_pwr : A .pwr = true) (a_boot : A .boot = true) (a_rotate : A .rotate = true) (a_freeCtr : A .freeCtr = true) (a_nextId : A .nextId = true) (a_out : A .out = true) : Upd A s0 t := by
  unfold execOpenEntryAbandon at e
  cases e
  repeat' first
    | with_reducible assumption
    | intro x1
    | lift_lets
    | with_reducible apply State.bump_upd
    | with_reducible apply State.filterFree_upd
    | with_reducible apply State.delOpen_upd
    | with_reducible apply State.activityUpd_upd
    | split
    | dsimp only

theorem execFilterExpiry_upd_eq {A : Fld → Bool} {s0 s : State} {x1 : EndPoint} {x2 : BitVec 32} {t : State} (h : Upd A s0 s) (e : execFilterExpiry x1 x2 s = .next t) (a_regs : A .regs = true) (a_filter : A .filter = true) : Upd A s0 t := by
  unfold execFilterExpiry at e
  cases e
  repeat' first
    | with_reducible assumption
    | lift_lets
    | with_reducible apply State.filterFree_upd
    | split

theorem execCwndGrow_upd_eq {A : Fld → Bool} {s0 s : State} {x1 : Fin 65536} {t : State} (h : Upd A s0 s) (e : execCwndGrow x1 s = .next t) (a_regs : A .regs = true) (a_ctxSent : A .ctxSent = true) : Upd A s0 t := by
  unfold execCwndGrow at e
  cases e
  repeat' first
    | with_reducible assumption
    | intro x1
    | (intro x1; clear_value x1)
    | (intro s1; refine (fun (hs1 : Upd A s0 s1) => ?_) ?_; clear_value s1; rotate_left; subst s1; rotate_left)
    | lift_lets
    | with_reducible apply State.set_upd
    | split
    | exact { h with ctxSent := .inl a_ctxSent, keeps := fun i => { h.keeps i with } }
    | dsimp only
    | with_reducible apply Upd.to_ctxSent

theorem execContextIdleReset_upd_eq {A : Fld → Bool} {s0 s : State} {x1 : Fin 65536} {t : State} (h : Upd A s0 s) (e : execContextIdleReset x1 s = .next t) (a_regs : A .regs = true) (a_ctxSent : A .ctxSent = true) : Upd A s0 t := by
  unfold execContextIdleReset at e
  cases e
  repeat' first
    | with_reducible assumption
    | lift_lets
    | with_reducible apply State.set_upd
    | exact { h with ctxSent := .inl a_ctxSent, keeps := fun i => { h.keeps i with } }

theorem execRequestHoldEnd_upd_eq {A : Fld → Bool} {s0 s : State} {t : State} (h : Upd A s0 s) (e : execRequestHoldEnd s = .next t) (a_boot : A .boot = true) : Upd A s0 t := by
  unfold execRequestHoldEnd at e
  cases e
  repeat' first
    | with_reducible assumption
    | lift_lets
    | exact { h with boot := .inl a_boot, keeps := fun i => { h.keeps i with } }

theorem execMgReceive_upd_eq {A : Fld → Bool} {s0 s : State} {t : State} (h : Upd A s0 s) (e : execMgReceive s = .next t) (a_regs : A .regs = true) (a_ports : A .ports = true) (a_hls : A .hls = true) (a_fns : A .fns = true) (a_clhIn : A .clhIn = true) (a_tptIn : A .tptIn = true) (a_mcIn : A .mcIn = true) (a_fifelIn : A .fifelIn = true) (a_qsHere : A .qsHere = true) (a_qsInj : A .qsInj = true) (a_samples : A .samples = true) (a_sampleLost : A .sampleLost = true) (a_clh : A .clh = true) (a_izg : A .izg = true) (a_rotate : A .rotate = true) (a_freeCtr : A .freeCtr = true) (a_nextId : A .nextId = true) (a_out : A .out = true) : Upd A s0 t := by
  unfold execMgReceive at e
  cases e
  repeat' first
    | with_reducible assumption
    | intro x1
    | (intro x1; clear_value x1)
    | (intro x1; have x2 := fun a => x1 a; clear x2; subst x1)
    | (intro x1; have x2 : Izg := x1; clear x2; subst x1)
    | lift_lets
    | with_reducible apply State.bump_upd
    | with_reducible apply State.destCheck_upd
    | with_reducible apply State.set_upd
    | with_reducible apply State.raiseLimited_upd
    | with_reducible refine State.takePkt_upd_eq ?_ (by assumption) (by assumption)
    | with_reducible refine Upd.ofSnd (by assumption) ?_
    | split
    | dsimp only
    | refine Upd.to_izg _ ?_ (by assumption) (fun _ i => ⟨length_snoc (by with_unfolding_all assumption), i.summary⟩)
    | refine Upd.to_izg _ ?_ (by assumption) (fun _ i => ⟨i.mg, i.summary⟩)
    | dsimp +zetaDelta only

end Sys2Proof.Machine
end

