-- ==== Sys2Proof/Laws/FrameTeller.lean ====
section
/-!
SUPPORT. Laws/FrameTeller.lean: which parts of State each operation of Machine/Teller.lean may change, and that it keeps the invariant.
-/
namespace Sys2Proof.Machine
set_option linter.unusedTactic false
set_option linter.unreachableTactic false
set_option linter.unusedVariables false

theorem State.tellerCheck_upd {A : Fld → Bool} {s0 s : State} (x1 : ℕ) (x2 : Desc) (x3 : HostView) (x4 : Bool) (h : Upd A s0 s) (a_rankCache : A .rankCache = true) : Upd A s0 (State.tellerCheck s x1 x2 x3 x4).2.2.2 := by
  unfold State.tellerCheck
  repeat' first
    | with_reducible assumption
    | (intro x1; clear_value x1)
    | lift_lets
    | with_reducible apply State.rankXlate_upd
    | with_reducible refine Upd.ofSnd2 (by assumption) ?_
    | with_reducible apply Upd.getD
    | split

theorem State.failDesc_upd {A : Fld → Bool} {s0 s : State} (x1 : EvtInfo) (x2 : ℕ) (x3 : ℕ) (h : Upd A s0 s) (a_regs : A .regs = true) (a_hls : A .hls = true) (a_fns : A .fns = true) (a_accts : A .accts = true) (a_orders : A .orders = true) (a_tags : A .tags = true) (a_clhIn : A .clhIn = true) (a_freeCtr : A .freeCtr = true) (a_out : A .out = true) : Upd A s0 (State.failDesc s x1 x2 x3) := by
  unfold State.failDesc
  repeat' first
    | with_reducible assumption
    | lift_lets
    | with_reducible apply State.complete_upd

theorem State.tellerDo_upd {A : Fld → Bool} {s0 s : State} (x1 : ℕ) (x2 : HostView) (x3 : SrcKind) (x4 : ℕ) (x5 : Desc) (x6 : EvtInfo) (x7 : Bool) (h : Upd A s0 s) (a_regs : A .regs = true) (a_hls : A .hls = true) (a_fns : A .fns = true) (a_accts : A .accts = true) (a_srcMsgs : A .srcMsgs = true) (a_rankCache : A .rankCache = true) (a_orders : A .orders = true) (a_tags : A .tags = true) (a_clhIn : A .clhIn = true) (a_freeCtr : A .freeCtr = true) (a_nextId : A .nextId = true) (a_out : A .out = true) : Upd A s0 (State.tellerDo s x1 x2 x3 x4 x5 x6 x7) := by
  unfold State.tellerDo
  repeat' first
    | with_reducible assumption
    | lift_lets
    | with_reducible apply State.tellerCheck_upd
    | with_reducible apply State.openSrc_upd
    | with_reducible apply State.complete_upd
    | with_reducible apply State.free_upd
    | with_reducible apply State.failDesc_upd
    | with_reducible refine Upd.ofSnd (by assumption) ?_
    | with_reducible refine Upd.ofSnd3 (by assumption) ?_
    | with_reducible apply Upd.getD
    | split

theorem execPut_upd_eq {A : Fld → Bool} {s0 s : State} {x1 : AcctNo} {x2 : Source} {x3 : HostView} {t : State} (h : Upd A s0 s) (e : execPut x1 x2 x3 s = .next t) (a_regs : A .regs = true) (a_ports : A .ports = true) (a_hls : A .hls = true) (a_fns : A .fns = true) (a_accts : A .accts = true) (a_srcMsgs : A .srcMsgs = true) (a_rankCache : A .rankCache = true) (a_orders : A .orders = true) (a_notices : A .notices = true) (a_acctCmds : A .acctCmds = true) (a_tags : A .tags = true) (a_clhIn : A .clhIn = true) (a_tptIn : A .tptIn = true) (a_mcIn : A .mcIn = true) (a_fifelIn : A .fifelIn = true) (a_samples : A .samples = true) (a_sampleLost : A .sampleLost = true) (a_clh : A .clh = true) (a_pwr : A .pwr = true) (a_boot : A .boot = true) (a_rotate : A .rotate = true) (a_freeCtr : A .freeCtr = true) (a_nextId : A .nextId = true) (a_out : A .out = true) : Upd A s0 t := by
  unfold execPut at e
  cases e
  repeat' first
    | with_reducible assumption
    | intro x1
    | lift_lets
    | with_reducible apply State.withDescHost_upd
    | with_reducible apply State.tellerDo_upd
    | split
    | dsimp only

theorem execGet_upd_eq {A : Fld → Bool} {s0 s : State} {x1 : AcctNo} {x2 : Source} {x3 : HostView} {t : State} (h : Upd A s0 s) (e : execGet x1 x2 x3 s = .next t) (a_regs : A .regs = true) (a_ports : A .ports = true) (a_hls : A .hls = true) (a_fns : A .fns = true) (a_accts : A .accts = true) (a_srcMsgs : A .srcMsgs = true) (a_rankCache : A .rankCache = true) (a_orders : A .orders = true) (a_notices : A .notices = true) (a_acctCmds : A .acctCmds = true) (a_tags : A .tags = true) (a_clhIn : A .clhIn = true) (a_tptIn : A .tptIn = true) (a_mcIn : A .mcIn = true) (a_fifelIn : A .fifelIn = true) (a_samples : A .samples = true) (a_sampleLost : A .sampleLost = true) (a_clh : A .clh = true) (a_pwr : A .pwr = true) (a_boot : A .boot = true) (a_rotate : A .rotate = true) (a_freeCtr : A .freeCtr = true) (a_nextId : A .nextId = true) (a_out : A .out = true) : Upd A s0 t := by
  unfold execGet at e
  cases e
  repeat' first
    | with_reducible assumption
    | intro x1
    | lift_lets
    | with_reducible apply State.withDescHost_upd
    | with_reducible apply State.tellerDo_upd
    | split
    | dsimp only

theorem execAtomic_upd_eq {A : Fld → Bool} {s0 s : State} {x1 : AcctNo} {x2 : Source} {x3 : HostView} {t : State} (h : Upd A s0 s) (e : execAtomic x1 x2 x3 s = .next t) (a_regs : A .regs = true) (a_ports : A .ports = true) (a_hls : A .hls = true) (a_fns : A .fns = true) (a_accts : A .accts = true) (a_srcMsgs : A .srcMsgs = true) (a_rankCache : A .rankCache = true) (a_orders : A .orders = true) (a_notices : A .notices = true) (a_acctCmds : A .acctCmds = true) (a_tags : A .tags = true) (a_clhIn : A .clhIn = true) (a_tptIn : A .tptIn = true) (a_mcIn : A .mcIn = true) (a_fifelIn : A .fifelIn = true) (a_samples : A .samples = true) (a_sampleLost : A .sampleLost = true) (a_clh : A .clh = true) (a_pwr : A .pwr = true) (a_boot : A .boot = true) (a_rotate : A .rotate = true) (a_freeCtr : A .freeCtr = true) (a_nextId : A .nextId = true) (a_out : A .out = true) : Upd A s0 t := by
  unfold execAtomic at e
  cases e
  repeat' first
    | with_reducible assumption
    | intro x1
    | lift_lets
    | with_reducible apply State.withDescHost_upd
    | with_reducible apply State.tellerDo_upd
    | split
    | dsimp only

theorem execOrder_upd_eq {A : Fld → Bool} {s0 s : State} {x1 : AcctNo} {x2 : Source} {x3 : HostView} {t : State} (h : Upd A s0 s) (e : execOrder x1 x2 x3 s = .next t) (a_regs : A .regs = true) (a_ports : A .ports = true) (a_hls : A .hls = true) (a_fns : A .fns = true) (a_accts : A .accts = true) (a_orders : A .orders = true) (a_notices : A .notices = true) (a_acctCmds : A .acctCmds = true) (a_tags : A .tags = true) (a_clhIn : A .clhIn = true) (a_tptIn : A .tptIn = true) (a_mcIn : A .mcIn = true) (a_fifelIn : A .fifelIn = true) (a_samples : A .samples = true) (a_sampleLost : A .sampleLost = true) (a_clh : A .clh = true) (a_pwr : A .pwr = true) (a_boot : A .boot = true) (a_rotate : A .rotate = true) (a_freeCtr : A .freeCtr = true) (a_nextId : A .nextId = true) (a_out : A .out = true) : Upd A s0 t := by
  unfold execOrder at e
  cases e
  repeat' first
    | with_reducible assumption
    | (intro x1; clear_value x1)
    | (intro x1; have x2 := fun a => x1 a; clear x2; subst x1)
    | (intro s1; refine (fun (hs1 : Upd A s0 s1) => ?_) ?_; clear_value s1; rotate_left; subst s1; rotate_left)
    | intro x1
    | lift_lets
    | with_reducible apply State.withDescHost_upd
    | with_reducible apply State.complete_upd
    | with_reducible apply State.completeQuiet_upd
    | with_reducible apply State.orderStat_upd
    | with_reducible apply State.fireWhere_upd
    | split
    | with_reducible apply Upd.to_orders
    | dsimp only
    | dsimp +zetaDelta only

theorem State.putBack_upd {A : Fld → Bool} {s0 s : State} (x1 : Packet) (h : Upd A s0 s) (a_tptIn : A .tptIn = true) : Upd A s0 (State.putBack s x1) := by
  unfold State.putBack
  repeat' first
    | with_reducible assumption
    | lift_lets
    | exact { h with tptIn := .inl a_tptIn, keeps := fun i => { h.keeps i with } }

theorem State.withPkt_upd {A : Fld → Bool} {s0 s : State} (x1 : ℕ) (x2 : (State → Packet → State)) (h : Upd A s0 s) (f2 : ∀ v0 v1, Upd A s0 v0 → Upd A s0 (x2 v0 v1)) (a_regs : A .regs = true) (a_ports : A .ports = true) (a_hls : A .hls = true) (a_fns : A .fns = true) (a_clhIn : A .clhIn = true) (a_tptIn : A .tptIn = true) (a_mcIn : A .mcIn = true) (a_fifelIn : A .fifelIn = true) (a_qsHere : A .qsHere = true) (a_qsInj : A .qsInj = true) (a_samples : A .samples = true) (a_sampleLost : A .sampleLost = true) (a_clh : A .clh = true) (a_pwr : A .pwr = true) (a_boot : A .boot = true) (a_rotate : A .rotate = true) (a_freeCtr : A .freeCtr = true) (a_nextId : A .nextId = true) (a_out : A .out = true) : Upd A s0 (State.withPkt s x1 x2) := by
  unfold State.withPkt
  repeat' first
    | with_reducible assumption
    | lift_lets
    | with_reducible apply State.destCheck_upd
    | with_reducible apply State.activityUpd_upd
    | with_reducible refine State.takePkt_upd_eq ?_ (by assumption) (by assumption)
    | with_reducible refine Upd.ofSnd (by assumption) ?_
    | with_reducible apply f2
    | split

theorem State.unlessRefusing_upd {A : Fld → Bool} {s0 s : State} (x1 : Packet) (x2 : (State → FilterEnt → State)) (x3 : (State → State)) (h : Upd A s0 s) (f2 : ∀ v0 v1, Upd A s0 v0 → Upd A s0 (x2 v0 v1)) (f3 : ∀ v0, Upd A s0 v0 → Upd A s0 (x3 v0)) (a_regs : A .regs = true) (a_hls : A .hls = true) (a_fns : A .fns = true) (a_qsHere : A .qsHere = true) (a_qsInj : A .qsInj = true) (a_out : A .out = true) : Upd A s0 (State.unlessRefusing s x1 x2 x3) := by
  unfold State.unlessRefusing
  repeat' first
    | with_reducible assumption
    | (intro x1; clear_value x1)
    | lift_lets
    | with_reducible apply State.refuse_upd
    | with_reducible apply f2
    | with_reducible apply f3
    | split

theorem State.keyWrite_upd {A : Fld → Bool} {s0 s : State} (x1 : Packet) (x2 : HostView) (h : Upd A s0 s) (a_regs : A .regs = true) (a_hls : A .hls = true) (a_fns : A .fns = true) (a_keyCache : A .keyCache = true) (a_tags : A .tags = true) (a_clhIn : A .clhIn = true) (a_freeCtr : A .freeCtr = true) (a_out : A .out = true) : Upd A s0 (State.keyWrite s x1 x2).2 := by
  unfold State.keyWrite
  repeat' first
    | with_reducible assumption
    | intro x1
    | (intro x1; clear_value x1)
    | (intro s1; refine (fun (hs1 : Upd A s0 s1) => ?_) ?_; clear_value s1; rotate_left; subst s1; rotate_left)
    | lift_lets
    | with_reducible apply State.post_upd
    | with_reducible apply State.bump_upd
    | with_reducible apply State.gate_upd
    | with_reducible apply State.keyFind_upd
    | with_reducible refine Upd.ofSnd (by assumption) ?_
    | split
    | dsimp only

theorem State.putAccept_upd {A : Fld → Bool} {s0 s : State} (x1 : Packet) (x2 : HostView) (x3 : Bool) (h : Upd A s0 s) (a_regs : A .regs = true) (a_hls : A .hls = true) (a_fns : A .fns = true) (a_accts : A .accts = true) (a_openMsgs : A .openMsgs = true) (a_filter : A .filter = true) (a_keyCache : A .keyCache = true) (a_orders : A .orders = true) (a_flushes : A .flushes = true) (a_tags : A .tags = true) (a_clhIn : A .clhIn = true) (a_tptIn : A .tptIn = true) (a_qsHere : A .qsHere = true) (a_qsInj : A .qsInj = true) (a_freeCtr : A .freeCtr = true) (a_out : A .out = true) : Upd A s0 (State.putAccept s x1 x2 x3) := by
  unfold State.putAccept
  repeat' first
    | with_reducible assumption
    | (intro s1; refine (fun (hs1 : Upd A s0 s1) => ?_) ?_; clear_value s1; rotate_left; subst s1; rotate_left)
    | intro x1
    | lift_lets
    | with_reducible apply State.enterPkt_upd
    | with_reducible apply State.msgCheck_upd
    | with_reducible apply State.keyWrite_upd
    | with_reducible apply State.modOpen_upd
    | with_reducible apply State.putBack_upd
    | with_reducible apply State.openMsg_upd
    | with_reducible refine Upd.ofSnd (by assumption) ?_
    | split

theorem execPutPacketReceive_upd_eq {A : Fld → Bool} {s0 s : State} {x1 : HostView} {t : State} (h : Upd A s0 s) (e : execPutPacketReceive x1 s = .next t) (a_regs : A .regs = true) (a_ports : A .ports = true) (a_hls : A .hls = true) (a_fns : A .fns = true) (a_accts : A .accts = true) (a_openMsgs : A .openMsgs = true) (a_filter : A .filter = true) (a_keyCache : A .keyCache = true) (a_orders : A .orders = true) (a_flushes : A .flushes = true) (a_tags : A .tags = true) (a_clhIn : A .clhIn = true) (a_tptIn : A .tptIn = true) (a_mcIn : A .mcIn = true) (a_fifelIn : A .fifelIn = true) (a_qsHere : A .qsHere = true) (a_qsInj : A .qsInj = true) (a_samples : A .samples = true) (a_sampleLost : A .sampleLost = true) (a_clh : A .clh = true) (a_pwr : A .pwr = true) (a_boot : A .boot = true) (a_rotate : A .rotate = true) (a_freeCtr : A .freeCtr = true) (a_nextId : A .nextId = true) (a_out : A .out = true) : Upd A s0 t := by
  unfold execPutPacketReceive at e
  cases e
  repeat' first
    | with_reducible assumption
    | (intro x1; have x2 := fun a => x1 a; clear x2; subst x1)
    | (intro x1; have x2 := Prod.snd x1; clear x2; subst x1)
    | intro x1
    | lift_lets
    | with_reducible apply State.receiptAgain_upd
    | with_reducible apply State.putAccept_upd
    | with_reducible apply State.unlessRefusing_upd
    | with_reducible apply State.withPkt_upd
    | with_reducible apply State.dupHandle_upd

theorem State.getResp_upd {A : Fld → Bool} {s0 s : State} (x1 : Header) (x2 : ℕ) (x3 : Bool) (x4 : ℕ) (x5 : List Byte) (x6 : Bool) (h : Upd A s0 s) (a_regs : A .regs = true) (a_ports : A .ports = true) (a_hls : A .hls = true) (a_fns : A .fns = true) (a_clhIn : A .clhIn = true) (a_tptIn : A .tptIn = true) (a_mcIn : A .mcIn = true) (a_fifelIn : A .fifelIn = true) (a_samples : A .samples = true) (a_sampleLost : A .sampleLost = true) (a_clh : A .clh = true) (a_rotate : A .rotate = true) (a_freeCtr : A .freeCtr = true) (a_nextId : A .nextId = true) (a_out : A .out = true) : Upd A s0 (State.getResp s x1 x2 x3 x4 x5 x6) := by
  unfold State.getResp
  repeat' first
    | with_reducible assumption
    | lift_lets
    | with_reducible apply State.injectDrop_upd

theorem State.finServe_upd {A : Fld → Bool} {s0 s : State} (x1 : Header) (h : Upd A s0 s) (a_regs : A .regs = true) (a_hls : A .hls = true) (a_fns : A .fns = true) (a_accts : A .accts = true) (a_ctxs : A .ctxs = true) (a_srcMsgs : A .srcMsgs = true) (a_orders : A .orders = true) (a_aptWaits : A .aptWaits = true) (a_entries : A .entries = true) (a_lmatches : A .lmatches = true) (a_tags : A .tags = true) (a_clhIn : A .clhIn = true) (a_freeCtr : A .freeCtr = true) (a_nextId : A .nextId = true) (a_out : A .out = true) : Upd A s0 (State.finServe s x1) := by
  unfold State.finServe
  repeat' first
    | with_reducible assumption
    | lift_lets
    | with_reducible apply State.bump_upd
    | with_reducible apply State.rndvEnd_upd
    | split

theorem execGetReqServe_upd_eq {A : Fld → Bool} {s0 s : State} {x1 : HostView} {t : State} (h : Upd A s0 s) (e : execGetReqServe x1 s = .next t) (a_regs : A .regs = true) (a_ports : A .ports = true) (a_hls : A .hls = true) (a_fns : A .fns = true) (a_accts : A .accts = true) (a_ctxs : A .ctxs = true) (a_srcMsgs : A .srcMsgs = true) (a_keyCache : A .keyCache = true) (a_orders : A .orders = true) (a_aptWaits : A .aptWaits = true) (a_entries : A .entries = true) (a_lmatches : A .lmatches = true) (a_tags : A .tags = true) (a_clhIn : A .clhIn = true) (a_tptIn : A .tptIn = true) (a_mcIn : A .mcIn = true) (a_fifelIn : A .fifelIn = true) (a_qsHere : A .qsHere = true) (a_qsInj : A .qsInj = true) (a_samples : A .samples = true) (a_sampleLost : A .sampleLost = true) (a_clh : A .clh = true) (a_pwr : A .pwr = true) (a_boot : A .boot = true) (a_rotate : A .rotate = true) (a_freeCtr : A .freeCtr = true) (a_nextId : A .nextId = true) (a_out : A .out = true) : Upd A s0 t := by
  unfold execGetReqServe at e
  cases e
  repeat' first
    | with_reducible assumption
    | (intro s1; refine (fun (hs1 : Upd A s0 s1) => ?_) ?_; clear_value s1; rotate_left; subst s1; rotate_left)
    | (intro x1; have x2 := fun a => x1 a; clear x2; subst x1)
    | (intro x1; clear_value x1)
    | intro x1
    | lift_lets
    | with_reducible apply State.bump_upd
    | with_reducible apply State.finServe_upd
    | with_reducible apply State.gate_upd
    | with_reducible apply State.getResp_upd
    | with_reducible apply State.keyFind_upd
    | with_reducible apply State.putBack_upd
    | with_reducible apply State.unlessRefusing_upd
    | with_reducible apply State.withPkt_upd
    | with_reducible refine Upd.ofSnd (by assumption) ?_
    | with_reducible apply Upd.fold
    | split
    | dsimp only
    | dsimp +zetaDelta only

theorem State.getWrite_upd {A : Fld → Bool} {s0 s : State} (x1 : Packet) (x2 : SrcMsg) (h : Upd A s0 s) (a_regs : A .regs = true) (a_hls : A .hls = true) (a_fns : A .fns = true) (a_accts : A .accts = true) (a_ctxs : A .ctxs = true) (a_srcMsgs : A .srcMsgs = true) (a_orders : A .orders = true) (a_aptWaits : A .aptWaits = true) (a_entries : A .entries = true) (a_lmatches : A .lmatches = true) (a_tags : A .tags = true) (a_clhIn : A .clhIn = true) (a_tptIn : A .tptIn = true) (a_freeCtr : A .freeCtr = true) (a_nextId : A .nextId = true) (a_out : A .out = true) : Upd A s0 (State.getWrite s x1 x2) := by
  unfold State.getWrite
  repeat' first
    | with_reducible assumption
    | (intro s1; refine (fun (hs1 : Upd A s0 s1) => ?_) ?_; clear_value s1; rotate_left; subst s1; rotate_left)
    | (intro x1; have x2 := fun a => x1 a; clear x2; subst x1)
    | (intro x1; have x2 := Prod.snd x1; clear x2; subst x1)
    | lift_lets
    | with_reducible apply State.gate_upd
    | with_reducible apply State.modSrc_upd
    | with_reducible apply State.putBack_upd
    | with_reducible apply State.msgEnd_upd
    | with_reducible apply State.scatter_upd
    | with_reducible apply State.msgFail_upd
    | with_reducible refine Upd.ofSnd (by assumption) ?_
    | split
    | dsimp only

theorem execGetRespReceive_upd_eq {A : Fld → Bool} {s0 s : State} {x1 : HostView} {t : State} (h : Upd A s0 s) (e : execGetRespReceive x1 s = .next t) (a_regs : A .regs = true) (a_ports : A .ports = true) (a_hls : A .hls = true) (a_fns : A .fns = true) (a_accts : A .accts = true) (a_ctxs : A .ctxs = true) (a_srcMsgs : A .srcMsgs = true) (a_orders : A .orders = true) (a_aptWaits : A .aptWaits = true) (a_entries : A .entries = true) (a_lmatches : A .lmatches = true) (a_tags : A .tags = true) (a_clhIn : A .clhIn = true) (a_tptIn : A .tptIn = true) (a_mcIn : A .mcIn = true) (a_fifelIn : A .fifelIn = true) (a_qsHere : A .qsHere = true) (a_qsInj : A .qsInj = true) (a_samples : A .samples = true) (a_sampleLost : A .sampleLost = true) (a_clh : A .clh = true) (a_pwr : A .pwr = true) (a_boot : A .boot = true) (a_rotate : A .rotate = true) (a_freeCtr : A .freeCtr = true) (a_nextId : A .nextId = true) (a_out : A .out = true) : Upd A s0 t := by
  unfold execGetRespReceive at e
  cases e
  repeat' first
    | with_reducible assumption
    | intro x1
    | lift_lets
    | with_reducible apply State.getWrite_upd
    | with_reducible apply State.bump_upd
    | with_reducible apply State.withPkt_upd
    | with_reducible apply State.msgEnd_upd
    | split

theorem execAtomicRespReceive_upd_eq {A : Fld → Bool} {s0 s : State} {t : State} (h : Upd A s0 s) (e : execAtomicRespReceive s = .next t) (a_regs : A .regs = true) (a_ports : A .ports = true) (a_hls : A .hls = true) (a_fns : A .fns = true) (a_accts : A .accts = true) (a_ctxs : A .ctxs = true) (a_srcMsgs : A .srcMsgs = true) (a_orders : A .orders = true) (a_aptWaits : A .aptWaits = true) (a_entries : A .entries = true) (a_lmatches : A .lmatches = true) (a_tags : A .tags = true) (a_clhIn : A .clhIn = true) (a_tptIn : A .tptIn = true) (a_mcIn : A .mcIn = true) (a_fifelIn : A .fifelIn = true) (a_qsHere : A .qsHere = true) (a_qsInj : A .qsInj = true) (a_samples : A .samples = true) (a_sampleLost : A .sampleLost = true) (a_clh : A .clh = true) (a_pwr : A .pwr = true) (a_boot : A .boot = true) (a_rotate : A .rotate = true) (a_freeCtr : A .freeCtr = true) (a_nextId : A .nextId = true) (a_out : A .out = true) : Upd A s0 t := by
  unfold execAtomicRespReceive at e
  cases e
  repeat' first
    | with_reducible assumption
    | (intro s1; refine (fun (hs1 : Upd A s0 s1) => ?_) ?_; clear_value s1; rotate_left; subst s1; rotate_left)
    | (intro x1; clear_value x1)
    | intro x1
    | lift_lets
    | with_reducible apply State.bump_upd
    | with_reducible apply State.ctxSample_upd
    | with_reducible apply State.gate_upd
    | with_reducible apply State.msgEnd_upd
    | with_reducible apply State.post_upd
    | with_reducible apply State.putBack_upd
    | with_reducible apply State.withPkt_upd
    | with_reducible refine Upd.ofSnd (by assumption) ?_
    | split
    | dsimp only

theorem State.freeNan_upd {A : Fld → Bool} {s0 s : State} (x1 : ℕ) (h : Upd A s0 s) (a_freeCtr : A .freeCtr = true) : Upd A s0 (State.freeNan s x1).2 := by
  unfold State.freeNan
  repeat' first
    | with_reducible assumption
    | lift_lets
    | with_reducible apply State.free_upd
    | with_reducible refine Upd.ofSnd (by assumption) ?_

theorem State.bookGate_upd {A : Fld → Bool} {s0 s : State} (x1 : HostView) (h : Upd A s0 s) (a_regs : A .regs = true) (a_hls : A .hls = true) (a_fns : A .fns = true) (a_tags : A .tags = true) (a_clhIn : A .clhIn = true) (a_freeCtr : A .freeCtr = true) (a_out : A .out = true) : Upd A s0 (State.bookGate s x1).2 := by
  unfold State.bookGate
  repeat' first
    | with_reducible assumption
    | intro x1
    | lift_lets
    | with_reducible apply State.gate_upd
    | with_reducible refine Upd.ofSnd (by assumption) ?_
    | split
    | dsimp only

theorem State.bookEvict_upd {A : Fld → Bool} {s0 s : State} (x1 : HostView) (h : Upd A s0 s) (a_regs : A .regs = true) (a_hls : A .hls = true) (a_fns : A .fns = true) (a_book : A .book = true) (a_tags : A .tags = true) (a_clhIn : A .clhIn = true) (a_freeCtr : A .freeCtr = true) (a_out : A .out = true) : Upd A s0 (State.bookEvict s x1) := by
  unfold State.bookEvict
  repeat' first
    | with_reducible assumption
    | intro x1
    | (intro x1; clear_value x1)
    | (intro x1; have x2 := fun a => x1 a; clear x2; subst x1)
    | (intro s1; refine (fun (hs1 : Upd A s0 s1) => ?_) ?_; clear_value s1; rotate_left; subst s1; rotate_left)
    | lift_lets
    | with_reducible apply State.bump_upd
    | with_reducible apply State.postHeld_upd
    | split
    | with_reducible apply Upd.to_book
    | dsimp only
    | dsimp +zetaDelta only

theorem State.atomicDone_upd {A : Fld → Bool} {s0 s : State} (x1 : Header) (x2 : HostView) (x3 : ℕ) (x4 : ℕ) (h : Upd A s0 s) (a_regs : A .regs = true) (a_ports : A .ports = true) (a_hls : A .hls = true) (a_fns : A .fns = true) (a_filter : A .filter = true) (a_book : A .book = true) (a_tags : A .tags = true) (a_clhIn : A .clhIn = true) (a_tptIn : A .tptIn = true) (a_mcIn : A .mcIn = true) (a_fifelIn : A .fifelIn = true) (a_samples : A .samples = true) (a_sampleLost : A .sampleLost = true) (a_clh : A .clh = true) (a_rotate : A .rotate = true) (a_freeCtr : A .freeCtr = true) (a_nextId : A .nextId = true) (a_out : A .out = true) : Upd A s0 (State.atomicDone s x1 x2 x3 x4) := by
  unfold State.atomicDone
  repeat' first
    | with_reducible assumption
    | intro x1
    | (intro x1; clear_value x1)
    | (intro s1; refine (fun (hs1 : Upd A s0 s1) => ?_) ?_; clear_value s1; rotate_left; subst s1; rotate_left)
    | lift_lets
    | with_reducible apply State.bookEvict_upd
    | with_reducible apply State.filterFill_upd
    | with_reducible apply State.filterReserve_upd
    | with_reducible apply State.atomicResp_upd
    | split
    | with_reducible apply Upd.to_book
    | dsimp only

theorem State.atomicAgain_upd {A : Fld → Bool} {s0 s : State} (x1 : Packet) (x2 : HostView) (h : Upd A s0 s) (a_regs : A .regs = true) (a_ports : A .ports = true) (a_hls : A .hls = true) (a_fns : A .fns = true) (a_tags : A .tags = true) (a_clhIn : A .clhIn = true) (a_tptIn : A .tptIn = true) (a_mcIn : A .mcIn = true) (a_fifelIn : A .fifelIn = true) (a_samples : A .samples = true) (a_sampleLost : A .sampleLost = true) (a_clh : A .clh = true) (a_rotate : A .rotate = true) (a_freeCtr : A .freeCtr = true) (a_nextId : A .nextId = true) (a_out : A .out = true) : Upd A s0 (State.atomicAgain s x1 x2) := by
  unfold State.atomicAgain
  repeat' first
    | with_reducible assumption
    | intro x1
    | (intro x1; clear_value x1)
    | (intro s1; refine (fun (hs1 : Upd A s0 s1) => ?_) ?_; clear_value s1; rotate_left; subst s1; rotate_left)
    | (intro x1; have x2 := fun a => x1 a; clear x2; subst x1)
    | (intro x1; have x2 := Prod.snd x1; clear x2; subst x1)
    | lift_lets
    | with_reducible apply State.bump_upd
    | with_reducible apply State.raise_upd
    | with_reducible apply State.atomicResp_upd
    | with_reducible apply State.gate_upd
    | with_reducible apply State.putBack_upd
    | with_reducible refine Upd.ofSnd (by assumption) ?_
    | split
    | dsimp only
    | dsimp +zetaDelta only

theorem State.atomicRun_upd {A : Fld → Bool} {s0 s : State} (x1 : Packet) (x2 : HostView) (h : Upd A s0 s) (a_regs : A .regs = true) (a_ports : A .ports = true) (a_hls : A .hls = true) (a_fns : A .fns = true) (a_accts : A .accts = true) (a_filter : A .filter = true) (a_book : A .book = true) (a_keyCache : A .keyCache = true) (a_orders : A .orders = true) (a_tags : A .tags = true) (a_clhIn : A .clhIn = true) (a_tptIn : A .tptIn = true) (a_mcIn : A .mcIn = true) (a_fifelIn : A .fifelIn = true) (a_samples : A .samples = true) (a_sampleLost : A .sampleLost = true) (a_clh : A .clh = true) (a_rotate : A .rotate = true) (a_freeCtr : A .freeCtr = true) (a_nextId : A .nextId = true) (a_out : A .out = true) : Upd A s0 (State.atomicRun s x1 x2) := by
  unfold State.atomicRun
  repeat' first
    | with_reducible assumption
    | intro x1
    | (intro x1; clear_value x1)
    | (intro s1; refine (fun (hs1 : Upd A s0 s1) => ?_) ?_; clear_value s1; rotate_left; subst s1; rotate_left)
    | (intro x1; have x2 := fun a => x1 a; clear x2; subst x1)
    | (intro x1; have x2 := Prod.snd x1; clear x2; subst x1)
    | lift_lets
    | with_reducible apply State.ctrRaise_upd
    | with_reducible apply State.post_upd
    | with_reducible apply State.bump_upd
    | with_reducible apply State.atomicDone_upd
    | with_reducible apply State.free_upd
    | with_reducible apply State.gate_upd
    | with_reducible apply State.freeNan_upd
    | with_reducible apply State.keyFind_upd
    | with_reducible apply State.putBack_upd
    | with_reducible apply State.emit_upd
    | with_reducible apply State.bookGate_upd
    | with_reducible apply State.tlpAddr_upd
    | with_reducible refine Upd.ofSnd2 (by assumption) ?_
    | with_reducible refine Upd.ofSnd (by assumption) ?_
    | split
    | dsimp only
    | with_reducible apply Upd.getD
    | dsimp +zetaDelta only

theorem execAtomicReqReceive_upd_eq {A : Fld → Bool} {s0 s : State} {x1 : HostView} {t : State} (h : Upd A s0 s) (e : execAtomicReqReceive x1 s = .next t) (a_regs : A .regs = true) (a_ports : A .ports = true) (a_hls : A .hls = true) (a_fns : A .fns = true) (a_accts : A .accts = true) (a_filter : A .filter = true) (a_book : A .book = true) (a_keyCache : A .keyCache = true) (a_orders : A .orders = true) (a_tags : A .tags = true) (a_clhIn : A .clhIn = true) (a_tptIn : A .tptIn = true) (a_mcIn : A .mcIn = true) (a_fifelIn : A .fifelIn = true) (a_qsHere : A .qsHere = true) (a_qsInj : A .qsInj = true) (a_samples : A .samples = true) (a_sampleLost : A .sampleLost = true) (a_clh : A .clh = true) (a_pwr : A .pwr = true) (a_boot : A .boot = true) (a_rotate : A .rotate = true) (a_freeCtr : A .freeCtr = true) (a_nextId : A .nextId = true) (a_out : A .out = true) : Upd A s0 t := by
  unfold execAtomicReqReceive at e
  cases e
  repeat' first
    | with_reducible assumption
    | (intro x1; have x2 := fun a => x1 a; clear x2; subst x1)
    | (intro x1; clear_value x1)
    | intro x1
    | lift_lets
    | with_reducible apply State.atomicAgain_upd
    | with_reducible apply State.atomicRun_upd
    | with_reducible apply State.dupHandle_upd
    | with_reducible apply State.unlessRefusing_upd
    | with_reducible apply State.withPkt_upd
    | split
    | dsimp only
    | dsimp +zetaDelta only

theorem State.aptRanked_upd {A : Fld → Bool} {s0 : State} (x1 : AptWait) (x2 : ℕ × RankEntry × State) (h : Upd A s0 x2.2.2) (a_regs : A .regs = true) (a_hls : A .hls = true) (a_fns : A .fns = true) (a_srcMsgs : A .srcMsgs = true) (a_aptWaits : A .aptWaits = true) (a_lmatches : A .lmatches = true) (a_clhIn : A .clhIn = true) (a_freeCtr : A .freeCtr = true) (a_nextId : A .nextId = true) (a_out : A .out = true) : Upd A s0 (State.aptRanked x1 x2) := by
  obtain ⟨n, e, u⟩ := x2
  cases n with
  | zero =>
    show Upd A s0 (State.serveAll _)
    apply State.serveAll_upd <;> try assumption
    exact Upd.to_aptWaits _ h a_aptWaits
  | succ n =>
    have hu : Upd A s0 (State.aptFault { u with aptWaits := u.aptWaits.filter (·.num != x1.num) } x1.hl x1.win x1.acct x1.store.isSome) := by
      apply State.aptFault_upd <;> try assumption
      exact Upd.to_aptWaits _ h a_aptWaits
    show Upd A s0 (if x1.store.isSome then _ else State.cplErr _ _ _ _)
    split
    · exact hu
    · apply State.cplErr_upd <;> assumption

theorem State.aptRankRead_upd {A : Fld → Bool} {s0 s : State} (x1 : ℕ) (x2 : Option (List Byte)) (h : Upd A s0 s) (a_regs : A .regs = true) (a_hls : A .hls = true) (a_fns : A .fns = true) (a_srcMsgs : A .srcMsgs = true) (a_rankCache : A .rankCache = true) (a_aptWaits : A .aptWaits = true) (a_lmatches : A .lmatches = true) (a_clhIn : A .clhIn = true) (a_freeCtr : A .freeCtr = true) (a_nextId : A .nextId = true) (a_out : A .out = true) : Upd A s0 (State.aptRankRead s x1 x2) := by
  unfold State.aptRankRead
  split
  · rename_i x _
    have k := State.rankXlate_upd x.acct x.rank (match x2 with
      | some d => [{ addr := s.get (ACC_RANK_BASE.base x.acct) / 4096 * 4096 + 8 * x.rank, data := d, poison := false }] | none => []) h a_rankCache
    dsimp only
    apply State.aptRanked_upd <;> try assumption
    dsimp only
    split
    · exact Upd.to_rankCache _ k a_rankCache (fun i _ => (h.keeps i).rankCache)
    · exact k
  · exact h

theorem State.aptGo_upd {A : Fld → Bool} {s0 s : State} (x1 : ℕ) (x2 : ℕ) (x3 : ℕ) (x4 : ℕ) (x5 : ℕ) (x6 : Option (List Byte)) (x7 : HostView) (h : Upd A s0 s) (a_regs : A .regs = true) (a_hls : A .hls = true) (a_fns : A .fns = true) (a_accts : A .accts = true) (a_srcMsgs : A .srcMsgs = true) (a_rankCache : A .rankCache = true) (a_aptWaits : A .aptWaits = true) (a_lmatches : A .lmatches = true) (a_tags : A .tags = true) (a_clhIn : A .clhIn = true) (a_freeCtr : A .freeCtr = true) (a_nextId : A .nextId = true) (a_out : A .out = true) : Upd A s0 (State.aptGo s x1 x2 x3 x4 x5 x6 x7) := by
  unfold State.aptGo
  repeat' first
    | with_reducible assumption
    | (intro s1; refine (fun (hs1 : Upd A s0 s1) => ?_) ?_; clear_value s1; rotate_left; subst s1; rotate_left)
    | (intro x1; clear_value x1)
    | intro x1
    | lift_lets
    | with_reducible apply State.aptRanked_upd
    | with_reducible apply State.gate_upd
    | with_reducible apply State.modAcct_upd
    | with_reducible apply State.newId_upd
    | with_reducible apply State.rankXlate_upd
    | with_reducible refine Upd.ofSnd (by assumption) ?_
    | with_reducible refine Upd.ofSnd2 (by assumption) ?_
    | split
    | dsimp only
    | with_reducible apply Upd.to_aptWaits

theorem State.aptKick_upd {A : Fld → Bool} {s0 s : State} (x1 : ℕ) (h : Upd A s0 s) (a_regs : A .regs = true) (a_hls : A .hls = true) (a_fns : A .fns = true) (a_srcMsgs : A .srcMsgs = true) (a_rankCache : A .rankCache = true) (a_aptWaits : A .aptWaits = true) (a_lmatches : A .lmatches = true) (a_tags : A .tags = true) (a_clhIn : A .clhIn = true) (a_freeCtr : A .freeCtr = true) (a_nextId : A .nextId = true) (a_out : A .out = true) : Upd A s0 (State.aptKick s x1) := by
  unfold State.aptKick
  repeat' first
    | with_reducible assumption
    | (intro x1; clear_value x1)
    | intro x1
    | lift_lets
    | with_reducible apply State.aptRanked_upd
    | with_reducible apply State.gate_upd
    | with_reducible apply State.rankXlate_upd
    | with_reducible apply State.readTlp_upd
    | with_reducible apply State.takeTag_upd
    | with_reducible refine Upd.ofSnd (by assumption) ?_
    | with_reducible refine Upd.ofSnd2 (by assumption) ?_
    | with_reducible apply Upd.fold
    | split
    | dsimp only
    | with_reducible apply Upd.to_aptWaits

theorem execApertureLoad_upd_eq {A : Fld → Bool} {s0 s : State} {x1 : HostLink} {x2 : FnNo} {x3 : BitVec 64} {x4 : BitVec 13} {x5 : ℕ} {x6 : HostView} {t : State} (h : Upd A s0 s) (e : execApertureLoad x1 x2 x3 x4 x5 x6 s = .next t) (a_regs : A .regs = true) (a_ports : A .ports = true) (a_hls : A .hls = true) (a_fns : A .fns = true) (a_accts : A .accts = true) (a_srcMsgs : A .srcMsgs = true) (a_rankCache : A .rankCache = true) (a_aptWaits : A .aptWaits = true) (a_lmatches : A .lmatches = true) (a_tags : A .tags = true) (a_clhIn : A .clhIn = true) (a_tptIn : A .tptIn = true) (a_mcIn : A .mcIn = true) (a_fifelIn : A .fifelIn = true) (a_samples : A .samples = true) (a_sampleLost : A .sampleLost = true) (a_clh : A .clh = true) (a_pwr : A .pwr = true) (a_boot : A .boot = true) (a_rotate : A .rotate = true) (a_freeCtr : A .freeCtr = true) (a_nextId : A .nextId = true) (a_out : A .out = true) : Upd A s0 t := by
  unfold execApertureLoad at e
  cases e
  repeat' first
    | with_reducible assumption
    | (intro x1; clear_value x1)
    | intro x1
    | lift_lets
    | with_reducible apply State.activityUpd_upd
    | with_reducible apply State.aptGo_upd
    | with_reducible apply State.memUr_upd
    | with_reducible apply State.cplErr_upd
    | split
    | dsimp only

theorem execApertureStore_upd_eq {A : Fld → Bool} {s0 s : State} {x1 : HostLink} {x2 : FnNo} {x3 : BitVec 64} {x4 : Bytes} {x5 : HostView} {t : State} (h : Upd A s0 s) (e : execApertureStore x1 x2 x3 x4 x5 s = .next t) (a_regs : A .regs = true) (a_ports : A .ports = true) (a_hls : A .hls = true) (a_fns : A .fns = true) (a_accts : A .accts = true) (a_srcMsgs : A .srcMsgs = true) (a_rankCache : A .rankCache = true) (a_aptWaits : A .aptWaits = true) (a_lmatches : A .lmatches = true) (a_tags : A .tags = true) (a_clhIn : A .clhIn = true) (a_tptIn : A .tptIn = true) (a_mcIn : A .mcIn = true) (a_fifelIn : A .fifelIn = true) (a_samples : A .samples = true) (a_sampleLost : A .sampleLost = true) (a_clh : A .clh = true) (a_pwr : A .pwr = true) (a_boot : A .boot = true) (a_rotate : A .rotate = true) (a_freeCtr : A .freeCtr = true) (a_nextId : A .nextId = true) (a_out : A .out = true) : Upd A s0 t := by
  unfold execApertureStore at e
  cases e
  repeat' first
    | with_reducible assumption
    | (intro x1; clear_value x1)
    | intro x1
    | lift_lets
    | with_reducible apply State.activityUpd_upd
    | with_reducible apply State.aptFault_upd
    | with_reducible apply State.aptGo_upd
    | with_reducible apply State.memUr_upd
    | split
    | dsimp only

theorem execApertureTimeout_upd_eq {A : Fld → Bool} {s0 s : State} {x1 : HostLink} {x2 : ℕ} {t : State} (h : Upd A s0 s) (e : execApertureTimeout x1 x2 s = .next t) (a_regs : A .regs = true) (a_ports : A .ports = true) (a_hls : A .hls = true) (a_fns : A .fns = true) (a_accts : A .accts = true) (a_ctxs : A .ctxs = true) (a_srcMsgs : A .srcMsgs = true) (a_orders : A .orders = true) (a_aptWaits : A .aptWaits = true) (a_entries : A .entries = true) (a_lmatches : A .lmatches = true) (a_tags : A .tags = true) (a_clhIn : A .clhIn = true) (a_tptIn : A .tptIn = true) (a_mcIn : A .mcIn = true) (a_fifelIn : A .fifelIn = true) (a_samples : A .samples = true) (a_sampleLost : A .sampleLost = true) (a_clh : A .clh = true) (a_pwr : A .pwr = true) (a_boot : A .boot = true) (a_rotate : A .rotate = true) (a_freeCtr : A .freeCtr = true) (a_nextId : A .nextId = true) (a_out : A .out = true) : Upd A s0 t := by
  unfold execApertureTimeout at e
  cases e
  repeat' first
    | with_reducible assumption
    | intro x1
    | (intro s1; refine (fun (hs1 : Upd A s0 s1) => ?_) ?_; clear_value s1; rotate_left; subst s1; rotate_left)
    | lift_lets
    | with_reducible apply State.aptFault_upd
    | with_reducible apply State.activityUpd_upd
    | with_reducible apply State.msgFail_upd
    | with_reducible apply State.cplErr_upd
    | split
    | exact { h with aptWaits := .inl a_aptWaits, keeps := fun i => { h.keeps i with } }
    | dsimp only
    | with_reducible apply Upd.to_aptWaits

theorem State.keyInval_upd {A : Fld → Bool} {s0 s : State} (x1 : ℕ) (h : Upd A s0 s) (a_regs : A .regs = true) (a_hls : A .hls = true) (a_fns : A .fns = true) (a_keyCache : A .keyCache = true) (a_flushes : A .flushes = true) (a_tags : A .tags = true) (a_clhIn : A .clhIn = true) (a_out : A .out = true) : Upd A s0 (State.keyInval s x1) := by
  unfold State.keyInval
  dsimp only
  repeat' first
    | with_reducible assumption
    | (intro x1; have x2 := fun a => x1 a; clear x2; subst x1)
    | intro x1
    | lift_lets
    | with_reducible apply State.flushAsk_upd
    | with_reducible apply State.raise_upd
    | with_reducible apply State.set_upd
    | split
    | with_reducible apply Upd.fold
    | with_reducible apply Upd.foldSnd
    | with_reducible apply Upd.foldFst
    | with_reducible apply Upd.foldMid
    | with_reducible apply Upd.foldSnd2
    | dsimp only
    | refine Upd.to_keyCache _ ?_ (by assumption) (fun _ i => Nat.le_trans (List.length_filter_le ..) i.keyCache)
    | dsimp +zetaDelta only
    | exact { h with keyCache := .inl a_keyCache, keeps := fun i => { h.keeps i with keyCache := (fun i => Nat.le_trans (List.length_filter_le ..) i.keyCache) i } }

theorem State.rankInval_upd {A : Fld → Bool} {s0 s : State} (x1 : ℕ) (h : Upd A s0 s) (a_regs : A .regs = true) (a_rankCache : A .rankCache = true) (a_aptWaits : A .aptWaits = true) : Upd A s0 (State.rankInval s x1) := by
  unfold State.rankInval
  dsimp only
  split
  · refine Upd.to_rankCache_aptWaits _ _ ?_ (by assumption) (by assumption) (fun _ i => Nat.le_trans (List.length_filter_le ..) i.rankCache)
    apply State.setB_upd _ _ _ a_regs
    apply State.set_upd _ _ _ a_regs
    exact State.set_upd _ _ h a_regs
  · apply State.setB_upd _ _ _ a_regs
    apply State.set_upd _ _ _ a_regs
    exact State.set_upd _ _ h a_regs

end Sys2Proof.Machine
end

