-- ==== Sys2Proof/Laws/FrameLedger.lean ====
section
/-!
SUPPORT. Laws/FrameLedger.lean: which parts of State each operation of Machine/Ledger.lean may change, and that it keeps the invariant.
-/
namespace Sys2Proof.Machine
set_option linter.unusedTactic false
set_option linter.unreachableTactic false
set_option linter.unusedVariables false

theorem State.sendCheck_upd {A : Fld → Bool} {s0 s : State} (x1 : ℕ) (x2 : Desc) (x3 : HostView) (x4 : Bool) (h : Upd A s0 s) (a_rankCache : A .rankCache = true) : Upd A s0 (State.sendCheck s x1 x2 x3 x4).2.2.2 := by
  unfold State.sendCheck
  repeat' first
    | with_reducible assumption
    | (intro x1; clear_value x1)
    | lift_lets
    | with_reducible apply State.rankXlate_upd
    | with_reducible refine Upd.ofSnd2 (by assumption) ?_
    | with_reducible apply Upd.getD
    | split

theorem State.sendDo_upd {A : Fld → Bool} {s0 s : State} (x1 : ℕ) (x2 : HostView) (x3 : Desc) (x4 : EvtInfo) (x5 : Bool) (h : Upd A s0 s) (a_regs : A .regs = true) (a_hls : A .hls = true) (a_fns : A .fns = true) (a_accts : A .accts = true) (a_ctxs : A .ctxs = true) (a_srcMsgs : A .srcMsgs = true) (a_rankCache : A .rankCache = true) (a_orders : A .orders = true) (a_entries : A .entries = true) (a_tags : A .tags = true) (a_clhIn : A .clhIn = true) (a_clh : A .clh = true) (a_freeCtr : A .freeCtr = true) (a_nextId : A .nextId = true) (a_out : A .out = true) : Upd A s0 (State.sendDo s x1 x2 x3 x4 x5) := by
  unfold State.sendDo
  repeat' first
    | with_reducible assumption
    | intro x1
    | (intro s1; refine (fun (hs1 : Upd A s0 s1) => ?_) ?_; clear_value s1; rotate_left; subst s1; rotate_left)
    | (intro x1; clear_value x1)
    | lift_lets
    | with_reducible apply State.openSrc_upd
    | with_reducible apply State.sendCheck_upd
    | with_reducible apply State.failDesc_upd
    | with_reducible apply State.ordSet_upd
    | with_reducible apply State.addEntry_upd
    | with_reducible apply State.newId_upd
    | with_reducible apply State.entryNeed_upd
    | with_reducible refine Upd.ofSnd (by assumption) ?_
    | with_reducible refine Upd.ofSnd3 (by assumption) ?_
    | with_reducible apply Upd.getD
    | split
    | dsimp only

theorem State.sendAsk_upd {A : Fld → Bool} {s0 s : State} (x1 : ℕ) (x2 : Source) (x3 : HostView) (h : Upd A s0 s) (a_regs : A .regs = true) (a_hls : A .hls = true) (a_fns : A .fns = true) (a_ctxs : A .ctxs = true) (a_rankCache : A .rankCache = true) (a_tags : A .tags = true) (a_clhIn : A .clhIn = true) (a_freeCtr : A .freeCtr = true) (a_out : A .out = true) : Upd A s0 (State.sendAsk s x1 x2 x3).2 := by
  unfold State.sendAsk
  repeat' first
    | with_reducible assumption
    | lift_lets
    | with_reducible apply State.ordAsk_upd
    | with_reducible apply State.sendCheck_upd
    | with_reducible refine Upd.ofSnd (by assumption) ?_
    | with_reducible refine Upd.ofSnd3 (by assumption) ?_
    | split

theorem State.headNeed_upd {A : Fld → Bool} {s0 s : State} (x1 : ℕ) (x2 : Source) (x3 : ℕ) (x4 : (Desc → ℕ → Bool)) (x5 : Bool) (h : Upd A s0 s) (a_regs : A .regs = true) (a_hls : A .hls = true) (a_fns : A .fns = true) (a_clhIn : A .clhIn = true) (a_clh : A .clh = true) (a_out : A .out = true) : Upd A s0 (State.headNeed s x1 x2 x3 x4 x5) := by
  unfold State.headNeed
  repeat' first
    | with_reducible assumption
    | intro x1
    | lift_lets
    | with_reducible apply State.entryNeed_upd
    | split
    | dsimp only

theorem execSend_upd_eq {A : Fld → Bool} {s0 s : State} {x1 : AcctNo} {x2 : Source} {x3 : HostView} {t : State} (h : Upd A s0 s) (e : execSend x1 x2 x3 s = .next t) (a_regs : A .regs = true) (a_ports : A .ports = true) (a_hls : A .hls = true) (a_fns : A .fns = true) (a_accts : A .accts = true) (a_ctxs : A .ctxs = true) (a_srcMsgs : A .srcMsgs = true) (a_rankCache : A .rankCache = true) (a_orders : A .orders = true) (a_notices : A .notices = true) (a_acctCmds : A .acctCmds = true) (a_entries : A .entries = true) (a_tags : A .tags = true) (a_clhIn : A .clhIn = true) (a_tptIn : A .tptIn = true) (a_mcIn : A .mcIn = true) (a_fifelIn : A .fifelIn = true) (a_samples : A .samples = true) (a_sampleLost : A .sampleLost = true) (a_clh : A .clh = true) (a_pwr : A .pwr = true) (a_boot : A .boot = true) (a_rotate : A .rotate = true) (a_freeCtr : A .freeCtr = true) (a_nextId : A .nextId = true) (a_out : A .out = true) : Upd A s0 t := by
  unfold execSend at e
  cases e
  repeat' first
    | with_reducible assumption
    | (intro s1; refine (fun (hs1 : Upd A s0 s1) => ?_) ?_; clear_value s1; rotate_left; subst s1; rotate_left)
    | intro x1
    | lift_lets
    | with_reducible apply State.withDescHost_upd
    | with_reducible apply State.sendCheck_upd
    | with_reducible apply State.failDesc_upd
    | with_reducible apply State.sendDo_upd
    | with_reducible apply State.sendAsk_upd
    | with_reducible apply State.headNeed_upd
    | with_reducible refine Upd.ofSnd (by assumption) ?_
    | with_reducible refine Upd.ofSnd3 (by assumption) ?_
    | split
    | dsimp only

theorem State.recvRow_upd {A : Fld → Bool} {s0 s : State} (x1 : ℕ) (x2 : Source) (x3 : HostView) (x4 : (ℕ → Bool)) (x5 : (State →
 ℕ → Desc → EvtInfo → Pattern → State)) (h : Upd A s0 s) (f5 : ∀ v0 v1 v2 v3 v4, Upd A s0 v0 → Upd A s0 (x5 v0 v1 v2 v3 v4)) (a_regs : A .regs = true) (a_ports : A .ports = true) (a_hls : A .hls = true) (a_fns : A .fns = true) (a_accts : A .accts = true) (a_orders : A .orders = true) (a_notices : A .notices = true) (a_acctCmds : A .acctCmds = true) (a_tags : A .tags = true) (a_clhIn : A .clhIn = true) (a_tptIn : A .tptIn = true) (a_mcIn : A .mcIn = true) (a_fifelIn : A .fifelIn = true) (a_samples : A .samples = true) (a_sampleLost : A .sampleLost = true) (a_clh : A .clh = true) (a_pwr : A .pwr = true) (a_boot : A .boot = true) (a_rotate : A .rotate = true) (a_freeCtr : A .freeCtr = true) (a_nextId : A .nextId = true) (a_out : A .out = true) : Upd A s0 (State.recvRow s x1 x2 x3 x4 x5) := by
  unfold State.recvRow
  repeat' first
    | with_reducible assumption
    | (intro x1; clear_value x1)
    | intro x1
    | lift_lets
    | with_reducible apply State.ldgOp_upd
    | with_reducible apply State.recvNone_upd
    | with_reducible apply State.withDescHost_upd
    | with_reducible apply f5
    | split
    | dsimp only

theorem execRecv_upd_eq {A : Fld → Bool} {s0 s : State} {x1 : AcctNo} {x2 : Source} {x3 : HostView} {t : State} (h : Upd A s0 s) (e : execRecv x1 x2 x3 s = .next t) (a_regs : A .regs = true) (a_ports : A .ports = true) (a_hls : A .hls = true) (a_fns : A .fns = true) (a_accts : A .accts = true) (a_srcMsgs : A .srcMsgs = true) (a_rankCache : A .rankCache = true) (a_orders : A .orders = true) (a_notices : A .notices = true) (a_acctCmds : A .acctCmds = true) (a_entries : A .entries = true) (a_lmatches : A .lmatches = true) (a_tags : A .tags = true) (a_clhIn : A .clhIn = true) (a_tptIn : A .tptIn = true) (a_mcIn : A .mcIn = true) (a_fifelIn : A .fifelIn = true) (a_samples : A .samples = true) (a_sampleLost : A .sampleLost = true) (a_clh : A .clh = true) (a_pwr : A .pwr = true) (a_boot : A .boot = true) (a_rotate : A .rotate = true) (a_freeCtr : A .freeCtr = true) (a_nextId : A .nextId = true) (a_out : A .out = true) : Upd A s0 t := by
  unfold execRecv at e
  cases e
  repeat' first
    | with_reducible assumption
    | (intro s1; refine (fun (hs1 : Upd A s0 s1) => ?_) ?_; clear_value s1; rotate_left; subst s1; rotate_left)
    | (intro x1; clear_value x1)
    | intro x1
    | lift_lets
    | with_reducible apply State.addEntry_upd
    | with_reducible apply State.bump_upd
    | with_reducible apply State.delEntry_upd
    | with_reducible apply State.entryNeed_upd
    | with_reducible apply State.headNeed_upd
    | with_reducible apply State.newId_upd
    | with_reducible apply State.pullFor_upd
    | with_reducible apply State.recvNone_upd
    | with_reducible apply State.recvRow_upd
    | with_reducible apply State.set_upd
    | with_reducible apply State.spillFull_upd
    | with_reducible refine Upd.ofSnd (by assumption) ?_
    | split
    | dsimp only
    | with_reducible apply Upd.to_lmatches

theorem execRecvProbe_upd_eq {A : Fld → Bool} {s0 s : State} {x1 : AcctNo} {x2 : Source} {t : State} (h : Upd A s0 s) (e : execRecvProbe x1 x2 s = .next t) (a_regs : A .regs = true) (a_ports : A .ports = true) (a_hls : A .hls = true) (a_fns : A .fns = true) (a_accts : A .accts = true) (a_orders : A .orders = true) (a_notices : A .notices = true) (a_acctCmds : A .acctCmds = true) (a_tags : A .tags = true) (a_clhIn : A .clhIn = true) (a_tptIn : A .tptIn = true) (a_mcIn : A .mcIn = true) (a_fifelIn : A .fifelIn = true) (a_samples : A .samples = true) (a_sampleLost : A .sampleLost = true) (a_clh : A .clh = true) (a_pwr : A .pwr = true) (a_boot : A .boot = true) (a_rotate : A .rotate = true) (a_freeCtr : A .freeCtr = true) (a_nextId : A .nextId = true) (a_out : A .out = true) : Upd A s0 t := by
  unfold execRecvProbe at e
  cases e
  repeat' first
    | with_reducible assumption
    | intro x1
    | lift_lets
    | with_reducible apply State.recvNone_upd
    | with_reducible apply State.complete_upd
    | with_reducible apply State.recvRow_upd
    | split

theorem execRecvCancel_upd_eq {A : Fld → Bool} {s0 s : State} {x1 : AcctNo} {x2 : Source} {t : State} (h : Upd A s0 s) (e : execRecvCancel x1 x2 s = .next t) (a_regs : A .regs = true) (a_ports : A .ports = true) (a_hls : A .hls = true) (a_fns : A .fns = true) (a_accts : A .accts = true) (a_orders : A .orders = true) (a_notices : A .notices = true) (a_acctCmds : A .acctCmds = true) (a_entries : A .entries = true) (a_tags : A .tags = true) (a_clhIn : A .clhIn = true) (a_tptIn : A .tptIn = true) (a_mcIn : A .mcIn = true) (a_fifelIn : A .fifelIn = true) (a_samples : A .samples = true) (a_sampleLost : A .sampleLost = true) (a_clh : A .clh = true) (a_pwr : A .pwr = true) (a_boot : A .boot = true) (a_rotate : A .rotate = true) (a_freeCtr : A .freeCtr = true) (a_nextId : A .nextId = true) (a_out : A .out = true) : Upd A s0 t := by
  unfold execRecvCancel at e
  cases e
  repeat' first
    | with_reducible assumption
    | intro x1
    | lift_lets
    | with_reducible apply State.recvNone_upd
    | with_reducible apply State.delEntry_upd
    | with_reducible apply State.completeQuiet_upd
    | with_reducible apply State.free_upd
    | with_reducible apply State.recvRow_upd
    | with_reducible apply State.recvDone_upd
    | with_reducible refine Upd.ofSnd (by assumption) ?_
    | split

theorem execRecvOvf_upd_eq {A : Fld → Bool} {s0 s : State} {x1 : AcctNo} {x2 : Source} {t : State} (h : Upd A s0 s) (e : execRecvOvf x1 x2 s = .next t) (a_regs : A .regs = true) (a_ports : A .ports = true) (a_hls : A .hls = true) (a_fns : A .fns = true) (a_accts : A .accts = true) (a_ctxs : A .ctxs = true) (a_orders : A .orders = true) (a_notices : A .notices = true) (a_acctCmds : A .acctCmds = true) (a_ovfBufs : A .ovfBufs = true) (a_tags : A .tags = true) (a_clhIn : A .clhIn = true) (a_tptIn : A .tptIn = true) (a_mcIn : A .mcIn = true) (a_fifelIn : A .fifelIn = true) (a_samples : A .samples = true) (a_sampleLost : A .sampleLost = true) (a_clh : A .clh = true) (a_pwr : A .pwr = true) (a_boot : A .boot = true) (a_rotate : A .rotate = true) (a_freeCtr : A .freeCtr = true) (a_nextId : A .nextId = true) (a_out : A .out = true) : Upd A s0 t := by
  unfold execRecvOvf at e
  cases e
  repeat' first
    | with_reducible assumption
    | intro x1
    | lift_lets
    | with_reducible apply State.recvNone_upd
    | with_reducible apply State.ldgStat_upd
    | with_reducible apply State.recvRow_upd
    | with_reducible apply State.newId_upd
    | with_reducible apply State.modCtx_upd
    | with_reducible refine Upd.ofSnd (by assumption) ?_
    | split
    | with_reducible apply Upd.to_ovfBufs

theorem State.ovfRefuse_upd {A : Fld → Bool} {s0 s : State} (x1 : Header) (x2 : ℕ) (h : Upd A s0 s) (a_regs : A .regs = true) (a_hls : A .hls = true) (a_fns : A .fns = true) (a_accts : A .accts = true) (a_ctxs : A .ctxs = true) (a_notices : A .notices = true) (a_acctCmds : A .acctCmds = true) (a_tags : A .tags = true) (a_clhIn : A .clhIn = true) (a_qsHere : A .qsHere = true) (a_qsInj : A .qsInj = true) (a_freeCtr : A .freeCtr = true) (a_out : A .out = true) : Upd A s0 (State.ovfRefuse s x1 x2) := by
  unfold State.ovfRefuse
  repeat' first
    | with_reducible assumption
    | (intro s1; refine (fun (hs1 : Upd A s0 s1) => ?_) ?_; clear_value s1; rotate_left; subst s1; rotate_left)
    | lift_lets
    | with_reducible apply State.bump_upd
    | with_reducible apply State.refuse_upd
    | with_reducible apply State.modCtx_upd
    | with_reducible apply State.notice_upd
    | split

theorem State.storeHdr_upd {A : Fld → Bool} {s0 s : State} (x1 : Header) (x2 : LEntry) (x3 : (State → LEntry → State)) (h : Upd A s0 s) (f3 : ∀ v0 v1, Upd A s0 v0 → Upd A s0 (x3 v0 v1)) (a_regs : A .regs = true) (a_hls : A .hls = true) (a_fns : A .fns = true) (a_accts : A .accts = true) (a_ctxs : A .ctxs = true) (a_orders : A .orders = true) (a_notices : A .notices = true) (a_acctCmds : A .acctCmds = true) (a_ovfBufs : A .ovfBufs = true) (a_tags : A .tags = true) (a_clhIn : A .clhIn = true) (a_qsHere : A .qsHere = true) (a_qsInj : A .qsInj = true) (a_clh : A .clh = true) (a_freeCtr : A .freeCtr = true) (a_out : A .out = true) : Upd A s0 (State.storeHdr s x1 x2 x3).2 := by
  unfold State.storeHdr
  repeat' first
    | with_reducible assumption
    | intro x1
    | (intro s1; refine (fun (hs1 : Upd A s0 s1) => ?_) ?_; clear_value s1; rotate_left; subst s1; rotate_left)
    | lift_lets
    | with_reducible apply State.ovfReserve_upd
    | with_reducible apply State.ovfRefuse_upd
    | with_reducible apply State.refuse_upd
    | with_reducible apply State.ldgStat_upd
    | with_reducible apply State.spillFull_upd
    | with_reducible apply State.entryNeed_upd
    | with_reducible refine Upd.ofSnd (by assumption) ?_
    | with_reducible apply f3
    | split
    | dsimp only

theorem State.ledgerAdmit_upd {A : Fld → Bool} {s0 s : State} (x1 : Packet) (x2 : HostView) (h : Upd A s0 s) (a_regs : A .regs = true) (a_hls : A .hls = true) (a_fns : A .fns = true) (a_accts : A .accts = true) (a_ctxs : A .ctxs = true) (a_srcMsgs : A .srcMsgs = true) (a_rankCache : A .rankCache = true) (a_orders : A .orders = true) (a_notices : A .notices = true) (a_acctCmds : A .acctCmds = true) (a_entries : A .entries = true) (a_lmatches : A .lmatches = true) (a_ovfBufs : A .ovfBufs = true) (a_tags : A .tags = true) (a_clhIn : A .clhIn = true) (a_qsHere : A .qsHere = true) (a_qsInj : A .qsInj = true) (a_clh : A .clh = true) (a_freeCtr : A .freeCtr = true) (a_nextId : A .nextId = true) (a_out : A .out = true) : Upd A s0 (State.ledgerAdmit s x1 x2).2 := by
  unfold State.ledgerAdmit
  repeat' first
    | with_reducible assumption
    | (intro x1; clear_value x1)
    | (intro x1; have x2 := fun a => x1 a; clear x2; subst x1)
    | (intro s1; refine (fun (hs1 : Upd A s0 s1) => ?_) ?_; clear_value s1; rotate_left; subst s1; rotate_left)
    | intro x1
    | lift_lets
    | with_reducible apply State.bump_upd
    | with_reducible apply State.sendNak_upd
    | with_reducible apply State.releaseEarly_upd
    | with_reducible apply State.ordAsk_upd
    | with_reducible apply State.refuse_upd
    | with_reducible apply State.storeHdr_upd
    | with_reducible apply State.raise_upd
    | with_reducible apply State.ordSet_upd
    | with_reducible apply State.gate_upd
    | with_reducible apply State.addEntry_upd
    | with_reducible apply State.newId_upd
    | with_reducible apply State.admitHdr_upd
    | with_reducible apply State.newAdm_upd
    | with_reducible refine Upd.ofSnd (by assumption) ?_
    | split
    | dsimp only
    | dsimp +zetaDelta only

theorem State.eagerWrite_upd {A : Fld → Bool} {s0 s : State} (x1 : Packet) (x2 : Option ℕ) (h : Upd A s0 s) (a_regs : A .regs = true) (a_hls : A .hls = true) (a_fns : A .fns = true) (a_lmatches : A .lmatches = true) (a_tags : A .tags = true) (a_clhIn : A .clhIn = true) (a_freeCtr : A .freeCtr = true) (a_out : A .out = true) : Upd A s0 (State.eagerWrite s x1 x2).2 := by
  unfold State.eagerWrite
  repeat' first
    | with_reducible assumption
    | (intro x1; have x2 := fun a => x1 a; clear x2; subst x1)
    | (intro x1; have x2 := Prod.snd x1; clear x2; subst x1)
    | lift_lets
    | with_reducible apply State.modMatch_upd
    | with_reducible apply State.gate_upd
    | with_reducible apply State.scatter_upd
    | with_reducible refine Upd.ofSnd (by assumption) ?_
    | split
    | dsimp only

theorem State.eagerComplete_upd {A : Fld → Bool} {s0 s : State} (x1 : OpenMsg) (h : Upd A s0 s) (a_regs : A .regs = true) (a_hls : A .hls = true) (a_fns : A .fns = true) (a_accts : A .accts = true) (a_orders : A .orders = true) (a_entries : A .entries = true) (a_lmatches : A .lmatches = true) (a_tags : A .tags = true) (a_clhIn : A .clhIn = true) (a_freeCtr : A .freeCtr = true) (a_out : A .out = true) : Upd A s0 (State.eagerComplete s x1) := by
  unfold State.eagerComplete
  repeat' first
    | with_reducible assumption
    | intro x1
    | (intro x1; clear_value x1)
    | lift_lets
    | with_reducible apply State.modMatch_upd
    | with_reducible apply State.matchDone_upd
    | with_reducible apply State.delMatch_upd
    | with_reducible apply State.relist_upd
    | split
    | exact { h with entries := .inl a_entries, keeps := fun i => { h.keeps i with } }
    | dsimp only

theorem State.eagerNext_upd {A : Fld → Bool} {s0 s : State} (x1 : Packet) (h : Upd A s0 s) (a_regs : A .regs = true) (a_hls : A .hls = true) (a_fns : A .fns = true) (a_accts : A .accts = true) (a_openMsgs : A .openMsgs = true) (a_filter : A .filter = true) (a_orders : A .orders = true) (a_flushes : A .flushes = true) (a_entries : A .entries = true) (a_lmatches : A .lmatches = true) (a_tags : A .tags = true) (a_clhIn : A .clhIn = true) (a_tptIn : A .tptIn = true) (a_qsHere : A .qsHere = true) (a_qsInj : A .qsInj = true) (a_freeCtr : A .freeCtr = true) (a_out : A .out = true) : Upd A s0 (State.eagerNext s x1) := by
  unfold State.eagerNext
  repeat' first
    | with_reducible assumption
    | (intro s1; refine (fun (hs1 : Upd A s0 s1) => ?_) ?_; clear_value s1; rotate_left; subst s1; rotate_left)
    | (intro x1; clear_value x1)
    | intro x1
    | lift_lets
    | with_reducible apply State.delOpen_upd
    | with_reducible apply State.eagerComplete_upd
    | with_reducible apply State.eagerWrite_upd
    | with_reducible apply State.enterPkt_upd
    | with_reducible apply State.filterFree_upd
    | with_reducible apply State.modOpen_upd
    | with_reducible apply State.msgCheck_upd
    | with_reducible apply State.putBack_upd
    | with_reducible apply State.raise_upd
    | with_reducible refine Upd.ofSnd (by assumption) ?_
    | split
    | dsimp only

theorem State.eagerKick_upd {A : Fld → Bool} {s0 s : State} (x1 : ℕ) (h : Upd A s0 s) (a_regs : A .regs = true) (a_hls : A .hls = true) (a_fns : A .fns = true) (a_accts : A .accts = true) (a_openMsgs : A .openMsgs = true) (a_filter : A .filter = true) (a_orders : A .orders = true) (a_flushes : A .flushes = true) (a_entries : A .entries = true) (a_lmatches : A .lmatches = true) (a_tags : A .tags = true) (a_clhIn : A .clhIn = true) (a_tptIn : A .tptIn = true) (a_qsHere : A .qsHere = true) (a_qsInj : A .qsInj = true) (a_freeCtr : A .freeCtr = true) (a_out : A .out = true) : Upd A s0 (State.eagerKick s x1) := by
  unfold State.eagerKick
  repeat' first
    | with_reducible assumption
    | intro x1
    | lift_lets
    | with_reducible apply State.eagerNext_upd
    | with_reducible apply State.modOpen_upd
    | with_reducible apply Upd.fold
    | split
    | dsimp only

theorem State.hdrTry_upd {A : Fld → Bool} {s0 s : State} (x1 : Packet) (h : Upd A s0 s) (a_ctxs : A .ctxs = true) : Upd A s0 (State.hdrTry s x1) := by
  unfold State.hdrTry
  repeat' first
    | with_reducible assumption
    | intro x1
    | lift_lets
    | with_reducible apply State.modCtx_upd
    | split
    | dsimp only

theorem State.hdrWait_upd {A : Fld → Bool} {s0 s : State} (x1 : Packet) (h : Upd A s0 s) (a_ctxs : A .ctxs = true) (a_tptIn : A .tptIn = true) : Upd A s0 (State.hdrWait s x1) := by
  unfold State.hdrWait
  repeat' first
    | with_reducible assumption
    | (intro s1; refine (fun (hs1 : Upd A s0 s1) => ?_) ?_; clear_value s1; rotate_left; subst s1; rotate_left)
    | intro x1
    | lift_lets
    | with_reducible apply State.modCtx_upd
    | split
    | dsimp only
    | with_reducible apply Upd.to_tptIn

theorem State.ctxKick_upd {A : Fld → Bool} {s0 s : State} (h : Upd A s0 s) (a_ctxs : A .ctxs = true) : Upd A s0 (State.ctxKick s) := by
  unfold State.ctxKick
  exact Upd.to_ctxs _ h a_ctxs fun _ i => tasc_map _ (fun _ => rfl) i.ctxs

theorem State.eagerFresh_upd {A : Fld → Bool} {s0 s : State} (x1 : Packet) (x2 : HostView) (h : Upd A s0 s) (a_regs : A .regs = true) (a_hls : A .hls = true) (a_fns : A .fns = true) (a_accts : A .accts = true) (a_ctxs : A .ctxs = true) (a_srcMsgs : A .srcMsgs = true) (a_openMsgs : A .openMsgs = true) (a_filter : A .filter = true) (a_rankCache : A .rankCache = true) (a_orders : A .orders = true) (a_flushes : A .flushes = true) (a_notices : A .notices = true) (a_acctCmds : A .acctCmds = true) (a_entries : A .entries = true) (a_lmatches : A .lmatches = true) (a_ovfBufs : A .ovfBufs = true) (a_tags : A .tags = true) (a_clhIn : A .clhIn = true) (a_tptIn : A .tptIn = true) (a_qsHere : A .qsHere = true) (a_qsInj : A .qsInj = true) (a_clh : A .clh = true) (a_freeCtr : A .freeCtr = true) (a_nextId : A .nextId = true) (a_out : A .out = true) : Upd A s0 (State.eagerFresh s x1 x2) := by
  unfold State.eagerFresh
  repeat' first
    | with_reducible assumption
    | intro x1
    | (intro x1; clear_value x1)
    | lift_lets
    | with_reducible apply State.ledgerAdmit_upd
    | with_reducible apply State.modOpen_upd
    | with_reducible apply State.eagerNext_upd
    | with_reducible apply State.openMsg_upd
    | with_reducible apply State.hdrWait_upd
    | with_reducible apply State.hdrTry_upd
    | with_reducible refine Upd.ofSnd (by assumption) ?_
    | split
    | dsimp only

theorem execSendEagerReceive_upd_eq {A : Fld → Bool} {s0 s : State} {x1 : HostView} {t : State} (h : Upd A s0 s) (e : execSendEagerReceive x1 s = .next t) (a_regs : A .regs = true) (a_ports : A .ports = true) (a_hls : A .hls = true) (a_fns : A .fns = true) (a_accts : A .accts = true) (a_ctxs : A .ctxs = true) (a_srcMsgs : A .srcMsgs = true) (a_openMsgs : A .openMsgs = true) (a_filter : A .filter = true) (a_rankCache : A .rankCache = true) (a_orders : A .orders = true) (a_flushes : A .flushes = true) (a_notices : A .notices = true) (a_acctCmds : A .acctCmds = true) (a_entries : A .entries = true) (a_lmatches : A .lmatches = true) (a_ovfBufs : A .ovfBufs = true) (a_tags : A .tags = true) (a_clhIn : A .clhIn = true) (a_tptIn : A .tptIn = true) (a_mcIn : A .mcIn = true) (a_fifelIn : A .fifelIn = true) (a_qsHere : A .qsHere = true) (a_qsInj : A .qsInj = true) (a_samples : A .samples = true) (a_sampleLost : A .sampleLost = true) (a_clh : A .clh = true) (a_pwr : A .pwr = true) (a_boot : A .boot = true) (a_rotate : A .rotate = true) (a_freeCtr : A .freeCtr = true) (a_nextId : A .nextId = true) (a_out : A .out = true) : Upd A s0 t := by
  unfold execSendEagerReceive at e
  cases e
  repeat' first
    | with_reducible assumption
    | (intro x1; have x2 := fun a => x1 a; clear x2; subst x1)
    | (intro x1; have x2 := Prod.snd x1; clear x2; subst x1)
    | intro x1
    | lift_lets
    | with_reducible apply State.eagerFresh_upd
    | with_reducible apply State.receiptAgain_upd
    | with_reducible apply State.unlessRefusing_upd
    | with_reducible apply State.withPkt_upd
    | with_reducible apply State.eagerNext_upd
    | with_reducible apply State.dupHandle_upd
    | split

theorem execSendRtsReceive_upd_eq {A : Fld → Bool} {s0 s : State} {x1 : HostView} {t : State} (h : Upd A s0 s) (e : execSendRtsReceive x1 s = .next t) (a_regs : A .regs = true) (a_ports : A .ports = true) (a_hls : A .hls = true) (a_fns : A .fns = true) (a_accts : A .accts = true) (a_ctxs : A .ctxs = true) (a_srcMsgs : A .srcMsgs = true) (a_openMsgs : A .openMsgs = true) (a_filter : A .filter = true) (a_rankCache : A .rankCache = true) (a_orders : A .orders = true) (a_flushes : A .flushes = true) (a_notices : A .notices = true) (a_acctCmds : A .acctCmds = true) (a_entries : A .entries = true) (a_lmatches : A .lmatches = true) (a_ovfBufs : A .ovfBufs = true) (a_tags : A .tags = true) (a_clhIn : A .clhIn = true) (a_tptIn : A .tptIn = true) (a_mcIn : A .mcIn = true) (a_fifelIn : A .fifelIn = true) (a_qsHere : A .qsHere = true) (a_qsInj : A .qsInj = true) (a_samples : A .samples = true) (a_sampleLost : A .sampleLost = true) (a_clh : A .clh = true) (a_pwr : A .pwr = true) (a_boot : A .boot = true) (a_rotate : A .rotate = true) (a_freeCtr : A .freeCtr = true) (a_nextId : A .nextId = true) (a_out : A .out = true) : Upd A s0 t := by
  unfold execSendRtsReceive at e
  cases e
  repeat' first
    | with_reducible assumption
    | (intro x1; have x2 := fun a => x1 a; clear x2; subst x1)
    | (intro x1; clear_value x1)
    | intro x1
    | lift_lets
    | with_reducible apply State.dupHandle_upd
    | with_reducible apply State.enterPkt_upd
    | with_reducible apply State.hdrWait_upd
    | with_reducible apply State.ledgerAdmit_upd
    | with_reducible apply State.msgCheck_upd
    | with_reducible apply State.openMsg_upd
    | with_reducible apply State.receiptAgain_upd
    | with_reducible apply State.unlessRefusing_upd
    | with_reducible apply State.withPkt_upd
    | with_reducible apply State.hdrTry_upd
    | with_reducible refine Upd.ofSnd (by assumption) ?_
    | split
    | dsimp only
    | dsimp +zetaDelta only

theorem State.refuseWaiting_upd {A : Fld → Bool} {s0 s : State} (x1 : ℕ) (x2 : ℕ) (h : Upd A s0 s) (a_regs : A .regs = true) (a_hls : A .hls = true) (a_fns : A .fns = true) (a_tptIn : A .tptIn = true) (a_qsHere : A .qsHere = true) (a_qsInj : A .qsInj = true) (a_out : A .out = true) : Upd A s0 (State.refuseWaiting s x1 x2) := by
  unfold State.refuseWaiting
  repeat' first
    | with_reducible assumption
    | intro x1
    | lift_lets
    | with_reducible apply State.refuse_upd
    | with_reducible apply Upd.fold
    | split
    | exact { h with tptIn := .inl a_tptIn, keeps := fun i => { h.keeps i with } }
    | dsimp only
    | with_reducible apply Upd.to_tptIn

theorem State.failSends_upd {A : Fld → Bool} {s0 s : State} (x1 : ℕ) (x2 : ℕ) (x3 : ℕ) (x4 : HostView) (h : Upd A s0 s) (a_regs : A .regs = true) (a_ports : A .ports = true) (a_hls : A .hls = true) (a_fns : A .fns = true) (a_accts : A .accts = true) (a_rankCache : A .rankCache = true) (a_orders : A .orders = true) (a_notices : A .notices = true) (a_acctCmds : A .acctCmds = true) (a_tags : A .tags = true) (a_clhIn : A .clhIn = true) (a_tptIn : A .tptIn = true) (a_mcIn : A .mcIn = true) (a_fifelIn : A .fifelIn = true) (a_samples : A .samples = true) (a_sampleLost : A .sampleLost = true) (a_clh : A .clh = true) (a_pwr : A .pwr = true) (a_boot : A .boot = true) (a_rotate : A .rotate = true) (a_freeCtr : A .freeCtr = true) (a_nextId : A .nextId = true) (a_out : A .out = true) : Upd A s0 (State.failSends s x1 x2 x3 x4) := by
  unfold State.failSends
  repeat' first
    | with_reducible assumption
    | (intro x1; clear_value x1)
    | intro x1
    | lift_lets
    | with_reducible apply State.failDesc_upd
    | with_reducible apply State.withDesc_upd
    | with_reducible apply State.sendCheck_upd
    | with_reducible refine Upd.ofSnd3 (by assumption) ?_
    | with_reducible apply Upd.fold
    | split
    | dsimp only

theorem State.orderFill_upd {A : Fld → Bool} {s0 s : State} (x1 : ℕ) (x2 : ℕ) (x3 : Option ℕ) (x4 : HostView) (h : Upd A s0 s) (a_regs : A .regs = true) (a_ports : A .ports = true) (a_hls : A .hls = true) (a_fns : A .fns = true) (a_accts : A .accts = true) (a_ctxs : A .ctxs = true) (a_rankCache : A .rankCache = true) (a_orders : A .orders = true) (a_notices : A .notices = true) (a_acctCmds : A .acctCmds = true) (a_tags : A .tags = true) (a_clhIn : A .clhIn = true) (a_tptIn : A .tptIn = true) (a_mcIn : A .mcIn = true) (a_fifelIn : A .fifelIn = true) (a_qsHere : A .qsHere = true) (a_qsInj : A .qsInj = true) (a_samples : A .samples = true) (a_sampleLost : A .sampleLost = true) (a_clh : A .clh = true) (a_pwr : A .pwr = true) (a_boot : A .boot = true) (a_rotate : A .rotate = true) (a_freeCtr : A .freeCtr = true) (a_nextId : A .nextId = true) (a_out : A .out = true) : Upd A s0 (State.orderFill s x1 x2 x3 x4) := by
  unfold State.orderFill
  repeat' first
    | with_reducible assumption
    | (intro x1; have x2 := fun a => x1 a; clear x2; subst x1)
    | intro x1
    | (intro x1; clear_value x1)
    | (intro s1; refine (fun (hs1 : Upd A s0 s1) => ?_) ?_; clear_value s1; rotate_left; subst s1; rotate_left)
    | lift_lets
    | with_reducible apply State.refuseWaiting_upd
    | with_reducible apply State.ordEvict_upd
    | with_reducible apply State.raise_upd
    | with_reducible apply State.freeTag_upd
    | with_reducible apply State.ordSet_upd
    | with_reducible apply State.modCtx_upd
    | with_reducible apply State.failSends_upd
    | split
    | with_reducible apply Upd.getD
    | dsimp only
    | dsimp +zetaDelta only

theorem execOrderFillComplete_upd_eq {A : Fld → Bool} {s0 s : State} {x1 : Fin 65536} {x2 : ℕ} {x3 : HostView} {t : State} (h : Upd A s0 s) (e : execOrderFillComplete x1 x2 x3 s = .next t) (a_regs : A .regs = true) (a_ports : A .ports = true) (a_hls : A .hls = true) (a_fns : A .fns = true) (a_accts : A .accts = true) (a_ctxs : A .ctxs = true) (a_rankCache : A .rankCache = true) (a_orders : A .orders = true) (a_notices : A .notices = true) (a_acctCmds : A .acctCmds = true) (a_tags : A .tags = true) (a_clhIn : A .clhIn = true) (a_tptIn : A .tptIn = true) (a_mcIn : A .mcIn = true) (a_fifelIn : A .fifelIn = true) (a_qsHere : A .qsHere = true) (a_qsInj : A .qsInj = true) (a_samples : A .samples = true) (a_sampleLost : A .sampleLost = true) (a_clh : A .clh = true) (a_pwr : A .pwr = true) (a_boot : A .boot = true) (a_rotate : A .rotate = true) (a_freeCtr : A .freeCtr = true) (a_nextId : A .nextId = true) (a_out : A .out = true) : Upd A s0 t := by
  unfold execOrderFillComplete at e
  cases e
  repeat' first
    | with_reducible assumption
    | intro x1
    | lift_lets
    | with_reducible apply State.orderFill_upd
    | with_reducible apply State.activityUpd_upd
    | split
    | dsimp only

theorem execEagerCopyDone_upd_eq {A : Fld → Bool} {s0 s : State} {x1 : ℕ} {x2 : HostView} {t : State} (h : Upd A s0 s) (e : execEagerCopyDone x1 x2 s = .next t) (a_regs : A .regs = true) (a_ports : A .ports = true) (a_hls : A .hls = true) (a_fns : A .fns = true) (a_accts : A .accts = true) (a_orders : A .orders = true) (a_lmatches : A .lmatches = true) (a_ovfBufs : A .ovfBufs = true) (a_tags : A .tags = true) (a_clhIn : A .clhIn = true) (a_tptIn : A .tptIn = true) (a_mcIn : A .mcIn = true) (a_fifelIn : A .fifelIn = true) (a_samples : A .samples = true) (a_sampleLost : A .sampleLost = true) (a_clh : A .clh = true) (a_pwr : A .pwr = true) (a_boot : A .boot = true) (a_rotate : A .rotate = true) (a_freeCtr : A .freeCtr = true) (a_nextId : A .nextId = true) (a_out : A .out = true) : Upd A s0 t := by
  unfold execEagerCopyDone at e
  cases e
  repeat' first
    | with_reducible assumption
    | intro x1
    | (intro s1; refine (fun (hs1 : Upd A s0 s1) => ?_) ?_; clear_value s1; rotate_left; subst s1; rotate_left)
    | (intro x1; have x2 := fun a => x1 a; clear x2; subst x1)
    | (intro x1; have x2 := Prod.snd x1; clear x2; subst x1)
    | (intro x1; clear_value x1)
    | lift_lets
    | with_reducible apply State.matchDone_upd
    | with_reducible apply State.activityUpd_upd
    | with_reducible apply State.ldgStat_upd
    | with_reducible apply State.gate_upd
    | with_reducible apply State.ovfRelease_upd
    | with_reducible apply State.delMatch_upd
    | with_reducible apply State.modAcct_upd
    | with_reducible apply State.scatter_upd
    | with_reducible refine Upd.ofSnd (by assumption) ?_
    | split
    | dsimp only
    | dsimp +zetaDelta only

theorem State.spillDone_upd {A : Fld → Bool} {s0 s : State} (x1 : ℕ) (h : Upd A s0 s) (a_regs : A .regs = true) (a_hls : A .hls = true) (a_fns : A .fns = true) (a_accts : A .accts = true) (a_notices : A .notices = true) (a_acctCmds : A .acctCmds = true) (a_entries : A .entries = true) (a_tags : A .tags = true) (a_clhIn : A .clhIn = true) (a_freeCtr : A .freeCtr = true) (a_out : A .out = true) : Upd A s0 (State.spillDone s x1) := by
  unfold State.spillDone
  repeat' first
    | with_reducible assumption
    | intro x1
    | (intro s1; refine (fun (hs1 : Upd A s0 s1) => ?_) ?_; clear_value s1; rotate_left; subst s1; rotate_left)
    | lift_lets
    | with_reducible apply State.setCtxSt_upd
    | with_reducible apply State.notice_upd
    | with_reducible apply State.spillSync_upd
    | split
    | with_reducible apply Upd.getD
    | dsimp only
    | with_reducible apply Upd.to_entries

theorem execSpillDone_upd_eq {A : Fld → Bool} {s0 s : State} {x1 : Fin 65536} {t : State} (h : Upd A s0 s) (e : execSpillDone x1 s = .next t) (a_regs : A .regs = true) (a_ports : A .ports = true) (a_hls : A .hls = true) (a_fns : A .fns = true) (a_accts : A .accts = true) (a_notices : A .notices = true) (a_acctCmds : A .acctCmds = true) (a_entries : A .entries = true) (a_tags : A .tags = true) (a_clhIn : A .clhIn = true) (a_tptIn : A .tptIn = true) (a_mcIn : A .mcIn = true) (a_fifelIn : A .fifelIn = true) (a_samples : A .samples = true) (a_sampleLost : A .sampleLost = true) (a_clh : A .clh = true) (a_pwr : A .pwr = true) (a_boot : A .boot = true) (a_rotate : A .rotate = true) (a_freeCtr : A .freeCtr = true) (a_nextId : A .nextId = true) (a_out : A .out = true) : Upd A s0 t := by
  unfold execSpillDone at e
  cases e
  repeat' first
    | with_reducible assumption
    | intro x1
    | lift_lets
    | with_reducible apply State.spillDone_upd
    | with_reducible apply State.activityUpd_upd
    | split
    | dsimp only

theorem execReturnStart_upd_eq {A : Fld → Bool} {s0 s : State} {x1 : Fin 65536} {t : State} (h : Upd A s0 s) (e : execReturnStart x1 s = .next t) (a_regs : A .regs = true) (a_ports : A .ports = true) (a_hls : A .hls = true) (a_fns : A .fns = true) (a_clhIn : A .clhIn = true) (a_tptIn : A .tptIn = true) (a_mcIn : A .mcIn = true) (a_fifelIn : A .fifelIn = true) (a_samples : A .samples = true) (a_sampleLost : A .sampleLost = true) (a_clh : A .clh = true) (a_pwr : A .pwr = true) (a_boot : A .boot = true) (a_rotate : A .rotate = true) (a_freeCtr : A .freeCtr = true) (a_nextId : A .nextId = true) (a_out : A .out = true) : Upd A s0 t := by
  unfold execReturnStart at e
  cases e
  repeat' first
    | with_reducible assumption
    | intro x1
    | (intro x1; clear_value x1)
    | lift_lets
    | with_reducible apply State.setCtxSt_upd
    | with_reducible apply State.activityUpd_upd
    | split
    | dsimp only

theorem execReturnDone_upd_eq {A : Fld → Bool} {s0 s : State} {x1 : Fin 65536} {x2 : Bool} {t : State} (h : Upd A s0 s) (e : execReturnDone x1 x2 s = .next t) (a_regs : A .regs = true) (a_ports : A .ports = true) (a_hls : A .hls = true) (a_fns : A .fns = true) (a_accts : A .accts = true) (a_notices : A .notices = true) (a_acctCmds : A .acctCmds = true) (a_tags : A .tags = true) (a_clhIn : A .clhIn = true) (a_tptIn : A .tptIn = true) (a_mcIn : A .mcIn = true) (a_fifelIn : A .fifelIn = true) (a_samples : A .samples = true) (a_sampleLost : A .sampleLost = true) (a_clh : A .clh = true) (a_pwr : A .pwr = true) (a_boot : A .boot = true) (a_rotate : A .rotate = true) (a_freeCtr : A .freeCtr = true) (a_nextId : A .nextId = true) (a_out : A .out = true) : Upd A s0 t := by
  unfold execReturnDone at e
  cases e
  repeat' first
    | with_reducible assumption
    | intro x1
    | (intro s1; refine (fun (hs1 : Upd A s0 s1) => ?_) ?_; clear_value s1; rotate_left; subst s1; rotate_left)
    | lift_lets
    | with_reducible apply State.bump_upd
    | with_reducible apply State.setCtxSt_upd
    | with_reducible apply State.raise_upd
    | with_reducible apply State.notice_upd
    | with_reducible apply State.activityUpd_upd
    | split
    | with_reducible apply Upd.getD
    | dsimp only

theorem State.ctxClear_upd {A : Fld → Bool} {s0 s : State} (x1 : ℕ) (x2 : Bool) (h : Upd A s0 s) (a_regs : A .regs = true) (a_hls : A .hls = true) (a_fns : A .fns = true) (a_accts : A .accts = true) (a_ctxs : A .ctxs = true) (a_srcMsgs : A .srcMsgs = true) (a_orders : A .orders = true) (a_aptWaits : A .aptWaits = true) (a_entries : A .entries = true) (a_lmatches : A .lmatches = true) (a_ovfBufs : A .ovfBufs = true) (a_tags : A .tags = true) (a_clhIn : A .clhIn = true) (a_freeCtr : A .freeCtr = true) (a_nextId : A .nextId = true) (a_out : A .out = true) : Upd A s0 (State.ctxClear s x1 x2) := by
  unfold State.ctxClear
  repeat' first
    | with_reducible assumption
    | (intro s1; refine (fun (hs1 : Upd A s0 s1) => ?_) ?_; clear_value s1; rotate_left; subst s1; rotate_left)
    | (intro x1; clear_value x1)
    | intro x1
    | lift_lets
    | with_reducible apply State.bumpN_upd
    | with_reducible apply State.completeQuiet_upd
    | with_reducible apply State.modCtx_upd
    | with_reducible apply State.ordBack_upd
    | with_reducible apply State.ovfRelease_upd
    | with_reducible apply State.serveAll_upd
    | with_reducible apply State.setCtxSt_upd
    | with_reducible apply State.tptStat_upd
    | with_reducible apply Upd.fold
    | with_reducible apply Upd.getD
    | split
    | dsimp only
    | with_reducible apply Upd.to_srcMsgs_entries_lmatches

theorem State.ctxRange_upd {A : Fld → Bool} {s0 s : State} (x1 : ℕ) (x2 : ℕ) (x3 : ℕ) (h : Upd A s0 s) (a_regs : A .regs = true) (a_clhIn : A .clhIn = true) : Upd A s0 (State.ctxRange s x1 x2 x3) := by
  unfold State.ctxRange
  repeat' first
    | with_reducible assumption
    | (intro x1; clear_value x1)
    | intro x1
    | lift_lets
    | with_reducible apply State.raise_upd
    | with_reducible apply State.set_upd
    | split
    | dsimp only

end Sys2Proof.Machine
end

