-- ==== Sys2Proof/Laws/FrameAlloyOps.lean ====
section
/-!
SUPPORT. Laws/FrameAlloyOps.lean: which parts of State each operation of Machine/AlloyOps.lean may change, and that it keeps the invariant.
-/
namespace Sys2Proof.Machine
set_option linter.unusedTactic false
set_option linter.unreachableTactic false
set_option linter.unusedVariables false

theorem State.alyReceipt_upd {A : Fld → Bool} {s0 s : State} (x1 : ℕ) (x2 : ℕ) (x3 : ℕ) (x4 : ℕ) (h : Upd A s0 s) (a_regs : A .regs = true) (a_hls : A .hls = true) (a_fns : A .fns = true) (a_qsHere : A .qsHere = true) (a_qsInj : A .qsInj = true) (a_out : A .out = true) : Upd A s0 (State.alyReceipt s x1 x2 x3 x4) := by
  unfold State.alyReceipt
  repeat' first
    | with_reducible assumption
    | lift_lets
    | with_reducible apply State.qsSend_upd

theorem State.alyToken_upd {A : Fld → Bool} {s0 s : State} (x1 : ℕ) (x2 : ℕ) (x3 : ℕ) (x4 : ℕ) (x5 : Bool) (h : Upd A s0 s) (a_regs : A .regs = true) (a_hls : A .hls = true) (a_fns : A .fns = true) (a_qsHere : A .qsHere = true) (a_qsInj : A .qsInj = true) (a_out : A .out = true) : Upd A s0 (State.alyToken s x1 x2 x3 x4 x5) := by
  unfold State.alyToken
  repeat' first
    | with_reducible assumption
    | lift_lets
    | with_reducible apply State.qsSend_upd

theorem State.sendSeg_upd {A : Fld → Bool} {s0 s : State} (x1 : ℕ) (x2 : HeldSeg) (x3 : Bool) (h : Upd A s0 s) (a_regs : A .regs = true) (a_ports : A .ports = true) (a_hls : A .hls = true) (a_fns : A .fns = true) (a_trees : A .trees = true) (a_clhIn : A .clhIn = true) (a_tptIn : A .tptIn = true) (a_mcIn : A .mcIn = true) (a_fifelIn : A .fifelIn = true) (a_samples : A .samples = true) (a_sampleLost : A .sampleLost = true) (a_clh : A .clh = true) (a_rotate : A .rotate = true) (a_freeCtr : A .freeCtr = true) (a_nextId : A .nextId = true) (a_out : A .out = true) : Upd A s0 (State.sendSeg s x1 x2 x3) := by
  unfold State.sendSeg
  repeat' first
    | with_reducible assumption
    | intro x1
    | (intro x1; clear_value x1)
    | (intro s1; refine (fun (hs1 : Upd A s0 s1) => ?_) ?_; clear_value s1; rotate_left; subst s1; rotate_left)
    | (intro x1; have x2 := fun a => x1 a; clear x2; subst x1)
    | (intro x1; have x2 := Prod.snd x1; clear x2; subst x1)
    | lift_lets
    | with_reducible apply State.bump_upd
    | with_reducible apply State.modTree_upd
    | with_reducible apply State.sendOn_upd
    | split
    | dsimp only
    | dsimp +zetaDelta only

theorem State.holdSeg_upd {A : Fld → Bool} {s0 s : State} (x1 : ℕ) (x2 : Bool) (x3 : ℕ) (x4 : ℕ) (x5 : ℕ) (x6 : Packet) (h : Upd A s0 s) (a_regs : A .regs = true) (a_ports : A .ports = true) (a_hls : A .hls = true) (a_fns : A .fns = true) (a_trees : A .trees = true) (a_clhIn : A .clhIn = true) (a_tptIn : A .tptIn = true) (a_mcIn : A .mcIn = true) (a_fifelIn : A .fifelIn = true) (a_samples : A .samples = true) (a_sampleLost : A .sampleLost = true) (a_clh : A .clh = true) (a_rotate : A .rotate = true) (a_freeCtr : A .freeCtr = true) (a_nextId : A .nextId = true) (a_out : A .out = true) : Upd A s0 (State.holdSeg s x1 x2 x3 x4 x5 x6) := by
  unfold State.holdSeg
  repeat' first
    | with_reducible assumption
    | lift_lets
    | with_reducible apply State.modTree_upd
    | with_reducible apply State.sendSeg_upd

theorem State.alyStat_upd {A : Fld → Bool} {s0 s : State} (x1 : ℕ) (h : Upd A s0 s) (a_regs : A .regs = true) : Upd A s0 (State.alyStat s x1) := by
  unfold State.alyStat
  repeat' first
    | with_reducible assumption
    | lift_lets
    | with_reducible apply State.set_upd

theorem State.collEnd_upd {A : Fld → Bool} {s0 s : State} (x1 : ℕ) (x2 : LeafOp) (x3 : ℕ) (h : Upd A s0 s) (a_regs : A .regs = true) (a_hls : A .hls = true) (a_fns : A .fns = true) (a_accts : A .accts = true) (a_trees : A .trees = true) (a_orders : A .orders = true) (a_tags : A .tags = true) (a_clhIn : A .clhIn = true) (a_freeCtr : A .freeCtr = true) (a_out : A .out = true) : Upd A s0 (State.collEnd s x1 x2 x3) := by
  unfold State.collEnd
  repeat' first
    | with_reducible assumption
    | lift_lets
    | with_reducible apply State.modTree_upd
    | with_reducible apply State.complete_upd

theorem State.abortTokens_upd {A : Fld → Bool} {s0 s : State} (x1 : ℕ) (h : Upd A s0 s) (a_regs : A .regs = true) (a_hls : A .hls = true) (a_fns : A .fns = true) (a_trees : A .trees = true) (a_qsHere : A .qsHere = true) (a_qsInj : A .qsInj = true) (a_out : A .out = true) : Upd A s0 (State.abortTokens s x1) := by
  unfold State.abortTokens
  repeat' first
    | with_reducible assumption
    | (intro s1; refine (fun (hs1 : Upd A s0 s1) => ?_) ?_; clear_value s1; rotate_left; subst s1; rotate_left)
    | intro x1
    | lift_lets
    | with_reducible apply State.modTree_upd
    | with_reducible apply State.alyToken_upd
    | with_reducible apply Upd.fold
    | split
    | dsimp only

theorem State.abortTree_upd {A : Fld → Bool} {s0 s : State} (x1 : ℕ) (x2 : ℕ) (h : Upd A s0 s) (a_regs : A .regs = true) (a_hls : A .hls = true) (a_fns : A .fns = true) (a_accts : A .accts = true) (a_trees : A .trees = true) (a_orders : A .orders = true) (a_notices : A .notices = true) (a_acctCmds : A .acctCmds = true) (a_tags : A .tags = true) (a_clhIn : A .clhIn = true) (a_qsHere : A .qsHere = true) (a_qsInj : A .qsInj = true) (a_freeCtr : A .freeCtr = true) (a_out : A .out = true) : Upd A s0 (State.abortTree s x1 x2) := by
  unfold State.abortTree
  repeat' first
    | with_reducible assumption
    | (intro s1; refine (fun (hs1 : Upd A s0 s1) => ?_) ?_; clear_value s1; rotate_left; subst s1; rotate_left)
    | (intro x1; clear_value x1)
    | intro x1
    | lift_lets
    | with_reducible apply State.abortTokens_upd
    | with_reducible apply State.bump_upd
    | with_reducible apply State.collEnd_upd
    | with_reducible apply State.modTree_upd
    | with_reducible apply State.notice_upd
    | with_reducible apply State.set_upd
    | with_reducible apply Upd.fold
    | split
    | dsimp only

theorem State.abortBroken_upd {A : Fld → Bool} {s0 s : State} (h : Upd A s0 s) (a_regs : A .regs = true) (a_hls : A .hls = true) (a_fns : A .fns = true) (a_accts : A .accts = true) (a_trees : A .trees = true) (a_orders : A .orders = true) (a_notices : A .notices = true) (a_acctCmds : A .acctCmds = true) (a_tags : A .tags = true) (a_clhIn : A .clhIn = true) (a_qsHere : A .qsHere = true) (a_qsInj : A .qsInj = true) (a_freeCtr : A .freeCtr = true) (a_out : A .out = true) : Upd A s0 (State.abortBroken s) := by
  unfold State.abortBroken
  repeat' first
    | with_reducible assumption
    | intro x1
    | lift_lets
    | with_reducible apply State.abortTree_upd
    | with_reducible apply Upd.fold
    | split

theorem State.abortFresh_upd {A : Fld → Bool} {s0 s : State} (x1 : ℕ) (h : Upd A s0 s) (a_regs : A .regs = true) (a_hls : A .hls = true) (a_fns : A .fns = true) (a_accts : A .accts = true) (a_trees : A .trees = true) (a_orders : A .orders = true) (a_notices : A .notices = true) (a_acctCmds : A .acctCmds = true) (a_tags : A .tags = true) (a_clhIn : A .clhIn = true) (a_qsHere : A .qsHere = true) (a_qsInj : A .qsInj = true) (a_freeCtr : A .freeCtr = true) (a_out : A .out = true) : Upd A s0 (State.abortFresh s x1) := by
  unfold State.abortFresh
  repeat' first
    | with_reducible assumption
    | intro x1
    | lift_lets
    | with_reducible apply State.abortTree_upd
    | with_reducible apply Upd.fold
    | split

theorem State.abortAcct_upd {A : Fld → Bool} {s0 s : State} (x1 : ℕ) (h : Upd A s0 s) (a_regs : A .regs = true) (a_hls : A .hls = true) (a_fns : A .fns = true) (a_accts : A .accts = true) (a_trees : A .trees = true) (a_orders : A .orders = true) (a_notices : A .notices = true) (a_acctCmds : A .acctCmds = true) (a_tags : A .tags = true) (a_clhIn : A .clhIn = true) (a_qsHere : A .qsHere = true) (a_qsInj : A .qsInj = true) (a_freeCtr : A .freeCtr = true) (a_out : A .out = true) : Upd A s0 (State.abortAcct s x1) := by
  unfold State.abortAcct
  repeat' first
    | with_reducible assumption
    | intro x1
    | lift_lets
    | with_reducible apply State.modTree_upd
    | with_reducible apply State.abortTree_upd
    | with_reducible apply Upd.fold
    | split

end Sys2Proof.Machine
end

