-- ==== Sys2Proof/Laws/FrameAlloy.lean ====
section
/-!
SUPPORT. Laws/FrameAlloy.lean: which parts of State each operation of Machine/Alloy.lean may change, and that it keeps the invariant.
-/
namespace Sys2Proof.Machine
set_option linter.unusedTactic false
set_option linter.unreachableTactic false
set_option linter.unusedVariables false

theorem State.modUp_upd {A : Fld → Bool} {s0 s : State} (x1 : ℕ) (x2 : ℕ) (x3 : ℕ) (x4 : (UpSlot → UpSlot)) (h : Upd A s0 s) (a_trees : A .trees = true) : Upd A s0 (State.modUp s x1 x2 x3 x4) := by
  unfold State.modUp
  repeat' first
    | with_reducible assumption
    | lift_lets
    | with_reducible apply State.modTree_upd

theorem State.modDn_upd {A : Fld → Bool} {s0 s : State} (x1 : ℕ) (x2 : ℕ) (x3 : ℕ) (x4 : (DnSlot → DnSlot)) (h : Upd A s0 s) (a_trees : A .trees = true) : Upd A s0 (State.modDn s x1 x2 x3 x4) := by
  unfold State.modDn
  repeat' first
    | with_reducible assumption
    | lift_lets
    | with_reducible apply State.modTree_upd

theorem State.feed_upd {A : Fld → Bool} {s0 s : State} (x1 : ℕ) (x2 : LeafOp) (x3 : ℕ) (h : Upd A s0 s) (a_trees : A .trees = true) : Upd A s0 (State.feed s x1 x2 x3) := by
  unfold State.feed
  repeat' first
    | with_reducible assumption
    | intro x1
    | (intro x1; clear_value x1)
    | (intro x1; have x2 := fun a => x1 a; clear x2; subst x1)
    | (intro x1; have x2 := Prod.snd x1; clear x2; subst x1)
    | lift_lets
    | with_reducible apply State.modTree_upd
    | with_reducible apply State.modUp_upd
    | split
    | dsimp only
    | dsimp +zetaDelta only

theorem State.feedAll_upd {A : Fld → Bool} {s0 s : State} (x1 : ℕ) (h : Upd A s0 s) (a_trees : A .trees = true) : Upd A s0 (State.feedAll s x1) := by
  unfold State.feedAll
  repeat' first
    | with_reducible assumption
    | intro x1
    | lift_lets
    | with_reducible apply State.feed_upd
    | with_reducible apply Upd.fold
    | split

theorem State.upVals_upd {A : Fld → Bool} {s0 s : State} (x1 : UpSlot) (h : Upd A s0 s) (a_regs : A .regs = true) (a_hls : A .hls = true) (a_fns : A .fns = true) (a_out : A .out = true) : Upd A s0 (State.upVals s x1).2 := by
  unfold State.upVals
  repeat' first
    | with_reducible assumption
    | lift_lets
    | with_reducible apply State.bumpN_upd
    | split

theorem State.mcZero_upd {A : Fld → Bool} {s0 s : State} (x1 : ℕ) (h : Upd A s0 s) (a_regs : A .regs = true) (a_hls : A .hls = true) (a_fns : A .fns = true) (a_out : A .out = true) : Upd A s0 (State.mcZero s x1) := by
  unfold State.mcZero
  repeat' first
    | with_reducible assumption
    | intro x1
    | lift_lets
    | with_reducible apply State.bump_upd
    | split
    | dsimp only

theorem State.rootTake_upd {A : Fld → Bool} {s0 s : State} (x1 : ℕ) (x2 : UpSlot) (h : Upd A s0 s) (a_regs : A .regs = true) (a_hls : A .hls = true) (a_fns : A .fns = true) (a_trees : A .trees = true) (a_out : A .out = true) : Upd A s0 (State.rootTake s x1 x2) := by
  unfold State.rootTake
  repeat' first
    | with_reducible assumption
    | (intro s1; refine (fun (hs1 : Upd A s0 s1) => ?_) ?_; clear_value s1; rotate_left; subst s1; rotate_left)
    | (intro x1; clear_value x1)
    | intro x1
    | lift_lets
    | with_reducible apply State.modDn_upd
    | with_reducible apply State.modUp_upd
    | with_reducible apply State.upVals_upd
    | with_reducible apply State.mcZero_upd
    | with_reducible refine Upd.ofSnd (by assumption) ?_
    | with_reducible apply Upd.getD
    | split
    | dsimp only

theorem State.segMark_upd {A : Fld → Bool} {s0 s : State} (x1 : ℕ) (x2 : LeafOp) (x3 : Bool) (h : Upd A s0 s) (a_trees : A .trees = true) : Upd A s0 (State.segMark s x1 x2 x3) := by
  unfold State.segMark
  repeat' first
    | with_reducible assumption
    | intro x1
    | lift_lets
    | with_reducible apply State.modTree_upd
    | split
    | dsimp only

theorem State.segPaid_upd {A : Fld → Bool} {s0 s : State} (x1 : ℕ) (x2 : ℕ) (x3 : ℕ) (x4 : (State → State)) (h : Upd A s0 s) (f4 : ∀ v0, Upd A s0 v0 → Upd A s0 (x4 v0)) (a_regs : A .regs = true) (a_accts : A .accts = true) (a_trees : A .trees = true) : Upd A s0 (State.segPaid s x1 x2 x3 x4) := by
  unfold State.segPaid
  repeat' first
    | with_reducible assumption
    | intro x1
    | lift_lets
    | with_reducible apply State.charge_upd
    | with_reducible apply State.segMark_upd
    | with_reducible apply f4
    | split
    | dsimp only

theorem State.upSend_upd {A : Fld → Bool} {s0 s : State} (x1 : ℕ) (x2 : UpSlot) (h : Upd A s0 s) (a_regs : A .regs = true) (a_ports : A .ports = true) (a_hls : A .hls = true) (a_fns : A .fns = true) (a_accts : A .accts = true) (a_trees : A .trees = true) (a_clhIn : A .clhIn = true) (a_tptIn : A .tptIn = true) (a_mcIn : A .mcIn = true) (a_fifelIn : A .fifelIn = true) (a_samples : A .samples = true) (a_sampleLost : A .sampleLost = true) (a_clh : A .clh = true) (a_rotate : A .rotate = true) (a_freeCtr : A .freeCtr = true) (a_nextId : A .nextId = true) (a_out : A .out = true) : Upd A s0 (State.upSend s x1 x2) := by
  unfold State.upSend
  repeat' first
    | with_reducible assumption
    | (intro s1; refine (fun (hs1 : Upd A s0 s1) => ?_) ?_; clear_value s1; rotate_left; subst s1; rotate_left)
    | (intro x1; clear_value x1)
    | intro x1
    | lift_lets
    | with_reducible apply State.bump_upd
    | with_reducible apply State.holdSeg_upd
    | with_reducible apply State.modUp_upd
    | with_reducible apply State.segPaid_upd
    | with_reducible apply State.upVals_upd
    | with_reducible refine Upd.ofSnd (by assumption) ?_
    | split
    | dsimp only

theorem State.upAll_upd {A : Fld → Bool} {s0 s : State} (x1 : ℕ) (h : Upd A s0 s) (a_regs : A .regs = true) (a_ports : A .ports = true) (a_hls : A .hls = true) (a_fns : A .fns = true) (a_accts : A .accts = true) (a_trees : A .trees = true) (a_clhIn : A .clhIn = true) (a_tptIn : A .tptIn = true) (a_mcIn : A .mcIn = true) (a_fifelIn : A .fifelIn = true) (a_samples : A .samples = true) (a_sampleLost : A .sampleLost = true) (a_clh : A .clh = true) (a_rotate : A .rotate = true) (a_freeCtr : A .freeCtr = true) (a_nextId : A .nextId = true) (a_out : A .out = true) : Upd A s0 (State.upAll s x1) := by
  unfold State.upAll
  repeat' first
    | with_reducible assumption
    | intro x1
    | lift_lets
    | with_reducible apply State.rootTake_upd
    | with_reducible apply State.upSend_upd
    | with_reducible apply Upd.fold
    | split

theorem State.dnCopies_upd {A : Fld → Bool} {s0 s : State} (x1 : ℕ) (x2 : ℕ) (x3 : ℕ) (x4 : ℕ) (x5 : Packet) (h : Upd A s0 s) (a_regs : A .regs = true) (a_ports : A .ports = true) (a_hls : A .hls = true) (a_fns : A .fns = true) (a_trees : A .trees = true) (a_clhIn : A .clhIn = true) (a_tptIn : A .tptIn = true) (a_mcIn : A .mcIn = true) (a_fifelIn : A .fifelIn = true) (a_samples : A .samples = true) (a_sampleLost : A .sampleLost = true) (a_clh : A .clh = true) (a_rotate : A .rotate = true) (a_freeCtr : A .freeCtr = true) (a_nextId : A .nextId = true) (a_out : A .out = true) : Upd A s0 (State.dnCopies s x1 x2 x3 x4 x5) := by
  unfold State.dnCopies
  repeat' first
    | with_reducible assumption
    | (intro x1; clear_value x1)
    | intro x1
    | lift_lets
    | with_reducible apply State.bump_upd
    | with_reducible apply State.holdSeg_upd
    | with_reducible apply State.sendOn_upd
    | with_reducible apply Upd.fold
    | split
    | dsimp only

theorem State.dnPaid_upd {A : Fld → Bool} {s0 s : State} (x1 : ℕ) (x2 : ℕ) (x3 : ℕ) (x4 : (State → State)) (h : Upd A s0 s) (f4 : ∀ v0, Upd A s0 v0 → Upd A s0 (x4 v0)) (a_regs : A .regs = true) (a_accts : A .accts = true) (a_trees : A .trees = true) : Upd A s0 (State.dnPaid s x1 x2 x3 x4) := by
  unfold State.dnPaid
  repeat' first
    | with_reducible assumption
    | intro x1
    | lift_lets
    | with_reducible apply State.segPaid_upd
    | with_reducible apply f4
    | split
    | dsimp only

theorem State.dnSend_upd {A : Fld → Bool} {s0 s : State} (x1 : ℕ) (x2 : DnSlot) (h : Upd A s0 s) (a_regs : A .regs = true) (a_ports : A .ports = true) (a_hls : A .hls = true) (a_fns : A .fns = true) (a_accts : A .accts = true) (a_trees : A .trees = true) (a_clhIn : A .clhIn = true) (a_tptIn : A .tptIn = true) (a_mcIn : A .mcIn = true) (a_fifelIn : A .fifelIn = true) (a_samples : A .samples = true) (a_sampleLost : A .sampleLost = true) (a_clh : A .clh = true) (a_rotate : A .rotate = true) (a_freeCtr : A .freeCtr = true) (a_nextId : A .nextId = true) (a_out : A .out = true) : Upd A s0 (State.dnSend s x1 x2) := by
  unfold State.dnSend
  repeat' first
    | with_reducible assumption
    | (intro s1; refine (fun (hs1 : Upd A s0 s1) => ?_) ?_; clear_value s1; rotate_left; subst s1; rotate_left)
    | intro x1
    | lift_lets
    | with_reducible apply State.dnCopies_upd
    | with_reducible apply State.modDn_upd
    | with_reducible apply State.dnPaid_upd
    | split
    | dsimp only

theorem State.leafTake_upd {A : Fld → Bool} {s0 s : State} (x1 : ℕ) (x2 : DnSlot) (x3 : List ℕ) (x4 : ℕ) (h : Upd A s0 s) (a_regs : A .regs = true) (a_hls : A .hls = true) (a_fns : A .fns = true) (a_accts : A .accts = true) (a_trees : A .trees = true) (a_orders : A .orders = true) (a_notices : A .notices = true) (a_acctCmds : A .acctCmds = true) (a_tags : A .tags = true) (a_clhIn : A .clhIn = true) (a_qsHere : A .qsHere = true) (a_qsInj : A .qsInj = true) (a_freeCtr : A .freeCtr = true) (a_out : A .out = true) : Upd A s0 (State.leafTake s x1 x2 x3 x4) := by
  unfold State.leafTake
  repeat' first
    | with_reducible assumption
    | (intro s1; refine (fun (hs1 : Upd A s0 s1) => ?_) ?_; clear_value s1; rotate_left; subst s1; rotate_left)
    | (intro x1; have x2 := fun a => x1 a; clear x2; subst x1)
    | (intro x1; have x2 := Prod.snd x1; clear x2; subst x1)
    | (intro x1; clear_value x1)
    | lift_lets
    | with_reducible apply State.modTree_upd
    | with_reducible apply State.abortTree_upd
    | with_reducible apply State.modDn_upd
    | with_reducible apply State.gate_upd
    | with_reducible apply State.collEnd_upd
    | with_reducible apply State.modAcct_upd
    | with_reducible apply State.scatter_upd
    | with_reducible refine Upd.ofSnd (by assumption) ?_
    | split

theorem State.dnAll_upd {A : Fld → Bool} {s0 s : State} (x1 : ℕ) (h : Upd A s0 s) (a_regs : A .regs = true) (a_ports : A .ports = true) (a_hls : A .hls = true) (a_fns : A .fns = true) (a_accts : A .accts = true) (a_trees : A .trees = true) (a_orders : A .orders = true) (a_notices : A .notices = true) (a_acctCmds : A .acctCmds = true) (a_tags : A .tags = true) (a_clhIn : A .clhIn = true) (a_tptIn : A .tptIn = true) (a_mcIn : A .mcIn = true) (a_fifelIn : A .fifelIn = true) (a_qsHere : A .qsHere = true) (a_qsInj : A .qsInj = true) (a_samples : A .samples = true) (a_sampleLost : A .sampleLost = true) (a_clh : A .clh = true) (a_rotate : A .rotate = true) (a_freeCtr : A .freeCtr = true) (a_nextId : A .nextId = true) (a_out : A .out = true) : Upd A s0 (State.dnAll s x1) := by
  unfold State.dnAll
  repeat' first
    | with_reducible assumption
    | (intro s1; refine (fun (hs1 : Upd A s0 s1) => ?_) ?_; clear_value s1; rotate_left; subst s1; rotate_left)
    | (intro x1; clear_value x1)
    | intro x1
    | lift_lets
    | with_reducible apply State.dnSend_upd
    | with_reducible apply State.leafTake_upd
    | with_reducible apply State.modDn_upd
    | with_reducible apply State.modUp_upd
    | with_reducible apply Upd.fold
    | split
    | dsimp only

theorem State.upRaise_upd {A : Fld → Bool} {s0 s : State} (x1 : ℕ) (x2 : ℕ) (x3 : ℕ) (h : Upd A s0 s) (a_trees : A .trees = true) : Upd A s0 (State.upRaise s x1 x2 x3) := by
  induction x3 generalizing s with
  | zero =>
    unfold State.upRaise
    repeat' first
      | with_reducible assumption
      | lift_lets
      | with_reducible apply State.modTree_upd
      | split
  | succ x0 ih =>
    unfold State.upRaise
    repeat' first
      | with_reducible apply ih
      | with_reducible assumption
      | lift_lets
      | with_reducible apply State.modTree_upd
      | split

theorem State.dnRaise_upd {A : Fld → Bool} {s0 s : State} (x1 : ℕ) (x2 : ℕ) (x3 : ℕ) (h : Upd A s0 s) (a_trees : A .trees = true) : Upd A s0 (State.dnRaise s x1 x2 x3) := by
  induction x3 generalizing s with
  | zero =>
    unfold State.dnRaise
    repeat' first
      | with_reducible assumption
      | lift_lets
      | with_reducible apply State.modTree_upd
      | split
  | succ x0 ih =>
    unfold State.dnRaise
    repeat' first
      | with_reducible apply ih
      | with_reducible assumption
      | lift_lets
      | with_reducible apply State.modTree_upd
      | split

theorem State.oweUp_upd {A : Fld → Bool} {s0 s : State} (x1 : ℕ) (h : Upd A s0 s) (a_regs : A .regs = true) (a_hls : A .hls = true) (a_fns : A .fns = true) (a_trees : A .trees = true) (a_qsHere : A .qsHere = true) (a_qsInj : A .qsInj = true) (a_out : A .out = true) : Upd A s0 (State.oweUp s x1) := by
  unfold State.oweUp
  repeat' first
    | with_reducible assumption
    | intro x1
    | lift_lets
    | with_reducible apply State.alyReceipt_upd
    | with_reducible apply State.modUp_upd
    | with_reducible apply Upd.fold
    | split
    | dsimp only

theorem State.oweDn_upd {A : Fld → Bool} {s0 s : State} (x1 : ℕ) (h : Upd A s0 s) (a_regs : A .regs = true) (a_hls : A .hls = true) (a_fns : A .fns = true) (a_trees : A .trees = true) (a_qsHere : A .qsHere = true) (a_qsInj : A .qsInj = true) (a_out : A .out = true) : Upd A s0 (State.oweDn s x1) := by
  unfold State.oweDn
  repeat' first
    | with_reducible assumption
    | intro x1
    | lift_lets
    | with_reducible apply State.modDn_upd
    | with_reducible apply State.alyReceipt_upd
    | with_reducible apply Upd.fold
    | split
    | dsimp only

theorem State.opEnded_upd {A : Fld → Bool} {s0 s : State} (x1 : ℕ) (x2 : ℕ) (h : Upd A s0 s) (a_trees : A .trees = true) : Upd A s0 (State.opEnded s x1 x2) := by
  unfold State.opEnded
  repeat' first
    | with_reducible assumption
    | intro x1
    | lift_lets
    | with_reducible apply State.modTree_upd
    | split
    | dsimp only

theorem State.leafEnds_upd {A : Fld → Bool} {s0 s : State} (x1 : ℕ) (h : Upd A s0 s) (a_regs : A .regs = true) (a_hls : A .hls = true) (a_fns : A .fns = true) (a_accts : A .accts = true) (a_trees : A .trees = true) (a_orders : A .orders = true) (a_tags : A .tags = true) (a_clhIn : A .clhIn = true) (a_freeCtr : A .freeCtr = true) (a_out : A .out = true) : Upd A s0 (State.leafEnds s x1) := by
  unfold State.leafEnds
  repeat' first
    | with_reducible assumption
    | (intro x1; clear_value x1)
    | intro x1
    | lift_lets
    | with_reducible apply State.collEnd_upd
    | with_reducible apply State.opEnded_upd
    | with_reducible apply Upd.fold
    | split
    | with_reducible apply Upd.getD
    | dsimp only

theorem State.release0_upd {A : Fld → Bool} {s0 s : State} (x1 : ℕ) (x2 : ℕ) (h : Upd A s0 s) (a_regs : A .regs = true) (a_hls : A .hls = true) (a_fns : A .fns = true) (a_accts : A .accts = true) (a_trees : A .trees = true) (a_orders : A .orders = true) (a_tags : A .tags = true) (a_clhIn : A .clhIn = true) (a_qsHere : A .qsHere = true) (a_qsInj : A .qsInj = true) (a_freeCtr : A .freeCtr = true) (a_out : A .out = true) : Upd A s0 (State.release0 s x1 x2) := by
  unfold State.release0
  repeat' first
    | with_reducible assumption
    | (intro s1; refine (fun (hs1 : Upd A s0 s1) => ?_) ?_; clear_value s1; rotate_left; subst s1; rotate_left)
    | intro x1
    | lift_lets
    | with_reducible apply State.modTree_upd
    | with_reducible apply State.alyToken_upd
    | with_reducible apply State.collEnd_upd
    | with_reducible apply Upd.fold

theorem State.arrive_upd {A : Fld → Bool} {s0 s : State} (x1 : ℕ) (x2 : ℕ) (h : Upd A s0 s) (a_regs : A .regs = true) (a_hls : A .hls = true) (a_fns : A .fns = true) (a_accts : A .accts = true) (a_trees : A .trees = true) (a_orders : A .orders = true) (a_tags : A .tags = true) (a_clhIn : A .clhIn = true) (a_qsHere : A .qsHere = true) (a_qsInj : A .qsInj = true) (a_freeCtr : A .freeCtr = true) (a_out : A .out = true) : Upd A s0 (State.arrive s x1 x2) := by
  unfold State.arrive
  repeat' first
    | with_reducible assumption
    | (intro x1; clear_value x1)
    | lift_lets
    | with_reducible apply State.modTree_upd
    | with_reducible apply State.alyToken_upd
    | with_reducible apply State.release0_upd
    | split

theorem State.nextOp_upd {A : Fld → Bool} {s0 s : State} (x1 : ℕ) (h : Upd A s0 s) (a_regs : A .regs = true) (a_trees : A .trees = true) : Upd A s0 (State.nextOp s x1) := by
  unfold State.nextOp
  repeat' first
    | with_reducible assumption
    | intro x1
    | (intro x1; clear_value x1)
    | lift_lets
    | with_reducible apply State.modTree_upd
    | with_reducible apply State.alyStat_upd
    | split
    | dsimp only

theorem State.sendWaiting_upd {A : Fld → Bool} {s0 s : State} (x1 : ℕ) (h : Upd A s0 s) (a_regs : A .regs = true) (a_ports : A .ports = true) (a_hls : A .hls = true) (a_fns : A .fns = true) (a_trees : A .trees = true) (a_clhIn : A .clhIn = true) (a_tptIn : A .tptIn = true) (a_mcIn : A .mcIn = true) (a_fifelIn : A .fifelIn = true) (a_samples : A .samples = true) (a_sampleLost : A .sampleLost = true) (a_clh : A .clh = true) (a_rotate : A .rotate = true) (a_freeCtr : A .freeCtr = true) (a_nextId : A .nextId = true) (a_out : A .out = true) : Upd A s0 (State.sendWaiting s x1) := by
  unfold State.sendWaiting
  repeat' first
    | with_reducible assumption
    | intro x1
    | lift_lets
    | with_reducible apply State.sendSeg_upd
    | with_reducible apply Upd.fold

theorem State.alyRound_upd {A : Fld → Bool} {s0 s : State} (x1 : ℕ) (h : Upd A s0 s) (a_regs : A .regs = true) (a_ports : A .ports = true) (a_hls : A .hls = true) (a_fns : A .fns = true) (a_accts : A .accts = true) (a_trees : A .trees = true) (a_orders : A .orders = true) (a_notices : A .notices = true) (a_acctCmds : A .acctCmds = true) (a_tags : A .tags = true) (a_clhIn : A .clhIn = true) (a_tptIn : A .tptIn = true) (a_mcIn : A .mcIn = true) (a_fifelIn : A .fifelIn = true) (a_qsHere : A .qsHere = true) (a_qsInj : A .qsInj = true) (a_samples : A .samples = true) (a_sampleLost : A .sampleLost = true) (a_clh : A .clh = true) (a_rotate : A .rotate = true) (a_freeCtr : A .freeCtr = true) (a_nextId : A .nextId = true) (a_out : A .out = true) : Upd A s0 (State.alyRound s x1) := by
  unfold State.alyRound
  repeat' first
    | with_reducible assumption
    | (intro s1; refine (fun (hs1 : Upd A s0 s1) => ?_) ?_; clear_value s1; rotate_left; subst s1; rotate_left)
    | (intro x1; clear_value x1)
    | lift_lets
    | with_reducible apply State.nextOp_upd
    | with_reducible apply State.upAll_upd
    | with_reducible apply State.dnAll_upd
    | with_reducible apply State.oweUp_upd
    | with_reducible apply State.dnRaise_upd
    | with_reducible apply State.arrive_upd
    | with_reducible apply State.oweDn_upd
    | with_reducible apply State.leafEnds_upd
    | with_reducible apply State.feedAll_upd
    | with_reducible apply State.sendWaiting_upd
    | with_reducible apply State.upRaise_upd
    | split

theorem State.alyRounds_upd {A : Fld → Bool} {s0 s : State} (x1 : ℕ) (x2 : ℕ) (h : Upd A s0 s) (a_regs : A .regs = true) (a_ports : A .ports = true) (a_hls : A .hls = true) (a_fns : A .fns = true) (a_accts : A .accts = true) (a_trees : A .trees = true) (a_orders : A .orders = true) (a_notices : A .notices = true) (a_acctCmds : A .acctCmds = true) (a_tags : A .tags = true) (a_clhIn : A .clhIn = true) (a_tptIn : A .tptIn = true) (a_mcIn : A .mcIn = true) (a_fifelIn : A .fifelIn = true) (a_qsHere : A .qsHere = true) (a_qsInj : A .qsInj = true) (a_samples : A .samples = true) (a_sampleLost : A .sampleLost = true) (a_clh : A .clh = true) (a_rotate : A .rotate = true) (a_freeCtr : A .freeCtr = true) (a_nextId : A .nextId = true) (a_out : A .out = true) : Upd A s0 (State.alyRounds s x1 x2) := by
  induction x2 generalizing s with
  | zero =>
    unfold State.alyRounds
    repeat' first
      | with_reducible assumption
      | (intro s1; refine (fun (hs1 : Upd A s0 s1) => ?_) ?_; clear_value s1; rotate_left; subst s1; rotate_left)
      | lift_lets
      | with_reducible apply State.alyRound_upd
      | split
  | succ x0 ih =>
    unfold State.alyRounds
    repeat' first
      | with_reducible apply ih
      | with_reducible assumption
      | (intro s1; refine (fun (hs1 : Upd A s0 s1) => ?_) ?_; clear_value s1; rotate_left; subst s1; rotate_left)
      | lift_lets
      | with_reducible apply State.alyRound_upd
      | split

theorem State.alyGo_upd {A : Fld → Bool} {s0 s : State} (x1 : ℕ) (h : Upd A s0 s) (a_regs : A .regs = true) (a_ports : A .ports = true) (a_hls : A .hls = true) (a_fns : A .fns = true) (a_accts : A .accts = true) (a_trees : A .trees = true) (a_orders : A .orders = true) (a_notices : A .notices = true) (a_acctCmds : A .acctCmds = true) (a_tags : A .tags = true) (a_clhIn : A .clhIn = true) (a_tptIn : A .tptIn = true) (a_mcIn : A .mcIn = true) (a_fifelIn : A .fifelIn = true) (a_qsHere : A .qsHere = true) (a_qsInj : A .qsInj = true) (a_samples : A .samples = true) (a_sampleLost : A .sampleLost = true) (a_clh : A .clh = true) (a_rotate : A .rotate = true) (a_freeCtr : A .freeCtr = true) (a_nextId : A .nextId = true) (a_out : A .out = true) : Upd A s0 (State.alyGo s x1) := by
  unfold State.alyGo
  repeat' first
    | with_reducible assumption
    | lift_lets
    | with_reducible apply State.alyRounds_upd
    | with_reducible apply State.treesStalled_upd

theorem State.alyKick_upd {A : Fld → Bool} {s0 s : State} (x1 : ℕ) (h : Upd A s0 s) (a_regs : A .regs = true) (a_ports : A .ports = true) (a_hls : A .hls = true) (a_fns : A .fns = true) (a_accts : A .accts = true) (a_trees : A .trees = true) (a_orders : A .orders = true) (a_notices : A .notices = true) (a_acctCmds : A .acctCmds = true) (a_tags : A .tags = true) (a_clhIn : A .clhIn = true) (a_tptIn : A .tptIn = true) (a_mcIn : A .mcIn = true) (a_fifelIn : A .fifelIn = true) (a_qsHere : A .qsHere = true) (a_qsInj : A .qsInj = true) (a_samples : A .samples = true) (a_sampleLost : A .sampleLost = true) (a_clh : A .clh = true) (a_rotate : A .rotate = true) (a_freeCtr : A .freeCtr = true) (a_nextId : A .nextId = true) (a_out : A .out = true) : Upd A s0 (State.alyKick s x1) := by
  unfold State.alyKick
  repeat' first
    | with_reducible assumption
    | intro x1
    | lift_lets
    | with_reducible apply State.alyGo_upd
    | with_reducible apply Upd.fold
    | split
    | dsimp only

theorem State.leafBegin_upd {A : Fld → Bool} {s0 s : State} (x1 : ℕ) (x2 : LeafOp) (x3 : HostView) (h : Upd A s0 s) (a_regs : A .regs = true) (a_ports : A .ports = true) (a_hls : A .hls = true) (a_fns : A .fns = true) (a_accts : A .accts = true) (a_trees : A .trees = true) (a_orders : A .orders = true) (a_notices : A .notices = true) (a_acctCmds : A .acctCmds = true) (a_tags : A .tags = true) (a_clhIn : A .clhIn = true) (a_tptIn : A .tptIn = true) (a_mcIn : A .mcIn = true) (a_fifelIn : A .fifelIn = true) (a_qsHere : A .qsHere = true) (a_qsInj : A .qsInj = true) (a_samples : A .samples = true) (a_sampleLost : A .sampleLost = true) (a_clh : A .clh = true) (a_rotate : A .rotate = true) (a_freeCtr : A .freeCtr = true) (a_nextId : A .nextId = true) (a_out : A .out = true) : Upd A s0 (State.leafBegin s x1 x2 x3) := by
  unfold State.leafBegin
  repeat' first
    | with_reducible assumption
    | intro x1
    | (intro x1; have x2 := fun a => x1 a; clear x2; subst x1)
    | (intro x1; have x2 := Prod.snd x1; clear x2; subst x1)
    | (intro x1; clear_value x1)
    | lift_lets
    | with_reducible apply State.modTree_upd
    | with_reducible apply State.abortTree_upd
    | with_reducible apply State.gate_upd
    | with_reducible apply State.alyGo_upd
    | with_reducible apply State.collEnd_upd
    | with_reducible apply State.modAcct_upd
    | with_reducible refine Upd.ofSnd (by assumption) ?_
    | split
    | dsimp only
    | dsimp +zetaDelta only

theorem State.collReject_upd {A : Fld → Bool} {s0 s : State} (x1 : ℕ) (x2 : LeafOp) (x3 : EvtInfo) (x4 : ℕ) (h : Upd A s0 s) (a_regs : A .regs = true) (a_hls : A .hls = true) (a_fns : A .fns = true) (a_accts : A .accts = true) (a_orders : A .orders = true) (a_tags : A .tags = true) (a_clhIn : A .clhIn = true) (a_freeCtr : A .freeCtr = true) (a_out : A .out = true) : Upd A s0 (State.collReject s x1 x2 x3 x4) := by
  unfold State.collReject
  repeat' first
    | with_reducible assumption
    | lift_lets
    | with_reducible apply State.complete_upd

theorem State.collStop_upd {A : Fld → Bool} {s0 s : State} (x1 : ℕ) (x2 : LeafOp) (x3 : EvtInfo) (x4 : ℕ) (h : Upd A s0 s) (a_regs : A .regs = true) (a_ports : A .ports = true) (a_hls : A .hls = true) (a_fns : A .fns = true) (a_accts : A .accts = true) (a_trees : A .trees = true) (a_orders : A .orders = true) (a_notices : A .notices = true) (a_acctCmds : A .acctCmds = true) (a_tags : A .tags = true) (a_clhIn : A .clhIn = true) (a_tptIn : A .tptIn = true) (a_mcIn : A .mcIn = true) (a_fifelIn : A .fifelIn = true) (a_qsHere : A .qsHere = true) (a_qsInj : A .qsInj = true) (a_samples : A .samples = true) (a_sampleLost : A .sampleLost = true) (a_clh : A .clh = true) (a_rotate : A .rotate = true) (a_freeCtr : A .freeCtr = true) (a_nextId : A .nextId = true) (a_out : A .out = true) : Upd A s0 (State.collStop s x1 x2 x3 x4) := by
  unfold State.collStop
  repeat' first
    | with_reducible assumption
    | lift_lets
    | with_reducible apply State.alyGo_upd
    | with_reducible apply State.collReject_upd

theorem State.collJoin_upd {A : Fld → Bool} {s0 s : State} (x1 : ℕ) (x2 : Desc) (x3 : LeafOp) (x4 : Pattern) (x5 : Pattern) (x6 : HostView) (h : Upd A s0 s) (a_regs : A .regs = true) (a_ports : A .ports = true) (a_hls : A .hls = true) (a_fns : A .fns = true) (a_accts : A .accts = true) (a_trees : A .trees = true) (a_orders : A .orders = true) (a_notices : A .notices = true) (a_acctCmds : A .acctCmds = true) (a_tags : A .tags = true) (a_clhIn : A .clhIn = true) (a_tptIn : A .tptIn = true) (a_mcIn : A .mcIn = true) (a_fifelIn : A .fifelIn = true) (a_qsHere : A .qsHere = true) (a_qsInj : A .qsInj = true) (a_samples : A .samples = true) (a_sampleLost : A .sampleLost = true) (a_clh : A .clh = true) (a_rotate : A .rotate = true) (a_freeCtr : A .freeCtr = true) (a_nextId : A .nextId = true) (a_out : A .out = true) : Upd A s0 (State.collJoin s x1 x2 x3 x4 x5 x6) := by
  unfold State.collJoin
  repeat' first
    | with_reducible assumption
    | (intro s1; refine (fun (hs1 : Upd A s0 s1) => ?_) ?_; clear_value s1; rotate_left; subst s1; rotate_left)
    | (intro x1; clear_value x1)
    | lift_lets
    | with_reducible apply State.bump_upd
    | with_reducible apply State.modTree_upd
    | with_reducible apply State.leafBegin_upd
    | split

theorem State.collChecks_upd {A : Fld → Bool} {s0 s : State} (x1 : ℕ) (x2 : ℕ) (x3 : Desc) (x4 : LeafOp) (x5 : EvtInfo) (x6 : Bool) (x7 : HostView) (h : Upd A s0 s) (a_regs : A .regs = true) (a_ports : A .ports = true) (a_hls : A .hls = true) (a_fns : A .fns = true) (a_accts : A .accts = true) (a_trees : A .trees = true) (a_orders : A .orders = true) (a_notices : A .notices = true) (a_acctCmds : A .acctCmds = true) (a_tags : A .tags = true) (a_clhIn : A .clhIn = true) (a_tptIn : A .tptIn = true) (a_mcIn : A .mcIn = true) (a_fifelIn : A .fifelIn = true) (a_qsHere : A .qsHere = true) (a_qsInj : A .qsInj = true) (a_samples : A .samples = true) (a_sampleLost : A .sampleLost = true) (a_clh : A .clh = true) (a_rotate : A .rotate = true) (a_freeCtr : A .freeCtr = true) (a_nextId : A .nextId = true) (a_out : A .out = true) : Upd A s0 (State.collChecks s x1 x2 x3 x4 x5 x6 x7) := by
  unfold State.collChecks
  repeat' first
    | with_reducible assumption
    | (intro x1; clear_value x1)
    | lift_lets
    | with_reducible apply State.collStop_upd
    | with_reducible apply State.collJoin_upd
    | split

theorem execColl_upd_eq {A : Fld → Bool} {s0 s : State} {x1 : AcctNo} {x2 : Source} {x3 : HostView} {t : State} (h : Upd A s0 s) (e : execColl x1 x2 x3 s = .next t) (a_regs : A .regs = true) (a_ports : A .ports = true) (a_hls : A .hls = true) (a_fns : A .fns = true) (a_accts : A .accts = true) (a_trees : A .trees = true) (a_orders : A .orders = true) (a_notices : A .notices = true) (a_acctCmds : A .acctCmds = true) (a_tags : A .tags = true) (a_clhIn : A .clhIn = true) (a_tptIn : A .tptIn = true) (a_mcIn : A .mcIn = true) (a_fifelIn : A .fifelIn = true) (a_qsHere : A .qsHere = true) (a_qsInj : A .qsInj = true) (a_samples : A .samples = true) (a_sampleLost : A .sampleLost = true) (a_clh : A .clh = true) (a_pwr : A .pwr = true) (a_boot : A .boot = true) (a_rotate : A .rotate = true) (a_freeCtr : A .freeCtr = true) (a_nextId : A .nextId = true) (a_out : A .out = true) : Upd A s0 t := by
  unfold execColl at e
  cases e
  dsimp only
  repeat' first
    | with_reducible assumption
    | (intro x1; clear_value x1)
    | intro x1
    | lift_lets
    | with_reducible apply State.modTree_upd
    | with_reducible apply State.withDescHost_upd
    | with_reducible apply State.collChecks_upd
    | with_reducible apply State.collReject_upd
    | split
    | dsimp only

theorem execCollScheduledStart_upd_eq {A : Fld → Bool} {s0 s : State} {x1 : TreeNo} {x2 : HostLink} {x3 : HostView} {t : State} (h : Upd A s0 s) (e : execCollScheduledStart x1 x2 x3 s = .next t) (a_regs : A .regs = true) (a_ports : A .ports = true) (a_hls : A .hls = true) (a_fns : A .fns = true) (a_accts : A .accts = true) (a_trees : A .trees = true) (a_orders : A .orders = true) (a_notices : A .notices = true) (a_acctCmds : A .acctCmds = true) (a_tags : A .tags = true) (a_clhIn : A .clhIn = true) (a_tptIn : A .tptIn = true) (a_mcIn : A .mcIn = true) (a_fifelIn : A .fifelIn = true) (a_qsHere : A .qsHere = true) (a_qsInj : A .qsInj = true) (a_samples : A .samples = true) (a_sampleLost : A .sampleLost = true) (a_clh : A .clh = true) (a_pwr : A .pwr = true) (a_boot : A .boot = true) (a_rotate : A .rotate = true) (a_freeCtr : A .freeCtr = true) (a_nextId : A .nextId = true) (a_out : A .out = true) : Upd A s0 t := by
  unfold execCollScheduledStart at e
  cases e
  repeat' first
    | with_reducible assumption
    | lift_lets
    | with_reducible apply State.leafBegin_upd
    | with_reducible apply State.activityUpd_upd
    | split

theorem State.treeCtl_upd {A : Fld → Bool} {s0 s : State} (x1 : Word) (x2 : ℕ) (h : Upd A s0 s) (a_regs : A .regs = true) : Upd A s0 (State.treeCtl s x1 x2).2 := by
  unfold State.treeCtl
  repeat' first
    | with_reducible assumption
    | (intro s1; refine (fun (hs1 : Upd A s0 s1) => ?_) ?_; clear_value s1; rotate_left; subst s1; rotate_left)
    | lift_lets
    | with_reducible apply State.set_upd

theorem State.treeVote_upd {A : Fld → Bool} {s0 s : State} (h : Upd A s0 s) (a_regs : A .regs = true) (a_ports : A .ports = true) (a_hls : A .hls = true) (a_fns : A .fns = true) (a_clhIn : A .clhIn = true) (a_tptIn : A .tptIn = true) (a_mcIn : A .mcIn = true) (a_fifelIn : A .fifelIn = true) (a_samples : A .samples = true) (a_sampleLost : A .sampleLost = true) (a_clh : A .clh = true) (a_pwr : A .pwr = true) (a_boot : A .boot = true) (a_rotate : A .rotate = true) (a_freeCtr : A .freeCtr = true) (a_nextId : A .nextId = true) (a_out : A .out = true) : Upd A s0 (State.treeVote s) := by
  unfold State.treeVote
  repeat' first
    | with_reducible assumption
    | lift_lets
    | with_reducible apply State.vote_upd

theorem State.treeFree_upd {A : Fld → Bool} {s0 s : State} (x1 : ℕ) (h : Upd A s0 s) (a_regs : A .regs = true) (a_ports : A .ports = true) (a_hls : A .hls = true) (a_fns : A .fns = true) (a_trees : A .trees = true) (a_clhIn : A .clhIn = true) (a_tptIn : A .tptIn = true) (a_mcIn : A .mcIn = true) (a_fifelIn : A .fifelIn = true) (a_samples : A .samples = true) (a_sampleLost : A .sampleLost = true) (a_clh : A .clh = true) (a_pwr : A .pwr = true) (a_boot : A .boot = true) (a_rotate : A .rotate = true) (a_freeCtr : A .freeCtr = true) (a_nextId : A .nextId = true) (a_out : A .out = true) : Upd A s0 (State.treeFree s x1) := by
  unfold State.treeFree
  repeat' first
    | with_reducible assumption
    | (intro s1; refine (fun (hs1 : Upd A s0 s1) => ?_) ?_; clear_value s1; rotate_left; subst s1; rotate_left)
    | intro x1
    | lift_lets
    | with_reducible apply State.activityUpd_upd
    | with_reducible apply State.modTree_upd
    | with_reducible apply State.set_upd
    | with_reducible apply State.treeVote_upd
    | split
    | dsimp only
    | refine Upd.to_trees _ ?_ (by assumption) (fun _ i => tasc_tdel _ i.trees)

theorem State.treeActivate_upd {A : Fld → Bool} {s0 s : State} (x1 : Word) (h : Upd A s0 s) (a_regs : A .regs = true) (a_ports : A .ports = true) (a_hls : A .hls = true) (a_fns : A .fns = true) (a_trees : A .trees = true) (a_clhIn : A .clhIn = true) (a_tptIn : A .tptIn = true) (a_mcIn : A .mcIn = true) (a_fifelIn : A .fifelIn = true) (a_samples : A .samples = true) (a_sampleLost : A .sampleLost = true) (a_clh : A .clh = true) (a_pwr : A .pwr = true) (a_boot : A .boot = true) (a_rotate : A .rotate = true) (a_freeCtr : A .freeCtr = true) (a_nextId : A .nextId = true) (a_out : A .out = true) : Upd A s0 (State.treeActivate s x1) := by
  unfold State.treeActivate
  repeat' first
    | with_reducible assumption
    | (intro s1; refine (fun (hs1 : Upd A s0 s1) => ?_) ?_; clear_value s1; rotate_left; subst s1; rotate_left)
    | (intro x1; clear_value x1)
    | intro x1
    | lift_lets
    | with_reducible apply State.modTree_upd
    | with_reducible apply State.set_upd
    | with_reducible apply State.treeCtl_upd
    | with_reducible apply State.treeVote_upd
    | with_reducible apply State.treesStalled_upd
    | with_reducible refine Upd.ofSnd (by assumption) ?_
    | split
    | dsimp only

theorem State.treeDeactivate_upd {A : Fld → Bool} {s0 s : State} (x1 : Word) (h : Upd A s0 s) (a_regs : A .regs = true) (a_ports : A .ports = true) (a_hls : A .hls = true) (a_fns : A .fns = true) (a_accts : A .accts = true) (a_trees : A .trees = true) (a_orders : A .orders = true) (a_notices : A .notices = true) (a_acctCmds : A .acctCmds = true) (a_tags : A .tags = true) (a_clhIn : A .clhIn = true) (a_tptIn : A .tptIn = true) (a_mcIn : A .mcIn = true) (a_fifelIn : A .fifelIn = true) (a_qsHere : A .qsHere = true) (a_qsInj : A .qsInj = true) (a_samples : A .samples = true) (a_sampleLost : A .sampleLost = true) (a_clh : A .clh = true) (a_pwr : A .pwr = true) (a_boot : A .boot = true) (a_rotate : A .rotate = true) (a_freeCtr : A .freeCtr = true) (a_nextId : A .nextId = true) (a_out : A .out = true) : Upd A s0 (State.treeDeactivate s x1) := by
  unfold State.treeDeactivate
  repeat' first
    | with_reducible assumption
    | (intro s1; refine (fun (hs1 : Upd A s0 s1) => ?_) ?_; clear_value s1; rotate_left; subst s1; rotate_left)
    | intro x1
    | lift_lets
    | with_reducible apply State.abortTree_upd
    | with_reducible apply State.set_upd
    | with_reducible apply State.treeCtl_upd
    | with_reducible apply State.treeFree_upd
    | with_reducible refine Upd.ofSnd (by assumption) ?_
    | split
    | dsimp only

theorem State.opSort_upd {A : Fld → Bool} {s0 s : State} (x1 : ℕ) (x2 : ℕ) (h : Upd A s0 s) (a_regs : A .regs = true) (a_trees : A .trees = true) : Upd A s0 (State.opSort s x1 x2).2 := by
  unfold State.opSort
  dsimp only
  repeat' first
    | with_reducible assumption
    | intro x1
    | (intro x1; have x2 := fun a => x1 a; clear x2; subst x1)
    | (intro s1; refine (fun (hs1 : Upd A s0 s1) => ?_) ?_; clear_value s1; rotate_left; subst s1; rotate_left)
    | (intro x1; clear_value x1)
    | lift_lets
    | with_reducible apply State.nextOp_upd
    | split
    | dsimp only
    | dsimp +zetaDelta only

theorem State.alyDup_upd {A : Fld → Bool} {s0 s : State} (x1 : ℕ) (x2 : Packet) (x3 : Bool) (h : Upd A s0 s) (a_regs : A .regs = true) (a_hls : A .hls = true) (a_fns : A .fns = true) (a_qsHere : A .qsHere = true) (a_qsInj : A .qsInj = true) (a_out : A .out = true) : Upd A s0 (State.alyDup s x1 x2 x3) := by
  unfold State.alyDup
  repeat' first
    | with_reducible assumption
    | lift_lets
    | with_reducible apply State.bump_upd
    | with_reducible apply State.alyReceipt_upd
    | split

theorem State.collUpPut_upd {A : Fld → Bool} {s0 s : State} (x1 : ℕ) (x2 : ℕ) (x3 : ℕ) (x4 : ℕ) (x5 : ℕ) (x6 : Bool) (x7 : Bool) (x8 : Packet) (h : Upd A s0 s) (a_regs : A .regs = true) (a_ports : A .ports = true) (a_hls : A .hls = true) (a_fns : A .fns = true) (a_accts : A .accts = true) (a_trees : A .trees = true) (a_orders : A .orders = true) (a_notices : A .notices = true) (a_acctCmds : A .acctCmds = true) (a_tags : A .tags = true) (a_clhIn : A .clhIn = true) (a_tptIn : A .tptIn = true) (a_mcIn : A .mcIn = true) (a_fifelIn : A .fifelIn = true) (a_qsHere : A .qsHere = true) (a_qsInj : A .qsInj = true) (a_samples : A .samples = true) (a_sampleLost : A .sampleLost = true) (a_clh : A .clh = true) (a_rotate : A .rotate = true) (a_freeCtr : A .freeCtr = true) (a_nextId : A .nextId = true) (a_out : A .out = true) : Upd A s0 (State.collUpPut s x1 x2 x3 x4 x5 x6 x7 x8) := by
  unfold State.collUpPut
  repeat' first
    | with_reducible assumption
    | lift_lets
    | with_reducible apply State.alyReceipt_upd
    | with_reducible apply State.alyGo_upd
    | with_reducible apply State.modUp_upd
    | split

theorem State.collUpAt_upd {A : Fld → Bool} {s0 s : State} (x1 : ℕ) (x2 : ℕ) (x3 : ℕ) (x4 : ℕ) (x5 : ℕ) (x6 : Bool) (x7 : Packet) (h : Upd A s0 s) (a_regs : A .regs = true) (a_ports : A .ports = true) (a_hls : A .hls = true) (a_fns : A .fns = true) (a_accts : A .accts = true) (a_trees : A .trees = true) (a_orders : A .orders = true) (a_notices : A .notices = true) (a_acctCmds : A .acctCmds = true) (a_tags : A .tags = true) (a_clhIn : A .clhIn = true) (a_tptIn : A .tptIn = true) (a_mcIn : A .mcIn = true) (a_fifelIn : A .fifelIn = true) (a_qsHere : A .qsHere = true) (a_qsInj : A .qsInj = true) (a_samples : A .samples = true) (a_sampleLost : A .sampleLost = true) (a_clh : A .clh = true) (a_rotate : A .rotate = true) (a_freeCtr : A .freeCtr = true) (a_nextId : A .nextId = true) (a_out : A .out = true) : Upd A s0 (State.collUpAt s x1 x2 x3 x4 x5 x6 x7) := by
  unfold State.collUpAt
  repeat' first
    | with_reducible assumption
    | intro x1
    | (intro x1; clear_value x1)
    | lift_lets
    | with_reducible apply State.bump_upd
    | with_reducible apply State.collUpPut_upd
    | with_reducible apply State.alyDup_upd
    | split
    | with_reducible apply Upd.getD
    | dsimp only

theorem State.collUpSort_upd {A : Fld → Bool} {s0 s : State} (x1 : ℕ) (x2 : ℕ) (x3 : ℕ) (x4 : Packet) (h : Upd A s0 s) (a_regs : A .regs = true) (a_ports : A .ports = true) (a_hls : A .hls = true) (a_fns : A .fns = true) (a_accts : A .accts = true) (a_trees : A .trees = true) (a_orders : A .orders = true) (a_notices : A .notices = true) (a_acctCmds : A .acctCmds = true) (a_tags : A .tags = true) (a_clhIn : A .clhIn = true) (a_tptIn : A .tptIn = true) (a_mcIn : A .mcIn = true) (a_fifelIn : A .fifelIn = true) (a_qsHere : A .qsHere = true) (a_qsInj : A .qsInj = true) (a_samples : A .samples = true) (a_sampleLost : A .sampleLost = true) (a_clh : A .clh = true) (a_rotate : A .rotate = true) (a_freeCtr : A .freeCtr = true) (a_nextId : A .nextId = true) (a_out : A .out = true) : Upd A s0 (State.collUpSort s x1 x2 x3 x4) := by
  unfold State.collUpSort
  repeat' first
    | with_reducible assumption
    | lift_lets
    | with_reducible apply State.bump_upd
    | with_reducible apply State.alyDup_upd
    | with_reducible apply State.opSort_upd
    | with_reducible apply State.collUpAt_upd
    | with_reducible refine Upd.ofSnd (by assumption) ?_
    | split

theorem execCollUpReceive_upd_eq {A : Fld → Bool} {s0 s : State} {t : State} (h : Upd A s0 s) (e : execCollUpReceive s = .next t) (a_regs : A .regs = true) (a_ports : A .ports = true) (a_hls : A .hls = true) (a_fns : A .fns = true) (a_accts : A .accts = true) (a_trees : A .trees = true) (a_orders : A .orders = true) (a_notices : A .notices = true) (a_acctCmds : A .acctCmds = true) (a_tags : A .tags = true) (a_clhIn : A .clhIn = true) (a_tptIn : A .tptIn = true) (a_mcIn : A .mcIn = true) (a_fifelIn : A .fifelIn = true) (a_qsHere : A .qsHere = true) (a_qsInj : A .qsInj = true) (a_samples : A .samples = true) (a_sampleLost : A .sampleLost = true) (a_clh : A .clh = true) (a_pwr : A .pwr = true) (a_boot : A .boot = true) (a_rotate : A .rotate = true) (a_freeCtr : A .freeCtr = true) (a_nextId : A .nextId = true) (a_out : A .out = true) : Upd A s0 t := by
  unfold execCollUpReceive at e
  cases e
  dsimp only
  repeat' first
    | with_reducible assumption
    | intro x1
    | lift_lets
    | with_reducible apply State.alyToken_upd
    | with_reducible apply State.withPkt_upd
    | with_reducible apply State.collUpSort_upd
    | split

theorem State.collDnPut_upd {A : Fld → Bool} {s0 s : State} (x1 : ℕ) (x2 : ℕ) (x3 : ℕ) (x4 : ℕ) (x5 : Bool) (x6 : Bool) (x7 : Packet) (h : Upd A s0 s) (a_regs : A .regs = true) (a_ports : A .ports = true) (a_hls : A .hls = true) (a_fns : A .fns = true) (a_accts : A .accts = true) (a_trees : A .trees = true) (a_orders : A .orders = true) (a_notices : A .notices = true) (a_acctCmds : A .acctCmds = true) (a_tags : A .tags = true) (a_clhIn : A .clhIn = true) (a_tptIn : A .tptIn = true) (a_mcIn : A .mcIn = true) (a_fifelIn : A .fifelIn = true) (a_qsHere : A .qsHere = true) (a_qsInj : A .qsInj = true) (a_samples : A .samples = true) (a_sampleLost : A .sampleLost = true) (a_clh : A .clh = true) (a_rotate : A .rotate = true) (a_freeCtr : A .freeCtr = true) (a_nextId : A .nextId = true) (a_out : A .out = true) : Upd A s0 (State.collDnPut s x1 x2 x3 x4 x5 x6 x7) := by
  unfold State.collDnPut
  repeat' first
    | with_reducible assumption
    | (intro s1; refine (fun (hs1 : Upd A s0 s1) => ?_) ?_; clear_value s1; rotate_left; subst s1; rotate_left)
    | (intro x1; clear_value x1)
    | intro x1
    | lift_lets
    | with_reducible apply State.alyGo_upd
    | with_reducible apply State.alyReceipt_upd
    | with_reducible apply State.modDn_upd
    | split
    | dsimp only

theorem State.collDnAt_upd {A : Fld → Bool} {s0 s : State} (x1 : ℕ) (x2 : ℕ) (x3 : ℕ) (x4 : ℕ) (x5 : Bool) (x6 : Packet) (h : Upd A s0 s) (a_regs : A .regs = true) (a_ports : A .ports = true) (a_hls : A .hls = true) (a_fns : A .fns = true) (a_accts : A .accts = true) (a_trees : A .trees = true) (a_orders : A .orders = true) (a_notices : A .notices = true) (a_acctCmds : A .acctCmds = true) (a_tags : A .tags = true) (a_clhIn : A .clhIn = true) (a_tptIn : A .tptIn = true) (a_mcIn : A .mcIn = true) (a_fifelIn : A .fifelIn = true) (a_qsHere : A .qsHere = true) (a_qsInj : A .qsInj = true) (a_samples : A .samples = true) (a_sampleLost : A .sampleLost = true) (a_clh : A .clh = true) (a_rotate : A .rotate = true) (a_freeCtr : A .freeCtr = true) (a_nextId : A .nextId = true) (a_out : A .out = true) : Upd A s0 (State.collDnAt s x1 x2 x3 x4 x5 x6) := by
  unfold State.collDnAt
  repeat' first
    | with_reducible assumption
    | intro x1
    | (intro x1; clear_value x1)
    | lift_lets
    | with_reducible apply State.bump_upd
    | with_reducible apply State.alyDup_upd
    | with_reducible apply State.collDnPut_upd
    | split
    | with_reducible apply Upd.getD
    | dsimp only

theorem execCollDnReceive_upd_eq {A : Fld → Bool} {s0 s : State} {t : State} (h : Upd A s0 s) (e : execCollDnReceive s = .next t) (a_regs : A .regs = true) (a_ports : A .ports = true) (a_hls : A .hls = true) (a_fns : A .fns = true) (a_accts : A .accts = true) (a_trees : A .trees = true) (a_orders : A .orders = true) (a_notices : A .notices = true) (a_acctCmds : A .acctCmds = true) (a_tags : A .tags = true) (a_clhIn : A .clhIn = true) (a_tptIn : A .tptIn = true) (a_mcIn : A .mcIn = true) (a_fifelIn : A .fifelIn = true) (a_qsHere : A .qsHere = true) (a_qsInj : A .qsInj = true) (a_samples : A .samples = true) (a_sampleLost : A .sampleLost = true) (a_clh : A .clh = true) (a_pwr : A .pwr = true) (a_boot : A .boot = true) (a_rotate : A .rotate = true) (a_freeCtr : A .freeCtr = true) (a_nextId : A .nextId = true) (a_out : A .out = true) : Upd A s0 t := by
  unfold execCollDnReceive at e
  cases e
  dsimp only
  repeat' first
    | with_reducible assumption
    | intro x1
    | lift_lets
    | with_reducible apply State.collDnAt_upd
    | with_reducible apply State.bump_upd
    | with_reducible apply State.alyToken_upd
    | with_reducible apply State.alyDup_upd
    | with_reducible apply State.withPkt_upd
    | with_reducible apply State.opSort_upd
    | with_reducible refine Upd.ofSnd (by assumption) ?_
    | split

theorem execAlyReceipt_upd_eq {A : Fld → Bool} {s0 s : State} {t : State} (h : Upd A s0 s) (e : execAlyReceipt s = .next t) (a_regs : A .regs = true) (a_ports : A .ports = true) (a_hls : A .hls = true) (a_fns : A .fns = true) (a_accts : A .accts = true) (a_trees : A .trees = true) (a_orders : A .orders = true) (a_notices : A .notices = true) (a_acctCmds : A .acctCmds = true) (a_tags : A .tags = true) (a_clhIn : A .clhIn = true) (a_tptIn : A .tptIn = true) (a_mcIn : A .mcIn = true) (a_fifelIn : A .fifelIn = true) (a_qsHere : A .qsHere = true) (a_qsInj : A .qsInj = true) (a_samples : A .samples = true) (a_sampleLost : A .sampleLost = true) (a_clh : A .clh = true) (a_pwr : A .pwr = true) (a_boot : A .boot = true) (a_rotate : A .rotate = true) (a_freeCtr : A .freeCtr = true) (a_nextId : A .nextId = true) (a_out : A .out = true) : Upd A s0 t := by
  unfold execAlyReceipt at e
  cases e
  repeat' first
    | with_reducible assumption
    | lift_lets
    | with_reducible apply State.modTree_upd
    | with_reducible apply State.activityUpd_upd
    | with_reducible apply State.alyGo_upd
    | with_reducible refine State.takeQs_upd_eq ?_ (by assumption) (by assumption)
    | split
    | dsimp only

theorem execSegmentRetxTimer_upd_eq {A : Fld → Bool} {s0 s : State} {x1 : TreeNo} {x2 : ℕ} {x3 : Bool} {x4 : ℕ} {x5 : ℕ} {t : State} (h : Upd A s0 s) (e : execSegmentRetxTimer x1 x2 x3 x4 x5 s = .next t) (a_regs : A .regs = true) (a_ports : A .ports = true) (a_hls : A .hls = true) (a_fns : A .fns = true) (a_accts : A .accts = true) (a_trees : A .trees = true) (a_orders : A .orders = true) (a_notices : A .notices = true) (a_acctCmds : A .acctCmds = true) (a_tags : A .tags = true) (a_clhIn : A .clhIn = true) (a_tptIn : A .tptIn = true) (a_mcIn : A .mcIn = true) (a_fifelIn : A .fifelIn = true) (a_qsHere : A .qsHere = true) (a_qsInj : A .qsInj = true) (a_samples : A .samples = true) (a_sampleLost : A .sampleLost = true) (a_clh : A .clh = true) (a_pwr : A .pwr = true) (a_boot : A .boot = true) (a_rotate : A .rotate = true) (a_freeCtr : A .freeCtr = true) (a_nextId : A .nextId = true) (a_out : A .out = true) : Upd A s0 t := by
  unfold execSegmentRetxTimer at e
  cases e
  repeat' first
    | with_reducible assumption
    | lift_lets
    | with_reducible apply State.bump_upd
    | with_reducible apply State.modTree_upd
    | with_reducible apply State.abortTree_upd
    | with_reducible apply State.sendSeg_upd
    | with_reducible apply State.activityUpd_upd
    | split

theorem execAlyToken_upd_eq {A : Fld → Bool} {s0 s : State} {t : State} (h : Upd A s0 s) (e : execAlyToken s = .next t) (a_regs : A .regs = true) (a_ports : A .ports = true) (a_hls : A .hls = true) (a_fns : A .fns = true) (a_accts : A .accts = true) (a_trees : A .trees = true) (a_orders : A .orders = true) (a_notices : A .notices = true) (a_acctCmds : A .acctCmds = true) (a_tags : A .tags = true) (a_clhIn : A .clhIn = true) (a_tptIn : A .tptIn = true) (a_mcIn : A .mcIn = true) (a_fifelIn : A .fifelIn = true) (a_qsHere : A .qsHere = true) (a_qsInj : A .qsInj = true) (a_samples : A .samples = true) (a_sampleLost : A .sampleLost = true) (a_clh : A .clh = true) (a_pwr : A .pwr = true) (a_boot : A .boot = true) (a_rotate : A .rotate = true) (a_freeCtr : A .freeCtr = true) (a_nextId : A .nextId = true) (a_out : A .out = true) : Upd A s0 t := by
  unfold execAlyToken at e
  cases e
  repeat' first
    | with_reducible assumption
    | intro x1
    | (intro x1; clear_value x1)
    | lift_lets
    | with_reducible apply State.modTree_upd
    | with_reducible apply State.abortTree_upd
    | with_reducible apply State.alyToken_upd
    | with_reducible apply State.opSort_upd
    | with_reducible apply State.activityUpd_upd
    | with_reducible apply State.alyGo_upd
    | with_reducible apply State.release0_upd
    | with_reducible refine State.takeQs_upd_eq ?_ (by assumption) (by assumption)
    | with_reducible refine Upd.ofSnd (by assumption) ?_
    | split
    | dsimp only

theorem execTokenResendTimer_upd_eq {A : Fld → Bool} {s0 s : State} {x1 : TreeNo} {t : State} (h : Upd A s0 s) (e : execTokenResendTimer x1 s = .next t) (a_regs : A .regs = true) (a_hls : A .hls = true) (a_fns : A .fns = true) (a_trees : A .trees = true) (a_qsHere : A .qsHere = true) (a_qsInj : A .qsInj = true) (a_out : A .out = true) : Upd A s0 t := by
  unfold execTokenResendTimer at e
  cases e
  repeat' first
    | with_reducible assumption
    | (intro x1; clear_value x1)
    | (intro s1; refine (fun (hs1 : Upd A s0 s1) => ?_) ?_; clear_value s1; rotate_left; subst s1; rotate_left)
    | intro x1
    | lift_lets
    | with_reducible apply State.bump_upd
    | with_reducible apply State.alyToken_upd
    | with_reducible apply State.abortTokens_upd
    | with_reducible apply Upd.fold
    | split
    | dsimp only

theorem execOpTimeout_upd_eq {A : Fld → Bool} {s0 s : State} {x1 : TreeNo} {t : State} (h : Upd A s0 s) (e : execOpTimeout x1 s = .next t) (a_regs : A .regs = true) (a_ports : A .ports = true) (a_hls : A .hls = true) (a_fns : A .fns = true) (a_accts : A .accts = true) (a_trees : A .trees = true) (a_orders : A .orders = true) (a_notices : A .notices = true) (a_acctCmds : A .acctCmds = true) (a_tags : A .tags = true) (a_clhIn : A .clhIn = true) (a_tptIn : A .tptIn = true) (a_mcIn : A .mcIn = true) (a_fifelIn : A .fifelIn = true) (a_qsHere : A .qsHere = true) (a_qsInj : A .qsInj = true) (a_samples : A .samples = true) (a_sampleLost : A .sampleLost = true) (a_clh : A .clh = true) (a_pwr : A .pwr = true) (a_boot : A .boot = true) (a_rotate : A .rotate = true) (a_freeCtr : A .freeCtr = true) (a_nextId : A .nextId = true) (a_out : A .out = true) : Upd A s0 t := by
  unfold execOpTimeout at e
  cases e
  repeat' first
    | with_reducible assumption
    | lift_lets
    | with_reducible apply State.abortTree_upd
    | with_reducible apply State.activityUpd_upd
    | split

end Sys2Proof.Machine
end

