-- ==== Sys2Proof/Laws/FrameTrainEnd.lean ====
section
/-!
SUPPORT. Laws/FrameTrainEnd.lean: which parts of State each operation of Machine/TrainEnd.lean may change, and that it keeps the invariant.
-/
namespace Sys2Proof.Machine
set_option linter.unusedTactic false
set_option linter.unreachableTactic false
set_option linter.unusedVariables false

theorem State.freshStart_upd {A : Fld → Bool} {s0 s : State} (x1 : ℕ) (x2 : ParamMsg) (x3 : List (ℕ × ℕ)) (h : Upd A s0 s) (a_regs : A .regs = true) (a_ports : A .ports = true) (a_hls : A .hls = true) (a_fns : A .fns = true) (a_clhIn : A .clhIn = true) (a_tptIn : A .tptIn = true) (a_relayIn : A .relayIn = true) (a_mgIn : A .mgIn = true) (a_mcIn : A .mcIn = true) (a_fifelIn : A .fifelIn = true) (a_samples : A .samples = true) (a_sampleLost : A .sampleLost = true) (a_clh : A .clh = true) (a_rotate : A .rotate = true) (a_freeCtr : A .freeCtr = true) (a_nextId : A .nextId = true) (a_out : A .out = true) : Upd A s0 (State.freshStart s x1 x2 x3) := by
  unfold State.freshStart
  repeat' first
    | with_reducible assumption
    | (intro s1; refine (fun (hs1 : Upd A s0 s1) => ?_) ?_; clear_value s1; rotate_left; subst s1; rotate_left)
    | (intro x1; clear_value x1)
    | intro x1
    | lift_lets
    | with_reducible apply State.closeRx_upd
    | with_reducible apply State.handBack_upd
    | with_reducible apply State.modPort_upd
    | with_reducible apply State.set_upd
    | with_reducible apply Upd.fold
    | split
    | dsimp only

theorem State.paramOpen_upd {A : Fld → Bool} {s0 s : State} (x1 : ℕ) (x2 : ParamMsg) (x3 : CtrlArr) (h : Upd A s0 s) (a_regs : A .regs = true) (a_ports : A .ports = true) (a_hls : A .hls = true) (a_fns : A .fns = true) (a_clhIn : A .clhIn = true) (a_tptIn : A .tptIn = true) (a_relayIn : A .relayIn = true) (a_mgIn : A .mgIn = true) (a_mcIn : A .mcIn = true) (a_fifelIn : A .fifelIn = true) (a_samples : A .samples = true) (a_sampleLost : A .sampleLost = true) (a_clh : A .clh = true) (a_rotate : A .rotate = true) (a_freeCtr : A .freeCtr = true) (a_nextId : A .nextId = true) (a_out : A .out = true) : Upd A s0 (State.paramOpen s x1 x2 x3) := by
  unfold State.paramOpen
  repeat' first
    | with_reducible assumption
    | (intro s1; refine (fun (hs1 : Upd A s0 s1) => ?_) ?_; clear_value s1; rotate_left; subst s1; rotate_left)
    | intro x1
    | lift_lets
    | with_reducible apply State.modPort_upd
    | with_reducible apply State.freshStart_upd
    | with_reducible apply State.syncCredits_upd
    | with_reducible apply State.set_upd
    | with_reducible apply State.startReplay_upd
    | with_reducible apply State.raise_upd
    | with_reducible apply State.release_upd
    | with_reducible apply Upd.fold
    | split
    | dsimp only

theorem State.paramAnswer_upd {A : Fld → Bool} {s0 s : State} (x1 : ℕ) (h : Upd A s0 s) (a_ports : A .ports = true) : Upd A s0 (State.paramAnswer s x1) := by
  unfold State.paramAnswer
  repeat' first
    | with_reducible assumption
    | intro x1
    | (intro x1; have x2 := fun a => x1 a; clear x2; subst x1)
    | (intro x1; clear_value x1)
    | lift_lets
    | with_reducible apply State.modPort_upd
    | with_reducible apply State.ctrlSend_upd
    | split
    | dsimp only
    | dsimp +zetaDelta only

theorem State.paramEcho_upd {A : Fld → Bool} {s0 s : State} (x1 : ℕ) (x2 : ParamMsg) (x3 : CtrlArr) (h : Upd A s0 s) (a_regs : A .regs = true) (a_ports : A .ports = true) (a_clhIn : A .clhIn = true) : Upd A s0 (State.paramEcho s x1 x2 x3) := by
  unfold State.paramEcho
  repeat' first
    | with_reducible assumption
    | intro x1
    | (intro s1; refine (fun (hs1 : Upd A s0 s1) => ?_) ?_; clear_value s1; rotate_left; subst s1; rotate_left)
    | (intro x1; clear_value x1)
    | lift_lets
    | with_reducible apply State.modPort_upd
    | with_reducible apply State.setB_upd
    | with_reducible apply State.raise_upd
    | split
    | with_reducible apply Upd.getD
    | dsimp only

theorem State.paramDone_upd {A : Fld → Bool} {s0 s : State} (x1 : ℕ) (h : Upd A s0 s) (a_regs : A .regs = true) (a_ports : A .ports = true) (a_hls : A .hls = true) (a_fns : A .fns = true) (a_accts : A .accts = true) (a_trees : A .trees = true) (a_orders : A .orders = true) (a_notices : A .notices = true) (a_acctCmds : A .acctCmds = true) (a_tags : A .tags = true) (a_clhIn : A .clhIn = true) (a_tptIn : A .tptIn = true) (a_relayIn : A .relayIn = true) (a_mgIn : A .mgIn = true) (a_mcIn : A .mcIn = true) (a_fifelIn : A .fifelIn = true) (a_qsHere : A .qsHere = true) (a_qsInj : A .qsInj = true) (a_samples : A .samples = true) (a_sampleLost : A .sampleLost = true) (a_clh : A .clh = true) (a_boot : A .boot = true) (a_izg : A .izg = true) (a_rotate : A .rotate = true) (a_freeCtr : A .freeCtr = true) (a_nextId : A .nextId = true) (a_out : A .out = true) : Upd A s0 (State.paramDone s x1) := by
  unfold State.paramDone
  repeat' first
    | with_reducible assumption
    | (intro s1; refine (fun (hs1 : Upd A s0 s1) => ?_) ?_; clear_value s1; rotate_left; subst s1; rotate_left)
    | intro x1
    | lift_lets
    | with_reducible apply State.enterActive_upd
    | with_reducible apply State.withCoord_upd
    | with_reducible apply State.passActive_upd
    | with_reducible apply State.abortFresh_upd
    | split

theorem execParam_upd_eq {A : Fld → Bool} {s0 s : State} {x1 : PortNo} {t : State} (h : Upd A s0 s) (e : execParam x1 s = .next t) (a_regs : A .regs = true) (a_ports : A .ports = true) (a_hls : A .hls = true) (a_fns : A .fns = true) (a_accts : A .accts = true) (a_trees : A .trees = true) (a_orders : A .orders = true) (a_notices : A .notices = true) (a_acctCmds : A .acctCmds = true) (a_tags : A .tags = true) (a_clhIn : A .clhIn = true) (a_tptIn : A .tptIn = true) (a_relayIn : A .relayIn = true) (a_mgIn : A .mgIn = true) (a_mcIn : A .mcIn = true) (a_fifelIn : A .fifelIn = true) (a_qsHere : A .qsHere = true) (a_qsInj : A .qsInj = true) (a_samples : A .samples = true) (a_sampleLost : A .sampleLost = true) (a_clh : A .clh = true) (a_boot : A .boot = true) (a_izg : A .izg = true) (a_rotate : A .rotate = true) (a_freeCtr : A .freeCtr = true) (a_nextId : A .nextId = true) (a_out : A .out = true) : Upd A s0 t := by
  unfold execParam at e
  cases e
  repeat' first
    | with_reducible assumption
    | (intro s1; refine (fun (hs1 : Upd A s0 s1) => ?_) ?_; clear_value s1; rotate_left; subst s1; rotate_left)
    | (intro x1; clear_value x1)
    | intro x1
    | lift_lets
    | with_reducible apply State.modPort_upd
    | with_reducible apply State.paramAnswer_upd
    | with_reducible apply State.paramDone_upd
    | with_reducible apply State.paramEcho_upd
    | with_reducible apply State.paramOpen_upd
    | split
    | dsimp only

theorem execFrameSend_upd_eq {A : Fld → Bool} {s0 s : State} {x1 : PortNo} {t : State} (h : Upd A s0 s) (e : execFrameSend x1 s = .next t) (a_regs : A .regs = true) (a_ports : A .ports = true) (a_hls : A .hls = true) (a_fns : A .fns = true) (a_accts : A .accts = true) (a_trees : A .trees = true) (a_orders : A .orders = true) (a_notices : A .notices = true) (a_acctCmds : A .acctCmds = true) (a_tags : A .tags = true) (a_clhIn : A .clhIn = true) (a_tptIn : A .tptIn = true) (a_relayIn : A .relayIn = true) (a_mgIn : A .mgIn = true) (a_mcIn : A .mcIn = true) (a_fifelIn : A .fifelIn = true) (a_qsHere : A .qsHere = true) (a_qsWait : A .qsWait = true) (a_qsInj : A .qsInj = true) (a_samples : A .samples = true) (a_sampleLost : A .sampleLost = true) (a_hmk : A .hmk = true) (a_clh : A .clh = true) (a_boot : A .boot = true) (a_izg : A .izg = true) (a_rotate : A .rotate = true) (a_freeCtr : A .freeCtr = true) (a_nextId : A .nextId = true) (a_out : A .out = true) : Upd A s0 t := by
  unfold execFrameSend at e
  cases e
  repeat' first
    | with_reducible assumption
    | intro x1
    | (intro x1; clear_value x1)
    | (intro s1; refine (fun (hs1 : Upd A s0 s1) => ?_) ?_; clear_value s1; rotate_left; subst s1; rotate_left)
    | lift_lets
    | with_reducible apply State.sendCell_upd
    | with_reducible apply State.sendTraining_upd
    | with_reducible apply State.paramDone_upd
    | with_reducible apply State.sendActive_upd
    | with_reducible apply State.tryQuiet_upd
    | with_reducible apply State.markSlot_upd
    | split
    | dsimp only

theorem execResetLimitExpiry_upd_eq {A : Fld → Bool} {s0 s : State} {x1 : PortNo} {t : State} (h : Upd A s0 s) (e : execResetLimitExpiry x1 s = .next t) (a_regs : A .regs = true) (a_ports : A .ports = true) (a_hls : A .hls = true) (a_fns : A .fns = true) (a_accts : A .accts = true) (a_trees : A .trees = true) (a_orders : A .orders = true) (a_notices : A .notices = true) (a_acctCmds : A .acctCmds = true) (a_tags : A .tags = true) (a_clhIn : A .clhIn = true) (a_tptIn : A .tptIn = true) (a_relayIn : A .relayIn = true) (a_mgIn : A .mgIn = true) (a_mcIn : A .mcIn = true) (a_fifelIn : A .fifelIn = true) (a_qsHere : A .qsHere = true) (a_qsInj : A .qsInj = true) (a_samples : A .samples = true) (a_sampleLost : A .sampleLost = true) (a_clh : A .clh = true) (a_rotate : A .rotate = true) (a_freeCtr : A .freeCtr = true) (a_nextId : A .nextId = true) (a_out : A .out = true) : Upd A s0 t := by
  unfold execResetLimitExpiry at e
  cases e
  repeat' first
    | with_reducible assumption
    | intro x1
    | (intro s1; refine (fun (hs1 : Upd A s0 s1) => ?_) ?_; clear_value s1; rotate_left; subst s1; rotate_left)
    | lift_lets
    | with_reducible apply State.abortBroken_upd
    | with_reducible apply State.settle_upd
    | with_reducible apply State.limitExpire_upd
    | split
    | dsimp only

end Sys2Proof.Machine
end

