-- ==== Sys2Proof/Laws/FrameClearOps.lean ====
section
/-!
SUPPORT. Laws/FrameClearOps.lean: which parts of State each operation of Machine/ClearOps.lean may change, and that it keeps the invariant.
-/
namespace Sys2Proof.Machine
set_option linter.unusedTactic false
set_option linter.unreachableTactic false
set_option linter.unusedVariables false

theorem State.timerFire_upd {A : Fld → Bool} {s0 s : State} (x1 : ℕ) (h : Upd A s0 s) (a_regs : A .regs = true) (a_ports : A .ports = true) (a_hls : A .hls = true) (a_fns : A .fns = true) (a_clhIn : A .clhIn = true) (a_tptIn : A .tptIn = true) (a_mcIn : A .mcIn = true) (a_fifelIn : A .fifelIn = true) (a_samples : A .samples = true) (a_sampleLost : A .sampleLost = true) (a_clh : A .clh = true) (a_pwr : A .pwr = true) (a_boot : A .boot = true) (a_rotate : A .rotate = true) (a_freeCtr : A .freeCtr = true) (a_nextId : A .nextId = true) (a_out : A .out = true) : Upd A s0 (State.timerFire s x1) := by
  unfold State.timerFire
  repeat' first
    | with_reducible assumption
    | (intro s1; refine (fun (hs1 : Upd A s0 s1) => ?_) ?_; clear_value s1; rotate_left; subst s1; rotate_left)
    | intro x1
    | lift_lets
    | with_reducible apply State.set_upd
    | with_reducible apply State.castLease_upd
    | with_reducible apply Upd.fold

theorem State.timerCheck_upd {A : Fld → Bool} {s0 s : State} (x1 : ℕ) (h : Upd A s0 s) (a_regs : A .regs = true) (a_ports : A .ports = true) (a_hls : A .hls = true) (a_fns : A .fns = true) (a_clhIn : A .clhIn = true) (a_tptIn : A .tptIn = true) (a_mcIn : A .mcIn = true) (a_fifelIn : A .fifelIn = true) (a_samples : A .samples = true) (a_sampleLost : A .sampleLost = true) (a_clh : A .clh = true) (a_pwr : A .pwr = true) (a_boot : A .boot = true) (a_rotate : A .rotate = true) (a_freeCtr : A .freeCtr = true) (a_nextId : A .nextId = true) (a_out : A .out = true) : Upd A s0 (State.timerCheck s x1) := by
  unfold State.timerCheck
  repeat' first
    | with_reducible assumption
    | lift_lets
    | with_reducible apply State.timerFire_upd
    | split

theorem State.ppsUpd_upd {A : Fld → Bool} {s0 s : State} (h : Upd A s0 s) (a_hmk : A .hmk = true) (a_out : A .out = true) : Upd A s0 (State.ppsUpd s) := by
  unfold State.ppsUpd
  repeat' first
    | with_reducible assumption
    | lift_lets
    | with_reducible apply State.emit_upd
    | split
    | exact { h with hmk := .inl a_hmk, keeps := fun i => { h.keeps i with } }

theorem State.faultUpd_upd {A : Fld → Bool} {s0 s : State} (h : Upd A s0 s) (a_regs : A .regs = true) (a_clh : A .clh = true) (a_out : A .out = true) : Upd A s0 (State.faultUpd s) := by
  unfold State.faultUpd
  repeat' first
    | with_reducible assumption
    | intro x1
    | (intro x1; clear_value x1)
    | (intro s1; refine (fun (hs1 : Upd A s0 s1) => ?_) ?_; clear_value s1; rotate_left; subst s1; rotate_left)
    | (intro x1; have x2 : Clh := x1; clear x2; subst x1)
    | (intro x1; have x2 : Pwr := x1; clear x2; subst x1)
    | (intro x1; have x2 : Izg := x1; clear x2; subst x1)
    | lift_lets
    | with_reducible apply State.setB_upd
    | with_reducible apply State.set_upd
    | with_reducible apply State.emit_upd
    | split
    | with_reducible refine Upd.to_clh _ ?_ (by assumption) (fun _ i => i.flashQ)
    | with_reducible apply Upd.fold
    | with_reducible apply Upd.getD
    | dsimp only
    | refine Upd.to_clh _ ?_ (by assumption) (fun _ i => i.flashQ)

theorem State.throttleUpd_upd {A : Fld → Bool} {s0 s : State} (h : Upd A s0 s) (a_regs : A .regs = true) (a_clhIn : A .clhIn = true) : Upd A s0 (State.throttleUpd s) := by
  unfold State.throttleUpd
  repeat' first
    | with_reducible assumption
    | (intro x1; clear_value x1)
    | lift_lets
    | with_reducible apply State.set_upd
    | with_reducible apply State.raise_upd
    | split

theorem State.alertUpd_upd {A : Fld → Bool} {s0 s : State} (h : Upd A s0 s) (a_regs : A .regs = true) (a_out : A .out = true) : Upd A s0 (State.alertUpd s) := by
  unfold State.alertUpd
  repeat' first
    | with_reducible assumption
    | (intro x1; clear_value x1)
    | lift_lets
    | with_reducible apply State.setB_upd
    | with_reducible apply State.emit_upd
    | split

theorem State.clhUpd_upd {A : Fld → Bool} {s0 s : State} (h : Upd A s0 s) (a_regs : A .regs = true) (a_clhIn : A .clhIn = true) (a_clh : A .clh = true) (a_out : A .out = true) : Upd A s0 (State.clhUpd s) := by
  unfold State.clhUpd
  repeat' first
    | with_reducible assumption
    | (intro s1; refine (fun (hs1 : Upd A s0 s1) => ?_) ?_; clear_value s1; rotate_left; subst s1; rotate_left)
    | lift_lets
    | with_reducible apply State.faultUpd_upd
    | with_reducible apply State.throttleUpd_upd

end Sys2Proof.Machine
end

