-- ==== Sys2Proof/Laws/FrameRegOps.lean ====
section
/-!
SUPPORT. Laws/FrameRegOps.lean: which parts of State each operation of Machine/RegOps.lean may change, and that it keeps the invariant.
-/
namespace Sys2Proof.Machine
set_option linter.unusedTactic false
set_option linter.unreachableTactic false
set_option linter.unusedVariables false

theorem State.unmapped_upd {A : Fld → Bool} {s0 s : State} (x1 : Access) (x2 : Bool) (h : Upd A s0 s) (a_clhIn : A .clhIn = true) : Upd A s0 (State.unmapped s x1 x2) := by
  unfold State.unmapped
  repeat' first
    | with_reducible assumption
    | lift_lets
    | with_reducible apply State.raise_upd

theorem State.domainOffRec_upd {A : Fld → Bool} {s0 s : State} (x1 : ℕ) (h : Upd A s0 s) (a_clhIn : A .clhIn = true) : Upd A s0 (State.domainOffRec s x1) := by
  unfold State.domainOffRec
  repeat' first
    | with_reducible assumption
    | lift_lets
    | with_reducible apply State.raise_upd

theorem State.rcClear_upd {A : Fld → Bool} {s0 s : State} (x1 : RegRow) (x2 : List ℕ) (x3 : ℕ) (x4 : ℕ) (x5 : ℕ) (h : Upd A s0 s) (a_regs : A .regs = true) : Upd A s0 (State.rcClear s x1 x2 x3 x4 x5) := by
  unfold State.rcClear
  repeat' first
    | with_reducible assumption
    | intro x1
    | (intro x1; clear_value x1)
    | (intro s1; refine (fun (hs1 : Upd A s0 s1) => ?_) ?_; clear_value s1; rotate_left; subst s1; rotate_left)
    | lift_lets
    | with_reducible apply State.setWord_upd
    | with_reducible apply State.qUpd_upd
    | split
    | dsimp only

theorem State.placeRead_upd {A : Fld → Bool} {s0 s : State} (x1 : Place) (x2 : ℕ) (x3 : ℕ) (h : Upd A s0 s) (a_regs : A .regs = true) (a_freeCtr : A .freeCtr = true) : Upd A s0 (State.placeRead s x1 x2 x3).2 := by
  unfold State.placeRead
  repeat' first
    | with_reducible assumption
    | intro x1
    | (intro x1; clear_value x1)
    | lift_lets
    | with_reducible apply State.free_upd
    | with_reducible apply State.rcClear_upd
    | with_reducible apply State.poolRead_upd
    | with_reducible refine Upd.ofSnd (by assumption) ?_
    | split
    | dsimp only

theorem State.fieldHeldRec_upd {A : Fld → Bool} {s0 s : State} (x1 : RegRow) (x2 : List ℕ) (x3 : ℕ) (x4 : ℕ) (x5 : ℕ) (h : Upd A s0 s) (a_regs : A .regs = true) (a_clhIn : A .clhIn = true) : Upd A s0 (State.fieldHeldRec s x1 x2 x3 x4 x5) := by
  unfold State.fieldHeldRec
  repeat' first
    | with_reducible assumption
    | (intro x1; clear_value x1)
    | lift_lets
    | with_reducible apply State.set_upd
    | with_reducible apply State.raise_upd
    | split

theorem State.regRefuse_upd_eq {A : Fld → Bool} {s0 s : State} {x1 : RegRow} {x2 : List ℕ} {x3 : ℕ} {t : State} (h : Upd A s0 s) (e : State.regRefuse s x1 x2 x3 = some t) (a_regs : A .regs = true) (a_clhIn : A .clhIn = true) : Upd A s0 t := by
  unfold State.regRefuse at e
  dsimp only at e
  split at e
  · split at e
    · cases e
    · cases e; apply State.raise_upd <;> assumption
  split at e
  · split at e
    · cases e
    · cases e; exact h
  split at e
  · split at e
    · cases e; apply State.raise_upd <;> assumption
    · cases e
  split at e
  · cases e; exact h
  split at e
  · cases e; exact h
  split at e
  · cases e; apply State.raise_upd <;> assumption
  split at e
  · split at e <;> split at e <;> first
      | (cases e; done)
      | (cases e
         refine State.raise_upd _ _ _ _ ?_ (by assumption)
         apply State.set_upd <;> assumption)
  · cases e

theorem State.bankSet_upd {A : Fld → Bool} {s0 s : State} (x1 : ℕ) (x2 : Bool) (h : Upd A s0 s) (a_regs : A .regs = true) : Upd A s0 (State.bankSet s x1 x2) := by
  unfold State.bankSet
  repeat' first
    | with_reducible assumption
    | intro x1
    | lift_lets
    | with_reducible apply State.setDom_upd
    | split
    | dsimp only

theorem State.voteWrite_upd {A : Fld → Bool} {s0 s : State} (x1 : ℕ) (x2 : ℕ) (x3 : ℕ) (h : Upd A s0 s) (a_regs : A .regs = true) (a_ports : A .ports = true) (a_hls : A .hls = true) (a_fns : A .fns = true) (a_clhIn : A .clhIn = true) (a_tptIn : A .tptIn = true) (a_mcIn : A .mcIn = true) (a_fifelIn : A .fifelIn = true) (a_samples : A .samples = true) (a_sampleLost : A .sampleLost = true) (a_clh : A .clh = true) (a_pwr : A .pwr = true) (a_boot : A .boot = true) (a_rotate : A .rotate = true) (a_freeCtr : A .freeCtr = true) (a_nextId : A .nextId = true) (a_out : A .out = true) : Upd A s0 (State.voteWrite s x1 x2 x3) := by
  unfold State.voteWrite
  repeat' first
    | with_reducible assumption
    | (intro s1; refine (fun (hs1 : Upd A s0 s1) => ?_) ?_; clear_value s1; rotate_left; subst s1; rotate_left)
    | intro x1
    | lift_lets
    | with_reducible apply State.bankSet_upd
    | with_reducible apply State.vote_upd
    | split
    | dsimp only

theorem State.regHook_upd {A : Fld → Bool} {s0 s : State} (x1 : RegRow) (x2 : List ℕ) (x3 : ℕ) (x4 : ℕ) (x5 : ℕ) (x6 : ℕ) (h : Upd A s0 s) (a_regs : A .regs = true) (a_ports : A .ports = true) (a_hls : A .hls = true) (a_fns : A .fns = true) (a_clhIn : A .clhIn = true) (a_tptIn : A .tptIn = true) (a_relayIn : A .relayIn = true) (a_mgIn : A .mgIn = true) (a_mcIn : A .mcIn = true) (a_fifelIn : A .fifelIn = true) (a_samples : A .samples = true) (a_sampleLost : A .sampleLost = true) (a_hmk : A .hmk = true) (a_clh : A .clh = true) (a_pwr : A .pwr = true) (a_boot : A .boot = true) (a_rotate : A .rotate = true) (a_freeCtr : A .freeCtr = true) (a_nextId : A .nextId = true) (a_out : A .out = true) : Upd A s0 (State.regHook s x1 x2 x3 x4 x5 x6) := by
  unfold State.regHook
  repeat' first
    | with_reducible assumption
    | (intro x1; clear_value x1)
    | intro x1
    | lift_lets
    | with_reducible apply State.setB_upd
    | with_reducible apply State.ppsUpd_upd
    | with_reducible apply State.evalDom_upd
    | with_reducible apply State.voteWrite_upd
    | with_reducible apply State.throttleUpd_upd
    | with_reducible apply State.set_upd
    | with_reducible apply State.settle_upd
    | with_reducible apply State.hostVotes_upd
    | with_reducible apply State.timerCheck_upd
    | with_reducible apply State.intxAll_upd
    | with_reducible apply State.clhUpd_upd
    | with_reducible apply State.emit_upd
    | with_reducible apply State.coordSync_upd
    | with_reducible apply State.degradeWrite_upd
    | with_reducible apply Upd.fold
    | with_reducible apply Upd.ite
    | split
    | dsimp only

theorem State.regPut_upd {A : Fld → Bool} {s0 s : State} (x1 : RegRow) (x2 : List ℕ) (x3 : ℕ) (x4 : ℕ) (x5 : ℕ) (h : Upd A s0 s) (a_regs : A .regs = true) (a_ports : A .ports = true) (a_hls : A .hls = true) (a_fns : A .fns = true) (a_clhIn : A .clhIn = true) (a_tptIn : A .tptIn = true) (a_relayIn : A .relayIn = true) (a_mgIn : A .mgIn = true) (a_mcIn : A .mcIn = true) (a_fifelIn : A .fifelIn = true) (a_samples : A .samples = true) (a_sampleLost : A .sampleLost = true) (a_hmk : A .hmk = true) (a_clh : A .clh = true) (a_pwr : A .pwr = true) (a_boot : A .boot = true) (a_rotate : A .rotate = true) (a_freeCtr : A .freeCtr = true) (a_nextId : A .nextId = true) (a_out : A .out = true) : Upd A s0 (State.regPut s x1 x2 x3 x4 x5) := by
  unfold State.regPut
  repeat' first
    | with_reducible assumption
    | (intro x1; have x2 := fun a => x1 a; clear x2; subst x1)
    | (intro x1; have x2 := Prod.snd x1; clear x2; subst x1)
    | intro x1
    | lift_lets
    | with_reducible apply State.regHook_upd
    | with_reducible apply State.setWord_upd
    | with_reducible apply State.raise_upd
    | with_reducible apply State.fieldHeldRec_upd
    | with_reducible refine State.regRefuse_upd_eq ?_ (by assumption) (by assumption) (by assumption)
    | with_reducible refine Upd.ofMid (by assumption) ?_
    | with_reducible apply Upd.foldSnd
    | with_reducible apply Upd.foldFst
    | with_reducible apply Upd.foldMid
    | with_reducible apply Upd.foldSnd2
    | with_reducible apply Upd.getD
    | with_reducible apply Upd.ite
    | split
    | dsimp only

theorem State.msixPut_upd {A : Fld → Bool} {s0 s : State} (x1 : ℕ) (x2 : ℕ) (x3 : ℕ) (x4 : ℕ) (h : Upd A s0 s) (a_fns : A .fns = true) (a_out : A .out = true) : Upd A s0 (State.msixPut s x1 x2 x3 x4) := by
  unfold State.msixPut
  repeat' first
    | with_reducible assumption
    | lift_lets
    | with_reducible apply State.modFn_upd
    | with_reducible apply State.msixFlush_upd
    | split

theorem State.placeWrite_upd {A : Fld → Bool} {s0 s : State} (x1 : Place) (x2 : ℕ) (x3 : ℕ) (x4 : ℕ) (h : Upd A s0 s) (a_regs : A .regs = true) (a_ports : A .ports = true) (a_hls : A .hls = true) (a_fns : A .fns = true) (a_clhIn : A .clhIn = true) (a_tptIn : A .tptIn = true) (a_relayIn : A .relayIn = true) (a_mgIn : A .mgIn = true) (a_mcIn : A .mcIn = true) (a_fifelIn : A .fifelIn = true) (a_samples : A .samples = true) (a_sampleLost : A .sampleLost = true) (a_hmk : A .hmk = true) (a_clh : A .clh = true) (a_pwr : A .pwr = true) (a_boot : A .boot = true) (a_rotate : A .rotate = true) (a_freeCtr : A .freeCtr = true) (a_nextId : A .nextId = true) (a_out : A .out = true) : Upd A s0 (State.placeWrite s x1 x2 x3 x4) := by
  unfold State.placeWrite
  repeat' first
    | with_reducible assumption
    | intro x1
    | (intro s1; refine (fun (hs1 : Upd A s0 s1) => ?_) ?_; clear_value s1; rotate_left; subst s1; rotate_left)
    | lift_lets
    | with_reducible apply State.msixPut_upd
    | with_reducible apply State.regPut_upd
    | with_reducible apply State.raise_upd
    | split
    | dsimp only

theorem State.lbxCheck_upd {A : Fld → Bool} {s0 s : State} (x1 : ℕ) (x2 : ℕ) (x3 : Bool) (h : Upd A s0 s) (a_regs : A .regs = true) (a_hls : A .hls = true) (a_fns : A .fns = true) (a_clhIn : A .clhIn = true) (a_out : A .out = true) : Upd A s0 (State.lbxCheck s x1 x2 x3).2 := by
  unfold State.lbxCheck
  repeat' first
    | with_reducible assumption
    | (intro s1; refine (fun (hs1 : Upd A s0 s1) => ?_) ?_; clear_value s1; rotate_left; subst s1; rotate_left)
    | (intro x1; clear_value x1)
    | lift_lets
    | with_reducible apply State.setB_upd
    | with_reducible apply State.bump_upd
    | with_reducible apply State.set_upd
    | with_reducible apply State.raise_upd
    | split

theorem State.izgCheck_upd {A : Fld → Bool} {s0 s : State} (x1 : Access) (x2 : Bool) (h : Upd A s0 s) (a_regs : A .regs = true) (a_hls : A .hls = true) (a_fns : A .fns = true) (a_clhIn : A .clhIn = true) (a_out : A .out = true) : Upd A s0 (State.izgCheck s x1 x2).2 := by
  unfold State.izgCheck
  repeat' first
    | with_reducible assumption
    | intro x1
    | lift_lets
    | with_reducible apply State.lbxCheck_upd
    | with_reducible refine Upd.ofSnd (by assumption) ?_
    | split
    | with_reducible apply Upd.fold
    | with_reducible apply Upd.foldSnd
    | with_reducible apply Upd.foldFst
    | with_reducible apply Upd.foldMid
    | with_reducible apply Upd.foldSnd2
    | dsimp only
    | dsimp +zetaDelta only

theorem State.busRead_upd {A : Fld → Bool} {s0 s : State} (x1 : Access) (h : Upd A s0 s) (a_regs : A .regs = true) (a_clhIn : A .clhIn = true) (a_freeCtr : A .freeCtr = true) : Upd A s0 (State.busRead s x1).2 := by
  unfold State.busRead
  repeat' first
    | with_reducible assumption
    | (intro x1; clear_value x1)
    | lift_lets
    | with_reducible apply State.unmapped_upd
    | with_reducible apply State.domainOffRec_upd
    | with_reducible apply State.placeRead_upd
    | with_reducible refine Upd.ofSnd (by assumption) ?_
    | split

theorem State.busWrite_upd {A : Fld → Bool} {s0 s : State} (x1 : Access) (x2 : ℕ) (h : Upd A s0 s) (a_regs : A .regs = true) (a_ports : A .ports = true) (a_hls : A .hls = true) (a_fns : A .fns = true) (a_clhIn : A .clhIn = true) (a_tptIn : A .tptIn = true) (a_relayIn : A .relayIn = true) (a_mgIn : A .mgIn = true) (a_mcIn : A .mcIn = true) (a_fifelIn : A .fifelIn = true) (a_samples : A .samples = true) (a_sampleLost : A .sampleLost = true) (a_hmk : A .hmk = true) (a_clh : A .clh = true) (a_pwr : A .pwr = true) (a_boot : A .boot = true) (a_rotate : A .rotate = true) (a_freeCtr : A .freeCtr = true) (a_nextId : A .nextId = true) (a_out : A .out = true) : Upd A s0 (State.busWrite s x1 x2) := by
  unfold State.busWrite
  repeat' first
    | with_reducible assumption
    | (intro x1; clear_value x1)
    | lift_lets
    | with_reducible apply State.unmapped_upd
    | with_reducible apply State.domainOffRec_upd
    | with_reducible apply State.placeWrite_upd
    | split

theorem State.stewardDeny_upd {A : Fld → Bool} {s0 s : State} (x1 : ℕ) (x2 : ℕ) (h : Upd A s0 s) (a_clhIn : A .clhIn = true) : Upd A s0 (State.stewardDeny s x1 x2) := by
  unfold State.stewardDeny
  repeat' first
    | with_reducible assumption
    | lift_lets
    | with_reducible apply State.raise_upd

theorem State.viaNot_upd {A : Fld → Bool} {s0 s : State} (x1 : Access) (x2 : Bool) (h : Upd A s0 s) (a_fns : A .fns = true) (a_freeCtr : A .freeCtr = true) (a_out : A .out = true) : Upd A s0 (State.viaNot s x1 x2) := by
  unfold State.viaNot
  repeat' first
    | with_reducible assumption
    | intro x1
    | lift_lets
    | with_reducible apply State.memUr_upd
    | split
    | dsimp only

theorem State.mayWrite_upd {A : Fld → Bool} {s0 s : State} (x1 : Access) (h : Upd A s0 s) (a_regs : A .regs = true) (a_hls : A .hls = true) (a_fns : A .fns = true) (a_clhIn : A .clhIn = true) (a_freeCtr : A .freeCtr = true) (a_out : A .out = true) : Upd A s0 (State.mayWrite s x1).2 := by
  unfold State.mayWrite
  repeat' first
    | with_reducible assumption
    | (intro x1; clear_value x1)
    | intro x1
    | lift_lets
    | with_reducible apply State.bump_upd
    | with_reducible apply State.izgCheck_upd
    | with_reducible apply State.raise_upd
    | with_reducible apply State.stewardDeny_upd
    | with_reducible apply State.viaNot_upd
    | with_reducible apply State.aerBySev_upd
    | with_reducible refine Upd.ofSnd (by assumption) ?_
    | split
    | dsimp only

theorem State.regWrite_upd {A : Fld → Bool} {s0 s : State} (x1 : Access) (x2 : ℕ) (h : Upd A s0 s) (a_regs : A .regs = true) (a_ports : A .ports = true) (a_hls : A .hls = true) (a_fns : A .fns = true) (a_clhIn : A .clhIn = true) (a_tptIn : A .tptIn = true) (a_relayIn : A .relayIn = true) (a_mgIn : A .mgIn = true) (a_mcIn : A .mcIn = true) (a_fifelIn : A .fifelIn = true) (a_samples : A .samples = true) (a_sampleLost : A .sampleLost = true) (a_hmk : A .hmk = true) (a_clh : A .clh = true) (a_pwr : A .pwr = true) (a_boot : A .boot = true) (a_rotate : A .rotate = true) (a_freeCtr : A .freeCtr = true) (a_nextId : A .nextId = true) (a_out : A .out = true) : Upd A s0 (State.regWrite s x1 x2) := by
  unfold State.regWrite
  repeat' first
    | with_reducible assumption
    | intro x1
    | (intro x1; clear_value x1)
    | lift_lets
    | with_reducible apply State.busWrite_upd
    | with_reducible apply State.mayWrite_upd
    | with_reducible refine Upd.ofSnd (by assumption) ?_
    | split
    | dsimp only

theorem State.reach_upd {A : Fld → Bool} {s0 s : State} (x1 : Writer) (x2 : ℕ) (h : Upd A s0 s) (a_regs : A .regs = true) (a_hls : A .hls = true) (a_fns : A .fns = true) (a_clhIn : A .clhIn = true) (a_freeCtr : A .freeCtr = true) (a_out : A .out = true) : Upd A s0 (State.reach s x1 x2).2 := by
  unfold State.reach
  repeat' first
    | with_reducible assumption
    | intro x1
    | lift_lets
    | with_reducible apply State.domainOffRec_upd
    | with_reducible apply State.mayWrite_upd
    | with_reducible refine Upd.ofSnd (by assumption) ?_
    | with_reducible apply Upd.getD
    | split
    | dsimp only

theorem State.reaching_upd {A : Fld → Bool} {s0 s : State} (x1 : Writer) (x2 : RF) (x3 : ℕ) (x4 : (State → State)) (h : Upd A s0 s) (f4 : ∀ v0, Upd A s0 v0 → Upd A s0 (x4 v0)) (a_regs : A .regs = true) (a_hls : A .hls = true) (a_fns : A .fns = true) (a_movOwn : A .movOwn = true) (a_clhIn : A .clhIn = true) (a_freeCtr : A .freeCtr = true) (a_out : A .out = true) : Upd A s0 (State.reaching s x1 x2 x3 x4) := by
  unfold State.reaching
  repeat' first
    | with_reducible assumption
    | intro x1
    | lift_lets
    | with_reducible apply State.reach_upd
    | with_reducible refine Upd.ofSnd (by assumption) ?_
    | with_reducible apply f3
    | split
    | dsimp only
    | with_reducible apply f4
    | with_reducible apply Upd.to_movOwn

theorem State.regRead_upd {A : Fld → Bool} {s0 s : State} (x1 : Access) (h : Upd A s0 s) (a_regs : A .regs = true) (a_hls : A .hls = true) (a_fns : A .fns = true) (a_clhIn : A .clhIn = true) (a_freeCtr : A .freeCtr = true) (a_out : A .out = true) : Upd A s0 (State.regRead s x1) := by
  unfold State.regRead
  repeat' first
    | with_reducible assumption
    | intro x1
    | lift_lets
    | with_reducible apply State.izgCheck_upd
    | with_reducible apply State.busRead_upd
    | with_reducible apply State.emit_upd
    | with_reducible apply State.viaNot_upd
    | with_reducible refine Upd.ofSnd (by assumption) ?_
    | split
    | dsimp only

end Sys2Proof.Machine
end

