-- ==== Sys2Proof/Laws/FrameRegs.lean ====
section
/-!
SUPPORT. Laws/FrameRegs.lean: which parts of State each operation of Machine/Regs.lean may change, and that it keeps the invariant.
-/
namespace Sys2Proof.Machine
set_option linter.unusedTactic false
set_option linter.unreachableTactic false
set_option linter.unusedVariables false

theorem execRegisterWrite_upd_eq {A : Fld → Bool} {s0 s : State} {x1 : Access} {x2 : BitVec 64} {t : State} (h : Upd A s0 s) (e : execRegisterWrite x1 x2 s = .next t) (a_regs : A .regs = true) (a_ports : A .ports = true) (a_hls : A .hls = true) (a_fns : A .fns = true) (a_clhIn : A .clhIn = true) (a_tptIn : A .tptIn = true) (a_relayIn : A .relayIn = true) (a_mgIn : A .mgIn = true) (a_mcIn : A .mcIn = true) (a_fifelIn : A .fifelIn = true) (a_samples : A .samples = true) (a_sampleLost : A .sampleLost = true) (a_hmk : A .hmk = true) (a_clh : A .clh = true) (a_pwr : A .pwr = true) (a_boot : A .boot = true) (a_rotate : A .rotate = true) (a_freeCtr : A .freeCtr = true) (a_nextId : A .nextId = true) (a_out : A .out = true) : Upd A s0 t := by
  unfold execRegisterWrite at e
  cases e
  repeat' first
    | with_reducible assumption
    | lift_lets
    | with_reducible apply State.regWrite_upd

theorem execRcRead_upd_eq {A : Fld → Bool} {s0 s : State} {x1 : Access} {t : State} (h : Upd A s0 s) (e : execRcRead x1 s = .next t) (a_regs : A .regs = true) (a_hls : A .hls = true) (a_fns : A .fns = true) (a_clhIn : A .clhIn = true) (a_freeCtr : A .freeCtr = true) (a_out : A .out = true) : Upd A s0 t := by
  unfold execRcRead at e
  cases e
  repeat' first
    | with_reducible assumption
    | lift_lets
    | with_reducible apply State.regRead_upd

theorem execUnmappedAccess_upd_eq {A : Fld → Bool} {s0 s : State} {x1 : Access} {x2 : Bool} {t : State} (h : Upd A s0 s) (e : execUnmappedAccess x1 x2 s = .next t) (a_regs : A .regs = true) (a_ports : A .ports = true) (a_hls : A .hls = true) (a_fns : A .fns = true) (a_clhIn : A .clhIn = true) (a_tptIn : A .tptIn = true) (a_relayIn : A .relayIn = true) (a_mgIn : A .mgIn = true) (a_mcIn : A .mcIn = true) (a_fifelIn : A .fifelIn = true) (a_samples : A .samples = true) (a_sampleLost : A .sampleLost = true) (a_hmk : A .hmk = true) (a_clh : A .clh = true) (a_pwr : A .pwr = true) (a_boot : A .boot = true) (a_rotate : A .rotate = true) (a_freeCtr : A .freeCtr = true) (a_nextId : A .nextId = true) (a_out : A .out = true) : Upd A s0 t := by
  unfold execUnmappedAccess at e
  cases e
  repeat' first
    | with_reducible assumption
    | lift_lets
    | with_reducible apply State.regRead_upd
    | with_reducible apply State.regWrite_upd
    | split

theorem execDomainOffAccess_upd_eq {A : Fld → Bool} {s0 s : State} {x1 : Access} {x2 : Bool} {t : State} (h : Upd A s0 s) (e : execDomainOffAccess x1 x2 s = .next t) (a_regs : A .regs = true) (a_ports : A .ports = true) (a_hls : A .hls = true) (a_fns : A .fns = true) (a_clhIn : A .clhIn = true) (a_tptIn : A .tptIn = true) (a_relayIn : A .relayIn = true) (a_mgIn : A .mgIn = true) (a_mcIn : A .mcIn = true) (a_fifelIn : A .fifelIn = true) (a_samples : A .samples = true) (a_sampleLost : A .sampleLost = true) (a_hmk : A .hmk = true) (a_clh : A .clh = true) (a_pwr : A .pwr = true) (a_boot : A .boot = true) (a_rotate : A .rotate = true) (a_freeCtr : A .freeCtr = true) (a_nextId : A .nextId = true) (a_out : A .out = true) : Upd A s0 t := by
  unfold execDomainOffAccess at e
  cases e
  repeat' first
    | with_reducible assumption
    | lift_lets
    | with_reducible apply State.regRead_upd
    | with_reducible apply State.regWrite_upd
    | split

theorem execIzgLockSet_upd_eq {A : Fld → Bool} {s0 s : State} {x1 : Writer} {t : State} (h : Upd A s0 s) (e : execIzgLockSet x1 s = .next t) (a_regs : A .regs = true) (a_hls : A .hls = true) (a_fns : A .fns = true) (a_movOwn : A .movOwn = true) (a_clhIn : A .clhIn = true) (a_freeCtr : A .freeCtr = true) (a_out : A .out = true) : Upd A s0 t := by
  unfold execIzgLockSet at e
  cases e
  repeat' first
    | with_reducible assumption
    | intro x1
    | lift_lets
    | with_reducible apply State.set_upd
    | with_reducible apply State.reaching_upd
    | split
    | dsimp only

theorem execLinkResetWrite_upd_eq {A : Fld → Bool} {s0 s : State} {x1 : Writer} {x2 : PortNo} {t : State} (h : Upd A s0 s) (e : execLinkResetWrite x1 x2 s = .next t) (a_regs : A .regs = true) (a_ports : A .ports = true) (a_hls : A .hls = true) (a_fns : A .fns = true) (a_movOwn : A .movOwn = true) (a_clhIn : A .clhIn = true) (a_tptIn : A .tptIn = true) (a_relayIn : A .relayIn = true) (a_mgIn : A .mgIn = true) (a_mcIn : A .mcIn = true) (a_fifelIn : A .fifelIn = true) (a_samples : A .samples = true) (a_sampleLost : A .sampleLost = true) (a_clh : A .clh = true) (a_rotate : A .rotate = true) (a_freeCtr : A .freeCtr = true) (a_nextId : A .nextId = true) (a_out : A .out = true) : Upd A s0 t := by
  unfold execLinkResetWrite at e
  cases e
  repeat' first
    | with_reducible assumption
    | intro x1
    | lift_lets
    | with_reducible apply State.linkReset_upd
    | with_reducible apply State.reaching_upd
    | split
    | dsimp only

theorem execReachWrite_upd_eq {A : Fld → Bool} {s0 s : State} {x1 : Writer} {x2 : PortNo} {x3 : Word} {t : State} (h : Upd A s0 s) (e : execReachWrite x1 x2 x3 s = .next t) (a_regs : A .regs = true) (a_hls : A .hls = true) (a_fns : A .fns = true) (a_movOwn : A .movOwn = true) (a_clhIn : A .clhIn = true) (a_freeCtr : A .freeCtr = true) (a_out : A .out = true) : Upd A s0 t := by
  unfold execReachWrite at e
  cases e
  repeat' first
    | with_reducible assumption
    | intro x1
    | lift_lets
    | with_reducible apply State.reachWrite_upd
    | with_reducible apply State.reaching_upd
    | split
    | dsimp only

theorem execPadRelease_upd_eq {A : Fld → Bool} {s0 s : State} {x1 : Writer} {x2 : Word} {t : State} (h : Upd A s0 s) (e : execPadRelease x1 x2 s = .next t) (a_regs : A .regs = true) (a_ports : A .ports = true) (a_hls : A .hls = true) (a_fns : A .fns = true) (a_movOwn : A .movOwn = true) (a_clhIn : A .clhIn = true) (a_tptIn : A .tptIn = true) (a_relayIn : A .relayIn = true) (a_mgIn : A .mgIn = true) (a_mcIn : A .mcIn = true) (a_fifelIn : A .fifelIn = true) (a_samples : A .samples = true) (a_sampleLost : A .sampleLost = true) (a_clh : A .clh = true) (a_pwr : A .pwr = true) (a_rotate : A .rotate = true) (a_freeCtr : A .freeCtr = true) (a_nextId : A .nextId = true) (a_out : A .out = true) : Upd A s0 t := by
  unfold execPadRelease at e
  cases e
  repeat' first
    | with_reducible assumption
    | intro x1
    | lift_lets
    | with_reducible apply State.padRelease_upd
    | with_reducible apply State.reaching_upd
    | with_reducible apply Upd.fold
    | split
    | refine Upd.to_pwr _ ?_ (by assumption) (fun _ i => i.lossArea)
    | dsimp only

theorem execPwrReqFull_upd_eq {A : Fld → Bool} {s0 s : State} {x1 : Writer} {t : State} (h : Upd A s0 s) (e : execPwrReqFull x1 s = .next t) (a_regs : A .regs = true) (a_ports : A .ports = true) (a_hls : A .hls = true) (a_fns : A .fns = true) (a_movOwn : A .movOwn = true) (a_clhIn : A .clhIn = true) (a_tptIn : A .tptIn = true) (a_mcIn : A .mcIn = true) (a_fifelIn : A .fifelIn = true) (a_samples : A .samples = true) (a_sampleLost : A .sampleLost = true) (a_clh : A .clh = true) (a_pwr : A .pwr = true) (a_boot : A .boot = true) (a_rotate : A .rotate = true) (a_freeCtr : A .freeCtr = true) (a_nextId : A .nextId = true) (a_out : A .out = true) : Upd A s0 t := by
  unfold execPwrReqFull at e
  cases e
  repeat' first
    | with_reducible assumption
    | intro x1
    | lift_lets
    | with_reducible apply State.enterAwake_upd
    | with_reducible apply State.pwrResult_upd
    | with_reducible apply State.reaching_upd
    | split
    | dsimp only

theorem execPwrReqTrim_upd_eq {A : Fld → Bool} {s0 s : State} {x1 : Writer} {t : State} (h : Upd A s0 s) (e : execPwrReqTrim x1 s = .next t) (a_regs : A .regs = true) (a_ports : A .ports = true) (a_hls : A .hls = true) (a_fns : A .fns = true) (a_movOwn : A .movOwn = true) (a_clhIn : A .clhIn = true) (a_tptIn : A .tptIn = true) (a_mcIn : A .mcIn = true) (a_fifelIn : A .fifelIn = true) (a_samples : A .samples = true) (a_sampleLost : A .sampleLost = true) (a_clh : A .clh = true) (a_pwr : A .pwr = true) (a_boot : A .boot = true) (a_rotate : A .rotate = true) (a_freeCtr : A .freeCtr = true) (a_nextId : A .nextId = true) (a_out : A .out = true) : Upd A s0 t := by
  unfold execPwrReqTrim at e
  cases e
  repeat' first
    | with_reducible assumption
    | intro x1
    | lift_lets
    | with_reducible apply State.enterAwake_upd
    | with_reducible apply State.activityUpd_upd
    | with_reducible apply State.pwrResult_upd
    | with_reducible apply State.reaching_upd
    | split
    | dsimp only

theorem execPwrReqVigil_upd_eq {A : Fld → Bool} {s0 s : State} {x1 : Writer} {t : State} (h : Upd A s0 s) (e : execPwrReqVigil x1 s = .next t) (a_regs : A .regs = true) (a_ports : A .ports = true) (a_hls : A .hls = true) (a_fns : A .fns = true) (a_movOwn : A .movOwn = true) (a_clhIn : A .clhIn = true) (a_tptIn : A .tptIn = true) (a_relayIn : A .relayIn = true) (a_mgIn : A .mgIn = true) (a_mcIn : A .mcIn = true) (a_fifelIn : A .fifelIn = true) (a_samples : A .samples = true) (a_sampleLost : A .sampleLost = true) (a_clh : A .clh = true) (a_pwr : A .pwr = true) (a_boot : A .boot = true) (a_rotate : A .rotate = true) (a_freeCtr : A .freeCtr = true) (a_nextId : A .nextId = true) (a_out : A .out = true) : Upd A s0 t := by
  unfold execPwrReqVigil at e
  cases e
  repeat' first
    | with_reducible assumption
    | intro x1
    | lift_lets
    | with_reducible apply State.pwrResult_upd
    | with_reducible apply State.enterVigil_upd
    | with_reducible apply State.reaching_upd
    | split
    | dsimp only

theorem execPwrReqBad_upd_eq {A : Fld → Bool} {s0 s : State} {x1 : Writer} {t : State} (h : Upd A s0 s) (e : execPwrReqBad x1 s = .next t) (a_regs : A .regs = true) (a_hls : A .hls = true) (a_fns : A .fns = true) (a_movOwn : A .movOwn = true) (a_clhIn : A .clhIn = true) (a_freeCtr : A .freeCtr = true) (a_out : A .out = true) : Upd A s0 t := by
  unfold execPwrReqBad at e
  cases e
  repeat' first
    | with_reducible assumption
    | intro x1
    | lift_lets
    | with_reducible apply State.pwrResult_upd
    | with_reducible apply State.reaching_upd
    | split
    | dsimp only

theorem execKeyInval_upd_eq {A : Fld → Bool} {s0 s : State} {x1 : Writer} {x2 : Word} {t : State} (h : Upd A s0 s) (e : execKeyInval x1 x2 s = .next t) (a_regs : A .regs = true) (a_hls : A .hls = true) (a_fns : A .fns = true) (a_keyCache : A .keyCache = true) (a_flushes : A .flushes = true) (a_tags : A .tags = true) (a_movOwn : A .movOwn = true) (a_clhIn : A .clhIn = true) (a_freeCtr : A .freeCtr = true) (a_out : A .out = true) : Upd A s0 t := by
  unfold execKeyInval at e
  cases e
  repeat' first
    | with_reducible assumption
    | intro x1
    | lift_lets
    | with_reducible apply State.keyInval_upd
    | with_reducible apply State.reaching_upd
    | split
    | dsimp only

theorem execRankInval_upd_eq {A : Fld → Bool} {s0 s : State} {x1 : Writer} {x2 : Word} {t : State} (h : Upd A s0 s) (e : execRankInval x1 x2 s = .next t) (a_regs : A .regs = true) (a_hls : A .hls = true) (a_fns : A .fns = true) (a_rankCache : A .rankCache = true) (a_aptWaits : A .aptWaits = true) (a_movOwn : A .movOwn = true) (a_clhIn : A .clhIn = true) (a_freeCtr : A .freeCtr = true) (a_out : A .out = true) : Upd A s0 t := by
  unfold execRankInval at e
  cases e
  repeat' first
    | with_reducible assumption
    | intro x1
    | lift_lets
    | with_reducible apply State.rankInval_upd
    | with_reducible apply State.reaching_upd
    | split
    | refine Upd.to_rankCache _ ?_ (by assumption) (fun _ i => Nat.le_trans (List.length_filter_le ..) i.rankCache)
    | dsimp only

theorem execCounterWrite_upd_eq {A : Fld → Bool} {s0 s : State} {x1 : Writer} {x2 : Fin 65536} {x3 : Part} {x4 : Word} {t : State} (h : Upd A s0 s) (e : execCounterWrite x1 x2 x3 x4 s = .next t) (a_regs : A .regs = true) (a_ports : A .ports = true) (a_hls : A .hls = true) (a_fns : A .fns = true) (a_accts : A .accts = true) (a_orders : A .orders = true) (a_movOwn : A .movOwn = true) (a_clhIn : A .clhIn = true) (a_tptIn : A .tptIn = true) (a_mcIn : A .mcIn = true) (a_fifelIn : A .fifelIn = true) (a_samples : A .samples = true) (a_sampleLost : A .sampleLost = true) (a_clh : A .clh = true) (a_pwr : A .pwr = true) (a_boot : A .boot = true) (a_rotate : A .rotate = true) (a_freeCtr : A .freeCtr = true) (a_nextId : A .nextId = true) (a_out : A .out = true) : Upd A s0 t := by
  unfold execCounterWrite at e
  cases e
  repeat' first
    | with_reducible assumption
    | intro x1
    | (intro x1; clear_value x1)
    | lift_lets
    | with_reducible apply State.set_upd
    | with_reducible apply State.activityUpd_upd
    | with_reducible apply State.fireWhere_upd
    | with_reducible apply State.reaching_upd
    | split
    | dsimp only

theorem execCtxRangeWrite_upd_eq {A : Fld → Bool} {s0 s : State} {x1 : Writer} {x2 : AcctNo} {x3 : Word} {t : State} (h : Upd A s0 s) (e : execCtxRangeWrite x1 x2 x3 s = .next t) (a_regs : A .regs = true) (a_hls : A .hls = true) (a_fns : A .fns = true) (a_movOwn : A .movOwn = true) (a_clhIn : A .clhIn = true) (a_freeCtr : A .freeCtr = true) (a_out : A .out = true) : Upd A s0 t := by
  unfold execCtxRangeWrite at e
  cases e
  repeat' first
    | with_reducible assumption
    | intro x1
    | lift_lets
    | with_reducible apply State.ctxRange_upd
    | with_reducible apply State.reaching_upd
    | split
    | dsimp only

theorem execCtxEnable_upd_eq {A : Fld → Bool} {s0 s : State} {x1 : Writer} {x2 : Fin 65536} {t : State} (h : Upd A s0 s) (e : execCtxEnable x1 x2 s = .next t) (a_regs : A .regs = true) (a_hls : A .hls = true) (a_fns : A .fns = true) (a_movOwn : A .movOwn = true) (a_clhIn : A .clhIn = true) (a_freeCtr : A .freeCtr = true) (a_out : A .out = true) : Upd A s0 t := by
  unfold execCtxEnable at e
  cases e
  repeat' first
    | with_reducible assumption
    | intro x1
    | lift_lets
    | with_reducible apply State.set_upd
    | with_reducible apply State.reaching_upd
    | split
    | dsimp only

theorem execCtxDisable_upd_eq {A : Fld → Bool} {s0 s : State} {x1 : Writer} {x2 : Fin 65536} {t : State} (h : Upd A s0 s) (e : execCtxDisable x1 x2 s = .next t) (a_regs : A .regs = true) (a_ports : A .ports = true) (a_hls : A .hls = true) (a_fns : A .fns = true) (a_accts : A .accts = true) (a_ctxs : A .ctxs = true) (a_srcMsgs : A .srcMsgs = true) (a_orders : A .orders = true) (a_aptWaits : A .aptWaits = true) (a_entries : A .entries = true) (a_lmatches : A .lmatches = true) (a_ovfBufs : A .ovfBufs = true) (a_tags : A .tags = true) (a_movOwn : A .movOwn = true) (a_clhIn : A .clhIn = true) (a_tptIn : A .tptIn = true) (a_mcIn : A .mcIn = true) (a_fifelIn : A .fifelIn = true) (a_samples : A .samples = true) (a_sampleLost : A .sampleLost = true) (a_clh : A .clh = true) (a_pwr : A .pwr = true) (a_boot : A .boot = true) (a_rotate : A .rotate = true) (a_freeCtr : A .freeCtr = true) (a_nextId : A .nextId = true) (a_out : A .out = true) : Upd A s0 t := by
  unfold execCtxDisable at e
  cases e
  repeat' first
    | with_reducible assumption
    | intro x1
    | lift_lets
    | with_reducible apply State.set_upd
    | with_reducible apply State.activityUpd_upd
    | with_reducible apply State.ctxClear_upd
    | with_reducible apply State.reaching_upd
    | with_reducible apply Upd.fold
    | split
    | dsimp only

theorem execTreeActivate_upd_eq {A : Fld → Bool} {s0 s : State} {x1 : Writer} {x2 : Word} {t : State} (h : Upd A s0 s) (e : execTreeActivate x1 x2 s = .next t) (a_regs : A .regs = true) (a_ports : A .ports = true) (a_hls : A .hls = true) (a_fns : A .fns = true) (a_trees : A .trees = true) (a_movOwn : A .movOwn = true) (a_clhIn : A .clhIn = true) (a_tptIn : A .tptIn = true) (a_mcIn : A .mcIn = true) (a_fifelIn : A .fifelIn = true) (a_samples : A .samples = true) (a_sampleLost : A .sampleLost = true) (a_clh : A .clh = true) (a_pwr : A .pwr = true) (a_boot : A .boot = true) (a_rotate : A .rotate = true) (a_freeCtr : A .freeCtr = true) (a_nextId : A .nextId = true) (a_out : A .out = true) : Upd A s0 t := by
  unfold execTreeActivate at e
  cases e
  repeat' first
    | with_reducible assumption
    | intro x1
    | (intro s1; refine (fun (hs1 : Upd A s0 s1) => ?_) ?_; clear_value s1; rotate_left; subst s1; rotate_left)
    | (intro x1; clear_value x1)
    | lift_lets
    | with_reducible apply State.reaching_upd
    | with_reducible apply State.treeActivate_upd
    | with_reducible refine Upd.ofSnd (by assumption) ?_
    | split
    | dsimp only

theorem execTreeDeactivate_upd_eq {A : Fld → Bool} {s0 s : State} {x1 : Writer} {x2 : Word} {t : State} (h : Upd A s0 s) (e : execTreeDeactivate x1 x2 s = .next t) (a_regs : A .regs = true) (a_ports : A .ports = true) (a_hls : A .hls = true) (a_fns : A .fns = true) (a_accts : A .accts = true) (a_trees : A .trees = true) (a_orders : A .orders = true) (a_notices : A .notices = true) (a_acctCmds : A .acctCmds = true) (a_tags : A .tags = true) (a_movOwn : A .movOwn = true) (a_clhIn : A .clhIn = true) (a_tptIn : A .tptIn = true) (a_mcIn : A .mcIn = true) (a_fifelIn : A .fifelIn = true) (a_qsHere : A .qsHere = true) (a_qsInj : A .qsInj = true) (a_samples : A .samples = true) (a_sampleLost : A .sampleLost = true) (a_clh : A .clh = true) (a_pwr : A .pwr = true) (a_boot : A .boot = true) (a_rotate : A .rotate = true) (a_freeCtr : A .freeCtr = true) (a_nextId : A .nextId = true) (a_out : A .out = true) : Upd A s0 t := by
  unfold execTreeDeactivate at e
  cases e
  repeat' first
    | with_reducible assumption
    | intro x1
    | lift_lets
    | with_reducible apply State.reaching_upd
    | with_reducible apply State.treeDeactivate_upd
    | split
    | dsimp only

end Sys2Proof.Machine
end

