-- ==== Sys2Proof/Laws/FrameMoverOps.lean ====
section
/-!
SUPPORT. Laws/FrameMoverOps.lean: which parts of State each operation of Machine/MoverOps.lean may change, and that it keeps the invariant.
-/
namespace Sys2Proof.Machine
set_option linter.unusedTactic false
set_option linter.unreachableTactic false
set_option linter.unusedVariables false

theorem State.owinFault_upd {A : Fld → Bool} {s0 s : State} (x1 : ℕ) (h : Upd A s0 s) (a_regs : A .regs = true) (a_hls : A .hls = true) (a_fns : A .fns = true) (a_clhIn : A .clhIn = true) (a_out : A .out = true) : Upd A s0 (State.owinFault s x1) := by
  unfold State.owinFault
  repeat' first
    | with_reducible assumption
    | lift_lets
    | with_reducible apply State.bump_upd
    | with_reducible apply State.set_upd
    | with_reducible apply State.raise_upd

theorem State.owinGate_upd {A : Fld → Bool} {s0 s : State} (x1 : ℕ) (x2 : ℕ) (x3 : Bool) (x4 : Bool) (x5 : optParam HostView []) (h : Upd A s0 s) (a_regs : A .regs = true) (a_hls : A .hls = true) (a_fns : A .fns = true) (a_tags : A .tags = true) (a_clhIn : A .clhIn = true) (a_freeCtr : A .freeCtr = true) (a_out : A .out = true) : Upd A s0 (State.owinGate s x1 x2 x3 x4 x5).2 := by
  unfold State.owinGate
  repeat' first
    | with_reducible assumption
    | intro x1
    | lift_lets
    | with_reducible apply State.gate_upd
    | with_reducible refine Upd.ofSnd (by assumption) ?_
    | split
    | dsimp only

theorem State.busGate_upd {A : Fld → Bool} {s0 s : State} (x1 : ℕ) (x2 : Bool) (x3 : List (ℕ × ℕ)) (x4 : HostView) (h : Upd A s0 s) (a_regs : A .regs = true) (a_hls : A .hls = true) (a_fns : A .fns = true) (a_tags : A .tags = true) (a_clhIn : A .clhIn = true) (a_freeCtr : A .freeCtr = true) (a_out : A .out = true) : Upd A s0 (State.busGate s x1 x2 x3 x4).2.2 := by
  unfold State.busGate
  repeat' first
    | with_reducible assumption
    | intro x1
    | lift_lets
    | with_reducible apply State.owinFault_upd
    | with_reducible apply State.lbxCheck_upd
    | with_reducible apply State.owinGate_upd
    | with_reducible apply State.bmeHold_upd
    | with_reducible refine Upd.ofSnd (by assumption) ?_
    | with_reducible refine Upd.ofSnd2 (by assumption) ?_
    | with_reducible apply Upd.foldSnd
    | with_reducible apply Upd.foldFst
    | with_reducible apply Upd.foldMid
    | with_reducible apply Upd.foldSnd2
    | with_reducible apply Upd.getD
    | split
    | dsimp only

theorem State.busIn_upd {A : Fld → Bool} {s0 s : State} (x1 : HostView) (x2 : ℕ) (x3 : ℕ) (h : Upd A s0 s) (a_regs : A .regs = true) (a_clhIn : A .clhIn = true) (a_freeCtr : A .freeCtr = true) : Upd A s0 (State.busIn s x1 x2 x3).2 := by
  unfold State.busIn
  repeat' first
    | with_reducible assumption
    | lift_lets
    | with_reducible apply State.unmapped_upd
    | with_reducible apply State.busRead_upd
    | with_reducible refine Upd.ofSnd (by assumption) ?_
    | split

theorem State.movPut_upd {A : Fld → Bool} {s0 s : State} (x1 : ℕ) (x2 : Access) (x3 : ℕ) (h : Upd A s0 s) (a_movOwn : A .movOwn = true) : Upd A s0 (State.movPut s x1 x2 x3) := by
  unfold State.movPut
  repeat' first
    | with_reducible assumption
    | (intro x1; clear_value x1)
    | intro x1
    | lift_lets
    | with_reducible apply Upd.getD
    | split
    | dsimp only
    | with_reducible apply Upd.to_movOwn

theorem State.busOut_upd {A : Fld → Bool} {s0 s : State} (x1 : ℕ) (x2 : ℕ) (x3 : List Byte) (x4 : Bool) (h : Upd A s0 s) (a_regs : A .regs = true) (a_ports : A .ports = true) (a_hls : A .hls = true) (a_fns : A .fns = true) (a_movOwn : A .movOwn = true) (a_clhIn : A .clhIn = true) (a_tptIn : A .tptIn = true) (a_relayIn : A .relayIn = true) (a_mgIn : A .mgIn = true) (a_mcIn : A .mcIn = true) (a_fifelIn : A .fifelIn = true) (a_samples : A .samples = true) (a_sampleLost : A .sampleLost = true) (a_hmk : A .hmk = true) (a_clh : A .clh = true) (a_pwr : A .pwr = true) (a_boot : A .boot = true) (a_rotate : A .rotate = true) (a_freeCtr : A .freeCtr = true) (a_nextId : A .nextId = true) (a_out : A .out = true) : Upd A s0 (State.busOut s x1 x2 x3 x4).2 := by
  unfold State.busOut
  repeat' first
    | with_reducible assumption
    | intro x1
    | (intro x1; clear_value x1)
    | (intro s1; refine (fun (hs1 : Upd A s0 s1) => ?_) ?_; clear_value s1; rotate_left; subst s1; rotate_left)
    | lift_lets
    | with_reducible apply State.post_upd
    | with_reducible apply State.unmapped_upd
    | with_reducible apply State.busWrite_upd
    | with_reducible apply State.movPut_upd
    | split
    | dsimp only

theorem State.mvStop_upd {A : Fld → Bool} {s0 s : State} (x1 : ℕ) (x2 : ℕ) (h : Upd A s0 s) (a_regs : A .regs = true) (a_movs : A .movs = true) : Upd A s0 (State.mvStop s x1 x2) := by
  unfold State.mvStop
  repeat' first
    | with_reducible assumption
    | lift_lets
    | with_reducible apply State.set_upd
    | with_reducible apply State.modMov_upd

theorem State.mvWrote_upd {A : Fld → Bool} {s0 s : State} (x1 : ℕ) (x2 : ℕ) (x3 : Option HostAddr) (h : Upd A s0 s) (a_regs : A .regs = true) (a_hls : A .hls = true) (a_fns : A .fns = true) (a_movs : A .movs = true) (a_out : A .out = true) : Upd A s0 (State.mvWrote s x1 x2 x3) := by
  unfold State.mvWrote
  repeat' first
    | with_reducible assumption
    | lift_lets
    | with_reducible apply State.set_upd
    | with_reducible apply State.modMov_upd
    | with_reducible apply State.bumpN_upd

theorem State.mvIssued_upd {A : Fld → Bool} {s0 s : State} (x1 : ℕ) (h : Upd A s0 s) (a_regs : A .regs = true) (a_hls : A .hls = true) (a_fns : A .fns = true) (a_movs : A .movs = true) (a_flushes : A .flushes = true) (a_tags : A .tags = true) (a_out : A .out = true) : Upd A s0 (State.mvIssued s x1) := by
  unfold State.mvIssued
  repeat' first
    | with_reducible assumption
    | intro x1
    | (intro x1; clear_value x1)
    | lift_lets
    | with_reducible apply State.set_upd
    | with_reducible apply State.flushAsk_upd
    | with_reducible apply State.modMov_upd
    | split
    | dsimp only

theorem State.mvGate_upd {A : Fld → Bool} {s0 s : State} (x1 : ℕ) (x2 : List (ℕ × ℕ)) (x3 : List (ℕ × ℕ)) (x4 : HostView) (h : Upd A s0 s) (a_regs : A .regs = true) (a_hls : A .hls = true) (a_fns : A .fns = true) (a_accts : A .accts = true) (a_tags : A .tags = true) (a_clhIn : A .clhIn = true) (a_freeCtr : A .freeCtr = true) (a_out : A .out = true) : Upd A s0 (State.mvGate s x1 x2 x3 x4).2.2 := by
  unfold State.mvGate
  repeat' first
    | with_reducible assumption
    | intro x1
    | (intro x1; clear_value x1)
    | lift_lets
    | with_reducible apply State.busGate_upd
    | with_reducible apply State.gate_upd
    | with_reducible apply State.modAcct_upd
    | with_reducible refine Upd.ofSnd (by assumption) ?_
    | with_reducible refine Upd.ofSnd2 (by assumption) ?_
    | with_reducible apply Upd.getD
    | split
    | dsimp only

theorem State.mvRead_upd {A : Fld → Bool} {s0 s : State} (x1 : ℕ) (x2 : HostView) (x3 : List (ℕ × ℕ)) (h : Upd A s0 s) (a_regs : A .regs = true) (a_clhIn : A .clhIn = true) (a_freeCtr : A .freeCtr = true) : Upd A s0 (State.mvRead s x1 x2 x3).2 := by
  unfold State.mvRead
  repeat' first
    | with_reducible assumption
    | intro x1
    | lift_lets
    | with_reducible apply State.busIn_upd
    | with_reducible refine Upd.ofSnd (by assumption) ?_
    | with_reducible apply Upd.foldSnd
    | with_reducible apply Upd.foldFst
    | with_reducible apply Upd.foldMid
    | with_reducible apply Upd.foldSnd2
    | split

theorem State.mvWrite_upd {A : Fld → Bool} {s0 s : State} (x1 : ℕ) (x2 : List (ℕ × ℕ)) (x3 : List Byte) (x4 : Bool) (h : Upd A s0 s) (a_regs : A .regs = true) (a_ports : A .ports = true) (a_hls : A .hls = true) (a_fns : A .fns = true) (a_movs : A .movs = true) (a_movOwn : A .movOwn = true) (a_clhIn : A .clhIn = true) (a_tptIn : A .tptIn = true) (a_relayIn : A .relayIn = true) (a_mgIn : A .mgIn = true) (a_mcIn : A .mcIn = true) (a_fifelIn : A .fifelIn = true) (a_samples : A .samples = true) (a_sampleLost : A .sampleLost = true) (a_hmk : A .hmk = true) (a_clh : A .clh = true) (a_pwr : A .pwr = true) (a_boot : A .boot = true) (a_rotate : A .rotate = true) (a_freeCtr : A .freeCtr = true) (a_nextId : A .nextId = true) (a_out : A .out = true) : Upd A s0 (State.mvWrite s x1 x2 x3 x4) := by
  unfold State.mvWrite
  repeat' first
    | with_reducible assumption
    | (intro s1; refine (fun (hs1 : Upd A s0 s1) => ?_) ?_; clear_value s1; rotate_left; subst s1; rotate_left)
    | (intro x1; clear_value x1)
    | intro x1
    | lift_lets
    | with_reducible apply State.busOut_upd
    | with_reducible apply State.mvWrote_upd
    | with_reducible apply State.post_upd
    | with_reducible refine Upd.ofSnd (by assumption) ?_
    | with_reducible apply Upd.fold
    | split
    | dsimp only

theorem State.mvWalk_upd {A : Fld → Bool} {s0 s : State} (x1 : ℕ) (x2 : HostView) (x3 : ℕ) (h : Upd A s0 s) (a_regs : A .regs = true) (a_ports : A .ports = true) (a_hls : A .hls = true) (a_fns : A .fns = true) (a_accts : A .accts = true) (a_movs : A .movs = true) (a_flushes : A .flushes = true) (a_tags : A .tags = true) (a_movOwn : A .movOwn = true) (a_clhIn : A .clhIn = true) (a_tptIn : A .tptIn = true) (a_relayIn : A .relayIn = true) (a_mgIn : A .mgIn = true) (a_mcIn : A .mcIn = true) (a_fifelIn : A .fifelIn = true) (a_samples : A .samples = true) (a_sampleLost : A .sampleLost = true) (a_hmk : A .hmk = true) (a_clh : A .clh = true) (a_pwr : A .pwr = true) (a_boot : A .boot = true) (a_rotate : A .rotate = true) (a_freeCtr : A .freeCtr = true) (a_nextId : A .nextId = true) (a_out : A .out = true) : Upd A s0 (State.mvWalk s x1 x2 x3) := by
  induction x3 generalizing s with
  | zero =>
    unfold State.mvWalk
    repeat' first
      | with_reducible assumption
      | (intro x1; clear_value x1)
      | intro x1
      | lift_lets
      | with_reducible apply State.modMov_upd
      | with_reducible apply State.mvGate_upd
      | with_reducible apply State.mvIssued_upd
      | with_reducible apply State.mvRead_upd
      | with_reducible apply State.mvStop_upd
      | with_reducible apply State.mvWrite_upd
      | with_reducible apply State.set_upd
      | with_reducible refine Upd.ofSnd (by assumption) ?_
      | with_reducible refine Upd.ofSnd2 (by assumption) ?_
      | split
      | dsimp only
  | succ x0 ih =>
    unfold State.mvWalk
    repeat' first
      | with_reducible apply ih
      | with_reducible assumption
      | (intro x1; clear_value x1)
      | intro x1
      | lift_lets
      | with_reducible apply State.modMov_upd
      | with_reducible apply State.mvGate_upd
      | with_reducible apply State.mvIssued_upd
      | with_reducible apply State.mvRead_upd
      | with_reducible apply State.mvStop_upd
      | with_reducible apply State.mvWrite_upd
      | with_reducible apply State.set_upd
      | with_reducible refine Upd.ofSnd (by assumption) ?_
      | with_reducible refine Upd.ofSnd2 (by assumption) ?_
      | split
      | dsimp only

theorem State.mvGo_upd {A : Fld → Bool} {s0 s : State} (x1 : ℕ) (x2 : HostView) (h : Upd A s0 s) (a_regs : A .regs = true) (a_ports : A .ports = true) (a_hls : A .hls = true) (a_fns : A .fns = true) (a_accts : A .accts = true) (a_movs : A .movs = true) (a_flushes : A .flushes = true) (a_tags : A .tags = true) (a_movOwn : A .movOwn = true) (a_clhIn : A .clhIn = true) (a_tptIn : A .tptIn = true) (a_relayIn : A .relayIn = true) (a_mgIn : A .mgIn = true) (a_mcIn : A .mcIn = true) (a_fifelIn : A .fifelIn = true) (a_samples : A .samples = true) (a_sampleLost : A .sampleLost = true) (a_hmk : A .hmk = true) (a_clh : A .clh = true) (a_pwr : A .pwr = true) (a_boot : A .boot = true) (a_rotate : A .rotate = true) (a_freeCtr : A .freeCtr = true) (a_nextId : A .nextId = true) (a_out : A .out = true) : Upd A s0 (State.mvGo s x1 x2) := by
  unfold State.mvGo
  repeat' first
    | with_reducible assumption
    | lift_lets
    | with_reducible apply State.set_upd
    | with_reducible apply State.mvWalk_upd

theorem State.mvIdle_upd {A : Fld → Bool} {s0 s : State} (x1 : ℕ) (h : Upd A s0 s) (a_regs : A .regs = true) (a_movs : A .movs = true) : Upd A s0 (State.mvIdle s x1) := by
  unfold State.mvIdle
  dsimp only
  repeat' first
    | with_reducible assumption
    | lift_lets
    | with_reducible apply State.setB_upd
    | with_reducible apply State.set_upd
    | refine Upd.to_movs _ ?_ (by assumption) (fun _ i => tasc_tdel _ i.movs)

theorem State.mvDone_upd {A : Fld → Bool} {s0 s : State} (x1 : ℕ) (x2 : ℕ) (h : Upd A s0 s) (a_regs : A .regs = true) (a_ports : A .ports = true) (a_hls : A .hls = true) (a_fns : A .fns = true) (a_accts : A .accts = true) (a_movs : A .movs = true) (a_orders : A .orders = true) (a_tags : A .tags = true) (a_clhIn : A .clhIn = true) (a_tptIn : A .tptIn = true) (a_mcIn : A .mcIn = true) (a_fifelIn : A .fifelIn = true) (a_samples : A .samples = true) (a_sampleLost : A .sampleLost = true) (a_clh : A .clh = true) (a_pwr : A .pwr = true) (a_boot : A .boot = true) (a_rotate : A .rotate = true) (a_freeCtr : A .freeCtr = true) (a_nextId : A .nextId = true) (a_out : A .out = true) : Upd A s0 (State.mvDone s x1 x2) := by
  unfold State.mvDone
  repeat' first
    | with_reducible assumption
    | (intro s1; refine (fun (hs1 : Upd A s0 s1) => ?_) ?_; clear_value s1; rotate_left; subst s1; rotate_left)
    | lift_lets
    | with_reducible apply State.bump_upd
    | with_reducible apply State.complete_upd
    | with_reducible apply State.set_upd
    | with_reducible apply State.mvIdle_upd
    | with_reducible apply State.activityUpd_upd
    | split

theorem State.mvUnflush_upd {A : Fld → Bool} {s0 s : State} (x1 : ℕ) (x2 : Bool) (h : Upd A s0 s) (a_movs : A .movs = true) (a_flushes : A .flushes = true) : Upd A s0 (State.mvUnflush s x1 x2) := by
  unfold State.mvUnflush
  repeat' first
    | with_reducible assumption
    | (intro x1; have x2 := fun a => x1 a; clear x2; subst x1)
    | (intro x1; clear_value x1)
    | intro x1
    | lift_lets
    | with_reducible apply State.modMov_upd
    | split
    | dsimp only
    | with_reducible apply Upd.to_flushes
    | dsimp +zetaDelta only

theorem State.mvAcct_upd {A : Fld → Bool} {s0 s : State} (x1 : ℕ) (x2 : Option ℕ) (h : Upd A s0 s) (a_regs : A .regs = true) (a_hls : A .hls = true) (a_fns : A .fns = true) (a_accts : A .accts = true) (a_movs : A .movs = true) (a_orders : A .orders = true) (a_flushes : A .flushes = true) (a_tags : A .tags = true) (a_moveWait : A .moveWait = true) (a_clhIn : A .clhIn = true) (a_freeCtr : A .freeCtr = true) (a_out : A .out = true) : Upd A s0 (State.mvAcct s x1 x2) := by
  unfold State.mvAcct
  repeat' first
    | with_reducible assumption
    | (intro s1; refine (fun (hs1 : Upd A s0 s1) => ?_) ?_; clear_value s1; rotate_left; subst s1; rotate_left)
    | (intro x1; clear_value x1)
    | intro x1
    | lift_lets
    | with_reducible apply State.bump_upd
    | with_reducible apply State.complete_upd
    | with_reducible apply State.modMov_upd
    | with_reducible apply State.mvUnflush_upd
    | with_reducible apply Upd.fold
    | with_reducible apply Upd.getD
    | split
    | dsimp only
    | with_reducible apply Upd.to_moveWait

end Sys2Proof.Machine
end

