-- ==== Sys2Proof/Laws/FrameMover.lean ====
section
/-!
SUPPORT. Laws/FrameMover.lean: which parts of State each operation of Machine/Mover.lean may change, and that it keeps the invariant.
-/
namespace Sys2Proof.Machine
set_option linter.unusedTactic false
set_option linter.unreachableTactic false
set_option linter.unusedVariables false

theorem execMove_upd_eq {A : Fld → Bool} {s0 s : State} {x1 : AcctNo} {x2 : Source} {x3 : HostView} {t : State} (h : Upd A s0 s) (e : execMove x1 x2 x3 s = .next t) (a_regs : A .regs = true) (a_ports : A .ports = true) (a_hls : A .hls = true) (a_fns : A .fns = true) (a_accts : A .accts = true) (a_orders : A .orders = true) (a_notices : A .notices = true) (a_acctCmds : A .acctCmds = true) (a_tags : A .tags = true) (a_moveWait : A .moveWait = true) (a_clhIn : A .clhIn = true) (a_tptIn : A .tptIn = true) (a_mcIn : A .mcIn = true) (a_fifelIn : A .fifelIn = true) (a_samples : A .samples = true) (a_sampleLost : A .sampleLost = true) (a_clh : A .clh = true) (a_pwr : A .pwr = true) (a_boot : A .boot = true) (a_rotate : A .rotate = true) (a_freeCtr : A .freeCtr = true) (a_nextId : A .nextId = true) (a_out : A .out = true) : Upd A s0 t := by
  unfold execMove at e
  cases e
  repeat' first
    | with_reducible assumption
    | (intro x1; clear_value x1)
    | (intro x1; have x2 := fun a => x1 a; clear x2; subst x1)
    | (intro s1; refine (fun (hs1 : Upd A s0 s1) => ?_) ?_; clear_value s1; rotate_left; subst s1; rotate_left)
    | intro x1
    | lift_lets
    | with_reducible apply State.bump_upd
    | with_reducible apply State.withDescHost_upd
    | with_reducible apply State.complete_upd
    | split
    | with_reducible apply Upd.to_moveWait
    | dsimp only
    | dsimp +zetaDelta only

theorem execChannelGrant_upd_eq {A : Fld → Bool} {s0 s : State} {x1 : MovNo} {x2 : HostView} {t : State} (h : Upd A s0 s) (e : execChannelGrant x1 x2 s = .next t) (a_regs : A .regs = true) (a_ports : A .ports = true) (a_hls : A .hls = true) (a_fns : A .fns = true) (a_accts : A .accts = true) (a_movs : A .movs = true) (a_flushes : A .flushes = true) (a_notices : A .notices = true) (a_acctCmds : A .acctCmds = true) (a_tags : A .tags = true) (a_moveWait : A .moveWait = true) (a_movOwn : A .movOwn = true) (a_clhIn : A .clhIn = true) (a_tptIn : A .tptIn = true) (a_relayIn : A .relayIn = true) (a_mgIn : A .mgIn = true) (a_mcIn : A .mcIn = true) (a_fifelIn : A .fifelIn = true) (a_samples : A .samples = true) (a_sampleLost : A .sampleLost = true) (a_hmk : A .hmk = true) (a_clh : A .clh = true) (a_pwr : A .pwr = true) (a_boot : A .boot = true) (a_rotate : A .rotate = true) (a_freeCtr : A .freeCtr = true) (a_nextId : A .nextId = true) (a_out : A .out = true) : Upd A s0 t := by
  unfold execChannelGrant at e
  cases e
  repeat' first
    | with_reducible assumption
    | (intro s1; refine (fun (hs1 : Upd A s0 s1) => ?_) ?_; clear_value s1; rotate_left; subst s1; rotate_left)
    | lift_lets
    | with_reducible apply State.mvGo_upd
    | with_reducible apply State.set_upd
    | with_reducible apply State.activityUpd_upd
    | with_reducible apply State.acctFetch_upd
    | with_reducible apply State.modMov_upd
    | split
    | exact { h with moveWait := .inl a_moveWait, keeps := fun i => { h.keeps i with } }

theorem execMoverGo_upd_eq {A : Fld → Bool} {s0 s : State} {x1 : MovNo} {x2 : Writer} {x3 : HostView} {t : State} (h : Upd A s0 s) (e : execMoverGo x1 x2 x3 s = .next t) (a_regs : A .regs = true) (a_ports : A .ports = true) (a_hls : A .hls = true) (a_fns : A .fns = true) (a_accts : A .accts = true) (a_movs : A .movs = true) (a_orders : A .orders = true) (a_flushes : A .flushes = true) (a_tags : A .tags = true) (a_movOwn : A .movOwn = true) (a_clhIn : A .clhIn = true) (a_tptIn : A .tptIn = true) (a_relayIn : A .relayIn = true) (a_mgIn : A .mgIn = true) (a_mcIn : A .mcIn = true) (a_fifelIn : A .fifelIn = true) (a_samples : A .samples = true) (a_sampleLost : A .sampleLost = true) (a_hmk : A .hmk = true) (a_clh : A .clh = true) (a_pwr : A .pwr = true) (a_boot : A .boot = true) (a_rotate : A .rotate = true) (a_freeCtr : A .freeCtr = true) (a_nextId : A .nextId = true) (a_out : A .out = true) : Upd A s0 t := by
  unfold execMoverGo at e
  cases e
  repeat' first
    | with_reducible assumption
    | intro x1
    | (intro x1; clear_value x1)
    | (intro s1; refine (fun (hs1 : Upd A s0 s1) => ?_) ?_; clear_value s1; rotate_left; subst s1; rotate_left)
    | lift_lets
    | with_reducible apply State.setB_upd
    | with_reducible apply State.mvGo_upd
    | with_reducible apply State.set_upd
    | with_reducible apply State.mvDone_upd
    | with_reducible apply State.activityUpd_upd
    | with_reducible apply State.raise_upd
    | with_reducible apply State.modMov_upd
    | with_reducible apply State.reaching_upd
    | split
    | with_reducible apply Upd.getD
    | dsimp only

theorem execMoverAbort_upd_eq {A : Fld → Bool} {s0 s : State} {x1 : Writer} {x2 : MovNo} {t : State} (h : Upd A s0 s) (e : execMoverAbort x1 x2 s = .next t) (a_regs : A .regs = true) (a_hls : A .hls = true) (a_fns : A .fns = true) (a_movs : A .movs = true) (a_flushes : A .flushes = true) (a_movOwn : A .movOwn = true) (a_clhIn : A .clhIn = true) (a_freeCtr : A .freeCtr = true) (a_out : A .out = true) : Upd A s0 t := by
  unfold execMoverAbort at e
  cases e
  repeat' first
    | with_reducible assumption
    | (intro s1; refine (fun (hs1 : Upd A s0 s1) => ?_) ?_; clear_value s1; rotate_left; subst s1; rotate_left)
    | (intro x1; clear_value x1)
    | intro x1
    | lift_lets
    | with_reducible apply State.modMov_upd
    | with_reducible apply State.mvUnflush_upd
    | with_reducible apply State.reaching_upd
    | with_reducible apply State.set_upd
    | split
    | dsimp only

theorem execMoverComplete_upd_eq {A : Fld → Bool} {s0 s : State} {x1 : MovNo} {t : State} (h : Upd A s0 s) (e : execMoverComplete x1 s = .next t) (a_regs : A .regs = true) (a_ports : A .ports = true) (a_hls : A .hls = true) (a_fns : A .fns = true) (a_accts : A .accts = true) (a_movs : A .movs = true) (a_orders : A .orders = true) (a_tags : A .tags = true) (a_clhIn : A .clhIn = true) (a_tptIn : A .tptIn = true) (a_mcIn : A .mcIn = true) (a_fifelIn : A .fifelIn = true) (a_samples : A .samples = true) (a_sampleLost : A .sampleLost = true) (a_clh : A .clh = true) (a_pwr : A .pwr = true) (a_boot : A .boot = true) (a_rotate : A .rotate = true) (a_freeCtr : A .freeCtr = true) (a_nextId : A .nextId = true) (a_out : A .out = true) : Upd A s0 t := by
  unfold execMoverComplete at e
  cases e
  repeat' first
    | with_reducible assumption
    | intro x1
    | (intro x1; clear_value x1)
    | lift_lets
    | with_reducible apply State.mvDone_upd
    | split
    | with_reducible apply Upd.getD
    | dsimp only

theorem execLockboxCommit_upd_eq {A : Fld → Bool} {s0 s : State} {x1 : Writer} {x2 : Fin 128} {t : State} (h : Upd A s0 s) (e : execLockboxCommit x1 x2 s = .next t) (a_regs : A .regs = true) (a_hls : A .hls = true) (a_fns : A .fns = true) (a_movOwn : A .movOwn = true) (a_clhIn : A .clhIn = true) (a_freeCtr : A .freeCtr = true) (a_out : A .out = true) : Upd A s0 t := by
  unfold execLockboxCommit at e
  cases e
  repeat' first
    | with_reducible assumption
    | (intro s1; refine (fun (hs1 : Upd A s0 s1) => ?_) ?_; clear_value s1; rotate_left; subst s1; rotate_left)
    | (intro x1; clear_value x1)
    | intro x1
    | lift_lets
    | with_reducible apply State.raise_upd
    | with_reducible apply State.reaching_upd
    | with_reducible apply State.set_upd
    | with_reducible apply State.setWord_upd
    | with_reducible apply State.unmapped_upd
    | with_reducible apply Upd.fold
    | split
    | dsimp only

theorem execLockboxDrainDone_upd_eq {A : Fld → Bool} {s0 s : State} {x1 : Fin 128} {t : State} (h : Upd A s0 s) (e : execLockboxDrainDone x1 s = .next t) (a_regs : A .regs = true) : Upd A s0 t := by
  unfold execLockboxDrainDone at e
  cases e
  repeat' first
    | with_reducible assumption
    | intro x1
    | (intro x1; clear_value x1)
    | lift_lets
    | with_reducible apply State.set_upd
    | split
    | dsimp only

end Sys2Proof.Machine
end

