-- ==== Sys2Proof/Laws/FrameAcctOps.lean ====
section
/-!
SUPPORT. Laws/FrameAcctOps.lean: which parts of State each operation of Machine/AcctOps.lean may change, and that it keeps the invariant.
-/
namespace Sys2Proof.Machine
set_option linter.unusedTactic false
set_option linter.unreachableTactic false
set_option linter.unusedVariables false

theorem State.cmdRun_upd {A : Fld → Bool} {s0 s : State} (x1 : AcctCmd) (h : Upd A s0 s) (a_regs : A .regs = true) (a_acctCmds : A .acctCmds = true) : Upd A s0 (State.cmdRun s x1) := by
  unfold State.cmdRun
  repeat' first
    | with_reducible assumption
    | (intro s1; refine (fun (hs1 : Upd A s0 s1) => ?_) ?_; clear_value s1; rotate_left; subst s1; rotate_left)
    | lift_lets
    | with_reducible apply State.set_upd
    | split
    | exact { h with acctCmds := .inl a_acctCmds, keeps := fun i => { h.keeps i with } }

theorem State.cmdsEnd_upd {A : Fld → Bool} {s0 s : State} (x1 : ℕ) (x2 : ℕ) (h : Upd A s0 s) (a_regs : A .regs = true) (a_acctCmds : A .acctCmds = true) : Upd A s0 (State.cmdsEnd s x1 x2) := by
  unfold State.cmdsEnd
  repeat' first
    | with_reducible assumption
    | intro x1
    | lift_lets
    | with_reducible apply State.cmdEnd_upd
    | with_reducible apply Upd.fold

theorem State.cmdDone_upd {A : Fld → Bool} {s0 s : State} (x1 : ℕ) (x2 : ℕ) (x3 : ℕ) (h : Upd A s0 s) (a_regs : A .regs = true) (a_acctCmds : A .acctCmds = true) : Upd A s0 (State.cmdDone s x1 x2 x3) := by
  unfold State.cmdDone
  repeat' first
    | with_reducible assumption
    | intro x1
    | lift_lets
    | with_reducible apply State.cmdEnd_upd
    | with_reducible apply Upd.fold

theorem State.fullUpd_upd {A : Fld → Bool} {s0 s : State} (x1 : ℕ) (x2 : ℕ) (h : Upd A s0 s) (a_regs : A .regs = true) : Upd A s0 (State.fullUpd s x1 x2) := by
  unfold State.fullUpd
  repeat' first
    | with_reducible assumption
    | lift_lets
    | with_reducible apply State.set_upd
    | split

theorem State.fetchDrop_upd {A : Fld → Bool} {s0 s : State} (x1 : ℕ) (x2 : ℕ) (h : Upd A s0 s) (a_tags : A .tags = true) : Upd A s0 (State.fetchDrop s x1 x2) := by
  unfold State.fetchDrop
  repeat' first
    | with_reducible assumption
    | lift_lets
    | exact { h with tags := .inl a_tags, keeps := fun i => { h.keeps i with } }

theorem State.ringOff_upd {A : Fld → Bool} {s0 s : State} (x1 : ℕ) (x2 : ℕ) (h : Upd A s0 s) (a_regs : A .regs = true) (a_accts : A .accts = true) (a_tags : A .tags = true) : Upd A s0 (State.ringOff s x1 x2) := by
  unfold State.ringOff
  repeat' first
    | with_reducible assumption
    | (intro s1; refine (fun (hs1 : Upd A s0 s1) => ?_) ?_; clear_value s1; rotate_left; subst s1; rotate_left)
    | lift_lets
    | with_reducible apply State.set_upd
    | with_reducible apply State.fetchDrop_upd
    | with_reducible apply State.modRing_upd
    | split

theorem State.eqOff_upd {A : Fld → Bool} {s0 s : State} (x1 : ℕ) (x2 : ℕ) (h : Upd A s0 s) (a_regs : A .regs = true) : Upd A s0 (State.eqOff s x1 x2) := by
  unfold State.eqOff
  repeat' first
    | with_reducible assumption
    | lift_lets
    | with_reducible apply State.set_upd
    | split

theorem State.ownTreesAbort_upd {A : Fld → Bool} {s0 s : State} (x1 : ℕ) (h : Upd A s0 s) (a_regs : A .regs = true) (a_hls : A .hls = true) (a_fns : A .fns = true) (a_accts : A .accts = true) (a_trees : A .trees = true) (a_orders : A .orders = true) (a_notices : A .notices = true) (a_acctCmds : A .acctCmds = true) (a_tags : A .tags = true) (a_clhIn : A .clhIn = true) (a_qsHere : A .qsHere = true) (a_qsInj : A .qsInj = true) (a_freeCtr : A .freeCtr = true) (a_out : A .out = true) : Upd A s0 (State.ownTreesAbort s x1) := by
  unfold State.ownTreesAbort
  repeat' first
    | with_reducible assumption
    | intro x1
    | lift_lets
    | with_reducible apply State.abortTree_upd
    | with_reducible apply Upd.fold
    | split

theorem State.ctxsPurge_upd {A : Fld → Bool} {s0 s : State} (x1 : ℕ) (h : Upd A s0 s) (a_regs : A .regs = true) (a_hls : A .hls = true) (a_fns : A .fns = true) (a_accts : A .accts = true) (a_ctxs : A .ctxs = true) (a_srcMsgs : A .srcMsgs = true) (a_orders : A .orders = true) (a_aptWaits : A .aptWaits = true) (a_entries : A .entries = true) (a_lmatches : A .lmatches = true) (a_ovfBufs : A .ovfBufs = true) (a_tags : A .tags = true) (a_clhIn : A .clhIn = true) (a_freeCtr : A .freeCtr = true) (a_nextId : A .nextId = true) (a_out : A .out = true) : Upd A s0 (State.ctxsPurge s x1) := by
  unfold State.ctxsPurge
  repeat' first
    | with_reducible assumption
    | (intro s1; refine (fun (hs1 : Upd A s0 s1) => ?_) ?_; clear_value s1; rotate_left; subst s1; rotate_left)
    | intro x1
    | lift_lets
    | with_reducible apply State.set_upd
    | with_reducible apply State.ctxClear_upd
    | with_reducible apply Upd.fold
    | with_reducible apply Upd.to_ovfBufs

theorem State.msgsPurge_upd {A : Fld → Bool} {s0 s : State} (x1 : ℕ) (h : Upd A s0 s) (a_regs : A .regs = true) (a_hls : A .hls = true) (a_fns : A .fns = true) (a_srcMsgs : A .srcMsgs = true) (a_openMsgs : A .openMsgs = true) (a_filter : A .filter = true) (a_aptWaits : A .aptWaits = true) (a_lmatches : A .lmatches = true) (a_clhIn : A .clhIn = true) (a_freeCtr : A .freeCtr = true) (a_out : A .out = true) : Upd A s0 (State.msgsPurge s x1) := by
  unfold State.msgsPurge
  repeat' first
    | with_reducible assumption
    | (intro s1; refine (fun (hs1 : Upd A s0 s1) => ?_) ?_; clear_value s1; rotate_left; subst s1; rotate_left)
    | (intro x1; clear_value x1)
    | intro x1
    | lift_lets
    | with_reducible apply State.aptFault_upd
    | with_reducible apply State.delOpen_upd
    | with_reducible apply State.filterFree_upd
    | with_reducible apply State.tptStat_upd
    | with_reducible apply State.cplErr_upd
    | with_reducible apply Upd.fold
    | split
    | dsimp only
    | with_reducible apply Upd.to_srcMsgs_aptWaits_lmatches

theorem State.ringsPurge_upd {A : Fld → Bool} {s0 s : State} (x1 : ℕ) (h : Upd A s0 s) (a_regs : A .regs = true) (a_accts : A .accts = true) (a_tags : A .tags = true) : Upd A s0 (State.ringsPurge s x1) := by
  unfold State.ringsPurge
  repeat' first
    | with_reducible assumption
    | (intro s1; refine (fun (hs1 : Upd A s0 s1) => ?_) ?_; clear_value s1; rotate_left; subst s1; rotate_left)
    | intro x1
    | lift_lets
    | with_reducible apply State.setWord_upd
    | with_reducible apply State.set_upd
    | with_reducible apply State.eqOff_upd
    | with_reducible apply State.ringOff_upd
    | with_reducible apply Upd.fold

theorem State.acctFresh_upd {A : Fld → Bool} {s0 s : State} (x1 : ℕ) (h : Upd A s0 s) (a_accts : A .accts = true) : Upd A s0 (State.acctFresh s x1) := by
  unfold State.acctFresh
  repeat' first
    | with_reducible assumption
    | lift_lets
    | refine Upd.to_accts _ ?_ (by assumption) (fun _ i => tasc_tput _ _ i.accts)

theorem State.acctPurge_upd {A : Fld → Bool} {s0 s : State} (x1 : ℕ) (h : Upd A s0 s) (a_regs : A .regs = true) (a_ports : A .ports = true) (a_hls : A .hls = true) (a_fns : A .fns = true) (a_accts : A .accts = true) (a_ctxs : A .ctxs = true) (a_trees : A .trees = true) (a_movs : A .movs = true) (a_srcMsgs : A .srcMsgs = true) (a_openMsgs : A .openMsgs = true) (a_filter : A .filter = true) (a_keyCache : A .keyCache = true) (a_rankCache : A .rankCache = true) (a_orders : A .orders = true) (a_aptWaits : A .aptWaits = true) (a_flushes : A .flushes = true) (a_notices : A .notices = true) (a_acctCmds : A .acctCmds = true) (a_entries : A .entries = true) (a_lmatches : A .lmatches = true) (a_ovfBufs : A .ovfBufs = true) (a_tags : A .tags = true) (a_moveWait : A .moveWait = true) (a_clhIn : A .clhIn = true) (a_tptIn : A .tptIn = true) (a_mcIn : A .mcIn = true) (a_fifelIn : A .fifelIn = true) (a_qsHere : A .qsHere = true) (a_qsInj : A .qsInj = true) (a_samples : A .samples = true) (a_sampleLost : A .sampleLost = true) (a_clh : A .clh = true) (a_pwr : A .pwr = true) (a_boot : A .boot = true) (a_rotate : A .rotate = true) (a_freeCtr : A .freeCtr = true) (a_nextId : A .nextId = true) (a_out : A .out = true) : Upd A s0 (State.acctPurge s x1) := by
  unfold State.acctPurge
  repeat' first
    | with_reducible assumption
    | (intro s1; refine (fun (hs1 : Upd A s0 s1) => ?_) ?_; clear_value s1; rotate_left; subst s1; rotate_left)
    | (intro x1; clear_value x1)
    | intro x1
    | lift_lets
    | with_reducible apply State.abortAcct_upd
    | with_reducible apply State.acctFresh_upd
    | with_reducible apply State.activityUpd_upd
    | with_reducible apply State.bumpN_upd
    | with_reducible apply State.ctxsPurge_upd
    | with_reducible apply State.modHl_upd
    | with_reducible apply State.msgsPurge_upd
    | with_reducible apply State.mvAcct_upd
    | with_reducible apply State.orderStat_upd
    | with_reducible apply State.ownTreesAbort_upd
    | with_reducible apply State.ringsPurge_upd
    | with_reducible apply State.serveAll_upd
    | with_reducible apply State.set_upd
    | with_reducible apply State.setWord_upd
    | with_reducible apply Upd.fold
    | split
    | dsimp only
    | with_reducible apply Upd.to_orders_notices
    | refine Upd.to_keyCache_rankCache_flushes_tags _ _ _ _ ?_ (by assumption) (by assumption) (by assumption) (by assumption) (fun _ i => Nat.le_trans (List.length_filter_le ..) i.keyCache) (fun _ i => Nat.le_trans (List.length_filter_le ..) i.rankCache)
    | refine Upd.to_keyCache_rankCache_flushes_tags _ _ _ _ ?_ (by assumption) (by assumption) (by assumption) (by assumption) (fun _ i => Nat.le_trans (List.length_filter_le ..) i.keyCache) (fun _ i => List.length_take_le ..)

theorem State.resetEnd_upd {A : Fld → Bool} {s0 s : State} (x1 : ℕ) (h : Upd A s0 s) (a_regs : A .regs = true) (a_ports : A .ports = true) (a_hls : A .hls = true) (a_fns : A .fns = true) (a_accts : A .accts = true) (a_ctxs : A .ctxs = true) (a_trees : A .trees = true) (a_movs : A .movs = true) (a_srcMsgs : A .srcMsgs = true) (a_openMsgs : A .openMsgs = true) (a_filter : A .filter = true) (a_keyCache : A .keyCache = true) (a_rankCache : A .rankCache = true) (a_orders : A .orders = true) (a_aptWaits : A .aptWaits = true) (a_flushes : A .flushes = true) (a_notices : A .notices = true) (a_acctCmds : A .acctCmds = true) (a_entries : A .entries = true) (a_lmatches : A .lmatches = true) (a_ovfBufs : A .ovfBufs = true) (a_tags : A .tags = true) (a_moveWait : A .moveWait = true) (a_clhIn : A .clhIn = true) (a_tptIn : A .tptIn = true) (a_mcIn : A .mcIn = true) (a_fifelIn : A .fifelIn = true) (a_qsHere : A .qsHere = true) (a_qsInj : A .qsInj = true) (a_samples : A .samples = true) (a_sampleLost : A .sampleLost = true) (a_clh : A .clh = true) (a_pwr : A .pwr = true) (a_boot : A .boot = true) (a_rotate : A .rotate = true) (a_freeCtr : A .freeCtr = true) (a_nextId : A .nextId = true) (a_out : A .out = true) : Upd A s0 (State.resetEnd s x1) := by
  unfold State.resetEnd
  repeat' first
    | with_reducible assumption
    | (intro s1; refine (fun (hs1 : Upd A s0 s1) => ?_) ?_; clear_value s1; rotate_left; subst s1; rotate_left)
    | lift_lets
    | with_reducible apply State.cmdsEnd_upd
    | with_reducible apply State.set_upd
    | with_reducible apply State.acctPurge_upd

theorem State.acctReset_upd {A : Fld → Bool} {s0 s : State} (x1 : ℕ) (x2 : Bool) (h : Upd A s0 s) (a_regs : A .regs = true) (a_ports : A .ports = true) (a_hls : A .hls = true) (a_fns : A .fns = true) (a_accts : A .accts = true) (a_ctxs : A .ctxs = true) (a_trees : A .trees = true) (a_movs : A .movs = true) (a_srcMsgs : A .srcMsgs = true) (a_openMsgs : A .openMsgs = true) (a_filter : A .filter = true) (a_keyCache : A .keyCache = true) (a_rankCache : A .rankCache = true) (a_orders : A .orders = true) (a_aptWaits : A .aptWaits = true) (a_flushes : A .flushes = true) (a_notices : A .notices = true) (a_acctCmds : A .acctCmds = true) (a_entries : A .entries = true) (a_lmatches : A .lmatches = true) (a_ovfBufs : A .ovfBufs = true) (a_tags : A .tags = true) (a_moveWait : A .moveWait = true) (a_clhIn : A .clhIn = true) (a_tptIn : A .tptIn = true) (a_mcIn : A .mcIn = true) (a_fifelIn : A .fifelIn = true) (a_qsHere : A .qsHere = true) (a_qsInj : A .qsInj = true) (a_samples : A .samples = true) (a_sampleLost : A .sampleLost = true) (a_clh : A .clh = true) (a_pwr : A .pwr = true) (a_boot : A .boot = true) (a_rotate : A .rotate = true) (a_freeCtr : A .freeCtr = true) (a_nextId : A .nextId = true) (a_out : A .out = true) : Upd A s0 (State.acctReset s x1 x2) := by
  unfold State.acctReset
  repeat' first
    | with_reducible assumption
    | (intro s1; refine (fun (hs1 : Upd A s0 s1) => ?_) ?_; clear_value s1; rotate_left; subst s1; rotate_left)
    | lift_lets
    | with_reducible apply State.resetEnd_upd
    | with_reducible apply State.resetting_upd
    | with_reducible apply State.modAcct_upd
    | split

theorem State.drainEnd_upd {A : Fld → Bool} {s0 s : State} (x1 : ℕ) (h : Upd A s0 s) (a_regs : A .regs = true) (a_ports : A .ports = true) (a_hls : A .hls = true) (a_fns : A .fns = true) (a_accts : A .accts = true) (a_ctxs : A .ctxs = true) (a_trees : A .trees = true) (a_movs : A .movs = true) (a_srcMsgs : A .srcMsgs = true) (a_openMsgs : A .openMsgs = true) (a_filter : A .filter = true) (a_keyCache : A .keyCache = true) (a_rankCache : A .rankCache = true) (a_orders : A .orders = true) (a_aptWaits : A .aptWaits = true) (a_flushes : A .flushes = true) (a_notices : A .notices = true) (a_acctCmds : A .acctCmds = true) (a_entries : A .entries = true) (a_lmatches : A .lmatches = true) (a_ovfBufs : A .ovfBufs = true) (a_tags : A .tags = true) (a_moveWait : A .moveWait = true) (a_clhIn : A .clhIn = true) (a_tptIn : A .tptIn = true) (a_mcIn : A .mcIn = true) (a_fifelIn : A .fifelIn = true) (a_qsHere : A .qsHere = true) (a_qsInj : A .qsInj = true) (a_samples : A .samples = true) (a_sampleLost : A .sampleLost = true) (a_clh : A .clh = true) (a_pwr : A .pwr = true) (a_boot : A .boot = true) (a_rotate : A .rotate = true) (a_freeCtr : A .freeCtr = true) (a_nextId : A .nextId = true) (a_out : A .out = true) : Upd A s0 (State.drainEnd s x1) := by
  unfold State.drainEnd
  repeat' first
    | with_reducible assumption
    | lift_lets
    | with_reducible apply State.resetEnd_upd
    | with_reducible apply State.genUp_upd
    | split

theorem State.bindAcct_upd {A : Fld → Bool} {s0 s : State} (x1 : ℕ) (x2 : Option ℕ) (h : Upd A s0 s) (a_regs : A .regs = true) (a_accts : A .accts = true) : Upd A s0 (State.bindAcct s x1 x2).2 := by
  unfold State.bindAcct
  repeat' first
    | with_reducible assumption
    | lift_lets
    | with_reducible apply State.genUp_upd
    | with_reducible apply State.set_upd
    | with_reducible apply State.acctFresh_upd
    | split

theorem State.fencesBound_upd {A : Fld → Bool} {s0 s : State} (x1 : ℕ) (h : Upd A s0 s) (a_regs : A .regs = true) (a_hls : A .hls = true) (a_fns : A .fns = true) (a_accts : A .accts = true) (a_orders : A .orders = true) (a_tags : A .tags = true) (a_clhIn : A .clhIn = true) (a_freeCtr : A .freeCtr = true) (a_out : A .out = true) : Upd A s0 (State.fencesBound s x1) := by
  unfold State.fencesBound
  repeat' first
    | with_reducible assumption
    | intro x1
    | lift_lets
    | with_reducible apply State.complete_upd
    | with_reducible apply State.modRing_upd
    | with_reducible apply Upd.fold
    | split

theorem State.freezeBound_upd {A : Fld → Bool} {s0 s : State} (x1 : ℕ) (h : Upd A s0 s) (a_regs : A .regs = true) (a_ports : A .ports = true) (a_hls : A .hls = true) (a_fns : A .fns = true) (a_accts : A .accts = true) (a_ctxs : A .ctxs = true) (a_trees : A .trees = true) (a_movs : A .movs = true) (a_srcMsgs : A .srcMsgs = true) (a_orders : A .orders = true) (a_aptWaits : A .aptWaits = true) (a_flushes : A .flushes = true) (a_notices : A .notices = true) (a_acctCmds : A .acctCmds = true) (a_entries : A .entries = true) (a_lmatches : A .lmatches = true) (a_ovfBufs : A .ovfBufs = true) (a_tags : A .tags = true) (a_moveWait : A .moveWait = true) (a_clhIn : A .clhIn = true) (a_tptIn : A .tptIn = true) (a_mcIn : A .mcIn = true) (a_fifelIn : A .fifelIn = true) (a_qsHere : A .qsHere = true) (a_qsInj : A .qsInj = true) (a_samples : A .samples = true) (a_sampleLost : A .sampleLost = true) (a_clh : A .clh = true) (a_pwr : A .pwr = true) (a_boot : A .boot = true) (a_rotate : A .rotate = true) (a_freeCtr : A .freeCtr = true) (a_nextId : A .nextId = true) (a_out : A .out = true) : Upd A s0 (State.freezeBound s x1) := by
  unfold State.freezeBound
  repeat' first
    | with_reducible assumption
    | (intro s1; refine (fun (hs1 : Upd A s0 s1) => ?_) ?_; clear_value s1; rotate_left; subst s1; rotate_left)
    | (intro x1; clear_value x1)
    | intro x1
    | lift_lets
    | with_reducible apply State.abortTree_upd
    | with_reducible apply State.activityUpd_upd
    | with_reducible apply State.delMatch_upd
    | with_reducible apply State.fencesBound_upd
    | with_reducible apply State.matchDone_upd
    | with_reducible apply State.modMatch_upd
    | with_reducible apply State.msgFail_upd
    | with_reducible apply State.mvAcct_upd
    | with_reducible apply State.ovfRelease_upd
    | with_reducible apply State.serveAll_upd
    | with_reducible apply Upd.fold
    | split
    | dsimp only

theorem State.spillAll_upd {A : Fld → Bool} {s0 s : State} (x1 : ℕ) (h : Upd A s0 s) (a_regs : A .regs = true) (a_hls : A .hls = true) (a_fns : A .fns = true) (a_accts : A .accts = true) (a_ctxs : A .ctxs = true) (a_notices : A .notices = true) (a_acctCmds : A .acctCmds = true) (a_entries : A .entries = true) (a_tags : A .tags = true) (a_clhIn : A .clhIn = true) (a_clh : A .clh = true) (a_freeCtr : A .freeCtr = true) (a_out : A .out = true) : Upd A s0 (State.spillAll s x1) := by
  unfold State.spillAll
  repeat' first
    | with_reducible assumption
    | (intro s1; refine (fun (hs1 : Upd A s0 s1) => ?_) ?_; clear_value s1; rotate_left; subst s1; rotate_left)
    | (intro x1; clear_value x1)
    | intro x1
    | lift_lets
    | with_reducible apply State.bump_upd
    | with_reducible apply State.ordBack_upd
    | with_reducible apply State.setCtxSt_upd
    | with_reducible apply State.spillDone_upd
    | with_reducible apply State.spillFull_upd
    | with_reducible apply Upd.fold
    | split
    | dsimp only

end Sys2Proof.Machine
end

