-- ==== Sys2Proof/Laws/FrameAccounts.lean ====
section
/-!
SUPPORT. Laws/FrameAccounts.lean: which parts of State each operation of Machine/Accounts.lean may change, and that it keeps the invariant.
-/
namespace Sys2Proof.Machine
set_option linter.unusedTactic false
set_option linter.unreachableTactic false
set_option linter.unusedVariables false

theorem State.doorbell_upd {A : Fld → Bool} {s0 s : State} (x1 : ℕ) (x2 : (State → State)) (h : Upd A s0 s) (f2 : ∀ v0, Upd A s0 v0 → Upd A s0 (x2 v0)) (a_regs : A .regs = true) (a_hls : A .hls = true) (a_fns : A .fns = true) (a_clhIn : A .clhIn = true) (a_freeCtr : A .freeCtr = true) (a_out : A .out = true) : Upd A s0 (State.doorbell s x1 x2) := by
  unfold State.doorbell
  repeat' first
    | with_reducible assumption
    | intro x1
    | lift_lets
    | with_reducible apply State.bump_upd
    | with_reducible apply State.raise_upd
    | with_reducible apply State.memUr_upd
    | with_reducible apply f2
    | split
    | dsimp only

theorem execDoorbellWrite_upd_eq {A : Fld → Bool} {s0 s : State} {x1 : AcctNo} {x2 : Fin 64} {x3 : BitVec 64} {t : State} (h : Upd A s0 s) (e : execDoorbellWrite x1 x2 x3 s = .next t) (a_regs : A .regs = true) (a_ports : A .ports = true) (a_hls : A .hls = true) (a_fns : A .fns = true) (a_accts : A .accts = true) (a_notices : A .notices = true) (a_acctCmds : A .acctCmds = true) (a_tags : A .tags = true) (a_clhIn : A .clhIn = true) (a_tptIn : A .tptIn = true) (a_mcIn : A .mcIn = true) (a_fifelIn : A .fifelIn = true) (a_samples : A .samples = true) (a_sampleLost : A .sampleLost = true) (a_clh : A .clh = true) (a_pwr : A .pwr = true) (a_boot : A .boot = true) (a_rotate : A .rotate = true) (a_freeCtr : A .freeCtr = true) (a_nextId : A .nextId = true) (a_out : A .out = true) : Upd A s0 t := by
  unfold execDoorbellWrite at e
  cases e
  repeat' first
    | with_reducible assumption
    | intro x1
    | lift_lets
    | with_reducible apply State.bump_upd
    | with_reducible apply State.doorbell_upd
    | with_reducible apply State.set_upd
    | with_reducible apply State.activityUpd_upd
    | with_reducible apply State.ringFetch_upd
    | split

theorem execInlinePush_upd_eq {A : Fld → Bool} {s0 s : State} {x1 : AcctNo} {x2 : BitVec 512} {t : State} (h : Upd A s0 s) (e : execInlinePush x1 x2 s = .next t) (a_regs : A .regs = true) (a_ports : A .ports = true) (a_hls : A .hls = true) (a_fns : A .fns = true) (a_accts : A .accts = true) (a_orders : A .orders = true) (a_notices : A .notices = true) (a_acctCmds : A .acctCmds = true) (a_tags : A .tags = true) (a_clhIn : A .clhIn = true) (a_tptIn : A .tptIn = true) (a_mcIn : A .mcIn = true) (a_fifelIn : A .fifelIn = true) (a_samples : A .samples = true) (a_sampleLost : A .sampleLost = true) (a_clh : A .clh = true) (a_pwr : A .pwr = true) (a_boot : A .boot = true) (a_rotate : A .rotate = true) (a_freeCtr : A .freeCtr = true) (a_nextId : A .nextId = true) (a_out : A .out = true) : Upd A s0 t := by
  unfold execInlinePush at e
  cases e
  repeat' first
    | with_reducible assumption
    | (intro s1; refine (fun (hs1 : Upd A s0 s1) => ?_) ?_; clear_value s1; rotate_left; subst s1; rotate_left)
    | intro x1
    | lift_lets
    | with_reducible apply State.bump_upd
    | with_reducible apply State.doorbell_upd
    | with_reducible apply State.set_upd
    | with_reducible apply State.activityUpd_upd
    | with_reducible apply State.ringFetch_upd
    | with_reducible apply State.modRing_upd
    | with_reducible apply State.badHeads_upd
    | split

theorem execEqConsumerDoorbell_upd_eq {A : Fld → Bool} {s0 s : State} {x1 : AcctNo} {x2 : Fin 64} {x3 : BitVec 64} {t : State} (h : Upd A s0 s) (e : execEqConsumerDoorbell x1 x2 x3 s = .next t) (a_regs : A .regs = true) (a_hls : A .hls = true) (a_fns : A .fns = true) (a_clhIn : A .clhIn = true) (a_freeCtr : A .freeCtr = true) (a_out : A .out = true) : Upd A s0 t := by
  unfold execEqConsumerDoorbell at e
  cases e
  repeat' first
    | with_reducible assumption
    | (intro s1; refine (fun (hs1 : Upd A s0 s1) => ?_) ?_; clear_value s1; rotate_left; subst s1; rotate_left)
    | intro x1
    | lift_lets
    | with_reducible apply State.fullUpd_upd
    | with_reducible apply State.bump_upd
    | with_reducible apply State.doorbell_upd
    | with_reducible apply State.set_upd
    | with_reducible apply State.msix_upd
    | split

theorem execRingEnable_upd_eq {A : Fld → Bool} {s0 s : State} {x1 : AcctNo} {x2 : Fin 64} {t : State} (h : Upd A s0 s) (e : execRingEnable x1 x2 s = .next t) (a_regs : A .regs = true) (a_ports : A .ports = true) (a_hls : A .hls = true) (a_fns : A .fns = true) (a_accts : A .accts = true) (a_notices : A .notices = true) (a_acctCmds : A .acctCmds = true) (a_tags : A .tags = true) (a_clhIn : A .clhIn = true) (a_tptIn : A .tptIn = true) (a_mcIn : A .mcIn = true) (a_fifelIn : A .fifelIn = true) (a_samples : A .samples = true) (a_sampleLost : A .sampleLost = true) (a_clh : A .clh = true) (a_pwr : A .pwr = true) (a_boot : A .boot = true) (a_rotate : A .rotate = true) (a_freeCtr : A .freeCtr = true) (a_nextId : A .nextId = true) (a_out : A .out = true) : Upd A s0 t := by
  unfold execRingEnable at e
  cases e
  repeat' first
    | with_reducible assumption
    | (intro s1; refine (fun (hs1 : Upd A s0 s1) => ?_) ?_; clear_value s1; rotate_left; subst s1; rotate_left)
    | lift_lets
    | with_reducible apply State.set_upd
    | with_reducible apply State.activityUpd_upd
    | with_reducible apply State.ringFetch_upd
    | with_reducible apply State.modRing_upd
    | split

theorem execRingDisable_upd_eq {A : Fld → Bool} {s0 s : State} {x1 : AcctNo} {x2 : Fin 64} {t : State} (h : Upd A s0 s) (e : execRingDisable x1 x2 s = .next t) (a_regs : A .regs = true) (a_ports : A .ports = true) (a_hls : A .hls = true) (a_fns : A .fns = true) (a_accts : A .accts = true) (a_tags : A .tags = true) (a_clhIn : A .clhIn = true) (a_tptIn : A .tptIn = true) (a_mcIn : A .mcIn = true) (a_fifelIn : A .fifelIn = true) (a_samples : A .samples = true) (a_sampleLost : A .sampleLost = true) (a_clh : A .clh = true) (a_pwr : A .pwr = true) (a_boot : A .boot = true) (a_rotate : A .rotate = true) (a_freeCtr : A .freeCtr = true) (a_nextId : A .nextId = true) (a_out : A .out = true) : Upd A s0 t := by
  unfold execRingDisable at e
  cases e
  repeat' first
    | with_reducible assumption
    | lift_lets
    | with_reducible apply State.activityUpd_upd
    | with_reducible apply State.ringOff_upd
    | split

theorem execEqEnable_upd_eq {A : Fld → Bool} {s0 s : State} {x1 : AcctNo} {x2 : Fin 64} {t : State} (h : Upd A s0 s) (e : execEqEnable x1 x2 s = .next t) (a_regs : A .regs = true) : Upd A s0 t := by
  unfold execEqEnable at e
  cases e
  repeat' first
    | with_reducible assumption
    | lift_lets
    | with_reducible apply State.set_upd
    | split

theorem execEqDisable_upd_eq {A : Fld → Bool} {s0 s : State} {x1 : AcctNo} {x2 : Fin 64} {t : State} (h : Upd A s0 s) (e : execEqDisable x1 x2 s = .next t) (a_regs : A .regs = true) : Upd A s0 t := by
  unfold execEqDisable at e
  cases e
  repeat' first
    | with_reducible assumption
    | lift_lets
    | with_reducible apply State.set_upd
    | with_reducible apply State.eqOff_upd
    | split

theorem State.fetchDone_upd {A : Fld → Bool} {s0 s : State} (x1 : ℕ) (x2 : ℕ) (x3 : FetchResult) (h : Upd A s0 s) (a_regs : A .regs = true) (a_ports : A .ports = true) (a_hls : A .hls = true) (a_fns : A .fns = true) (a_accts : A .accts = true) (a_orders : A .orders = true) (a_notices : A .notices = true) (a_acctCmds : A .acctCmds = true) (a_tags : A .tags = true) (a_clhIn : A .clhIn = true) (a_tptIn : A .tptIn = true) (a_mcIn : A .mcIn = true) (a_fifelIn : A .fifelIn = true) (a_samples : A .samples = true) (a_sampleLost : A .sampleLost = true) (a_clh : A .clh = true) (a_pwr : A .pwr = true) (a_boot : A .boot = true) (a_rotate : A .rotate = true) (a_freeCtr : A .freeCtr = true) (a_nextId : A .nextId = true) (a_out : A .out = true) : Upd A s0 (State.fetchDone s x1 x2 x3) := by
  unfold State.fetchDone
  repeat' first
    | with_reducible assumption
    | (intro s1; refine (fun (hs1 : Upd A s0 s1) => ?_) ?_; clear_value s1; rotate_left; subst s1; rotate_left)
    | (intro x1; clear_value x1)
    | lift_lets
    | with_reducible apply State.bump_upd
    | with_reducible apply State.activityUpd_upd
    | with_reducible apply State.freeTag_upd
    | with_reducible apply State.after_upd
    | with_reducible apply State.ringStop_upd
    | with_reducible apply State.modRing_upd
    | split

theorem execDescriptorFetchComplete_upd_eq {A : Fld → Bool} {s0 s : State} {x1 : AcctNo} {x2 : Fin 64} {x3 : FetchResult} {t : State} (h : Upd A s0 s) (e : execDescriptorFetchComplete x1 x2 x3 s = .next t) (a_regs : A .regs = true) (a_ports : A .ports = true) (a_hls : A .hls = true) (a_fns : A .fns = true) (a_accts : A .accts = true) (a_orders : A .orders = true) (a_notices : A .notices = true) (a_acctCmds : A .acctCmds = true) (a_tags : A .tags = true) (a_clhIn : A .clhIn = true) (a_tptIn : A .tptIn = true) (a_mcIn : A .mcIn = true) (a_fifelIn : A .fifelIn = true) (a_samples : A .samples = true) (a_sampleLost : A .sampleLost = true) (a_clh : A .clh = true) (a_pwr : A .pwr = true) (a_boot : A .boot = true) (a_rotate : A .rotate = true) (a_freeCtr : A .freeCtr = true) (a_nextId : A .nextId = true) (a_out : A .out = true) : Upd A s0 t := by
  unfold execDescriptorFetchComplete at e
  cases e
  repeat' first
    | with_reducible assumption
    | lift_lets
    | with_reducible apply State.fetchDone_upd

theorem execNop_upd_eq {A : Fld → Bool} {s0 s : State} {x1 : AcctNo} {x2 : Source} {t : State} (h : Upd A s0 s) (e : execNop x1 x2 s = .next t) (a_regs : A .regs = true) (a_ports : A .ports = true) (a_hls : A .hls = true) (a_fns : A .fns = true) (a_accts : A .accts = true) (a_orders : A .orders = true) (a_notices : A .notices = true) (a_acctCmds : A .acctCmds = true) (a_tags : A .tags = true) (a_clhIn : A .clhIn = true) (a_tptIn : A .tptIn = true) (a_mcIn : A .mcIn = true) (a_fifelIn : A .fifelIn = true) (a_samples : A .samples = true) (a_sampleLost : A .sampleLost = true) (a_clh : A .clh = true) (a_pwr : A .pwr = true) (a_boot : A .boot = true) (a_rotate : A .rotate = true) (a_freeCtr : A .freeCtr = true) (a_nextId : A .nextId = true) (a_out : A .out = true) : Upd A s0 t := by
  unfold execNop at e
  cases e
  repeat' first
    | with_reducible assumption
    | intro x1
    | lift_lets
    | with_reducible apply State.complete_upd
    | with_reducible apply State.withDesc_upd

theorem execFence_upd_eq {A : Fld → Bool} {s0 s : State} {x1 : AcctNo} {x2 : Source} {t : State} (h : Upd A s0 s) (e : execFence x1 x2 s = .next t) (a_regs : A .regs = true) (a_ports : A .ports = true) (a_hls : A .hls = true) (a_fns : A .fns = true) (a_accts : A .accts = true) (a_orders : A .orders = true) (a_notices : A .notices = true) (a_acctCmds : A .acctCmds = true) (a_tags : A .tags = true) (a_clhIn : A .clhIn = true) (a_tptIn : A .tptIn = true) (a_mcIn : A .mcIn = true) (a_fifelIn : A .fifelIn = true) (a_samples : A .samples = true) (a_sampleLost : A .sampleLost = true) (a_clh : A .clh = true) (a_pwr : A .pwr = true) (a_boot : A .boot = true) (a_rotate : A .rotate = true) (a_freeCtr : A .freeCtr = true) (a_nextId : A .nextId = true) (a_out : A .out = true) : Upd A s0 t := by
  unfold execFence at e
  cases e
  repeat' first
    | with_reducible assumption
    | intro x1
    | lift_lets
    | with_reducible apply State.fenceSweep_upd
    | with_reducible apply State.withDesc_upd
    | with_reducible apply State.modRing_upd

theorem State.drrStart_upd {A : Fld → Bool} {s0 s : State} (x1 : ℕ) (h : Upd A s0 s) (a_regs : A .regs = true) (a_hls : A .hls = true) (a_fns : A .fns = true) (a_accts : A .accts = true) (a_orders : A .orders = true) (a_out : A .out = true) : Upd A s0 (State.drrStart s x1) := by
  unfold State.drrStart
  repeat' first
    | with_reducible assumption
    | (intro s1; refine (fun (hs1 : Upd A s0 s1) => ?_) ?_; clear_value s1; rotate_left; subst s1; rotate_left)
    | intro x1
    | lift_lets
    | with_reducible apply State.modHl_upd
    | with_reducible apply State.fireWhere_upd
    | with_reducible apply State.modAcct_upd
    | with_reducible apply Upd.fold
    | split

theorem State.starvedGo_upd {A : Fld → Bool} {s0 s : State} (x1 : ℕ) (h : Upd A s0 s) (a_regs : A .regs = true) (a_ports : A .ports = true) (a_hls : A .hls = true) (a_fns : A .fns = true) (a_accts : A .accts = true) (a_trees : A .trees = true) (a_orders : A .orders = true) (a_notices : A .notices = true) (a_acctCmds : A .acctCmds = true) (a_tags : A .tags = true) (a_clhIn : A .clhIn = true) (a_tptIn : A .tptIn = true) (a_mcIn : A .mcIn = true) (a_fifelIn : A .fifelIn = true) (a_qsHere : A .qsHere = true) (a_qsInj : A .qsInj = true) (a_samples : A .samples = true) (a_sampleLost : A .sampleLost = true) (a_clh : A .clh = true) (a_rotate : A .rotate = true) (a_freeCtr : A .freeCtr = true) (a_nextId : A .nextId = true) (a_out : A .out = true) : Upd A s0 (State.starvedGo s x1) := by
  unfold State.starvedGo
  repeat' first
    | with_reducible assumption
    | intro x1
    | lift_lets
    | with_reducible apply State.alyGo_upd
    | with_reducible apply Upd.fold
    | split
    | dsimp only

theorem execAllowanceTurn_upd_eq {A : Fld → Bool} {s0 s : State} {x1 : HostLink} {x2 : AcctNo} {t : State} (h : Upd A s0 s) (e : execAllowanceTurn x1 x2 s = .next t) (a_regs : A .regs = true) (a_ports : A .ports = true) (a_hls : A .hls = true) (a_fns : A .fns = true) (a_accts : A .accts = true) (a_trees : A .trees = true) (a_orders : A .orders = true) (a_notices : A .notices = true) (a_acctCmds : A .acctCmds = true) (a_tags : A .tags = true) (a_clhIn : A .clhIn = true) (a_tptIn : A .tptIn = true) (a_mcIn : A .mcIn = true) (a_fifelIn : A .fifelIn = true) (a_qsHere : A .qsHere = true) (a_qsInj : A .qsInj = true) (a_samples : A .samples = true) (a_sampleLost : A .sampleLost = true) (a_clh : A .clh = true) (a_rotate : A .rotate = true) (a_freeCtr : A .freeCtr = true) (a_nextId : A .nextId = true) (a_out : A .out = true) : Upd A s0 t := by
  unfold execAllowanceTurn at e
  cases e
  repeat' first
    | with_reducible assumption
    | intro x1
    | (intro s1; refine (fun (hs1 : Upd A s0 s1) => ?_) ?_; clear_value s1; rotate_left; subst s1; rotate_left)
    | lift_lets
    | with_reducible apply State.modHl_upd
    | with_reducible apply State.modAcct_upd
    | with_reducible apply State.drrStart_upd
    | with_reducible apply State.idleZero_upd
    | with_reducible apply State.starvedGo_upd
    | split
    | dsimp only

theorem execNoticeWrite_upd_eq {A : Fld → Bool} {s0 s : State} {x1 : AcctNo} {t : State} (h : Upd A s0 s) (e : execNoticeWrite x1 s = .next t) (a_regs : A .regs = true) (a_hls : A .hls = true) (a_fns : A .fns = true) (a_accts : A .accts = true) (a_notices : A .notices = true) (a_tags : A .tags = true) (a_clhIn : A .clhIn = true) (a_freeCtr : A .freeCtr = true) (a_out : A .out = true) : Upd A s0 t := by
  unfold execNoticeWrite at e
  cases e
  repeat' first
    | with_reducible assumption
    | lift_lets
    | with_reducible apply State.fullUpd_upd
    | with_reducible apply State.noticeWrite_upd
    | split
    | exact { h with notices := .inl a_notices, keeps := fun i => { h.keeps i with } }

theorem State.accCmd_upd {A : Fld → Bool} {s0 s : State} (x1 : Word) (x2 : ℕ) (x3 : (State → AcctCmd → State)) (h : Upd A s0 s) (f3 : ∀ v0 v1, Upd A s0 v0 → Upd A s0 (x3 v0 v1)) (a_regs : A .regs = true) : Upd A s0 (State.accCmd s x1 x2 x3) := by
  unfold State.accCmd
  repeat' first
    | with_reducible assumption
    | (intro s1; refine (fun (hs1 : Upd A s0 s1) => ?_) ?_; clear_value s1; rotate_left; subst s1; rotate_left)
    | (intro x1; clear_value x1)
    | lift_lets
    | with_reducible apply State.set_upd
    | with_reducible apply f3
    | split

theorem State.sliceCmd_upd {A : Fld → Bool} {s0 s : State} (x1 : ℕ) (x2 : Word) (x3 : ℕ) (x4 : (State → AcctCmd → State)) (h : Upd A s0 s) (f4 : ∀ v0 v1, Upd A s0 v0 → Upd A s0 (x4 v0 v1)) (a_regs : A .regs = true) (a_fns : A .fns = true) (a_acctCmds : A .acctCmds = true) (a_freeCtr : A .freeCtr = true) (a_out : A .out = true) : Upd A s0 (State.sliceCmd s x1 x2 x3 x4) := by
  unfold State.sliceCmd
  repeat' first
    | with_reducible assumption
    | intro x1
    | (intro s1; refine (fun (hs1 : Upd A s0 s1) => ?_) ?_; clear_value s1; rotate_left; subst s1; rotate_left)
    | (intro x1; clear_value x1)
    | lift_lets
    | with_reducible apply State.set_upd
    | with_reducible apply State.cmdEnd_upd
    | with_reducible apply State.memUr_upd
    | with_reducible apply f4
    | split
    | dsimp only

theorem State.cmdBind_upd {A : Fld → Bool} {s0 s : State} (x1 : AcctCmd) (h : Upd A s0 s) (a_regs : A .regs = true) (a_accts : A .accts = true) (a_acctCmds : A .acctCmds = true) : Upd A s0 (State.cmdBind s x1) := by
  unfold State.cmdBind
  repeat' first
    | with_reducible assumption
    | lift_lets
    | with_reducible apply State.cmdEnd_upd
    | with_reducible apply State.bindAcct_upd
    | with_reducible refine Upd.ofSnd (by assumption) ?_

theorem State.cmdReset_upd {A : Fld → Bool} {s0 s : State} (x1 : AcctCmd) (x2 : Bool) (h : Upd A s0 s) (a_regs : A .regs = true) (a_ports : A .ports = true) (a_hls : A .hls = true) (a_fns : A .fns = true) (a_accts : A .accts = true) (a_ctxs : A .ctxs = true) (a_trees : A .trees = true) (a_movs : A .movs = true) (a_srcMsgs : A .srcMsgs = true) (a_openMsgs : A .openMsgs = true) (a_filter : A .filter = true) (a_keyCache : A .keyCache = true) (a_rankCache : A .rankCache = true) (a_orders : A .orders = true) (a_aptWaits : A .aptWaits = true) (a_flushes : A .flushes = true) (a_notices : A .notices = true) (a_acctCmds : A .acctCmds = true) (a_entries : A .entries = true) (a_lmatches : A .lmatches = true) (a_ovfBufs : A .ovfBufs = true) (a_tags : A .tags = true) (a_moveWait : A .moveWait = true) (a_clhIn : A .clhIn = true) (a_tptIn : A .tptIn = true) (a_mcIn : A .mcIn = true) (a_fifelIn : A .fifelIn = true) (a_qsHere : A .qsHere = true) (a_qsInj : A .qsInj = true) (a_samples : A .samples = true) (a_sampleLost : A .sampleLost = true) (a_clh : A .clh = true) (a_pwr : A .pwr = true) (a_boot : A .boot = true) (a_rotate : A .rotate = true) (a_freeCtr : A .freeCtr = true) (a_nextId : A .nextId = true) (a_out : A .out = true) : Upd A s0 (State.cmdReset s x1 x2) := by
  unfold State.cmdReset
  repeat' first
    | with_reducible assumption
    | lift_lets
    | with_reducible apply State.cmdRun_upd
    | with_reducible apply State.acctReset_upd
    | with_reducible apply State.cmdsEnd_upd
    | with_reducible apply State.cmdEnd_upd
    | split

theorem State.freezeAcct_upd {A : Fld → Bool} {s0 s : State} (x1 : ℕ) (h : Upd A s0 s) (a_regs : A .regs = true) (a_ports : A .ports = true) (a_hls : A .hls = true) (a_fns : A .fns = true) (a_accts : A .accts = true) (a_ctxs : A .ctxs = true) (a_trees : A .trees = true) (a_movs : A .movs = true) (a_srcMsgs : A .srcMsgs = true) (a_orders : A .orders = true) (a_aptWaits : A .aptWaits = true) (a_flushes : A .flushes = true) (a_notices : A .notices = true) (a_acctCmds : A .acctCmds = true) (a_entries : A .entries = true) (a_lmatches : A .lmatches = true) (a_ovfBufs : A .ovfBufs = true) (a_tags : A .tags = true) (a_moveWait : A .moveWait = true) (a_clhIn : A .clhIn = true) (a_tptIn : A .tptIn = true) (a_mcIn : A .mcIn = true) (a_fifelIn : A .fifelIn = true) (a_qsHere : A .qsHere = true) (a_qsInj : A .qsInj = true) (a_samples : A .samples = true) (a_sampleLost : A .sampleLost = true) (a_clh : A .clh = true) (a_pwr : A .pwr = true) (a_boot : A .boot = true) (a_rotate : A .rotate = true) (a_freeCtr : A .freeCtr = true) (a_nextId : A .nextId = true) (a_out : A .out = true) : Upd A s0 (State.freezeAcct s x1) := by
  unfold State.freezeAcct
  repeat' first
    | with_reducible assumption
    | (intro s1; refine (fun (hs1 : Upd A s0 s1) => ?_) ?_; clear_value s1; rotate_left; subst s1; rotate_left)
    | lift_lets
    | with_reducible apply State.set_upd
    | with_reducible apply State.freezeBound_upd
    | with_reducible apply State.modAcct_upd
    | split

theorem State.cmdFreeze_upd {A : Fld → Bool} {s0 s : State} (x1 : AcctCmd) (h : Upd A s0 s) (a_regs : A .regs = true) (a_ports : A .ports = true) (a_hls : A .hls = true) (a_fns : A .fns = true) (a_accts : A .accts = true) (a_ctxs : A .ctxs = true) (a_trees : A .trees = true) (a_movs : A .movs = true) (a_srcMsgs : A .srcMsgs = true) (a_orders : A .orders = true) (a_aptWaits : A .aptWaits = true) (a_flushes : A .flushes = true) (a_notices : A .notices = true) (a_acctCmds : A .acctCmds = true) (a_entries : A .entries = true) (a_lmatches : A .lmatches = true) (a_ovfBufs : A .ovfBufs = true) (a_tags : A .tags = true) (a_moveWait : A .moveWait = true) (a_clhIn : A .clhIn = true) (a_tptIn : A .tptIn = true) (a_mcIn : A .mcIn = true) (a_fifelIn : A .fifelIn = true) (a_qsHere : A .qsHere = true) (a_qsInj : A .qsInj = true) (a_samples : A .samples = true) (a_sampleLost : A .sampleLost = true) (a_clh : A .clh = true) (a_pwr : A .pwr = true) (a_boot : A .boot = true) (a_rotate : A .rotate = true) (a_freeCtr : A .freeCtr = true) (a_nextId : A .nextId = true) (a_out : A .out = true) : Upd A s0 (State.cmdFreeze s x1) := by
  unfold State.cmdFreeze
  repeat' first
    | with_reducible assumption
    | lift_lets
    | with_reducible apply State.cmdRun_upd
    | with_reducible apply State.cmdEnd_upd
    | with_reducible apply State.freezeAcct_upd
    | split

theorem State.cmdThaw_upd {A : Fld → Bool} {s0 s : State} (x1 : AcctCmd) (h : Upd A s0 s) (a_regs : A .regs = true) (a_ports : A .ports = true) (a_hls : A .hls = true) (a_fns : A .fns = true) (a_accts : A .accts = true) (a_orders : A .orders = true) (a_notices : A .notices = true) (a_acctCmds : A .acctCmds = true) (a_tags : A .tags = true) (a_clhIn : A .clhIn = true) (a_tptIn : A .tptIn = true) (a_mcIn : A .mcIn = true) (a_fifelIn : A .fifelIn = true) (a_samples : A .samples = true) (a_sampleLost : A .sampleLost = true) (a_clh : A .clh = true) (a_pwr : A .pwr = true) (a_boot : A .boot = true) (a_rotate : A .rotate = true) (a_freeCtr : A .freeCtr = true) (a_nextId : A .nextId = true) (a_out : A .out = true) : Upd A s0 (State.cmdThaw s x1) := by
  unfold State.cmdThaw
  repeat' first
    | with_reducible assumption
    | (intro s1; refine (fun (hs1 : Upd A s0 s1) => ?_) ?_; clear_value s1; rotate_left; subst s1; rotate_left)
    | (intro x1; clear_value x1)
    | lift_lets
    | with_reducible apply State.cmdDone_upd
    | with_reducible apply State.acctNotice_upd
    | with_reducible apply State.set_upd
    | with_reducible apply State.cmdEnd_upd
    | with_reducible apply State.activityUpd_upd
    | with_reducible apply State.acctFetch_upd
    | with_reducible apply State.fireWhere_upd
    | with_reducible apply State.modAcct_upd
    | split

theorem execBind_upd_eq {A : Fld → Bool} {s0 s : State} {x1 : Writer} {x2 : Word} {t : State} (h : Upd A s0 s) (e : execBind x1 x2 s = .next t) (a_regs : A .regs = true) (a_hls : A .hls = true) (a_fns : A .fns = true) (a_accts : A .accts = true) (a_acctCmds : A .acctCmds = true) (a_movOwn : A .movOwn = true) (a_clhIn : A .clhIn = true) (a_freeCtr : A .freeCtr = true) (a_out : A .out = true) : Upd A s0 t := by
  unfold execBind at e
  cases e
  repeat' first
    | with_reducible assumption
    | intro x1
    | lift_lets
    | with_reducible apply State.cmdBind_upd
    | with_reducible apply State.accCmd_upd
    | with_reducible apply State.reaching_upd
    | split
    | dsimp only

theorem execAccountReset_upd_eq {A : Fld → Bool} {s0 s : State} {x1 : Writer} {x2 : Word} {t : State} (h : Upd A s0 s) (e : execAccountReset x1 x2 s = .next t) (a_regs : A .regs = true) (a_ports : A .ports = true) (a_hls : A .hls = true) (a_fns : A .fns = true) (a_accts : A .accts = true) (a_ctxs : A .ctxs = true) (a_trees : A .trees = true) (a_movs : A .movs = true) (a_srcMsgs : A .srcMsgs = true) (a_openMsgs : A .openMsgs = true) (a_filter : A .filter = true) (a_keyCache : A .keyCache = true) (a_rankCache : A .rankCache = true) (a_orders : A .orders = true) (a_aptWaits : A .aptWaits = true) (a_flushes : A .flushes = true) (a_notices : A .notices = true) (a_acctCmds : A .acctCmds = true) (a_entries : A .entries = true) (a_lmatches : A .lmatches = true) (a_ovfBufs : A .ovfBufs = true) (a_tags : A .tags = true) (a_moveWait : A .moveWait = true) (a_movOwn : A .movOwn = true) (a_clhIn : A .clhIn = true) (a_tptIn : A .tptIn = true) (a_mcIn : A .mcIn = true) (a_fifelIn : A .fifelIn = true) (a_qsHere : A .qsHere = true) (a_qsInj : A .qsInj = true) (a_samples : A .samples = true) (a_sampleLost : A .sampleLost = true) (a_clh : A .clh = true) (a_pwr : A .pwr = true) (a_boot : A .boot = true) (a_rotate : A .rotate = true) (a_freeCtr : A .freeCtr = true) (a_nextId : A .nextId = true) (a_out : A .out = true) : Upd A s0 t := by
  unfold execAccountReset at e
  cases e
  repeat' first
    | with_reducible assumption
    | intro x1
    | lift_lets
    | with_reducible apply State.accCmd_upd
    | with_reducible apply State.cmdReset_upd
    | with_reducible apply State.reaching_upd
    | split
    | dsimp only

theorem execRemove_upd_eq {A : Fld → Bool} {s0 s : State} {x1 : Writer} {x2 : Word} {t : State} (h : Upd A s0 s) (e : execRemove x1 x2 s = .next t) (a_regs : A .regs = true) (a_ports : A .ports = true) (a_hls : A .hls = true) (a_fns : A .fns = true) (a_accts : A .accts = true) (a_ctxs : A .ctxs = true) (a_trees : A .trees = true) (a_movs : A .movs = true) (a_srcMsgs : A .srcMsgs = true) (a_openMsgs : A .openMsgs = true) (a_filter : A .filter = true) (a_keyCache : A .keyCache = true) (a_rankCache : A .rankCache = true) (a_orders : A .orders = true) (a_aptWaits : A .aptWaits = true) (a_flushes : A .flushes = true) (a_notices : A .notices = true) (a_acctCmds : A .acctCmds = true) (a_entries : A .entries = true) (a_lmatches : A .lmatches = true) (a_ovfBufs : A .ovfBufs = true) (a_tags : A .tags = true) (a_moveWait : A .moveWait = true) (a_movOwn : A .movOwn = true) (a_clhIn : A .clhIn = true) (a_tptIn : A .tptIn = true) (a_mcIn : A .mcIn = true) (a_fifelIn : A .fifelIn = true) (a_qsHere : A .qsHere = true) (a_qsInj : A .qsInj = true) (a_samples : A .samples = true) (a_sampleLost : A .sampleLost = true) (a_clh : A .clh = true) (a_pwr : A .pwr = true) (a_boot : A .boot = true) (a_rotate : A .rotate = true) (a_freeCtr : A .freeCtr = true) (a_nextId : A .nextId = true) (a_out : A .out = true) : Upd A s0 t := by
  unfold execRemove at e
  cases e
  repeat' first
    | with_reducible assumption
    | intro x1
    | lift_lets
    | with_reducible apply State.accCmd_upd
    | with_reducible apply State.cmdReset_upd
    | with_reducible apply State.reaching_upd
    | split
    | dsimp only

theorem execFreeze_upd_eq {A : Fld → Bool} {s0 s : State} {x1 : Writer} {x2 : Word} {t : State} (h : Upd A s0 s) (e : execFreeze x1 x2 s = .next t) (a_regs : A .regs = true) (a_ports : A .ports = true) (a_hls : A .hls = true) (a_fns : A .fns = true) (a_accts : A .accts = true) (a_ctxs : A .ctxs = true) (a_trees : A .trees = true) (a_movs : A .movs = true) (a_srcMsgs : A .srcMsgs = true) (a_orders : A .orders = true) (a_aptWaits : A .aptWaits = true) (a_flushes : A .flushes = true) (a_notices : A .notices = true) (a_acctCmds : A .acctCmds = true) (a_entries : A .entries = true) (a_lmatches : A .lmatches = true) (a_ovfBufs : A .ovfBufs = true) (a_tags : A .tags = true) (a_moveWait : A .moveWait = true) (a_movOwn : A .movOwn = true) (a_clhIn : A .clhIn = true) (a_tptIn : A .tptIn = true) (a_mcIn : A .mcIn = true) (a_fifelIn : A .fifelIn = true) (a_qsHere : A .qsHere = true) (a_qsInj : A .qsInj = true) (a_samples : A .samples = true) (a_sampleLost : A .sampleLost = true) (a_clh : A .clh = true) (a_pwr : A .pwr = true) (a_boot : A .boot = true) (a_rotate : A .rotate = true) (a_freeCtr : A .freeCtr = true) (a_nextId : A .nextId = true) (a_out : A .out = true) : Upd A s0 t := by
  unfold execFreeze at e
  cases e
  repeat' first
    | with_reducible assumption
    | intro x1
    | lift_lets
    | with_reducible apply State.cmdFreeze_upd
    | with_reducible apply State.accCmd_upd
    | with_reducible apply State.reaching_upd
    | split
    | dsimp only

theorem execThaw_upd_eq {A : Fld → Bool} {s0 s : State} {x1 : Writer} {x2 : Word} {t : State} (h : Upd A s0 s) (e : execThaw x1 x2 s = .next t) (a_regs : A .regs = true) (a_ports : A .ports = true) (a_hls : A .hls = true) (a_fns : A .fns = true) (a_accts : A .accts = true) (a_orders : A .orders = true) (a_notices : A .notices = true) (a_acctCmds : A .acctCmds = true) (a_tags : A .tags = true) (a_movOwn : A .movOwn = true) (a_clhIn : A .clhIn = true) (a_tptIn : A .tptIn = true) (a_mcIn : A .mcIn = true) (a_fifelIn : A .fifelIn = true) (a_samples : A .samples = true) (a_sampleLost : A .sampleLost = true) (a_clh : A .clh = true) (a_pwr : A .pwr = true) (a_boot : A .boot = true) (a_rotate : A .rotate = true) (a_freeCtr : A .freeCtr = true) (a_nextId : A .nextId = true) (a_out : A .out = true) : Upd A s0 t := by
  unfold execThaw at e
  cases e
  repeat' first
    | with_reducible assumption
    | intro x1
    | lift_lets
    | with_reducible apply State.accCmd_upd
    | with_reducible apply State.cmdThaw_upd
    | with_reducible apply State.reaching_upd
    | split
    | dsimp only

theorem execAccBadCmd_upd_eq {A : Fld → Bool} {s0 s : State} {x1 : Writer} {x2 : Word} {t : State} (h : Upd A s0 s) (e : execAccBadCmd x1 x2 s = .next t) (a_regs : A .regs = true) (a_hls : A .hls = true) (a_fns : A .fns = true) (a_acctCmds : A .acctCmds = true) (a_movOwn : A .movOwn = true) (a_clhIn : A .clhIn = true) (a_freeCtr : A .freeCtr = true) (a_out : A .out = true) : Upd A s0 t := by
  unfold execAccBadCmd at e
  cases e
  repeat' first
    | with_reducible assumption
    | (intro x1; clear_value x1)
    | intro x1
    | lift_lets
    | with_reducible apply State.cmdEnd_upd
    | with_reducible apply State.accCmd_upd
    | with_reducible apply State.reaching_upd
    | split
    | dsimp only

theorem State.cmdSliceBind_upd {A : Fld → Bool} {s0 s : State} (x1 : ℕ) (x2 : AcctCmd) (h : Upd A s0 s) (a_regs : A .regs = true) (a_accts : A .accts = true) (a_acctCmds : A .acctCmds = true) : Upd A s0 (State.cmdSliceBind s x1 x2) := by
  unfold State.cmdSliceBind
  repeat' first
    | with_reducible assumption
    | (intro x1; clear_value x1)
    | lift_lets
    | with_reducible apply State.set_upd
    | with_reducible apply State.cmdEnd_upd
    | with_reducible apply State.bindAcct_upd
    | with_reducible refine Upd.ofSnd (by assumption) ?_
    | split

theorem execSliceBind_upd_eq {A : Fld → Bool} {s0 s : State} {x1 : HostLink} {x2 : Word} {t : State} (h : Upd A s0 s) (e : execSliceBind x1 x2 s = .next t) (a_regs : A .regs = true) (a_fns : A .fns = true) (a_accts : A .accts = true) (a_acctCmds : A .acctCmds = true) (a_freeCtr : A .freeCtr = true) (a_out : A .out = true) : Upd A s0 t := by
  unfold execSliceBind at e
  cases e
  repeat' first
    | with_reducible assumption
    | intro x1
    | lift_lets
    | with_reducible apply State.sliceCmd_upd
    | with_reducible apply State.cmdSliceBind_upd

theorem execSliceReset_upd_eq {A : Fld → Bool} {s0 s : State} {x1 : HostLink} {x2 : Word} {t : State} (h : Upd A s0 s) (e : execSliceReset x1 x2 s = .next t) (a_regs : A .regs = true) (a_ports : A .ports = true) (a_hls : A .hls = true) (a_fns : A .fns = true) (a_accts : A .accts = true) (a_ctxs : A .ctxs = true) (a_trees : A .trees = true) (a_movs : A .movs = true) (a_srcMsgs : A .srcMsgs = true) (a_openMsgs : A .openMsgs = true) (a_filter : A .filter = true) (a_keyCache : A .keyCache = true) (a_rankCache : A .rankCache = true) (a_orders : A .orders = true) (a_aptWaits : A .aptWaits = true) (a_flushes : A .flushes = true) (a_notices : A .notices = true) (a_acctCmds : A .acctCmds = true) (a_entries : A .entries = true) (a_lmatches : A .lmatches = true) (a_ovfBufs : A .ovfBufs = true) (a_tags : A .tags = true) (a_moveWait : A .moveWait = true) (a_clhIn : A .clhIn = true) (a_tptIn : A .tptIn = true) (a_mcIn : A .mcIn = true) (a_fifelIn : A .fifelIn = true) (a_qsHere : A .qsHere = true) (a_qsInj : A .qsInj = true) (a_samples : A .samples = true) (a_sampleLost : A .sampleLost = true) (a_clh : A .clh = true) (a_pwr : A .pwr = true) (a_boot : A .boot = true) (a_rotate : A .rotate = true) (a_freeCtr : A .freeCtr = true) (a_nextId : A .nextId = true) (a_out : A .out = true) : Upd A s0 t := by
  unfold execSliceReset at e
  cases e
  repeat' first
    | with_reducible assumption
    | intro x1
    | lift_lets
    | with_reducible apply State.sliceCmd_upd
    | with_reducible apply State.cmdReset_upd

theorem execSliceRemove_upd_eq {A : Fld → Bool} {s0 s : State} {x1 : HostLink} {x2 : Word} {t : State} (h : Upd A s0 s) (e : execSliceRemove x1 x2 s = .next t) (a_regs : A .regs = true) (a_ports : A .ports = true) (a_hls : A .hls = true) (a_fns : A .fns = true) (a_accts : A .accts = true) (a_ctxs : A .ctxs = true) (a_trees : A .trees = true) (a_movs : A .movs = true) (a_srcMsgs : A .srcMsgs = true) (a_openMsgs : A .openMsgs = true) (a_filter : A .filter = true) (a_keyCache : A .keyCache = true) (a_rankCache : A .rankCache = true) (a_orders : A .orders = true) (a_aptWaits : A .aptWaits = true) (a_flushes : A .flushes = true) (a_notices : A .notices = true) (a_acctCmds : A .acctCmds = true) (a_entries : A .entries = true) (a_lmatches : A .lmatches = true) (a_ovfBufs : A .ovfBufs = true) (a_tags : A .tags = true) (a_moveWait : A .moveWait = true) (a_clhIn : A .clhIn = true) (a_tptIn : A .tptIn = true) (a_mcIn : A .mcIn = true) (a_fifelIn : A .fifelIn = true) (a_qsHere : A .qsHere = true) (a_qsInj : A .qsInj = true) (a_samples : A .samples = true) (a_sampleLost : A .sampleLost = true) (a_clh : A .clh = true) (a_pwr : A .pwr = true) (a_boot : A .boot = true) (a_rotate : A .rotate = true) (a_freeCtr : A .freeCtr = true) (a_nextId : A .nextId = true) (a_out : A .out = true) : Upd A s0 t := by
  unfold execSliceRemove at e
  cases e
  repeat' first
    | with_reducible assumption
    | intro x1
    | lift_lets
    | with_reducible apply State.sliceCmd_upd
    | with_reducible apply State.cmdReset_upd

theorem execSliceFreeze_upd_eq {A : Fld → Bool} {s0 s : State} {x1 : HostLink} {x2 : Word} {t : State} (h : Upd A s0 s) (e : execSliceFreeze x1 x2 s = .next t) (a_regs : A .regs = true) (a_ports : A .ports = true) (a_hls : A .hls = true) (a_fns : A .fns = true) (a_accts : A .accts = true) (a_ctxs : A .ctxs = true) (a_trees : A .trees = true) (a_movs : A .movs = true) (a_srcMsgs : A .srcMsgs = true) (a_orders : A .orders = true) (a_aptWaits : A .aptWaits = true) (a_flushes : A .flushes = true) (a_notices : A .notices = true) (a_acctCmds : A .acctCmds = true) (a_entries : A .entries = true) (a_lmatches : A .lmatches = true) (a_ovfBufs : A .ovfBufs = true) (a_tags : A .tags = true) (a_moveWait : A .moveWait = true) (a_clhIn : A .clhIn = true) (a_tptIn : A .tptIn = true) (a_mcIn : A .mcIn = true) (a_fifelIn : A .fifelIn = true) (a_qsHere : A .qsHere = true) (a_qsInj : A .qsInj = true) (a_samples : A .samples = true) (a_sampleLost : A .sampleLost = true) (a_clh : A .clh = true) (a_pwr : A .pwr = true) (a_boot : A .boot = true) (a_rotate : A .rotate = true) (a_freeCtr : A .freeCtr = true) (a_nextId : A .nextId = true) (a_out : A .out = true) : Upd A s0 t := by
  unfold execSliceFreeze at e
  cases e
  repeat' first
    | with_reducible assumption
    | intro x1
    | lift_lets
    | with_reducible apply State.cmdFreeze_upd
    | with_reducible apply State.sliceCmd_upd

theorem execSliceThaw_upd_eq {A : Fld → Bool} {s0 s : State} {x1 : HostLink} {x2 : Word} {t : State} (h : Upd A s0 s) (e : execSliceThaw x1 x2 s = .next t) (a_regs : A .regs = true) (a_ports : A .ports = true) (a_hls : A .hls = true) (a_fns : A .fns = true) (a_accts : A .accts = true) (a_orders : A .orders = true) (a_notices : A .notices = true) (a_acctCmds : A .acctCmds = true) (a_tags : A .tags = true) (a_clhIn : A .clhIn = true) (a_tptIn : A .tptIn = true) (a_mcIn : A .mcIn = true) (a_fifelIn : A .fifelIn = true) (a_samples : A .samples = true) (a_sampleLost : A .sampleLost = true) (a_clh : A .clh = true) (a_pwr : A .pwr = true) (a_boot : A .boot = true) (a_rotate : A .rotate = true) (a_freeCtr : A .freeCtr = true) (a_nextId : A .nextId = true) (a_out : A .out = true) : Upd A s0 t := by
  unfold execSliceThaw at e
  cases e
  repeat' first
    | with_reducible assumption
    | intro x1
    | lift_lets
    | with_reducible apply State.sliceCmd_upd
    | with_reducible apply State.cmdThaw_upd

theorem execSliceBadCmd_upd_eq {A : Fld → Bool} {s0 s : State} {x1 : HostLink} {x2 : Word} {t : State} (h : Upd A s0 s) (e : execSliceBadCmd x1 x2 s = .next t) (a_regs : A .regs = true) (a_fns : A .fns = true) (a_acctCmds : A .acctCmds = true) (a_freeCtr : A .freeCtr = true) (a_out : A .out = true) : Upd A s0 t := by
  unfold execSliceBadCmd at e
  cases e
  repeat' first
    | with_reducible assumption
    | intro x1
    | lift_lets
    | with_reducible apply State.sliceCmd_upd
    | with_reducible apply State.cmdEnd_upd
    | split

theorem execFreezeQuiesced_upd_eq {A : Fld → Bool} {s0 s : State} {x1 : AcctNo} {t : State} (h : Upd A s0 s) (e : execFreezeQuiesced x1 s = .next t) (a_regs : A .regs = true) (a_hls : A .hls = true) (a_fns : A .fns = true) (a_accts : A .accts = true) (a_ctxs : A .ctxs = true) (a_notices : A .notices = true) (a_acctCmds : A .acctCmds = true) (a_entries : A .entries = true) (a_tags : A .tags = true) (a_clhIn : A .clhIn = true) (a_clh : A .clh = true) (a_freeCtr : A .freeCtr = true) (a_out : A .out = true) : Upd A s0 t := by
  unfold execFreezeQuiesced at e
  cases e
  repeat' first
    | with_reducible assumption
    | intro x1
    | (intro x1; clear_value x1)
    | (intro s1; refine (fun (hs1 : Upd A s0 s1) => ?_) ?_; clear_value s1; rotate_left; subst s1; rotate_left)
    | lift_lets
    | with_reducible apply State.cmdDone_upd
    | with_reducible apply State.acctNotice_upd
    | with_reducible apply State.set_upd
    | with_reducible apply State.spillAll_upd
    | with_reducible apply State.modAcct_upd
    | split
    | dsimp only

theorem execFreezeBoundExpiry_upd_eq {A : Fld → Bool} {s0 s : State} {x1 : AcctNo} {t : State} (h : Upd A s0 s) (e : execFreezeBoundExpiry x1 s = .next t) (a_regs : A .regs = true) (a_ports : A .ports = true) (a_hls : A .hls = true) (a_fns : A .fns = true) (a_accts : A .accts = true) (a_ctxs : A .ctxs = true) (a_trees : A .trees = true) (a_movs : A .movs = true) (a_srcMsgs : A .srcMsgs = true) (a_orders : A .orders = true) (a_aptWaits : A .aptWaits = true) (a_flushes : A .flushes = true) (a_notices : A .notices = true) (a_acctCmds : A .acctCmds = true) (a_entries : A .entries = true) (a_lmatches : A .lmatches = true) (a_ovfBufs : A .ovfBufs = true) (a_tags : A .tags = true) (a_moveWait : A .moveWait = true) (a_clhIn : A .clhIn = true) (a_tptIn : A .tptIn = true) (a_mcIn : A .mcIn = true) (a_fifelIn : A .fifelIn = true) (a_qsHere : A .qsHere = true) (a_qsInj : A .qsInj = true) (a_samples : A .samples = true) (a_sampleLost : A .sampleLost = true) (a_clh : A .clh = true) (a_pwr : A .pwr = true) (a_boot : A .boot = true) (a_rotate : A .rotate = true) (a_freeCtr : A .freeCtr = true) (a_nextId : A .nextId = true) (a_out : A .out = true) : Upd A s0 t := by
  unfold execFreezeBoundExpiry at e
  cases e
  repeat' first
    | with_reducible assumption
    | lift_lets
    | with_reducible apply State.freezeBound_upd
    | split

theorem execAccountDrainEnd_upd_eq {A : Fld → Bool} {s0 s : State} {x1 : AcctNo} {t : State} (h : Upd A s0 s) (e : execAccountDrainEnd x1 s = .next t) (a_regs : A .regs = true) (a_ports : A .ports = true) (a_hls : A .hls = true) (a_fns : A .fns = true) (a_accts : A .accts = true) (a_ctxs : A .ctxs = true) (a_trees : A .trees = true) (a_movs : A .movs = true) (a_srcMsgs : A .srcMsgs = true) (a_openMsgs : A .openMsgs = true) (a_filter : A .filter = true) (a_keyCache : A .keyCache = true) (a_rankCache : A .rankCache = true) (a_orders : A .orders = true) (a_aptWaits : A .aptWaits = true) (a_flushes : A .flushes = true) (a_notices : A .notices = true) (a_acctCmds : A .acctCmds = true) (a_entries : A .entries = true) (a_lmatches : A .lmatches = true) (a_ovfBufs : A .ovfBufs = true) (a_tags : A .tags = true) (a_moveWait : A .moveWait = true) (a_clhIn : A .clhIn = true) (a_tptIn : A .tptIn = true) (a_mcIn : A .mcIn = true) (a_fifelIn : A .fifelIn = true) (a_qsHere : A .qsHere = true) (a_qsInj : A .qsInj = true) (a_samples : A .samples = true) (a_sampleLost : A .sampleLost = true) (a_clh : A .clh = true) (a_pwr : A .pwr = true) (a_boot : A .boot = true) (a_rotate : A .rotate = true) (a_freeCtr : A .freeCtr = true) (a_nextId : A .nextId = true) (a_out : A .out = true) : Upd A s0 t := by
  unfold execAccountDrainEnd at e
  cases e
  repeat' first
    | with_reducible assumption
    | lift_lets
    | with_reducible apply State.drainEnd_upd
    | split

theorem execVfEnableSet_upd_eq {A : Fld → Bool} {s0 s : State} {x1 : HostLink} {x2 : ℕ} {t : State} (h : Upd A s0 s) (e : execVfEnableSet x1 x2 s = .next t) (a_regs : A .regs = true) (a_hls : A .hls = true) (a_accts : A .accts = true) : Upd A s0 t := by
  unfold execVfEnableSet at e
  cases e
  repeat' first
    | with_reducible assumption
    | (intro x1; clear_value x1)
    | intro x1
    | lift_lets
    | with_reducible apply State.modHl_upd
    | with_reducible apply State.bindAcct_upd
    | with_reducible refine Upd.ofSnd (by assumption) ?_
    | with_reducible apply Upd.fold
    | split
    | dsimp only

theorem State.vfsOff_upd {A : Fld → Bool} {s0 s : State} (x1 : ℕ) (h : Upd A s0 s) (a_regs : A .regs = true) (a_ports : A .ports = true) (a_hls : A .hls = true) (a_fns : A .fns = true) (a_accts : A .accts = true) (a_ctxs : A .ctxs = true) (a_trees : A .trees = true) (a_movs : A .movs = true) (a_srcMsgs : A .srcMsgs = true) (a_openMsgs : A .openMsgs = true) (a_filter : A .filter = true) (a_keyCache : A .keyCache = true) (a_rankCache : A .rankCache = true) (a_orders : A .orders = true) (a_aptWaits : A .aptWaits = true) (a_flushes : A .flushes = true) (a_notices : A .notices = true) (a_acctCmds : A .acctCmds = true) (a_entries : A .entries = true) (a_lmatches : A .lmatches = true) (a_ovfBufs : A .ovfBufs = true) (a_tags : A .tags = true) (a_moveWait : A .moveWait = true) (a_clhIn : A .clhIn = true) (a_tptIn : A .tptIn = true) (a_mcIn : A .mcIn = true) (a_fifelIn : A .fifelIn = true) (a_qsHere : A .qsHere = true) (a_qsInj : A .qsInj = true) (a_samples : A .samples = true) (a_sampleLost : A .sampleLost = true) (a_clh : A .clh = true) (a_pwr : A .pwr = true) (a_boot : A .boot = true) (a_rotate : A .rotate = true) (a_freeCtr : A .freeCtr = true) (a_nextId : A .nextId = true) (a_out : A .out = true) : Upd A s0 (State.vfsOff s x1) := by
  unfold State.vfsOff
  repeat' first
    | with_reducible assumption
    | (intro s1; refine (fun (hs1 : Upd A s0 s1) => ?_) ?_; clear_value s1; rotate_left; subst s1; rotate_left)
    | intro x1
    | lift_lets
    | with_reducible apply State.acctReset_upd
    | with_reducible apply State.modHl_upd
    | with_reducible apply State.atsStat_upd
    | with_reducible apply Upd.fold
    | refine Upd.to_fns _ ?_ (by assumption) (fun _ i => tasc_filter _ i.fns)

theorem execVfEnableClear_upd_eq {A : Fld → Bool} {s0 s : State} {x1 : HostLink} {t : State} (h : Upd A s0 s) (e : execVfEnableClear x1 s = .next t) (a_regs : A .regs = true) (a_ports : A .ports = true) (a_hls : A .hls = true) (a_fns : A .fns = true) (a_accts : A .accts = true) (a_ctxs : A .ctxs = true) (a_trees : A .trees = true) (a_movs : A .movs = true) (a_srcMsgs : A .srcMsgs = true) (a_openMsgs : A .openMsgs = true) (a_filter : A .filter = true) (a_keyCache : A .keyCache = true) (a_rankCache : A .rankCache = true) (a_orders : A .orders = true) (a_aptWaits : A .aptWaits = true) (a_flushes : A .flushes = true) (a_notices : A .notices = true) (a_acctCmds : A .acctCmds = true) (a_entries : A .entries = true) (a_lmatches : A .lmatches = true) (a_ovfBufs : A .ovfBufs = true) (a_tags : A .tags = true) (a_moveWait : A .moveWait = true) (a_clhIn : A .clhIn = true) (a_tptIn : A .tptIn = true) (a_mcIn : A .mcIn = true) (a_fifelIn : A .fifelIn = true) (a_qsHere : A .qsHere = true) (a_qsInj : A .qsInj = true) (a_samples : A .samples = true) (a_sampleLost : A .sampleLost = true) (a_clh : A .clh = true) (a_pwr : A .pwr = true) (a_boot : A .boot = true) (a_rotate : A .rotate = true) (a_freeCtr : A .freeCtr = true) (a_nextId : A .nextId = true) (a_out : A .out = true) : Upd A s0 t := by
  unfold execVfEnableClear at e
  cases e
  repeat' first
    | with_reducible assumption
    | lift_lets
    | with_reducible apply State.vfsOff_upd

end Sys2Proof.Machine
end

