-- ==== Sys2Proof/Laws/FrameMigration.lean ====
section
/-!
SUPPORT. Laws/FrameMigration.lean: which parts of State each operation of Machine/Migration.lean may change, and that it keeps the invariant.
-/
namespace Sys2Proof.Machine
set_option linter.unusedTactic false
set_option linter.unreachableTactic false
set_option linter.unusedVariables false

theorem State.bufGate_upd {A : Fld → Bool} {s0 s : State} (x1 : AcctCmd) (x2 : ℕ) (x3 : Bool) (h : Upd A s0 s) (a_regs : A .regs = true) (a_hls : A .hls = true) (a_fns : A .fns = true) (a_tags : A .tags = true) (a_clhIn : A .clhIn = true) (a_freeCtr : A .freeCtr = true) (a_out : A .out = true) : Upd A s0 (State.bufGate s x1 x2 x3).2.2 := by
  unfold State.bufGate
  repeat' first
    | with_reducible assumption
    | lift_lets
    | with_reducible apply State.owinFault_upd
    | with_reducible apply State.gate_upd
    | with_reducible apply State.owinGate_upd
    | with_reducible refine Upd.ofSnd (by assumption) ?_
    | split

theorem State.cmdSave_upd {A : Fld → Bool} {s0 s : State} (x1 : AcctCmd) (h : Upd A s0 s) (a_regs : A .regs = true) (a_acctCmds : A .acctCmds = true) : Upd A s0 (State.cmdSave s x1) := by
  unfold State.cmdSave
  repeat' first
    | with_reducible assumption
    | intro x1
    | (intro x1; clear_value x1)
    | lift_lets
    | with_reducible apply State.cmdRun_upd
    | with_reducible apply State.set_upd
    | with_reducible apply State.cmdEnd_upd
    | split
    | dsimp only

theorem execSave_upd_eq {A : Fld → Bool} {s0 s : State} {x1 : Writer} {x2 : Word} {t : State} (h : Upd A s0 s) (e : execSave x1 x2 s = .next t) (a_regs : A .regs = true) (a_hls : A .hls = true) (a_fns : A .fns = true) (a_acctCmds : A .acctCmds = true) (a_movOwn : A .movOwn = true) (a_clhIn : A .clhIn = true) (a_freeCtr : A .freeCtr = true) (a_out : A .out = true) : Upd A s0 t := by
  unfold execSave at e
  cases e
  repeat' first
    | with_reducible assumption
    | intro x1
    | lift_lets
    | with_reducible apply State.accCmd_upd
    | with_reducible apply State.cmdSave_upd
    | with_reducible apply State.reaching_upd
    | split
    | dsimp only

theorem execSliceSave_upd_eq {A : Fld → Bool} {s0 s : State} {x1 : HostLink} {x2 : Word} {t : State} (h : Upd A s0 s) (e : execSliceSave x1 x2 s = .next t) (a_regs : A .regs = true) (a_fns : A .fns = true) (a_acctCmds : A .acctCmds = true) (a_freeCtr : A .freeCtr = true) (a_out : A .out = true) : Upd A s0 t := by
  unfold execSliceSave at e
  cases e
  repeat' first
    | with_reducible assumption
    | intro x1
    | lift_lets
    | with_reducible apply State.sliceCmd_upd
    | with_reducible apply State.cmdSave_upd

theorem execSaveImageWritten_upd_eq {A : Fld → Bool} {s0 s : State} {x1 : HostView} {t : State} (h : Upd A s0 s) (e : execSaveImageWritten x1 s = .next t) (a_regs : A .regs = true) (a_hls : A .hls = true) (a_fns : A .fns = true) (a_accts : A .accts = true) (a_acctCmds : A .acctCmds = true) (a_tags : A .tags = true) (a_clhIn : A .clhIn = true) (a_freeCtr : A .freeCtr = true) (a_out : A .out = true) : Upd A s0 t := by
  unfold execSaveImageWritten at e
  cases e
  repeat' first
    | with_reducible assumption
    | intro x1
    | (intro s1; refine (fun (hs1 : Upd A s0 s1) => ?_) ?_; clear_value s1; rotate_left; subst s1; rotate_left)
    | (intro x1; have x2 := fun a => x1 a; clear x2; subst x1)
    | (intro x1; have x2 := Prod.snd x1; clear x2; subst x1)
    | (intro x1; clear_value x1)
    | lift_lets
    | with_reducible apply State.post_upd
    | with_reducible apply State.set_upd
    | with_reducible apply State.bufGate_upd
    | with_reducible apply State.cmdEnd_upd
    | with_reducible apply State.modAcct_upd
    | with_reducible apply State.gate_upd
    | with_reducible refine Upd.ofSnd (by assumption) ?_
    | with_reducible refine Upd.ofSnd2 (by assumption) ?_
    | with_reducible apply Upd.getD
    | split
    | dsimp only
    | dsimp +zetaDelta only

theorem State.imgFetch_upd {A : Fld → Bool} {s0 s : State} (x1 : AcctCmd) (x2 : HostView) (h : Upd A s0 s) (a_regs : A .regs = true) (a_hls : A .hls = true) (a_fns : A .fns = true) (a_tags : A .tags = true) (a_clhIn : A .clhIn = true) (a_freeCtr : A .freeCtr = true) (a_out : A .out = true) : Upd A s0 (State.imgFetch s x1 x2).2 := by
  unfold State.imgFetch
  repeat' first
    | with_reducible assumption
    | lift_lets
    | with_reducible apply State.bufGate_upd
    | with_reducible refine Upd.ofSnd2 (by assumption) ?_
    | with_reducible apply Upd.getD
    | split
    | dsimp only

theorem State.cmdRestore_upd {A : Fld → Bool} {s0 s : State} (x1 : AcctCmd) (x2 : HostView) (h : Upd A s0 s) (a_regs : A .regs = true) (a_hls : A .hls = true) (a_fns : A .fns = true) (a_acctCmds : A .acctCmds = true) (a_tags : A .tags = true) (a_clhIn : A .clhIn = true) (a_freeCtr : A .freeCtr = true) (a_out : A .out = true) : Upd A s0 (State.cmdRestore s x1 x2) := by
  unfold State.cmdRestore
  repeat' first
    | with_reducible assumption
    | (intro x1; clear_value x1)
    | lift_lets
    | with_reducible apply State.cmdRun_upd
    | with_reducible apply State.set_upd
    | with_reducible apply State.cmdEnd_upd
    | with_reducible apply State.imgFetch_upd
    | with_reducible refine Upd.ofSnd (by assumption) ?_
    | split

theorem execRestore_upd_eq {A : Fld → Bool} {s0 s : State} {x1 : Writer} {x2 : Word} {x3 : HostView} {t : State} (h : Upd A s0 s) (e : execRestore x1 x2 x3 s = .next t) (a_regs : A .regs = true) (a_hls : A .hls = true) (a_fns : A .fns = true) (a_acctCmds : A .acctCmds = true) (a_tags : A .tags = true) (a_movOwn : A .movOwn = true) (a_clhIn : A .clhIn = true) (a_freeCtr : A .freeCtr = true) (a_out : A .out = true) : Upd A s0 t := by
  unfold execRestore at e
  cases e
  repeat' first
    | with_reducible assumption
    | intro x1
    | lift_lets
    | with_reducible apply State.accCmd_upd
    | with_reducible apply State.cmdRestore_upd
    | with_reducible apply State.reaching_upd
    | split
    | dsimp only

theorem execSliceRestore_upd_eq {A : Fld → Bool} {s0 s : State} {x1 : HostLink} {x2 : Word} {x3 : HostView} {t : State} (h : Upd A s0 s) (e : execSliceRestore x1 x2 x3 s = .next t) (a_regs : A .regs = true) (a_hls : A .hls = true) (a_fns : A .fns = true) (a_acctCmds : A .acctCmds = true) (a_tags : A .tags = true) (a_clhIn : A .clhIn = true) (a_freeCtr : A .freeCtr = true) (a_out : A .out = true) : Upd A s0 t := by
  unfold execSliceRestore at e
  cases e
  repeat' first
    | with_reducible assumption
    | intro x1
    | lift_lets
    | with_reducible apply State.sliceCmd_upd
    | with_reducible apply State.cmdRestore_upd

theorem State.loadWords_upd {A : Fld → Bool} {s0 s : State} (x1 : List RF) (x2 : List ℕ) (h : Upd A s0 s) (a_regs : A .regs = true) : Upd A s0 (State.loadWords s x1 x2) := by
  unfold State.loadWords
  repeat' first
    | with_reducible assumption
    | intro x1
    | lift_lets
    | with_reducible apply State.setWord_upd
    | with_reducible apply Upd.fold
    | split
    | dsimp only

theorem State.loadPage_upd {A : Fld → Bool} {s0 s : State} (x1 : ℕ) (x2 : List ℕ) (h : Upd A s0 s) (a_regs : A .regs = true) (a_accts : A .accts = true) : Upd A s0 (State.loadPage s x1 x2) := by
  unfold State.loadPage
  repeat' first
    | with_reducible assumption
    | (intro s1; refine (fun (hs1 : Upd A s0 s1) => ?_) ?_; clear_value s1; rotate_left; subst s1; rotate_left)
    | intro x1
    | lift_lets
    | with_reducible apply State.loadWords_upd
    | with_reducible apply State.set_upd
    | with_reducible apply State.modRing_upd
    | with_reducible apply Upd.fold
    | split

theorem State.loadAllow_upd {A : Fld → Bool} {s0 s : State} (x1 : ℕ) (x2 : List ℕ) (h : Upd A s0 s) (a_regs : A .regs = true) : Upd A s0 (State.loadAllow s x1 x2) := by
  unfold State.loadAllow
  repeat' first
    | with_reducible assumption
    | lift_lets
    | with_reducible apply State.loadWords_upd

theorem State.loadEntry_upd {A : Fld → Bool} {s0 s : State} (x1 : ℕ) (x2 : LEntry) (h : Upd A s0 s) (a_accts : A .accts = true) (a_ctxs : A .ctxs = true) (a_entries : A .entries = true) (a_nextId : A .nextId = true) : Upd A s0 (State.loadEntry s x1 x2) := by
  unfold State.loadEntry
  repeat' first
    | with_reducible assumption
    | intro x1
    | (intro x1; clear_value x1)
    | (intro s1; refine (fun (hs1 : Upd A s0 s1) => ?_) ?_; clear_value s1; rotate_left; subst s1; rotate_left)
    | lift_lets
    | with_reducible apply State.newId_upd
    | with_reducible apply State.modAcct_upd
    | with_reducible apply State.modRing_upd
    | with_reducible apply State.modCtx_upd
    | with_reducible refine Upd.ofSnd (by assumption) ?_
    | split
    | with_reducible apply Upd.to_entries
    | dsimp only

theorem State.areaEntry_upd_eq {A : Fld → Bool} {s0 s : State} {x1 : ℕ} {x2 : ℕ} {x3 : ℕ} {x4 : List OvfBuf} {x5 : HostView} {x6 : ℕ} {x7 : ℕ} {y0} {t : State} (h : Upd A s0 s) (e : State.areaEntry s x1 x2 x3 x4 x5 x6 x7 = some (y0, t)) (a_freeCtr : A .freeCtr = true) : Upd A s0 t := by
  unfold State.areaEntry at e
  split at e
  rename_i x u hf
  have hu : Upd A s0 u := Upd.ofSnd hf (State.free_upd 64 h a_freeCtr)
  obtain ⟨a, _, hq⟩ := Option.map_eq_some_iff.mp e
  rw [← (Prod.mk.inj hq).2]
  exact hu

theorem State.areaEntries_upd_eq {A : Fld → Bool} {s0 s : State} {x1 : ℕ} {x2 : ℕ} {x3 : ℕ} {x4 : List OvfBuf} {x5 : HostView} {x6 : List (ℕ × ℕ)} {y0} {t : State} (h : Upd A s0 s) (e : State.areaEntries s x1 x2 x3 x4 x5 x6 = some (y0, t)) (a_freeCtr : A .freeCtr = true) : Upd A s0 t := by
  induction x6 generalizing s y0 t with
  | nil => unfold State.areaEntries at e; cases e; exact h
  | cons q r ih =>
    obtain ⟨i, w⟩ := q
    unfold State.areaEntries at e
    split at e
    · cases e
    · rename_i v s1 h1
      obtain ⟨⟨es, s2⟩, hp, hq⟩ := Option.map_eq_some_iff.mp e
      cases hq
      exact ih (State.areaEntry_upd_eq h h1 a_freeCtr) hp

theorem State.areaLoad_upd_eq {A : Fld → Bool} {s0 s : State} {x1 : ℕ} {x2 : ℕ} {x3 : List OvfBuf} {x4 : HostView} {x5 : ℕ × ℕ × ℕ × ℕ} {t : State} (h : Upd A s0 s) (e : State.areaLoad s x1 x2 x3 x4 x5 = some t) (a_accts : A .accts = true) (a_ctxs : A .ctxs = true) (a_entries : A .entries = true) (a_freeCtr : A .freeCtr = true) (a_nextId : A .nextId = true) : Upd A s0 t := by
  unfold State.areaLoad at e
  dsimp only at e
  split at e
  · cases e
  · obtain ⟨⟨es, s2⟩, hp, hq⟩ := Option.map_eq_some_iff.mp e
    have h2 := State.areaEntries_upd_eq h hp a_freeCtr
    cases hq
    exact Upd.fold h2 fun u x hu => by apply State.loadEntry_upd <;> assumption

theorem State.areasLoad_upd_eq {A : Fld → Bool} {s0 s : State} {x1 : ℕ} {x2 : ℕ} {x3 : List OvfBuf} {x4 : HostView} {x5 : List (ℕ × ℕ × ℕ × ℕ)} {t : State} (h : Upd A s0 s) (e : State.areasLoad s x1 x2 x3 x4 x5 = some t) (a_accts : A .accts = true) (a_ctxs : A .ctxs = true) (a_entries : A .entries = true) (a_freeCtr : A .freeCtr = true) (a_nextId : A .nextId = true) : Upd A s0 t := by
  induction x5 generalizing s with
  | nil => unfold State.areasLoad at e; cases e; exact h
  | cons q r ih =>
    unfold State.areasLoad at e
    split at e
    · cases e
    · rename_i s1 h1
      refine ih ?_ e
      apply State.areaLoad_upd_eq h h1 <;> assumption

theorem State.loadCtxs_upd {A : Fld → Bool} {s0 s : State} (x1 : ℕ) (x2 : ℕ) (x3 : List ℕ) (h : Upd A s0 s) (a_regs : A .regs = true) (a_ctxs : A .ctxs = true) : Upd A s0 (State.loadCtxs s x1 x2 x3) := by
  unfold State.loadCtxs
  repeat' first
    | with_reducible assumption
    | intro x1
    | lift_lets
    | with_reducible apply State.loadWords_upd
    | with_reducible apply State.modCtx_upd
    | with_reducible apply State.set_upd
    | with_reducible apply Upd.fold
    | split
    | dsimp only

theorem State.loadOvfs_upd {A : Fld → Bool} {s0 s : State} (x1 : List OvfBuf) (h : Upd A s0 s) (a_ovfBufs : A .ovfBufs = true) (a_nextId : A .nextId = true) : Upd A s0 (State.loadOvfs s x1).2 := by
  have k : ∀ (l : List OvfBuf) (b : List OvfBuf) (u : State), Upd A s0 u → Upd A s0 (l.foldl (fun (acc, s) b =>
      let (num, s) := State.newId s
      let (d, s) := s.newId
      (acc ++ [{ b with num, ev := { b.ev with num := d } }], s)) (b, u)).2 := fun l b u hu =>
    Upd.foldSnd hu fun c t x ht => State.newId_upd (State.newId_upd ht a_nextId) a_nextId
  unfold State.loadOvfs
  exact Upd.to_ovfBufs _ (k _ _ _ h) a_ovfBufs

theorem State.loadRndv_upd {A : Fld → Bool} {s0 s : State} (x1 : ℕ) (x2 : ℕ) (x3 : ℕ) (x4 : List ℕ) (h : Upd A s0 s) (a_regs : A .regs = true) (a_accts : A .accts = true) (a_ctxs : A .ctxs = true) (a_entries : A .entries = true) (a_ovfBufs : A .ovfBufs = true) (a_nextId : A .nextId = true) : Upd A s0 (State.loadRndv s x1 x2 x3 x4).2 := by
  unfold State.loadRndv
  repeat' first
    | with_reducible assumption
    | (intro x1; have x2 := Prod.snd x1; clear x2; subst x1)
    | (intro x1; clear_value x1)
    | intro x1
    | lift_lets
    | with_reducible apply State.loadCtxs_upd
    | with_reducible apply State.loadEntry_upd
    | with_reducible apply State.loadOvfs_upd
    | with_reducible refine Upd.ofSnd (by assumption) ?_
    | with_reducible apply Upd.fold
    | split
    | dsimp only

theorem State.loadLedger_upd_eq {A : Fld → Bool} {s0 s : State} {x1 : ℕ} {x2 : ℕ} {x3 : ℕ} {x4 : List ℕ} {x5 : HostView} {t : State} (h : Upd A s0 s) (e : State.loadLedger s x1 x2 x3 x4 x5 = some t) (a_regs : A .regs = true) (a_accts : A .accts = true) (a_ctxs : A .ctxs = true) (a_entries : A .entries = true) (a_ovfBufs : A .ovfBufs = true) (a_freeCtr : A .freeCtr = true) (a_nextId : A .nextId = true) : Upd A s0 t := by
  unfold State.loadLedger at e
  dsimp only at e
  obtain ⟨u, hp, hq⟩ := Option.map_eq_some_iff.mp e
  have h1 : Upd A s0 (s.loadRndv x1 x2 x3 x4).2 := by apply State.loadRndv_upd <;> assumption
  have h2 : Upd A s0 u := by apply State.areasLoad_upd_eq h1 hp <;> assumption
  rw [← hq]
  exact Upd.fold h2 fun v x hv => by
    split
    · exact State.setCtxSt_upd _ _ hv a_regs
    · exact hv

theorem State.loadOrders_upd {A : Fld → Bool} {s0 s : State} (x1 : ℕ) (x2 : ℕ) (x3 : List ℕ) (h : Upd A s0 s) (a_regs : A .regs = true) (a_orders : A .orders = true) : Upd A s0 (State.loadOrders s x1 x2 x3) := by
  unfold State.loadOrders
  repeat' first
    | with_reducible assumption
    | intro x1
    | lift_lets
    | with_reducible apply State.set_upd
    | with_reducible apply State.orderStat_upd
    | with_reducible apply Upd.fold
    | exact { h with orders := .inl a_orders, keeps := fun i => { h.keeps i with } }

theorem State.loadFilter_upd {A : Fld → Bool} {s0 s : State} (x1 : ℕ) (x2 : List ℕ) (h : Upd A s0 s) (a_regs : A .regs = true) (a_filter : A .filter = true) (a_book : A .book = true) : Upd A s0 (State.loadFilter s x1 x2) := by
  unfold State.loadFilter
  repeat' first
    | with_reducible assumption
    | intro x1
    | (intro x1; clear_value x1)
    | lift_lets
    | with_reducible apply State.filterStat_upd
    | exact { h with filter := .inl a_filter, book := .inl a_book, keeps := fun i => { h.keeps i with } }
    | split
    | dsimp only
    | with_reducible apply Upd.to_filter_book

theorem State.loadWindows_upd {A : Fld → Bool} {s0 s : State} (x1 : ℕ) (x2 : List ℕ) (h : Upd A s0 s) (a_regs : A .regs = true) : Upd A s0 (State.loadWindows s x1 x2) := by
  unfold State.loadWindows
  repeat' first
    | with_reducible assumption
    | (intro x1; clear_value x1)
    | intro x1
    | lift_lets
    | with_reducible apply State.loadWords_upd
    | with_reducible apply State.set_upd
    | with_reducible apply Upd.fold
    | split
    | dsimp only

theorem State.loadSec_upd {A : Fld → Bool} {s0 s : State} (x1 : List Byte) (x2 : ℕ) (x3 : (State → List ℕ → State)) (h : Upd A s0 s) (f3 : ∀ v0 v1, Upd A s0 v0 → Upd A s0 (x3 v0 v1)) : Upd A s0 (State.loadSec s x1 x2 x3) := by
  unfold State.loadSec
  repeat' first
    | with_reducible assumption
    | intro x1
    | lift_lets
    | with_reducible apply f3
    | split
    | dsimp only

theorem State.imgLoad_upd_eq {A : Fld → Bool} {s0 s : State} {x1 : ℕ} {x2 : List Byte} {x3 : HostView} {t : State} (h : Upd A s0 s) (e : State.imgLoad s x1 x2 x3 = some t) (a_regs : A .regs = true) (a_accts : A .accts = true) (a_ctxs : A .ctxs = true) (a_filter : A .filter = true) (a_book : A .book = true) (a_orders : A .orders = true) (a_entries : A .entries = true) (a_ovfBufs : A .ovfBufs = true) (a_freeCtr : A .freeCtr = true) (a_nextId : A .nextId = true) : Upd A s0 t := by
  unfold State.imgLoad at e
  dsimp only at e
  obtain ⟨u, hp, hq⟩ := Option.map_eq_some_iff.mp e
  have h2 : Upd A s0 u := by
    apply State.loadLedger_upd_eq ?_ hp <;> try assumption
    refine State.loadSec_upd _ _ _ ?_ fun v w hv => by apply State.loadPage_upd <;> assumption
    apply State.acctFresh_upd <;> try assumption
    refine State.loadSec_upd _ _ _ ?_ fun v w hv => by apply State.loadAllow_upd <;> assumption
    exact State.set_upd _ _ (State.set_upd _ _ h a_regs) a_regs
  have h3 : Upd A s0 ((u.loadSec x2 4 fun s ws => s.loadOrders x1 ((leAt x2 26 2 + 1) % 65536) ws).loadSec x2 5 fun s ws =>
      s.loadFilter x1 ws) := by
    refine State.loadSec_upd _ _ _ ?_ fun v w hv => by apply State.loadFilter_upd <;> assumption
    exact State.loadSec_upd _ _ _ h2 fun v w hv => by apply State.loadOrders_upd <;> assumption
  rw [← hq]
  split
  · exact State.loadSec_upd _ _ _ h3 fun v w hv => by apply State.loadWindows_upd <;> assumption
  · exact h3

theorem execRestoreImageLoaded_upd_eq {A : Fld → Bool} {s0 s : State} {x1 : HostView} {x2 : HostView} {t : State} (h : Upd A s0 s) (e : execRestoreImageLoaded x1 x2 s = .next t) (a_regs : A .regs = true) (a_hls : A .hls = true) (a_fns : A .fns = true) (a_accts : A .accts = true) (a_ctxs : A .ctxs = true) (a_filter : A .filter = true) (a_book : A .book = true) (a_orders : A .orders = true) (a_notices : A .notices = true) (a_acctCmds : A .acctCmds = true) (a_entries : A .entries = true) (a_ovfBufs : A .ovfBufs = true) (a_tags : A .tags = true) (a_clhIn : A .clhIn = true) (a_freeCtr : A .freeCtr = true) (a_nextId : A .nextId = true) (a_out : A .out = true) : Upd A s0 t := by
  unfold execRestoreImageLoaded at e
  cases e
  repeat' first
    | with_reducible assumption
    | intro x1
    | (intro x1; clear_value x1)
    | (intro x1; have x2 := fun a => x1 a; clear x2; subst x1)
    | (intro s1; refine (fun (hs1 : Upd A s0 s1) => ?_) ?_; clear_value s1; rotate_left; subst s1; rotate_left)
    | lift_lets
    | with_reducible apply State.acctNotice_upd
    | with_reducible apply State.set_upd
    | with_reducible apply State.cmdEnd_upd
    | with_reducible apply State.imgFetch_upd
    | with_reducible refine State.imgLoad_upd_eq ?_ (by assumption) (by assumption) (by assumption) (by assumption) (by assumption) (by assumption) (by assumption) (by assumption) (by assumption) (by assumption) (by assumption)
    | with_reducible apply State.gate_upd
    | with_reducible refine Upd.ofSnd (by assumption) ?_
    | split
    | with_reducible apply Upd.getD
    | dsimp only
    | dsimp +zetaDelta only

theorem State.cmdStub_upd {A : Fld → Bool} {s0 s : State} (x1 : AcctCmd) (h : Upd A s0 s) (a_regs : A .regs = true) (a_ports : A .ports = true) (a_hls : A .hls = true) (a_fns : A .fns = true) (a_accts : A .accts = true) (a_ctxs : A .ctxs = true) (a_trees : A .trees = true) (a_movs : A .movs = true) (a_srcMsgs : A .srcMsgs = true) (a_openMsgs : A .openMsgs = true) (a_filter : A .filter = true) (a_keyCache : A .keyCache = true) (a_rankCache : A .rankCache = true) (a_orders : A .orders = true) (a_aptWaits : A .aptWaits = true) (a_flushes : A .flushes = true) (a_notices : A .notices = true) (a_acctCmds : A .acctCmds = true) (a_entries : A .entries = true) (a_lmatches : A .lmatches = true) (a_ovfBufs : A .ovfBufs = true) (a_tags : A .tags = true) (a_moveWait : A .moveWait = true) (a_clhIn : A .clhIn = true) (a_tptIn : A .tptIn = true) (a_mcIn : A .mcIn = true) (a_fifelIn : A .fifelIn = true) (a_qsHere : A .qsHere = true) (a_qsInj : A .qsInj = true) (a_samples : A .samples = true) (a_sampleLost : A .sampleLost = true) (a_clh : A .clh = true) (a_pwr : A .pwr = true) (a_boot : A .boot = true) (a_rotate : A .rotate = true) (a_freeCtr : A .freeCtr = true) (a_nextId : A .nextId = true) (a_out : A .out = true) : Upd A s0 (State.cmdStub s x1) := by
  unfold State.cmdStub
  repeat' first
    | with_reducible assumption
    | (intro s1; refine (fun (hs1 : Upd A s0 s1) => ?_) ?_; clear_value s1; rotate_left; subst s1; rotate_left)
    | (intro x1; clear_value x1)
    | lift_lets
    | with_reducible apply State.setB_upd
    | with_reducible apply State.genUp_upd
    | with_reducible apply State.set_upd
    | with_reducible apply State.cmdEnd_upd
    | with_reducible apply State.acctPurge_upd
    | split

theorem execStub_upd_eq {A : Fld → Bool} {s0 s : State} {x1 : Writer} {x2 : Word} {t : State} (h : Upd A s0 s) (e : execStub x1 x2 s = .next t) (a_regs : A .regs = true) (a_ports : A .ports = true) (a_hls : A .hls = true) (a_fns : A .fns = true) (a_accts : A .accts = true) (a_ctxs : A .ctxs = true) (a_trees : A .trees = true) (a_movs : A .movs = true) (a_srcMsgs : A .srcMsgs = true) (a_openMsgs : A .openMsgs = true) (a_filter : A .filter = true) (a_keyCache : A .keyCache = true) (a_rankCache : A .rankCache = true) (a_orders : A .orders = true) (a_aptWaits : A .aptWaits = true) (a_flushes : A .flushes = true) (a_notices : A .notices = true) (a_acctCmds : A .acctCmds = true) (a_entries : A .entries = true) (a_lmatches : A .lmatches = true) (a_ovfBufs : A .ovfBufs = true) (a_tags : A .tags = true) (a_moveWait : A .moveWait = true) (a_movOwn : A .movOwn = true) (a_clhIn : A .clhIn = true) (a_tptIn : A .tptIn = true) (a_mcIn : A .mcIn = true) (a_fifelIn : A .fifelIn = true) (a_qsHere : A .qsHere = true) (a_qsInj : A .qsInj = true) (a_samples : A .samples = true) (a_sampleLost : A .sampleLost = true) (a_clh : A .clh = true) (a_pwr : A .pwr = true) (a_boot : A .boot = true) (a_rotate : A .rotate = true) (a_freeCtr : A .freeCtr = true) (a_nextId : A .nextId = true) (a_out : A .out = true) : Upd A s0 t := by
  unfold execStub at e
  cases e
  repeat' first
    | with_reducible assumption
    | intro x1
    | lift_lets
    | with_reducible apply State.cmdStub_upd
    | with_reducible apply State.accCmd_upd
    | with_reducible apply State.reaching_upd
    | split
    | dsimp only

theorem State.stubOff_upd {A : Fld → Bool} {s0 s : State} (x1 : ℕ) (h : Upd A s0 s) (a_regs : A .regs = true) : Upd A s0 (State.stubOff s x1) := by
  unfold State.stubOff
  repeat' first
    | with_reducible assumption
    | lift_lets
    | with_reducible apply State.set_upd
    | split

theorem execStubExpiry_upd_eq {A : Fld → Bool} {s0 s : State} {x1 : ℕ} {t : State} (h : Upd A s0 s) (e : execStubExpiry x1 s = .next t) (a_regs : A .regs = true) : Upd A s0 t := by
  unfold execStubExpiry at e
  cases e
  repeat' first
    | with_reducible assumption
    | intro x1
    | lift_lets
    | with_reducible apply State.stubOff_upd
    | split
    | dsimp only

theorem execStubCancel_upd_eq {A : Fld → Bool} {s0 s : State} {x1 : Writer} {x2 : ℕ} {t : State} (h : Upd A s0 s) (e : execStubCancel x1 x2 s = .next t) (a_regs : A .regs = true) (a_hls : A .hls = true) (a_fns : A .fns = true) (a_movOwn : A .movOwn = true) (a_clhIn : A .clhIn = true) (a_freeCtr : A .freeCtr = true) (a_out : A .out = true) : Upd A s0 t := by
  unfold execStubCancel at e
  cases e
  repeat' first
    | with_reducible assumption
    | intro x1
    | lift_lets
    | with_reducible apply State.stubOff_upd
    | with_reducible apply State.reaching_upd
    | split
    | dsimp only

end Sys2Proof.Machine
end

