-- ==== Sys2Proof/Laws/FrameRouting.lean ====
section
/-!
SUPPORT. Laws/FrameRouting.lean: which parts of State each operation of Machine/Routing.lean may change, and that it keeps the invariant.
-/
namespace Sys2Proof.Machine
set_option linter.unusedTactic false
set_option linter.unreachableTactic false
set_option linter.unusedVariables false

theorem State.routeDiscard_upd {A : Fld → Bool} {s0 s : State} (x1 : ℕ) (x2 : VaultPkt) (x3 : ℕ) (h : Upd A s0 s) (a_regs : A .regs = true) (a_ports : A .ports = true) (a_hls : A .hls = true) (a_fns : A .fns = true) (a_clhIn : A .clhIn = true) (a_tptIn : A .tptIn = true) (a_relayIn : A .relayIn = true) (a_mgIn : A .mgIn = true) (a_mcIn : A .mcIn = true) (a_fifelIn : A .fifelIn = true) (a_out : A .out = true) : Upd A s0 (State.routeDiscard s x1 x2 x3) := by
  unfold State.routeDiscard
  repeat' first
    | with_reducible assumption
    | lift_lets
    | with_reducible apply State.routeTo_upd
    | with_reducible apply State.raise_upd

theorem State.tooOld_upd {A : Fld → Bool} {s0 s : State} (x1 : ℕ) (x2 : Header) (h : Upd A s0 s) (a_regs : A .regs = true) (a_hls : A .hls = true) (a_fns : A .fns = true) (a_clhIn : A .clhIn = true) (a_qsHere : A .qsHere = true) (a_qsInj : A .qsInj = true) (a_clh : A .clh = true) (a_out : A .out = true) : Upd A s0 (State.tooOld s x1 x2) := by
  unfold State.tooOld
  repeat' first
    | with_reducible assumption
    | (intro s1; refine (fun (hs1 : Upd A s0 s1) => ?_) ?_; clear_value s1; rotate_left; subst s1; rotate_left)
    | lift_lets
    | with_reducible apply State.sendUnreach_upd
    | with_reducible apply State.limited_upd
    | with_reducible apply State.bump_upd
    | with_reducible apply State.raiseLimited_upd
    | with_reducible refine Upd.ofSnd (by assumption) ?_
    | split

theorem State.forward_upd {A : Fld → Bool} {s0 s : State} (x1 : ℕ) (x2 : VaultPkt) (h : Upd A s0 s) (a_regs : A .regs = true) (a_ports : A .ports = true) (a_hls : A .hls = true) (a_fns : A .fns = true) (a_clhIn : A .clhIn = true) (a_tptIn : A .tptIn = true) (a_relayIn : A .relayIn = true) (a_mgIn : A .mgIn = true) (a_mcIn : A .mcIn = true) (a_fifelIn : A .fifelIn = true) (a_qsHere : A .qsHere = true) (a_qsInj : A .qsInj = true) (a_samples : A .samples = true) (a_sampleLost : A .sampleLost = true) (a_clh : A .clh = true) (a_rotate : A .rotate = true) (a_freeCtr : A .freeCtr = true) (a_nextId : A .nextId = true) (a_out : A .out = true) : Upd A s0 (State.forward s x1 x2) := by
  unfold State.forward
  repeat' first
    | with_reducible assumption
    | (intro x1; clear_value x1)
    | (intro s1; refine (fun (hs1 : Upd A s0 s1) => ?_) ?_; clear_value s1; rotate_left; subst s1; rotate_left)
    | intro x1
    | lift_lets
    | with_reducible apply State.bump_upd
    | with_reducible apply State.routeDiscard_upd
    | with_reducible apply State.routeTo_upd
    | with_reducible apply State.tooOld_upd
    | with_reducible apply State.sendVault_upd
    | with_reducible refine Upd.ofSnd (by assumption) ?_
    | with_reducible apply Upd.ite
    | split
    | with_reducible apply Upd.getD
    | dsimp only

theorem execForwardingDecision_upd_eq {A : Fld → Bool} {s0 s : State} {x1 : PortNo} {x2 : Fin 18} {t : State} (h : Upd A s0 s) (e : execForwardingDecision x1 x2 s = .next t) (a_regs : A .regs = true) (a_ports : A .ports = true) (a_hls : A .hls = true) (a_fns : A .fns = true) (a_clhIn : A .clhIn = true) (a_tptIn : A .tptIn = true) (a_relayIn : A .relayIn = true) (a_mgIn : A .mgIn = true) (a_mcIn : A .mcIn = true) (a_fifelIn : A .fifelIn = true) (a_qsHere : A .qsHere = true) (a_qsInj : A .qsInj = true) (a_samples : A .samples = true) (a_sampleLost : A .sampleLost = true) (a_clh : A .clh = true) (a_pwr : A .pwr = true) (a_boot : A .boot = true) (a_rotate : A .rotate = true) (a_freeCtr : A .freeCtr = true) (a_nextId : A .nextId = true) (a_out : A .out = true) : Upd A s0 t := by
  unfold execForwardingDecision at e
  cases e
  repeat' first
    | with_reducible assumption
    | intro x1
    | lift_lets
    | with_reducible apply State.forward_upd
    | with_reducible apply State.activityUpd_upd
    | split
    | dsimp only

theorem execSampleFlushTimer_upd_eq {A : Fld → Bool} {s0 s : State} {t : State} (h : Upd A s0 s) (e : execSampleFlushTimer s = .next t) (a_regs : A .regs = true) (a_ports : A .ports = true) (a_hls : A .hls = true) (a_fns : A .fns = true) (a_clhIn : A .clhIn = true) (a_tptIn : A .tptIn = true) (a_mcIn : A .mcIn = true) (a_fifelIn : A .fifelIn = true) (a_samples : A .samples = true) (a_sampleLost : A .sampleLost = true) (a_clh : A .clh = true) (a_rotate : A .rotate = true) (a_freeCtr : A .freeCtr = true) (a_nextId : A .nextId = true) (a_out : A .out = true) : Upd A s0 t := by
  unfold execSampleFlushTimer at e
  cases e
  repeat' first
    | with_reducible assumption
    | lift_lets
    | with_reducible apply State.flushSamples_upd

theorem State.hallRelay_upd {A : Fld → Bool} {s0 s : State} (x1 : ℕ) (x2 : ℕ) (h : Upd A s0 s) (a_regs : A .regs = true) (a_ports : A .ports = true) (a_hls : A .hls = true) (a_fns : A .fns = true) (a_clhIn : A .clhIn = true) (a_tptIn : A .tptIn = true) (a_relayIn : A .relayIn = true) (a_mgIn : A .mgIn = true) (a_mcIn : A .mcIn = true) (a_fifelIn : A .fifelIn = true) (a_samples : A .samples = true) (a_sampleLost : A .sampleLost = true) (a_clh : A .clh = true) (a_rotate : A .rotate = true) (a_freeCtr : A .freeCtr = true) (a_nextId : A .nextId = true) (a_out : A .out = true) : Upd A s0 (State.hallRelay s x1 x2) := by
  unfold State.hallRelay
  repeat' first
    | with_reducible assumption
    | intro x1
    | (intro x1; clear_value x1)
    | lift_lets
    | with_reducible apply State.modVault_upd
    | with_reducible apply State.routeTo_upd
    | with_reducible apply State.sendVault_upd
    | with_reducible refine Upd.ofSnd (by assumption) ?_
    | split
    | dsimp only
    | with_reducible apply Upd.getD

theorem execHallRelayReinject_upd_eq {A : Fld → Bool} {s0 s : State} {t : State} (h : Upd A s0 s) (e : execHallRelayReinject s = .next t) (a_regs : A .regs = true) (a_ports : A .ports = true) (a_hls : A .hls = true) (a_fns : A .fns = true) (a_clhIn : A .clhIn = true) (a_tptIn : A .tptIn = true) (a_relayIn : A .relayIn = true) (a_mgIn : A .mgIn = true) (a_mcIn : A .mcIn = true) (a_fifelIn : A .fifelIn = true) (a_samples : A .samples = true) (a_sampleLost : A .sampleLost = true) (a_clh : A .clh = true) (a_pwr : A .pwr = true) (a_boot : A .boot = true) (a_rotate : A .rotate = true) (a_freeCtr : A .freeCtr = true) (a_nextId : A .nextId = true) (a_out : A .out = true) : Upd A s0 t := by
  unfold execHallRelayReinject at e
  cases e
  repeat' first
    | with_reducible assumption
    | intro x1
    | lift_lets
    | with_reducible apply State.hallRelay_upd
    | with_reducible apply State.activityUpd_upd
    | split
    | exact { h with relayIn := .inl a_relayIn, keeps := fun i => { h.keeps i with } }
    | dsimp only
    | with_reducible apply Upd.to_relayIn

theorem execMgRelay_upd_eq {A : Fld → Bool} {s0 s : State} {t : State} (h : Upd A s0 s) (e : execMgRelay s = .next t) (a_regs : A .regs = true) (a_ports : A .ports = true) (a_hls : A .hls = true) (a_fns : A .fns = true) (a_clhIn : A .clhIn = true) (a_tptIn : A .tptIn = true) (a_mgIn : A .mgIn = true) (a_mcIn : A .mcIn = true) (a_fifelIn : A .fifelIn = true) (a_samples : A .samples = true) (a_sampleLost : A .sampleLost = true) (a_clh : A .clh = true) (a_rotate : A .rotate = true) (a_freeCtr : A .freeCtr = true) (a_nextId : A .nextId = true) (a_out : A .out = true) : Upd A s0 t := by
  unfold execMgRelay at e
  cases e
  repeat' first
    | with_reducible assumption
    | intro x1
    | lift_lets
    | with_reducible apply State.injectDrop_upd
    | split
    | exact { h with mgIn := .inl a_mgIn, keeps := fun i => { h.keeps i with } }
    | dsimp only
    | with_reducible apply Upd.to_mgIn

theorem execMulticastConsume_upd_eq {A : Fld → Bool} {s0 s : State} {t : State} (h : Upd A s0 s) (e : execMulticastConsume s = .next t) (a_regs : A .regs = true) (a_ports : A .ports = true) (a_hls : A .hls = true) (a_fns : A .fns = true) (a_clhIn : A .clhIn = true) (a_tptIn : A .tptIn = true) (a_mcIn : A .mcIn = true) (a_fifelIn : A .fifelIn = true) (a_samples : A .samples = true) (a_sampleLost : A .sampleLost = true) (a_clh : A .clh = true) (a_pwr : A .pwr = true) (a_boot : A .boot = true) (a_rotate : A .rotate = true) (a_freeCtr : A .freeCtr = true) (a_nextId : A .nextId = true) (a_out : A .out = true) : Upd A s0 t := by
  unfold execMulticastConsume at e
  cases e
  repeat' first
    | with_reducible assumption
    | (intro x1; clear_value x1)
    | (intro s1; refine (fun (hs1 : Upd A s0 s1) => ?_) ?_; clear_value s1; rotate_left; subst s1; rotate_left)
    | intro x1
    | lift_lets
    | with_reducible apply State.bump_upd
    | with_reducible apply State.sendOn_upd
    | with_reducible apply State.activityUpd_upd
    | with_reducible apply Upd.fold
    | split
    | dsimp only
    | with_reducible apply Upd.to_tptIn
    | exact { h with tptIn := .inl a_tptIn, mcIn := .inl a_mcIn, keeps := fun i => { h.keeps i with } }
    | with_reducible apply Upd.to_mcIn

theorem State.tblStat_upd {A : Fld → Bool} {s0 s : State} (h : Upd A s0 s) (a_regs : A .regs = true) : Upd A s0 (State.tblStat s) := by
  unfold State.tblStat
  repeat' first
    | with_reducible assumption
    | lift_lets
    | with_reducible apply State.set_upd

theorem State.flip_upd {A : Fld → Bool} {s0 s : State} (x1 : ℕ) (h : Upd A s0 s) (a_regs : A .regs = true) : Upd A s0 (State.flip s x1) := by
  unfold State.flip
  repeat' first
    | with_reducible assumption
    | (intro s1; refine (fun (hs1 : Upd A s0 s1) => ?_) ?_; clear_value s1; rotate_left; subst s1; rotate_left)
    | lift_lets
    | with_reducible apply State.tblStat_upd
    | with_reducible apply State.set_upd

theorem State.flipFlood_upd {A : Fld → Bool} {s0 s : State} (x1 : ℕ) (x2 : ℕ) (h : Upd A s0 s) (a_regs : A .regs = true) (a_hls : A .hls = true) (a_fns : A .fns = true) (a_qsHere : A .qsHere = true) (a_qsInj : A .qsInj = true) (a_boot : A .boot = true) (a_out : A .out = true) : Upd A s0 (State.flipFlood s x1 x2) := by
  unfold State.flipFlood
  repeat' first
    | with_reducible assumption
    | (intro s1; refine (fun (hs1 : Upd A s0 s1) => ?_) ?_; clear_value s1; rotate_left; subst s1; rotate_left)
    | intro x1
    | lift_lets
    | with_reducible apply State.qsSend_upd
    | with_reducible apply Upd.fold
    | split
    | exact { h with boot := .inl a_boot, keeps := fun i => { h.keeps i with } }

theorem execEpochFlip_upd_eq {A : Fld → Bool} {s0 s : State} {t : State} (h : Upd A s0 s) (e : execEpochFlip s = .next t) (a_regs : A .regs = true) (a_hls : A .hls = true) (a_fns : A .fns = true) (a_clhIn : A .clhIn = true) (a_qsHere : A .qsHere = true) (a_qsInj : A .qsInj = true) (a_boot : A .boot = true) (a_out : A .out = true) : Upd A s0 t := by
  unfold execEpochFlip at e
  cases e
  repeat' first
    | with_reducible assumption
    | (intro s1; refine (fun (hs1 : Upd A s0 s1) => ?_) ?_; clear_value s1; rotate_left; subst s1; rotate_left)
    | lift_lets
    | with_reducible apply State.bump_upd
    | with_reducible apply State.tblStat_upd
    | with_reducible apply State.flipFlood_upd
    | with_reducible apply State.set_upd
    | with_reducible apply State.raise_upd
    | with_reducible apply State.flip_upd
    | with_reducible refine State.takeQs_upd_eq ?_ (by assumption) (by assumption)
    | with_reducible apply Upd.fold
    | split
    | dsimp only

theorem execEpochFlipTime_upd_eq {A : Fld → Bool} {s0 s : State} {t : State} (h : Upd A s0 s) (e : execEpochFlipTime s = .next t) (a_regs : A .regs = true) : Upd A s0 t := by
  unfold execEpochFlipTime at e
  cases e
  repeat' first
    | with_reducible assumption
    | intro x1
    | lift_lets
    | with_reducible apply State.flip_upd
    | split
    | dsimp only

theorem execDrainingEnd_upd_eq {A : Fld → Bool} {s0 s : State} {x1 : Bool} {t : State} (h : Upd A s0 s) (e : execDrainingEnd x1 s = .next t) (a_regs : A .regs = true) : Upd A s0 t := by
  unfold execDrainingEnd at e
  cases e
  repeat' first
    | with_reducible assumption
    | lift_lets
    | with_reducible apply State.tblStat_upd
    | with_reducible apply State.set_upd
    | split

theorem execQsMessageReceive_upd_eq {A : Fld → Bool} {s0 s : State} {t : State} (h : Upd A s0 s) (e : execQsMessageReceive s = .next t) (a_regs : A .regs = true) (a_hls : A .hls = true) (a_fns : A .fns = true) (a_qsRx : A .qsRx = true) (a_qsHere : A .qsHere = true) (a_qsWait : A .qsWait = true) (a_out : A .out = true) : Upd A s0 t := by
  unfold execQsMessageReceive at e
  cases e
  repeat' first
    | with_reducible assumption
    | intro x1
    | (intro x1; clear_value x1)
    | (intro s1; refine (fun (hs1 : Upd A s0 s1) => ?_) ?_; clear_value s1; rotate_left; subst s1; rotate_left)
    | lift_lets
    | with_reducible apply State.qsDeliver_upd
    | with_reducible apply State.bump_upd
    | with_reducible apply State.tallyHit_upd
    | split
    | dsimp only
    | exact { h with qsRx := .inl a_qsRx, qsHere := .inl a_qsHere, qsWait := .inl a_qsWait, keeps := fun i => { h.keeps i with } }
    | with_reducible apply Upd.to_qsRx
    | with_reducible apply Upd.to_qsHere
    | with_reducible apply Upd.to_qsWait

end Sys2Proof.Machine
end

