-- ==== Sys2Proof/Laws/FrameBringUp.lean ====
section
/-!
SUPPORT. Laws/FrameBringUp.lean: which parts of State each operation of Machine/BringUp.lean may change, and that it keeps the invariant.
-/
namespace Sys2Proof.Machine
set_option linter.unusedTactic false
set_option linter.unreachableTactic false
set_option linter.unusedVariables false

theorem State.takeMg_upd_eq {A : Fld → Bool} {s0 s : State} {x1 : ℕ} {y0} {t : State} (h : Upd A s0 s) (e : State.takeMg s x1 = some (y0, t)) (a_izg : A .izg = true) : Upd A s0 t := by
  unfold State.takeMg at e
  revert e
  repeat' first
    | split
    | (intro e; refine Upd.ofMap e ?_)
    | (intro e; refine Upd.ofMapSnd e ?_)
    | (intro e; rw [← Option.some.inj e])
    | (intro e; rw [← (Prod.mk.inj (Option.some.inj e)).2])
    | (intro e; cases e; done)
    | with_reducible assumption
    | (intro x1; have x2 : Clh := x1; clear x2; subst x1)
    | (intro x1; have x2 : Pwr := x1; clear x2; subst x1)
    | (intro x1; have x2 : Izg := x1; clear x2; subst x1)
    | intro x1
    | lift_lets
    | refine Upd.to_izg _ ?_ (by assumption) (fun _ i => ⟨Nat.le_trans (takeFirst_le (by assumption)) i.mg, i.summary⟩)

theorem State.writeTables_upd {A : Fld → Bool} {s0 s : State} (h : Upd A s0 s) (a_regs : A .regs = true) : Upd A s0 (State.writeTables s) := by
  unfold State.writeTables
  repeat' first
    | with_reducible assumption
    | (intro s1; refine (fun (hs1 : Upd A s0 s1) => ?_) ?_; clear_value s1; rotate_left; subst s1; rotate_left)
    | intro x1
    | lift_lets
    | with_reducible apply State.setB_upd
    | with_reducible apply State.setWord_upd
    | with_reducible apply State.set_upd
    | with_reducible apply Upd.fold
    | split
    | refine Upd.to_regs _ ?_ (by assumption) (fun _ i => tasc_filter _ i.regs)

theorem State.tablesAgain_upd {A : Fld → Bool} {s0 s : State} (h : Upd A s0 s) (a_regs : A .regs = true) : Upd A s0 (State.tablesAgain s) := by
  unfold State.tablesAgain
  repeat' first
    | with_reducible assumption
    | intro x1
    | lift_lets
    | with_reducible apply State.writeTables_upd
    | split
    | dsimp only

theorem State.advertChanged_upd {A : Fld → Bool} {s0 s : State} (h : Upd A s0 s) (a_regs : A .regs = true) : Upd A s0 (State.advertChanged s) := by
  unfold State.advertChanged
  repeat' first
    | with_reducible assumption
    | lift_lets
    | intro x1
    | (intro s1; refine (fun (hs1 : Upd A s0 s1) => ?_) ?_; clear_value s1; rotate_left; subst s1; rotate_left)
    | with_reducible apply State.set_upd
    | with_reducible apply State.tablesAgain_upd
    | split
    | dsimp only

theorem execAdvert_upd_eq {A : Fld → Bool} {s0 s : State} {t : State} (h : Upd A s0 s) (e : execAdvert s = .next t) (a_regs : A .regs = true) (a_ports : A .ports = true) (a_hls : A .hls = true) (a_fns : A .fns = true) (a_clhIn : A .clhIn = true) (a_tptIn : A .tptIn = true) (a_mcIn : A .mcIn = true) (a_fifelIn : A .fifelIn = true) (a_samples : A .samples = true) (a_sampleLost : A .sampleLost = true) (a_clh : A .clh = true) (a_boot : A .boot = true) (a_izg : A .izg = true) (a_rotate : A .rotate = true) (a_freeCtr : A .freeCtr = true) (a_nextId : A .nextId = true) (a_out : A .out = true) : Upd A s0 t := by
  unfold execAdvert at e
  cases e
  repeat' first
    | with_reducible assumption
    | intro x1
    | with_reducible apply State.sendOn_upd
    | with_reducible apply State.advertChanged_upd
    | with_reducible refine State.takeMg_upd_eq ?_ (by assumption) (by assumption)
    | with_reducible apply Upd.fold
    | split
    | with_reducible apply Upd.to_boot

theorem State.sendKeys_upd {A : Fld → Bool} {s0 s : State} (h : Upd A s0 s) (a_regs : A .regs = true) (a_ports : A .ports = true) (a_hls : A .hls = true) (a_fns : A .fns = true) (a_clhIn : A .clhIn = true) (a_tptIn : A .tptIn = true) (a_mcIn : A .mcIn = true) (a_fifelIn : A .fifelIn = true) (a_samples : A .samples = true) (a_sampleLost : A .sampleLost = true) (a_clh : A .clh = true) (a_rotate : A .rotate = true) (a_freeCtr : A .freeCtr = true) (a_nextId : A .nextId = true) (a_out : A .out = true) : Upd A s0 (State.sendKeys s) := by
  unfold State.sendKeys
  repeat' first
    | with_reducible assumption
    | intro x1
    | with_reducible apply State.sendOn_upd
    | with_reducible apply Upd.fold

theorem State.groupsMark_upd {A : Fld → Bool} {s0 s : State} (x1 : ℕ) (h : Upd A s0 s) (a_regs : A .regs = true) : Upd A s0 (State.groupsMark s x1) := by
  unfold State.groupsMark
  repeat' first
    | with_reducible assumption
    | intro x1
    | with_reducible apply State.set_upd
    | with_reducible apply Upd.fold

theorem State.coordsFix_upd {A : Fld → Bool} {s0 s : State} (h : Upd A s0 s) (a_regs : A .regs = true) (a_ports : A .ports = true) (a_hls : A .hls = true) (a_fns : A .fns = true) (a_clhIn : A .clhIn = true) (a_tptIn : A .tptIn = true) (a_relayIn : A .relayIn = true) (a_mgIn : A .mgIn = true) (a_mcIn : A .mcIn = true) (a_fifelIn : A .fifelIn = true) (a_samples : A .samples = true) (a_sampleLost : A .sampleLost = true) (a_clh : A .clh = true) (a_rotate : A .rotate = true) (a_freeCtr : A .freeCtr = true) (a_nextId : A .nextId = true) (a_out : A .out = true) : Upd A s0 (State.coordsFix s) := by
  unfold State.coordsFix
  repeat' first
    | with_reducible assumption
    | lift_lets
    | (intro s1; refine (fun (hs1 : Upd A s0 s1) => ?_) ?_; clear_value s1; rotate_left; subst s1; rotate_left)
    | intro x1
    | with_reducible apply State.advertise_upd
    | with_reducible apply State.set_upd
    | with_reducible apply State.peerCheck_upd
    | with_reducible apply State.tablesAgain_upd
    | with_reducible apply Upd.fold
    | split
    | dsimp only

theorem State.groupFix_upd {A : Fld → Bool} {s0 s : State} (h : Upd A s0 s) (a_regs : A .regs = true) (a_ports : A .ports = true) (a_hls : A .hls = true) (a_fns : A .fns = true) (a_clhIn : A .clhIn = true) (a_tptIn : A .tptIn = true) (a_relayIn : A .relayIn = true) (a_mgIn : A .mgIn = true) (a_mcIn : A .mcIn = true) (a_fifelIn : A .fifelIn = true) (a_samples : A .samples = true) (a_sampleLost : A .sampleLost = true) (a_clh : A .clh = true) (a_rotate : A .rotate = true) (a_freeCtr : A .freeCtr = true) (a_nextId : A .nextId = true) (a_out : A .out = true) : Upd A s0 (State.groupFix s) := by
  unfold State.groupFix
  repeat' first
    | with_reducible assumption
    | (intro s1; refine (fun (hs1 : Upd A s0 s1) => ?_) ?_; clear_value s1; rotate_left; subst s1; rotate_left)
    | with_reducible apply State.set_upd
    | with_reducible apply State.coordsFix_upd
    | with_reducible apply State.groupsMark_upd
    | split

theorem State.keysAdd_upd {A : Fld → Bool} {s0 s : State} (x1 : List ℕ) (h : Upd A s0 s) (a_regs : A .regs = true) (a_ports : A .ports = true) (a_hls : A .hls = true) (a_fns : A .fns = true) (a_clhIn : A .clhIn = true) (a_tptIn : A .tptIn = true) (a_relayIn : A .relayIn = true) (a_mgIn : A .mgIn = true) (a_mcIn : A .mcIn = true) (a_fifelIn : A .fifelIn = true) (a_samples : A .samples = true) (a_sampleLost : A .sampleLost = true) (a_clh : A .clh = true) (a_boot : A .boot = true) (a_rotate : A .rotate = true) (a_freeCtr : A .freeCtr = true) (a_nextId : A .nextId = true) (a_out : A .out = true) : Upd A s0 (State.keysAdd s x1) := by
  unfold State.keysAdd
  repeat' first
    | with_reducible assumption
    | (intro s1; refine (fun (hs1 : Upd A s0 s1) => ?_) ?_; clear_value s1; rotate_left; subst s1; rotate_left)
    | with_reducible apply State.groupFix_upd
    | with_reducible apply State.sendKeys_upd
    | split
    | with_reducible apply Upd.to_boot

theorem State.headSet_upd {A : Fld → Bool} {s0 s : State} (x1 : ℕ) (h : Upd A s0 s) (a_regs : A .regs = true) (a_boot : A .boot = true) : Upd A s0 (State.headSet s x1) := by
  unfold State.headSet
  repeat' first
    | with_reducible assumption
    | lift_lets
    | intro x1
    | (intro x1; clear_value x1)
    | (intro s1; refine (fun (hs1 : Upd A s0 s1) => ?_) ?_; clear_value s1; rotate_left; subst s1; rotate_left)
    | with_reducible apply State.set_upd
    | split
    | with_reducible apply Upd.to_boot
    | dsimp only

theorem State.coordVoid_upd {A : Fld → Bool} {s0 s : State} (x1 : ℕ) (h : Upd A s0 s) (a_regs : A .regs = true) (a_boot : A .boot = true) : Upd A s0 (State.coordVoid s x1) := by
  unfold State.coordVoid
  repeat' first
    | with_reducible assumption
    | (intro s1; refine (fun (hs1 : Upd A s0 s1) => ?_) ?_; clear_value s1; rotate_left; subst s1; rotate_left)
    | (intro x1; clear_value x1)
    | intro x1
    | lift_lets
    | with_reducible apply State.set_upd
    | split
    | dsimp only
    | with_reducible apply Upd.to_boot

theorem State.coordTake_upd {A : Fld → Bool} {s0 s : State} (x1 : ℕ) (x2 : ℕ) (x3 : ℕ) (h : Upd A s0 s) (a_regs : A .regs = true) (a_clhIn : A .clhIn = true) (a_boot : A .boot = true) : Upd A s0 (State.coordTake s x1 x2 x3) := by
  unfold State.coordTake
  repeat' first
    | with_reducible assumption
    | (intro x1; have x2 := fun a => x1 a; clear x2; subst x1)
    | (intro x1; clear_value x1)
    | intro x1
    | lift_lets
    | with_reducible apply State.coordVoid_upd
    | with_reducible apply State.raise_upd
    | split
    | dsimp only
    | with_reducible apply Upd.to_boot
    | dsimp +zetaDelta only

theorem State.coordLearn_upd {A : Fld → Bool} {s0 s : State} (x1 : ℕ) (x2 : CoordInfo) (x3 : Option (ℕ × ℕ)) (h : Upd A s0 s) (a_regs : A .regs = true) (a_ports : A .ports = true) (a_hls : A .hls = true) (a_fns : A .fns = true) (a_clhIn : A .clhIn = true) (a_tptIn : A .tptIn = true) (a_relayIn : A .relayIn = true) (a_mgIn : A .mgIn = true) (a_mcIn : A .mcIn = true) (a_fifelIn : A .fifelIn = true) (a_samples : A .samples = true) (a_sampleLost : A .sampleLost = true) (a_clh : A .clh = true) (a_boot : A .boot = true) (a_rotate : A .rotate = true) (a_freeCtr : A .freeCtr = true) (a_nextId : A .nextId = true) (a_out : A .out = true) : Upd A s0 (State.coordLearn s x1 x2 x3) := by
  unfold State.coordLearn
  repeat' first
    | with_reducible assumption
    | (intro s1; refine (fun (hs1 : Upd A s0 s1) => ?_) ?_; clear_value s1; rotate_left; subst s1; rotate_left)
    | (intro x1; clear_value x1)
    | intro x1
    | lift_lets
    | with_reducible apply State.coordTake_upd
    | with_reducible apply State.headSet_upd
    | with_reducible apply State.keysAdd_upd
    | split
    | dsimp only

theorem execCoord_upd_eq {A : Fld → Bool} {s0 s : State} {t : State} (h : Upd A s0 s) (e : execCoord s = .next t) (a_regs : A .regs = true) (a_ports : A .ports = true) (a_hls : A .hls = true) (a_fns : A .fns = true) (a_clhIn : A .clhIn = true) (a_tptIn : A .tptIn = true) (a_relayIn : A .relayIn = true) (a_mgIn : A .mgIn = true) (a_mcIn : A .mcIn = true) (a_fifelIn : A .fifelIn = true) (a_samples : A .samples = true) (a_sampleLost : A .sampleLost = true) (a_clh : A .clh = true) (a_boot : A .boot = true) (a_izg : A .izg = true) (a_rotate : A .rotate = true) (a_freeCtr : A .freeCtr = true) (a_nextId : A .nextId = true) (a_out : A .out = true) : Upd A s0 t := by
  unfold execCoord at e
  cases e
  repeat' first
    | with_reducible assumption
    | intro x1
    | with_reducible apply State.modPort_upd
    | with_reducible apply State.withCoord_upd
    | with_reducible apply State.advertise_upd
    | with_reducible apply State.coordLearn_upd
    | with_reducible apply State.set_upd
    | with_reducible apply State.settle_upd
    | with_reducible apply State.passAdvance_upd
    | with_reducible apply State.peerCheck_upd
    | with_reducible refine State.takeMg_upd_eq ?_ (by assumption) (by assumption)
    | split
    | dsimp only

theorem execCoordPeriod_upd_eq {A : Fld → Bool} {s0 s : State} {t : State} (h : Upd A s0 s) (e : execCoordPeriod s = .next t) (a_regs : A .regs = true) (a_ports : A .ports = true) (a_hls : A .hls = true) (a_fns : A .fns = true) (a_clhIn : A .clhIn = true) (a_tptIn : A .tptIn = true) (a_mcIn : A .mcIn = true) (a_fifelIn : A .fifelIn = true) (a_samples : A .samples = true) (a_sampleLost : A .sampleLost = true) (a_clh : A .clh = true) (a_rotate : A .rotate = true) (a_freeCtr : A .freeCtr = true) (a_nextId : A .nextId = true) (a_out : A .out = true) : Upd A s0 t := by
  unfold execCoordPeriod at e
  cases e
  repeat' first
    | with_reducible assumption
    | lift_lets
    | with_reducible apply State.sendCoords_upd

theorem execHeadAssign_upd_eq {A : Fld → Bool} {s0 s : State} {t : State} (h : Upd A s0 s) (e : execHeadAssign s = .next t) (a_regs : A .regs = true) (a_ports : A .ports = true) (a_hls : A .hls = true) (a_fns : A .fns = true) (a_clhIn : A .clhIn = true) (a_tptIn : A .tptIn = true) (a_relayIn : A .relayIn = true) (a_mgIn : A .mgIn = true) (a_mcIn : A .mcIn = true) (a_fifelIn : A .fifelIn = true) (a_samples : A .samples = true) (a_sampleLost : A .sampleLost = true) (a_clh : A .clh = true) (a_boot : A .boot = true) (a_rotate : A .rotate = true) (a_freeCtr : A .freeCtr = true) (a_nextId : A .nextId = true) (a_out : A .out = true) : Upd A s0 t := by
  unfold execHeadAssign at e
  cases e
  repeat' first
    | with_reducible assumption
    | lift_lets
    | (intro x1; clear_value x1)
    | (intro x1; have x2 := fun a => x1 a; clear x2; subst x1)
    | (intro s1; refine (fun (hs1 : Upd A s0 s1) => ?_) ?_; clear_value s1; rotate_left; subst s1; rotate_left)
    | intro x1
    | with_reducible apply State.withCoord_upd
    | with_reducible apply State.keysAdd_upd
    | split
    | with_reducible apply Upd.to_boot
    | dsimp only
    | dsimp +zetaDelta only

theorem execGroupkeys_upd_eq {A : Fld → Bool} {s0 s : State} {t : State} (h : Upd A s0 s) (e : execGroupkeys s = .next t) (a_regs : A .regs = true) (a_ports : A .ports = true) (a_hls : A .hls = true) (a_fns : A .fns = true) (a_clhIn : A .clhIn = true) (a_tptIn : A .tptIn = true) (a_relayIn : A .relayIn = true) (a_mgIn : A .mgIn = true) (a_mcIn : A .mcIn = true) (a_fifelIn : A .fifelIn = true) (a_samples : A .samples = true) (a_sampleLost : A .sampleLost = true) (a_clh : A .clh = true) (a_boot : A .boot = true) (a_izg : A .izg = true) (a_rotate : A .rotate = true) (a_freeCtr : A .freeCtr = true) (a_nextId : A .nextId = true) (a_out : A .out = true) : Upd A s0 t := by
  unfold execGroupkeys at e
  cases e
  repeat' first
    | with_reducible assumption
    | (intro s1; refine (fun (hs1 : Upd A s0 s1) => ?_) ?_; clear_value s1; rotate_left; subst s1; rotate_left)
    | intro x1
    | with_reducible apply State.withCoord_upd
    | with_reducible apply State.keysAdd_upd
    | with_reducible refine State.takeMg_upd_eq ?_ (by assumption) (by assumption)
    | split

theorem execGroupkeysPeriod_upd_eq {A : Fld → Bool} {s0 s : State} {t : State} (h : Upd A s0 s) (e : execGroupkeysPeriod s = .next t) (a_regs : A .regs = true) (a_ports : A .ports = true) (a_hls : A .hls = true) (a_fns : A .fns = true) (a_clhIn : A .clhIn = true) (a_tptIn : A .tptIn = true) (a_mcIn : A .mcIn = true) (a_fifelIn : A .fifelIn = true) (a_samples : A .samples = true) (a_sampleLost : A .sampleLost = true) (a_clh : A .clh = true) (a_rotate : A .rotate = true) (a_freeCtr : A .freeCtr = true) (a_nextId : A .nextId = true) (a_out : A .out = true) : Upd A s0 t := by
  unfold execGroupkeysPeriod at e
  cases e
  repeat' first
    | with_reducible assumption
    | with_reducible apply State.sendKeys_upd
    | split

theorem execCoordTimeout_upd_eq {A : Fld → Bool} {s0 s : State} {t : State} (h : Upd A s0 s) (e : execCoordTimeout s = .next t) (a_regs : A .regs = true) : Upd A s0 t := by
  unfold execCoordTimeout at e
  cases e
  repeat' first
    | with_reducible assumption
    | with_reducible apply State.set_upd
    | split

theorem execTablesDoneTimer_upd_eq {A : Fld → Bool} {s0 s : State} {t : State} (h : Upd A s0 s) (e : execTablesDoneTimer s = .next t) (a_regs : A .regs = true) : Upd A s0 t := by
  unfold execTablesDoneTimer at e
  cases e
  repeat' first
    | with_reducible assumption
    | with_reducible apply State.set_upd
    | split

theorem execUpgradeStart_upd_eq {A : Fld → Bool} {s0 s : State} {t : State} (h : Upd A s0 s) (e : execUpgradeStart s = .next t) (a_regs : A .regs = true) (a_ports : A .ports = true) (a_hls : A .hls = true) (a_fns : A .fns = true) (a_clhIn : A .clhIn = true) (a_tptIn : A .tptIn = true) (a_mcIn : A .mcIn = true) (a_fifelIn : A .fifelIn = true) (a_samples : A .samples = true) (a_sampleLost : A .sampleLost = true) (a_clh : A .clh = true) (a_boot : A .boot = true) (a_rotate : A .rotate = true) (a_freeCtr : A .freeCtr = true) (a_nextId : A .nextId = true) (a_out : A .out = true) : Upd A s0 t := by
  unfold execUpgradeStart at e
  cases e
  repeat' first
    | with_reducible assumption
    | with_reducible apply State.startUpgrade_upd
    | split

theorem execBringupStart_upd_eq {A : Fld → Bool} {s0 s : State} {x1 : Writer} {t : State} (h : Upd A s0 s) (e : execBringupStart x1 s = .next t) (a_regs : A .regs = true) (a_ports : A .ports = true) (a_hls : A .hls = true) (a_fns : A .fns = true) (a_movOwn : A .movOwn = true) (a_clhIn : A .clhIn = true) (a_tptIn : A .tptIn = true) (a_mcIn : A .mcIn = true) (a_fifelIn : A .fifelIn = true) (a_samples : A .samples = true) (a_sampleLost : A .sampleLost = true) (a_clh : A .clh = true) (a_boot : A .boot = true) (a_rotate : A .rotate = true) (a_freeCtr : A .freeCtr = true) (a_nextId : A .nextId = true) (a_out : A .out = true) : Upd A s0 t := by
  unfold execBringupStart at e
  cases e
  repeat' first
    | with_reducible assumption
    | lift_lets
    | intro x1
    | with_reducible apply State.startUpgrade_upd
    | with_reducible apply State.reaching_upd
    | split
    | dsimp only

theorem execTilePassStart_upd_eq {A : Fld → Bool} {s0 s : State} {x1 : Fin 8} {t : State} (h : Upd A s0 s) (e : execTilePassStart x1 s = .next t) (a_regs : A .regs = true) (a_ports : A .ports = true) (a_hls : A .hls = true) (a_fns : A .fns = true) (a_clhIn : A .clhIn = true) (a_tptIn : A .tptIn = true) (a_relayIn : A .relayIn = true) (a_mgIn : A .mgIn = true) (a_mcIn : A .mcIn = true) (a_fifelIn : A .fifelIn = true) (a_samples : A .samples = true) (a_sampleLost : A .sampleLost = true) (a_clh : A .clh = true) (a_boot : A .boot = true) (a_rotate : A .rotate = true) (a_freeCtr : A .freeCtr = true) (a_nextId : A .nextId = true) (a_out : A .out = true) : Upd A s0 t := by
  unfold execTilePassStart at e
  cases e
  repeat' first
    | with_reducible assumption
    | with_reducible apply State.upgradeCheck_upd
    | with_reducible apply State.passAdvance_upd
    | split
    | exact { h with boot := .inl a_boot, keeps := fun i => { h.keeps i with } }

theorem execPortWaitTimeout_upd_eq {A : Fld → Bool} {s0 s : State} {x1 : Fin 8} {t : State} (h : Upd A s0 s) (e : execPortWaitTimeout x1 s = .next t) (a_regs : A .regs = true) (a_ports : A .ports = true) (a_hls : A .hls = true) (a_fns : A .fns = true) (a_clhIn : A .clhIn = true) (a_tptIn : A .tptIn = true) (a_relayIn : A .relayIn = true) (a_mgIn : A .mgIn = true) (a_mcIn : A .mcIn = true) (a_fifelIn : A .fifelIn = true) (a_samples : A .samples = true) (a_sampleLost : A .sampleLost = true) (a_clh : A .clh = true) (a_boot : A .boot = true) (a_rotate : A .rotate = true) (a_freeCtr : A .freeCtr = true) (a_nextId : A .nextId = true) (a_out : A .out = true) : Upd A s0 t := by
  unfold execPortWaitTimeout at e
  cases e
  repeat' first
    | with_reducible assumption
    | with_reducible apply State.passNext_upd
    | split

theorem execUpgradeLimitExpiry_upd_eq {A : Fld → Bool} {s0 s : State} {t : State} (h : Upd A s0 s) (e : execUpgradeLimitExpiry s = .next t) (a_regs : A .regs = true) (a_ports : A .ports = true) (a_hls : A .hls = true) (a_fns : A .fns = true) (a_clhIn : A .clhIn = true) (a_tptIn : A .tptIn = true) (a_mcIn : A .mcIn = true) (a_fifelIn : A .fifelIn = true) (a_samples : A .samples = true) (a_sampleLost : A .sampleLost = true) (a_clh : A .clh = true) (a_boot : A .boot = true) (a_rotate : A .rotate = true) (a_freeCtr : A .freeCtr = true) (a_nextId : A .nextId = true) (a_out : A .out = true) : Upd A s0 t := by
  unfold execUpgradeLimitExpiry at e
  cases e
  repeat' first
    | with_reducible assumption
    | with_reducible apply State.endUpgrade_upd
    | split

end Sys2Proof.Machine
end

