-- ==== Sys2Proof/Laws/FrameHost.lean ====
section
/-!
SUPPORT. Laws/FrameHost.lean: which parts of State each operation of Machine/Host.lean may change, and that it keeps the invariant.
-/
namespace Sys2Proof.Machine
set_option linter.unusedTactic false
set_option linter.unreachableTactic false
set_option linter.unusedVariables false

theorem State.bmeFree_upd {A : Fld → Bool} {s0 s : State} (x1 : ℕ) (x2 : ℕ) (h : Upd A s0 s) (a_regs : A .regs = true) (a_accts : A .accts = true) : Upd A s0 (State.bmeFree s x1 x2) := by
  unfold State.bmeFree
  repeat' first
    | with_reducible assumption
    | (intro s1; refine (fun (hs1 : Upd A s0 s1) => ?_) ?_; clear_value s1; rotate_left; subst s1; rotate_left)
    | intro x1
    | lift_lets
    | with_reducible apply State.setB_upd
    | with_reducible apply State.set_upd
    | with_reducible apply State.modAcct_upd
    | with_reducible apply Upd.fold
    | split

theorem State.flushEnd_upd {A : Fld → Bool} {s0 s : State} (x1 : Flush) (x2 : Bool) (h : Upd A s0 s) (a_regs : A .regs = true) (a_hls : A .hls = true) (a_fns : A .fns = true) (a_accts : A .accts = true) (a_movs : A .movs = true) (a_openMsgs : A .openMsgs = true) (a_filter : A .filter = true) (a_orders : A .orders = true) (a_flushes : A .flushes = true) (a_tags : A .tags = true) (a_qsHere : A .qsHere = true) (a_qsInj : A .qsInj = true) (a_out : A .out = true) : Upd A s0 (State.flushEnd s x1 x2) := by
  unfold State.flushEnd
  repeat' first
    | with_reducible assumption
    | intro x1
    | (intro s1; refine (fun (hs1 : Upd A s0 s1) => ?_) ?_; clear_value s1; rotate_left; subst s1; rotate_left)
    | lift_lets
    | with_reducible apply State.closeOpen_upd
    | with_reducible apply State.set_upd
    | with_reducible apply State.freeTag_upd
    | with_reducible apply State.modMov_upd
    | split
    | exact { h with flushes := .inl a_flushes, keeps := fun i => { h.keeps i with } }
    | with_reducible apply Upd.getD
    | dsimp only
    | with_reducible apply Upd.to_flushes

theorem State.flushFails_upd {A : Fld → Bool} {s0 s : State} (x1 : ℕ) (h : Upd A s0 s) (a_regs : A .regs = true) (a_hls : A .hls = true) (a_fns : A .fns = true) (a_accts : A .accts = true) (a_movs : A .movs = true) (a_openMsgs : A .openMsgs = true) (a_filter : A .filter = true) (a_orders : A .orders = true) (a_flushes : A .flushes = true) (a_tags : A .tags = true) (a_qsHere : A .qsHere = true) (a_qsInj : A .qsInj = true) (a_out : A .out = true) : Upd A s0 (State.flushFails s x1) := by
  unfold State.flushFails
  repeat' first
    | with_reducible assumption
    | intro x1
    | lift_lets
    | with_reducible apply State.flushEnd_upd
    | with_reducible apply Upd.fold
    | with_reducible apply Upd.getD
    | split
    | dsimp only

theorem State.hostKick_upd {A : Fld → Bool} {s0 s : State} (x1 : ℕ) (h : Upd A s0 s) (a_regs : A .regs = true) (a_ports : A .ports = true) (a_hls : A .hls = true) (a_fns : A .fns = true) (a_accts : A .accts = true) (a_ctxs : A .ctxs = true) (a_trees : A .trees = true) (a_movs : A .movs = true) (a_srcMsgs : A .srcMsgs = true) (a_openMsgs : A .openMsgs = true) (a_filter : A .filter = true) (a_rankCache : A .rankCache = true) (a_orders : A .orders = true) (a_aptWaits : A .aptWaits = true) (a_flushes : A .flushes = true) (a_notices : A .notices = true) (a_acctCmds : A .acctCmds = true) (a_entries : A .entries = true) (a_lmatches : A .lmatches = true) (a_tags : A .tags = true) (a_clhIn : A .clhIn = true) (a_tptIn : A .tptIn = true) (a_mcIn : A .mcIn = true) (a_fifelIn : A .fifelIn = true) (a_qsHere : A .qsHere = true) (a_qsInj : A .qsInj = true) (a_samples : A .samples = true) (a_sampleLost : A .sampleLost = true) (a_clh : A .clh = true) (a_rotate : A .rotate = true) (a_freeCtr : A .freeCtr = true) (a_nextId : A .nextId = true) (a_out : A .out = true) : Upd A s0 (State.hostKick s x1) := by
  unfold State.hostKick
  repeat' first
    | with_reducible assumption
    | intro x1
    | lift_lets
    | with_reducible apply State.postFlush_upd
    | with_reducible apply State.flushIssue_upd
    | with_reducible apply State.acctFetch_upd
    | with_reducible apply State.alyKick_upd
    | with_reducible apply State.aptKick_upd
    | with_reducible apply State.ctxKick_upd
    | with_reducible apply State.eagerKick_upd
    | with_reducible apply State.flushFails_upd
    | with_reducible apply Upd.fold
    | split
    | dsimp only

theorem execFlushReadReturn_upd_eq {A : Fld → Bool} {s0 s : State} {x1 : HostLink} {x2 : Bool} {t : State} (h : Upd A s0 s) (e : execFlushReadReturn x1 x2 s = .next t) (a_regs : A .regs = true) (a_ports : A .ports = true) (a_hls : A .hls = true) (a_fns : A .fns = true) (a_accts : A .accts = true) (a_ctxs : A .ctxs = true) (a_trees : A .trees = true) (a_movs : A .movs = true) (a_srcMsgs : A .srcMsgs = true) (a_openMsgs : A .openMsgs = true) (a_filter : A .filter = true) (a_rankCache : A .rankCache = true) (a_orders : A .orders = true) (a_aptWaits : A .aptWaits = true) (a_flushes : A .flushes = true) (a_notices : A .notices = true) (a_acctCmds : A .acctCmds = true) (a_entries : A .entries = true) (a_lmatches : A .lmatches = true) (a_tags : A .tags = true) (a_clhIn : A .clhIn = true) (a_tptIn : A .tptIn = true) (a_mcIn : A .mcIn = true) (a_fifelIn : A .fifelIn = true) (a_qsHere : A .qsHere = true) (a_qsInj : A .qsInj = true) (a_samples : A .samples = true) (a_sampleLost : A .sampleLost = true) (a_clh : A .clh = true) (a_rotate : A .rotate = true) (a_freeCtr : A .freeCtr = true) (a_nextId : A .nextId = true) (a_out : A .out = true) : Upd A s0 t := by
  unfold execFlushReadReturn at e
  cases e
  repeat' first
    | with_reducible assumption
    | intro x1
    | lift_lets
    | with_reducible apply State.hostKick_upd
    | with_reducible apply State.flushEnd_upd
    | with_reducible apply State.flushFails_upd
    | split
    | dsimp only

theorem State.tagDeliver_upd {A : Fld → Bool} {s0 s : State} (x1 : Tag) (x2 : Option (List Byte × Bool)) (h : Upd A s0 s) (a_regs : A .regs = true) (a_ports : A .ports = true) (a_hls : A .hls = true) (a_fns : A .fns = true) (a_accts : A .accts = true) (a_ctxs : A .ctxs = true) (a_movs : A .movs = true) (a_srcMsgs : A .srcMsgs = true) (a_openMsgs : A .openMsgs = true) (a_filter : A .filter = true) (a_rankCache : A .rankCache = true) (a_orders : A .orders = true) (a_aptWaits : A .aptWaits = true) (a_flushes : A .flushes = true) (a_notices : A .notices = true) (a_acctCmds : A .acctCmds = true) (a_lmatches : A .lmatches = true) (a_tags : A .tags = true) (a_clhIn : A .clhIn = true) (a_tptIn : A .tptIn = true) (a_mcIn : A .mcIn = true) (a_fifelIn : A .fifelIn = true) (a_qsHere : A .qsHere = true) (a_qsInj : A .qsInj = true) (a_samples : A .samples = true) (a_sampleLost : A .sampleLost = true) (a_clh : A .clh = true) (a_pwr : A .pwr = true) (a_boot : A .boot = true) (a_rotate : A .rotate = true) (a_freeCtr : A .freeCtr = true) (a_nextId : A .nextId = true) (a_out : A .out = true) : Upd A s0 (State.tagDeliver s x1 x2) := by
  unfold State.tagDeliver
  repeat' first
    | with_reducible assumption
    | intro x1
    | (intro x1; clear_value x1)
    | lift_lets
    | with_reducible apply State.free_upd
    | with_reducible apply State.flushEnd_upd
    | with_reducible apply State.orderFill_upd
    | with_reducible apply State.emit_upd
    | with_reducible apply State.fetchDone_upd
    | with_reducible apply State.aptRankRead_upd
    | with_reducible apply State.modHl_upd
    | with_reducible refine Upd.ofSnd (by assumption) ?_
    | split
    | dsimp only

theorem State.dropTag_upd {A : Fld → Bool} {s0 s : State} (x1 : ℕ) (x2 : ℕ) (x3 : ℕ) (h : Upd A s0 s) (a_regs : A .regs = true) (a_tags : A .tags = true) : Upd A s0 (State.dropTag s x1 x2 x3) := by
  unfold State.dropTag
  repeat' first
    | with_reducible assumption
    | intro x1
    | lift_lets
    | with_reducible apply State.tagStat_upd
    | exact { h with tags := .inl a_tags, keeps := fun i => { h.keeps i with } }
    | split
    | dsimp only
    | with_reducible apply Upd.to_tags

theorem execHostCompletionReceive_upd_eq {A : Fld → Bool} {s0 s : State} {x1 : HostLink} {x2 : FnNo} {x3 : ℕ} {x4 : CplStatus} {x5 : Bytes} {t : State} (h : Upd A s0 s) (e : execHostCompletionReceive x1 x2 x3 x4 x5 s = .next t) (a_regs : A .regs = true) (a_ports : A .ports = true) (a_hls : A .hls = true) (a_fns : A .fns = true) (a_accts : A .accts = true) (a_ctxs : A .ctxs = true) (a_trees : A .trees = true) (a_movs : A .movs = true) (a_srcMsgs : A .srcMsgs = true) (a_openMsgs : A .openMsgs = true) (a_filter : A .filter = true) (a_rankCache : A .rankCache = true) (a_orders : A .orders = true) (a_aptWaits : A .aptWaits = true) (a_flushes : A .flushes = true) (a_notices : A .notices = true) (a_acctCmds : A .acctCmds = true) (a_entries : A .entries = true) (a_lmatches : A .lmatches = true) (a_tags : A .tags = true) (a_clhIn : A .clhIn = true) (a_tptIn : A .tptIn = true) (a_mcIn : A .mcIn = true) (a_fifelIn : A .fifelIn = true) (a_qsHere : A .qsHere = true) (a_qsInj : A .qsInj = true) (a_samples : A .samples = true) (a_sampleLost : A .sampleLost = true) (a_clh : A .clh = true) (a_pwr : A .pwr = true) (a_boot : A .boot = true) (a_rotate : A .rotate = true) (a_freeCtr : A .freeCtr = true) (a_nextId : A .nextId = true) (a_out : A .out = true) : Upd A s0 t := by
  unfold execHostCompletionReceive at e
  cases e
  repeat' first
    | with_reducible assumption
    | (intro s1; refine (fun (hs1 : Upd A s0 s1) => ?_) ?_; clear_value s1; rotate_left; subst s1; rotate_left)
    | (intro x1; clear_value x1)
    | intro x1
    | lift_lets
    | with_reducible apply State.aerAdvise_upd
    | with_reducible apply State.bump_upd
    | with_reducible apply State.dropTag_upd
    | with_reducible apply State.hostKick_upd
    | with_reducible apply State.tagDeliver_upd
    | with_reducible apply State.pciErr_upd
    | with_reducible apply State.poisonSta_upd
    | split
    | dsimp only

theorem execCompletionTimeout_upd_eq {A : Fld → Bool} {s0 s : State} {x1 : HostLink} {x2 : FnNo} {x3 : ℕ} {t : State} (h : Upd A s0 s) (e : execCompletionTimeout x1 x2 x3 s = .next t) (a_regs : A .regs = true) (a_ports : A .ports = true) (a_hls : A .hls = true) (a_fns : A .fns = true) (a_accts : A .accts = true) (a_ctxs : A .ctxs = true) (a_trees : A .trees = true) (a_movs : A .movs = true) (a_srcMsgs : A .srcMsgs = true) (a_openMsgs : A .openMsgs = true) (a_filter : A .filter = true) (a_rankCache : A .rankCache = true) (a_orders : A .orders = true) (a_aptWaits : A .aptWaits = true) (a_flushes : A .flushes = true) (a_notices : A .notices = true) (a_acctCmds : A .acctCmds = true) (a_entries : A .entries = true) (a_lmatches : A .lmatches = true) (a_tags : A .tags = true) (a_clhIn : A .clhIn = true) (a_tptIn : A .tptIn = true) (a_mcIn : A .mcIn = true) (a_fifelIn : A .fifelIn = true) (a_qsHere : A .qsHere = true) (a_qsInj : A .qsInj = true) (a_samples : A .samples = true) (a_sampleLost : A .sampleLost = true) (a_clh : A .clh = true) (a_pwr : A .pwr = true) (a_boot : A .boot = true) (a_rotate : A .rotate = true) (a_freeCtr : A .freeCtr = true) (a_nextId : A .nextId = true) (a_out : A .out = true) : Upd A s0 t := by
  unfold execCompletionTimeout at e
  cases e
  repeat' first
    | with_reducible assumption
    | intro x1
    | (intro x1; clear_value x1)
    | (intro s1; refine (fun (hs1 : Upd A s0 s1) => ?_) ?_; clear_value s1; rotate_left; subst s1; rotate_left)
    | lift_lets
    | with_reducible apply State.tagDeliver_upd
    | with_reducible apply State.bump_upd
    | with_reducible apply State.hostKick_upd
    | with_reducible apply State.aerAdvise_upd
    | with_reducible apply State.tagStat_upd
    | split
    | with_reducible apply Upd.to_tags
    | dsimp only

theorem execQuarantineExpiry_upd_eq {A : Fld → Bool} {s0 s : State} {x1 : HostLink} {x2 : FnNo} {x3 : ℕ} {t : State} (h : Upd A s0 s) (e : execQuarantineExpiry x1 x2 x3 s = .next t) (a_regs : A .regs = true) (a_ports : A .ports = true) (a_hls : A .hls = true) (a_fns : A .fns = true) (a_accts : A .accts = true) (a_ctxs : A .ctxs = true) (a_trees : A .trees = true) (a_movs : A .movs = true) (a_srcMsgs : A .srcMsgs = true) (a_openMsgs : A .openMsgs = true) (a_filter : A .filter = true) (a_rankCache : A .rankCache = true) (a_orders : A .orders = true) (a_aptWaits : A .aptWaits = true) (a_flushes : A .flushes = true) (a_notices : A .notices = true) (a_acctCmds : A .acctCmds = true) (a_entries : A .entries = true) (a_lmatches : A .lmatches = true) (a_tags : A .tags = true) (a_clhIn : A .clhIn = true) (a_tptIn : A .tptIn = true) (a_mcIn : A .mcIn = true) (a_fifelIn : A .fifelIn = true) (a_qsHere : A .qsHere = true) (a_qsInj : A .qsInj = true) (a_samples : A .samples = true) (a_sampleLost : A .sampleLost = true) (a_clh : A .clh = true) (a_rotate : A .rotate = true) (a_freeCtr : A .freeCtr = true) (a_nextId : A .nextId = true) (a_out : A .out = true) : Upd A s0 t := by
  unfold execQuarantineExpiry at e
  cases e
  repeat' first
    | with_reducible assumption
    | intro x1
    | lift_lets
    | with_reducible apply State.hostKick_upd
    | with_reducible apply State.dropTag_upd
    | split
    | dsimp only

theorem State.atcClear_upd {A : Fld → Bool} {s0 s : State} (x1 : ℕ) (x2 : ℕ) (h : Upd A s0 s) (a_regs : A .regs = true) (a_hls : A .hls = true) : Upd A s0 (State.atcClear s x1 x2) := by
  unfold State.atcClear
  repeat' first
    | with_reducible assumption
    | lift_lets
    | with_reducible apply State.modHl_upd
    | with_reducible apply State.atsStat_upd

theorem State.ctoUpd_upd {A : Fld → Bool} {s0 s : State} (x1 : ℕ) (h : Upd A s0 s) (a_regs : A .regs = true) : Upd A s0 (State.ctoUpd s x1) := by
  unfold State.ctoUpd
  repeat' first
    | with_reducible assumption
    | lift_lets
    | with_reducible apply State.set_upd

theorem State.fnReset_upd {A : Fld → Bool} {s0 s : State} (x1 : ℕ) (x2 : ℕ) (h : Upd A s0 s) (a_regs : A .regs = true) (a_ports : A .ports = true) (a_hls : A .hls = true) (a_fns : A .fns = true) (a_accts : A .accts = true) (a_ctxs : A .ctxs = true) (a_trees : A .trees = true) (a_movs : A .movs = true) (a_srcMsgs : A .srcMsgs = true) (a_openMsgs : A .openMsgs = true) (a_filter : A .filter = true) (a_keyCache : A .keyCache = true) (a_rankCache : A .rankCache = true) (a_orders : A .orders = true) (a_aptWaits : A .aptWaits = true) (a_flushes : A .flushes = true) (a_notices : A .notices = true) (a_acctCmds : A .acctCmds = true) (a_entries : A .entries = true) (a_lmatches : A .lmatches = true) (a_ovfBufs : A .ovfBufs = true) (a_tags : A .tags = true) (a_moveWait : A .moveWait = true) (a_clhIn : A .clhIn = true) (a_tptIn : A .tptIn = true) (a_mcIn : A .mcIn = true) (a_fifelIn : A .fifelIn = true) (a_qsHere : A .qsHere = true) (a_qsInj : A .qsInj = true) (a_samples : A .samples = true) (a_sampleLost : A .sampleLost = true) (a_clh : A .clh = true) (a_pwr : A .pwr = true) (a_boot : A .boot = true) (a_rotate : A .rotate = true) (a_freeCtr : A .freeCtr = true) (a_nextId : A .nextId = true) (a_out : A .out = true) : Upd A s0 (State.fnReset s x1 x2) := by
  unfold State.fnReset
  repeat' first
    | with_reducible assumption
    | (intro s1; refine (fun (hs1 : Upd A s0 s1) => ?_) ?_; clear_value s1; rotate_left; subst s1; rotate_left)
    | intro x1
    | lift_lets
    | with_reducible apply State.acctReset_upd
    | with_reducible apply State.intxOne_upd
    | with_reducible apply State.modFn_upd
    | with_reducible apply State.modHl_upd
    | with_reducible apply State.ctoUpd_upd
    | with_reducible apply State.bmeFree_upd
    | with_reducible apply State.hostVotes_upd
    | with_reducible apply State.atcClear_upd
    | with_reducible apply State.vfsOff_upd
    | with_reducible apply State.flushEnd_upd
    | with_reducible apply Upd.fold
    | split
    | dsimp only

theorem execFunctionLevelReset_upd_eq {A : Fld → Bool} {s0 s : State} {x1 : HostLink} {x2 : FnNo} {t : State} (h : Upd A s0 s) (e : execFunctionLevelReset x1 x2 s = .next t) (a_regs : A .regs = true) (a_ports : A .ports = true) (a_hls : A .hls = true) (a_fns : A .fns = true) (a_accts : A .accts = true) (a_ctxs : A .ctxs = true) (a_trees : A .trees = true) (a_movs : A .movs = true) (a_srcMsgs : A .srcMsgs = true) (a_openMsgs : A .openMsgs = true) (a_filter : A .filter = true) (a_keyCache : A .keyCache = true) (a_rankCache : A .rankCache = true) (a_orders : A .orders = true) (a_aptWaits : A .aptWaits = true) (a_flushes : A .flushes = true) (a_notices : A .notices = true) (a_acctCmds : A .acctCmds = true) (a_entries : A .entries = true) (a_lmatches : A .lmatches = true) (a_ovfBufs : A .ovfBufs = true) (a_tags : A .tags = true) (a_moveWait : A .moveWait = true) (a_clhIn : A .clhIn = true) (a_tptIn : A .tptIn = true) (a_mcIn : A .mcIn = true) (a_fifelIn : A .fifelIn = true) (a_qsHere : A .qsHere = true) (a_qsInj : A .qsInj = true) (a_samples : A .samples = true) (a_sampleLost : A .sampleLost = true) (a_clh : A .clh = true) (a_pwr : A .pwr = true) (a_boot : A .boot = true) (a_rotate : A .rotate = true) (a_freeCtr : A .freeCtr = true) (a_nextId : A .nextId = true) (a_out : A .out = true) : Upd A s0 t := by
  unfold execFunctionLevelReset at e
  cases e
  repeat' first
    | with_reducible assumption
    | (intro s1; refine (fun (hs1 : Upd A s0 s1) => ?_) ?_; clear_value s1; rotate_left; subst s1; rotate_left)
    | lift_lets
    | with_reducible apply State.hostKick_upd
    | with_reducible apply State.set_upd
    | with_reducible apply State.fnReset_upd
    | split

theorem State.fnReady_upd {A : Fld → Bool} {s0 s : State} (x1 : ℕ) (x2 : ℕ) (h : Upd A s0 s) (a_hls : A .hls = true) (a_fns : A .fns = true) (a_out : A .out = true) : Upd A s0 (State.fnReady s x1 x2) := by
  unfold State.fnReady
  repeat' first
    | with_reducible assumption
    | intro x1
    | (intro s1; refine (fun (hs1 : Upd A s0 s1) => ?_) ?_; clear_value s1; rotate_left; subst s1; rotate_left)
    | lift_lets
    | with_reducible apply State.modFn_upd
    | with_reducible apply State.modHl_upd
    | with_reducible apply State.emit_upd
    | split
    | dsimp only

theorem State.mvSquash_upd {A : Fld → Bool} {s0 s : State} (x1 : ℕ) (h : Upd A s0 s) (a_regs : A .regs = true) (a_movs : A .movs = true) (a_flushes : A .flushes = true) : Upd A s0 (State.mvSquash s x1) := by
  unfold State.mvSquash
  repeat' first
    | with_reducible assumption
    | intro x1
    | lift_lets
    | with_reducible apply State.mvIdle_upd
    | split
    | dsimp only
    | with_reducible apply Upd.to_flushes

theorem State.pf0Drain_upd {A : Fld → Bool} {s0 s : State} (x1 : ℕ) (h : Upd A s0 s) (a_regs : A .regs = true) (a_ports : A .ports = true) (a_hls : A .hls = true) (a_fns : A .fns = true) (a_accts : A .accts = true) (a_movs : A .movs = true) (a_orders : A .orders = true) (a_tags : A .tags = true) (a_clhIn : A .clhIn = true) (a_tptIn : A .tptIn = true) (a_mcIn : A .mcIn = true) (a_fifelIn : A .fifelIn = true) (a_samples : A .samples = true) (a_sampleLost : A .sampleLost = true) (a_clh : A .clh = true) (a_pwr : A .pwr = true) (a_boot : A .boot = true) (a_rotate : A .rotate = true) (a_freeCtr : A .freeCtr = true) (a_nextId : A .nextId = true) (a_out : A .out = true) : Upd A s0 (State.pf0Drain s x1) := by
  unfold State.pf0Drain
  repeat' first
    | with_reducible assumption
    | intro x1
    | lift_lets
    | with_reducible apply State.mvDone_upd
    | with_reducible apply Upd.fold
    | split
    | dsimp only

theorem execFlrDrainEnd_upd_eq {A : Fld → Bool} {s0 s : State} {x1 : HostLink} {x2 : FnNo} {t : State} (h : Upd A s0 s) (e : execFlrDrainEnd x1 x2 s = .next t) (a_regs : A .regs = true) (a_ports : A .ports = true) (a_hls : A .hls = true) (a_fns : A .fns = true) (a_accts : A .accts = true) (a_ctxs : A .ctxs = true) (a_trees : A .trees = true) (a_movs : A .movs = true) (a_srcMsgs : A .srcMsgs = true) (a_openMsgs : A .openMsgs = true) (a_filter : A .filter = true) (a_keyCache : A .keyCache = true) (a_rankCache : A .rankCache = true) (a_orders : A .orders = true) (a_aptWaits : A .aptWaits = true) (a_flushes : A .flushes = true) (a_notices : A .notices = true) (a_acctCmds : A .acctCmds = true) (a_entries : A .entries = true) (a_lmatches : A .lmatches = true) (a_ovfBufs : A .ovfBufs = true) (a_tags : A .tags = true) (a_moveWait : A .moveWait = true) (a_clhIn : A .clhIn = true) (a_tptIn : A .tptIn = true) (a_mcIn : A .mcIn = true) (a_fifelIn : A .fifelIn = true) (a_qsHere : A .qsHere = true) (a_qsInj : A .qsInj = true) (a_samples : A .samples = true) (a_sampleLost : A .sampleLost = true) (a_clh : A .clh = true) (a_pwr : A .pwr = true) (a_boot : A .boot = true) (a_rotate : A .rotate = true) (a_freeCtr : A .freeCtr = true) (a_nextId : A .nextId = true) (a_out : A .out = true) : Upd A s0 t := by
  unfold execFlrDrainEnd at e
  cases e
  repeat' first
    | with_reducible assumption
    | (intro s1; refine (fun (hs1 : Upd A s0 s1) => ?_) ?_; clear_value s1; rotate_left; subst s1; rotate_left)
    | (intro x1; clear_value x1)
    | intro x1
    | lift_lets
    | with_reducible apply State.drainEnd_upd
    | with_reducible apply State.fnReady_upd
    | with_reducible apply State.pf0Drain_upd
    | with_reducible apply Upd.fold
    | split
    | dsimp only

theorem execDrainSquashTimer_upd_eq {A : Fld → Bool} {s0 s : State} {x1 : HostLink} {x2 : FnNo} {t : State} (h : Upd A s0 s) (e : execDrainSquashTimer x1 x2 s = .next t) (a_regs : A .regs = true) (a_ports : A .ports = true) (a_hls : A .hls = true) (a_fns : A .fns = true) (a_accts : A .accts = true) (a_ctxs : A .ctxs = true) (a_trees : A .trees = true) (a_movs : A .movs = true) (a_srcMsgs : A .srcMsgs = true) (a_openMsgs : A .openMsgs = true) (a_filter : A .filter = true) (a_keyCache : A .keyCache = true) (a_rankCache : A .rankCache = true) (a_orders : A .orders = true) (a_aptWaits : A .aptWaits = true) (a_flushes : A .flushes = true) (a_notices : A .notices = true) (a_acctCmds : A .acctCmds = true) (a_entries : A .entries = true) (a_lmatches : A .lmatches = true) (a_ovfBufs : A .ovfBufs = true) (a_tags : A .tags = true) (a_moveWait : A .moveWait = true) (a_clhIn : A .clhIn = true) (a_tptIn : A .tptIn = true) (a_mcIn : A .mcIn = true) (a_fifelIn : A .fifelIn = true) (a_qsHere : A .qsHere = true) (a_qsInj : A .qsInj = true) (a_samples : A .samples = true) (a_sampleLost : A .sampleLost = true) (a_clh : A .clh = true) (a_pwr : A .pwr = true) (a_boot : A .boot = true) (a_rotate : A .rotate = true) (a_freeCtr : A .freeCtr = true) (a_nextId : A .nextId = true) (a_out : A .out = true) : Upd A s0 t := by
  unfold execDrainSquashTimer at e
  cases e
  repeat' first
    | with_reducible assumption
    | (intro s1; refine (fun (hs1 : Upd A s0 s1) => ?_) ?_; clear_value s1; rotate_left; subst s1; rotate_left)
    | (intro x1; have x2 := fun a => x1 a; clear x2; subst x1)
    | (intro x1; clear_value x1)
    | intro x1
    | lift_lets
    | with_reducible apply State.activityUpd_upd
    | with_reducible apply State.drainEnd_upd
    | with_reducible apply State.fnReady_upd
    | with_reducible apply State.mvSquash_upd
    | with_reducible apply State.tagStat_upd
    | with_reducible apply Upd.fold
    | split
    | dsimp only
    | with_reducible apply Upd.to_tags
    | dsimp +zetaDelta only

theorem State.hostDown_upd {A : Fld → Bool} {s0 s : State} (x1 : ℕ) (h : Upd A s0 s) (a_regs : A .regs = true) (a_ports : A .ports = true) (a_hls : A .hls = true) (a_fns : A .fns = true) (a_accts : A .accts = true) (a_ctxs : A .ctxs = true) (a_trees : A .trees = true) (a_movs : A .movs = true) (a_srcMsgs : A .srcMsgs = true) (a_openMsgs : A .openMsgs = true) (a_filter : A .filter = true) (a_keyCache : A .keyCache = true) (a_rankCache : A .rankCache = true) (a_orders : A .orders = true) (a_aptWaits : A .aptWaits = true) (a_flushes : A .flushes = true) (a_notices : A .notices = true) (a_acctCmds : A .acctCmds = true) (a_entries : A .entries = true) (a_lmatches : A .lmatches = true) (a_ovfBufs : A .ovfBufs = true) (a_tags : A .tags = true) (a_moveWait : A .moveWait = true) (a_clhIn : A .clhIn = true) (a_tptIn : A .tptIn = true) (a_mcIn : A .mcIn = true) (a_fifelIn : A .fifelIn = true) (a_qsHere : A .qsHere = true) (a_qsInj : A .qsInj = true) (a_samples : A .samples = true) (a_sampleLost : A .sampleLost = true) (a_clh : A .clh = true) (a_pwr : A .pwr = true) (a_boot : A .boot = true) (a_rotate : A .rotate = true) (a_freeCtr : A .freeCtr = true) (a_nextId : A .nextId = true) (a_out : A .out = true) : Upd A s0 (State.hostDown s x1) := by
  unfold State.hostDown
  dsimp only
  apply State.hostVotes_upd <;> try assumption
  apply State.atsStat_upd <;> try assumption
  refine Upd.to_fns _ ?_ (by assumption) (fun _ i => tasc_map _ (fun _ => rfl) i.fns)
  apply State.modHl_upd <;> try assumption
  apply State.fnReset_upd <;> try assumption
  apply State.fnReset_upd <;> try assumption
  refine Upd.fold ?_ fun u x hu => ?_
  · split
    · apply State.set_upd <;> try assumption
      apply State.set_upd <;> try assumption
      apply State.set_upd <;> try assumption
      apply State.set_upd <;> try assumption
      apply State.set_upd <;> assumption
    · apply State.set_upd <;> try assumption
      apply State.set_upd <;> try assumption
      apply State.set_upd <;> try assumption
      apply State.set_upd <;> assumption
  · apply State.dropTag_upd <;> try assumption
    split
    · exact hu
    · apply State.tagDeliver_upd <;> assumption

theorem execDlDown_upd_eq {A : Fld → Bool} {s0 s : State} {x1 : HostLink} {t : State} (h : Upd A s0 s) (e : execDlDown x1 s = .next t) (a_regs : A .regs = true) (a_ports : A .ports = true) (a_hls : A .hls = true) (a_fns : A .fns = true) (a_accts : A .accts = true) (a_ctxs : A .ctxs = true) (a_trees : A .trees = true) (a_movs : A .movs = true) (a_srcMsgs : A .srcMsgs = true) (a_openMsgs : A .openMsgs = true) (a_filter : A .filter = true) (a_keyCache : A .keyCache = true) (a_rankCache : A .rankCache = true) (a_orders : A .orders = true) (a_aptWaits : A .aptWaits = true) (a_flushes : A .flushes = true) (a_notices : A .notices = true) (a_acctCmds : A .acctCmds = true) (a_entries : A .entries = true) (a_lmatches : A .lmatches = true) (a_ovfBufs : A .ovfBufs = true) (a_tags : A .tags = true) (a_moveWait : A .moveWait = true) (a_clhIn : A .clhIn = true) (a_tptIn : A .tptIn = true) (a_mcIn : A .mcIn = true) (a_fifelIn : A .fifelIn = true) (a_qsHere : A .qsHere = true) (a_qsInj : A .qsInj = true) (a_samples : A .samples = true) (a_sampleLost : A .sampleLost = true) (a_clh : A .clh = true) (a_pwr : A .pwr = true) (a_boot : A .boot = true) (a_rotate : A .rotate = true) (a_freeCtr : A .freeCtr = true) (a_nextId : A .nextId = true) (a_out : A .out = true) : Upd A s0 t := by
  unfold execDlDown at e
  cases e
  repeat' first
    | with_reducible assumption
    | lift_lets
    | with_reducible apply State.activityUpd_upd
    | with_reducible apply State.hostDown_upd
    | split

theorem execHotReset_upd_eq {A : Fld → Bool} {s0 s : State} {x1 : HostLink} {t : State} (h : Upd A s0 s) (e : execHotReset x1 s = .next t) (a_regs : A .regs = true) (a_ports : A .ports = true) (a_hls : A .hls = true) (a_fns : A .fns = true) (a_accts : A .accts = true) (a_ctxs : A .ctxs = true) (a_trees : A .trees = true) (a_movs : A .movs = true) (a_srcMsgs : A .srcMsgs = true) (a_openMsgs : A .openMsgs = true) (a_filter : A .filter = true) (a_keyCache : A .keyCache = true) (a_rankCache : A .rankCache = true) (a_orders : A .orders = true) (a_aptWaits : A .aptWaits = true) (a_flushes : A .flushes = true) (a_notices : A .notices = true) (a_acctCmds : A .acctCmds = true) (a_entries : A .entries = true) (a_lmatches : A .lmatches = true) (a_ovfBufs : A .ovfBufs = true) (a_tags : A .tags = true) (a_moveWait : A .moveWait = true) (a_clhIn : A .clhIn = true) (a_tptIn : A .tptIn = true) (a_mcIn : A .mcIn = true) (a_fifelIn : A .fifelIn = true) (a_qsHere : A .qsHere = true) (a_qsInj : A .qsInj = true) (a_samples : A .samples = true) (a_sampleLost : A .sampleLost = true) (a_clh : A .clh = true) (a_pwr : A .pwr = true) (a_boot : A .boot = true) (a_rotate : A .rotate = true) (a_freeCtr : A .freeCtr = true) (a_nextId : A .nextId = true) (a_out : A .out = true) : Upd A s0 t := by
  unfold execHotReset at e
  cases e
  repeat' first
    | with_reducible assumption
    | lift_lets
    | with_reducible apply State.set_upd
    | with_reducible apply State.activityUpd_upd
    | with_reducible apply State.hostDown_upd
    | split

theorem State.wakePin_upd {A : Fld → Bool} {s0 s : State} (x1 : ℕ) (h : Upd A s0 s) (a_wakeLow : A .wakeLow = true) (a_out : A .out = true) : Upd A s0 (State.wakePin s x1) := by
  unfold State.wakePin
  repeat' first
    | with_reducible assumption
    | lift_lets
    | with_reducible apply State.emit_upd
    | split
    | with_reducible apply Upd.to_wakeLow

theorem execPerstAssert_upd_eq {A : Fld → Bool} {s0 s : State} {x1 : Fin 4} {t : State} (h : Upd A s0 s) (e : execPerstAssert x1 s = .next t) (a_regs : A .regs = true) (a_ports : A .ports = true) (a_hls : A .hls = true) (a_fns : A .fns = true) (a_accts : A .accts = true) (a_ctxs : A .ctxs = true) (a_trees : A .trees = true) (a_movs : A .movs = true) (a_srcMsgs : A .srcMsgs = true) (a_openMsgs : A .openMsgs = true) (a_filter : A .filter = true) (a_keyCache : A .keyCache = true) (a_rankCache : A .rankCache = true) (a_orders : A .orders = true) (a_aptWaits : A .aptWaits = true) (a_flushes : A .flushes = true) (a_notices : A .notices = true) (a_acctCmds : A .acctCmds = true) (a_entries : A .entries = true) (a_lmatches : A .lmatches = true) (a_ovfBufs : A .ovfBufs = true) (a_tags : A .tags = true) (a_moveWait : A .moveWait = true) (a_clhIn : A .clhIn = true) (a_tptIn : A .tptIn = true) (a_mcIn : A .mcIn = true) (a_fifelIn : A .fifelIn = true) (a_qsHere : A .qsHere = true) (a_qsInj : A .qsInj = true) (a_samples : A .samples = true) (a_sampleLost : A .sampleLost = true) (a_clh : A .clh = true) (a_pwr : A .pwr = true) (a_boot : A .boot = true) (a_wakeLow : A .wakeLow = true) (a_rotate : A .rotate = true) (a_freeCtr : A .freeCtr = true) (a_nextId : A .nextId = true) (a_out : A .out = true) : Upd A s0 t := by
  unfold execPerstAssert at e
  cases e
  repeat' first
    | with_reducible assumption
    | (intro s1; refine (fun (hs1 : Upd A s0 s1) => ?_) ?_; clear_value s1; rotate_left; subst s1; rotate_left)
    | (intro x1; clear_value x1)
    | intro x1
    | lift_lets
    | with_reducible apply State.activityUpd_upd
    | with_reducible apply State.evalDom_upd
    | with_reducible apply State.hostDown_upd
    | with_reducible apply State.modHl_upd
    | with_reducible apply State.set_upd
    | with_reducible apply State.wakePin_upd
    | with_reducible apply Upd.fold
    | split
    | dsimp only

theorem execPerstDeassert_upd_eq {A : Fld → Bool} {s0 s : State} {x1 : Fin 4} {t : State} (h : Upd A s0 s) (e : execPerstDeassert x1 s = .next t) (a_regs : A .regs = true) (a_ports : A .ports = true) (a_fns : A .fns = true) (a_pwr : A .pwr = true) (a_wakeLow : A .wakeLow = true) (a_freeCtr : A .freeCtr = true) (a_out : A .out = true) : Upd A s0 t := by
  unfold execPerstDeassert at e
  cases e
  repeat' first
    | with_reducible assumption
    | lift_lets
    | with_reducible apply State.evalDom_upd
    | with_reducible apply State.set_upd
    | with_reducible apply State.wakePin_upd

theorem State.hostReady_upd {A : Fld → Bool} {s0 s : State} (x1 : ℕ) (h : Upd A s0 s) (a_hls : A .hls = true) (a_out : A .out = true) : Upd A s0 (State.hostReady s x1) := by
  unfold State.hostReady
  repeat' first
    | with_reducible assumption
    | intro x1
    | lift_lets
    | with_reducible apply State.emit_upd
    | with_reducible apply State.modHl_upd
    | split
    | dsimp only

theorem execHostLinkUp_upd_eq {A : Fld → Bool} {s0 s : State} {x1 : HostLink} {x2 : BitVec 3} {x3 : BitVec 5} {x4 : Bool} {t : State} (h : Upd A s0 s) (e : execHostLinkUp x1 x2 x3 x4 s = .next t) (a_regs : A .regs = true) (a_ports : A .ports = true) (a_hls : A .hls = true) (a_fns : A .fns = true) (a_accts : A .accts = true) (a_ctxs : A .ctxs = true) (a_trees : A .trees = true) (a_movs : A .movs = true) (a_srcMsgs : A .srcMsgs = true) (a_openMsgs : A .openMsgs = true) (a_filter : A .filter = true) (a_rankCache : A .rankCache = true) (a_orders : A .orders = true) (a_aptWaits : A .aptWaits = true) (a_flushes : A .flushes = true) (a_notices : A .notices = true) (a_acctCmds : A .acctCmds = true) (a_entries : A .entries = true) (a_lmatches : A .lmatches = true) (a_tags : A .tags = true) (a_clhIn : A .clhIn = true) (a_tptIn : A .tptIn = true) (a_mcIn : A .mcIn = true) (a_fifelIn : A .fifelIn = true) (a_qsHere : A .qsHere = true) (a_qsInj : A .qsInj = true) (a_samples : A .samples = true) (a_sampleLost : A .sampleLost = true) (a_clh : A .clh = true) (a_pwr : A .pwr = true) (a_boot : A .boot = true) (a_rotate : A .rotate = true) (a_freeCtr : A .freeCtr = true) (a_nextId : A .nextId = true) (a_out : A .out = true) : Upd A s0 t := by
  unfold execHostLinkUp at e
  cases e
  repeat' first
    | with_reducible assumption
    | (intro s1; refine (fun (hs1 : Upd A s0 s1) => ?_) ?_; clear_value s1; rotate_left; subst s1; rotate_left)
    | (intro x1; clear_value x1)
    | intro x1
    | lift_lets
    | with_reducible apply State.flushEnd_upd
    | with_reducible apply State.hostKick_upd
    | with_reducible apply State.hostReady_upd
    | with_reducible apply State.hostVotes_upd
    | with_reducible apply State.modHl_upd
    | with_reducible apply State.set_upd
    | with_reducible apply State.setB_upd
    | with_reducible apply State.intxOne_upd
    | with_reducible apply Upd.fold
    | split
    | dsimp only

theorem execBmeClear_upd_eq {A : Fld → Bool} {s0 s : State} {x1 : HostLink} {x2 : FnNo} {t : State} (h : Upd A s0 s) (e : execBmeClear x1 x2 s = .next t) (a_regs : A .regs = true) (a_fns : A .fns = true) : Upd A s0 t := by
  unfold execBmeClear at e
  cases e
  repeat' first
    | with_reducible assumption
    | lift_lets
    | with_reducible apply State.set_upd
    | with_reducible apply State.modFn_upd
    | split

theorem State.fnResume_upd {A : Fld → Bool} {s0 s : State} (x1 : ℕ) (x2 : ℕ) (h : Upd A s0 s) (a_regs : A .regs = true) (a_ports : A .ports = true) (a_hls : A .hls = true) (a_fns : A .fns = true) (a_accts : A .accts = true) (a_ctxs : A .ctxs = true) (a_trees : A .trees = true) (a_movs : A .movs = true) (a_srcMsgs : A .srcMsgs = true) (a_openMsgs : A .openMsgs = true) (a_filter : A .filter = true) (a_rankCache : A .rankCache = true) (a_orders : A .orders = true) (a_aptWaits : A .aptWaits = true) (a_flushes : A .flushes = true) (a_notices : A .notices = true) (a_acctCmds : A .acctCmds = true) (a_entries : A .entries = true) (a_lmatches : A .lmatches = true) (a_tags : A .tags = true) (a_clhIn : A .clhIn = true) (a_tptIn : A .tptIn = true) (a_mcIn : A .mcIn = true) (a_fifelIn : A .fifelIn = true) (a_qsHere : A .qsHere = true) (a_qsInj : A .qsInj = true) (a_samples : A .samples = true) (a_sampleLost : A .sampleLost = true) (a_clh : A .clh = true) (a_rotate : A .rotate = true) (a_freeCtr : A .freeCtr = true) (a_nextId : A .nextId = true) (a_out : A .out = true) : Upd A s0 (State.fnResume s x1 x2) := by
  unfold State.fnResume
  repeat' first
    | with_reducible assumption
    | lift_lets
    | with_reducible apply State.hostKick_upd
    | with_reducible apply State.bmeFree_upd
    | with_reducible apply State.msixFlush_upd
    | split

theorem execBmeSet_upd_eq {A : Fld → Bool} {s0 s : State} {x1 : HostLink} {x2 : FnNo} {t : State} (h : Upd A s0 s) (e : execBmeSet x1 x2 s = .next t) (a_regs : A .regs = true) (a_ports : A .ports = true) (a_hls : A .hls = true) (a_fns : A .fns = true) (a_accts : A .accts = true) (a_ctxs : A .ctxs = true) (a_trees : A .trees = true) (a_movs : A .movs = true) (a_srcMsgs : A .srcMsgs = true) (a_openMsgs : A .openMsgs = true) (a_filter : A .filter = true) (a_rankCache : A .rankCache = true) (a_orders : A .orders = true) (a_aptWaits : A .aptWaits = true) (a_flushes : A .flushes = true) (a_notices : A .notices = true) (a_acctCmds : A .acctCmds = true) (a_entries : A .entries = true) (a_lmatches : A .lmatches = true) (a_tags : A .tags = true) (a_clhIn : A .clhIn = true) (a_tptIn : A .tptIn = true) (a_mcIn : A .mcIn = true) (a_fifelIn : A .fifelIn = true) (a_qsHere : A .qsHere = true) (a_qsInj : A .qsInj = true) (a_samples : A .samples = true) (a_sampleLost : A .sampleLost = true) (a_clh : A .clh = true) (a_rotate : A .rotate = true) (a_freeCtr : A .freeCtr = true) (a_nextId : A .nextId = true) (a_out : A .out = true) : Upd A s0 t := by
  unfold execBmeSet at e
  cases e
  repeat' first
    | with_reducible assumption
    | lift_lets
    | with_reducible apply State.fnResume_upd
    | with_reducible apply State.modFn_upd
    | split

theorem execD3hotEnter_upd_eq {A : Fld → Bool} {s0 s : State} {x1 : HostLink} {x2 : FnNo} {t : State} (h : Upd A s0 s) (e : execD3hotEnter x1 x2 s = .next t) (a_regs : A .regs = true) (a_ports : A .ports = true) (a_hls : A .hls = true) (a_fns : A .fns = true) (a_clhIn : A .clhIn = true) (a_tptIn : A .tptIn = true) (a_mcIn : A .mcIn = true) (a_fifelIn : A .fifelIn = true) (a_samples : A .samples = true) (a_sampleLost : A .sampleLost = true) (a_clh : A .clh = true) (a_pwr : A .pwr = true) (a_boot : A .boot = true) (a_rotate : A .rotate = true) (a_freeCtr : A .freeCtr = true) (a_nextId : A .nextId = true) (a_out : A .out = true) : Upd A s0 t := by
  unfold execD3hotEnter at e
  cases e
  repeat' first
    | with_reducible assumption
    | lift_lets
    | with_reducible apply State.modFn_upd
    | with_reducible apply State.hostVotes_upd
    | split

theorem execD0Return_upd_eq {A : Fld → Bool} {s0 s : State} {x1 : HostLink} {x2 : FnNo} {t : State} (h : Upd A s0 s) (e : execD0Return x1 x2 s = .next t) (a_regs : A .regs = true) (a_ports : A .ports = true) (a_hls : A .hls = true) (a_fns : A .fns = true) (a_accts : A .accts = true) (a_ctxs : A .ctxs = true) (a_trees : A .trees = true) (a_movs : A .movs = true) (a_srcMsgs : A .srcMsgs = true) (a_openMsgs : A .openMsgs = true) (a_filter : A .filter = true) (a_rankCache : A .rankCache = true) (a_orders : A .orders = true) (a_aptWaits : A .aptWaits = true) (a_flushes : A .flushes = true) (a_notices : A .notices = true) (a_acctCmds : A .acctCmds = true) (a_entries : A .entries = true) (a_lmatches : A .lmatches = true) (a_tags : A .tags = true) (a_clhIn : A .clhIn = true) (a_tptIn : A .tptIn = true) (a_mcIn : A .mcIn = true) (a_fifelIn : A .fifelIn = true) (a_qsHere : A .qsHere = true) (a_qsInj : A .qsInj = true) (a_samples : A .samples = true) (a_sampleLost : A .sampleLost = true) (a_clh : A .clh = true) (a_pwr : A .pwr = true) (a_boot : A .boot = true) (a_rotate : A .rotate = true) (a_freeCtr : A .freeCtr = true) (a_nextId : A .nextId = true) (a_out : A .out = true) : Upd A s0 t := by
  unfold execD0Return at e
  cases e
  repeat' first
    | with_reducible assumption
    | lift_lets
    | with_reducible apply State.fnResume_upd
    | with_reducible apply State.modFn_upd
    | with_reducible apply State.hostVotes_upd
    | split

theorem execUnsupportedRequest_upd_eq {A : Fld → Bool} {s0 s : State} {x1 : HostLink} {x2 : FnNo} {x3 : Fin 3} {t : State} (h : Upd A s0 s) (e : execUnsupportedRequest x1 x2 x3 s = .next t) (a_fns : A .fns = true) (a_freeCtr : A .freeCtr = true) (a_out : A .out = true) : Upd A s0 t := by
  unfold execUnsupportedRequest at e
  cases e
  repeat' first
    | with_reducible assumption
    | intro x1
    | (intro x1; clear_value x1)
    | lift_lets
    | with_reducible apply State.cplErr_upd
    | split
    | dsimp only

theorem execTranslationCompletion_upd_eq {A : Fld → Bool} {s0 s : State} {x1 : HostLink} {x2 : FnNo} {x3 : ℕ} {x4 : TransResult} {t : State} (h : Upd A s0 s) (e : execTranslationCompletion x1 x2 x3 x4 s = .next t) (a_regs : A .regs = true) (a_ports : A .ports = true) (a_hls : A .hls = true) (a_fns : A .fns = true) (a_accts : A .accts = true) (a_ctxs : A .ctxs = true) (a_trees : A .trees = true) (a_movs : A .movs = true) (a_srcMsgs : A .srcMsgs = true) (a_openMsgs : A .openMsgs = true) (a_filter : A .filter = true) (a_rankCache : A .rankCache = true) (a_orders : A .orders = true) (a_aptWaits : A .aptWaits = true) (a_flushes : A .flushes = true) (a_notices : A .notices = true) (a_acctCmds : A .acctCmds = true) (a_entries : A .entries = true) (a_lmatches : A .lmatches = true) (a_tags : A .tags = true) (a_clhIn : A .clhIn = true) (a_tptIn : A .tptIn = true) (a_mcIn : A .mcIn = true) (a_fifelIn : A .fifelIn = true) (a_qsHere : A .qsHere = true) (a_qsInj : A .qsInj = true) (a_samples : A .samples = true) (a_sampleLost : A .sampleLost = true) (a_clh : A .clh = true) (a_rotate : A .rotate = true) (a_freeCtr : A .freeCtr = true) (a_nextId : A .nextId = true) (a_out : A .out = true) : Upd A s0 t := by
  unfold execTranslationCompletion at e
  cases e
  repeat' first
    | with_reducible assumption
    | intro x1
    | (intro x1; clear_value x1)
    | (intro s1; refine (fun (hs1 : Upd A s0 s1) => ?_) ?_; clear_value s1; rotate_left; subst s1; rotate_left)
    | (intro x1; have x2 := fun a => x1 a; clear x2; subst x1)
    | (intro x1; have x2 := Prod.snd x1; clear x2; subst x1)
    | lift_lets
    | with_reducible apply State.atsDenied_upd
    | with_reducible apply State.hostKick_upd
    | with_reducible apply State.modHl_upd
    | with_reducible apply State.atsStat_upd
    | with_reducible apply State.freeTag_upd
    | with_reducible apply State.tagStat_upd
    | with_reducible apply State.bump_upd
    | split
    | dsimp only
    | with_reducible apply Upd.to_tags
    | dsimp +zetaDelta only

theorem State.invalTake_upd {A : Fld → Bool} {s0 s : State} (x1 : ℕ) (x2 : HeldInval) (h : Upd A s0 s) (a_regs : A .regs = true) (a_hls : A .hls = true) (a_fns : A .fns = true) (a_flushes : A .flushes = true) (a_tags : A .tags = true) (a_out : A .out = true) : Upd A s0 (State.invalTake s x1 x2) := by
  unfold State.invalTake
  repeat' first
    | with_reducible assumption
    | (intro s1; refine (fun (hs1 : Upd A s0 s1) => ?_) ?_; clear_value s1; rotate_left; subst s1; rotate_left)
    | (intro x1; have x2 := fun a => x1 a; clear x2; subst x1)
    | (intro x1; clear_value x1)
    | intro x1
    | lift_lets
    | with_reducible apply State.atsStat_upd
    | with_reducible apply State.bump_upd
    | with_reducible apply State.emit_upd
    | with_reducible apply State.modHl_upd
    | split
    | dsimp only
    | with_reducible apply Upd.to_tags
    | dsimp +zetaDelta only
    | with_reducible apply Upd.to_flushes_tags

theorem execInvalidateRequest_upd_eq {A : Fld → Bool} {s0 s : State} {x1 : HostLink} {x2 : FnNo} {x3 : BitVec 5} {x4 : Option (BitVec 20)} {x5 : Bool} {x6 : ℕ} {x7 : ℕ} {t : State} (h : Upd A s0 s) (e : execInvalidateRequest x1 x2 x3 x4 x5 x6 x7 s = .next t) (a_regs : A .regs = true) (a_hls : A .hls = true) (a_fns : A .fns = true) (a_flushes : A .flushes = true) (a_tags : A .tags = true) (a_out : A .out = true) : Upd A s0 t := by
  unfold execInvalidateRequest at e
  cases e
  repeat' first
    | with_reducible assumption
    | intro x1
    | (intro x1; clear_value x1)
    | (intro s1; refine (fun (hs1 : Upd A s0 s1) => ?_) ?_; clear_value s1; rotate_left; subst s1; rotate_left)
    | lift_lets
    | with_reducible apply State.modHl_upd
    | with_reducible apply State.invalTake_upd
    | split
    | with_reducible apply Upd.to_tags
    | dsimp only

theorem State.invalNext_upd {A : Fld → Bool} {s0 s : State} (x1 : ℕ) (h : Upd A s0 s) (a_regs : A .regs = true) (a_hls : A .hls = true) (a_fns : A .fns = true) (a_flushes : A .flushes = true) (a_tags : A .tags = true) (a_out : A .out = true) : Upd A s0 (State.invalNext s x1) := by
  unfold State.invalNext
  repeat' first
    | with_reducible assumption
    | intro x1
    | lift_lets
    | with_reducible apply State.invalTake_upd
    | with_reducible apply State.modHl_upd
    | split
    | dsimp only

theorem execInvalidateCompletion_upd_eq {A : Fld → Bool} {s0 s : State} {x1 : HostLink} {x2 : BitVec 5} {t : State} (h : Upd A s0 s) (e : execInvalidateCompletion x1 x2 s = .next t) (a_regs : A .regs = true) (a_hls : A .hls = true) (a_fns : A .fns = true) (a_flushes : A .flushes = true) (a_tags : A .tags = true) (a_out : A .out = true) : Upd A s0 t := by
  unfold execInvalidateCompletion at e
  cases e
  repeat' first
    | with_reducible assumption
    | intro x1
    | (intro x1; clear_value x1)
    | lift_lets
    | with_reducible apply State.bump_upd
    | with_reducible apply State.modHl_upd
    | with_reducible apply State.atsStat_upd
    | with_reducible apply State.emit_upd
    | with_reducible apply State.invalNext_upd
    | split
    | dsimp only

theorem State.takeTags_upd_eq {A : Fld → Bool} {s0 s : State} {x1 : ℕ} {x2 : ℕ} {x3 : ℕ} {x4 : ℕ} {x5 : Option ℕ} {x6 : List (ℕ × ℕ)} {t : State} (h : Upd A s0 s) (e : State.takeTags s x1 x2 x3 x4 x5 x6 = some t) (a_regs : A .regs = true) (a_hls : A .hls = true) (a_fns : A .fns = true) (a_tags : A .tags = true) (a_out : A .out = true) : Upd A s0 t := by
  induction x6 generalizing s with
  | nil => unfold State.takeTags at e; cases e; exact h
  | cons q r ih =>
    obtain ⟨a, l⟩ := q
    unfold State.takeTags at e
    split at e
    · refine ih ?_ e
      apply State.readTlp_upd <;> try assumption
      with_reducible refine Upd.ofSnd (by assumption) ?_
      apply State.takeTag_upd <;> assumption
    · cases e

theorem State.outPiece_upd {A : Fld → Bool} {s0 s : State} (x1 : ℕ) (x2 : ℕ) (x3 : ℕ) (x4 : Option (List Byte × Bool)) (h : Upd A s0 s) (a_regs : A .regs = true) (a_hls : A .hls = true) (a_fns : A .fns = true) (a_tags : A .tags = true) (a_clhIn : A .clhIn = true) (a_freeCtr : A .freeCtr = true) (a_out : A .out = true) : Upd A s0 (State.outPiece s x1 x2 x3 x4) := by
  unfold State.outPiece
  repeat' first
    | with_reducible assumption
    | intro x1
    | lift_lets
    | with_reducible apply State.emit_upd
    | with_reducible apply State.lbxCheck_upd
    | with_reducible apply State.owinFault_upd
    | with_reducible apply State.owinGate_upd
    | with_reducible apply State.post_upd
    | with_reducible refine State.takeTags_upd_eq ?_ (by assumption) (by assumption) (by assumption) (by assumption) (by assumption) (by assumption)
    | with_reducible apply State.tagWait_upd
    | with_reducible refine Upd.ofSnd (by assumption) ?_
    | split
    | dsimp only

theorem execOutboundAccess_upd_eq {A : Fld → Bool} {s0 s : State} {x1 : Fin 128} {x2 : BitVec 48} {x3 : Bool} {x4 : Bytes} {x5 : Bool} {x6 : BitVec 13} {t : State} (h : Upd A s0 s) (e : execOutboundAccess x1 x2 x3 x4 x5 x6 s = .next t) (a_regs : A .regs = true) (a_hls : A .hls = true) (a_fns : A .fns = true) (a_tags : A .tags = true) (a_clhIn : A .clhIn = true) (a_freeCtr : A .freeCtr = true) (a_out : A .out = true) : Upd A s0 t := by
  unfold execOutboundAccess at e
  cases e
  repeat' first
    | with_reducible assumption
    | intro x1
    | (intro x1; clear_value x1)
    | lift_lets
    | with_reducible apply State.outPiece_upd
    | with_reducible refine Upd.ofSnd (by assumption) ?_
    | split
    | with_reducible apply Upd.fold
    | dsimp only

end Sys2Proof.Machine
end

