-- ==== Sys2Proof/Laws/FrameHallmark.lean ====
section
/-!
SUPPORT. Laws/FrameHallmark.lean: which parts of State each operation of Machine/Hallmark.lean may change, and that it keeps the invariant.
-/
namespace Sys2Proof.Machine
set_option linter.unusedTactic false
set_option linter.unreachableTactic false
set_option linter.unusedVariables false

theorem State.hmkSend_upd {A : Fld → Bool} {s0 s : State} (x1 : ℕ) (x2 : ℕ) (h : Upd A s0 s) (a_regs : A .regs = true) (a_hls : A .hls = true) (a_fns : A .fns = true) (a_qsInj : A .qsInj = true) (a_out : A .out = true) : Upd A s0 (State.hmkSend s x1 x2) := by
  unfold State.hmkSend
  repeat' first
    | with_reducible assumption
    | lift_lets
    | with_reducible apply State.bump_upd
    | with_reducible apply State.injUpd_upd
    | split
    | refine Upd.to_qsInj _ ?_ (by assumption) (fun _ i => length_snoc (by assumption))

theorem State.hmkForm1On_upd {A : Fld → Bool} {s0 s : State} (x1 : ℕ) (h : Upd A s0 s) (a_regs : A .regs = true) (a_hls : A .hls = true) (a_fns : A .fns = true) (a_qsInj : A .qsInj = true) (a_out : A .out = true) : Upd A s0 (State.hmkForm1On s x1) := by
  unfold State.hmkForm1On
  repeat' first
    | with_reducible assumption
    | lift_lets
    | with_reducible apply State.hmkSend_upd

theorem State.hmkForm1All_upd {A : Fld → Bool} {s0 s : State} (h : Upd A s0 s) (a_regs : A .regs = true) (a_hls : A .hls = true) (a_fns : A .fns = true) (a_qsInj : A .qsInj = true) (a_out : A .out = true) : Upd A s0 (State.hmkForm1All s) := by
  unfold State.hmkForm1All
  repeat' first
    | with_reducible assumption
    | intro x1
    | lift_lets
    | with_reducible apply State.hmkForm1On_upd
    | with_reducible apply Upd.fold

theorem State.hmkPlace_upd {A : Fld → Bool} {s0 s : State} (x1 : Bool) (x2 : Option ℕ) (x3 : ℕ) (x4 : ℕ) (x5 : ℕ) (h : Upd A s0 s) (a_regs : A .regs = true) (a_hls : A .hls = true) (a_fns : A .fns = true) (a_clhIn : A .clhIn = true) (a_qsInj : A .qsInj = true) (a_hmk : A .hmk = true) (a_out : A .out = true) : Upd A s0 (State.hmkPlace s x1 x2 x3 x4 x5) := by
  unfold State.hmkPlace
  repeat' first
    | with_reducible assumption
    | lift_lets
    | with_reducible apply State.setB_upd
    | with_reducible apply State.bump_upd
    | with_reducible apply State.hmkForm1All_upd
    | with_reducible apply State.set_upd
    | with_reducible apply State.raise_upd
    | split
    | with_reducible apply Upd.to_hmk

theorem State.hmkElect_upd {A : Fld → Bool} {s0 s : State} (h : Upd A s0 s) (a_regs : A .regs = true) (a_hls : A .hls = true) (a_fns : A .fns = true) (a_clhIn : A .clhIn = true) (a_qsInj : A .qsInj = true) (a_hmk : A .hmk = true) (a_out : A .out = true) : Upd A s0 (State.hmkElect s) := by
  unfold State.hmkElect
  repeat' first
    | with_reducible assumption
    | (intro x1; clear_value x1)
    | lift_lets
    | with_reducible apply State.hmkPlace_upd
    | split

theorem State.hmkRate_upd {A : Fld → Bool} {s0 s : State} (x1 : ℤ) (h : Upd A s0 s) (a_regs : A .regs = true) : Upd A s0 (State.hmkRate s x1) := by
  unfold State.hmkRate
  repeat' first
    | with_reducible assumption
    | intro x1
    | lift_lets
    | with_reducible apply State.set_upd
    | split
    | dsimp only

theorem State.hmkSlew_upd {A : Fld → Bool} {s0 s : State} (x1 : ℤ) (h : Upd A s0 s) (a_regs : A .regs = true) (a_freeCtr : A .freeCtr = true) : Upd A s0 (State.hmkSlew s x1) := by
  unfold State.hmkSlew
  repeat' first
    | with_reducible assumption
    | intro x1
    | (intro x1; clear_value x1)
    | lift_lets
    | with_reducible apply State.free_upd
    | with_reducible apply State.hmkRate_upd
    | with_reducible refine Upd.ofSnd (by assumption) ?_
    | split
    | dsimp only

theorem State.hmkExt_upd {A : Fld → Bool} {s0 s : State} (x1 : ℕ) (h : Upd A s0 s) (a_regs : A .regs = true) : Upd A s0 (State.hmkExt s x1) := by
  unfold State.hmkExt
  repeat' first
    | with_reducible assumption
    | (intro x1; clear_value x1)
    | intro x1
    | lift_lets
    | with_reducible apply State.hmkRate_upd
    | split
    | dsimp only

theorem execHmkSyncPeriod_upd_eq {A : Fld → Bool} {s0 s : State} {x1 : ℕ} {t : State} (h : Upd A s0 s) (e : execHmkSyncPeriod x1 s = .next t) (a_regs : A .regs = true) (a_hls : A .hls = true) (a_fns : A .fns = true) (a_clhIn : A .clhIn = true) (a_qsInj : A .qsInj = true) (a_hmk : A .hmk = true) (a_out : A .out = true) : Upd A s0 t := by
  unfold execHmkSyncPeriod at e
  cases e
  repeat' first
    | with_reducible assumption
    | (intro x1; clear_value x1)
    | (intro s1; refine (fun (hs1 : Upd A s0 s1) => ?_) ?_; clear_value s1; rotate_left; subst s1; rotate_left)
    | intro x1
    | lift_lets
    | with_reducible apply State.hmkElect_upd
    | with_reducible apply State.hmkForm1On_upd
    | with_reducible apply State.hmkSend_upd
    | with_reducible apply State.hmkExt_upd
    | with_reducible apply Upd.fold
    | split
    | dsimp only
    | with_reducible apply Upd.to_hmk

theorem State.hmkTake_upd_eq {A : Fld → Bool} {s0 s : State} {x1 : Bool} {y0} {t : State} (h : Upd A s0 s) (e : State.hmkTake s x1 = some (y0, t)) (a_qsHere : A .qsHere = true) : Upd A s0 t := by
  unfold State.hmkTake at e
  revert e
  repeat' first
    | split
    | (intro e; refine Upd.ofMap e ?_)
    | (intro e; refine Upd.ofMapSnd e ?_)
    | (intro e; rw [← Option.some.inj e])
    | (intro e; rw [← (Prod.mk.inj (Option.some.inj e)).2])
    | (intro e; cases e; done)
    | with_reducible assumption
    | intro x1
    | lift_lets
    | exact { h with qsHere := .inl a_qsHere, keeps := fun i => { h.keeps i with } }

theorem execHmkSyncForm1_upd_eq {A : Fld → Bool} {s0 s : State} {t : State} (h : Upd A s0 s) (e : execHmkSyncForm1 s = .next t) (a_regs : A .regs = true) (a_ports : A .ports = true) (a_hls : A .hls = true) (a_fns : A .fns = true) (a_clhIn : A .clhIn = true) (a_qsHere : A .qsHere = true) (a_qsInj : A .qsInj = true) (a_hmk : A .hmk = true) (a_out : A .out = true) : Upd A s0 t := by
  unfold execHmkSyncForm1 at e
  cases e
  repeat' first
    | with_reducible assumption
    | lift_lets
    | with_reducible apply State.modPort_upd
    | with_reducible apply State.hmkElect_upd
    | with_reducible refine State.hmkTake_upd_eq ?_ (by assumption) (by assumption)
    | split
    | dsimp only

theorem execForm1AgeOut_upd_eq {A : Fld → Bool} {s0 s : State} {x1 : PortNo} {t : State} (h : Upd A s0 s) (e : execForm1AgeOut x1 s = .next t) (a_regs : A .regs = true) (a_ports : A .ports = true) (a_hls : A .hls = true) (a_fns : A .fns = true) (a_clhIn : A .clhIn = true) (a_qsInj : A .qsInj = true) (a_hmk : A .hmk = true) (a_out : A .out = true) : Upd A s0 t := by
  unfold execForm1AgeOut at e
  cases e
  repeat' first
    | with_reducible assumption
    | lift_lets
    | with_reducible apply State.modPort_upd
    | with_reducible apply State.hmkElect_upd
    | split

theorem execParentTimeout_upd_eq {A : Fld → Bool} {s0 s : State} {t : State} (h : Upd A s0 s) (e : execParentTimeout s = .next t) (a_regs : A .regs = true) : Upd A s0 t := by
  unfold execParentTimeout at e
  cases e
  repeat' first
    | with_reducible assumption
    | lift_lets
    | with_reducible apply State.set_upd
    | split

theorem State.hmkStep_upd {A : Fld → Bool} {s0 s : State} (x1 : ℤ) (x2 : ℕ) (h : Upd A s0 s) (a_regs : A .regs = true) (a_hls : A .hls = true) (a_fns : A .fns = true) (a_clhIn : A .clhIn = true) (a_out : A .out = true) : Upd A s0 (State.hmkStep s x1 x2) := by
  unfold State.hmkStep
  repeat' first
    | with_reducible assumption
    | (intro s1; refine (fun (hs1 : Upd A s0 s1) => ?_) ?_; clear_value s1; rotate_left; subst s1; rotate_left)
    | lift_lets
    | with_reducible apply State.bump_upd
    | with_reducible apply State.set_upd
    | with_reducible apply State.raise_upd

theorem State.hmkLock_upd {A : Fld → Bool} {s0 s : State} (x1 : ℤ) (x2 : ℕ) (h : Upd A s0 s) (a_regs : A .regs = true) (a_clhIn : A .clhIn = true) (a_hmk : A .hmk = true) : Upd A s0 (State.hmkLock s x1 x2) := by
  unfold State.hmkLock
  repeat' first
    | with_reducible assumption
    | (intro s1; refine (fun (hs1 : Upd A s0 s1) => ?_) ?_; clear_value s1; rotate_left; subst s1; rotate_left)
    | lift_lets
    | with_reducible apply State.set_upd
    | with_reducible apply State.raise_upd
    | split
    | with_reducible apply Upd.to_hmk

theorem State.hmkSteer_upd {A : Fld → Bool} {s0 s : State} (x1 : ℤ) (x2 : ℤ) (x3 : ℕ) (h : Upd A s0 s) (a_regs : A .regs = true) (a_hls : A .hls = true) (a_fns : A .fns = true) (a_clhIn : A .clhIn = true) (a_hmk : A .hmk = true) (a_freeCtr : A .freeCtr = true) (a_out : A .out = true) : Upd A s0 (State.hmkSteer s x1 x2 x3) := by
  unfold State.hmkSteer
  repeat' first
    | with_reducible assumption
    | intro x1
    | (intro s1; refine (fun (hs1 : Upd A s0 s1) => ?_) ?_; clear_value s1; rotate_left; subst s1; rotate_left)
    | lift_lets
    | with_reducible apply State.hmkStep_upd
    | with_reducible apply State.hmkLock_upd
    | with_reducible apply State.hmkSlew_upd
    | split
    | dsimp only

theorem execHmkSyncForm0_upd_eq {A : Fld → Bool} {s0 s : State} {t : State} (h : Upd A s0 s) (e : execHmkSyncForm0 s = .next t) (a_regs : A .regs = true) (a_ports : A .ports = true) (a_hls : A .hls = true) (a_fns : A .fns = true) (a_clhIn : A .clhIn = true) (a_qsHere : A .qsHere = true) (a_hmk : A .hmk = true) (a_freeCtr : A .freeCtr = true) (a_out : A .out = true) : Upd A s0 t := by
  unfold execHmkSyncForm0 at e
  cases e
  repeat' first
    | with_reducible assumption
    | intro x1
    | (intro x1; clear_value x1)
    | (intro s1; refine (fun (hs1 : Upd A s0 s1) => ?_) ?_; clear_value s1; rotate_left; subst s1; rotate_left)
    | lift_lets
    | with_reducible apply State.modPort_upd
    | with_reducible apply State.bump_upd
    | with_reducible apply State.hmkSteer_upd
    | with_reducible apply State.set_upd
    | with_reducible refine State.hmkTake_upd_eq ?_ (by assumption) (by assumption)
    | split
    | dsimp only
    | with_reducible apply Upd.getD

theorem State.hmkLoad_upd {A : Fld → Bool} {s0 s : State} (h : Upd A s0 s) (a_regs : A .regs = true) (a_clhIn : A .clhIn = true) (a_hmk : A .hmk = true) : Upd A s0 (State.hmkLoad s).2 := by
  unfold State.hmkLoad
  repeat' first
    | with_reducible assumption
    | lift_lets
    | with_reducible apply State.set_upd
    | with_reducible apply State.raise_upd
    | split
    | with_reducible apply Upd.to_hmk

theorem execHmkSet_upd_eq {A : Fld → Bool} {s0 s : State} {x1 : Writer} {t : State} (h : Upd A s0 s) (e : execHmkSet x1 s = .next t) (a_regs : A .regs = true) (a_hls : A .hls = true) (a_fns : A .fns = true) (a_movOwn : A .movOwn = true) (a_clhIn : A .clhIn = true) (a_hmk : A .hmk = true) (a_freeCtr : A .freeCtr = true) (a_out : A .out = true) : Upd A s0 t := by
  unfold execHmkSet at e
  cases e
  repeat' first
    | with_reducible assumption
    | intro x1
    | lift_lets
    | with_reducible apply State.hmkLoad_upd
    | with_reducible apply State.reaching_upd
    | with_reducible refine Upd.ofSnd (by assumption) ?_
    | split
    | dsimp only

theorem execHmkSetAtPps_upd_eq {A : Fld → Bool} {s0 s : State} {x1 : Writer} {t : State} (h : Upd A s0 s) (e : execHmkSetAtPps x1 s = .next t) (a_regs : A .regs = true) (a_hls : A .hls = true) (a_fns : A .fns = true) (a_movOwn : A .movOwn = true) (a_clhIn : A .clhIn = true) (a_freeCtr : A .freeCtr = true) (a_out : A .out = true) : Upd A s0 t := by
  unfold execHmkSetAtPps at e
  cases e
  repeat' first
    | with_reducible assumption
    | intro x1
    | lift_lets
    | with_reducible apply State.set_upd
    | with_reducible apply State.reaching_upd
    | split
    | dsimp only

theorem State.ppsCount_upd {A : Fld → Bool} {s0 s : State} (h : Upd A s0 s) (a_regs : A .regs = true) (a_hmk : A .hmk = true) : Upd A s0 (State.ppsCount s) := by
  unfold State.ppsCount
  repeat' first
    | with_reducible assumption
    | (intro s1; refine (fun (hs1 : Upd A s0 s1) => ?_) ?_; clear_value s1; rotate_left; subst s1; rotate_left)
    | intro x1
    | lift_lets
    | with_reducible apply State.set_upd
    | split
    | with_reducible apply Upd.to_hmk

theorem State.ppsEdge_upd {A : Fld → Bool} {s0 s : State} (x1 : ℤ) (h : Upd A s0 s) (a_regs : A .regs = true) (a_hls : A .hls = true) (a_fns : A .fns = true) (a_clhIn : A .clhIn = true) (a_hmk : A .hmk = true) (a_freeCtr : A .freeCtr = true) (a_out : A .out = true) : Upd A s0 (State.ppsEdge s x1) := by
  unfold State.ppsEdge
  repeat' first
    | with_reducible assumption
    | (intro s1; refine (fun (hs1 : Upd A s0 s1) => ?_) ?_; clear_value s1; rotate_left; subst s1; rotate_left)
    | lift_lets
    | with_reducible apply State.hmkLoad_upd
    | with_reducible apply State.ppsCount_upd
    | with_reducible apply State.hmkSteer_upd
    | with_reducible apply State.set_upd
    | with_reducible refine Upd.ofSnd (by assumption) ?_
    | split

theorem execPpsInEdge_upd_eq {A : Fld → Bool} {s0 s : State} {t : State} (h : Upd A s0 s) (e : execPpsInEdge s = .next t) (a_regs : A .regs = true) (a_hls : A .hls = true) (a_fns : A .fns = true) (a_clhIn : A .clhIn = true) (a_hmk : A .hmk = true) (a_freeCtr : A .freeCtr = true) (a_out : A .out = true) : Upd A s0 t := by
  unfold execPpsInEdge at e
  cases e
  repeat' first
    | with_reducible assumption
    | lift_lets
    | with_reducible apply State.ppsEdge_upd
    | with_reducible apply State.free_upd
    | with_reducible refine Upd.ofSnd (by assumption) ?_

theorem execHmkExtLost_upd_eq {A : Fld → Bool} {s0 s : State} {t : State} (h : Upd A s0 s) (e : execHmkExtLost s = .next t) (a_regs : A .regs = true) (a_clhIn : A .clhIn = true) (a_hmk : A .hmk = true) : Upd A s0 t := by
  unfold execHmkExtLost at e
  cases e
  repeat' first
    | with_reducible assumption
    | (intro s1; refine (fun (hs1 : Upd A s0 s1) => ?_) ?_; clear_value s1; rotate_left; subst s1; rotate_left)
    | lift_lets
    | with_reducible apply State.set_upd
    | with_reducible apply State.raise_upd
    | split
    | exact { h with hmk := .inl a_hmk, keeps := fun i => { h.keeps i with } }

theorem execPpsOutPulse_upd_eq {A : Fld → Bool} {s0 s : State} {t : State} (h : Upd A s0 s) (e : execPpsOutPulse s = .next t) (a_hmk : A .hmk = true) (a_out : A .out = true) : Upd A s0 t := by
  unfold execPpsOutPulse at e
  cases e
  repeat' first
    | with_reducible assumption
    | intro x1
    | (intro x1; clear_value x1)
    | lift_lets
    | with_reducible apply State.emit_upd
    | split
    | exact { h with hmk := .inl a_hmk, keeps := fun i => { h.keeps i with } }
    | dsimp only
    | with_reducible apply Upd.to_hmk

theorem execHmkTimerFire_upd_eq {A : Fld → Bool} {s0 s : State} {x1 : Fin 8} {t : State} (h : Upd A s0 s) (e : execHmkTimerFire x1 s = .next t) (a_regs : A .regs = true) (a_ports : A .ports = true) (a_hls : A .hls = true) (a_fns : A .fns = true) (a_clhIn : A .clhIn = true) (a_tptIn : A .tptIn = true) (a_mcIn : A .mcIn = true) (a_fifelIn : A .fifelIn = true) (a_samples : A .samples = true) (a_sampleLost : A .sampleLost = true) (a_clh : A .clh = true) (a_pwr : A .pwr = true) (a_boot : A .boot = true) (a_rotate : A .rotate = true) (a_freeCtr : A .freeCtr = true) (a_nextId : A .nextId = true) (a_out : A .out = true) : Upd A s0 t := by
  unfold execHmkTimerFire at e
  cases e
  repeat' first
    | with_reducible assumption
    | lift_lets
    | with_reducible apply State.timerCheck_upd

end Sys2Proof.Machine
end

