-- ==== Sys2Proof/Laws/FrameObserve.lean ====
section
/-!
SUPPORT. Laws/FrameObserve.lean: which parts of State each operation of Machine/Observe.lean may change, and that it keeps the invariant.
-/
namespace Sys2Proof.Machine
set_option linter.unusedTactic false
set_option linter.unreachableTactic false
set_option linter.unusedVariables false

theorem State.asyTrigger_upd {A : Fld → Bool} {s0 s : State} (x1 : ℕ) (h : Upd A s0 s) (a_regs : A .regs = true) (a_hls : A .hls = true) (a_fns : A .fns = true) (a_hmk : A .hmk = true) (a_trigFall : A .trigFall = true) (a_out : A .out = true) : Upd A s0 (State.asyTrigger s x1) := by
  unfold State.asyTrigger
  repeat' first
    | with_reducible assumption
    | (intro s1; refine (fun (hs1 : Upd A s0 s1) => ?_) ?_; clear_value s1; rotate_left; subst s1; rotate_left)
    | (intro x1; clear_value x1)
    | intro x1
    | lift_lets
    | with_reducible apply State.bump_upd
    | with_reducible apply State.emit_upd
    | with_reducible apply State.set_upd
    | with_reducible apply Upd.fold
    | split
    | dsimp only
    | with_reducible apply Upd.to_hmk
    | with_reducible apply Upd.to_trigFall

theorem State.asyTimed_upd {A : Fld → Bool} {s0 s : State} (x1 : Bool) (h : Upd A s0 s) (a_regs : A .regs = true) (a_hls : A .hls = true) (a_fns : A .fns = true) (a_hmk : A .hmk = true) (a_trigFall : A .trigFall = true) (a_out : A .out = true) : Upd A s0 (State.asyTimed s x1) := by
  unfold State.asyTimed
  repeat' first
    | with_reducible assumption
    | (intro s1; refine (fun (hs1 : Upd A s0 s1) => ?_) ?_; clear_value s1; rotate_left; subst s1; rotate_left)
    | (intro x1; clear_value x1)
    | intro x1
    | lift_lets
    | with_reducible apply State.asyTrigger_upd
    | with_reducible apply State.set_upd
    | with_reducible apply State.setB_upd
    | split
    | dsimp only

theorem execAssayArm_upd_eq {A : Fld → Bool} {s0 s : State} {x1 : Writer} {t : State} (h : Upd A s0 s) (e : execAssayArm x1 s = .next t) (a_regs : A .regs = true) (a_hls : A .hls = true) (a_fns : A .fns = true) (a_movOwn : A .movOwn = true) (a_clhIn : A .clhIn = true) (a_freeCtr : A .freeCtr = true) (a_out : A .out = true) : Upd A s0 t := by
  unfold execAssayArm at e
  cases e
  repeat' first
    | with_reducible assumption
    | intro x1
    | (intro s1; refine (fun (hs1 : Upd A s0 s1) => ?_) ?_; clear_value s1; rotate_left; subst s1; rotate_left)
    | lift_lets
    | with_reducible apply State.set_upd
    | with_reducible apply State.reaching_upd
    | refine Upd.to_regs _ ?_ (by assumption) (fun _ i => tasc_filter _ i.regs)
    | split
    | dsimp only

theorem execAssayTrigger_upd_eq {A : Fld → Bool} {s0 s : State} {x1 : Writer} {t : State} (h : Upd A s0 s) (e : execAssayTrigger x1 s = .next t) (a_regs : A .regs = true) (a_hls : A .hls = true) (a_fns : A .fns = true) (a_movOwn : A .movOwn = true) (a_clhIn : A .clhIn = true) (a_hmk : A .hmk = true) (a_trigFall : A .trigFall = true) (a_freeCtr : A .freeCtr = true) (a_out : A .out = true) : Upd A s0 t := by
  unfold execAssayTrigger at e
  cases e
  repeat' first
    | with_reducible assumption
    | intro x1
    | lift_lets
    | with_reducible apply State.asyTrigger_upd
    | with_reducible apply State.reaching_upd
    | split
    | dsimp only

theorem execAssayTrigInEdge_upd_eq {A : Fld → Bool} {s0 s : State} {t : State} (h : Upd A s0 s) (e : execAssayTrigInEdge s = .next t) (a_regs : A .regs = true) (a_hls : A .hls = true) (a_fns : A .fns = true) (a_hmk : A .hmk = true) (a_trigFall : A .trigFall = true) (a_out : A .out = true) : Upd A s0 t := by
  unfold execAssayTrigInEdge at e
  cases e
  repeat' first
    | with_reducible assumption
    | intro x1
    | lift_lets
    | with_reducible apply State.asyTrigger_upd
    | split
    | dsimp only

theorem execAssayAtTime_upd_eq {A : Fld → Bool} {s0 s : State} {t : State} (h : Upd A s0 s) (e : execAssayAtTime s = .next t) (a_regs : A .regs = true) (a_hls : A .hls = true) (a_fns : A .fns = true) (a_hmk : A .hmk = true) (a_trigFall : A .trigFall = true) (a_out : A .out = true) : Upd A s0 t := by
  unfold execAssayAtTime at e
  cases e
  repeat' first
    | with_reducible assumption
    | lift_lets
    | with_reducible apply State.asyTimed_upd
    | split

theorem State.asyFlood_upd {A : Fld → Bool} {s0 s : State} (x1 : ℕ) (h : Upd A s0 s) (a_regs : A .regs = true) (a_hls : A .hls = true) (a_fns : A .fns = true) (a_qsHere : A .qsHere = true) (a_qsInj : A .qsInj = true) (a_boot : A .boot = true) (a_out : A .out = true) : Upd A s0 (State.asyFlood s x1) := by
  unfold State.asyFlood
  repeat' first
    | with_reducible assumption
    | (intro s1; refine (fun (hs1 : Upd A s0 s1) => ?_) ?_; clear_value s1; rotate_left; subst s1; rotate_left)
    | intro x1
    | lift_lets
    | with_reducible apply State.qsSend_upd
    | with_reducible apply Upd.fold
    | split
    | exact { h with boot := .inl a_boot, keeps := fun i => { h.keeps i with } }

theorem State.asySet_upd {A : Fld → Bool} {s0 s : State} (x1 : ℕ) (h : Upd A s0 s) (a_regs : A .regs = true) : Upd A s0 (State.asySet s x1) := by
  unfold State.asySet
  repeat' first
    | with_reducible assumption
    | lift_lets
    | with_reducible apply State.set_upd

theorem execAssayAt_upd_eq {A : Fld → Bool} {s0 s : State} {t : State} (h : Upd A s0 s) (e : execAssayAt s = .next t) (a_regs : A .regs = true) (a_hls : A .hls = true) (a_fns : A .fns = true) (a_clhIn : A .clhIn = true) (a_qsHere : A .qsHere = true) (a_qsInj : A .qsInj = true) (a_hmk : A .hmk = true) (a_boot : A .boot = true) (a_trigFall : A .trigFall = true) (a_out : A .out = true) : Upd A s0 t := by
  unfold execAssayAt at e
  cases e
  repeat' first
    | with_reducible assumption
    | (intro s1; refine (fun (hs1 : Upd A s0 s1) => ?_) ?_; clear_value s1; rotate_left; subst s1; rotate_left)
    | lift_lets
    | with_reducible apply State.asySet_upd
    | with_reducible apply State.set_upd
    | with_reducible apply State.raise_upd
    | with_reducible apply State.asyFlood_upd
    | with_reducible apply State.asyTimed_upd
    | with_reducible refine State.takeQs_upd_eq ?_ (by assumption) (by assumption)
    | with_reducible apply Upd.fold
    | split
    | dsimp only

theorem State.asyRecord_upd {A : Fld → Bool} {s0 s : State} (x1 : Record) (h : Upd A s0 s) (a_regs : A .regs = true) (a_hls : A .hls = true) (a_fns : A .fns = true) (a_qsHere : A .qsHere = true) (a_qsInj : A .qsInj = true) (a_hmk : A .hmk = true) (a_trigFall : A .trigFall = true) (a_out : A .out = true) : Upd A s0 (State.asyRecord s x1) := by
  unfold State.asyRecord
  repeat' first
    | with_reducible assumption
    | (intro x1; clear_value x1)
    | intro x1
    | lift_lets
    | with_reducible apply State.asySet_upd
    | with_reducible apply State.asyTrigger_upd
    | with_reducible apply State.qsSend_upd
    | split
    | dsimp only

theorem execTallyWrite_upd_eq {A : Fld → Bool} {s0 s : State} {x1 : Writer} {x2 : Fin 1024} {x3 : Part} {x4 : Word} {t : State} (h : Upd A s0 s) (e : execTallyWrite x1 x2 x3 x4 s = .next t) (a_regs : A .regs = true) (a_hls : A .hls = true) (a_fns : A .fns = true) (a_movOwn : A .movOwn = true) (a_clhIn : A .clhIn = true) (a_freeCtr : A .freeCtr = true) (a_out : A .out = true) : Upd A s0 t := by
  unfold execTallyWrite at e
  cases e
  repeat' first
    | with_reducible assumption
    | intro x1
    | lift_lets
    | with_reducible apply State.set_upd
    | with_reducible apply State.reaching_upd
    | split
    | dsimp only

theorem State.tallyLatch_upd {A : Fld → Bool} {s0 s : State} (h : Upd A s0 s) (a_regs : A .regs = true) : Upd A s0 (State.tallyLatch s) := by
  unfold State.tallyLatch
  repeat' first
    | with_reducible assumption
    | (intro s1; refine (fun (hs1 : Upd A s0 s1) => ?_) ?_; clear_value s1; rotate_left; subst s1; rotate_left)
    | (intro x1; clear_value x1)
    | intro x1
    | lift_lets
    | with_reducible apply State.set_upd
    | with_reducible apply Upd.fold
    | split
    | dsimp only
    | refine Upd.to_regs _ ?_ (by assumption) (fun _ i => tasc_filter _ i.regs)

theorem execTallyLatchPeriod_upd_eq {A : Fld → Bool} {s0 s : State} {t : State} (h : Upd A s0 s) (e : execTallyLatchPeriod s = .next t) (a_regs : A .regs = true) (a_hmk : A .hmk = true) : Upd A s0 t := by
  unfold execTallyLatchPeriod at e
  cases e
  repeat' first
    | with_reducible assumption
    | intro x1
    | (intro x1; clear_value x1)
    | lift_lets
    | with_reducible apply State.tallyLatch_upd
    | split
    | dsimp only
    | with_reducible apply Upd.to_hmk

theorem execTallyLatchNow_upd_eq {A : Fld → Bool} {s0 s : State} {x1 : Writer} {t : State} (h : Upd A s0 s) (e : execTallyLatchNow x1 s = .next t) (a_regs : A .regs = true) (a_hls : A .hls = true) (a_fns : A .fns = true) (a_movOwn : A .movOwn = true) (a_clhIn : A .clhIn = true) (a_freeCtr : A .freeCtr = true) (a_out : A .out = true) : Upd A s0 t := by
  unfold execTallyLatchNow at e
  cases e
  repeat' first
    | with_reducible assumption
    | intro x1
    | lift_lets
    | with_reducible apply State.tallyLatch_upd
    | with_reducible apply State.reaching_upd
    | split
    | dsimp only

end Sys2Proof.Machine
end

