-- ==== Sys2Proof/Laws/FrameClearing.lean ====
section
/-!
SUPPORT. Laws/FrameClearing.lean: which parts of State each operation of Machine/Clearing.lean may change, and that it keeps the invariant.
-/
namespace Sys2Proof.Machine
set_option linter.unusedTactic false
set_option linter.unreachableTactic false
set_option linter.unusedVariables false

theorem State.setWords_upd {A : Fld → Bool} {s0 s : State} (x1 : (ℕ → RF)) (x2 : List ℕ) (h : Upd A s0 s) (a_regs : A .regs = true) : Upd A s0 (State.setWords s x1 x2) := by
  unfold State.setWords
  repeat' first
    | with_reducible assumption
    | intro x1
    | lift_lets
    | with_reducible apply State.setWord_upd
    | with_reducible apply Upd.fold

theorem State.clhStore_upd {A : Fld → Bool} {s0 s : State} (x1 : Record) (h : Upd A s0 s) (a_regs : A .regs = true) (a_hls : A .hls = true) (a_fns : A .fns = true) (a_clh : A .clh = true) (a_out : A .out = true) : Upd A s0 (State.clhStore s x1).2 := by
  unfold State.clhStore
  repeat' first
    | with_reducible assumption
    | (intro s1; refine (fun (hs1 : Upd A s0 s1) => ?_) ?_; clear_value s1; rotate_left; subst s1; rotate_left)
    | (intro x1; have x2 : Clh := x1; clear x2; subst x1)
    | (intro x1; have x2 : Pwr := x1; clear x2; subst x1)
    | (intro x1; have x2 : Izg := x1; clear x2; subst x1)
    | lift_lets
    | with_reducible apply State.bump_upd
    | with_reducible apply State.setWords_upd
    | with_reducible apply State.set_upd
    | split
    | refine Upd.to_clh _ ?_ (by assumption) (fun _ i => i.flashQ)

theorem State.clhMirror_upd {A : Fld → Bool} {s0 s : State} (x1 : Record) (h : Upd A s0 s) (a_regs : A .regs = true) (a_hls : A .hls = true) (a_fns : A .fns = true) (a_tags : A .tags = true) (a_clhIn : A .clhIn = true) (a_freeCtr : A .freeCtr = true) (a_out : A .out = true) : Upd A s0 (State.clhMirror s x1) := by
  unfold State.clhMirror
  repeat' first
    | with_reducible assumption
    | (intro x1; clear_value x1)
    | lift_lets
    | with_reducible apply State.bump_upd
    | with_reducible apply State.set_upd
    | with_reducible apply State.postHeld_upd
    | split

theorem State.flashQueue_upd {A : Fld → Bool} {s0 s : State} (x1 : Record) (h : Upd A s0 s) (a_regs : A .regs = true) (a_hls : A .hls = true) (a_fns : A .fns = true) (a_clh : A .clh = true) (a_out : A .out = true) : Upd A s0 (State.flashQueue s x1) := by
  unfold State.flashQueue
  repeat' first
    | with_reducible assumption
    | lift_lets
    | with_reducible apply State.bump_upd
    | split
    | refine Upd.to_clh _ ?_ (by assumption) (fun _ i => length_snoc_lt (by assumption))

theorem State.lossWrite_upd {A : Fld → Bool} {s0 s : State} (x1 : Record) (h : Upd A s0 s) (a_pwr : A .pwr = true) (a_out : A .out = true) : Upd A s0 (State.lossWrite s x1).2 := by
  unfold State.lossWrite
  repeat' first
    | with_reducible assumption
    | lift_lets
    | with_reducible apply State.emit_upd
    | split
    | refine Upd.to_pwr _ ?_ (by assumption) (fun _ i => length_snoc_lt (And.right (by assumption)))

theorem State.recordAer_upd {A : Fld → Bool} {s0 s : State} (x1 : Record) (h : Upd A s0 s) (a_fns : A .fns = true) (a_freeCtr : A .freeCtr = true) (a_out : A .out = true) : Upd A s0 (State.recordAer s x1) := by
  unfold State.recordAer
  repeat' first
    | with_reducible assumption
    | (intro x1; clear_value x1)
    | intro x1
    | lift_lets
    | with_reducible apply State.aerReport_upd
    | with_reducible apply State.aerCorrected_upd
    | with_reducible apply Upd.fold
    | split
    | dsimp only

theorem State.clhReact_upd {A : Fld → Bool} {s0 s : State} (x1 : Record) (h : Upd A s0 s) (a_regs : A .regs = true) (a_ports : A .ports = true) (a_hls : A .hls = true) (a_fns : A .fns = true) (a_accts : A .accts = true) (a_ctxs : A .ctxs = true) (a_trees : A .trees = true) (a_movs : A .movs = true) (a_srcMsgs : A .srcMsgs = true) (a_orders : A .orders = true) (a_aptWaits : A .aptWaits = true) (a_flushes : A .flushes = true) (a_notices : A .notices = true) (a_acctCmds : A .acctCmds = true) (a_entries : A .entries = true) (a_lmatches : A .lmatches = true) (a_ovfBufs : A .ovfBufs = true) (a_tags : A .tags = true) (a_moveWait : A .moveWait = true) (a_clhIn : A .clhIn = true) (a_tptIn : A .tptIn = true) (a_relayIn : A .relayIn = true) (a_mgIn : A .mgIn = true) (a_mcIn : A .mcIn = true) (a_fifelIn : A .fifelIn = true) (a_qsHere : A .qsHere = true) (a_qsInj : A .qsInj = true) (a_samples : A .samples = true) (a_sampleLost : A .sampleLost = true) (a_clh : A .clh = true) (a_pwr : A .pwr = true) (a_boot : A .boot = true) (a_rotate : A .rotate = true) (a_freeCtr : A .freeCtr = true) (a_nextId : A .nextId = true) (a_out : A .out = true) : Upd A s0 (State.clhReact s x1) := by
  unfold State.clhReact
  repeat' first
    | with_reducible assumption
    | (intro s1; refine (fun (hs1 : Upd A s0 s1) => ?_) ?_; clear_value s1; rotate_left; subst s1; rotate_left)
    | (intro x1; clear_value x1)
    | intro x1
    | lift_lets
    | with_reducible apply State.clhMirror_upd
    | with_reducible apply State.flashQueue_upd
    | with_reducible apply State.freezeAcct_upd
    | with_reducible apply State.linkReset_upd
    | with_reducible apply State.lossWrite_upd
    | with_reducible apply State.pf0Signal_upd
    | with_reducible refine Upd.ofSnd (by assumption) ?_
    | split
    | dsimp only

theorem execClearingHouseRecord_upd_eq {A : Fld → Bool} {s0 s : State} {t : State} (h : Upd A s0 s) (e : execClearingHouseRecord s = .next t) (a_regs : A .regs = true) (a_ports : A .ports = true) (a_hls : A .hls = true) (a_fns : A .fns = true) (a_accts : A .accts = true) (a_ctxs : A .ctxs = true) (a_trees : A .trees = true) (a_movs : A .movs = true) (a_srcMsgs : A .srcMsgs = true) (a_orders : A .orders = true) (a_aptWaits : A .aptWaits = true) (a_flushes : A .flushes = true) (a_notices : A .notices = true) (a_acctCmds : A .acctCmds = true) (a_entries : A .entries = true) (a_lmatches : A .lmatches = true) (a_ovfBufs : A .ovfBufs = true) (a_tags : A .tags = true) (a_moveWait : A .moveWait = true) (a_clhIn : A .clhIn = true) (a_tptIn : A .tptIn = true) (a_relayIn : A .relayIn = true) (a_mgIn : A .mgIn = true) (a_mcIn : A .mcIn = true) (a_fifelIn : A .fifelIn = true) (a_qsHere : A .qsHere = true) (a_qsInj : A .qsInj = true) (a_samples : A .samples = true) (a_sampleLost : A .sampleLost = true) (a_hmk : A .hmk = true) (a_clh : A .clh = true) (a_pwr : A .pwr = true) (a_boot : A .boot = true) (a_trigFall : A .trigFall = true) (a_rotate : A .rotate = true) (a_freeCtr : A .freeCtr = true) (a_nextId : A .nextId = true) (a_out : A .out = true) : Upd A s0 t := by
  unfold execClearingHouseRecord at e
  cases e
  repeat' first
    | with_reducible assumption
    | intro x1
    | (intro x1; clear_value x1)
    | (intro s1; refine (fun (hs1 : Upd A s0 s1) => ?_) ?_; clear_value s1; rotate_left; subst s1; rotate_left)
    | (intro x1; have x2 : Clh := x1; clear x2; subst x1)
    | (intro x1; have x2 : Pwr := x1; clear x2; subst x1)
    | (intro x1; have x2 : Izg := x1; clear x2; subst x1)
    | lift_lets
    | with_reducible apply State.asyRecord_upd
    | with_reducible apply State.bump_upd
    | with_reducible apply State.clhReact_upd
    | with_reducible apply State.recordAer_upd
    | with_reducible apply State.clhStore_upd
    | with_reducible apply State.setWords_upd
    | with_reducible apply State.set_upd
    | with_reducible apply State.clhUpd_upd
    | with_reducible refine Upd.ofSnd (by assumption) ?_
    | split
    | with_reducible apply Upd.to_clhIn
    | with_reducible apply Upd.to_boot
    | refine Upd.to_clh _ ?_ (by assumption) (fun _ i => i.flashQ)
    | dsimp only

theorem execClhAckWrite_upd_eq {A : Fld → Bool} {s0 s : State} {x1 : Writer} {x2 : Word} {t : State} (h : Upd A s0 s) (e : execClhAckWrite x1 x2 s = .next t) (a_regs : A .regs = true) (a_hls : A .hls = true) (a_fns : A .fns = true) (a_movOwn : A .movOwn = true) (a_clhIn : A .clhIn = true) (a_clh : A .clh = true) (a_freeCtr : A .freeCtr = true) (a_out : A .out = true) : Upd A s0 t := by
  unfold execClhAckWrite at e
  cases e
  repeat' first
    | with_reducible assumption
    | (intro s1; refine (fun (hs1 : Upd A s0 s1) => ?_) ?_; clear_value s1; rotate_left; subst s1; rotate_left)
    | (intro x1; have x2 : Clh := x1; clear x2; subst x1)
    | (intro x1; clear_value x1)
    | intro x1
    | lift_lets
    | with_reducible apply State.clhUpd_upd
    | with_reducible apply State.intxAll_upd
    | with_reducible apply State.reaching_upd
    | with_reducible apply State.set_upd
    | split
    | dsimp only
    | refine Upd.to_clh _ ?_ (by assumption) (fun _ i => i.flashQ)

/-- The flash summary never holds more than its 16,384 records. -/
theorem summaryAdd_le (q l : List Record) (h : l.length ≤ 16384) : (q.foldl summaryAdd l).length ≤ 16384 := by
  induction q generalizing l with
  | nil => exact h
  | cons r q ih =>
    refine ih _ ?_
    unfold summaryAdd
    split
    · simp only [List.length_append, List.length_drop, List.length_singleton]; omega
    · simp only [List.length_append, List.length_singleton]; omega

theorem execFlashBatch_upd_eq {A : Fld → Bool} {s0 s : State} {x1 : Bool} {t : State} (h : Upd A s0 s) (e : execFlashBatch x1 s = .next t) (a_regs : A .regs = true) (a_hls : A .hls = true) (a_fns : A .fns = true) (a_clhIn : A .clhIn = true) (a_clh : A .clh = true) (a_izg : A .izg = true) (a_out : A .out = true) : Upd A s0 t := by
  unfold execFlashBatch at e
  cases e
  repeat' first
    | with_reducible assumption
    | (intro s1; refine (fun (hs1 : Upd A s0 s1) => ?_) ?_; clear_value s1; rotate_left; subst s1; rotate_left)
    | with_reducible refine Upd.to_izg _ ?_ (by assumption) (fun _ i => ⟨i.mg, summaryAdd_le _ _ i.summary⟩)
    | (intro x1; have x2 : Clh := x1; clear x2; subst x1)
    | (intro x1; have x2 : Pwr := x1; clear x2; subst x1)
    | (intro x1; have x2 : Izg := x1; clear x2; subst x1)
    | lift_lets
    | with_reducible apply State.raise_upd
    | with_reducible apply State.bumpN_upd
    | with_reducible apply State.emit_upd
    | split
    | refine Upd.to_clh _ ?_ (by assumption) (fun _ i => Nat.zero_le _)

end Sys2Proof.Machine
end

