-- ==== Sys2Proof/Laws/FrameSupply.lean ====
section
/-!
SUPPORT. Laws/FrameSupply.lean: which parts of State each operation of Machine/Supply.lean may change, and that it keeps the invariant.
-/
namespace Sys2Proof.Machine
set_option linter.unusedTactic false
set_option linter.unreachableTactic false
set_option linter.unusedVariables false

theorem State.avsFail_upd {A : Fld → Bool} {s0 s : State} (x1 : ℕ) (x2 : ℕ) (h : Upd A s0 s) (a_regs : A .regs = true) (a_clhIn : A .clhIn = true) (a_pwr : A .pwr = true) : Upd A s0 (State.avsFail s x1 x2) := by
  unfold State.avsFail
  repeat' first
    | with_reducible assumption
    | (intro s1; refine (fun (hs1 : Upd A s0 s1) => ?_) ?_; clear_value s1; rotate_left; subst s1; rotate_left)
    | (intro x1; have x2 : Clh := x1; clear x2; subst x1)
    | (intro x1; have x2 : Pwr := x1; clear x2; subst x1)
    | (intro x1; have x2 : Izg := x1; clear x2; subst x1)
    | lift_lets
    | with_reducible apply State.throttleUpd_upd
    | with_reducible apply State.set_upd
    | with_reducible apply State.raise_upd
    | split
    | refine Upd.to_pwr _ ?_ (by assumption) (fun _ i => i.lossArea)

theorem State.avsEnd_upd {A : Fld → Bool} {s0 s : State} (x1 : ℕ) (x2 : ℕ) (h : Upd A s0 s) (a_regs : A .regs = true) (a_pwr : A .pwr = true) : Upd A s0 (State.avsEnd s x1 x2) := by
  unfold State.avsEnd
  repeat' first
    | with_reducible assumption
    | (intro s1; refine (fun (hs1 : Upd A s0 s1) => ?_) ?_; clear_value s1; rotate_left; subst s1; rotate_left)
    | (intro x1; have x2 : Clh := x1; clear x2; subst x1)
    | (intro x1; have x2 : Pwr := x1; clear x2; subst x1)
    | (intro x1; have x2 : Izg := x1; clear x2; subst x1)
    | lift_lets
    | with_reducible apply State.set_upd
    | split
    | refine Upd.to_pwr _ ?_ (by assumption) (fun _ i => i.lossArea)

theorem State.avsSend_upd {A : Fld → Bool} {s0 s : State} (x1 : ℕ) (x2 : ℕ) (x3 : Bool) (h : Upd A s0 s) (a_regs : A .regs = true) (a_clhIn : A .clhIn = true) (a_pwr : A .pwr = true) (a_out : A .out = true) : Upd A s0 (State.avsSend s x1 x2 x3) := by
  unfold State.avsSend
  repeat' first
    | with_reducible assumption
    | (intro s1; refine (fun (hs1 : Upd A s0 s1) => ?_) ?_; clear_value s1; rotate_left; subst s1; rotate_left)
    | (intro x1; have x2 : Clh := x1; clear x2; subst x1)
    | (intro x1; have x2 : Pwr := x1; clear x2; subst x1)
    | (intro x1; have x2 : Izg := x1; clear x2; subst x1)
    | lift_lets
    | with_reducible apply State.avsFail_upd
    | with_reducible apply State.avsEnd_upd
    | with_reducible apply State.emit_upd
    | split
    | refine Upd.to_pwr _ ?_ (by assumption) (fun _ i => i.lossArea)

theorem execAvsRequest_upd_eq {A : Fld → Bool} {s0 s : State} {x1 : Writer} {x2 : Word} {x3 : Bool} {t : State} (h : Upd A s0 s) (e : execAvsRequest x1 x2 x3 s = .next t) (a_regs : A .regs = true) (a_hls : A .hls = true) (a_fns : A .fns = true) (a_movOwn : A .movOwn = true) (a_clhIn : A .clhIn = true) (a_pwr : A .pwr = true) (a_freeCtr : A .freeCtr = true) (a_out : A .out = true) : Upd A s0 t := by
  unfold execAvsRequest at e
  cases e
  repeat' first
    | with_reducible assumption
    | intro x1
    | (intro x1; clear_value x1)
    | (intro s1; refine (fun (hs1 : Upd A s0 s1) => ?_) ?_; clear_value s1; rotate_left; subst s1; rotate_left)
    | (intro x1; have x2 : Clh := x1; clear x2; subst x1)
    | (intro x1; have x2 : Pwr := x1; clear x2; subst x1)
    | (intro x1; have x2 : Izg := x1; clear x2; subst x1)
    | lift_lets
    | with_reducible apply State.set_upd
    | with_reducible apply State.avsSend_upd
    | with_reducible apply State.reaching_upd
    | split
    | refine Upd.to_pwr _ ?_ (by assumption) (fun _ i => i.lossArea)
    | dsimp only

theorem execAvsPoll_upd_eq {A : Fld → Bool} {s0 s : State} {x1 : Fin 2} {x2 : BitVec 10} {t : State} (h : Upd A s0 s) (e : execAvsPoll x1 x2 s = .next t) (a_regs : A .regs = true) (a_clhIn : A .clhIn = true) (a_pwr : A .pwr = true) (a_out : A .out = true) : Upd A s0 t := by
  unfold execAvsPoll at e
  cases e
  repeat' first
    | with_reducible assumption
    | intro x1
    | (intro x1; clear_value x1)
    | (intro s1; refine (fun (hs1 : Upd A s0 s1) => ?_) ?_; clear_value s1; rotate_left; subst s1; rotate_left)
    | (intro x1; have x2 : Clh := x1; clear x2; subst x1)
    | (intro x1; have x2 : Pwr := x1; clear x2; subst x1)
    | (intro x1; have x2 : Izg := x1; clear x2; subst x1)
    | lift_lets
    | with_reducible apply State.avsEnd_upd
    | with_reducible apply State.throttleUpd_upd
    | with_reducible apply State.set_upd
    | with_reducible apply State.emit_upd
    | split
    | with_reducible refine Upd.to_pwr _ ?_ (by assumption) (fun _ i => i.lossArea)
    | dsimp only
    | refine Upd.to_pwr _ ?_ (by assumption) (fun _ i => i.lossArea)

theorem execAvsTimeout_upd_eq {A : Fld → Bool} {s0 s : State} {x1 : Fin 2} {t : State} (h : Upd A s0 s) (e : execAvsTimeout x1 s = .next t) (a_regs : A .regs = true) (a_clhIn : A .clhIn = true) (a_pwr : A .pwr = true) : Upd A s0 t := by
  unfold execAvsTimeout at e
  cases e
  repeat' first
    | with_reducible assumption
    | (intro s1; refine (fun (hs1 : Upd A s0 s1) => ?_) ?_; clear_value s1; rotate_left; subst s1; rotate_left)
    | lift_lets
    | with_reducible apply State.avsFail_upd
    | with_reducible apply State.avsEnd_upd
    | split

theorem State.avsAuto_upd {A : Fld → Bool} {s0 s : State} (x1 : ℕ) (x2 : ℕ) (x3 : Bool) (h : Upd A s0 s) (a_regs : A .regs = true) (a_clhIn : A .clhIn = true) (a_pwr : A .pwr = true) (a_out : A .out = true) : Upd A s0 (State.avsAuto s x1 x2 x3) := by
  unfold State.avsAuto
  repeat' first
    | with_reducible assumption
    | (intro s1; refine (fun (hs1 : Upd A s0 s1) => ?_) ?_; clear_value s1; rotate_left; subst s1; rotate_left)
    | (intro x1; clear_value x1)
    | lift_lets
    | with_reducible apply State.avsSend_upd
    | split

theorem execAvsAutoPeriod_upd_eq {A : Fld → Bool} {s0 s : State} {x1 : BitVec 10} {x2 : BitVec 10} {x3 : Bool} {x4 : Bool} {t : State} (h : Upd A s0 s) (e : execAvsAutoPeriod x1 x2 x3 x4 s = .next t) (a_regs : A .regs = true) (a_clhIn : A .clhIn = true) (a_pwr : A .pwr = true) (a_out : A .out = true) : Upd A s0 t := by
  unfold execAvsAutoPeriod at e
  cases e
  repeat' first
    | with_reducible assumption
    | lift_lets
    | with_reducible apply State.avsAuto_upd
    | split

theorem State.pmbFail_upd {A : Fld → Bool} {s0 s : State} (h : Upd A s0 s) (a_regs : A .regs = true) (a_clhIn : A .clhIn = true) : Upd A s0 (State.pmbFail s) := by
  unfold State.pmbFail
  repeat' first
    | with_reducible assumption
    | lift_lets
    | with_reducible apply State.set_upd
    | with_reducible apply State.raise_upd

theorem State.pmbRun_upd {A : Fld → Bool} {s0 s : State} (x1 : ℕ) (x2 : ℕ) (x3 : ℕ) (x4 : PmbTry) (h : Upd A s0 s) (a_out : A .out = true) : Upd A s0 (State.pmbRun s x1 x2 x3 x4).2 := by
  unfold State.pmbRun
  repeat' first
    | with_reducible assumption
    | (intro s1; refine (fun (hs1 : Upd A s0 s1) => ?_) ?_; clear_value s1; rotate_left; subst s1; rotate_left)
    | intro x1
    | lift_lets
    | with_reducible apply State.emit_upd
    | split
    | dsimp only

theorem State.pmbRead_upd {A : Fld → Bool} {s0 s : State} (x1 : ℕ) (x2 : ℕ) (x3 : RF) (x4 : PmbTry) (h : Upd A s0 s) (a_regs : A .regs = true) (a_clhIn : A .clhIn = true) (a_out : A .out = true) : Upd A s0 (State.pmbRead s x1 x2 x3 x4) := by
  unfold State.pmbRead
  repeat' first
    | with_reducible assumption
    | intro x1
    | (intro s1; refine (fun (hs1 : Upd A s0 s1) => ?_) ?_; clear_value s1; rotate_left; subst s1; rotate_left)
    | lift_lets
    | with_reducible apply State.pmbFail_upd
    | with_reducible apply State.set_upd
    | with_reducible apply State.pmbRun_upd
    | with_reducible refine Upd.ofSnd (by assumption) ?_
    | split
    | dsimp only

theorem execPmbTelemetryPoll_upd_eq {A : Fld → Bool} {s0 s : State} {x1 : Fin 8} {x2 : PmbTry} {x3 : PmbTry} {x4 : PmbTry} {t : State} (h : Upd A s0 s) (e : execPmbTelemetryPoll x1 x2 x3 x4 s = .next t) (a_regs : A .regs = true) (a_clhIn : A .clhIn = true) (a_out : A .out = true) : Upd A s0 t := by
  unfold execPmbTelemetryPoll at e
  cases e
  repeat' first
    | with_reducible assumption
    | intro x1
    | lift_lets
    | with_reducible apply State.pmbRead_upd
    | split
    | dsimp only

theorem execPmbAlert_upd_eq {A : Fld → Bool} {s0 s : State} {x1 : Fin 8} {x2 : BitVec 16} {t : State} (h : Upd A s0 s) (e : execPmbAlert x1 x2 s = .next t) (a_regs : A .regs = true) (a_clhIn : A .clhIn = true) (a_out : A .out = true) : Upd A s0 t := by
  unfold execPmbAlert at e
  cases e
  repeat' first
    | with_reducible assumption
    | (intro s1; refine (fun (hs1 : Upd A s0 s1) => ?_) ?_; clear_value s1; rotate_left; subst s1; rotate_left)
    | lift_lets
    | with_reducible apply State.set_upd
    | with_reducible apply State.raise_upd
    | with_reducible apply State.emit_upd
    | split

theorem execPmbCommand_upd_eq {A : Fld → Bool} {s0 s : State} {x1 : Writer} {x2 : PmbTry} {t : State} (h : Upd A s0 s) (e : execPmbCommand x1 x2 s = .next t) (a_regs : A .regs = true) (a_hls : A .hls = true) (a_fns : A .fns = true) (a_movOwn : A .movOwn = true) (a_clhIn : A .clhIn = true) (a_freeCtr : A .freeCtr = true) (a_out : A .out = true) : Upd A s0 t := by
  unfold execPmbCommand at e
  cases e
  repeat' first
    | with_reducible assumption
    | intro x1
    | (intro x1; clear_value x1)
    | (intro s1; refine (fun (hs1 : Upd A s0 s1) => ?_) ?_; clear_value s1; rotate_left; subst s1; rotate_left)
    | lift_lets
    | with_reducible apply State.pmbFail_upd
    | with_reducible apply State.set_upd
    | with_reducible apply State.reaching_upd
    | with_reducible apply State.pmbRun_upd
    | with_reducible refine Upd.ofSnd (by assumption) ?_
    | split
    | dsimp only

theorem execPmbFail_upd_eq {A : Fld → Bool} {s0 s : State} {x1 : Fin 8} {x2 : BitVec 8} {x3 : Fin 3} {t : State} (h : Upd A s0 s) (e : execPmbFail x1 x2 x3 s = .next t) (a_regs : A .regs = true) (a_clhIn : A .clhIn = true) : Upd A s0 t := by
  unfold execPmbFail at e
  cases e
  repeat' first
    | with_reducible assumption
    | lift_lets
    | with_reducible apply State.pmbFail_upd
    | split

theorem State.pwrfailStart_upd {A : Fld → Bool} {s0 s : State} (h : Upd A s0 s) (a_regs : A .regs = true) (a_hls : A .hls = true) (a_fns : A .fns = true) (a_clhIn : A .clhIn = true) (a_clh : A .clh = true) (a_pwr : A .pwr = true) (a_out : A .out = true) : Upd A s0 (State.pwrfailStart s) := by
  unfold State.pwrfailStart
  have k := Upd.to_clh_pwr (x0 := { s.clh with flashQ := s.clh.flashQ.drop (64 - s.pwr.lossArea.length) })
    (x1 := { s.pwr with pwrfail := true, lossArea := s.pwr.lossArea ++ s.clh.flashQ.take (64 - s.pwr.lossArea.length) })
    h a_clh a_pwr
    (fun _ i => by have := i.flashQ; simp only [List.length_drop]; omega)
    (fun _ i => by have := i.lossArea; simp only [List.length_append, List.length_take]; omega)
  split
  · exact h
  · apply State.raise_upd <;> try assumption
    apply State.set_upd <;> try assumption
    apply State.bumpN_upd <;> try assumption
    split
    · exact k
    · apply State.emit_upd <;> assumption

theorem execPwrfail_upd_eq {A : Fld → Bool} {s0 s : State} {t : State} (h : Upd A s0 s) (e : execPwrfail s = .next t) (a_regs : A .regs = true) (a_hls : A .hls = true) (a_fns : A .fns = true) (a_clhIn : A .clhIn = true) (a_clh : A .clh = true) (a_pwr : A .pwr = true) (a_out : A .out = true) : Upd A s0 t := by
  unfold execPwrfail at e
  cases e
  repeat' first
    | with_reducible assumption
    | lift_lets
    | with_reducible apply State.pwrfailStart_upd
    | split
    | with_reducible refine Upd.to_pwr _ ?_ (by assumption) (fun _ i => i.lossArea)

theorem execPwrfailClear_upd_eq {A : Fld → Bool} {s0 s : State} {t : State} (h : Upd A s0 s) (e : execPwrfailClear s = .next t) (a_regs : A .regs = true) (a_ports : A .ports = true) (a_fns : A .fns = true) (a_pwr : A .pwr = true) (a_freeCtr : A .freeCtr = true) (a_out : A .out = true) : Upd A s0 t := by
  unfold execPwrfailClear at e
  cases e
  repeat' first
    | with_reducible assumption
    | (intro x1; have x2 : Clh := x1; clear x2; subst x1)
    | (intro x1; have x2 : Pwr := x1; clear x2; subst x1)
    | (intro x1; have x2 : Izg := x1; clear x2; subst x1)
    | lift_lets
    | with_reducible apply State.set_upd
    | with_reducible apply State.evalAll_upd
    | split
    | refine Upd.to_pwr _ ?_ (by assumption) (fun _ i => i.lossArea)

theorem execPgLost_upd_eq {A : Fld → Bool} {s0 s : State} {x1 : Fin 4} {t : State} (h : Upd A s0 s) (e : execPgLost x1 s = .next t) (a_regs : A .regs = true) (a_hls : A .hls = true) (a_fns : A .fns = true) (a_clhIn : A .clhIn = true) (a_clh : A .clh = true) (a_pwr : A .pwr = true) (a_out : A .out = true) : Upd A s0 t := by
  unfold execPgLost at e
  cases e
  repeat' first
    | with_reducible assumption
    | lift_lets
    | with_reducible apply State.raise_upd
    | with_reducible apply State.pwrfailStart_upd
    | split

theorem State.tempShow_upd {A : Fld → Bool} {s0 s : State} (x1 : ℕ) (x2 : BitVec 9) (h : Upd A s0 s) (a_regs : A .regs = true) : Upd A s0 (State.tempShow s x1 x2) := by
  unfold State.tempShow
  repeat' first
    | with_reducible assumption
    | lift_lets
    | with_reducible apply State.set_upd

theorem execThrottle_upd_eq {A : Fld → Bool} {s0 s : State} {x1 : Fin 32} {x2 : BitVec 9} {t : State} (h : Upd A s0 s) (e : execThrottle x1 x2 s = .next t) (a_regs : A .regs = true) (a_clhIn : A .clhIn = true) (a_pwr : A .pwr = true) (a_out : A .out = true) : Upd A s0 t := by
  unfold execThrottle at e
  cases e
  repeat' first
    | with_reducible assumption
    | (intro s1; refine (fun (hs1 : Upd A s0 s1) => ?_) ?_; clear_value s1; rotate_left; subst s1; rotate_left)
    | (intro x1; have x2 : Clh := x1; clear x2; subst x1)
    | (intro x1; have x2 : Pwr := x1; clear x2; subst x1)
    | (intro x1; have x2 : Izg := x1; clear x2; subst x1)
    | lift_lets
    | with_reducible apply State.alertUpd_upd
    | with_reducible apply State.throttleUpd_upd
    | with_reducible apply State.tempShow_upd
    | split
    | refine Upd.to_pwr _ ?_ (by assumption) (fun _ i => i.lossArea)

theorem execThrottleRelease_upd_eq {A : Fld → Bool} {s0 s : State} {x1 : Fin 32} {x2 : BitVec 9} {t : State} (h : Upd A s0 s) (e : execThrottleRelease x1 x2 s = .next t) (a_regs : A .regs = true) (a_clhIn : A .clhIn = true) (a_pwr : A .pwr = true) (a_out : A .out = true) : Upd A s0 t := by
  unfold execThrottleRelease at e
  cases e
  repeat' first
    | with_reducible assumption
    | (intro s1; refine (fun (hs1 : Upd A s0 s1) => ?_) ?_; clear_value s1; rotate_left; subst s1; rotate_left)
    | (intro x1; have x2 : Clh := x1; clear x2; subst x1)
    | (intro x1; have x2 : Pwr := x1; clear x2; subst x1)
    | (intro x1; have x2 : Izg := x1; clear x2; subst x1)
    | lift_lets
    | with_reducible apply State.alertUpd_upd
    | with_reducible apply State.throttleUpd_upd
    | with_reducible apply State.tempShow_upd
    | split
    | refine Upd.to_pwr _ ?_ (by assumption) (fun _ i => i.lossArea)

theorem execThermAlertN_upd_eq {A : Fld → Bool} {s0 s : State} {x1 : Fin 32} {x2 : BitVec 9} {t : State} (h : Upd A s0 s) (e : execThermAlertN x1 x2 s = .next t) (a_regs : A .regs = true) (a_pwr : A .pwr = true) (a_out : A .out = true) : Upd A s0 t := by
  unfold execThermAlertN at e
  cases e
  repeat' first
    | with_reducible assumption
    | (intro x1; have x2 : Clh := x1; clear x2; subst x1)
    | (intro x1; have x2 : Pwr := x1; clear x2; subst x1)
    | (intro x1; have x2 : Izg := x1; clear x2; subst x1)
    | lift_lets
    | with_reducible apply State.alertUpd_upd
    | with_reducible apply State.tempShow_upd
    | refine Upd.to_pwr _ ?_ (by assumption) (fun _ i => i.lossArea)

theorem State.railsOff_upd {A : Fld → Bool} {s0 s : State} (h : Upd A s0 s) (a_boot : A .boot = true) (a_out : A .out = true) : Upd A s0 (State.railsOff s) := by
  unfold State.railsOff
  repeat' first
    | with_reducible assumption
    | intro x1
    | lift_lets
    | with_reducible apply State.emit_upd
    | with_reducible apply Upd.fold
    | exact { h with boot := .inl a_boot, keeps := fun i => { h.keeps i with } }

theorem State.cold_upd {A : Fld → Bool} {s0 s : State} (x1 : ℕ → Bool) (x2 : Pwr) (h : Upd A s0 s) (k : s0.Inv → s.Inv → x2.lossArea.length ≤ 64) (a_regs : A .regs = true) (a_ports : A .ports = true) (a_hls : A .hls = true) (a_fns : A .fns = true) (a_accts : A .accts = true) (a_ctxs : A .ctxs = true) (a_trees : A .trees = true) (a_movs : A .movs = true) (a_srcMsgs : A .srcMsgs = true) (a_openMsgs : A .openMsgs = true) (a_filter : A .filter = true) (a_book : A .book = true) (a_keyCache : A .keyCache = true) (a_rankCache : A .rankCache = true) (a_orders : A .orders = true) (a_aptWaits : A .aptWaits = true) (a_flushes : A .flushes = true) (a_notices : A .notices = true) (a_acctCmds : A .acctCmds = true) (a_entries : A .entries = true) (a_lmatches : A .lmatches = true) (a_ovfBufs : A .ovfBufs = true) (a_tags : A .tags = true) (a_moveWait : A .moveWait = true) (a_movOwn : A .movOwn = true) (a_ctxSent : A .ctxSent = true) (a_clhIn : A .clhIn = true) (a_tptIn : A .tptIn = true) (a_relayIn : A .relayIn = true) (a_mgIn : A .mgIn = true) (a_mcIn : A .mcIn = true) (a_fifelIn : A .fifelIn = true) (a_qsRx : A .qsRx = true) (a_qsHere : A .qsHere = true) (a_qsWait : A .qsWait = true) (a_qsInj : A .qsInj = true) (a_samples : A .samples = true) (a_sampleLost : A .sampleLost = true) (a_hmk : A .hmk = true) (a_clh : A .clh = true) (a_pwr : A .pwr = true) (a_boot : A .boot = true) (a_izg : A .izg = true) (a_wakeLow : A .wakeLow = true) (a_trigFall : A .trigFall = true) (a_rotate : A .rotate = true) (a_out : A .out = true) : Upd A s0 (State.cold s x1 x2) := by
  unfold State.cold
  refine Upd.fold ?_ fun u d hu => by split; exact hu; exact State.setDom_upd _ _ hu a_regs
  have hz : ∀ z : State, Upd A s0 z → ∀ b c : ℕ, Upd A s0 (if b = 0 then z else ((z.set TOP_STATE_TIME.last_change c).event TOP_STATE_EVT.pwr_change 1).stateChange b 0 (s.get TOP_STATE.pwr_state) (s.get TOP_STATE.pwr_state) |>.stateChange 0 0 (s.get TOP_STATE.pwr_state) 3) := by
    intro z hz b c; split
    · exact hz
    · apply State.stateChange_upd <;> try assumption
      apply State.stateChange_upd <;> try assumption
      apply State.event_upd <;> try assumption
      exact State.set_upd _ _ hz a_regs
  refine hz _ (State.set_upd _ _ (State.set_upd _ _ ?_ a_regs) a_regs) _ _
  exact { regs := .inl a_regs, ports := .inl a_ports, hls := .inl a_hls, fns := .inl a_fns, accts := .inl a_accts, ctxs := .inl a_ctxs, trees := .inl a_trees, movs := .inl a_movs, srcMsgs := .inl a_srcMsgs, openMsgs := .inl a_openMsgs, filter := .inl a_filter, book := .inl a_book, keyCache := .inl a_keyCache, rankCache := .inl a_rankCache, orders := .inl a_orders, aptWaits := .inl a_aptWaits, flushes := .inl a_flushes, notices := .inl a_notices, acctCmds := .inl a_acctCmds, entries := .inl a_entries, lmatches := .inl a_lmatches, ovfBufs := .inl a_ovfBufs, tags := .inl a_tags, moveWait := .inl a_moveWait, movOwn := .inl a_movOwn, ctxSent := .inl a_ctxSent, clhIn := .inl a_clhIn, tptIn := .inl a_tptIn, relayIn := .inl a_relayIn, mgIn := .inl a_mgIn, mcIn := .inl a_mcIn, fifelIn := .inl a_fifelIn, qsRx := .inl a_qsRx, qsHere := .inl a_qsHere, qsWait := .inl a_qsWait, qsInj := .inl a_qsInj, samples := .inl a_samples, sampleLost := .inl a_sampleLost, hmk := .inl a_hmk, clh := .inl a_clh, pwr := .inl a_pwr, boot := .inl a_boot, izg := .inl a_izg, wakeLow := .inl a_wakeLow, trigFall := .inl a_trigFall, clk := h.clk, rotate := .inl a_rotate, freeCtr := h.freeCtr, nextId := h.nextId, out := h.out, pending := h.pending,
           keeps := fun i => ⟨tasc_filter _ (h.keeps i).regs, rfl, rfl, rfl, rfl, rfl, rfl, rfl, Nat.zero_le _, Nat.zero_le _, k i (h.keeps i),
             Nat.zero_le _, (h.keeps i).summary, Nat.zero_le _, Nat.zero_le _⟩ }

theorem execThermalTrip_upd_eq {A : Fld → Bool} {s0 s : State} {x1 : Fin 32} {x2 : BitVec 9} {t : State} (h : Upd A s0 s) (e : execThermalTrip x1 x2 s = .next t) (a_regs : A .regs = true) (a_ports : A .ports = true) (a_hls : A .hls = true) (a_fns : A .fns = true) (a_accts : A .accts = true) (a_ctxs : A .ctxs = true) (a_trees : A .trees = true) (a_movs : A .movs = true) (a_srcMsgs : A .srcMsgs = true) (a_openMsgs : A .openMsgs = true) (a_filter : A .filter = true) (a_book : A .book = true) (a_keyCache : A .keyCache = true) (a_rankCache : A .rankCache = true) (a_orders : A .orders = true) (a_aptWaits : A .aptWaits = true) (a_flushes : A .flushes = true) (a_notices : A .notices = true) (a_acctCmds : A .acctCmds = true) (a_entries : A .entries = true) (a_lmatches : A .lmatches = true) (a_ovfBufs : A .ovfBufs = true) (a_tags : A .tags = true) (a_moveWait : A .moveWait = true) (a_movOwn : A .movOwn = true) (a_ctxSent : A .ctxSent = true) (a_clhIn : A .clhIn = true) (a_tptIn : A .tptIn = true) (a_relayIn : A .relayIn = true) (a_mgIn : A .mgIn = true) (a_mcIn : A .mcIn = true) (a_fifelIn : A .fifelIn = true) (a_qsRx : A .qsRx = true) (a_qsHere : A .qsHere = true) (a_qsWait : A .qsWait = true) (a_qsInj : A .qsInj = true) (a_samples : A .samples = true) (a_sampleLost : A .sampleLost = true) (a_hmk : A .hmk = true) (a_clh : A .clh = true) (a_pwr : A .pwr = true) (a_boot : A .boot = true) (a_izg : A .izg = true) (a_wakeLow : A .wakeLow = true) (a_trigFall : A .trigFall = true) (a_rotate : A .rotate = true) (a_out : A .out = true) : Upd A s0 t := by
  unfold execThermalTrip at e
  cases e
  split
  · exact h
  · apply State.faultUpd_upd <;> try assumption
    apply State.alertUpd_upd <;> try assumption
    refine Upd.to_hmk_clh _ _ ?_ (by assumption) (by assumption) (fun _ i => i.flashQ)
    apply State.cold_upd <;> try assumption
    · apply State.railsOff_upd <;> try assumption
      apply State.set_upd <;> try assumption
      apply State.set_upd <;> try assumption
      apply State.set_upd <;> try assumption
      apply State.set_upd <;> try assumption
    · exact fun _ i => i.lossArea

theorem execSdsRefclkLost_upd_eq {A : Fld → Bool} {s0 s : State} {x1 : Fin 8} {t : State} (h : Upd A s0 s) (e : execSdsRefclkLost x1 s = .next t) (a_regs : A .regs = true) (a_ports : A .ports = true) (a_hls : A .hls = true) (a_fns : A .fns = true) (a_clhIn : A .clhIn = true) (a_tptIn : A .tptIn = true) (a_relayIn : A .relayIn = true) (a_mgIn : A .mgIn = true) (a_mcIn : A .mcIn = true) (a_fifelIn : A .fifelIn = true) (a_samples : A .samples = true) (a_sampleLost : A .sampleLost = true) (a_clh : A .clh = true) (a_rotate : A .rotate = true) (a_freeCtr : A .freeCtr = true) (a_nextId : A .nextId = true) (a_out : A .out = true) : Upd A s0 t := by
  unfold execSdsRefclkLost at e
  cases e
  repeat' first
    | with_reducible assumption
    | intro x1
    | lift_lets
    | with_reducible apply State.linkDown_upd
    | with_reducible apply State.raise_upd
    | with_reducible apply Upd.fold

theorem execPllUnlock_upd_eq {A : Fld → Bool} {s0 s : State} {x1 : Fin 3} {t : State} (h : Upd A s0 s) (e : execPllUnlock x1 s = .next t) (a_clhIn : A .clhIn = true) : Upd A s0 t := by
  unfold execPllUnlock at e
  cases e
  repeat' first
    | with_reducible assumption
    | lift_lets
    | with_reducible apply State.raise_upd
    | split

end Sys2Proof.Machine
end

