-- ==== Sys2Proof/Laws/FrameBoot.lean ====
section
/-!
SUPPORT. Laws/FrameBoot.lean: which parts of State each operation of Machine/Boot.lean may change, and that it keeps the invariant.
-/
namespace Sys2Proof.Machine
set_option linter.unusedTactic false
set_option linter.unreachableTactic false
set_option linter.unusedVariables false

theorem State.bankWrite_upd {A : Fld → Bool} {s0 s : State} (x1 : Izg → Izg) (h : Upd A s0 s) (k : ∀ z : Izg, (x1 z).mg = z.mg ∧ (x1 z).summary = z.summary) (a_izg : A .izg = true) (a_out : A .out = true) : Upd A s0 (State.bankWrite s x1) := by
  unfold State.bankWrite
  refine State.emit_upd _ (Upd.to_izg _ h a_izg fun _ i => ?_) a_out
  have e := k s.izg
  exact ⟨e.1 ▸ i.mg, e.2 ▸ i.summary⟩

theorem State.setMeas_upd {A : Fld → Bool} {s0 s : State} (x1 : ℕ) (x2 : ℕ) (h : Upd A s0 s) (a_regs : A .regs = true) : Upd A s0 (State.setMeas s x1 x2) := by
  unfold State.setMeas
  repeat' first
    | with_reducible assumption
    | (intro s1; refine (fun (hs1 : Upd A s0 s1) => ?_) ?_; clear_value s1; rotate_left; subst s1; rotate_left)
    | intro x1
    | lift_lets
    | with_reducible apply State.set_upd
    | with_reducible apply Upd.fold
    | split

theorem State.measUpd_upd {A : Fld → Bool} {s0 s : State} (h : Upd A s0 s) (a_regs : A .regs = true) : Upd A s0 (State.measUpd s) := by
  unfold State.measUpd
  repeat' first
    | with_reducible assumption
    | (intro s1; refine (fun (hs1 : Upd A s0 s1) => ?_) ?_; clear_value s1; rotate_left; subst s1; rotate_left)
    | lift_lets
    | with_reducible apply State.setMeas_upd
    | split

theorem State.recover_upd {A : Fld → Bool} {s0 s : State} (x1 : ℕ) (h : Upd A s0 s) (a_regs : A .regs = true) : Upd A s0 (State.recover s x1) := by
  unfold State.recover
  repeat' first
    | with_reducible assumption
    | (intro s1; refine (fun (hs1 : Upd A s0 s1) => ?_) ?_; clear_value s1; rotate_left; subst s1; rotate_left)
    | lift_lets
    | with_reducible apply State.set_upd
    | split

theorem State.bankReject_upd {A : Fld → Bool} {s0 s : State} (x1 : ℕ) (h : Upd A s0 s) (a_regs : A .regs = true) (a_boot : A .boot = true) : Upd A s0 (State.bankReject s x1) := by
  unfold State.bankReject
  have k := State.set_upd TOP_BOOT_STAT.stage 4 (Upd.to_boot { s.boot with bootFault := orBit s.boot.bootFault x1 } h a_boot) a_regs
  refine Upd.ite (fun _ => ?_) (fun _ => k)
  apply State.recover_upd <;> assumption

theorem execPorAssert_upd_eq {A : Fld → Bool} {s0 s : State} {x1 : Bool} {t : State} (h : Upd A s0 s) (e : execPorAssert x1 s = .next t) (a_regs : A .regs = true) (a_ports : A .ports = true) (a_hls : A .hls = true) (a_fns : A .fns = true) (a_accts : A .accts = true) (a_ctxs : A .ctxs = true) (a_trees : A .trees = true) (a_movs : A .movs = true) (a_srcMsgs : A .srcMsgs = true) (a_openMsgs : A .openMsgs = true) (a_filter : A .filter = true) (a_book : A .book = true) (a_keyCache : A .keyCache = true) (a_rankCache : A .rankCache = true) (a_orders : A .orders = true) (a_aptWaits : A .aptWaits = true) (a_flushes : A .flushes = true) (a_notices : A .notices = true) (a_acctCmds : A .acctCmds = true) (a_entries : A .entries = true) (a_lmatches : A .lmatches = true) (a_ovfBufs : A .ovfBufs = true) (a_tags : A .tags = true) (a_moveWait : A .moveWait = true) (a_movOwn : A .movOwn = true) (a_ctxSent : A .ctxSent = true) (a_clhIn : A .clhIn = true) (a_tptIn : A .tptIn = true) (a_relayIn : A .relayIn = true) (a_mgIn : A .mgIn = true) (a_mcIn : A .mcIn = true) (a_fifelIn : A .fifelIn = true) (a_qsRx : A .qsRx = true) (a_qsHere : A .qsHere = true) (a_qsWait : A .qsWait = true) (a_qsInj : A .qsInj = true) (a_samples : A .samples = true) (a_sampleLost : A .sampleLost = true) (a_hmk : A .hmk = true) (a_clh : A .clh = true) (a_pwr : A .pwr = true) (a_boot : A .boot = true) (a_izg : A .izg = true) (a_wakeLow : A .wakeLow = true) (a_trigFall : A .trigFall = true) (a_rotate : A .rotate = true) (a_out : A .out = true) : Upd A s0 t := by
  unfold execPorAssert at e
  cases e
  repeat' first
    | with_reducible assumption
    | exact fun _ i => i.lossArea
    | (intro s1; refine (fun (hs1 : Upd A s0 s1) => ?_) ?_; clear_value s1; rotate_left; subst s1; rotate_left)
    | (intro x1; have x2 : Pwr := x1; clear x2; subst x1)
    | (intro x1; have x2 := fun a => x1 a; clear x2; subst x1)
    | (intro x1; clear_value x1)
    | intro x1
    | lift_lets
    | with_reducible apply State.cold_upd
    | with_reducible apply State.emit_upd
    | with_reducible apply State.railsOff_upd
    | split
    | dsimp only
    | refine Upd.to_regs_pwr _ _ ?_ (by assumption) (by assumption) (fun _ i => tasc_filter _ i.regs) (fun _ i => i.lossArea)
    | with_reducible apply Upd.to_boot
    | dsimp +zetaDelta only

theorem execPorRelease_upd_eq {A : Fld → Bool} {s0 s : State} {x1 : BitVec 6} {t : State} (h : Upd A s0 s) (e : execPorRelease x1 s = .next t) (a_regs : A .regs = true) (a_ports : A .ports = true) (a_hls : A .hls = true) (a_fns : A .fns = true) (a_accts : A .accts = true) (a_ctxs : A .ctxs = true) (a_trees : A .trees = true) (a_movs : A .movs = true) (a_srcMsgs : A .srcMsgs = true) (a_openMsgs : A .openMsgs = true) (a_filter : A .filter = true) (a_book : A .book = true) (a_keyCache : A .keyCache = true) (a_rankCache : A .rankCache = true) (a_orders : A .orders = true) (a_aptWaits : A .aptWaits = true) (a_flushes : A .flushes = true) (a_notices : A .notices = true) (a_acctCmds : A .acctCmds = true) (a_entries : A .entries = true) (a_lmatches : A .lmatches = true) (a_ovfBufs : A .ovfBufs = true) (a_tags : A .tags = true) (a_moveWait : A .moveWait = true) (a_movOwn : A .movOwn = true) (a_ctxSent : A .ctxSent = true) (a_clhIn : A .clhIn = true) (a_tptIn : A .tptIn = true) (a_relayIn : A .relayIn = true) (a_mgIn : A .mgIn = true) (a_mcIn : A .mcIn = true) (a_fifelIn : A .fifelIn = true) (a_qsRx : A .qsRx = true) (a_qsHere : A .qsHere = true) (a_qsWait : A .qsWait = true) (a_qsInj : A .qsInj = true) (a_samples : A .samples = true) (a_sampleLost : A .sampleLost = true) (a_hmk : A .hmk = true) (a_clh : A .clh = true) (a_pwr : A .pwr = true) (a_boot : A .boot = true) (a_izg : A .izg = true) (a_wakeLow : A .wakeLow = true) (a_trigFall : A .trigFall = true) (a_rotate : A .rotate = true) (a_out : A .out = true) : Upd A s0 t := by
  unfold execPorRelease at e
  cases e
  repeat' first
    | with_reducible assumption
    | (intro x1; have x2 : Izg := x1; clear x2; subst x1)
    | with_reducible apply State.event_upd
    | exact fun _ i => i.lossArea
    | (intro s1; refine (fun (hs1 : Upd A s0 s1) => ?_) ?_; clear_value s1; rotate_left; subst s1; rotate_left)
    | (intro x1; clear_value x1)
    | intro x1
    | lift_lets
    | with_reducible apply State.cold_upd
    | with_reducible apply State.set_upd
    | with_reducible apply State.stateChange_upd
    | split
    | dsimp only
    | refine Upd.to_regs_clhIn_boot _ _ _ ?_ (by assumption) (by assumption) (by assumption) (fun _ i => tasc_filter _ i.regs)
    | refine Upd.to_izg _ ?_ (by assumption) (fun _ i => ⟨i.mg, i.summary⟩)

theorem execRailPowerGood_upd_eq {A : Fld → Bool} {s0 s : State} {t : State} (h : Upd A s0 s) (e : execRailPowerGood s = .next t) (a_regs : A .regs = true) (a_boot : A .boot = true) (a_out : A .out = true) : Upd A s0 t := by
  unfold execRailPowerGood at e
  cases e
  repeat' first
    | with_reducible assumption
    | (intro s1; refine (fun (hs1 : Upd A s0 s1) => ?_) ?_; clear_value s1; rotate_left; subst s1; rotate_left)
    | lift_lets
    | with_reducible apply State.set_upd
    | with_reducible apply State.emit_upd
    | split
    | exact { h with boot := .inl a_boot, keeps := fun i => { h.keeps i with } }

theorem execRailTimeout_upd_eq {A : Fld → Bool} {s0 s : State} {t : State} (h : Upd A s0 s) (e : execRailTimeout s = .next t) (a_regs : A .regs = true) (a_boot : A .boot = true) (a_out : A .out = true) : Upd A s0 t := by
  unfold execRailTimeout at e
  cases e
  repeat' first
    | with_reducible assumption
    | (intro s1; refine (fun (hs1 : Upd A s0 s1) => ?_) ?_; clear_value s1; rotate_left; subst s1; rotate_left)
    | lift_lets
    | with_reducible apply State.set_upd
    | with_reducible apply State.railsOff_upd
    | split

theorem execBootPllLock_upd_eq {A : Fld → Bool} {s0 s : State} {x1 : Bool} {t : State} (h : Upd A s0 s) (e : execBootPllLock x1 s = .next t) (a_regs : A .regs = true) (a_ports : A .ports = true) (a_hls : A .hls = true) (a_fns : A .fns = true) (a_clhIn : A .clhIn = true) (a_tptIn : A .tptIn = true) (a_mcIn : A .mcIn = true) (a_fifelIn : A .fifelIn = true) (a_samples : A .samples = true) (a_sampleLost : A .sampleLost = true) (a_clh : A .clh = true) (a_pwr : A .pwr = true) (a_boot : A .boot = true) (a_rotate : A .rotate = true) (a_freeCtr : A .freeCtr = true) (a_nextId : A .nextId = true) (a_out : A .out = true) : Upd A s0 t := by
  unfold execBootPllLock at e
  cases e
  repeat' first
    | with_reducible assumption
    | (intro s1; refine (fun (hs1 : Upd A s0 s1) => ?_) ?_; clear_value s1; rotate_left; subst s1; rotate_left)
    | intro x1
    | lift_lets
    | with_reducible apply State.vote_upd
    | with_reducible apply State.set_upd
    | with_reducible apply Upd.fold
    | split

theorem execFuseRead_upd_eq {A : Fld → Bool} {s0 s : State} {x1 : Fuses} {t : State} (h : Upd A s0 s) (e : execFuseRead x1 s = .next t) (a_regs : A .regs = true) (a_boot : A .boot = true) (a_freeCtr : A .freeCtr = true) : Upd A s0 t := by
  unfold execFuseRead at e
  cases e
  repeat' first
    | with_reducible assumption
    | (intro s1; refine (fun (hs1 : Upd A s0 s1) => ?_) ?_; clear_value s1; rotate_left; subst s1; rotate_left)
    | intro x1
    | lift_lets
    | with_reducible apply State.set_upd
    | with_reducible apply State.free_upd
    | with_reducible apply State.recover_upd
    | with_reducible refine Upd.ofSnd (by assumption) ?_
    | with_reducible apply Upd.fold
    | split
    | exact { h with boot := .inl a_boot, keeps := fun i => { h.keeps i with } }

theorem State.aliasKey_upd {A : Fld → Bool} {s0 s : State} (h : Upd A s0 s) (a_izg : A .izg = true) : Upd A s0 (State.aliasKey s) := by
  unfold State.aliasKey
  repeat' first
    | with_reducible assumption
    | (intro x1; have x2 : Izg := x1; clear x2; subst x1)
    | (intro x1; have x2 := fun a => x1 a; clear x2; subst x1)
    | (intro x1; clear_value x1)
    | intro x1
    | lift_lets
    | split
    | dsimp only
    | refine Upd.to_izg _ ?_ (by assumption) (fun _ i => ⟨i.mg, i.summary⟩)
    | dsimp +zetaDelta only

theorem State.firstStage_upd {A : Fld → Bool} {s0 s : State} (x1 : List Byte) (h : Upd A s0 s) (a_regs : A .regs = true) (a_boot : A .boot = true) (a_izg : A .izg = true) : Upd A s0 (State.firstStage s x1) := by
  unfold State.firstStage
  repeat' first
    | with_reducible assumption
    | intro x1
    | (intro x1; clear_value x1)
    | (intro s1; refine (fun (hs1 : Upd A s0 s1) => ?_) ?_; clear_value s1; rotate_left; subst s1; rotate_left)
    | exact ⟨rfl, rfl⟩
    | (intro x1; have x2 : Clh := x1; clear x2; subst x1)
    | (intro x1; have x2 : Pwr := x1; clear x2; subst x1)
    | (intro x1; have x2 : Izg := x1; clear x2; subst x1)
    | lift_lets
    | with_reducible apply State.set_upd
    | with_reducible apply State.setMeas_upd
    | split
    | refine Upd.to_izg _ ?_ (by assumption) (fun i _ => ⟨(h.keeps i).mg, (h.keeps i).summary⟩)
    | dsimp only
    | refine Upd.to_izg _ ?_ (by assumption) (fun _ i => ⟨i.mg, i.summary⟩)
    | refine Upd.to_boot_izg _ _ ?_ (by assumption) (by assumption) (fun _ i => ⟨i.mg, i.summary⟩)

theorem State.bootTick_upd {A : Fld → Bool} {s0 s : State} (h : Upd A s0 s) (a_regs : A .regs = true) : Upd A s0 (State.bootTick s) := by
  unfold State.bootTick
  repeat' first
    | with_reducible assumption
    | intro x1
    | lift_lets
    | with_reducible apply State.set_upd
    | split
    | dsimp only

theorem execFirstStageVerify_upd_eq {A : Fld → Bool} {s0 s : State} {x1 : FlashRead} {t : State} (h : Upd A s0 s) (e : execFirstStageVerify x1 s = .next t) (a_regs : A .regs = true) (a_boot : A .boot = true) (a_izg : A .izg = true) (a_out : A .out = true) : Upd A s0 t := by
  unfold execFirstStageVerify at e
  cases e
  repeat' first
    | with_reducible assumption
    | (intro s1; refine (fun (hs1 : Upd A s0 s1) => ?_) ?_; clear_value s1; rotate_left; subst s1; rotate_left)
    | exact ⟨rfl, rfl⟩
    | intro x1
    | lift_lets
    | with_reducible apply State.firstStage_upd
    | with_reducible apply State.bankWrite_upd
    | with_reducible apply State.set_upd
    | with_reducible apply State.bankReject_upd
    | split
    | dsimp only
    | exact fun _ => ⟨rfl, rfl⟩
    | with_reducible apply Upd.getD

theorem execRecoveryImageLoad_upd_eq {A : Fld → Bool} {s0 s : State} {x1 : FlashRead} {t : State} (h : Upd A s0 s) (e : execRecoveryImageLoad x1 s = .next t) (a_regs : A .regs = true) (a_boot : A .boot = true) (a_izg : A .izg = true) : Upd A s0 t := by
  unfold execRecoveryImageLoad at e
  cases e
  repeat' first
    | with_reducible assumption
    | intro x1
    | (intro s1; refine (fun (hs1 : Upd A s0 s1) => ?_) ?_; clear_value s1; rotate_left; subst s1; rotate_left)
    | lift_lets
    | with_reducible apply State.firstStage_upd
    | split
    | dsimp only
    | with_reducible apply Upd.getD

theorem State.mainFirmware_upd {A : Fld → Bool} {s0 s : State} (x1 : List Byte) (h : Upd A s0 s) (a_regs : A .regs = true) (a_hls : A .hls = true) (a_fns : A .fns = true) (a_clhIn : A .clhIn = true) (a_clh : A .clh = true) (a_pwr : A .pwr = true) (a_izg : A .izg = true) (a_out : A .out = true) : Upd A s0 (State.mainFirmware s x1) := by
  unfold State.mainFirmware
  repeat' first
    | with_reducible assumption
    | intro x1
    | (intro x1; clear_value x1)
    | (intro s1; refine (fun (hs1 : Upd A s0 s1) => ?_) ?_; clear_value s1; rotate_left; subst s1; rotate_left)
    | (intro x1; have x2 : Clh := x1; clear x2; subst x1)
    | (intro x1; have x2 : Pwr := x1; clear x2; subst x1)
    | (intro x1; have x2 : Izg := x1; clear x2; subst x1)
    | lift_lets
    | with_reducible apply State.setB_upd
    | with_reducible apply State.measUpd_upd
    | with_reducible apply State.set_upd
    | with_reducible apply State.pwrfailStart_upd
    | with_reducible apply State.setMeas_upd
    | with_reducible apply State.aliasKey_upd
    | split
    | with_reducible refine Upd.to_izg _ ?_ (by assumption) (fun _ i => ⟨i.mg, i.summary⟩)
    | refine Upd.to_izg _ ?_ (by assumption) (fun _ i => ⟨i.mg, i.summary⟩)
    | dsimp only

theorem execMainFirmwareVerify_upd_eq {A : Fld → Bool} {s0 s : State} {x1 : FlashRead} {t : State} (h : Upd A s0 s) (e : execMainFirmwareVerify x1 s = .next t) (a_regs : A .regs = true) (a_hls : A .hls = true) (a_fns : A .fns = true) (a_clhIn : A .clhIn = true) (a_clh : A .clh = true) (a_pwr : A .pwr = true) (a_boot : A .boot = true) (a_izg : A .izg = true) (a_out : A .out = true) : Upd A s0 t := by
  unfold execMainFirmwareVerify at e
  cases e
  repeat' first
    | with_reducible assumption
    | intro x1
    | (intro s1; refine (fun (hs1 : Upd A s0 s1) => ?_) ?_; clear_value s1; rotate_left; subst s1; rotate_left)
    | exact ⟨rfl, rfl⟩
    | lift_lets
    | with_reducible apply State.set_upd
    | with_reducible apply State.bankReject_upd
    | with_reducible apply State.mainFirmware_upd
    | split
    | dsimp only
    | with_reducible apply Upd.getD

theorem State.provWrite_upd {A : Fld → Bool} {s0 s : State} (x1 : ℕ) (x2 : ℕ) (h : Upd A s0 s) (a_regs : A .regs = true) (a_clhIn : A .clhIn = true) : Upd A s0 (State.provWrite s x1 x2) := by
  unfold State.provWrite
  repeat' first
    | with_reducible assumption
    | (intro s1; refine (fun (hs1 : Upd A s0 s1) => ?_) ?_; clear_value s1; rotate_left; subst s1; rotate_left)
    | (intro x1; have x2 := fun a => x1 a; clear x2; subst x1)
    | (intro x1; have x2 := Prod.snd x1; clear x2; subst x1)
    | lift_lets
    | with_reducible apply State.reachWrite_upd
    | with_reducible apply State.setWord_upd
    | split

theorem State.planApply_upd {A : Fld → Bool} {s0 s : State} (x1 : List Byte) (h : Upd A s0 s) (a_regs : A .regs = true) (a_boot : A .boot = true) : Upd A s0 (State.planApply s x1) := by
  unfold State.planApply
  repeat' first
    | with_reducible assumption
    | intro x1
    | (intro x1; clear_value x1)
    | (intro s1; refine (fun (hs1 : Upd A s0 s1) => ?_) ?_; clear_value s1; rotate_left; subst s1; rotate_left)
    | lift_lets
    | with_reducible apply State.setB_upd
    | with_reducible apply State.set_upd
    | with_reducible apply State.groupsMark_upd
    | split
    | with_reducible apply Upd.to_boot
    | dsimp only

theorem State.repairApply_upd {A : Fld → Bool} {s0 s : State} (h : Upd A s0 s) (a_regs : A .regs = true) (a_izg : A .izg = true) : Upd A s0 (State.repairApply s) := by
  unfold State.repairApply
  repeat' first
    | with_reducible assumption
    | (intro s1; refine (fun (hs1 : Upd A s0 s1) => ?_) ?_; clear_value s1; rotate_left; subst s1; rotate_left)
    | (intro x1; have x2 : Clh := x1; clear x2; subst x1)
    | (intro x1; have x2 : Pwr := x1; clear x2; subst x1)
    | (intro x1; have x2 : Izg := x1; clear x2; subst x1)
    | intro x1
    | lift_lets
    | with_reducible apply State.set_upd
    | with_reducible apply Upd.fold
    | split
    | refine Upd.to_izg _ ?_ (by assumption) (fun _ i => ⟨i.mg, i.summary⟩)

theorem execProvisioningApply_upd_eq {A : Fld → Bool} {s0 s : State} {x1 : ProvRead} {t : State} (h : Upd A s0 s) (e : execProvisioningApply x1 s = .next t) (a_regs : A .regs = true) (a_clhIn : A .clhIn = true) (a_boot : A .boot = true) (a_izg : A .izg = true) : Upd A s0 t := by
  unfold execProvisioningApply at e
  cases e
  repeat' first
    | with_reducible assumption
    | (intro x1; have x2 : Izg := x1; clear x2; subst x1)
    | (intro s1; refine (fun (hs1 : Upd A s0 s1) => ?_) ?_; clear_value s1; rotate_left; subst s1; rotate_left)
    | (intro x1; clear_value x1)
    | intro x1
    | lift_lets
    | with_reducible apply State.planApply_upd
    | with_reducible apply State.provWrite_upd
    | with_reducible apply State.raise_upd
    | with_reducible apply State.repairApply_upd
    | with_reducible apply State.set_upd
    | with_reducible apply State.setMeas_upd
    | with_reducible apply Upd.fold
    | split
    | dsimp only
    | with_reducible apply Upd.to_boot
    | with_reducible apply Upd.getD
    | refine Upd.to_izg _ ?_ (by assumption) (fun _ i => ⟨i.mg, i.summary⟩)

theorem State.bootQueue_upd {A : Fld → Bool} {s0 s : State} (h : Upd A s0 s) (a_regs : A .regs = true) (a_hls : A .hls = true) (a_fns : A .fns = true) (a_clh : A .clh = true) (a_pwr : A .pwr = true) (a_out : A .out = true) : Upd A s0 (State.bootQueue s) := by
  unfold State.bootQueue
  repeat' first
    | with_reducible assumption
    | (intro s1; refine (fun (hs1 : Upd A s0 s1) => ?_) ?_; clear_value s1; rotate_left; subst s1; rotate_left)
    | (intro x1; have x2 : Clh := x1; clear x2; subst x1)
    | (intro x1; have x2 : Pwr := x1; clear x2; subst x1)
    | (intro x1; have x2 : Izg := x1; clear x2; subst x1)
    | lift_lets
    | with_reducible apply State.flashQueue_upd
    | split
    | with_reducible refine Upd.to_pwr _ ?_ (by assumption) (fun _ i => i.lossArea)

theorem execBootPortsReset_upd_eq {A : Fld → Bool} {s0 s : State} {t : State} (h : Upd A s0 s) (e : execBootPortsReset s = .next t) (a_regs : A .regs = true) (a_ports : A .ports = true) (a_hls : A .hls = true) (a_fns : A .fns = true) (a_clhIn : A .clhIn = true) (a_tptIn : A .tptIn = true) (a_relayIn : A .relayIn = true) (a_mgIn : A .mgIn = true) (a_mcIn : A .mcIn = true) (a_fifelIn : A .fifelIn = true) (a_samples : A .samples = true) (a_sampleLost : A .sampleLost = true) (a_clh : A .clh = true) (a_pwr : A .pwr = true) (a_rotate : A .rotate = true) (a_freeCtr : A .freeCtr = true) (a_nextId : A .nextId = true) (a_out : A .out = true) : Upd A s0 t := by
  unfold execBootPortsReset at e
  cases e
  repeat' first
    | with_reducible assumption
    | (intro s1; refine (fun (hs1 : Upd A s0 s1) => ?_) ?_; clear_value s1; rotate_left; subst s1; rotate_left)
    | (intro x1; clear_value x1)
    | intro x1
    | lift_lets
    | with_reducible apply State.bootQueue_upd
    | with_reducible apply State.enterSvc_upd
    | with_reducible apply State.hostReady_upd
    | with_reducible apply State.raise_upd
    | with_reducible apply State.settle_upd
    | with_reducible apply State.startReset_upd
    | with_reducible apply State.writeTables_upd
    | with_reducible apply Upd.fold
    | split
    | dsimp only

theorem execResetCtlWrite_upd_eq {A : Fld → Bool} {s0 s : State} {x1 : Writer} {x2 : Word} {t : State} (h : Upd A s0 s) (e : execResetCtlWrite x1 x2 s = .next t) (a_regs : A .regs = true) (a_hls : A .hls = true) (a_fns : A .fns = true) (a_movOwn : A .movOwn = true) (a_clhIn : A .clhIn = true) (a_boot : A .boot = true) (a_freeCtr : A .freeCtr = true) (a_out : A .out = true) : Upd A s0 t := by
  unfold execResetCtlWrite at e
  cases e
  repeat' first
    | with_reducible assumption
    | intro x1
    | (intro x1; clear_value x1)
    | (intro s1; refine (fun (hs1 : Upd A s0 s1) => ?_) ?_; clear_value s1; rotate_left; subst s1; rotate_left)
    | lift_lets
    | with_reducible apply State.reaching_upd
    | split
    | exact { h with boot := .inl a_boot, keeps := fun i => { h.keeps i with } }
    | dsimp only
    | with_reducible apply Upd.to_boot

theorem State.lastFatal_upd {A : Fld → Bool} {s0 s : State} (h : Upd A s0 s) (a_regs : A .regs = true) (a_fns : A .fns = true) (a_freeCtr : A .freeCtr = true) (a_out : A .out = true) : Upd A s0 (State.lastFatal s) := by
  unfold State.lastFatal
  repeat' first
    | with_reducible assumption
    | intro x1
    | lift_lets
    | with_reducible apply State.recordAer_upd
    | with_reducible apply State.setWords_upd
    | split
    | dsimp only

/-- The registers that an internal device reset leaves rise by address (09 R330). -/
theorem bindKept_mem {old : List (Nat × Word)} {x : Nat × Word} (h : x ∈ bindKept old) : 0x9100000 ≤ x.1 ∧ x.1 < 0x9180000 := by
  simp only [bindKept, List.mem_flatMap, List.mem_range, List.mem_filterMap, List.mem_cons, List.not_mem_nil, or_false] at h
  obtain ⟨a, ha, q, hq, hx⟩ := h
  rcases hq with rfl | rfl | rfl <;>
  · dsimp only at hx
    split at hx
    · cases hx
    · cases hx
      simp only [ACC_BIND0.reg, ACC_BIND1.reg, ACC_BIND2.reg, RF.whole]
      omega

theorem tasc_bindKept (old : List (Nat × Word)) : tasc (bindKept old) = true := by
  rw [tasc_iff]
  unfold bindKept
  rw [List.pairwise_flatMap]
  constructor
  · intro a _
    rw [List.pairwise_filterMap]
    simp only [List.pairwise_cons, List.mem_cons, List.not_mem_nil, or_false, forall_eq_or_imp, forall_eq, List.Pairwise.nil,
      IsEmpty.forall_iff, implies_true, and_true]
    refine ⟨⟨?_, ?_⟩, ?_⟩ <;>
    · intro x hx y hy
      split at hx
      · cases hx
      split at hy
      · cases hy
      cases hx; cases hy
      simp only [ACC_BIND0.reg, ACC_BIND1.reg, ACC_BIND2.reg, RF.whole]
      omega
  · refine List.Pairwise.imp ?_ List.pairwise_lt_range
    intro a b hab x hx y hy
    simp only [List.mem_filterMap, List.mem_cons, List.not_mem_nil, or_false] at hx hy
    obtain ⟨p, hp, hx⟩ := hx
    obtain ⟨q, hq, hy⟩ := hy
    rcases hp with rfl | rfl | rfl <;> rcases hq with rfl | rfl | rfl <;>
    · dsimp only at hx hy
      split at hx
      · cases hx
      split at hy
      · cases hy
      cases hx; cases hy
      simp only [ACC_BIND0.reg, ACC_BIND1.reg, ACC_BIND2.reg, RF.whole]
      omega

theorem tasc_resetRegs {s : State} (h : tasc s.regs = true) : tasc s.resetRegs = true := by
  have hb : (ACC_BIND0.reg 0).addr = 0x9100000 := rfl
  have hp := (tasc_iff _).mp h
  rw [tasc_iff]
  unfold State.resetRegs
  rw [hb]
  dsimp only
  rw [List.pairwise_append, List.pairwise_append, List.pairwise_append]
  refine ⟨⟨⟨?_, ?_, ?_⟩, (tasc_iff _).mp (tasc_bindKept _), ?_⟩, ?_, ?_⟩
  · exact (hp.filter _).filter _
  · rw [List.pairwise_filterMap]
    refine hp.imp ?_
    intro a b hab x hx y hy
    split at hx
    · split at hy
      · cases hx; cases hy; exact hab
      · cases hy
    · cases hx
  · intro x hx y hy
    simp only [List.mem_filter, decide_eq_true_eq] at hx
    simp only [List.mem_filterMap] at hy
    obtain ⟨q, _, hq⟩ := hy
    split at hq
    · cases hq; have := hx.2; omega
    · cases hq
  · intro x hx y hy
    have := bindKept_mem hy
    rcases List.mem_append.mp hx with hx | hx
    · simp only [List.mem_filter, decide_eq_true_eq] at hx
      have := hx.2; omega
    · simp only [List.mem_filterMap] at hx
      obtain ⟨q, _, hq⟩ := hx
      split at hq
      · cases hq; omega
      · cases hq
  · exact (hp.filter _).filter _
  · intro x hx y hy
    simp only [List.mem_filter, decide_eq_true_eq] at hy
    rcases List.mem_append.mp hx with hx | hx
    · rcases List.mem_append.mp hx with hx | hx
      · simp only [List.mem_filter, decide_eq_true_eq] at hx
        have := hx.2; omega
      · simp only [List.mem_filterMap] at hx
        obtain ⟨q, _, hq⟩ := hx
        split at hq
        · cases hq; omega
        · cases hq
    · have := bindKept_mem hx; omega

theorem execInternalDeviceReset_upd_eq {A : Fld → Bool} {s0 s : State} {t : State} (h : Upd A s0 s) (e : execInternalDeviceReset s = .next t) (a_regs : A .regs = true) (a_ports : A .ports = true) (a_hls : A .hls = true) (a_fns : A .fns = true) (a_accts : A .accts = true) (a_ctxs : A .ctxs = true) (a_trees : A .trees = true) (a_movs : A .movs = true) (a_srcMsgs : A .srcMsgs = true) (a_openMsgs : A .openMsgs = true) (a_filter : A .filter = true) (a_book : A .book = true) (a_keyCache : A .keyCache = true) (a_rankCache : A .rankCache = true) (a_orders : A .orders = true) (a_aptWaits : A .aptWaits = true) (a_flushes : A .flushes = true) (a_notices : A .notices = true) (a_acctCmds : A .acctCmds = true) (a_entries : A .entries = true) (a_lmatches : A .lmatches = true) (a_ovfBufs : A .ovfBufs = true) (a_tags : A .tags = true) (a_moveWait : A .moveWait = true) (a_movOwn : A .movOwn = true) (a_ctxSent : A .ctxSent = true) (a_clhIn : A .clhIn = true) (a_tptIn : A .tptIn = true) (a_relayIn : A .relayIn = true) (a_mgIn : A .mgIn = true) (a_mcIn : A .mcIn = true) (a_fifelIn : A .fifelIn = true) (a_qsRx : A .qsRx = true) (a_qsHere : A .qsHere = true) (a_qsWait : A .qsWait = true) (a_qsInj : A .qsInj = true) (a_samples : A .samples = true) (a_sampleLost : A .sampleLost = true) (a_clh : A .clh = true) (a_pwr : A .pwr = true) (a_boot : A .boot = true) (a_izg : A .izg = true) (a_trigFall : A .trigFall = true) (a_rotate : A .rotate = true) (a_freeCtr : A .freeCtr = true) (a_nextId : A .nextId = true) (a_out : A .out = true) : Upd A s0 t := by
  unfold execInternalDeviceReset at e
  cases e
  repeat' first
    | with_reducible assumption
    | (intro s1; refine (fun (hs1 : Upd A s0 s1) => ?_) ?_; clear_value s1; rotate_left; subst s1; rotate_left)
    | (intro x1; have x2 : Pwr := x1; clear x2; subst x1)
    | (intro x1; have x2 := fun a => x1 a; clear x2; subst x1)
    | (intro x1; clear_value x1)
    | intro x1
    | lift_lets
    | with_reducible apply State.activityUpd_upd
    | with_reducible apply State.clhUpd_upd
    | with_reducible apply State.enterPwr_upd
    | with_reducible apply State.enterSvc_upd
    | with_reducible apply State.event_upd
    | with_reducible apply State.hostVotes_upd
    | with_reducible apply State.lastFatal_upd
    | with_reducible apply State.set_upd
    | with_reducible apply State.setB_upd
    | with_reducible apply State.setDom_upd
    | with_reducible apply State.stateChange_upd
    | with_reducible apply Upd.fold
    | split
    | exact { regs := .inl a_regs, ports := .inl a_ports, hls := .inl a_hls, fns := .inl a_fns, accts := .inl a_accts, ctxs := .inl a_ctxs, trees := .inl a_trees, movs := .inl a_movs, srcMsgs := .inl a_srcMsgs, openMsgs := .inl a_openMsgs, filter := .inl a_filter, book := .inl a_book, keyCache := .inl a_keyCache, rankCache := .inl a_rankCache, orders := .inl a_orders, aptWaits := .inl a_aptWaits, flushes := .inl a_flushes, notices := .inl a_notices, acctCmds := .inl a_acctCmds, entries := .inl a_entries, lmatches := .inl a_lmatches, ovfBufs := .inl a_ovfBufs, tags := .inl a_tags, moveWait := .inl a_moveWait, movOwn := .inl a_movOwn, ctxSent := .inl a_ctxSent, clhIn := .inl a_clhIn, tptIn := .inl a_tptIn, relayIn := .inl a_relayIn, mgIn := .inl a_mgIn, mcIn := .inl a_mcIn, fifelIn := .inl a_fifelIn, qsRx := .inl a_qsRx, qsHere := .inl a_qsHere, qsWait := .inl a_qsWait, qsInj := .inl a_qsInj, samples := .inl a_samples, sampleLost := .inl a_sampleLost, clh := .inl a_clh, pwr := .inl a_pwr, boot := .inl a_boot, izg := .inl a_izg, trigFall := .inl a_trigFall, hmk := hs1.hmk, wakeLow := hs1.wakeLow, clk := hs1.clk, rotate := .inl a_rotate, freeCtr := hs1.freeCtr, nextId := hs1.nextId, out := hs1.out, pending := hs1.pending, keeps := fun i => ⟨tasc_resetRegs (hs1.keeps i).regs, rfl, rfl, rfl, rfl, rfl, rfl, rfl, Nat.zero_le _, Nat.zero_le _, (hs1.keeps i).lossArea, Nat.zero_le _, (hs1.keeps i).summary, Nat.zero_le _, Nat.zero_le _⟩ }
    | dsimp only

end Sys2Proof.Machine
end

