-- ==== Sys2Proof/Laws/FrameSecurity.lean ====
section
/-!
SUPPORT. Laws/FrameSecurity.lean: which parts of State each operation of Machine/Security.lean may change, and that it keeps the invariant.
-/
namespace Sys2Proof.Machine
set_option linter.unusedTactic false
set_option linter.unreachableTactic false
set_option linter.unusedVariables false

theorem State.secEnd_upd {A : Fld → Bool} {s0 s : State} (x1 : ℕ) (h : Upd A s0 s) (a_regs : A .regs = true) (a_hls : A .hls = true) (a_fns : A .fns = true) (a_out : A .out = true) : Upd A s0 (State.secEnd s x1) := by
  unfold State.secEnd
  repeat' first
    | with_reducible assumption
    | (intro s1; refine (fun (hs1 : Upd A s0 s1) => ?_) ?_; clear_value s1; rotate_left; subst s1; rotate_left)
    | lift_lets
    | with_reducible apply State.bump_upd
    | with_reducible apply State.set_upd
    | split

theorem State.fuseSync_upd {A : Fld → Bool} {s0 s : State} (h : Upd A s0 s) (a_regs : A .regs = true) (a_boot : A .boot = true) : Upd A s0 (State.fuseSync s) := by
  unfold State.fuseSync
  repeat' first
    | with_reducible assumption
    | intro x1
    | (intro x1; clear_value x1)
    | (intro x1; have x2 := fun a => x1 a; clear x2; subst x1)
    | lift_lets
    | with_reducible apply State.measUpd_upd
    | exact { h with boot := .inl a_boot, keeps := fun i => { h.keeps i with } }
    | split
    | dsimp only
    | with_reducible apply Upd.to_boot
    | dsimp +zetaDelta only

theorem State.secRun_upd {A : Fld → Bool} {s0 s : State} (x1 : SecCmd) (x2 : ℕ) (x3 : (List Byte → State → Option ℕ)) (x4 : Bool) (x5 : (List Byte → State → State)) (h : Upd A s0 s) (f5 : ∀ v0 v1, Upd A s0 v1 → Upd A s0 (x5 v0 v1)) (a_regs : A .regs = true) (a_hls : A .hls = true) (a_fns : A .fns = true) (a_movOwn : A .movOwn = true) (a_clhIn : A .clhIn = true) (a_freeCtr : A .freeCtr = true) (a_out : A .out = true) : Upd A s0 (State.secRun s x1 x2 x3 x4 x5) := by
  unfold State.secRun
  repeat' first
    | with_reducible assumption
    | intro x1
    | (intro s1; refine (fun (hs1 : Upd A s0 s1) => ?_) ?_; clear_value s1; rotate_left; subst s1; rotate_left)
    | (intro x1; clear_value x1)
    | lift_lets
    | with_reducible apply State.set_upd
    | with_reducible apply State.free_upd
    | with_reducible apply State.raise_upd
    | with_reducible apply State.secEnd_upd
    | with_reducible apply State.reaching_upd
    | with_reducible refine Upd.ofSnd (by assumption) ?_
    | with_reducible apply f5
    | split
    | with_reducible apply Upd.getD
    | dsimp only

theorem execEnroll_upd_eq {A : Fld → Bool} {s0 s : State} {x1 : SecCmd} {t : State} (h : Upd A s0 s) (e : execEnroll x1 s = .next t) (a_regs : A .regs = true) (a_hls : A .hls = true) (a_fns : A .fns = true) (a_movOwn : A .movOwn = true) (a_clhIn : A .clhIn = true) (a_boot : A .boot = true) (a_freeCtr : A .freeCtr = true) (a_out : A .out = true) : Upd A s0 t := by
  unfold execEnroll at e
  cases e
  repeat' first
    | with_reducible assumption
    | (intro s1; refine (fun (hs1 : Upd A s0 s1) => ?_) ?_; clear_value s1; rotate_left; subst s1; rotate_left)
    | intro x1
    | lift_lets
    | with_reducible apply State.secRun_upd
    | with_reducible apply State.fuseSync_upd
    | with_reducible apply State.set_upd
    | with_reducible apply State.emit_upd
    | with_reducible apply Upd.fold
    | split

theorem execRevoke_upd_eq {A : Fld → Bool} {s0 s : State} {x1 : SecCmd} {t : State} (h : Upd A s0 s) (e : execRevoke x1 s = .next t) (a_regs : A .regs = true) (a_hls : A .hls = true) (a_fns : A .fns = true) (a_movOwn : A .movOwn = true) (a_clhIn : A .clhIn = true) (a_boot : A .boot = true) (a_freeCtr : A .freeCtr = true) (a_out : A .out = true) : Upd A s0 t := by
  unfold execRevoke at e
  cases e
  repeat' first
    | with_reducible assumption
    | intro x1
    | lift_lets
    | with_reducible apply State.secRun_upd
    | with_reducible apply State.fuseSync_upd
    | with_reducible apply State.set_upd
    | with_reducible apply State.emit_upd

theorem execRaiseFloor_upd_eq {A : Fld → Bool} {s0 s : State} {x1 : SecCmd} {t : State} (h : Upd A s0 s) (e : execRaiseFloor x1 s = .next t) (a_regs : A .regs = true) (a_hls : A .hls = true) (a_fns : A .fns = true) (a_movOwn : A .movOwn = true) (a_clhIn : A .clhIn = true) (a_boot : A .boot = true) (a_freeCtr : A .freeCtr = true) (a_out : A .out = true) : Upd A s0 t := by
  unfold execRaiseFloor at e
  cases e
  repeat' first
    | with_reducible assumption
    | intro x1
    | lift_lets
    | with_reducible apply State.secRun_upd
    | with_reducible apply State.fuseSync_upd
    | with_reducible apply State.set_upd
    | with_reducible apply State.emit_upd

theorem execUnlock_upd_eq {A : Fld → Bool} {s0 s : State} {x1 : SecCmd} {t : State} (h : Upd A s0 s) (e : execUnlock x1 s = .next t) (a_regs : A .regs = true) (a_hls : A .hls = true) (a_fns : A .fns = true) (a_movOwn : A .movOwn = true) (a_clhIn : A .clhIn = true) (a_izg : A .izg = true) (a_freeCtr : A .freeCtr = true) (a_out : A .out = true) : Upd A s0 t := by
  unfold execUnlock at e
  cases e
  repeat' first
    | with_reducible assumption
    | (intro s1; refine (fun (hs1 : Upd A s0 s1) => ?_) ?_; clear_value s1; rotate_left; subst s1; rotate_left)
    | (intro x1; have x2 : Izg := x1; clear x2; subst x1)
    | (intro x1; clear_value x1)
    | intro x1
    | lift_lets
    | with_reducible apply State.measUpd_upd
    | with_reducible apply State.raise_upd
    | with_reducible apply State.secRun_upd
    | with_reducible apply State.set_upd
    | split
    | dsimp only
    | refine Upd.to_izg _ ?_ (by assumption) (fun _ i => ⟨i.mg, i.summary⟩)

theorem execRma_upd_eq {A : Fld → Bool} {s0 s : State} {x1 : SecCmd} {t : State} (h : Upd A s0 s) (e : execRma x1 s = .next t) (a_regs : A .regs = true) (a_hls : A .hls = true) (a_fns : A .fns = true) (a_movOwn : A .movOwn = true) (a_clhIn : A .clhIn = true) (a_boot : A .boot = true) (a_freeCtr : A .freeCtr = true) (a_out : A .out = true) : Upd A s0 t := by
  unfold execRma at e
  cases e
  repeat' first
    | with_reducible assumption
    | (intro x1; have x2 : Clh := x1; clear x2; subst x1)
    | (intro x1; have x2 : Pwr := x1; clear x2; subst x1)
    | (intro x1; have x2 : Izg := x1; clear x2; subst x1)
    | intro x1
    | lift_lets
    | with_reducible apply State.secRun_upd
    | with_reducible apply State.fuseSync_upd
    | with_reducible apply State.set_upd
    | with_reducible apply State.emit_upd
    | refine Upd.to_izg _ ?_ (by assumption) (fun _ i => ⟨i.mg, i.summary⟩)
    | split
    | dsimp only

theorem execSecurityCommandUnknown_upd_eq {A : Fld → Bool} {s0 s : State} {x1 : SecCmd} {t : State} (h : Upd A s0 s) (e : execSecurityCommandUnknown x1 s = .next t) (a_regs : A .regs = true) (a_hls : A .hls = true) (a_fns : A .fns = true) (a_movOwn : A .movOwn = true) (a_clhIn : A .clhIn = true) (a_freeCtr : A .freeCtr = true) (a_out : A .out = true) : Upd A s0 t := by
  unfold execSecurityCommandUnknown at e
  cases e
  repeat' first
    | with_reducible assumption
    | intro x1
    | lift_lets
    | with_reducible apply State.secEnd_upd
    | with_reducible apply State.reaching_upd
    | split
    | with_reducible apply Upd.getD
    | dsimp only

theorem execCertReq_upd_eq {A : Fld → Bool} {s0 s : State} {t : State} (h : Upd A s0 s) (e : execCertReq s = .next t) (a_regs : A .regs = true) (a_ports : A .ports = true) (a_hls : A .hls = true) (a_fns : A .fns = true) (a_clhIn : A .clhIn = true) (a_tptIn : A .tptIn = true) (a_mcIn : A .mcIn = true) (a_fifelIn : A .fifelIn = true) (a_samples : A .samples = true) (a_sampleLost : A .sampleLost = true) (a_clh : A .clh = true) (a_izg : A .izg = true) (a_rotate : A .rotate = true) (a_freeCtr : A .freeCtr = true) (a_nextId : A .nextId = true) (a_out : A .out = true) : Upd A s0 t := by
  unfold execCertReq at e
  cases e
  repeat' first
    | with_reducible assumption
    | lift_lets
    | with_reducible apply State.sendOn_upd
    | with_reducible refine State.takeMg_upd_eq ?_ (by assumption) (by assumption)
    | split

theorem execCert_upd_eq {A : Fld → Bool} {s0 s : State} {t : State} (h : Upd A s0 s) (e : execCert s = .next t) (a_regs : A .regs = true) (a_ports : A .ports = true) (a_hls : A .hls = true) (a_fns : A .fns = true) (a_clhIn : A .clhIn = true) (a_tptIn : A .tptIn = true) (a_relayIn : A .relayIn = true) (a_mgIn : A .mgIn = true) (a_mcIn : A .mcIn = true) (a_fifelIn : A .fifelIn = true) (a_samples : A .samples = true) (a_sampleLost : A .sampleLost = true) (a_clh : A .clh = true) (a_izg : A .izg = true) (a_rotate : A .rotate = true) (a_freeCtr : A .freeCtr = true) (a_nextId : A .nextId = true) (a_out : A .out = true) : Upd A s0 t := by
  unfold execCert at e
  cases e
  repeat' first
    | with_reducible assumption
    | (intro x1; clear_value x1)
    | (intro x1; have x2 : Izg := x1; clear x2; subst x1)
    | (intro s1; refine (fun (hs1 : Upd A s0 s1) => ?_) ?_; clear_value s1; rotate_left; subst s1; rotate_left)
    | intro x1
    | lift_lets
    | with_reducible apply State.modPort_upd
    | with_reducible apply State.holdPort_upd
    | with_reducible apply State.settle_upd
    | with_reducible refine State.takeMg_upd_eq ?_ (by assumption) (by assumption)
    | split
    | dsimp only
    | refine Upd.to_izg _ ?_ (by assumption) (fun _ i => ⟨i.mg, i.summary⟩)

theorem execCertTimeout_upd_eq {A : Fld → Bool} {s0 s : State} {x1 : PortNo} {t : State} (h : Upd A s0 s) (e : execCertTimeout x1 s = .next t) (a_regs : A .regs = true) (a_ports : A .ports = true) (a_hls : A .hls = true) (a_fns : A .fns = true) (a_clhIn : A .clhIn = true) (a_tptIn : A .tptIn = true) (a_relayIn : A .relayIn = true) (a_mgIn : A .mgIn = true) (a_mcIn : A .mcIn = true) (a_fifelIn : A .fifelIn = true) (a_samples : A .samples = true) (a_sampleLost : A .sampleLost = true) (a_clh : A .clh = true) (a_rotate : A .rotate = true) (a_freeCtr : A .freeCtr = true) (a_nextId : A .nextId = true) (a_out : A .out = true) : Upd A s0 t := by
  unfold execCertTimeout at e
  cases e
  repeat' first
    | with_reducible assumption
    | lift_lets
    | with_reducible apply State.holdPort_upd
    | split

theorem State.mgmtAnswer_upd {A : Fld → Bool} {s0 s : State} (x1 : MgmtTo) (x2 : List ℕ) (h : Upd A s0 s) (a_regs : A .regs = true) (a_hls : A .hls = true) (a_fns : A .fns = true) (a_out : A .out = true) : Upd A s0 (State.mgmtAnswer s x1 x2) := by
  unfold State.mgmtAnswer
  repeat' first
    | with_reducible assumption
    | (intro s1; refine (fun (hs1 : Upd A s0 s1) => ?_) ?_; clear_value s1; rotate_left; subst s1; rotate_left)
    | (intro x1; clear_value x1)
    | intro x1
    | lift_lets
    | with_reducible apply State.emit_upd
    | with_reducible apply State.modHl_upd
    | with_reducible apply State.pf0Signal_upd
    | with_reducible apply State.set_upd
    | with_reducible apply Upd.fold
    | split
    | dsimp only

theorem execDoeRequest_upd_eq {A : Fld → Bool} {s0 s : State} {x1 : HostLink} {x2 : BitVec 16} {x3 : BitVec 8} {x4 : Bytes} {t : State} (h : Upd A s0 s) (e : execDoeRequest x1 x2 x3 x4 s = .next t) (a_regs : A .regs = true) (a_hls : A .hls = true) (a_fns : A .fns = true) (a_out : A .out = true) : Upd A s0 t := by
  unfold execDoeRequest at e
  cases e
  repeat' first
    | with_reducible assumption
    | intro x1
    | (intro x1; clear_value x1)
    | lift_lets
    | with_reducible apply State.mgmtAnswer_upd
    | with_reducible apply State.modHl_upd
    | split
    | dsimp only

theorem execDoeAbort_upd_eq {A : Fld → Bool} {s0 s : State} {x1 : HostLink} {t : State} (h : Upd A s0 s) (e : execDoeAbort x1 s = .next t) (a_hls : A .hls = true) : Upd A s0 t := by
  unfold execDoeAbort at e
  cases e
  repeat' first
    | with_reducible assumption
    | lift_lets
    | with_reducible apply State.modHl_upd

theorem State.mctpTake_upd {A : Fld → Bool} {s0 s : State} (x1 : MgmtTo) (x2 : ℕ) (h : Upd A s0 s) (a_izg : A .izg = true) : Upd A s0 (State.mctpTake s x1 x2) := by
  unfold State.mctpTake
  repeat' first
    | with_reducible assumption
    | intro x1
    | (intro x1; clear_value x1)
    | (intro x1; have x2 : Clh := x1; clear x2; subst x1)
    | (intro x1; have x2 : Pwr := x1; clear x2; subst x1)
    | (intro x1; have x2 : Izg := x1; clear x2; subst x1)
    | lift_lets
    | split
    | refine Upd.to_izg _ ?_ (by assumption) (fun _ i => ⟨i.mg, i.summary⟩)
    | dsimp only

theorem execMctpMessage_upd_eq {A : Fld → Bool} {s0 s : State} {x1 : MctpFrom} {x2 : BitVec 7} {x3 : Bytes} {t : State} (h : Upd A s0 s) (e : execMctpMessage x1 x2 x3 s = .next t) (a_izg : A .izg = true) : Upd A s0 t := by
  unfold execMctpMessage at e
  cases e
  repeat' first
    | with_reducible assumption
    | intro x1
    | lift_lets
    | with_reducible apply State.mctpTake_upd
    | split
    | dsimp only

theorem State.mboxRead_upd {A : Fld → Bool} {s0 s : State} (h : Upd A s0 s) (a_regs : A .regs = true) (a_izg : A .izg = true) : Upd A s0 (State.mboxRead s) := by
  unfold State.mboxRead
  repeat' first
    | with_reducible assumption
    | intro x1
    | lift_lets
    | with_reducible apply State.mctpTake_upd
    | with_reducible apply State.set_upd
    | split
    | dsimp only

theorem execMboxToIzg_upd_eq {A : Fld → Bool} {s0 s : State} {x1 : Writer} {t : State} (h : Upd A s0 s) (e : execMboxToIzg x1 s = .next t) (a_regs : A .regs = true) (a_hls : A .hls = true) (a_fns : A .fns = true) (a_movOwn : A .movOwn = true) (a_clhIn : A .clhIn = true) (a_izg : A .izg = true) (a_freeCtr : A .freeCtr = true) (a_out : A .out = true) : Upd A s0 t := by
  unfold execMboxToIzg at e
  cases e
  repeat' first
    | with_reducible assumption
    | intro x1
    | (intro s1; refine (fun (hs1 : Upd A s0 s1) => ?_) ?_; clear_value s1; rotate_left; subst s1; rotate_left)
    | lift_lets
    | with_reducible apply State.mboxRead_upd
    | with_reducible apply State.set_upd
    | with_reducible apply State.reaching_upd
    | split
    | dsimp only

theorem State.setConn_upd {A : Fld → Bool} {s0 s : State} (x1 : SpdmConn) (h : Upd A s0 s) (a_izg : A .izg = true) : Upd A s0 (State.setConn s x1) := by
  unfold State.setConn
  repeat' first
    | with_reducible assumption
    | (intro x1; have x2 : Clh := x1; clear x2; subst x1)
    | (intro x1; have x2 : Pwr := x1; clear x2; subst x1)
    | (intro x1; have x2 : Izg := x1; clear x2; subst x1)
    | lift_lets
    | refine Upd.to_izg _ ?_ (by assumption) (fun _ i => ⟨i.mg, i.summary⟩)

theorem State.spdmTake_upd_eq {A : Fld → Bool} {s0 s : State} {x1 : SpdmChan} {x2 : Bool} {y0} {t : State} (h : Upd A s0 s) (e : State.spdmTake s x1 x2 = some (y0, t)) (a_hls : A .hls = true) (a_izg : A .izg = true) : Upd A s0 t := by
  unfold State.spdmTake at e
  split at e
  · cases e
  · split at e
    · rename_i n
      by_cases hc : (s.hl n.val).doe = some (if x2 then 2 else 1)
      · rw [if_pos hc] at e; cases e; exact State.modHl_upd _ _ h a_hls
      · rw [if_neg hc] at e; cases e
    · obtain ⟨p, hp, hq⟩ := Option.map_eq_some_iff.mp e
      cases hq
      exact Upd.to_izg _ h a_izg fun _ i => ⟨i.mg, i.summary⟩

theorem State.spdm_upd {A : Fld → Bool} {s0 s : State} (x1 : SpdmChan) (x2 : Bool) (x3 : ℕ) (x4 : SpdmConn → State → Option (List ℕ × SpdmConn × State)) (h : Upd A s0 s) (f4 : ∀ c u a x t, Upd A s0 u → x4 c u = some (a, x, t) → Upd A s0 t) (a_regs : A .regs = true) (a_hls : A .hls = true) (a_fns : A .fns = true) (a_izg : A .izg = true) (a_out : A .out = true) : Upd A s0 (State.spdm s x1 x2 x3 x4) := by
  unfold State.spdm
  split
  · exact h
  · have k : Upd A s0 _ := State.spdmTake_upd_eq h (by assumption) a_hls a_izg
    dsimp only
    split
    · apply State.mgmtAnswer_upd <;> assumption
    · split
      · apply State.mgmtAnswer_upd <;> assumption
      · apply State.mgmtAnswer_upd <;> try assumption
        apply State.setConn_upd <;> try assumption
        exact f4 _ _ _ _ _ k (by assumption)

theorem State.aliasSign_upd_eq {A : Fld → Bool} {s0 s : State} {y0} {t : State} (h : Upd A s0 s) (e : State.aliasSign s = some (y0, t)) (a_freeCtr : A .freeCtr = true) : Upd A s0 t := by
  unfold State.aliasSign at e
  split at e
  · refine Upd.ofSnd (Option.some.inj e) ?_
    apply State.free_upd <;> assumption
  · cases e

theorem execGetVersion_upd_eq {A : Fld → Bool} {s0 s : State} {x1 : SpdmChan} {t : State} (h : Upd A s0 s) (e : execGetVersion x1 s = .next t) (a_regs : A .regs = true) (a_hls : A .hls = true) (a_fns : A .fns = true) (a_izg : A .izg = true) (a_out : A .out = true) : Upd A s0 t := by
  unfold execGetVersion at e
  cases e
  apply State.spdm_upd <;> try assumption
  intro c u a x t hu e
  repeat' first
    | (cases e; exact hu)
    | lift_lets
    | intro x1
    | (cases e; done)
    | with_reducible apply State.spdm_upd
    | split at e
    | with_reducible assumption
    | dsimp only

theorem execGetCapabilities_upd_eq {A : Fld → Bool} {s0 s : State} {x1 : SpdmChan} {t : State} (h : Upd A s0 s) (e : execGetCapabilities x1 s = .next t) (a_regs : A .regs = true) (a_hls : A .hls = true) (a_fns : A .fns = true) (a_izg : A .izg = true) (a_out : A .out = true) : Upd A s0 t := by
  unfold execGetCapabilities at e
  cases e
  apply State.spdm_upd <;> try assumption
  intro c u a x t hu e
  repeat' first
    | (cases e; exact hu)
    | lift_lets
    | intro x1
    | (cases e; done)
    | with_reducible apply State.spdm_upd
    | split at e
    | with_reducible assumption
    | dsimp only

theorem execNegotiateAlgorithms_upd_eq {A : Fld → Bool} {s0 s : State} {x1 : SpdmChan} {t : State} (h : Upd A s0 s) (e : execNegotiateAlgorithms x1 s = .next t) (a_regs : A .regs = true) (a_hls : A .hls = true) (a_fns : A .fns = true) (a_izg : A .izg = true) (a_out : A .out = true) : Upd A s0 t := by
  unfold execNegotiateAlgorithms at e
  cases e
  apply State.spdm_upd <;> try assumption
  intro c u a x t hu e
  repeat' first
    | (cases e; exact hu)
    | lift_lets
    | intro x1
    | (cases e; done)
    | with_reducible apply State.spdm_upd
    | split at e
    | with_reducible assumption
    | dsimp only

theorem execGetDigests_upd_eq {A : Fld → Bool} {s0 s : State} {x1 : SpdmChan} {t : State} (h : Upd A s0 s) (e : execGetDigests x1 s = .next t) (a_regs : A .regs = true) (a_hls : A .hls = true) (a_fns : A .fns = true) (a_izg : A .izg = true) (a_out : A .out = true) : Upd A s0 t := by
  unfold execGetDigests at e
  cases e
  apply State.spdm_upd <;> try assumption
  intro c u a x t hu e
  repeat' first
    | (cases e; exact hu)
    | lift_lets
    | intro x1
    | (cases e; done)
    | with_reducible apply State.spdm_upd
    | split at e
    | with_reducible assumption
    | dsimp only

theorem execGetCertificate_upd_eq {A : Fld → Bool} {s0 s : State} {x1 : SpdmChan} {x2 : BitVec 4} {x3 : BitVec 16} {x4 : BitVec 16} {t : State} (h : Upd A s0 s) (e : execGetCertificate x1 x2 x3 x4 s = .next t) (a_regs : A .regs = true) (a_hls : A .hls = true) (a_fns : A .fns = true) (a_izg : A .izg = true) (a_out : A .out = true) : Upd A s0 t := by
  unfold execGetCertificate at e
  cases e
  apply State.spdm_upd <;> try assumption
  intro c u a x t hu e
  dsimp only at e
  split at e
  · cases e
  · cases e; exact hu

theorem execChallenge_upd_eq {A : Fld → Bool} {s0 s : State} {x1 : SpdmChan} {x2 : BitVec 4} {t : State} (h : Upd A s0 s) (e : execChallenge x1 x2 s = .next t) (a_regs : A .regs = true) (a_hls : A .hls = true) (a_fns : A .fns = true) (a_izg : A .izg = true) (a_freeCtr : A .freeCtr = true) (a_out : A .out = true) : Upd A s0 t := by
  unfold execChallenge at e
  cases e
  apply State.spdm_upd <;> try assumption
  intro c u a x t hu e
  dsimp only at e
  split at e
  · cases e
  · obtain ⟨p, hp, hq⟩ := Option.map_eq_some_iff.mp e
    cases hq
    exact State.aliasSign_upd_eq (y0 := p.1) hu hp a_freeCtr

theorem execGetMeasurements_upd_eq {A : Fld → Bool} {s0 s : State} {x1 : SpdmChan} {x2 : BitVec 4} {x3 : BitVec 8} {t : State} (h : Upd A s0 s) (e : execGetMeasurements x1 x2 x3 s = .next t) (a_regs : A .regs = true) (a_hls : A .hls = true) (a_fns : A .fns = true) (a_izg : A .izg = true) (a_freeCtr : A .freeCtr = true) (a_out : A .out = true) : Upd A s0 t := by
  unfold execGetMeasurements at e
  cases e
  apply State.spdm_upd <;> try assumption
  intro c u a x t hu e
  dsimp only at e
  split at e
  · cases e
  · obtain ⟨p, hp, hq⟩ := Option.map_eq_some_iff.mp e
    cases hq
    exact State.aliasSign_upd_eq (y0 := p.1) hu hp a_freeCtr

theorem execKeyExchange_upd_eq {A : Fld → Bool} {s0 s : State} {x1 : SpdmChan} {x2 : BitVec 4} {x3 : BitVec 16} {t : State} (h : Upd A s0 s) (e : execKeyExchange x1 x2 x3 s = .next t) (a_regs : A .regs = true) (a_hls : A .hls = true) (a_fns : A .fns = true) (a_izg : A .izg = true) (a_freeCtr : A .freeCtr = true) (a_out : A .out = true) : Upd A s0 t := by
  unfold execKeyExchange at e
  cases e
  apply State.spdm_upd <;> try assumption
  intro c u a x t hu e
  dsimp only at e
  split at e
  · cases e
  · obtain ⟨p, hp, hq⟩ := Option.map_eq_some_iff.mp e
    cases hq
    apply State.free_upd _ _ a_freeCtr
    apply State.free_upd _ _ a_freeCtr
    apply State.free_upd _ _ a_freeCtr
    exact State.aliasSign_upd_eq (y0 := p.1) hu hp a_freeCtr

theorem execFinish_upd_eq {A : Fld → Bool} {s0 s : State} {x1 : SpdmChan} {x2 : BitVec 32} {x3 : Bool} {t : State} (h : Upd A s0 s) (e : execFinish x1 x2 x3 s = .next t) (a_regs : A .regs = true) (a_hls : A .hls = true) (a_fns : A .fns = true) (a_izg : A .izg = true) (a_out : A .out = true) : Upd A s0 t := by
  unfold execFinish at e
  cases e
  apply State.spdm_upd <;> try assumption
  intro c u a x t hu e
  repeat' first
    | (cases e; exact hu)
    | lift_lets
    | intro x1
    | (cases e; done)
    | with_reducible apply State.spdm_upd
    | split at e
    | with_reducible assumption
    | dsimp only

theorem State.spdmIn_upd {A : Fld → Bool} {s0 s : State} (x1 : SpdmChan) (x2 : BitVec 32) (x3 : SpdmConn → SpdmSess → State → Option (List ℕ × SpdmConn × State)) (h : Upd A s0 s) (f3 : ∀ c y u a x t, Upd A s0 u → x3 c y u = some (a, x, t) → Upd A s0 t) (a_regs : A .regs = true) (a_hls : A .hls = true) (a_fns : A .fns = true) (a_izg : A .izg = true) (a_out : A .out = true) : Upd A s0 (State.spdmIn s x1 x2 x3) := by
  unfold State.spdmIn
  apply State.spdm_upd <;> try assumption
  intro c u a x t hu e
  split at e
  · split at e
    · exact f3 _ _ _ _ _ _ hu e
    · cases e
  · cases e

theorem execKeyUpdate_upd_eq {A : Fld → Bool} {s0 s : State} {x1 : SpdmChan} {x2 : BitVec 32} {x3 : BitVec 8} {t : State} (h : Upd A s0 s) (e : execKeyUpdate x1 x2 x3 s = .next t) (a_regs : A .regs = true) (a_hls : A .hls = true) (a_fns : A .fns = true) (a_izg : A .izg = true) (a_freeCtr : A .freeCtr = true) (a_out : A .out = true) : Upd A s0 t := by
  unfold execKeyUpdate at e
  cases e
  apply State.spdmIn_upd <;> try assumption
  intro c y u a x t hu e
  dsimp only at e
  split at e
  · cases e; exact hu
  · split at e
    · cases e
      apply State.free_upd _ _ a_freeCtr
      apply State.free_upd _ _ a_freeCtr
      exact hu
    · cases e

theorem execHeartbeat_upd_eq {A : Fld → Bool} {s0 s : State} {x1 : SpdmChan} {x2 : BitVec 32} {t : State} (h : Upd A s0 s) (e : execHeartbeat x1 x2 s = .next t) (a_regs : A .regs = true) (a_hls : A .hls = true) (a_fns : A .fns = true) (a_izg : A .izg = true) (a_out : A .out = true) : Upd A s0 t := by
  unfold execHeartbeat at e
  cases e
  apply State.spdmIn_upd <;> try assumption
  intro c y u a x t hu e
  cases e; exact hu

theorem execEndSession_upd_eq {A : Fld → Bool} {s0 s : State} {x1 : SpdmChan} {x2 : BitVec 32} {t : State} (h : Upd A s0 s) (e : execEndSession x1 x2 s = .next t) (a_regs : A .regs = true) (a_hls : A .hls = true) (a_fns : A .fns = true) (a_izg : A .izg = true) (a_out : A .out = true) : Upd A s0 t := by
  unfold execEndSession at e
  cases e
  apply State.spdmIn_upd <;> try assumption
  intro c y u a x t hu e
  cases e; exact hu

end Sys2Proof.Machine
end

