-- ==== Sys2Proof/Laws/FrameFirmware.lean ====
section
/-!
SUPPORT. Laws/FrameFirmware.lean: which parts of State each operation of Machine/Firmware.lean may change, and that it keeps the invariant.
-/
namespace Sys2Proof.Machine
set_option linter.unusedTactic false
set_option linter.unreachableTactic false
set_option linter.unusedVariables false

theorem State.fwCmd_upd {A : Fld → Bool} {s0 s : State} (x1 : ℕ) (x2 : ℕ) (h : Upd A s0 s) (a_regs : A .regs = true) : Upd A s0 (State.fwCmd s x1 x2) := by
  unfold State.fwCmd
  repeat' first
    | with_reducible assumption
    | lift_lets
    | with_reducible apply State.set_upd

theorem State.fwEnd_upd {A : Fld → Bool} {s0 s : State} (x1 : ℕ) (h : Upd A s0 s) (a_regs : A .regs = true) : Upd A s0 (State.fwEnd s x1) := by
  unfold State.fwEnd
  repeat' first
    | with_reducible assumption
    | lift_lets
    | with_reducible apply State.set_upd

theorem execFwLoad_upd_eq {A : Fld → Bool} {s0 s : State} {x1 : Writer} {x2 : Fin 2} {t : State} (h : Upd A s0 s) (e : execFwLoad x1 x2 s = .next t) (a_regs : A .regs = true) (a_hls : A .hls = true) (a_fns : A .fns = true) (a_movOwn : A .movOwn = true) (a_clhIn : A .clhIn = true) (a_izg : A .izg = true) (a_freeCtr : A .freeCtr = true) (a_out : A .out = true) : Upd A s0 t := by
  unfold execFwLoad at e
  cases e
  repeat' first
    | with_reducible assumption
    | exact fun _ => ⟨rfl, rfl⟩
    | (intro s1; refine (fun (hs1 : Upd A s0 s1) => ?_) ?_; clear_value s1; rotate_left; subst s1; rotate_left)
    | (intro x1; have x2 : Izg := x1; clear x2; subst x1)
    | (intro x1; have x2 := fun a => x1 a; clear x2; subst x1)
    | (intro x1; clear_value x1)
    | intro x1
    | lift_lets
    | with_reducible apply State.bankWrite_upd
    | with_reducible apply State.fwCmd_upd
    | with_reducible apply State.fwEnd_upd
    | with_reducible apply State.reaching_upd
    | with_reducible apply State.set_upd
    | split
    | dsimp only
    | refine Upd.to_izg _ ?_ (by assumption) (fun _ i => ⟨i.mg, i.summary⟩)
    | dsimp +zetaDelta only

theorem execFwLoadDone_upd_eq {A : Fld → Bool} {s0 s : State} {x1 : FlashRead} {x2 : Bool} {t : State} (h : Upd A s0 s) (e : execFwLoadDone x1 x2 s = .next t) (a_regs : A .regs = true) (a_hls : A .hls = true) (a_fns : A .fns = true) (a_clhIn : A .clhIn = true) (a_clh : A .clh = true) (a_pwr : A .pwr = true) (a_boot : A .boot = true) (a_izg : A .izg = true) (a_out : A .out = true) : Upd A s0 t := by
  unfold execFwLoadDone at e
  cases e
  repeat' first
    | with_reducible assumption
    | exact fun _ => ⟨rfl, rfl⟩
    | (intro s1; refine (fun (hs1 : Upd A s0 s1) => ?_) ?_; clear_value s1; rotate_left; subst s1; rotate_left)
    | (intro x1; have x2 : Izg := x1; clear x2; subst x1)
    | (intro x1; clear_value x1)
    | intro x1
    | lift_lets
    | with_reducible apply State.bankWrite_upd
    | with_reducible apply State.firstStage_upd
    | with_reducible apply State.fwEnd_upd
    | with_reducible apply State.mainFirmware_upd
    | split
    | dsimp only
    | refine Upd.to_izg _ ?_ (by assumption) (fun _ i => ⟨i.mg, i.summary⟩)
    | with_reducible apply Upd.getD

theorem execFwActivate_upd_eq {A : Fld → Bool} {s0 s : State} {x1 : Writer} {x2 : Fin 2} {x3 : FlashRead} {t : State} (h : Upd A s0 s) (e : execFwActivate x1 x2 x3 s = .next t) (a_regs : A .regs = true) (a_hls : A .hls = true) (a_fns : A .fns = true) (a_movOwn : A .movOwn = true) (a_clhIn : A .clhIn = true) (a_izg : A .izg = true) (a_freeCtr : A .freeCtr = true) (a_out : A .out = true) : Upd A s0 t := by
  unfold execFwActivate at e
  cases e
  repeat' first
    | with_reducible assumption
    | intro x1
    | (intro x1; clear_value x1)
    | (intro s1; refine (fun (hs1 : Upd A s0 s1) => ?_) ?_; clear_value s1; rotate_left; subst s1; rotate_left)
    | (intro x1; have x2 : Clh := x1; clear x2; subst x1)
    | (intro x1; have x2 : Pwr := x1; clear x2; subst x1)
    | (intro x1; have x2 : Izg := x1; clear x2; subst x1)
    | lift_lets
    | with_reducible apply State.fwEnd_upd
    | with_reducible apply State.set_upd
    | with_reducible apply State.fwCmd_upd
    | with_reducible apply State.reaching_upd
    | split
    | refine Upd.to_izg _ ?_ (by assumption) (fun _ i => ⟨i.mg, i.summary⟩)
    | dsimp only
    | with_reducible apply Upd.getD

theorem State.pairSwitch_upd {A : Fld → Bool} {s0 s : State} (h : Upd A s0 s) (a_regs : A .regs = true) : Upd A s0 (State.pairSwitch s) := by
  unfold State.pairSwitch
  repeat' first
    | with_reducible assumption
    | lift_lets
    | with_reducible apply State.set_upd

theorem State.serveHeld_upd {A : Fld → Bool} {s0 s : State} (h : Upd A s0 s) (a_regs : A .regs = true) (a_hls : A .hls = true) (a_fns : A .fns = true) (a_izg : A .izg = true) (a_out : A .out = true) : Upd A s0 (State.serveHeld s) := by
  unfold State.serveHeld
  repeat' first
    | with_reducible assumption
    | (intro s1; refine (fun (hs1 : Upd A s0 s1) => ?_) ?_; clear_value s1; rotate_left; subst s1; rotate_left)
    | intro x1
    | lift_lets
    | with_reducible apply State.mgmtAnswer_upd
    | with_reducible apply State.mboxRead_upd
    | with_reducible apply State.modHl_upd
    | with_reducible apply Upd.fold
    | split
    | dsimp only

theorem State.handover_upd {A : Fld → Bool} {s0 s : State} (x1 : FwImg) (h : Upd A s0 s) (a_regs : A .regs = true) (a_hls : A .hls = true) (a_fns : A .fns = true) (a_clhIn : A .clhIn = true) (a_izg : A .izg = true) (a_out : A .out = true) : Upd A s0 (State.handover s x1) := by
  unfold State.handover
  repeat' first
    | with_reducible assumption
    | exact fun _ => ⟨rfl, rfl⟩
    | (intro s1; refine (fun (hs1 : Upd A s0 s1) => ?_) ?_; clear_value s1; rotate_left; subst s1; rotate_left)
    | (intro x1; have x2 : Izg := x1; clear x2; subst x1)
    | (intro x1; clear_value x1)
    | intro x1
    | lift_lets
    | with_reducible apply State.aliasKey_upd
    | with_reducible apply State.bankWrite_upd
    | with_reducible apply State.fwEnd_upd
    | with_reducible apply State.measUpd_upd
    | with_reducible apply State.pairSwitch_upd
    | with_reducible apply State.raise_upd
    | with_reducible apply State.serveHeld_upd
    | with_reducible apply State.set_upd
    | with_reducible apply State.setMeas_upd
    | split
    | dsimp only
    | refine Upd.to_izg _ ?_ (by assumption) (fun _ i => ⟨i.mg, i.summary⟩)

theorem execFwHandover_upd_eq {A : Fld → Bool} {s0 s : State} {t : State} (h : Upd A s0 s) (e : execFwHandover s = .next t) (a_regs : A .regs = true) (a_hls : A .hls = true) (a_fns : A .fns = true) (a_clhIn : A .clhIn = true) (a_izg : A .izg = true) (a_out : A .out = true) : Upd A s0 t := by
  unfold execFwHandover at e
  cases e
  repeat' first
    | with_reducible assumption
    | exact ⟨rfl, rfl⟩
    | lift_lets
    | with_reducible apply State.handover_upd
    | split

theorem State.commitBank_upd {A : Fld → Bool} {s0 s : State} (x1 : ℕ) (x2 : Bool) (h : Upd A s0 s) (a_regs : A .regs = true) (a_clhIn : A .clhIn = true) (a_boot : A .boot = true) (a_izg : A .izg = true) (a_out : A .out = true) : Upd A s0 (State.commitBank s x1 x2).2 := by
  unfold State.commitBank
  repeat' first
    | with_reducible assumption
    | (intro s1; refine (fun (hs1 : Upd A s0 s1) => ?_) ?_; clear_value s1; rotate_left; subst s1; rotate_left)
    | exact ⟨rfl, rfl⟩
    | intro x1
    | lift_lets
    | with_reducible apply State.bankWrite_upd
    | with_reducible apply State.fuseSync_upd
    | with_reducible apply State.set_upd
    | with_reducible apply State.raise_upd
    | with_reducible apply State.emit_upd
    | split

theorem execFwCommit_upd_eq {A : Fld → Bool} {s0 s : State} {x1 : Writer} {x2 : Fin 2} {x3 : Bool} {t : State} (h : Upd A s0 s) (e : execFwCommit x1 x2 x3 s = .next t) (a_regs : A .regs = true) (a_hls : A .hls = true) (a_fns : A .fns = true) (a_movOwn : A .movOwn = true) (a_clhIn : A .clhIn = true) (a_boot : A .boot = true) (a_izg : A .izg = true) (a_freeCtr : A .freeCtr = true) (a_out : A .out = true) : Upd A s0 t := by
  unfold execFwCommit at e
  cases e
  repeat' first
    | with_reducible assumption
    | intro x1
    | lift_lets
    | with_reducible apply State.fwEnd_upd
    | with_reducible apply State.fwCmd_upd
    | with_reducible apply State.commitBank_upd
    | with_reducible apply State.reaching_upd
    | with_reducible refine Upd.ofSnd (by assumption) ?_
    | split
    | dsimp only

theorem execFwBadCmd_upd_eq {A : Fld → Bool} {s0 s : State} {x1 : Writer} {x2 : Word} {t : State} (h : Upd A s0 s) (e : execFwBadCmd x1 x2 s = .next t) (a_regs : A .regs = true) (a_hls : A .hls = true) (a_fns : A .fns = true) (a_movOwn : A .movOwn = true) (a_clhIn : A .clhIn = true) (a_freeCtr : A .freeCtr = true) (a_out : A .out = true) : Upd A s0 t := by
  unfold execFwBadCmd at e
  cases e
  repeat' first
    | with_reducible assumption
    | intro x1
    | (intro x1; clear_value x1)
    | lift_lets
    | with_reducible apply State.fwEnd_upd
    | with_reducible apply State.fwCmd_upd
    | with_reducible apply State.reaching_upd
    | split
    | dsimp only

theorem execAutoCommit_upd_eq {A : Fld → Bool} {s0 s : State} {x1 : Bool} {t : State} (h : Upd A s0 s) (e : execAutoCommit x1 s = .next t) (a_regs : A .regs = true) (a_clhIn : A .clhIn = true) (a_boot : A .boot = true) (a_izg : A .izg = true) (a_out : A .out = true) : Upd A s0 t := by
  unfold execAutoCommit at e
  cases e
  repeat' first
    | with_reducible assumption
    | lift_lets
    | with_reducible apply State.set_upd
    | with_reducible apply State.commitBank_upd
    | with_reducible refine Upd.ofSnd (by assumption) ?_
    | split

end Sys2Proof.Machine
end

