-- ==== Sys2Proof/Laws/FrameService.lean ====
section
/-!
SUPPORT. Laws/FrameService.lean: which parts of State each operation of Machine/Service.lean may change, and that it keeps the invariant.
-/
namespace Sys2Proof.Machine
set_option linter.unusedTactic false
set_option linter.unreachableTactic false
set_option linter.unusedVariables false

theorem execPairCheckpoint_upd_eq {A : Fld → Bool} {s0 s : State} {t : State} (h : Upd A s0 s) (e : execPairCheckpoint s = .next t) (a_izg : A .izg = true) : Upd A s0 t := by
  unfold execPairCheckpoint at e
  cases e
  repeat' first
    | with_reducible assumption
    | (intro x1; have x2 : Clh := x1; clear x2; subst x1)
    | (intro x1; have x2 : Pwr := x1; clear x2; subst x1)
    | (intro x1; have x2 : Izg := x1; clear x2; subst x1)
    | lift_lets
    | split
    | refine Upd.to_izg _ ?_ (by assumption) (fun _ i => ⟨i.mg, i.summary⟩)

theorem State.takeover_upd {A : Fld → Bool} {s0 s : State} (h : Upd A s0 s) (a_regs : A .regs = true) (a_hls : A .hls = true) (a_izg : A .izg = true) : Upd A s0 (State.takeover s) := by
  unfold State.takeover
  repeat' first
    | with_reducible assumption
    | (intro s1; refine (fun (hs1 : Upd A s0 s1) => ?_) ?_; clear_value s1; rotate_left; subst s1; rotate_left)
    | (intro x1; have x2 : Clh := x1; clear x2; subst x1)
    | (intro x1; have x2 : Pwr := x1; clear x2; subst x1)
    | (intro x1; have x2 : Izg := x1; clear x2; subst x1)
    | lift_lets
    | with_reducible apply State.set_upd
    | with_reducible apply State.pairSwitch_upd
    | refine Upd.to_hls_izg _ _ ?_ (by assumption) (by assumption) (fun _ i => tasc_map _ (fun _ => rfl) i.hls) (fun _ i => ⟨i.mg, i.summary⟩)

theorem State.pairFail_upd {A : Fld → Bool} {s0 s : State} (x1 : ℕ) (h : Upd A s0 s) (a_regs : A .regs = true) (a_hls : A .hls = true) (a_fns : A .fns = true) (a_clhIn : A .clhIn = true) (a_boot : A .boot = true) (a_izg : A .izg = true) (a_out : A .out = true) : Upd A s0 (State.pairFail s x1) := by
  unfold State.pairFail
  repeat' first
    | with_reducible assumption
    | intro x1
    | (intro x1; clear_value x1)
    | (intro s1; refine (fun (hs1 : Upd A s0 s1) => ?_) ?_; clear_value s1; rotate_left; subst s1; rotate_left)
    | (intro x1; have x2 : Clh := x1; clear x2; subst x1)
    | (intro x1; have x2 : Pwr := x1; clear x2; subst x1)
    | (intro x1; have x2 : Izg := x1; clear x2; subst x1)
    | lift_lets
    | with_reducible apply State.handover_upd
    | with_reducible apply State.fwEnd_upd
    | with_reducible apply State.takeover_upd
    | with_reducible apply State.set_upd
    | with_reducible apply State.raise_upd
    | with_reducible apply State.serveHeld_upd
    | split
    | with_reducible apply Upd.to_boot
    | with_reducible refine Upd.to_izg _ ?_ (by assumption) (fun _ i => ⟨i.mg, i.summary⟩)
    | dsimp only
    | refine Upd.to_izg _ ?_ (by assumption) (fun _ i => ⟨i.mg, i.summary⟩)

theorem execIzgLockstep_upd_eq {A : Fld → Bool} {s0 s : State} {x1 : Fin 2} {t : State} (h : Upd A s0 s) (e : execIzgLockstep x1 s = .next t) (a_regs : A .regs = true) (a_hls : A .hls = true) (a_fns : A .fns = true) (a_clhIn : A .clhIn = true) (a_boot : A .boot = true) (a_izg : A .izg = true) (a_out : A .out = true) : Upd A s0 t := by
  unfold execIzgLockstep at e
  cases e
  repeat' first
    | with_reducible assumption
    | (intro s1; refine (fun (hs1 : Upd A s0 s1) => ?_) ?_; clear_value s1; rotate_left; subst s1; rotate_left)
    | lift_lets
    | with_reducible apply State.pairFail_upd

theorem execWatchdogExpiry_upd_eq {A : Fld → Bool} {s0 s : State} {x1 : Fin 2} {t : State} (h : Upd A s0 s) (e : execWatchdogExpiry x1 s = .next t) (a_regs : A .regs = true) (a_hls : A .hls = true) (a_fns : A .fns = true) (a_clhIn : A .clhIn = true) (a_boot : A .boot = true) (a_izg : A .izg = true) (a_out : A .out = true) : Upd A s0 t := by
  unfold execWatchdogExpiry at e
  cases e
  repeat' first
    | with_reducible assumption
    | (intro s1; refine (fun (hs1 : Upd A s0 s1) => ?_) ?_; clear_value s1; rotate_left; subst s1; rotate_left)
    | lift_lets
    | with_reducible apply State.pairFail_upd
    | split

theorem execWatchdogKick_upd_eq {A : Fld → Bool} {s0 s : State} {x1 : Fin 2} {t : State} (h : Upd A s0 s) (e : execWatchdogKick x1 s = .next t) (a_izg : A .izg = true) : Upd A s0 t := by
  unfold execWatchdogKick at e
  cases e
  repeat' first
    | with_reducible assumption
    | (intro x1; have x2 : Clh := x1; clear x2; subst x1)
    | (intro x1; have x2 : Pwr := x1; clear x2; subst x1)
    | (intro x1; have x2 : Izg := x1; clear x2; subst x1)
    | lift_lets
    | split
    | refine Upd.to_izg _ ?_ (by assumption) (fun _ i => ⟨i.mg, i.summary⟩)

theorem execPairTakeover_upd_eq {A : Fld → Bool} {s0 s : State} {x1 : Writer} {t : State} (h : Upd A s0 s) (e : execPairTakeover x1 s = .next t) (a_regs : A .regs = true) (a_hls : A .hls = true) (a_fns : A .fns = true) (a_movOwn : A .movOwn = true) (a_clhIn : A .clhIn = true) (a_izg : A .izg = true) (a_freeCtr : A .freeCtr = true) (a_out : A .out = true) : Upd A s0 t := by
  unfold execPairTakeover at e
  cases e
  repeat' first
    | with_reducible assumption
    | intro x1
    | lift_lets
    | with_reducible apply State.takeover_upd
    | with_reducible apply State.reaching_upd
    | split
    | dsimp only

theorem execPairSelfTestDone_upd_eq {A : Fld → Bool} {s0 s : State} {x1 : Fin 2} {x2 : Bool} {t : State} (h : Upd A s0 s) (e : execPairSelfTestDone x1 x2 s = .next t) (a_regs : A .regs = true) (a_hls : A .hls = true) (a_fns : A .fns = true) (a_clhIn : A .clhIn = true) (a_boot : A .boot = true) (a_izg : A .izg = true) (a_out : A .out = true) : Upd A s0 t := by
  unfold execPairSelfTestDone at e
  cases e
  repeat' first
    | with_reducible assumption
    | intro x1
    | (intro x1; clear_value x1)
    | (intro s1; refine (fun (hs1 : Upd A s0 s1) => ?_) ?_; clear_value s1; rotate_left; subst s1; rotate_left)
    | (intro x1; have x2 : Clh := x1; clear x2; subst x1)
    | (intro x1; have x2 : Pwr := x1; clear x2; subst x1)
    | (intro x1; have x2 : Izg := x1; clear x2; subst x1)
    | lift_lets
    | with_reducible apply State.set_upd
    | with_reducible apply State.pairFail_upd
    | split
    | refine Upd.to_izg _ ?_ (by assumption) (fun _ i => ⟨i.mg, i.summary⟩)
    | dsimp only

theorem State.sliceSwap_upd {A : Fld → Bool} {s0 s : State} (x1 : ℕ) (x2 : ℕ) (h : Upd A s0 s) (a_regs : A .regs = true) (a_clhIn : A .clhIn = true) (a_izg : A .izg = true) : Upd A s0 (State.sliceSwap s x1 x2) := by
  unfold State.sliceSwap
  repeat' first
    | with_reducible assumption
    | (intro s1; refine (fun (hs1 : Upd A s0 s1) => ?_) ?_; clear_value s1; rotate_left; subst s1; rotate_left)
    | (intro x1; have x2 : Clh := x1; clear x2; subst x1)
    | (intro x1; have x2 : Pwr := x1; clear x2; subst x1)
    | (intro x1; have x2 : Izg := x1; clear x2; subst x1)
    | lift_lets
    | with_reducible apply State.set_upd
    | with_reducible apply State.raise_upd
    | refine Upd.to_izg _ ?_ (by assumption) (fun _ i => ⟨i.mg, i.summary⟩)

theorem State.sliceFailed_upd {A : Fld → Bool} {s0 s : State} (x1 : ℕ) (h : Upd A s0 s) (a_regs : A .regs = true) : Upd A s0 (State.sliceFailed s x1) := by
  unfold State.sliceFailed
  repeat' first
    | with_reducible assumption
    | lift_lets
    | with_reducible apply State.set_upd

theorem execSliceFault_upd_eq {A : Fld → Bool} {s0 s : State} {x1 : Fin 9} {t : State} (h : Upd A s0 s) (e : execSliceFault x1 s = .next t) (a_regs : A .regs = true) (a_ports : A .ports = true) (a_hls : A .hls = true) (a_fns : A .fns = true) (a_clhIn : A .clhIn = true) (a_tptIn : A .tptIn = true) (a_mcIn : A .mcIn = true) (a_fifelIn : A .fifelIn = true) (a_samples : A .samples = true) (a_sampleLost : A .sampleLost = true) (a_clh : A .clh = true) (a_izg : A .izg = true) (a_rotate : A .rotate = true) (a_freeCtr : A .freeCtr = true) (a_nextId : A .nextId = true) (a_out : A .out = true) : Upd A s0 t := by
  unfold execSliceFault at e
  cases e
  repeat' first
    | with_reducible assumption
    | (intro s1; refine (fun (hs1 : Upd A s0 s1) => ?_) ?_; clear_value s1; rotate_left; subst s1; rotate_left)
    | lift_lets
    | with_reducible apply State.sliceFailed_upd
    | with_reducible apply State.sliceSwap_upd
    | with_reducible apply State.set_upd
    | with_reducible apply State.settle_upd
    | with_reducible apply State.raise_upd
    | split

theorem execSliceSelfTest_upd_eq {A : Fld → Bool} {s0 s : State} {x1 : Bool} {t : State} (h : Upd A s0 s) (e : execSliceSelfTest x1 s = .next t) (a_regs : A .regs = true) (a_izg : A .izg = true) : Upd A s0 t := by
  unfold execSliceSelfTest at e
  cases e
  repeat' first
    | with_reducible assumption
    | (intro s1; refine (fun (hs1 : Upd A s0 s1) => ?_) ?_; clear_value s1; rotate_left; subst s1; rotate_left)
    | (intro x1; have x2 : Clh := x1; clear x2; subst x1)
    | (intro x1; have x2 : Pwr := x1; clear x2; subst x1)
    | (intro x1; have x2 : Izg := x1; clear x2; subst x1)
    | lift_lets
    | with_reducible apply State.sliceFailed_upd
    | with_reducible apply State.set_upd
    | split
    | refine Upd.to_izg _ ?_ (by assumption) (fun _ i => ⟨i.mg, i.summary⟩)

theorem execSliceSwapCmd_upd_eq {A : Fld → Bool} {s0 s : State} {x1 : Writer} {x2 : Word} {t : State} (h : Upd A s0 s) (e : execSliceSwapCmd x1 x2 s = .next t) (a_regs : A .regs = true) (a_hls : A .hls = true) (a_fns : A .fns = true) (a_movOwn : A .movOwn = true) (a_clhIn : A .clhIn = true) (a_izg : A .izg = true) (a_freeCtr : A .freeCtr = true) (a_out : A .out = true) : Upd A s0 t := by
  unfold execSliceSwapCmd at e
  cases e
  repeat' first
    | with_reducible assumption
    | intro x1
    | (intro x1; clear_value x1)
    | (intro s1; refine (fun (hs1 : Upd A s0 s1) => ?_) ?_; clear_value s1; rotate_left; subst s1; rotate_left)
    | lift_lets
    | with_reducible apply State.sliceSwap_upd
    | with_reducible apply State.set_upd
    | with_reducible apply State.reaching_upd
    | split
    | dsimp only

theorem State.spareRow_upd {A : Fld → Bool} {s0 s : State} (x1 : ℕ) (x2 : ℕ) (x3 : ℕ) (h : Upd A s0 s) (a_regs : A .regs = true) (a_clhIn : A .clhIn = true) (a_izg : A .izg = true) : Upd A s0 (State.spareRow s x1 x2 x3) := by
  unfold State.spareRow
  repeat' first
    | with_reducible assumption
    | (intro s1; refine (fun (hs1 : Upd A s0 s1) => ?_) ?_; clear_value s1; rotate_left; subst s1; rotate_left)
    | (intro x1; have x2 : Clh := x1; clear x2; subst x1)
    | (intro x1; have x2 : Pwr := x1; clear x2; subst x1)
    | (intro x1; have x2 : Izg := x1; clear x2; subst x1)
    | lift_lets
    | with_reducible apply State.set_upd
    | with_reducible apply State.raise_upd
    | split
    | with_reducible refine Upd.to_izg _ ?_ (by assumption) (fun _ i => ⟨i.mg, i.summary⟩)

theorem State.vaultError_upd {A : Fld → Bool} {s0 s : State} (x1 : ℕ) (h : Upd A s0 s) (a_ports : A .ports = true) (a_clhIn : A .clhIn = true) (a_freeCtr : A .freeCtr = true) : Upd A s0 (State.vaultError s x1) := by
  unfold State.vaultError
  repeat' first
    | with_reducible assumption
    | (intro x1; have x2 := fun a => x1 a; clear x2; subst x1)
    | (intro x1; clear_value x1)
    | intro x1
    | lift_lets
    | with_reducible apply State.free_upd
    | with_reducible apply State.modVault_upd
    | with_reducible apply State.raise_upd
    | with_reducible refine Upd.ofSnd (by assumption) ?_
    | split
    | dsimp only
    | dsimp +zetaDelta only

theorem State.sramError_upd {A : Fld → Bool} {s0 s : State} (x1 : ℕ) (x2 : ℕ) (x3 : ℕ) (x4 : Bool) (h : Upd A s0 s) (a_regs : A .regs = true) (a_ports : A .ports = true) (a_clhIn : A .clhIn = true) (a_izg : A .izg = true) (a_freeCtr : A .freeCtr = true) : Upd A s0 (State.sramError s x1 x2 x3 x4) := by
  unfold State.sramError
  repeat' first
    | with_reducible assumption
    | intro x1
    | (intro x1; clear_value x1)
    | (intro s1; refine (fun (hs1 : Upd A s0 s1) => ?_) ?_; clear_value s1; rotate_left; subst s1; rotate_left)
    | (intro x1; have x2 : Clh := x1; clear x2; subst x1)
    | (intro x1; have x2 : Pwr := x1; clear x2; subst x1)
    | (intro x1; have x2 : Izg := x1; clear x2; subst x1)
    | lift_lets
    | with_reducible apply State.set_upd
    | with_reducible apply State.raise_upd
    | with_reducible apply State.spareRow_upd
    | with_reducible apply State.vaultError_upd
    | split
    | with_reducible refine Upd.to_izg _ ?_ (by assumption) (fun _ i => ⟨i.mg, i.summary⟩)
    | dsimp only
    | refine Upd.to_izg _ ?_ (by assumption) (fun _ i => ⟨i.mg, i.summary⟩)

theorem execSramError_upd_eq {A : Fld → Bool} {s0 s : State} {x1 : Fin 24} {x2 : Fin 8192} {x3 : Fin 128} {x4 : Bool} {t : State} (h : Upd A s0 s) (e : execSramError x1 x2 x3 x4 s = .next t) (a_regs : A .regs = true) (a_ports : A .ports = true) (a_clhIn : A .clhIn = true) (a_izg : A .izg = true) (a_freeCtr : A .freeCtr = true) : Upd A s0 t := by
  unfold execSramError at e
  cases e
  repeat' first
    | with_reducible assumption
    | (intro s1; refine (fun (hs1 : Upd A s0 s1) => ?_) ?_; clear_value s1; rotate_left; subst s1; rotate_left)
    | lift_lets
    | with_reducible apply State.sramError_upd

theorem execSramScrub_upd_eq {A : Fld → Bool} {s0 s : State} {x1 : Fin 24} {x2 : List (Fin 8192 × Fin 128 × Bool)} {t : State} (h : Upd A s0 s) (e : execSramScrub x1 x2 s = .next t) (a_regs : A .regs = true) (a_ports : A .ports = true) (a_clhIn : A .clhIn = true) (a_izg : A .izg = true) (a_freeCtr : A .freeCtr = true) : Upd A s0 t := by
  unfold execSramScrub at e
  cases e
  repeat' first
    | with_reducible assumption
    | (intro s1; refine (fun (hs1 : Upd A s0 s1) => ?_) ?_; clear_value s1; rotate_left; subst s1; rotate_left)
    | intro x1
    | lift_lets
    | with_reducible apply State.sramError_upd
    | with_reducible apply Upd.fold

theorem execRepairMapWrite_upd_eq {A : Fld → Bool} {s0 s : State} {x1 : Bool} {t : State} (h : Upd A s0 s) (e : execRepairMapWrite x1 s = .next t) (a_izg : A .izg = true) (a_out : A .out = true) : Upd A s0 t := by
  unfold execRepairMapWrite at e
  cases e
  repeat' first
    | with_reducible assumption
    | (intro x1; have x2 : Clh := x1; clear x2; subst x1)
    | (intro x1; have x2 : Pwr := x1; clear x2; subst x1)
    | (intro x1; have x2 : Izg := x1; clear x2; subst x1)
    | lift_lets
    | with_reducible apply State.emit_upd
    | split
    | refine Upd.to_izg _ ?_ (by assumption) (fun _ i => ⟨i.mg, i.summary⟩)

theorem execMgmtBusTimeout_upd_eq {A : Fld → Bool} {s0 s : State} {t : State} (h : Upd A s0 s) (e : execMgmtBusTimeout s = .next t) : Upd A s0 t := by
  unfold execMgmtBusTimeout at e
  cases e
  repeat' first
    | with_reducible assumption
    | lift_lets

end Sys2Proof.Machine
end

