-- ==== Sys2Proof/Laws/FrameTick.lean ====
section
/-!
SUPPORT. Laws/FrameTick.lean: which parts of State each operation of Machine/Tick.lean may change, and that it keeps the invariant.
-/
namespace Sys2Proof.Machine
set_option linter.unusedTactic false
set_option linter.unreachableTactic false
set_option linter.unusedVariables false

theorem State.tickHmk_upd {A : Fld → Bool} {s0 s : State} (h : Upd A s0 s) (a_regs : A .regs = true) (a_hmk : A .hmk = true) : Upd A s0 (State.tickHmk s) := by
  unfold State.tickHmk
  repeat' first
    | with_reducible assumption
    | intro x1
    | (intro x1; clear_value x1)
    | (intro s1; refine (fun (hs1 : Upd A s0 s1) => ?_) ?_; clear_value s1; rotate_left; subst s1; rotate_left)
    | lift_lets
    | with_reducible apply State.set_upd
    | exact { h with hmk := .inl a_hmk, keeps := fun i => { h.keeps i with } }
    | split
    | dsimp only
    | with_reducible apply Upd.to_hmk

theorem State.tickPins_upd {A : Fld → Bool} {s0 s : State} (h : Upd A s0 s) (a_hmk : A .hmk = true) (a_trigFall : A .trigFall = true) (a_out : A .out = true) : Upd A s0 (State.tickPins s) := by
  unfold State.tickPins
  repeat' first
    | with_reducible assumption
    | (intro s1; refine (fun (hs1 : Upd A s0 s1) => ?_) ?_; clear_value s1; rotate_left; subst s1; rotate_left)
    | lift_lets
    | with_reducible apply State.emit_upd
    | split
    | with_reducible apply Upd.to_trigFall
    | exact { h with hmk := .inl a_hmk, trigFall := .inl a_trigFall, keeps := fun i => { h.keeps i with } }

theorem State.tickBuckets_upd {A : Fld → Bool} {s0 s : State} (h : Upd A s0 s) (a_accts : A .accts = true) : Upd A s0 (State.tickBuckets s) := by
  unfold State.tickBuckets
  repeat' first
    | with_reducible assumption
    | intro x1
    | refine Upd.to_accts _ ?_ (by assumption) (fun _ i => tasc_map _ (fun _ => rfl) i.accts)
    | lift_lets
    | split
    | dsimp only
    | refine Upd.to_accts _ ?_ (by assumption) (fun _ i => tasc_tput _ _ i.accts)

theorem State.tickStalls_upd {A : Fld → Bool} {s0 s : State} (h : Upd A s0 s) (a_regs : A .regs = true) : Upd A s0 (State.tickStalls s) := by
  unfold State.tickStalls
  repeat' first
    | with_reducible assumption
    | intro x1
    | lift_lets
    | with_reducible apply State.set_upd
    | with_reducible apply Upd.fold
    | split

theorem State.tickTally_upd {A : Fld → Bool} {s0 s : State} (h : Upd A s0 s) (a_regs : A .regs = true) (a_hls : A .hls = true) (a_fns : A .fns = true) (a_out : A .out = true) : Upd A s0 (State.tickTally s) := by
  unfold State.tickTally
  repeat' first
    | with_reducible assumption
    | intro x1
    | lift_lets
    | with_reducible apply State.tallyAdd_upd
    | with_reducible apply Upd.fold
    | split

theorem State.tick_upd {A : Fld → Bool} {s0 s : State} (h : Upd A s0 s) (a_regs : A .regs = true) (a_hls : A .hls = true) (a_fns : A .fns = true) (a_accts : A .accts = true) (a_trees : A .trees = true) (a_orders : A .orders = true) (a_notices : A .notices = true) (a_acctCmds : A .acctCmds = true) (a_tags : A .tags = true) (a_clhIn : A .clhIn = true) (a_qsHere : A .qsHere = true) (a_qsInj : A .qsInj = true) (a_hmk : A .hmk = true) (a_trigFall : A .trigFall = true) (a_clk : A .clk = true) (a_freeCtr : A .freeCtr = true) (a_out : A .out = true) : Upd A s0 (State.tick s) := by
  unfold State.tick
  repeat' first
    | with_reducible assumption
    | intro x1
    | (intro s1; refine (fun (hs1 : Upd A s0 s1) => ?_) ?_; clear_value s1; rotate_left; subst s1; rotate_left)
    | lift_lets
    | with_reducible apply State.tickStalls_upd
    | with_reducible apply State.tickBuckets_upd
    | with_reducible apply State.tickHmk_upd
    | with_reducible apply State.tickTally_upd
    | with_reducible apply State.tickPins_upd
    | with_reducible apply State.bumpN_upd
    | with_reducible apply State.abortBroken_upd
    | with_reducible apply State.bootTick_upd
    | split
    | exact { h with clk := .inl a_clk, keeps := fun i => { h.keeps i with } }
    | dsimp only
    | with_reducible apply Upd.to_clk

end Sys2Proof.Machine
end

