-- ==== Sys2Proof/Tests/Slice0.lean ====
section
/-!
SUPPORT. Tests/Slice0.lean: terms that no agent can send and that `wellFormed` refuses, the worked examples of the spec, and for every
statement of Certificates/Slice0/Obligations.lean that has hypotheses a theorem `wit_<statement>_<clause>` that shows a state and operands
which meet them all; clauses are numbered from 0 in the order they stand.
-/
open Sys2Proof Sys2Proof.Machine
namespace Sys2Proof.Tests
set_option linter.unusedVariables false
set_option maxRecDepth 100000
set_option exponentiation.threshold 600
set_option Elab.async false

/-! ## States and operands -/

/-- A small state: registers set one after the other over another state. -/
def st (l : List (RF × Nat)) (s : State := {}) : State := l.foldl (fun s x => s.set x.1 x.2) s

/-- Account 5 on host link 0, function 2 (VF 1), ACTIVE, with ring 0 and event queue 0 of 64 entries; the link is up and the
device's coordinates are fixed. -/
def w5 : State := st [(TOP_BOOT_STAT.coords_fixed, 1), (ACC_BIND1.state 5, aACTIVE), (ACC_BIND0.function 5, 2), (HBI_LINK_STAT.dl_up 0, 1), (ACC_EQ1.enable 5 0, 1),
    (ACC_EQ1.log2_size 5 0, 6), (ACC_RING1.enable 5 0, 1), (ACC_RING1.log2_size 5 0, 6), (ACC_RING3.state 5 0, rRUNNING)]
  { fns := [(0, { bme := true, cfg := [(1, 2)] }), (1, { bme := true, cfg := [(1, 2), (0x5A, 8)] }), (2, { bme := true })], hls := [(0, { vfEnable := true, numVfs := 4, drrRound := some 5 })], accts := [(5, { deficit := 65536 })] }

theorem w5_inv : w5.Inv := by constructor <;> decide +kernel

/-- Every domain is off. -/
def off : State := st ((List.range 64).map fun d => (PWR_DOM.state d, 0))

/-- The same with one descriptor staged in ring 0. -/
def w5d (d : Desc) (s : State := w5) : State := s.modRing 5 0 fun x => { x with staged := [d] }

def w5q : State := { w5 with tags := [{ why := .desc 5 0 }] }.modRing 5 0 fun x => { x with fetching := 2 }

def w5n : State := st [(ACC_NOTIFY.enable 5, 1)] w5

def w5o : State := st [(HBI_OWIN0.valid 0 0, 1), (HBI_OWIN0.function 0 0, 1)] w5

/-- Rank 0 of account 5 names account 5 of this device. -/
def w5r (s : State := w5) : State := st [(ACC_RANK_COUNT.count 5, 1)] { s with rankCache := [(5, 0, { valid := true, account := 5 })] }

/-- A message of account 5 in the source table. -/
def msg (m : SrcMsg) : State := { w5 with srcMsgs := [{ m with id := 9, msgId := 3, ev := { acct := 5 } }] }

/-- A packet for account 5, its data of the length its header says. -/
def pk (h : Header) (data : List Byte := []) : Packet := mkPkt { h with dstAcct := 5, length := data.length } data

/-- It waits for its engine. -/
def inTpt (p : Packet) (s : State := w5) : State := { s with tptIn := [p] }

/-- A Quicksilver message delivered here. -/
def inQs (ty payload : Nat) (s : State := w5) : State := { s with qsHere := [{ msg := { type := ty, payload } }] }

/-- Key 0 of host link 0. -/
def key0 (s : State := w5) : State :=
  st [(TLR_KEY_COUNT.count 0, 1)] { s with keyCache := [(0, 0, { length := 64, read := true, write := true, atomic := true, valid := true, account := 5 })] }

/-- Account 5 has match context 0, with a table of 4 ranks. -/
def w5c (s : State := w5) : State :=
  st [(LDG_ACC_CTX.count 5, 1), (LDG_CTX0.enable 0, 1), (LDG_CTX2.rank_count 0, 4), (LDG_CTX0.eager_limit 0, 4096)]
    { s with ctxs := [(0, { order := [(0, {})] })] }

/-- A SEND of more bytes than the eager limit. -/
def dSend : Desc := 4 + 8192 * 2 ^ 256

def mt : LMatch := { num := 2, mode := 1, hdr := { complete := true, ovf := some 8, len := 1, buf := 64 }, recv := { len := 1, acct := 5, pat := .flat 128 1 } }

def w5a : State := st [(TLR_APT_WIN0.valid 0 4, 1), (TLR_APT_WIN0.account 0 4, 5)] w5r

def inTpt0 (s : State) : State := { s with tptIn := [] }

def eag : Packet := pk { opcode := 6, msgId := 3, last := true }

def rts : Packet := pk { opcode := 7, msgId := 3, last := true } (List.replicate 16 0)

/-- Tree 1 is ACTIVE: a root with child port 2 and the leaf of host link 0. -/
def wt1 (s : State := w5) : State :=
  st [(ALY_TREE_STAT.state 1, trACTIVE), (ALY_TREE1.root 1, 1), (ALY_TREE2.child_ports 1, 4), (ALY_TREE3.leaf_links 1, 1), (ALY_TREE3.leaf_total 1, 2)] s

/-- Tree 1 with a COLL at its leaf. -/
def wl (o : LeafOp) (s : State := wt1) : State := { s with trees := [(1, { ops := [{ o with startAt := some 0 }] })] }

/-- Tree 1 with a segment held on the edge of its child. -/
def wh : State := { (st [(LNK_STAT.state 2, stActive)] wt1) with trees := [(1, { held := [{ edge := 2, idx := 0 }] })] }

def w5t (d : Desc) : State := wt1 (w5d d)

def seg : Packet := mkPkt { opcode := 8, last := true, srcEp := 0x7FFFF8, w5 := 1, length := 4 } [1, 0, 0, 0]

def segDn : Packet := mkPkt { opcode := 9, last := true, srcEp := 0, w5 := 1, length := 4 } [1, 0, 0, 0]

def inTok (payload : Nat) (s : State := wt1) : State := { s with qsHere := [{ msg := { type := 8, src := 0x7FFFF8, payload } }] }

/-- Function 2 of host link 0 drains, with no account bound to it. -/
def w5h : State := { w5 with hls := [(0, { vfEnable := true, numVfs := 4, draining := [2] })], regs := (st [(HBI_LINK_STAT.dl_up 0, 1)]).regs }

/-- Its configuration space is ready. -/
def w5y : State := { w5 with hls := [(0, { vfEnable := true, numVfs := 4, ready := true })] }

/-- Tag 3 of host link 0 is out. -/
def w5g (q : Bool) : State := { w5 with tags := [{ hl := 0, tag := 3, fn := 2, quarantined := q }] }

/-- Window 0 of host link 0 is open, and so is the Lockbox of master 64. -/
def w5w : State := st [(HBI_OWIN0.valid 0 0, 1), (HBI_OWIN0.function 0 0, 2), (LBX_ACTIVE.log2_size 64 0, 48), (LBX_ACTIVE.sub_en 64 0, 255), (LBX_ACTIVE.read 64 0, 1), (LBX_ACTIVE.write 64 0, 1)] w5

/-- Port 1 in a state. -/
def wp (x : Nat) (q : Port := {}) (s : State := {}) : State := st [(LNK_STAT.state 1, x)] { s with ports := [(1, q)] }

/-- A frame with nothing in it. -/
def fr (crc : Bool := true) : LinkFrame :=
  let f := sealFrame ⟨2, 1, false, false, false, false, 0, 0, 31, 0, 31, 0, List.replicate 15 0, 0, 0, List.replicate 15 0, 0, 0, 0⟩
  if crc then f else { f with fcrc := f.fcrc + 1 }

/-- Port 1 is a CELL port. -/
def wc (x : Nat) (q : Port := {}) : State := st [(PRT_ROLE.role 1, roleCell), (PRT_ROLE.effective 1, roleCell)] (wp x q)

/-- A training set that carries nothing but bits `b`. -/
def trn (b : Nat) : BitVec 256 :=
  let n := 0x3CA55AC3 + b
  BitVec.ofNat 256 (n + crc32c (bytesOf 28 n) * 2 ^ 224)

/-- An empty cell. -/
def cel (kind : Nat) (n : Nat := 0) : Flit :=
  let c : Cell := { kind, valid := n, data := List.replicate 52 0 }
  BitVec.ofNat 512 (leAt (cellBytes c) 0 60 + crc32c (cellBytes c) * 2 ^ 480)

def pwr (l : List (RF × Nat)) (f : Pwr → Pwr) : State := let s : State := st l; { s with pwr := f s.pwr }

/-- The part of POR_N and rails: the device runs, in boot stage `k`. -/
def bt (k : Nat) (f : Boot → Boot := id) (l : List (RF × Nat) := []) : State :=
  let s : State := st ((TOP_BOOT_STAT.stage, k) :: l); { s with boot := f { s.boot with por := false, railStep := 0, railsUp := true } }

/-- Port 1 is ACTIVE with role LOCAL_D0 to the device of d0 = 1. -/
def wr (q : Port := {}) (s : State := {}) : State :=
  st [(TOP_BOOT_STAT.coords_fixed, 1), (LNK_STAT.state 1, stActive), (PRT_ROLE.effective 1, roleD0), (LNK_PEER_INFO.endpoint 1, 8), (TOP_STATE.pwr_state, 0)] { s with ports := [(1, q)] }

/-- A packet undecided in the Vault of port 1. -/
def vp (h : Header) : VaultPkt := { id := 7, hdr := h }

/-- A packet for hall 1 that came from a hall by port 1 and goes on by port 2. -/
def wrHall : State :=
  { (st [(TOP_BOOT_STAT.coords_fixed, 1), (RTE_HALL_CFG.a_valid, 1), (RTE_HALL_CFG.a_port, 1), (RTE_HALL_CFG.b_valid, 1), (RTE_HALL_CFG.b_port, 2), (RTE_HALL_CFG.b_dir, 1),
      (PRT_ROLE.effective 1, roleHall), (PRT_ROLE.effective 2, roleHall), (LNK_STAT.state 2, stActive), (TOP_STATE.pwr_state, 0)]) with
    ports := [(1, { vault := [vp { opcode := 1, dstEp := mkEp 1 0 0 0 0 }] }), (2, { joined := true })] }

/-- An MG packet that Izger holds. -/
def mgp (k : Packet) (s : State := {}) : State := { s with izg := { mg := [k] } }

def mg1 (w5 : Nat) (data : List Byte := []) : Packet := { mkPkt { opcode := 0x0A, last := true, w5, length := data.length } data with port := 1 }

theorem natOf_bytesOf (k n : Nat) : natOf (bytesOf k n) = n % 256 ^ k := by
  induction k generalizing n with
  | zero => simp [bytesOf, natOf, Nat.mod_one]
  | succ k ih => rw [bytesOf, natOf, ih, BitVec.toNat_ofNat, Nat.pow_succ 256 k, Nat.mul_comm (256 ^ k), Nat.mod_mul]

theorem length_bytesOf (k n : Nat) : (bytesOf k n).length = k := by
  induction k generalizing n with
  | zero => rfl
  | succ k ih => rw [bytesOf, List.length_cons, ih]

theorem ofNat_bytes (x : BitVec 512) : BitVec.ofNat 512 (natOf (bytesOf 64 x.toNat)) = x := by
  rw [natOf_bytesOf, Nat.mod_eq_of_lt (by have := x.isLt; simpa using this)]; simp

/-- An image of kind `k` and its bytes before the vendor's signature: no body, the vendor key 0, its signature, and no owner's. -/
def imHead (k : Byte) : List Byte :=
  asciiBytes "KFNIMG01" ++ [k, 1, 0, 0] ++ bytesOf 4 2 ++ bytesOf 8 0 ++ bytesOf 64 (Config.sha512 []).toNat ++ List.replicate 32 0
def im (k : Byte) : List Byte := imHead k ++ bytesOf 64 (Config.edSigOf 0 (imHead k)).toNat ++ List.replicate 136 0

/-- It verifies where its vendor's key is the fuses' and no owner signs. -/
theorem im_ok {k : Byte} {s : State} (hk : k = 1 ∨ k = 2 ∨ k = 3) (hs : (s.get SEC_LIFECYCLE.state != 2) = true)
    (hf : s.boot.fuses.map (fun f => f.rootHash) = some (Config.sha512 (List.replicate 32 0))) : s.envOk k.toNat (im k) = true := by
  have h1 : BitVec.ofNat 512 (imgMeas (im k)) = Config.sha512 [] := ofNat_bytes _
  have h2 : imgBody (im k) = [] := by rcases hk with rfl | rfl | rfl <;> rfl
  have h3 : slice (im k) 88 32 = List.replicate 32 0 := by rcases hk with rfl | rfl | rfl <;> rfl
  have h4 : imgSig (im k) 120 120 = true := by
    have n : (imHead k).length = 120 := rfl
    have d : (im k).drop 120 = bytesOf 64 (Config.edSigOf 0 (imHead k)).toNat ++ List.replicate 136 0 := by
      rw [im, List.append_assoc]; exact List.drop_left' n
    have a : leAt (im k) 120 64 = natOf (bytesOf 64 (Config.edSigOf 0 (imHead k)).toNat) := by
      rw [leAt, d, List.take_left' (length_bytesOf _ _)]
    have b : (im k).take 120 = imHead k := by rw [im, List.append_assoc]; exact List.take_left' n
    have c : leAt (im k) 88 32 = 0 := by rcases hk with rfl | rfl | rfl <;> decide +kernel
    rw [imgSig, show 120 - 32 = 88 from rfl, c, a, b, edVerify, ofNat_bytes]; simp
  have h5 : ((im k).take 8 == asciiBytes "KFNIMG01" && leAt (im k) 8 1 == k.toNat && decide (320 + leAt (im k) 16 4 ≤ (im k).length)
      && (k.toNat != envMAIN || decide (leAt (im k) 20 4 ≤ 2 ^ 21))) = true := by rcases hk with rfl | rfl | rfl <;> decide +kernel
  simp only [State.envOk, h5, h1, h2, h3, hf, h4, hs]; simp

def fu : Fuses := { serial := 9, lifecycle := 1, enrolled := 0, revoked := 0, svnFloor := 0, uds := 0, udsBlock := false, rootHash := Config.sha512 (List.replicate 32 0), owner := [] }

def prv (ok : Bool) : ProvRead := { store := if ok then some (im 3) else none, writes := [], targets := [], plan := none, chain := [] }

/-- Izger runs, with the fields of `z`. -/
def iz (z : Izg → Izg := id) (l : List (RF × Nat) := []) : State :=
  let s := bt 8 id ((IZG_FW_CTL.done, 1) :: l); { s with izg := z { s.izg with bankValid := true, bankState := [4, 2] } }

/-- SEC_CMD_BUF holds a command of code `c`. -/
def sec (c : Nat) (l : List (RF × Nat) := []) : State :=
  st ([(SEC_CMD_BUF.data 0, 0x31444D43534E464B), (SEC_CMD_BUF.data 1, c), (SEC_CMD.done, 1)] ++ l)

/-! ## What no agent can send: `wellFormed` refuses it, one term for each check -/

theorem test_wf_frame_tags : wellFormed (.frameReceive 0 { fr with tags := List.replicate 14 0 } ⟨[], []⟩) = false := by decide +kernel
theorem test_wf_frame_flits : wellFormed (.frameReceive 0 { fr with flits := [] } ⟨[], []⟩) = false := by decide +kernel
theorem test_wf_fetch : wellFormed (.descriptorFetchComplete 5 0 (.ok [])) = false := by decide +kernel
theorem test_wf_vfs : wellFormed (.vfEnableSet 0 256) = false := by decide +kernel
theorem test_wf_load : wellFormed (.apertureLoad 0 2 0 4097 7 []) = false := by decide +kernel
theorem test_wf_store : wellFormed (.apertureStore 0 2 0 [] []) = false := by decide +kernel
theorem test_wf_outbound_len : wellFormed (.outboundAccess 0 0 false [] false 0) = false := by decide +kernel
theorem test_wf_outbound_data : wellFormed (.outboundAccess 0 0 true [1, 2] false 3) = false := by decide +kernel
theorem test_wf_completion : wellFormed (.hostCompletionReceive 0 2 1 .ok (List.replicate 4097 0)) = false := by decide +kernel
theorem test_wf_page : wellFormed (.translationCompletion 0 2 (2 ^ 52) .denied) = false := by decide +kernel
theorem test_wf_translation : wellFormed (.translationCompletion 0 2 0 (.ok 1 2 true true false)) = false := by decide +kernel
theorem test_wf_invalidate : wellFormed (.invalidateRequest 0 2 1 none false (2 ^ 52) 1) = false := by decide +kernel
theorem test_wf_fuses : wellFormed (.fuseRead fu) = false := by decide +kernel
theorem test_wf_access : wellFormed (.rcRead ⟨0xFFC, 8, none, false⟩) = false := by decide +kernel
theorem test_wf_pmb : wellFormed (.pmbCommand none ⟨.ok (2 ^ 64), .nak⟩) = false := by decide +kernel
theorem test_wf_telemetry : wellFormed (.pmbTelemetryPoll 0 ⟨.nak, .nak⟩ ⟨.nak, .nak⟩ ⟨.nak, .ok (2 ^ 64)⟩) = false := by decide +kernel
theorem test_wf_host_memory : wellFormed (.put 5 .fired [{ addr := 2 ^ 64, data := [1], poison := false }]) = false := by decide +kernel

/-! ## Worked examples of the spec -/

-- 02, endpoint addresses: hall 2, group 0x5A, D1 3, D0 11, host link 5
theorem test_endpoint : mkEp 2 0x5A 3 11 5 = 0x12D1DD := by decide
-- 02: the rank-table entry 0x003C_5E00_0B92_D1DD
theorem test_rank_entry : rankOf 0x003C5E000B92D1DD = { endpoint := 0x12D1DD, valid := true, account := 11, charter := 0x3C5E } := by decide +kernel
-- 02: the VISIBLE receipt as its 128 bits
theorem test_receipt_bits : (qsBits { type := 1, dst := 0x12D1DD, src := 0x12D190, hops := 1, epoch := 1, payload := 0x0000070200042C17 }).toNat
    = 0x02092D19025A3BA1 + 0x0000070200042C17 * 2 ^ 64 := by decide +kernel
-- 01, 05: a full packet has 66 flits, one of 1,808 bytes 31
theorem test_flits : flitCount 4096 = 66 ∧ flitCount 1808 = 31 := by decide
-- 00: a 32-bit read at offset 0x0200_0042 is not aligned: zero, and UNMAPPED; at 0x0200_0044 it is the upper half of a register
theorem test_misaligned : (({} : State).place ⟨0x2000042, 4, none, false⟩, coverOf 0x2000044 4) = (.unmapped, 32, 32) := by decide +kernel
-- 05: a fetch-add of 5 on 41
theorem test_fetch_add : atomicNew 0 1 false 41 5 0 = some 46 := by decide +kernel
-- 07: the exponent block, the lanes of 6.0, 0.1, -1.25 and 0x3300_0001, and the FP32 sum of the worked example
theorem test_block_exponent : (fmtOf 0xC).map (fun f => blockExps f [0x40C00000, 0x3DCCCCCD, 0xBFA00000, 0x33000001]) = some [129] := by decide +kernel
theorem test_lanes : (fmtOf 0xC).map (fun f => [0x40C00000, 0x3DCCCCCD, 0xBFA00000, 0x33000001].map (laneOf f 0xC 129)) =
    some [(0, 13194139533312), (0, 219902328832), (0, -2748779069440), (0, 65536)] := by decide +kernel
theorem test_lane_sum : (fmtOf 0xC).map (fun f => laneElem f 0xC 129 (0, 10665262858240)) = some 0x409B3333 := by decide +kernel
-- 10: region 0 staged with mask 0x1F and region 1 with 0xF0 overlap at region 1; with 0x0F they do not
theorem test_lockbox_overlap :
    (st [(LBX_STAGE.reg 70 0, 0x001F90C000000055), (LBX_STAGE.reg 70 1, 0x00F090C000000095)]).lbxJudge 70 = (1, 1) := by decide +kernel
theorem test_lockbox_apart :
    (st [(LBX_STAGE.reg 70 0, 0x000F90C000000055), (LBX_STAGE.reg 70 1, 0x00F090C000000095)]).lbxJudge 70 = (0, 0) := by decide +kernel
-- 14: the parts of the Izger and staging partition fill its 16 MiB
theorem test_izger_parts : izgParts.sum = 16 * 1024 := by decide
-- 11: the form 0 of the worked example: rtt 1,040 and offset -60
theorem test_hallmark_sample : (match exec .hmkSyncForm0
      { (st [(HMK_PORT.time_en 1, 1), (HMK_STAT.parent_valid, 1), (HMK_STAT.parent_port, 1)] (wr { hmkTx := [1000060] })) with
        qsHere := [{ msg := { type := 4, payload := 1020000 + 19480 * 2 ^ 40 }, port := 1, rx := 1020580 }] } with
    | .next t => (t.get HMK_OFFSET.theta, t.get HMK_OFFSET.rtt) | _ => (0, 0)) = (2 ^ 32 - 60, 1040) := by decide +kernel
-- 04: at T + 0.3 ms the flip is late: RTE_EPOCH.current is 1 at once, and FLIP_LATE is raised
theorem test_late_flip : (match exec .epochFlip
      { (st [(HMK_NOW.t, 0x0123456789ABCDE0 + 1200000)]) with qsHere := [{ msg := { type := 5, payload := 0x0123456789ABCDE1 } }] } with
    | .next t => (t.get RTE_EPOCH.current, t.get RTE_EPOCH.draining, t.clhIn.map (·.kind)) | _ => (0, 0, [])) = (1, 1, [kFLIP_LATE]) := by decide +kernel

/-! ## Hypotheses that can be met -/

theorem wit_IdleStepIsOneCycle_0 : ∃ s : State,
    s.pending = [] :=
  ⟨w5, by decide +kernel⟩

theorem wit_FrameOfEveryCommand_0 : ∃ c : Instr, ∃ s : State, ∃ t : State,
    exec c s = .next t :=
  ⟨.doeAbort 0, w5, _, rfl⟩

theorem wit_EveryCommandAnswers_0 : ∃ c : Instr, ∃ s : State,
    wellFormed c = true :=
  ⟨.hotReset 0, w5, by decide +kernel⟩

theorem wit_RegisterAccessesComplete_0 : ∃ a : Access, ∃ v : BitVec 64, ∃ s : State, ∃ r, ∃ ix, ∃ key,
    s.lets a true = true ∧ s.place a = .reg r ix key ∧ s.domIsOff (placeDom a (.reg r ix key)) = false :=
  ⟨{ addr := 0, size := 8, via := none, poison := false }, 7, w5, _, _, _, by decide +kernel, rfl, by decide +kernel⟩

theorem wit_RegisterAccessesComplete_1 : ∃ a : Access, ∃ s : State, ∃ r, ∃ ix, ∃ key, ∃ lo, ∃ len,
    s.lets a false = true ∧ s.place a = .reg r ix key ∧ s.domIsOff (placeDom a (.reg r ix key)) = false ∧ coverOf a.addr.toNat a.size.toNat = (lo, len) :=
  ⟨{ addr := 0, size := 8, via := none, poison := false }, w5, _, _, _, _, _, by decide +kernel, rfl, by decide +kernel, rfl⟩

theorem wit_RegisterAccessesComplete_2 : ∃ a : Access, ∃ write : Bool, ∃ s : State,
    s.lets a write = true ∧ s.place a = .unmapped :=
  ⟨{ addr := 0x7FFFF8, size := 8, via := none, poison := false }, true, w5, by decide +kernel⟩

theorem wit_RegisterAccessesComplete_3 : ∃ a : Access, ∃ write : Bool, ∃ s : State,
    s.lets a write = true ∧ s.place a ≠ .unmapped ∧ s.domIsOff (placeDom a (s.place a)) = true :=
  ⟨{ addr := 0x6000000, size := 8, via := none, poison := false }, true, st [(PWR_DOM.state 16, 0)], by decide +kernel⟩

theorem wit_RegisterAccessesComplete_4 : ∃ c : Instr, ∃ wr : Writer, ∃ r : RF, ∃ x : Nat, ∃ s : State, ∃ t : State,
    s.ownWrite c = some (wr, r, x) ∧ (∀ ch, wr ≠ some (.mover ch)) ∧ s.reach wr r.addr = (false, t) :=
  ⟨.ctxEnable none 0, none, LDG_CTX0.enable 0, 1, off, _, rfl, by decide +kernel, rfl⟩

theorem wit_RegisterAccessesComplete_5 : ∃ c : Instr, ∃ ch : MovNo, ∃ r : RF, ∃ x : Nat, ∃ s : State,
    s.ownWrite c = some (some (.mover ch), r, x) ∧ s.movOwn.any (fun m => m.ch == ch.val && m.addr == r.addr && bf m.v r.lo r.len == x) = false :=
  ⟨.izgLockSet (some (.mover 1)), 1, IZG_LOCK.lock, 1, w5, rfl, by decide +kernel⟩

theorem wit_RegisterAccessesComplete_6 : ∃ c : Instr, ∃ d : Instr, ∃ ch : MovNo, ∃ r : RF, ∃ x : Nat, ∃ s : State, ∃ m, ∃ rest,
    s.ownWrite c = some (some (.mover ch), r, x) ∧ ByIzger c d ∧
      takeFirst (fun m : MovWrite => m.ch == ch.val && m.addr == r.addr && bf m.v r.lo r.len == x) s.movOwn = some (m, rest) ∧
      State.Lands { s with movOwn := rest } none r.addr :=
  ⟨.izgLockSet (some (.mover 1)), _, 1, IZG_LOCK.lock, 1, { w5 with movOwn := [{ ch := 1, addr := IZG_LOCK.reg.addr, v := 1 }] }, _, _, rfl, .izgLockSet _, rfl, by decide +kernel⟩

theorem wit_RegisterAccessesComplete_7 : ∃ addr : Nat, ∃ s : State,
    addr < 2 ^ 48 ∧ addr % 8 = 0 ∧ s.boot.por = false ∧ s.pwr.tripped = false ∧ (s.reach none addr).1 = false ∧
      s.lbxAllows (s.get IZG_PAIR_STAT.active) addr true = true :=
  ⟨(LDG_CTX0.reg 0).addr, { off with boot := { off.boot with por := false } }, by decide +kernel⟩

theorem wit_RegisterAccessesComplete_8 : ∃ wr : Writer, ∃ s : State,
    s.Lands wr IZG_LOCK.reg.addr :=
  ⟨none, w5, by decide +kernel⟩

theorem wit_LockedFieldsStay_0 : ∃ a : Access, ∃ v : BitVec 64, ∃ s : State, ∃ r, ∃ ix, ∃ key, ∃ lo, ∃ len, ∃ l, ∃ n, ∃ acc,
    s.lets a true = true ∧ s.place a = .reg r ix key ∧ s.domIsOff (placeDom a (.reg r ix key)) = false ∧ s.regRefuse r ix key = none ∧
      coverOf a.addr.toNat a.size.toNat = (lo, len) ∧ s.on IZG_LOCK.lock = true ∧ (l, n, acc) ∈ r.fields ∧ actAcc r ix acc = .rwl ∧ lo < l + n ∧ l < lo + len ∧
      s.get PWR_THERM.throttle_c ≤ 125 :=
  ⟨{ addr := 0x9000080, size := 8, via := none, poison := false }, 7, st [(IZG_LOCK.lock, 1)] w5, _, _, _, _, _, 0, 16, Acc.rwl, by decide +kernel, rfl, by decide +kernel, by decide +kernel, rfl, by decide +kernel⟩

theorem wit_DoorbellsAndRingsComplete_0 : ∃ a : AcctNo, ∃ r : Fin 64, ∃ v : BitVec 64, ∃ s : State,
    s.memOn (s.aHl a.val) (s.aFn a.val) = true ∧ s.pwr.pwrfail = false ∧ s.stopping = false ∧ s.aSt a.val ≠ aREMOVED ∧ s.aSt a.val ≠ aRESETTING ∧
      s.on (ACC_RING1.enable a.val r.val) = true ∧ subMod m32 (bf v.toNat 0 32) (s.prodOf a.val r.val) ≤ 2 ^ s.get (ACC_RING1.log2_size a.val r.val) ∧
      subMod m32 (bf v.toNat 0 32) (s.consOf a.val r.val) ≤ 2 ^ s.get (ACC_RING1.log2_size a.val r.val) :=
  ⟨5, 0, 3, w5, by decide +kernel⟩

theorem wit_DoorbellsAndRingsComplete_1 : ∃ a : AcctNo, ∃ d : BitVec 512, ∃ s : State, ∃ r : Nat, ∃ i : Nat,
    bf d.toNat 16 6 = r ∧ bf d.toNat 32 32 = i ∧ s.memOn (s.aHl a.val) (s.aFn a.val) = true ∧ s.pwr.pwrfail = false ∧ s.stopping = false ∧ s.aSt a.val = aACTIVE ∧
      s.on (ACC_RING1.enable a.val r) = true ∧ s.ringSt a.val r ≠ rSTOPPED ∧ s.prodOf a.val r = i ∧
      subMod m32 i (s.consOf a.val r) < 2 ^ s.get (ACC_RING1.log2_size a.val r) :=
  ⟨5, 0x0, w5, 0, 0, by decide +kernel⟩

theorem wit_DoorbellsAndRingsComplete_2 : ∃ a : AcctNo, ∃ q : Fin 64, ∃ v : BitVec 64, ∃ s : State,
    s.memOn (s.aHl a.val) (s.aFn a.val) = true ∧ s.pwr.pwrfail = false ∧ s.stopping = false ∧ s.aSt a.val ≠ aREMOVED ∧ s.aSt a.val ≠ aRESETTING ∧
      subMod m32 (bf v.toNat 0 32) (s.get (ACC_EQ2.consumer a.val q.val)) ≤ subMod m32 (s.get (ACC_EQ2.producer a.val q.val)) (s.get (ACC_EQ2.consumer a.val q.val)) :=
  ⟨5, 0, 0x100000000, w5, by decide +kernel⟩

theorem wit_DoorbellsAndRingsComplete_3 : ∃ a : AcctNo, ∃ q : Fin 64, ∃ v : BitVec 64, ∃ s : State,
    s.memOn (s.aHl a.val) (s.aFn a.val) = true ∧ s.pwr.pwrfail = false ∧ s.stopping = false ∧ s.aSt a.val ≠ aREMOVED ∧ s.aSt a.val ≠ aRESETTING ∧
      subMod m32 (s.get (ACC_EQ2.producer a.val q.val)) (s.get (ACC_EQ2.consumer a.val q.val)) < subMod m32 (bf v.toNat 0 32) (s.get (ACC_EQ2.consumer a.val q.val)) :=
  ⟨5, 0, 9, w5, by decide +kernel⟩

theorem wit_DoorbellsAndRingsComplete_4 : ∃ a : AcctNo, ∃ r : Fin 64, ∃ s : State,
    s.aSt a.val ≠ aREMOVED ∧ s.on (ACC_RING1.enable a.val r.val) = false ∧ (s.ring a.val r.val).stopNotice = false ∧ s.get ACC_STAT.rings_free ≠ 0 :=
  ⟨5, 1, w5, by decide +kernel⟩

theorem wit_DoorbellsAndRingsComplete_5 : ∃ a : AcctNo, ∃ r : Fin 64, ∃ s : State,
    s.aSt a.val ≠ aREMOVED ∧ s.on (ACC_RING1.enable a.val r.val) = true ∧ s.get ACC_STAT.rings_free < 65536 :=
  ⟨5, 0, st [(ACC_STAT.rings_free, 65535)] w5, by decide +kernel⟩

theorem wit_DoorbellsAndRingsComplete_6 : ∃ a : AcctNo, ∃ q : Fin 64, ∃ s : State,
    s.aSt a.val ≠ aREMOVED ∧ s.eqOn a.val q.val = false ∧ s.get ACC_STAT.eqs_free ≠ 0 :=
  ⟨5, 1, w5, by decide +kernel⟩

theorem wit_DoorbellsAndRingsComplete_7 : ∃ a : AcctNo, ∃ q : Fin 64, ∃ s : State,
    s.aSt a.val ≠ aREMOVED ∧ s.eqOn a.val q.val = true ∧ s.get (ACC_EQ3.reserved_events a.val q.val) = 0 ∧ s.get (ACC_NOTIFY.eq a.val) ≠ q.val ∧
      s.get ACC_STAT.eqs_free < 65536 :=
  ⟨5, 0, st [(ACC_STAT.eqs_free, 65535), (ACC_NOTIFY.eq 5, 1)] w5, by decide +kernel⟩

theorem wit_DescriptorServiceCompletes_0 : ∃ a : AcctNo, ∃ r : Fin 64, ∃ ds : List Desc, ∃ s : State, ∃ t0,
    (s.tags.find? fun t => t.hl == s.aHl a.val && t.why == .desc a.val r.val && !t.quarantined) = some t0 ∧ t0.gen = s.aGen a.val :=
  ⟨5, 0, [0, 0], w5q, { why := .desc 5 0 }, by decide +kernel⟩

theorem wit_DescriptorServiceCompletes_1 : ∃ a : AcctNo, ∃ src : Source, ∃ d : Desc, ∃ ring, ∃ idx, ∃ s : State,
    s.Serves a.val src 0 d ring idx :=
  ⟨5, .ring 0, 0, 0, 0, w5d 0, by refine ⟨rfl, rfl, ?_, ?_, ?_, ?_, ?_⟩ <;> decide +kernel⟩

theorem wit_DescriptorServiceCompletes_2 : ∃ a : AcctNo, ∃ r : Fin 64, ∃ d : Desc, ∃ idx, ∃ s : State,
    s.Serves a.val (.ring r) 9 d r.val idx ∧ bit d.toNat 64 = false ∧ (s.acct a.val).rings.all (fun x => x.2.fence.isNone) = true ∧
      (s.ring a.val r.val).live.filter (· != s.nextId) ≠ [] :=
  ⟨5, 0, 9, 0, (w5d 9).modRing 5 0 fun x => { x with live := [7] }, by refine ⟨rfl, rfl, ?_, ?_, ?_, ?_, ?_⟩ <;> decide +kernel, by decide +kernel⟩

theorem wit_DescriptorServiceCompletes_3 : ∃ n : HostLink, ∃ a : AcctNo, ∃ s : State,
    s.drrNext n.val = some a.val :=
  ⟨0, 5, (w5d 0).modHl 0 fun h => { h with drrRound := none }, by decide +kernel⟩

theorem wit_DescriptorServiceCompletes_4 : ∃ a : AcctNo, ∃ s : State, ∃ n, ∃ rest,
    takeFirst (fun n : Notice => n.acct == a.val) s.notices = some (n, rest) ∧ s.noticeRoom a.val = true :=
  ⟨5, { w5n with notices := [{ acct := 5, kind := evTREE_ABORTED }] }, { acct := 5, kind := evTREE_ABORTED }, [], by decide +kernel⟩

theorem wit_AccountCommandsComplete_0 : ∃ wr : Writer, ∃ v : Word, ∃ a : Nat, ∃ s : State,
    s.accGo v 1 a ∧ s.aSt a = aREMOVED ∧ s.hlPresent (s.aHl a) = true ∧ (s.boundOn (s.aHl a)).length < 2048 ∧ s.bindFits a (s.aPasid a) = true ∧
      s.Lands wr ACC_CMD0.reg.addr :=
  ⟨none, 0x4000000000010005, 5, st [(ACC_BIND1.state 5, aREMOVED)] w5, by refine ⟨?_, ?_, ?_, ?_⟩ <;> decide +kernel, by decide +kernel⟩

theorem wit_AccountCommandsComplete_1 : ∃ wr : Writer, ∃ v : Word, ∃ a : Nat, ∃ s : State,
    s.accGo v 2 a ∧ (s.aSt a = aACTIVE ∨ s.aSt a = aFROZEN) ∧ s.privileged a = false ∧ s.genMay a = true ∧ s.Lands wr ACC_CMD0.reg.addr :=
  ⟨none, 0x4000000000020005, 5, w5, by refine ⟨?_, ?_, ?_, ?_⟩ <;> decide +kernel, by decide +kernel⟩

theorem wit_AccountCommandsComplete_2 : ∃ wr : Writer, ∃ v : Word, ∃ a : Nat, ∃ s : State,
    s.accGo v 3 a ∧ (s.aSt a = aACTIVE ∨ s.aSt a = aFROZEN) ∧ s.privileged a = false ∧ s.genMay a = true ∧ s.Lands wr ACC_CMD0.reg.addr :=
  ⟨none, 0x4000000000030005, 5, w5, by refine ⟨?_, ?_, ?_, ?_⟩ <;> decide +kernel, by decide +kernel⟩

theorem wit_AccountCommandsComplete_3 : ∃ wr : Writer, ∃ v : Word, ∃ a : Nat, ∃ s : State,
    s.accGo v 4 a ∧ s.aSt a = aACTIVE ∧ s.pwrState ≠ 2 ∧ s.get ACC_MIG.freeze_ms ≠ 0 ∧ s.Lands wr ACC_CMD0.reg.addr :=
  ⟨none, 0x4000000000040005, 5, st [(ACC_MIG.freeze_ms, 10)] w5, by refine ⟨?_, ?_, ?_, ?_⟩ <;> decide +kernel, by decide +kernel⟩

theorem wit_AccountCommandsComplete_4 : ∃ wr : Writer, ∃ v : Word, ∃ a : Nat, ∃ s : State,
    s.accGo v 5 a ∧ s.aSt a = aFROZEN ∧ s.Lands wr ACC_CMD0.reg.addr :=
  ⟨none, 0x4000000000050005, 5, st [(ACC_BIND1.state 5, aFROZEN)] w5, by refine ⟨?_, ?_, ?_, ?_⟩ <;> decide +kernel, by decide +kernel⟩

theorem wit_AccountCommandsComplete_5 : ∃ wr : Writer, ∃ v : Word, ∃ a : Nat, ∃ code : Nat, ∃ s : State,
    s.accGo v code a ∧ (code = 0 ∨ 9 ≤ code) ∧ s.Lands wr ACC_CMD0.reg.addr :=
  ⟨none, 0x4000000000090005, 5, 9, w5, by refine ⟨?_, ?_, ?_, ?_⟩ <;> decide +kernel, by decide +kernel⟩

theorem wit_SliceCommandsComplete_0 : ∃ n : HostLink, ∃ v : Word, ∃ a : Nat, ∃ s : State,
    s.sliceGo n.val v 1 a ∧ s.aSt a = aREMOVED ∧ s.hlPresent (s.aHl a) = true ∧ (s.boundOn (s.aHl a)).length < 2048 ∧
      s.bindFits a (some (s.get (ACC_SLICE_CMD1.pasid n.val))) = true ∧ s.get (ACC_CHARTER_RANGE.low n.val) ≤ s.get (ACC_SLICE_CMD1.charter n.val) ∧
      s.get (ACC_SLICE_CMD1.charter n.val) ≤ s.get (ACC_CHARTER_RANGE.high n.val) ∧ a < 16384 :=
  ⟨0, 0x4000000000010007, 5, st [(ACC_BIND0.slice 5, 1), (ACC_BIND0.function 5, 1), (ACC_BIND0.page 5, 7), (HBI_LINK_CFG.style 0, 1), (ACC_BIND1.state 5, aREMOVED)] w5, by refine ⟨?_, ?_, ?_, ?_, ?_, ?_⟩ <;> decide +kernel, by decide +kernel⟩

theorem wit_SliceCommandsComplete_1 : ∃ n : HostLink, ∃ v : Word, ∃ a : Nat, ∃ s : State,
    s.sliceGo n.val v 2 a ∧ (s.aSt a = aACTIVE ∨ s.aSt a = aFROZEN) ∧ a < 16384 ∧ s.privileged a = false ∧ s.genMay a = true :=
  ⟨0, 0x4000000000020007, 5, st [(ACC_BIND0.slice 5, 1), (ACC_BIND0.page 5, 7), (HBI_LINK_CFG.style 0, 1)] w5, by refine ⟨?_, ?_, ?_, ?_, ?_, ?_⟩ <;> decide +kernel, by decide +kernel⟩

theorem wit_SliceCommandsComplete_2 : ∃ n : HostLink, ∃ v : Word, ∃ a : Nat, ∃ s : State,
    s.sliceGo n.val v 3 a ∧ (s.aSt a = aACTIVE ∨ s.aSt a = aFROZEN) ∧ a < 16384 ∧ s.privileged a = false ∧ s.genMay a = true :=
  ⟨0, 0x4000000000030007, 5, st [(ACC_BIND0.slice 5, 1), (ACC_BIND0.page 5, 7), (HBI_LINK_CFG.style 0, 1)] w5, by refine ⟨?_, ?_, ?_, ?_, ?_, ?_⟩ <;> decide +kernel, by decide +kernel⟩

theorem wit_SliceCommandsComplete_3 : ∃ n : HostLink, ∃ v : Word, ∃ a : Nat, ∃ s : State,
    s.sliceGo n.val v 4 a ∧ s.aSt a = aACTIVE ∧ s.pwrState ≠ 2 ∧ s.get ACC_MIG.freeze_ms ≠ 0 ∧ a < 16384 :=
  ⟨0, 0x4000000000040007, 5, st [(ACC_BIND0.slice 5, 1), (ACC_BIND0.page 5, 7), (HBI_LINK_CFG.style 0, 1), (ACC_MIG.freeze_ms, 10)] w5, by refine ⟨?_, ?_, ?_, ?_, ?_, ?_⟩ <;> decide +kernel, by decide +kernel⟩

theorem wit_SliceCommandsComplete_4 : ∃ n : HostLink, ∃ v : Word, ∃ a : Nat, ∃ s : State,
    s.sliceGo n.val v 5 a ∧ s.aSt a = aFROZEN ∧ a < 16384 :=
  ⟨0, 0x4000000000050007, 5, st [(ACC_BIND0.slice 5, 1), (ACC_BIND0.page 5, 7), (HBI_LINK_CFG.style 0, 1), (ACC_BIND1.state 5, aFROZEN)] w5, by refine ⟨?_, ?_, ?_, ?_, ?_, ?_⟩ <;> decide +kernel, by decide +kernel⟩

theorem wit_SliceCommandsComplete_5 : ∃ n : HostLink, ∃ v : Word, ∃ a : Nat, ∃ code : Nat, ∃ s : State,
    s.sliceGo n.val v code a ∧ (code = 0 ∨ 8 ≤ code) :=
  ⟨0, 0x4000000000080007, 5, 8, st [(ACC_BIND0.slice 5, 1), (ACC_BIND0.page 5, 7), (HBI_LINK_CFG.style 0, 1)] w5, by refine ⟨?_, ?_, ?_, ?_, ?_, ?_⟩ <;> decide +kernel, by decide +kernel⟩

theorem wit_MigrationCommandsComplete_0 : ∃ wr : Writer, ∃ v : Word, ∃ a : Nat, ∃ s : State,
    s.accGo v 6 a ∧ s.aSt a = aFROZEN ∧ s.on (ACC_BIND1.quiesced a) = true ∧ s.pwrState ≠ 2 ∧
      (((s.set ACC_CMD0.account a).set ACC_CMD0.cmd 6).image a []).length ≤ s.get ACC_CMD2.image_len ∧ s.Lands wr ACC_CMD0.reg.addr :=
  ⟨none, 0x4000000000060005, 5, st [(ACC_BIND1.state 5, aFROZEN), (ACC_BIND1.quiesced 5, 1), (ACC_CMD2.image_len, 100000)] w5, by refine ⟨?_, ?_, ?_, ?_⟩ <;> decide +kernel, by decide +kernel⟩

theorem wit_MigrationCommandsComplete_1 : ∃ n : HostLink, ∃ v : Word, ∃ a : Nat, ∃ s : State,
    s.sliceGo n.val v 6 a ∧ s.aSt a = aFROZEN ∧ s.on (ACC_BIND1.quiesced a) = true ∧ s.pwrState ≠ 2 ∧ a < 16384 ∧
      (((s.set (ACC_SLICE_CMD0.page n.val) (bf v.toNat 0 11)).set (ACC_SLICE_CMD0.cmd n.val) 6).image a []).length ≤ s.get (ACC_SLICE_CMD3.image_len n.val) :=
  ⟨0, 0x4000000000060007, 5, st [(ACC_BIND0.slice 5, 1), (ACC_BIND0.page 5, 7), (HBI_LINK_CFG.style 0, 1), (ACC_BIND1.state 5, aFROZEN), (ACC_BIND1.quiesced 5, 1), (ACC_SLICE_CMD3.image_len 0, 100000)] w5, by refine ⟨?_, ?_, ?_, ?_, ?_, ?_⟩ <;> decide +kernel, by decide +kernel⟩

theorem wit_MigrationCommandsComplete_2 : ∃ hv : HostView, ∃ s : State, ∃ c : AcctCmd, ∃ out, ∃ n, ∃ fn, ∃ pas, ∃ addr,
    s.running 6 = some c ∧ c.slice = none ∧ c.acct < 16384 ∧ s.gate (s.aHl c.acct) (s.aFn c.acct) (s.aPasid c.acct) (s.bookGoneAccs c.acct) hv = (.go, s) ∧
      s.bookHost c.acct hv = some out ∧ (s.image c.acct out).length ≤ c.len ∧ s.bufGate c (s.image c.acct out).length true = (.go, (n, fn, pas, addr), s) :=
  ⟨[], { w5o with acctCmds := [{ cmd := 6, acct := 5, addr := 2 ^ 47, len := 100000 }] }, { cmd := 6, acct := 5, addr := 2 ^ 47, len := 100000 }, _, 0, 1, none, _, by decide +kernel, by decide +kernel, by decide +kernel, by decide +kernel, rfl, by decide +kernel, rfl⟩

theorem wit_MigrationCommandsComplete_6 : ∃ wr : Writer, ∃ v : Word, ∃ a : Nat, ∃ i : Nat, ∃ s : State,
    s.accGo v 8 a ∧ s.aSt a = aFROZEN ∧ (s.acct a).saved = true ∧ ((List.range 64).find? fun i => !s.on (ACC_STUB0.valid i)) = some i ∧ s.Lands wr ACC_CMD0.reg.addr :=
  ⟨none, 0x4000000000080005, 5, 0, st [(ACC_BIND1.state 5, aFROZEN)] (w5.modAcct 5 fun x => { x with saved := true }), by refine ⟨?_, ?_, ?_, ?_⟩ <;> decide +kernel, by decide +kernel⟩

theorem wit_MigrationCommandsComplete_7 : ∃ k : Nat, ∃ s : State,
    k < 64 ∧ s.get (ACC_STUB1.expiry k) ≤ s.now :=
  ⟨63, w5, by decide +kernel⟩

theorem wit_MigrationCommandsComplete_8 : ∃ wr : Writer, ∃ k : Nat, ∃ s : State,
    k < 64 ∧ s.Lands wr (ACC_STUB0.reg k).addr :=
  ⟨none, 63, w5, by decide +kernel⟩

theorem wit_AccountEndingsComplete_0 : ∃ a : AcctNo, ∃ s : State,
    s.aSt a.val = aFROZEN ∧ (s.acct a.val).freezing = true ∧ s.workRuns a.val = false ∧ s.eventsWait a.val = false ∧
      (s.acct a.val).rings.all (fun x => x.2.fence.isNone) = true :=
  ⟨5, st [(ACC_BIND1.state 5, aFROZEN)] (w5.modAcct 5 fun x => { x with freezing := true }), by decide +kernel⟩

theorem wit_AccountEndingsComplete_1 : ∃ a : AcctNo, ∃ s : State,
    s.aSt a.val = aFROZEN ∧ (s.acct a.val).freezing = true ∧ s.lmatches.all (·.recv.acct != a.val) = true :=
  ⟨5, st [(ACC_BIND1.state 5, aFROZEN)] (w5.modAcct 5 fun x => { x with freezing := true }), by decide +kernel⟩

theorem wit_AccountEndingsComplete_2 : ∃ a : AcctNo, ∃ s : State,
    s.aSt a.val = aRESETTING ∧ s.drained a.val = true :=
  ⟨5, st [(ACC_BIND1.state 5, aRESETTING)] (w5.modAcct 5 fun x => { x with drain := 3 }), by decide +kernel⟩

theorem wit_AccountEndingsComplete_3 : ∃ n : HostLink, ∃ numVfs : Nat, ∃ s : State,
    s.Inv ∧ s.hlPresent n.val = true ∧ s.slices n.val = false :=
  ⟨0, 2, w5, w5_inv, by decide +kernel⟩

theorem wit_AccountEndingsComplete_5 : ∃ n : HostLink, ∃ a : Nat, ∃ s : State,
    ((s.boundOn n.val).filter fun a => decide (2 ≤ s.aFn a)) = [a] ∧ (s.aSt a = aACTIVE ∨ s.aSt a = aFROZEN) ∧ s.privileged a = false ∧ s.genMay a = true :=
  ⟨0, 5, w5, by decide +kernel⟩

theorem wit_TellerDescriptorsComplete_0 : ∃ a : AcctNo, ∃ src : Source, ∃ hv : HostView, ∃ d : Desc, ∃ ring, ∃ idx, ∃ s : State, ∃ g : State,
    s.ServesHost g a.val src 1 (s.tellerAccs a.val d) hv d ring idx ∧ g.srcFull = false ∧ ((g.taken a.val src d).tellerCheck a.val d hv false).1 = 0 :=
  ⟨5, .ring 0, [], 1, 0, 0, w5r (w5d 1), _, ⟨rfl, by decide +kernel, by decide +kernel, Prod.ext (by decide +kernel) rfl, by refine ⟨rfl, rfl, ?_, ?_, ?_, ?_, ?_⟩ <;> decide +kernel⟩, by decide +kernel⟩

theorem wit_TellerDescriptorsComplete_1 : ∃ a : AcctNo, ∃ src : Source, ∃ hv : HostView, ∃ d : Desc, ∃ ring, ∃ idx, ∃ s : State, ∃ g : State,
    s.ServesHost g a.val src 2 (s.tellerAccs a.val d) hv d ring idx ∧ g.srcFull = false ∧ g.getsFull = false ∧
      ((g.taken a.val src d).tellerCheck a.val d hv false).1 = 0 :=
  ⟨5, .ring 0, [], 2, 0, 0, w5r (w5d 2), _, ⟨rfl, by decide +kernel, by decide +kernel, Prod.ext (by decide +kernel) rfl, by refine ⟨rfl, rfl, ?_, ?_, ?_, ?_, ?_⟩ <;> decide +kernel⟩, by decide +kernel⟩

theorem wit_TellerDescriptorsComplete_2 : ∃ a : AcctNo, ∃ src : Source, ∃ hv : HostView, ∃ d : Desc, ∃ ring, ∃ idx, ∃ s : State, ∃ g : State,
    s.ServesHost g a.val src 3 (s.tellerAccs a.val d) hv d ring idx ∧ g.srcFull = false ∧ ((g.taken a.val src d).tellerCheck a.val d hv false).1 = 0 :=
  ⟨5, .ring 0, [], 3, 0, 0, w5r (w5d 3), _, ⟨rfl, by decide +kernel, by decide +kernel, Prod.ext (by decide +kernel) rfl, by refine ⟨rfl, rfl, ?_, ?_, ?_, ?_, ?_⟩ <;> decide +kernel⟩, by decide +kernel⟩

theorem wit_TellerDescriptorsComplete_3 : ∃ a : AcctNo, ∃ src : Source, ∃ hv : HostView, ∃ d : Desc, ∃ ring, ∃ idx, ∃ n, ∃ s : State, ∃ g : State,
    s.ServesHost g a.val src 8 [(dw d 3 0 64, 64, false)] hv d ring idx ∧ hostNat hv (dw d 3 0 64) 64 = some n ∧ descType (BitVec.ofNat 512 n) ∈ [1, 2, 3, 4, 6, 7] ∧
      g.orders.length < 65536 :=
  ⟨5, .ring 0, [{ addr := 0, data := [1] ++ List.replicate 63 0, poison := false }], 8, 0, 0, 1, w5d 8, _, ⟨rfl, by decide +kernel, by decide +kernel, Prod.ext (by decide +kernel) rfl, by refine ⟨rfl, rfl, ?_, ?_, ?_, ?_, ?_⟩ <;> decide +kernel⟩, by decide +kernel⟩

theorem wit_SourceSideCompletes_0 : ∃ k : Nat, ∃ hv : HostView, ∃ s : State, ∃ g : State, ∃ u : State, ∃ m, ∃ bytes, ∃ poison, ∃ r,
    s.srcMsg k = some m ∧ m.resend = [] ∧ m.due = true ∧ (m.kind = .put ∨ m.kind = .eager) ∧ s.mayServe m.ev.acct (pktCost (m.pktBytes m.next)) = true ∧
      s.boot.requestHold = false ∧ s.ctxMay (ctxOf m.dst.endpoint) = true ∧ (m.localParts m.next).2 = true ∧
      s.gate m.hl (s.aFn m.ev.acct) (s.aPasid m.ev.acct) (accsOf (m.localParts m.next).1 false) hv = (.go, g) ∧
      gather hv (m.localParts m.next).1 = some (bytes, poison) ∧ g.inject (mkPkt (g.pktHdr m m.next (m.next + 1) m.msgId poison) bytes) = (r, u) ∧ r ≠ .noRoute := by
  refine ⟨9, [], { msg { next := 0 } with boot := { requestHold := false } }, _, _, _, _, _, _, rfl, ?_, ?_, ?_, ?_, ?_, ?_, ?_, Prod.ext (?_) rfl, rfl, rfl, ?_⟩ <;> decide +kernel

theorem wit_SourceSideCompletes_1 : ∃ hv : HostView, ∃ s : State, ∃ u : State, ∃ g : State, ∃ p, ∃ m, ∃ f, ∃ e,
    let bits := addMem m.gBits p.hdr.pktIndex; let base := advance bits bits.length m.gBase; let m' : SrcMsg := { m with gBits := bits.filter (fun j => decide (base ≤ j)), gBase := base, status := if p.hdr.poison ∧ m.status = 0 then stHOST_ERROR else m.status }; s.Arrives 3 p u ∧ u.srcById (epHl p.hdr.dstEp) p.hdr.msgId = some m ∧ m.kind = .get ∧ p.hdr.srcGen = u.aGen m.ev.acct ∧ m.ev.gen = u.aGen m.ev.acct ∧ p.hdr.w6 % 256 = 0 ∧ (m.runs.find? fun r => r.1 == p.hdr.msgId) = some (p.hdr.msgId, f, e) ∧ f ≤ p.hdr.pktIndex ∧ p.hdr.pktIndex < e ∧ m.gBase ≤ p.hdr.pktIndex ∧ m.gBits.contains p.hdr.pktIndex = false ∧ p.hdr.length ≠ 0 ∧ (m.pat.iova (4096 * p.hdr.pktIndex) (min p.hdr.length (pktLen m.total p.hdr.pktIndex))).2 = true ∧ u.gate m.hl (u.aFn m.ev.acct) (u.aPasid m.ev.acct) (accsOf (m.pat.iova (4096 * p.hdr.pktIndex) (min p.hdr.length (pktLen m.total p.hdr.pktIndex))).1 true) = (.go, g) ∧ g.srcMsg m.id = some m := by
  refine ⟨[], { msg { kind := .get, nPkts := 1, total := 4, runs := [(3, 0, 1)] } with tptIn := [pk { opcode := 3, msgId := 3, last := true } [1, 2, 3, 4]] }, _, _, _, _, _, _, ⟨rfl, ?_, ?_⟩, rfl, ?_, ?_, ?_, ?_, rfl, ?_, ?_, ?_, ?_, ?_, ?_, Prod.ext (?_) rfl, ?_⟩ <;> decide +kernel

theorem wit_SourceSideCompletes_2 : ∃ s : State, ∃ u : State, ∃ g : State, ∃ p, ∃ m,
    let accs := if p.hdr.w6 % 256 = 0 ∧ (dw m.desc 5 16 4 = 1 ∨ dw m.desc 5 16 4 = 2 ∨ dw m.desc 5 16 4 = 3 ∨ dw m.desc 1 24 1 = 1) then [(dw m.desc 3 0 64, atomicSize (dw m.desc 5 20 2), true)] else []; s.Arrives 5 p u ∧ u.srcById (epHl p.hdr.dstEp) p.hdr.msgId = some m ∧ m.kind = .atomic ∧ m.msgId = p.hdr.msgId ∧ p.hdr.opcode = 5 ∧ p.hdr.srcGen = u.aGen m.ev.acct ∧ m.ev.gen = u.aGen m.ev.acct ∧ bf p.hdr.w6 32 32 = m.nonce ∧ u.gate m.hl (u.aFn m.ev.acct) (u.aPasid m.ev.acct) accs = (.go, g) := by
  refine ⟨{ msg { kind := .atomic } with tptIn := [pk { opcode := 5, msgId := 3, last := true } [0, 0, 0, 0, 0, 0, 0, 0]] }, _, _, _, _, ⟨rfl, ?_, ?_⟩, rfl, ?_, ?_, ?_, ?_, ?_, ?_, Prod.ext (?_) rfl⟩ <;> decide +kernel

theorem wit_SourceSideCompletes_3 : ∃ s : State, ∃ u : State, ∃ q, ∃ m,
    s.Delivered 1 q u ∧ u.srcById (epHl q.msg.dst) (bf q.msg.payload 0 32) = some m ∧ m.receipted = true ∧ m.acked = false ∧
      bf q.msg.payload 40 16 = u.aGen m.ev.acct ∧ m.ev.gen = u.aGen m.ev.acct ∧ bf q.msg.payload 32 2 = (if m.visible then 2 else 1) :=
  ⟨inQs 1 (3 + 2 ^ 32) (msg {}), _, _, _, rfl, rfl, by decide +kernel⟩

theorem wit_SourceSideCompletes_4 : ∃ s : State, ∃ u : State, ∃ q, ∃ m,
    s.Delivered 2 q u ∧ (u.bump TPT_CNT_NAK_RX.ev).srcById (epHl q.msg.dst) (bf q.msg.payload 0 32) = some m ∧
      (m.naks + 1 ≤ (u.bump TPT_CNT_NAK_RX.ev).get TPT_RETRY.nak_max ∨ (u.bump TPT_CNT_NAK_RX.ev).answered m = true) :=
  ⟨inQs 2 3 (msg {}), _, _, _, rfl, rfl, by decide +kernel⟩

theorem wit_SourceSideCompletes_5 : ∃ s : State, ∃ u : State, ∃ q, ∃ m,
    s.Delivered 2 q u ∧ (u.bump TPT_CNT_NAK_RX.ev).srcById (epHl q.msg.dst) (bf q.msg.payload 0 32) = some m ∧
      (u.bump TPT_CNT_NAK_RX.ev).get TPT_RETRY.nak_max < m.naks + 1 ∧ (u.bump TPT_CNT_NAK_RX.ev).answered m = false :=
  ⟨inQs 2 3 (st [(TPT_RETRY.nak_max, 0)] (msg {})), _, _, _, rfl, rfl, by decide +kernel⟩

theorem wit_SourceSideCompletes_6 : ∃ k : Nat, ∃ i : Nat, ∃ hv : HostView, ∃ s : State, ∃ g : State, ∃ u : State, ∃ m, ∃ bytes, ∃ poison, ∃ r,
    let w := s.modSrc k fun m => { m with nakWait := m.nakWait.erase i }; let m' := { m with nakWait := m.nakWait.erase i }; s.srcMsg k = some m ∧
      m.nakWait.contains i = true ∧ (m.kind = .put ∨ m.kind = .eager) ∧ i < m.nPkts ∧ s.boot.requestHold = false ∧ s.ctxMay (ctxOf m.dst.endpoint) = true ∧
      (m.localParts i).2 = true ∧ w.gate m.hl (w.aFn m.ev.acct) (w.aPasid m.ev.acct) (accsOf (m.localParts i).1 false) hv = (.go, g) ∧
      gather hv (m.localParts i).1 = some (bytes, poison) ∧ g.inject (mkPkt (g.pktHdr m' i (i + 1) m.msgId poison) bytes) = (r, u) ∧ r ≠ .noRoute := by
  refine ⟨9, 1, [], { msg { nPkts := 2, nakWait := [1] } with boot := { requestHold := false } }, _, _, _, _, _, _, rfl, ?_, ?_, ?_, ?_, ?_, ?_, Prod.ext (?_) rfl, rfl, rfl, ?_⟩ <;> decide +kernel

theorem wit_SourceSideCompletes_7 : ∃ s : State, ∃ u : State, ∃ q, ∃ m,
    s.Delivered 3 q u ∧ (u.bump TPT_CNT_CECHO_RX.ev).srcById (epHl q.msg.dst) (bf q.msg.payload 0 32) = some m :=
  ⟨inQs 3 3 (msg {}), _, _, _, rfl, rfl⟩

theorem wit_SourceSideCompletes_8 : ∃ hv : HostView, ∃ s : State, ∃ u : State, ∃ q, ∃ m,
    s.Delivered 0x0A q u ∧ u.srcById (epHl q.msg.dst) (bf q.msg.payload 32 32) = some m ∧ u.answered m = false :=
  ⟨[], inQs 0x0A (2 ^ 24 + 3 * 2 ^ 32) (msg {}), _, _, _, rfl, rfl, by decide +kernel⟩

theorem wit_SourceSideCompletes_9 : ∃ hv : HostView, ∃ s : State, ∃ u : State, ∃ q, ∃ m,
    s.Delivered 0x0A q u ∧ u.srcById (epHl q.msg.dst) (bf q.msg.payload 32 32) = some m ∧ u.answered m = true :=
  ⟨[], { inQs 0x0A (2 ^ 24 + 3 * 2 ^ 32) (msg {}) with qsHere := [{ msg := { type := 0x0A, payload := 2 ^ 24 + 3 * 2 ^ 32 } }, { msg := { type := 1, payload := 3 + 2 ^ 32 } }] }, _, _, _, rfl, rfl, by decide +kernel⟩

theorem wit_SourceSideCompletes_10 : ∃ k : Nat, ∃ hv : HostView, ∃ s : State, ∃ m,
    s.srcMsg k = some m ∧ m.allSent = true ∧ m.acked = false ∧ s.answered m = false :=
  ⟨9, [], msg { allSent := true }, _, rfl, by decide +kernel⟩

theorem wit_TargetSideCompletes_0 : ∃ hv : HostView, ∃ s : State, ∃ u : State, ∃ v : State, ∃ g : State, ∃ p, ∃ e,
    s.Arrives 1 p u ∧ u.refusing p.hdr.dstAcct = false ∧ u.dupSort p.hdr = .fresh ∧ u.keyFind p.hdr hv = (.ok e, v) ∧ keyCheck e p.hdr.w5 p.hdr.length 1 = 0 ∧
      p.hdr.length ≠ 0 ∧ v.gate (epHl p.hdr.dstEp) (v.aFn e.account) (v.keyPasid e) [((e.base + p.hdr.w5) % 2 ^ 64, p.hdr.length, true)] = (.go, g) :=
  ⟨[], inTpt (pk { opcode := 1, msgId := 3, last := true } [1, 2]) key0, _, _, _, _, _, ⟨rfl, by decide +kernel, by decide +kernel⟩, by decide +kernel, by decide +kernel, rfl, by decide +kernel, by decide +kernel, Prod.ext (by decide +kernel) rfl⟩

theorem wit_TargetSideCompletes_1 : ∃ hv : HostView, ∃ s : State, ∃ u : State, ∃ v : State, ∃ p,
    s.Arrives 1 p u ∧ u.refusing p.hdr.dstAcct = false ∧ u.dupSort p.hdr = .fresh ∧ u.keyFind p.hdr hv = (.bad, v) :=
  ⟨[], inTpt (pk { opcode := 1, msgId := 3, last := true, key := 9 }) key0, _, _, _, ⟨rfl, by decide +kernel, by decide +kernel⟩, by decide +kernel, by decide +kernel, rfl⟩

theorem wit_TargetSideCompletes_2 : ∃ hv : HostView, ∃ s : State, ∃ u : State, ∃ v : State, ∃ g : State, ∃ p, ∃ e, ∃ data, ∃ poi,
    s.Arrives 2 p u ∧ u.refusing p.hdr.dstAcct = false ∧ u.keyFind p.hdr hv = (.ok e, v) ∧ keyCheck e p.hdr.w5 (p.hdr.w6 % 2 ^ 40) 0 = 0 ∧ 0 < p.hdr.w6 % 2 ^ 40 ∧
      p.hdr.w6 % 2 ^ 40 ≤ 4096 ∧ v.gate (epHl p.hdr.dstEp) (v.aFn e.account) (v.keyPasid e) [((e.base + p.hdr.w5) % 2 ^ 64, p.hdr.w6 % 2 ^ 40, false)] hv = (.go, g) ∧
      hostRead hv ((e.base + p.hdr.w5) % 2 ^ 64) (p.hdr.w6 % 2 ^ 40) = some (data, poi) :=
  ⟨[{ addr := 0, data := List.replicate 64 0, poison := false }], inTpt (pk { opcode := 2, msgId := 3, last := true, w6 := 4 }) key0, _, _, _, _, _, _, _, ⟨rfl, by decide +kernel, by decide +kernel⟩, by decide +kernel, rfl, by decide +kernel, by decide +kernel, by decide +kernel, Prod.ext (by decide +kernel) rfl, rfl⟩

theorem wit_TargetSideCompletes_3 : ∃ hv : HostView, ∃ s : State, ∃ u : State, ∃ b : State, ∃ v : State, ∃ g : State, ∃ p, ∃ e, ∃ prior, ∃ new,
    s.Arrives 4 p u ∧ u.refusing p.hdr.dstAcct = false ∧ u.dupSort p.hdr = .fresh ∧ u.bookGate hv = (.go, b) ∧ b.keyFind p.hdr hv = (.ok e, v) ∧
      keyCheck e p.hdr.w5 (atomicSize (bf p.hdr.w6 4 2)) 2 = 0 ∧
      v.gate (epHl p.hdr.dstEp) (v.aFn e.account) (v.keyPasid e) [((e.base + p.hdr.w5) % 2 ^ 64, atomicSize (bf p.hdr.w6 4 2), false), ((e.base + p.hdr.w5) % 2 ^ 64, atomicSize (bf p.hdr.w6 4 2), true)] hv = (.go, g) ∧ hostNat hv ((e.base + p.hdr.w5) % 2 ^ 64) (atomicSize (bf p.hdr.w6 4 2)) = some prior ∧ atomicNew (p.hdr.w6 % 16) (bf p.hdr.w6 4 2) (bit p.hdr.w6 6) prior (leAt p.data 0 8) (leAt p.data 8 8) = some new ∧ g.on TLR_ATOMIC_CFG.use_pcie = false :=
  ⟨[{ addr := 0, data := List.replicate 64 0, poison := false }], inTpt (pk { opcode := 4, msgId := 3, last := true, w6 := 0x30 } (List.replicate 16 0)) key0, _, _, _, _, _, _, _, _, ⟨rfl, by decide +kernel, by decide +kernel⟩, by decide +kernel, by decide +kernel, rfl, rfl, by decide +kernel, Prod.ext (by decide +kernel) rfl, rfl, rfl, by decide +kernel⟩

theorem wit_TargetSideCompletes_4 : ∃ hv : HostView, ∃ s : State, ∃ u : State, ∃ v : State, ∃ p, ∃ num,
    s.Arrives 6 p u ∧ u.refusing p.hdr.dstAcct = false ∧ u.dupSort p.hdr = .fresh ∧ (u.hdrTry p).ledgerAdmit p hv = (.ok num, v) :=
  ⟨[], inTpt eag w5c, inTpt0 w5c, (((inTpt0 w5c).hdrTry eag).ledgerAdmit eag []).2, eag, some 1, by refine ⟨?_, ?_, ?_⟩ <;> decide +kernel, by decide +kernel⟩

theorem wit_TargetSideCompletes_5 : ∃ hv : HostView, ∃ s : State, ∃ u : State, ∃ v : State, ∃ p, ∃ num,
    s.Arrives 7 p u ∧ u.refusing p.hdr.dstAcct = false ∧ u.dupSort p.hdr = .fresh ∧ (u.hdrTry p).ledgerAdmit p hv = (.ok num, v) :=
  ⟨[], inTpt rts (w5r w5c), inTpt0 (w5r w5c), (((inTpt0 (w5r w5c)).hdrTry rts).ledgerAdmit rts []).2, rts, some 1, by refine ⟨?_, ?_, ?_⟩ <;> decide +kernel, by decide +kernel⟩

theorem wit_TargetSideCompletes_6 : ∃ s : State, ∃ u : State, ∃ p,
    s.takePkt 0x0A = some (p, u) ∧ u.destCheck p = (true, u) ∧ u.izg.mg.length < 64 ∧ p.hdr.w5 % 256 < 0x40 :=
  ⟨inTpt (pk { opcode := 0x0A, last := true, w5 := 0x10 }), _, _, rfl, by decide +kernel⟩

theorem wit_TransportTimersComplete_0 : ∃ src : EndPoint, ∃ msg : BitVec 32, ∃ s : State, ∃ o,
    s.openFind src.toNat msg.toNat = some o ∧ o.hole = true :=
  ⟨1, 3, { w5 with openMsgs := [{ src := 1, msgId := 3, hole := true, n := 2 }] }, _, rfl, by decide +kernel⟩

theorem wit_TransportTimersComplete_1 : ∃ src : EndPoint, ∃ msg : BitVec 32, ∃ s : State, ∃ o,
    s.openFind src.toNat msg.toNat = some o ∧ o.single = false :=
  ⟨1, 3, { w5 with openMsgs := [{ src := 1, msgId := 3, hole := true, n := 2 }] }, _, rfl, by decide +kernel⟩

theorem wit_TransportTimersComplete_2 : ∃ src : EndPoint, ∃ msg : BitVec 32, ∃ s : State, ∃ f,
    s.filterFind src.toNat msg.toNat = some f ∧ f.live = true :=
  ⟨1, 3, { w5 with filter := [{ src := 1, msgId := 3, live := true }] }, _, rfl, by decide +kernel⟩

theorem wit_TransportTimersComplete_3 : ∃ i : Fin 65536, ∃ s : State,
    0 < (s.ctxWin i.val).sent ∧ (s.ctxWin i.val).halved = false ∧ s.get (TPT_CTX.cwnd i.val) < s.cwndMax :=
  ⟨4, { st [(TPT_CTX.cwnd 4, 1)] with ctxSent := [(4, { sent := 2 })] }, by decide +kernel⟩

theorem wit_KeysAndApertureComplete_0 : ∃ wr : Writer, ∃ v : Word, ∃ s : State,
    s.get TLR_KEY_INVAL.done = 1 ∧ bit v.toNat 62 = true ∧ s.Lands wr TLR_KEY_INVAL.reg.addr :=
  ⟨none, 0x4000000000000000, w5, by decide +kernel⟩

theorem wit_KeysAndApertureComplete_1 : ∃ wr : Writer, ∃ v : Word, ∃ s : State,
    bit v.toNat 62 = true ∧ s.Lands wr TLR_RANK_INVAL.reg.addr :=
  ⟨none, 0x4000000000000000, w5, by decide +kernel⟩

theorem wit_KeysAndApertureComplete_2 : ∃ wr : Writer, ∃ i : Fin 65536, ∃ part : Part, ∃ v : Word, ∃ s : State,
    s.Lands wr (TLR_CTR.reg i.val).addr :=
  ⟨none, 4, .low, 7, w5, by decide +kernel⟩

theorem wit_KeysAndApertureComplete_3 : ∃ n : HostLink, ∃ fn : FnNo, ∃ off : BitVec 64, ∃ len : BitVec 13, ∃ tag : Nat, ∃ hv : HostView, ∃ s : State, ∃ u : State, ∃ v : State, ∃ g : State, ∃ e,
    let w := aptWindow fn.toNat off.toNat; let a := s.get (TLR_APT_WIN0.account n.val w); let rank := s.get (TLR_APT_WIN0.rank n.val w); s.memOn n.val fn.toNat = true ∧ s.aptValid n.val fn.toNat w = true ∧ s.aptWaits = [] ∧ s.lmatches = [] ∧ s.srcFull = false ∧ s.getsFull = false ∧ s.srcMsgs.all (·.kind != .aptStore) = true ∧ v = { s with nextId := s.nextId + 1, aptWaits := [{ hl := n.val, win := w, tag, off := (s.get (TLR_APT_WIN2.offset n.val w) + off.toNat % 2 ^ 30) % 2 ^ 64, len := len.toNat, num := s.nextId, fn := fn.toNat, acct := a, gen := s.aGen a, rank, key := s.get (TLR_APT_WIN1.key n.val w), visible := s.on (TLR_APT_WIN0.visible n.val w) }] } ∧ v.gate n.val fn.toNat (v.aPasid a) (v.rankAccs a rank) hv = (.go, g) ∧ g.rankXlate a rank hv = (0, e, u) := by
  refine ⟨0, 2, 0, 4, 7, [], w5a, _, _, _, _, ?_, ?_, ?_, ?_, ?_, ?_, ?_, rfl, Prod.ext (?_) rfl, rfl⟩ <;> decide +kernel

theorem wit_KeysAndApertureComplete_4 : ∃ n : HostLink, ∃ fn : FnNo, ∃ off : BitVec 64, ∃ data : Bytes, ∃ hv : HostView, ∃ s : State, ∃ u : State, ∃ v : State, ∃ g : State, ∃ e,
    let w := aptWindow fn.toNat off.toNat; let a := s.get (TLR_APT_WIN0.account n.val w); let rank := s.get (TLR_APT_WIN0.rank n.val w); s.memOn n.val fn.toNat = true ∧ s.aptValid n.val fn.toNat w = true ∧ s.aptWaits = [] ∧ s.lmatches = [] ∧ s.srcFull = false ∧ v = { s with nextId := s.nextId + 1, aptWaits := [{ hl := n.val, win := w, tag := 0, off := (s.get (TLR_APT_WIN2.offset n.val w) + off.toNat % 2 ^ 30) % 2 ^ 64, len := data.length, store := some data, num := s.nextId, fn := fn.toNat, acct := a, gen := s.aGen a, rank, key := s.get (TLR_APT_WIN1.key n.val w), visible := s.on (TLR_APT_WIN0.visible n.val w) }] } ∧ v.gate n.val fn.toNat (v.aPasid a) (v.rankAccs a rank) hv = (.go, g) ∧ g.rankXlate a rank hv = (0, e, u) :=
  ⟨0, 2, 0, [1, 2], [], w5a, _, _, _, _, by decide +kernel, by decide +kernel, by decide +kernel, by decide +kernel, by decide +kernel, rfl, Prod.ext (by decide +kernel) rfl, rfl⟩

theorem wit_KeysAndApertureComplete_5 : ∃ n : HostLink, ∃ tag : Nat, ∃ s : State, ∃ w,
    (s.aptWaits.find? fun w => w.hl == n.val && w.tag == tag && w.store.isNone) = some w ∧ w.win < 1024 :=
  ⟨0, 4, { w5 with aptWaits := [{ tag := 4 }] }, _, rfl, by decide +kernel⟩

theorem wit_LedgerDescriptorsComplete_0 : ∃ a : AcctNo, ∃ src : Source, ∃ hv : HostView, ∃ d : Desc, ∃ ring, ∃ idx, ∃ k, ∃ o0, ∃ o, ∃ s : State, ∃ g : State,
    let r := (g.taken a.val src d).sendCheck a.val d hv false; s.ServesHost g a.val src 4 (s.rankAccs a.val (dw d 1 0 24) ++ patAccs d 25 3) hv d ring idx ∧
      s.descCtx a.val d = some k ∧ s.ordFind k (dw d 1 0 24) = some o0 ∧ g.sendHolds a.val d = false ∧ r.1 = 0 ∧ r.2.2.2.descCtx a.val d = some k ∧
      r.2.2.2.ordFind k (dw d 1 0 24) = some o ∧ dw d 4 0 40 ≤ g.eagerLimit k :=
  ⟨5, .ring 0, [], 4, 0, 0, 0, {}, {}, w5r (w5c (w5d 4)), _, ⟨rfl, by decide +kernel, by decide +kernel, Prod.ext (by decide +kernel) rfl, by refine ⟨rfl, rfl, ?_, ?_, ?_, ?_, ?_⟩ <;> decide +kernel⟩, by decide +kernel⟩

theorem wit_LedgerDescriptorsComplete_1 : ∃ a : AcctNo, ∃ src : Source, ∃ hv : HostView, ∃ d : Desc, ∃ ring, ∃ idx, ∃ k, ∃ o0, ∃ o, ∃ s : State, ∃ g : State,
    let r := (g.taken a.val src d).sendCheck a.val d hv false; s.ServesHost g a.val src 4 (s.rankAccs a.val (dw d 1 0 24) ++ patAccs d 25 3) hv d ring idx ∧
      s.descCtx a.val d = some k ∧ s.ordFind k (dw d 1 0 24) = some o0 ∧ g.sendHolds a.val d = false ∧ r.1 = 0 ∧ r.2.2.2.descCtx a.val d = some k ∧
      r.2.2.2.ordFind k (dw d 1 0 24) = some o ∧ g.eagerLimit k < dw d 4 0 40 ∧ s.get LDG_CFG.reserve < s.ldgFree ∧ g.get LDG_CFG.reserve < g.ldgFree :=
  ⟨5, .ring 0, [], dSend, 0, 0, 0, {}, {}, w5r (w5c (w5d dSend)), _, ⟨rfl, by decide +kernel, by decide +kernel, Prod.ext (by decide +kernel) rfl, by refine ⟨rfl, rfl, ?_, ?_, ?_, ?_, ?_⟩ <;> decide +kernel⟩, by decide +kernel⟩

theorem wit_LedgerDescriptorsComplete_2 : ∃ a : AcctNo, ∃ src : Source, ∃ hv : HostView, ∃ d : Desc, ∃ ring, ∃ idx, ∃ k, ∃ p, ∃ s : State, ∃ g : State,
    let w := (g.taken a.val src d).ldgOp k; let u := { w with nextId := w.nextId + 1 }.set (LDG_CTX6.next_post k) ((w.get (LDG_CTX6.next_post k) + 1) % m32); let r : LEntry := { w.recvEntry a.val k d p { g.evTaken a.val src d ring idx with ctr := ctrOf d } with num := w.nextId, seqNo := w.get (LDG_CTX6.next_post k) }; s.ServesHost g a.val src 5 (patAccs d 25 3 ++ s.spillAccs k) hv d ring idx ∧ recvFlags d = 0 ∧ g.recvHolds a.val d = false ∧ s.recvHit a.val d = none ∧ s.descCtx a.val d = some k ∧ s.get LDG_CFG.reserve < s.ldgFree ∧ g.get LDG_CFG.reserve < g.ldgFree ∧ (g.taken a.val src d).recvCheck a.val d hv false = (0, p) ∧ (g.taken a.val src d).descCtx a.val d = some k ∧ u.unexpFor r = none ∧ u.entryRoom k false ≠ 2 :=
  ⟨5, .ring 0, [], 0x5, 0, 0, 0, .flat 0 0, w5c (w5d 0x5), _, ⟨rfl, by decide +kernel, by decide +kernel, Prod.ext (by decide +kernel) rfl, by refine ⟨rfl, rfl, ?_, ?_, ?_, ?_, ?_⟩ <;> decide +kernel⟩, by decide +kernel⟩

theorem wit_LedgerDescriptorsComplete_3 : ∃ a : AcctNo, ∃ src : Source, ∃ hv : HostView, ∃ d : Desc, ∃ ring, ∃ idx, ∃ k, ∃ p, ∃ h, ∃ s : State, ∃ g : State,
    let w := (g.taken a.val src d).ldgOp k; let u := { w with nextId := w.nextId + 1 }.set (LDG_CTX6.next_post k) ((w.get (LDG_CTX6.next_post k) + 1) % m32); let r : LEntry := { w.recvEntry a.val k d p { g.evTaken a.val src d ring idx with ctr := ctrOf d } with num := w.nextId, seqNo := w.get (LDG_CTX6.next_post k) }; s.ServesHost g a.val src 5 (patAccs d 25 3 ++ s.spillAccs k) hv d ring idx ∧ recvFlags d = 0 ∧ g.recvHolds a.val d = false ∧ s.recvHit a.val d = some h ∧ h.rts = false ∧ s.descCtx a.val d = some k ∧ (g.taken a.val src d).recvCheck a.val d hv false = (0, p) ∧ (g.taken a.val src d).descCtx a.val d = some k ∧ u.unexpFor r = some h :=
  ⟨5, .ring 0, [], 0x5, 0, 0, 0, .flat 0 0, { num := 3, kind := .unexp, len := 4, slot := 0 }, { w5c (w5d 0x5) with entries := [{ num := 3, kind := .unexp, len := 4 }] }, _, ⟨rfl, by decide +kernel, by decide +kernel, Prod.ext (by decide +kernel) rfl, by refine ⟨rfl, rfl, ?_, ?_, ?_, ?_, ?_⟩ <;> decide +kernel⟩, by decide +kernel⟩

theorem wit_LedgerDescriptorsComplete_4 : ∃ a : AcctNo, ∃ src : Source, ∃ d : Desc, ∃ ring, ∃ idx, ∃ k, ∃ h, ∃ s : State, ∃ g : State,
    let w := (g.taken a.val src d).ldgOp k; let ev := { g.evTaken a.val src d ring idx with ctr := none }; s.ServesHost g a.val src 5 (s.spillAccs k) [] d ring idx ∧
      recvFlags d = 2 ∧ g.recvHolds a.val d = false ∧ s.descCtx a.val d = some k ∧ (g.taken a.val src d).descCtx a.val d = some k ∧
      w.unexpFor (w.recvEntry a.val k d {} ev) = some h :=
  ⟨5, .ring 0, 0x100000000000000000000005, 0, 0, 0, { kind := .unexp, num := 3 }, { w5c (w5d 0x100000000000000000000005) with entries := [{ kind := .unexp, num := 3 }] }, _, ⟨rfl, by decide +kernel, by decide +kernel, Prod.ext (by decide +kernel) rfl, by refine ⟨rfl, rfl, ?_, ?_, ?_, ?_, ?_⟩ <;> decide +kernel⟩, by decide +kernel⟩

theorem wit_LedgerDescriptorsComplete_5 : ∃ a : AcctNo, ∃ src : Source, ∃ d : Desc, ∃ ring, ∃ idx, ∃ k, ∃ e, ∃ s : State, ∃ g : State,
    let w := (g.taken a.val src d).ldgOp k; let ev := { g.evTaken a.val src d ring idx with ctr := none }; s.ServesHost g a.val src 5 (s.spillAccs k) [] d ring idx ∧
      recvFlags d = 4 ∧ g.recvHolds a.val d = false ∧ s.descCtx a.val d = some k ∧ (g.taken a.val src d).descCtx a.val d = some k ∧
      (g.entries.find? fun e => e.ctx == k && e.kind == .posted && e.ev.cookie == ev.cookie) = some e :=
  ⟨5, .ring 0, 0x200000000000000000000005, 0, 0, 0, { num := 3 }, { w5c (w5d 0x200000000000000000000005) with entries := [{ num := 3 }] }, _, ⟨rfl, by decide +kernel, by decide +kernel, Prod.ext (by decide +kernel) rfl, by refine ⟨rfl, rfl, ?_, ?_, ?_, ?_, ?_⟩ <;> decide +kernel⟩, by decide +kernel⟩

theorem wit_LedgerDescriptorsComplete_6 : ∃ a : AcctNo, ∃ src : Source, ∃ d : Desc, ∃ ring, ∃ idx, ∃ k, ∃ s : State, ∃ g : State,
    s.ServesHost g a.val src 5 (s.spillAccs k) [] d ring idx ∧ recvFlags d = 1 ∧ g.recvHolds a.val d = false ∧ s.descCtx a.val d = some k ∧
      (g.taken a.val src d).descCtx a.val d = some k ∧ dw d 3 0 64 % 64 = 0 ∧ dw d 4 0 40 % 64 = 0 ∧ 64 ≤ dw d 4 0 40 ∧ dw d 4 0 40 ≤ 2 ^ 32 ∧
      (g.ovfBufs.filter fun b => b.ctx == k && !b.retired).length < 65535 :=
  ⟨5, .ring 0, 0x400000000000000000000000000000000000000000080000000000000000000005, 0, 0, 0, w5c (w5d 0x400000000000000000000000000000000000000000080000000000000000000005), _, ⟨rfl, by decide +kernel, by decide +kernel, Prod.ext (by decide +kernel) rfl, by refine ⟨rfl, rfl, ?_, ?_, ?_, ?_, ?_⟩ <;> decide +kernel⟩, by decide +kernel⟩

theorem wit_LedgerContextsComplete_0 : ∃ k : Fin 65536, ∃ rank : Nat, ∃ n : Nat, ∃ hv : HostView, ∃ s : State,
    (s.ctx k.val).filling.contains rank = true ∧ hostNat hv (s.ordAddr k.val rank) 16 = some n :=
  ⟨0, 1, 5, [{ addr := 16, data := [5] ++ List.replicate 15 0, poison := false }], { w5c with ctxs := [(0, { filling := [1] })] }, by decide +kernel⟩

theorem wit_LedgerContextsComplete_1 : ∃ m : Nat, ∃ hv : HostView, ∃ s : State, ∃ g : State, ∃ x, ∃ data, ∃ b,
    (s.lmatches.find? (·.num == m)) = some x ∧ x.mode = 1 ∧ x.hdr.complete = true ∧ x.hdr.ovf = some b ∧ min x.hdr.len x.recv.len ≠ 0 ∧
      (x.recv.pat.iova 0 (min x.hdr.len x.recv.len)).2 = true ∧
      s.gate (s.aHl x.recv.acct) (s.aFn x.recv.acct) (s.aPasid x.recv.acct) ([(x.hdr.buf, min x.hdr.len x.recv.len, false)] ++ accsOf (x.recv.pat.iova 0 (min x.hdr.len x.recv.len)).1 true) hv = (.go, g) ∧ hostRead hv x.hdr.buf (min x.hdr.len x.recv.len) = some (data, false) := by
  refine ⟨2, [{ addr := 64, data := [9], poison := false }], { w5c with lmatches := [mt] }, _, mt, _, 8, ?_, ?_, ?_, ?_, ?_, ?_, Prod.ext (?_) rfl, rfl⟩ <;> decide +kernel

theorem wit_LedgerContextsComplete_2 : ∃ k : Fin 65536, ∃ s : State,
    s.ctxSt k.val = cxSPILLING :=
  ⟨0, (w5c).setCtxSt 0 cxSPILLING, by decide +kernel⟩

theorem wit_LedgerContextsComplete_3 : ∃ k : Fin 65536, ∃ s : State,
    s.ctxSt k.val = cxSPILLED ∧ (s.spillable k.val).length < s.get LDG_CFG.low_water ∧ s.get LDG_CFG.reserve + 2 * (s.spillable k.val).length < s.ldgFree :=
  ⟨0, (w5c).setCtxSt 0 cxSPILLED, by decide +kernel⟩

theorem wit_LedgerContextsComplete_4 : ∃ k : Fin 65536, ∃ s : State,
    s.ctxSt k.val = cxRETURNING :=
  ⟨0, (w5c).setCtxSt 0 cxRETURNING, by decide +kernel⟩

theorem wit_LedgerContextsComplete_5 : ∃ wr : Writer, ∃ a : AcctNo, ∃ v : Word, ∃ s : State,
    bf v.toNat 16 7 ≤ 64 ∧ bf v.toNat 0 16 + bf v.toNat 16 7 ≤ 65536 ∧ s.ctxOverlap a.val (bf v.toNat 0 16) (bf v.toNat 16 7) = false ∧
      ((List.range (s.get (LDG_ACC_CTX.count a.val))).any fun c => (s.devCtx a.val c).isSome) = false ∧ s.Lands wr (LDG_ACC_CTX.reg a.val).addr :=
  ⟨none, 5, 0x10000, w5, by decide +kernel⟩

theorem wit_LedgerContextsComplete_6 : ∃ wr : Writer, ∃ k : Fin 65536, ∃ s : State,
    s.Lands wr (LDG_CTX0.reg k.val).addr :=
  ⟨none, 0, w5, by decide +kernel⟩

theorem wit_LedgerContextsComplete_7 : ∃ wr : Writer, ∃ k : Fin 65536, ∃ s : State,
    s.on (LDG_CTX0.enable k.val) = true ∧ s.Lands wr (LDG_CTX0.reg k.val).addr :=
  ⟨none, 0, w5c, by decide +kernel⟩

theorem wit_CollCompletes_0 : ∃ a : AcctNo, ∃ src : Source, ∃ hv : HostView, ∃ s : State, ∃ g : State, ∃ d, ∃ ring, ∃ idx, ∃ p1 : Pattern, ∃ p2 : Pattern,
    let u := g.taken a.val src d; let t := dw d 1 0 12; let h := u.aHl a.val; let q := tcnt (u.tree t).leafNext h; let o := collOf h (g.evTaken a.val src d ring idx) d; let w := u.modTree t fun r => { r with leafNext := tput r.leafNext h (q + 1) }; s.ServesHost g a.val src 6 (s.collAccs a.val d) hv d ring idx ∧ g.get TOP_STATE.svc_state ≠ 2 ∧ u.trSt t = trACTIVE ∧ h ∈ u.trLinks t ∧ u.aCharter a.val = u.get (ALY_TREE0.charter t) ∧ u.collLegal t o = true ∧ o.opseq = q % 2 ^ 32 ∧ dw d 1 30 1 = 0 ∧ (if w.leafReads { o with opseq := q } then collSide d 31 3 (w.leafSrcLen { o with opseq := q }) (w.hvIf a.val false (w.collAccs a.val d) hv) else (0, {})) = (0, p1) ∧ (if w.leafWrites { o with opseq := q } then collSide d 32 4 (w.leafDstLen t { o with opseq := q }) (w.hvIf a.val false (w.collAccs a.val d) hv) else (0, {})) = (0, p2) ∧ w.opSegs t { o with opseq := q } < 2 ^ 23 ∧ ¬ (o.op = opREDUCE_SCATTER ∧ o.count % w.trTotal t ≠ 0) ∧ (dw d 1 29 1 = 1 → dw d 7 0 64 ≤ w.now + w.get ALY_CFG.sched_max_ms * 4000000) :=
  ⟨5, .ring 0, [], w5t 0x10000000000000006, _, 0x10000000000000006, 0, 0, {}, {}, ⟨rfl, by decide +kernel, by decide +kernel, Prod.ext (by decide +kernel) rfl, by refine ⟨rfl, rfl, ?_, ?_, ?_, ?_, ?_⟩ <;> decide +kernel⟩, by decide +kernel⟩

theorem wit_CollCompletes_1 : ∃ t : Nat, ∃ d : Desc, ∃ o : LeafOp, ∃ p1 : Pattern, ∃ p2 : Pattern, ∃ hv : HostView, ∃ s : State,
    dw d 1 29 1 = 0 ∧ o.tokens = true ∧ (s.tree t).ops.all (fun x => !(x.hl == o.hl && x.opseq == o.opseq)) = true :=
  ⟨1, 0, { op := opBARRIER }, .flat 0 0, .flat 0 0, [], wl { hl := 1 }, by decide +kernel⟩

theorem wit_CollCompletes_2 : ∃ t : Nat, ∃ d : Desc, ∃ o : LeafOp, ∃ p1 : Pattern, ∃ p2 : Pattern, ∃ hv : HostView, ∃ s : State,
    dw d 1 29 1 = 1 ∧ s.now < dw d 7 0 64 :=
  ⟨1, 0x90000000000000000000000000000000000000000000000000000000000000000000000000000000000000000200000000000000000000000, {}, {}, {}, [], w5, by decide +kernel⟩

theorem wit_CollCompletes_3 : ∃ a : AcctNo, ∃ src : Source, ∃ hv : HostView, ∃ s : State, ∃ g : State, ∃ d, ∃ ring, ∃ idx,
    let u := g.taken a.val src d; let t := dw d 1 0 12; let h := u.aHl a.val; let o := collOf h (g.evTaken a.val src d ring idx) d; s.ServesHost g a.val src 6 (s.collAccs a.val d) hv d ring idx ∧ g.get TOP_STATE.svc_state ≠ 2 ∧ u.trSt t = trACTIVE ∧ h ∈ u.trLinks t ∧ u.aCharter a.val = u.get (ALY_TREE0.charter t) ∧ u.collLegal t o = true ∧ o.opseq ≠ tcnt (u.tree t).leafNext h % 2 ^ 32 :=
  ⟨5, .ring 0, [], w5t 0x700000000000000010000000000000006, _, 0x700000000000000010000000000000006, 0, 0, ⟨rfl, by decide +kernel, by decide +kernel, Prod.ext (by decide +kernel) rfl, by refine ⟨rfl, rfl, ?_, ?_, ?_, ?_, ?_⟩ <;> decide +kernel⟩, by decide +kernel⟩

theorem wit_CollCompletes_4 : ∃ t : TreeNo, ∃ n : HostLink, ∃ hv : HostView, ∃ s : State, ∃ o, ∃ x,
    (s.tree t.val).ops.find? (fun o => o.hl == n.val && (match o.startAt with | some x => decide (x ≤ s.now) | none => false)) = some o ∧ o.startAt = some x ∧
      o.tokens = true :=
  ⟨1, 0, [], wl {}, _, 0, rfl, by decide +kernel⟩

theorem wit_CollCompletes_5 : ∃ t : TreeNo, ∃ n : HostLink, ∃ hv : HostView, ∃ s : State, ∃ g : State, ∃ o, ∃ x, ∃ ps, ∃ bytes, ∃ poison,
    (s.tree t.val).ops.find? (fun o => o.hl == n.val && (match o.startAt with | some x => decide (x ≤ s.now) | none => false)) = some o ∧ o.startAt = some x ∧
      o.tokens = false ∧ s.leafReads o = true ∧ o.src.iova 0 (s.leafSrcLen o) = (ps, true) ∧
      s.gate o.hl (s.aFn o.ev.acct) (s.aPasid o.ev.acct) (accsOf ps false) hv = (.go, g) ∧ gather hv ps = some (bytes, poison) :=
  ⟨1, 0, [{ addr := 16, data := [1, 0, 0, 0], poison := false }], wl { op := opALLREDUCE, et := 4, count := 1, src := .flat 16 4, ev := { acct := 5 } }, _, _, 0, [(16, 4)], [1, 0, 0, 0], false, rfl, by decide +kernel, by decide +kernel, by decide +kernel, by decide +kernel, Prod.ext (by decide +kernel) rfl, by decide +kernel⟩

theorem wit_SegmentsComplete_0 : ∃ s : State, ∃ u : State, ∃ p, ∃ t, ∃ c, ∃ q,
    s.Arrives 8 p u ∧ t = p.hdr.w5 % 4096 ∧ u.trSt t = trACTIVE ∧ (u.trKids t).find? (fun c => u.edgeDev t c == epDev p.hdr.srcEp) = some c ∧
      u.opSort t (p.hdr.w6 % 2 ^ 32) = (.live q, u) ∧ bit (bf p.hdr.w5 16 24) 23 = false ∧ bf p.hdr.w6 44 1 = 0 ∧ u.upLo t q ≤ bf (bf p.hdr.w5 16 24) 0 23 ∧
      u.upCovers t q (bf (bf p.hdr.w5 16 24) 0 23) = true ∧ u.upDue t q (bf (bf p.hdr.w5 16 24) 0 23) = true ∧
      (u.upSlot t q (bf (bf p.hdr.w5 16 24) 0 23)).all (fun x => !x.rel && !x.inputs.contains c) = true :=
  ⟨inTpt seg wt1, inTpt0 wt1, seg, 1, 2, 0, by refine ⟨?_, ?_, ?_⟩ <;> decide +kernel, by decide +kernel⟩

theorem wit_SegmentsComplete_1 : ∃ s : State, ∃ u : State, ∃ p, ∃ t, ∃ c, ∃ q,
    s.Arrives 8 p u ∧ t = p.hdr.w5 % 4096 ∧ u.trSt t = trACTIVE ∧ (u.trKids t).find? (fun c => u.edgeDev t c == epDev p.hdr.srcEp) = some c ∧
      u.opSort t (p.hdr.w6 % 2 ^ 32) = (.live q, u) ∧ bf (bf p.hdr.w5 16 24) 0 23 < u.upLo t q :=
  ⟨inTpt seg { wt1 with trees := [(1, { upLo := [(0, 1)] })] }, inTpt0 { wt1 with trees := [(1, { upLo := [(0, 1)] })] }, seg, 1, 2, 0, by refine ⟨?_, ?_, ?_⟩ <;> decide +kernel, by decide +kernel⟩

theorem wit_SegmentsComplete_2 : ∃ s : State, ∃ u : State, ∃ p, ∃ t, ∃ q,
    s.Arrives 9 p u ∧ t = p.hdr.w5 % 4096 ∧ u.trSt t = trACTIVE ∧ u.trRoot t = false ∧ u.edgeDev t 64 = epDev p.hdr.srcEp ∧
      u.opSort t (p.hdr.w6 % 2 ^ 32) = (.live q, u) ∧ bit (bf p.hdr.w5 16 24) 23 = false ∧ u.dnLo t q ≤ bf (bf p.hdr.w5 16 24) 0 23 ∧
      u.dnCovers t q (bf (bf p.hdr.w5 16 24) 0 23) = true ∧ u.dnDue t q (bf (bf p.hdr.w5 16 24) 0 23) = true ∧
      (u.dnSlot t q (bf (bf p.hdr.w5 16 24) 0 23)).all (fun x => !x.rel && x.seg.isNone) = true :=
  ⟨inTpt segDn (st [(ALY_TREE1.root 1, 0)] wt1), inTpt0 (st [(ALY_TREE1.root 1, 0)] wt1), segDn, 1, 0, by refine ⟨?_, ?_, ?_⟩ <;> decide +kernel, by decide +kernel⟩

theorem wit_SegmentsComplete_3 : ∃ s : State, ∃ u : State, ∃ m, ∃ t, ∃ e,
    s.Delivered 7 m u ∧ t = m.msg.payload % 4096 ∧ u.edgeOf t (epDev m.msg.src) = some e ∧ u.trSt t = trACTIVE ∧
      (u.tree t).held.any (fun h => h.edge == e && h.idx == bf m.msg.payload 12 24 && h.opseq % 2 ^ 28 == bf m.msg.payload 36 28) = true :=
  ⟨{ wh with qsHere := [{ msg := { type := 7, src := 0x7FFFF8, payload := 1 } }] }, _, _, _, 2, rfl, rfl, by decide +kernel⟩

theorem wit_SegmentsComplete_4 : ∃ t : TreeNo, ∃ edge : Nat, ∃ down : Bool, ∃ idx : Nat, ∃ opseq : Nat, ∃ s : State, ∃ h,
    (s.tree t.val).held.find? (fun h => h.edge == edge && h.down == down && h.idx == idx && h.opseq == opseq) = some h ∧ (s.edgePort t.val edge).isSome = true ∧
      h.waiting = false :=
  ⟨1, 2, false, 0, 0, wh, _, rfl, by decide +kernel⟩

theorem wit_SegmentsComplete_5 : ∃ s : State, ∃ u : State, ∃ m, ∃ t, ∃ e, ∃ q,
    s.Delivered 8 m u ∧ t = m.msg.payload % 4096 ∧ bit m.msg.payload 45 = false ∧ bf m.msg.payload 44 1 = 0 ∧ u.edgeOf t (epDev m.msg.src) = some e ∧ e ≠ 64 ∧
      u.trSt t = trACTIVE ∧ u.opSort t (bf m.msg.payload 12 32) = (.live q, u) ∧ q ∉ (u.tree t).doneOps :=
  ⟨inTok 1, _, _, _, 2, 0, rfl, rfl, by decide +kernel⟩

theorem wit_SegmentsComplete_6 : ∃ s : State, ∃ u : State, ∃ m,
    s.Delivered 8 m u ∧ bit m.msg.payload 45 = true ∧ bf m.msg.payload 44 1 = 0 :=
  ⟨inTok (1 + 2 ^ 45), _, _, rfl, by decide +kernel⟩

theorem wit_SegmentsComplete_7 : ∃ s : State, ∃ u : State, ∃ m,
    s.Delivered 8 m u ∧ bit m.msg.payload 45 = true ∧ bf m.msg.payload 44 1 = 1 ∧ (u.tree (m.msg.payload % 4096)).abortWait ≠ [] :=
  ⟨{ inTok (1 + 2 ^ 45 + 2 ^ 44) with trees := [(1, { abortWait := [(2, 0x7FFFF8)] })] }, _, _, rfl, by decide +kernel⟩

theorem wit_SegmentsComplete_8 : ∃ t : TreeNo, ∃ s : State, ∃ q,
    (s.tree t.val).arrSent = [q] ∧ (s.tree t.val).abortWait = [] :=
  ⟨1, { wt1 with trees := [(1, { arrSent := [0] })] }, 0, by decide +kernel⟩

theorem wit_SegmentsComplete_9 : ∃ t : TreeNo, ∃ s : State, ∃ own, ∃ dev,
    (s.tree t.val).arrSent = [] ∧ (s.tree t.val).abortWait = [(own, dev)] ∧ s.edgeLost own dev = false :=
  ⟨1, { wh with trees := [(1, { abortWait := [(2, 0x7FFFF8)] })] }, 2, 0x7FFFF8, by decide +kernel⟩

theorem wit_SegmentsComplete_10 : ∃ t : TreeNo, ∃ s : State,
    s.get ALY_CFG.op_timeout_ms ≠ 0 ∧ s.treeBusy t.val = true :=
  ⟨1, st [(ALY_CFG.op_timeout_ms, 9)] wh, by decide +kernel⟩

theorem wit_TreeCommandsComplete_0 : ∃ wr : Writer, ∃ v : Word, ∃ s : State, ∃ u : State, ∃ t,
    s.treeCtl v 1 = (some t, u) ∧ t < 4096 ∧ u.activateCheck t = 0 ∧ u.get ALY_STAT.active < 256 ∧ 4 * u.trW t ≤ u.get ALY_STAT.slots_free ∧
      s.Lands wr ALY_TREE_CTL.reg.addr :=
  ⟨none, 0x4000000000001001, st [(RTE_MC_LOCAL.local 0, 1), (RTE_MC_LOCAL.host_links 0, 1), (ALY_TREE1.root 1, 1), (ALY_TREE3.leaf_links 1, 1), (ALY_TREE3.leaf_total 1, 1), (ALY_STAT.slots_free, 1024)], _, 1, rfl, by decide +kernel⟩

theorem wit_TreeCommandsComplete_1 : ∃ wr : Writer, ∃ v : Word, ∃ s : State, ∃ u : State, ∃ t,
    s.treeCtl v 1 = (some t, u) ∧ u.activateCheck t ≠ 0 ∧ s.Lands wr ALY_TREE_CTL.reg.addr :=
  ⟨none, 0x4000000000001001, wt1, _, 1, rfl, by decide +kernel⟩

theorem wit_TreeCommandsComplete_2 : ∃ wr : Writer, ∃ v : Word, ∃ s : State, ∃ u : State, ∃ t,
    s.treeCtl v 2 = (some t, u) ∧ u.trSt t ≠ trIDLE ∧ s.Lands wr ALY_TREE_CTL.reg.addr :=
  ⟨none, 0x4000000000002001, wt1, _, 1, rfl, by decide +kernel⟩

theorem wit_TreeCommandsComplete_3 : ∃ s : State, ∃ t : Nat,
    t < 4096 :=
  ⟨{}, 1, by decide +kernel⟩

theorem wit_TreeCommandsComplete_4 : ∃ s : State, ∃ t : Nat, ∃ cause : Nat,
    t < 4096 ∧ cause < 16 ∧ s.trSt t = trACTIVE :=
  ⟨wt1, 1, 4, by decide +kernel⟩

theorem wit_MoverCompletes_0 : ∃ a : AcctNo, ∃ src : Source, ∃ hv : HostView, ∃ s : State, ∃ g : State, ∃ d, ∃ ring, ∃ idx, ∃ p1 : Pattern, ∃ p2 : Pattern,
    let u := g.taken a.val src d; s.ServesHost g a.val src 7 (s.moveAccs d) hv d ring idx ∧ bf d.toNat 256 40 ≠ 0 ∧ bit d.toNat 66 = false ∧
      moveSide d 64 128 hv = (0, p1) ∧ moveSide d 65 192 hv = (0, p2) :=
  ⟨5, .ring 0, [], w5d 0x100000000000000000000000000000000000000000000000000000000000000007, _, 0x100000000000000000000000000000000000000000000000000000000000000007, 0, 0, _, _, ⟨rfl, by decide +kernel, by decide +kernel, Prod.ext (by decide +kernel) rfl, by refine ⟨rfl, rfl, ?_, ?_, ?_, ?_, ?_⟩ <;> decide +kernel⟩, by decide +kernel, by decide +kernel, rfl, rfl⟩

theorem wit_MoverCompletes_1 : ∃ a : AcctNo, ∃ src : Source, ∃ hv : HostView, ∃ s : State, ∃ d, ∃ ring, ∃ idx,
    let u := s.taken a.val src d; s.Serves a.val src 7 d ring idx ∧ bf d.toNat 256 40 = 0 ∧ bit d.toNat 66 = false :=
  ⟨5, .ring 0, [], w5d 7, 7, 0, 0, by refine ⟨rfl, rfl, ?_, ?_, ?_, ?_, ?_⟩ <;> decide +kernel, by decide +kernel⟩

theorem wit_MoverCompletes_2 : ∃ ch : MovNo, ∃ hv : HostView, ∃ s : State, ∃ w, ∃ r,
    s.engineOn engMOV = true ∧ s.mvState ch.val = mvIDLE ∧ s.movDesc ch.val = true ∧ s.moveWait = w :: r ∧ w.ev.acct < 16384 :=
  ⟨63, [], { w5 with moveWait := [{ ev := { acct := 5 } }] }, _, _, by decide +kernel, by decide +kernel, by decide +kernel, rfl, by decide +kernel⟩

theorem wit_MoverCompletes_3 : ∃ ch : MovNo, ∃ hv : HostView, ∃ s : State,
    s.engineOn engMOV = true ∧ s.mvState ch.val ≠ mvIDLE ∧ (s.mov ch.val).todo = true :=
  ⟨63, [], { (st [(MOV_STAT.state 63, mvRUNNING), (MOV_STAT.mode 63, 1)]) with movs := [(63, { todo := true })] }, by decide +kernel⟩

theorem wit_MoverCompletes_4 : ∃ c : Nat, ∃ hv : HostView, ∃ s : State, ∃ u : State, ∃ v : State, ∃ st, ∃ d, ∃ p,
    let m := s.mov c; let pos := s.get (MOV_MOVED.bytes c); let top := if s.on (MOV_STAT.mode c) then 2 ^ 64 else 2 ^ 48; let n := min 4096 (min (m.src.elem - (m.src.runAt pos).2) (m.dst.elem - (m.dst.runAt pos).2)); let rs := cutOf ((m.src.runAt pos).1.toNat + (m.src.runAt pos).2) n; let ws := cutOf ((m.dst.runAt pos).1.toNat + (m.dst.runAt pos).2) n; let w := s.set (MOV_STAT.state c) mvRUNNING; let x := v.mvWrite c ws d p; pos < m.src.total ∧ m.src.runOk pos top = true ∧ m.dst.runOk pos top = true ∧ w.mvGate c rs ws hv = (.go, st, u) ∧ u.mvRead c hv rs = (some (d, p), v) ∧ x.get (MOV_MOVED.bytes c) = (x.mov c).src.total :=
  ⟨0, [{ addr := 0, data := [1, 2, 3, 4], poison := false }], { st [(MOV_STAT.mode 0, 1)] w5 with movs := [(0, { src := .flat 0 4, dst := .flat 64 4, ev := { acct := 5 } })] }, _, _, _, _, _, by decide +kernel, by decide +kernel, by decide +kernel, rfl, rfl, by decide +kernel⟩

theorem wit_MoverCompletes_5 : ∃ wr : Writer, ∃ ch : MovNo, ∃ hv : HostView, ∃ s : State,
    s.Lands wr (MOV_CTL.reg ch.val).addr ∧ s.mvState ch.val = mvIDLE ∧ s.movDesc ch.val = false ∧ (s.regSides ch.val).1.total ≤ 2 ^ 48 - 1 ∧
      (s.regSides ch.val).1.total ≠ 0 :=
  ⟨none, 0, [], st [(MOV_CFG.reg_channels, 32), (MOV_COUNT.run 0, 8), (MOV_LOOP0.count 0 0, 1), (MOV_LOOP0.count 0 1, 1), (MOV_LOOP0.count 0 2, 1)], by decide +kernel⟩

theorem wit_MoverCompletes_6 : ∃ c : MovNo, ∃ ch : MovNo, ∃ hv : HostView, ∃ s : State, ∃ v : State, ∃ m, ∃ rest,
    v = { s with movOwn := rest } ∧ takeFirst (fun m : MovWrite => m.ch == c.val && m.addr == (MOV_CTL.reg ch.val).addr && bf m.v 0 2 == 1) s.movOwn = some (m, rest) ∧
      s.mvState ch.val = mvIDLE ∧ s.movDesc ch.val = false ∧ (s.regSides ch.val).1.total ≤ 2 ^ 48 - 1 ∧ (s.regSides ch.val).1.total ≠ 0 :=
  ⟨1, 2, [], { st [(MOV_CFG.reg_channels, 16), (MOV_COUNT.run 2, 4)] w5 with movOwn := [{ ch := 1, addr := (MOV_CTL.reg 2).addr, v := 1 }] }, _, _, _, rfl, rfl, by decide +kernel⟩

theorem wit_MoverCompletes_7 : ∃ wr : Writer, ∃ ch : MovNo, ∃ s : State,
    s.mvState ch.val ≠ mvIDLE ∧ (s.mov ch.val).stop = none ∧ s.Lands wr (MOV_CTL.reg ch.val).addr :=
  ⟨none, 0, st [(MOV_STAT.state 0, mvRUNNING)], by decide +kernel⟩

theorem wit_MoverCompletes_8 : ∃ ch : MovNo, ∃ s : State,
    s.mvState ch.val ≠ mvIDLE ∧ (s.mov ch.val).todo = false ∧ (s.mov ch.val).flush = false ∧
      s.tags.any (fun t => t.why == .flush (.mover ch.val) && !t.quarantined) = false :=
  ⟨0, st [(MOV_STAT.state 0, mvRUNNING)], by decide +kernel⟩

theorem wit_MoverCompletes_9 : ∃ c : Nat, ∃ s : State,
    s.get (MOV_STAT.mode c) = 1 ∧ (s.mov c).silent = false :=
  ⟨0, st [(MOV_STAT.mode 0, 1)], by decide +kernel⟩

theorem wit_MoverCompletes_10 : ∃ c : Nat, ∃ s : State,
    c < 128 ∧ s.get (MOV_STAT.mode c) = 0 :=
  ⟨0, {}, by decide +kernel⟩

theorem wit_LockboxCompletes_0 : ∃ wr : Writer, ∃ m : Fin 128, ∃ s : State,
    lbxExists m.val = true ∧ (2 ≤ m.val ∨ s.get IZG_LOCK.lock = 0) ∧ s.get (LBX_COMMIT.done m.val) ≠ 0 ∧ s.lbxJudge m.val = (0, 0) ∧
      s.Lands wr (LBX_COMMIT.reg m.val).addr :=
  ⟨none, 2, st [(LBX_COMMIT.done 2, 1)], by decide +kernel⟩

theorem wit_LockboxCompletes_1 : ∃ wr : Writer, ∃ m : Fin 128, ∃ s : State, ∃ r, ∃ j,
    lbxExists m.val = true ∧ (2 ≤ m.val ∨ s.get IZG_LOCK.lock = 0) ∧ s.get (LBX_COMMIT.done m.val) ≠ 0 ∧ s.lbxJudge m.val = (r, j) ∧ r ≠ 0 ∧ r < 16 ∧ j < 16 ∧
      s.Lands wr (LBX_COMMIT.reg m.val).addr :=
  ⟨none, 2, st [(LBX_COMMIT.done 2, 1), (LBX_STAGE.sub_en 2 0, 1)], 2, 0, by decide +kernel⟩

theorem wit_LockboxCompletes_2 : ∃ wr : Writer, ∃ m : Fin 128, ∃ s : State,
    lbxExists m.val = false ∧ s.Lands wr (LBX_COMMIT.reg m.val).addr :=
  ⟨none, 5, w5, by decide +kernel⟩

theorem wit_LockboxCompletes_3 : ∃ m : Fin 128, ∃ s : State,
    s.tags.any (fun t => !t.quarantined && (match t.why with | .outbound k _ => k == m.val | _ => false)) = true :=
  ⟨2, { w5 with tags := [{ why := .outbound 2 0 }] }, by decide +kernel⟩

theorem wit_LockboxCompletes_4 : ∃ m : Fin 128, ∃ s : State,
    lbxExists m.val = true ∧ s.tags.any (fun t => !t.quarantined && (match t.why with | .outbound k _ => k == m.val | _ => false)) = false :=
  ⟨2, {}, by decide +kernel⟩

theorem wit_HostLinkCommandsComplete_0 : ∃ n : Fin 4, ∃ s : State,
    s.get (HBI_LINK_STAT.perst (2 * n.val)) = 0 :=
  ⟨0, st [(HBI_LINK_STAT.perst 0, 0)], by decide +kernel⟩

theorem wit_HostLinkCommandsComplete_2 : ∃ n : HostLink, ∃ s : State,
    s.get (HBI_LINK_STAT.dl_up n.val) ≠ 0 :=
  ⟨0, w5, by decide +kernel⟩

theorem wit_HostLinkCommandsComplete_3 : ∃ n : HostLink, ∃ s : State,
    s.get (HBI_LINK_STAT.dl_up n.val) ≠ 0 :=
  ⟨0, w5, by decide +kernel⟩

theorem wit_HostLinkCommandsComplete_4 : ∃ n : Nat, ∃ s : State,
    n < 8 :=
  ⟨0, w5, by decide +kernel⟩

theorem wit_HostLinkCommandsComplete_5 : ∃ n : HostLink, ∃ rate : BitVec 3, ∃ lanes : BitVec 5, ∃ flit : Bool, ∃ s : State,
    s.hlPresent n.val = true ∧ s.get (HBI_LINK_STAT.perst n.val) = 0 ∧ s.get (HBI_LINK_STAT.dl_up n.val) = 0 ∧ s.dom (2 + n.val / 2) = dOn ∧
      bit (s.get PWR_PAD.held_hb) (n.val / 2) = false ∧ 8 ≤ s.get TOP_BOOT_STAT.stage ∧ 2 ≤ s.get TOP_STATE.svc_state ∧ rate.toNat ≤ 6 ∧
      lanes.toNat ∈ [1, 2, 4, 8, 16] ∧ lanes.toNat ≤ s.hlLanes n.val ∧ (flit = true ∨ rate.toNat ≤ 4) ∧ (s.flushes.filter fun f => f.target.hl == n.val) = [] :=
  ⟨0, 5, 16, true, st [(HBI_LINK_STAT.perst 0, 0), (PWR_DOM.state 2, dOn), (PWR_PAD.held_hb, 0), (TOP_BOOT_STAT.stage, 8), (TOP_STATE.svc_state, 2)], by decide +kernel⟩

theorem wit_HostLinkCommandsComplete_6 : ∃ n : HostLink, ∃ rate : BitVec 3, ∃ lanes : BitVec 5, ∃ flit : Bool, ∃ s : State,
    s.hlPresent n.val = true ∧ s.get (HBI_LINK_STAT.perst n.val) = 0 ∧ s.get (HBI_LINK_STAT.dl_up n.val) = 0 ∧ s.dom (2 + n.val / 2) = dOn ∧
      bit (s.get PWR_PAD.held_hb) (n.val / 2) = false ∧ 8 ≤ s.get TOP_BOOT_STAT.stage ∧ s.get TOP_STATE.svc_state = 1 ∧ s.recovering = false ∧ rate.toNat ≤ 6 ∧
      lanes.toNat ∈ [1, 2, 4, 8, 16] ∧ lanes.toNat ≤ s.hlLanes n.val ∧ (flit = true ∨ rate.toNat ≤ 4) ∧ (s.flushes.filter fun f => f.target.hl == n.val) = [] :=
  ⟨0, 5, 16, true, st [(HBI_LINK_STAT.perst 0, 0), (PWR_DOM.state 2, dOn), (PWR_PAD.held_hb, 0), (TOP_BOOT_STAT.stage, 8)], by decide +kernel⟩

theorem wit_HostLinkCommandsComplete_7 : ∃ n : HostLink, ∃ fn : FnNo, ∃ s : State,
    s.fnExists n.val fn.toNat = true ∧ (s.fnc n.val fn.toNat).resetting = false :=
  ⟨0, 2, w5, by decide +kernel⟩

theorem wit_HostLinkCommandsComplete_8 : ∃ n : Nat, ∃ fn : Nat, ∃ s : State,
    2 ≤ fn ∧ (s.boundOn n).all (fun a => s.aFn a != fn) = true ∧ (s.hl n).heldWrites.all (·.fn != fn) = true ∧
      s.flushes.all (fun f => !(f.target.hl == n && f.target.fn == fn && f.tag.isNone)) = true :=
  ⟨0, 3, w5, by decide +kernel⟩

theorem wit_HostLinkCommandsComplete_9 : ∃ n : HostLink, ∃ fn : FnNo, ∃ s : State,
    fn.toNat ∈ (s.hl n.val).draining ∧ (s.fnAccts n.val fn.toNat).any (fun a => s.aSt a == aRESETTING) = false ∧ (fn.toNat = 0 → s.pf0Channels n.val = []) :=
  ⟨0, 2, w5h, by decide +kernel⟩

theorem wit_HostLinkCommandsComplete_10 : ∃ n : HostLink, ∃ fn : FnNo, ∃ s : State,
    let as := (s.fnAccts n.val fn.toNat).filter fun a => s.aSt a == aRESETTING; fn.toNat ∈ (s.hl n.val).draining ∧ fn.toNat ≠ 0 :=
  ⟨0, 2, w5h, by decide +kernel⟩

theorem wit_HostLinkCommandsComplete_11 : ∃ n : HostLink, ∃ fn : FnNo, ∃ s : State,
    s.fnExists n.val fn.toNat = true ∧ (s.fnc n.val fn.toNat).bme = true :=
  ⟨0, 2, w5, by decide +kernel⟩

theorem wit_HostLinkCommandsComplete_12 : ∃ n : HostLink, ∃ fn : FnNo, ∃ s : State,
    s.fnExists n.val fn.toNat = true ∧ (s.fnc n.val fn.toNat).resetting = false :=
  ⟨0, 2, w5, by decide +kernel⟩

theorem wit_HostLinkCommandsComplete_13 : ∃ n : HostLink, ∃ fn : FnNo, ∃ s : State,
    s.fnExists n.val fn.toNat = true ∧ fn.toNat ≤ 1 :=
  ⟨0, 0, w5, by decide +kernel⟩

theorem wit_HostLinkCommandsComplete_14 : ∃ n : HostLink, ∃ fn : FnNo, ∃ s : State,
    s.fnExists n.val fn.toNat = true ∧ fn.toNat ≤ 1 :=
  ⟨0, 0, w5, by decide +kernel⟩

theorem wit_HostRequestsComplete_0 : ∃ n : HostLink, ∃ fn : FnNo, ∃ dw : BitVec 10, ∃ be : BitVec 4, ∃ s : State,
    s.get (HBI_LINK_STAT.dl_up n.val) ≠ 0 ∧ (s.hl n.val).ready = true ∧ s.fnExists n.val fn.toNat = true ∧ (s.fnc n.val fn.toNat).resetting = false :=
  ⟨0, 0, 0, 0xF, w5y, by decide +kernel⟩

theorem wit_HostRequestsComplete_1 : ∃ n : HostLink, ∃ fn : FnNo, ∃ dw : BitVec 10, ∃ be : BitVec 4, ∃ v : BitVec 32, ∃ s : State,
    s.get (HBI_LINK_STAT.dl_up n.val) ≠ 0 ∧ (s.hl n.val).ready = true ∧ s.fnExists n.val fn.toNat = true ∧ (s.fnc n.val fn.toNat).resetting = false :=
  ⟨0, 0, 1, 0xF, 0, w5y, by decide +kernel⟩

theorem wit_HostRequestsComplete_2 : ∃ n : HostLink, ∃ fn : FnNo, ∃ bar : Fin 3, ∃ s : State,
    s.fnExists n.val fn.toNat = true ∧ s.get (HBI_LINK_STAT.dl_up n.val) ≠ 0 :=
  ⟨0, 0, 0, w5, by decide +kernel⟩

theorem wit_HostRequestsComplete_3 : ∃ n : HostLink, ∃ fn : FnNo, ∃ tag : Nat, ∃ data : Bytes, ∃ s : State, ∃ x,
    s.tags.find? (tagIs n.val fn.toNat tag) = some x ∧ x.quarantined = false ∧ s.tagStale x = false :=
  ⟨0, 2, 3, [1], w5g false, _, rfl, by decide +kernel⟩

theorem wit_HostRequestsComplete_4 : ∃ x : Tag, ∃ data : Bytes, ∃ k : Nat, ∃ w : Nat, ∃ s : State,
    x.why = .outbound k w :=
  ⟨{ why := .outbound 64 3 }, [1], 64, 3, w5, by decide +kernel⟩

theorem wit_HostRequestsComplete_5 : ∃ n : HostLink, ∃ fn : FnNo, ∃ tag : Nat, ∃ data : Bytes, ∃ s : State,
    s.tags.find? (tagIs n.val fn.toNat tag) = none :=
  ⟨0, 2, 4, [1], w5g false, by decide +kernel⟩

theorem wit_HostRequestsComplete_6 : ∃ n : HostLink, ∃ fn : FnNo, ∃ tag : Nat, ∃ s : State, ∃ x,
    s.tags.find? (tagIs n.val fn.toNat tag) = some x ∧ x.quarantined = false :=
  ⟨0, 2, 3, w5g false, _, rfl, by decide +kernel⟩

theorem wit_HostRequestsComplete_7 : ∃ n : HostLink, ∃ fn : FnNo, ∃ tag : Nat, ∃ s : State, ∃ x,
    s.tags.find? (tagIs n.val fn.toNat tag) = some x ∧ x.quarantined = true :=
  ⟨0, 2, 3, w5g true, _, rfl, by decide +kernel⟩

theorem wit_HostRequestsComplete_8 : ∃ n : HostLink, ∃ ok : Bool, ∃ s : State, ∃ f,
    s.flushes.find? (fun f => f.target.hl == n.val && f.tag.isSome) = some f :=
  ⟨0, true, { w5 with flushes := [{ tag := some 1 }] }, _, rfl⟩

theorem wit_HostRequestsComplete_9 : ∃ n : HostLink, ∃ fn : FnNo, ∃ page : Nat, ∃ base : Nat, ∃ pages : Nat, ∃ rd : Bool, ∃ wr : Bool, ∃ uo : Bool, ∃ s : State, ∃ q, ∃ rest,
    takeFirst (fun q : AtsReq => q.fn == fn.toNat && q.page == page && q.answer.isNone && !q.denied) (s.hl n.val).ats = some (q, rest) ∧ (rd || wr) = true ∧
      q.stale = false :=
  ⟨0, 2, 4, 4, 1, true, true, false, { w5 with hls := [(0, { vfEnable := true, numVfs := 4, ats := [{ fn := 2, page := 4 }] })] }, _, _, rfl, by decide +kernel⟩

theorem wit_HostRequestsComplete_10 : ∃ n : HostLink, ∃ fn : FnNo, ∃ itag : BitVec 5, ∃ pasid : Option (BitVec 20), ∃ all : Bool, ∃ page : Nat, ∃ pages : Nat, ∃ s : State,
    s.get (HBI_LINK_STAT.dl_up n.val) ≠ 0 ∧ (s.fnc n.val fn.toNat).ats = true ∧ (s.fnc n.val fn.toNat).resetting = false ∧ (s.hl n.val).invals.length < 32 ∧
      (s.hl n.val).heldInvals = [] :=
  ⟨0, 2, 1, none, true, 0, 1, { w5 with fns := [(2, { ats := true })] }, by decide +kernel⟩

theorem wit_HostRequestsComplete_11 : ∃ n : HostLink, ∃ fn : FnNo, ∃ itag : BitVec 5, ∃ pasid : Option (BitVec 20), ∃ all : Bool, ∃ page : Nat, ∃ pages : Nat, ∃ s : State,
    s.get (HBI_LINK_STAT.dl_up n.val) ≠ 0 ∧ 32 ≤ (s.hl n.val).invals.length :=
  ⟨0, 2, 1, none, true, 0, 1, w5.modHl 0 fun h => { h with invals := List.replicate 32 {} }, by decide +kernel⟩

theorem wit_HostRequestsComplete_12 : ∃ n : HostLink, ∃ itag : BitVec 5, ∃ s : State, ∃ q, ∃ rest,
    takeFirst (fun q : InvalReq => q.itag == itag.toNat) (s.hl n.val).invals = some (q, rest) ∧
      s.tags.any (fun x => x.hl == n.val && !x.quarantined && x.invals.contains itag.toNat) = false ∧
      s.flushes.any (fun f => f.target.hl == n.val && f.invals.contains itag.toNat) = false ∧ (s.hl n.val).heldInvals = [] :=
  ⟨0, 1, { w5 with hls := [(0, { invals := [{ itag := 1, fn := 2 }] })] }, _, _, rfl, by decide +kernel⟩

theorem wit_HostRequestsComplete_13 : ∃ m : Fin 128, ∃ addr : BitVec 48, ∃ data : Bytes, ∃ poison : Bool, ∃ len : BitVec 13, ∃ s : State, ∃ g : State,
    2 ^ 47 ≤ addr.toNat ∧ (m.val < 4 ∨ 64 ≤ m.val) ∧ data ≠ [] ∧ addr.toNat % 4096 + data.length ≤ 4096 ∧ s.lbxCheck m.val addr.toNat true = (true, s) ∧
      s.owinGate addr.toNat data.length true (decide (m.val < 2)) = (.go, g) :=
  ⟨64, 0x800000000000, [1], false, 1, w5w, w5w, by decide +kernel⟩

theorem wit_HostRequestsComplete_14 : ∃ m : Fin 128, ∃ addr : BitVec 48, ∃ data : Bytes, ∃ poison : Bool, ∃ len : BitVec 13, ∃ s : State, ∃ g : State, ∃ u : State, ∃ tag,
    2 ^ 47 ≤ addr.toNat ∧ (m.val < 4 ∨ 64 ≤ m.val) ∧ len.toNat ≠ 0 ∧ addr.toNat % 4096 + len.toNat ≤ 4096 ∧ s.lbxCheck m.val addr.toNat false = (true, s) ∧
      s.owinGate addr.toNat len.toNat false (decide (m.val < 2)) = (.go, g) ∧
      readCut (g.ctlFn (g.owinTarget addr.toNat).1 (g.owinTarget addr.toNat).2.1).mrrs len.toNat (g.owinTarget addr.toNat).2.2.2 len.toNat = [((g.owinTarget addr.toNat).2.2.2, len.toNat)] ∧ g.takeTag (g.owinTarget addr.toNat).1 (g.owinTarget addr.toNat).2.1 none (.outbound m.val (addr.toNat % 2 ^ 44 / 2 ^ 38)) = (some tag, u) := by
  refine ⟨64, 0x800000000000, [], false, 4, w5w, (w5w.owinGate 0x800000000000 4 false false).2, _, _, ?_, ?_, ?_, ?_, ?_, ?_, ?_, rfl⟩ <;> decide +kernel

theorem wit_HostRequestsComplete_15 : ∃ m : Fin 128, ∃ addr : BitVec 48, ∃ data : Bytes, ∃ poison : Bool, ∃ len : BitVec 13, ∃ s : State, ∃ u : State,
    2 ^ 47 ≤ addr.toNat ∧ (m.val < 4 ∨ 64 ≤ m.val) ∧ len.toNat ≠ 0 ∧ addr.toNat % 4096 + len.toNat ≤ 4096 ∧ s.lbxCheck m.val addr.toNat false = (false, u) :=
  ⟨64, 0x800000000000, [], false, 4, w5, _, by decide +kernel, by decide +kernel, by decide +kernel, by decide +kernel, rfl⟩

theorem wit_LinkServiceCompletes_0 : ∃ p : PortNo, ∃ f : LinkFrame, ∃ s : State,
    f.wf = true ∧ s.linkState p.val = stActive ∧ s.role p.val ≠ roleCell ∧ (s.port p.val).pcs.rxBad = false ∧ frameCrcOk f = true ∧ s.frameIllegal p.val f = none ∧
      s.dataFault p.val f = none :=
  ⟨1, fr, wp stActive, by decide +kernel⟩

theorem wit_LinkServiceCompletes_1 : ∃ p : Nat, ∃ f : LinkFrame, ∃ s : State,
    p < 64 ∧ s.linkState p = stActive ∧ f.ackSeq.toNat = s.get (LNK_ESCROW.oldest p) ∧ f.nak = false ∧ 18 ≤ f.cr0Class.toNat ∧ 18 ≤ f.cr1Class.toNat ∧ f.qs0v = false ∧
      f.qs1v = false ∧ f.ftype = 1 ∧ f.seq.toNat = (s.port p).rxNext :=
  ⟨1, { fr with ftype := 1 }, wp stActive, by decide +kernel⟩

theorem wit_LinkServiceCompletes_2 : ∃ p : Nat, ∃ f : LinkFrame, ∃ s : State,
    s.linkState p = stActive ∧ f.ackSeq.toNat = s.get (LNK_ESCROW.oldest p) ∧ f.nak = false ∧ 18 ≤ f.cr0Class.toNat ∧ 18 ≤ f.cr1Class.toNat ∧ f.qs0v = false ∧
      f.qs1v = false ∧ f.ftype = 1 ∧ f.seq.toNat ≠ (s.port p).rxNext ∧ behind f.seq.toNat (s.port p).rxNext = true :=
  ⟨1, { fr with ftype := 1, seq := 0xFFFFFF }, wp stActive, by decide +kernel⟩

theorem wit_LinkServiceCompletes_3 : ∃ p : Nat, ∃ c : Nat, ∃ n : Nat, ∃ s : State,
    p < 64 ∧ c < 18 :=
  ⟨1, 17, 3, {}, by decide +kernel⟩

theorem wit_LinkServiceCompletes_4 : ∃ p : PortNo, ∃ f : LinkFrame, ∃ s : State,
    f.wf = true ∧ s.linkState p.val = stActive ∧ s.role p.val ≠ roleCell ∧ frameCrcOk f = false :=
  ⟨1, fr false, wp stActive, by decide +kernel⟩

theorem wit_LinkServiceCompletes_5 : ∃ p : Nat, ∃ s : State,
    p < 64 ∧ (s.port p).nakHold = false ∧ s.get (LNK_ERR_WIN.naks p) < 1024 :=
  ⟨1, wp stActive, by decide +kernel⟩

theorem wit_LinkServiceCompletes_6 : ∃ p : PortNo, ∃ s : State, ∃ t : State, ∃ xs,
    s.linkState p.val = stActive ∧ s.role p.val ≠ roleCell ∧ (s.port p.val).pcs.mark = 0 ∧ s.tryQuiet p.val = s ∧ (s.port p.val).ctrlQ = [] ∧
      (s.port p.val).replayQ = [] ∧ (s.port p.val).quietSent = false ∧ s.stopping = false ∧ (s.port p.val).escrow.length < s.get (LNK_ESCROW.depth p.val) ∧
      s.fillSlots p.val 15 = (xs, t) ∧ xs ≠ [] := by
  refine ⟨1, st [(LNK_VAULT_USED.peer_floor 1 0, 66), (LNK_ESCROW.depth 1, 1024)] (wp stActive { txq := [{ id := 1, flits := [0, 0] }], peerV := 1000 }), _, _, ?_, ?_, ?_, ?_, ?_, ?_, ?_, ?_, ?_, rfl, ?_⟩ <;> decide +kernel

theorem wit_LinkServiceCompletes_7 : ∃ p : PortNo, ∃ s : State, ∃ t : State,
    s.linkState p.val = stActive ∧ s.role p.val ≠ roleCell ∧ (s.port p.val).pcs.mark = 0 ∧ s.tryQuiet p.val = s ∧ (s.port p.val).ctrlQ = [] ∧
      (s.port p.val).replayQ = [] ∧ s.fillSlots p.val 15 = ([], t) := by
  refine ⟨1, wp stActive, _, ?_, ?_, ?_, ?_, ?_, ?_, rfl⟩ <;> decide +kernel

theorem wit_LinkServiceCompletes_9 : ∃ p : PortNo, ∃ s : State,
    (s.port p.val).pcs.mark = 5 :=
  ⟨1, wp stActive { pcs := { mark := 5 } }, by decide +kernel⟩

theorem wit_LinkServiceCompletes_10 : ∃ p : PortNo, ∃ s : State,
    s.linkState p.val = stActive ∧ (s.port p.val).ackRunning = true :=
  ⟨1, wp stActive { ackRunning := true }, by decide +kernel⟩

theorem wit_LinkServiceCompletes_11 : ∃ p : Nat, ∃ q : Nat, ∃ s : State,
    s.get (LNK_ERR_WIN.failed_replays p) = 0 ∧ (s.port p).lastReplay ≠ some q :=
  ⟨1, 5, {}, by decide +kernel⟩

theorem wit_LinkServiceCompletes_14 : ∃ p : Nat, ∃ cause : Nat, ∃ s : State,
    p < 64 ∧ cause < 16 ∧ s.linkState p = stActive :=
  ⟨1, 2, wp stActive, by decide +kernel⟩

theorem wit_LinkServiceCompletes_15 : ∃ p : Nat, ∃ s : State,
    p < 64 ∧ s.get (PRT_ROLE.role p) ≠ 0 ∧ s.overLimit p = false ∧ s.recovering = false ∧ s.ownAbsent = false ∧ s.get (LNK_RESET_LIMIT.limit_us p) ≠ 0 :=
  ⟨1, st [(PRT_ROLE.role 1, roleD0), (LNK_RESET_LIMIT.limit_us 1, 10)], by decide +kernel⟩

theorem wit_LinkServiceCompletes_16 : ∃ p : Nat, ∃ s : State,
    p < 64 ∧ s.recovering = true :=
  ⟨1, st [(TOP_BOOT_STAT.recovery, 1)], by decide +kernel⟩

theorem wit_LinkServiceCompletes_17 : ∃ p : Nat, ∃ s : State,
    s.get (PRT_ROLE.role p) ≠ 0 ∧ s.overLimit p = false ∧ s.recovering = false ∧ s.ownAbsent = true :=
  ⟨1, { st [(PRT_ROLE.role 1, roleD0)] with boot := { plan := some [] } }, by decide +kernel⟩

theorem wit_LinkServiceCompletes_18 : ∃ wr : Writer, ∃ p : PortNo, ∃ s : State,
    s.Lands wr (LNK_CTL.reg p.val).addr :=
  ⟨none, 1, w5, by decide +kernel⟩

theorem wit_LinkServiceCompletes_19 : ∃ p : PortNo, ∃ s : State, ∃ x, ∃ l, ∃ r,
    (s.port p.val).ctrlIn = x :: r ∧ x.msg = .creditSync l :=
  ⟨1, wp stActive { ctrlIn := [{ msg := .creditSync [1] }] }, _, _, _, rfl, rfl⟩

theorem wit_LinkServiceCompletes_20 : ∃ p : Nat, ∃ s : State, ∃ l : List Nat, ∃ since : List (Nat × Nat),
    (∀ c, c < 18 → tcnt (s.port p).receivedTotal c < 2 ^ 32 ∧ (l.getD c 0 + tcnt since c) % 2 ^ 32 = tcnt (s.port p).receivedTotal c) :=
  ⟨1, wp stActive, [], [], by decide +kernel⟩

theorem wit_LinkServiceCompletes_21 : ∃ p : PortNo, ∃ s : State, ∃ x, ∃ r,
    (s.port p.val).ctrlIn = x :: r ∧ x.msg = .creditSyncReq ∧ (s.port p.val).ctrlQ = [] :=
  ⟨1, wp stActive { ctrlIn := [{ msg := .creditSyncReq }] }, _, _, rfl, rfl, rfl⟩

theorem wit_LinkServiceCompletes_22 : ∃ p : PortNo, ∃ s : State,
    s.linkState p.val = stActive ∧ (s.port p.val).ctrlQ = [] :=
  ⟨1, wp stActive, by decide +kernel⟩

theorem wit_LinkServiceCompletes_24 : ∃ wr : Writer, ∃ p : PortNo, ∃ v : Word, ∃ s : State,
    s.Lands wr (LNK_REACH.reg p.val).addr :=
  ⟨none, 1, 9, w5, by decide +kernel⟩

theorem wit_LinkTrainingCompletes_0 : ∃ p : PortNo, ∃ s : State,
    s.linkState p.val = 1 :=
  ⟨1, wp 1, by decide +kernel⟩

theorem wit_LinkTrainingCompletes_1 : ∃ p : PortNo, ∃ signal : BitVec 8, ∃ s : State,
    s.linkState p.val = 2 ∧ signal ≠ 0 ∧ s.role p.val ≠ roleCell :=
  ⟨1, 1, wp 2, by decide +kernel⟩

theorem wit_LinkTrainingCompletes_2 : ∃ p : PortNo, ∃ signal : BitVec 8, ∃ s : State, ∃ ls,
    s.linkState p.val = 2 ∧ s.role p.val = roleCell ∧ ls = (lanes8.filter fun l => bit signal.toNat l && !bit (s.excluded p.val) l).take 4 ∧ ls.length = 4 :=
  ⟨1, 15, wc 2, _, by decide +kernel, by decide +kernel, rfl, by decide +kernel⟩

theorem wit_LinkTrainingCompletes_3 : ∃ p : PortNo, ∃ signal : BitVec 8, ∃ s : State,
    s.linkState p.val = 2 ∧ s.role p.val = roleCell ∧ (lanes8.filter fun l => bit signal.toNat l && !bit (s.excluded p.val) l).length < 4 :=
  ⟨1, 7, wc 2, by decide +kernel⟩

theorem wit_LinkTrainingCompletes_4 : ∃ p : PortNo, ∃ s : State,
    s.linkState p.val = 2 ∧ s.get (PRT_LANE_STAT.tx_fault p.val 0) = 0 :=
  ⟨1, wp 2, by decide +kernel⟩

theorem wit_LinkTrainingCompletes_5 : ∃ p : PortNo, ∃ s : State,
    s.linkState p.val = 2 :=
  ⟨1, wp 2, by decide +kernel⟩

theorem wit_LinkTrainingCompletes_6 : ∃ p : PortNo, ∃ l : Fin 8, ∃ ts : BitVec 256, ∃ s : State, ∃ inv, ∃ m,
    trainRead ts = some (inv, m) ∧ s.linkState p.val = 3 ∧ s.role p.val ≠ roleCell ∧ bit m 35 = false ∧ bf m 48 8 = 0 :=
  ⟨1, 0, trn 0, wp 3, false, _, rfl, by decide +kernel⟩

theorem wit_LinkTrainingCompletes_7 : ∃ p : Nat, ∃ l : Nat, ∃ inv : Bool, ∃ m : Nat, ∃ s : State, ∃ u : State,
    p < 64 ∧ l < 8 ∧ u = ((((s.set (PRT_LANE_STAT.locked p l) 1).setB (PRT_LANE_STAT.pol_inv p l) inv).set (PRT_LANE_STAT.peer_lane p l) (bf m 32 3)).modPort p fun q => { q with peerLocked := bf m 40 8, peerTxOk := bf m 48 8 }) ∧ maskOf (lanes8.filter (u.usableLane p)) ≠ 0 ∧ maskOf (lanes8.filter (u.usableLane p)) = (s.port p).pairsSeen ∧ (s.port p).pairSets = 15 :=
  ⟨1, 0, false, 3 * 2 ^ 40 + 3 * 2 ^ 48, wp 3 { pairsSeen := 1, pairSets := 15 }, _, by decide +kernel, by decide +kernel, rfl, by decide +kernel⟩

theorem wit_LinkTrainingCompletes_8 : ∃ p : PortNo, ∃ l : Fin 8, ∃ ts : BitVec 256, ∃ s : State, ∃ inv, ∃ m,
    trainRead ts = some (inv, m) ∧ s.linkState p.val = stActive ∧ bit m 35 = true ∧ tcnt (s.port p.val).resetSets l.val = 3 :=
  ⟨1, 0, trn (2 ^ 35), wp stActive { resetSets := [(0, 3)] }, false, _, rfl, by decide +kernel⟩

theorem wit_LinkTrainingCompletes_9 : ∃ p : PortNo, ∃ s : State,
    4 ≤ s.linkState p.val ∧ s.linkState p.val ≤ 7 :=
  ⟨1, wp 4, by decide +kernel⟩

theorem wit_LinkTrainingCompletes_10 : ∃ p : PortNo, ∃ s : State,
    s.linkState p.val = 3 ∧ (s.port p.val).laneTimeouts = 2 ∧ (s.port p.val).noTrainRaised = false :=
  ⟨1, wp 3 { laneTimeouts := 2 }, by decide +kernel⟩

theorem wit_LinkTrainingCompletes_11 : ∃ p : PortNo, ∃ s : State,
    s.linkState p.val = 11 ∧ (s.port p.val).cellFails = 2 :=
  ⟨1, wc 11 { cellFails := 2 }, by decide +kernel⟩

theorem wit_LinkTrainingCompletes_12 : ∃ p : PortNo, ∃ s : State, ∃ x, ∃ m, ∃ r,
    (s.port p.val).ctrlIn = x :: r ∧ x.msg = .ident m ∧ s.linkState p.val = 4 ∧ m.serial < 2 ^ 64 ∧ m.role < 8 ∧ m.port < 64 :=
  ⟨1, wp 4 { ctrlIn := [{ msg := .ident {} }] }, _, _, _, rfl, rfl, by decide +kernel⟩

theorem wit_LinkTrainingCompletes_13 : ∃ p : Nat, ∃ code : Nat, ∃ s : State,
    p < 64 ∧ code < 256 :=
  ⟨1, 6, wp stActive, by decide +kernel⟩

theorem wit_LinkTrainingCompletes_14 : ∃ p : PortNo, ∃ s : State, ∃ x, ∃ k, ∃ c, ∃ r, ∃ m,
    (s.port p.val).ctrlIn = x :: r ∧ x.msg = .identSig k c ∧ (s.port p.val).ident = some m ∧ s.linkState p.val = 4 :=
  ⟨1, wp 4 { ctrlIn := [{ msg := .identSig 0 0 }], ident := some {} }, _, _, _, _, _, rfl, rfl, rfl, by decide +kernel⟩

theorem wit_LinkTrainingCompletes_15 : ∃ p : PortNo, ∃ s : State, ∃ x, ∃ k, ∃ c, ∃ r, ∃ m,
    (s.port p.val).ctrlIn = x :: r ∧ x.msg = .identSig k c ∧ (s.port p.val).ident = some m ∧ s.linkState p.val = 4 ∧
      edVerify k (identMsg m (s.port p.val).challenge) c = true ∧ s.izg.devSeed.isSome = true ∧ (s.port p.val).identSent = true ∧
      0 < min (s.targetOf p.val).1 m.maxRate :=
  ⟨1, { (st [(PRT_TARGET.rate 1, 3)] (wp 4 { ctrlIn := [{ msg := .identSig 0 (Config.edSigOf 0 (identMsg { maxRate := 2 } 0)).toNat }], ident := some { maxRate := 2 }, identSent := true })) with izg := { devSeed := some [] } }, _, _, _, _, _, rfl, rfl, rfl, by decide +kernel, by rw [edVerify, BitVec.ofNat_toNat]; simp; exact .inl rfl, by decide +kernel⟩

theorem wit_LinkTrainingCompletes_16 : ∃ p : PortNo, ∃ s : State, ∃ x, ∃ k, ∃ c, ∃ r, ∃ m,
    (s.port p.val).ctrlIn = x :: r ∧ x.msg = .identSig k c ∧ (s.port p.val).ident = some m ∧ s.linkState p.val = 4 ∧
      edVerify k (identMsg m (s.port p.val).challenge) c = true ∧ s.izg.devSeed.isSome = true ∧ (s.port p.val).identSent = true ∧ m.maxRate = 0 ∧ m.maxWidth = 0 :=
  ⟨1, { (st [(PRT_TARGET.rate 1, 3)] (wp 4 { ctrlIn := [{ msg := .identSig 0 (Config.edSigOf 0 (identMsg { maxRate := 0 } 0)).toNat }], ident := some { maxRate := 0 }, identSent := true })) with izg := { devSeed := some [] } }, _, _, _, _, _, rfl, rfl, rfl, by decide +kernel, by rw [edVerify, BitVec.ofNat_toNat]; simp; exact .inl rfl, by decide +kernel⟩

theorem wit_LinkTrainingCompletes_17 : ∃ p : PortNo, ∃ s : State,
    s.linkState p.val = 5 ∧ s.role p.val ≠ roleCell ∧ 0 < (s.port p.val).eqRate :=
  ⟨1, wp 5 { eqRate := 1 }, by decide +kernel⟩

theorem wit_LinkTrainingCompletes_18 : ∃ p : PortNo, ∃ passed : BitVec 8, ∃ s : State,
    s.linkState p.val = 5 ∧ s.role p.val = roleCell ∧ passed.toNat = 255 :=
  ⟨1, 255, wc 5, by decide +kernel⟩

theorem wit_LinkTrainingCompletes_19 : ∃ p : PortNo, ∃ passed : BitVec 8, ∃ s : State,
    s.linkState p.val = 5 ∧ s.role p.val ≠ roleCell ∧ maskOf (lanes8.filter fun l => s.on (PRT_LANE_STAT.active p.val l)) &&& passed.toNat ≠ 0 :=
  ⟨1, 1, st [(PRT_LANE_STAT.active 1 0, 1)] (wp 5), by decide +kernel⟩

theorem wit_LinkTrainingCompletes_20 : ∃ p : PortNo, ∃ s : State, ∃ x, ∃ m, ∃ r,
    (s.port p.val).ctrlIn = x :: r ∧ x.msg = .param m ∧ s.linkState p.val = 7 ∧ (s.port p.val).peerOpen = none ∧ m.echo = false ∧ (s.port p.val).echoed = none :=
  ⟨1, wp 7 { ctrlIn := [{ msg := .param {} }] }, _, _, _, rfl, rfl, by decide +kernel⟩

theorem wit_LinkTrainingCompletes_21 : ∃ p : Nat, ∃ m : ParamMsg, ∃ x : CtrlArr, ∃ s : State,
    p < 64 ∧ (s.port p).fresh = false ∧ m.fresh = false ∧ (s.port p).escrow = [] ∧ s.get (LNK_ESCROW.oldest p) = m.x ∧ (∀ c, c < 18 → m.floors.getD c 0 < 2 ^ 16 ∧
      m.caps.getD c 0 < 2 ^ 16) :=
  ⟨1, {}, {}, wp 7 { fresh := false }, by decide +kernel⟩

theorem wit_LinkTrainingCompletes_22 : ∃ p : PortNo, ∃ s : State, ∃ x, ∃ m, ∃ r,
    (s.port p.val).ctrlIn = x :: r ∧ x.msg = .param m ∧ s.linkState p.val = 7 ∧ (s.port p.val).peerOpen.isSome = true ∧ m.echo = true ∧ (s.port p.val).echoed = none :=
  ⟨1, wp 7 { ctrlIn := [{ msg := .param { echo := true } }], peerOpen := some {} }, _, _, _, rfl, rfl, by decide +kernel⟩

theorem wit_LinkTrainingCompletes_23 : ∃ p : PortNo, ∃ pattern : BitVec 8, ∃ s : State, ∃ x,
    s.linkState p.val = 10 ∧ (s.port p.val).probe = some x :=
  ⟨1, 0, wp 10 { probe := some 0 }, _, by decide +kernel, rfl⟩

theorem wit_LinkTrainingCompletes_24 : ∃ p : PortNo, ∃ s : State,
    (s.port p.val).limitRunning = true ∧ s.linkState p.val ≠ stActive :=
  ⟨1, wp 3 { limitRunning := true }, by decide +kernel⟩

theorem wit_CellsComplete_0 : ∃ p : PortNo, ∃ c : Flit, ∃ s : State,
    s.role p.val = roleCell ∧ s.linkState p.val = stActive ∧ (s.port p.val).pcs.rxPos = 0 ∧ cellCrcOk c = true ∧ cellIllegal (cellOf c) = none ∧ (cellOf c).kind ≠ 0 ∧
      (cellOf c).cseq = (s.port p.val).cellExp :=
  ⟨1, cel 1 52, wc stActive, by decide +kernel⟩

theorem wit_CellsComplete_1 : ∃ p : Nat, ∃ x : Cell, ∃ s : State,
    p < 64 :=
  ⟨1, {}, wc stActive, by decide +kernel⟩

theorem wit_CellsComplete_2 : ∃ p : Nat, ∃ x : Cell, ∃ c : Cell, ∃ r, ∃ s : State,
    (s.port p).cellEscrow = c :: r ∧ x.cack = (c.cseq + (r.length + 1)) % 256 ∧ r.length < 255 :=
  ⟨1, { cack := 5 }, { cseq := 4 }, [], wc stActive { cellEscrow := [{ cseq := 4 }] }, by decide +kernel⟩

theorem wit_CellsComplete_3 : ∃ p : Nat, ∃ x : Cell, ∃ s : State,
    x.kind = 2 :=
  ⟨1, { kind := 2 }, wc stActive, by decide +kernel⟩

theorem wit_CellsComplete_4 : ∃ p : PortNo, ∃ c : Flit, ∃ s : State,
    s.role p.val = roleCell ∧ s.linkState p.val = 11 ∧ (s.port p.val).pcs.rxPos = 0 ∧ cellCrcOk c = true ∧ cellIllegal (cellOf c) = none ∧
      (s.port p.val).goodFrames = 63 :=
  ⟨1, cel 0, wc 11 { goodFrames := 63 }, by decide +kernel⟩

theorem wit_CellsComplete_5 : ∃ p : PortNo, ∃ c : Flit, ∃ s : State,
    s.role p.val = roleCell ∧ s.linkState p.val = stActive ∧ (s.port p.val).pcs.rxPos = 0 ∧ cellCrcOk c = false :=
  ⟨1, 0, wc stActive, by decide +kernel⟩

theorem wit_CellsComplete_6 : ∃ p : PortNo, ∃ c : Flit, ∃ s : State,
    s.role p.val = roleCell ∧ s.linkState p.val = 11 ∧ (s.port p.val).pcs.rxPos = 0 ∧ cellCrcOk c = false :=
  ⟨1, 0, wc 11, by decide +kernel⟩

theorem wit_CellsComplete_7 : ∃ p : PortNo, ∃ s : State, ∃ c,
    s.role p.val = roleCell ∧ s.linkState p.val = stActive ∧ (s.port p.val).pcs.mark = 0 ∧ (s.port p.val).cellOwed = [] ∧ (s.port p.val).cellReplay = 0 ∧
      s.stopping = false ∧ (s.port p.val).cellEscrow.length < 255 ∧ ((s.port p.val).cellTx.find? fun c => decide (tcnt (s.port p.val).cellCredit c.fvc > 0)) = some c := by
  refine ⟨1, wc stActive { cellTx := [{}], cellCredit := [(0, 1)] }, _, ?_, ?_, ?_, ?_, ?_, ?_, ?_, rfl⟩ <;> decide +kernel

theorem wit_CellsComplete_8 : ∃ p : PortNo, ∃ s : State,
    s.role p.val = roleCell ∧ s.linkState p.val = stActive ∧ (s.port p.val).pcs.mark = 0 ∧ (s.port p.val).cellReplay = 0 ∧ s.stopping = true :=
  ⟨1, { wc stActive with boot := { resetDue := some 3 } }, by decide +kernel⟩

theorem wit_CellsComplete_9 : ∃ p : PortNo, ∃ s : State,
    s.role p.val = roleCell ∧ s.linkState p.val = stActive ∧ (s.port p.val).cellEscrow ≠ [] :=
  ⟨1, wc stActive { cellEscrow := [{}] }, by decide +kernel⟩

theorem wit_CellsComplete_10 : ∃ s : State, ∃ k, ∃ r, ∃ p,
    s.fifelIn = k :: r ∧ s.stopping = false ∧ pktIntact k = true ∧ s.isHere k.hdr.dstEp = true ∧ lengthOk k.hdr = true ∧ s.cellMap (epHl k.hdr.dstEp) = some p :=
  ⟨{ (st [(RTE_CELL_MAP.reg, 0x81), (PRT_ROLE.role 1, roleCell), (PRT_ROLE.effective 1, roleCell), (TOP_BOOT_STAT.coords_fixed, 1)]) with fifelIn := [mkPkt { opcode := 0x0B, length := 1 } [7]] }, _, _, 1, rfl, by decide +kernel⟩

theorem wit_CellsComplete_11 : ∃ dst : Nat, ∃ fvc : Nat, ∃ data : List Byte,
    data ≠ [] ∧ data.length ≤ 52 :=
  ⟨3, 1, [7], by decide +kernel⟩

theorem wit_QuietExchangeCompletes_0 : ∃ p : PortNo, ∃ s : State, ∃ x, ∃ b, ∃ r,
    (s.port p.val).ctrlIn = x :: r ∧ x.msg = .quiet b ∧ s.linkState p.val = stActive ∧ bit b 56 = true ∧ (s.port p.val).quietSent = false ∧ (s.port p.val).txq = [] ∧
      (s.port p.val).escrow = [] :=
  ⟨1, wp stActive { ctrlIn := [{ msg := .quiet (2 ^ 56) }] }, _, _, _, rfl, rfl, by decide +kernel⟩

theorem wit_QuietExchangeCompletes_1 : ∃ p : PortNo, ∃ s : State, ∃ x, ∃ b, ∃ r,
    (s.port p.val).ctrlIn = x :: r ∧ x.msg = .quiet b ∧ s.linkState p.val = stActive ∧ bit b 56 = true ∧ (s.port p.val).quietSent = false ∧ (s.port p.val).txq ≠ [] :=
  ⟨1, wp stActive { ctrlIn := [{ msg := .quiet (2 ^ 56) }], txq := [{}] }, _, _, _, rfl, rfl, by decide +kernel⟩

theorem wit_QuietExchangeCompletes_2 : ∃ p : PortNo, ∃ s : State, ∃ x, ∃ b, ∃ r,
    (s.port p.val).ctrlIn = x :: r ∧ x.msg = .quietAck b ∧ s.linkState p.val = stActive ∧ (s.port p.val).quietSent = true :=
  ⟨1, wp stActive { ctrlIn := [{ msg := .quietAck 0 }], quietSent := true }, _, _, _, rfl, rfl, by decide +kernel⟩

theorem wit_QuietExchangeCompletes_3 : ∃ p : Nat, ∃ s : State,
    p < 64 :=
  ⟨1, {}, by decide +kernel⟩

theorem wit_QuietExchangeCompletes_4 : ∃ p : PortNo, ∃ s : State,
    s.linkState p.val = stActive ∧ (s.port p.val).quietSent = true :=
  ⟨1, wp stActive { quietSent := true }, by decide +kernel⟩

theorem wit_QuietExchangeCompletes_5 : ∃ p : PortNo, ∃ s : State,
    (s.port p.val).quietRetry = true ∧ (s.port p.val).quietCause = false :=
  ⟨1, wp stActive { quietRetry := true }, by decide +kernel⟩

theorem wit_QuietExchangeCompletes_6 : ∃ p : PortNo, ∃ s : State,
    (s.port p.val).quietRetry = true ∧ s.linkState p.val = stActive ∧ s.role p.val ≠ roleCell ∧ (s.port p.val).quietCause = true ∧ (s.port p.val).quietSent = false ∧
      (s.port p.val).txq = [] ∧ (s.port p.val).escrow = [] :=
  ⟨1, st [(PRT_ROLE.effective 1, roleD0)] (wp stActive { quietRetry := true, quietCause := true }), by decide +kernel⟩

theorem wit_QuietExchangeCompletes_7 : ∃ p : Nat, ∃ s : State,
    (s.port p).quietSent = true ∧ (s.port p).ctrlQ = [{ msg := .quiet (2 ^ 56), waited := 0, answer := false }] ∧ (s.port p).txq ≠ [] :=
  ⟨1, wp stActive { quietSent := true, ctrlQ := [{ msg := .quiet (2 ^ 56), waited := 0, answer := false }], txq := [{}] }, by decide +kernel⟩

theorem wit_QuietExchangeCompletes_8 : ∃ p : PortNo, ∃ s : State,
    s.linkState p.val = 9 ∧ s.dom (tileOf p.val) ≠ dOff ∧ s.padHeld p.val = false :=
  ⟨1, st [(PWR_DOM.state 8, dOn)] (wp 9), by decide +kernel⟩

theorem wit_QuietExchangeCompletes_9 : ∃ p : PortNo, ∃ s : State,
    s.linkState p.val = 9 ∧ (s.port p.val).waking = true :=
  ⟨1, wp 9 { waking := true }, by decide +kernel⟩

theorem wit_QuietExchangeCompletes_10 : ∃ p : PortNo, ∃ s : State,
    s.linkState p.val = 9 ∧ (s.port p.val).waking = false ∧ s.dom (tileOf p.val) = dOn ∧ s.pwrState = 0 ∧ s.padHeld p.val = false :=
  ⟨1, st [(PWR_DOM.state 8, dOn), (TOP_STATE.pwr_state, 0)] (wp 9), by decide +kernel⟩

theorem wit_DomainCommandsComplete_0 : ∃ s : State, ∃ p, ∃ r,
    s.izg.activating.isSome = false ∧ s.izg.mg = p :: r ∧ p.hdr.w5 % 256 = 0x40 :=
  ⟨{ w5 with izg := { mg := [mkPkt { opcode := 0x0A, w5 := 0x40, length := 16 } (List.replicate 16 0)] } }, _, _, by decide +kernel, rfl, by decide +kernel⟩

theorem wit_DomainCommandsComplete_1 : ∃ s : State, ∃ d : Nat, ∃ b : Nat, ∃ on : Bool,
    isDomain d = true ∧ d < 64 ∧ b < 13 ∧ bit (s.get (PWR_VOTE.reg d)) b ≠ on ∧ s.pwrState ≠ 2 :=
  ⟨st [(TOP_STATE.pwr_state, 0)], 16, 8, true, by decide +kernel⟩

theorem wit_DomainCommandsComplete_2 : ∃ s : State, ∃ d : Nat,
    s.pwrState = 3 :=
  ⟨st [(TOP_STATE.pwr_state, 3)], 16, by decide +kernel⟩

theorem wit_DomainCommandsComplete_3 : ∃ s : State, ∃ d : Nat,
    s.pwrState ≠ 3 ∧ s.dom d = dOff ∧ s.wanted d = true ∧ d < 64 ∧ s.get (PWR_DOM.failed d) = 0 ∧ s.pwr.pwrfail = false ∧ d ∉ s.pwr.retrying :=
  ⟨st [(TOP_STATE.pwr_state, 0), (PWR_DOM.state 16, dOff)], 16, by decide +kernel⟩

theorem wit_DomainCommandsComplete_4 : ∃ s : State, ∃ d : Nat,
    s.pwrState ≠ 3 ∧ s.dom d = dDropping ∧ s.wanted d = true :=
  ⟨st [(TOP_STATE.pwr_state, 0), (PWR_DOM.state 16, dDropping), (PWR_VOTE.reg 16, 1)], 16, by decide +kernel⟩

theorem wit_DomainCommandsComplete_5 : ∃ s : State, ∃ d : Nat,
    isTile d = true ∧ s.dom d = dDropping ∧ (∀ p ∈ tilePorts d, s.linkState p ∈ [0, 9, 10]) ∧ s.wanted d = true :=
  ⟨st [(PWR_DOM.state 8, dDropping), (PWR_VOTE.reg 8, 1)], 8, by decide +kernel⟩

theorem wit_DomainCommandsComplete_6 : ∃ s : State, ∃ d : Nat,
    s.dom d = dOn ∧ s.wanted d = false ∧ isHb d = false ∧ s.pwrState ≠ 2 ∧ s.pwrState ≠ 3 ∧ s.get PWR_CFG.drop_delay_us ≠ 0 :=
  ⟨st [(TOP_STATE.pwr_state, 1), (PWR_DOM.state 16, dOn), (PWR_CFG.drop_delay_us, 9), (PWR_VOTE.reg 16, 0)], 16, by decide +kernel⟩

theorem wit_DomainCommandsComplete_7 : ∃ s : State, ∃ m, ∃ u,
    s.Delivered 9 m u :=
  ⟨{ w5 with qsHere := [{ msg := { type := 9 } }] }, _, _, rfl⟩

theorem wit_DomainCommandsComplete_8 : ∃ d : Fin 64, ∃ wake : Bool, ∃ s : State,
    tget s.pwr.leases (d.val * 2 + (if wake then 1 else 0)) = some s.clk :=
  ⟨16, false, { pwr [] fun x => { x with leases := [(32, 5)] } with clk := 5 }, by decide +kernel⟩

theorem wit_DomainCommandsComplete_9 : ∃ d : Fin 64, ∃ wake : Bool, ∃ s : State, ∃ x,
    tget s.pwr.leases (d.val * 2 + (if wake then 1 else 0)) = some x ∧ x ≠ s.clk :=
  ⟨16, false, pwr [] fun x => { x with leases := [(32, 5)] }, _, rfl, by decide +kernel⟩

theorem wit_DomainCommandsComplete_10 : ∃ s : State, ∃ d : Nat, ∃ b : Nat,
    isDomain d = true :=
  ⟨{}, 16, 8, by decide +kernel⟩

theorem wit_DomainCommandsComplete_11 : ∃ d : Fin 64, ∃ s : State,
    d.val ∈ s.activityUpd.pwr.dropping ∧ s.activityUpd.wanted d.val = false :=
  ⟨16, pwr [(TOP_STATE.pwr_state, 1)] fun x => { x with dropping := [16] }, by decide +kernel⟩

theorem wit_DomainCommandsComplete_12 : ∃ s : State, ∃ d : Nat,
    isEngine d = true :=
  ⟨{}, 16, by decide +kernel⟩

theorem wit_DomainCommandsComplete_13 : ∃ s : State, ∃ d : Nat,
    isTile d = true :=
  ⟨{}, 9, by decide +kernel⟩

theorem wit_DomainCommandsComplete_14 : ∃ d : Fin 64, ∃ s : State, ∃ k, ∃ r,
    s.dom d.val = dWaking ∧ (wakeSteps d.val (tcnt s.pwr.wakeFrom d.val)).filter (fun k => s.get (PWR_DOM.step d.val) < k) = k :: r :=
  ⟨16, st [(PWR_DOM.state 16, dWaking)], _, _, by decide +kernel, rfl⟩

theorem wit_DomainCommandsComplete_15 : ∃ d : Fin 64, ∃ s : State,
    s.dom d.val = dWaking ∧ (wakeSteps d.val (tcnt s.pwr.wakeFrom d.val)).filter (fun k => s.get (PWR_DOM.step d.val) < k) = [] :=
  ⟨16, st [(PWR_DOM.state 16, dWaking), (PWR_DOM.step 16, 4)], by decide +kernel⟩

theorem wit_DomainCommandsComplete_16 : ∃ s : State, ∃ d : Nat,
    isEngine d = true :=
  ⟨{}, 16, by decide +kernel⟩

theorem wit_DomainCommandsComplete_17 : ∃ s : State, ∃ d : Nat,
    d < 8 ∧ tcnt s.pwr.wakeFrom (8 + d) = dOff ∧ (8 + d) ∉ s.pwr.relPend :=
  ⟨st [(PWR_PAD.held_tile, 0)], 1, by decide +kernel⟩

theorem wit_DomainCommandsComplete_18 : ∃ d : Fin 64, ∃ s : State,
    s.dom d.val = dWaking ∧ s.get (PWR_DOM.attempts d.val) < 2 :=
  ⟨16, st [(PWR_DOM.state 16, dWaking)], by decide +kernel⟩

theorem wit_DomainCommandsComplete_19 : ∃ d : Fin 64, ∃ s : State,
    s.dom d.val = dWaking ∧ s.get (PWR_DOM.attempts d.val) = 2 :=
  ⟨16, st [(PWR_DOM.state 16, dWaking), (PWR_DOM.attempts 16, 2)], by decide +kernel⟩

theorem wit_DomainCommandsComplete_20 : ∃ d : Fin 64, ∃ s : State,
    d.val ∈ s.pwr.retrying :=
  ⟨16, pwr [] fun x => { x with retrying := [16] }, by decide +kernel⟩

theorem wit_DomainCommandsComplete_21 : ∃ wr : Writer, ∃ d : Nat, ∃ s : State,
    d < 8 ∧ bit (s.get PWR_PAD.held_tile) d = true ∧ s.dom (8 + d) = dOn ∧ s.Lands wr PWR_PAD_RELEASE.reg.addr :=
  ⟨none, 1, st [(PWR_PAD.held_tile, 2), (PWR_DOM.state 9, dOn)], by decide +kernel⟩

theorem wit_DomainCommandsComplete_22 : ∃ wr : Writer, ∃ d : Nat, ∃ s : State,
    d < 8 ∧ bit (s.get PWR_PAD.held_tile) d = true ∧ s.dom (8 + d) = dOff ∧ s.Lands wr PWR_PAD_RELEASE.reg.addr :=
  ⟨none, 1, st [(PWR_PAD.held_tile, 2), (PWR_DOM.state 9, dOff)], by decide +kernel⟩

theorem wit_DomainCommandsComplete_23 : ∃ wr : Writer, ∃ d : Nat, ∃ s : State,
    d < 4 ∧ bit (s.get PWR_PAD.held_hb) d = true ∧ s.dom (2 + d) = dOn ∧ s.Lands wr PWR_PAD_RELEASE.reg.addr :=
  ⟨none, 1, st [(PWR_PAD.held_hb, 2), (PWR_DOM.state 3, dOn)], by decide +kernel⟩

theorem wit_DomainCommandsComplete_24 : ∃ s : State, ∃ d : Nat, ∃ p : Nat,
    d < 8 ∧ (tilePorts (8 + d)).filter (fun p => s.linkState p == 9) = [p] :=
  ⟨wp 9, 0, 1, by decide +kernel⟩

theorem wit_PowerStateRequestsComplete_0 : ∃ wr : Writer, ∃ s : State,
    s.Lands wr PWR_STATE_REQ.reg.addr :=
  ⟨none, w5, by decide +kernel⟩

theorem wit_PowerStateRequestsComplete_1 : ∃ wr : Writer, ∃ s : State,
    2 ≤ s.get TOP_STATE.svc_state ∧ s.Lands wr PWR_STATE_REQ.reg.addr :=
  ⟨none, st [(TOP_STATE.svc_state, 2)], by decide +kernel⟩

theorem wit_PowerStateRequestsComplete_2 : ∃ n : Nat, ∃ s : State,
    n < 2 ∧ s.pwrState ≠ n ∧ s.pwrState ≠ 2 :=
  ⟨1, st [(TOP_STATE.pwr_state, 0)], by decide +kernel⟩

theorem wit_PowerStateRequestsComplete_3 : ∃ n : Nat, ∃ s : State,
    s.pwrState = 2 :=
  ⟨0, st [(TOP_STATE.pwr_state, 2)], by decide +kernel⟩

theorem wit_PowerStateRequestsComplete_4 : ∃ wr : Writer, ∃ s : State,
    2 ≤ s.get TOP_STATE.svc_state ∧ s.vigilBusy = false ∧ s.pwrState ≠ 2 ∧ s.Lands wr PWR_STATE_REQ.reg.addr :=
  ⟨none, st [(TOP_STATE.svc_state, 2), (TOP_STATE.pwr_state, 0)], by decide +kernel⟩

theorem wit_PowerStateRequestsComplete_5 : ∃ wr : Writer, ∃ s : State,
    s.get TOP_STATE.svc_state ≤ 1 ∧ s.Lands wr PWR_STATE_REQ.reg.addr :=
  ⟨none, st [(TOP_STATE.svc_state, 1)], by decide +kernel⟩

theorem wit_PowerStateRequestsComplete_6 : ∃ wr : Writer, ∃ s : State,
    s.vigilBusy = true ∧ s.Lands wr PWR_STATE_REQ.reg.addr :=
  ⟨none, st [(PWR_VOTE.host 16, 1)], by decide +kernel⟩

theorem wit_PowerStateRequestsComplete_7 : ∃ wr : Writer, ∃ s : State,
    s.Lands wr PWR_STATE_REQ.reg.addr :=
  ⟨none, w5, by decide +kernel⟩

theorem wit_RailCommandsComplete_0 : ∃ wr : Writer, ∃ v : Word, ∃ s : State,
    s.get PWR_AVS_CTL.done ≠ 0 ∧ s.get PWR_AVS_CFG.auto = 0 ∧ 7 ≤ s.get TOP_BOOT_STAT.stage ∧ (avsRange (bf v.toNat 0 1)).1 ≤ bf v.toNat 16 10 ∧
      bf v.toNat 16 10 ≤ (avsRange (bf v.toNat 0 1)).2 ∧ s.avsFree (bf v.toNat 0 1) = true ∧ s.Lands wr PWR_AVS_CTL.reg.addr :=
  ⟨none, 0x3200000, bt 8 id [(PWR_AVS_CTL.done, 1), (PWR_AVS_CFG.auto, 0)], by decide +kernel⟩

theorem wit_RailCommandsComplete_1 : ∃ wr : Writer, ∃ v : Word, ∃ ack : Bool, ∃ s : State,
    s.get PWR_AVS_CTL.done ≠ 0 ∧ (s.get PWR_AVS_CFG.auto ≠ 0 ∨ s.get TOP_BOOT_STAT.stage < 7) ∧ s.Lands wr PWR_AVS_CTL.reg.addr :=
  ⟨none, 0x3200000, true, bt 8 id [(PWR_AVS_CTL.done, 1), (PWR_AVS_CFG.auto, 1)], by decide +kernel⟩

theorem wit_RailCommandsComplete_2 : ∃ wr : Writer, ∃ v : Word, ∃ ack : Bool, ∃ s : State,
    s.get PWR_AVS_CTL.done ≠ 0 ∧ s.get PWR_AVS_CFG.auto = 0 ∧ 7 ≤ s.get TOP_BOOT_STAT.stage ∧
      (bf v.toNat 16 10 < (avsRange (bf v.toNat 0 1)).1 ∨ (avsRange (bf v.toNat 0 1)).2 < bf v.toNat 16 10) ∧ s.Lands wr PWR_AVS_CTL.reg.addr :=
  ⟨none, 0x3840000, true, bt 8 id [(PWR_AVS_CTL.done, 1), (PWR_AVS_CFG.auto, 0)], by decide +kernel⟩

theorem wit_RailCommandsComplete_3 : ∃ r : Fin 2, ∃ mv : BitVec 10, ∃ s : State, ∃ x,
    tget s.pwr.avsBusy r.val = some x ∧ x < 1024 ∧ mv.toNat ≤ x + 5 ∧ x ≤ mv.toNat + 5 ∧ x ≤ s.get (PWR_AVS_STAT.level_mv r.val) :=
  ⟨0, 805, pwr [(PWR_AVS_STAT.level_mv 0, 850)] fun x => { x with avsBusy := [(0, 800)] }, _, rfl, by decide +kernel⟩

theorem wit_RailCommandsComplete_4 : ∃ r : Fin 2, ∃ s : State, ∃ x,
    tget s.pwr.avsBusy r.val = some x ∧ x ≤ s.get (PWR_AVS_STAT.level_mv r.val) ∧ r.val ∉ s.pwr.avsManual :=
  ⟨0, pwr [(PWR_AVS_STAT.level_mv 0, 850)] fun x => { x with avsBusy := [(0, 800)] }, _, rfl, by decide +kernel⟩

theorem wit_RailCommandsComplete_5 : ∃ r : Fin 2, ∃ s : State, ∃ x,
    tget s.pwr.avsBusy r.val = some x ∧ s.get (PWR_AVS_STAT.level_mv r.val) < x :=
  ⟨0, pwr [] fun x => { x with avsBusy := [(0, 800)] }, _, rfl, by decide +kernel⟩

theorem wit_RailCommandsComplete_6 : ∃ mv0 : BitVec 10, ∃ mv1 : BitVec 10, ∃ a0 : Bool, ∃ a1 : Bool, ∃ s : State,
    s.get PWR_AVS_CFG.auto ≠ 0 ∧ 7 ≤ s.get TOP_BOOT_STAT.stage :=
  ⟨0, 0, true, true, st [(PWR_AVS_CFG.auto, 1), (TOP_BOOT_STAT.stage, 7)], by decide +kernel⟩

theorem wit_RailCommandsComplete_7 : ∃ r : Nat, ∃ mv : Nat, ∃ s : State,
    s.avsFree r = true ∧ min (avsRange r).2 (max (avsRange r).1 (max mv (s.get (PWR_AVS_STAT.level_mv r) - 5))) ≠ s.get (PWR_AVS_STAT.level_mv r) :=
  ⟨0, 800, st [(PWR_AVS_STAT.level_mv 0, 850)], by decide +kernel⟩

theorem wit_RailCommandsComplete_8 : ∃ r : Nat, ∃ mv : Nat, ∃ a : Bool, ∃ s : State,
    min (avsRange r).2 (max (avsRange r).1 (max mv (s.get (PWR_AVS_STAT.level_mv r) - 5))) = s.get (PWR_AVS_STAT.level_mv r) :=
  ⟨0, 850, true, st [(PWR_AVS_STAT.level_mv 0, 850)], by decide +kernel⟩

theorem wit_RailCommandsComplete_9 : ∃ k : Fin 8, ∃ xv : PmbTry, ∃ xi : PmbTry, ∃ xc : PmbTry, ∃ v : Nat, ∃ i : Nat, ∃ c : Nat, ∃ s : State,
    s.get (PWR_PMB_DEV.valid k.val) ≠ 0 ∧ Gives xv v ∧ Gives xi i ∧ Gives xc c :=
  ⟨0, ⟨.ok 0, .nak⟩, ⟨.nak, .ok 0⟩, ⟨.ok 0, .nak⟩, 0, 0, 0, st [(PWR_PMB_DEV.valid 0, 1)], by decide +kernel, .inl rfl, .inr ⟨by simp, rfl⟩, .inl rfl⟩

theorem wit_RailCommandsComplete_10 : ∃ k : Fin 8, ∃ st : BitVec 16, ∃ s : State,
    s.get (PWR_PMB_DEV.valid k.val) ≠ 0 ∧ st.toNat ≠ 0 :=
  ⟨0, 1, st [(PWR_PMB_DEV.valid 0, 1)], by decide +kernel⟩

theorem wit_RailCommandsComplete_11 : ∃ wr : Writer, ∃ x : PmbTry, ∃ v : Nat, ∃ s : State,
    Gives x v ∧ s.get PWR_PMB_CMD0.done ≠ 0 ∧ s.get PWR_PMB_CMD0.write ≠ 0 ∧ s.Lands wr PWR_PMB_CMD0.reg.addr :=
  ⟨none, ⟨.ok 0, .nak⟩, 0, st [(PWR_PMB_CMD0.done, 1), (PWR_PMB_CMD0.write, 1)], .inl rfl, by decide +kernel⟩

theorem wit_RailCommandsComplete_12 : ∃ wr : Writer, ∃ x : PmbTry, ∃ v : Nat, ∃ s : State,
    Gives x v ∧ s.get PWR_PMB_CMD0.done ≠ 0 ∧ s.get PWR_PMB_CMD0.write = 0 ∧ s.get PWR_PMB_CMD0.len = 2 ∧ s.Lands wr PWR_PMB_CMD0.reg.addr :=
  ⟨none, ⟨.ok 0, .nak⟩, 0, st [(PWR_PMB_CMD0.done, 1), (PWR_PMB_CMD0.len, 2)], .inl rfl, by decide +kernel⟩

theorem wit_RailCommandsComplete_13 : ∃ wr : Writer, ∃ x : PmbTry, ∃ e : Emit, ∃ s : State,
    (∀ v, x.first ≠ .ok v) ∧ x.again = .nak ∧ s.get PWR_PMB_CMD0.done ≠ 0 ∧ s.get PWR_PMB_CMD0.write ≠ 0 ∧ s.Lands wr PWR_PMB_CMD0.reg.addr ∧
      e = .pmb (s.get (PWR_PMB_DEV.addr (s.get PWR_PMB_CMD0.dev))) (s.get PWR_PMB_CMD0.code) (s.get PWR_PMB_CMD1.data % 2 ^ (8 * s.get PWR_PMB_CMD0.len)) :=
  ⟨none, ⟨.nak, .nak⟩, _, st [(PWR_PMB_CMD0.done, 1), (PWR_PMB_CMD0.write, 1)], by simp, rfl, by decide +kernel, by decide +kernel, by decide +kernel, rfl⟩

theorem wit_RailCommandsComplete_14 : ∃ k : Fin 8, ∃ cmd : BitVec 8, ∃ why : Fin 3, ∃ s : State,
    s.get (PWR_PMB_DEV.valid k.val) ≠ 0 :=
  ⟨0, 0, 0, st [(PWR_PMB_DEV.valid 0, 1)], by decide +kernel⟩

theorem wit_PowerEventsComplete_0 : ∃ s : State,
    s.izgRuns = true ∧ s.pwr.pwrfail = false :=
  ⟨bt 7, by decide +kernel⟩

theorem wit_PowerEventsComplete_1 : ∃ s : State,
    s.pwr.pwrfail = true :=
  ⟨pwr [] fun x => { x with pwrfail := true }, by decide +kernel⟩

theorem wit_PowerEventsComplete_2 : ∃ r : Fin 4, ∃ s : State,
    r.val ∈ s.boot.en :=
  ⟨1, bt 7 fun b => { b with en := [1] }, by decide +kernel⟩

theorem wit_PowerEventsComplete_3 : ∃ k : Fin 32, ∃ c : BitVec 9, ∃ s : State,
    (s.get PWR_THERM.throttle_c : Int) ≤ c.toInt :=
  ⟨0, 120, st [(PWR_THERM.throttle_c, 100)], by decide +kernel⟩

theorem wit_PowerEventsComplete_4 : ∃ k : Fin 32, ∃ c : BitVec 9, ∃ s : State,
    c.toInt ≤ (s.get PWR_THERM.throttle_c : Int) - (s.get PWR_THERM.hyst : Int) :=
  ⟨0, 90, st [(PWR_THERM.throttle_c, 100), (PWR_THERM.hyst, 5)], by decide +kernel⟩

theorem wit_PowerEventsComplete_5 : ∃ s : State,
    s.throttleCause = true ∧ s.get PWR_TEMP.throttled = 0 :=
  ⟨pwr [] fun x => { x with hot := true }, by decide +kernel⟩

theorem wit_PowerEventsComplete_6 : ∃ s : State,
    s.throttleCause = false ∧ s.get PWR_TEMP.throttled = 1 :=
  ⟨st [(PWR_TEMP.throttled, 1)], by decide +kernel⟩

theorem wit_PowerEventsComplete_8 : ∃ k : Fin 32, ∃ c : BitVec 9, ∃ s : State,
    130 ≤ c.toInt ∧ s.boot.por = false ∧ s.pwr.tripped = false :=
  ⟨0, 130, bt 7, by decide +kernel⟩

theorem wit_PowerEventsComplete_9 : ∃ k : Fin 8, ∃ s : State,
    (tilePorts (8 + k.val)).filter s.active = [] :=
  ⟨0, {}, by decide +kernel⟩

theorem wit_PowerEventsComplete_10 : ∃ k : Fin 8, ∃ s : State, ∃ p,
    (tilePorts (8 + k.val)).filter s.active = [p] :=
  ⟨0, wp stActive, _, rfl⟩

theorem wit_PowerEventsComplete_11 : ∃ k : Fin 3, ∃ s : State,
    s.boot.por = false ∧ s.pwr.tripped = false ∧ 3 ≤ s.get TOP_BOOT_STAT.stage :=
  ⟨0, bt 3, by decide +kernel⟩

theorem wit_RoutingCompletes_0 : ∃ p : PortNo, ∃ c : Fin 18, ∃ s : State, ∃ v,
    (s.port p.val).vault.find? (fun v => v.cls == c.val && v.dest == .undecided) = some v ∧ s.stopping = false ∧ s.certMay p.val v.hdr = true :=
  ⟨1, 0, wr { vault := [vp {}] }, _, rfl, by decide +kernel⟩

theorem wit_RoutingCompletes_1 : ∃ p : PortNo, ∃ c : Fin 18, ∃ s : State, ∃ v,
    (s.port p.val).vault.find? (fun v => v.cls == c.val && v.dest == .undecided) = some v ∧ (s.port p.val).certWait = true ∧
      (v.hdr.opcode ≠ 0x0A ∨ v.hdr.linkLocal = false) :=
  ⟨1, 0, wr { vault := [vp {}], certWait := true }, _, rfl, by decide +kernel⟩

theorem wit_RoutingCompletes_2 : ∃ p : Nat, ∃ v : VaultPkt, ∃ s : State,
    s.pwrState = 2 ∧ v.hdr.opcode ≠ 0x0A :=
  ⟨1, vp { opcode := 1 }, st [(TOP_STATE.pwr_state, 2)] wr, by decide +kernel⟩

theorem wit_RoutingCompletes_3 : ∃ p : Nat, ∃ v : VaultPkt, ∃ s : State,
    (s.pwrState ≠ 2 ∨ v.hdr.opcode = 0x0A) ∧ illegalHdr v.hdr v.cls = true :=
  ⟨1, vp { opcode := 0, mcGroup := 1 }, wr, by decide +kernel⟩

theorem wit_RoutingCompletes_4 : ∃ p : Nat, ∃ v : VaultPkt, ∃ s : State,
    (s.pwrState ≠ 2 ∨ v.hdr.opcode = 0x0A) ∧ illegalHdr v.hdr v.cls = false ∧ s.get RTE_LIFETIME.quarter_ns < s.age v.hdr :=
  ⟨1, vp { opcode := 1, injectTime := 1 }, st [(HMK_NOW.t, 2 ^ 31)] wr, by decide +kernel⟩

theorem wit_RoutingCompletes_5 : ∃ p : Nat, ∃ v : VaultPkt, ∃ s : State, ∃ net,
    (s.pwrState ≠ 2 ∨ v.hdr.opcode = 0x0A) ∧ illegalHdr v.hdr v.cls = false ∧ s.age v.hdr ≤ s.get RTE_LIFETIME.quarter_ns ∧ netOf v.hdr.opcode = some net ∧ 2 ≤ net ∧
      v.hdr.mcast = true :=
  ⟨1, { vp { opcode := 9, mcast := true } with cls := 15 }, wr, 3, by decide +kernel⟩

theorem wit_RoutingCompletes_6 : ∃ p : Nat, ∃ v : VaultPkt, ∃ s : State, ∃ net,
    (s.pwrState ≠ 2 ∨ v.hdr.opcode = 0x0A) ∧ illegalHdr v.hdr v.cls = false ∧ s.age v.hdr ≤ s.get RTE_LIFETIME.quarter_ns ∧ netOf v.hdr.opcode = some net ∧ net ≤ 1 ∧
      (clsPhase v.cls).all (· == v.hdr.phase) = true ∧ s.phaseLegal v.hdr { role := s.role p, phase := v.hdr.phase, port := p } = true ∧ v.hdr.mcast = false ∧
      s.role p ≠ roleHall ∧ s.isHere v.hdr.dstEp = true :=
  ⟨1, vp { opcode := 1 }, wr, 0, by decide +kernel⟩

theorem wit_RoutingCompletes_7 : ∃ p : Nat, ∃ v : VaultPkt, ∃ s : State, ∃ u : State, ∃ net, ∃ q, ∃ c, ∃ h,
    (s.pwrState ≠ 2 ∨ v.hdr.opcode = 0x0A) ∧ illegalHdr v.hdr v.cls = false ∧ s.age v.hdr ≤ s.get RTE_LIFETIME.quarter_ns ∧ netOf v.hdr.opcode = some net ∧ net ≤ 1 ∧
      (clsPhase v.cls).all (· == v.hdr.phase) = true ∧ s.phaseLegal v.hdr { role := s.role p, phase := v.hdr.phase, port := p } = true ∧ v.hdr.mcast = false ∧
      v.hdr.linkLocal = false ∧ s.role p ≠ roleHall ∧ s.isHere v.hdr.dstEp = false ∧
      s.chooseOut v.hdr { role := s.role p, phase := v.hdr.phase, port := p } net = (.port q c h, u) := by
  refine ⟨1, vp { opcode := 1, dstEp := 128 }, st [(RTE_DEV_ENT.present 0 16, 1), (PRT_ROLE.effective 2, roleD1), (LNK_STAT.state 2, stActive), (LNK_PEER_INFO.endpoint 2, 128)] wr, _, 0, _, _, _, ?_, ?_, ?_, ?_, ?_, ?_, ?_, ?_, ?_, ?_, ?_, rfl⟩ <;> decide +kernel

theorem wit_RoutingCompletes_8 : ∃ p : Nat, ∃ v : VaultPkt, ∃ s : State, ∃ u : State, ∃ net,
    (s.pwrState ≠ 2 ∨ v.hdr.opcode = 0x0A) ∧ illegalHdr v.hdr v.cls = false ∧ s.age v.hdr ≤ s.get RTE_LIFETIME.quarter_ns ∧ netOf v.hdr.opcode = some net ∧ net ≤ 1 ∧
      (clsPhase v.cls).all (· == v.hdr.phase) = true ∧ s.phaseLegal v.hdr { role := s.role p, phase := v.hdr.phase, port := p } = true ∧ v.hdr.mcast = false ∧
      v.hdr.linkLocal = false ∧ s.role p ≠ roleHall ∧ s.isHere v.hdr.dstEp = false ∧
      s.chooseOut v.hdr { role := s.role p, phase := v.hdr.phase, port := p } net = (.noPath, u) := by
  refine ⟨1, vp { opcode := 1, dstEp := 128 }, wr, _, 0, ?_, ?_, ?_, ?_, ?_, ?_, ?_, ?_, ?_, ?_, ?_, rfl⟩ <;> decide +kernel

theorem wit_RoutingCompletes_9 : ∃ s : State,
    s.samples = [] :=
  ⟨wr, by decide +kernel⟩

theorem wit_RoutingCompletes_10 : ∃ s : State, ∃ u : State, ∃ p, ∃ c, ∃ h,
    s.samples ≠ [] ∧ State.injectCore { s with samples := [], sampleLost := 0 } (s.mgPkt 0x31 (s.get RTE_SAMPLE.collector) (bytesOf 3 s.ep ++ bytesOf 1 s.samples.length ++ bytesOf 4 (min s.sampleLost 0xFFFFFFFF) ++ (s.samples.map (bytesOf 64)).flatten)) = (.sent, u, some (p, c, h)) :=
  ⟨{ st [(RTE_DEV_ENT.present 0 16, 1), (PRT_ROLE.effective 2, roleD1), (LNK_STAT.state 2, stActive), (LNK_PEER_INFO.endpoint 2, 128), (RTE_SAMPLE.collector, 128)] wr with samples := [1] }, _, _, _, _, by decide +kernel, rfl⟩

theorem wit_RoutingCompletes_11 : ∃ s : State, ∃ u : State, ∃ w,
    s.samples ≠ [] ∧ State.injectCore { s with samples := [], sampleLost := 0 } (s.mgPkt 0x31 (s.get RTE_SAMPLE.collector) (bytesOf 3 s.ep ++ bytesOf 1 s.samples.length ++ bytesOf 4 (min s.sampleLost 0xFFFFFFFF) ++ (s.samples.map (bytesOf 64)).flatten)) = (.noRoute, u, w) :=
  ⟨{ wr with samples := [1], regs := [] }, _, _, by decide +kernel, rfl⟩

theorem wit_RoutingCompletes_12 : ∃ s : State, ∃ u : State, ∃ w,
    s.samples ≠ [] ∧ State.injectCore { s with samples := [], sampleLost := 0 } (s.mgPkt 0x31 (s.get RTE_SAMPLE.collector) (bytesOf 3 s.ep ++ bytesOf 1 s.samples.length ++ bytesOf 4 (min s.sampleLost 0xFFFFFFFF) ++ (s.samples.map (bytesOf 64)).flatten)) = (.noPath, u, w) :=
  ⟨{ st [(RTE_SAMPLE.collector, 128)] wr with samples := [1] }, _, _, by decide +kernel, rfl⟩

theorem wit_RoutingCompletes_13 : ∃ s : State, ∃ p, ∃ id, ∃ r, ∃ v,
    s.relayIn = (p, id) :: r ∧ s.stopping = false ∧ s.vaultPkt p id = some v ∧ epHall v.hdr.dstEp = s.get RTE_CFG.hall ∧ s.isHere v.hdr.dstEp = true :=
  ⟨{ wr { vault := [vp { opcode := 1 }] } with relayIn := [(1, 7)] }, _, _, _, _, rfl, by decide +kernel, rfl, by decide +kernel⟩

theorem wit_RoutingCompletes_14 : ∃ s : State, ∃ u : State, ∃ p, ∃ id, ∃ r, ∃ v, ∃ q, ∃ c, ∃ h,
    s.relayIn = (p, id) :: r ∧ s.stopping = false ∧ s.vaultPkt p id = some v ∧ epHall v.hdr.dstEp ≠ s.get RTE_CFG.hall ∧ s.isHere v.hdr.dstEp = false ∧
      State.chooseOut { s with relayIn := r } { v.hdr with injectTime := s.stamp % 2 ^ 32, epoch := s.get RTE_EPOCH.current } { role := roleHall, phase := v.hdr.phase, port := p } ((netOf v.hdr.opcode).getD 0) = (.port q c h, u) :=
  ⟨{ wrHall with relayIn := [(1, 7)] }, _, _, _, _, _, _, _, _, rfl, by decide +kernel, rfl, by decide +kernel, by decide +kernel, rfl⟩

theorem wit_RoutingCompletes_15 : ∃ s : State, ∃ k, ∃ r,
    s.mgIn = k :: r ∧ s.stopping = false :=
  ⟨{ w5 with mgIn := [mg1 0] }, _, _, rfl, by decide +kernel⟩

theorem wit_RoutingCompletes_16 : ∃ s : State, ∃ k, ∃ r,
    s.mcIn = k :: r ∧ s.stopping = false ∧ k.hdr.opcode = 0x0A ∧ s.get (RTE_MC_LOCAL.local k.hdr.mcGroup) ≠ 0 :=
  ⟨{ (st [(RTE_MC_LOCAL.local 0, 1)]) with mcIn := [mg1 0] }, _, _, rfl, by decide +kernel⟩

theorem wit_RoutingCompletes_17 : ∃ s : State, ∃ k, ∃ r,
    s.mcIn = k :: r ∧ s.stopping = false ∧ k.hdr.opcode = 9 ∧ s.get (RTE_MC_LOCAL.local k.hdr.mcGroup) ≠ 0 :=
  ⟨{ (st [(RTE_MC_LOCAL.local 0, 1)]) with mcIn := [mkPkt { opcode := 9 } []] }, _, _, rfl, by decide +kernel⟩

theorem wit_RoutingCompletes_18 : ∃ s : State, ∃ k, ∃ r,
    s.mcIn = k :: r ∧ s.stopping = false ∧ s.get (RTE_MC_PORTS.ports k.hdr.mcGroup) = 0 ∧ s.get (RTE_MC_LOCAL.local k.hdr.mcGroup) = 0 :=
  ⟨{ (st []) with mcIn := [mg1 0], clhIn := [] }, _, _, rfl, by decide +kernel⟩

theorem wit_RoutingCompletes_19 : ∃ s : State, ∃ a, ∃ r,
    s.qsRx = a :: r ∧ s.stopping = false ∧ a.msg.type ≠ 4 ∧ a.port < 64 ∧ (s.port a.port).certWait = true :=
  ⟨{ wr { certWait := true } with qsRx := [{ msg := { type := 7 }, port := 1 }] }, _, _, rfl, by decide +kernel⟩

theorem wit_RoutingCompletes_20 : ∃ s : State, ∃ a, ∃ r,
    s.qsRx = a :: r ∧ s.stopping = false ∧ a.msg.type ≠ 4 ∧ (s.port a.port).certWait = false ∧ s.isHere a.msg.dst = true ∧ a.msg.illegal = false :=
  ⟨{ w5 with qsRx := [{ msg := { type := 7 } }] }, _, _, rfl, by decide +kernel⟩

theorem wit_RoutingCompletes_21 : ∃ s : State, ∃ a, ∃ r,
    s.qsRx = a :: r ∧ s.stopping = false ∧ a.msg.type ≠ 4 ∧ (s.port a.port).certWait = false ∧ s.isHere a.msg.dst = true ∧ a.msg.illegal = true :=
  ⟨{ w5 with qsRx := [{ msg := { type := 2 ^ 5 - 1 } }] }, _, _, rfl, by decide +kernel⟩

theorem wit_RoutingCompletes_22 : ∃ s : State, ∃ a, ∃ r, ∃ p,
    s.qsRx = a :: r ∧ s.stopping = false ∧ a.msg.type ≠ 4 ∧ (s.port a.port).certWait = false ∧ s.isHere a.msg.dst = false ∧ a.msg.hops < 63 ∧
      s.role a.port ≠ roleHall ∧ s.qsPrefer (s.productive a.msg) = some p := by
  refine ⟨{ wr with qsRx := [{ msg := { type := 1, dst := 8 }, port := 2 }] }, _, _, _, rfl, ?_, ?_, ?_, ?_, ?_, ?_, rfl⟩ <;> decide +kernel

theorem wit_RoutingCompletes_23 : ∃ s : State, ∃ a, ∃ r,
    s.qsRx = a :: r ∧ s.stopping = false ∧ a.msg.type ≠ 4 ∧ (s.port a.port).certWait = false ∧ s.isHere a.msg.dst = false ∧ a.msg.hops = 63 :=
  ⟨{ wr with qsRx := [{ msg := { type := 1, dst := 8, hops := 63 } }] }, _, _, rfl, by decide +kernel⟩

theorem wit_EpochFlipCompletes_0 : ∃ s : State, ∃ u : State, ∃ m,
    s.Delivered 5 m u ∧ m.msg.payload % 2 ≠ u.get RTE_EPOCH.current ∧ u.now < m.msg.payload / 2 * 2 ∧ m.msg.payload / 2 * 2 ≤ u.now + 4000000000 ∧
      m.msg.payload < 2 ^ 64 :=
  ⟨{ w5 with qsHere := [{ msg := { type := 5, payload := 2001 } }] }, _, _, rfl, by decide +kernel⟩

theorem wit_EpochFlipCompletes_1 : ∃ s : State, ∃ u : State, ∃ m,
    s.Delivered 5 m u ∧ m.msg.payload % 2 ≠ u.get RTE_EPOCH.current ∧ m.msg.payload / 2 * 2 ≤ u.now :=
  ⟨{ w5 with qsHere := [{ msg := { type := 5, payload := 1 } }] }, _, _, rfl, by decide +kernel⟩

theorem wit_EpochFlipCompletes_2 : ∃ s : State, ∃ u : State, ∃ m,
    s.Delivered 5 m u ∧ m.msg.payload % 2 = u.get RTE_EPOCH.current ∧ u.get RTE_EPOCH.pending_valid ≠ 0 :=
  ⟨{ (st [(RTE_EPOCH.pending_valid, 1)] w5) with qsHere := [{ msg := { type := 5, payload := 0 } }] }, _, _, rfl, by decide +kernel⟩

theorem wit_EpochFlipCompletes_3 : ∃ s : State, ∃ u : State, ∃ m,
    s.Delivered 5 m u ∧ m.msg.payload % 2 ≠ u.get RTE_EPOCH.current ∧ u.now + 4000000000 < m.msg.payload / 2 * 2 :=
  ⟨{ w5 with qsHere := [{ msg := { type := 5, payload := 2 ^ 33 + 1 } }] }, _, _, rfl, by decide +kernel⟩

theorem wit_EpochFlipCompletes_4 : ∃ s : State, ∃ e : Nat, ∃ x : Nat,
    (e, x) ∈ s.boot.floods :=
  ⟨{ boot := { floods := [(1, 2)] } }, 1, 2, by decide +kernel⟩

theorem wit_EpochFlipCompletes_5 : ∃ s : State,
    s.get RTE_EPOCH.pending_valid ≠ 0 ∧ s.get RTE_FLIP_TIME.t ≤ s.now :=
  ⟨st [(RTE_EPOCH.pending_valid, 1)], by decide +kernel⟩

theorem wit_EpochFlipCompletes_6 : ∃ s : State, ∃ x : Nat,
    x < 2 ^ 64 :=
  ⟨{}, 5, by decide +kernel⟩

theorem wit_EpochFlipCompletes_7 : ∃ v : Bool, ∃ s : State,
    s.get RTE_EPOCH.draining ≠ 0 ∧ (if v then 1 else 0) ≠ s.get RTE_EPOCH.current :=
  ⟨true, st [(RTE_EPOCH.draining, 1)], by decide +kernel⟩

theorem wit_BringUpCompletes_0 : ∃ s : State, ∃ k, ∃ r,
    s.izg.activating.isSome = false ∧ s.izg.mg = k :: r ∧ k.hdr.w5 % 256 = 0x30 ∧ s.role k.port ≠ roleD0 ∧ s.get RTE_CFG.tables_open = 0 :=
  ⟨mgp (mg1 0x30 (bytesOf 8 0)) (st [(RTE_CFG.tables_open, 0)]), _, _, by decide +kernel, rfl, by decide +kernel⟩

theorem wit_BringUpCompletes_1 : ∃ s : State, ∃ k, ∃ r,
    s.izg.activating.isSome = false ∧ s.izg.mg = k :: r ∧ k.hdr.w5 % 256 = 0x30 ∧ s.role k.port = roleD0 ∧ s.get RTE_CFG.tables_open = 0 :=
  ⟨mgp (mg1 0x30 (bytesOf 8 0)) (st [(RTE_CFG.tables_open, 0)] wr), _, _, by decide +kernel, rfl, by decide +kernel⟩

theorem wit_BringUpCompletes_2 : ∃ s : State,
    s.get TOP_BOOT_STAT.coords_fixed = 0 :=
  ⟨{}, by decide +kernel⟩

theorem wit_BringUpCompletes_3 : ∃ s : State, ∃ k, ∃ r,
    s.izg.activating.isSome = false ∧ s.izg.mg = k :: r ∧ k.hdr.w5 % 256 = 0x30 ∧ s.role k.port ≠ roleD0 ∧ s.get RTE_CFG.tables_open ≠ 0 :=
  ⟨mgp (mg1 0x30 (bytesOf 8 0)) (st [(RTE_CFG.tables_open, 1)]), _, _, by decide +kernel, rfl, by decide +kernel⟩

theorem wit_BringUpCompletes_4 : ∃ s : State, ∃ k, ∃ r,
    let d := k.data; let c : CoordInfo := { valid := true, serial := leAt d 0 8, head := leAt d 8 8, endpoint := leAt d 16 3 % 2 ^ 23, d0 := if bit (leAt d 19 1) 4 then some (leAt d 19 1 % 16) else none, d1 := if bit (leAt d 20 1) 4 then some (leAt d 20 1 % 16) else none, upReady := bit (leAt d 21 1) 0, service := bit (leAt d 21 1) 1, fixed := bit (leAt d 21 1) 2 }; let asg := if bit (leAt d 22 1) 4 then some (b2n (bit (leAt d 22 1) 5), leAt d 22 1 % 16) else none; s.izg.activating.isSome = false ∧ s.izg.mg = k :: r ∧ k.hdr.w5 % 256 = 0x32 ∧ s.active k.port = true ∧ s.peer k.port ≠ 0x7FFFFF ∧ 1 ≤ s.role k.port ∧ s.role k.port ≤ 4 :=
  ⟨mgp (mg1 0x32 (bytesOf 24 0)) wr, _, _, by decide +kernel, rfl, by decide +kernel⟩

theorem wit_BringUpCompletes_5 : ∃ s : State, ∃ k, ∃ r,
    s.izg.activating.isSome = false ∧ s.izg.mg = k :: r ∧ k.hdr.w5 % 256 = 0x32 ∧ s.active k.port = false :=
  ⟨mgp (mg1 0x32 (bytesOf 24 0)), _, _, by decide +kernel, rfl, by decide +kernel⟩

theorem wit_BringUpCompletes_7 : ∃ s : State,
    (∀ p ∈ s.coordPorts, (s.port p).coordSent = some (s.coordData p)) :=
  ⟨{}, by decide +kernel⟩

theorem wit_BringUpCompletes_8 : ∃ s : State, ∃ p : Nat, ∃ c,
    s.coordPorts = [p] ∧ (s.port p).coordSent = some c ∧ c ≠ s.coordData p :=
  ⟨wr { coordSent := some [] }, 1, _, by decide +kernel, rfl, by decide +kernel⟩

theorem wit_BringUpCompletes_9 : ∃ s : State,
    s.boot.head = s.serial ∧ s.get TOP_BOOT_STAT.coord_src = 0 ∧ s.boot.assigned = none ∧ s.get TOP_STATE.svc_state = 2 ∧
      (ports64.filter fun p => s.active p && s.role p == roleD0).length = s.get RTE_CFG.n0_m1 ∧
      (ports64.filter fun p => s.active p && s.role p == roleD1).length = s.get RTE_CFG.n1_m1 :=
  ⟨st [(TOP_STATE.svc_state, 2), (RTE_CFG.n0_m1, 0), (RTE_CFG.n1_m1, 0)], by decide +kernel⟩

theorem wit_BringUpCompletes_10 : ∃ s : State, ∃ k, ∃ r,
    s.izg.activating.isSome = false ∧ s.izg.mg = k :: r ∧ k.hdr.w5 % 256 = 0x33 ∧ s.get TOP_BOOT_STAT.coord_src = 0 :=
  ⟨mgp (mg1 0x33 (bytesOf 8 0)), _, _, by decide +kernel, rfl, by decide +kernel⟩

theorem wit_BringUpCompletes_11 : ∃ s : State,
    s.coordsKnown = true ∧ s.get TOP_BOOT_STAT.coord_src = 0 ∧ s.boot.keys.length < s.groupCount :=
  ⟨let s : State := {}; { s with boot := { s.boot with d0 := some 0, d1 := some 0 } }, by decide +kernel⟩

theorem wit_BringUpCompletes_12 : ∃ s : State,
    s.coordsKnown = false :=
  ⟨{}, by decide +kernel⟩

theorem wit_BringUpCompletes_13 : ∃ s : State,
    s.get TOP_STATE.svc_state = 2 ∧ s.get TOP_BOOT_STAT.coords_fixed = 0 :=
  ⟨st [(TOP_STATE.svc_state, 2)], by decide +kernel⟩

theorem wit_BringUpCompletes_14 : ∃ s : State,
    s.get TOP_BOOT_STAT.coords_fixed ≠ 0 ∧ s.get RTE_ADVERT_EVT.changed = 0 ∧ s.get TOP_STATE.svc_state = 2 :=
  ⟨st [(TOP_STATE.svc_state, 2), (TOP_BOOT_STAT.coords_fixed, 1)], by decide +kernel⟩

theorem wit_BringUpCompletes_15 : ∃ s : State,
    s.get TOP_BRINGUP_CFG.auto_upgrade ≠ 0 ∧ s.upgradeReady = true :=
  ⟨st [(TOP_BRINGUP_CFG.auto_upgrade, 1), (TOP_STATE.svc_state, 2), (TOP_BOOT_STAT.coords_fixed, 1), (TOP_BOOT_STAT.tables_done, 1), (HMK_STAT.grandmaster, 1)], by decide +kernel⟩

theorem wit_BringUpCompletes_16 : ∃ wr : Writer, ∃ s : State,
    s.get TOP_BRINGUP_CFG.auto_upgrade = 0 ∧ s.upgradeReady = true ∧ s.Lands wr TOP_BRINGUP_CTL.reg.addr :=
  ⟨none, st [(TOP_BRINGUP_CFG.auto_upgrade, 0), (TOP_STATE.svc_state, 2), (TOP_BOOT_STAT.coords_fixed, 1), (TOP_BOOT_STAT.tables_done, 1), (HMK_STAT.grandmaster, 1)], by decide +kernel⟩

theorem wit_BringUpCompletes_18 : ∃ i : Fin 8, ∃ s : State,
    s.get TOP_STATE.upgrade_active ≠ 0 ∧ i.val ∉ s.boot.tileOn :=
  ⟨1, st [(TOP_STATE.upgrade_active, 1)], by decide +kernel⟩

theorem wit_BringUpCompletes_19 : ∃ i : Fin 8, ∃ s : State, ∃ p,
    tget s.boot.passing i.val = some p :=
  ⟨1, let s : State := {}; { s with boot := { s.boot with passing := [(1, 9)] } }, _, rfl⟩

theorem wit_BringUpCompletes_20 : ∃ s : State,
    s.get TOP_STATE.upgrade_active ≠ 0 ∧ s.get TOP_STATE.svc_state ≠ 2 :=
  ⟨st [(TOP_STATE.upgrade_active, 1)], by decide +kernel⟩

theorem wit_BringUpCompletes_21 : ∃ s : State,
    s.get TOP_STATE.upgrade_active ≠ 0 ∧ s.get TOP_STATE.svc_state = 2 ∧ s.pwrState ≠ 2 :=
  ⟨st [(TOP_STATE.upgrade_active, 1), (TOP_STATE.svc_state, 2), (TOP_STATE.pwr_state, 0)], by decide +kernel⟩

theorem wit_HallmarkCompletes_0 : ∃ edges : Nat, ∃ s : State, ∃ e : State,
    e = s.hmkElect ∧ (s.get HMK_CFG.ext_10m_en = 0 ∨ (e.clk - e.hmk.periodAt) / 40 = 0) :=
  ⟨0, {}, _, rfl, by decide +kernel⟩

theorem wit_HallmarkCompletes_1 : ∃ edges : Nat, ∃ c : Nat, ∃ s : State, ∃ e : State,
    e = s.hmkElect ∧ s.get HMK_CFG.ext_10m_en ≠ 0 ∧ c = (e.clk - e.hmk.periodAt) / 40 ∧ c ≠ 0 :=
  ⟨400, _, { st [(HMK_CFG.ext_10m_en, 1)] with clk := 400 }, _, rfl, by decide +kernel, rfl, by decide +kernel⟩

theorem wit_HallmarkCompletes_2 : ∃ p : Nat, ∃ w : Nat, ∃ s : State,
    s.qsInj.length < 4096 :=
  ⟨1, 0, {}, by decide +kernel⟩

theorem wit_HallmarkCompletes_3 : ∃ s : State, ∃ k, ∃ d, ∃ p,
    hmkBest s.hmkCands = some (k, d, p) ∧ (s.hmkPrio = 255 ∨ s.epShown = 0x7FFFFF ∨ k ≤ hmkKey s.hmkPrio s.epShown) :=
  ⟨st [(HMK_PORT.time_en 1, 1), (HMK_CFG.prio, 255)] (wr { hmkForm1 := some { prio := 1, gm := 9 } }), _, _, _, rfl, by decide +kernel⟩

theorem wit_HallmarkCompletes_4 : ∃ s : State, ∃ k, ∃ d, ∃ p,
    hmkBest s.hmkCands = some (k, d, p) ∧ s.hmkPrio ≠ 255 ∧ s.epShown ≠ 0x7FFFFF ∧ hmkKey s.hmkPrio s.epShown < k :=
  ⟨st [(HMK_PORT.time_en 1, 1), (HMK_CFG.prio, 0)] (wr { hmkForm1 := some { prio := 1, gm := 9 } }), _, _, _, rfl, by decide +kernel⟩

theorem wit_HallmarkCompletes_5 : ∃ s : State, ∃ u : State, ∃ m,
    let f : Form1 := { hi := bf m.msg.payload 0 24, prio := bf m.msg.payload 24 8, gm := bf m.msg.payload 32 23, depth := bf m.msg.payload 55 6 }; s.hmkTake true = some (m, u) ∧ u.hmkTakes m.port = true :=
  ⟨{ (st [(HMK_PORT.time_en 1, 1)] wr) with qsHere := [{ msg := { type := 4, payload := 2 ^ 63 }, port := 1 }] }, _, _, rfl, by decide +kernel⟩

theorem wit_HallmarkCompletes_6 : ∃ p : PortNo, ∃ s : State, ∃ f,
    (s.port p.val).hmkForm1 = some f :=
  ⟨1, wr { hmkForm1 := some {} }, _, rfl⟩

theorem wit_HallmarkCompletes_7 : ∃ s : State,
    s.get HMK_STAT.parent_valid ≠ 0 :=
  ⟨st [(HMK_STAT.parent_valid, 1)], by decide +kernel⟩

theorem wit_HallmarkCompletes_8 : ∃ s : State, ∃ u : State, ∃ m, ∃ btx : Nat,
    let v := u.bump HMK_CNT_SYNC_RX.ev; let p := m.port; let atx := bf m.msg.payload 0 40; let ta := bf m.msg.payload 40 23; let rtt : Int := (m.rx : Int) - (btx : Int) - (ta : Int); let d : Int := rtt.tdiv 2 + signed 16 (v.get (HMK_PORT.asym p)); let θ := signed 40 (trunc 40 ((atx : Int) + d - (m.rx : Int))); let q := (v.port p).hmkFilter rtt; s.hmkTake false = some (m, u) ∧ v.hmkTakes p = true ∧ ta ≠ 0x7FFFFF ∧ (v.port p).hmkTx.find? (fun t => decide (t + ta ≤ m.rx)) = some btx ∧ q.1 = true ∧ v.get HMK_STAT.parent_valid ≠ 0 ∧ v.get HMK_STAT.parent_port = p :=
  ⟨{ (st [(HMK_PORT.time_en 1, 1), (HMK_STAT.parent_valid, 1), (HMK_STAT.parent_port, 1)] (wr { hmkTx := [5] })) with qsHere := [{ msg := { type := 4, payload := 3 * 2 ^ 40 }, port := 1, rx := 10 }] }, _, _, 5, rfl, by decide +kernel⟩

theorem wit_HallmarkCompletes_12 : ∃ s : State, ∃ θ : Int, ∃ p : Nat,
    θ.natAbs ≤ 4 ∧ s.hmk.good = 7 ∧ s.get HMK_STAT.locked = 0 :=
  ⟨{ ({} : State) with hmk := { good := 7 } }, 4, 1, by decide +kernel⟩

theorem wit_HallmarkCompletes_13 : ∃ wr : Writer, ∃ s : State,
    s.get HMK_STAT.parent_valid = 0 ∧ (s.get HMK_STAT.valid = 0 ∨ s.now ≤ s.get HMK_SET.t) ∧ s.Lands wr HMK_CTL.reg.addr :=
  ⟨none, w5, by decide +kernel⟩

theorem wit_HallmarkCompletes_14 : ∃ wr : Writer, ∃ s : State,
    (s.get HMK_STAT.parent_valid ≠ 0 ∨ (s.get HMK_STAT.valid ≠ 0 ∧ s.get HMK_SET.t < s.now)) ∧ s.Lands wr HMK_CTL.reg.addr :=
  ⟨none, st [(HMK_STAT.parent_valid, 1)], by decide +kernel⟩

theorem wit_HallmarkCompletes_15 : ∃ wr : Writer, ∃ s : State,
    s.Lands wr HMK_CTL.reg.addr :=
  ⟨none, w5, by decide +kernel⟩

theorem wit_HallmarkCompletes_16 : ∃ s : State,
    s.get HMK_CFG.ext_en = 0 ∧ s.get HMK_CTL.pending ≠ 0 ∧ s.get HMK_STAT.parent_valid = 0 ∧ s.get HMK_STAT.valid = 0 :=
  ⟨st [(HMK_CTL.pending, 1)], by decide +kernel⟩

theorem wit_HallmarkCompletes_17 : ∃ s : State,
    s.get HMK_CFG.ext_en ≠ 0 ∧ s.get HMK_CTL.pending = 0 ∧ s.get HMK_STAT.grandmaster ≠ 0 ∧ 2 * (s.now % 4000000000) < 4000000000 :=
  ⟨st [(HMK_CFG.ext_en, 1), (HMK_STAT.grandmaster, 1)], by decide +kernel⟩

theorem wit_HallmarkCompletes_18 : ∃ s : State, ∃ x,
    s.get HMK_CFG.ext_en ≠ 0 ∧ s.hmk.lastEdge = some x :=
  ⟨{ (st [(HMK_CFG.ext_en, 1)]) with hmk := { lastEdge := some 0 } }, _, by decide +kernel, rfl⟩

theorem wit_HallmarkCompletes_19 : ∃ s : State, ∃ m,
    s.ppsOn = true ∧ s.passed (s.get HMK_PPS_OUT.period_us) = some m ∧ s.hmk.ppsMark ≠ some m :=
  ⟨{ st [(HMK_PPS_OUT.enable, 1), (HMK_PPS_OUT.period_us, 1000), (HMK_PPS_OUT.width_ns, 5), (HMK_NOW.reg, 4000001)] with hmk := {} }, _, by decide +kernel, rfl, by decide +kernel⟩

theorem wit_HallmarkCompletes_20 : ∃ s : State,
    s.passed (s.get HMK_PPS_OUT.period_us) = none :=
  ⟨{}, by decide +kernel⟩

theorem wit_HallmarkCompletes_21 : ∃ s : State, ∃ us : Nat,
    us ≠ 0 :=
  ⟨{}, 1, by decide +kernel⟩

theorem wit_HallmarkCompletes_22 : ∃ i : Fin 8, ∃ s : State,
    s.get (HMK_TIMER1.enable i.val) ≠ 0 ∧ s.get (HMK_TIMER0.t i.val) ≤ s.now :=
  ⟨0, st [(HMK_TIMER1.enable 0, 1)], by decide +kernel⟩

theorem wit_ClearingHouseCompletes_0 : ∃ s : State, ∃ r, ∃ rest,
    s.clhIn = r :: rest ∧ s.dom 1 ≠ dOff ∧ r.sev ≠ 5 :=
  ⟨{ (st [(PWR_DOM.state 1, dOn)]) with clhIn := [{ sev := 1 }] }, _, _, rfl, by decide +kernel⟩

theorem wit_ClearingHouseCompletes_1 : ∃ s : State, ∃ r, ∃ rest,
    s.clhIn = r :: rest ∧ s.dom 1 ≠ dOff ∧ r.sev = 5 :=
  ⟨{ (st [(PWR_DOM.state 1, dOn)]) with clhIn := [{ sev := 5 }] }, _, _, rfl, by decide +kernel⟩

theorem wit_ClearingHouseCompletes_2 : ∃ s : State, ∃ r, ∃ rest,
    s.clhIn = r :: rest ∧ s.dom 1 = dOff ∧ r.sev ≠ 5 ∧ r.sev < 16 :=
  ⟨{ (st [(PWR_DOM.state 1, dOff)]) with clhIn := [{ sev := 1 }] }, _, _, rfl, by decide +kernel⟩

theorem wit_ClearingHouseCompletes_3 : ∃ s : State, ∃ r : Record,
    tget s.clh.live (s.get CLH_PROD.prod % 4096) = none :=
  ⟨{}, {}, by decide +kernel⟩

theorem wit_ClearingHouseCompletes_4 : ∃ s : State, ∃ r : Record, ∃ k,
    tget s.clh.live (s.get CLH_PROD.prod % 4096) = some k :=
  ⟨{ ({} : State) with clh := { live := [(0, 1)] } }, {}, _, rfl⟩

theorem wit_ClearingHouseCompletes_5 : ∃ wr : Writer, ∃ v : Word, ∃ s : State,
    subMod m32 (v.toNat % 2 ^ 32) (s.get CLH_ACK.ack) ≤ subMod m32 (s.get CLH_PROD.prod) (s.get CLH_ACK.ack) ∧ s.Lands wr CLH_ACK.reg.addr :=
  ⟨none, 1, st [(CLH_PROD.prod, 1)], by decide +kernel⟩

theorem wit_ClearingHouseCompletes_6 : ∃ wr : Writer, ∃ v : Word, ∃ s : State,
    subMod m32 (s.get CLH_PROD.prod) (s.get CLH_ACK.ack) < subMod m32 (v.toNat % 2 ^ 32) (s.get CLH_ACK.ack) ∧ s.Lands wr CLH_ACK.reg.addr :=
  ⟨none, 9, w5, by decide +kernel⟩

theorem wit_ClearingHouseCompletes_7 : ∃ s : State,
    s.clh.flashQ ≠ [] ∧ s.pwr.pwrfail = false :=
  ⟨{ ({} : State) with clh := { flashQ := [{}] } }, by decide +kernel⟩

theorem wit_ClearingHouseCompletes_8 : ∃ s : State,
    s.clh.flashQ ≠ [] ∧ s.pwr.pwrfail = false :=
  ⟨{ ({} : State) with clh := { flashQ := [{}] } }, by decide +kernel⟩

theorem wit_AssayTallyCompletes_0 : ∃ wr : Writer, ∃ s : State,
    s.Lands wr ASY_CTL.reg.addr :=
  ⟨none, w5, by decide +kernel⟩

theorem wit_AssayTallyCompletes_1 : ∃ wr : Writer, ∃ s : State,
    s.Lands wr ASY_CTL.reg.addr :=
  ⟨none, w5, by decide +kernel⟩

theorem wit_AssayTallyCompletes_2 : ∃ s : State,
    s.get ASY_CFG.pin_in_en ≠ 0 :=
  ⟨st [(ASY_CFG.pin_in_en, 1)], by decide +kernel⟩

theorem wit_AssayTallyCompletes_3 : ∃ s : State, ∃ src : Nat,
    src < 4 ∧ s.get ASY_STAT.armed ≠ 0 ∧ s.get ASY_CFG.pin_out_en = 0 :=
  ⟨st [(ASY_STAT.armed, 1)], 3, by decide +kernel⟩

theorem wit_AssayTallyCompletes_4 : ∃ s : State, ∃ src : Nat,
    s.get ASY_STAT.armed = 0 ∧ s.hmk.capturedAt ≠ some s.clk :=
  ⟨{}, 0, by decide +kernel⟩

theorem wit_AssayTallyCompletes_5 : ∃ s : State, ∃ src : Nat,
    s.get ASY_STAT.armed = 0 ∧ s.hmk.capturedAt = some s.clk :=
  ⟨{ hmk := { capturedAt := some 0 } }, 0, by decide +kernel⟩

theorem wit_AssayTallyCompletes_6 : ∃ s : State,
    s.get ASY_AT.valid ≠ 0 ∧ 2 * s.get ASY_AT.t ≤ s.now ∧ s.get ASY_STAT.armed ≠ 0 ∧ s.get ASY_CFG.pin_out_en = 0 :=
  ⟨st [(ASY_AT.valid, 1), (ASY_STAT.armed, 1), (ASY_CFG.pin_out_en, 0)], by decide +kernel⟩

theorem wit_AssayTallyCompletes_7 : ∃ s : State, ∃ u : State, ∃ m,
    s.Delivered 6 m u ∧ u.get ASY_CFG.qs_en ≠ 0 ∧ bit m.msg.payload 0 = false ∧ u.now < m.msg.payload / 2 * 2 ∧ m.msg.payload / 2 * 2 ≤ u.now + 4000000000 ∧
      m.msg.payload < 2 ^ 64 :=
  ⟨{ (st [(ASY_CFG.qs_en, 1)]) with qsHere := [{ msg := { type := 6, payload := 2000 } }] }, _, _, rfl, by decide +kernel⟩

theorem wit_AssayTallyCompletes_8 : ∃ s : State, ∃ w : Nat,
    (w % 2, w / 2 * 2) ∈ s.boot.asyFloods :=
  ⟨{ boot := { asyFloods := [(1, 4)] } }, 5, by decide +kernel⟩

theorem wit_AssayTallyCompletes_9 : ∃ wr : Writer, ∃ i : Fin 1024, ∃ part : Part, ∃ v : Word, ∃ s : State,
    s.Lands wr (TLY_CNT.reg i.val).addr :=
  ⟨none, 1023, .high, 7, w5, by decide +kernel⟩

theorem wit_AssayTallyCompletes_10 : ∃ wr : Writer, ∃ s : State,
    s.Lands wr TLY_LATCH_CTL.reg.addr :=
  ⟨none, w5, by decide +kernel⟩

theorem wit_AssayTallyCompletes_11 : ∃ s : State, ∃ m,
    s.passed (s.get TLY_LATCH_CTL.period_us) = some m ∧ s.hmk.tlyMark ≠ some m :=
  ⟨{ st [(TLY_LATCH_CTL.period_us, 1), (HMK_NOW.reg, 4001)] with hmk := {} }, _, rfl, by decide +kernel⟩

theorem wit_AssayTallyCompletes_12 : ∃ s : State,
    s.passed (s.get TLY_LATCH_CTL.period_us) = none :=
  ⟨{}, by decide +kernel⟩

theorem wit_ResetCommandsComplete_0 : ∃ lost : Bool, ∃ s : State,
    s.boot.por = false :=
  ⟨false, bt 2, by decide +kernel⟩

theorem wit_ResetCommandsComplete_1 : ∃ straps : BitVec 6, ∃ s : State,
    s.boot.por = true :=
  ⟨0, { ({} : State) with boot := { por := true } }, by decide +kernel⟩

theorem wit_ResetCommandsComplete_2 : ∃ s : State,
    s.boot.por = false ∧ 1 ≤ s.boot.railStep ∧ s.boot.railStep ≤ 4 :=
  ⟨bt 1 fun b => { b with railStep := 1 }, by decide +kernel⟩

theorem wit_ResetCommandsComplete_3 : ∃ s : State,
    s.boot.por = false ∧ 5 ≤ s.boot.railStep :=
  ⟨bt 1 fun b => { b with railStep := 5 }, by decide +kernel⟩

theorem wit_ResetCommandsComplete_4 : ∃ s : State,
    s.boot.por = false ∧ 1 ≤ s.boot.railStep ∧ s.boot.railStep < 8 :=
  ⟨bt 1 fun b => { b with railStep := 5 }, by decide +kernel⟩

theorem wit_ResetCommandsComplete_5 : ∃ wr : Writer, ∃ v : Word, ∃ s : State,
    bf v.toNat 0 16 = 0xC0DE ∧ s.boot.por = false ∧ s.pwr.tripped = false ∧ s.boot.resetDue = none ∧ s.Lands wr TOP_RESET_CTL.reg.addr :=
  ⟨none, 0xC0DE, bt 8, by decide +kernel⟩

theorem wit_ResetCommandsComplete_6 : ∃ wr : Writer, ∃ v : Word, ∃ s : State,
    bf v.toNat 0 16 ≠ 0xC0DE ∧ s.Lands wr TOP_RESET_CTL.reg.addr :=
  ⟨none, 0, bt 8, by decide +kernel⟩

theorem wit_ResetCommandsComplete_7 : ∃ s : State, ∃ c,
    s.boot.resetDue = some c ∧ s.boot.por = false ∧ s.pwr.tripped = false ∧ s.boot.railsUp = true ∧ c < 8 :=
  ⟨bt 8 fun b => { b with resetDue := some 3 }, _, rfl, by decide +kernel⟩

theorem wit_ResetCommandsComplete_8 : ∃ s : State,
    s.boot.resetDue = none ∧ s.boot.por = false ∧ s.pwr.tripped = false ∧ s.boot.railsUp = true ∧ (s.clhIn.any fun r => r.sev == 5) = true :=
  ⟨{ bt 8 with clhIn := [{ sev := 5 }] }, by decide +kernel⟩

theorem wit_ResetCommandsComplete_9 : ∃ s : State,
    s.stopping = false :=
  ⟨bt 8, by decide +kernel⟩

theorem wit_ResetCommandsComplete_10 : ∃ s : State,
    s.boot.railsUp = false :=
  ⟨{ boot := { railsUp := false } }, by decide +kernel⟩

theorem wit_BootStagesComplete_0 : ∃ s : State,
    s.inStage 2 = true :=
  ⟨bt 2, by decide +kernel⟩

theorem wit_BootStagesComplete_1 : ∃ f : Fuses, ∃ s : State,
    s.inStage 3 = true ∧ s.boot.fuses = none ∧ s.get TOP_STRAP.boot = 0 ∧ s.bootBanks ≠ [] :=
  ⟨fu, bt 3, by decide +kernel⟩

theorem wit_BootStagesComplete_2 : ∃ f : Fuses, ∃ s : State,
    s.inStage 3 = true ∧ s.get TOP_STRAP.boot ≠ 0 :=
  ⟨fu, bt 3 id [(TOP_STRAP.boot, 1)], by decide +kernel⟩

theorem wit_BootStagesComplete_3 : ∃ img : FlashRead, ∃ s : State, ∃ b, ∃ r,
    s.firstWaits = true ∧ s.bootBanks = b :: r ∧ s.izg.bankState.getD b 0 ≠ bkPENDING :=
  ⟨none, bt 4, _, _, by decide +kernel, rfl, by decide +kernel⟩

theorem wit_BootStagesComplete_4 : ∃ img : FlashRead, ∃ s : State, ∃ b, ∃ r,
    s.firstWaits = true ∧ s.bootBanks = b :: r ∧ s.izg.bankValid = true ∧ s.izg.bankState.getD b 0 = bkPENDING :=
  ⟨none, { (bt 4) with izg := { bankValid := true, bankState := [3, 4], bankTries := 2 } }, _, _, by decide +kernel, rfl, by decide +kernel⟩

theorem wit_BootStagesComplete_6 : ∃ b : List Byte, ∃ kind : Nat, ∃ s : State, ∃ f : Fuses,
    (kind = envFIRST ∨ kind = envMAIN) ∧ s.get SEC_LIFECYCLE.state = 2 ∧ s.boot.fuses = some f :=
  ⟨[], envFIRST, { st [(SEC_LIFECYCLE.state, 2)] with boot := { fuses := some fu } }, fu, .inl rfl, by decide +kernel, rfl⟩

theorem wit_BootStagesComplete_10 : ∃ img : FlashRead, ∃ s : State,
    s.imageOk img envFIRST = false :=
  ⟨none, bt 4, by decide +kernel⟩

theorem wit_BootStagesComplete_12 : ∃ img : FlashRead, ∃ s : State,
    s.inStage 6 = true ∧ s.imageOk img envMAIN = false :=
  ⟨none, bt 6, by decide +kernel⟩

theorem wit_BootStagesComplete_13 : ∃ img : List Byte, ∃ s : State,
    s.pwr.pwrfailPin = false :=
  ⟨[], bt 6, by decide +kernel⟩

theorem wit_BootStagesComplete_14 : ∃ p : ProvRead, ∃ s : State,
    s.inStage 7 = true ∧ s.get TOP_STRAP.safe ≠ 0 :=
  ⟨prv true, bt 7 id [(TOP_STRAP.safe, 1)], by decide +kernel⟩

theorem wit_BootStagesComplete_15 : ∃ p : ProvRead, ∃ s : State,
    s.inStage 7 = true ∧ s.get TOP_STRAP.safe = 0 ∧ s.envOk envSTORE (p.store.getD []) = false :=
  ⟨prv false, bt 7, by decide +kernel, by decide +kernel, rfl⟩

theorem wit_BootStagesComplete_16 : ∃ p : ProvRead, ∃ s : State,
    s.inStage 7 = true ∧ s.get TOP_STRAP.safe = 0 ∧ s.envOk envSTORE (p.store.getD []) = true :=
  ⟨prv true, { bt 7 with boot := { (bt 7).boot with fuses := some fu } }, by decide +kernel, by decide +kernel, im_ok (.inr (.inr rfl)) (by decide +kernel) rfl⟩

theorem wit_BootStagesComplete_19 : ∃ s : State,
    let w := s.writeTables; let u := State.enterSvc (State.bootQueue (if s.boot.bootFault = 0 then w else w.raise kIMAGE_BAD (srcOf 4 0) 0 0)) 2; let r := (u.presentHls.filter fun n => u.on (HBI_LINK_STAT.dl_up n) && !(u.hl n).ready).foldl State.hostReady u; let v := (ports64.filter w.provisioned).foldl State.startReset r; s.inStage 8 = true ∧ s.get TOP_STATE.svc_state = 1 :=
  ⟨bt 8 id [(TOP_STATE.svc_state, 1)], by decide +kernel⟩

theorem wit_FirmwareCompletes_0 : ∃ wr : Writer, ∃ b : Fin 2, ∃ s : State,
    s.fwTakes = true ∧ s.pwr.pwrfail = false ∧ s.awaitsImage = false ∧ (s.fwCmd b.val 1).bankHeld b.val = false ∧ s.Lands wr IZG_FW_CTL.reg.addr :=
  ⟨none, 1, iz, by decide +kernel⟩

theorem wit_FirmwareCompletes_1 : ∃ wr : Writer, ∃ b : Fin 2, ∃ s : State,
    s.fwTakes = true ∧ s.pwr.pwrfail = false ∧ s.awaitsImage = false ∧ (s.fwCmd b.val 1).bankHeld b.val = true ∧ s.Lands wr IZG_FW_CTL.reg.addr :=
  ⟨none, 0, iz, by decide +kernel⟩

theorem wit_FirmwareCompletes_3 : ∃ img : FlashRead, ∃ s : State, ∃ b, ∃ r,
    s.izg.loading = some b ∧ s.pwr.pwrfail = false ∧ s.imageResult img s.loadKinds 7 = some r :=
  ⟨none, iz fun z => { z with loading := some 1 }, _, 7, rfl, by decide +kernel⟩

theorem wit_FirmwareCompletes_6 : ∃ wr : Writer, ∃ b : Fin 2, ∃ img : FlashRead, ∃ s : State,
    s.fwTakes = true ∧ s.izgRuns = true ∧ s.pwr.pwrfail = false ∧ s.bankSt b.val = bkREADY ∧ s.get IZG_PAIR_STAT.standby_ok = 0 ∧ s.Lands wr IZG_FW_CTL.reg.addr :=
  ⟨none, 1, none, iz id [(IZG_PAIR_STAT.standby_ok, 0)], by decide +kernel⟩

theorem wit_FirmwareCompletes_7 : ∃ s : State, ∃ f,
    s.izg.activating = some f ∧ s.pwr.pwrfail = false :=
  ⟨iz fun z => { z with activating := some {} }, _, rfl, by decide +kernel⟩

theorem wit_FirmwareCompletes_8 : ∃ s : State, ∃ f : FwImg,
    f.bank < 2 ∧ f.svn < 256 :=
  ⟨{}, {}, by decide +kernel⟩

theorem wit_FirmwareCompletes_9 : ∃ wr : Writer, ∃ b : Fin 2, ∃ ok : Bool, ∃ s : State,
    s.fwTakes = true ∧ s.izgRuns = true ∧ s.pwr.pwrfail = false ∧ s.bankSt b.val = bkPENDING ∧ s.get IZG_FW_CFG.auto_floor = 0 ∧ s.Lands wr IZG_FW_CTL.reg.addr :=
  ⟨none, 0, true, iz (fun z => { z with bankState := [3, 4] }) [(IZG_FW_CFG.auto_floor, 0)], by decide +kernel⟩

theorem wit_FirmwareCompletes_10 : ∃ wr : Writer, ∃ b : Fin 2, ∃ ok : Bool, ∃ s : State,
    s.fwTakes = true ∧ s.izgRuns = true ∧ s.pwr.pwrfail = false ∧ s.bankSt b.val ≠ bkPENDING ∧ s.Lands wr IZG_FW_CTL.reg.addr :=
  ⟨none, 1, true, iz, by decide +kernel⟩

theorem wit_FirmwareCompletes_11 : ∃ wr : Writer, ∃ v : Word, ∃ s : State,
    s.fwTakes = true ∧ bit v.toNat 62 = true ∧ (bf v.toNat 1 3 = 0 ∨ 3 < bf v.toNat 1 3) ∧ s.Lands wr IZG_FW_CTL.reg.addr :=
  ⟨none, 0x4000000000000000, iz, by decide +kernel⟩

theorem wit_FirmwareCompletes_12 : ∃ ok : Bool, ∃ s : State,
    s.izgRuns = true ∧ s.pwr.pwrfail = false ∧ s.izg.activating.isSome = false ∧ s.bankSt (s.get IZG_FW_STAT.bank) = bkPENDING ∧ s.izg.pairFailed = true :=
  ⟨true, iz (fun z => { z with bankState := [3, 4], pairFailed := true }), by decide +kernel⟩

theorem wit_FirmwareCompletes_13 : ∃ ok : Bool, ∃ s : State,
    s.izgRuns = true ∧ s.pwr.pwrfail = false ∧ s.izg.activating.isSome = false ∧ s.bankSt (s.get IZG_FW_STAT.bank) = bkPENDING ∧ s.izg.pairFailed = false ∧
      s.get IZG_FW_CFG.auto_floor = 0 :=
  ⟨true, iz (fun z => { z with bankState := [3, 4] }) [(IZG_FW_CFG.auto_floor, 0)], by decide +kernel⟩

theorem wit_ServiceCompletes_0 : ∃ s : State,
    s.izgRuns = true ∧ s.get IZG_PAIR_STAT.standby_ok ≠ 0 :=
  ⟨iz id [(IZG_PAIR_STAT.standby_ok, 1)], by decide +kernel⟩

theorem wit_ServiceCompletes_1 : ∃ p : Fin 2, ∃ s : State,
    s.boot.por = false ∧ s.pwr.tripped = false ∧ s.boot.railsUp = true ∧ s.pairUp p.val = true ∧ s.get IZG_PAIR_STAT.active = p.val ∧
      s.get IZG_PAIR_STAT.standby_ok ≠ 0 ∧ s.izg.activating = none :=
  ⟨0, iz id [(IZG_PAIR_STAT.standby_ok, 1)], by decide +kernel⟩

theorem wit_ServiceCompletes_2 : ∃ p : Fin 2, ∃ s : State,
    s.boot.por = false ∧ s.pwr.tripped = false ∧ s.boot.railsUp = true ∧ s.pairUp p.val = true ∧ s.get IZG_PAIR_STAT.active = p.val ∧
      s.get IZG_PAIR_STAT.standby_ok = 0 ∧ s.boot.resetDue = none :=
  ⟨0, iz id [(IZG_PAIR_STAT.standby_ok, 0)], by decide +kernel⟩

theorem wit_ServiceCompletes_3 : ∃ p : Fin 2, ∃ s : State,
    p.val ∈ s.izg.watch :=
  ⟨0, iz, by decide +kernel⟩

theorem wit_ServiceCompletes_4 : ∃ p : Fin 2, ∃ s : State,
    s.pairUp p.val = true :=
  ⟨0, iz, by decide +kernel⟩

theorem wit_ServiceCompletes_5 : ∃ wr : Writer, ∃ s : State,
    s.izgRuns = true ∧ s.get IZG_PAIR_STAT.standby_ok ≠ 0 ∧ s.izg.activating = none ∧ s.Lands wr IZG_PAIR_CTL.reg.addr :=
  ⟨none, iz id [(IZG_PAIR_STAT.standby_ok, 1)], by decide +kernel⟩

theorem wit_ServiceCompletes_6 : ∃ p : Fin 2, ∃ pass : Bool, ∃ s : State,
    p.val ∈ s.izg.selfTest :=
  ⟨0, true, iz fun z => { z with selfTest := [0] }, by decide +kernel⟩

theorem wit_ServiceCompletes_7 : ∃ p : Fin 2, ∃ s : State,
    p.val ∉ s.izg.selfTest ∧ s.izg.testing = some p.val :=
  ⟨1, iz fun z => { z with testing := some 1, selfTest := [] }, by decide +kernel⟩

theorem wit_ServiceCompletes_8 : ∃ p : Fin 2, ∃ s : State,
    p.val ∉ s.izg.selfTest ∧ s.izg.testing = some p.val :=
  ⟨1, iz fun z => { z with testing := some 1, selfTest := [] }, by decide +kernel⟩

theorem wit_ServiceCompletes_9 : ∃ k : Fin 9, ∃ s : State,
    s.get IZG_SLICE_STAT.spare < 9 ∧ s.get IZG_SLICE_STAT.spare ≠ k.val ∧ bit (s.get IZG_SLICE_STAT.in_use) k.val = true :=
  ⟨0, st [(IZG_SLICE_STAT.spare, 8), (IZG_SLICE_STAT.in_use, 255)], by decide +kernel⟩

theorem wit_ServiceCompletes_10 : ∃ k : Fin 9, ∃ s : State,
    9 ≤ s.get IZG_SLICE_STAT.spare ∧ bit (s.get IZG_SLICE_STAT.in_use) k.val = true :=
  ⟨0, st [(IZG_SLICE_STAT.spare, 15), (IZG_SLICE_STAT.in_use, 255)], by decide +kernel⟩

theorem wit_ServiceCompletes_11 : ∃ ok : Bool, ∃ s : State, ∃ k,
    s.izg.sliceTest = some k ∧ k < 9 :=
  ⟨true, iz fun z => { z with sliceTest := some 1 }, _, rfl, by decide +kernel⟩

theorem wit_ServiceCompletes_12 : ∃ wr : Writer, ∃ v : Word, ∃ s : State,
    bit v.toNat 62 = true ∧ s.get IZG_SLICE_STAT.spare < 9 ∧ bf v.toNat 0 4 < 9 ∧ bit (s.get IZG_SLICE_STAT.in_use) (bf v.toNat 0 4) = true ∧
      s.Lands wr IZG_SLICE_CTL.reg.addr :=
  ⟨none, 0x4000000000000000, st [(IZG_SLICE_STAT.spare, 8), (IZG_SLICE_STAT.in_use, 255)], by decide +kernel⟩

theorem wit_ServiceCompletes_13 : ∃ wr : Writer, ∃ v : Word, ∃ s : State,
    bit v.toNat 62 = true ∧ 9 ≤ s.get IZG_SLICE_STAT.spare ∧ s.Lands wr IZG_SLICE_CTL.reg.addr :=
  ⟨none, 0x4000000000000000, st [(IZG_SLICE_STAT.spare, 15)], by decide +kernel⟩

theorem wit_ServiceCompletes_14 : ∃ b : Fin 24, ∃ row : Fin 8192, ∃ w : Fin 128, ∃ s : State,
    s.rowCount b.val row.val + 1 < s.get IZG_SRAM_CFG.ce_limit :=
  ⟨0, 0, 0, st [(IZG_SRAM_CFG.ce_limit, 16)], by decide +kernel⟩

theorem wit_ServiceCompletes_15 : ∃ b : Fin 24, ∃ row : Fin 8192, ∃ w : Fin 128, ∃ s : State,
    4 ≤ b.val ∧ (b.val < 6 ∨ 10 ≤ b.val) ∧ s.get (IZG_SRAM_SPARE.used b.val) < 63 :=
  ⟨4, 0, 0, {}, by decide +kernel⟩

theorem wit_ServiceCompletes_16 : ∃ b : Nat, ∃ s : State,
    (∀ p, p < 64 → (p / 16 = b ∨ (6 ≤ b ∧ b < 10 ∧ (0 < s.get (LNK_REACH.granted p) ∨ s.role p = roleHall))) → (s.port p).vault = []) :=
  ⟨0, {}, fun _ _ _ => rfl⟩

theorem wit_ServiceCompletes_19 : ∃ s : State,
    s.izgRuns = true ∧ s.pwr.pwrfail = false ∧ s.izg.repairQ ≠ [] :=
  ⟨iz fun z => { z with repairQ := [(1, 2)] }, by decide +kernel⟩

theorem wit_SecurityCompletes_0 : ∃ c : SecCmd, ∃ s : State, ∃ x : Nat × Instr,
    x ∈ [(1, Instr.enroll c), (2, .revoke c), (3, .raiseFloor c), (4, .unlock c), (5, .rma c)] ∧ s.Lands (c.via.getD none) SEC_CMD.reg.addr ∧ s.get SEC_CMD.done ≠ 0 ∧
      s.secCode = x.1 :=
  ⟨{ fuseOk := true, via := some none }, sec 1, (1, .enroll { fuseOk := true, via := some none }), by decide +kernel⟩

theorem wit_SecurityCompletes_1 : ∃ s : State, ∃ k : Nat, ∃ mg : Bool,
    s.get SEC_LIFECYCLE.state = 2 :=
  ⟨st [(SEC_LIFECYCLE.state, 2)], 1, false, by decide +kernel⟩

theorem wit_SecurityCompletes_8 : ∃ s : State, ∃ f,
    s.boot.fuses = some f :=
  ⟨{ boot := { fuses := some fu } }, _, rfl⟩

theorem wit_SecurityCompletes_10 : ∃ c : SecCmd, ∃ s : State,
    s.Lands (c.via.getD none) SEC_CMD.reg.addr ∧ s.get SEC_CMD.done ≠ 0 ∧ s.secCode = 0 :=
  ⟨{ fuseOk := true, via := some none }, sec 9, by decide +kernel⟩

theorem wit_SecurityCompletes_11 : ∃ s : State, ∃ r : Nat,
    r < 16 :=
  ⟨{}, 5, by decide +kernel⟩

theorem wit_SecurityCompletes_12 : ∃ s : State, ∃ k, ∃ r,
    s.izg.activating.isSome = false ∧ s.izg.mg = k :: r ∧ k.hdr.w5 % 256 = 0x34 ∧ s.active k.port = true :=
  ⟨mgp (mg1 0x34) wr, _, _, by decide +kernel, rfl, by decide +kernel⟩

theorem wit_SecurityCompletes_14 : ∃ s : State, ∃ k, ∃ r,
    s.izg.activating.isSome = false ∧ s.izg.mg = k :: r ∧ k.hdr.w5 % 256 = 0x35 ∧ s.active k.port = true ∧ (s.port k.port).certWait = true :=
  ⟨mgp (mg1 0x35) (wr { certWait := true }), _, _, by decide +kernel, rfl, by decide +kernel⟩

theorem wit_SecurityCompletes_16 : ∃ p : PortNo, ∃ s : State,
    s.active p.val = true ∧ (s.port p.val).certWait = true :=
  ⟨1, wr { certWait := true }, by decide +kernel⟩

theorem wit_SecurityCompletes_17 : ∃ n : Nat, ∃ data : List Nat, ∃ s : State,
    n < 8 :=
  ⟨0, [], {}, by decide +kernel⟩

theorem wit_SecurityCompletes_20 : ∃ n : HostLink, ∃ body : Bytes, ∃ s : State,
    s.fnExists n.val 0 = true ∧ s.get (HBI_LINK_STAT.dl_up n.val) ≠ 0 ∧ s.izgServes = true ∧ (s.hl n.val).doe = none ∧ body.length ≤ 65536 ∧
      s.izg.activating.isSome = false :=
  ⟨0, [], { (iz id [(HBI_LINK_STAT.dl_up 0, 1)]) with hls := [] }, by decide +kernel⟩

theorem wit_SecurityCompletes_21 : ∃ n : HostLink, ∃ typ : BitVec 8, ∃ body : Bytes, ∃ s : State,
    s.fnExists n.val 0 = true ∧ s.get (HBI_LINK_STAT.dl_up n.val) ≠ 0 ∧ s.izgServes = true ∧ (s.hl n.val).doe = none ∧ body.length ≤ 65536 ∧ 1 ≤ typ.toNat ∧
      typ.toNat ≤ 2 :=
  ⟨0, 2, [], { (iz id [(HBI_LINK_STAT.dl_up 0, 1)]) with hls := [] }, by decide +kernel⟩

theorem wit_SecurityCompletes_22 : ∃ n : HostLink, ∃ vendor : BitVec 16, ∃ typ : BitVec 8, ∃ body : Bytes, ∃ s : State,
    s.fnExists n.val 0 = true ∧ s.get (HBI_LINK_STAT.dl_up n.val) ≠ 0 ∧ s.izgServes = true ∧ (s.hl n.val).doe = none ∧ (vendor ≠ 1 ∨ 2 < typ.toNat) :=
  ⟨0, 5, 1, [], iz id [(HBI_LINK_STAT.dl_up 0, 1)], by decide +kernel⟩

theorem wit_SecurityCompletes_24 : ∃ typ : BitVec 7, ∃ body : Bytes, ∃ s : State,
    s.izgServes = true ∧ (typ.toNat = 5 ∨ typ.toNat = 6) :=
  ⟨5, [], iz, by decide +kernel⟩

theorem wit_SecurityCompletes_25 : ∃ n : HostLink, ∃ fn : FnNo, ∃ vendor : BitVec 16, ∃ req : BitVec 16, ∃ typ : BitVec 7, ∃ body : Bytes, ∃ s : State,
    s.izgServes = true ∧ (typ.toNat = 5 ∨ typ.toNat = 6) ∧ s.fnExists n.val 0 = true ∧ s.get (HBI_LINK_STAT.dl_up n.val) ≠ 0 :=
  ⟨0, 0, 0x1AB4, 9, 5, [], iz id [(HBI_LINK_STAT.dl_up 0, 1)], by decide +kernel⟩

theorem wit_SecurityCompletes_26 : ∃ wr : Writer, ∃ s : State,
    s.izgServes = true ∧ s.izg.activating.isSome = false ∧ s.Lands wr IZG_MBOX_CTL.reg.addr :=
  ⟨none, iz, by decide +kernel⟩

theorem wit_SecurityCompletes_27 : ∃ wr : Writer, ∃ s : State,
    s.izg.activating.isSome = true ∧ s.Lands wr IZG_MBOX_CTL.reg.addr :=
  ⟨none, iz fun z => { z with activating := some { bank := 1 } }, by decide +kernel⟩

theorem wit_HeaderRoundTrip_0 : ∃ h,
    Header.Fits h :=
  ⟨{ opcode := 1, length := 4, dstEp := 9 }, by unfold Header.Fits; decide⟩

theorem wit_HeaderRoundTrip_1 : ∃ h : Header, ∃ f : Flit,
    Header.Fits h :=
  ⟨{ opcode := 1, length := 4, dstEp := 9 }, 0, by unfold Header.Fits; decide⟩

theorem wit_PacketRoundTrip_0 : ∃ h : Header, ∃ data : List Byte, ∃ cls : Nat, ∃ port : Nat,
    let p := mkPkt h data; Header.Fits h ∧ data.length = h.length :=
  ⟨{ opcode := 1, length := 4, dstEp := 9 }, [1, 2, 3, 4], 0, 0, by unfold Header.Fits; decide, by decide +kernel⟩

theorem wit_QuicksilverRoundTrip_0 : ∃ m : QsMsg,
    m.type < 2 ^ 5 ∧ m.dst < 2 ^ 23 ∧ m.src < 2 ^ 23 ∧ m.hops < 2 ^ 6 ∧ m.epoch < 2 ∧ m.payload < 2 ^ 64 :=
  ⟨{ type := 31, dst := 9, payload := 2 ^ 64 - 1 }, by decide +kernel⟩

theorem wit_SlotsRoundTrip_0 : ∃ f : LinkFrame, ∃ l : List Slot, ∃ k : Nat,
    (∀ x ∈ l, x.cls < 32) ∧ l.length + k = 15 ∧ f.tags = l.map tagOf ++ List.replicate k 0 ∧ f.flits = l.map Slot.flit ++ List.replicate k 0 :=
  ⟨{ fr with tags := 0xA0 :: List.replicate 14 0 }, [{ head := true }], 14, by decide +kernel⟩

theorem wit_RecordRoundTrip_0 : ∃ r : Record, ∃ phase : Nat,
    r.kind < 2 ^ 16 ∧ r.sev < 2 ^ 4 ∧ r.src < 2 ^ 16 ∧ r.addr < 2 ^ 64 ∧ r.detail < 2 ^ 48 ∧ r.time < 2 ^ 64 ∧ r.ep < 2 ^ 23 ∧ phase < 2 :=
  ⟨{ kind := 9, lost := true }, 1, by decide +kernel⟩

theorem wit_SterlingLaneRoundTrip_0 : ∃ et : Nat, ∃ a : Nat × Int,
    a.1 ≤ 4 ∧ (a.1 = 0 ∨ a.2 = 0) ∧ laneFits et a = true :=
  ⟨0xD, (1, 0), by decide +kernel⟩

theorem wit_CtrlRoundTrip_0 : ∃ (m : IdentInfo) (f : LinkFrame), m.serial < 2 ^ 64 ∧ m.endpoint < 2 ^ 23 ∧ m.port < 2 ^ 6 ∧ m.role < 2 ^ 3 ∧
    m.version < 2 ^ 4 ∧ m.maxRate < 2 ^ 2 ∧ m.maxWidth < 2 ^ 2 ∧ m.reachKm < 2 ^ 3 ∧ m.challenge < 2 ^ 256 ∧ f.flits = ctrlFlits (.ident m) :=
  ⟨{ serial := 2 ^ 64 - 1 }, { fr with flits := ctrlFlits (.ident { serial := 2 ^ 64 - 1 }) }, by decide +kernel⟩

theorem wit_CtrlRoundTrip_1 : ∃ (k g : Nat) (f : LinkFrame), k < 2 ^ 256 ∧ g < 2 ^ 512 ∧ f.flits = ctrlFlits (.identSig k g) :=
  ⟨2 ^ 256 - 1, 2 ^ 512 - 1, { fr with flits := ctrlFlits (.identSig (2 ^ 256 - 1) (2 ^ 512 - 1)) }, by decide +kernel⟩

def prm : ParamMsg :=
  { floors := List.replicate 18 66, caps := List.replicate 18 0, occ := List.replicate 18 7, returned := List.replicate 18 (2 ^ 32 - 1) }

theorem wit_CtrlRoundTrip_2 : ∃ (m : ParamMsg) (f : LinkFrame), m.v < 2 ^ 32 ∧ EighteenWords m.floors ∧ EighteenWords m.caps ∧ m.e < 2 ^ 16 ∧
    m.x < 2 ^ 24 ∧ EighteenWords m.occ ∧ EighteenWords m.returned ∧ m.sendTime < 2 ^ 64 ∧ m.turnaround < 2 ^ 32 ∧ f.flits = ctrlFlits (.param m) :=
  ⟨prm, { fr with flits := ctrlFlits (.param prm) }, by unfold EighteenWords; decide +kernel⟩

theorem wit_CtrlRoundTrip_3 : ∃ (l : List Nat) (f : LinkFrame), EighteenWords l ∧ f.flits = ctrlFlits (.creditSync l) :=
  ⟨List.replicate 18 (2 ^ 32 - 1), { fr with flits := ctrlFlits (.creditSync (List.replicate 18 (2 ^ 32 - 1))) }, by unfold EighteenWords; decide +kernel⟩

theorem wit_CtrlRoundTrip_4 : ∃ f : LinkFrame, f.flits = ctrlFlits .creditSyncReq :=
  ⟨{ fr with flits := ctrlFlits .creditSyncReq }, rfl⟩

theorem wit_CtrlRoundTrip_5 : ∃ (b : Nat) (f g : LinkFrame), b < 2 ^ 256 ∧ f.flits = ctrlFlits (.quiet b) ∧ g.flits = ctrlFlits (.quietAck b) :=
  ⟨2 ^ 256 - 1, { fr with flits := ctrlFlits (.quiet (2 ^ 256 - 1)) }, { fr with flits := ctrlFlits (.quietAck (2 ^ 256 - 1)) }, by decide +kernel⟩

theorem wit_CtrlRoundTrip_6 : ∃ n : Nat, n % 256 = 0 ∨ 7 < n % 256 :=
  ⟨8, .inr (by decide)⟩

theorem wit_PacketRoundTrip_4 : ∃ h' : Header, Header.Fits h' :=
  ⟨{ opcode := 1, length := 4, dstEp := 9 }, by unfold Header.Fits; decide⟩

theorem wit_WriteByAccessType : (∃ m i : Nat, m.testBit i = false) ∧ (∃ m i : Nat, m.testBit i = true) :=
  ⟨⟨0, 0, rfl⟩, ⟨1, 0, rfl⟩⟩

theorem wit_IdleStepIsOneCycle_3 : ∃ s : State, s.pending = [] ∧ s.boot.por = true :=
  ⟨{ boot := { por := true } }, rfl, rfl⟩

theorem wit_EveryStepKeepsInvariant_0 : ∃ s t : State, s.Inv ∧ step s = .next t :=
  ⟨{ w5 with pending := [.izgLockSet none] }, _, by constructor <;> decide +kernel, rfl⟩

theorem wit_IllFormedFrameFaults : (∃ f : LinkFrame, f.wf = false) ∧ (∃ (c : Instr) (s : State) (e : Fault), exec c s = .fault e) :=
  ⟨⟨{ fr with tags := [] }, rfl⟩, ⟨.frameReceive 1 { fr with tags := [] } ⟨[], []⟩, {}, _, rfl⟩⟩

theorem wit_SpdmCompletes_0 : ∃ (ch : SpdmChan) (s w : State) (dest : MgmtTo) (x : SpdmConn), s.spdmTake ch false = some (dest, w) ∧
    w.spdmConn (chanOf ch) = x ∧ 3 ≤ x.negotiated ∧ x.sessions.length < 4 ∧ w.izg.aliasSeed.isSome = true :=
  ⟨.mctp, iz fun z => { z with mctpIn := [{ typ := 5 }], aliasSeed := some [], spdm := [{ chan := 8, negotiated := 3 }] },
    _, _, _, rfl, rfl, by decide +kernel⟩

theorem wit_SpdmCompletes_0_doe : ∃ (ch : SpdmChan) (s w : State) (dest : MgmtTo) (x : SpdmConn), s.spdmTake ch false = some (dest, w) ∧
    w.spdmConn (chanOf ch) = x ∧ x.negotiated = 0 :=
  ⟨.doe 0, { iz with hls := [(0, { doe := some 1 })] }, _, _, _, rfl, rfl, by decide +kernel⟩

theorem wit_SpdmCompletes_1 : ∃ (ch : SpdmChan) (s w : State) (dest : MgmtTo) (x : SpdmConn) (sess : BitVec 32) (y : SpdmSess),
    s.spdmTake ch true = some (dest, w) ∧ w.spdmConn (chanOf ch) = x ∧ 3 ≤ x.negotiated ∧ x.sess? sess.toNat = some y ∧ y.est = true :=
  ⟨.mctp, iz fun z => { z with mctpIn := [{ typ := 6 }], spdm := [{ chan := 8, negotiated := 3, sessions := [{ id := 6, est := true }] }] },
    _, _, _, 6, _, rfl, rfl, by decide +kernel, rfl, rfl⟩

theorem wit_SpdmCompletes_1_open : ∃ (ch : SpdmChan) (s w : State) (dest : MgmtTo) (x : SpdmConn) (sess : BitVec 32) (y : SpdmSess),
    s.spdmTake ch true = some (dest, w) ∧ w.spdmConn (chanOf ch) = x ∧ 3 ≤ x.negotiated ∧ x.sess? sess.toNat = some y ∧ y.est = false :=
  ⟨.doe 0, { iz fun z => { z with spdm := [{ chan := 0, negotiated := 3, sessions := [{ id := 5 }] }] } with hls := [(0, { doe := some 2 })] },
    _, _, _, 5, _, rfl, rfl, by decide +kernel, rfl, rfl⟩

theorem wit_BootStagesComplete_17 : ∃ (b : List Byte) (s : State) (e : Nat), tget (planEntries b) s.serial = some e :=
  ⟨List.replicate 8 0 ++ [1, 0, 0, 0] ++ List.replicate 68 0, {}, _, rfl⟩

theorem wit_ServiceCompletes_17 : ∃ (b p : Nat) (v : VaultPkt) (s : State) (hit : Nat → Prop),
    (∀ q, hit q ↔ q / 16 = b ∨ (6 ≤ b ∧ b < 10 ∧ (0 < s.get (LNK_REACH.granted q) ∨ s.role q = roleHall))) ∧ p < 64 ∧ hit p ∧
    (∀ q, q < 64 → hit q → q ≠ p → (s.port q).vault = []) ∧ (s.port p).vault = [v] ∧ v.bad = false ∧ v.flits ≠ [] :=
  ⟨0, 1, { vp {} with flits := [0] }, wp stActive { vault := [{ vp {} with flits := [0] }] }, _, fun _ => Iff.rfl, by decide, .inl (by decide),
    fun q h _ n => by interval_cases q <;> first | exact absurd rfl n | rfl, rfl, rfl, by simp⟩

theorem wit_SecurityCompletes_13 : ∃ (s : State) (k : Packet) (r : List Packet), s.izg.activating.isSome = false ∧ s.izg.mg = k :: r ∧
    k.hdr.w5 % 256 = 0x35 ∧ s.active k.port = true ∧ (s.port k.port).certWait = true ∧ s.certPass k.port k.data = true := by
  refine ⟨mgp (mg1 0x35 (Config.devidCert (({} : State).kofort) 0 0)) (wr { certWait := true }), _, _, rfl, rfl, by decide +kernel, by decide +kernel, by decide +kernel, ?_⟩
  unfold State.certPass
  rw [Bool.or_eq_true, beq_iff_eq]
  exact .inl rfl

/-- 02 R34: the CRC of the nine ASCII bytes "123456789". -/
theorem test_crc_of_nine_digits : crc32c (([0x31, 0x32, 0x33, 0x34, 0x35, 0x36, 0x37, 0x38, 0x39] : List Nat).map (BitVec.ofNat 8)) = 0xE3069283 := by
  decide +kernel

/-- The access of `State.lets` may come through a BAR too: PF0's BAR0 maps the local bus (01 R22). -/
theorem wit_RegisterAccessesComplete_bar : ∃ (a : Access) (s : State) (r : RegRow) (ix : List Nat) (key : Nat), a.via ≠ none ∧
    s.lets a true = true ∧ s.place a = .reg r ix key ∧ s.domIsOff (placeDom a (.reg r ix key)) = false :=
  ⟨⟨0x9000080, 8, some ⟨0, 0, 0⟩, false⟩, w5, _, _, _, by decide +kernel, by decide +kernel, rfl, by decide +kernel⟩

/-! Witnesses in which the hash, of which nothing is known, must come out right. -/

theorem natOf_bytesOf_append (n x : Nat) (l : List Byte) : natOf (bytesOf n x ++ l) = x % 256 ^ n + 256 ^ n * natOf l := by
  induction n generalizing x with
  | zero => simp [bytesOf, Nat.mod_one]
  | succ n ih =>
    simp only [bytesOf, List.cons_append, natOf, ih, BitVec.toNat_ofNat]
    have := Nat.mod_mul (x := x) (a := 256) (b := 256 ^ n)
    rw [show 256 ^ (n + 1) = 256 * 256 ^ n from Nat.pow_succ', this]; norm_num; ring

/-- The eight 64-bit words of a number. -/
def oct : Nat → Nat → List Nat
  | 0, _ => []
  | n + 1, x => x % 2 ^ 64 :: oct n (x / 2 ^ 64)

theorem oct_get (n k x : Nat) (h : k < n) : (oct n x)[k]?.getD 0 = bf x (64 * k) 64 := by
  induction n generalizing k x with
  | zero => omega
  | succ n ih =>
    cases k with
    | zero => simp [oct, bf]
    | succ k =>
      rw [oct, List.getElem?_cons_succ, ih _ _ (by omega)]
      simp only [bf, Nat.shiftRight_eq_div_pow, Nat.div_div_eq_div_mul, ← Nat.pow_add]
      congr 3; omega

theorem joinWords_oct (n x : Nat) : joinWords (oct n x) = x % 2 ^ (64 * n) := by
  induction n generalizing x with
  | zero => simp [joinWords, oct, Nat.mod_one]
  | succ n ih =>
    have h : joinWords (oct (n + 1) x) = x % 2 ^ 64 % 2 ^ 64 + 2 ^ 64 * joinWords (oct n (x / 2 ^ 64)) := rfl
    rw [h, ih, Nat.mod_mod, ← Nat.mod_mul, ← Nat.pow_add]; congr 2; omega

/-- The hash of 32 bytes of zeros, whatever it is. -/
noncomputable def h0 : Nat := (Config.sha512 (List.replicate 32 0)).toNat
theorem h0_lt : h0 < 2 ^ 512 := (Config.sha512 _).isLt

/-- Fixed coordinates, a lifecycle word, the blob (its magic, then the words of `b`, then the signature `g`), and what slots 0 and 1 hold. -/
def secRaw (life : Nat) (b : List Nat) (x y g : Nat) : State :=
  { regs := (0x118, 0x4001#64) :: (0x400008, BitVec.ofNat 64 life) :: (0x400100, 0x31444D43534E464B#64) ::
      ((b ++ oct 8 g).zipIdx.map fun w => (0x400108 + 8 * w.2, BitVec.ofNat 64 w.1)) ++
      ((oct 8 x ++ oct 8 y).zipIdx.map fun w => (0x400200 + 8 * w.2, BitVec.ofNat 64 w.1)) }

/-- The signature of such a blob by the key of zeros. -/
noncomputable def secSig (life : Nat) (b : List Nat) (x y : Nat) : Nat := (Config.edSigOf 0 ((secRaw life b x y 0).secBlob.take 128)).toNat

/-- The blob signed. -/
noncomputable def secSt (life : Nat) (b : List Nat) (x y : Nat) : State := secRaw life b x y (secSig life b x y)

theorem ofNat_mod (x : Nat) : bf (BitVec.ofNat 64 (x % 2 ^ 64)).toNat 0 64 = x % 2 ^ 64 := by simp [bf]

theorem natOf_oct (n x : Nat) : natOf ((oct n x).flatMap (bytesOf 8)) = x % 2 ^ (64 * n) := by
  induction n generalizing x with
  | zero => simp [natOf, oct, Nat.mod_one]
  | succ n ih =>
    rw [oct, List.flatMap_cons, natOf_bytesOf_append, ih, show 256 ^ 8 = 2 ^ 64 from rfl, Nat.mod_mod, ← Nat.mod_mul, ← Nat.pow_add]
    congr 2; omega

theorem map_oct (n x : Nat) : (oct n x).map (fun v => bf (BitVec.ofNat 64 v).toNat 0 64) = oct n x := by
  induction n generalizing x with
  | zero => rfl
  | succ n ih => rw [oct, List.map_cons, ofNat_mod, ih]

theorem flatMap_bytes_take (f : Nat → Nat) (n : Nat) (l : List Byte) :
    (((List.range n).flatMap fun w => bytesOf 8 (f w)) ++ l).take (8 * n) = (List.range n).flatMap fun w => bytesOf 8 (f w) := by
  have h : ((List.range n).flatMap fun w => bytesOf 8 (f w)).length = 8 * n := by
    induction n with
    | zero => rfl
    | succ n ih => rw [List.range_succ, List.flatMap_append, List.length_append, ih]; simp [length_bytesOf]; omega
  rw [← h, List.take_left]

theorem blob_split (s : State) : s.secBlob = ((List.range 16).flatMap fun w => bytesOf 8 (s.get (SEC_CMD_BUF.data w))) ++
    (List.range 8).flatMap fun w => bytesOf 8 (s.get (SEC_CMD_BUF.data (16 + w))) := by
  unfold State.secBlob
  rw [show (24 : Nat) = 16 + 8 from rfl, List.range_add, List.flatMap_append, List.flatMap_map]

theorem secRaw_take (life p0 p1 p2 p3 p4 p5 p6 p7 c0 x y g : Nat) :
    (secRaw life ([c0, 0, 0] ++ [p0, p1, p2, p3, p4, p5, p6, p7] ++ [0, 0, 0, 0]) x y g).secBlob.take 128 =
    (secRaw life ([c0, 0, 0] ++ [p0, p1, p2, p3, p4, p5, p6, p7] ++ [0, 0, 0, 0]) x y 0).secBlob.take 128 := by
  rw [blob_split, blob_split, show 128 = 8 * 16 from rfl, flatMap_bytes_take (fun w => _) 16, flatMap_bytes_take (fun w => _) 16]
  exact List.flatMap_congr fun w hw => by
    have := List.mem_range.1 hw
    interval_cases w <;> rfl

/-- The blob's signature verifies. -/
theorem secSt_signed (life p0 p1 p2 p3 p4 p5 p6 p7 c0 x y : Nat) :
    secSigned (secSt life ([c0, 0, 0] ++ [p0, p1, p2, p3, p4, p5, p6, p7] ++ [0, 0, 0, 0]) x y).secBlob = true := by
  have hs : leAt (secSt life ([c0, 0, 0] ++ [p0, p1, p2, p3, p4, p5, p6, p7] ++ [0, 0, 0, 0]) x y).secBlob 128 64 =
      secSig life ([c0, 0, 0] ++ [p0, p1, p2, p3, p4, p5, p6, p7] ++ [0, 0, 0, 0]) x y := by
    rw [leAt, blob_split, ← flatMap_bytes_take (fun w => _) 16 [], List.append_nil, List.take_of_length_le (by simp [length_bytesOf]),
      List.drop_left' (by simp [length_bytesOf])]
    show natOf ((((oct 8 (secSig life _ x y)).map fun v => bf (BitVec.ofNat 64 v).toNat 0 64).flatMap (bytesOf 8)).take 64) = _
    rw [map_oct, List.take_of_length_le (by simp [length_bytesOf, oct]), natOf_oct]; exact Nat.mod_eq_of_lt (Config.edSigOf _ _).isLt
  have hk : leAt (secSt life ([c0, 0, 0] ++ [p0, p1, p2, p3, p4, p5, p6, p7] ++ [0, 0, 0, 0]) x y).secBlob 96 32 = 0 := by
    unfold State.secBlob
    rw [leAt, show (24 : Nat) = 12 + (4 + 8) from rfl, List.range_add, List.flatMap_append, List.flatMap_map,
      List.drop_left' (by simp [length_bytesOf]), List.range_add, List.flatMap_append, List.flatMap_map,
      List.take_left' (by simp [length_bytesOf]), List.flatMap_congr (g := fun _ => bytesOf 8 0) fun w hw => by
        have := List.mem_range.1 hw
        interval_cases w <;> rfl]
    decide
  unfold secSigned edVerify
  rw [hs, hk, show (secSt life ([c0, 0, 0] ++ [p0, p1, p2, p3, p4, p5, p6, p7] ++ [0, 0, 0, 0]) x y).secBlob.take 128 = _ from
    secRaw_take life p0 p1 p2 p3 p4 p5 p6 p7 c0 x y _, secSig, BitVec.ofNat_toNat]
  simp

/-- The words of a blob of code `c` for slot `k`, with `p` as its payload. -/
def blob (c k : Nat) (p : List Nat) : List Nat := [c + k * 256, 0, 0] ++ p ++ [0, 0, 0, 0]

/-- Another number below 2^512 than `x`. -/
def other (x : Nat) : Nat := if x = 0 then 1 else 0
theorem other_ne (x : Nat) : other x ≠ x := by unfold other; split <;> omega
theorem other_lt (x : Nat) : other x < 2 ^ 512 := by unfold other; split <;> norm_num
theorem h0_mod : h0 % 2 ^ (64 * 8) = h0 := Nat.mod_eq_of_lt h0_lt

theorem secAuth_owned (s : State) (code : Nat) (via : Bool) (h1 : s.get SEC_LIFECYCLE.state = 2) (h2 : s.ownerLive 0 = true)
    (h3 : s.ownerHash 0 = signerHash s.secBlob) : s.secAuth code via = true := by
  unfold State.secAuth
  simp only [h1, show ¬(2 = 1 ∧ code = 1) from by omega, if_false, if_true]
  exact List.any_eq_true.2 ⟨0, by decide, by simp [h2, h3]⟩

theorem signer_secSt (s : State) (h : slice s.secBlob 96 32 = List.replicate 32 0) : signerHash s.secBlob = h0 := by
  unfold signerHash h0; rw [h]

/-- REVOKE, RAISE_FLOOR: the owner of slot 0 asks. -/
noncomputable def secOwned (c k : Nat) (p : Nat) : State := secSt 0x32 (blob c k (p :: List.replicate 7 0)) h0 (other h0)

theorem secOwned_hash (c k p : Nat) : (secOwned c k p).ownerHash 0 = h0 ∧ (secOwned c k p).ownerHash 1 = other h0 := by
  constructor
  · show joinWords ((oct 8 h0).map fun v => bf (BitVec.ofNat 64 v).toNat 0 64) = h0
    rw [map_oct, joinWords_oct, h0_mod]
  · show joinWords ((oct 8 (other h0)).map fun v => bf (BitVec.ofNat 64 v).toNat 0 64) = other h0
    rw [map_oct, joinWords_oct]; exact Nat.mod_eq_of_lt (other_lt _)

theorem secOwned_live (c k p : Nat) : (secOwned c k p).ownerLive 0 = true := by
  have h1 : (secOwned c k p).get SEC_LIFECYCLE.owner_valid = 3 := by with_unfolding_all rfl
  have h2 : (secOwned c k p).get SEC_LIFECYCLE.owner_revoked = 0 := by with_unfolding_all rfl
  simp [State.ownerLive, h1, h2, bit]

theorem secOwned_auth (c k p code : Nat) (via : Bool) (h : slice (secOwned c k p).secBlob 96 32 = List.replicate 32 0) :
    (secOwned c k p).secAuth code via = true :=
  secAuth_owned _ _ _ (by with_unfolding_all rfl) (secOwned_live c k p) (by rw [(secOwned_hash c k p).1, signer_secSt _ h])

theorem wit_SecurityCompletes_2 : ∃ c : SecCmd, ∃ s : State,
    s.Lands (c.via.getD none) SEC_CMD.reg.addr ∧ s.get SEC_CMD.done ≠ 0 ∧ s.secCode = 2 ∧ leAt s.secBlob 16 8 = s.get SEC_SERIAL.serial ∧
      leAt s.secBlob 24 8 = s.get SEC_NONCE.nonce ∧ s.secAuth 2 c.via.isNone = true :=
  ⟨⟨true, some none⟩, secOwned 2 1 0, by with_unfolding_all rfl, by decide +kernel, by decide +kernel, by decide +kernel,
    by decide +kernel, secOwned_auth _ _ _ _ _ (by decide +kernel)⟩

theorem wit_SecurityCompletes_4 : ∃ c : SecCmd, ∃ s : State,
    s.Lands (c.via.getD none) SEC_CMD.reg.addr ∧ s.get SEC_CMD.done ≠ 0 ∧ s.secCode = 2 ∧ leAt s.secBlob 16 8 = s.get SEC_SERIAL.serial ∧
      leAt s.secBlob 24 8 = s.get SEC_NONCE.nonce ∧ s.secAuth 2 c.via.isNone = true ∧ secSigned s.secBlob = true ∧ c.fuseOk = true ∧ leAt s.secBlob 9 1 ≤ 3 ∧
      s.ownerLive (leAt s.secBlob 9 1) = true ∧ s.ownerHash (leAt s.secBlob 9 1) ≠ signerHash s.secBlob ∧ 1 < ((List.range 4).filter s.ownerLive).length := by
  refine ⟨⟨true, some none⟩, secOwned 2 1 0, by with_unfolding_all rfl, by decide +kernel, by decide +kernel, by decide +kernel, by decide +kernel,
    secOwned_auth _ _ _ _ _ (by decide +kernel), secSt_signed _ _ _ _ _ _ _ _ _ _ _ _, rfl, by decide +kernel, by decide +kernel, ?_, by decide +kernel⟩
  rw [signer_secSt _ (by decide +kernel), show leAt (secOwned 2 1 0).secBlob 9 1 = 1 from by decide +kernel, (secOwned_hash 2 1 0).2]
  exact other_ne _

theorem wit_SecurityCompletes_5 : ∃ c : SecCmd, ∃ s : State,
    s.Lands (c.via.getD none) SEC_CMD.reg.addr ∧ s.get SEC_CMD.done ≠ 0 ∧ s.secCode = 3 ∧ leAt s.secBlob 16 8 = s.get SEC_SERIAL.serial ∧
      leAt s.secBlob 24 8 = s.get SEC_NONCE.nonce ∧ s.secAuth 3 c.via.isNone = true ∧ secSigned s.secBlob = true ∧ c.fuseOk = true ∧
      s.get SEC_LIFECYCLE.svn_floor < leAt s.secBlob 32 1 ∧ leAt s.secBlob 32 1 ≤ 63 :=
  ⟨⟨true, some none⟩, secOwned 3 0 63, by with_unfolding_all rfl, by decide +kernel, by decide +kernel, by decide +kernel, by decide +kernel,
    secOwned_auth _ _ _ _ _ (by decide +kernel), secSt_signed _ _ _ _ _ _ _ _ _ _ _ _, rfl, by decide +kernel, by decide +kernel⟩

/-- ENROLL: the blob names the hash of its signer. -/
noncomputable def secEnroll : State := secSt 1 (blob 1 3 (oct 8 h0)) 0 0

theorem wit_SecurityCompletes_3 : ∃ c : SecCmd, ∃ s : State,
    s.Lands (c.via.getD none) SEC_CMD.reg.addr ∧ s.get SEC_CMD.done ≠ 0 ∧ s.secCode = 1 ∧ leAt s.secBlob 16 8 = s.get SEC_SERIAL.serial ∧
      leAt s.secBlob 24 8 = s.get SEC_NONCE.nonce ∧ s.secAuth 1 c.via.isNone = true ∧ secSigned s.secBlob = true ∧ c.fuseOk = true ∧ leAt s.secBlob 9 1 ≤ 3 ∧
      bit (s.get SEC_LIFECYCLE.owner_valid) (leAt s.secBlob 9 1) = false ∧ s.get SEC_LIFECYCLE.state = 1 := by
  refine ⟨⟨true, some none⟩, secEnroll, by with_unfolding_all rfl, by decide +kernel, by decide +kernel, by decide +kernel, by decide +kernel, ?_, secSt_signed _ _ _ _ _ _ _ _ _ _ _ _, rfl,
    by decide +kernel, by decide +kernel, by decide +kernel⟩
  have h : leAt secEnroll.secBlob 32 64 = h0 := by
    show natOf (((oct 8 h0).map fun v => bf (BitVec.ofNat 64 v).toNat 0 64).flatMap (bytesOf 8)) = h0
    rw [map_oct, natOf_oct, h0_mod]
  unfold State.secAuth
  simp only [h, signer_secSt secEnroll (by decide +kernel), show secEnroll.get SEC_LIFECYCLE.state = 1 from by decide +kernel]
  simp

/-- UNLOCK and RMA before an owner is enrolled: the vendor root key asks. -/
noncomputable def secRoot (c : Nat) : State :=
  let s := secSt 1 (blob c 0 (List.replicate 8 0)) 0 0
  { s with boot := { s.boot with fuses := some { fu with serial := 0 } } }

theorem secRoot_auth (c code : Nat) (via : Bool) (hc : code = 4 ∨ code = 5)
    (h : slice (secRoot c).secBlob 96 32 = List.replicate 32 0) : (secRoot c).secAuth code via = true := by
  unfold State.secAuth
  have : (secRoot c).get SEC_LIFECYCLE.state = 1 := by with_unfolding_all rfl
  simp only [signer_secSt _ h, this, show ¬(True ∧ code = 1) from by omega, hc]
  rw [show (secRoot c).boot.fuses.map (fun f => f.rootHash.toNat) = some h0 from rfl]; simp

theorem wit_SecurityCompletes_6 : ∃ c : SecCmd, ∃ s : State,
    s.Lands (c.via.getD none) SEC_CMD.reg.addr ∧ s.get SEC_CMD.done ≠ 0 ∧ s.secCode = 4 ∧ leAt s.secBlob 16 8 = s.get SEC_SERIAL.serial ∧
      leAt s.secBlob 24 8 = s.get SEC_NONCE.nonce ∧ s.secAuth 4 c.via.isNone = true ∧ secSigned s.secBlob = true :=
  ⟨⟨true, some none⟩, secRoot 4, by with_unfolding_all rfl, by decide +kernel, by decide +kernel, by decide +kernel, by decide +kernel,
    secRoot_auth _ _ _ (.inl rfl) (by decide +kernel), secSt_signed _ _ _ _ _ _ _ _ _ _ _ _⟩

theorem wit_SecurityCompletes_7 : ∃ c : SecCmd, ∃ s : State,
    s.Lands (c.via.getD none) SEC_CMD.reg.addr ∧ s.get SEC_CMD.done ≠ 0 ∧ s.secCode = 5 ∧ leAt s.secBlob 16 8 = s.get SEC_SERIAL.serial ∧
      leAt s.secBlob 24 8 = s.get SEC_NONCE.nonce ∧ s.secAuth 5 c.via.isNone = true ∧ secSigned s.secBlob = true ∧ c.fuseOk = true :=
  ⟨⟨true, some none⟩, secRoot 5, by with_unfolding_all rfl, by decide +kernel, by decide +kernel, by decide +kernel, by decide +kernel,
    secRoot_auth _ _ _ (.inr rfl) (by decide +kernel), secSt_signed _ _ _ _ _ _ _ _ _ _ _ _, rfl⟩

theorem wit_SecurityCompletes_9 : ∃ c : SecCmd, ∃ s : State,
    s.Lands (c.via.getD none) SEC_CMD.reg.addr ∧ s.get SEC_CMD.done ≠ 0 ∧ s.secCode = 5 ∧ leAt s.secBlob 16 8 = s.get SEC_SERIAL.serial ∧
      leAt s.secBlob 24 8 = s.get SEC_NONCE.nonce ∧ s.secAuth 5 c.via.isNone = true ∧ secSigned s.secBlob = true ∧ c.fuseOk = false :=
  ⟨⟨false, some none⟩, secRoot 5, by with_unfolding_all rfl, by decide +kernel, by decide +kernel, by decide +kernel, by decide +kernel,
    secRoot_auth _ _ _ (.inr rfl) (by decide +kernel), secSt_signed _ _ _ _ _ _ _ _ _ _ _ _, rfl⟩

/-- The fuses of `s` become those that hold the root key of zeros. -/
noncomputable def rooted (s : State) : State := { s with boot := { s.boot with fuses := some fu } }

/-- An image that it signed verifies. -/
theorem imageOk_rooted (s : State) (k : Byte) (hk : k = 1 ∨ k = 2 ∨ k = 3) (h : (s.get SEC_LIFECYCLE.state != 2) = true)
    (h2 : s.get SEC_LIFECYCLE.svn_floor = 0) :
    (rooted s).imageOk (some (im k)) k.toNat = true := by
  have h2' : (rooted s).get SEC_LIFECYCLE.svn_floor = 0 := h2
  unfold State.imageOk
  simp only [im_ok (s := rooted s) hk h rfl, h2']; simp

/-- Such an image gives a command no failing result. -/
theorem imageResult_rooted (s : State) (k : Byte) (kinds : List Nat) (x : Nat) (hk : k = 1 ∨ k = 2 ∨ k = 3) (hm : k.toNat ∈ kinds)
    (h : (s.get SEC_LIFECYCLE.state != 2) = true) (h2 : s.get SEC_LIFECYCLE.svn_floor = 0) : (rooted s).imageResult (some (im k)) kinds x = none := by
  have h2' : (rooted s).get SEC_LIFECYCLE.svn_floor = 0 := h2
  have h3 : kinds.any (fun k' => (rooted s).envOk k' (im k)) = true := List.any_eq_true.2 ⟨_, hm, im_ok (s := rooted s) hk h rfl⟩
  unfold State.imageResult
  simp only [h3, h2']; simp

theorem wit_BootStagesComplete_9 : ∃ img : FlashRead, ∃ s : State,
    s.inStage 4 = true ∧ s.get TOP_BOOT_STAT.recovery ≠ 0 ∧ s.imageOk img envFIRST = true :=
  ⟨_, rooted (bt 4 id [(TOP_BOOT_STAT.recovery, 1)]), by decide +kernel, by decide +kernel, imageOk_rooted _ 1 (.inl rfl) (by decide +kernel) (by decide +kernel)⟩

theorem wit_BootStagesComplete_11 : ∃ img : FlashRead, ∃ s : State,
    s.inStage 6 = true ∧ s.imageOk img envMAIN = true :=
  ⟨_, rooted (bt 6), by decide +kernel, imageOk_rooted _ 2 (.inr (.inl rfl)) (by decide +kernel) (by decide +kernel)⟩

theorem wit_FirmwareCompletes_2 : ∃ img : FlashRead, ∃ s : State, ∃ b,
    s.izg.loading = some b ∧ s.pwr.pwrfail = false ∧ s.imageResult img s.loadKinds 7 = none ∧ s.awaitsImage = false :=
  ⟨_, rooted (iz fun z => { z with loading := some 1 }), _, rfl, by decide +kernel,
    imageResult_rooted _ 1 _ _ (.inl rfl) (by decide +kernel) (by decide +kernel) (by decide +kernel), by decide +kernel⟩

theorem wit_FirmwareCompletes_5 : ∃ wr : Writer, ∃ b : Fin 2, ∃ img : FlashRead, ∃ s : State,
    s.fwTakes = true ∧ s.izgRuns = true ∧ s.pwr.pwrfail = false ∧ s.bankSt b.val = bkREADY ∧ s.get IZG_PAIR_STAT.standby_ok ≠ 0 ∧
      s.imageResult img [envMAIN] 9 = none ∧ s.fmtOk (img.getD []) = true ∧ s.Lands wr IZG_FW_CTL.reg.addr :=
  ⟨none, 1, _, rooted (iz id [(IZG_PAIR_STAT.standby_ok, 1)]), by decide +kernel, by decide +kernel, by decide +kernel, by decide +kernel,
    by decide +kernel, imageResult_rooted _ 2 _ _ (.inr (.inl rfl)) (by decide +kernel) (by decide +kernel) (by decide +kernel), rfl, by with_unfolding_all rfl⟩

/-- An image of 256 bytes with one empty section, and a given digest. -/
def acctIm (g : Nat) : List Byte :=
  bytesOf 8 imgMagic ++ bytesOf 8 1 ++ bytesOf 8 256 ++ bytesOf 12 0 ++ bytesOf 4 1 ++ bytesOf 64 g ++ bytesOf 16 3 ++ bytesOf 136 0

/-- What the digest of it is. -/
noncomputable def imDig : Nat := (Config.sha512 (acctIm 0)).toNat

theorem im_digest (g : Nat) (hg : g < 2 ^ 512) : leAt (acctIm g) 40 64 = g := by
  show natOf (bytesOf 64 g) = g
  rw [natOf_bytesOf]; exact Nat.mod_eq_of_lt hg

theorem imDig_lt : imDig < 2 ^ 512 := (Config.sha512 _).isLt

/-- The digest of `acctIm imDig` is right. -/
theorem im_digest_ok : ¬ (Config.sha512 ((acctIm imDig).take 40 ++ List.replicate 64 0 ++ (acctIm imDig).drop 104)).toNat ≠ leAt (acctIm imDig) 40 64 := by
  rw [im_digest _ imDig_lt, not_not]; rfl

/-- The image as the host's memory holds it. -/
noncomputable def imHv : HostView := [{ addr := 4096, data := acctIm imDig, poison := false }]

/-- Account 5 is REMOVED, of function 2 in host link 0. -/
def w5m (s : State := w5) : State := st [(ACC_BIND1.state 5, aREMOVED), (HBI_OWIN0.valid 0 0, 1), (HBI_OWIN0.function 0 0, 2),
  (ACC_CMD1.image_addr, 2 ^ 47 + 4096), (ACC_CMD2.image_len, 256)] s

def w5mr : State := (w5m.set ACC_CMD0.account 5).set ACC_CMD0.cmd 7

theorem hostRead_all (A : Nat) (pre d : List Byte) :
    hostRead [{ addr := A, data := pre ++ d, poison := false }] (A + pre.length) d.length = some (d, false) := by
  induction d generalizing pre with
  | nil => rfl
  | cons b d ih =>
    have h := ih (pre ++ [b])
    simp only [List.append_assoc, List.cons_append, List.nil_append, List.length_append, List.length_cons, List.length_nil] at h
    have hb : hostByte [{ addr := A, data := pre ++ b :: d, poison := false }] (A + pre.length) = some (b, false) := by
      simp [hostByte]
    simp only [List.length_cons, hostRead, hb, show A + pre.length + 1 = A + (pre.length + (0 + 1)) from by omega, h, Bool.or_self]

theorem im_length (g : Nat) : (acctIm g).length = 256 := rfl

theorem im_read : imgRead imHv 4096 256 = some (acctIm imDig, false) := by
  have h := hostRead_all 4096 [] (acctIm imDig)
  rw [im_length] at h
  unfold imgRead imHv
  rw [if_neg (by simp [im_length])]
  exact h

/-- What reading the image through an open window gives. -/
theorem im_fetch (s u v : State) (c : AcctCmd) (n fn : Nat) (pas : Option Nat) (h0 : s.bufGate c 256 false = (.go, (n, fn, pas, 4096), u))
    (h1 : u.bufGate c 256 false = (.go, (n, fn, pas, 4096), v))
    (h2 : c.len = 256) (h3 : v.imgCheck c.acct (acctIm imDig) false = 0) : s.imgFetch c imHv = (some (0, acctIm imDig), v) := by
  unfold State.imgFetch
  simp only [h0, h1, im_read, h2, h3, show leAt (acctIm imDig) 16 8 = 256 from by decide +kernel]
  simp

/-- A state after both reads of a command's buffer. -/
def readTwice (s : State) (c : AcctCmd) : State := ((s.bufGate c 256 false).2.2.bufGate c 256 false).2.2

def mCmd : AcctCmd := { cmd := 7, acct := 5, addr := 2 ^ 47 + 4096, len := 256 }

theorem im_check1 : (readTwice w5mr mCmd).imgCheck 5 (acctIm imDig) false = 0 := by
  unfold State.imgCheck; dsimp only
  rw [if_neg im_digest_ok]
  decide +kernel

theorem wit_MigrationCommandsComplete_3 : ∃ wr : Writer, ∃ v : Word, ∃ hv : HostView, ∃ a : Nat, ∃ s : State, ∃ u : State, ∃ img : List Byte,
    s.accGo v 7 a ∧ s.aSt a = aREMOVED ∧ s.pwrState ≠ 2 ∧ s.hlPresent (s.aHl a) = true ∧ (s.boundOn (s.aHl a)).length < 2048 ∧ s.bindFits a (s.aPasid a) = true ∧
      ((s.set ACC_CMD0.account a).set ACC_CMD0.cmd 7).imgFetch { cmd := 7, acct := a, addr := s.get ACC_CMD1.image_addr, len := s.get ACC_CMD2.image_len } hv = (some (0, img), u) ∧ s.Lands wr ACC_CMD0.reg.addr := by
  refine ⟨none, 0x4000000000070005, imHv, 5, w5m, readTwice w5mr mCmd, acctIm imDig, by refine ⟨?_, ?_, ?_, ?_⟩ <;> decide +kernel,
    by decide +kernel, by decide +kernel, by decide +kernel, by decide +kernel, by decide +kernel, ?_, by decide +kernel⟩
  rw [show w5m.get ACC_CMD1.image_addr = 2 ^ 47 + 4096 from by decide +kernel, show w5m.get ACC_CMD2.image_len = 256 from by decide +kernel]
  exact im_fetch w5mr _ _ _ _ _ _ (Prod.ext (by decide +kernel) (Prod.ext (by decide +kernel) rfl))
    (Prod.ext (by decide +kernel) (Prod.ext (by decide +kernel) rfl)) rfl im_check1

/-- A slice of PF1 with PASID 3, with its image at 4096. -/
def w5s : State := st [(ACC_BIND1.state 5, aREMOVED), (ACC_BIND0.slice 5, 1), (ACC_BIND0.function 5, 1), (ACC_BIND0.page 5, 7),
  (ACC_BIND0.pasid_valid 5, 1), (ACC_BIND0.pasid 5, 3), (HBI_LINK_CFG.style 0, 1),
  (ACC_SLICE_CMD2.image_iova 0, 4096), (ACC_SLICE_CMD3.image_len 0, 256)] w5
def w5sr : State := (w5s.set (ACC_SLICE_CMD0.page 0) 7).set (ACC_SLICE_CMD0.cmd 0) 7
def sCmd : AcctCmd := { cmd := 7, acct := 5, slice := some 0, addr := 4096, len := 256 }

theorem im_check2 : (readTwice w5sr sCmd).imgCheck 5 (acctIm imDig) false = 0 := by
  unfold State.imgCheck; dsimp only
  rw [if_neg im_digest_ok]
  decide +kernel

theorem wit_MigrationCommandsComplete_4 : ∃ n : HostLink, ∃ v : Word, ∃ hv : HostView, ∃ a : Nat, ∃ s : State, ∃ u : State, ∃ img : List Byte,
    s.sliceGo n.val v 7 a ∧ s.aSt a = aREMOVED ∧ s.pwrState ≠ 2 ∧ s.hlPresent (s.aHl a) = true ∧ (s.boundOn (s.aHl a)).length < 2048 ∧
      s.bindFits a (s.aPasid a) = true ∧ a < 16384 ∧
      ((s.set (ACC_SLICE_CMD0.page n.val) (bf v.toNat 0 11)).set (ACC_SLICE_CMD0.cmd n.val) 7).imgFetch { cmd := 7, acct := a, slice := some n.val, addr := s.get (ACC_SLICE_CMD2.image_iova n.val), len := s.get (ACC_SLICE_CMD3.image_len n.val) } hv = (some (0, img), u) := by
  refine ⟨0, 0x4000000000070007, imHv, 5, w5s, readTwice w5sr sCmd, acctIm imDig, by refine ⟨?_, ?_, ?_, ?_, ?_, ?_, ?_⟩ <;> decide +kernel, by decide +kernel, by decide +kernel, by decide +kernel, by decide +kernel, by decide +kernel, by decide, ?_⟩
  rw [show w5s.get (ACC_SLICE_CMD2.image_iova (0 : HostLink).val) = 4096 from by decide +kernel,
    show w5s.get (ACC_SLICE_CMD3.image_len (0 : HostLink).val) = 256 from by decide +kernel]
  exact im_fetch w5sr _ _ _ _ _ _ (Prod.ext (by decide +kernel) (Prod.ext (by decide +kernel) rfl))
    (Prod.ext (by decide +kernel) (Prod.ext (by decide +kernel) rfl)) rfl im_check2

theorem wit_MigrationCommandsComplete_5 : ∃ hv : HostView, ∃ sv : HostView, ∃ s : State, ∃ u : State, ∃ v : State, ∃ c : AcctCmd, ∃ img : List Byte,
    s.running 7 = some c ∧ s.imgFetch c hv = (some (0, img), u) ∧
      u.gate (u.aHl c.acct) (u.aFn c.acct) (u.aPasid c.acct) (areaAccs (u.areasOf c.acct (((secOf img 2).getD []).getD 2 0) ((secOf img 3).getD []))) sv = (.go, u) ∧
      u.imgLoad c.acct img sv = some v := by
  have h1 : (readTwice { w5mr with acctCmds := [mCmd] } mCmd).imgCheck 5 (acctIm imDig) false = 0 := by
    unfold State.imgCheck; dsimp only
    rw [if_neg im_digest_ok]
    decide +kernel
  exact ⟨imHv, [], { w5mr with acctCmds := [mCmd] }, _, _, _, _, rfl,
    im_fetch _ _ (readTwice { w5mr with acctCmds := [mCmd] } mCmd) mCmd 0 2 none (Prod.ext (by decide +kernel) (Prod.ext (by decide +kernel) rfl))
      (Prod.ext (by decide +kernel) (Prod.ext (by decide +kernel) rfl)) rfl h1, rfl, rfl⟩

/-- What an owner signs of an MG packet to this device: its subtype, destination, counter and key. -/
def mgMsg : List Byte := [0x40] ++ bytesOf 3 0 ++ (bytesOf 8 1 ++ bytesOf 32 0)

/-- An MG packet that ends in a counter, its signer's key and signature. -/
noncomputable def mgSigned : Packet := mkPkt { opcode := 0x0A, last := true, w5 := 0x40, length := 104 } (bytesOf 8 1 ++ bytesOf 32 0 ++ bytesOf 64 (Config.edSigOf 0 mgMsg).toNat)

theorem mg_intact : pktIntact mgSigned = true := by
  show (true && mgSigned.data.length == 104 && ecrcOf mgSigned.hdr mgSigned.data == ecrcOf mgSigned.hdr mgSigned.data) = true
  rw [beq_self_eq_true, show mgSigned.data.length = 104 from rfl]; rfl

theorem mg_signed : edVerify (natOf ((mgSigned.data.drop (mgSigned.data.length - 96)).take 32))
    ([BitVec.ofNat 8 mgSigned.hdr.w5] ++ bytesOf 3 mgSigned.hdr.dstEp ++ mgSigned.data.take (mgSigned.data.length - 64))
    (leAt mgSigned.data (mgSigned.data.length - 64) 64) = true := by
  rw [show mgSigned.data.length = 104 from rfl, show natOf ((mgSigned.data.drop (104 - 96)).take 32) = 0 from by decide +kernel,
    show [BitVec.ofNat 8 mgSigned.hdr.w5] ++ bytesOf 3 mgSigned.hdr.dstEp ++ mgSigned.data.take (104 - 64) = mgMsg from by with_unfolding_all rfl,
    show leAt mgSigned.data (104 - 64) 64 = natOf (bytesOf 64 (Config.edSigOf 0 mgMsg).toNat) from rfl, edVerify, ofNat_bytes]
  simp

theorem wit_TargetSideCompletes_7 : ∃ s : State, ∃ u : State, ∃ p,
    s.takePkt 0x0A = some (p, u) ∧ u.destCheck p = (true, u) ∧ u.izg.mg.length < 64 ∧ 0x40 ≤ p.hdr.w5 % 256 ∧ 104 ≤ p.data.length ∧
      edVerify (natOf ((p.data.drop (p.data.length - 96)).take 32)) ([BitVec.ofNat 8 p.hdr.w5] ++ bytesOf 3 p.hdr.dstEp ++ p.data.take (p.data.length - 64)) (leAt p.data (p.data.length - 64) 64) = true ∧ u.ownerKey ((p.data.drop (p.data.length - 96)).take 32) = true ∧ u.get SEC_MG_CTR.counter < leAt p.data (p.data.length - 104) 8 ∧ u.get SEC_LIFECYCLE.state ≠ lcPROVISIONED := by
  refine ⟨{ secOwned 2 1 0 with tptIn := [mgSigned] }, { secOwned 2 1 0 with tptIn := [] }, mgSigned, rfl, ?_, by decide +kernel, by decide +kernel,
    by decide +kernel, mg_signed, ?_, by decide +kernel, by decide +kernel⟩
  · unfold State.destCheck
    simp only [mg_intact, show lengthOk mgSigned.hdr = true from by decide +kernel,
      show operandsBad mgSigned.hdr = false from by decide +kernel, show mgSigned.hdr.opcode = 10 from rfl,
      show State.isHere { secOwned 2 1 0 with tptIn := [] } mgSigned.hdr.dstEp = true from by decide +kernel]
    simp
  · rw [show (mgSigned.data.drop (mgSigned.data.length - 96)).take 32 = List.replicate 32 0 from by decide +kernel]
    unfold State.ownerKey
    refine List.any_eq_true.2 ⟨0, by decide, ?_⟩
    rw [Bool.and_eq_true]
    refine ⟨by decide +kernel, List.all_eq_true.2 fun w hw => ?_⟩
    rw [beq_iff_eq]
    have h (w : Nat) (hw : w < 8) : (secOwned 2 1 0).get (SEC_OWNER_HASH.hash 0 w) = bf h0 (64 * w) 64 := by
      rw [← oct_get 8 w h0 hw]
      interval_cases w <;> exact ofNat_mod _
    exact h w (List.mem_range.1 hw)

end Sys2Proof.Tests
end

section
/-!
PROOFS. Register accesses (00 R6, R8, R9; 01 R13): what an access that nothing stops reaches, what a read clears, what a write leaves in a locked
field, and what a write that is a command of its own does.
-/
namespace Sys2Proof.Machine

/-! ### A field's write, bit by bit (00 Table 0.4) -/

/-- A bit that the write does not cover keeps its value, whatever the access type. -/
theorem testBit_accWrite_of_uncovered (acc : Acc) (old new : Nat) {m i : Nat} (h : m.testBit i = false) :
    (accWrite acc old new m).testBit i = old.testBit i := by
  cases acc <;> simp [accWrite, h]

/-- Settles O9: the bits of `accWrite` one by one, for each access type. -/
theorem writeByAccessType : Obligations.WriteByAccessType := by
  intro old new m i
  refine ⟨fun acc h => testBit_accWrite_of_uncovered acc old new h, fun h => ?_⟩
  refine ⟨?rw, ?rwl, ?w1c, ?w1s, rfl, rfl, rfl⟩
  case rw | rwl => simp [accWrite, h]
  case w1c => cases ho : old.testBit i <;> simp [accWrite, h, ho]
  case w1s => simp [accWrite, h]

/-! ### Masks -/

theorem testBit_foldl_or (l : List Nat) (a i : Nat) :
    (l.foldl (fun a i => a ||| 2 ^ i) a).testBit i = (a.testBit i || decide (i ∈ l)) := by
  induction l generalizing a with
  | nil => simp
  | cons b l ih =>
    rw [List.foldl_cons, ih, Nat.testBit_or, Nat.testBit_two_pow]
    by_cases h : i = b <;> simp [h, eq_comm]

/-- Bit `i` of a mask is set when the list names it. -/
theorem testBit_maskOf (l : List Nat) (i : Nat) : (maskOf l).testBit i = decide (i ∈ l) := by
  simp [maskOf, testBit_foldl_or]

/-- Bit `i` of the mask of `len` bits from `lo`. -/
theorem testBit_ones_shiftLeft (lo len i : Nat) :
    ((2 ^ len - 1) <<< lo).testBit i = (decide (lo ≤ i) && decide (i - lo < len)) := by
  rw [Nat.testBit_shiftLeft, Nat.testBit_two_pow_sub_one]

/-- Two numbers with the same bits in a field have the same value there. -/
theorem bf_congr {a b lo len : Nat} (h : ∀ i, lo ≤ i → i < lo + len → a.testBit i = b.testBit i) : bf a lo len = bf b lo len := by
  apply Nat.eq_of_testBit_eq
  intro i
  rw [bf_testBit, bf_testBit]
  by_cases hi : i < len
  · rw [h (lo + i) (by omega) (by omega)]
  · simp [hi]

/-- A number put in a register has there the field of any word with the same bits in it. -/
theorem bf_toNat_ofNat {a : Nat} (b : Word) {lo len : Nat} (h : ∀ i, lo ≤ i → i < lo + len → a.testBit i = b.toNat.testBit i) :
    bf (BitVec.ofNat 64 a).toNat lo len = bf b.toNat lo len := by
  refine bf_congr fun i h1 h2 => ?_
  by_cases h3 : i < 64
  · rw [BitVec.toNat_ofNat, Nat.testBit_mod_two_pow, h i h1 h2]; simp [h3]
  · rw [BitVec.testBit_toNat, BitVec.testBit_toNat, BitVec.getLsbD_of_ge _ _ (by omega), BitVec.getLsbD_of_ge _ _ (by omega)]

/-- A register written whole and read back. -/
theorem word_setWord_whole (s : State) (key rst l n : Nat) (v : Word) : (s.setWord (RF.whole key rst) v).word ⟨key, rst, l, n⟩ = v :=
  (word_setWord s (RF.whole key rst) ⟨key, rst, l, n⟩ v fun _ => rfl).trans (if_pos rfl)

/-! ### Records on their way -/

theorem mem_recInsert {r x : Record} {l : List Record} : x ∈ recInsert r l ↔ x = r ∨ x ∈ l := by
  induction l with
  | nil => simp [recInsert]
  | cons y l ih =>
    unfold recInsert
    split
    · simp
    · simp only [List.mem_cons, ih]; tauto

/-- A record on its way stays there when another is raised. -/
theorem mem_raise_clhIn {s : State} {x : Record} (k src a d : Nat) (h : x ∈ s.clhIn) : x ∈ (s.raise k src a d).clhIn :=
  mem_recInsert.2 (.inr h)

/-! ### Accesses that nothing stops (`State.lets`) -/

theorem lbxCheck_of_allows {s : State} {m b : Nat} {write : Bool} (hd : (!inSram b || decide (m < 2)) = true)
    (ha : s.lbxAllows m b write = true) : s.lbxCheck m b write = (true, s) := by
  have hdiag : (inSram b && decide (2 ≤ m)) = false := by
    cases hb : inSram b
    · rfl
    · simp only [hb, Bool.not_true, Bool.false_or, decide_eq_true_eq] at hd
      simpa using hd
  simp [State.lbxCheck, hdiag, ha]

/-- A fold each of whose steps leaves its state as it is. -/
theorem foldl_eq_of_fixed {α β : Type} {f : β → α → β} {b : β} {l : List α} (h : ∀ a ∈ l, f b a = b) : l.foldl f b = b := by
  induction l with
  | nil => rfl
  | cons a l ih =>
    rw [List.foldl_cons, h a (List.mem_cons_self ..)]
    exact ih fun c hc => h c (List.mem_cons_of_mem _ hc)

theorem viaOk_of_lets {s : State} {a : Access} {write : Bool} (h : s.lets a write = true) : s.viaOk a = true :=
  (Bool.and_eq_true_iff.1 h).1

/-- Izger's Lockbox lets the access through, and one through a BAR passes none. -/
theorem izgCheck_of_lets {s : State} {a : Access} {write : Bool} (h : s.lets a write = true) : s.izgCheck a write = (true, s) := by
  have hl := (Bool.and_eq_true_iff.1 h).2
  unfold State.izgCheck
  cases hv : a.via with
  | some b => rfl
  | none =>
    rw [hv] at hl
    refine foldl_eq_of_fixed fun p hp => ?_
    have hp' := Bool.and_eq_true_iff.1 (List.all_eq_true.1 hl p hp)
    simp [lbxCheck_of_allows hp'.1 hp'.2]

/-- A write that nothing stops goes on to what it addresses. -/
theorem mayWrite_of_lets {s : State} {a : Access} (h : s.lets a true = true) : s.mayWrite a = (true, s) := by
  have hl := (Bool.and_eq_true_iff.1 h).2
  have hi := izgCheck_of_lets h
  unfold State.mayWrite
  cases hv : a.via with
  | none => simp [viaOk_of_lets h, hi]
  | some b =>
    simp only [hv, Bool.not_true, Bool.false_or, Bool.and_eq_true, Bool.not_eq_true', Bool.or_eq_true] at hl
    obtain ⟨hp, hs⟩ := hl
    simp only [viaOk_of_lets h, hp]
    rcases hs with hs | hs
    · have hbar : ¬ (b.fn.toNat = 0 ∧ b.bar = 0) := by simpa using hs
      rw [if_neg (by decide), if_neg (by decide), if_neg fun h => hbar ⟨h.1, h.2.1⟩]
    · simp [offOf, hs]

theorem regWrite_of_lets {s : State} {a : Access} (v : Nat) (h : s.lets a true = true) : s.regWrite a v = s.busWrite a v := by
  simp [State.regWrite, mayWrite_of_lets h]

theorem regRead_of_lets {s : State} {a : Access} (h : s.lets a false = true) :
    s.regRead a = (s.busRead a).2.emit (.readData (s.busRead a).1) := by
  simp [State.regRead, viaOk_of_lets h, izgCheck_of_lets h]

/-! ### What an access reaches -/

theorem regWrite_reg {s : State} {a : Access} {r : RegRow} {ix : List Nat} {key : Nat} (v : Nat) (h : s.lets a true = true)
    (hp : s.place a = .reg r ix key) (hd : s.domIsOff (placeDom a (.reg r ix key)) = false) :
    s.regWrite a v = s.regPut r ix key ((v % 2 ^ (coverOf a.addr.toNat a.size.toNat).2) <<< (coverOf a.addr.toNat a.size.toNat).1)
      ((2 ^ (coverOf a.addr.toNat a.size.toNat).2 - 1) <<< (coverOf a.addr.toNat a.size.toNat).1) := by
  rw [regWrite_of_lets v h]
  simp [State.busWrite, hp, hd, State.placeWrite, offOf]

theorem regRead_reg {s : State} {a : Access} {r : RegRow} {ix : List Nat} {key lo len : Nat} (h : s.lets a false = true)
    (hp : s.place a = .reg r ix key) (hd : s.domIsOff (placeDom a (.reg r ix key)) = false)
    (hc : coverOf a.addr.toNat a.size.toNat = (lo, len)) :
    s.regRead a = (s.rcClear r ix key lo len).emit (.readData (bf (s.regValue r ix key) lo len)) := by
  rw [regRead_of_lets h]
  simp [State.busRead, hp, hd, State.placeRead, offOf, hc]

theorem regWrite_unmapped {s : State} {a : Access} (v : Nat) (h : s.lets a true = true) (hp : s.place a = .unmapped) :
    s.regWrite a v = s.unmapped a true := by
  rw [regWrite_of_lets v h]; simp [State.busWrite, hp]

theorem regRead_unmapped {s : State} {a : Access} (h : s.lets a false = true) (hp : s.place a = .unmapped) :
    s.regRead a = (s.unmapped a false).emit (.readData 0) := by
  rw [regRead_of_lets h]; simp [State.busRead, hp]

theorem regWrite_domainOff {s : State} {a : Access} (v : Nat) (h : s.lets a true = true) (hp : s.place a ≠ .unmapped)
    (hd : s.domIsOff (placeDom a (s.place a)) = true) : s.regWrite a v = s.domainOffRec a.addr.toNat := by
  rw [regWrite_of_lets v h]; simp [State.busWrite, hp, hd, offOf]

theorem regRead_domainOff {s : State} {a : Access} (h : s.lets a false = true) (hp : s.place a ≠ .unmapped)
    (hd : s.domIsOff (placeDom a (s.place a)) = true) : s.regRead a = (s.domainOffRec a.addr.toNat).emit (.readData 0) := by
  rw [regRead_of_lets h]; simp [State.busRead, hp, hd, offOf]

theorem regPlace_eq_reg {s : State} {k : Nat} {r : RegRow} {ix : List Nat} {key : Nat} (h : s.regPlace k = .reg r ix key) :
    findReg key = some (r, ix) := by
  unfold State.regPlace at h
  split at h
  · split at h
    · cases h; assumption
    · cases h
  · cases h

theorem busPlace_eq_reg {s : State} {k n : Nat} {r : RegRow} {ix : List Nat} {key : Nat} (h : s.busPlace k n = .reg r ix key) :
    findReg key = some (r, ix) := by
  unfold State.busPlace at h
  split at h
  · cases h
  split at h
  · cases h
  split at h
  · exact regPlace_eq_reg h
  · cases h

theorem pagePlace_eq_reg {s : State} {acct p n k : Nat} {r : RegRow} {ix : List Nat} {key : Nat}
    (h : s.pagePlace acct p n k = .reg r ix key) : findReg key = some (r, ix) := by
  unfold State.pagePlace at h
  split at h
  · cases h
  split at h
  · split at h
    · exact regPlace_eq_reg h
    · cases h
  split at h
  · exact regPlace_eq_reg h
  · cases h

theorem msixPlace_ne_reg {n fn base off size : Nat} {r : RegRow} {ix : List Nat} {key : Nat} :
    msixPlace n fn base off size ≠ .reg r ix key := by
  unfold msixPlace
  split
  · nofun
  split
  · nofun
  split <;> nofun

/-- A register that an access reaches is the one that the register tables have at its address. -/
theorem findReg_of_place {s : State} {a : Access} {r : RegRow} {ix : List Nat} {key : Nat} (h : s.place a = .reg r ix key) :
    findReg key = some (r, ix) := by
  unfold State.place at h
  dsimp only at h
  split at h
  · exact busPlace_eq_reg h
  split at h
  · split at h
    · split at h
      · exact regPlace_eq_reg h
      · cases h
    split at h
    · exact absurd h msixPlace_ne_reg
    · cases h
  split at h
  · cases h
  split at h
  · cases h
  -- PF1 in slice style and the other functions differ in where their tables lie and in the page alone
  split at h
  all_goals
    split at h
    · exact absurd h msixPlace_ne_reg
    split at h
    · cases h
    split at h
    · exact pagePlace_eq_reg h
    · cases h

/-- What `findReg` finds: a row of the tables, and the indices that the offset in it names. -/
theorem findReg_spec {key : Nat} {r : RegRow} {ix : List Nat} (h : findReg key = some (r, ix)) :
    r ∈ regRows ∧ r.base ≤ key ∧ regIndex r.dims (key - r.base) = some ix := by
  obtain ⟨q, hq, hf⟩ := List.exists_of_findSome?_eq_some h
  split at hf
  · next hle =>
    obtain ⟨jx, hj, he⟩ := Option.map_eq_some_iff.1 hf
    cases he
    exact ⟨hq, hle, hj⟩
  · cases hf

/-- A register's address is its own: no other register of the tables lies at it. -/
theorem base_of_findReg {r : RegRow} {key : Nat} {ix : List Nat} (hk : findReg key = some (r, ix)) {b : Nat}
    (h : (findReg key).map (·.1.base) = some b) : r.base = b := by
  rw [hk] at h
  exact Option.some.inj h

/-! ### Writing a register field by field (`State.regPut`) -/

/-- What `State.regPut` does with one field: the register's word so far, the state and whether a locked field was met. -/
def fieldStep (r : RegRow) (ix : List Nat) (key new cov : Nat) : Nat × State × Bool → Nat × Nat × Acc → Nat × State × Bool
  | (w, s, lk), (lo, len, ty) =>
    let m := ((2 ^ len - 1) <<< lo) &&& cov
    if m = 0 ∨ ownFields.contains (r.base, lo) then (w, s, lk)
    else if actAcc r ix ty = .rwl ∧ s.on IZG_LOCK.lock then (w, s, true)
    else if actAcc r ix ty ≠ .ro ∧ s.fieldHeld r ix lo (bf new lo len) then (w, s.fieldHeldRec r ix lo (bf new lo len) key, lk)
    else (accWrite (actAcc r ix ty) w new m, s, lk)

/-- A write that the register does not refuse whole goes through its fields one by one. -/
theorem regPut_of_not_refused {s : State} {r : RegRow} {ix : List Nat} {key : Nat} (new cov : Nat) (h : s.regRefuse r ix key = none) :
    s.regPut r ix key new cov =
      let old := (s.word (RF.whole key (r.rst.value ix))).toNat
      let p := r.fields.foldl (fieldStep r ix key new cov) (old, s, false)
      let u := p.2.1.setWord (RF.whole key (r.rst.value ix)) (BitVec.ofNat 64 (normWord r ix p.1 new))
      (if p.2.2 then u.raise kLOCKED_WRITE (srcOf 0 0) key 0 else u).regHook r ix old new cov (normWord r ix p.1 new) := by
  unfold State.regPut
  rw [h]
  rfl

/-! ### The registers with RWL fields -/

/-- The base addresses of the registers with a field that IZG_LOCK can lock (00 R9; 10 R389). -/
def lockBases : List Nat :=
  [PWR_THERM.reg.addr, (HBI_LINK_CFG.reg 0).addr, (HBI_SUBSYS.reg 0).addr, (ACC_CHARTER_RANGE.reg 0).addr, (CLH_REACT.reg 0).addr,
    (LBX_STAGE.reg 0 0).addr]

theorem rwl_rows : ∀ r ∈ regRows, ∀ f ∈ r.fields, f.2.2 = .rwl → r.base ∈ lockBases := by decide +kernel

/-- The fields of a register lie apart, in rising order, and none is empty. -/
theorem fields_apart : ∀ r ∈ regRows, r.fields.Pairwise (fun f g => f.1 + f.2.1 ≤ g.1) ∧ ∀ f ∈ r.fields, 0 < f.2.1 := by decide +kernel

/-- PWR_THERM is one register, and the alert limit its one RWL field. -/
theorem therm_row : ∀ r ∈ regRows, r.base = PWR_THERM.reg.addr →
    r.dims = [] ∧ r.rst = .const 0x46e0376 ∧ ∀ f ∈ r.fields, f.2.2 = .rwl → f = (0, 8, .rwl) := by decide +kernel

theorem base_mem_lockBases {r : RegRow} {ix : List Nat} {l n : Nat} {acc : Acc} (hr : r ∈ regRows) (hf : (l, n, acc) ∈ r.fields)
    (ha : actAcc r ix acc = .rwl) : r.base ∈ lockBases := by
  unfold actAcc at ha
  split at ha
  · next h => rw [h.1]; decide
  · exact rwl_rows r hr _ hf ha

/-- Two fields of a register are one or lie apart. -/
theorem field_eq_or_apart {r : RegRow} (hr : r ∈ regRows) {f g : Nat × Nat × Acc} (hf : f ∈ r.fields) (hg : g ∈ r.fields) :
    f = g ∨ f.1 + f.2.1 ≤ g.1 ∨ g.1 + g.2.1 ≤ f.1 := by
  have hp := (fields_apart r hr).1
  exact List.Pairwise.forall_of_forall_of_flip (R := fun f g => f = g ∨ f.1 + f.2.1 ≤ g.1 ∨ g.1 + g.2.1 ≤ f.1)
    (fun _ _ => .inl rfl) (hp.imp fun h => .inr (.inl h)) (hp.imp fun h => .inr (.inr h)) hf hg

/-- The one field of PWR_THERM that is locked is the alert limit. -/
theorem therm_field {r : RegRow} {ix : List Nat} {l n : Nat} {acc : Acc} (hr : r ∈ regRows) (h : r.base = PWR_THERM.reg.addr)
    (hf : (l, n, acc) ∈ r.fields) (ha : actAcc r ix acc = .rwl) : l = 0 ∧ n = 8 := by
  rw [actAcc, h] at ha
  have he : (l, n, acc) = (0, 8, .rwl) := (therm_row r hr h).2.2 _ hf ha
  cases he
  exact ⟨rfl, rfl⟩

section Locked
variable {r : RegRow} (hb : r.base ∈ lockBases)
include hb

/-- No field of theirs is written by a command of its own. -/
theorem not_ownField_of_locked (l : Nat) : ownFields.contains (r.base, l) = false := by
  have h : ∀ b ∈ lockBases, ∀ p ∈ ownFields, p.1 ≠ b := by decide
  exact Bool.eq_false_iff.2 fun hm => h _ hb _ (List.contains_iff_mem.1 hm) rfl

/-- No rule of theirs holds a field back. -/
theorem fieldHeld_of_locked (s : State) (ix : List Nat) (l v : Nat) : s.fieldHeld r ix l v = false := by
  simp only [lockBases, List.mem_cons, List.not_mem_nil, or_false] at hb
  rcases hb with h | h | h | h | h | h <;> rw [State.fieldHeld, h] <;> rfl

/-- What follows from their values is at most the Clearing house's reactions or the throttle. -/
theorem regHook_of_locked (s : State) (ix : List Nat) (old new cov w : Nat) :
    s.regHook r ix old new cov w = s ∨ s.regHook r ix old new cov w = s.clhUpd ∨ s.regHook r ix old new cov w = s.throttleUpd := by
  simp only [lockBases, List.mem_cons, List.not_mem_nil, or_false] at hb
  rcases hb with h | h | h | h | h | h <;> rw [State.regHook, h]
  · exact .inr (.inr rfl)
  · exact .inl rfl
  · exact .inl rfl
  · exact .inl rfl
  · exact .inr (.inl rfl)
  · exact .inl rfl

/-- The form in which the register gives back a value has the same bits in its locked fields, the alert limit holding at most 125. -/
theorem testBit_normWord_of_locked {ix : List Nat} {l n acc} (hr : r ∈ regRows) (hf : (l, n, acc) ∈ r.fields) (ha : actAcc r ix acc = .rwl)
    {w : Nat} (raw : Nat) (ht : r.base = PWR_THERM.reg.addr → bf w 0 8 ≤ 125) {i : Nat} (h1 : l ≤ i) (h2 : i < l + n) :
    (normWord r ix w raw).testBit i = w.testBit i := by
  simp only [lockBases, List.mem_cons, List.not_mem_nil, or_false] at hb
  rcases hb with h | h | h | h | h | h <;> rw [normWord, h]
  case inl =>
    obtain ⟨rfl, rfl⟩ := therm_field hr h hf ha
    have hi : i < 8 := by omega
    have hm : (0xFF : Nat).testBit i = true := (Nat.testBit_two_pow_sub_one 8 i).trans (decide_eq_true hi)
    show ((_ ^^^ (_ &&& 0xFF)) ||| min 125 (bf w 0 8)).testBit i = _
    rw [Nat.min_eq_right (ht h), Nat.testBit_or, Nat.testBit_xor, Nat.testBit_and, hm, bf_testBit]
    simp [hi]
  all_goals rfl

/-- One field of theirs, a locked one among them: the state stays, bits `l` up to `l + n` of the word stay, and the locked field is noted. -/
theorem fieldStep_of_locked {s : State} {ix : List Nat} {key cov l n : Nat} {acc : Acc} (new : Nat) (hlock : s.on IZG_LOCK.lock = true)
    (ha : actAcc r ix acc = .rwl) (hm : ((2 ^ n - 1) <<< l) &&& cov ≠ 0) {f : Nat × Nat × Acc}
    (hf : (l, n, acc) = f ∨ l + n ≤ f.1 ∨ f.1 + f.2.1 ≤ l) (w : Nat) (lk : Bool) :
    ∃ w' lk', fieldStep r ix key new cov (w, s, lk) f = (w', s, lk') ∧ (∀ i, l ≤ i → i < l + n → w'.testBit i = w.testBit i) ∧
      (lk = true ∨ (l, n, acc) = f → lk' = true) := by
  obtain ⟨lo, len, ty⟩ := f
  simp only [fieldStep, not_ownField_of_locked hb, fieldHeld_of_locked hb, hlock, Bool.false_eq_true, or_false, and_false, and_true, if_false]
  split
  · next h0 =>
    exact ⟨w, lk, rfl, fun _ _ _ => rfl, fun h => h.elim id fun e => by cases e; exact absurd h0 hm⟩
  split
  · exact ⟨w, true, rfl, fun _ _ _ => rfl, fun _ => rfl⟩
  · next hty =>
    refine ⟨_, lk, rfl, fun i h1 h2 => testBit_accWrite_of_uncovered _ _ _ ?_, fun h => h.elim id fun e => by cases e; exact absurd ha hty⟩
    rcases hf with e | hf
    · cases e; exact absurd ha hty
    · have hout : (decide (lo ≤ i) && decide (i - lo < len)) = false := by
        simp only [Bool.and_eq_false_iff, decide_eq_false_iff_not]
        dsimp only at hf
        omega
      rw [Nat.testBit_and, testBit_ones_shiftLeft, hout, Bool.false_and]

/-- All fields of such a register in turn. -/
theorem foldl_fieldStep_of_locked {s : State} {ix : List Nat} {key cov l n : Nat} {acc : Acc} (new : Nat) (hlock : s.on IZG_LOCK.lock = true)
    (ha : actAcc r ix acc = .rwl) (hm : ((2 ^ n - 1) <<< l) &&& cov ≠ 0) {fs : List (Nat × Nat × Acc)}
    (hfs : ∀ f ∈ fs, (l, n, acc) = f ∨ l + n ≤ f.1 ∨ f.1 + f.2.1 ≤ l) (w : Nat) (lk : Bool) :
    ∃ w' lk', fs.foldl (fieldStep r ix key new cov) (w, s, lk) = (w', s, lk') ∧ (∀ i, l ≤ i → i < l + n → w'.testBit i = w.testBit i) ∧
      (lk = true ∨ (l, n, acc) ∈ fs → lk' = true) := by
  induction fs generalizing w lk with
  | nil => exact ⟨w, lk, rfl, fun _ _ _ => rfl, fun h => h.elim id nofun⟩
  | cons f fs ih =>
    obtain ⟨w1, lk1, he, hw, hl⟩ := fieldStep_of_locked hb (key := key) new hlock ha hm (hfs f (List.mem_cons_self ..)) w lk
    obtain ⟨w2, lk2, he', hw', hl'⟩ := ih (fun g hg => hfs g (List.mem_cons_of_mem _ hg)) w1 lk1
    refine ⟨w2, lk2, by rw [List.foldl_cons, he, he'], fun i h1 h2 => (hw' i h1 h2).trans (hw i h1 h2), fun h => ?_⟩
    rcases h with h | h
    · exact hl' (.inl (hl (.inl h)))
    · rcases List.mem_cons.1 h with h | h
      · exact hl' (.inl (hl (.inr h)))
      · exact hl' (.inr h)

end Locked

/-! ### What the hooks of those registers leave -/

theorem word_set_of_ne (s : State) (r q : RF) (v : Nat) (h : q.addr ≠ r.addr) : (s.set r v).word q = s.word q := by
  rw [State.set, word_setWord s r q _ (fun e => absurd e h), if_neg h]

/-- The throttle writes PWR_TEMP and PWR_EVT alone, and at most raises a record. -/
theorem throttleUpd_keeps (s : State) :
    (∀ q : RF, q.addr ∉ [PWR_TEMP.reg.addr, PWR_EVT.reg.addr] → s.throttleUpd.word q = s.word q) ∧ ∀ x ∈ s.clhIn, x ∈ s.throttleUpd.clhIn := by
  unfold State.throttleUpd
  dsimp only
  split
  · exact ⟨fun _ _ => rfl, fun _ h => h⟩
  split
  · refine ⟨fun q hq => ?_, fun x h => mem_raise_clhIn _ _ _ _ h⟩
    simp only [List.mem_cons, List.not_mem_nil, or_false, not_or] at hq
    rw [State.raise_word, word_set_of_ne _ PWR_EVT.throttle_on _ _ hq.2, word_set_of_ne _ PWR_TEMP.throttled _ _ hq.1]
  · refine ⟨fun q hq => ?_, fun x h => h⟩
    simp only [List.mem_cons, List.not_mem_nil, or_false, not_or] at hq
    rw [word_set_of_ne _ PWR_EVT.throttle_off _ _ hq.2, word_set_of_ne _ PWR_TEMP.throttled _ _ hq.1]

/-- FAULT_N and its latch write CLH_STAT alone. -/
theorem faultUpd_keeps (s : State) : (∀ q : RF, q.addr ≠ CLH_STAT.reg.addr → s.faultUpd.word q = s.word q) ∧ s.faultUpd.clhIn = s.clhIn := by
  unfold State.faultUpd
  lift_lets
  intro _ _ _ _ low u
  have hu : ∀ q : RF, q.addr ≠ CLH_STAT.reg.addr → u.word q = s.word q := fun q hq => by
    show State.word (State.set _ CLH_STAT.fault_pin _) q = _
    rw [word_set_of_ne _ CLH_STAT.fault_pin _ _ hq, word_set_of_ne _ CLH_STAT.uncleared _ _ hq, word_set_of_ne _ CLH_STAT.max_sev _ _ hq]
  split
  · exact ⟨hu, rfl⟩
  · exact ⟨hu, rfl⟩

/-- The registers that the hooks of the registers with RWL fields write. -/
def hookAddrs : List Nat := [PWR_TEMP.reg.addr, PWR_EVT.reg.addr, CLH_STAT.reg.addr]

theorem regHook_keeps {r : RegRow} (hb : r.base ∈ lockBases) (s : State) (ix : List Nat) (old new cov w : Nat) :
    (∀ q : RF, q.addr ∉ hookAddrs → (s.regHook r ix old new cov w).word q = s.word q) ∧
      ∀ x ∈ s.clhIn, x ∈ (s.regHook r ix old new cov w).clhIn := by
  have ht (u : State) (q : RF) (hq : q.addr ∉ hookAddrs) : u.throttleUpd.word q = u.word q :=
    (throttleUpd_keeps u).1 q fun h => hq (by simp only [hookAddrs, List.mem_cons] at h ⊢; tauto)
  rcases regHook_of_locked hb s ix old new cov w with h | h | h <;> rw [h]
  · exact ⟨fun _ _ => rfl, fun _ h => h⟩
  · have hf := faultUpd_keeps s
    refine ⟨fun q hq => (ht _ q hq).trans (hf.1 q fun h => hq (by simp [hookAddrs, h])), fun x h => (throttleUpd_keeps _).2 x ?_⟩
    rw [hf.2]; exact h
  · exact ⟨ht s, (throttleUpd_keeps s).2⟩

theorem not_mem_hookAddrs {r : RegRow} {ix : List Nat} {key : Nat} (hb : r.base ∈ lockBases) (hk : findReg key = some (r, ix)) :
    key ∉ hookAddrs := by
  have h1 : ∀ k ∈ hookAddrs, (findReg k).map (·.1.base) = some k := by decide +kernel
  have h2 : ∀ k ∈ hookAddrs, k ∉ lockBases := by decide
  exact fun h => h2 key h (base_of_findReg hk (h1 key h) ▸ hb)

/-! ### A write after IZG_LOCK (00 R9) -/

/-- A field that a write meets has a bit in the part written. -/
theorem field_meets {l n lo len : Nat} (hn : 0 < n) (hlen : 0 < len) (h1 : lo < l + n) (h2 : l < lo + len) :
    ((2 ^ n - 1) <<< l) &&& ((2 ^ len - 1) <<< lo) ≠ 0 := by
  intro h
  have hb : (((2 ^ n - 1) <<< l) &&& ((2 ^ len - 1) <<< lo)).testBit (max l lo) = true := by
    rw [Nat.testBit_and, testBit_ones_shiftLeft, testBit_ones_shiftLeft]
    simp only [Bool.and_eq_true, decide_eq_true_eq]
    omega
  rw [h, Nat.zero_testBit] at hb
  cases hb

/-- Where PWR_THERM is the register written, its word is the one that holds the alert limit. -/
theorem therm_word {r : RegRow} {ix : List Nat} {key : Nat} (s : State) (hk : findReg key = some (r, ix)) (h : r.base = PWR_THERM.reg.addr) :
    s.word (RF.whole key (r.rst.value ix)) = s.word PWR_THERM.reg := by
  obtain ⟨hr, hle, hi⟩ := findReg_spec hk
  obtain ⟨hd, hv, -⟩ := therm_row r hr h
  have hkey : key = PWR_THERM.reg.addr := by
    rw [hd, regIndex] at hi
    split at hi
    · omega
    · cases hi
  rw [hkey, hv]
  rfl

/-- A write that meets a locked field leaves it as it was and raises LOCKED_WRITE with the register's address. -/
theorem regPut_locked {s : State} {r : RegRow} {ix : List Nat} {key new cov l n : Nat} {acc : Acc} (hk : findReg key = some (r, ix))
    (hn : s.regRefuse r ix key = none) (hlock : s.on IZG_LOCK.lock = true) (hf : (l, n, acc) ∈ r.fields) (ha : actAcc r ix acc = .rwl)
    (hm : ((2 ^ n - 1) <<< l) &&& cov ≠ 0) (ht : s.get PWR_THERM.throttle_c ≤ 125) :
    (s.regPut r ix key new cov).get ⟨key, r.rst.value ix, l, n⟩ = s.get ⟨key, r.rst.value ix, l, n⟩ ∧
      ∃ x ∈ (s.regPut r ix key new cov).clhIn, x.kind = kLOCKED_WRITE ∧ x.sev = 0 ∧ x.addr = key := by
  have hr := (findReg_spec hk).1
  have hb := base_mem_lockBases hr hf ha
  obtain ⟨w, lk, hfold, hw, hl⟩ := foldl_fieldStep_of_locked hb (key := key) new hlock ha hm
    (fun g hg => field_eq_or_apart hr hf hg) (s.word (RF.whole key (r.rst.value ix))).toNat false
  have hlk : lk = true := hl (.inr hf)
  subst hlk
  rw [regPut_of_not_refused new cov hn]
  dsimp only
  rw [hfold, if_pos rfl]
  refine ⟨?_, _, (regHook_keeps hb ..).2 _ (mem_recInsert.2 (.inl rfl)), rfl, rfl, rfl⟩
  rw [State.get, (regHook_keeps hb ..).1 ⟨key, _, l, n⟩ (not_mem_hookAddrs hb hk), State.raise_word, word_setWord_whole]
  refine bf_toNat_ofNat _ fun i h1 h2 => ?_
  rw [testBit_normWord_of_locked hb hr hf ha new (fun hbase => ?_) h1 h2, hw i h1 h2]
  · rfl
  · obtain ⟨rfl, rfl⟩ := therm_field hr hbase hf ha
    rw [bf_congr hw, therm_word s hk hbase]
    exact ht

/-- Settles O10: the write goes through the fields, the locked one keeps its bits, and what follows from the register's value leaves both
the field and the record (`regPut_locked`). -/
theorem lockedFieldsStay : Obligations.LockedFieldsStay := by
  intro a v s r ix key lo len l n acc hlets hp hd hn hc hlock hf ha h1 h2 ht
  have hk := findReg_of_place hp
  have hlen : 0 < len := by
    unfold coverOf at hc
    split at hc
    · cases hc; decide
    · split at hc <;> cases hc <;> decide
  have hpos : 0 < n := (fields_apart r (findReg_spec hk).1).2 _ hf
  refine ⟨_, rfl, ?_⟩
  rw [regWrite_reg v.toNat hlets hp hd, hc]
  exact regPut_locked hk hn hlock hf ha (field_meets hpos hlen h1 h2) ht

/-! ### Reading (00 R4, R8) -/

/-- The bits of the RC fields of a register that lie wholly in the bits read. -/
def rcMask (r : RegRow) (lo len : Nat) : Nat :=
  maskOf ((r.fields.filter fun (l, n, acc) => acc == .rc && decide (lo ≤ l ∧ l + n ≤ lo + len)).flatMap
    fun (l, n, _) => (List.range n).map (· + l))

/-- The state with those bits of a register clear. -/
def rcCleared (s : State) (r : RegRow) (ix : List Nat) (key lo len : Nat) : State :=
  s.setWord (RF.whole key (r.rst.value ix)) (BitVec.ofNat 64 ((s.word (RF.whole key (r.rst.value ix))).toNat ^^^
    ((s.word (RF.whole key (r.rst.value ix))).toNat &&& rcMask r lo len)))

/-- What a read clears; RTE_PORT_STAT3 then takes the depths as they stand (04 Table 4.24). -/
theorem rcClear_eq (s : State) (r : RegRow) (ix : List Nat) (key lo len : Nat) :
    s.rcClear r ix key lo len =
      if r.base = (RTE_PORT_STAT3.reg 0).addr then (rcCleared s r ix key lo len).qUpd (ix.headD 0) else rcCleared s r ix key lo len := rfl

theorem testBit_rcMask {r : RegRow} {lo len l n i : Nat} (hf : (l, n, Acc.rc) ∈ r.fields) (h1 : lo ≤ l) (h2 : l + n ≤ lo + len) (h3 : l ≤ i)
    (h4 : i < l + n) : (rcMask r lo len).testBit i = true := by
  rw [rcMask, testBit_maskOf, decide_eq_true_eq, List.mem_flatMap]
  exact ⟨(l, n, .rc), List.mem_filter.2 ⟨hf, by simp [h1, h2]⟩, List.mem_map.2 ⟨i - l, List.mem_range.2 (by omega), by omega⟩⟩

/-- An RC field wholly in the bits read is 0 afterwards. -/
theorem get_rcCleared (s : State) {r : RegRow} (ix : List Nat) (key : Nat) {lo len l n : Nat} (hf : (l, n, Acc.rc) ∈ r.fields) (h1 : lo ≤ l)
    (h2 : l + n ≤ lo + len) : (rcCleared s r ix key lo len).get ⟨key, r.rst.value ix, l, n⟩ = 0 := by
  have h0 : bf (0 : Word).toNat l n = 0 := by simp [bf]
  rw [State.get, rcCleared, word_setWord_whole, ← h0]
  refine bf_toNat_ofNat 0 fun i h3 h4 => ?_
  simp [testBit_rcMask hf h1 h2 h3 h4]

theorem rcCleared_sameBut (s : State) (r : RegRow) (ix : List Nat) (key lo len : Nat) : SameBut [key] s (rcCleared s r ix key lo len) :=
  (SameBut.refl _ s).setWord _ _ (List.mem_singleton.2 rfl)

/-- The queue depths of a port are those of its one register. -/
theorem qUpd_sameBut {as : List Nat} {s t : State} (h : SameBut as s t) (p : Nat) (m : (RTE_PORT_STAT3.reg p).addr ∈ as) :
    SameBut as s (t.qUpd p) :=
  ((h.set (RTE_PORT_STAT3.qdepth_rq p) _ m).set (RTE_PORT_STAT3.qdepth_rp p) _ m).set (RTE_PORT_STAT3.qdepth_max p) _ m

/-- The greatest depth, where it starts from 0, is the present one. -/
theorem qUpd_qdepth_max {s : State} {p : Nat} (h : s.get (RTE_PORT_STAT3.qdepth_max p) = 0) :
    (s.qUpd p).get (RTE_PORT_STAT3.qdepth_max p) = min (s.queued 0 p + s.queued 1 p) 0xFFFF := by
  have hlt : min (s.queued 0 p + s.queued 1 p) 0xFFFF < 2 ^ 16 := by omega
  have hm (v w : Nat) :
      ((s.set (RTE_PORT_STAT3.qdepth_rq p) v).set (RTE_PORT_STAT3.qdepth_rp p) w).get (RTE_PORT_STAT3.qdepth_max p) = 0 := by
    rw [get_set_field _ (RTE_PORT_STAT3.qdepth_rp p) (RTE_PORT_STAT3.qdepth_max p) _ rfl rfl (by show 16 + 16 ≤ 64; decide)
        (.inr (by show 16 + 16 ≤ 32; decide)),
      get_set_field _ (RTE_PORT_STAT3.qdepth_rq p) (RTE_PORT_STAT3.qdepth_max p) _ rfl rfl (by show 0 + 16 ≤ 64; decide)
        (.inr (by show 0 + 16 ≤ 32; decide)), h]
  rw [State.qUpd, get_set_same _ _ _ (by show 32 + 16 ≤ 64; decide), hm, Nat.zero_max]
  exact Nat.mod_eq_of_lt hlt

/-- RTE_PORT_STAT3 is one register a port, with the greatest depth as an RC field. -/
theorem queue_row : ∀ r ∈ regRows, r.base = (RTE_PORT_STAT3.reg 0).addr →
    r.dims = [(0x20, 64)] ∧ r.rst = .const 0 ∧ (32, 16, Acc.rc) ∈ r.fields := by decide +kernel

theorem queue_reg {r : RegRow} {ix : List Nat} {key : Nat} (hk : findReg key = some (r, ix)) (h : r.base = (RTE_PORT_STAT3.reg 0).addr) :
    RF.whole key (r.rst.value ix) = RTE_PORT_STAT3.reg (ix.headD 0) := by
  obtain ⟨hr, hle, hi⟩ := findReg_spec hk
  obtain ⟨hd, hv, -⟩ := queue_row r hr h
  have hbase : (RTE_PORT_STAT3.reg 0).addr = 0x2008018 := rfl
  have hkey : key = 0x2008018 + 0x20 * ix.headD 0 := by
    rw [hd, regIndex] at hi
    split at hi
    · rw [regIndex] at hi
      split at hi
      · cases hi
        simp only [List.headD_cons]
        omega
      · cases hi
    · cases hi
  rw [hkey, hv]
  rfl

/-- What a read of a register leaves (00 R4, R8; 04 Table 4.24). -/
theorem rcClear_sameBut {s : State} {r : RegRow} {ix : List Nat} {key : Nat} (lo len : Nat) (hk : findReg key = some (r, ix)) :
    SameBut [key] s (s.rcClear r ix key lo len) := by
  rw [rcClear_eq]
  split
  · next h => exact qUpd_sameBut (rcCleared_sameBut ..) _ (List.mem_singleton.2 (congrArg RF.addr (queue_reg hk h)).symm)
  · exact rcCleared_sameBut ..

theorem rcClear_qdepth_max {s : State} {r : RegRow} {ix : List Nat} {key lo len : Nat} (hk : findReg key = some (r, ix))
    (h : r.base = (RTE_PORT_STAT3.reg 0).addr) (h1 : lo ≤ 32) (h2 : 48 ≤ lo + len) :
    (s.rcClear r ix key lo len).get (RTE_PORT_STAT3.qdepth_max (ix.headD 0)) =
      min (s.queued 0 (ix.headD 0) + s.queued 1 (ix.headD 0)) 0xFFFF := by
  have hq := queue_reg hk h
  have h0 := get_rcCleared s ix key (queue_row r (findReg_spec hk).1 h).2.2 h1 h2
  rw [rcClear_eq, if_pos h, qUpd_qdepth_max]
  · rfl
  · rw [RTE_PORT_STAT3.qdepth_max, ← hq]
    exact h0

/-! ### Writes that are commands of their own -/

/-- Every such command is made by reaching its register. -/
theorem exec_of_ownWrite {s : State} {c : Instr} {wr : Writer} {r : RF} {x : Nat} (h : s.ownWrite c = some (wr, r, x)) :
    ∃ f, exec c s = .next (s.reaching wr r x f) := by
  cases c <;> cases h <;> exact ⟨_, rfl⟩

/-- One of a Mover channel and the same by Izger do the same once they have reached the register. -/
theorem exec_byIzger {s : State} {c d : Instr} {ch : MovNo} {r : RF} {x : Nat} (h : s.ownWrite c = some (some (.mover ch), r, x))
    (hd : ByIzger c d) (rest : List MovWrite) :
    ∃ f y, exec c s = .next (s.reaching (some (.mover ch)) r x f) ∧
      exec d { s with movOwn := rest } = .next (State.reaching { s with movOwn := rest } none r y f) := by
  cases hd
  case enroll c | revoke c | raiseFloor c | unlock c | rma c | securityCommandUnknown c =>
    obtain ⟨fuseOk, _ | w⟩ := c
    · cases h
    · cases h
      exact ⟨_, _, rfl, rfl⟩
  all_goals
    cases h
    exact ⟨_, _, rfl, rfl⟩

/-- A write that does not reach its register does no more than what stops it does. -/
theorem reaching_of_stopped {s t : State} {wr : Writer} {r : RF} (x : Nat) (f : State → State) (hw : ∀ ch, wr ≠ some (.mover ch))
    (h : s.reach wr r.addr = (false, t)) : s.reaching wr r x f = t := by
  unfold State.reaching
  split
  · next ch => exact absurd rfl (hw ch)
  · simp [h]

theorem reaching_of_lands {s : State} {wr : Writer} {r : RF} (x : Nat) (f : State → State) (h : s.Lands wr r.addr) :
    s.reaching wr r x f = f s := by
  have hw : ∀ ch, wr ≠ some (.mover ch) := by
    rintro ch rfl
    cases h
  unfold State.reaching
  split
  · next ch => exact absurd rfl (hw ch)
  · rw [h]

theorem takeFirst_eq_none {α : Type} {p : α → Bool} {l : List α} (h : l.any p = false) : takeFirst p l = none := by
  induction l with
  | nil => rfl
  | cons a l ih =>
    obtain ⟨h1, h2⟩ := Bool.or_eq_false_iff.1 h
    simp [takeFirst, h1, ih h2]

/-- A write of Izger to an aligned register, in no COLD device and allowed by the active pair's Lockbox, is made. -/
theorem mayWrite_izger {s : State} {addr : Nat} (h48 : addr < 2 ^ 48) (h8 : addr % 8 = 0) (hpor : s.boot.por = false)
    (htrip : s.pwr.tripped = false) (hl : s.lbxAllows (s.get IZG_PAIR_STAT.active) addr true = true) :
    s.mayWrite (accessBy none addr) = (true, s) := by
  have hcut : cutOf addr 8 = [(addr, 8)] := by
    have hmin : min 8 (4096 - addr % 4096) = 8 := by omega
    simp [cutOf, pageCut, hmin]
  have hact : s.get IZG_PAIR_STAT.active < 2 := get_lt s IZG_PAIR_STAT.active
  refine mayWrite_of_lets ?_
  have ha : (accessBy none addr).addr.toNat = addr := Nat.mod_eq_of_lt h48
  rw [State.lets, State.viaOk, ha]
  show (_ && (cutOf addr 8).all _) = true
  simp [hcut, hpor, htrip, hl, hact, accessBy]

theorem reach_domainOff {s : State} {addr : Nat} (hm : s.mayWrite (accessBy none addr) = (true, s)) (h : (s.reach none addr).1 = false) :
    s.reach none addr = (false, s.domainOffRec addr) := by
  unfold State.reach at h ⊢
  simp only [hm] at h ⊢
  split at h
  · next hd => rw [if_pos hd]
  · cases h

/-! ### The clauses -/

/-- A register write that reaches a register. -/
theorem registerWrite_completes {a : Access} (v : BitVec 64) {s : State} {r : RegRow} {ix : List Nat} {key : Nat} (h : s.lets a true = true)
    (hp : s.place a = .reg r ix key) (hd : s.domIsOff (placeDom a (.reg r ix key)) = false) :
    Completes (.registerWrite a v) s fun t =>
      t = s.regPut r ix key ((v.toNat % 2 ^ (coverOf a.addr.toNat a.size.toNat).2) <<< (coverOf a.addr.toNat a.size.toNat).1)
        ((2 ^ (coverOf a.addr.toNat a.size.toNat).2 - 1) <<< (coverOf a.addr.toNat a.size.toNat).1) :=
  ⟨_, rfl, regWrite_reg v.toNat h hp hd⟩

/-- A register read that reaches a register. -/
theorem rcRead_completes {a : Access} {s : State} {r : RegRow} {ix : List Nat} {key lo len : Nat} (h : s.lets a false = true)
    (hp : s.place a = .reg r ix key) (hd : s.domIsOff (placeDom a (.reg r ix key)) = false)
    (hc : coverOf a.addr.toNat a.size.toNat = (lo, len)) :
    Completes (.rcRead a) s fun t =>
      t.out = .readData (bf (s.regValue r ix key) lo len) :: s.out ∧
      (r.base ≠ (RTE_PORT_STAT3.reg 0).addr →
        ∀ l n, (l, n, Acc.rc) ∈ r.fields → lo ≤ l → l + n ≤ lo + len → t.get ⟨key, r.rst.value ix, l, n⟩ = 0) ∧
      (r.base = (RTE_PORT_STAT3.reg 0).addr → lo ≤ 32 → 48 ≤ lo + len →
        t.get (RTE_PORT_STAT3.qdepth_max (ix.headD 0)) = min (s.queued 0 (ix.headD 0) + s.queued 1 (ix.headD 0)) 0xFFFF) ∧
      SameBut [key] { s with out := t.out } t := by
  have hk := findReg_of_place hp
  obtain ⟨hrest, hword⟩ := rcClear_sameBut (s := s) lo len hk
  refine ⟨_, rfl, ?_⟩
  rw [regRead_reg h hp hd hc]
  refine ⟨?out, fun hne l n hf h1 h2 => ?rc, fun he h1 h2 => rcClear_qdepth_max hk he h1 h2, ?rest, hword⟩
  case out => rw [State.emit_out, hrest]
  case rc =>
    rw [rcClear_eq, if_neg hne]
    exact get_rcCleared s ix key hf h1 h2
  case rest => rw [hrest]; rfl

/-- An access to an unmapped offset, which nothing stops before. -/
theorem unmappedAccess_completes {a : Access} {write : Bool} {s : State} (h : s.lets a write = true) (hp : s.place a = .unmapped) :
    Completes (.unmappedAccess a write) s fun t =>
      t = { s with clhIn := t.clhIn, out := t.out } ∧ t.out = (if write then s.out else .readData 0 :: s.out) ∧
      ∃ r, t.clhIn = recInsert r s.clhIn ∧ r.kind = kUNMAPPED ∧ r.addr = a.addr.toNat := by
  have hif : s.place a = .unmapped ∧ s.viaOk a = true := ⟨hp, viaOk_of_lets h⟩
  refine ⟨_, rfl, ?_⟩
  rw [if_pos hif]
  cases write
  · rw [if_neg Bool.false_ne_true, regRead_unmapped h hp]
    exact ⟨rfl, rfl, _, rfl, rfl, rfl⟩
  · rw [if_pos rfl, regWrite_unmapped 0 h hp]
    exact ⟨rfl, rfl, _, rfl, rfl, rfl⟩

/-- An access to a block whose domain is off, which nothing stops before. -/
theorem domainOffAccess_completes {a : Access} {write : Bool} {s : State} (h : s.lets a write = true) (hp : s.place a ≠ .unmapped)
    (hd : s.domIsOff (placeDom a (s.place a)) = true) :
    Completes (.domainOffAccess a write) s fun t =>
      t = { s with clhIn := t.clhIn, out := t.out } ∧ t.out = (if write then s.out else .readData 0 :: s.out) ∧
      ∃ r, t.clhIn = recInsert r s.clhIn ∧ r.kind = kDOMAIN_OFF ∧ r.sev = 0 ∧ r.addr = a.addr.toNat := by
  have hif : s.place a ≠ .unmapped ∧ s.domIsOff (placeDom a (s.place a)) = true ∧ s.viaOk a = true := ⟨hp, hd, viaOk_of_lets h⟩
  refine ⟨_, rfl, ?_⟩
  rw [if_pos hif]
  cases write
  · rw [if_neg Bool.false_ne_true, regRead_domainOff h hp hd]
    exact ⟨rfl, rfl, _, rfl, rfl, rfl, rfl⟩
  · rw [if_pos rfl, regWrite_domainOff 0 h hp hd]
    exact ⟨rfl, rfl, _, rfl, rfl, rfl, rfl⟩

/-- IZG_LOCK is set by a write that reaches it. -/
theorem izgLockSet_completes {wr : Writer} {s : State} (h : s.Lands wr IZG_LOCK.reg.addr) :
    Completes (.izgLockSet wr) s fun t => t.get IZG_LOCK.lock = 1 ∧ SameBut [IZG_LOCK.reg.addr] s t := by
  refine ⟨_, rfl, ?_⟩
  rw [reaching_of_lands (r := IZG_LOCK.lock) 1 _ h]
  exact ⟨get_set_same s IZG_LOCK.lock 1 (by decide), (SameBut.refl _ s).set IZG_LOCK.lock 1 (List.mem_singleton.2 rfl)⟩

/-- Settles O8, clause by clause: each of the machine's accesses through the lemma of its name, and the commands that are register writes through
what `State.reaching` does with them (`exec_of_ownWrite`, `exec_byIzger`). -/
theorem registerAccessesComplete : Obligations.RegisterAccessesComplete := by
  refine ⟨fun a v s r ix key h hp hd => registerWrite_completes v h hp hd,
    fun a s r ix key lo len h hp hd hc => rcRead_completes h hp hd hc,
    fun a write s h hp => unmappedAccess_completes h hp,
    fun a write s h hp hd => domainOffAccess_completes h hp hd, ?stopped, ?noneOut, ?byMover, ?domainOff,
    fun wr s h => izgLockSet_completes h⟩
  case stopped =>
    intro c wr r x s t h hw hr
    obtain ⟨f, hf⟩ := exec_of_ownWrite h
    exact ⟨_, hf, reaching_of_stopped x f hw hr⟩
  case noneOut =>
    intro c ch r x s h hany
    obtain ⟨f, hf⟩ := exec_of_ownWrite h
    exact ⟨_, hf, by simp only [State.reaching, takeFirst_eq_none hany]⟩
  case byMover =>
    intro c d ch r x s m rest h hd ht hl
    obtain ⟨f, y, hc, hd'⟩ := exec_byIzger h hd rest
    rw [hc, hd', reaching_of_lands y f hl]
    simp only [State.reaching, ht]
  case domainOff =>
    intro addr s h48 h8 hpor htrip hr hl
    exact ⟨_, reach_domainOff (mayWrite_izger h48 h8 hpor htrip hl) hr, rfl, _, rfl, rfl, rfl⟩

end Sys2Proof.Machine
end

section
/-!
PROOFS. Packets (02 R42, R49, R50): what the flits of a packet made here read back as.
-/
namespace Sys2Proof.Machine

/-- The packet read holds every flit after its header as it arrived (02 R50). -/
@[simp] theorem rest_pktOf (fs : List Flit) (cls port : Nat) : (pktOf fs cls port).rest = fs.drop 1 := rfl

/-- The flits of a packet made here: header, payload, trailer (02 R42). -/
theorem pktFlits_mkPkt (h : Header) (data : List Byte) :
    pktFlits (mkPkt h data) = hdrFlit h :: (bodyFlits data ++ [tailFlit (ecrcOf h data) false]) := rfl

/-- No packet made here reads back as itself: it was made with no flits that arrived, and the one read holds at least its trailer. -/
theorem pktOf_pktFlits_mkPkt_ne (h : Header) (data : List Byte) (cls port : Nat) :
    pktOf (pktFlits (mkPkt h data)) cls port ≠ { mkPkt h data with cls, port } := by
  intro he
  have hrest : bodyFlits data ++ [tailFlit (ecrcOf h data) false] = [] := by
    have hr := congrArg Packet.rest he
    rwa [rest_pktOf, pktFlits_mkPkt] at hr
  exact List.append_ne_nil_of_right_ne_nil _ (List.cons_ne_nil _ _) hrest

/-- Refutes O54: a PUT of four bytes, like every packet made here, does not read back as itself, since `pktOf` fills `Packet.rest` with the
payload flits and the trailer and `mkPkt` leaves it empty (`pktOf_pktFlits_mkPkt_ne`). -/
theorem not_packetRoundTrip : ¬ Obligations.PacketRoundTrip := by
  unfold Obligations.PacketRoundTrip
  intro hall
  obtain ⟨-, hback, -⟩ := hall { opcode := 1, length := 4, dstEp := 9 } [1, 2, 3, 4] 0 0 (by unfold Header.Fits; decide) rfl
  exact pktOf_pktFlits_mkPkt_ne _ _ _ _ hback

end Sys2Proof.Machine
end

section
/-!
PROOFS. Doorbells, rings and event queues (09 R329, R331, R333, R339, R345, R346): the registers each command writes, what they read as after it,
and what of the state it leaves alone.
-/
namespace Sys2Proof.Machine

/-! ### A field written and read back -/

/-- A field reads as the value written to it, when the value fits. -/
theorem get_set_fits (s : State) (r : RF) {v : Nat} (h : r.lo + r.len ≤ 64) (hv : v < 2 ^ r.len) : (s.set r v).get r = v :=
  (get_set_same s r v h).trans (Nat.mod_eq_of_lt hv)

theorem bf_lt (n lo len : Nat) : bf n lo len < 2 ^ len := Nat.mod_lt _ (Nat.two_pow_pos _)

/-- Registers that may change may be named with others. -/
theorem SameBut.mono {as bs : List Nat} {s t : State} (h : SameBut as s t) (m : as ⊆ bs) : SameBut bs s t :=
  ⟨h.1, fun q hq => h.2 q fun ha => hq (m ha)⟩

/-! ### The registers of a ring and of a queue lie apart -/

theorem ringRegs_apart (a r : Nat) :
    (ACC_RING1.reg a r).addr ≠ (ACC_RING3.reg a r).addr ∧ (ACC_RING2.reg a r).addr ≠ (ACC_RING1.reg a r).addr ∧
      (ACC_RING2.reg a r).addr ≠ (ACC_RING3.reg a r).addr := by
  simp [ACC_RING1.reg, ACC_RING2.reg, ACC_RING3.reg, RF.whole]

theorem eqRegs_apart (a q : Nat) :
    (ACC_EQ1.reg a q).addr ≠ (ACC_EQ2.reg a q).addr ∧ (ACC_EQ1.reg a q).addr ≠ (ACC_EQ3.reg a q).addr ∧
      (ACC_EQ2.reg a q).addr ≠ (ACC_EQ3.reg a q).addr := by
  simp [ACC_EQ1.reg, ACC_EQ2.reg, ACC_EQ3.reg, RF.whole]

/-- The pools' register lies below every account's. -/
theorem pools_apart (a r : Nat) :
    ACC_STAT.reg.addr ≠ (ACC_RING1.reg a r).addr ∧ ACC_STAT.reg.addr ≠ (ACC_RING2.reg a r).addr ∧
      ACC_STAT.reg.addr ≠ (ACC_RING3.reg a r).addr ∧ ACC_STAT.reg.addr ≠ (ACC_EQ1.reg a r).addr := by
  simp only [ACC_STAT.reg, ACC_RING1.reg, ACC_RING2.reg, ACC_RING3.reg, ACC_EQ1.reg, RF.whole]
  omega

/-- The state of an account is in no register of a ring. -/
theorem acctState_apart (a r : Nat) : (ACC_BIND1.reg a).addr ≠ (ACC_RING2.reg a r).addr := by
  simp only [ACC_BIND1.reg, ACC_RING2.reg, RF.whole]
  omega

/-! ### The doorbell page -/

/-- A doorbell acts when its function takes memory requests, neither a power failure nor a reset is under way, and the account is neither
REMOVED nor RESETTING. -/
theorem doorbell_acts {s : State} {a : Nat} (hmem : s.memOn (s.aHl a) (s.aFn a) = true) (hpwr : s.pwr.pwrfail = false)
    (hstop : s.stopping = false) (hrem : s.aSt a ≠ aREMOVED) (hres : s.aSt a ≠ aRESETTING) (act : State → State) :
    s.doorbell a act = act s := by
  simp [State.doorbell, hmem, hpwr, hstop, hrem, hres]

section Doorbell
variable {s : State} {a : AcctNo} (hd : ∀ act, s.doorbell a.val act = act s)
include hd

/-- A producer index that the ring takes is set, and the ring reads on. -/
theorem exec_doorbellWrite {r : Fin 64} {v : BitVec 64} (hok : s.dbOk a.val r.val (bf v.toNat 0 32) = true) :
    exec (.doorbellWrite a r v) s =
      .next ((s.set (ACC_RING2.producer a.val r.val) (bf v.toNat 0 32)).ringFetch a.val r.val).activityUpd :=
  congrArg Host.Outcome.next ((hd _).trans (if_pos hok))

/-- A descriptor that names the ring's producer index, on an ACTIVE account, is pushed there, and the index advances. -/
theorem exec_inlinePush {d : BitVec 512} {r i : Nat} (hr : bf d.toNat 16 6 = r) (hi : bf d.toNat 32 32 = i) (hprod : s.prodOf a.val r = i)
    (hst : s.aSt a.val = aACTIVE) (hon : s.on (ACC_RING1.enable a.val r) = true) (hrun : s.ringSt a.val r ≠ rSTOPPED)
    (hroom : subMod m32 i (s.consOf a.val r) < 2 ^ s.get (ACC_RING1.log2_size a.val r)) :
    exec (.inlinePush a d) s = .next ((((s.set (ACC_RING2.producer a.val r) ((i + 1) % m32)).modRing a.val r
      fun x => { x with pushed := tput x.pushed i d }).ringFetch a.val r).badHeads a.val (.ring (Fin.ofNat 64 r)) 64).activityUpd := by
  subst hr
  have hact (v : Nat) : (s.set (ACC_RING2.producer a.val (bf d.toNat 16 6)) v).aSt a.val = aACTIVE :=
    (get_set_addr s (ACC_RING2.producer a.val _) (ACC_BIND1.state a.val) v (acctState_apart _ _)).trans hst
  refine congrArg Host.Outcome.next ((hd _).trans ?_)
  simp [hon, hrun, hroom, hi, hprod, hact]

end Doorbell

/-! ### A queue's consumer doorbell -/

/-- The registers of a queue after its consumer doorbell has been taken: the consumer index, `full` and, where it arms, `armed`. -/
def State.eqTaken (s : State) (a q n : Nat) (arm : Bool) : State :=
  let u := (s.set (ACC_EQ2.consumer a q) n).fullUpd a q
  if arm then u.set (ACC_EQ3.armed a q) 1 else u

theorem fullUpd_sameBut (s : State) (a q : Nat) : SameBut [(ACC_EQ3.reg a q).addr] s (s.fullUpd a q) := by
  unfold State.fullUpd
  split
  · exact (SameBut.refl _ s).set (ACC_EQ3.full a q) 0 (List.mem_singleton.2 rfl)
  · exact SameBut.refl _ s

theorem fullUpd_armed (s : State) (a q : Nat) : (s.fullUpd a q).get (ACC_EQ3.armed a q) = s.get (ACC_EQ3.armed a q) := by
  unfold State.fullUpd
  split
  · exact get_set_field s (ACC_EQ3.full a q) (ACC_EQ3.armed a q) 0 rfl rfl (by decide : 24 + 1 ≤ 64) (.inr (by decide : 24 + 1 ≤ 25))
  · rfl

/-- After the consumer index only ACC_EQ3 is written. -/
theorem eqTaken_sameBut_consumer (s : State) (a q n : Nat) (arm : Bool) :
    SameBut [(ACC_EQ3.reg a q).addr] (s.set (ACC_EQ2.consumer a q) n) (s.eqTaken a q n arm) := by
  have hfull := fullUpd_sameBut (s.set (ACC_EQ2.consumer a q) n) a q
  cases arm
  · exact hfull
  · exact hfull.set (ACC_EQ3.armed a q) 1 (List.mem_singleton.2 rfl)

theorem eqTaken_sameBut (s : State) (a q n : Nat) (arm : Bool) :
    SameBut [(ACC_EQ2.reg a q).addr, (ACC_EQ3.reg a q).addr] s (s.eqTaken a q n arm) :=
  ((SameBut.refl _ s).set (ACC_EQ2.consumer a q) n (List.mem_cons_self ..)).trans
    ((eqTaken_sameBut_consumer s a q n arm).mono (List.subset_cons_self ..))

theorem eqTaken_get_eq2 (s : State) (a q n : Nat) (arm : Bool) (f : RF) (hf : f.addr = (ACC_EQ2.reg a q).addr) :
    (s.eqTaken a q n arm).get f = (s.set (ACC_EQ2.consumer a q) n).get f :=
  (eqTaken_sameBut_consumer s a q n arm).get f (by simpa [hf] using (eqRegs_apart a q).2.2)

theorem eqTaken_consumer (s : State) (a q : Nat) {n : Nat} (arm : Bool) (hn : n < 2 ^ 32) :
    (s.eqTaken a q n arm).get (ACC_EQ2.consumer a q) = n :=
  (eqTaken_get_eq2 s a q n arm (ACC_EQ2.consumer a q) rfl).trans (get_set_fits s (ACC_EQ2.consumer a q) (by decide : 32 + 32 ≤ 64) hn)

theorem eqTaken_producer (s : State) (a q n : Nat) (arm : Bool) :
    (s.eqTaken a q n arm).get (ACC_EQ2.producer a q) = s.get (ACC_EQ2.producer a q) :=
  (eqTaken_get_eq2 s a q n arm (ACC_EQ2.producer a q) rfl).trans
    (get_set_field s (ACC_EQ2.consumer a q) (ACC_EQ2.producer a q) n rfl rfl (by decide : 32 + 32 ≤ 64) (.inl (by decide : 0 + 32 ≤ 32)))

theorem eqTaken_armed (s : State) (a q n : Nat) (arm : Bool) :
    (s.eqTaken a q n arm).get (ACC_EQ3.armed a q) = if arm then 1 else s.get (ACC_EQ3.armed a q) := by
  cases arm
  · exact (fullUpd_armed _ a q).trans (get_set_addr s (ACC_EQ2.consumer a q) (ACC_EQ3.armed a q) n (eqRegs_apart a q).2.2.symm)
  · exact get_set_fits _ (ACC_EQ3.armed a q) (by decide : 25 + 1 ≤ 64) (by decide : 1 < 2 ^ 1)

theorem eqTaken_irq_en (s : State) (a q n : Nat) (arm : Bool) :
    (s.eqTaken a q n arm).on (ACC_EQ1.irq_en a q) = s.on (ACC_EQ1.irq_en a q) := by
  obtain ⟨h12, h13, -⟩ := eqRegs_apart a q
  have hget := (eqTaken_sameBut s a q n arm).get (ACC_EQ1.irq_en a q)
    (List.not_mem_cons_of_ne_of_not_mem h12 (List.not_mem_cons_of_ne_of_not_mem h13 List.not_mem_nil))
  simp only [State.on, hget]

section Consumer
variable {s : State} {a : AcctNo} (hd : ∀ act, s.doorbell a.val act = act s) {q : Fin 64} {v : BitVec 64}
include hd

/-- A consumer index up to the producer index is taken; a queue that it arms while events wait signals at once (09 R346; log entry 30). -/
theorem exec_eqConsumerDoorbell
    (hle : subMod m32 (bf v.toNat 0 32) (s.get (ACC_EQ2.consumer a.val q.val)) ≤
      subMod m32 (s.get (ACC_EQ2.producer a.val q.val)) (s.get (ACC_EQ2.consumer a.val q.val))) :
    exec (.eqConsumerDoorbell a q v) s =
      let u := s.eqTaken a.val q.val (bf v.toNat 0 32) (bit v.toNat 32)
      .next (if bit v.toNat 32 ∧ s.get (ACC_EQ2.producer a.val q.val) ≠ bf v.toNat 0 32 ∧ s.on (ACC_EQ1.irq_en a.val q.val) then
        u.msix (u.aHl a.val) (u.aFn a.val) (u.get (ACC_EQ1.vector a.val q.val)) else u) := by
  have hirq := eqTaken_irq_en s a.val q.val (bf v.toNat 0 32) (bit v.toNat 32)
  refine congrArg Host.Outcome.next ((hd _).trans ((if_neg (Nat.not_lt.2 hle)).trans ?_))
  cases harm : bit v.toNat 32
  · simp [State.eqTaken]
  · rw [harm] at hirq
    simp only [State.eqTaken, if_true] at hirq ⊢
    simp [hirq]

/-- A consumer index past the producer index is ignored and counted. -/
theorem exec_eqConsumerDoorbell_ignored
    (hlt : subMod m32 (s.get (ACC_EQ2.producer a.val q.val)) (s.get (ACC_EQ2.consumer a.val q.val)) <
      subMod m32 (bf v.toNat 0 32) (s.get (ACC_EQ2.consumer a.val q.val))) :
    exec (.eqConsumerDoorbell a q v) s = .next (s.bump ACC_CNT_DB_IGN.ev) :=
  congrArg Host.Outcome.next ((hd _).trans (if_pos hlt))

end Consumer

/-! ### The producer index of a ring -/

theorem prodOf_set_producer (s : State) (a r : Nat) {n : Nat} (hn : n < 2 ^ 32) : (s.set (ACC_RING2.producer a r) n).prodOf a r = n :=
  get_set_fits s (ACC_RING2.producer a r) (by decide : 0 + 32 ≤ 64) hn

theorem consOf_set_producer (s : State) (a r n : Nat) : (s.set (ACC_RING2.producer a r) n).consOf a r = s.consOf a r :=
  get_set_field s (ACC_RING2.producer a r) (ACC_RING2.consumer a r) n rfl rfl (by decide : 0 + 32 ≤ 64) (.inr (by decide : 0 + 32 ≤ 32))

theorem set_producer_sameBut (s : State) (a r n : Nat) : SameBut [(ACC_RING2.reg a r).addr] s (s.set (ACC_RING2.producer a r) n) :=
  (SameBut.refl _ s).set (ACC_RING2.producer a r) n (List.mem_singleton.2 rfl)

/-! ### Enabling and disabling a ring -/

/-- A pool of fewer than 65,536 takes one more in its 17 bits. -/
theorem pool_fits {n : Nat} (h : n < 65536) : n + 1 < 2 ^ 17 := by omega

/-- The registers of a ring that is enabled: out of the pool, enabled, RUNNING. -/
def State.ringStarted (s : State) (a r : Nat) : State :=
  ((s.set ACC_STAT.rings_free (s.get ACC_STAT.rings_free - 1)).set (ACC_RING1.enable a r) 1).set (ACC_RING3.state a r) rRUNNING

/-- The registers of a ring that is disabled: not enabled, DISABLED with no cause, back in the pool. -/
def State.ringFreed (s : State) (a r : Nat) : State :=
  (((s.set (ACC_RING1.enable a r) 0).set (ACC_RING3.state a r) rDISABLED).set (ACC_RING3.stop_cause a r) 0).set ACC_STAT.rings_free
    (s.get ACC_STAT.rings_free + 1)

/-- The registers that enabling or disabling a ring writes. -/
def ringPoolRegs (a r : Nat) : List Nat := [ACC_STAT.reg.addr, (ACC_RING1.reg a r).addr, (ACC_RING3.reg a r).addr]

theorem ringStarted_sameBut (s : State) (a r : Nat) : SameBut (ringPoolRegs a r) s (s.ringStarted a r) :=
  (((SameBut.refl _ s).set ACC_STAT.rings_free _ (List.mem_cons_self ..)).set (ACC_RING1.enable a r) 1
    (List.mem_cons_of_mem _ (List.mem_cons_self ..))).set (ACC_RING3.state a r) rRUNNING
    (List.mem_cons_of_mem _ (List.mem_cons_of_mem _ (List.mem_cons_self ..)))

theorem ringFreed_sameBut (s : State) (a r : Nat) : SameBut (ringPoolRegs a r) s (s.ringFreed a r) :=
  have m3 : (ACC_RING3.reg a r).addr ∈ ringPoolRegs a r := List.mem_cons_of_mem _ (List.mem_cons_of_mem _ (List.mem_cons_self ..))
  ((((SameBut.refl _ s).set (ACC_RING1.enable a r) 0 (List.mem_cons_of_mem _ (List.mem_cons_self ..))).set (ACC_RING3.state a r) rDISABLED
    m3).set (ACC_RING3.stop_cause a r) 0 m3).set ACC_STAT.rings_free _ (List.mem_cons_self ..)

/-- Enabling or disabling a ring leaves its indices alone. -/
theorem indices_of_sameBut {s t : State} {a r : Nat} (h : SameBut (ringPoolRegs a r) s t) :
    t.prodOf a r = s.prodOf a r ∧ t.consOf a r = s.consOf a r := by
  obtain ⟨-, h21, h23⟩ := ringRegs_apart a r
  obtain ⟨-, h2, -⟩ := pools_apart a r
  have hm : (ACC_RING2.reg a r).addr ∉ ringPoolRegs a r := by simpa [ringPoolRegs] using ⟨h2.symm, h21, h23⟩
  exact ⟨h.get (ACC_RING2.producer a r) hm, h.get (ACC_RING2.consumer a r) hm⟩

theorem ringStarted_enable (s : State) (a r : Nat) : (s.ringStarted a r).get (ACC_RING1.enable a r) = 1 :=
  (get_set_addr _ (ACC_RING3.state a r) (ACC_RING1.enable a r) _ (ringRegs_apart a r).1).trans
    (get_set_fits _ (ACC_RING1.enable a r) (by decide : 16 + 1 ≤ 64) (by decide : 1 < 2 ^ 1))

theorem ringStarted_ringSt (s : State) (a r : Nat) : (s.ringStarted a r).ringSt a r = rRUNNING :=
  get_set_fits _ (ACC_RING3.state a r) (by decide : 0 + 2 ≤ 64) (by decide : 1 < 2 ^ 2)

theorem ringStarted_rings_free (s : State) (a r : Nat) : (s.ringStarted a r).get ACC_STAT.rings_free = s.get ACC_STAT.rings_free - 1 := by
  obtain ⟨h1, -, h3, -⟩ := pools_apart a r
  have hlt : s.get ACC_STAT.rings_free - 1 < 2 ^ 17 := Nat.lt_of_le_of_lt (Nat.sub_le ..) (get_lt s ACC_STAT.rings_free)
  rw [State.ringStarted, get_set_addr _ (ACC_RING3.state a r) ACC_STAT.rings_free _ h3,
    get_set_addr _ (ACC_RING1.enable a r) ACC_STAT.rings_free _ h1, get_set_fits _ ACC_STAT.rings_free (by decide) hlt]

theorem ringFreed_enable (s : State) (a r : Nat) : (s.ringFreed a r).get (ACC_RING1.enable a r) = 0 := by
  obtain ⟨h13, -⟩ := ringRegs_apart a r
  rw [State.ringFreed, get_set_addr _ ACC_STAT.rings_free (ACC_RING1.enable a r) _ (pools_apart a r).1.symm,
    get_set_addr _ (ACC_RING3.stop_cause a r) (ACC_RING1.enable a r) _ h13, get_set_addr _ (ACC_RING3.state a r) (ACC_RING1.enable a r) _ h13]
  exact get_set_fits s (ACC_RING1.enable a r) (by decide : 16 + 1 ≤ 64) (by decide : 0 < 2 ^ 1)

theorem ringFreed_ringSt (s : State) (a r : Nat) : (s.ringFreed a r).ringSt a r = rDISABLED := by
  rw [State.ringSt, State.ringFreed, get_set_addr _ ACC_STAT.rings_free (ACC_RING3.state a r) _ (pools_apart a r).2.2.1.symm]
  exact (get_set_field _ (ACC_RING3.stop_cause a r) (ACC_RING3.state a r) 0 rfl rfl (by decide : 4 + 4 ≤ 64) (.inl (by decide : 0 + 2 ≤ 4))).trans
    (get_set_fits _ (ACC_RING3.state a r) (by decide : 0 + 2 ≤ 64) (by decide : 0 < 2 ^ 2))

theorem ringFreed_stop_cause (s : State) (a r : Nat) : (s.ringFreed a r).get (ACC_RING3.stop_cause a r) = 0 :=
  (get_set_addr _ ACC_STAT.rings_free (ACC_RING3.stop_cause a r) _ (pools_apart a r).2.2.1.symm).trans
    (get_set_fits _ (ACC_RING3.stop_cause a r) (by decide : 4 + 4 ≤ 64) (by decide : 0 < 2 ^ 4))

theorem ringFreed_rings_free {s : State} (a r : Nat) (h : s.get ACC_STAT.rings_free < 65536) :
    (s.ringFreed a r).get ACC_STAT.rings_free = s.get ACC_STAT.rings_free + 1 :=
  get_set_fits _ ACC_STAT.rings_free (by decide) (pool_fits h)

@[simp] theorem State.modRing_get (s : State) (a r : Nat) (f : Ring → Ring) (q : RF) : (s.modRing a r f).get q = s.get q := rfl
@[simp] theorem State.fetchDrop_get (s : State) (a r : Nat) (q : RF) : (s.fetchDrop a r).get q = s.get q := rfl
@[simp] theorem State.fetchDrop_ring (s : State) (a r b i : Nat) : (s.fetchDrop a r).ring b i = s.ring b i := rfl

@[simp] theorem State.modRing_ring_self (s : State) (a r : Nat) (f : Ring → Ring) : (s.modRing a r f).ring a r = f (s.ring a r) := by
  simp [State.modRing, State.ring, tget_tput_self]

/-- Disabling an enabled ring: its registers, its descriptor read, and what was staged or pushed. -/
theorem ringOff_of_on {s : State} {a r : Nat} (hon : s.on (ACC_RING1.enable a r) = true) :
    s.ringOff a r = ((s.ringFreed a r).fetchDrop a r).modRing a r fun x => { x with staged := [], pushed := [], fetching := 0 } := by
  obtain ⟨h1, -, h3, -⟩ := pools_apart a r
  have hfree : (((s.set (ACC_RING1.enable a r) 0).set (ACC_RING3.state a r) rDISABLED).set (ACC_RING3.stop_cause a r) 0).get
      ACC_STAT.rings_free = s.get ACC_STAT.rings_free := by
    rw [get_set_addr _ (ACC_RING3.stop_cause a r) ACC_STAT.rings_free _ h3, get_set_addr _ (ACC_RING3.state a r) ACC_STAT.rings_free _ h3,
      get_set_addr _ (ACC_RING1.enable a r) ACC_STAT.rings_free _ h1]
  simp only [State.ringOff, State.ringFreed, hon, hfree, Bool.not_true, Bool.false_eq_true, if_false]

/-- The registers of a ring that has been disabled. -/
theorem ringOff_get {s : State} {a r : Nat} (hon : s.on (ACC_RING1.enable a r) = true) (q : RF) :
    (s.ringOff a r).get q = (s.ringFreed a r).get q := by
  rw [ringOff_of_on hon, State.modRing_get, State.fetchDrop_get]

/-- Nothing of a ring that has been disabled stays staged, pushed or on its way; what is in progress goes on. -/
theorem ringOff_ring {s : State} {a r : Nat} (hon : s.on (ACC_RING1.enable a r) = true) :
    (s.ringOff a r).ring a r = { s.ring a r with staged := [], pushed := [], fetching := 0 } := by
  rw [ringOff_of_on hon, State.modRing_ring_self, State.fetchDrop_ring]
  rfl

theorem exec_ringEnable {s : State} {a : AcctNo} {r : Fin 64} (hrem : s.aSt a.val ≠ aREMOVED)
    (hoff : s.on (ACC_RING1.enable a.val r.val) = false) (hnote : (s.ring a.val r.val).stopNotice = false)
    (hfree : s.get ACC_STAT.rings_free ≠ 0) :
    exec (.ringEnable a r) s = .next ((((s.ringStarted a.val r.val).modRing a.val r.val fun x => x).ringFetch a.val r.val).activityUpd) :=
  congrArg Host.Outcome.next ((if_neg (by simp [hrem, hoff, hnote])).trans (if_neg hfree))

theorem exec_ringDisable {s : State} {a : AcctNo} {r : Fin 64} (hrem : s.aSt a.val ≠ aREMOVED) :
    exec (.ringDisable a r) s = .next (s.ringOff a.val r.val).activityUpd :=
  congrArg Host.Outcome.next (if_neg hrem)

/-! ### Enabling and disabling a queue -/

/-- The registers of a queue that is enabled: out of the pool, enabled. -/
def State.eqStarted (s : State) (a q : Nat) : State :=
  (s.set ACC_STAT.eqs_free (s.get ACC_STAT.eqs_free - 1)).set (ACC_EQ1.enable a q) 1

/-- The registers of a queue that is disabled: not enabled, back in the pool. -/
def State.eqFreed (s : State) (a q : Nat) : State :=
  (s.set (ACC_EQ1.enable a q) 0).set ACC_STAT.eqs_free (s.get ACC_STAT.eqs_free + 1)

theorem eqStarted_sameBut (s : State) (a q : Nat) : SameBut [ACC_STAT.reg.addr, (ACC_EQ1.reg a q).addr] s (s.eqStarted a q) :=
  ((SameBut.refl _ s).set ACC_STAT.eqs_free _ (List.mem_cons_self ..)).set (ACC_EQ1.enable a q) 1
    (List.mem_cons_of_mem _ (List.mem_cons_self ..))

theorem eqFreed_sameBut (s : State) (a q : Nat) : SameBut [ACC_STAT.reg.addr, (ACC_EQ1.reg a q).addr] s (s.eqFreed a q) :=
  ((SameBut.refl _ s).set (ACC_EQ1.enable a q) 0 (List.mem_cons_of_mem _ (List.mem_cons_self ..))).set ACC_STAT.eqs_free _
    (List.mem_cons_self ..)

theorem eqStarted_eqOn (s : State) (a q : Nat) : (s.eqStarted a q).eqOn a q = true :=
  (on_eq_true_iff _ _).2 (by
    rw [State.eqStarted, get_set_fits _ (ACC_EQ1.enable a q) (by decide : 21 + 1 ≤ 64) (by decide : 1 < 2 ^ 1)]
    exact Nat.one_ne_zero)

theorem eqStarted_eqs_free (s : State) (a q : Nat) : (s.eqStarted a q).get ACC_STAT.eqs_free = s.get ACC_STAT.eqs_free - 1 :=
  (get_set_addr _ (ACC_EQ1.enable a q) ACC_STAT.eqs_free _ (pools_apart a q).2.2.2).trans
    (get_set_fits _ ACC_STAT.eqs_free (by decide) (Nat.lt_of_le_of_lt (Nat.sub_le ..) (get_lt s ACC_STAT.eqs_free)))

theorem eqFreed_eqOn (s : State) (a q : Nat) : (s.eqFreed a q).eqOn a q = false :=
  (on_eq_false_iff _ _).2 ((get_set_addr _ ACC_STAT.eqs_free (ACC_EQ1.enable a q) _ (pools_apart a q).2.2.2.symm).trans
    (get_set_fits s (ACC_EQ1.enable a q) (by decide : 21 + 1 ≤ 64) (by decide : 0 < 2 ^ 1)))

theorem eqFreed_eqs_free {s : State} (a q : Nat) (h : s.get ACC_STAT.eqs_free < 65536) :
    (s.eqFreed a q).get ACC_STAT.eqs_free = s.get ACC_STAT.eqs_free + 1 :=
  get_set_fits _ ACC_STAT.eqs_free (by decide) (pool_fits h)

theorem exec_eqEnable {s : State} {a : AcctNo} {q : Fin 64} (hrem : s.aSt a.val ≠ aREMOVED) (hoff : s.eqOn a.val q.val = false)
    (hfree : s.get ACC_STAT.eqs_free ≠ 0) : exec (.eqEnable a q) s = .next (s.eqStarted a.val q.val) :=
  congrArg Host.Outcome.next ((if_neg (by simp [hrem, hoff])).trans (if_neg hfree))

/-- A queue that no event is owed to and that is not the account's notice queue is disabled. -/
theorem exec_eqDisable {s : State} {a : AcctNo} {q : Fin 64} (hrem : s.aSt a.val ≠ aREMOVED) (hon : s.eqOn a.val q.val = true)
    (howed : s.get (ACC_EQ3.reserved_events a.val q.val) = 0) (hnot : s.get (ACC_NOTIFY.eq a.val) ≠ q.val) :
    exec (.eqDisable a q) s = .next (s.eqFreed a.val q.val) :=
  congrArg Host.Outcome.next ((if_neg hrem).trans ((if_neg (by simp [howed, hnot])).trans (if_neg (by simp [hon]))))

/-! ### The obligation -/

/-- Settles O11, clause by clause: each command through its `exec_` lemma, and the registers it leaves through the lemmas about the state it
answers. -/
theorem doorbellsAndRingsComplete : Obligations.DoorbellsAndRingsComplete := by
  refine ⟨?doorbell, ?inline, ?taken, ?ignored, ?ringEnabled, ?ringDisabled, ?eqEnabled, ?eqDisabled⟩
  case doorbell =>
    intro a r v s hmem hpwr hstop hrem hres hon hprod hcons
    have hok : s.dbOk a.val r.val (bf v.toNat 0 32) = true := by simp [State.dbOk, hon, hprod, hcons]
    exact ⟨_, exec_doorbellWrite (doorbell_acts hmem hpwr hstop hrem hres) hok, _, rfl, prodOf_set_producer s _ _ (bf_lt ..),
      consOf_set_producer .., set_producer_sameBut ..⟩
  case inline =>
    intro a d s r i hr hi hmem hpwr hstop hst hon hrun hprod hroom
    have hd := doorbell_acts hmem hpwr hstop (by rw [hst]; decide) (by rw [hst]; decide)
    exact ⟨_, exec_inlinePush hd hr hi hprod hst hon hrun hroom, s.set (ACC_RING2.producer a.val r) ((i + 1) % m32), rfl,
      prodOf_set_producer s _ _ (Nat.mod_lt _ (by decide)), consOf_set_producer .., set_producer_sameBut ..⟩
  case taken =>
    intro a q v s hmem hpwr hstop hrem hres hle
    exact ⟨_, exec_eqConsumerDoorbell (doorbell_acts hmem hpwr hstop hrem hres) hle, _, rfl, eqTaken_consumer s _ _ _ (bf_lt ..),
      eqTaken_producer .., eqTaken_armed .., eqTaken_sameBut ..⟩
  case ignored =>
    intro a q v s hmem hpwr hstop hrem hres hlt
    exact ⟨_, exec_eqConsumerDoorbell_ignored (doorbell_acts hmem hpwr hstop hrem hres) hlt, rfl⟩
  case ringEnabled =>
    intro a r s hrem hoff hnote hfree
    obtain ⟨hprod, hcons⟩ := indices_of_sameBut (ringStarted_sameBut s a.val r.val)
    refine ⟨_, exec_ringEnable hrem hoff hnote hfree, _, rfl, ringStarted_enable .., ringStarted_ringSt .., ?_, hprod, hcons,
      ringStarted_sameBut ..⟩
    rw [ringStarted_rings_free, Nat.sub_add_cancel (Nat.pos_of_ne_zero hfree)]
  case ringDisabled =>
    intro a r s hrem hon hfree
    obtain ⟨hprod, hcons⟩ := indices_of_sameBut (ringFreed_sameBut s a.val r.val)
    refine ⟨_, exec_ringDisable hrem, s.ringOff a.val r.val, rfl, ?_⟩
    simp only [State.ringSt, State.prodOf, State.consOf, ringOff_get hon, ringOff_ring hon, and_true]
    exact ⟨ringFreed_enable .., ringFreed_ringSt .., ringFreed_stop_cause .., ringFreed_rings_free _ _ hfree, hprod, hcons⟩
  case eqEnabled =>
    intro a q s hrem hoff hfree
    refine ⟨_, exec_eqEnable hrem hoff hfree, eqStarted_eqOn .., ?_, eqStarted_sameBut ..⟩
    rw [eqStarted_eqs_free, Nat.sub_add_cancel (Nat.pos_of_ne_zero hfree)]
  case eqDisabled =>
    intro a q s hrem hon howed hnot hfree
    exact ⟨_, exec_eqDisable hrem hon howed hnot, eqFreed_eqOn .., eqFreed_eqs_free _ _ hfree, eqFreed_sameBut ..⟩

end Sys2Proof.Machine
end
